-- ==== Sys2Proof/Word.lean ====
section
/-!
DEFINITION. The machine's words: a 32-bit register word, a byte, and their plainest arithmetic.
-/
namespace Sys2Proof

/-- A 32-bit register word (registers, postmarks and sequence numbers are 32 bits wide). -/
abbrev Word := BitVec 32

/-- One byte of memory, of a letter or of an image. -/
abbrev Byte := BitVec 8

end Sys2Proof
end

