-- ==== Sys2Proof/Syntax.lean ====
section
/-!
DEFINITION. The commands the block takes: one constructor of `Instr` for each row of spec/opcode_table.json, with the
row's operands. A command comes from outside: a letter, an access to a register or to memory, a sample, a pin, a
frame, the expiry of a timer.
Choices of the model: log 111.
-/
namespace Sys2Proof

/-- Where a letter came from: the pigeonhole it was posted on, or the management queue (R70, R86). -/
inductive Src where
  | ph (n : Nat)
  | mgmt
  deriving DecidableEq, Repr

/-- A letter (Table PST-1). `body` is bytes 16 to 55, `frank` bytes 56 to 63. -/
structure Letter where
  opcode : Nat
  unit : Nat
  flags : Nat
  seq : Nat
  deliverAt : Nat
  deadline : Nat
  body : List Byte
  frank : List Byte
  deriving DecidableEq, Repr

/-- A letter at its delivery: the letter, its source, and whether an ABORT has marked it (R90). The opcode of the
letter is the one of the command's row; the field holds it again and `WellFormed` asks that it is the row's. -/
structure Msg where
  src : Src
  marked : Bool
  letter : Letter
  deriving DecidableEq, Repr

/-- Who makes an access: a core (its unit code of Table PST-4: 0x40 + n for a pair's main core, 0x48 + n for a split
core) or the debug module's system bus with the hart that hartsel selects. `letter`: the post office at the delivery of a WRITE or READ
letter, in the name of the host with a unit code; it names no one in a command. -/
inductive Requester where
  | core (code : Nat)
  | debug (hart : Nat)
  | letter (code : Nat)
  deriving DecidableEq, Repr

/-- What a resolver channel has published: source 0 or 1, 16-bit angle of one resolver electrical turn and the one it published 400 ns
before, amplitude in % of nominal, tracking error in 0.1° electrical. -/
structure PosIn where
  src : Nat
  elec : Nat
  prev : Nat
  amp : Nat
  terr : Nat
  deriving DecidableEq, Repr


/-- A SENT frame as it arrives (R175): the lengths in ns, from falling edge to falling edge, of its sync pulse, of its nibble pulses
(status, data, CRC) and of its pause pulse where there is one. -/
structure SentIn where
  sync : Nat
  pulses : List Nat
  pause : Option Nat
  deriving DecidableEq, Repr


/-- One period of the pilot's oscillation (R210): its length and high time in 100 ns, its positive and negative plateaus in mV. -/
structure PilotPer where
  len : Nat
  high : Nat
  pos : Int
  neg : Int
  deriving DecidableEq, Repr

/-- What the pilot detector has measured (R210): the PWM periods up to now, latest first, none while the line does not oscillate; the steady
level in mV and for how many ns it has kept its class. -/
structure PilotIn where
  periods : List PilotPer
  level : Int
  held : Nat
  deriving DecidableEq, Repr


/-- Grid measurements: rms phase-to-neutral voltages by phase and rms current per phase, Q16.16. -/
structure GridIn where
  u : List Int
  i : Int
  deriving DecidableEq, Repr


/-- What the regulator's sense inputs read: VOS in mV, and the 10-bit codes of the BIn inputs by phase number (R255). -/
structure RegIn where
  vos : Int
  bi : List Nat
  deriving DecidableEq, Repr


/-- What an actuator channel reads at a trough: the observer's speed in rpm and electrical angle in 1/65536 turn, the three shunt inputs
ASP − ASN in µV by position, VACT in mV. -/
structure ActIn where
  speed : Int
  ang : Nat
  shunts : List Int
  vact : Nat
  deriving DecidableEq, Repr

/-- What an actuator start phase has found: back-EMF amplitude in mV, speed in rpm with its sign, electrical angle in 1/65536
turn, and the six peak currents of SENSE. -/
structure ObsIn where
  amp : Nat
  rpm : Int
  ang : Nat
  peaks : List Nat
  deriving DecidableEq, Repr


/-- What the two comparators of a pair flag in a cycle (R319): bit c − 1 for group c of Table LSS-1, 1 RETIRE to 4 CSR. -/
structure CmpIn where
  a : Nat
  b : Nat
  deriving DecidableEq, Repr

/-- A CAN frame at a port (R412, R417, R418): identifier, extended format, FD, its data bytes, whether it was received without error, and how
often ISO 11898-1 raised the receive error counter by 8 with it: a dominant bit after the port's own error flag, a bit error in an error or
overload flag, each run of 8 dominant bits after one. -/
structure CanIn where
  id : Nat
  extended : Bool
  fd : Bool
  data : List Byte
  ok : Bool
  worse : Nat
  deriving DecidableEq, Repr

/-- An Ethernet frame that carries UDP (R420, R423, R424): VLAN ID of its tag; source MAC and IP address (4 or 16 octets) and UDP port;
destination address and UDP port; fragment, IPv4 options, checksum right (or absent in IPv4); the SCI, AN, PN and ICV check of its SecTAG;
R-TAG sequence number; UDP payload. An ARP request or neighbour solicitation (R411) has the address it asks for as destination address. -/
structure EthIn where
  vlan : Option Nat
  mac : List Byte
  ip : List Byte
  port : Nat
  dstIp : List Byte
  dstPort : Nat
  fragment : Bool
  options : Bool
  sumOk : Bool
  sec : Option (Nat × Nat × Nat × Bool)
  rtag : Option Nat
  payload : List Byte
  deriving DecidableEq, Repr

/-- The end of an attempt on CANn_TX (R416, R417): 0 sent, 1 an error, 2 arbitration lost, 3 an error that ISO 11898-1 does not count; and how
often the transmit error counter rose by 8 once more, for a bit error in an error or overload flag or a run of 8 dominant bits after one. -/
structure CanEnd where
  outcome : Nat
  worse : Nat
  deriving DecidableEq, Repr

/-- A Sync (R421): the offset to the grandmaster and the peer delay measured, in ns. -/
structure SyncIn where
  offset : Int
  delay : Nat
  deriving DecidableEq, Repr

/-- What an abstract command of the debug module does (R434): whether the debugger has cleared cmderr before it; whether it transfers a
register, by its number in the RISC-V debug specification (0x1000 + k for xk, 0x1020 + k for fk, below 0x1000 a CSR), write or read, and its
data; what the debugger has put into the program buffer since the last one, by word; whether the program buffer is then executed, the
registers that its instructions write, in order, and whether they end in an exception. -/
structure DbgCmd where
  clear : Bool
  transfer : Bool
  regno : Nat
  write : Bool
  data : Word
  buf : List (Nat × Word)
  exec : Bool
  runs : List (Nat × Word)
  fails : Bool
  deriving DecidableEq, Repr

/-- A JTAG instruction (R433, R434): BYPASS, IDCODE, SAMPLE/PRELOAD, DTMCS, DMI, or EXTEST or another one that drives pins, with the levels of
its boundary cells. -/
inductive JtagOp where
  | bypass | idcode | sample | dtmcs | dmi
  | drive (cells : List Bool)
  deriving DecidableEq, Repr

/-- The atomic memory operations of the A extension (Table EVC-1). -/
inductive AmoOp where
  | swap | add | xor | and | or | min | max | minu | maxu
  deriving DecidableEq, Repr

/-- The kind of a memory access: a plain one, LR, SC or an AMO of the A extension, or FENCE.I, which accesses nothing and invalidates the
core's own instruction cache (R393). -/
inductive MemKind where
  | plain | lr | sc | amo (op : AmoOp) | fenceI
  deriving DecidableEq, Repr

/-- A memory access by a core or the debugger: address, size in bytes (1, 2, 4 or 32), instruction fetch, store, the bytes
stored (the operand of an AMO), bytes of the codeword that are found in error beside those the state already holds, its kind, and the bytes
in error of each attempt of its fabric transfer that met errors (Table MEM-3, index 5). -/
structure MemOp where
  addr : Nat
  size : Nat
  fetch : Bool
  store : Bool
  data : List Byte
  upset : List (Nat × Byte)
  kind : MemKind
  fabric : List (List (Nat × Byte))
  deriving DecidableEq, Repr

/-- The commands. -/
inductive Instr where
  /-- EPOCH_BOUNDARY (R82). -/
  | epochBoundary
  /-- OPERATION_DEADLINE_PASSED (R89). -/
  | operationDeadlinePassed (key : Nat)
  /-- LETTER_POST (R78). -/
  | letterPost (who : Requester) (ph : Nat) (value : Word)
  /-- RECEIPT_CONSUME (R92). -/
  | receiptConsume (who : Requester) (ph : Nat) (value : Word)
  /-- RECEIPT_HANDOVER_TIMEOUT (R477). -/
  | receiptHandoverTimeout (index : Nat)
  /-- RECEIPT_MODERATION_EXPIRY (R92). -/
  | receiptModerationExpiry (ph : Nat)
  /-- SLEEP_ANNOUNCE (R93). -/
  | sleepAnnounce (who : Requester) (value : Word)
  /-- REGISTER_WRITE (R9). -/
  | registerWrite (who : Requester) (addr : Nat) (value : Word)
  /-- SYS_WERR_CODE_READ (R11). -/
  | sysWerrCodeRead (who : Requester)
  /-- PST_MERR_CODE_READ (R88). -/
  | pstMerrCodeRead (who : Requester)
  /-- MEM_LASTINFO_READ (R450). -/
  | memLastinfoRead (who : Requester)
  /-- FAULT_CAUSE_READ (R227). -/
  | faultCauseRead (who : Requester) (addr : Nat)
  /-- WRITE (R75). -/
  | write (m : Msg)
  /-- READ (R75). -/
  | read (m : Msg)
  /-- STATE (R75). -/
  | state (m : Msg)
  /-- ABORT (R90). -/
  | abort (m : Msg)
  /-- IMAGE_WRITE (R65). -/
  | imageWrite (m : Msg)
  /-- IMAGE_CHECK (R65). -/
  | imageCheck (m : Msg)
  /-- IMAGE_COMMIT (R67). -/
  | imageCommit (m : Msg)
  /-- FW_WRITE (R431). -/
  | fwWrite (m : Msg)
  /-- FW_CHECK (R431). -/
  | fwCheck (m : Msg)
  /-- FW_COMMIT (R431). -/
  | fwCommit (m : Msg)
  /-- CHECK_COMPLETE (R53). -/
  | checkComplete (firmware : Bool)
  /-- FE_HARM (R112). -/
  | feHarm (m : Msg)
  /-- FE_ADAPT (R111). -/
  | feAdapt (m : Msg)
  /-- FE_GAINS (R120). -/
  | feGains (m : Msg)
  /-- FE_CLEAR (R102). -/
  | feClear (m : Msg)
  /-- DRV_READ (R151). -/
  | drvRead (m : Msg)
  /-- DRV_WRITE (R151). -/
  | drvWrite (m : Msg)
  /-- RND_RUN (R170). -/
  | rndRun (m : Msg)
  /-- RND_HALT (R170). -/
  | rndHalt (m : Msg)
  /-- RND_URGENT (R167). -/
  | rndUrgent (m : Msg)
  /-- RND_CLEAR (R170). -/
  | rndClear (m : Msg)
  /-- POS_RUN (R178). -/
  | posRun (m : Msg)
  /-- POS_STOP (R178). -/
  | posStop (m : Msg)
  /-- SENT_RUN (R178). -/
  | sentRun (m : Msg)
  /-- SENT_STOP (R178). -/
  | sentStop (m : Msg)
  /-- TRA_ARM (R183). -/
  | traArm (m : Msg)
  /-- TRA_RUN (R189). -/
  | traRun (m : Msg)
  /-- TRA_TORQUE (R187). -/
  | traTorque (m : Msg)
  /-- TRA_STOP (R184). -/
  | traStop (m : Msg)
  /-- TRA_DISARM (R183). -/
  | traDisarm (m : Msg)
  /-- TRA_CLEAR (R203). -/
  | traClear (m : Msg)
  /-- CHOP_RUN (R185). -/
  | chopRun (m : Msg)
  /-- CHOP_HALT (R185). -/
  | chopHalt (m : Msg)
  /-- CHOP_AUTO_START (R185). -/
  | chopAutoStart (f : Nat)
  /-- CHG_ARM (R208). -/
  | chgArm (m : Msg)
  /-- CHG_START (R209). -/
  | chgStart (m : Msg)
  /-- CHG_STOP (R225). -/
  | chgStop (m : Msg)
  /-- CHG_DISARM (R208). -/
  | chgDisarm (m : Msg)
  /-- CHG_LIMIT (R213). -/
  | chgLimit (m : Msg)
  /-- CHG_BMS (R221). -/
  | chgBms (m : Msg)
  /-- CHG_CLEAR (R228). -/
  | chgClear (m : Msg)
  /-- TRANSPORT (R230). -/
  | transport (m : Msg)
  /-- HLV_ARM (R238). -/
  | hlvArm (m : Msg)
  /-- HLV_RUN (R237). -/
  | hlvRun (m : Msg)
  /-- HLV_SET (R238). -/
  | hlvSet (m : Msg)
  /-- HLV_STOP (R237). -/
  | hlvStop (m : Msg)
  /-- HLV_DISARM (R236). -/
  | hlvDisarm (m : Msg)
  /-- HLV_CLEAR (R238). -/
  | hlvClear (m : Msg)
  /-- HLV_AUTO_RUN (R236). -/
  | hlvAutoRun (f : Nat)
  /-- REG_ARM (R253). -/
  | regArm (m : Msg)
  /-- REG_RUN (R253). -/
  | regRun (m : Msg)
  /-- REG_STOP (R250). -/
  | regStop (m : Msg)
  /-- REG_DISARM (R253). -/
  | regDisarm (m : Msg)
  /-- REG_SET (R250). -/
  | regSet (m : Msg)
  /-- REG_CLEAR (R253). -/
  | regClear (m : Msg)
  /-- REG_AUTO_RUN (R253). -/
  | regAutoRun
  /-- ACT_ARM (R272). -/
  | actArm (m : Msg)
  /-- ACT_RUN (R269). -/
  | actRun (m : Msg)
  /-- ACT_SPEED (R273). -/
  | actSpeed (m : Msg)
  /-- ACT_STOP (R272). -/
  | actStop (m : Msg)
  /-- ACT_DISARM (R272). -/
  | actDisarm (m : Msg)
  /-- ACT_CLEAR (R273). -/
  | actClear (m : Msg)
  /-- ACT_LEAKTEST (R266). -/
  | actLeaktest (m : Msg)
  /-- GBX_RUN (R284). -/
  | gbxRun (m : Msg)
  /-- GBX_HALT (R284). -/
  | gbxHalt (m : Msg)
  /-- GBX_SHIFT (R280). -/
  | gbxShift (m : Msg)
  /-- GBX_PARK (R281). -/
  | gbxPark (m : Msg)
  /-- GBX_CLUTCH (R281). -/
  | gbxClutch (m : Msg)
  /-- GBX_CLEAR (R284). -/
  | gbxClear (m : Msg)
  /-- LDG_BATTERY (R302). -/
  | ldgBattery (m : Msg)
  /-- LDG_KEEPALIVE (R306). -/
  | ldgKeepalive (m : Msg)
  /-- SSM_RELEASE (R332). -/
  | ssmRelease (m : Msg)
  /-- SSM_FORCE (R337). -/
  | ssmForce (m : Msg)
  /-- RST_UNIT (R365). -/
  | rstUnit (m : Msg)
  /-- RST_PAIR (R364). -/
  | rstPair (m : Msg)
  /-- RST_SYSTEM (R364). -/
  | rstSystem (m : Msg)
  /-- STANDBY (R363). -/
  | standby (m : Msg)
  /-- EVC_RING (R395). -/
  | evcRing (m : Msg)
  /-- NET_RUN (R410). -/
  | netRun (m : Msg)
  /-- NET_HALT (R410). -/
  | netHalt (m : Msg)
  /-- SEC_REVOKE (R432). -/
  | secRevoke (m : Msg)
  /-- SEC_FKEY (R432). -/
  | secFkey (m : Msg)
  /-- SEC_SAK (R432). -/
  | secSak (m : Msg)
  /-- RND_URG_WRITE (R167). -/
  | rndUrgWrite (who : Requester) (r : Nat) (value : Word)
  /-- ROUND_QUEUE_READ (R166). -/
  | roundQueueRead (who : Requester) (r : Nat)
  /-- FCV_CORR_WRITE (R162). -/
  | fcvCorrWrite (who : Requester) (n : Nat) (value : Word)
  /-- RND_CORR_WRITE (R165). -/
  | rndCorrWrite (who : Requester) (r k : Nat) (value : Word)
  /-- POS_OFS_WRITE (R172). -/
  | posOfsWrite (who : Requester) (k : Nat) (value : Word)
  /-- LDG_NET_READ (R295). -/
  | ldgNetRead (who : Requester) (p : Nat)
  /-- WITHDRAWAL_QUEUE_READ (R299). -/
  | withdrawalQueueRead (who : Requester)
  /-- KEEPALIVE_BALANCE_READ (R307). -/
  | keepaliveBalanceRead (who : Requester)
  /-- IMBALANCE_CLEAR (R297). -/
  | imbalanceClear (who : Requester) (bits : Nat)
  /-- FAULT_N_ACKNOWLEDGE (R333). -/
  | faultNAcknowledge (who : Requester) (value : Word)
  /-- WATCHDOG_SERVICE (R334), with the ns since the last service as the sender has them (a report, log 221). -/
  | watchdogService (who : Requester) (n : Nat) (key : Word) (elapsed : Nat)
  /-- RST_PVEC_WRITE (R358). -/
  | rstPvecWrite (who : Requester) (n : Nat) (value : Word)
  /-- CAN_MODE_WRITE (R415). -/
  | canModeWrite (who : Requester) (n : Nat) (value : Word)
  /-- MDIO_TRANSACTION (R419). -/
  | mdioTransaction (who : Requester) (p : Nat) (value : Word)
  /-- MDIO_COMPLETE (R419). -/
  | mdioComplete (p data : Nat)
  /-- FUSE_IMAGE_KEY (R429). -/
  | fuseImageKey (who : Requester) (slot : Nat)
  /-- SET_FRANKING_KEY (R429). -/
  | setFrankingKey (who : Requester) (slot : Nat)
  /-- FUSE_DEBUG_KEY (R429). -/
  | fuseDebugKey (who : Requester) (slot : Nat)
  /-- REVOKE_IMAGE_KEY (R429). -/
  | revokeImageKey (who : Requester) (slot : Nat)
  /-- KEY_COMMAND_COMPLETE (R429). -/
  | keyCommandComplete
  /-- DEBUG_CHALLENGE_READ (R433). -/
  | debugChallengeRead (who : Requester)
  /-- DEBUG_RESPONSE_WRITE (R433). -/
  | debugResponseWrite (who : Requester) (value : Word)
  /-- CHALLENGE_EXPIRY (R433). -/
  | challengeExpiry
  /-- RANDOM_WORD_READ (R440). -/
  | randomWordRead (who : Requester) (healthy : Bool)
  /-- EVENT_CLAIM (R399). -/
  | eventClaim (who : Requester) (t : Nat)
  /-- EVENT_COMPLETE (R398). -/
  | eventComplete (who : Requester) (t : Nat) (value : Word)
  /-- DOORBELL_SET (R397). -/
  | doorbellSet (who : Requester) (value : Word)
  /-- EVENT_SOURCE_WRITE (R401). -/
  | eventSourceWrite (who : Requester) (m : Nat) (value : Word)
  /-- ERROR_INJECTION (R451). -/
  | errorInjection (who : Requester) (value : Word)
  /-- ERROR_COUNT_CLEAR (R450). -/
  | errorCountClear (who : Requester) (idx : Nat) (value : Word)
  /-- NVS_WINDOW_WRITE (R453). -/
  | nvsWindowWrite (who : Requester)
  /-- NVS_STRUCTURE_SLOT_WRITE (R453). -/
  | nvsStructureSlotWrite (who : Requester)
  /-- NVS_FIRMWARE_SLOT_WRITE (R453). -/
  | nvsFirmwareSlotWrite (who : Requester)
  /-- JOURNAL_POST (R459). -/
  | journalPost (who : Requester) (value : Word)
  /-- PIN_OUT_WRITE (R466). -/
  | pinOutWrite (who : Requester) (value : Word)
  /-- MEMORY_ACCESS (R442). -/
  | memoryAccess (who : Requester) (a : MemOp)
  /-- TABLE_RESTORE (R446). -/
  | tableRestore (off : Nat) (upset : List (Nat × Byte))
  /-- SCRUB_VISIT (R449). -/
  | scrubVisit (store cw : Nat) (upset : List (Nat × Byte)) (crossed : Bool)
  /-- MRAM_SCRUB (R449). -/
  | mramScrub (off : Nat) (upset : List (Nat × Byte))
  /-- MRAM_WRITE_PULSE_END (R453). -/
  | mramWritePulseEnd
  /-- JOURNAL_WRITE (R455). -/
  | journalWrite
  /-- CRITICAL_STATE_ERROR (R448). -/
  | criticalStateError (item : Nat)
  /-- LINK_FRAME_ERROR (R21). -/
  | linkFrameError (ue : Bool) (kind n : Nat)
  /-- SAMPLE_TRIGGER (R129): whether it precedes the latch of letter parameters, the legs with edges in its aperture (both reports, log 221), and
  the resolvers' measurements. -/
  | sampleTrigger (n : Nat) (early : Bool) (apert : List Nat) (angles : List PosIn)
  /-- CONVERSION_RESULT (R159). -/
  | conversionResult (g : Nat) (by_ : Option Nat) (raw : List Nat) (bad : Bool)
  /-- ENGINE_UPDATE (R103), with the time of the update point that its duties are for (a report, log 221). -/
  | engineUpdate (n point : Nat)
  /-- UPDATE_POINT_COMMIT (R125): at a peak or trough, with or without new duties (both reports, log 221). -/
  | updatePointCommit (n : Nat) (peak late : Bool)
  /-- LINK_WATCH_TRIGGER (R195). -/
  | linkWatchTrigger (g : Nat) (near : Bool)
  /-- DIDT_TRIP (R134), inside or outside the blanking window (a report, log 221). -/
  | didtTrip (n : Nat) (blanking : Bool)
  /-- SOFT_OFF_HOLD_END (R138). -/
  | softOffHoldEnd (n : Nat)
  /-- GF_FAULT (R137). -/
  | gfFault (n : Nat) (high : Bool)
  /-- ILOCK_LATCH (R133). -/
  | ilockLatch (n : Nat) (held : Bool)
  /-- DRIVE_EN_FALL (R141). -/
  | driveEnFall
  /-- DRIVE_EN_RISE (R141). -/
  | driveEnRise (low : Nat) (loud : List Nat)
  /-- GATE_LINK_WINDOW (R149). -/
  | gateLinkWindow (k : Nat)
  /-- GATE_LINK_RESPONSE (R148). -/
  | gateLinkResponse (k : Nat) (frame : List Byte)
  /-- GATE_LINK_TIMEOUT (R148). -/
  | gateLinkTimeout (k : Nat)
  /-- TRACTION_WATCH (R200). -/
  | tractionWatch (f : Nat) (angles : List PosIn)
  /-- LEDGER_TICK (R294). -/
  | ledgerTick
  /-- IMBALANCE_BLOCK (R296). -/
  | imbalanceBlock
  /-- PLANNER_ROUND (R301). -/
  | plannerRound
  /-- PLANNER_LATCH (R300), with the µs since the round began (a report, log 221). -/
  | plannerLatch (us : Nat)
  /-- PLANNER_STALE (R305). -/
  | plannerStale
  /-- POWER_HOLE_TIMEOUT (R304). -/
  | powerHoleTimeout (f : Nat)
  /-- CHOPPER_PERIOD (R198). -/
  | chopperPeriod (f : Nat)
  /-- TRACTION_STOP_COMPLETE (R183). -/
  | tractionStopComplete (f : Nat)
  /-- SENSORLESS_OBSERVE_SAMPLE (R190). -/
  | sensorlessObserveSample (f : Nat)
  /-- SENSORLESS_OBSERVE_END (R190). -/
  | sensorlessObserveEnd (f amp : Nat) (freq : Int) (ang : Nat)
  /-- IF_LOCK (R190). -/
  | ifLock (f : Nat)
  /-- CATCH_FAIL (R191). -/
  | catchFail (f : Nat)
  /-- ASC_FREEWHEEL_CHANGE (R201). -/
  | ascFreewheelChange (f : Nat)
  /-- UNKNOWN_SPEED_TIMEOUT (R200). -/
  | unknownSpeedTimeout (f : Nat)
  /-- ROUND_ENTRY_RESULT (R164). -/
  | roundEntryResult (r entry : Nat) (raw : List Nat)
  /-- URGENT_ARRIVAL (R168). -/
  | urgentArrival (r activity : Nat)
  /-- URGENT_RESULT (R167). -/
  | urgentResult (r raw : Nat)
  /-- REFRESH_LAPSE (R169). -/
  | refreshLapse (r entry : Nat)
  /-- REFERENCE_FAULT (R170). -/
  | referenceFault (r : Nat) (bad : Bool)
  /-- RESOLVER_FAULT (R173). -/
  | resolverFault (k flag : Nat)
  /-- RESOLVER_VALID_RETURN (R173). -/
  | resolverValidReturn (k : Nat)
  /-- EXCITATION_RESTART (R173). -/
  | excitationRestart (k : Nat)
  /-- ENCODER_COUNT (R174): the levels of A and B before the edge and after it. -/
  | encoderCount (k : Nat) (a0 b0 a b : Bool)
  /-- ENCODER_INDEX (R174). -/
  | encoderIndex (k : Nat)
  /-- SENT_FRAME (R177): the lengths in ns of its sync pulse, its status pulse, its data and CRC pulses and its pause pulse. -/
  | sentFrame (idx sync status : Nat) (data : List Nat) (pause : Option Nat)
  /-- SENT_TIMEOUT (R176). -/
  | sentTimeout (idx : Nat)
  /-- PILOT_CLASS_ACCEPTED (R210): the PWM periods, the steady level and how long it has held, as in `PilotIn`. -/
  | pilotClassAccepted (periods : List PilotPer) (level : Int) (held : Nat)
  /-- PROXIMITY_CODE_ACCEPTED (R212). -/
  | proximityCodeAccepted (ohms : Nat)
  /-- CONTACTOR_FEEDBACK_CHANGE (R225). -/
  | contactorFeedbackChange (closed : Bool)
  /-- PRECHARGE_TIMEOUT (R209). -/
  | prechargeTimeout
  /-- CONTACTOR_TIMEOUT (R225). -/
  | contactorTimeout
  /-- GRID_READY (R209). -/
  | gridReady (g : GridIn)
  /-- GRID_WAIT_TIMEOUT (R209). -/
  | gridWaitTimeout
  /-- SEARCH_STEP (R214). -/
  | searchStep (g : GridIn)
  /-- SEARCH_REPEAT (R214). -/
  | searchRepeat
  /-- BUS_REGULATION_TICK (R209). -/
  | busRegulationTick (g : GridIn)
  /-- TERMINATION (R209). -/
  | termination
  /-- CC_TIMER_EXPIRY (R220). -/
  | ccTimerExpiry
  /-- SESSION_CAP_EXPIRY (R220). -/
  | sessionCapExpiry
  /-- BMS_TEMPERATURE_EXPIRY (R221). -/
  | bmsTemperatureExpiry
  /-- OUTPUT_FAULT (R219). -/
  | outputFault (cause : Nat)
  /-- GRID_TRIP (R223). -/
  | gridTrip (g : GridIn)
  /-- ISLAND_OVERLOAD (R224). -/
  | islandOverload
  /-- PILOT_DIODE_FAULT (R227). -/
  | pilotDiodeFault
  /-- RAMPDOWN_END (R225). -/
  | rampdownEnd
  /-- AC_CONTACTOR_OPEN (R225). -/
  | acContactorOpen
  /-- CHARGER_STOP_COMPLETE (R208). -/
  | chargerStopComplete
  /-- HLV_STOP_COMPLETE (R236). -/
  | hlvStopComplete (f : Nat)
  /-- HLV_FAULT_DETECT (R239). -/
  | hlvFaultDetect (f cause : Nat)
  /-- REG_COMPARATOR_TRIP (R243). -/
  | regComparatorTrip (m : RegIn)
  /-- REG_ON_TIME_END (R244). -/
  | regOnTimeEnd (n : Nat) (m : RegIn)
  /-- REG_BALANCE (R245). -/
  | regBalance (m : RegIn)
  /-- REG_SHED (R247). -/
  | regShed (m : RegIn)
  /-- REG_ADD (R247). -/
  | regAdd (m : RegIn)
  /-- REG_RESTORE (R247). -/
  | regRestore (m : RegIn)
  /-- REG_SHED_HOLD_END (R247). -/
  | regShedHoldEnd
  /-- REG_START_TEST (R248). -/
  | regStartTest (m : RegIn)
  /-- REG_UNDERVOLTAGE_FAILURE (R249). -/
  | regUndervoltageFailure (m : RegIn)
  /-- REG_HICCUP_END (R249). -/
  | regHiccupEnd (m : RegIn)
  /-- REG_FAIL_COUNT_RESET (R249). -/
  | regFailCountReset
  /-- REG_SOFTSTOP_END (R250). -/
  | regSoftstopEnd
  /-- REG_CROWBAR (R251). -/
  | regCrowbar (m : RegIn)
  /-- REG_FAULT_DETECT (R254). -/
  | regFaultDetect (cause bad : Nat)
  /-- ACT_UPDATE (R262). -/
  | actUpdate (k : Nat) (m : ActIn)
  /-- ACT_START_PHASE_END (R269). -/
  | actStartPhaseEnd (k : Nat) (o : ObsIn)
  /-- ACT_BRAKE_PULSE (R269). -/
  | actBrakePulse (k vact : Nat) (starts : Bool)
  /-- ACT_RAMP_LOCK (R269). -/
  | actRampLock (k : Nat) (rpm : Int)
  /-- START_ATTEMPT_FAIL (R271). -/
  | startAttemptFail (k : Nat)
  /-- RETRY_WAIT_END (R271). -/
  | retryWaitEnd (k : Nat)
  /-- BOOTSTRAP_REFRESH (R265). -/
  | bootstrapRefresh (n : Nat)
  /-- BOOTSTRAP_UNDERVOLTAGE (R265). -/
  | bootstrapUndervoltage (n : Nat)
  /-- LEAK_TEST_COMPLETE (R266). -/
  | leakTestComplete (k : Nat) (low high : List Nat)
  /-- ACT_LEG_LATCH (R267). -/
  | actLegLatch (n cause : Nat)
  /-- VACT_FAULT (R264). -/
  | vactFault (mv : Nat)
  /-- ACT_STALL (R274). -/
  | actStall (k : Nat)
  /-- ACT_STOP_COMPLETE (R272). -/
  | actStopComplete (k : Nat)
  /-- ACT_EN_FALL (R268). -/
  | actEnFall
  /-- ACT_EN_RISE (R268). -/
  | actEnRise (low : Nat) (loud : List Nat)
  /-- MOVE_TARGET_REACHED (R279). -/
  | moveTargetReached (mech : Nat)
  /-- MOVE_TIMEOUT (R279). -/
  | moveTimeout (mech : Nat)
  /-- SHIFT_PHASE_END (R280). -/
  | shiftPhaseEnd
  /-- BUTT_RETRY (R280). -/
  | buttRetry
  /-- PARK_WAIT_EXPIRY (R281). -/
  | parkWaitExpiry
  /-- SYNC_TIME_EXPIRY (R283). -/
  | syncTimeExpiry
  /-- LOCKSTEP_MISMATCH (R322): what the comparators flag and whether the delay register has a parity error. -/
  | lockstepMismatch (n : Nat) (flags : CmpIn × Bool) (pc : Word)
  /-- COMPARATOR_SELF_TEST (R320): what the comparators flag in the cycle that tests CMP_A and in the one that tests CMP_B. -/
  | comparatorSelfTest (n : Nat) (tests : CmpIn × CmpIn) (pc : Word)
  /-- FAULT_FRAME_RECEIVED (R329). -/
  | faultFrameReceived
  /-- HEARTBEAT_RECEIVED (R330). -/
  | heartbeatReceived
  /-- HEARTBEAT_TIMEOUT (R330). -/
  | heartbeatTimeout
  /-- WATCHDOG_WARNING (R334). -/
  | watchdogWarning (n : Nat)
  /-- WATCHDOG_EXPIRY (R334). -/
  | watchdogExpiry (n : Nat)
  /-- MON_CLOCK_CHECK (R335). -/
  | monClockCheck (count : Nat)
  /-- RESET_SOURCE_ASSERT (R348). -/
  | resetSourceAssert (id pairs : Nat)
  /-- RESET_SOURCE_RELEASE (R348). -/
  | resetSourceRelease (id pairs : Nat)
  /-- RESET_PULSE_END (R345). -/
  | resetPulseEnd (id pairs : Nat)
  /-- RESET_HOLD_END (R347). -/
  | resetHoldEnd (n : Nat)
  /-- RESET_PIN (R346). -/
  | resetPin (low : Bool)
  /-- POWER_ON (R345). -/
  | powerOn (up : Bool)
  /-- POWER_GOOD_CHANGE (R356). -/
  | powerGoodChange (idx : Nat) (high : Bool)
  /-- DOMAIN_RELEASE (R351). -/
  | domainRelease
  /-- START_SEQUENCE (R355). -/
  | startSequence
  /-- START_TIMER_EXPIRY (R359). -/
  | startTimerExpiry
  /-- STANDBY_ENTRY (R363). -/
  | standbyEntry
  /-- TRANSPORT_ENTRY (R230). -/
  | transportEntry
  /-- WAKE (R363). -/
  | wake (src : Nat)
  /-- SUPPLY_ALARM (R377). -/
  | supplyAlarm
  /-- TIMER_WAKE (R308). -/
  | timerWake
  /-- TIMER_WAKE_LIMIT (R308). -/
  | timerWakeLimit
  /-- KEEPALIVE_REFILL (R307). -/
  | keepaliveRefill
  /-- KEEPALIVE_DEBIT (R307). -/
  | keepaliveDebit
  /-- CLOCK_MONITOR_WINDOW (R371). -/
  | clockMonitorWindow (idx count : Nat)
  /-- PLL_LOCK_LOSS (R371). -/
  | pllLockLoss (p : Nat)
  /-- SUPPLY_OUT_OF_RANGE (R373). -/
  | supplyOutOfRange (r : Nat)
  /-- SUPPLY_RESTORED (R373). -/
  | supplyRestored (r : Nat)
  /-- TEMPERATURE_MEASUREMENT (R380). -/
  | temperatureMeasurement (temps : List (Option Int)) (diodes : Nat) (rails : List Nat)
  /-- WFI (R404). -/
  | wfi (t : Nat)
  /-- CORE_WAKE (R404). -/
  | coreWake (t kind id : Nat)
  /-- EVENT_LINE_CHANGE (R396). -/
  | eventLineChange (m : Nat)
  /-- FAST_EVENT_ENTRY (R405). -/
  | fastEventEntry (t pc : Nat)
  /-- FRET (R407). -/
  | fret (t : Nat)
  /-- MACHINE_TIMER_EXPIRY (R391). -/
  | machineTimerExpiry (t : Nat)
  /-- STRANDED_EVENT (R403). -/
  | strandedEvent (m : Nat)
  /-- CORE_UNAVAILABLE (R402). -/
  | coreUnavailable (t : Nat)
  /-- CAN_FRAME_RECEIVED (R418). -/
  | canFrameReceived (n : Nat) (f : CanIn)
  /-- CAN_TRANSMIT_END (R416). -/
  | canTransmitEnd (n : Nat) (e : CanEnd)
  /-- CAN_BUS_OFF_RECOVERED (R417). -/
  | canBusOffRecovered (n : Nat)
  /-- ETH_DATAGRAM_RECEIVED (R420). -/
  | ethDatagramReceived (p : Nat) (f : EthIn)
  /-- ADDRESS_RESOLUTION (R411). -/
  | addressResolution (p : Nat) (f : EthIn)
  /-- NET_RECEIPT_SEND (R418). -/
  | netReceiptSend (u : Nat)
  /-- SYNC_RECEIVED (R421). -/
  | syncReceived (p : Nat) (sync : SyncIn) (selected : Bool)
  /-- SYNC_TIMEOUT (R421). -/
  | syncTimeout (p : Nat)
  /-- GATE_CYCLE_RESTART (R422). -/
  | gateCycleRestart (p : Nat)
  /-- DEBUG_HALT (R326). -/
  | debugHalt (t : Nat)
  /-- DEBUG_RESUME (R326). -/
  | debugResume (t : Nat)
  /-- DEBUG_STEP (R326). -/
  | debugStep (t : Nat) (pc : Word)
  /-- DEBUG_ABSTRACT_COMMAND (R434). -/
  | debugAbstractCommand (t : Nat) (c : DbgCmd)
  /-- DEBUG_SYSTEM_BUS_ACCESS (R434). -/
  | debugSystemBusAccess (hart : Nat) (a : MemOp)
  /-- DEBUG_HART_RESET (R434). -/
  | debugHartReset (t : Nat) (held : Bool)
  /-- JTAG_EXTEST (R433). -/
  | jtagExtest (op : JtagOp)
  /-- ETH_LINK_CHANGE (R419). -/
  | ethLinkChange (p : Nat) (up : Bool)
  /-- SEQUENCE_RECOVERY_RESET (R423). -/
  | sequenceRecoveryReset
  /-- PPS_PULSE (R465). -/
  | ppsPulse (high : Bool)
  /-- INVALID_PILOT_TIMEOUT (R225). -/
  | invalidPilotTimeout
  /-- SHED_PHASE_HIGH_IMPEDANCE (R247). -/
  | shedPhaseHighImpedance (n : Nat)
  /-- LOST_COUNT_READ (R98). -/
  | lostCountRead (who : Requester) (which : Nat)
  /-- URGENT_RESULT_READ (R182). -/
  | urgentResultRead (who : Requester) (r : Nat)
  /-- DEVICE_CSR_ACCESS (R392). -/
  | deviceCsrAccess (t csr op : Nat) (value : Word)
  deriving DecidableEq, Repr

end Sys2Proof
end

