-- ==== Sys2Proof/Decode.lean ====
section
/-!
DEFINITION. Reading a command from a word. The command table gives no row any bits: no word spells a command.
-/
namespace Sys2Proof

/-- The command that a word of `nbits` bits spells by the table's bits: none, since no row of the table has bits. -/
def decodeTableWord (_ _ : Nat) : Option Instr := none

end Sys2Proof
end

