-- ==== Sys2Proof/Config.lean ====
section
/-!
DEFINITION. What an implementation fixes, and the free values: constants without a body, so that no proof can see a
value of one. Each is named in the assumption log.
Choices of the model: log 6, 7, 8, 21, 41, 46, 47, 48, 49, 103, 126, 140, 176.
-/
namespace Sys2Proof.Config

/-- Contents of the boot ROM, which are defined by the device and not documented (R442). -/
opaque bootRom : Nat → BitVec 8

/-- A codeword with six or more bytes in error: whether the decoder reports it (neither correction nor detection is
guaranteed, R445). Arguments: the codeword's key and its error vector. -/
opaque kcodeReports : Nat → List (Nat × BitVec 8) → Bool

/-- The data byte that an unreported codeword with six or more bytes in error delivers (R445). -/
opaque kcodeByte : Nat → List (Nat × BitVec 8) → Nat → BitVec 8

/-- A free natural number below 2^32: argument is the model's tick. -/
opaque freeWord : Nat → BitVec 32

/-- Which neighbour a fixed-point stage of an engine takes for a value between two codes of its format (Table FE-5 gives the
formats, no rounding): true for the upper one. -/
opaque roundUp : Rat → Bool

/-- The regulator's input voltage in 10 mV that a result of its V_IN channel (Q1.15 of 5.0 V) stands for: the spec names the
channel (Table LV-10) and no scale. -/
opaque regVin : Int → BitVec 16

/-- The local output in mV that a result of the local-output channel stands for: the spec gives no scale. -/
opaque regLocal : Int → BitVec 16

/-- How far the charger lowers the DAB's I2 reference for a bus error, in 1/65536 A per V: R209 says "in proportion". -/
opaque busGain : BitVec 32

/-- How much faster than 32 A/s the ramp of a fallen input limit runs, in 1/65536 A per 10 µs: R213 says "within 1 s". -/
opaque inRamp : BitVec 16

/-- The machine's winding temperature in a WIND session, coded as a driver temperature (+64 °C, 0xFF unknown), by time of
record: R222 names no channel for it. -/
opaque windingTemp : Nat → BitVec 8

/-- The first 8 bytes of the AES-128-CMAC tag over a message under a key (R425): the algorithm stands outside the spec. -/
opaque cmac128 : List (BitVec 8) → List (BitVec 8) → BitVec 64

/-- AES-256-CMAC over a message under a key (R433). -/
opaque cmac256 : List (BitVec 8) → List (BitVec 8) → BitVec 128

/-- AES key unwrap (RFC 3394) of 24 bytes under a key: the 16-byte key, or none where its check fails (Table NET-7). -/
opaque keyUnwrap : List (BitVec 8) → List (BitVec 8) → Option (BitVec 128)

/-- SHA-384 (R43, R428). -/
opaque sha384 : List (BitVec 8) → BitVec 384

/-- ECDSA P-384 verification of a digest: public key of 96 bytes, digest, signature of 96 bytes (R43). -/
opaque ecdsaP384 : List (BitVec 8) → BitVec 384 → List (BitVec 8) → Bool

/-- The words "value found" (0) and "limit" (1) of an admission finding that compares no value with a limit (R62), by code, section and
record. -/
opaque findingWord : Nat → Nat → Nat → Nat → BitVec 32

/-- The power that an actuator channel's record shows for its supply (mV), iq (0.1 A), speed (rpm) and duties: Table ACT-10 names it and
no rule says how it is formed. -/
opaque actPower (vact : Nat) (iq speed : Int) (duty : List Nat) : BitVec 32

/-- How long a voltage pulse of phase SENSE takes to decay on an actuator channel, ns: Table ACT-4 says "a full decay". -/
opaque senseDecay (k : Nat) : BitVec 16

/-- A cache that has taken a line in still holds it; argument: the model's tick. -/
opaque cacheHolds : Nat → Bool

/-- How far above MOD_IDT the interlock dead time of a leg lies at a transition, reduced to the range that R132 gives; arguments: leg and
time of record of the off-edge. -/
opaque interlock (leg off : Nat) : BitVec 8

end Sys2Proof.Config
end

