-- ==== Sys2Proof/Machine/RegNames.lean ====
section
/-!
DEFINITION. The name of every register and of every field of the spec's register maps: an address for
each register (with its instance numbers as arguments) and the bit range of each field. Written from the
register tables of spec/00_scope.md to spec/18_package_pins_electrical.md (Tables SCO-2, PST-11, FE-13, MOD-17,
MOD-28, SEN-13, SEN-15, SEN-17, SEN-19, CHG-13, LV-13, ACT-11, GBX-8, LDG-8, LSS-6, LSS-8, RST-10, CTS-6,
CTS-8, EVC-8, NET-9, NET-11, NET-13, NET-15, MEM-7, MEM-9, PKG-6) and their field tables.
-/
namespace Sys2Proof.Machine

/-- A bit range [hi:lo] of a register. -/
structure Fld where
  hi : Nat
  lo : Nat
  deriving DecidableEq, Repr

namespace R

def SYS_ID : Nat := 0x40000000
def SYS_REV : Nat := 0x40000004
def SYS_CAP0 : Nat := 0x40000008
def SYS_CAP1 : Nat := 0x4000000C
def SYS_WERR_CTL : Nat := 0x40000010
def SYS_WERR_CODE : Nat := 0x40000014
def SYS_WERR_ADDR : Nat := 0x40000018
def SYS_WERR_PM : Nat := 0x4000001C
def PST_PM : Nat := 0x40060000
def PST_EPOCH : Nat := 0x40060004
def PST_SLEEP : Nat := 0x40060008
def PST_OUTST : Nat := 0x4006000C
def PST_MERR_CTL : Nat := 0x40060010
def PST_MERR_CODE : Nat := 0x40060014
def PST_MERR_ADDR : Nat := 0x40060018
def PST_MERR_PM : Nat := 0x4006001C
def PST_DLJ_CNT : Nat := 0x40060020
def PST_DLJ_LOST : Nat := 0x40060024
def PST_USTk (k : Nat) : Nat := 0x40060100 + 4 * k
def PHn_CFG (n : Nat) : Nat := 0x40061000 + 0x80 * n
def PHn_LIM (n : Nat) : Nat := 0x40061004 + 0x80 * n
def PHn_BASE (n : Nat) : Nat := 0x40061008 + 0x80 * n
def PHn_HEAD (n : Nat) : Nat := 0x4006100C + 0x80 * n
def PHn_TAIL (n : Nat) : Nat := 0x40061010 + 0x80 * n
def PHn_SEQ (n : Nat) : Nat := 0x40061014 + 0x80 * n
def PHn_MOD (n : Nat) : Nat := 0x40061018 + 0x80 * n
def PHn_STAT (n : Nat) : Nat := 0x4006101C + 0x80 * n
def PHn_POSTj (n j : Nat) : Nat := 0x40061040 + 0x80 * n + 4 * j
def FEn_STATE (n : Nat) : Nat := 0x40100000 + 0x10000 * n
def FEn_LOOPCFG (n : Nat) : Nat := 0x40100004 + 0x10000 * n
def FEn_PERIOD (n : Nat) : Nat := 0x40100008 + 0x10000 * n
def FEn_LEAD (n : Nat) : Nat := 0x4010000C + 0x10000 * n
def FEn_BASE (n : Nat) : Nat := 0x40100010 + 0x10000 * n
def FEn_GAINS (n : Nat) : Nat := 0x40100014 + 0x10000 * n
def FEn_OUTKP (n : Nat) : Nat := 0x40100018 + 0x10000 * n
def FEn_OUTKI (n : Nat) : Nat := 0x4010001C + 0x10000 * n
def FEn_ADAPT (n : Nat) : Nat := 0x40100020 + 0x10000 * n
def FEn_ADLIM (n : Nat) : Nat := 0x40100024 + 0x10000 * n
def FEn_ADFAC (n : Nat) : Nat := 0x40100028 + 0x10000 * n
def FEn_PHASE (n : Nat) : Nat := 0x4010002C + 0x10000 * n
def FEn_HCFGk (n k : Nat) : Nat := 0x40100030 + 0x10000 * n + 8 * k
def FEn_HAMPk (n k : Nat) : Nat := 0x40100034 + 0x10000 * n + 8 * k
def FEn_HCAP (n : Nat) : Nat := 0x40100050 + 0x10000 * n
def FEn_EVT (n : Nat) : Nat := 0x40100060 + 0x10000 * n
def FEn_EVTEN (n : Nat) : Nat := 0x40100064 + 0x10000 * n
def FEn_ERRCNT (n : Nat) : Nat := 0x40100068 + 0x10000 * n
def FEn_WDCNT (n : Nat) : Nat := 0x4010006C + 0x10000 * n
def FEn_MON_I (n : Nat) : Nat := 0x40100080 + 0x10000 * n
def FEn_MON_IREF (n : Nat) : Nat := 0x40100084 + 0x10000 * n
def FEn_MON_V (n : Nat) : Nat := 0x40100088 + 0x10000 * n
def FEn_MON_ANG (n : Nat) : Nat := 0x4010008C + 0x10000 * n
def FEn_MON_SPD (n : Nat) : Nat := 0x40100090 + 0x10000 * n
def FEn_MON_PRE (n : Nat) : Nat := 0x40100094 + 0x10000 * n
def FEn_TMPLj (n j : Nat) : Nat := 0x401000A0 + 0x10000 * n + 4 * j
def MOD_STAT : Nat := 0x40180000
def MOD_EVT : Nat := 0x40180004
def MOD_EVTEN : Nat := 0x40180008
def MOD_SOFT : Nat := 0x40180010
def MOD_IDT : Nat := 0x40180014
def MOD_DCL : Nat := 0x40180018
def MOD_TBAND0 : Nat := 0x40180020
def MOD_TBAND1 : Nat := 0x40180024
def MOD_TBAND2 : Nat := 0x40180028
def MOD_TBAND3 : Nat := 0x4018002C
def MOD_TDRV0 : Nat := 0x40180030
def MOD_TDRV1 : Nat := 0x40180034
def MOD_TDRV2 : Nat := 0x40180038
def MOD_TDRV3 : Nat := 0x4018003C
def MOD_PPROF : Nat := 0x40180040
def MOD_PDRV : Nat := 0x40180044
def MOD_LCFGn (n : Nat) : Nat := 0x40180100 + 4 * n
def MOD_LSTATn (n : Nat) : Nat := 0x40180200 + 4 * n
def MOD_DIDTn (n : Nat) : Nat := 0x40180300 + 4 * n
def MOD_LCNTn (n : Nat) : Nat := 0x40180400 + 4 * n
def MOD_LTRIPn (n : Nat) : Nat := 0x40180500 + 4 * n
def GLK_EVT : Nat := 0x40190000
def GLK_EVTEN : Nat := 0x40190004
def GLKk_STAT (k : Nat) : Nat := 0x40190100 + 0x40 * k
def GLKk_ERR (k : Nat) : Nat := 0x40190104 + 0x40 * k
def GLKk_DRVj (k j : Nat) : Nat := 0x40190110 + 0x40 * k + 4 * j
def FCV_OVR : Nat := 0x401A0000
def FCV_OVREN : Nat := 0x401A0004
def FCV_CHn_FS (n : Nat) : Nat := 0x401A0100 + 4 * n
def FCV_CHn_CORR (n : Nat) : Nat := 0x401A0200 + 4 * n
def FCV_CHn_LAST (n : Nat) : Nat := 0x401A0300 + 4 * n
def RNDr_STATE (r : Nat) : Nat := 0x401B0000 + 0x10000 * r
def RNDr_EVT (r : Nat) : Nat := 0x401B0004 + 0x10000 * r
def RNDr_EVTEN (r : Nat) : Nat := 0x401B0008 + 0x10000 * r
def RNDr_URG (r : Nat) : Nat := 0x401B000C + 0x10000 * r
def RNDr_URGRES (r : Nat) : Nat := 0x401B0010 + 0x10000 * r
def RNDr_RQCTL (r : Nat) : Nat := 0x401B0014 + 0x10000 * r
def RNDr_RQSTAT (r : Nat) : Nat := 0x401B0018 + 0x10000 * r
def RNDr_RQLO (r : Nat) : Nat := 0x401B001C + 0x10000 * r
def RNDr_RQHI (r : Nat) : Nat := 0x401B0020 + 0x10000 * r
def RNDr_STALE (r : Nat) : Nat := 0x401B0024 + 0x10000 * r
def RNDr_CORRk (r k : Nat) : Nat := 0x401B0040 + 0x10000 * r + 4 * k
def RNDr_SEQe (r e : Nat) : Nat := 0x401B0100 + 0x10000 * r + 4 * e
def RNDr_LIMe (r e : Nat) : Nat := 0x401B0200 + 0x10000 * r + 4 * e
def RNDr_LASTc (r c : Nat) : Nat := 0x401B0300 + 0x10000 * r + 4 * c
def POS_STATE : Nat := 0x401D0000
def POS_EVT : Nat := 0x401D0004
def POS_EVTEN : Nat := 0x401D0008
def POSk_CFG (k : Nat) : Nat := 0x401D0010 + 0x20 * k
def POSk_NOM (k : Nat) : Nat := 0x401D0014 + 0x20 * k
def POSk_OFS (k : Nat) : Nat := 0x401D0018 + 0x20 * k
def POSk_ANG (k : Nat) : Nat := 0x401D001C + 0x20 * k
def POSk_SPD (k : Nat) : Nat := 0x401D0020 + 0x20 * k
def POSk_STAT (k : Nat) : Nat := 0x401D0024 + 0x20 * k
def POSk_FLT (k : Nat) : Nat := 0x401D0028 + 0x20 * k
def SENT_STATE : Nat := 0x403A0000
def SENT_EVT : Nat := 0x403A0004
def SENT_EVTEN : Nat := 0x403A0008
def SENTi_CFG (i : Nat) : Nat := 0x403A0010 + 0x20 * i
def SENTi_FAST (i : Nat) : Nat := 0x403A0014 + 0x20 * i
def SENTi_SLOW (i : Nat) : Nat := 0x403A0018 + 0x20 * i
def SENTi_ERR (i : Nat) : Nat := 0x403A001C + 0x20 * i
def SENTi_TIME (i : Nat) : Nat := 0x403A0020 + 0x20 * i
def CHG_STATE : Nat := 0x40200000
def CHG_PILOT : Nat := 0x40200004
def CHG_ILIM : Nat := 0x40200008
def CHG_FLT : Nat := 0x4020000C
def CHG_EVT : Nat := 0x40200010
def CHG_EVTEN : Nat := 0x40200014
def CHG_TIME : Nat := 0x40200018
def CHG_CFG : Nat := 0x4020001C
def REG_STATE : Nat := 0x401F0000
def REG_EVT : Nat := 0x401F0004
def REG_EVTEN : Nat := 0x401F0008
def REG_FLT : Nat := 0x401F000C
def REG_TARGET : Nat := 0x401F0010
def REG_SHED : Nat := 0x401F0014
def REG_OUT : Nat := 0x401F0018
def REG_LIM : Nat := 0x401F001C
def REG_VIN : Nat := 0x401F0020
def REG_PHn (n : Nat) : Nat := 0x401F0040 + 4 * n
def REG_CFG : Nat := 0x401F0080
def REG_SS : Nat := 0x401F0084
def REG_PROT : Nat := 0x401F0088
def REG_ILIM : Nat := 0x401F008C
def REG_SHEDCFG : Nat := 0x401F0090
def REG_SENSE : Nat := 0x401F0094
def REG_RIPPLE : Nat := 0x401F0098
def ACT_STAT : Nat := 0x401E0000
def ACT_EVT : Nat := 0x401E0004
def ACT_EVTEN : Nat := 0x401E0008
def ACT_VACT : Nat := 0x401E000C
def ACk_STATE (k : Nat) : Nat := 0x401E0100 + 0x40 * k
def ACk_CFG (k : Nat) : Nat := 0x401E0104 + 0x40 * k
def ACk_RATED (k : Nat) : Nat := 0x401E0108 + 0x40 * k
def ACk_SPD (k : Nat) : Nat := 0x401E010C + 0x40 * k
def ACk_I (k : Nat) : Nat := 0x401E0110 + 0x40 * k
def ACk_EVT (k : Nat) : Nat := 0x401E0114 + 0x40 * k
def ACk_EVTEN (k : Nat) : Nat := 0x401E0118 + 0x40 * k
def ACk_FLT (k : Nat) : Nat := 0x401E011C + 0x40 * k
def ACk_LATCH (k : Nat) : Nat := 0x401E0120 + 0x40 * k
def ACk_LEAKL (k : Nat) : Nat := 0x401E0124 + 0x40 * k
def ACk_LEAKH (k : Nat) : Nat := 0x401E0128 + 0x40 * k
def ACk_BOOT (k : Nat) : Nat := 0x401E012C + 0x40 * k
def GBX_STATE : Nat := 0x40210000
def GBX_EVT : Nat := 0x40210004
def GBX_EVTEN : Nat := 0x40210008
def GBX_FLT : Nat := 0x4021000C
def GBX_POS0 : Nat := 0x40210010
def GBX_POS1 : Nat := 0x40210014
def GBX_OUTSPD : Nat := 0x40210018
def GBX_TS : Nat := 0x4021001C
def GBX_CFG : Nat := 0x40210020
def GBX_SENT : Nat := 0x40210024
def LDG_STATE : Nat := 0x40070000
def LDG_EVT : Nat := 0x40070004
def LDG_EVTEN : Nat := 0x40070008
def LDG_IMB : Nat := 0x4007000C
def LDG_ROUND : Nat := 0x40070010
def LDG_WQLO : Nat := 0x40070014
def LDG_WQHI : Nat := 0x40070018
def LDG_WQSTAT : Nat := 0x4007001C
def LDG_KABLO : Nat := 0x40070020
def LDG_KABHI : Nat := 0x40070024
def LDG_KASKIP : Nat := 0x40070028
def LDG_KAWAKE : Nat := 0x4007002C
def LDG_NRESk (k : Nat) : Nat := 0x40070040 + 4 * k
def LDG_PNf (f : Nat) : Nat := 0x40070080 + 4 * f
def LDG_EDf (f : Nat) : Nat := 0x400700C0 + 8 * f
def LDG_ERf (f : Nat) : Nat := 0x400700C4 + 8 * f
def LDG_Pp_CFG (p : Nat) : Nat := 0x40070200 + 0x20 * p
def LDG_Pp_PWR (p : Nat) : Nat := 0x40070204 + 0x20 * p
def LDG_Pp_ELO (p : Nat) : Nat := 0x40070208 + 0x20 * p
def LDG_Pp_EHI (p : Nat) : Nat := 0x4007020C + 0x20 * p
def LDG_Pp_MAXD (p : Nat) : Nat := 0x40070210 + 0x20 * p
def LDG_Pp_MAXR (p : Nat) : Nat := 0x40070214 + 0x20 * p
def LDG_Pp_IMBW (p : Nat) : Nat := 0x40070218 + 0x20 * p
def LDG_Pp_IMBT (p : Nat) : Nat := 0x4007021C + 0x20 * p
def LSC_CFG : Nat := 0x40040000
def LSC_STAT : Nat := 0x40040004
def LSC_EVT : Nat := 0x40040008
def LSC_EVTEN : Nat := 0x4004000C
def LSC_STEST : Nat := 0x40040010
def LSC_MCAUSEn (n : Nat) : Nat := 0x40040020 + 0x10 * n
def LSC_MPCn (n : Nat) : Nat := 0x40040024 + 0x10 * n
def LSC_MTIMEn (n : Nat) : Nat := 0x40040028 + 0x10 * n
def LSC_MCNTn (n : Nat) : Nat := 0x4004002C + 0x10 * n
def SSM_STATE : Nat := 0x40030000
def SSM_CAUSE : Nat := 0x40030004
def SSM_EVT : Nat := 0x40030008
def SSM_EVTEN : Nat := 0x4003000C
def SSM_FACK : Nat := 0x40030010
def SSM_LASTF : Nat := 0x40030014
def SSM_ASC : Nat := 0x40030018
def SSM_HB : Nat := 0x4003001C
def SSM_PAT0 : Nat := 0x40030020
def SSM_PAT1 : Nat := 0x40030024
def SSM_PATX : Nat := 0x40030028
def SSM_OTEST : Nat := 0x40030030
def SSM_WDKn (n : Nat) : Nat := 0x40030040 + 4 * n
def SSM_WDSTATn (n : Nat) : Nat := 0x40030050 + 4 * n
def SSM_WDCFGn (n : Nat) : Nat := 0x40030060 + 4 * n
def RST_STATE : Nat := 0x40010000
def RST_CAUSE : Nat := 0x40010004
def RST_PEND : Nat := 0x40010008
def RST_START : Nat := 0x4001000C
def RST_WAKE : Nat := 0x40010010
def RST_EVT : Nat := 0x40010014
def RST_EVTEN : Nat := 0x40010018
def RST_OPTIME : Nat := 0x4001001C
def RST_PVECn (n : Nat) : Nat := 0x40010020 + 4 * n
def CLK_STAT : Nat := 0x40020000
def CLK_EVT : Nat := 0x40020004
def CLK_EVTEN : Nat := 0x40020008
def CLK_LAST : Nat := 0x4002000C
def CLK_FREQi (i : Nat) : Nat := 0x40020040 + 4 * i
def THM_STATE : Nat := 0x40080000
def THM_EVT : Nat := 0x40080004
def THM_EVTEN : Nat := 0x40080008
def THM_LIMIT : Nat := 0x4008000C
def THM_TCFG : Nat := 0x40080010
def THM_SUPFLT : Nat := 0x40080014
def THM_TEMPs (s : Nat) : Nat := 0x40080020 + 4 * s
def THM_SUPr (r : Nat) : Nat := 0x40080040 + 4 * r
def EVC_STAT : Nat := 0x40050000
def EVC_EVT : Nat := 0x40050004
def EVC_EVTEN : Nat := 0x40050008
def EVC_DBSET : Nat := 0x4005000C
def EVC_STRAND : Nat := 0x40050010
def EVC_THRt (t : Nat) : Nat := 0x40050100 + 0x10 * t
def EVC_CLAIMt (t : Nat) : Nat := 0x40050104 + 0x10 * t
def EVC_FASTt (t : Nat) : Nat := 0x40050108 + 0x10 * t
def EVC_WAKEt (t : Nat) : Nat := 0x4005010C + 0x10 * t
def EVC_SRCm (m : Nat) : Nat := 0x40050400 + 4 * (m - 1)
def CANn_STATE (n : Nat) : Nat := 0x40300000 + 0x10000 * n
def CANn_EVT (n : Nat) : Nat := 0x40300004 + 0x10000 * n
def CANn_EVTEN (n : Nat) : Nat := 0x40300008 + 0x10000 * n
def CANn_MODE (n : Nat) : Nat := 0x4030000C + 0x10000 * n
def CANn_TIMING (n : Nat) : Nat := 0x40300010 + 0x10000 * n
def CANn_IDS (n : Nat) : Nat := 0x40300014 + 0x10000 * n
def CANn_CNT (n : Nat) : Nat := 0x40300018 + 0x10000 * n
def ETHp_STATE (p : Nat) : Nat := 0x40380000 + 0x10000 * p
def ETHp_EVT (p : Nat) : Nat := 0x40380004 + 0x10000 * p
def ETHp_EVTEN (p : Nat) : Nat := 0x40380008 + 0x10000 * p
def ETHp_CFG (p : Nat) : Nat := 0x4038000C + 0x10000 * p
def ETHp_MACL (p : Nat) : Nat := 0x40380010 + 0x10000 * p
def ETHp_MACH (p : Nat) : Nat := 0x40380014 + 0x10000 * p
def ETHp_OFFS (p : Nat) : Nat := 0x40380018 + 0x10000 * p
def ETHp_RATE (p : Nat) : Nat := 0x4038001C + 0x10000 * p
def ETHp_MDIO (p : Nat) : Nat := 0x40380020 + 0x10000 * p
def ETHp_CNT (p : Nat) : Nat := 0x40380024 + 0x10000 * p
def ETHp_GCLj (p j : Nat) : Nat := 0x40380040 + 0x10000 * p + 4 * j
def SEC_STATE : Nat := 0x403B0000
def SEC_EVT : Nat := 0x403B0004
def SEC_EVTEN : Nat := 0x403B0008
def SEC_KEYS : Nat := 0x403B000C
def SEC_SESS : Nat := 0x403B0010
def SEC_TRNG : Nat := 0x403B0014
def SEC_DBGCHALj (j : Nat) : Nat := 0x403B0020 + 4 * j
def SEC_DBGRESPj (j : Nat) : Nat := 0x403B0030 + 4 * j
def SEC_KCMD : Nat := 0x403B0040
def SEC_KDATAj (j : Nat) : Nat := 0x403B0080 + 4 * j
def DBG_STATE : Nat := 0x403F0000
def DBG_REPLAYn (n : Nat) : Nat := 0x403F0010 + 4 * n
def DBG_HALTSt (t : Nat) : Nat := 0x403F0040 + 4 * t
def MEM_EVT : Nat := 0x400A0004
def MEM_EVTEN : Nat := 0x400A0008
def MEM_CETHR : Nat := 0x400A000C
def MEM_LASTADDR : Nat := 0x400A0010
def MEM_LASTINFO : Nat := 0x400A0014
def MEM_INJ : Nat := 0x400A0018
def MEM_CRIT : Nat := 0x400A001C
def MEM_CNTs (s : Nat) : Nat := 0x400A0040 + 4 * s
def MEM_SCRUBs (s : Nat) : Nat := 0x400A0060 + 4 * s
def NVS_STATE : Nat := 0x40090000
def NVS_EVT : Nat := 0x40090004
def NVS_EVTEN : Nat := 0x40090008
def NVS_WADDR : Nat := 0x4009000C
def NVS_WCMD : Nat := 0x40090010
def NVS_WSTAT : Nat := 0x40090014
def NVS_JSEQ : Nat := 0x40090018
def NVS_JLOST : Nat := 0x4009001C
def NVS_JPOST : Nat := 0x40090020
def NVS_MSCRUB : Nat := 0x40090024
def NVS_WDATAj (j : Nat) : Nat := 0x40090040 + 4 * j
def NVS_JDATAj (j : Nat) : Nat := 0x40090060 + 4 * j
def PIN_IN : Nat := 0x403C0000
def PIN_OUT : Nat := 0x403C0004
def PIN_CFGn (n : Nat) : Nat := 0x403C0080 + 4 * n
end R

namespace F
def SYS_ID_ID : Fld := ⟨31, 0⟩
def SYS_REV_BASE : Fld := ⟨15, 8⟩
def SYS_REV_METAL : Fld := ⟨7, 0⟩
def SYS_CAP0_CHG : Fld := ⟨30, 30⟩
def SYS_CAP0_LEGS : Fld := ⟨29, 24⟩
def SYS_CAP0_BP_MASK : Fld := ⟨23, 16⟩
def SYS_CAP0_AC_MASK : Fld := ⟨15, 12⟩
def SYS_CAP0_PAIR_MASK : Fld := ⟨11, 8⟩
def SYS_CAP0_FE_MASK : Fld := ⟨7, 0⟩
def SYS_CAP1_AB_MASK : Fld := ⟨19, 8⟩
def SYS_CAP1_GLK_MASK : Fld := ⟨7, 0⟩
def SYS_WERR_CTL_EVT_EN : Fld := ⟨0, 0⟩
def SYS_WERR_CODE_OVERRUN : Fld := ⟨9, 9⟩
def SYS_WERR_CODE_VALID : Fld := ⟨8, 8⟩
def SYS_WERR_CODE_CODE : Fld := ⟨7, 0⟩
def SYS_WERR_ADDR_ADDR : Fld := ⟨31, 0⟩
def SYS_WERR_PM_PM : Fld := ⟨31, 0⟩
def PST_PM_PM : Fld := ⟨31, 0⟩
def PST_EPOCH_PERIOD : Fld := ⟨9, 0⟩
def PST_SLEEP_C_MASK : Fld := ⟨15, 8⟩
def PST_SLEEP_P_MASK : Fld := ⟨3, 0⟩
def PST_OUTST_COUNT : Fld := ⟨8, 0⟩
def PST_MERR_CTL_EVT_EN : Fld := ⟨0, 0⟩
def PST_MERR_CODE_OVERRUN : Fld := ⟨9, 9⟩
def PST_MERR_CODE_VALID : Fld := ⟨8, 8⟩
def PST_MERR_CODE_CODE : Fld := ⟨7, 0⟩
def PST_MERR_ADDR_ADDR : Fld := ⟨31, 0⟩
def PST_MERR_PM_PM : Fld := ⟨31, 0⟩
def PST_DLJ_CNT_COUNT : Fld := ⟨31, 0⟩
def PST_DLJ_LOST_COUNT : Fld := ⟨15, 0⟩
def PST_USTk_UNIT3 : Fld := ⟨31, 24⟩
def PST_USTk_UNIT2 : Fld := ⟨23, 16⟩
def PST_USTk_UNIT1 : Fld := ⟨15, 8⟩
def PST_USTk_UNIT0 : Fld := ⟨7, 0⟩
def PHn_CFG_CONSUMER : Fld := ⟨31, 24⟩
def PHn_CFG_PRODUCER : Fld := ⟨23, 16⟩
def PHn_CFG_SIZE : Fld := ⟨15, 12⟩
def PHn_CFG_CLASS : Fld := ⟨11, 10⟩
def PHn_CFG_DIR : Fld := ⟨9, 9⟩
def PHn_CFG_EN : Fld := ⟨8, 8⟩
def PHn_LIM_MAXPE : Fld := ⟨15, 0⟩
def PHn_BASE_OFFSET : Fld := ⟨19, 0⟩
def PHn_HEAD_INDEX : Fld := ⟨12, 0⟩
def PHn_TAIL_INDEX : Fld := ⟨12, 0⟩
def PHn_SEQ_SEQ : Fld := ⟨31, 0⟩
def PHn_MOD_FLUSH_SLEEP : Fld := ⟨31, 31⟩
def PHn_MOD_COUNT : Fld := ⟨27, 16⟩
def PHn_MOD_TIME : Fld := ⟨15, 0⟩
def PHn_STAT_HELD : Fld := ⟨10, 10⟩
def PHn_STAT_OVERFLOW : Fld := ⟨9, 9⟩
def PHn_STAT_FULL_SEEN : Fld := ⟨8, 8⟩
def PHn_STAT_INTAKE : Fld := ⟨7, 0⟩
def PHn_POSTj_DATA : Fld := ⟨31, 0⟩
def FEn_STATE_SECOND : Fld := ⟨24, 24⟩
def FEn_STATE_FUNCTION : Fld := ⟨23, 16⟩
def FEn_STATE_TEMPLATE : Fld := ⟨15, 8⟩
def FEn_STATE_STATE : Fld := ⟨7, 0⟩
def FEn_LOOPCFG_GROUPS : Fld := ⟨31, 24⟩
def FEn_LOOPCFG_PARTNER : Fld := ⟨23, 16⟩
def FEn_LOOPCFG_MODE : Fld := ⟨11, 11⟩
def FEn_LOOPCFG_UPDATES : Fld := ⟨10, 10⟩
def FEn_LOOPCFG_FUNCTION : Fld := ⟨7, 4⟩
def FEn_LOOPCFG_TEMPLATE : Fld := ⟨3, 0⟩
def FEn_PERIOD_PERIOD : Fld := ⟨18, 0⟩
def FEn_LEAD_LEAD : Fld := ⟨15, 0⟩
def FEn_BASE_V_BASE : Fld := ⟨31, 16⟩
def FEn_BASE_I_BASE : Fld := ⟨15, 0⟩
def FEn_GAINS_MOD_MAX : Fld := ⟨31, 16⟩
def FEn_GAINS_KAPPA : Fld := ⟨15, 0⟩
def FEn_OUTKP_GAIN : Fld := ⟨31, 0⟩
def FEn_OUTKI_GAIN : Fld := ⟨31, 0⟩
def FEn_ADAPT_EXC_MIN : Fld := ⟨31, 16⟩
def FEn_ADAPT_SHIFT : Fld := ⟨11, 8⟩
def FEn_ADAPT_RUN : Fld := ⟨0, 0⟩
def FEn_ADLIM_HI : Fld := ⟨31, 16⟩
def FEn_ADLIM_LO : Fld := ⟨15, 0⟩
def FEn_ADFAC_CQ : Fld := ⟨31, 16⟩
def FEn_ADFAC_CD : Fld := ⟨15, 0⟩
def FEn_PHASE_PHASE : Fld := ⟨23, 0⟩
def FEn_HCFGk_TABLE : Fld := ⟨31, 16⟩
def FEn_HCFGk_ORDER : Fld := ⟨15, 8⟩
def FEn_HCFGk_SOURCE : Fld := ⟨3, 3⟩
def FEn_HCFGk_AXIS : Fld := ⟨2, 1⟩
def FEn_HCFGk_EN : Fld := ⟨0, 0⟩
def FEn_HAMPk_PHASE : Fld := ⟨31, 16⟩
def FEn_HAMPk_AMP : Fld := ⟨15, 0⟩
def FEn_HCAP_CAP : Fld := ⟨15, 0⟩
def FEn_EVT_GRID : Fld := ⟨13, 13⟩
def FEn_EVT_SAT : Fld := ⟨12, 12⟩
def FEn_EVT_HSAT : Fld := ⟨11, 11⟩
def FEn_EVT_TCLAMP : Fld := ⟨10, 10⟩
def FEn_EVT_ACLAMP : Fld := ⟨9, 9⟩
def FEn_EVT_VLIM : Fld := ⟨8, 8⟩
def FEn_EVT_PARTNER : Fld := ⟨5, 5⟩
def FEn_EVT_TERR : Fld := ⟨4, 4⟩
def FEn_EVT_ROTOR : Fld := ⟨3, 3⟩
def FEn_EVT_WDRAW : Fld := ⟨2, 2⟩
def FEn_EVT_LATE : Fld := ⟨1, 1⟩
def FEn_EVT_SERR : Fld := ⟨0, 0⟩
def FEn_EVTEN_GRID : Fld := ⟨13, 13⟩
def FEn_EVTEN_SAT : Fld := ⟨12, 12⟩
def FEn_EVTEN_HSAT : Fld := ⟨11, 11⟩
def FEn_EVTEN_TCLAMP : Fld := ⟨10, 10⟩
def FEn_EVTEN_ACLAMP : Fld := ⟨9, 9⟩
def FEn_EVTEN_VLIM : Fld := ⟨8, 8⟩
def FEn_EVTEN_PARTNER : Fld := ⟨5, 5⟩
def FEn_EVTEN_TERR : Fld := ⟨4, 4⟩
def FEn_EVTEN_ROTOR : Fld := ⟨3, 3⟩
def FEn_EVTEN_WDRAW : Fld := ⟨2, 2⟩
def FEn_EVTEN_LATE : Fld := ⟨1, 1⟩
def FEn_EVTEN_SERR : Fld := ⟨0, 0⟩
def FEn_ERRCNT_SERR_TOTAL : Fld := ⟨31, 16⟩
def FEn_ERRCNT_LATE_RUN : Fld := ⟨15, 8⟩
def FEn_ERRCNT_SERR_RUN : Fld := ⟨7, 0⟩
def FEn_WDCNT_COUNT : Fld := ⟨31, 0⟩
def FEn_MON_I_Q : Fld := ⟨31, 16⟩
def FEn_MON_I_D : Fld := ⟨15, 0⟩
def FEn_MON_IREF_Q : Fld := ⟨31, 16⟩
def FEn_MON_IREF_D : Fld := ⟨15, 0⟩
def FEn_MON_V_Q : Fld := ⟨31, 16⟩
def FEn_MON_V_D : Fld := ⟨15, 0⟩
def FEn_MON_ANG_VALUE : Fld := ⟨31, 0⟩
def FEn_MON_SPD_VALUE : Fld := ⟨31, 0⟩
def FEn_MON_PRE_VALUE : Fld := ⟨31, 0⟩
def FEn_TMPLj_BYTES : Fld := ⟨31, 0⟩
def MOD_STAT_DEN : Fld := ⟨31, 31⟩
def MOD_STAT_SHOOT : Fld := ⟨23, 16⟩
def MOD_STAT_LATCHED : Fld := ⟨5, 0⟩
def MOD_EVT_MISMATCH : Fld := ⟨9, 9⟩
def MOD_EVT_CLEARED : Fld := ⟨8, 8⟩
def MOD_EVT_EARLY : Fld := ⟨7, 7⟩
def MOD_EVT_APERTURE : Fld := ⟨6, 6⟩
def MOD_EVT_BAND : Fld := ⟨5, 5⟩
def MOD_EVT_DEN_LOW : Fld := ⟨4, 4⟩
def MOD_EVT_ILFAULT : Fld := ⟨3, 3⟩
def MOD_EVT_ILOCK : Fld := ⟨2, 2⟩
def MOD_EVT_GFAULT : Fld := ⟨1, 1⟩
def MOD_EVT_TRIP : Fld := ⟨0, 0⟩
def MOD_EVTEN_MISMATCH : Fld := ⟨9, 9⟩
def MOD_EVTEN_CLEARED : Fld := ⟨8, 8⟩
def MOD_EVTEN_EARLY : Fld := ⟨7, 7⟩
def MOD_EVTEN_APERTURE : Fld := ⟨6, 6⟩
def MOD_EVTEN_BAND : Fld := ⟨5, 5⟩
def MOD_EVTEN_DEN_LOW : Fld := ⟨4, 4⟩
def MOD_EVTEN_ILFAULT : Fld := ⟨3, 3⟩
def MOD_EVTEN_ILOCK : Fld := ⟨2, 2⟩
def MOD_EVTEN_GFAULT : Fld := ⟨1, 1⟩
def MOD_EVTEN_TRIP : Fld := ⟨0, 0⟩
def MOD_SOFT_HOLD : Fld := ⟨15, 0⟩
def MOD_IDT_IDT : Fld := ⟨7, 0⟩
def MOD_DCL_LINK15 : Fld := ⟨31, 30⟩
def MOD_DCL_LINK14 : Fld := ⟨29, 28⟩
def MOD_DCL_LINK13 : Fld := ⟨27, 26⟩
def MOD_DCL_LINK12 : Fld := ⟨25, 24⟩
def MOD_DCL_LINK11 : Fld := ⟨23, 22⟩
def MOD_DCL_LINK10 : Fld := ⟨21, 20⟩
def MOD_DCL_LINK9 : Fld := ⟨19, 18⟩
def MOD_DCL_LINK8 : Fld := ⟨17, 16⟩
def MOD_DCL_LINK7 : Fld := ⟨15, 14⟩
def MOD_DCL_LINK6 : Fld := ⟨13, 12⟩
def MOD_DCL_LINK5 : Fld := ⟨11, 10⟩
def MOD_DCL_LINK4 : Fld := ⟨9, 8⟩
def MOD_DCL_LINK3 : Fld := ⟨7, 6⟩
def MOD_DCL_LINK2 : Fld := ⟨5, 4⟩
def MOD_DCL_LINK1 : Fld := ⟨3, 2⟩
def MOD_DCL_LINK0 : Fld := ⟨1, 0⟩
def MOD_TBAND0_MINON : Fld := ⟨29, 20⟩
def MOD_TBAND0_BLANK : Fld := ⟨19, 10⟩
def MOD_TBAND0_DT : Fld := ⟨9, 0⟩
def MOD_TBAND1_MINON : Fld := ⟨29, 20⟩
def MOD_TBAND1_BLANK : Fld := ⟨19, 10⟩
def MOD_TBAND1_DT : Fld := ⟨9, 0⟩
def MOD_TBAND2_MINON : Fld := ⟨29, 20⟩
def MOD_TBAND2_BLANK : Fld := ⟨19, 10⟩
def MOD_TBAND2_DT : Fld := ⟨9, 0⟩
def MOD_TBAND3_MINON : Fld := ⟨29, 20⟩
def MOD_TBAND3_BLANK : Fld := ⟨19, 10⟩
def MOD_TBAND3_DT : Fld := ⟨9, 0⟩
def MOD_TDRV0_OFF : Fld := ⟨15, 8⟩
def MOD_TDRV0_ON : Fld := ⟨7, 0⟩
def MOD_TDRV1_OFF : Fld := ⟨15, 8⟩
def MOD_TDRV1_ON : Fld := ⟨7, 0⟩
def MOD_TDRV2_OFF : Fld := ⟨15, 8⟩
def MOD_TDRV2_ON : Fld := ⟨7, 0⟩
def MOD_TDRV3_OFF : Fld := ⟨15, 8⟩
def MOD_TDRV3_ON : Fld := ⟨7, 0⟩
def MOD_PPROF_MINON : Fld := ⟨29, 20⟩
def MOD_PPROF_BLANK : Fld := ⟨19, 10⟩
def MOD_PPROF_DT : Fld := ⟨9, 0⟩
def MOD_PDRV_OFF : Fld := ⟨15, 8⟩
def MOD_PDRV_ON : Fld := ⟨7, 0⟩
def MOD_LCFGn_LINK : Fld := ⟨31, 28⟩
def MOD_LCFGn_SLOT : Fld := ⟨27, 24⟩
def MOD_LCFGn_GSEN : Fld := ⟨23, 23⟩
def MOD_LCFGn_ROLE : Fld := ⟨18, 16⟩
def MOD_LCFGn_POS : Fld := ⟨11, 8⟩
def MOD_LCFGn_FUNC : Fld := ⟨3, 0⟩
def MOD_LSTATn_OVR : Fld := ⟨31, 30⟩
def MOD_LSTATn_GF : Fld := ⟨29, 29⟩
def MOD_LSTATn_SOFT : Fld := ⟨28, 28⟩
def MOD_LSTATn_BAND : Fld := ⟨27, 26⟩
def MOD_LSTATn_BPEND : Fld := ⟨25, 25⟩
def MOD_LSTATn_LOST : Fld := ⟨24, 24⟩
def MOD_LSTATn_CAUSE : Fld := ⟨19, 16⟩
def MOD_LSTATn_DT_EFF : Fld := ⟨9, 0⟩
def MOD_DIDTn_BLK : Fld := ⟨15, 8⟩
def MOD_DIDTn_RUN : Fld := ⟨7, 0⟩
def MOD_LCNTn_ILOCK : Fld := ⟨31, 16⟩
def MOD_LCNTn_APERT : Fld := ⟨15, 8⟩
def MOD_LCNTn_TRIPS : Fld := ⟨7, 0⟩
def MOD_LTRIPn_TIME : Fld := ⟨31, 0⟩
def GLK_EVT_CRC : Fld := ⟨15, 8⟩
def GLK_EVT_LOST : Fld := ⟨7, 0⟩
def GLK_EVTEN_CRC : Fld := ⟨15, 8⟩
def GLK_EVTEN_LOST : Fld := ⟨7, 0⟩
def GLKk_STAT_LOST : Fld := ⟨21, 16⟩
def GLKk_STAT_USED : Fld := ⟨13, 8⟩
def GLKk_STAT_QUEUE : Fld := ⟨3, 0⟩
def GLKk_ERR_TIMEOUT : Fld := ⟨31, 16⟩
def GLKk_ERR_BAD : Fld := ⟨15, 0⟩
def GLKk_DRVj_TEMP : Fld := ⟨31, 24⟩
def GLKk_DRVj_FLAGS : Fld := ⟨23, 16⟩
def GLKk_DRVj_AGE : Fld := ⟨7, 0⟩
def FCV_OVR_CH : Fld := ⟨31, 0⟩
def FCV_OVREN_CH : Fld := ⟨31, 0⟩
def FCV_CHn_FS_FS : Fld := ⟨31, 0⟩
def FCV_CHn_CORR_GAIN : Fld := ⟨31, 16⟩
def FCV_CHn_CORR_OFS : Fld := ⟨15, 0⟩
def FCV_CHn_LAST_RAW : Fld := ⟨31, 16⟩
def FCV_CHn_LAST_VALUE : Fld := ⟨15, 0⟩
def RNDr_STATE_UQ : Fld := ⟨18, 16⟩
def RNDr_STATE_ENTRY : Fld := ⟨13, 8⟩
def RNDr_STATE_STATE : Fld := ⟨7, 0⟩
def RNDr_EVT_LOST : Fld := ⟨5, 5⟩
def RNDr_EVT_REF : Fld := ⟨4, 4⟩
def RNDr_EVT_OVF : Fld := ⟨3, 3⟩
def RNDr_EVT_STALE : Fld := ⟨2, 2⟩
def RNDr_EVT_URGDONE : Fld := ⟨1, 1⟩
def RNDr_EVT_RQ : Fld := ⟨0, 0⟩
def RNDr_EVTEN_LOST : Fld := ⟨5, 5⟩
def RNDr_EVTEN_REF : Fld := ⟨4, 4⟩
def RNDr_EVTEN_OVF : Fld := ⟨3, 3⟩
def RNDr_EVTEN_STALE : Fld := ⟨2, 2⟩
def RNDr_EVTEN_URGDONE : Fld := ⟨1, 1⟩
def RNDr_EVTEN_RQ : Fld := ⟨0, 0⟩
def RNDr_URG_SLOT : Fld := ⟨17, 14⟩
def RNDr_URG_SETTLE : Fld := ⟨13, 6⟩
def RNDr_URG_CHANNEL : Fld := ⟨5, 0⟩
def RNDr_URGRES_NEW : Fld := ⟨31, 31⟩
def RNDr_URGRES_ENTRY : Fld := ⟨23, 0⟩
def RNDr_RQCTL_THRESH : Fld := ⟨6, 0⟩
def RNDr_RQSTAT_OVF : Fld := ⟨31, 16⟩
def RNDr_RQSTAT_COUNT : Fld := ⟨6, 0⟩
def RNDr_RQLO_DATA : Fld := ⟨31, 0⟩
def RNDr_RQHI_DATA : Fld := ⟨31, 0⟩
def RNDr_STALE_COUNT : Fld := ⟨31, 16⟩
def RNDr_STALE_ENTRY : Fld := ⟨5, 0⟩
def RNDr_CORRk_GAIN : Fld := ⟨31, 16⟩
def RNDr_CORRk_OFS : Fld := ⟨15, 0⟩
def RNDr_SEQe_VALID : Fld := ⟨31, 31⟩
def RNDr_SEQe_PROT : Fld := ⟨30, 30⟩
def RNDr_SEQe_SETTLE : Fld := ⟨29, 22⟩
def RNDr_SEQe_SLOT : Fld := ⟨21, 18⟩
def RNDr_SEQe_REPEAT : Fld := ⟨17, 13⟩
def RNDr_SEQe_CHANNEL : Fld := ⟨5, 0⟩
def RNDr_LIMe_LIMIT : Fld := ⟨31, 0⟩
def RNDr_LASTc_OVR : Fld := ⟨23, 23⟩
def RNDr_LASTc_URG : Fld := ⟨22, 22⟩
def RNDr_LASTc_ENTRY : Fld := ⟨21, 16⟩
def RNDr_LASTc_VALUE : Fld := ⟨15, 0⟩
def POS_STATE_VALID : Fld := ⟨11, 8⟩
def POS_STATE_STATE : Fld := ⟨7, 0⟩
def POS_EVT_VFALL : Fld := ⟨7, 4⟩
def POS_EVT_FLT : Fld := ⟨3, 0⟩
def POS_EVTEN_VFALL : Fld := ⟨7, 4⟩
def POS_EVTEN_FLT : Fld := ⟨3, 0⟩
def POSk_CFG_EN : Fld := ⟨31, 31⟩
def POSk_CFG_BW : Fld := ⟨21, 20⟩
def POSk_CFG_EXC : Fld := ⟨19, 16⟩
def POSk_CFG_PP_LINES : Fld := ⟨15, 0⟩
def POSk_NOM_MV : Fld := ⟨11, 0⟩
def POSk_OFS_OFS : Fld := ⟨31, 0⟩
def POSk_ANG_ANGLE : Fld := ⟨31, 0⟩
def POSk_SPD_SPEED : Fld := ⟨31, 0⟩
def POSk_STAT_AMP : Fld := ⟨23, 16⟩
def POSk_STAT_TERR : Fld := ⟨15, 8⟩
def POSk_STAT_LOCK : Fld := ⟨1, 1⟩
def POSk_STAT_VALID : Fld := ⟨0, 0⟩
def POSk_FLT_FLAGS : Fld := ⟨7, 0⟩
def SENT_STATE_VALID : Fld := ⟨11, 8⟩
def SENT_STATE_STATE : Fld := ⟨7, 0⟩
def SENT_EVT_INVALID : Fld := ⟨15, 12⟩
def SENT_EVT_ERR : Fld := ⟨11, 8⟩
def SENT_EVT_SLOW : Fld := ⟨7, 4⟩
def SENT_EVT_FRAME : Fld := ⟨3, 0⟩
def SENT_EVTEN_INVALID : Fld := ⟨15, 12⟩
def SENT_EVTEN_ERR : Fld := ⟨11, 8⟩
def SENT_EVTEN_SLOW : Fld := ⟨7, 4⟩
def SENT_EVTEN_FRAME : Fld := ⟨3, 0⟩
def SENTi_CFG_ELIM : Fld := ⟨23, 16⟩
def SENTi_CFG_TICK : Fld := ⟨15, 8⟩
def SENTi_CFG_FORMAT : Fld := ⟨7, 0⟩
def SENTi_FAST_STATUS : Fld := ⟨31, 28⟩
def SENTi_FAST_DATA : Fld := ⟨23, 0⟩
def SENTi_SLOW_TYPE : Fld := ⟨31, 30⟩
def SENTi_SLOW_ID : Fld := ⟨23, 16⟩
def SENTi_SLOW_DATA : Fld := ⟨15, 0⟩
def SENTi_ERR_TOTAL : Fld := ⟨31, 16⟩
def SENTi_ERR_RUN : Fld := ⟨15, 8⟩
def SENTi_ERR_LAST : Fld := ⟨5, 0⟩
def SENTi_TIME_TIME : Fld := ⟨31, 0⟩
def CHG_STATE_FRONT : Fld := ⟨19, 18⟩
def CHG_STATE_MODE : Fld := ⟨17, 16⟩
def CHG_STATE_PHASE : Fld := ⟨15, 8⟩
def CHG_STATE_STATE : Fld := ⟨7, 0⟩
def CHG_PILOT_PP : Fld := ⟨31, 29⟩
def CHG_PILOT_DUTY : Fld := ⟨25, 16⟩
def CHG_PILOT_ICUR : Fld := ⟨15, 8⟩
def CHG_PILOT_OSC : Fld := ⟨4, 4⟩
def CHG_PILOT_CLASS : Fld := ⟨3, 0⟩
def CHG_ILIM_SRC : Fld := ⟨23, 20⟩
def CHG_ILIM_SEARCH : Fld := ⟨19, 18⟩
def CHG_ILIM_LIMIT : Fld := ⟨15, 0⟩
def CHG_FLT_CAUSE : Fld := ⟨15, 0⟩
def CHG_EVT_LIMIT : Fld := ⟨4, 4⟩
def CHG_EVT_PHASE : Fld := ⟨3, 3⟩
def CHG_EVT_PILOT : Fld := ⟨2, 2⟩
def CHG_EVT_PLUG : Fld := ⟨1, 1⟩
def CHG_EVT_FAULT : Fld := ⟨0, 0⟩
def CHG_EVTEN_LIMIT : Fld := ⟨4, 4⟩
def CHG_EVTEN_PHASE : Fld := ⟨3, 3⟩
def CHG_EVTEN_PILOT : Fld := ⟨2, 2⟩
def CHG_EVTEN_PLUG : Fld := ⟨1, 1⟩
def CHG_EVTEN_FAULT : Fld := ⟨0, 0⟩
def CHG_TIME_SESSION : Fld := ⟨31, 16⟩
def CHG_TIME_CC : Fld := ⟨15, 0⟩
def CHG_CFG_ISLAND : Fld := ⟨25, 25⟩
def CHG_CFG_FEED : Fld := ⟨24, 24⟩
def CHG_CFG_WIND : Fld := ⟨23, 16⟩
def CHG_CFG_AFE : Fld := ⟨15, 8⟩
def CHG_CFG_DAB : Fld := ⟨7, 0⟩
def REG_STATE_ACTIVE : Fld := ⟨31, 24⟩
def REG_STATE_USED : Fld := ⟨23, 16⟩
def REG_STATE_PHASE : Fld := ⟨11, 8⟩
def REG_STATE_STATE : Fld := ⟨7, 0⟩
def REG_EVT_LIMIT : Fld := ⟨6, 6⟩
def REG_EVT_HICCUP : Fld := ⟨5, 5⟩
def REG_EVT_ADD : Fld := ⟨4, 4⟩
def REG_EVT_SHED : Fld := ⟨3, 3⟩
def REG_EVT_RESTORE : Fld := ⟨2, 2⟩
def REG_EVT_OV : Fld := ⟨1, 1⟩
def REG_EVT_FAULT : Fld := ⟨0, 0⟩
def REG_EVTEN_LIMIT : Fld := ⟨6, 6⟩
def REG_EVTEN_HICCUP : Fld := ⟨5, 5⟩
def REG_EVTEN_ADD : Fld := ⟨4, 4⟩
def REG_EVTEN_SHED : Fld := ⟨3, 3⟩
def REG_EVTEN_RESTORE : Fld := ⟨2, 2⟩
def REG_EVTEN_OV : Fld := ⟨1, 1⟩
def REG_EVTEN_FAULT : Fld := ⟨0, 0⟩
def REG_FLT_CAUSE : Fld := ⟨5, 0⟩
def REG_TARGET_RLL : Fld := ⟨31, 16⟩
def REG_TARGET_VSET : Fld := ⟨15, 0⟩
def REG_SHED_MINPH : Fld := ⟨11, 8⟩
def REG_SHED_EN : Fld := ⟨0, 0⟩
def REG_OUT_IOUT : Fld := ⟨31, 16⟩
def REG_OUT_VOS : Fld := ⟨15, 0⟩
def REG_LIM_FAILS : Fld := ⟨17, 16⟩
def REG_LIM_ILIM : Fld := ⟨15, 0⟩
def REG_VIN_VIN : Fld := ⟨15, 0⟩
def REG_PHn_TRIM : Fld := ⟨31, 20⟩
def REG_PHn_ACT : Fld := ⟨16, 16⟩
def REG_PHn_I : Fld := ⟨15, 0⟩
def REG_CFG_FSW : Fld := ⟨25, 16⟩
def REG_CFG_TOFFMIN : Fld := ⟨15, 8⟩
def REG_CFG_MASK : Fld := ⟨7, 0⟩
def REG_SS_HICCUP : Fld := ⟨31, 24⟩
def REG_SS_MARGIN : Fld := ⟨23, 16⟩
def REG_SS_SSTIME : Fld := ⟨15, 0⟩
def REG_PROT_OV : Fld := ⟨31, 16⟩
def REG_PROT_VINMIN : Fld := ⟨15, 0⟩
def REG_ILIM_IMIN : Fld := ⟨31, 16⟩
def REG_ILIM_IMAX : Fld := ⟨15, 0⟩
def REG_SHEDCFG_SHEDI : Fld := ⟨31, 24⟩
def REG_SHEDCFG_ADDI : Fld := ⟨23, 16⟩
def REG_SHEDCFG_SHEDT : Fld := ⟨15, 8⟩
def REG_SHEDCFG_HOLD : Fld := ⟨7, 0⟩
def REG_SENSE_GAIN : Fld := ⟨31, 16⟩
def REG_SENSE_ZERO : Fld := ⟨15, 0⟩
def REG_RIPPLE_L : Fld := ⟨31, 16⟩
def REG_RIPPLE_KRIP : Fld := ⟨15, 0⟩
def ACT_STAT_EN : Fld := ⟨31, 31⟩
def ACT_STAT_LATCHED : Fld := ⟨11, 0⟩
def ACT_EVT_CLEARED : Fld := ⟨3, 3⟩
def ACT_EVT_EN_LOW : Fld := ⟨2, 2⟩
def ACT_EVT_VUV : Fld := ⟨1, 1⟩
def ACT_EVT_VOV : Fld := ⟨0, 0⟩
def ACT_EVTEN_CLEARED : Fld := ⟨3, 3⟩
def ACT_EVTEN_EN_LOW : Fld := ⟨2, 2⟩
def ACT_EVTEN_VUV : Fld := ⟨1, 1⟩
def ACT_EVTEN_VOV : Fld := ⟨0, 0⟩
def ACT_VACT_MV : Fld := ⟨15, 0⟩
def ACk_STATE_ATTEMPT : Fld := ⟨23, 20⟩
def ACk_STATE_PHASE : Fld := ⟨19, 16⟩
def ACk_STATE_CAUSE : Fld := ⟨15, 8⟩
def ACk_STATE_STATE : Fld := ⟨7, 0⟩
def ACk_CFG_SPDMAX : Fld := ⟨31, 16⟩
def ACk_CFG_PWM : Fld := ⟨15, 8⟩
def ACk_CFG_OWNED : Fld := ⟨7, 7⟩
def ACk_CFG_PP : Fld := ⟨4, 0⟩
def ACk_RATED_IRATED : Fld := ⟨15, 0⟩
def ACk_SPD_SET : Fld := ⟨31, 16⟩
def ACk_SPD_SPEED : Fld := ⟨15, 0⟩
def ACk_I_IQ : Fld := ⟨31, 16⟩
def ACk_I_ID : Fld := ⟨15, 0⟩
def ACk_EVT_RETRY : Fld := ⟨6, 6⟩
def ACk_EVT_BLIND : Fld := ⟨5, 5⟩
def ACk_EVT_REGCLAMP : Fld := ⟨4, 4⟩
def ACk_EVT_VSAT : Fld := ⟨3, 3⟩
def ACk_EVT_STALL : Fld := ⟨2, 2⟩
def ACk_EVT_RUN : Fld := ⟨1, 1⟩
def ACk_EVT_FAULT : Fld := ⟨0, 0⟩
def ACk_EVTEN_RETRY : Fld := ⟨6, 6⟩
def ACk_EVTEN_BLIND : Fld := ⟨5, 5⟩
def ACk_EVTEN_REGCLAMP : Fld := ⟨4, 4⟩
def ACk_EVTEN_VSAT : Fld := ⟨3, 3⟩
def ACk_EVTEN_STALL : Fld := ⟨2, 2⟩
def ACk_EVTEN_RUN : Fld := ⟨1, 1⟩
def ACk_EVTEN_FAULT : Fld := ⟨0, 0⟩
def ACk_FLT_CAUSE : Fld := ⟨7, 0⟩
def ACk_LATCH_POS2 : Fld := ⟨11, 8⟩
def ACk_LATCH_POS1 : Fld := ⟨7, 4⟩
def ACk_LATCH_POS0 : Fld := ⟨3, 0⟩
def ACk_LEAKL_G2 : Fld := ⟨23, 16⟩
def ACk_LEAKL_G1 : Fld := ⟨15, 8⟩
def ACk_LEAKL_G0 : Fld := ⟨7, 0⟩
def ACk_LEAKH_G2 : Fld := ⟨23, 16⟩
def ACk_LEAKH_G1 : Fld := ⟨15, 8⟩
def ACk_LEAKH_G0 : Fld := ⟨7, 0⟩
def ACk_BOOT_COUNT : Fld := ⟨31, 0⟩
def GBX_STATE_CLUTCH : Fld := ⟨27, 24⟩
def GBX_STATE_PARK : Fld := ⟨23, 20⟩
def GBX_STATE_SHIFT : Fld := ⟨19, 16⟩
def GBX_STATE_PHASE : Fld := ⟨15, 12⟩
def GBX_STATE_OP : Fld := ⟨11, 8⟩
def GBX_STATE_STATE : Fld := ⟨7, 0⟩
def GBX_EVT_BLOCK : Fld := ⟨3, 3⟩
def GBX_EVT_REPORT : Fld := ⟨2, 2⟩
def GBX_EVT_DONE : Fld := ⟨1, 1⟩
def GBX_EVT_FAULT : Fld := ⟨0, 0⟩
def GBX_EVTEN_BLOCK : Fld := ⟨3, 3⟩
def GBX_EVTEN_REPORT : Fld := ⟨2, 2⟩
def GBX_EVTEN_DONE : Fld := ⟨1, 1⟩
def GBX_EVTEN_FAULT : Fld := ⟨0, 0⟩
def GBX_FLT_CAUSE : Fld := ⟨3, 0⟩
def GBX_POS0_PARK : Fld := ⟨27, 16⟩
def GBX_POS0_SHIFT : Fld := ⟨11, 0⟩
def GBX_POS1_CLUTCH : Fld := ⟨11, 0⟩
def GBX_OUTSPD_SPEED : Fld := ⟨31, 0⟩
def GBX_TS_TSB : Fld := ⟨31, 16⟩
def GBX_TS_TSA : Fld := ⟨15, 0⟩
def GBX_CFG_DECL : Fld := ⟨30, 28⟩
def GBX_CFG_OUTSRC : Fld := ⟨25, 24⟩
def GBX_CFG_FUNCB : Fld := ⟨23, 16⟩
def GBX_CFG_FUNCA : Fld := ⟨15, 8⟩
def GBX_SENT_CLUTCH : Fld := ⟨23, 16⟩
def GBX_SENT_PARK : Fld := ⟨15, 8⟩
def GBX_SENT_SHIFT : Fld := ⟨7, 0⟩
def LDG_STATE_FALLBACK : Fld := ⟨9, 9⟩
def LDG_STATE_STALE : Fld := ⟨8, 8⟩
def LDG_STATE_STATE : Fld := ⟨7, 0⟩
def LDG_EVT_SAT : Fld := ⟨6, 6⟩
def LDG_EVT_KAEND : Fld := ⟨5, 5⟩
def LDG_EVT_WQOVF : Fld := ⟨4, 4⟩
def LDG_EVT_WDRAW : Fld := ⟨3, 3⟩
def LDG_EVT_LIMITS : Fld := ⟨2, 2⟩
def LDG_EVT_STALE : Fld := ⟨1, 1⟩
def LDG_EVT_IMB : Fld := ⟨0, 0⟩
def LDG_EVTEN_SAT : Fld := ⟨6, 6⟩
def LDG_EVTEN_KAEND : Fld := ⟨5, 5⟩
def LDG_EVTEN_WQOVF : Fld := ⟨4, 4⟩
def LDG_EVTEN_WDRAW : Fld := ⟨3, 3⟩
def LDG_EVTEN_LIMITS : Fld := ⟨2, 2⟩
def LDG_EVTEN_STALE : Fld := ⟨1, 1⟩
def LDG_EVTEN_IMB : Fld := ⟨0, 0⟩
def LDG_IMB_LINK : Fld := ⟨3, 0⟩
def LDG_ROUND_COUNT : Fld := ⟨31, 8⟩
def LDG_ROUND_TIME : Fld := ⟨7, 0⟩
def LDG_WQLO_DATA : Fld := ⟨31, 0⟩
def LDG_WQHI_DATA : Fld := ⟨31, 0⟩
def LDG_WQSTAT_OVF : Fld := ⟨31, 16⟩
def LDG_WQSTAT_COUNT : Fld := ⟨5, 0⟩
def LDG_KABLO_LOW : Fld := ⟨31, 0⟩
def LDG_KABHI_HIGH : Fld := ⟨31, 0⟩
def LDG_KASKIP_COUNT : Fld := ⟨31, 0⟩
def LDG_KAWAKE_TIMER : Fld := ⟨31, 16⟩
def LDG_KAWAKE_PIN : Fld := ⟨15, 0⟩
def LDG_NRESk_VALUE : Fld := ⟨31, 0⟩
def LDG_PNf_VALUE : Fld := ⟨31, 0⟩
def LDG_EDf_VALUE : Fld := ⟨31, 0⟩
def LDG_ERf_VALUE : Fld := ⟨31, 0⟩
def LDG_Pp_CFG_ICH : Fld := ⟨23, 16⟩
def LDG_Pp_CFG_VCH : Fld := ⟨15, 8⟩
def LDG_Pp_CFG_KIND : Fld := ⟨7, 4⟩
def LDG_Pp_CFG_SEL : Fld := ⟨3, 0⟩
def LDG_Pp_PWR_W : Fld := ⟨31, 0⟩
def LDG_Pp_ELO_NET : Fld := ⟨31, 0⟩
def LDG_Pp_EHI_NET : Fld := ⟨31, 0⟩
def LDG_Pp_MAXD_W : Fld := ⟨31, 0⟩
def LDG_Pp_MAXR_W : Fld := ⟨31, 0⟩
def LDG_Pp_IMBW_W : Fld := ⟨31, 0⟩
def LDG_Pp_IMBT_US : Fld := ⟨31, 0⟩
def LSC_CFG_SPLIT : Fld := ⟨8, 8⟩
def LSC_CFG_REACH : Fld := ⟨3, 0⟩
def LSC_STAT_PAIR3 : Fld := ⟨15, 12⟩
def LSC_STAT_PAIR2 : Fld := ⟨11, 8⟩
def LSC_STAT_PAIR1 : Fld := ⟨7, 4⟩
def LSC_STAT_PAIR0 : Fld := ⟨3, 0⟩
def LSC_EVT_MISM : Fld := ⟨3, 0⟩
def LSC_EVTEN_MISM : Fld := ⟨3, 0⟩
def LSC_STEST_RAN : Fld := ⟨3, 0⟩
def LSC_MCAUSEn_VALID : Fld := ⟨31, 31⟩
def LSC_MCAUSEn_CLASSES : Fld := ⟨22, 16⟩
def LSC_MCAUSEn_CLASS : Fld := ⟨2, 0⟩
def LSC_MPCn_PC : Fld := ⟨31, 0⟩
def LSC_MTIMEn_TIME : Fld := ⟨31, 0⟩
def LSC_MCNTn_COUNT : Fld := ⟨15, 0⟩
def SSM_STATE_SAFE : Fld := ⟨31, 31⟩
def SSM_STATE_FAULTN : Fld := ⟨30, 30⟩
def SSM_STATE_STATE : Fld := ⟨7, 0⟩
def SSM_CAUSE_SEEN : Fld := ⟨25, 16⟩
def SSM_CAUSE_ACTIVE : Fld := ⟨9, 0⟩
def SSM_EVT_FUNC : Fld := ⟨3, 3⟩
def SSM_EVT_WDWARN : Fld := ⟨2, 2⟩
def SSM_EVT_RELEASED : Fld := ⟨1, 1⟩
def SSM_EVT_SAFE : Fld := ⟨0, 0⟩
def SSM_EVTEN_FUNC : Fld := ⟨3, 3⟩
def SSM_EVTEN_WDWARN : Fld := ⟨2, 2⟩
def SSM_EVTEN_RELEASED : Fld := ⟨1, 1⟩
def SSM_EVTEN_SAFE : Fld := ⟨0, 0⟩
def SSM_FACK_ACK : Fld := ⟨0, 0⟩
def SSM_LASTF_SOURCE : Fld := ⟨31, 24⟩
def SSM_LASTF_INSTANCE : Fld := ⟨23, 16⟩
def SSM_LASTF_CAUSE : Fld := ⟨15, 8⟩
def SSM_ASC_PREF : Fld := ⟨15, 0⟩
def SSM_HB_AGE : Fld := ⟨7, 0⟩
def SSM_PAT0_FUNC7 : Fld := ⟨31, 28⟩
def SSM_PAT0_FUNC6 : Fld := ⟨27, 24⟩
def SSM_PAT0_FUNC5 : Fld := ⟨23, 20⟩
def SSM_PAT0_FUNC4 : Fld := ⟨19, 16⟩
def SSM_PAT0_FUNC3 : Fld := ⟨15, 12⟩
def SSM_PAT0_FUNC2 : Fld := ⟨11, 8⟩
def SSM_PAT0_FUNC1 : Fld := ⟨7, 4⟩
def SSM_PAT0_FUNC0 : Fld := ⟨3, 0⟩
def SSM_PAT1_FUNC7 : Fld := ⟨31, 28⟩
def SSM_PAT1_FUNC6 : Fld := ⟨27, 24⟩
def SSM_PAT1_FUNC5 : Fld := ⟨23, 20⟩
def SSM_PAT1_FUNC4 : Fld := ⟨19, 16⟩
def SSM_PAT1_FUNC3 : Fld := ⟨15, 12⟩
def SSM_PAT1_FUNC2 : Fld := ⟨11, 8⟩
def SSM_PAT1_FUNC1 : Fld := ⟨7, 4⟩
def SSM_PAT1_FUNC0 : Fld := ⟨3, 0⟩
def SSM_PATX_REG : Fld := ⟨9, 8⟩
def SSM_PATX_ACT : Fld := ⟨3, 0⟩
def SSM_OTEST_RAN : Fld := ⟨31, 31⟩
def SSM_OTEST_SKIP : Fld := ⟨30, 30⟩
def SSM_OTEST_PASS : Fld := ⟨29, 29⟩
def SSM_OTEST_ITEM : Fld := ⟨7, 0⟩
def SSM_WDKn_KEY : Fld := ⟨31, 0⟩
def SSM_WDSTATn_SINCE : Fld := ⟨31, 16⟩
def SSM_WDSTATn_EXPIRED : Fld := ⟨15, 8⟩
def SSM_WDSTATn_MODE : Fld := ⟨1, 0⟩
def SSM_WDCFGn_MAX : Fld := ⟨31, 16⟩
def SSM_WDCFGn_MIN : Fld := ⟨15, 0⟩
def RST_STATE_PHASE : Fld := ⟨15, 8⟩
def RST_STATE_STATE : Fld := ⟨7, 0⟩
def RST_CAUSE_PAIRS : Fld := ⟨19, 16⟩
def RST_CAUSE_REACH : Fld := ⟨9, 8⟩
def RST_CAUSE_SOURCE : Fld := ⟨7, 0⟩
def RST_PEND_SRC : Fld := ⟨13, 1⟩
def RST_START_FWFAIL : Fld := ⟨10, 10⟩
def RST_START_PR : Fld := ⟨9, 9⟩
def RST_START_TIMEOUT : Fld := ⟨8, 8⟩
def RST_START_COUNT : Fld := ⟨2, 0⟩
def RST_WAKE_TRANSPORT : Fld := ⟨8, 8⟩
def RST_WAKE_SRC : Fld := ⟨2, 0⟩
def RST_EVT_UNITRST : Fld := ⟨2, 2⟩
def RST_EVT_PAIRRST : Fld := ⟨1, 1⟩
def RST_EVT_OPER : Fld := ⟨0, 0⟩
def RST_EVTEN_UNITRST : Fld := ⟨2, 2⟩
def RST_EVTEN_PAIRRST : Fld := ⟨1, 1⟩
def RST_EVTEN_OPER : Fld := ⟨0, 0⟩
def RST_OPTIME_US : Fld := ⟨31, 0⟩
def RST_PVECn_ADDR : Fld := ⟨31, 2⟩
def CLK_STAT_LOCK : Fld := ⟨20, 16⟩
def CLK_STAT_GOOD : Fld := ⟨8, 0⟩
def CLK_EVT_WARN : Fld := ⟨8, 0⟩
def CLK_EVTEN_WARN : Fld := ⟨8, 0⟩
def CLK_LAST_LOSSES : Fld := ⟨31, 16⟩
def CLK_LAST_KIND : Fld := ⟨7, 4⟩
def CLK_LAST_INDEX : Fld := ⟨3, 0⟩
def CLK_FREQi_COUNT : Fld := ⟨15, 0⟩
def THM_STATE_BROKEN : Fld := ⟨23, 16⟩
def THM_STATE_LEVEL : Fld := ⟨14, 12⟩
def THM_STATE_COLD : Fld := ⟨10, 10⟩
def THM_STATE_MRAMWIN : Fld := ⟨9, 9⟩
def THM_STATE_FAST : Fld := ⟨8, 8⟩
def THM_STATE_STATE : Fld := ⟨7, 0⟩
def THM_EVT_MRAMWIN : Fld := ⟨4, 4⟩
def THM_EVT_COLD : Fld := ⟨3, 3⟩
def THM_EVT_BROKEN : Fld := ⟨2, 2⟩
def THM_EVT_FAST : Fld := ⟨1, 1⟩
def THM_EVT_THROT : Fld := ⟨0, 0⟩
def THM_EVTEN_MRAMWIN : Fld := ⟨4, 4⟩
def THM_EVTEN_COLD : Fld := ⟨3, 3⟩
def THM_EVTEN_BROKEN : Fld := ⟨2, 2⟩
def THM_EVTEN_FAST : Fld := ⟨1, 1⟩
def THM_EVTEN_THROT : Fld := ⟨0, 0⟩
def THM_LIMIT_SHUT : Fld := ⟨23, 16⟩
def THM_LIMIT_THROT : Fld := ⟨7, 0⟩
def THM_TCFG_MASK : Fld := ⟨2, 0⟩
def THM_SUPFLT_ACTIVE : Fld := ⟨15, 8⟩
def THM_SUPFLT_SEEN : Fld := ⟨7, 0⟩
def THM_TEMPs_BROKEN : Fld := ⟨31, 31⟩
def THM_TEMPs_TEMP : Fld := ⟨15, 0⟩
def THM_SUPr_MV : Fld := ⟨15, 0⟩
def EVC_STAT_INSERV : Fld := ⟨24, 16⟩
def EVC_STAT_RAISED : Fld := ⟨8, 0⟩
def EVC_EVT_STRANDED : Fld := ⟨0, 0⟩
def EVC_EVTEN_STRANDED : Fld := ⟨0, 0⟩
def EVC_DBSET_DB : Fld := ⟨15, 0⟩
def EVC_STRAND_COUNT : Fld := ⟨31, 16⟩
def EVC_STRAND_ID : Fld := ⟨9, 0⟩
def EVC_THRt_THR : Fld := ⟨3, 0⟩
def EVC_CLAIMt_ID : Fld := ⟨9, 0⟩
def EVC_FASTt_ACTIVE : Fld := ⟨31, 31⟩
def EVC_FASTt_ID : Fld := ⟨9, 0⟩
def EVC_WAKEt_KIND : Fld := ⟨31, 30⟩
def EVC_WAKEt_ID : Fld := ⟨9, 0⟩
def EVC_SRCm_EN : Fld := ⟨31, 31⟩
def EVC_SRCm_CLASS : Fld := ⟨30, 30⟩
def EVC_SRCm_PRIO : Fld := ⟨27, 24⟩
def EVC_SRCm_FALLBACK : Fld := ⟨23, 16⟩
def EVC_SRCm_TARGET : Fld := ⟨15, 8⟩
def EVC_SRCm_INSERV : Fld := ⟨1, 1⟩
def EVC_SRCm_RAISED : Fld := ⟨0, 0⟩
def CANn_STATE_TEC : Fld := ⟨31, 24⟩
def CANn_STATE_REC : Fld := ⟨23, 16⟩
def CANn_STATE_CONF : Fld := ⟨9, 8⟩
def CANn_STATE_STATE : Fld := ⟨7, 0⟩
def CANn_EVT_DROP : Fld := ⟨2, 2⟩
def CANn_EVT_DISC : Fld := ⟨1, 1⟩
def CANn_EVT_CONF : Fld := ⟨0, 0⟩
def CANn_EVTEN_DROP : Fld := ⟨2, 2⟩
def CANn_EVTEN_DISC : Fld := ⟨1, 1⟩
def CANn_EVTEN_CONF : Fld := ⟨0, 0⟩
def CANn_MODE_RETRY : Fld := ⟨12, 8⟩
def CANn_MODE_TRIPLE : Fld := ⟨3, 3⟩
def CANn_MODE_MODE : Fld := ⟨2, 1⟩
def CANn_TIMING_DSP : Fld := ⟨31, 24⟩
def CANn_TIMING_NSP : Fld := ⟨23, 16⟩
def CANn_TIMING_DRATE : Fld := ⟨15, 8⟩
def CANn_TIMING_NRATE : Fld := ⟨7, 0⟩
def CANn_IDS_TXID : Fld := ⟨26, 16⟩
def CANn_IDS_RXID : Fld := ⟨10, 0⟩
def CANn_CNT_DISCARD : Fld := ⟨31, 16⟩
def CANn_CNT_DROP : Fld := ⟨15, 0⟩
def ETHp_STATE_MERGED : Fld := ⟨19, 19⟩
def ETHp_STATE_SYNCED : Fld := ⟨18, 18⟩
def ETHp_STATE_SPEED : Fld := ⟨17, 17⟩
def ETHp_STATE_LINK : Fld := ⟨16, 16⟩
def ETHp_STATE_STATE : Fld := ⟨7, 0⟩
def ETHp_EVT_PNWARN : Fld := ⟨4, 4⟩
def ETHp_EVT_MSDROP : Fld := ⟨3, 3⟩
def ETHp_EVT_SYNC : Fld := ⟨2, 2⟩
def ETHp_EVT_LINK : Fld := ⟨1, 1⟩
def ETHp_EVT_DISC : Fld := ⟨0, 0⟩
def ETHp_EVTEN_PNWARN : Fld := ⟨4, 4⟩
def ETHp_EVTEN_MSDROP : Fld := ⟨3, 3⟩
def ETHp_EVTEN_SYNC : Fld := ⟨2, 2⟩
def ETHp_EVTEN_LINK : Fld := ⟨1, 1⟩
def ETHp_EVTEN_DISC : Fld := ⟨0, 0⟩
def ETHp_CFG_VLAN : Fld := ⟨31, 16⟩
def ETHp_CFG_KEY : Fld := ⟨10, 8⟩
def ETHp_CFG_FLAGS : Fld := ⟨7, 0⟩
def ETHp_MACL_ADDR : Fld := ⟨31, 0⟩
def ETHp_MACH_ADDR : Fld := ⟨15, 0⟩
def ETHp_OFFS_VALUE : Fld := ⟨31, 0⟩
def ETHp_RATE_VALUE : Fld := ⟨31, 0⟩
def ETHp_MDIO_GO : Fld := ⟨31, 31⟩
def ETHp_MDIO_CL45 : Fld := ⟨30, 30⟩
def ETHp_MDIO_OP : Fld := ⟨29, 28⟩
def ETHp_MDIO_PHY : Fld := ⟨27, 23⟩
def ETHp_MDIO_REG : Fld := ⟨22, 18⟩
def ETHp_MDIO_DATA : Fld := ⟨15, 0⟩
def ETHp_CNT_MSDROP : Fld := ⟨31, 16⟩
def ETHp_CNT_DISCARD : Fld := ⟨15, 0⟩
def ETHp_GCLj_GATES : Fld := ⟨31, 28⟩
def ETHp_GCLj_INTERVAL : Fld := ⟨27, 0⟩
def SEC_STATE_DBG : Fld := ⟨17, 16⟩
def SEC_STATE_BUSY : Fld := ⟨15, 15⟩
def SEC_STATE_CHECK : Fld := ⟨14, 14⟩
def SEC_STATE_STATE : Fld := ⟨7, 0⟩
def SEC_EVT_TRNG : Fld := ⟨3, 3⟩
def SEC_EVT_CHECK : Fld := ⟨2, 2⟩
def SEC_EVT_DBG : Fld := ⟨1, 1⟩
def SEC_EVT_KCMD : Fld := ⟨0, 0⟩
def SEC_EVTEN_TRNG : Fld := ⟨3, 3⟩
def SEC_EVTEN_CHECK : Fld := ⟨2, 2⟩
def SEC_EVTEN_DBG : Fld := ⟨1, 1⟩
def SEC_EVTEN_KCMD : Fld := ⟨0, 0⟩
def SEC_KEYS_DBGKEY : Fld := ⟨16, 16⟩
def SEC_KEYS_REVOKED : Fld := ⟨7, 4⟩
def SEC_KEYS_PROV : Fld := ⟨3, 0⟩
def SEC_SESS_COUNT : Fld := ⟨31, 0⟩
def SEC_TRNG_VALUE : Fld := ⟨31, 0⟩
def SEC_DBGCHALj_DATA : Fld := ⟨31, 0⟩
def SEC_DBGRESPj_DATA : Fld := ⟨31, 0⟩
def SEC_KCMD_SLOT : Fld := ⟨10, 8⟩
def SEC_KCMD_ACTION : Fld := ⟨3, 0⟩
def SEC_KDATAj_DATA : Fld := ⟨31, 0⟩
def DBG_STATE_LOCK : Fld := ⟨25, 24⟩
def DBG_STATE_SELECT : Fld := ⟨23, 16⟩
def DBG_STATE_HALTED : Fld := ⟨15, 8⟩
def DBG_STATE_HRESET : Fld := ⟨3, 0⟩
def DBG_REPLAYn_PEAK : Fld := ⟨15, 8⟩
def DBG_REPLAYn_COUNT : Fld := ⟨4, 0⟩
def DBG_HALTSt_COUNT : Fld := ⟨15, 0⟩
def MEM_EVT_RESTFAIL : Fld := ⟨2, 2⟩
def MEM_EVT_UE : Fld := ⟨1, 1⟩
def MEM_EVT_CETHR : Fld := ⟨0, 0⟩
def MEM_EVTEN_RESTFAIL : Fld := ⟨2, 2⟩
def MEM_EVTEN_UE : Fld := ⟨1, 1⟩
def MEM_EVTEN_CETHR : Fld := ⟨0, 0⟩
def MEM_CETHR_THR : Fld := ⟨15, 0⟩
def MEM_LASTADDR_ADDR : Fld := ⟨31, 0⟩
def MEM_LASTINFO_OVERRUN : Fld := ⟨17, 17⟩
def MEM_LASTINFO_VALID : Fld := ⟨16, 16⟩
def MEM_LASTINFO_REQ : Fld := ⟨15, 8⟩
def MEM_LASTINFO_UE : Fld := ⟨7, 7⟩
def MEM_LASTINFO_BYTES : Fld := ⟨6, 4⟩
def MEM_LASTINFO_STORE : Fld := ⟨2, 0⟩
def MEM_INJ_MASK : Fld := ⟨15, 8⟩
def MEM_INJ_STORE : Fld := ⟨2, 0⟩
def MEM_CRIT_ITEM : Fld := ⟨7, 0⟩
def MEM_CNTs_CLR : Fld := ⟨31, 31⟩
def MEM_CNTs_UE : Fld := ⟨30, 16⟩
def MEM_CNTs_CE : Fld := ⟨15, 0⟩
def MEM_SCRUBs_MS : Fld := ⟨13, 0⟩
def NVS_STATE_QUEUE : Fld := ⟨20, 16⟩
def NVS_STATE_STATE : Fld := ⟨7, 0⟩
def NVS_EVT_JLOST : Fld := ⟨2, 2⟩
def NVS_EVT_WFAIL : Fld := ⟨1, 1⟩
def NVS_EVT_WDONE : Fld := ⟨0, 0⟩
def NVS_EVTEN_JLOST : Fld := ⟨2, 2⟩
def NVS_EVTEN_WFAIL : Fld := ⟨1, 1⟩
def NVS_EVTEN_WDONE : Fld := ⟨0, 0⟩
def NVS_WADDR_OFFSET : Fld := ⟨25, 5⟩
def NVS_WCMD_TARGET : Fld := ⟨1, 0⟩
def NVS_WSTAT_STATUS : Fld := ⟨7, 0⟩
def NVS_JSEQ_SEQ : Fld := ⟨31, 0⟩
def NVS_JLOST_COUNT : Fld := ⟨15, 0⟩
def NVS_JPOST_GO : Fld := ⟨0, 0⟩
def NVS_MSCRUB_HOURS : Fld := ⟨7, 0⟩
def NVS_WDATAj_DATA : Fld := ⟨31, 0⟩
def NVS_JDATAj_DATA : Fld := ⟨31, 0⟩
def PIN_IN_LEVEL : Fld := ⟨31, 0⟩
def PIN_OUT_LEVEL : Fld := ⟨31, 0⟩
def PIN_CFGn_FUNC : Fld := ⟨15, 8⟩
def PIN_CFGn_PULL : Fld := ⟨5, 4⟩
def PIN_CFGn_INIT : Fld := ⟨0, 0⟩
end F

end Sys2Proof.Machine
end

