-- ==== Sys2Proof/Machine/Bits.lean ====
section
/-!
DEFINITION. Bit fields, two's complement values, little-endian byte lists, fixed-point rounding helpers: the plain
functions that every family uses.
-/
namespace Sys2Proof.Machine

/-- The bits [hi:lo] of a natural number. -/
def bitsOf (v hi lo : Nat) : Nat := v / 2 ^ lo % 2 ^ (hi + 1 - lo)

/-- One bit of a natural number. -/
def bitAt (v i : Nat) : Bool := v / 2 ^ i % 2 == 1

/-- 1 for true, 0 for false. -/
def b2n (b : Bool) : Nat := if b then 1 else 0

/-- A field of a register word. -/
def getF (w : Word) (f : Fld) : Nat := bitsOf w.toNat f.hi f.lo

/-- A register word with one field replaced (the value is cut to the field's width). -/
def setF (w : Word) (f : Fld) (v : Nat) : Word :=
  BitVec.ofNat 32 (w.toNat - getF w f * 2 ^ f.lo + v % 2 ^ (f.hi + 1 - f.lo) * 2 ^ f.lo)

/-- The two's complement value of an n-bit pattern. -/
def toSigned (n v : Nat) : Int := if v % 2 ^ n < 2 ^ (n - 1) then (v % 2 ^ n : Nat) else ((v % 2 ^ n : Nat) : Int) - (2 ^ n : Nat)

/-- The n-bit two's complement pattern of an integer. -/
def ofSigned (n : Nat) (v : Int) : Nat := (v % ((2 ^ n : Nat) : Int)).toNat

/-- An integer limited to [lo, hi]. -/
def clampI (lo hi v : Int) : Int := if v < lo then lo else if hi < v then hi else v

/-- An integer saturated to the range of an n-bit two's complement field. -/
def satS (n : Nat) (v : Int) : Int := clampI (-((2 ^ (n - 1) : Nat) : Int)) (((2 ^ (n - 1) : Nat) : Int) - 1) v

/-- A natural number saturated to an n-bit field. -/
def satU (n v : Nat) : Nat := if v < 2 ^ n then v else 2 ^ n - 1

/-- The little-endian value of a byte list. -/
def leNat : List Byte → Nat
  | [] => 0
  | b :: t => b.toNat + 256 * leNat t

/-- The n little-endian bytes of a value. -/
def leBytes : Nat → Nat → List Byte
  | 0, _ => []
  | n + 1, v => BitVec.ofNat 8 v :: leBytes n (v / 256)

/-- n little-endian bytes of a byte list from an offset (absent bytes read 0). -/
def leAt (l : List Byte) (off n : Nat) : Nat := leNat ((l.drop off).take n)

/-- The byte list with n bytes from an offset replaced by a little-endian value; a list too short is padded. -/
def putLe (l : List Byte) (off n v : Nat) : List Byte :=
  let p := l ++ List.replicate (off + n - l.length) 0
  p.take off ++ leBytes n v ++ p.drop (off + n)

/-- A byte list padded with zeros, or cut, to a length. -/
def padTo (n : Nat) (l : List Byte) : List Byte := l.take n ++ List.replicate (n - l.length) 0

/-- A rational limited to [lo, hi]. -/
def clampQ (lo hi v : Rat) : Rat := if v < lo then lo else if hi < v then hi else v

/-- The greater of two integers. -/
def maxI (a b : Int) : Int := if a < b then b else a

/-- The lesser of two integers. -/
def minI (a b : Int) : Int := if b < a then b else a

/-- The magnitude of an integer. -/
def absI (a : Int) : Int := if a < 0 then -a else a

/-- The least of a list, none where it is empty. -/
def minList : List Int → Option Int
  | [] => none
  | x :: t => match minList t with
    | none => some x
    | some m => some (minI x m)

end Sys2Proof.Machine
end

