-- ==== Sys2Proof/Machine/Fixed.lean ====
section
/-!
DEFINITION. Engine arithmetic over exact rationals: quantising to the formats of Table FE-5, sine and cosine, square
root, Clarke and Park transforms, the deadbeat law (R108) and the voltage limit (R109).
-/
namespace Sys2Proof.Machine

/-- A pair of components: d and q, x and y, or α and β. -/
abbrev Vec := Rat × Rat

/-- A value in units of 2^−f, to the code below or above it. -/
def quant (f : Nat) (x : Rat) : Int :=
  let y := x * ((2 ^ f : Nat) : Rat)
  if (y.floor : Rat) = y then y.floor else if Config.roundUp x then y.floor + 1 else y.floor

/-- Rounded to nearest, a tie upwards. -/
def nearest (x : Rat) : Int := (x + 1 / 2).floor

/-- A quantity in a 32-bit format with f fraction bits: its value, saturated, and whether it saturates (R99). -/
def fx (f : Nat) (x : Rat) : Rat × Bool :=
  let c := quant f x
  ((satS 32 c : Rat) / ((2 ^ f : Nat) : Rat), c != satS 32 c)
/-- A vector in a 32-bit format. -/
def fxv (f : Nat) (v : Vec) : Vec × Bool :=
  let (a, x) := fx f v.1
  let (b, y) := fx f v.2
  ((a, b), x || y)

/-- Q5.27: a per-unit quantity, saturated (R99). -/
def q27 (x : Rat) : Int := satS 32 (quant 27 x)
/-- The quantity saturates in Q5.27. -/
def out27 (x : Rat) : Bool := (fx 27 x).2
/-- The value of a Q5.27 code. -/
def of27 (v : Int) : Rat := (v : Rat) / 134217728
def q27v (v : Vec) : Int × Int := (q27 v.1, q27 v.2)
def of27v (v : Int × Int) : Vec := (of27 v.1, of27 v.2)

/-- π to twenty digits, more than any format of Table FE-5 holds. -/
def piR : Rat := 314159265358979323846 / 100000000000000000000

/-- The integer square root, bit by bit from bit `k − 1`. -/
def isqrtFrom : Nat → Nat → Nat → Nat
  | 0, _, r => r
  | k + 1, n, r => isqrtFrom k n (if (r + 2 ^ k) * (r + 2 ^ k) ≤ n then r + 2 ^ k else r)

/-- The square root of a rational to 2^−40, downwards; 0 for a negative one. -/
def sqrtR (x : Rat) : Rat := ((isqrtFrom 64 (x * 1208925819614629174706176).floor.toNat 0 : Nat) : Rat) / 1099511627776

/-- Sum of (−1)^k x^(2k + o) ÷ (2k + o)! from a term on, in units of 2^−60. -/
def series : Nat → Int → Int → Int → Int
  | 0, _, _, _ => 0
  | n + 1, term, x2, m => term + series n (-(term * x2 / 1152921504606846976) / ((m + 1) * (m + 2))) x2 (m + 2)

/-- sin and cos of an angle in the first quadrant, given in units of 2^−32 turn, in units of 2^−60. -/
def sinCos60 (a : Nat) : Int × Int :=
  let x : Int := (a : Int) * 7244019458077122842 / 4294967296
  let x2 := x * x / 1152921504606846976
  (series 12 x x2 1, series 12 1152921504606846976 x2 0)

/-- (cos θ, sin θ) in Q2.30 for an angle of 2^32 per turn (Table FE-5). -/
def cosSin (th : Nat) : Vec :=
  let t := th % 4294967296
  let (s, c) := sinCos60 (t % 1073741824)
  let (c', s') : Int × Int := match t / 1073741824 with
    | 0 => (c, s)
    | 1 => (-s, c)
    | 2 => (-c, -s)
    | _ => (s, -c)
  let q (v : Int) : Rat := (quant 30 ((v : Rat) / 1152921504606846976) : Rat) / 1073741824
  (q c', q s')

/-- Rotate forward by an angle. -/
def rot (v : Vec) (th : Nat) : Vec :=
  let (c, s) := cosSin th
  (v.1 * c - v.2 * s, v.1 * s + v.2 * c)
/-- Rotate backward by an angle. -/
def unrot (v : Vec) (th : Nat) : Vec :=
  let (c, s) := cosSin th
  (v.1 * c + v.2 * s, v.2 * c - v.1 * s)

def vadd (a b : Vec) : Vec := (a.1 + b.1, a.2 + b.2)
def vsub (a b : Vec) : Vec := (a.1 - b.1, a.2 - b.2)
def vscale (k : Rat) (a : Vec) : Vec := (k * a.1, k * a.2)
def vconj (a : Vec) : Vec := (a.1, -a.2)
/-- The square of a vector's amplitude. -/
def vsq (a : Vec) : Rat := a.1 * a.1 + a.2 * a.2
def vabs (a : Vec) : Rat := sqrtR (vsq a)

/-- √3. -/
def sqrt3 : Rat := sqrtR 3
/-- 30° electrical, the lead of set 2's axes. -/
def deg30 : Nat := 357913941

/-- The amplitude-invariant Clarke transform. -/
def clarke (a b c : Rat) : Vec := ((2 * a - b - c) / 3, (b - c) / sqrt3)
/-- The inverse Clarke transform. -/
def phases (v : Vec) : List Rat := [v.1, -v.1 / 2 + sqrt3 / 2 * v.2, -v.1 / 2 - sqrt3 / 2 * v.2]

/-- The inputs of one deadbeat law (R108): measured current, reference, voltage in force, gains, flux, resistance, ωT, λ
and κ. -/
structure Law where
  i : Vec
  ir : Vec
  vp : Vec
  gd : Rat
  gq : Rat
  psi : Rat
  rs : Rat
  wT : Rat
  lam : Rat
  kappa : Rat

/-- 1. The current predicted at the update point under vp (R108). -/
def Law.predict (l : Law) : Vec :=
  let ad := (l.vp.1 - l.rs * l.i.1 + l.wT * l.gq * l.i.2) / l.gd
  let aq := (l.vp.2 - l.rs * l.i.2 - l.wT * l.gd * l.i.1 - l.wT * l.psi) / l.gq
  (l.i.1 + l.lam * ad, l.i.2 + l.lam * aq)

/-- The current predicted a further part `d` of the spacing after `i`, under a voltage v: the derivative of R108 at i. -/
def Law.ahead (l : Law) (d : Rat) (i v : Vec) : Vec := { l with i := i, vp := v, lam := d }.predict

/-- 2. The steady part at the mean current, from the predicted one (R108). -/
def Law.steady (l : Law) (ip : Vec) : Vec :=
  let im : Vec := ((ip.1 + l.ir.1) / 2, (ip.2 + l.ir.2) / 2)
  (l.rs * im.1 - l.wT * l.gq * im.2, l.rs * im.2 + l.wT * l.gd * im.1 + l.wT * l.psi)

/-- 3. The dynamic part, from the predicted current (R108). -/
def Law.dynamic (l : Law) (ip : Vec) : Vec :=
  (l.kappa * l.gd * (l.ir.1 - ip.1), l.kappa * l.gq * (l.ir.2 - ip.2))

/-- The voltage limit (R109): the command, and whether VLIM is set. -/
def limitV (vss vdy : Vec) (vlim : Rat) : Vec × Bool :=
  let lim := if vlim < 0 then 0 else vlim
  if vsq (vadd vss vdy) ≤ lim * lim then (vadd vss vdy, false)
  else if lim * lim < vsq vss then (vscale (lim / vabs vss) vss, true)
  else
    let a := vsq vdy
    let b := 2 * (vss.1 * vdy.1 + vss.2 * vdy.2)
    let c := vsq vss - lim * lim
    let s := (sqrtR (b * b - 4 * a * c) - b) / (2 * a)
    (vadd vss (vscale (clampQ 0 1 s) vdy), true)

/-- What one deadbeat law answers: the predicted current at the update point, the prediction of the next sample, the voltage command, whether
VLIM is set, and whether a stage saturated. -/
structure LawOut where
  ip : Vec
  next : Vec
  v : Vec
  hit : Bool
  sat : Bool

/-- The law of R108 with the limit of R109, each stage in Q5.27 (R99, Table FE-5). DEDUCED (log 201): the prediction of the next sample,
which lies 1 − λ of the spacing after the update point, is the law's own step 1 from the predicted current under the new command. -/
def Law.run (l : Law) (vlim : Rat) : LawOut :=
  let (ip, z1) := fxv 27 l.predict
  let (vss, z2) := fxv 27 (l.steady ip)
  let (vdy, z3) := fxv 27 (l.dynamic ip)
  let (v0, hit) := limitV vss vdy vlim
  let (v, z4) := fxv 27 v0
  let (nx, z5) := fxv 27 (l.ahead (1 - l.lam) ip v)
  ⟨ip, nx, v, hit, z1 || z2 || z3 || z4 || z5⟩

/-- The phase voltages after the min-max zero sequence (R110). -/
def zeroSeq (ph : List Rat) : List Rat :=
  let mx := ph.foldl (fun a b => if a < b then b else a) (ph.headD 0)
  let mn := ph.foldl (fun a b => if b < a then b else a) (ph.headD 0)
  ph.map fun x => x - (mx + mn) / 2

/-- The dead-time term of R110: sgn(i) × td ÷ Tc, within ±band i ÷ band in place of the sign. -/
def dtc (i band tdTc : Rat) : Rat :=
  if i < -band then -tdTc else if band < i then tdTc else if band = 0 then 0 else i / band * tdTc

/-- The wrapped difference of two 32-bit angles, as a signed 32-bit value. -/
def angDiff (a b : Nat) : Int := toSigned 32 ((a + 4294967296 - b % 4294967296) % 4294967296)

/-- An angle advanced by a signed amount. -/
def angAdd (a : Nat) (d : Int) : Nat := (((a : Int) + d) % 4294967296).toNat

end Sys2Proof.Machine
end

