-- ==== Sys2Proof/Machine/FMap.lean ====
section
/-!
DEFINITION. Sparse maps from a number to a value, as plain data: a list of (key, value) pairs in one canonical form
(keys strictly rising, no entry equal to what an unlisted key reads as). Registers, memory bytes and the numbered
instances of a unit are held this way.
-/
namespace Sys2Proof.Machine

/-- A sparse map: the listed pairs; a key that is not listed has the default value of the map's user. -/
abbrev FMap (α : Type) := List (Nat × α)

/-- The value at a key; `d k` where the key is not listed. -/
def FMap.get {α : Type} (d : Nat → α) : FMap α → Nat → α
  | [], k => d k
  | (k', v) :: t, k => if k = k' then v else FMap.get d t k

/-- The map without a key, were it listed more than once. -/
def FMap.erase {α : Type} : FMap α → Nat → FMap α
  | [], _ => []
  | (k', v) :: t, k => if k = k' then FMap.erase t k else (k', v) :: FMap.erase t k

/-- The map with a key listed at its place, whatever the value. -/
def FMap.put {α : Type} : FMap α → Nat → α → FMap α
  | [], k, v => [(k, v)]
  | (k', v') :: t, k, v =>
    if k < k' then (k, v) :: (k', v') :: t
    else if k = k' then (k, v) :: t
    else (k', v') :: FMap.put t k v

/-- Store a value at a key. Storing the default removes the entry, so that equal maps are equal lists. -/
def FMap.set {α : Type} [DecidableEq α] (d : Nat → α) (m : FMap α) (k : Nat) (v : α) : FMap α :=
  if v = d k then FMap.erase m k else FMap.put m k v

/-- Change the value at a key by a function. -/
def FMap.upd {α : Type} [DecidableEq α] (d : Nat → α) (m : FMap α) (k : Nat) (f : α → α) : FMap α :=
  FMap.set d m k (f (FMap.get d m k))

/-- The canonical form: keys strictly rising, and no entry that equals what an unlisted key reads as. -/
def FMap.wf {α : Type} [DecidableEq α] (d : Nat → α) : FMap α → Bool
  | [] => true
  | (k, v) :: t => decide (v ≠ d k) && t.all (fun p => decide (k < p.1)) && FMap.wf d t

end Sys2Proof.Machine
end

