-- ==== Sys2Proof/Machine/RegTable.lean ====
section
/-!
DEFINITION. The register maps of the spec as data: for each block its base and instances, for each register its
offset, its strides, its reset value and the access type of every bit (rules R6, R16 to R18, R98, R122, R154,
R155, R182, R234, R259, R288, R313, R342, R343, R368, R388, R389 and the field tables). Bits that are shown as
reserved have access type `rsv`.
-/
namespace Sys2Proof.Machine

/-- The access types of Table SCO-14, and `rsv` for a reserved bit (R17). -/
inductive Access where
  | ro | rw | w1c | w1s | rc | wo | rws | rsv
  deriving DecidableEq, Repr

/-- One field of a register: its bits and its access type. -/
structure FieldDesc where
  hi : Nat
  lo : Nat
  acc : Access
  deriving DecidableEq, Repr

/-- One row of a register map: offset in the block, the (stride, count) of each instance number, reset value
and fields. -/
structure RegDesc where
  name : String
  off : Nat
  dims : List (Nat × Nat)
  reset : Nat
  fields : List FieldDesc
  deriving DecidableEq, Repr

/-- A block of registers: `count` copies of one map, `stride` apart. -/
structure BlockDesc where
  name : String
  base : Nat
  stride : Nat
  count : Nat
  regs : List RegDesc
  deriving DecidableEq, Repr

namespace RegMap

/-- Table SCO-2 (00_scope.md). -/
def regsSYS : List RegDesc :=
[
    ⟨"SYS_ID", 0x0, [], 0x8804B44,
      [⟨31, 0, .ro⟩]⟩,
    ⟨"SYS_REV", 0x4, [], 0x100,
      [⟨31, 16, .rsv⟩, ⟨15, 8, .ro⟩, ⟨7, 0, .ro⟩]⟩,
    ⟨"SYS_CAP0", 0x8, [], 0x0,
      [⟨31, 31, .rsv⟩, ⟨30, 30, .ro⟩, ⟨29, 24, .ro⟩, ⟨23, 16, .ro⟩, ⟨15, 12, .ro⟩, ⟨11, 8, .ro⟩, ⟨7, 0, .ro⟩]⟩,
    ⟨"SYS_CAP1", 0xC, [], 0x0,
      [⟨31, 20, .rsv⟩, ⟨19, 8, .ro⟩, ⟨7, 0, .ro⟩]⟩,
    ⟨"SYS_WERR_CTL", 0x10, [], 0x0,
      [⟨31, 1, .rsv⟩, ⟨0, 0, .rw⟩]⟩,
    ⟨"SYS_WERR_CODE", 0x14, [], 0x0,
      [⟨31, 10, .rsv⟩, ⟨9, 9, .rc⟩, ⟨8, 8, .rc⟩, ⟨7, 0, .ro⟩]⟩,
    ⟨"SYS_WERR_ADDR", 0x18, [], 0x0,
      [⟨31, 0, .ro⟩]⟩,
    ⟨"SYS_WERR_PM", 0x1C, [], 0x0,
      [⟨31, 0, .ro⟩]⟩]

/-- Table PST-11 (03_post_office.md). -/
def regsPST : List RegDesc :=
[
    ⟨"PST_PM", 0x0, [], 0x1,
      [⟨31, 0, .ro⟩]⟩,
    ⟨"PST_EPOCH", 0x4, [], 0x64,
      [⟨31, 10, .rsv⟩, ⟨9, 0, .rws⟩]⟩,
    ⟨"PST_SLEEP", 0x8, [], 0x0,
      [⟨31, 16, .rsv⟩, ⟨15, 8, .w1s⟩, ⟨7, 4, .rsv⟩, ⟨3, 0, .w1s⟩]⟩,
    ⟨"PST_OUTST", 0xC, [], 0x0,
      [⟨31, 9, .rsv⟩, ⟨8, 0, .ro⟩]⟩,
    ⟨"PST_MERR_CTL", 0x10, [], 0x0,
      [⟨31, 1, .rsv⟩, ⟨0, 0, .rw⟩]⟩,
    ⟨"PST_MERR_CODE", 0x14, [], 0x0,
      [⟨31, 10, .rsv⟩, ⟨9, 9, .rc⟩, ⟨8, 8, .rc⟩, ⟨7, 0, .ro⟩]⟩,
    ⟨"PST_MERR_ADDR", 0x18, [], 0x0,
      [⟨31, 0, .ro⟩]⟩,
    ⟨"PST_MERR_PM", 0x1C, [], 0x0,
      [⟨31, 0, .ro⟩]⟩,
    ⟨"PST_DLJ_CNT", 0x20, [], 0x0,
      [⟨31, 0, .ro⟩]⟩,
    ⟨"PST_DLJ_LOST", 0x24, [], 0x0,
      [⟨31, 16, .rsv⟩, ⟨15, 0, .rc⟩]⟩,
    ⟨"PST_USTk", 0x100, [(4, 64)], 0x0,
      [⟨31, 24, .ro⟩, ⟨23, 16, .ro⟩, ⟨15, 8, .ro⟩, ⟨7, 0, .ro⟩]⟩,
    ⟨"PHn_CFG", 0x1000, [(128, 64)], 0x0,
      [⟨31, 24, .rws⟩, ⟨23, 16, .rws⟩, ⟨15, 12, .rws⟩, ⟨11, 10, .rws⟩, ⟨9, 9, .rws⟩, ⟨8, 8, .rws⟩, ⟨7, 0, .rsv⟩]⟩]
    ++ [
    ⟨"PHn_LIM", 0x1004, [(128, 64)], 0x0,
      [⟨31, 16, .rsv⟩, ⟨15, 0, .rws⟩]⟩,
    ⟨"PHn_BASE", 0x1008, [(128, 64)], 0x0,
      [⟨31, 20, .rsv⟩, ⟨19, 0, .ro⟩]⟩,
    ⟨"PHn_HEAD", 0x100C, [(128, 64)], 0x0,
      [⟨31, 13, .rsv⟩, ⟨12, 0, .rw⟩]⟩,
    ⟨"PHn_TAIL", 0x1010, [(128, 64)], 0x0,
      [⟨31, 13, .rsv⟩, ⟨12, 0, .ro⟩]⟩,
    ⟨"PHn_SEQ", 0x1014, [(128, 64)], 0x0,
      [⟨31, 0, .ro⟩]⟩,
    ⟨"PHn_MOD", 0x1018, [(128, 64)], 0x10000,
      [⟨31, 31, .rw⟩, ⟨30, 28, .rsv⟩, ⟨27, 16, .rw⟩, ⟨15, 0, .rw⟩]⟩,
    ⟨"PHn_STAT", 0x101C, [(128, 64)], 0x0,
      [⟨31, 11, .rsv⟩, ⟨10, 10, .ro⟩, ⟨9, 9, .w1c⟩, ⟨8, 8, .w1c⟩, ⟨7, 0, .ro⟩]⟩,
    ⟨"PHn_POSTj", 0x1040, [(128, 64), (4, 16)], 0x0,
      [⟨31, 0, .wo⟩]⟩]

/-- Table FE-13 (04_field_engines.md). -/
def regsFE : List RegDesc :=
[
    ⟨"FEn_STATE", 0x0, [], 0x1,
      [⟨31, 25, .rsv⟩, ⟨24, 24, .ro⟩, ⟨23, 16, .ro⟩, ⟨15, 8, .ro⟩, ⟨7, 0, .ro⟩]⟩,
    ⟨"FEn_LOOPCFG", 0x4, [], 0x0,
      [⟨31, 24, .rws⟩, ⟨23, 16, .rws⟩, ⟨15, 12, .rsv⟩, ⟨11, 11, .rws⟩, ⟨10, 10, .rws⟩, ⟨9, 8, .rsv⟩, ⟨7, 4, .rws⟩, ⟨3, 0, .rws⟩]⟩,
    ⟨"FEn_PERIOD", 0x8, [], 0x0,
      [⟨31, 19, .rsv⟩, ⟨18, 0, .rws⟩]⟩,
    ⟨"FEn_LEAD", 0xC, [], 0x0,
      [⟨31, 16, .rsv⟩, ⟨15, 0, .rws⟩]⟩,
    ⟨"FEn_BASE", 0x10, [], 0x0,
      [⟨31, 16, .rws⟩, ⟨15, 0, .rws⟩]⟩,
    ⟨"FEn_GAINS", 0x14, [], 0x7A3D4000,
      [⟨31, 16, .rw⟩, ⟨15, 0, .rw⟩]⟩,
    ⟨"FEn_OUTKP", 0x18, [], 0x0,
      [⟨31, 0, .rw⟩]⟩,
    ⟨"FEn_OUTKI", 0x1C, [], 0x0,
      [⟨31, 0, .rw⟩]⟩,
    ⟨"FEn_ADAPT", 0x20, [], 0x800800,
      [⟨31, 16, .rw⟩, ⟨15, 12, .rsv⟩, ⟨11, 8, .rw⟩, ⟨7, 1, .rsv⟩, ⟨0, 0, .rw⟩]⟩,
    ⟨"FEn_ADLIM", 0x24, [], 0x18000800,
      [⟨31, 16, .rws⟩, ⟨15, 0, .rws⟩]⟩,
    ⟨"FEn_ADFAC", 0x28, [], 0x10001000,
      [⟨31, 16, .ro⟩, ⟨15, 0, .ro⟩]⟩,
    ⟨"FEn_PHASE", 0x2C, [], 0x0,
      [⟨31, 24, .rsv⟩, ⟨23, 0, .rws⟩]⟩]
    ++ [
    ⟨"FEn_HCFGk", 0x30, [(8, 4)], 0x0,
      [⟨31, 16, .rw⟩, ⟨15, 8, .rw⟩, ⟨7, 4, .rsv⟩, ⟨3, 3, .rw⟩, ⟨2, 1, .rw⟩, ⟨0, 0, .rw⟩]⟩,
    ⟨"FEn_HAMPk", 0x34, [(8, 4)], 0x0,
      [⟨31, 16, .rw⟩, ⟨15, 0, .rw⟩]⟩,
    ⟨"FEn_HCAP", 0x50, [], 0xCCD,
      [⟨31, 16, .rsv⟩, ⟨15, 0, .rw⟩]⟩,
    ⟨"FEn_EVT", 0x60, [], 0x0,
      [⟨31, 14, .rsv⟩, ⟨13, 13, .w1c⟩, ⟨12, 12, .w1c⟩, ⟨11, 11, .w1c⟩, ⟨10, 10, .w1c⟩, ⟨9, 9, .w1c⟩, ⟨8, 8, .w1c⟩, ⟨7, 6, .rsv⟩, ⟨5, 5, .w1c⟩, ⟨4, 4, .w1c⟩, ⟨3, 3, .w1c⟩, ⟨2, 2, .w1c⟩, ⟨1, 1, .w1c⟩, ⟨0, 0, .w1c⟩]⟩,
    ⟨"FEn_EVTEN", 0x64, [], 0x0,
      [⟨31, 14, .rsv⟩, ⟨13, 13, .rw⟩, ⟨12, 12, .rw⟩, ⟨11, 11, .rw⟩, ⟨10, 10, .rw⟩, ⟨9, 9, .rw⟩, ⟨8, 8, .rw⟩, ⟨7, 6, .rsv⟩, ⟨5, 5, .rw⟩, ⟨4, 4, .rw⟩, ⟨3, 3, .rw⟩, ⟨2, 2, .rw⟩, ⟨1, 1, .rw⟩, ⟨0, 0, .rw⟩]⟩,
    ⟨"FEn_ERRCNT", 0x68, [], 0x0,
      [⟨31, 16, .ro⟩, ⟨15, 8, .ro⟩, ⟨7, 0, .ro⟩]⟩,
    ⟨"FEn_WDCNT", 0x6C, [], 0x0,
      [⟨31, 0, .ro⟩]⟩,
    ⟨"FEn_MON_I", 0x80, [], 0x0,
      [⟨31, 16, .ro⟩, ⟨15, 0, .ro⟩]⟩,
    ⟨"FEn_MON_IREF", 0x84, [], 0x0,
      [⟨31, 16, .ro⟩, ⟨15, 0, .ro⟩]⟩,
    ⟨"FEn_MON_V", 0x88, [], 0x0,
      [⟨31, 16, .ro⟩, ⟨15, 0, .ro⟩]⟩,
    ⟨"FEn_MON_ANG", 0x8C, [], 0x0,
      [⟨31, 0, .ro⟩]⟩,
    ⟨"FEn_MON_SPD", 0x90, [], 0x0,
      [⟨31, 0, .ro⟩]⟩]
    ++ [
    ⟨"FEn_MON_PRE", 0x94, [], 0x0,
      [⟨31, 0, .ro⟩]⟩,
    ⟨"FEn_TMPLj", 0xA0, [(4, 3)], 0x0,
      [⟨31, 0, .rws⟩]⟩]

/-- Table MOD-17 (05_legs_and_modulation.md). -/
def regsMOD : List RegDesc :=
[
    ⟨"MOD_STAT", 0x0, [], 0x0,
      [⟨31, 31, .ro⟩, ⟨30, 24, .rsv⟩, ⟨23, 16, .ro⟩, ⟨15, 6, .rsv⟩, ⟨5, 0, .ro⟩]⟩,
    ⟨"MOD_EVT", 0x4, [], 0x0,
      [⟨31, 10, .rsv⟩, ⟨9, 9, .w1c⟩, ⟨8, 8, .w1c⟩, ⟨7, 7, .w1c⟩, ⟨6, 6, .w1c⟩, ⟨5, 5, .w1c⟩, ⟨4, 4, .w1c⟩, ⟨3, 3, .w1c⟩, ⟨2, 2, .w1c⟩, ⟨1, 1, .w1c⟩, ⟨0, 0, .w1c⟩]⟩,
    ⟨"MOD_EVTEN", 0x8, [], 0x0,
      [⟨31, 10, .rsv⟩, ⟨9, 9, .rw⟩, ⟨8, 8, .rw⟩, ⟨7, 7, .rw⟩, ⟨6, 6, .rw⟩, ⟨5, 5, .rw⟩, ⟨4, 4, .rw⟩, ⟨3, 3, .rw⟩, ⟨2, 2, .rw⟩, ⟨1, 1, .rw⟩, ⟨0, 0, .rw⟩]⟩,
    ⟨"MOD_SOFT", 0x10, [], 0x7D0,
      [⟨31, 16, .rsv⟩, ⟨15, 0, .rws⟩]⟩,
    ⟨"MOD_IDT", 0x14, [], 0x32,
      [⟨31, 8, .rsv⟩, ⟨7, 0, .rws⟩]⟩,
    ⟨"MOD_DCL", 0x18, [], 0x0,
      [⟨31, 30, .rws⟩, ⟨29, 28, .rws⟩, ⟨27, 26, .rws⟩, ⟨25, 24, .rws⟩, ⟨23, 22, .rws⟩, ⟨21, 20, .rws⟩, ⟨19, 18, .rws⟩, ⟨17, 16, .rws⟩, ⟨15, 14, .rws⟩, ⟨13, 12, .rws⟩, ⟨11, 10, .rws⟩, ⟨9, 8, .rws⟩, ⟨7, 6, .rws⟩, ⟨5, 4, .rws⟩, ⟨3, 2, .rws⟩, ⟨1, 0, .rws⟩]⟩,
    ⟨"MOD_TBAND0", 0x20, [], 0x324B0B4,
      [⟨31, 30, .rsv⟩, ⟨29, 20, .rws⟩, ⟨19, 10, .rws⟩, ⟨9, 0, .rws⟩]⟩,
    ⟨"MOD_TBAND1", 0x24, [], 0x323E896,
      [⟨31, 30, .rsv⟩, ⟨29, 20, .rws⟩, ⟨19, 10, .rws⟩, ⟨9, 0, .rws⟩]⟩,
    ⟨"MOD_TBAND2", 0x28, [], 0x323E8A0,
      [⟨31, 30, .rsv⟩, ⟨29, 20, .rws⟩, ⟨19, 10, .rws⟩, ⟨9, 0, .rws⟩]⟩,
    ⟨"MOD_TBAND3", 0x2C, [], 0x50578C8,
      [⟨31, 30, .rsv⟩, ⟨29, 20, .rws⟩, ⟨19, 10, .rws⟩, ⟨9, 0, .rws⟩]⟩,
    ⟨"MOD_TDRV0", 0x30, [], 0xA0C,
      [⟨31, 16, .rsv⟩, ⟨15, 8, .rws⟩, ⟨7, 0, .rws⟩]⟩,
    ⟨"MOD_TDRV1", 0x34, [], 0xC0C,
      [⟨31, 16, .rsv⟩, ⟨15, 8, .rws⟩, ⟨7, 0, .rws⟩]⟩]
    ++ [
    ⟨"MOD_TDRV2", 0x38, [], 0xC0A,
      [⟨31, 16, .rsv⟩, ⟨15, 8, .rws⟩, ⟨7, 0, .rws⟩]⟩,
    ⟨"MOD_TDRV3", 0x3C, [], 0x808,
      [⟨31, 16, .rsv⟩, ⟨15, 8, .rws⟩, ⟨7, 0, .rws⟩]⟩,
    ⟨"MOD_PPROF", 0x40, [], 0x323E896,
      [⟨31, 30, .rsv⟩, ⟨29, 20, .rws⟩, ⟨19, 10, .rws⟩, ⟨9, 0, .rws⟩]⟩,
    ⟨"MOD_PDRV", 0x44, [], 0xC0C,
      [⟨31, 16, .rsv⟩, ⟨15, 8, .rws⟩, ⟨7, 0, .rws⟩]⟩,
    ⟨"MOD_LCFGn", 0x100, [(4, 48)], 0x0,
      [⟨31, 28, .rws⟩, ⟨27, 24, .rws⟩, ⟨23, 23, .rws⟩, ⟨22, 19, .rsv⟩, ⟨18, 16, .rws⟩, ⟨15, 12, .rsv⟩, ⟨11, 8, .rws⟩, ⟨7, 4, .rsv⟩, ⟨3, 0, .rws⟩]⟩,
    ⟨"MOD_LSTATn", 0x200, [(4, 48)], 0x0,
      [⟨31, 30, .ro⟩, ⟨29, 29, .ro⟩, ⟨28, 28, .ro⟩, ⟨27, 26, .ro⟩, ⟨25, 25, .ro⟩, ⟨24, 24, .ro⟩, ⟨23, 20, .rsv⟩, ⟨19, 16, .ro⟩, ⟨15, 10, .rsv⟩, ⟨9, 0, .ro⟩]⟩,
    ⟨"MOD_DIDTn", 0x300, [(4, 48)], 0x0,
      [⟨31, 16, .rsv⟩, ⟨15, 8, .rws⟩, ⟨7, 0, .rws⟩]⟩,
    ⟨"MOD_LCNTn", 0x400, [(4, 48)], 0x0,
      [⟨31, 16, .ro⟩, ⟨15, 8, .ro⟩, ⟨7, 0, .ro⟩]⟩,
    ⟨"MOD_LTRIPn", 0x500, [(4, 48)], 0x0,
      [⟨31, 0, .ro⟩]⟩]

/-- Table MOD-28 (05_legs_and_modulation.md). -/
def regsGLK : List RegDesc :=
[
    ⟨"GLK_EVT", 0x0, [], 0x0,
      [⟨31, 16, .rsv⟩, ⟨15, 8, .w1c⟩, ⟨7, 0, .w1c⟩]⟩,
    ⟨"GLK_EVTEN", 0x4, [], 0x0,
      [⟨31, 16, .rsv⟩, ⟨15, 8, .rw⟩, ⟨7, 0, .rw⟩]⟩,
    ⟨"GLKk_STAT", 0x100, [(64, 8)], 0x0,
      [⟨31, 22, .rsv⟩, ⟨21, 16, .ro⟩, ⟨15, 14, .rsv⟩, ⟨13, 8, .ro⟩, ⟨7, 4, .rsv⟩, ⟨3, 0, .ro⟩]⟩,
    ⟨"GLKk_ERR", 0x104, [(64, 8)], 0x0,
      [⟨31, 16, .ro⟩, ⟨15, 0, .ro⟩]⟩,
    ⟨"GLKk_DRVj", 0x110, [(64, 8), (4, 6)], 0xFF0000FF,
      [⟨31, 24, .ro⟩, ⟨23, 16, .ro⟩, ⟨15, 8, .rsv⟩, ⟨7, 0, .ro⟩]⟩]

/-- Table SEN-13 (06_sensing.md). -/
def regsFCV : List RegDesc :=
[
    ⟨"FCV_OVR", 0x0, [], 0x0,
      [⟨31, 0, .w1c⟩]⟩,
    ⟨"FCV_OVREN", 0x4, [], 0x0,
      [⟨31, 0, .rw⟩]⟩,
    ⟨"FCV_CHn_FS", 0x100, [(4, 32)], 0x0,
      [⟨31, 0, .rws⟩]⟩,
    ⟨"FCV_CHn_CORR", 0x200, [(4, 32)], 0x40000000,
      [⟨31, 16, .rw⟩, ⟨15, 0, .rw⟩]⟩,
    ⟨"FCV_CHn_LAST", 0x300, [(4, 32)], 0x0,
      [⟨31, 16, .ro⟩, ⟨15, 0, .ro⟩]⟩]

/-- Table SEN-15 (06_sensing.md). -/
def regsRND : List RegDesc :=
[
    ⟨"RNDr_STATE", 0x0, [], 0x1,
      [⟨31, 19, .rsv⟩, ⟨18, 16, .ro⟩, ⟨15, 14, .rsv⟩, ⟨13, 8, .ro⟩, ⟨7, 0, .ro⟩]⟩,
    ⟨"RNDr_EVT", 0x4, [], 0x0,
      [⟨31, 6, .rsv⟩, ⟨5, 5, .w1c⟩, ⟨4, 4, .w1c⟩, ⟨3, 3, .w1c⟩, ⟨2, 2, .w1c⟩, ⟨1, 1, .w1c⟩, ⟨0, 0, .w1c⟩]⟩,
    ⟨"RNDr_EVTEN", 0x8, [], 0x0,
      [⟨31, 6, .rsv⟩, ⟨5, 5, .rw⟩, ⟨4, 4, .rw⟩, ⟨3, 3, .rw⟩, ⟨2, 2, .rw⟩, ⟨1, 1, .rw⟩, ⟨0, 0, .rw⟩]⟩,
    ⟨"RNDr_URG", 0xC, [], 0x0,
      [⟨31, 18, .rsv⟩, ⟨17, 14, .wo⟩, ⟨13, 6, .wo⟩, ⟨5, 0, .wo⟩]⟩,
    ⟨"RNDr_URGRES", 0x10, [], 0x0,
      [⟨31, 31, .rc⟩, ⟨30, 24, .rsv⟩, ⟨23, 0, .ro⟩]⟩,
    ⟨"RNDr_RQCTL", 0x14, [], 0x1,
      [⟨31, 7, .rsv⟩, ⟨6, 0, .rw⟩]⟩,
    ⟨"RNDr_RQSTAT", 0x18, [], 0x0,
      [⟨31, 16, .ro⟩, ⟨15, 7, .rsv⟩, ⟨6, 0, .ro⟩]⟩,
    ⟨"RNDr_RQLO", 0x1C, [], 0x0,
      [⟨31, 0, .ro⟩]⟩,
    ⟨"RNDr_RQHI", 0x20, [], 0x0,
      [⟨31, 0, .rc⟩]⟩,
    ⟨"RNDr_STALE", 0x24, [], 0x0,
      [⟨31, 16, .ro⟩, ⟨15, 6, .rsv⟩, ⟨5, 0, .ro⟩]⟩,
    ⟨"RNDr_CORRk", 0x40, [(4, 16)], 0x40000000,
      [⟨31, 16, .rw⟩, ⟨15, 0, .rw⟩]⟩,
    ⟨"RNDr_SEQe", 0x100, [(4, 64)], 0x0,
      [⟨31, 31, .rws⟩, ⟨30, 30, .rws⟩, ⟨29, 22, .rws⟩, ⟨21, 18, .rws⟩, ⟨17, 13, .rws⟩, ⟨12, 6, .rsv⟩, ⟨5, 0, .rws⟩]⟩]
    ++ [
    ⟨"RNDr_LIMe", 0x200, [(4, 64)], 0x0,
      [⟨31, 0, .rws⟩]⟩,
    ⟨"RNDr_LASTc", 0x300, [(4, 48)], 0x0,
      [⟨31, 24, .rsv⟩, ⟨23, 23, .ro⟩, ⟨22, 22, .ro⟩, ⟨21, 16, .ro⟩, ⟨15, 0, .ro⟩]⟩]

/-- Table SEN-17 (06_sensing.md). -/
def regsPOS : List RegDesc :=
[
    ⟨"POS_STATE", 0x0, [], 0x1,
      [⟨31, 12, .rsv⟩, ⟨11, 8, .ro⟩, ⟨7, 0, .ro⟩]⟩,
    ⟨"POS_EVT", 0x4, [], 0x0,
      [⟨31, 8, .rsv⟩, ⟨7, 4, .w1c⟩, ⟨3, 0, .w1c⟩]⟩,
    ⟨"POS_EVTEN", 0x8, [], 0x0,
      [⟨31, 8, .rsv⟩, ⟨7, 4, .rw⟩, ⟨3, 0, .rw⟩]⟩,
    ⟨"POSk_CFG", 0x10, [(32, 4)], 0x0,
      [⟨31, 31, .rws⟩, ⟨30, 22, .rsv⟩, ⟨21, 20, .rws⟩, ⟨19, 16, .rws⟩, ⟨15, 0, .rws⟩]⟩,
    ⟨"POSk_NOM", 0x14, [(32, 4)], 0x0,
      [⟨31, 12, .rsv⟩, ⟨11, 0, .rws⟩]⟩,
    ⟨"POSk_OFS", 0x18, [(32, 4)], 0x0,
      [⟨31, 0, .rw⟩]⟩,
    ⟨"POSk_ANG", 0x1C, [(32, 4)], 0x0,
      [⟨31, 0, .ro⟩]⟩,
    ⟨"POSk_SPD", 0x20, [(32, 4)], 0x0,
      [⟨31, 0, .ro⟩]⟩,
    ⟨"POSk_STAT", 0x24, [(32, 4)], 0x0,
      [⟨31, 24, .rsv⟩, ⟨23, 16, .ro⟩, ⟨15, 8, .ro⟩, ⟨7, 2, .rsv⟩, ⟨1, 1, .ro⟩, ⟨0, 0, .ro⟩]⟩,
    ⟨"POSk_FLT", 0x28, [(32, 4)], 0x0,
      [⟨31, 8, .rsv⟩, ⟨7, 0, .w1c⟩]⟩]

/-- Table SEN-19 (06_sensing.md). -/
def regsSENT : List RegDesc :=
[
    ⟨"SENT_STATE", 0x0, [], 0x1,
      [⟨31, 12, .rsv⟩, ⟨11, 8, .ro⟩, ⟨7, 0, .ro⟩]⟩,
    ⟨"SENT_EVT", 0x4, [], 0x0,
      [⟨31, 16, .rsv⟩, ⟨15, 12, .w1c⟩, ⟨11, 8, .w1c⟩, ⟨7, 4, .w1c⟩, ⟨3, 0, .w1c⟩]⟩,
    ⟨"SENT_EVTEN", 0x8, [], 0x0,
      [⟨31, 16, .rsv⟩, ⟨15, 12, .rw⟩, ⟨11, 8, .rw⟩, ⟨7, 4, .rw⟩, ⟨3, 0, .rw⟩]⟩,
    ⟨"SENTi_CFG", 0x10, [(32, 4)], 0x0,
      [⟨31, 24, .rsv⟩, ⟨23, 16, .rws⟩, ⟨15, 8, .rws⟩, ⟨7, 0, .rws⟩]⟩,
    ⟨"SENTi_FAST", 0x14, [(32, 4)], 0x0,
      [⟨31, 28, .ro⟩, ⟨27, 24, .rsv⟩, ⟨23, 0, .ro⟩]⟩,
    ⟨"SENTi_SLOW", 0x18, [(32, 4)], 0x0,
      [⟨31, 30, .ro⟩, ⟨29, 24, .rsv⟩, ⟨23, 16, .ro⟩, ⟨15, 0, .ro⟩]⟩,
    ⟨"SENTi_ERR", 0x1C, [(32, 4)], 0x0,
      [⟨31, 16, .ro⟩, ⟨15, 8, .ro⟩, ⟨7, 6, .rsv⟩, ⟨5, 0, .ro⟩]⟩,
    ⟨"SENTi_TIME", 0x20, [(32, 4)], 0x0,
      [⟨31, 0, .ro⟩]⟩]

/-- Table CHG-13 (08_charging.md). -/
def regsCHG : List RegDesc :=
[
    ⟨"CHG_STATE", 0x0, [], 0x1,
      [⟨31, 20, .rsv⟩, ⟨19, 18, .ro⟩, ⟨17, 16, .ro⟩, ⟨15, 8, .ro⟩, ⟨7, 0, .ro⟩]⟩,
    ⟨"CHG_PILOT", 0x4, [], 0x0,
      [⟨31, 29, .ro⟩, ⟨28, 26, .rsv⟩, ⟨25, 16, .ro⟩, ⟨15, 8, .ro⟩, ⟨7, 5, .rsv⟩, ⟨4, 4, .ro⟩, ⟨3, 0, .ro⟩]⟩,
    ⟨"CHG_ILIM", 0x8, [], 0x0,
      [⟨31, 24, .rsv⟩, ⟨23, 20, .ro⟩, ⟨19, 18, .ro⟩, ⟨17, 16, .rsv⟩, ⟨15, 0, .ro⟩]⟩,
    ⟨"CHG_FLT", 0xC, [], 0x0,
      [⟨31, 16, .rsv⟩, ⟨15, 0, .rc⟩]⟩,
    ⟨"CHG_EVT", 0x10, [], 0x0,
      [⟨31, 5, .rsv⟩, ⟨4, 4, .w1c⟩, ⟨3, 3, .w1c⟩, ⟨2, 2, .w1c⟩, ⟨1, 1, .w1c⟩, ⟨0, 0, .w1c⟩]⟩,
    ⟨"CHG_EVTEN", 0x14, [], 0x0,
      [⟨31, 5, .rsv⟩, ⟨4, 4, .rw⟩, ⟨3, 3, .rw⟩, ⟨2, 2, .rw⟩, ⟨1, 1, .rw⟩, ⟨0, 0, .rw⟩]⟩,
    ⟨"CHG_TIME", 0x18, [], 0x0,
      [⟨31, 16, .ro⟩, ⟨15, 0, .ro⟩]⟩,
    ⟨"CHG_CFG", 0x1C, [], 0xFFFFFF,
      [⟨31, 26, .rsv⟩, ⟨25, 25, .rws⟩, ⟨24, 24, .rws⟩, ⟨23, 16, .rws⟩, ⟨15, 8, .rws⟩, ⟨7, 0, .rws⟩]⟩]

/-- Table LV-13 (09_low_voltage_supplies.md). -/
def regsREG : List RegDesc :=
[
    ⟨"REG_STATE", 0x0, [], 0x1,
      [⟨31, 24, .ro⟩, ⟨23, 16, .ro⟩, ⟨15, 12, .rsv⟩, ⟨11, 8, .ro⟩, ⟨7, 0, .ro⟩]⟩,
    ⟨"REG_EVT", 0x4, [], 0x0,
      [⟨31, 7, .rsv⟩, ⟨6, 6, .w1c⟩, ⟨5, 5, .w1c⟩, ⟨4, 4, .w1c⟩, ⟨3, 3, .w1c⟩, ⟨2, 2, .w1c⟩, ⟨1, 1, .w1c⟩, ⟨0, 0, .w1c⟩]⟩,
    ⟨"REG_EVTEN", 0x8, [], 0x0,
      [⟨31, 7, .rsv⟩, ⟨6, 6, .rw⟩, ⟨5, 5, .rw⟩, ⟨4, 4, .rw⟩, ⟨3, 3, .rw⟩, ⟨2, 2, .rw⟩, ⟨1, 1, .rw⟩, ⟨0, 0, .rw⟩]⟩,
    ⟨"REG_FLT", 0xC, [], 0x0,
      [⟨31, 6, .rsv⟩, ⟨5, 0, .rc⟩]⟩,
    ⟨"REG_TARGET", 0x10, [], 0x0,
      [⟨31, 16, .ro⟩, ⟨15, 0, .ro⟩]⟩,
    ⟨"REG_SHED", 0x14, [], 0x0,
      [⟨31, 12, .rsv⟩, ⟨11, 8, .ro⟩, ⟨7, 1, .rsv⟩, ⟨0, 0, .ro⟩]⟩,
    ⟨"REG_OUT", 0x18, [], 0x0,
      [⟨31, 16, .ro⟩, ⟨15, 0, .ro⟩]⟩,
    ⟨"REG_LIM", 0x1C, [], 0x0,
      [⟨31, 18, .rsv⟩, ⟨17, 16, .ro⟩, ⟨15, 0, .ro⟩]⟩,
    ⟨"REG_VIN", 0x20, [], 0x0,
      [⟨31, 16, .rsv⟩, ⟨15, 0, .ro⟩]⟩,
    ⟨"REG_PHn", 0x40, [(4, 8)], 0x0,
      [⟨31, 20, .ro⟩, ⟨19, 17, .rsv⟩, ⟨16, 16, .ro⟩, ⟨15, 0, .ro⟩]⟩,
    ⟨"REG_CFG", 0x80, [], 0x0,
      [⟨31, 26, .rsv⟩, ⟨25, 16, .rws⟩, ⟨15, 8, .rws⟩, ⟨7, 0, .rws⟩]⟩,
    ⟨"REG_SS", 0x84, [], 0x140107D0,
      [⟨31, 24, .rws⟩, ⟨23, 16, .rws⟩, ⟨15, 0, .rws⟩]⟩]
    ++ [
    ⟨"REG_PROT", 0x88, [], 0x3E800E10,
      [⟨31, 16, .rws⟩, ⟨15, 0, .rws⟩]⟩,
    ⟨"REG_ILIM", 0x8C, [], 0xC80258,
      [⟨31, 16, .rws⟩, ⟨15, 0, .rws⟩]⟩,
    ⟨"REG_SHEDCFG", 0x90, [], 0xF280A0A,
      [⟨31, 24, .rws⟩, ⟨23, 16, .rws⟩, ⟨15, 8, .rws⟩, ⟨7, 0, .rws⟩]⟩,
    ⟨"REG_SENSE", 0x94, [], 0x271004B0,
      [⟨31, 16, .rws⟩, ⟨15, 0, .rws⟩]⟩,
    ⟨"REG_RIPPLE", 0x98, [], 0x3E80064,
      [⟨31, 16, .rws⟩, ⟨15, 0, .rws⟩]⟩]

/-- Table ACT-11 (10_gearbox_actuators.md). -/
def regsACT : List RegDesc :=
[
    ⟨"ACT_STAT", 0x0, [], 0x0,
      [⟨31, 31, .ro⟩, ⟨30, 12, .rsv⟩, ⟨11, 0, .ro⟩]⟩,
    ⟨"ACT_EVT", 0x4, [], 0x0,
      [⟨31, 4, .rsv⟩, ⟨3, 3, .w1c⟩, ⟨2, 2, .w1c⟩, ⟨1, 1, .w1c⟩, ⟨0, 0, .w1c⟩]⟩,
    ⟨"ACT_EVTEN", 0x8, [], 0x0,
      [⟨31, 4, .rsv⟩, ⟨3, 3, .rw⟩, ⟨2, 2, .rw⟩, ⟨1, 1, .rw⟩, ⟨0, 0, .rw⟩]⟩,
    ⟨"ACT_VACT", 0xC, [], 0x0,
      [⟨31, 16, .rsv⟩, ⟨15, 0, .ro⟩]⟩,
    ⟨"ACk_STATE", 0x100, [(64, 4)], 0x1,
      [⟨31, 24, .rsv⟩, ⟨23, 20, .ro⟩, ⟨19, 16, .ro⟩, ⟨15, 8, .ro⟩, ⟨7, 0, .ro⟩]⟩,
    ⟨"ACk_CFG", 0x104, [(64, 4)], 0x0,
      [⟨31, 16, .rws⟩, ⟨15, 8, .rws⟩, ⟨7, 7, .rws⟩, ⟨6, 5, .rsv⟩, ⟨4, 0, .rws⟩]⟩,
    ⟨"ACk_RATED", 0x108, [(64, 4)], 0x0,
      [⟨31, 16, .rsv⟩, ⟨15, 0, .rws⟩]⟩,
    ⟨"ACk_SPD", 0x10C, [(64, 4)], 0x0,
      [⟨31, 16, .ro⟩, ⟨15, 0, .ro⟩]⟩,
    ⟨"ACk_I", 0x110, [(64, 4)], 0x0,
      [⟨31, 16, .ro⟩, ⟨15, 0, .ro⟩]⟩,
    ⟨"ACk_EVT", 0x114, [(64, 4)], 0x0,
      [⟨31, 7, .rsv⟩, ⟨6, 6, .w1c⟩, ⟨5, 5, .w1c⟩, ⟨4, 4, .w1c⟩, ⟨3, 3, .w1c⟩, ⟨2, 2, .w1c⟩, ⟨1, 1, .w1c⟩, ⟨0, 0, .w1c⟩]⟩,
    ⟨"ACk_EVTEN", 0x118, [(64, 4)], 0x0,
      [⟨31, 7, .rsv⟩, ⟨6, 6, .rw⟩, ⟨5, 5, .rw⟩, ⟨4, 4, .rw⟩, ⟨3, 3, .rw⟩, ⟨2, 2, .rw⟩, ⟨1, 1, .rw⟩, ⟨0, 0, .rw⟩]⟩,
    ⟨"ACk_FLT", 0x11C, [(64, 4)], 0x0,
      [⟨31, 8, .rsv⟩, ⟨7, 0, .rc⟩]⟩]
    ++ [
    ⟨"ACk_LATCH", 0x120, [(64, 4)], 0x0,
      [⟨31, 12, .rsv⟩, ⟨11, 8, .ro⟩, ⟨7, 4, .ro⟩, ⟨3, 0, .ro⟩]⟩,
    ⟨"ACk_LEAKL", 0x124, [(64, 4)], 0x0,
      [⟨31, 24, .rsv⟩, ⟨23, 16, .ro⟩, ⟨15, 8, .ro⟩, ⟨7, 0, .ro⟩]⟩,
    ⟨"ACk_LEAKH", 0x128, [(64, 4)], 0x0,
      [⟨31, 24, .rsv⟩, ⟨23, 16, .ro⟩, ⟨15, 8, .ro⟩, ⟨7, 0, .ro⟩]⟩,
    ⟨"ACk_BOOT", 0x12C, [(64, 4)], 0x0,
      [⟨31, 0, .ro⟩]⟩]

/-- Table GBX-8 (10_gearbox_actuators.md). -/
def regsGBX : List RegDesc :=
[
    ⟨"GBX_STATE", 0x0, [], 0x1,
      [⟨31, 28, .rsv⟩, ⟨27, 24, .ro⟩, ⟨23, 20, .ro⟩, ⟨19, 16, .ro⟩, ⟨15, 12, .ro⟩, ⟨11, 8, .ro⟩, ⟨7, 0, .ro⟩]⟩,
    ⟨"GBX_EVT", 0x4, [], 0x0,
      [⟨31, 4, .rsv⟩, ⟨3, 3, .w1c⟩, ⟨2, 2, .w1c⟩, ⟨1, 1, .w1c⟩, ⟨0, 0, .w1c⟩]⟩,
    ⟨"GBX_EVTEN", 0x8, [], 0x0,
      [⟨31, 4, .rsv⟩, ⟨3, 3, .rw⟩, ⟨2, 2, .rw⟩, ⟨1, 1, .rw⟩, ⟨0, 0, .rw⟩]⟩,
    ⟨"GBX_FLT", 0xC, [], 0x0,
      [⟨31, 4, .rsv⟩, ⟨3, 0, .rc⟩]⟩,
    ⟨"GBX_POS0", 0x10, [], 0x0,
      [⟨31, 28, .rsv⟩, ⟨27, 16, .ro⟩, ⟨15, 12, .rsv⟩, ⟨11, 0, .ro⟩]⟩,
    ⟨"GBX_POS1", 0x14, [], 0x0,
      [⟨31, 12, .rsv⟩, ⟨11, 0, .ro⟩]⟩,
    ⟨"GBX_OUTSPD", 0x18, [], 0x0,
      [⟨31, 0, .ro⟩]⟩,
    ⟨"GBX_TS", 0x1C, [], 0x0,
      [⟨31, 16, .ro⟩, ⟨15, 0, .ro⟩]⟩,
    ⟨"GBX_CFG", 0x20, [], 0xFFFF00,
      [⟨31, 31, .rsv⟩, ⟨30, 28, .rws⟩, ⟨27, 26, .rsv⟩, ⟨25, 24, .rws⟩, ⟨23, 16, .rws⟩, ⟨15, 8, .rws⟩, ⟨7, 0, .rsv⟩]⟩,
    ⟨"GBX_SENT", 0x24, [], 0xFFFFFF,
      [⟨31, 24, .rsv⟩, ⟨23, 16, .rws⟩, ⟨15, 8, .rws⟩, ⟨7, 0, .rws⟩]⟩]

/-- Table LDG-8 (11_energy_ledger.md). -/
def regsLDG : List RegDesc :=
[
    ⟨"LDG_STATE", 0x0, [], 0x1,
      [⟨31, 10, .rsv⟩, ⟨9, 9, .ro⟩, ⟨8, 8, .ro⟩, ⟨7, 0, .ro⟩]⟩,
    ⟨"LDG_EVT", 0x4, [], 0x0,
      [⟨31, 7, .rsv⟩, ⟨6, 6, .w1c⟩, ⟨5, 5, .w1c⟩, ⟨4, 4, .w1c⟩, ⟨3, 3, .w1c⟩, ⟨2, 2, .w1c⟩, ⟨1, 1, .w1c⟩, ⟨0, 0, .w1c⟩]⟩,
    ⟨"LDG_EVTEN", 0x8, [], 0x0,
      [⟨31, 7, .rsv⟩, ⟨6, 6, .rw⟩, ⟨5, 5, .rw⟩, ⟨4, 4, .rw⟩, ⟨3, 3, .rw⟩, ⟨2, 2, .rw⟩, ⟨1, 1, .rw⟩, ⟨0, 0, .rw⟩]⟩,
    ⟨"LDG_IMB", 0xC, [], 0x0,
      [⟨31, 4, .rsv⟩, ⟨3, 0, .w1c⟩]⟩,
    ⟨"LDG_ROUND", 0x10, [], 0x0,
      [⟨31, 8, .ro⟩, ⟨7, 0, .ro⟩]⟩,
    ⟨"LDG_WQLO", 0x14, [], 0x0,
      [⟨31, 0, .ro⟩]⟩,
    ⟨"LDG_WQHI", 0x18, [], 0x0,
      [⟨31, 0, .rc⟩]⟩,
    ⟨"LDG_WQSTAT", 0x1C, [], 0x0,
      [⟨31, 16, .ro⟩, ⟨15, 6, .rsv⟩, ⟨5, 0, .ro⟩]⟩,
    ⟨"LDG_KABLO", 0x20, [], 0x0,
      [⟨31, 0, .ro⟩]⟩,
    ⟨"LDG_KABHI", 0x24, [], 0x0,
      [⟨31, 0, .ro⟩]⟩,
    ⟨"LDG_KASKIP", 0x28, [], 0x0,
      [⟨31, 0, .ro⟩]⟩,
    ⟨"LDG_KAWAKE", 0x2C, [], 0x0,
      [⟨31, 16, .ro⟩, ⟨15, 0, .ro⟩]⟩]
    ++ [
    ⟨"LDG_NRESk", 0x40, [(4, 4)], 0x0,
      [⟨31, 0, .ro⟩]⟩,
    ⟨"LDG_PNf", 0x80, [(4, 16)], 0x0,
      [⟨31, 0, .ro⟩]⟩,
    ⟨"LDG_EDf", 0xC0, [(8, 16)], 0x0,
      [⟨31, 0, .ro⟩]⟩,
    ⟨"LDG_ERf", 0xC4, [(8, 16)], 0x0,
      [⟨31, 0, .ro⟩]⟩,
    ⟨"LDG_Pp_CFG", 0x200, [(32, 12)], 0x0,
      [⟨31, 24, .rsv⟩, ⟨23, 16, .rws⟩, ⟨15, 8, .rws⟩, ⟨7, 4, .rws⟩, ⟨3, 0, .rws⟩]⟩,
    ⟨"LDG_Pp_PWR", 0x204, [(32, 12)], 0x0,
      [⟨31, 0, .ro⟩]⟩,
    ⟨"LDG_Pp_ELO", 0x208, [(32, 12)], 0x0,
      [⟨31, 0, .ro⟩]⟩,
    ⟨"LDG_Pp_EHI", 0x20C, [(32, 12)], 0x0,
      [⟨31, 0, .ro⟩]⟩,
    ⟨"LDG_Pp_MAXD", 0x210, [(32, 12)], 0x0,
      [⟨31, 0, .rws⟩]⟩,
    ⟨"LDG_Pp_MAXR", 0x214, [(32, 12)], 0x0,
      [⟨31, 0, .rws⟩]⟩,
    ⟨"LDG_Pp_IMBW", 0x218, [(32, 12)], 0x0,
      [⟨31, 0, .rws⟩]⟩,
    ⟨"LDG_Pp_IMBT", 0x21C, [(32, 12)], 0x0,
      [⟨31, 0, .rws⟩]⟩]

/-- Table LSS-6 (12_lockstep_and_safe_state.md). -/
def regsLSC : List RegDesc :=
[
    ⟨"LSC_CFG", 0x0, [], 0x1,
      [⟨31, 9, .rsv⟩, ⟨8, 8, .ro⟩, ⟨7, 4, .rsv⟩, ⟨3, 0, .rws⟩]⟩,
    ⟨"LSC_STAT", 0x4, [], 0x0,
      [⟨31, 16, .rsv⟩, ⟨15, 12, .ro⟩, ⟨11, 8, .ro⟩, ⟨7, 4, .ro⟩, ⟨3, 0, .ro⟩]⟩,
    ⟨"LSC_EVT", 0x8, [], 0x0,
      [⟨31, 4, .rsv⟩, ⟨3, 0, .w1c⟩]⟩,
    ⟨"LSC_EVTEN", 0xC, [], 0x0,
      [⟨31, 4, .rsv⟩, ⟨3, 0, .rw⟩]⟩,
    ⟨"LSC_STEST", 0x10, [], 0x0,
      [⟨31, 4, .rsv⟩, ⟨3, 0, .ro⟩]⟩,
    ⟨"LSC_MCAUSEn", 0x20, [(16, 4)], 0x0,
      [⟨31, 31, .w1c⟩, ⟨30, 23, .rsv⟩, ⟨22, 16, .ro⟩, ⟨15, 3, .rsv⟩, ⟨2, 0, .ro⟩]⟩,
    ⟨"LSC_MPCn", 0x24, [(16, 4)], 0x0,
      [⟨31, 0, .ro⟩]⟩,
    ⟨"LSC_MTIMEn", 0x28, [(16, 4)], 0x0,
      [⟨31, 0, .ro⟩]⟩,
    ⟨"LSC_MCNTn", 0x2C, [(16, 4)], 0x0,
      [⟨31, 16, .rsv⟩, ⟨15, 0, .ro⟩]⟩]

/-- Table LSS-8 (12_lockstep_and_safe_state.md). -/
def regsSSM : List RegDesc :=
[
    ⟨"SSM_STATE", 0x0, [], 0x80000001,
      [⟨31, 31, .ro⟩, ⟨30, 30, .ro⟩, ⟨29, 8, .rsv⟩, ⟨7, 0, .ro⟩]⟩,
    ⟨"SSM_CAUSE", 0x4, [], 0x200020,
      [⟨31, 26, .rsv⟩, ⟨25, 16, .w1c⟩, ⟨15, 10, .rsv⟩, ⟨9, 0, .ro⟩]⟩,
    ⟨"SSM_EVT", 0x8, [], 0x0,
      [⟨31, 4, .rsv⟩, ⟨3, 3, .w1c⟩, ⟨2, 2, .w1c⟩, ⟨1, 1, .w1c⟩, ⟨0, 0, .w1c⟩]⟩,
    ⟨"SSM_EVTEN", 0xC, [], 0x0,
      [⟨31, 4, .rsv⟩, ⟨3, 3, .rw⟩, ⟨2, 2, .rw⟩, ⟨1, 1, .rw⟩, ⟨0, 0, .rw⟩]⟩,
    ⟨"SSM_FACK", 0x10, [], 0x0,
      [⟨31, 1, .rsv⟩, ⟨0, 0, .wo⟩]⟩,
    ⟨"SSM_LASTF", 0x14, [], 0x0,
      [⟨31, 24, .ro⟩, ⟨23, 16, .ro⟩, ⟨15, 8, .ro⟩, ⟨7, 0, .rsv⟩]⟩,
    ⟨"SSM_ASC", 0x18, [], 0x0,
      [⟨31, 16, .rsv⟩, ⟨15, 0, .ro⟩]⟩,
    ⟨"SSM_HB", 0x1C, [], 0xFF,
      [⟨31, 8, .rsv⟩, ⟨7, 0, .ro⟩]⟩,
    ⟨"SSM_PAT0", 0x20, [], 0x0,
      [⟨31, 28, .ro⟩, ⟨27, 24, .ro⟩, ⟨23, 20, .ro⟩, ⟨19, 16, .ro⟩, ⟨15, 12, .ro⟩, ⟨11, 8, .ro⟩, ⟨7, 4, .ro⟩, ⟨3, 0, .ro⟩]⟩,
    ⟨"SSM_PAT1", 0x24, [], 0x0,
      [⟨31, 28, .ro⟩, ⟨27, 24, .ro⟩, ⟨23, 20, .ro⟩, ⟨19, 16, .ro⟩, ⟨15, 12, .ro⟩, ⟨11, 8, .ro⟩, ⟨7, 4, .ro⟩, ⟨3, 0, .ro⟩]⟩,
    ⟨"SSM_PATX", 0x28, [], 0x0,
      [⟨31, 10, .rsv⟩, ⟨9, 8, .ro⟩, ⟨7, 4, .rsv⟩, ⟨3, 0, .ro⟩]⟩,
    ⟨"SSM_OTEST", 0x30, [], 0xFF,
      [⟨31, 31, .ro⟩, ⟨30, 30, .ro⟩, ⟨29, 29, .ro⟩, ⟨28, 8, .rsv⟩, ⟨7, 0, .ro⟩]⟩]
    ++ [
    ⟨"SSM_WDKn", 0x40, [(4, 4)], 0x0,
      [⟨31, 0, .wo⟩]⟩,
    ⟨"SSM_WDSTATn", 0x50, [(4, 4)], 0x0,
      [⟨31, 16, .ro⟩, ⟨15, 8, .ro⟩, ⟨7, 2, .rsv⟩, ⟨1, 0, .ro⟩]⟩,
    ⟨"SSM_WDCFGn", 0x60, [(4, 4)], 0x640000,
      [⟨31, 16, .rws⟩, ⟨15, 0, .rws⟩]⟩]

/-- Table RST-10 (13_reset.md). -/
def regsRST : List RegDesc :=
[
    ⟨"RST_STATE", 0x0, [], 0x101,
      [⟨31, 16, .rsv⟩, ⟨15, 8, .ro⟩, ⟨7, 0, .ro⟩]⟩,
    ⟨"RST_CAUSE", 0x4, [], 0x201,
      [⟨31, 20, .rsv⟩, ⟨19, 16, .ro⟩, ⟨15, 10, .rsv⟩, ⟨9, 8, .ro⟩, ⟨7, 0, .ro⟩]⟩,
    ⟨"RST_PEND", 0x8, [], 0x0,
      [⟨31, 14, .rsv⟩, ⟨13, 1, .ro⟩, ⟨0, 0, .rsv⟩]⟩,
    ⟨"RST_START", 0xC, [], 0x0,
      [⟨31, 11, .rsv⟩, ⟨10, 10, .ro⟩, ⟨9, 9, .ro⟩, ⟨8, 8, .ro⟩, ⟨7, 3, .rsv⟩, ⟨2, 0, .ro⟩]⟩,
    ⟨"RST_WAKE", 0x10, [], 0x0,
      [⟨31, 9, .rsv⟩, ⟨8, 8, .ro⟩, ⟨7, 3, .rsv⟩, ⟨2, 0, .ro⟩]⟩,
    ⟨"RST_EVT", 0x14, [], 0x0,
      [⟨31, 3, .rsv⟩, ⟨2, 2, .w1c⟩, ⟨1, 1, .w1c⟩, ⟨0, 0, .w1c⟩]⟩,
    ⟨"RST_EVTEN", 0x18, [], 0x0,
      [⟨31, 3, .rsv⟩, ⟨2, 2, .rw⟩, ⟨1, 1, .rw⟩, ⟨0, 0, .rw⟩]⟩,
    ⟨"RST_OPTIME", 0x1C, [], 0x0,
      [⟨31, 0, .ro⟩]⟩,
    ⟨"RST_PVECn", 0x20, [(4, 8)], 0x0,
      [⟨31, 2, .rw⟩, ⟨1, 0, .rsv⟩]⟩]

/-- Table CTS-6 (14_clocks_thermal_supply.md). -/
def regsCLK : List RegDesc :=
[
    ⟨"CLK_STAT", 0x0, [], 0x1F01FF,
      [⟨31, 21, .rsv⟩, ⟨20, 16, .ro⟩, ⟨15, 9, .rsv⟩, ⟨8, 0, .ro⟩]⟩,
    ⟨"CLK_EVT", 0x4, [], 0x0,
      [⟨31, 9, .rsv⟩, ⟨8, 0, .w1c⟩]⟩,
    ⟨"CLK_EVTEN", 0x8, [], 0x0,
      [⟨31, 9, .rsv⟩, ⟨8, 0, .rw⟩]⟩,
    ⟨"CLK_LAST", 0xC, [], 0x0,
      [⟨31, 16, .ro⟩, ⟨15, 8, .rsv⟩, ⟨7, 4, .ro⟩, ⟨3, 0, .ro⟩]⟩,
    ⟨"CLK_FREQi", 0x40, [(4, 9)], 0x0,
      [⟨31, 16, .rsv⟩, ⟨15, 0, .ro⟩]⟩]

/-- Table CTS-8 (14_clocks_thermal_supply.md). -/
def regsTHM : List RegDesc :=
[
    ⟨"THM_STATE", 0x0, [], 0x1,
      [⟨31, 24, .rsv⟩, ⟨23, 16, .ro⟩, ⟨15, 15, .rsv⟩, ⟨14, 12, .ro⟩, ⟨11, 11, .rsv⟩, ⟨10, 10, .ro⟩, ⟨9, 9, .ro⟩, ⟨8, 8, .ro⟩, ⟨7, 0, .ro⟩]⟩,
    ⟨"THM_EVT", 0x4, [], 0x0,
      [⟨31, 5, .rsv⟩, ⟨4, 4, .w1c⟩, ⟨3, 3, .w1c⟩, ⟨2, 2, .w1c⟩, ⟨1, 1, .w1c⟩, ⟨0, 0, .w1c⟩]⟩,
    ⟨"THM_EVTEN", 0x8, [], 0x0,
      [⟨31, 5, .rsv⟩, ⟨4, 4, .rw⟩, ⟨3, 3, .rw⟩, ⟨2, 2, .rw⟩, ⟨1, 1, .rw⟩, ⟨0, 0, .rw⟩]⟩,
    ⟨"THM_LIMIT", 0xC, [], 0x9E008C,
      [⟨31, 24, .rsv⟩, ⟨23, 16, .rws⟩, ⟨15, 8, .rsv⟩, ⟨7, 0, .rws⟩]⟩,
    ⟨"THM_TCFG", 0x10, [], 0x7,
      [⟨31, 3, .rsv⟩, ⟨2, 0, .rws⟩]⟩,
    ⟨"THM_SUPFLT", 0x14, [], 0x0,
      [⟨31, 16, .rsv⟩, ⟨15, 8, .ro⟩, ⟨7, 0, .w1c⟩]⟩,
    ⟨"THM_TEMPs", 0x20, [(4, 8)], 0x0,
      [⟨31, 31, .ro⟩, ⟨30, 16, .rsv⟩, ⟨15, 0, .ro⟩]⟩,
    ⟨"THM_SUPr", 0x40, [(4, 8)], 0x0,
      [⟨31, 16, .rsv⟩, ⟨15, 0, .ro⟩]⟩]

/-- Table EVC-8 (15_cores_and_events.md). -/
def regsEVC : List RegDesc :=
[
    ⟨"EVC_STAT", 0x0, [], 0x0,
      [⟨31, 25, .rsv⟩, ⟨24, 16, .ro⟩, ⟨15, 9, .rsv⟩, ⟨8, 0, .ro⟩]⟩,
    ⟨"EVC_EVT", 0x4, [], 0x0,
      [⟨31, 1, .rsv⟩, ⟨0, 0, .w1c⟩]⟩,
    ⟨"EVC_EVTEN", 0x8, [], 0x0,
      [⟨31, 1, .rsv⟩, ⟨0, 0, .rw⟩]⟩,
    ⟨"EVC_DBSET", 0xC, [], 0x0,
      [⟨31, 16, .rsv⟩, ⟨15, 0, .w1s⟩]⟩,
    ⟨"EVC_STRAND", 0x10, [], 0x0,
      [⟨31, 16, .ro⟩, ⟨15, 10, .rsv⟩, ⟨9, 0, .ro⟩]⟩,
    ⟨"EVC_THRt", 0x100, [(16, 8)], 0x0,
      [⟨31, 4, .rsv⟩, ⟨3, 0, .rw⟩]⟩,
    ⟨"EVC_CLAIMt", 0x104, [(16, 8)], 0x0,
      [⟨31, 10, .rsv⟩, ⟨9, 0, .rw⟩]⟩,
    ⟨"EVC_FASTt", 0x108, [(16, 8)], 0x0,
      [⟨31, 31, .ro⟩, ⟨30, 10, .rsv⟩, ⟨9, 0, .ro⟩]⟩,
    ⟨"EVC_WAKEt", 0x10C, [(16, 8)], 0x0,
      [⟨31, 30, .ro⟩, ⟨29, 10, .rsv⟩, ⟨9, 0, .ro⟩]⟩,
    ⟨"EVC_SRCm", 0x400, [(4, 256)], 0x1FF4000,
      [⟨31, 31, .rw⟩, ⟨30, 30, .rw⟩, ⟨29, 28, .rsv⟩, ⟨27, 24, .rw⟩, ⟨23, 16, .rw⟩, ⟨15, 8, .rw⟩, ⟨7, 2, .rsv⟩, ⟨1, 1, .ro⟩, ⟨0, 0, .ro⟩]⟩]

/-- Table NET-9 (16_vehicle_networks.md). -/
def regsCAN : List RegDesc :=
[
    ⟨"CANn_STATE", 0x0, [], 0x1,
      [⟨31, 24, .ro⟩, ⟨23, 16, .ro⟩, ⟨15, 10, .rsv⟩, ⟨9, 8, .ro⟩, ⟨7, 0, .ro⟩]⟩,
    ⟨"CANn_EVT", 0x4, [], 0x0,
      [⟨31, 3, .rsv⟩, ⟨2, 2, .w1c⟩, ⟨1, 1, .w1c⟩, ⟨0, 0, .w1c⟩]⟩,
    ⟨"CANn_EVTEN", 0x8, [], 0x0,
      [⟨31, 3, .rsv⟩, ⟨2, 2, .rw⟩, ⟨1, 1, .rw⟩, ⟨0, 0, .rw⟩]⟩,
    ⟨"CANn_MODE", 0xC, [], 0x0,
      [⟨31, 13, .rsv⟩, ⟨12, 8, .rw⟩, ⟨7, 4, .rsv⟩, ⟨3, 3, .rw⟩, ⟨2, 1, .rw⟩, ⟨0, 0, .rsv⟩]⟩,
    ⟨"CANn_TIMING", 0x10, [], 0x0,
      [⟨31, 24, .rws⟩, ⟨23, 16, .rws⟩, ⟨15, 8, .rws⟩, ⟨7, 0, .rws⟩]⟩,
    ⟨"CANn_IDS", 0x14, [], 0x0,
      [⟨31, 27, .rsv⟩, ⟨15, 11, .rsv⟩, ⟨26, 16, .rws⟩, ⟨10, 0, .rws⟩]⟩,
    ⟨"CANn_CNT", 0x18, [], 0x0,
      [⟨31, 16, .ro⟩, ⟨15, 0, .ro⟩]⟩]

/-- Table NET-11 (16_vehicle_networks.md). -/
def regsETH : List RegDesc :=
[
    ⟨"ETHp_STATE", 0x0, [], 0x1,
      [⟨31, 20, .rsv⟩, ⟨19, 19, .ro⟩, ⟨18, 18, .ro⟩, ⟨17, 17, .ro⟩, ⟨16, 16, .ro⟩, ⟨15, 8, .rsv⟩, ⟨7, 0, .ro⟩]⟩,
    ⟨"ETHp_EVT", 0x4, [], 0x0,
      [⟨31, 5, .rsv⟩, ⟨4, 4, .w1c⟩, ⟨3, 3, .w1c⟩, ⟨2, 2, .w1c⟩, ⟨1, 1, .w1c⟩, ⟨0, 0, .w1c⟩]⟩,
    ⟨"ETHp_EVTEN", 0x8, [], 0x0,
      [⟨31, 5, .rsv⟩, ⟨4, 4, .rw⟩, ⟨3, 3, .rw⟩, ⟨2, 2, .rw⟩, ⟨1, 1, .rw⟩, ⟨0, 0, .rw⟩]⟩,
    ⟨"ETHp_CFG", 0xC, [], 0x0,
      [⟨31, 16, .rws⟩, ⟨15, 11, .rsv⟩, ⟨10, 8, .rws⟩, ⟨7, 0, .rws⟩]⟩,
    ⟨"ETHp_MACL", 0x10, [], 0x0,
      [⟨31, 0, .rws⟩]⟩,
    ⟨"ETHp_MACH", 0x14, [], 0x0,
      [⟨31, 16, .rsv⟩, ⟨15, 0, .rws⟩]⟩,
    ⟨"ETHp_OFFS", 0x18, [], 0x0,
      [⟨31, 0, .ro⟩]⟩,
    ⟨"ETHp_RATE", 0x1C, [], 0x0,
      [⟨31, 0, .ro⟩]⟩,
    ⟨"ETHp_MDIO", 0x20, [], 0x0,
      [⟨31, 31, .rw⟩, ⟨30, 30, .rw⟩, ⟨29, 28, .rw⟩, ⟨27, 23, .rw⟩, ⟨22, 18, .rw⟩, ⟨17, 16, .rsv⟩, ⟨15, 0, .rw⟩]⟩,
    ⟨"ETHp_CNT", 0x24, [], 0x0,
      [⟨31, 16, .ro⟩, ⟨15, 0, .ro⟩]⟩,
    ⟨"ETHp_GCLj", 0x40, [(4, 8)], 0x0,
      [⟨31, 28, .rws⟩, ⟨27, 0, .rws⟩]⟩]

/-- Table NET-13 (16_vehicle_networks.md). -/
def regsSEC : List RegDesc :=
[
    ⟨"SEC_STATE", 0x0, [], 0x1,
      [⟨31, 18, .rsv⟩, ⟨17, 16, .ro⟩, ⟨15, 15, .ro⟩, ⟨14, 14, .ro⟩, ⟨13, 8, .rsv⟩, ⟨7, 0, .ro⟩]⟩,
    ⟨"SEC_EVT", 0x4, [], 0x0,
      [⟨31, 4, .rsv⟩, ⟨3, 3, .w1c⟩, ⟨2, 2, .w1c⟩, ⟨1, 1, .w1c⟩, ⟨0, 0, .w1c⟩]⟩,
    ⟨"SEC_EVTEN", 0x8, [], 0x0,
      [⟨31, 4, .rsv⟩, ⟨3, 3, .rw⟩, ⟨2, 2, .rw⟩, ⟨1, 1, .rw⟩, ⟨0, 0, .rw⟩]⟩,
    ⟨"SEC_KEYS", 0xC, [], 0x0,
      [⟨31, 17, .rsv⟩, ⟨16, 16, .ro⟩, ⟨15, 12, .rsv⟩, ⟨11, 8, .rsv⟩, ⟨7, 4, .ro⟩, ⟨3, 0, .ro⟩]⟩,
    ⟨"SEC_SESS", 0x10, [], 0x0,
      [⟨31, 0, .ro⟩]⟩,
    ⟨"SEC_TRNG", 0x14, [], 0x0,
      [⟨31, 0, .ro⟩]⟩,
    ⟨"SEC_DBGCHALj", 0x20, [(4, 4)], 0x0,
      [⟨31, 0, .ro⟩]⟩,
    ⟨"SEC_DBGRESPj", 0x30, [(4, 4)], 0x0,
      [⟨31, 0, .wo⟩]⟩,
    ⟨"SEC_KCMD", 0x40, [], 0x0,
      [⟨31, 11, .rsv⟩, ⟨10, 8, .wo⟩, ⟨7, 4, .rsv⟩, ⟨3, 0, .wo⟩]⟩,
    ⟨"SEC_KDATAj", 0x80, [(4, 24)], 0x0,
      [⟨31, 0, .wo⟩]⟩]

/-- Table NET-15 (16_vehicle_networks.md). -/
def regsDBG : List RegDesc :=
[
    ⟨"DBG_STATE", 0x0, [], 0x0,
      [⟨31, 26, .rsv⟩, ⟨25, 24, .ro⟩, ⟨23, 16, .ro⟩, ⟨15, 8, .ro⟩, ⟨7, 4, .rsv⟩, ⟨3, 0, .ro⟩]⟩,
    ⟨"DBG_REPLAYn", 0x10, [(4, 4)], 0x0,
      [⟨31, 16, .rsv⟩, ⟨15, 8, .ro⟩, ⟨7, 5, .rsv⟩, ⟨4, 0, .ro⟩]⟩,
    ⟨"DBG_HALTSt", 0x40, [(4, 8)], 0x0,
      [⟨31, 16, .rsv⟩, ⟨15, 0, .ro⟩]⟩]

/-- Table MEM-7 (17_memory_and_nv_store.md). -/
def regsMEM : List RegDesc :=
[
    ⟨"MEM_EVT", 0x4, [], 0x0,
      [⟨31, 3, .rsv⟩, ⟨2, 2, .w1c⟩, ⟨1, 1, .w1c⟩, ⟨0, 0, .w1c⟩]⟩,
    ⟨"MEM_EVTEN", 0x8, [], 0x0,
      [⟨31, 3, .rsv⟩, ⟨2, 2, .rw⟩, ⟨1, 1, .rw⟩, ⟨0, 0, .rw⟩]⟩,
    ⟨"MEM_CETHR", 0xC, [], 0x40,
      [⟨31, 16, .rsv⟩, ⟨15, 0, .rw⟩]⟩,
    ⟨"MEM_LASTADDR", 0x10, [], 0x0,
      [⟨31, 0, .ro⟩]⟩,
    ⟨"MEM_LASTINFO", 0x14, [], 0x0,
      [⟨31, 18, .rsv⟩, ⟨17, 17, .rc⟩, ⟨16, 16, .rc⟩, ⟨15, 8, .ro⟩, ⟨7, 7, .ro⟩, ⟨6, 4, .ro⟩, ⟨3, 3, .rsv⟩, ⟨2, 0, .ro⟩]⟩,
    ⟨"MEM_INJ", 0x18, [], 0x0,
      [⟨31, 16, .rsv⟩, ⟨15, 8, .rw⟩, ⟨7, 3, .rsv⟩, ⟨2, 0, .rw⟩]⟩,
    ⟨"MEM_CRIT", 0x1C, [], 0x0,
      [⟨31, 8, .rsv⟩, ⟨7, 0, .ro⟩]⟩,
    ⟨"MEM_CNTs", 0x40, [(4, 8)], 0x0,
      [⟨31, 31, .wo⟩, ⟨30, 16, .ro⟩, ⟨15, 0, .ro⟩]⟩,
    ⟨"MEM_SCRUBs", 0x60, [(4, 4)], 0x64,
      [⟨31, 14, .rsv⟩, ⟨13, 0, .rws⟩]⟩]

/-- Table MEM-9 (17_memory_and_nv_store.md). -/
def regsNVS : List RegDesc :=
[
    ⟨"NVS_STATE", 0x0, [], 0x1,
      [⟨31, 21, .rsv⟩, ⟨20, 16, .ro⟩, ⟨15, 8, .rsv⟩, ⟨7, 0, .ro⟩]⟩,
    ⟨"NVS_EVT", 0x4, [], 0x0,
      [⟨31, 3, .rsv⟩, ⟨2, 2, .w1c⟩, ⟨1, 1, .w1c⟩, ⟨0, 0, .w1c⟩]⟩,
    ⟨"NVS_EVTEN", 0x8, [], 0x0,
      [⟨31, 3, .rsv⟩, ⟨2, 2, .rw⟩, ⟨1, 1, .rw⟩, ⟨0, 0, .rw⟩]⟩,
    ⟨"NVS_WADDR", 0xC, [], 0x0,
      [⟨31, 26, .rsv⟩, ⟨25, 5, .rw⟩, ⟨4, 0, .rsv⟩]⟩,
    ⟨"NVS_WCMD", 0x10, [], 0x0,
      [⟨31, 2, .rsv⟩, ⟨1, 0, .wo⟩]⟩,
    ⟨"NVS_WSTAT", 0x14, [], 0x0,
      [⟨31, 8, .rsv⟩, ⟨7, 0, .ro⟩]⟩,
    ⟨"NVS_JSEQ", 0x18, [], 0x1,
      [⟨31, 0, .ro⟩]⟩,
    ⟨"NVS_JLOST", 0x1C, [], 0x0,
      [⟨31, 16, .rsv⟩, ⟨15, 0, .rc⟩]⟩,
    ⟨"NVS_JPOST", 0x20, [], 0x0,
      [⟨31, 1, .rsv⟩, ⟨0, 0, .wo⟩]⟩,
    ⟨"NVS_MSCRUB", 0x24, [], 0x18,
      [⟨31, 8, .rsv⟩, ⟨7, 0, .rws⟩]⟩,
    ⟨"NVS_WDATAj", 0x40, [(4, 8)], 0x0,
      [⟨31, 0, .wo⟩]⟩,
    ⟨"NVS_JDATAj", 0x60, [(4, 8)], 0x0,
      [⟨31, 0, .wo⟩]⟩]

/-- Table PKG-6 (18_package_pins_electrical.md). -/
def regsPIN : List RegDesc :=
[
    ⟨"PIN_IN", 0x0, [], 0x0,
      [⟨31, 0, .ro⟩]⟩,
    ⟨"PIN_OUT", 0x4, [], 0x0,
      [⟨31, 0, .rw⟩]⟩,
    ⟨"PIN_CFGn", 0x80, [(4, 32)], 0x10,
      [⟨31, 16, .rsv⟩, ⟨15, 8, .rws⟩, ⟨7, 6, .rsv⟩, ⟨5, 4, .rws⟩, ⟨3, 1, .rsv⟩, ⟨0, 0, .rws⟩]⟩]

/-- Every block of registers (Table MEM-2 gives the bases). -/
def blocks : List BlockDesc := [
  ⟨"SYS", 0x40000000, 0x0, 1, regsSYS⟩,
  ⟨"PST", 0x40060000, 0x0, 1, regsPST⟩,
  ⟨"FE", 0x40100000, 0x10000, 8, regsFE⟩,
  ⟨"MOD", 0x40180000, 0x0, 1, regsMOD⟩,
  ⟨"GLK", 0x40190000, 0x0, 1, regsGLK⟩,
  ⟨"FCV", 0x401A0000, 0x0, 1, regsFCV⟩,
  ⟨"RND", 0x401B0000, 0x10000, 2, regsRND⟩,
  ⟨"POS", 0x401D0000, 0x0, 1, regsPOS⟩,
  ⟨"SENT", 0x403A0000, 0x0, 1, regsSENT⟩,
  ⟨"CHG", 0x40200000, 0x0, 1, regsCHG⟩,
  ⟨"REG", 0x401F0000, 0x0, 1, regsREG⟩,
  ⟨"ACT", 0x401E0000, 0x0, 1, regsACT⟩,
  ⟨"GBX", 0x40210000, 0x0, 1, regsGBX⟩,
  ⟨"LDG", 0x40070000, 0x0, 1, regsLDG⟩,
  ⟨"LSC", 0x40040000, 0x0, 1, regsLSC⟩,
  ⟨"SSM", 0x40030000, 0x0, 1, regsSSM⟩,
  ⟨"RST", 0x40010000, 0x0, 1, regsRST⟩,
  ⟨"CLK", 0x40020000, 0x0, 1, regsCLK⟩,
  ⟨"THM", 0x40080000, 0x0, 1, regsTHM⟩,
  ⟨"EVC", 0x40050000, 0x0, 1, regsEVC⟩,
  ⟨"CAN", 0x40300000, 0x10000, 6, regsCAN⟩,
  ⟨"ETH", 0x40380000, 0x10000, 2, regsETH⟩,
  ⟨"SEC", 0x403B0000, 0x0, 1, regsSEC⟩,
  ⟨"DBG", 0x403F0000, 0x0, 1, regsDBG⟩,
  ⟨"MEM", 0x400A0000, 0x0, 1, regsMEM⟩,
  ⟨"NVS", 0x40090000, 0x0, 1, regsNVS⟩,
  ⟨"PIN", 0x403C0000, 0x0, 1, regsPIN⟩]

end RegMap

/-- The instance numbers that an offset within a row spells, if it spells any: the offset is a sum of
`index * stride` with each index below its count. -/
def dimIndices : List (Nat × Nat) → Nat → Option (List Nat)
  | [], 0 => some []
  | [], _ => none
  | (stride, count) :: ds, o =>
    if o / stride < count then (dimIndices ds (o % stride)).map ((o / stride) :: ·) else none

/-- A register found at an address: its row, the instance of its block and the row's instance numbers. -/
structure RegAt where
  block : BlockDesc
  inst : Nat
  desc : RegDesc
  idx : List Nat
  deriving DecidableEq, Repr

/-- The block and instance whose 64 KiB of register space hold an address. -/
def findBlock (addr : Nat) : Option (BlockDesc × Nat) :=
  (RegMap.blocks.find? fun b =>
    b.base ≤ addr && addr < b.base + 0x10000 * b.count).map fun b => (b, (addr - b.base) / 0x10000)

/-- The first row of a map that holds an offset. -/
def findRow (rows : List RegDesc) (o : Nat) : Option (RegDesc × List Nat) :=
  rows.findSome? fun r => if r.off ≤ o then (dimIndices r.dims (o - r.off)).map fun ix => (r, ix) else none

/-- The register at an address; `none` where the offset is reserved (R6). -/
def findReg (addr : Nat) : Option RegAt :=
  match findBlock addr with
  | none => none
  | some (b, i) => (findRow b.regs ((addr - b.base) % 0x10000)).map fun (r, ix) => ⟨b, i, r, ix⟩

/-- The reset value that the maps give the register at an address; 0 at a reserved offset. -/
def resetWord (addr : Nat) : Nat :=
  match findReg addr with
  | none => 0
  | some r => r.desc.reset

end Sys2Proof.Machine
end

