-- ==== Sys2Proof/Machine/State.lean ====
section
/-!
DEFINITION. The machine's state as plain data, and the state after reset. Software-visible registers are held in
`State.regs` at their address (spec register tables); every other piece of state the spec names or implies is a
field of the structures below, chapter by chapter.
Choices of the model: log 1, 3, 4, 10, 22, 23, 24, 39, 40, 42, 43, 44, 53, 64, 67, 69, 75, 76, 96, 99, 100, 101, 108, 116, 119,
120, 150, 152, 179, 183, 184, 185.
-/
namespace Sys2Proof.Machine

/-! ## Scope: variants, status codes, states of record -/

/-- The three variants (R1, Table SCO-1). -/
inductive Variant where
  | f | d | s
  deriving DecidableEq, Repr

/-- The status codes of Table SCO-11 and, as `adm`, the admission codes 0x20 to 0x3A of Table SI-10. -/
inductive Status where
  | done | accepted | eRange | eAbsent | eState | eDeadline | eBudget | eFrank | eSeq | eFull | eTooLate
  | eFormat | eLocked | eTemp | eInterlock | eWithdrawn | eAborted | eFault
  | adm (code : Nat)
  deriving DecidableEq, Repr

/-- The states of record of Table SCO-12. -/
inductive UState where
  | absent | off | idle | armed | running | stopping | fault
  deriving DecidableEq, Repr

/-- A unit's record: its state and the postmark of its last change (R75, opcode STATE). -/
structure UnitRec where
  st : UState
  pm : Nat
  deriving DecidableEq, Repr

/-! ## The post office (03) -/

/-- A receipt (Table PST-2). `result` is bytes 16 to 55. -/
structure Receipt where
  opcode : Nat
  unit : Nat
  status : Status
  seq : Nat
  pmDelivered : Nat
  pmCompleted : Nat
  result : List Byte
  deriving DecidableEq, Repr

/-- One 64-byte slot of queue memory (R77): never filled, a letter with its abort mark, or a receipt. -/
inductive Slot where
  | empty
  | letter (l : Letter) (marked : Bool)
  | receipt (r : Receipt)
  deriving DecidableEq, Repr

/-- What the post office keeps for a pigeonhole beside its registers: the post window (R78), the index up to which
receipts have been signalled (R92), and the letters delivered at the boundary before (Table PST-9). -/
structure Pigeon where
  window : List Word
  signalled : Nat
  delivered : Nat
  deriving DecidableEq, Repr

/-- Why an outstanding operation is being stopped (R89, R90). -/
inductive StopKind where
  | none | abort | deadline
  deriving DecidableEq, Repr

/-- An entry of the outstanding table (R89): the accepted letter's source and header, its delivery postmark and
whether it is being stopped. -/
structure OpEntry where
  src : Src
  opcode : Nat
  unit : Nat
  flags : Nat
  seq : Nat
  deadline : Nat
  delivered : Nat
  stop : StopKind
  deriving DecidableEq, Repr

/-- A hardware-originated transition that waits for the next boundary (R32, R33). -/
inductive HwEvent where
  /-- The unit faulted: FAULT at the boundary, and its outstanding operations end with E_FAULT. -/
  | fault (unit : Nat)
  /-- An operation ended: its final receipt is placed at the boundary. -/
  | finish (key : Nat) (status : Status) (result : List Byte)
  /-- The unit's state of record becomes `dst` at the boundary, if it is still one of `froms` and did not fault. -/
  | move (unit : Nat) (froms : List UState) (dst : UState)
  deriving DecidableEq, Repr

/-- What is done once a receipt has been handed over (R477). -/
inductive Deferred where
  | structureReplace
  | systemReset
  | netHalt (unit : Nat)
  deriving DecidableEq, Repr

/-- A deferred action and the receipt it waits for: pigeonhole and ring index of the receipt. -/
structure DeferredRec where
  action : Deferred
  ph : Nat
  index : Nat
  deriving DecidableEq, Repr


/-- An entry of the event journal (R455): sequence, type, postmark, time of record and body. -/
structure JEntry where
  seq : Nat
  typ : Nat
  pm : Nat
  time : Nat
  body : List Byte
  deriving DecidableEq, Repr

/-- A captured rejection or refusal whose address and postmark a read of the code register will copy (R10, R88). -/
structure Capture where
  addr : Nat
  pm : Nat
  deriving DecidableEq, Repr

/-- The post office's hidden state: pigeonholes and queue memory; the management queue and its sequence counter (R86);
the outstanding table (R89); transitions waiting for the boundary (R33); deferred actions, and those whose receipt has
been handed over and that act at once (R477); the collection window (R94); the captures behind SYS_WERR and PST_MERR; time of record of
the latest boundary. -/
structure PostOffice where
  ph : FMap Pigeon
  slots : FMap Slot
  mgmt : List Letter
  mgmtSeq : Nat
  ops : FMap OpEntry
  nextOp : Nat
  hw : List HwEvent
  deferred : List DeferredRec
  ready : List Deferred
  coll : FMap Byte
  werr : Capture
  merr : Capture
  boundaryAt : Nat
  deriving DecidableEq, Repr

/-! ## The structure image (02) -/

/-- An image table: its 32-byte header (R51) and its data. -/
structure TableRec where
  header : List Byte
  data : List Byte
  deriving DecidableEq, Repr

/-- A structure image taken apart (R42, R44): the 256-byte header and the records of the eight sections, in order. -/
structure Image where
  header : List Byte
  units : List (List Byte)
  legs : List (List Byte)
  loops : List (List Byte)
  sched : List (List Byte)
  ledger : List (List Byte)
  threshs : List (List Byte)
  pins : List (List Byte)
  tables : List TableRec
  deriving DecidableEq, Repr

/-- One admission finding (R62). -/
structure Finding where
  code : Nat
  sect : Nat
  record : Nat
  itemKind : Nat
  item : Nat
  found : Int
  limit : Int
  deriving DecidableEq, Repr

/-- A slot pair's check state (R65, R431): the running check's operation key, whether the last check of the
inactive slot ended DONE with no write after it, and the last check's findings. -/
structure CheckState where
  running : Option Nat
  passed : Bool
  findings : List Finding
  count : Nat
  deriving DecidableEq, Repr

/-! ## Memory and the non-volatile store (17) -/

/-- One write of the NVS write queue (R453): the codeword's MRAM offset, its data, and whose write it is: 0 a plain one, 1 the structure
slot's, 2 the firmware slot's, 3 a scrub's, 4 a commit's (R67), 5 the journal's (R455). -/
structure NvsWrite where
  offset : Nat
  data : List Byte
  target : Nat
  deriving DecidableEq, Repr

/-- A commit under way (R67): the letter and the postmark of its delivery, the key of the pointer record, the copy written first, what is
written, and whether that copy has been verified and the other is being written. -/
structure Commit where
  msg : Msg
  delivered : Nat
  base : Nat
  first : Nat
  bytes : List Byte
  second : Bool
  deriving DecidableEq, Repr

/-- The NVS: write queue (its head's pulse may be running), journal buffer of 64, next ring offset, entries since
the pointer was last written, a flush of the journal under way (R453, R455), the commits under way (R67), and the offsets of the codewords
whose corrected data waits to be written back (R446, R449). -/
structure NvsState where
  queue : List NvsWrite
  pulse : Bool
  jbuf : List JEntry
  jptr : Nat
  jsince : Nat
  flush : Bool
  commits : List Commit
  owed : List Nat
  deriving DecidableEq, Repr
/-! ## Field engines (04) -/

/-- The charger's values that letters give its engines (R105, R213, R220, R223, R224): mode, programmed output current, V2 target in force
and lowest V2 of FEED (Q16.16), power in W, discharge limits of CHG_LIMIT (W) and CHG_BMS (Q16.16 A), reactive current (Q16.16 A), the
island's voltage and frequency, and whether the session uses three phases. -/
structure ChgPar where
  mode : Nat
  prog : Int
  target : Int
  lowest : Int
  power : Int
  dis : Int
  bDis : Int
  react : Int
  islV : Int
  islF : Int
  three : Bool
  deriving DecidableEq, Repr

/-- The parameters that letters give an engine, latched 1 µs after the boundary of their delivery (R105): FEn_GAINS, OUTKP, OUTKI, ADAPT,
HCAP, the four (HCFG, HAMP) pairs, the torque of record and ramp of its function, an HLV function's V2 target (1/65536 V) and I2_LIM
(0.1 A), the charger's values, and the gearbox operation under way. -/
structure LetPar where
  gains : Nat
  outkp : Nat
  outki : Nat
  adapt : Nat
  hcap : Nat
  harm : List (Nat × Nat)
  torque : Int
  ramp : Int
  hlvTarget : Int
  hlvLim : Int
  chg : ChgPar
  gop : Nat
  deriving DecidableEq, Repr

/-- The parameter set of a computation, in force at its sample instant (R105): the letters' part, and what counts from the cycle after it
is set: the envelope (W), the return factor of the link (Q1.15), the charger's phase, the current by which the bus regulation lowers its
reference, its input current clamp (Q16.16 A) and its envelopes for charge and discharge. -/
structure EngPar extends LetPar where
  draw : Nat
  ret : Nat
  k : Int
  phase : Nat
  lower : Int
  clamp : Int
  env : Int
  dis : Int
  deriving DecidableEq, Repr

/-- A pre-notice (R115): sequence, time of record of the update point it serves, power in W. -/
structure Notice where
  seq : Nat
  point : Nat
  power : Int
  deriving DecidableEq, Repr

/-- What an engine keeps between updates. `par`: the parameter set in force; `prev`: the letters' part before the latest boundary;
`sampleAt`: the latest sample instant; `updAt`: time of record of the latest update; `waiting`: a sample has been triggered and not
computed; `bad`: one of its results was uncorrectable; `skip`: the update point of the sample has passed without its duties (R29); `samp`:
the results by converter group (four Q1.15 values). `ang`, `spd`, `hist`, `seen`: electrical angle, filtered speed, the last eight angle
changes, and whether the source has been VALID since ARMED (R107). `i`, `pred`, `iprev`, `ir`, `v`, `vp`: measured current,
its prediction for the next sample (none before the first), the previous measurement, reference, latest command and the command in force, each
(d, q), or (x, y) on a partner, in Q5.27 (R108). `vdc` in Q5.27; `iph`: the three phase currents of the sample, Q5.27.
`calm`: updates since VLIM, up to 5 (R109). `fades`: the four harmonic channels' fade, 0 to 64 (R112). `outI`: integral part
of the outer loop. `halt`: duties are withheld (R101, R116). `first`: the next update in RUNNING is the first (R189).
`rotor`: the angle latched by the rotor watch (R117). `seq`, `notices`, `power`: pre-notices posted and not over. `seenFlags`, `serr`, `late`, `wdraw`: flags and counts of the epoch.
`pllAng`, `pllHz`: grid angle and frequency in 1/65536 Hz. `adaptL`: the DAB inductance factor, 1/4,096; `resetAt`: when FE_ADAPT's reset
of the factors is latched. -/
structure Engine where
  par : EngPar
  prev : LetPar
  sampleAt : Nat
  updAt : Nat
  waiting : Bool
  bad : Bool
  skip : Bool
  samp : FMap (List Int)
  ang : Nat
  spd : Int
  hist : List Int
  seen : Bool
  i : Int × Int
  pred : Option (Int × Int)
  iprev : Int × Int
  ir : Int × Int
  v : Int × Int
  vp : Int × Int
  vdc : Int
  iph : List Int
  calm : Nat
  fades : List Nat
  outI : Int
  halt : Bool
  first : Bool
  rotor : Nat
  seq : Nat
  notices : List Notice
  power : Int
  cause : Nat
  terrAt : Nat
  seenFlags : Nat
  serr : Nat
  late : Nat
  wdraw : Nat
  pllAng : Nat
  pllHz : Int
  adaptL : Nat
  resetAt : Option Nat
  deriving DecidableEq, Repr

/-! ## Legs, modulation and gate links (05) -/

/-- A pool leg: the band of the acknowledged profile, the band its temperature asks for and whether the change awaits the driver (R131);
gate-link slot lost; effective td, BLANK and MINON in ns; consecutive good polls that report a fault flag (R137, DRVFLAG); a good poll
seen. -/
structure LegSt where
  band : Nat
  want : Nat
  pend : Bool
  lost : Bool
  td : Nat
  blank : Nat
  minon : Nat
  flagRuns : Nat
  polled : Bool
  deriving DecidableEq, Repr

/-- The output chain of a pool leg (Table MOD-1): stage 1's two commands and the turn-on that its dead time still holds back, true for the
high side, with its time of record (R127); stage 2's commands; the switches that the interlock leaves on, and since when each is off
(R132); the override code and when it last returned to 0b00; the end of the blanking window (R135); since when stage 2 commands both
switches on (R133). -/
structure Lock where
  high1 : Bool
  low1 : Bool
  due : Option (Bool × Nat)
  high2 : Bool
  low2 : Bool
  onH : Bool
  onL : Bool
  offH : Option Nat
  offL : Option Nat
  code : Nat
  freeAt : Option Nat
  blankTo : Nat
  both : Option Nat
  deriving DecidableEq, Repr

/-- A latch of the epoch: leg, cause, time of record and effective band (R142). DESIGN CHOICE (log 218): the band is the one at the latch. -/
structure LatchRec where
  leg : Nat
  cause : Nat
  time : Nat
  band : Nat
  deriving DecidableEq, Repr

/-- What a gate-link command is for: an ID read, a STRENGTH write of a band's codes, a CLEAR write, or a driver letter with
the key of its operation. -/
inductive GlKind where
  | readId
  | strength (band : Nat)
  | clear
  | letter (key : Nat) (write : Bool) (unit : Nat)
  deriving DecidableEq, Repr

/-- A queued gate-link command: slot, purpose, register address, data, attempts made (R149). -/
structure GlCmd where
  slot : Nat
  kind : GlKind
  addr : Nat
  data : Nat
  tries : Nat
  deriving DecidableEq, Repr

/-- What a window of a gate link is waiting for. -/
inductive GlWait where
  | none
  | poll (slot : Nat) (retry : Bool)
  | cmd (c : GlCmd)
  deriving DecidableEq, Repr

/-- A driver slot: failed polls in a row, good polls in a row since it was lost, whether its ID has been read and its STRENGTH written
since admission (R150). -/
structure GlSlot where
  fails : Nat
  goods : Nat
  idOk : Bool
  strOk : Bool
  deriving DecidableEq, Repr

/-- A gate link: the window of the poll cycle (0 to 11), command queue, the device's own commands that wait for an entry of the queue, a
poll to retry, the request under way, its frame's six bytes, and the slots. -/
structure GlLink where
  window : Nat
  queue : List GlCmd
  owed : List GlCmd
  retry : Option Nat
  wait : GlWait
  frame : List Byte
  slots : FMap GlSlot
  deriving DecidableEq, Repr

/-- The edges a commit placed for a leg, in ticks from the start of the carrier period (Table MOD-2); those of the commit before, which
govern until an edge-lead after this one, and this one's time of record (R125). -/
structure Edges where
  rise : Option Nat
  fall : Option Nat
  rise0 : Option Nat
  fall0 : Option Nat
  at_ : Nat
  deriving DecidableEq, Repr

/-- The modulator: shadow registers and committed values by leg (Q2.30), the edges of the last commit, the legs, the latches
of this epoch and of the one before (R143), the gate links, the groups whose link-watch sample is
under way (R195), and the time of record at which all carriers started (R124). -/
structure ModSt where
  shadow : FMap (Option Int)
  duty : FMap (Option Int)
  edges : FMap Edges
  legs : FMap LegSt
  latches : List LatchRec
  before : List LatchRec
  links : FMap GlLink
  watch : List Nat
  carrierAt : Nat
  deriving DecidableEq, Repr

/-! ## Sensing (06) -/

/-- An urgent request: channel, settle, slot, and for a letter the key of its operation; `use` names a function whose start
made it (R190); it has reached the converter (R168). -/
structure Urgent where
  channel : Nat
  settle : Nat
  slot : Nat
  op : Option Nat
  use : Option (Nat × Nat)
  arrived : Bool
  deriving DecidableEq, Repr

/-- A round converter: urgent queue and the request under way, result queue (Table SEN-5 entries), entries watched that have
lapsed or wait (true: watched and not lapsed), the reference outside its limits, the sequence running, and the entries
that have delivered. -/
structure RndSt where
  urgent : List Urgent
  active : Option Urgent
  queue : List (List Byte)
  watch : FMap Bool
  refBad : Bool
  running : Bool
  latest : FMap (List Byte)
  deriving DecidableEq, Repr

/-- A position source: time of record of its angle, the quadrature count, an index seen since RUNNING, invalidating
conditions present (flag bits), excitation off, the flags of the epoch, the levels of A and B at the latest sample since RUNNING (2A + B),
and the counts of the last 1 µs with the one before them, latest first, as (time, ±1); `fresh`: the angle has been published while VALID is 1 (R107). -/
structure PosSt where
  at_ : Nat
  count : Int
  index : Bool
  present : Nat
  excOff : Bool
  epochFlags : Nat
  ab : Option Nat
  counts : List (Nat × Int)
  fresh : Bool
  deriving DecidableEq, Repr

/-- A SENT input: good frames in a row, VALID, good frames and error flags of the epoch, full time of the last good frame, the latest
sync pulse in ns and frame length in ticks (0 none), and bits [3:2] of the status nibbles of the good frames in a row, latest first, at most
18 (the slow channel). -/
structure SentSt where
  goods : Nat
  valid : Bool
  frames : Nat
  epochFlags : Nat
  at_ : Nat
  sync : Nat
  len : Nat
  slow : List Nat
  deriving DecidableEq, Repr

/-! ## Traction and choppers (07) -/

/-- The missing-phase test of one leg position (R194): electrical angle travelled in the current cycle (2^32 = one turn),
peak magnitude of the current and least commanded amplitude in it (none before its first update), and complete failing cycles. -/
structure MissSt where
  turn : Nat
  peak : Int
  cmd : Option Int
  cycles : Nat
  deriving DecidableEq, Repr

/-- A traction or chopper function. Torques in Q16.16 N·m. `phase`, `path`: start phase and path of Tables TRA-4 and TRA-3;
`runKey`: none once the start has reached RUN. `cause`, `badPos`: fault cause and leg position. `flags`: bits of record byte
3 seen in the epoch. `sensorless`: the observer is in use. `freq`, `vec`: frequency (electrical angle per update) and
angle of the open-loop vector. `known`: the speed is known; `pref`: ASC_PREF as the traction watch has it for the next heartbeat; `lastE`: the back-EMF amplitude in 1/65536 V; `miss`: R194 by
position. Chopper: `lastAt` its last period; duty in 1/65536; since when dV has been 1 and since when below 0.9 (times of record);
saturated, hot, resistor energy in mJ; start, duty and voltage (1/65536 V) of the periods of the last 200 µs; since when the open and short
conditions have held; a detected fault cause; `auto`: no automatic start is due any more. `amp`: start-phase current amplitude, A, Q16.16. -/
structure TraSt where
  torque : Int
  ramp : Int
  tEff : Int
  phase : Nat
  path : Nat
  cause : Nat
  badPos : Nat
  flags : Nat
  sensorless : Bool
  freq : Int
  vec : Nat
  known : Bool
  pref : Bool
  lastE : Int
  lastAt : Nat
  miss : FMap MissSt
  duty : Int
  dvFull : Option Nat
  dvLow : Option Nat
  saturated : Bool
  hot : Bool
  energy : Int
  window : List (Nat × Int × Int)
  openAt : Option Nat
  shortAt : Option Nat
  detected : Bool
  auto : Bool
  amp : Int
  deriving DecidableEq, Repr

/-! ## Charging (08) -/

/-- The charger beside its registers. From CHG_START: three-phase in use, phase selection, target V2, output, input and
termination currents (Q16.16), power in W, island voltage and frequency. From CHG_LIMIT, none where unset: V2, output and
input limits, discharge power and reactive current. From CHG_BMS: temperatures in 0.1 °C, currents and voltage (Q16.16),
contactor open, temperature known. `search`: search value in A, Q16.16 (0: none); `u0`: no-load voltage (Q16.16 V). `started`: time
of CHG_START; `ended`: time the session ended; `ccNs`: constant-current timer; `energy` in nJ; `reason`: end reason (Table
CHG-8); `rampAt`, `ramp0`: start of RAMPDOWN and the I2 then; `hard`: the legs are held off. `recorded`: causes of the present
FAULT and `epoch`: of the epoch, both with bit c − 1 for cause c. `cpS2`, `acCmd`, `acFb`: CP_S2 closed, AC contactor
commanded closed, its feedback closed. `v2prev`: V2 of the previous DAB update (1/65536 V), `rises`: updates in a row that met
R218. `grid`: rms grid voltages by phase and `gridI`: the current, Q16.16; `quietAt`: since when every phase reads below 20 V.
`ref`: the DAB's I2 reference in force, `lower`: by how much the bus regulation lowers it, `clampNow`: the input current clamp
on its ramp (Q16.16 A). `flags`: flags of the epoch; `last`: time to which the timers have counted; `termAt`: since when I2 has been below
the termination current in CV. `binds`: the front end's clamp bound its id* in the last update (R209). `nominal`: the measured grid mode's
nominal frequency in Hz, 0 before SEARCH or FEED has replaced that of LOOPS (R229). `duty`: the high time and the length of the pilot
periods of the last measurement. -/
structure ChgSt where
  three : Bool
  phSel : Nat
  target : Int
  outLim : Int
  inLim : Int
  term : Int
  power : Int
  islV : Int
  islF : Int
  lV2 : Option Int
  lOut : Option Int
  lIn : Option Int
  lDis : Option Int
  lReact : Option Int
  tMax : Int
  tMin : Int
  bChg : Int
  bDis : Int
  bVmax : Int
  bOpen : Bool
  tempKnown : Bool
  search : Int
  u0 : Int
  started : Nat
  ended : Nat
  ccNs : Nat
  energy : Int
  reason : Nat
  rampAt : Nat
  ramp0 : Int
  hard : Bool
  recorded : Nat
  epoch : Nat
  cpS2 : Bool
  acCmd : Bool
  acFb : Bool
  v2prev : Int
  rises : Nat
  grid : List Int
  gridI : Int
  quietAt : Option Nat
  ref : Int
  lower : Int
  clampNow : Int
  flags : Nat
  last : Nat
  termAt : Option Nat
  binds : Bool
  nominal : Nat
  duty : Nat × Nat
  deriving DecidableEq, Repr

/-- The charger at reset. -/
def chgReset : ChgSt where
  three := false
  phSel := 0
  target := 0
  outLim := 0
  inLim := 0
  term := 0
  power := 0
  islV := 0
  islF := 0
  lV2 := none
  lOut := none
  lIn := none
  lDis := none
  lReact := none
  tMax := 0
  tMin := 0
  bChg := 0
  bDis := 0
  bVmax := 0
  bOpen := false
  tempKnown := false
  search := 0
  u0 := 0
  started := 0
  ended := 0
  ccNs := 0
  energy := 0
  reason := 0
  rampAt := 0
  ramp0 := 0
  hard := false
  recorded := 0
  epoch := 0
  cpS2 := false
  acCmd := false
  acFb := false
  v2prev := 0
  rises := 0
  grid := []
  gridI := 0
  quietAt := none
  ref := 0
  lower := 0
  clampNow := 0
  flags := 0
  last := 0
  termAt := none
  binds := false
  nominal := 0
  duty := (0, 1)

/-! ## The 48 V and 12 V supplies (09) -/

/-- An HLV function: V2 target and present reference (1/65536 V), I2_LIM in 0.1 A, P* at entry to STOPPING (W) and the time of
it, auto-run done, and the feed-forward term in W. -/
structure HlvSt where
  target : Int
  ref : Int
  i2lim : Int
  ramp0 : Int
  stopAt : Nat
  auto : Bool
  ffTerm : Int
  deriving DecidableEq, Repr

/-- The latest change of the regulator's set of active phases (R247): its time of record, its rank (1 shed, 2 add, 3 restore), the active mask
before it, and whether its event flag was set already. -/
structure RegOp where
  at_ : Nat
  rank : Nat
  mask : Nat
  was : Bool
  deriving DecidableEq, Repr

/-- The 12 V regulator beside its registers. V_T runs on a ramp: `from_` (µV) at time of record `at_` towards `goal` (µV) at
V_SET ÷ SS_TIME (R248, R250). `onMask`: phases in their on-time; `offUntil`: end of T_OFFMIN by phase, in ns; `last`: the phase
last pulsed; `tOn`: latched on-times in 78.125 ps; `held`: phases held by the current limit; `waiting`: a trip waits for a
phase; `shedHold`: shedding is held off; `next`: a REG_SET that waits for the next start (V_SET, R_LL, shedding, MIN_PH).
`epoch`: causes of the epoch and `recorded`: causes of the present FAULT, both with bit c − 1 for cause c; `flags`: flags of
the epoch (Table LV-12); `restores`; `auto`: auto-run done; `sums`, `span`: phase currents integrated over the epoch (0.1 A × ns) and over how
long; `senseAt`: the latest reading; `iwin`: time and summed current (0.1 A) of the readings of the last 200 ns; `bwin`: the time and the phases' currents of those of the last
10 µs; `emul`: the emulated ripple
currents in µA by phase, `ripY` their filtered sum; `tripAt`: the latest trip (R243); `balAt`: time
of the latest balance step; `bad`: BIn inputs outside their range; `localMv`: the local output in mV;
`hiz`: shed phases whose BPn is at high impedance; `op`: the latest change of the active phases (R247). -/
structure RegSt where
  from_ : Int
  at_ : Nat
  goal : Int
  onMask : Nat
  offUntil : FMap Nat
  last : Nat
  tOn : FMap Nat
  held : Nat
  waiting : Bool
  shedHold : Bool
  next : Option (Nat × Nat × Nat × Nat)
  epoch : Nat
  flags : Nat
  recorded : Nat
  restores : Nat
  auto : Bool
  sums : FMap Int
  span : Nat
  senseAt : Nat
  iwin : List (Nat × Int)
  bwin : List (Nat × List Int)
  emul : FMap Int
  ripY : Int
  tripAt : Option Nat
  balAt : Nat
  bad : Nat
  localMv : Int
  hiz : Nat
  op : Option RegOp
  deriving DecidableEq, Repr

/-! ## Actuators and the gearbox sequencer (10) -/

/-- An actuator channel beside its registers: commanded speed (rpm) and its ramped setpoint (Q16.16), current limit in % of
I_RATED, start path of Table ACT-7, RETRY_WAIT running, a pre-aligned start asked for, a start waits until the channel is ARMED, RUN has
been reached in this attempt, start of the phase, electrical angle of the vector in 2^−32 turn and its speed in rpm (Q16.16), back-EMF of a
catch in mV, integrator of the speed loop in 0.1 A, the gate-leakage checks under way and waiting (1 for ACT_ARM, 2 for ACT_LEAKTEST, the
first runs), a precharge due on entry to ARMED and the start of the last one, braking pulses paused and a pulse on, low sides on at the end
of a stop, current reference (0.1 A), the three duties (Q0.16) while the channel drives, their gate edges, start of the last refresh by
position, the R194 test by position, faulty position. `recorded`: causes of the present FAULT, `epoch`: of the epoch, both with bit c − 1
for cause c; `flags` and `refreshes` of the epoch; time of the last update. `was`: by position, whether the last period ended with the
high side commanded, and how long before the trough its last commanded edge lay, in 2.5 ns (R262). -/
structure ActSt where
  goal : Int
  set_ : Int
  lim : Nat
  path : Nat
  waiting : Bool
  holdAsk : Bool
  ask : Bool
  reached : Bool
  phaseAt : Nat
  ang : Nat
  vec : Int
  bemf : Option Int
  integ : Int
  leak : List Nat
  charge : Bool
  preAt : Option Nat
  paused : Bool
  pulse : Bool
  lowAt : Option Nat
  iqRef : Int
  duty : List Nat
  edges : List (List Nat)
  refreshAt : FMap Nat
  miss : FMap MissSt
  badPos : Nat
  recorded : Nat
  epoch : Nat
  flags : Nat
  refreshes : Nat
  lastAt : Nat
  was : List (Bool × Nat)
  deriving DecidableEq, Repr

/-- The gearbox sequencer beside its registers: target and starting report of the operation, the report its present move goes to
(0: no move), start times of the operation, phase and move, block retries, the old window has been left, a block waits for its
retry, the pawl waits at I_HOLD, the machine took part at the start, the operation is being taken back, its final status other
than DONE, time of the latest report, recorded causes, cause of the epoch, auto-run done, the machine that took part has left RUNNING. -/
structure GbxSt where
  target : Nat
  old : Nat
  moveTo : Nat
  mech : Nat
  started : Nat
  phaseAt : Nat
  moveAt : Nat
  retries : Nat
  left : Bool
  blocked : Bool
  parkWait : Bool
  synced : Bool
  back : Bool
  final : Status
  reportAt : Nat
  recorded : Nat
  epoch : Nat
  auto : Bool
  lost : Bool
  deriving DecidableEq, Repr

/-! ## The energy ledger and planner (11) -/

/-- A ledger port: accumulators in nJ (R294), power of the last tick in mW, energy of the running block and of the running
planner round in nJ, and whether each of its two channels has given a result in the block. -/
structure PortSt where
  net : Int
  draw : Int
  ret : Int
  power : Int
  block : Int
  round : Int
  gotV : Bool
  gotI : Bool
  deriving DecidableEq, Repr

/-- A DC link: consecutive results above the overvoltage threshold (R196), return factor in Q1.15 (R197), voltage at the first and
the last tick of the block in 1/327680 V, time of the last tick at which a function of the link booked 0 W by an override or a
withdrawal, failing blocks in a run, their summed residual in µJ and each port's energy over them in nJ (R296, R297), the limits of the last LDG_BATTERY with its
allowance (nJ) and its time (none before the first), whether the last round took the fallback limits, RETURN at the last round in
nJ, and dump power and limits in force (R302). -/
structure LinkSt where
  ovRun : Nat
  k : Int
  vStart : Option Int
  vEnd : Int
  zeroAt : Option Nat
  runs : Nat
  runSum : Int
  portSums : FMap Int
  battDis : Int
  battChg : Int
  battPeak : Int
  allowance : Int
  battAt : Option Nat
  fallen : Bool
  lastRet : Int
  dump : Int
  dis : Int
  chg : Int
  deriving DecidableEq, Repr

/-- A function's power: booked in mW now and at the next commit, held at 0 by a withdrawal, its pre-notice term is the latest pre-notice, or
after a withdrawal its booked power (R298), and the demand (W) and the imbalance limit of the last round. -/
structure FnPow where
  booked : Int
  next : Int
  withdrawn : Bool
  preLive : Bool
  preGone : Bool
  demand : Int
  limited : Bool
  deriving DecidableEq, Repr

/-- A power-hole notice (R280, R304): function, time of record of its posting, SHIFT_EST in ms, and the (draw, return) latched at the first
round after posting. -/
structure Hole where
  fn : Nat
  at_ : Nat
  est : Nat
  floor : Option (Int × Int)
  deriving DecidableEq, Repr

/-- What a planner round has computed and not yet latched (R300): time of its snapshot, (function, draw, return), (function, demand), limited
functions, charger envelopes for charge and discharge, regulator envelope, (link, dump, dis, chg), and the links on fallback
limits. -/
structure PlanOut where
  at_ : Nat
  env : List (Nat × Int × Int)
  demand : List (Nat × Int)
  limited : List Nat
  charger : Int
  chargerDis : Int
  regulator : Int
  links : List (Nat × Int × Int × Int)
  fallback : List Nat
  deriving DecidableEq, Repr

/-- The ledger and planner: ports, links, function powers, withdrawal queue, notices, the round under way, the charger's
envelopes (charge, discharge) and the regulator's, time of the last latch, the rounds completed, and under R305 the start of the ramp and the
envelopes then: (function, draw, return), charger, charger discharge, regulator. -/
structure LdgSt where
  ports : FMap PortSt
  links : FMap LinkSt
  fns : FMap FnPow
  wq : List (List Byte)
  holes : List Hole
  plan : Option PlanOut
  charger : Int
  chargerDis : Int
  regulator : Int
  latchedAt : Nat
  rounds : Nat
  staleAt : Nat
  decay : List (Nat × Int × Int)
  decayCh : Int × Int × Int
  deriving DecidableEq, Repr


/-! ## Lockstep, safe-state manager, reset, cores and the event controller (12, 13, 15) -/

/-- The condition of a core (Table EVC-4): not run or in reset, parked in the boot ROM, executing, or stopped after a
mismatch. -/
inductive CoreCond where
  | off | parked | running | stopped
  deriving DecidableEq, Repr

/-- A core: a pair's main core Pt (t = 0 to 3) in paired mode, Ct in split mode. Both register banks (x1 to x31), the floating-point
registers, the standard CSRs of Table EVC-1 by number (those of debug trigger i at 0x1000 × (i + 1) above theirs), program counter,
privilege (0 U, 3 M), WFI, debugger halt, the device-specific CSRs of Table EVC-2, the record of MEIP having been 1 since the last claim
(R399), the load-reserved reservation (Table EVC-1) with the time at which its 1,024 cycles are over, the bytes that its data and
instruction caches hold (R393), and the mcause code of the last exception this block raised to the core. -/
structure CoreSt where
  cond : CoreCond
  wfi : Bool
  halted : Bool
  bank : FMap Word
  fast : FMap Word
  fp : FMap Word
  csr : FMap Word
  pc : Nat
  priv : Nat
  mfcfg : Bool
  mfvec : Nat
  mfepc : Nat
  active : Bool
  fpriv : Nat
  fid : Nat
  mtimecmp : Nat
  meipSeen : Bool
  reservation : Option (Nat × Nat)
  dcache : FMap Byte
  icache : FMap Byte
  exc : Option Nat
  deriving DecidableEq, Repr

/-- A pair's lockstep state: the self-test position 0 to 263, a self-test that waits for a resume, the control-die
FAULT_N driver held for this pair, and the entries of the replay queue (R320, R326, R333). -/
structure PairSt where
  testPos : Nat
  testWaits : Bool
  faultN : Bool
  replay : Nat
  deriving DecidableEq, Repr

/-- What the SSM learned of a function at admission (R330): its role code of Table SI-4, its legs in position order, its
ASC side (true: high) and its DC link. -/
structure SsmFn where
  role : Nat
  legs : List Nat
  ascHigh : Bool
  link : Nat
  deriving DecidableEq, Repr

/-- A watchdog of the SSM: whether the next key is the second one, whether it has warned, its mode before a debugger's pause (R327,
R334), and the time since its service or start (SINCE of SSM_WDSTATn): `at_` is the time of record of that, or, while it is paused, the
time that had passed. -/
structure WdSt where
  second : Bool
  warned : Bool
  before : Nat
  at_ : Nat
  deriving DecidableEq, Repr

/-- The safe-state manager's hidden state: the function map, the functions, actuator channels and regulator choice
(0 none, 1 REG_OFF, 2 REG_CROWBAR) whose pattern a fault report holds (R329), since when the regulator's wire carries its pattern (R252), the links with an overvoltage report, the
functions whose session hold is an ASC pattern, heartbeats present, the fault frames sent and not yet received, whether
the device-wide state was entered since the last boundary, the watchdogs and those that warned in the epoch, MON checks that failed
and passed in a row (R335), heartbeats in a row and when the last one came (SSM_HB.AGE), and mismatches that the journal records after the restart (R324). -/
structure SsmSt where
  map : FMap SsmFn
  fnHeld : Nat
  actHeld : Nat
  regHeld : Nat
  regAt : Nat
  ovLinks : Nat
  heartbeat : Bool
  frames : List (Nat × Nat × Nat)
  entered : Bool
  wd : FMap WdSt
  wdWarned : Nat
  monBad : Nat
  monGood : Nat
  hbRun : Nat
  hbAt : Option Nat
  mism : List (List Byte)
  deriving DecidableEq, Repr

/-- The reset controller's hidden state: the asserted sources with the pairs they name (R348), the held system (1) or
power-on (2) reset and whether its minimum hold still runs, the pairs in pair reset and those whose minimum hold still
runs, a system reset that waits for the end of an MRAM pulse (R353), the clock-domain orders of Table RST-4 that have
left reset, power-good inputs, the first release done, unit release done (Operational at the next
boundary), the time of record from which RST_OPTIME counts, the start timer, standby and transport scheduled or entered, the pairs that were in pair reset in the
epoch (R367), the units being reset with their operation (R365), the units whose auto-run is due at the next boundary, and the pairs that
RST_PAIR letters have named with the time of their delivery (Table RST-7). -/
structure RstSt where
  sources : List (Nat × Nat)
  sysHold : Nat
  sysMin : Bool
  pairs : Nat
  pairMin : Nat
  waitPulse : Bool
  domains : Nat
  pg : Nat
  released : Bool
  unitsOut : Bool
  startedAt : Nat
  startTimer : Bool
  standbyDue : Bool
  transportDue : Bool
  standby : Bool
  transport : Bool
  wakeArmed : Bool
  pairEpoch : Nat
  unitReset : List (Nat × Nat)
  autoDue : List Nat
  swPairs : Nat
  swAt : Nat
  deriving DecidableEq, Repr

/-- The event controller's hidden state: source lines as synchronised, sources in service with their core (source, core),
doorbells set again while in service, and the sources known to have reached no core (R403). -/
structure EvcSt where
  raised : List Nat
  inserv : FMap Nat
  again : List Nat
  deriving DecidableEq, Repr

/-- What the always-on domain holds beside its registers: the keep-alive budget (R306 to R308; cap in µJ, refill in µW, wake power in
mW, period in s, limit in ms, balance in 1/4,096 µJ), the session counter (R426), a timer wake that waits for the refill. -/
structure AonSt where
  cap : Nat
  refill : Nat
  wakePower : Nat
  period : Nat
  limit : Nat
  balance : Int
  session : Nat
  waiting : Bool
  deriving DecidableEq, Repr

/-- The always-on domain after a power-on reset: no keep-alive budget (R350), the session counter as the MRAM has it (R426). -/
def AonSt.atPowerOn (mram : Nat) : AonSt := ⟨0, 0, 0, 0, 0, 0, mram, false⟩

/-- The pin-hold logic, which a system reset keeps (Table RST-3): the latch cause of each pool leg (R137), of each
actuator leg (R267), and the crowbar latch (R251); the pool legs whose soft-off hold runs (R138) and their output chains; the BPn pads that
the crowbar latch holds low, and the regulator's override wire as the pads see it (R252): its level, the time of an edge in the last 200 ns,
and the pattern recognised (0 none, 1 REG_OFF, 2 REG_CROWBAR). -/
structure PadSt where
  legCause : FMap Nat
  actCause : FMap Nat
  crowbar : Bool
  soft : List Nat
  locks : FMap Lock
  barMask : Nat
  wire : Bool
  wireEdge : Option Nat
  wirePat : Nat
  deriving DecidableEq, Repr

/-- The thermal unit beside its registers: intervals without a conversion and consecutive good conversions by sensor (R379), consecutive
measurements with every sensor far from its limits (R380), rails out of range during the epoch, hottest sensor, time of record of the
last measurement (R387). -/
structure ThmSt where
  missed : FMap Nat
  goods : FMap Nat
  calm : Nat
  rails : Nat
  hot : Nat
  at_ : Nat
  deriving DecidableEq, Repr

/-! ## Networks, security unit, debug module (16, 18) -/

/-- A CAN controller beside its registers: error counters (the transmit one beyond 255 at bus-off), the receipt pigeonhole whose head
frame is under way and its failed attempts, identifier and data of the frame on CANn_TX, and frames received, sent, discarded and
dropped in the epoch (R439). -/
structure CanSt where
  tec : Nat
  rxc : Nat
  tx : Option (Nat × Nat)
  id : Nat
  frame : List Byte
  received : Nat
  sent : Nat
  discarded : Nat
  dropped : Nat
  deriving DecidableEq, Repr

/-- Where Ethernet receipts of a class go: IP address (4 or 16 octets), UDP port, MAC address (R420). -/
structure EthDest where
  ip : List Byte
  port : Nat
  mac : List Byte
  deriving DecidableEq, Repr

/-- A frame that leaves an Ethernet port (R420, R423, R424): its destination, its class, VLAN ID and PCP of its tag, R-TAG sequence number, AN
and PN of its SecTAG, and its payload: a datagram's, or the address that an ARP or neighbour answer gives as the port's own. -/
structure EthFrame where
  dest : EthDest
  cls : Nat
  tag : Option (Nat × Nat)
  rtag : Option Nat
  sec : Option (Nat × Nat)
  payload : List Byte
  deriving DecidableEq, Repr

/-- A MACsec association installed by SEC_SAK: channel (0 transmit, 1 or 2 receive), AN, 256-bit cipher, packet number (next to send, or
lowest accepted), key. -/
structure Assoc where
  channel : Nat
  an : Nat
  wide : Bool
  pn : Nat
  key : List Byte
  deriving DecidableEq, Repr

/-- An Ethernet MAC beside its registers: receipt destinations by class, associations (oldest first) and the AN transmitted with,
R-TAG sequence number of the next frame sent, sequence recovery (R423: any number is taken, the number recovered last, history bits),
start of the gate cycle (R422), start of the time |offset| has stayed below 1 µs and the peer delay in ns (R421), the frame last sent, the
hosts whose address requests wait for their answer (R411), and frames received, sent, discarded, MACsec discards and duplicates of the epoch. -/
structure EthSt where
  dests : FMap EthDest
  assocs : List Assoc
  txAn : Option Nat
  seqTx : Nat
  takeAny : Bool
  recov : Nat
  hist : Nat
  gateAt : Nat
  goodSince : Option Nat
  delay : Nat
  out : Option EthFrame
  answers : List EthDest
  received : Nat
  sent : Nat
  discarded : Nat
  msDrop : Nat
  dups : Nat
  deriving DecidableEq, Repr

/-- A running key command (R429): action, slot and key material. -/
structure KeyCmd where
  action : Nat
  slot : Nat
  data : List Byte
  deriving DecidableEq, Repr

/-- The security unit: fused image-key digests and MRAM key records by slot, revoked slots, the debug key, franking keys and those that
apply from the next boundary, the running key command, the debug challenge in force, failed responses and a verified response since
reset, a failed health test, the session counter's MRAM write has succeeded, and the counter's copy in MRAM (R426). -/
structure SecSt where
  digests : FMap (List Byte)
  records : FMap (List Byte)
  revoked : Nat
  debugKey : Option (List Byte)
  fks : FMap (List Byte)
  fkNext : List (Nat × List Byte)
  cmd : Option KeyCmd
  challenge : Option (List Byte)
  fails : Nat
  unlocked : Bool
  trngBad : Bool
  sessionWritten : Bool
  sessionMram : Nat
  deriving DecidableEq, Repr

/-- What a system reset keeps of the security unit: fuses and MRAM. A key that waits for the boundary is in MRAM. -/
def SecSt.atReset (x : SecSt) : SecSt :=
  ⟨x.digests, x.records, x.revoked, x.debugKey, x.fkNext.foldl (fun m p => FMap.put m p.1 p.2) x.fks, [], none, none, 0, false, false, false, x.sessionMram⟩

/-- The debug module (R434): dmactive, hartsel, the data register of abstract commands, their error code cmderr, the system bus error
sberror of the RISC-V debug specification, and the program buffer's 8 words. -/
structure DbgSt where
  active : Bool
  hartsel : Nat
  data : Word
  cmderr : Nat
  sberror : Nat
  buf : FMap Word
  deriving DecidableEq, Repr

/-- The recovery record of R435, in MRAM: the UNITS records of CAN0 and ETH0 (empty where there was none) and the THRESH records of ETH0
at the last admission. -/
structure RecoveryRec where
  can : List Byte
  eth : List Byte
  thresh : List (List Byte)
  deriving DecidableEq, Repr

/-- Pins that have no register: the PPS pulse (R465), and the JTAG instruction in force, with the levels that EXTEST drives on the boundary
cells (R433). -/
structure PinSt where
  pps : Bool
  jtag : JtagOp
  deriving DecidableEq, Repr

/-! ## The whole state -/

/-- The answer of the latest access by a core, the debugger or a letter: a status and the data returned (the block's
bus output, R4). -/
structure Resp where
  status : Status
  data : Nat
  deriving DecidableEq, Repr

/-- What the maps give a register that nothing has changed since reset. -/
def regDefault (a : Nat) : Word := BitVec.ofNat 32 (resetWord a)

/-- What a byte of memory that nothing has written reads as: 0 (SRAM, TCM, queue and table memory are initialised to
zero at the start, R355; for MRAM the value is a DESIGN CHOICE, log 3). -/
def memDefault (_ : Nat) : Byte := 0

/-- A unit after reset is OFF (Table PST-22). -/
def unitDefault (_ : Nat) : UnitRec := ⟨.off, 0⟩

/-- The machine's state. -/
structure State where
  /-- The variant that the fuses fix (R1). -/
  variant : Variant
  /-- BOOT_SPLIT as sampled at reset: split mode (R314). -/
  split : Bool
  /-- The level of BOOT_SPLIT, which the release of a system or power-on reset samples into `split` (R316). -/
  bootSplit : Bool
  /-- The rate correction of the time of record in ppb (R421). -/
  rate : Int
  /-- What the rate correction has added up to below 1 ns, in 10⁻⁹ ns. -/
  frac : Int
  /-- The time of record in ns, 64 bits (R25). -/
  time : Nat
  /-- Nanoseconds that have passed in all: what no reset clears counts its times by it, since a system reset restarts the time of record. -/
  up : Nat
  /-- Registers by address; an unlisted one has its reset value. -/
  regs : FMap Word
  /-- Memory bytes by storage key. -/
  mem : FMap Byte
  /-- Codewords with bytes in error: by storage key of the codeword, the (byte index, XOR) pairs. -/
  err : FMap (List (Nat × Byte))
  /-- Unit records of the post office by unit code. -/
  units : FMap UnitRec
  /-- The post office. -/
  po : PostOffice
  /-- The admitted structure image. -/
  img : Option Image
  /-- The slot that the running image came from: 0 for A, 1 for B. -/
  imgSlot : Nat
  /-- A fallback image is running (R64). -/
  fallback : Bool
  /-- The structure slots' check (R65). -/
  icheck : CheckState
  /-- The firmware slots' check (R431). -/
  fcheck : CheckState
  /-- The non-volatile store's queues. -/
  nvs : NvsState
  /-- The field engines by number. -/
  eng : FMap Engine
  /-- The modulator and the gate links. -/
  mdl : ModSt
  /-- GF_n levels after their filters (an open line reads low). -/
  gf : FMap Bool
  /-- The round converters. -/
  rnd : FMap RndSt
  /-- The position sources. -/
  pos : FMap PosSt
  /-- The SENT inputs. -/
  sent : FMap SentSt
  /-- Traction and chopper functions by number. -/
  tra : FMap TraSt
  /-- The charger. -/
  chg : ChgSt
  /-- HLV functions by number. -/
  hlv : FMap HlvSt
  /-- The 12 V regulator. -/
  rgl : RegSt
  /-- Actuator channels by number. -/
  act : FMap ActSt
  /-- The gearbox sequencer. -/
  gbx : GbxSt
  /-- The energy ledger and planner. -/
  ldg : LdgSt
  /-- The cores (a pair's main core in paired mode, a split core in split mode). -/
  cores : FMap CoreSt
  /-- The pairs' lockstep state. -/
  lsc : FMap PairSt
  /-- The safe-state manager. -/
  ssm : SsmSt
  /-- The reset controller; the reset state is that of a device whose power-on reset is still held. -/
  rst : RstSt
  /-- The event controller. -/
  evc : EvcSt
  /-- DRIVE_EN as filtered. -/
  driveEn : Bool
  /-- ACT_EN as filtered. -/
  actEn : Bool
  /-- The always-on domain. -/
  aon : AonSt
  /-- The pin-hold logic. -/
  pads : PadSt
  /-- The thermal unit. -/
  thm : ThmSt
  /-- The CAN controllers by number. -/
  can : FMap CanSt
  /-- The Ethernet MACs by number. -/
  eth : FMap EthSt
  /-- The security unit. -/
  sec : SecSt
  /-- The debug module. -/
  dbg : DbgSt
  /-- Pins without a register. -/
  pins : PinSt
  /-- The recovery record (R435). -/
  recovery : Option RecoveryRec
  /-- Offsets of table codewords whose restoration met an uncorrectable MRAM codeword since the last system reset (R446). -/
  restFail : List Nat
  /-- The codeword address behind MEM_LASTINFO, which a read copies into MEM_LASTADDR (R450). -/
  memCap : Nat
  /-- The MRAM write window is closed (R384). -/
  mramClosed : Bool
  /-- Failed attempts in a row of a transfer on a die-to-die link (R21), with the time of the last one, by `linkKey` of its kind and number. -/
  linkTries : FMap (Nat × Nat)
  /-- The answer of the latest access. -/
  resp : Resp
  /-- MODEL'S OWN: the count of free values drawn so far; each free value is an opaque constant of Config applied to it. -/
  tick : Nat
  /-- The commands that wait, first in, first out. -/
  pending : List Instr
  deriving DecidableEq, Repr

/-- Reasons the machine stops with a fault: none. Every command of the table has a next state; an access the spec
refuses is answered by an error response (R4), which is a next state too. -/
inductive Fault where
  deriving DecidableEq, Repr

/-- Reasons the machine refuses a command. -/
inductive Refusal where
  /-- A row of the table without a meaning, by its mnemonic. Raised by `exec` only; safe: nothing is claimed of it. -/
  | notModelled (mnemonic : String)
  deriving DecidableEq, Repr

/-- What one command answers. -/
abbrev Out := Host.Outcome State Fault Refusal

/-- The machine right after reset: every register at its reset value, every unit OFF, nothing in memory, no command
waiting. -/
def State.reset : State where
  variant := .f
  split := false
  bootSplit := false
  rate := 0
  frac := 0
  time := 0
  up := 0
  regs := []
  mem := []
  err := []
  units := []
  po := ⟨[], [], [], 0, [], 0, [], [], [], [], ⟨0, 0⟩, ⟨0, 0⟩, 0⟩
  img := none
  imgSlot := 0
  fallback := false
  icheck := ⟨none, false, [], 0⟩
  fcheck := ⟨none, false, [], 0⟩
  nvs := ⟨[], false, [], 0, 0, false, [], []⟩
  eng := []
  mdl := ⟨[], [], [], [], [], [], [], [], 0⟩
  gf := []
  rnd := []
  pos := []
  sent := []
  tra := []
  chg := chgReset
  hlv := []
  rgl := ⟨0, 0, 0, 0, [], 7, [], 0, false, false, none, 0, 0, 0, 0, false, [], 0, 0, [], [], [], 0, none, 0, 0, 0, 0, none⟩
  act := []
  gbx := ⟨0, 0, 0, 0, 0, 0, 0, 0, false, false, false, false, false, .done, 0, 0, 0, false, false⟩
  ldg := ⟨[], [], [], [], [], none, 0, 0, 0, 0, 0, 0, [], (0, 0, 0)⟩
  cores := []
  lsc := []
  ssm := ⟨[], 0, 0, 0, 0, 0, false, [], false, [], 0, 0, 0, 0, none, []⟩
  rst := ⟨[], 0, false, 0, 0, false, 5, 15, true, false, 0, false, false, false, false, false, false, 0, [], [], 0, 0⟩
  evc := ⟨[], [], []⟩
  driveEn := false
  actEn := false
  aon := ⟨0, 0, 0, 0, 0, 0, 0, false⟩
  pads := ⟨[], [], false, [], [], 0, false, none, 0⟩
  thm := ⟨[], [], 0, 0, 0, 0⟩
  can := []
  eth := []
  sec := ⟨[], [], 0, none, [], [], none, none, 0, false, false, false, 0⟩
  dbg := ⟨false, 0, 0, 0, 0, []⟩
  pins := ⟨false, .idcode⟩
  recovery := none
  restFail := []
  memCap := 0
  mramClosed := false
  linkTries := []
  resp := ⟨.done, 0⟩
  tick := 0
  pending := []

end Sys2Proof.Machine
end

