-- ==== Sys2Proof/Machine/Ops.lean ====
section
/-!
DEFINITION. The named operations over registers, unit records, memory, the event journal, receipts and the list of
hardware-originated transitions. Every family is written over these.
Choices of the model: log 19, 71, 135.
-/
namespace Sys2Proof

/-- The pigeonhole byte of a dead-letter entry: 0xFF for a management letter. -/
def Src.phByte : Src → Nat
  | .ph n => n
  | .mgmt => 0xFF

end Sys2Proof

namespace Sys2Proof.Machine

/-! ### Registers -/

/-- The register at an address. -/
def State.reg (s : State) (a : Nat) : Word := FMap.get regDefault s.regs a

/-- The state with a register replaced. -/
def State.setReg (s : State) (a : Nat) (w : Word) : State := { s with regs := FMap.set regDefault s.regs a w }

/-- A field of a register. -/
def State.fld (s : State) (a : Nat) (f : Fld) : Nat := getF (s.reg a) f

/-- One bit field of a register as a truth value. -/
def State.flag (s : State) (a : Nat) (f : Fld) : Bool := s.fld a f != 0

/-- The state with a field of a register replaced. -/
def State.setFld (s : State) (a : Nat) (f : Fld) (v : Nat) : State := s.setReg a (setF (s.reg a) f v)

/-- The state with a flag of a register set. -/
def State.setFlag (s : State) (a : Nat) (f : Fld) : State := s.setFld a f 1

/-- The state with a flag of a register cleared. -/
def State.clrFlag (s : State) (a : Nat) (f : Fld) : State := s.setFld a f 0

/-- A field counted up by one; it wraps. -/
def State.incFld (s : State) (a : Nat) (f : Fld) : State := s.setFld a f (s.fld a f + 1)

/-- A field counted up by one; it saturates. -/
def State.incSat (s : State) (a : Nat) (f : Fld) : State :=
  s.setFld a f (satU (f.hi + 1 - f.lo) (s.fld a f + 1))

/-- A signed field of a register. -/
def State.sfld (s : State) (a : Nat) (f : Fld) : Int := toSigned (f.hi + 1 - f.lo) (s.fld a f)

/-- The state with a signed field replaced (saturated). -/
def State.setSfld (s : State) (a : Nat) (f : Fld) (v : Int) : State :=
  s.setFld a f (ofSigned (f.hi + 1 - f.lo) (satS (f.hi + 1 - f.lo) v))

/-- The state with bit `i` of a multi-bit field set. -/
def State.setBit (s : State) (a : Nat) (f : Fld) (i : Nat) : State :=
  if bitAt (s.fld a f) i then s else s.setFld a f (s.fld a f + 2 ^ i)

/-- The state with bit `i` of a multi-bit field cleared. -/
def State.clrBit (s : State) (a : Nat) (f : Fld) (i : Nat) : State :=
  if bitAt (s.fld a f) i then s.setFld a f (s.fld a f - 2 ^ i) else s

/-- Apply an update for each element of a list, in order. -/
def State.each {α : Type} (s : State) (l : List α) (f : State → α → State) : State := l.foldl f s

/-- The current postmark (R81). -/
def State.pm (s : State) : Nat := (s.reg R.PST_PM).toNat

/-- The state stands at an epoch boundary: no time has passed since it. -/
def State.atBoundary (s : State) : Bool := s.po.boundaryAt == s.time

/-- The postmark after another: 0xFFFF_FFFF is followed by 1, and 0 is never used (R81). -/
def pmNext (n : Nat) : Nat := if n ≥ 0xFFFFFFFF then 1 else n + 1

/-- Postmark a is before postmark b (R81). -/
def pmBefore (a b : Nat) : Bool :=
  let d := (b + 2 ^ 32 - a % 2 ^ 32) % 2 ^ 32
  1 ≤ d && d ≤ 0x7FFFFFFF

/-! ### Variants and unit codes -/

/-- Engines, pairs, split cores, actuator channels, actuator legs, 12 V phases, gate links and pool legs of a
variant (Table SCO-1). -/
def Variant.fes : Variant → Nat | .f => 8 | .d => 6 | .s => 4
def Variant.pairs : Variant → Nat | .f => 4 | .d => 4 | .s => 2
def Variant.cores : Variant → Nat | .f => 8 | .d => 8 | .s => 4
def Variant.acs : Variant → Nat | .f => 4 | .d => 4 | .s => 2
def Variant.abs : Variant → Nat | .f => 12 | .d => 12 | .s => 6
def Variant.bps : Variant → Nat | .f => 8 | .d => 8 | .s => 4
def Variant.glks : Variant → Nat | .f => 8 | .d => 6 | .s => 4
def Variant.legs : Variant → Nat | .f => 48 | .d => 32 | .s => 24
/-- Whether the variant has the charger and its templates (Table SCO-1). -/
def Variant.chg : Variant → Bool | .f => true | _ => false
/-- SYS_CAP0 of a variant (Table SCO-5). -/
def Variant.cap0 : Variant → Nat | .f => 0x70FFFFFF | .d => 0x20FFFF3F | .s => 0x180F330F
/-- SYS_CAP1 of a variant (Table SCO-6). -/
def Variant.cap1 : Variant → Nat | .f => 0x000FFFFF | .d => 0x000FFF3F | .s => 0x00003F0F

/-- Unit codes of Table PST-4. -/
def U.po : Nat := 0x00
def U.sec : Nat := 0x01
def U.ssm : Nat := 0x02
def U.ldg : Nat := 0x03
def U.thm : Nat := 0x04
def U.nvs : Nat := 0x05
def U.rst : Nat := 0x06
def U.gbx : Nat := 0x07
def U.chg : Nat := 0x08
def U.reg : Nat := 0x09
def U.fn (f : Nat) : Nat := 0x10 + f
def U.fe (n : Nat) : Nat := 0x20 + n
def U.ac (k : Nat) : Nat := 0x28 + k
def U.rnd (r : Nat) : Nat := 0x2C + r
def U.pos : Nat := 0x2E
def U.sent : Nat := 0x2F
def U.can (n : Nat) : Nat := 0x30 + n
def U.eth (p : Nat) : Nat := 0x38 + p
def U.pair (n : Nat) : Nat := 0x40 + n
def U.core (n : Nat) : Nat := 0x48 + n

/-- A unit code is in Table PST-4. -/
def unitKnown (u : Nat) : Bool :=
  u ≤ 9 || (0x10 ≤ u && u ≤ 0x35) || u == 0x38 || u == 0x39 || (0x40 ≤ u && u ≤ 0x43) || (0x48 ≤ u && u ≤ 0x4F)

/-- The unit is not fused off in the variant (R1, R2). -/
def unitPresent (v : Variant) (u : Nat) : Bool :=
  unitKnown u &&
  (if u == U.chg then v.chg
   else if 0x20 ≤ u && u < 0x28 then u - 0x20 < v.fes
   else if 0x28 ≤ u && u < 0x2C then u - 0x28 < v.acs
   else if 0x40 ≤ u && u < 0x44 then u - 0x40 < v.pairs
   else if 0x48 ≤ u && u < 0x50 then u - 0x48 < v.cores
   else true)

/-- The state of record of a unit; ABSENT where it is fused off (R3, R15). -/
def State.ust (s : State) (u : Nat) : UState :=
  if unitPresent s.variant u then (FMap.get unitDefault s.units u).st else .absent

/-- The postmark of a unit's last change of state. -/
def State.ustPm (s : State) (u : Nat) : Nat := (FMap.get unitDefault s.units u).pm

/-- Change a unit's state of record, with the postmark of the change (R15, R75). -/
def State.setUst (s : State) (u : Nat) (st : UState) : State :=
  if s.ust u = st || !unitPresent s.variant u then s
  else { s with units := FMap.set unitDefault s.units u (UnitRec.mk st s.pm) }

/-- The code of a state of record (Table PST-5). -/
def UState.code : UState → Nat
  | .absent => 0 | .off => 1 | .idle => 2 | .armed => 3 | .running => 4 | .stopping => 5 | .fault => 6

/-- The code of a status (Table SCO-11). -/
def Status.code : Status → Nat
  | .done => 0x00 | .accepted => 0x01 | .eRange => 0x10 | .eAbsent => 0x11 | .eState => 0x12 | .eDeadline => 0x13
  | .eBudget => 0x14 | .eFrank => 0x15 | .eSeq => 0x16 | .eFull => 0x17 | .eTooLate => 0x18 | .eFormat => 0x19
  | .eLocked => 0x1A | .eTemp => 0x1B | .eInterlock => 0x1C | .eWithdrawn => 0x1D | .eAborted => 0x1E
  | .eFault => 0x1F | .adm c => c

/-- DONE and ACCEPTED report success (R13). -/
def Status.ok : Status → Bool
  | .done => true | .accepted => true | _ => false

/-! ### Memory bytes -/

/-- A byte of memory at its storage key: the bus address, or for TCM a key of the owner's own (17). -/
def State.byte (s : State) (a : Nat) : Byte := FMap.get memDefault s.mem a

/-- The state with one byte of memory replaced. -/
def State.setByte (s : State) (a : Nat) (b : Byte) : State := { s with mem := FMap.set memDefault s.mem a b }

/-- n bytes of memory from an address. -/
def State.bytes (s : State) (a n : Nat) : List Byte := (List.range n).map fun i => s.byte (a + i)

/-- The state with a list of bytes stored from an address. -/
def State.setBytes : State → Nat → List Byte → State
  | s, _, [] => s
  | s, a, b :: t => State.setBytes (s.setByte a b) (a + 1) t

/-! ### K-code errors held with a codeword (R445, R451) -/

/-- A codeword without errors. -/
def errDefault (_ : Nat) : List (Nat × Byte) := []

/-- The bytes of a codeword in error, as (index 0 to 39, XOR) pairs. -/
def State.errAt (s : State) (cw : Nat) : List (Nat × Byte) := FMap.get errDefault s.err cw

/-- Replace a codeword's error vector. -/
def State.setErr (s : State) (cw : Nat) (e : List (Nat × Byte)) : State := { s with err := FMap.set errDefault s.err cw e }

/-- A write to a codeword of a store leaves it without errors, but for the check bytes that MEM_INJ inverts: the
injection of its store happens and MEM_INJ clears itself (R451). -/
def State.wroteCw (s : State) (store cw : Nat) : State :=
  let mask := s.fld R.MEM_INJ F.MEM_INJ_MASK
  if mask ≠ 0 ∧ s.fld R.MEM_INJ F.MEM_INJ_STORE = store then
    (s.setErr cw (((List.range 8).filter (bitAt mask)).map fun j => (32 + j, (0xFF : Byte)))).setReg R.MEM_INJ 0
  else s.setErr cw []

/-- The storage key of the first codeword of queue-memory slot i. -/
def slotKey (i : Nat) : Nat := 0x2C000000 + 64 * i

/-- A slot of queue memory has been written: both of its codewords are without errors. -/
def State.wroteSlot (s : State) (i : Nat) : State := (s.wroteCw 3 (slotKey i)).wroteCw 3 (slotKey i + 32)

/-! ### The event journal (R455) -/

/-- The sequence after another; 0 is skipped. -/
def seqNext (n : Nat) : Nat := if n ≥ 0xFFFFFFFF then 1 else n + 1

/-- Make a journal entry. It enters the buffer of 64; an entry that finds the buffer full is lost, counted in
NVS_JLOST and, for dead letters, in PST_DLJ_LOST (R96, R455). DESIGN CHOICE (log 197): PST_DLJ_CNT counts an entry as written when it
enters the buffer. -/
def State.journal (s : State) (typ : Nat) (body : List Byte) : State :=
  if s.nvs.jbuf.length < 64 then
    let sq := (s.reg R.NVS_JSEQ).toNat
    let s1 : State := { s with nvs := { s.nvs with jbuf := s.nvs.jbuf ++ [JEntry.mk sq typ s.pm s.time body] } }
    let s2 := s1.setReg R.NVS_JSEQ (BitVec.ofNat 32 (seqNext sq))
    if typ = 1 then s2.incFld R.PST_DLJ_CNT F.PST_DLJ_CNT_COUNT else s2
  else
    let s1 := (s.incSat R.NVS_JLOST F.NVS_JLOST_COUNT).setFlag R.NVS_EVT F.NVS_EVT_JLOST
    if typ = 1 then s1.incSat R.PST_DLJ_LOST F.PST_DLJ_LOST_COUNT else s1

/-- A type 4 entry: unit, cause and the first 28 bytes of the unit's collection record (R455). -/
def State.journalFault (s : State) (unit cause : Nat) (record : List Byte) : State :=
  s.journal 4 (leBytes 1 unit ++ leBytes 1 cause ++ [0, 0] ++ padTo 28 record)

/-- A type 9 entry: unit, event code and 28 bytes as the unit's chapter states (R455). -/
def State.journalEvent (s : State) (unit code : Nat) (data : List Byte) : State :=
  s.journal 9 (leBytes 1 unit ++ leBytes 1 code ++ [0, 0] ++ padTo 28 data)

/-! ### Hardware-originated transitions and operations (R32, R33, R89) -/

/-- Record a hardware-originated transition for the next boundary. -/
def State.hwAdd (s : State) (e : HwEvent) : State := { s with po := { s.po with hw := s.po.hw ++ [e] } }

/-- The unit faults: FAULT at the next boundary (R32). A unit that already has a fault pending stays so. -/
def State.hwFault (s : State) (u : Nat) : State :=
  if s.po.hw.contains (.fault u) then s else s.hwAdd (.fault u)

/-- A completion or another hardware transition of a unit's state. -/
def State.hwMove (s : State) (u : Nat) (froms : List UState) (dst : UState) : State := s.hwAdd (.move u froms dst)

/-- The end of an operation is already recorded. -/
def HwEvent.ends (key : Nat) : HwEvent → Bool
  | .finish k _ _ => k == key
  | _ => false

/-- An operation ends with a status and a result; its receipt is placed at the next boundary (R89). An operation ends once. -/
def State.hwFinish (s : State) (key : Nat) (st : Status) (result : List Byte) : State :=
  if s.po.hw.any (HwEvent.ends key) then s else s.hwAdd (.finish key st result)

/-- The unit has a fault that waits for the boundary. -/
def State.faultPending (s : State) (u : Nat) : Bool := s.po.hw.contains (.fault u)

/-- The outstanding operations, as (key, entry) pairs. -/
def State.opList (s : State) : List (Nat × OpEntry) := s.po.ops

/-- An outstanding operation of a unit with an opcode, the oldest if several. -/
def State.findOp (s : State) (unit opcode : Nat) : Option (Nat × OpEntry) :=
  s.po.ops.find? fun p => p.2.unit == unit && p.2.opcode == opcode

/-- End the oldest outstanding operation of a unit with an opcode, if there is one. -/
def State.finishOp (s : State) (unit opcode : Nat) (st : Status) (result : List Byte) : State :=
  match s.findOp unit opcode with
  | none => s
  | some (k, _) => s.hwFinish k st result

/-- The entry an empty key of the outstanding table reads as. -/
def opDefault (_ : Nat) : OpEntry := ⟨.mgmt, 0, 0, 0, 0, 0, 0, .none⟩

/-- The number of outstanding operations (PST_OUTST.COUNT). -/
def State.opCount (s : State) : Nat := s.po.ops.length

/-- Keep PST_OUTST.COUNT equal to the number of entries. -/
def State.syncOutst (s : State) : State := s.setFld R.PST_OUTST F.PST_OUTST_COUNT s.opCount

/-- Take an entry of the outstanding table for an accepted letter; answers the key (R89). -/
def State.openOp (s : State) (m : Msg) : State × Nat :=
  let k := s.po.nextOp
  let e : OpEntry := ⟨m.src, m.letter.opcode, m.letter.unit, m.letter.flags, m.letter.seq, m.letter.deadline, s.pm, .none⟩
  (State.syncOutst { s with po := { s.po with ops := FMap.put s.po.ops k e, nextOp := k + 1 } }, k)

/-- Remove an entry of the outstanding table. -/
def State.closeOp (s : State) (k : Nat) : State :=
  State.syncOutst { s with po := { s.po with ops := FMap.erase s.po.ops k } }

/-- Mark an outstanding operation as being stopped. -/
def State.markStop (s : State) (k : Nat) (why : StopKind) : State :=
  { s with po := { s.po with ops := s.po.ops.map fun p => if p.1 = k then (p.1, { p.2 with stop := why }) else p } }

/-! ### Transfers on the die-to-die links (R21) -/

/-- The key of a transfer on a link: its kind and its number. -/
def linkKey (kind n : Nat) : Nat := kind * 65536 + n % 65536

/-- The failed attempts in a row of a transfer: a transfer is made again at once, so that a failure more than 2 µs before belongs to another
one (log 232). -/
def State.tries (s : State) (kind n : Nat) : Nat :=
  match FMap.get (fun _ => (0, 0)) s.linkTries (linkKey kind n) with
  | (k, at_) => if s.time ≤ at_ + 2000 then k else 0

/-- Record the failed attempts of a transfer. -/
def State.setTries (s : State) (kind n v : Nat) : State :=
  { s with linkTries := if v = 0 then FMap.erase s.linkTries (linkKey kind n) else FMap.put s.linkTries (linkKey kind n) (v, s.time) }

/-- A transfer has succeeded. -/
def State.linkDone (s : State) (kind n : Nat) : State := s.setTries kind n 0

/-! ### Pigeonholes and receipts (R76, R91, R92) -/

/-- What a pigeonhole without a listed record holds. -/
def pigeonDefault (_ : Nat) : Pigeon := ⟨[], 0, 0⟩

/-- What an untouched queue-memory slot holds. -/
def slotDefault (_ : Nat) : Slot := .empty

def State.pigeon (s : State) (n : Nat) : Pigeon := FMap.get pigeonDefault s.po.ph n
def State.setPigeon (s : State) (n : Nat) (p : Pigeon) : State :=
  { s with po := { s.po with ph := FMap.set pigeonDefault s.po.ph n p } }
def State.slot (s : State) (i : Nat) : Slot := FMap.get slotDefault s.po.slots i
def State.setSlot (s : State) (i : Nat) (x : Slot) : State :=
  { s with po := { s.po with slots := FMap.set slotDefault s.po.slots i x } }

/-- The pigeonhole is declared by the active image. -/
def State.phEn (s : State) (n : Nat) : Bool := n < 64 && s.flag (R.PHn_CFG n) F.PHn_CFG_EN
def State.phIsReceipt (s : State) (n : Nat) : Bool := s.flag (R.PHn_CFG n) F.PHn_CFG_DIR
def State.phClass (s : State) (n : Nat) : Nat := s.fld (R.PHn_CFG n) F.PHn_CFG_CLASS
def State.phProducer (s : State) (n : Nat) : Nat := s.fld (R.PHn_CFG n) F.PHn_CFG_PRODUCER
def State.phConsumer (s : State) (n : Nat) : Nat := s.fld (R.PHn_CFG n) F.PHn_CFG_CONSUMER
/-- The ring size in letters. -/
def State.phSize (s : State) (n : Nat) : Nat := 2 ^ s.fld (R.PHn_CFG n) F.PHn_CFG_SIZE
def State.phHead (s : State) (n : Nat) : Nat := s.fld (R.PHn_HEAD n) F.PHn_HEAD_INDEX
def State.phTail (s : State) (n : Nat) : Nat := s.fld (R.PHn_TAIL n) F.PHn_TAIL_INDEX

/-- The distance from one ring index to a later one; indices count modulo twice the ring size (Table PST-26). -/
def ringDist (size a b : Nat) : Nat := (b + 2 * size - a % (2 * size)) % (2 * size)

/-- Letters or receipts in a ring. -/
def State.phCount (s : State) (n : Nat) : Nat := ringDist (s.phSize n) (s.phHead n) (s.phTail n)

/-- The slot of queue memory that a ring index names (R77). -/
def State.phSlot (s : State) (n idx : Nat) : Nat :=
  s.fld (R.PHn_BASE n) F.PHn_BASE_OFFSET / 64 + idx % s.phSize n

/-- Receipts placed and not yet signalled. -/
def State.phHeld (s : State) (n : Nat) : Nat := ringDist (s.phSize n) (s.pigeon n).signalled (s.phTail n)

/-- Keep PHn_STAT.HELD equal to "at least one receipt is held". -/
def State.syncHeld (s : State) (n : Nat) : State := s.setFld (R.PHn_STAT n) F.PHn_STAT_HELD (b2n (s.phHeld n != 0))

/-- Signal every held receipt of a receipt pigeonhole (R92). -/
def State.signalAll (s : State) (n : Nat) : State :=
  (s.setPigeon n { s.pigeon n with signalled := s.phTail n }).syncHeld n

/-- The bit of PST_SLEEP that a core's unit code owns (Table PST-14). -/
def sleepBit (code : Nat) : Option Nat :=
  if 0x40 ≤ code && code < 0x44 then some (code - 0x40)
  else if 0x48 ≤ code && code < 0x50 then some (8 + (code - 0x48))
  else none

/-- The host with a unit code is announced asleep (R93). -/
def State.asleep (s : State) (code : Nat) : Bool :=
  match sleepBit code with
  | none => false
  | some b => bitAt (s.reg R.PST_SLEEP).toNat b

/-- Place a receipt at the tail of a receipt ring and signal it or hold it (R92, R93). -/
def State.placeReceipt (s : State) (n : Nat) (r : Receipt) : State :=
  let t := s.phTail n
  let s1 := ((s.setSlot (s.phSlot n t) (.receipt r)).wroteSlot (s.phSlot n t)).setFld (R.PHn_TAIL n) F.PHn_TAIL_INDEX ((t + 1) % (2 * s.phSize n))
  let now := s.fld (R.PHn_MOD n) F.PHn_MOD_COUNT ≤ s1.phHeld n
    || (s.flag (R.PHn_MOD n) F.PHn_MOD_FLUSH_SLEEP && s.asleep (s.phConsumer n))
  if now then s1.signalAll n else s1.syncHeld n

/-- The receipt pigeonhole of a consumer for a class: the lowest-numbered of the class, else the lowest-numbered (R91). -/
def State.receiptOf (s : State) (consumer cls : Nat) : Option Nat :=
  let mine := (List.range 64).filter fun n => s.phEn n && s.phIsReceipt n && s.phConsumer n == consumer
  match mine.find? fun n => s.phClass n == cls with
  | some n => some n
  | none => mine.head?

/-- The receipt pigeonhole that the receipts of a letter of a class go to: the consumer is the producer of the letter's pigeonhole (R91). -/
def State.receiptPh (s : State) (ph cls : Nat) : Option Nat := s.receiptOf (s.phProducer ph) cls

/-- Where a receipt went (R477). -/
inductive Placed where
  | ring (ph index : Nat)
  | journal
  | nowhere
  deriving DecidableEq, Repr

/-- The 64 bytes of a letter (Table PST-1). -/
def letterBytes (l : Letter) : List Byte :=
  leBytes 2 l.opcode ++ leBytes 1 l.unit ++ leBytes 1 l.flags ++ leBytes 4 l.seq ++ leBytes 4 l.deliverAt
    ++ leBytes 4 l.deadline ++ padTo 40 l.body ++ padTo 8 l.frank

/-- The 64 bytes of a receipt (Table PST-2); its FRANK is zero. -/
def receiptBytes (r : Receipt) : List Byte :=
  leBytes 2 r.opcode ++ leBytes 1 r.unit ++ leBytes 1 r.status.code ++ leBytes 4 r.seq ++ leBytes 4 r.pmDelivered
    ++ leBytes 4 r.pmCompleted ++ padTo 40 r.result ++ List.replicate 8 0

/-- A dead-letter entry (Table PST-10). -/
def State.deadLetter (s : State) (item : List Byte) (st : Status) (ph stage : Nat) : State :=
  s.journal 1 (item ++ leBytes 4 s.pm ++ leBytes 1 st.code ++ leBytes 1 ph ++ leBytes 1 stage ++ [0] ++ leBytes 8 s.time)

/-- Send a receipt that is due for a letter of a class: to its ring, or to the dead-letter journal where the ring is full or no destination
exists (R91, R420). Log 254. -/
def State.sendReceipt (s : State) (ph cls : Nat) (r : Receipt) : State × Placed :=
  match s.receiptPh ph cls with
  | none => (s.deadLetter (receiptBytes r) r.status ph 3, .journal)
  | some n =>
    if s.phCount n ≥ s.phSize n then
      ((s.setFlag (R.PHn_STAT n) F.PHn_STAT_OVERFLOW).deadLetter (receiptBytes r) r.status n 3, .journal)
    else (s.placeReceipt n r, .ring n (s.phTail n))

/-- Issue a receipt (R72): with RCPT 1 for every outcome, with RCPT 0 only for a failure. A management letter has
RCPT 0 and no pigeonhole: it gets no receipt, its failure is captured in PST_MERR (R88). -/
def State.issueReceipt (s : State) (src : Src) (flags : Nat) (r : Receipt) : State × Placed :=
  match src with
  | .mgmt => (s, .nowhere)
  | .ph n => if bitAt flags 2 || !r.status.ok then s.sendReceipt n (flags % 4) r else (s, .nowhere)

/-- Capture a refused access in SYS_WERR (R10, R12). -/
def State.captureWerr (s : State) (st : Status) (addr : Nat) : State :=
  let exceeds := s.flag R.SYS_WERR_CODE F.SYS_WERR_CODE_VALID || s.flag R.SYS_WERR_CODE F.SYS_WERR_CODE_OVERRUN
  let s1 := s.setReg R.SYS_WERR_CODE (BitVec.ofNat 32 (b2n exceeds * 512 + 256 + st.code))
  { s1 with po := { s1.po with werr := ⟨addr, s.pm⟩ } }

/-- Capture a converted letter's refusal in PST_MERR (R88). -/
def State.captureMerr (s : State) (st : Status) (addr : Nat) : State :=
  let exceeds := s.flag R.PST_MERR_CODE F.PST_MERR_CODE_VALID || s.flag R.PST_MERR_CODE F.PST_MERR_CODE_OVERRUN
  let s1 := s.setReg R.PST_MERR_CODE (BitVec.ofNat 32 (b2n exceeds * 512 + 256 + st.code))
  { s1 with po := { s1.po with merr := ⟨addr, s.pm⟩ } }

/-- An access answers a word. -/
def State.respond (s : State) (v : Nat) : State := { s with resp := ⟨.done, v⟩ }

/-- The sberror of a debugger's access that failed (log 186): 2, a bad address, for E_RANGE (R434 names it for one case), else 7. -/
def sbCode (st : Status) : Nat := if st = .eRange then 2 else 7

/-- The debug module's report of a failed access (R4). -/
def State.sbFail (s : State) (st : Status) : State := { s with dbg := { s.dbg with sberror := sbCode st } }

/-- An access is refused: an error response without data, captured in SYS_WERR (R4, R12). -/
def State.refuse (s : State) (st : Status) (addr : Nat) : State := { s.captureWerr st addr with resp := ⟨st, 0⟩ }

end Sys2Proof.Machine
end

