-- ==== Sys2Proof/Machine/Image.lean ====
section
/-!
DEFINITION. The structure image taken apart and read by name (02): sections and records, functions and their legs,
engines and their loops, thresholds.
-/
namespace Sys2Proof.Machine

/-! ### Taking an image apart (R42, R44) -/

/-- A record's little-endian field: n bytes from offset i. -/
def rf (r : List Byte) (i n : Nat) : Nat := leAt r i n
/-- A record's signed field. -/
def rfi (r : List Byte) (i n : Nat) : Int := toSigned (8 * n) (leAt r i n)

/-- The first `n` records of a size from a byte list. -/
def records (size : Nat) : Nat → List Byte → List (List Byte)
  | 0, _ => []
  | n + 1, b => b.take size :: records size n (b.drop size)

/-- The first `n` tables: a 32-byte header, then the data padded to 32 bytes (R51). -/
def tableRecords : Nat → List Byte → List TableRec
  | 0, _ => []
  | n + 1, b =>
    let len := leAt b 28 4
    ⟨b.take 32, (b.drop 32).take len⟩ :: tableRecords n (b.drop (32 + (len + 31) / 32 * 32))

/-- The directory entry of section i (0 to 7): type, offset, length, record count. -/
def dirEntry (b : List Byte) (i : Nat) : Nat × Nat × Nat × Nat :=
  let o := 64 + 16 * i
  (leAt b o 2, leAt b (o + 4) 4, leAt b (o + 8) 4, leAt b (o + 12) 4)

/-- The records of section i with a record size. -/
def sectionRecords (b : List Byte) (i size : Nat) : List (List Byte) :=
  let (_, off, _, n) := dirEntry b i
  records size n (b.drop off)

/-- The record sizes of Table SI-3 (TABLES: its header). -/
def recSize : Nat → Nat
  | 0 => 16 | 1 => 8 | 2 => 32 | 3 => 16 | 4 => 32 | 5 => 8 | 6 => 8 | _ => 32

/-- An image from the bytes of its slot. -/
def parseImage (b : List Byte) : Image :=
  let (_, toff, _, tn) := dirEntry b 7
  ⟨b.take 256, sectionRecords b 0 16, sectionRecords b 1 8, sectionRecords b 2 32, sectionRecords b 3 16,
   sectionRecords b 4 32, sectionRecords b 5 8, sectionRecords b 6 8, tableRecords tn (b.drop toff)⟩

/-! ### Records by name -/

def Image.serial (im : Image) : Nat := leAt im.header 12 4
def Image.splitByte (im : Image) : Nat := leAt im.header 17 1

/-- The UNITS record of a unit kind and instance (R45). -/
def Image.unitRec (im : Image) (kind inst : Nat) : Option (List Byte) :=
  im.units.find? fun r => rf r 0 1 == kind && rf r 1 1 == inst

/-- The device record (R45): kind 0. -/
def Image.device (im : Image) : List Byte := (im.unitRec 0 0).getD []

/-- The THRESH value of an identifier and byte 2 (R52). -/
def Image.thresh (im : Image) (id b2 : Nat) : Option Int :=
  (im.threshs.find? fun r => rf r 0 2 == id && rf r 2 1 == b2).map fun r => rfi r 4 4

/-- The LEGS records of a function. -/
def Image.fnLegRecs (im : Image) (f : Nat) : List (List Byte) :=
  im.legs.filter fun r => rf r 1 1 != 0 && rf r 2 1 == f

/-- The leg of a function at a position, of a role. -/
def Image.legAt (im : Image) (f role pos : Nat) : Option Nat :=
  (im.legs.find? fun r => rf r 1 1 == role && rf r 2 1 == f && rf r 3 1 == pos).map fun r => rf r 0 1

/-- The legs of a function in order of role and position. -/
def Image.fnLegs (im : Image) (f : Nat) : List Nat :=
  [1, 2, 3, 4, 5, 6].flatMap fun role => (List.range 6).filterMap fun pos => im.legAt f role pos

/-- The role code of a function (Table SI-4); 0 where it has no leg. A charging DAB answers DBP. -/
def Image.fnRole (im : Image) (f : Nat) : Nat :=
  ((im.fnLegRecs f).map fun r => rf r 1 1).foldl (fun a b => if a = 0 then b else min a b) 0

/-- The LEGS record of a leg. -/
def Image.legRec (im : Image) (n : Nat) : Option (List Byte) := im.legs.find? fun r => rf r 0 1 == n

/-- The LOOPS records of an engine, in record order. -/
def Image.loopsOf (im : Image) (n : Nat) : List (List Byte) := im.loops.filter fun r => rf r 0 1 == n

/-- The LOOPS record of an engine with a template. -/
def Image.loopWith (im : Image) (n tmpl : Nat) : Option (List Byte) :=
  im.loops.find? fun r => rf r 0 1 == n && rf r 1 1 == tmpl

/-- The first LOOPS record of a function with a template that satisfies a test. -/
def Image.fnLoop (im : Image) (f : Nat) (tmpl : Nat → Bool) : Option (List Byte) :=
  im.loops.find? fun r => rf r 2 1 == f && tmpl (rf r 1 1)

/-- The engines of a function: those with a loop of it other than a WIND one. -/
def Image.fnEngines (im : Image) (f : Nat) : List Nat :=
  (im.loops.filter fun r => rf r 2 1 == f && rf r 1 1 != 4).map fun r => rf r 0 1

/-- The engines of a WIND loop of a charger function. -/
def Image.windEngines (im : Image) (f : Nat) : List Nat :=
  (im.loops.filter fun r => rf r 19 1 == f && rf r 1 1 == 4).map fun r => rf r 0 1

/-- The functions that have legs. -/
def Image.functions (im : Image) : List Nat := (List.range 16).filter fun f => im.fnRole f != 0

/-- The SCHED records of a kind. -/
def Image.schedKind (im : Image) (k : Nat) : List (List Byte) := im.sched.filter fun r => rf r 0 1 == k

/-- The LEDGER record of a port. -/
def Image.port (im : Image) (p : Nat) : Option (List Byte) := im.ledger.find? fun r => rf r 0 1 == p

/-- The table of an identifier. -/
def Image.tableId (im : Image) (id : Nat) : Option TableRec := im.tables.find? fun t => rf t.header 0 2 == id

/-- What an image says, through the state: `dflt` while none is admitted. -/
def State.withImg {α : Type} (s : State) (dflt : α) (f : Image → α) : α :=
  match s.img with
  | none => dflt
  | some im => f im

/-- The threshold of an identifier and byte 2 in the active image; a default where there is none. -/
def State.thr (s : State) (id b2 : Nat) (dflt : Int) : Int := s.withImg dflt fun im => (im.thresh id b2).getD dflt

/-- A natural-number threshold. -/
def State.thrN (s : State) (id b2 : Nat) (dflt : Nat) : Nat := (s.thr id b2 dflt).toNat

/-- The role of a function in the active image. -/
def State.fnRole (s : State) (f : Nat) : Nat := s.withImg 0 fun im => im.fnRole f

/-- The legs of a function in the active image. -/
def State.fnLegs (s : State) (f : Nat) : List Nat := s.withImg [] fun im => im.fnLegs f

/-- The engines of a function in the active image. -/
def State.fnEngines (s : State) (f : Nat) : List Nat := s.withImg [] fun im => im.fnEngines f

/-- The function of an engine: of its first loop that is no WIND loop, else of its first loop. -/
def State.fnOfEngine (s : State) (n : Nat) : Option Nat :=
  s.withImg none fun im =>
    match (im.loopsOf n).find? (fun r => rf r 1 1 != 4) with
    | some r => some (rf r 2 1)
    | none => ((im.loopsOf n).head?).map fun r => rf r 2 1

/-- The functions with legs in the active image. -/
def State.functions (s : State) : List Nat := s.withImg [] fun im => im.functions

/-- The DC link of a function: MOD_DCL's field of it. -/
def State.linkOf (s : State) (f : Nat) : Nat := s.fld R.MOD_DCL ⟨2 * f + 1, 2 * f⟩

end Sys2Proof.Machine
end

