-- ==== Sys2Proof/Machine/Drive.lean ====
section
/-!
DEFINITION. Access to the numbered instances of the drive units (engines, functions, legs, links, ports), and the
withdrawal of pre-notices and duties (R116, R292, R299).
Choices of the model: log 32.
-/
namespace Sys2Proof.Machine

/-! ### Instances that nothing has changed -/

/-- The parameter set at reset: FEn_GAINS, FEn_ADAPT and FEn_HCAP at their reset values. -/
def letDefault : LetPar := ⟨0x7A3D4000, 0, 0, 0x800800, 0xCCD, [], 0, 0, 0, 0, ⟨0, 0, 0, 0, 0, 0, 0, 0, 0, 0, false⟩, 0⟩
def parDefault : EngPar := { letDefault with draw := 0, ret := 0, k := 32768, phase := 0, lower := 0, clamp := 0, env := 0, dis := 0 }

def engDefault (_ : Nat) : Engine where
  par := parDefault
  prev := letDefault
  sampleAt := 0
  updAt := 0
  waiting := false
  bad := false
  skip := false
  samp := []
  ang := 0
  spd := 0
  hist := []
  seen := false
  i := (0, 0)
  pred := none
  iprev := (0, 0)
  ir := (0, 0)
  v := (0, 0)
  vp := (0, 0)
  vdc := 0
  iph := []
  calm := 5
  fades := [64, 64, 64, 64]
  outI := 0
  halt := false
  first := true
  rotor := 0
  seq := 0
  notices := []
  power := 0
  cause := 0
  terrAt := 0
  seenFlags := 0
  serr := 0
  late := 0
  wdraw := 0
  pllAng := 0
  pllHz := 0
  adaptL := 4096
  resetAt := none

/-- A leg at admission is in B3 until its first good poll (R130); `td`, `blank`, `minon` follow at admission. -/
def legDefault (_ : Nat) : LegSt := ⟨3, 3, false, false, 0, 0, 0, 0, false⟩
def glLinkDefault (_ : Nat) : GlLink := ⟨0, [], [], none, .none, [], []⟩
def glSlotDefault (_ : Nat) : GlSlot := ⟨0, 0, false, false⟩
def traDefault (_ : Nat) : TraSt :=
  ⟨0, 0, 0, 0, 0, 0, 0xFF, 0, false, 0, 0, true, false, 0, 0, [], 0, none, none, false, false, 0, [], none, none, false, false, 0⟩
def hlvDefault (_ : Nat) : HlvSt := ⟨0, 0, 0, 0, 0, false, 0⟩
def portDefault (_ : Nat) : PortSt := ⟨0, 0, 0, 0, 0, 0, false, false⟩
def linkDefault (_ : Nat) : LinkSt := ⟨0, 32768, none, 0, none, 0, 0, [], 0, 0, 0, 0, none, false, 0, 0, 0, 0⟩
def fnPowDefault (_ : Nat) : FnPow := ⟨0, 0, false, false, false, 0, false⟩
def actDefault (_ : Nat) : ActSt :=
  ⟨0, 0, 100, 0, false, false, false, false, 0, 0, 0, none, 0, [], false, none, false, false, none, 0, [], [], [], [], 0xFF, 0, 0, 0, 0, 0, []⟩

/-! ### Access -/

def State.e (s : State) (n : Nat) : Engine := FMap.get engDefault s.eng n
def State.setE (s : State) (n : Nat) (x : Engine) : State := { s with eng := FMap.set engDefault s.eng n x }
def State.updE (s : State) (n : Nat) (f : Engine → Engine) : State := s.setE n (f (s.e n))

def State.tr (s : State) (f : Nat) : TraSt := FMap.get traDefault s.tra f
def State.updTr (s : State) (f : Nat) (g : TraSt → TraSt) : State :=
  { s with tra := FMap.set traDefault s.tra f (g (s.tr f)) }
/-- A flag bit of record byte 3 is seen in the epoch. -/
def State.trFlag (s : State) (f bit : Nat) : State :=
  s.updTr f fun t => { t with flags := if bitAt t.flags bit then t.flags else t.flags + 2 ^ bit }

/-- CLIP of the traction functions of a link whose return factor is below 1 (R197). -/
def State.clipFlags (s : State) (k : Nat) : State :=
  if 32768 ≤ (FMap.get linkDefault s.ldg.links k).k then s
  else s.each (s.functions.filter fun f => s.fnRole f == 1 && s.linkOf f == k) fun s f => s.trFlag f 1

def State.hl (s : State) (f : Nat) : HlvSt := FMap.get hlvDefault s.hlv f
def State.updHl (s : State) (f : Nat) (g : HlvSt → HlvSt) : State :=
  { s with hlv := FMap.set hlvDefault s.hlv f (g (s.hl f)) }

def State.leg (s : State) (n : Nat) : LegSt := FMap.get legDefault s.mdl.legs n
def State.updLeg (s : State) (n : Nat) (g : LegSt → LegSt) : State :=
  { s with mdl := { s.mdl with legs := FMap.set legDefault s.mdl.legs n (g (s.leg n)) } }

def noVal (_ : Nat) : Option Int := Option.none
def State.shadowOf (s : State) (n : Nat) : Option Int := FMap.get noVal s.mdl.shadow n
def State.setShadow (s : State) (n : Nat) (v : Option Int) : State :=
  { s with mdl := { s.mdl with shadow := FMap.set noVal s.mdl.shadow n v } }
def State.dutyOf (s : State) (n : Nat) : Option Int := FMap.get noVal s.mdl.duty n
def State.setDuty (s : State) (n : Nat) (v : Option Int) : State :=
  { s with mdl := { s.mdl with duty := FMap.set noVal s.mdl.duty n v } }
def edgesDefault (_ : Nat) : Edges := ⟨Option.none, Option.none, Option.none, Option.none, 0⟩
def State.edgesOf (s : State) (n : Nat) : Edges := FMap.get edgesDefault s.mdl.edges n
def State.setEdges (s : State) (n : Nat) (e : Edges) : State :=
  { s with mdl := { s.mdl with edges := FMap.set edgesDefault s.mdl.edges n e } }

def State.glLink (s : State) (k : Nat) : GlLink := FMap.get glLinkDefault s.mdl.links k
def State.updGl (s : State) (k : Nat) (g : GlLink → GlLink) : State :=
  { s with mdl := { s.mdl with links := FMap.set glLinkDefault s.mdl.links k (g (s.glLink k)) } }

def State.lnk (s : State) (k : Nat) : LinkSt := FMap.get linkDefault s.ldg.links k
def State.updLnk (s : State) (k : Nat) (g : LinkSt → LinkSt) : State :=
  { s with ldg := { s.ldg with links := FMap.set linkDefault s.ldg.links k (g (s.lnk k)) } }
def State.prt (s : State) (p : Nat) : PortSt := FMap.get portDefault s.ldg.ports p
def State.updPrt (s : State) (p : Nat) (g : PortSt → PortSt) : State :=
  { s with ldg := { s.ldg with ports := FMap.set portDefault s.ldg.ports p (g (s.prt p)) } }
def State.fp (s : State) (f : Nat) : FnPow := FMap.get fnPowDefault s.ldg.fns f
def State.updFp (s : State) (f : Nat) (g : FnPow → FnPow) : State :=
  { s with ldg := { s.ldg with fns := FMap.set fnPowDefault s.ldg.fns f (g (s.fp f)) } }

def State.ac (s : State) (k : Nat) : ActSt := FMap.get actDefault s.act k
def State.updAc (s : State) (k : Nat) (g : ActSt → ActSt) : State := { s with act := FMap.set actDefault s.act k (g (s.ac k)) }
def State.updGb (s : State) (g : GbxSt → GbxSt) : State := { s with gbx := g s.gbx }

/-- The output chain of pool leg n: both switches off where nothing has happened. -/
def lockDefault (_ : Nat) : Lock := ⟨false, false, none, false, false, false, false, none, none, 0, none, 0, none⟩
def State.lockOf (s : State) (n : Nat) : Lock := FMap.get lockDefault s.pads.locks n
def State.setLock (s : State) (n : Nat) (l : Lock) : State :=
  { s with pads := { s.pads with locks := FMap.set lockDefault s.pads.locks n l } }
/-- The soft-off hold of leg n runs: GS_n is high. -/
def State.softOn (s : State) (n : Nat) : Bool := s.pads.soft.contains n
def State.setSoft (s : State) (n : Nat) (b : Bool) : State :=
  let l := s.pads.soft.filter (· != n)
  { s with pads := { s.pads with soft := if b then l ++ [n] else l } }

/-- GF_n after its filter. -/
def State.gfHigh (s : State) (n : Nat) : Bool := FMap.get (fun _ => false) s.gf n
def State.setGf (s : State) (n : Nat) (b : Bool) : State := { s with gf := FMap.set (fun _ => false) s.gf n b }

/-- The latch cause of pool leg n, 0 when not latched. -/
def State.latchOf (s : State) (n : Nat) : Nat := FMap.get (fun _ => 0) s.pads.legCause n
def State.setLatch (s : State) (n c : Nat) : State :=
  { s with pads := { s.pads with legCause := FMap.set (fun _ => 0) s.pads.legCause n c } }

/-- Set a flag of FEn_EVT and remember it for the epoch's record. -/
def State.feFlag (s : State) (n : Nat) (f : Fld) : State :=
  (s.setFlag (R.FEn_EVT n) f).updE n fun e =>
    { e with seenFlags := if bitAt e.seenFlags f.lo then e.seenFlags else e.seenFlags + 2 ^ f.lo }

/-- A fresh free value: the next of the implementation's constants, and the count advanced. -/
def State.draw (s : State) : Nat × State := ((Config.freeWord s.tick).toNat, { s with tick := s.tick + 1 })

/-- Draw n free values. -/
def State.drawN (s : State) : Nat → List Nat × State
  | 0 => ([], s)
  | n + 1 =>
    let (v, s1) := s.draw
    let (l, s2) := s1.drawN n
    (v :: l, s2)

/-- A type 9 journal entry whose event code and data the unit's chapter does not state: both are free (R455). -/
def State.journalFree (s : State) (unit : Nat) : State :=
  let (l, s1) := s.drawN 8
  s1.journalEvent unit (l.headD 0 % 256) ((l.drop 1).flatMap fun v => leBytes 4 v)

/-- The two engines of a coupled pair in order (primary first), else the engine alone (Table FE-1). -/
def State.pairEngines (s : State) (n : Nat) : List Nat :=
  let t := s.fld (R.FEn_STATE n) F.FEn_STATE_TEMPLATE
  let p := s.fld (R.FEn_LOOPCFG n) F.FEn_LOOPCFG_PARTNER
  if t = 2 ∨ t = 4 then (if p < n then [p, n] else [n, p]) else [n]

/-- The partner of a coupled engine. -/
def State.partnerOf (s : State) (n : Nat) : Option Nat := (s.pairEngines n).find? (· != n)

/-- The engine is the partner (not the primary) of its pair. -/
def State.isPartner (s : State) (n : Nat) : Bool := (s.pairEngines n).head? != some n

/-- The engines that a function's legs are written by: those of any LOOPS record of the function. -/
def State.enginesOf (s : State) (f : Nat) : List Nat :=
  s.withImg [] fun im => (List.range 8).filter fun n => (im.loopsOf n).any fun r => rf r 2 1 == f

/-- The state of record moves in ARMED, RUNNING or STOPPING. -/
def UState.active : UState → Bool
  | .armed => true | .running => true | .stopping => true | _ => false

/-! ### Withdrawal (R116) -/

/-- Queue a withdrawn pre-notice (R299): 32 entries, the oldest displaced by one too many. -/
def State.queueWithdrawn (s : State) (n f : Nat) (x : Notice) : State :=
  let entry := leBytes 1 0x1D ++ leBytes 1 (n * 16 + f) ++ leBytes 2 x.seq ++ leBytes 4 (ofSigned 32 x.power)
  let full := 32 ≤ s.ldg.wq.length
  let q := (if full then s.ldg.wq.drop 1 else s.ldg.wq) ++ [entry]
  let s1 := { s with ldg := { s.ldg with wq := q } }
  let s2 := if full then (s1.incSat R.LDG_WQSTAT F.LDG_WQSTAT_OVF).setFlag R.LDG_EVT F.LDG_EVT_WQOVF else s1
  (s2.setFld R.LDG_WQSTAT F.LDG_WQSTAT_COUNT q.length).setFlag R.LDG_EVT F.LDG_EVT_WDRAW

/-- One engine acts on a withdrawal trigger: its notices go in sequence order, WDRAW, WDCNT, and no more duties. -/
def State.withdrawEngine (s : State) (f n : Nat) : State :=
  let s1 := s.each (s.e n).notices fun s x => s.queueWithdrawn n f x
  ((s1.feFlag n F.FEn_EVT_WDRAW).incFld (R.FEn_WDCNT n) F.FEn_WDCNT_COUNT).updE n fun e =>
    { e with notices := [], halt := true, wdraw := e.wdraw + 1 }

/-- FLAGS bits of ETHp_CFG (UNITS byte 4): 1 SGMII, 2 1,000 Mbit/s, 3 IPv6, 4 MACsec required, 5 802.1CB, 6 802.1AS, 7 802.1Qbv. -/
def State.ethFlag (s : State) (p b : Nat) : Bool := bitAt (s.fld (R.ETHp_CFG p) F.ETHp_CFG_FLAGS) b

/-- ETH1 is merged into ETH0 (R423). -/
def State.merged (s : State) : Bool := s.ethFlag 0 5 && s.ethFlag 1 5

/-- The pattern code that SSM_PAT shows for function f. -/
def State.ssmPat (s : State) (f : Nat) : Nat :=
  if f < 8 then s.fld R.SSM_PAT0 ⟨4 * f + 3, 4 * f⟩ else s.fld R.SSM_PAT1 ⟨4 * (f - 8) + 3, 4 * (f - 8)⟩

/-- A function books nothing while one of its legs is under an override code other than 0b00 (R292); in mW. -/
def State.bookedNow (s : State) (f : Nat) : Int := if s.ssmPat f = 0 then (s.fp f).booked else 0

/-- The pre-notice term of a function in W (R298): its latest pre-notice, from a withdrawal to the next one its booked power; 0 before the
first. -/
def State.preTerm (s : State) (f : Nat) : Rat :=
  if (s.fp f).preLive then (toSigned 32 (s.reg (R.LDG_PNf f)).toNat : Rat) else if (s.fp f).preGone then (s.bookedNow f : Rat) / 1000 else 0

/-- A withdrawal trigger for function f (R116): shadow registers of its legs invalidated, pre-notices withdrawn, 0 W booked
until the next commit (R292), the pre-notice term replaced by the booked power (R298). An engine in OFF has nothing to
withdraw and is left alone; a chopper has no engine. -/
def State.withdraw (s : State) (f : Nat) : State :=
  let es := (s.enginesOf f).filter fun n => s.ust (U.fe n) ≠ .off && s.ust (U.fe n) ≠ .absent
  let s1 := s.each (s.fnLegs f) fun s n => s.setShadow n Option.none
  let s2 := s1.each es fun s n => s.withdrawEngine f n
  if es.isEmpty ∧ s.fnRole f ≠ 6 then s2
  else
    (s2.updFp f fun p => { p with booked := 0, next := 0, withdrawn := true, preLive := false, preGone := true }).setReg (R.LDG_PNf f) 0

/-- A trigger that follows from one the function's engines have acted on already finds nothing to withdraw (R116): nothing is counted
twice. -/
def State.withdrawOnce (s : State) (f : Nat) : State :=
  if (s.enginesOf f).any fun n => !(s.e n).halt || !(s.e n).notices.isEmpty then s.withdraw f else s

/-- The legs of a function are off at stage 1, and it books nothing (R292). -/
def State.fnOff (s : State) (f : Nat) : State :=
  (s.each (s.fnLegs f) fun s n => (s.setDuty n none).setShadow n none).updFp f fun p => { p with booked := 0, next := 0 }

end Sys2Proof.Machine
end

