-- ==== Sys2Proof/Machine/Access.lean ====
section
/-!
DEFINITION. Register access without a row of its own: which registers exist in the variant, what a register reads as,
and the checks of R8 and R16 to R18 on a written value, from the register maps.
-/
namespace Sys2Proof.Machine

/-- The registers that report a state of record in bits [7:0], with the unit whose state they report (R74). -/
def stateRegs : List (Nat × Nat) :=
  [(R.POS_STATE, U.pos), (R.SENT_STATE, U.sent), (R.CHG_STATE, U.chg), (R.REG_STATE, U.reg), (R.GBX_STATE, U.gbx),
   (R.LDG_STATE, U.ldg), (R.SSM_STATE, U.ssm), (R.RST_STATE, U.rst), (R.THM_STATE, U.thm), (R.SEC_STATE, U.sec),
   (R.NVS_STATE, U.nvs), (R.RNDr_STATE 0, U.rnd 0), (R.RNDr_STATE 1, U.rnd 1), (R.ETHp_STATE 0, U.eth 0),
   (R.ETHp_STATE 1, U.eth 1)]
  ++ (List.range 8).map (fun n => (R.FEn_STATE n, U.fe n))
  ++ (List.range 4).map (fun k => (R.ACk_STATE k, U.ac k))
  ++ (List.range 6).map (fun n => (R.CANn_STATE n, U.can n))

/-- The debug lock is LOCKED (R433): a debug key is fused and no response has been verified since reset. -/
def State.debugLocked (s : State) : Bool := s.sec.debugKey.isSome && !s.sec.unlocked

/-- What the debug module reaches while LOCKED (R433). -/
def debugOpen (a : Nat) : Bool :=
  a == R.SYS_ID || (List.range 4).any fun j => a == R.SEC_DBGCHALj j || a == R.SEC_DBGRESPj j

/-- The code of the debug lock (Table NET-14): 0 OPEN, 1 LOCKED, 2 UNLOCKED. -/
def State.debugLock (s : State) : Nat := if s.sec.debugKey.isNone then 0 else if s.sec.unlocked then 2 else 1

/-- Image key slot k is provisioned: fused, and its MRAM key record has the fused digest (R428). -/
def State.keyProv (s : State) (k : Nat) : Bool :=
  match s.sec.digests.find? (fun p => p.1 == k), s.sec.records.find? (fun p => p.1 == k) with
  | some (_, d), some (_, r) => d == leBytes 48 (Config.sha384 r).toNat
  | _, _ => false

/-- A mask with the bits of the numbers below n that pass a test. -/
def maskOf (n : Nat) (f : Nat → Bool) : Nat := ((List.range n).filter f).foldl (fun a i => a + 2 ^ i) 0

/-- The cores that the boot mode runs, as harts. -/
def State.harts (s : State) : Nat := if s.split then s.variant.cores else s.variant.pairs

/-- DBG_STATE (Table NET-16). -/
def State.dbgState (s : State) : Nat :=
  s.debugLock * 2 ^ 24 + (if s.dbg.active && s.dbg.hartsel < s.harts then 2 ^ s.dbg.hartsel else 0) * 2 ^ 16
    + maskOf 8 (fun t => s.cores.any fun p => p.1 == t && p.2.halted) * 2 ^ 8
    + maskOf 4 fun n => s.rst.sources.any fun p => p.1 == 11 && bitAt p.2 n

/-- A watchdog that nothing has changed. -/
def wdDefault (_ : Nat) : WdSt := ⟨false, false, 0, 0⟩

/-- SSM_HB.AGE: since the last heartbeat, in 10 µs; it saturates, and is 0xFF before the first. -/
def State.hbAge (s : State) : Nat := match s.ssm.hbAt with | some t => min ((s.up - t) / 10000) 0xFF | none => 0xFF

/-- SSM_WDSTATn with SINCE, the time since service in 100 µs, saturating: it counts while the watchdog starts or runs, stands while it is
paused and is 0 while it is off. -/
def State.wdStat (s : State) (a : Nat) : Word :=
  let w := s.reg a
  let mode := getF w F.SSM_WDSTATn_MODE
  let at_ := (FMap.get wdDefault s.ssm.wd ((a - R.SSM_WDSTATn 0) / 4)).at_
  let ns := if mode = 1 ∨ mode = 2 then s.time - at_ else if mode = 3 then at_ else 0
  setF w F.SSM_WDSTATn_SINCE (min (ns / 100000) 0xFFFF)

/-- What a read of a register returns: the stored word, with the views the spec computes: SYS_CAP0 and SYS_CAP1 by
variant (Tables SCO-5, SCO-6), PST_USTk and the STATE fields from the states of record (R87). -/
def State.readReg (s : State) (a : Nat) : Word :=
  if a = R.SYS_CAP0 then BitVec.ofNat 32 s.variant.cap0
  else if a = R.SYS_CAP1 then BitVec.ofNat 32 s.variant.cap1
  else if R.PST_USTk 0 ≤ a ∧ a ≤ R.PST_USTk 63 then
    let k := a - R.PST_USTk 0
    BitVec.ofNat 32 (leNat ((List.range 4).map fun i =>
      BitVec.ofNat 8 (if unitKnown (k + i) then (s.ust (k + i)).code else 0)))
  else if R.EVC_SRCm 1 ≤ a ∧ a ≤ R.EVC_SRCm 256 then
    let m := (a - R.EVC_SRCm 1) / 4 + 1
    setF (setF (s.reg a) F.EVC_SRCm_INSERV (b2n (s.evc.inserv.any fun p => p.1 == m))) F.EVC_SRCm_RAISED
      (b2n (s.evc.raised.contains m))
  else if R.LDG_PNf 0 ≤ a ∧ a ≤ R.LDG_PNf 15 ∧ (s.fp ((a - R.LDG_PNf 0) / 4)).preGone then
    BitVec.ofNat 32 (ofSigned 32 (satS 32 (nearest (s.preTerm ((a - R.LDG_PNf 0) / 4)))))
  else if a = R.SSM_HB then setF (s.reg a) F.SSM_HB_AGE s.hbAge
  else if a = R.EVC_STAT then
    setF (setF (s.reg a) F.EVC_STAT_INSERV s.evc.inserv.length) F.EVC_STAT_RAISED
      (s.evc.raised.filter fun m => s.flag (R.EVC_SRCm m) F.EVC_SRCm_EN).length
  else if a = R.SEC_KEYS then
    BitVec.ofNat 32 (b2n s.sec.debugKey.isSome * 2 ^ 16 + s.sec.revoked % 16 * 16 + maskOf 4 s.keyProv)
  else if a = R.SEC_SESS then BitVec.ofNat 32 s.aon.session
  else if a = R.DBG_STATE then BitVec.ofNat 32 s.dbgState
  else if a = R.SEC_STATE then
    setF (setF (setF (setF (s.reg a) F.SEC_STATE_DBG s.debugLock) F.SEC_STATE_BUSY (b2n s.sec.cmd.isSome)) F.SEC_STATE_CHECK
      (b2n (s.icheck.running.isSome || s.fcheck.running.isSome))) ⟨7, 0⟩ (s.ust U.sec).code
  else if R.SSM_WDSTATn 0 ≤ a ∧ a ≤ R.SSM_WDSTATn 3 then s.wdStat a
  else match stateRegs.find? (fun p => p.1 == a) with
    | some (_, u) => setF (s.reg a) ⟨7, 0⟩ (s.ust u).code
    | none => s.reg a

/-- The register belongs to an instance that the variant does not have (R3, R408). -/
def State.regAbsent (s : State) (r : RegAt) : Bool :=
  let v := s.variant
  let i0 := r.idx.head?.getD 0
  let b := r.block.base
  let many := !r.idx.isEmpty
  let perCore := if s.split then v.cores ≤ i0 else if i0 < 4 then v.pairs ≤ i0 else v.cores ≤ i0
  if b = 0x40100000 then v.fes ≤ r.inst
  else if b = 0x40180000 then many && v.legs ≤ i0
  else if b = 0x40190000 then many && v.glks ≤ i0
  else if b = 0x401E0000 then many && v.acs ≤ i0
  else if b = 0x40200000 then !v.chg
  else if b = 0x401F0000 then many && v.bps ≤ i0
  else if b = 0x40040000 ∨ b = 0x40030000 then many && v.pairs ≤ i0
  else if b = 0x40050000 then many && r.desc.off < 0x400 && perCore
  else if b = 0x40010000 then many && perCore
  else if b = 0x403F0000 then many && (if r.desc.off = 0x10 then decide (v.pairs ≤ i0) else perCore)
  else false

/-- The address lies in the register space of an engine or of the charger that the variant does not have, whatever the offset (R3). -/
def State.spaceAbsent (s : State) (a : Nat) : Bool :=
  match findBlock a with
  | none => false
  | some (b, i) => (b.base == 0x40100000 && decide (s.variant.fes ≤ i)) || (b.base == 0x40200000 && !s.variant.chg)

/-- A target register of a core that the boot mode does not run (R408). -/
def State.regNotRun (s : State) (r : RegAt) : Bool :=
  r.block.base = 0x40050000 && !r.idx.isEmpty && r.desc.off < 0x400 && !s.split && 4 ≤ r.idx.head?.getD 0

/-- What a written value gives a field, by its access type (Table SCO-14). -/
def fieldWrite (acc : Access) (old new : Nat) : Nat :=
  match acc with
  | .rw => new
  | .w1c => old - (old &&& new)
  | .w1s => old ||| new
  | .wo => new
  | .ro => old | .rc => old | .rws => old | .rsv => 0

/-- The failing checks of a written value on one field: E_LOCKED where it would change an RWS field, E_FORMAT where it
would change an RO or RC field or sets a reserved bit (R16 to R18). -/
def fieldFails (acc : Access) (old new : Nat) : List Status :=
  match acc with
  | .rws => if new = old then [] else [.eLocked]
  | .ro => if new = old then [] else [.eFormat]
  | .rc => if new = old then [] else [.eFormat]
  | .rsv => if new = 0 then [] else [.eFormat]
  | _ => []

/-- The order of the checks on a register access (R8): absent, locked, format, range, then the unit's own. -/
def regRank : Status → Nat
  | .eAbsent => 0 | .eLocked => 1 | .eFormat => 2 | .eRange => 3 | _ => 4

/-- The failing check of a register access that comes first in R8. -/
def regFirst : List Status → Option Status
  | [] => none
  | x :: t =>
    match regFirst t with
    | none => some x
    | some y => if regRank y < regRank x then some y else some x

/-- The checks of R8 that the register maps decide. An address in no block is E_RANGE (R443), a reserved offset E_FORMAT
(R6). -/
def State.mapFails (s : State) (addr : Nat) (v : Word) : List Status :=
  match findBlock addr with
  | none => [.eRange]
  | some _ =>
    match findReg addr with
    | none => if s.spaceAbsent addr then [.eAbsent] else [.eFormat]
    | some r =>
      if s.regAbsent r then [.eAbsent]
      else
        let cur := s.readReg addr
        (if s.regNotRun r then [Status.eState] else []) ++ r.desc.fields.flatMap fun f => fieldFails f.acc (getF cur ⟨f.hi, f.lo⟩) (getF v ⟨f.hi, f.lo⟩)

/-- The word a register holds after a plain write. -/
def writtenWord (r : RegDesc) (old v : Word) : Word :=
  r.fields.foldl (fun w f => setF w ⟨f.hi, f.lo⟩ (fieldWrite f.acc (getF old ⟨f.hi, f.lo⟩) (getF v ⟨f.hi, f.lo⟩))) old

/-- A plain write of a value that passed its checks. -/
def State.plainWrite (s : State) (addr : Nat) (v : Word) : State :=
  match findReg addr with
  | none => s
  | some r => s.setReg addr (writtenWord r.desc (s.reg addr) v)

/-- A write of one register with unit-specific checks and an effect: refused with the first failing check, else applied
(R4, R8). -/
def State.tryWrite (s : State) (addr : Nat) (v : Word) (extra : List Status) (effect : State → State) : State :=
  match regFirst (s.mapFails addr v ++ extra) with
  | some st => s.refuse st addr
  | none => (effect s).respond 0

/-- A read of a register: its value, or an error response where it is absent or in no block; a reserved offset reads
0 (R3, R6, R443). Registers with a read effect have rows of their own. -/
def State.plainRead (s : State) (addr : Nat) : State :=
  match findBlock addr with
  | none => s.refuse .eRange addr
  | some _ =>
    match findReg addr with
    | none => if s.spaceAbsent addr then s.refuse .eAbsent addr else s.respond 0
    | some r => if s.regAbsent r then s.refuse .eAbsent addr
      else if s.regNotRun r then s.refuse .eState addr
      else
        let w := s.readReg addr
        s.respond (r.desc.fields.foldl (fun w f => if f.acc = .wo then setF w ⟨f.hi, f.lo⟩ 0 else w) w).toNat

end Sys2Proof.Machine
end

