-- ==== Sys2Proof/Machine/SafeOps.lean ====
section
/-!
DEFINITION. The safe-state manager's operations (12): which pattern each function receives, raising and ending a
device-wide cause, holding and releasing a function's pattern, the override code that reaches a leg, fault frames.
-/
namespace Sys2Proof.Machine

/-- What a function that the SSM has no map of reads as. -/
def ssmFnDefault (_ : Nat) : SsmFn := ⟨0, [], false, 0⟩

/-- What the SSM knows of function f. -/
def State.ssmFn (s : State) (f : Nat) : SsmFn := FMap.get ssmFnDefault s.ssm.map f

/-- Cause c of Table LSS-3 holds. -/
def State.ssmCause (s : State) (c : Nat) : Bool := bitAt (s.fld R.SSM_CAUSE F.SSM_CAUSE_ACTIVE) c

/-- The device-wide safe state holds: while any cause holds (R332). -/
def State.safeHeld (s : State) : Bool := s.fld R.SSM_CAUSE F.SSM_CAUSE_ACTIVE != 0

/-- ASC_PREF of function f as the SSM holds it (R200, R330). -/
def State.ascPref (s : State) (f : Nat) : Bool := bitAt (s.fld R.SSM_ASC F.SSM_ASC_PREF) f

/-- Store the pattern code of function f. -/
def State.setSsmPat (s : State) (f v : Nat) : State :=
  if f < 8 then s.setFld R.SSM_PAT0 ⟨4 * f + 3, 4 * f⟩ v else s.setFld R.SSM_PAT1 ⟨4 * (f - 8) + 3, 4 * (f - 8)⟩ v

/-- The pattern "by speed" of R201: the function's ASC side while ASC_PREF is 1; with ASC_PREF 0 FREEWHEEL (0b11), but
an ASC pattern already held stays until ASC_PREF has been 0 for 10 ms (ASC_FREEWHEEL_CHANGE). -/
def State.bySpeed (s : State) (f : Nat) : Nat :=
  if s.ascPref f then (if (s.ssmFn f).ascHigh then 3 else 2)
  else if s.ssmPat f = 2 ∨ s.ssmPat f = 3 then s.ssmPat f else 1

/-- The pattern of function f (Tables TRA-5 and LSS-2, R329, R330): 0 none, 1 0b11, 2 ASC_LOW, 3 ASC_HIGH, 4 chopper
on. While MON_CLOCK holds, hard-wired logic applies the pattern (R335). -/
def State.wantPat (s : State) (f : Nat) : Nat :=
  let fn := s.ssmFn f
  let held := s.safeHeld || bitAt s.ssm.fnHeld f
  let ov := bitAt s.ssm.ovLinks fn.link
  if s.ssmCause 7 then (if fn.role = 0 then 0 else if fn.role = 1 ∧ s.ascPref f then (if fn.ascHigh then 3 else 2) else 1)
  else if fn.role = 1 then (if held || ov then s.bySpeed f else 0)
  else if fn.role = 6 then (if ov then 4 else if held then 1 else 0)
  else if fn.role = 0 then 0
  else if held then 1 else 0

/-- Bring every pattern, SSM_PATX and SSM_STATE.SAFE to what the causes and held patterns ask (R329, R330, R252). An
override that begins is a withdrawal trigger of its function (R116); as one ends, stage 1 holds both switches off until the function's chapter
restarts them (R144). -/
def State.ssmRefresh (s : State) : State :=
  let s1 := s.each (List.range 16) fun s f =>
    let p := s.wantPat f
    let s' := s.setSsmPat f p
    if s.ssmPat f = 0 ∧ p ≠ 0 then s'.withdraw f
    else if s.ssmPat f ≠ 0 ∧ p = 0 then s'.each (s.fnLegs f) fun s n => (s.setDuty n none).setShadow n none
    else s'
  let reg := if s1.ssmCause 7 then 1 else if s1.ssm.regHeld = 2 then 2 else if s1.safeHeld || s1.ssm.regHeld = 1 then 1 else 0
  let act := if s1.safeHeld then 2 ^ s1.variant.acs - 1 else s1.ssm.actHeld
  let s2 := if s1.fld R.SSM_PATX F.SSM_PATX_REG = reg then s1 else { s1 with ssm := { s1.ssm with regAt := s1.up } }
  ((s2.setFld R.SSM_PATX F.SSM_PATX_REG reg).setFld R.SSM_PATX F.SSM_PATX_ACT act).setFld
    R.SSM_STATE F.SSM_STATE_SAFE (b2n s2.safeHeld)

/-- Raise a device-wide cause (R330): the safe state is entered where it was not held, and functions in ARMED, RUNNING
or STOPPING will fault at the next boundary; the monitor-die FAULT_N driver goes on for every cause but RESET (R333). -/
def State.ssmRaise (s : State) (c : Nat) : State :=
  let was := s.safeHeld
  let s1 := (s.setBit R.SSM_CAUSE F.SSM_CAUSE_ACTIVE c).setBit R.SSM_CAUSE F.SSM_CAUSE_SEEN c
  let s2 := if c = 5 then s1 else s1.setFld R.SSM_STATE F.SSM_STATE_FAULTN 1
  let s3 := if was then s2 else s2.setFlag R.SSM_EVT F.SSM_EVT_SAFE
  ({ s3 with ssm := { s3.ssm with entered := true } }).ssmRefresh

/-- Of a mask of instances, those that pass a test. -/
def maskKeep (n m : Nat) (p : Nat → Bool) : Nat := maskOf n fun i => bitAt m i && p i

/-- A unit is in FAULT, or goes there at the next boundary. -/
def State.faulty (s : State) (u : Nat) : Bool := s.ust u == .fault || s.faultPending u

/-- As the device-wide state ends, the patterns of reports remain for what is in FAULT only (R332). Log 78. -/
def State.keepHeld (s : State) : State :=
  { s with ssm := { s.ssm with
      fnHeld := maskKeep 16 s.ssm.fnHeld fun f => s.faulty (U.fn f)
      actHeld := maskKeep 4 s.ssm.actHeld fun k => s.faulty (U.ac k)
      regHeld := if s.faulty U.reg || s.pads.crowbar then s.ssm.regHeld else 0 } }

/-- End device-wide causes (a bit mask): the state ends with the last of them (R332). -/
def State.ssmEnd (s : State) (mask : Nat) : State :=
  let was := s.safeHeld
  let a := s.fld R.SSM_CAUSE F.SSM_CAUSE_ACTIVE
  let s1 := s.setFld R.SSM_CAUSE F.SSM_CAUSE_ACTIVE (a - (a &&& mask))
  let s2 := if was && !s1.safeHeld then s1.keepHeld.setFlag R.SSM_EVT F.SSM_EVT_RELEASED else s1
  s2.ssmRefresh

/-- Hold the pattern of function f (R329). -/
def State.ssmHoldFn (s : State) (f : Nat) : State :=
  if bitAt s.ssm.fnHeld f then s
  else (({ s with ssm := { s.ssm with fnHeld := s.ssm.fnHeld + 2 ^ f } }).setFlag R.SSM_EVT F.SSM_EVT_FUNC).ssmRefresh

/-- Release the pattern of function f: its clear letter has taken it out of FAULT (R329). -/
def State.ssmFreeFn (s : State) (f : Nat) : State :=
  if bitAt s.ssm.fnHeld f then ({ s with ssm := { s.ssm with fnHeld := s.ssm.fnHeld - 2 ^ f } }).ssmRefresh else s

/-- Hold or release the override of actuator channel k. -/
def State.ssmHoldAct (s : State) (k : Nat) : State :=
  if bitAt s.ssm.actHeld k then s
  else (({ s with ssm := { s.ssm with actHeld := s.ssm.actHeld + 2 ^ k } }).setFlag R.SSM_EVT F.SSM_EVT_FUNC).ssmRefresh
def State.ssmFreeAct (s : State) (k : Nat) : State :=
  if bitAt s.ssm.actHeld k then ({ s with ssm := { s.ssm with actHeld := s.ssm.actHeld - 2 ^ k } }).ssmRefresh else s

/-- Set the regulator pattern that a report holds: 0 none, 1 REG_OFF, 2 REG_CROWBAR (R252). -/
def State.ssmHoldReg (s : State) (v : Nat) : State :=
  let s1 := { s with ssm := { s.ssm with regHeld := v } }
  (if s.ssm.regHeld = 0 ∧ v ≠ 0 then s1.setFlag R.SSM_EVT F.SSM_EVT_FUNC else s1).ssmRefresh

/-- Record or end the overvoltage report of a link (Table TRA-5). An overvoltage holds the pattern of every traction
function of the link. -/
def State.ssmOv (s : State) (link : Nat) (on : Bool) : State :=
  let m := s.ssm.ovLinks
  let m' := if on then (if bitAt m link then m else m + 2 ^ link) else (if bitAt m link then m - 2 ^ link else m)
  let s1 := { s with ssm := { s.ssm with ovLinks := m' } }
  let s2 := if on then
      s1.each ((List.range 16).filter fun f => (s1.ssmFn f).role == 1 && (s1.ssmFn f).link == link) State.ssmHoldFn
    else s1
  s2.ssmRefresh

/-- The function whose map holds pool leg n. -/
def State.ssmFnOfLeg (s : State) (n : Nat) : Option Nat :=
  (s.ssm.map.find? fun p => p.2.legs.contains n).map (·.1)

/-- The override code on the two wires of pool leg n (R22): the code of its function's pattern; a leg without a function has 0b11 while
MON_CLOCK holds (R335), and before the first admission after power-on while the device-wide state holds (R330). -/
def State.legOvr (s : State) (n : Nat) : Nat :=
  match s.ssmFnOfLeg n with
  | none => if s.ssmCause 7 || (s.safeHeld && s.ssm.map.isEmpty) then 3 else 0
  | some f => match s.ssmPat f with | 0 => 0 | 1 => 3 | 2 => 1 | 3 => 2 | _ => 1

/-- Send a fault frame on the CD-XD link: source, instance and cause of SSM_LASTF. -/
def State.sendFrame (s : State) (src inst cause : Nat) : State :=
  { s with ssm := { s.ssm with frames := s.ssm.frames ++ [(src, inst, cause)] } }

/-- SAFE_N is low: whenever the device-wide safe state holds, and in standby (R333, R363). -/
def State.safeNLow (s : State) : Bool := s.safeHeld || s.rst.standby

/-- FAULT_N is low: a control-die driver of a mismatching pair, or the monitor-die driver (R333). -/
def State.faultNLow (s : State) : Bool :=
  s.flag R.SSM_STATE F.SSM_STATE_FAULTN || s.lsc.any fun p => p.2.faultN

end Sys2Proof.Machine
end

