-- ==== Sys2Proof/Machine/ResetOps.lean ====
section
/-!
DEFINITION. The reset controller's operations (13): what each reach clears, concurrent sources and the recorded cause,
release, and the deferred actions of R477.
Choices of the model: log 20, 72, 78, 84, 87, 94, 127, 145.
-/
namespace Sys2Proof.Machine

/-- What a core that nothing has changed holds. -/
def coreDefault (_ : Nat) : CoreSt :=
  ⟨.off, false, false, [], [], [], [], 0, 3, false, 0, 0, false, 0, 0, 0xFFFFFFFFFFFFFFFF, false, none, [], [], none⟩

/-- What a pair that nothing has changed holds. -/
def pairDefault (_ : Nat) : PairSt := ⟨0, false, false, 0⟩

def State.core (s : State) (t : Nat) : CoreSt := FMap.get coreDefault s.cores t
def State.setCore (s : State) (t : Nat) (c : CoreSt) : State := { s with cores := FMap.set coreDefault s.cores t c }
def State.updCore (s : State) (t : Nat) (f : CoreSt → CoreSt) : State := s.setCore t (f (s.core t))
def State.pairSt (s : State) (n : Nat) : PairSt := FMap.get pairDefault s.lsc n
def State.setPair (s : State) (n : Nat) (p : PairSt) : State := { s with lsc := FMap.set pairDefault s.lsc n p }
def State.wd (s : State) (n : Nat) : WdSt := FMap.get wdDefault s.ssm.wd n
def State.setWd (s : State) (n : Nat) (w : WdSt) : State :=
  { s with ssm := { s.ssm with wd := FMap.set wdDefault s.ssm.wd n w } }

/-- The cores that pair n has in the sampled mode: Pn's main core, or C2n and C2n + 1 (R316). -/
def State.coresOf (s : State) (n : Nat) : List Nat := if s.split then [2 * n, 2 * n + 1] else [n]

/-- The pair of core t. -/
def State.pairOf (s : State) (t : Nat) : Nat := if s.split then t / 2 else t

/-- The cores that the boot mode runs. -/
def State.runCores (s : State) : List Nat := List.range (if s.split then s.variant.cores else s.variant.pairs)

/-- Store the state of pair n that LSC_STAT shows. -/
def State.setLscStat (s : State) (n v : Nat) : State := s.setFld R.LSC_STAT ⟨4 * n + 3, 4 * n⟩ v

/-- The storage key of the TCM byte at an offset: of pair n in paired mode, of core t in split mode (R316, R442). -/
def tcmKey (owner off : Nat) : Nat := 0x100000000 + owner * 0x40000 + off

/-- A storage key that a system reset keeps: MRAM (Table RST-3). -/
def keptByte (k : Nat) : Bool := 0x60000000 ≤ k && k < 0x64000000

/-- The registers that a system reset keeps: the SSM block (R343), RST_CAUSE, RST_START and RST_WAKE (Table RST-3),
CLK_LAST (R388), THM but for its RWS registers (R389), MEM_CRIT (R448), the counts of wakes since power-on (Table LDG-9). -/
def keptReg (a : Nat) : Bool :=
  (0x40030000 ≤ a && a < 0x40040000) || a == R.RST_CAUSE || a == R.RST_START || a == R.RST_WAKE || a == R.CLK_LAST
  || (0x40080000 ≤ a && a < 0x40090000 && a != R.THM_LIMIT && a != R.THM_TCFG) || a == R.MEM_CRIT
  || a == R.CLK_STAT || a == R.MOD_STAT || a == R.LDG_KASKIP || a == R.LDG_KAWAKE

/-- The split-mode reset value of EVC_SRCm names C0 (Table EVC-8). -/
def State.evcSplitTargets (s : State) : State :=
  if s.split then
    { s with regs := s.regs.filter (fun p => p.1 < R.EVC_SRCm 1) ++
        ((List.range 256).map fun i => (R.EVC_SRCm (i + 1), (0x01FF4800 : Word))) ++ s.regs.filter (fun p => R.EVC_SRCm 256 < p.1) }
  else s

/-- MOD_LCNTn.TRIPS counts latches since power-on: a system reset keeps it (Table MOD-14, R154). -/
def State.keepTrips (s old : State) : State :=
  s.each (List.range 48) fun s n => s.setFld (R.MOD_LCNTn n) F.MOD_LCNTn_TRIPS (old.fld (R.MOD_LCNTn n) F.MOD_LCNTn_TRIPS)

/-- The effect of a system reset (Table RST-3, R97): everything returns to its reset value but the monitor die and AON
(SSM with the patterns it holds, but for what was on the link; the control-die FAULT_N drivers, which stand until their pairs' resets end
(R333); keep-alive, reset cause and counters), the latches in the pin-hold logic, MRAM, and the inputs at the pins. The
commands that wait stay queued. -/
def State.systemClear (s : State) : State :=
  let s1 : State :=
    { State.reset with
      variant := s.variant, split := s.split, bootSplit := s.bootSplit, up := s.up
      regs := s.regs.filter fun p => keptReg p.1
      mem := s.mem.filter fun p => keptByte p.1
      err := s.err.filter fun p => keptByte p.1
      ssm := { s.ssm with frames := [] }
      lsc := (List.range 4).foldl (fun m n => FMap.set pairDefault m n { pairDefault n with faultN := (FMap.get pairDefault s.lsc n).faultN }) []
      rst := { s.rst with domains := 0, unitsOut := false, swPairs := 0, pairs := 0, pairMin := 0, unitReset := [], autoDue := [] }
      units := s.units.filter fun p => p.1 == U.ssm
      driveEn := s.driveEn, gf := s.gf, actEn := s.actEn, aon := s.aon, pads := s.pads, thm := s.thm, mramClosed := s.mramClosed, sec := s.sec.atReset, recovery := s.recovery
      tick := s.tick, resp := s.resp, pending := s.pending }
  (((((s1.keepTrips s).setFld R.LSC_CFG F.LSC_CFG_SPLIT (b2n s.split)).evcSplitTargets).setFld R.RST_STATE F.RST_STATE_PHASE 1).each
    (List.range s.variant.pairs) fun s n => (s.setLscStat n 4).setFld (R.SSM_WDSTATn n) F.SSM_WDSTATn_MODE 0).ssmRefresh

/-- The effect of a power-on reset: everything is at its reset value; MRAM is kept (Table RST-3). -/
def State.powerClear (s : State) : State :=
  let s1 : State :=
    { State.reset with
      variant := s.variant, split := s.split, bootSplit := s.bootSplit, up := s.up
      mem := s.mem.filter fun p => keptByte p.1
      err := s.err.filter fun p => keptByte p.1
      rst := { State.reset.rst with sources := s.rst.sources, sysHold := s.rst.sysHold, sysMin := s.rst.sysMin, domains := 0, pg := s.rst.pg, released := false, startedAt := s.up }
      aon := AonSt.atPowerOn s.sec.sessionMram
      driveEn := s.driveEn, gf := s.gf, actEn := s.actEn, sec := s.sec.atReset, recovery := s.recovery
      tick := s.tick, resp := s.resp, pending := s.pending }
  (((s1.setFld R.LSC_CFG F.LSC_CFG_SPLIT (b2n s.split)).evcSplitTargets).each
    (List.range s.variant.pairs) fun s n => s.setLscStat n 4).ssmRefresh

/-- The effect of a pair reset (Table RST-3, R97): the pair's cores are reset, its post windows and sleep bits cleared;
TCM, caches' contents apart, and all else is kept. -/
def State.pairClear (s : State) (n : Nat) : State :=
  let codes := if s.split then [U.core (2 * n), U.core (2 * n + 1)] else [U.pair n]
  let s1 := s.each (s.coresOf n) fun s t => s.setCore t { coreDefault t with cond := .off }
  let s2 := s1.each (List.range 64) fun s k =>
    if codes.contains (s.phProducer k) && s.phEn k then s.setPigeon k { s.pigeon k with window := [] } else s
  let s3 := s2.each codes fun s c => match sleepBit c with
    | some b => s.clrBit R.PST_SLEEP ⟨31, 0⟩ b
    | none => s
  ((s3.setLscStat n 4).setFld (R.SSM_WDSTATn n) F.SSM_WDSTATn_MODE 0).setPair n { s3.pairSt n with replay := 0, testWaits := false }

/-! ### Sources and the recorded cause (R345, R348, R349) -/

/-- The reach of a source: 0 pair, 1 system, 2 power-on (Table RST-2). LOCKSTEP follows LSC_CFG.REACH, DEBUG is system
where it names P0 (or C0 or C1). -/
def State.reachOf (s : State) (id pairs : Nat) : Nat :=
  if id = 1 then 2
  else if id = 4 ∨ id = 9 then 0
  else if id = 6 then
    if (List.range 4).any fun n => bitAt pairs n && (n == 0 || bitAt (s.fld R.LSC_CFG F.LSC_CFG_REACH) n) then 1 else 0
  else if id = 11 then (if bitAt pairs 0 then 1 else 0)
  else 1

/-- Keep RST_PEND equal to the asserted sources. -/
def State.syncPend (s : State) : State :=
  s.setReg R.RST_PEND (BitVec.ofNat 32 (((List.range 14).filter fun i => s.rst.sources.any (·.1 == i)).foldl (fun a i => a + 2 ^ i) 0))

/-- Write RST_CAUSE. -/
def State.recordCause (s : State) (id reach pairs : Nat) : State :=
  s.setReg R.RST_CAUSE (BitVec.ofNat 32 (id + 256 * reach + 65536 * (if reach = 0 then pairs % 16 else 0)))

/-- A reset of pair or larger reach is asserted or held. -/
def State.inReset (s : State) : Bool := s.rst.sysHold != 0 || s.rst.pairs != 0 || !s.rst.sources.isEmpty

/-- The largest reach in force. -/
def State.heldReach (s : State) : Nat := if s.rst.sysHold ≠ 0 then s.rst.sysHold else 0

/-- Apply a system reset now, or when the running MRAM write pulse ends (R353). -/
def State.applySystem (s : State) : State :=
  if s.nvs.pulse then { s with rst := { s.rst with waitPulse := true } } else s.systemClear.syncPend

/-- The cause that a pair source joins (R348): the one recorded, where it is that of a pair reset; after a larger reset has ended, the
assertions and pairs that it left. Log 233. -/
def State.pairCause (s : State) (id : Nat) : Nat × Nat :=
  if s.fld R.RST_CAUSE F.RST_CAUSE_REACH = 0 then (min id (s.fld R.RST_CAUSE F.RST_CAUSE_SOURCE), s.fld R.RST_CAUSE F.RST_CAUSE_PAIRS)
  else ((s.rst.sources.map (·.1)).foldl min id, s.rst.pairs)

/-- The SSM causes of the sources that are still asserted, after a power-on reset has cleared them (R374, Table LSS-3). -/
def State.causesBack (s : State) : State :=
  let s1 := if s.rst.sources.any (·.1 == 2) then s.ssmRaise 4 else s
  if s1.rst.sources.any (·.1 == 12) then s1.ssmRaise 6 else s1

/-- A reset source asserts (R348, R349). CLOCK_LOSS lets the start timer run, which ends a start that it holds up (R352). -/
def State.assertSource (s : State) (id pairs : Nat) : State :=
  if s.rst.sources.any (fun p => p.1 == id && p.2 == pairs) then s
  else
    let reach := s.reachOf id pairs
    let was := s.inReset
    let cur := s.heldReach
    let recId := s.fld R.RST_CAUSE F.RST_CAUSE_SOURCE
    let s1 := State.syncPend { s with rst := { s.rst with sources := s.rst.sources ++ [(id, pairs)] } }
    if reach = 0 then
      if was && cur ≠ 0 then s1
      else
        let old := s.pairCause id
        let s2 := if was then s1.recordCause old.1 0 (old.2 ||| pairs) else s1.recordCause id 0 pairs
        s2.each ((List.range 4).filter fun n => bitAt pairs n && n < s.variant.pairs) fun s n =>
          let s3 := s.pairClear n
          { s3 with rst := { s3.rst with pairs := s3.rst.pairs ||| 2 ^ n, pairMin := s3.rst.pairMin ||| 2 ^ n, pairEpoch := s3.rst.pairEpoch ||| 2 ^ n } }
    else if was && cur > reach then s1
    else
      let s2 := if was && cur = reach then s1.recordCause (min id recId) reach 0 else s1.recordCause id reach 0
      let s3 : State := { s2 with rst := { s2.rst with sysHold := reach, sysMin := true, startTimer := s2.rst.startTimer || id == 8, standbyDue := false, transportDue := false, standby := false } }
      if reach = 2 then
        (s3.powerClear.recordCause (if was && cur = reach then min id recId else id) 2 0).syncPend.causesBack
      else if was && cur = reach then s3.ssmRaise 5
      else ((s3.ssmRaise 5).applySystem).syncPend

/-! ### Delivery (R398 to R402) -/

/-- The core that a unit code names in the sampled boot mode, if the mode runs it. -/
def State.coreOfCode (s : State) (code : Nat) : Option Nat :=
  if s.split then (if 0x48 ≤ code ∧ code < 0x48 + s.variant.cores then some (code - 0x48) else none)
  else if 0x40 ≤ code ∧ code < 0x40 + s.variant.pairs then some (code - 0x40) else none

/-- The unit code of core t. -/
def State.codeOfCore (s : State) (t : Nat) : Nat := if s.split then 0x48 + t else 0x40 + t

/-- A core is available while it executes, halted by the debugger or not (R402, Table EVC-4). -/
def State.available (s : State) (t : Nat) : Bool := (s.core t).cond == .running

/-- The core a source is delivered to: its TARGET, or its FALLBACK where the TARGET is unavailable (R402). -/
def State.deliveredTo (s : State) (m : Nat) : Option Nat :=
  let a := R.EVC_SRCm m
  match s.coreOfCode (s.fld a F.EVC_SRCm_TARGET) with
  | some t => if s.available t then some t else
    match s.coreOfCode (s.fld a F.EVC_SRCm_FALLBACK) with
    | some u => if s.available u then some u else none
    | none => none
  | none => none

/-- A source that is raised, enabled and not in service. -/
def State.srcPending (s : State) (m : Nat) : Bool :=
  s.evc.raised.contains m && s.flag (R.EVC_SRCm m) F.EVC_SRCm_EN && !(s.evc.inserv.any fun p => p.1 == m)

/-- A normal source is deliverable at core t (R398). -/
def State.deliverable (s : State) (t m : Nat) : Bool :=
  s.srcPending m && !s.flag (R.EVC_SRCm m) F.EVC_SRCm_CLASS && s.deliveredTo m == some t
  && s.fld (R.EVC_THRt t) F.EVC_THRt_THR < s.fld (R.EVC_SRCm m) F.EVC_SRCm_PRIO

/-- A fast source waits for core t: EVC_THRt does not apply (R405). -/
def State.fastPending (s : State) (t m : Nat) : Bool :=
  s.srcPending m && s.flag (R.EVC_SRCm m) F.EVC_SRCm_CLASS && s.deliveredTo m == some t

/-- Of a list of sources the one of highest PRIO, the lowest ID on a tie (R398, R405). -/
def State.bestSource (s : State) : List Nat → Option Nat
  | [] => none
  | m :: t =>
    match State.bestSource s t with
    | none => some m
    | some k =>
      let pm := s.fld (R.EVC_SRCm m) F.EVC_SRCm_PRIO
      let pk := s.fld (R.EVC_SRCm k) F.EVC_SRCm_PRIO
      if pk < pm ∨ (pk = pm ∧ m < k) then some m else some k

/-- mip.MEIP and mip.FEIP of core t. -/
def State.meip (s : State) (t : Nat) : Bool := s.evc.raised.any (s.deliverable t)
def State.feip (s : State) (t : Nat) : Bool := s.evc.raised.any (s.fastPending t)

/-- After a change at the EVC: record at each core that MEIP has been 1 since its last claim (R399). -/
def State.evcRefresh (s : State) : State :=
  s.each s.runCores fun s t => if s.meip t then s.updCore t fun c => { c with meipSeen := true } else s

/-- Clear the sleep announcement of core t: it has left WFI (R93). -/
def State.leaveSleep (s : State) (t : Nat) : State :=
  match sleepBit (s.codeOfCore t) with
  | some b => s.clrBit R.PST_SLEEP ⟨31, 0⟩ b
  | none => s

/-! ### Leaving reset (R358) -/

/-- A core of a pair leaves reset: parked in the boot ROM, or jumping to the address its RST_PVEC holds; P0, or C0,
runs the boot ROM (R358). -/
def State.bootCore (s : State) (t : Nat) : State :=
  let v := (s.reg (R.RST_PVECn t)).toNat
  if t = 0 then s.updCore t fun c => { c with cond := .running, pc := 0 }
  else if v = 0 then s.updCore t fun c => { c with cond := .parked, wfi := true }
  else s.updCore t fun c => { c with cond := .running, wfi := false, pc := v }

/-- Pair n leaves reset: its cores start (R358), its watchdog's start window opens (R334), its control-die FAULT_N driver
releases (R333), LSC_STAT shows it, and events reach its cores from then on (R402). -/
def State.pairLeave (s : State) (n : Nat) : State :=
  let s1 := s.each (s.coresOf n) State.bootCore
  let s2 := (s1.setWd n ⟨false, false, 0, s.time⟩).setFld (R.SSM_WDSTATn n) F.SSM_WDSTATn_MODE 1
  let s3 := s2.setPair n { s2.pairSt n with faultN := false }
  (s3.setLscStat n (if s.split then 5 else 1)).evcRefresh

/-- Pairs that an asserted source of pair reach still names. -/
def State.pairsAsserted (s : State) : Nat :=
  (s.rst.sources.filter fun p => s.reachOf p.1 p.2 == 0).foldl (fun a p => a ||| p.2) 0

/-- SW_PAIR asserts 1 µs after the delivery of RST_PAIR (Table RST-7). -/
def State.pairDue (s : State) : State :=
  if s.rst.swPairs ≠ 0 ∧ s.rst.swAt + 1000 ≤ s.time then
    State.assertSource { s with rst := { s.rst with swPairs := 0 } } 9 s.rst.swPairs
  else s

/-- The pairs may run: the boot ROM has started on P0, or C0, after a system or power-on reset (R351), and not in poste restante mode, in which
the others stay in reset (R361). -/
def State.pairsUp (s : State) : Bool := (s.core 0).cond != .off && !s.flag R.RST_START F.RST_START_PR

/-- Release every pair reset whose minimum hold has passed and whose sources have released; PAIRRST is set (R348). Before the boot ROM
starts a pair is only no longer held, and starts with the others. -/
def State.tryPairs (s : State) : State :=
  if s.rst.sysHold ≠ 0 then s
  else
    s.each (List.range 4) fun s n =>
      if bitAt s.rst.pairs n && !bitAt s.rst.pairMin n && !bitAt s.pairsAsserted n then
        let s1 := { s with rst := { s.rst with pairs := s.rst.pairs - 2 ^ n } }
        if s1.pairsUp then (s1.pairLeave n).setFlag R.RST_EVT F.RST_EVT_PAIRRST else s1
      else s

/-- BOOT_SPLIT is sampled at the release of a system or power-on reset (R316): LSC_CFG.SPLIT shows it, and the sources' first targets follow
it. -/
def State.sampleSplit (s : State) : State :=
  if s.bootSplit = s.split then s
  else
    let kept := s.regs.filter fun p => p.1 < R.EVC_SRCm 1 || R.EVC_SRCm 256 < p.1
    (State.setFld { s with split := s.bootSplit, regs := kept } R.LSC_CFG F.LSC_CFG_SPLIT (b2n s.bootSplit)).evcSplitTargets

/-- End the system or power-on reset once its last source has released and its hold has passed: the domains may leave
reset. A pair that a smaller-reach source still names stays in reset, and so does, after a power-on reset, what a system source still
asserts (R348). -/
def State.tryRelease (s : State) : State :=
  if s.rst.sysHold = 0 then s.tryPairs
  else if s.rst.sysMin || s.rst.waitPulse || s.rst.sources.any (fun p => s.rst.sysHold ≤ s.reachOf p.1 p.2) then s
  else if s.rst.sources.any fun p => 1 ≤ s.reachOf p.1 p.2 then { s with rst := { s.rst with sysHold := 1, released := true } }
  else
    let s0 := s.sampleSplit
    let s1 := { s0 with rst := { s0.rst with sysHold := 0, pairs := s0.pairsAsserted, released := true,
                                               startedAt := if s0.rst.sysHold = 1 then s0.up else s0.rst.startedAt } }
    if s1.ssmCause 6 then s1.ssmEnd 64 else s1

/-- A reset source releases. -/
def State.releaseSource (s : State) (id pairs : Nat) : State :=
  State.tryRelease (State.syncPend { s with rst := { s.rst with sources := s.rst.sources.filter fun p => !(p.1 == id && p.2 == pairs) } })

/-! ### Wakes (R230, R308, R309, R363) -/

/-- Keep-alive balance in µJ. -/
def State.kaBalance (s : State) : Int := s.aon.balance / 4096
/-- What a timer wake needs: wake power × timer wake limit, in µJ (R308). -/
def State.kaNeed (s : State) : Int := ((s.aon.wakePower * s.aon.limit : Nat) : Int)
/-- The device is awake from a wake: from the wake to the return to standby (R307). -/
def State.awake (s : State) : Bool := !s.rst.standby && !s.rst.transport && s.fld R.RST_WAKE F.RST_WAKE_SRC != 0

/-- A wake by source 1 WAKE, 2 CP_IN, 3 PP_IN, 4 timer or 5 supply alarm (Table RST-11): it cancels a standby or transport that is
due, ends standby (the start follows from step 3) or transport mode (a power-on start), and turns a timer wake into a pin wake. -/
def State.wake (s : State) (src : Nat) : State :=
  if s.rst.transportDue then
    State.journalFree { s with rst := { s.rst with transportDue := false, wakeArmed := false } } U.rst
  else if s.rst.standby then
    let s1 := { s with rst := { s.rst with standby := false, startedAt := s.up }, aon := { s.aon with waiting := false } }
    let s2 := s1.setReg R.RST_WAKE (BitVec.ofNat 32 src)
    if src = 4 then s2.incSat R.LDG_KAWAKE F.LDG_KAWAKE_TIMER else s2.incSat R.LDG_KAWAKE F.LDG_KAWAKE_PIN
  else if s.rst.transport then
    let s1 := s.powerClear
    let s2 := ({ s1 with rst := { s1.rst with sysHold := 2, sysMin := true, released := false } }.causesBack).recordCause 1 2 0
    (s2.setReg R.RST_WAKE (BitVec.ofNat 32 (256 + src))).incSat R.LDG_KAWAKE F.LDG_KAWAKE_PIN
  else
    let s1 := if src ≠ 4 ∧ s.fld R.RST_WAKE F.RST_WAKE_SRC = 4 then s.setFld R.RST_WAKE F.RST_WAKE_SRC src else s
    { s1 with rst := { s1.rst with standbyDue := false } }

/-! ### Deferred actions (R477) -/

/-- Perform a deferred action: a committed image or firmware asserts STRUCTURE_REPLACE (and ends poste restante mode's
count, R362), RST_SYSTEM asserts SW_SYSTEM, NET_HALT returns the port to IDLE. -/
def State.perform (s : State) : Deferred → State
  | .structureReplace =>
    let s1 := if s.flag R.RST_START F.RST_START_PR then s.setFld R.RST_START F.RST_START_COUNT 0 else s
    s1.assertSource 0x0D 0
  | .systemReset => s.assertSource 0x0A 0
  | .netHalt u => s.hwMove u [.running] .idle

/-- Perform the actions whose receipts have been handed over. -/
def State.runReady (s : State) : State :=
  let l := s.po.ready
  State.each { s with po := { s.po with ready := [] } } l State.perform

/-- The receipts of pigeonhole ph up to an index have been handed over: their actions become ready. `before` tells
whether a receipt's index has been passed. -/
def State.handOver (s : State) (ph : Nat) (passed : Nat → Bool) : State :=
  let (now, later) := s.po.deferred.partition fun d => d.ph == ph && passed d.index
  { s with po := { s.po with deferred := later, ready := s.po.ready ++ now.map (·.action) } }

end Sys2Proof.Machine
end

