-- ==== Sys2Proof/Machine/Faults.lean ====
section
/-!
DEFINITION. Measured values, gate profiles, and what a fault of an engine, a function, a leg or the charger does at
once (R101, R116, R138, R140, R196, R202, R227, R239).
Choices of the model: log 31.
-/
namespace Sys2Proof.Machine

/-! ### Measured values -/

/-- A field-converter channel's latest result as a fraction of its full scale (Q1.15). -/
def State.fcQ (s : State) (ch : Nat) : Int := s.sfld (R.FCV_CHn_LAST ch) F.FCV_CHn_LAST_VALUE

/-- The physical value of a field-converter channel in A or V (R160). -/
def State.chanVal (s : State) (ch : Nat) : Rat :=
  (s.fcQ ch : Rat) * (s.fld (R.FCV_CHn_FS ch) F.FCV_CHn_FS_FS : Rat) / 327680

/-- A round-converter channel's latest corrected result as a fraction of 5.0 V, by sense channel number (Table SEN-2). -/
def State.rndQ (s : State) (ch : Nat) : Rat :=
  let (r, c) := if ch < 0x80 then (0, ch - 0x40) else (1, ch - 0x80)
  (s.sfld (R.RNDr_LASTc r c) F.RNDr_LASTc_VALUE : Rat) / 32768

/-- The voltage of DC link k: the latest result of the channel that THRESH 0x0104 names. -/
def State.linkVolts (s : State) (k : Nat) : Rat := s.chanVal (s.thrN 0x0104 k 0)

/-- The converter groups of an engine's active loop, ascending. -/
def State.groupsOf (s : State) (n : Nat) : List Nat :=
  let m := if s.flag (R.FEn_STATE n) F.FEn_STATE_SECOND then s.withImg 0 fun im => rf ((im.loopWith n 4).getD []) 12 1
    else s.fld (R.FEn_LOOPCFG n) F.FEn_LOOPCFG_GROUPS
  (List.range 8).filter (bitAt m)

/-- The value of a slot of a DAB engine's group: V1 in slot 1, V2 in slot 2, I2 in slot 3 (R118). -/
def State.dabSlot (s : State) (n slot : Nat) : Rat := s.chanVal (4 * (s.groupsOf n).headD 0 + slot)

/-- The engine of a DAB function. -/
def State.dabEngine (s : State) (f : Nat) : Nat := (s.enginesOf f).headD 0

/-- The update spacing of an engine in CTRL cycles (R48). -/
def State.spacing (s : State) (n : Nat) : Nat :=
  let p := s.fld (R.FEn_PERIOD n) F.FEn_PERIOD_PERIOD
  if s.flag (R.FEn_LOOPCFG n) F.FEn_LOOPCFG_UPDATES then p / 2 else p

/-! ### Gate profiles (R130, R131) -/

/-- A profile register's td, BLANK and MINON in ns. -/
def timingOf (w : Word) : Nat × Nat × Nat := (getF w ⟨9, 0⟩, getF w ⟨19, 10⟩, getF w ⟨29, 20⟩)

/-- The leg follows the temperature bands: its role is TRA. -/
def State.banded (s : State) (n : Nat) : Bool := s.fld (R.MOD_LCFGn n) F.MOD_LCFGn_ROLE == 1

/-- The timing of a leg in a band; other roles have one profile. -/
def State.bandTiming (s : State) (n b : Nat) : Nat × Nat × Nat :=
  timingOf (if s.banded n then s.reg (R.MOD_TBAND0 + 4 * b) else s.reg R.MOD_PPROF)

/-- The timing a leg must have at its next update point: the acknowledged band's, while a change waits the larger of both
bands' values, and B3's while its slot is lost (R131). -/
def State.dueTiming (s : State) (n : Nat) : Nat × Nat × Nat :=
  let l := s.leg n
  let a := s.bandTiming n (if l.lost then 3 else l.band)
  if l.pend && !l.lost then
    let b := s.bandTiming n l.want
    (max a.1 b.1, max a.2.1 b.2.1, max a.2.2 b.2.2)
  else a

/-- Bring the effective timing of a leg up to date (at an update point, and at admission). -/
def State.applyTiming (s : State) (n : Nat) : State :=
  let t := s.dueTiming n
  s.updLeg n fun l => { l with td := t.1, blank := t.2.1, minon := t.2.2 }

/-! ### Conditions of R140 -/

/-- A leg of the function is latched or has GF_n low. -/
def State.legsBad (s : State) (f : Nat) : Bool := (s.fnLegs f).any fun n => s.latchOf n != 0 || !s.gfHigh n

/-- Gate link and slot of leg n. -/
def State.glOf (s : State) (n : Nat) : Nat × Nat :=
  (s.fld (R.MOD_LCFGn n) F.MOD_LCFGn_LINK, s.fld (R.MOD_LCFGn n) F.MOD_LCFGn_SLOT)

/-- A driver slot of a gate link. -/
def State.glSlot (s : State) (k j : Nat) : GlSlot := FMap.get glSlotDefault (s.glLink k).slots j

/-- Slot j of link k is named by a LEGS record; it is lost. -/
def State.glUsed (s : State) (k j : Nat) : Bool := bitAt (s.fld (R.GLKk_STAT k) F.GLKk_STAT_USED) j
def State.glLost (s : State) (k j : Nat) : Bool := bitAt (s.fld (R.GLKk_STAT k) F.GLKk_STAT_LOST) j

/-- After admission some used slot that is not lost still waits for its ID read or its STRENGTH write (R150). -/
def State.glStarting (s : State) : Bool :=
  (List.range s.variant.glks).any fun k => (List.range 6).any fun j =>
    s.glUsed k j && !s.glLost k j && !((s.glSlot k j).idOk && (s.glSlot k j).strOk)

/-- A condition of R140 holds for the function; until every used slot has been set up after admission no function leaves IDLE (R150). -/
def State.armBlocked (s : State) (f : Nat) : Bool :=
  !s.driveEn || s.legsBad f || s.glStarting || (s.fnLegs f).any fun n => (s.leg n).lost || s.glLost (s.glOf n).1 (s.glOf n).2

/-! ### Faults -/

/-- A function's state in which a hardware cause takes it to FAULT. -/
def UState.live : UState → Bool
  | .idle => true | .armed => true | .running => true | .stopping => true | _ => false

/-- The functions of the charger: DAB, AFE and the WIND traction function, as CHG_CFG names them. -/
def State.chgDab (s : State) : Nat := s.fld R.CHG_CFG F.CHG_CFG_DAB
def State.chgAfe (s : State) : Nat := s.fld R.CHG_CFG F.CHG_CFG_AFE
def State.chgWind (s : State) : Nat := s.fld R.CHG_CFG F.CHG_CFG_WIND
/-- The phase of the session; 0 none. -/
def State.chgPhase (s : State) : Nat := s.fld R.CHG_STATE F.CHG_STATE_PHASE
/-- The session's front end is WIND. -/
def State.chgIsWind (s : State) : Bool := s.fld R.CHG_STATE F.CHG_STATE_FRONT == 2
/-- A WIND session is RUNNING or STOPPING. -/
def State.windLive (s : State) : Bool :=
  s.chgIsWind && (s.ust U.chg == .running || s.ust U.chg == .stopping)
/-- The function that is the session's front end. -/
def State.chgFront (s : State) : Nat := if s.chgIsWind then s.chgWind else s.chgAfe

/-- A phase change takes effect at once (R209). -/
def State.chgSetPhase (s : State) (p : Nat) : State :=
  if s.chgPhase = p then s else (s.setFld R.CHG_STATE F.CHG_STATE_PHASE p).setFlag R.CHG_EVT F.CHG_EVT_PHASE

/-- A hard stop (R225): every front-end and DAB leg off at stage 1, R116 for both functions, CP_S2 open. -/
def State.chgHardStop (s : State) : State :=
  let fs := (if s.chgFront < 16 then [s.chgFront] else []) ++ (if s.chgDab < 16 then [s.chgDab] else [])
  let s1 := s.each fs fun s f => (s.withdrawOnce f).each (s.fnLegs f) fun s n => s.setDuty n none
  ({ s1 with chg := { s1.chg with hard := true, cpS2 := false } }).setFld R.CHG_ILIM F.CHG_ILIM_SEARCH 0

/-- A mask with bit c − 1 set for cause c. -/
def addCause (m c : Nat) : Nat := if bitAt m (c - 1) then m else m + 2 ^ (c - 1)

/-- The session ends now, for a reason of Table CHG-8; the first reason stands, but a fault governs (R226). -/
def State.chgReason (s : State) (r : Nat) : State :=
  if s.chgPhase = 0 ∨ (s.chg.reason ≠ 0 ∧ r ≠ 9) then s
  else { s with chg := { s.chg with reason := r, ended := if s.chg.reason = 0 then s.time else s.chg.ended } }

/-- The charger takes a fault cause of Table CHG-7 (R227): its bit in CHG_FLT, the event, fault frames for its functions, a hard
stop of a session, and FAULT at the next boundary. Causes 3 to 6 open the AC contactor at once (R218). A charger already in
FAULT records the cause. -/
def State.chgFail (s : State) (c : Nat) : State :=
  let st := s.ust U.chg
  if !st.live && st ≠ .fault then s
  else
    let s1 := (s.setBit R.CHG_FLT F.CHG_FLT_CAUSE (c - 1)).setFlag R.CHG_EVT F.CHG_EVT_FAULT
    let s2 := { s1 with chg := { s1.chg with recorded := addCause s1.chg.recorded c, epoch := addCause s1.chg.epoch c,
                                             acCmd := s1.chg.acCmd && !(3 ≤ c && c ≤ 6) } }
    if st = .fault then s2
    else
      let s3 := if s2.chgDab < 16 then s2.sendFrame 3 s2.chgDab c else s2
      let s4 := if s3.chgAfe < 16 then s3.sendFrame 3 s3.chgAfe c else s3
      let s5 := if s.windLive then s4.sendFrame 3 s4.chgWind c else s4
      let s6 := if s.chgPhase ≠ 0 then (s5.chgReason 9).chgHardStop else s5
      s6.hwFault U.chg

/-- A traction, chopper or HLV function takes a fault cause (R202, R239): the lowest code of the epoch is recorded, FAULT at
the next boundary. `pos` is the faulty leg's position, 0xFF for none. -/
def State.fnRecord (s : State) (f c pos : Nat) : State :=
  if !(s.ust (U.fn f)).live then s
  else
    (s.updTr f fun t => if s.faultPending (U.fn f) && t.cause ≤ c && t.cause ≠ 0 then t else { t with cause := c, badPos := pos }).hwFault (U.fn f)

/-- A function's own fault cause, detected in the function: a fault frame of source 3 and a withdrawal beside the record. -/
def State.fnFail (s : State) (f c pos : Nat) : State :=
  if !(s.ust (U.fn f)).live then s else ((s.fnRecord f c pos).sendFrame 3 f c).withdraw f

/-- What a fault of an engine or of a leg means to the functions it serves: the charger for its own functions and for the
machine of a WIND session, the function otherwise. `c` is 1 LEG_LATCH or 2 ENGINE, the same in each chapter's table. -/
def State.fnReact (s : State) (f c pos : Nat) : State :=
  let r := s.fnRole f
  if r = 2 ∨ r = 3 ∨ r = 4 then s.chgFail c
  else
    let s1 := s.fnRecord f c pos
    if s.windLive && f == s.chgWind then s1.chgFail c else s1

/-- One engine enters FAULT on its own with the event flag at a bit of FEn_EVT (R101). -/
def State.engineFault1 (s : State) (n bit : Nat) : State :=
  if (s.e n).cause ≠ 0 then s
  else
    (((s.feFlag n ⟨bit, bit⟩).updE n fun e => { e with cause := bit + 1, halt := true }).sendFrame 2 n (bit + 1)).hwFault (U.fe n)

/-- An engine enters FAULT on its own, and a coupled partner with it (PARTNER); its function follows (R101, R116). -/
def State.engineFault (s : State) (n bit : Nat) : State :=
  if (s.e n).cause ≠ 0 then s
  else
    let f := s.fld (R.FEn_STATE n) F.FEn_STATE_FUNCTION
    let s1 := s.engineFault1 n bit
    let s2 := match s.partnerOf n with
      | some p => s1.engineFault1 p 5
      | none => s1
    (s2.withdraw f).fnReact f 2 0xFF

/-- The return factor of a link becomes 0 at once: its chopper latched or has a detected fault cause (R197). -/
def State.zeroK (s : State) (f : Nat) : State :=
  if s.fnRole f = 6 then (s.updLnk (s.linkOf f) fun l => { l with k := 0 }).clipFlags (s.linkOf f) else s

/-- Keep MOD_STAT.LATCHED equal to the number of latched legs. -/
def State.syncLatched (s : State) : State := s.setFld R.MOD_STAT F.MOD_STAT_LATCHED s.pads.legCause.length

/-- The event flag of a latch cause (R138). -/
def latchFlag (c : Nat) : Fld :=
  if c ≤ 2 then F.MOD_EVT_TRIP else if c = 3 then F.MOD_EVT_GFAULT else if c = 4 then F.MOD_EVT_ILFAULT else F.MOD_EVT_MISMATCH

/-- Leg n latches (R138): both switches off, the soft-off hold where GS_n is in use, time, cause and count, the report to the
engine, the fault frame, the event, and the function's fault at the next boundary. A leg that is latched stays so. Log 260. -/
def State.latchLeg (s : State) (n c : Nat) : State :=
  if s.latchOf n ≠ 0 then s
  else
    let f := s.fld (R.MOD_LCFGn n) F.MOD_LCFGn_FUNC
    let pos := s.fld (R.MOD_LCFGn n) F.MOD_LCFGn_POS
    let used := s.fld (R.MOD_LCFGn n) F.MOD_LCFGn_ROLE ≠ 0
    let s1 := ((s.setLatch n c).syncLatched.setDuty n none).setSoft n (s.flag (R.MOD_LCFGn n) F.MOD_LCFGn_GSEN)
    let l := s.leg n
    let s2 := ((s1.setReg (R.MOD_LTRIPn n) (BitVec.ofNat 32 (s.time / 5 * 5))).incSat (R.MOD_LCNTn n) F.MOD_LCNTn_TRIPS).setFlag R.MOD_EVT (latchFlag c)
    let s3 := { s2 with mdl := { s2.mdl with latches := s2.mdl.latches ++ [LatchRec.mk n c s.time (if l.lost || !s.banded n then 3 else l.band)] } }
    let s4 := s3.sendFrame 1 n c
    if used then ((s4.withdraw f).zeroK f).fnReact f 1 pos else s4

end Sys2Proof.Machine
end

