-- ==== Sys2Proof/Machine/Gates.lean ====
section
/-!
DEFINITION. The output chain of the pool legs (Table MOD-1): carriers and edges (R124 to R127), the SSM's override (R22, R144), the
half-bridge interlock (R132, R133), the levels at the pins (R138, R141).
Choices of the model: log 208, 209.
-/
namespace Sys2Proof.Machine

/-! ### Carriers and edges (R124, R125) -/

/-- The CTRL clock has stopped: the latest window of its monitor counted nothing (R371). -/
def State.ctrlStopped (s : State) : Bool := !bitAt (s.fld R.CLK_STAT F.CLK_STAT_GOOD) 2 && s.fld (R.CLK_FREQi 2) F.CLK_FREQi_COUNT == 0

/-- The carrier of a function: its period in CTRL cycles and its phase offset. A chopper's has THRESH 0x0110 and no offset (R198). -/
def State.carrierOf (s : State) (f : Nat) : Nat × Nat :=
  if s.fnRole f = 6 then (s.thrN 0x0110 f 40000, 0)
  else let n := (s.enginesOf f).headD 0
       (s.fld (R.FEn_PERIOD n) F.FEn_PERIOD_PERIOD, s.fld (R.FEn_PHASE n) F.FEn_PHASE_PHASE)

/-- The position in a carrier period now, in ticks of 1/32 CTRL cycle: all carriers have run since the end of admission (R124). -/
def State.carrierTick (s : State) (c : Nat × Nat) : Nat :=
  let t := 32 * max 1 c.1
  ((s.time - s.mdl.carrierAt) * 64 / 5 + t - 32 * c.2 % t) % t

/-- Of an old and a new edge passed in the 5 ns just gone, the one that governed it where the new ones govern from now on. -/
def handed (old new : Option Nat) : Option Nat := match new with | some 0 => some 0 | _ => old.filter (0 < ·)

/-- The edges that govern a leg now: a commit's from an edge-lead, 20 ns, after it (R125). -/
def State.governingEdges (s : State) (n : Nat) : Option Nat × Option Nat :=
  let e := s.edgesOf n
  if e.at_ + 20 ≤ s.time then (e.rise, e.fall) else (e.rise0, e.fall0)

/-- The positions of a leg's pins for its commanded edges, in ticks: GL_n and GH_n at a rising edge, GH_n and GL_n at a falling one (R127).
A chopper has its low side only (R198). -/
def pinPositions (chop : Bool) (td : Nat) (e : Option Nat × Option Nat) : List Nat :=
  let one (x : Option Nat) : List Nat := match x with
    | none => []
    | some p => if chop then [p] else [p, p + td * 64 / 5]
  one e.1 ++ one e.2

/-- How many ticks ago a carrier passed a position, if it did so within the 5 ns just gone. -/
def passed (period pos : Nat) (e : Option Nat) : Option Nat :=
  match e with
  | none => none
  | some p =>
    let t := 32 * max 1 period
    let age := (pos + t - p % t) % t
    if age < 64 then some age else none

/-- The rising and the falling edge of leg n that its carrier has passed in the 5 ns just gone, as ticks ago. In the 5 ns that end an
edge-lead after a commit the edges before it govern but for the last instant (R125). -/
def State.edgesPassed (s : State) (n period pos : Nat) : Option Nat × Option Nat :=
  let e := s.edgesOf n
  let old := (passed period pos e.rise0, passed period pos e.fall0)
  let new := (passed period pos e.rise, passed period pos e.fall)
  if s.time < e.at_ + 20 then old
  else if s.time = e.at_ + 20 then (handed old.1 new.1, handed old.2 new.2)
  else new

/-! ### Stage 1: the edge registers (R127, R198) -/

/-- A rising edge: GL falls at it, GH rises td later. -/
def Lock.riseEdge (l : Lock) (now td : Nat) : Lock := { l with low1 := false, due := some (true, now + td) }
/-- A falling edge: GH falls at it, GL rises td later. -/
def Lock.fallEdge (l : Lock) (now td : Nat) : Lock := { l with high1 := false, due := some (false, now + td) }

/-- The turn-on that dead time held back comes due. -/
def Lock.turnOn (l : Lock) (now : Nat) : Lock :=
  match l.due with
  | some (h, t) => if t ≤ now then { l with due := none, high1 := l.high1 || h, low1 := l.low1 || !h } else l
  | none => l

/-- The two edges of 5 ns, in the order the carrier passed them. -/
def Lock.edges (l : Lock) (now td : Nat) (r f : Option Nat) : Lock :=
  match r, f with
  | some a, some b => if a < b then (l.fallEdge now td).riseEdge now td else (l.riseEdge now td).fallEdge now td
  | some _, none => l.riseEdge now td
  | none, some _ => l.fallEdge now td
  | none, none => l

/-- A chopper's low side: on from L, off d × T later; a duty of 1 holds it on. -/
def Lock.chop (l : Lock) (full : Bool) (r f : Option Nat) : Lock :=
  { l with high1 := false, due := none, low1 := full || (if r.isSome then true else if f.isSome then false else l.low1) }

/-- Stage 1 of leg n over the 5 ns just gone; a leg without a committed value is off. It stands while the CTRL clock does. -/
def State.stage1 (s : State) (n : Nat) (l : Lock) : Lock :=
  if s.ctrlStopped then l
  else match s.dutyOf n with
    | none => { l with high1 := false, low1 := false, due := none }
    | some v =>
      let f := s.fld (R.MOD_LCFGn n) F.MOD_LCFGn_FUNC
      let c := s.carrierOf f
      let pos := s.carrierTick c
      let (r, d) := s.edgesPassed n c.1 pos
      if s.fnRole f = 6 then l.chop (1073741824 ≤ v) r d else (l.edges s.up (s.leg n).td r d).turnOn s.up

/-! ### Stage 2: the override (Table MOD-8) -/

/-- GH_n and GL_n behind an override code. -/
def overridden (code : Nat) (high low : Bool) : Bool × Bool :=
  match code with
  | 0 => (high, low)
  | 1 => (false, true)
  | 2 => (true, false)
  | _ => (false, false)

/-- Stage 2: the code at the pad, when it returned to 0b00, the commands, the blanking window of an on-edge (R135), and since when both
switches are commanded on (R133). -/
def Lock.stage2 (l : Lock) (now code blank : Nat) : Lock :=
  let c := overridden code l.high1 l.low1
  let edge := (c.1 && !l.high2) || (c.2 && !l.low2)
  { l with
    code := code
    freeAt := if code = 0 ∧ l.code ≠ 0 then some now else l.freeAt
    high2 := c.1
    low2 := c.2
    blankTo := if edge then now + blank else l.blankTo
    both := if c.1 && c.2 then some (l.both.getD now) else none }

/-! ### Stage 3: the interlock (R132) -/

/-- A switch has been off for the interlock dead time, a free value from IDT to 1.25 × IDT at each transition. -/
def restedFor (n idt now : Nat) (off : Option Nat) : Bool :=
  match off with
  | none => true
  | some t => decide (t + idt + (Config.interlock n t).toNat % (idt / 4 + 1) ≤ now)

/-- Stage 3 of leg n: switches go off at once; one goes on only while the other is off and rested, and of two at once the low side. -/
def Lock.stage3 (l : Lock) (n idt now : Nat) : Lock :=
  let h := l.onH && l.high2
  let d := l.onL && l.low2
  let offH := if l.onH && !h then some now else l.offH
  let offL := if l.onL && !d then some now else l.offL
  let low := d || (l.low2 && !h && restedFor n idt now offH)
  { l with onH := !low && (h || (l.high2 && restedFor n idt now offL)), onL := low, offH := offH, offL := offL }

/-- An on-edge of stage 2 that stage 3 does not pass. -/
def suppressed (before after : Lock) : Bool :=
  (after.high2 && !before.high2 && !after.onH) || (after.low2 && !before.low2 && !after.onL)

/-- Suppressions count: the code is 0b00, and has been for 1.25 × IDT (R132). -/
def Lock.counts (l : Lock) (idt now : Nat) : Bool :=
  l.code == 0 && (match l.freeAt with | none => true | some t => decide (5 * idt ≤ 4 * (now - t)))

/-! ### A leg through the chain -/

/-- Leg n over the 5 ns just gone: its chain, a counted suppression, and the latch of commands held on together for a carrier period. -/
def State.gateLeg (s : State) (n : Nat) : State :=
  let before := s.lockOf n
  let idt := s.fld R.MOD_IDT F.MOD_IDT_IDT
  let l := ((s.stage1 n before).stage2 s.up (s.legOvr n) (s.leg n).blank).stage3 n idt s.up
  let s1 := s.setLock n l
  let s2 := if suppressed before l && l.counts idt s.up then
      (s1.incSat (R.MOD_LCNTn n) F.MOD_LCNTn_ILOCK).setFlag R.MOD_EVT F.MOD_EVT_ILOCK else s1
  match l.both with
  | none => s2
  | some t => if 5 * (s.carrierOf (s.fld (R.MOD_LCFGn n) F.MOD_LCFGn_FUNC)).1 ≤ 2 * (s.up - t) then s2.latchLeg n 4 else s2

/-- The legs whose chain has something to do: used ones, those under override, and those whose switches it still holds. -/
def State.gateLegs (s : State) : List Nat :=
  (List.range 48).filter fun n => s.fld (R.MOD_LCFGn n) F.MOD_LCFGn_ROLE != 0 || s.legOvr n != 0 || s.lockOf n != lockDefault n

/-- The output chains over the 5 ns just gone. -/
def State.gateTick (s : State) : State := s.each s.gateLegs State.gateLeg

/-! ### The pins (stages 4 and 5) -/

/-- The monitor die has started: VKA has crossed 5.5 V (Table RST-6, step 1). Before that the gate pins GH_n, GL_n and GS_n are undriven, with
their pull-downs (R354), and read low below. -/
def State.ssmStarted (s : State) : Bool := !s.rst.sources.contains (1, 0)

/-- TDO is driven but in a system or power-on reset, where it has high impedance; there GLKk_TX is idle high (R354). -/
def State.tdoDriven (s : State) : Bool := s.rst.sysHold == 0
def State.glkIdle (s : State) (k : Nat) : Bool := s.rst.sysHold != 0 || (s.glLink k).wait == .none

/-- GH_n: stage 3 passes the latch gate and the enable gate. -/
def State.pinGH (s : State) (n : Nat) : Bool := s.ssmStarted && (s.lockOf n).onH && s.latchOf n == 0 && s.driveEn
/-- GL_n. -/
def State.pinGL (s : State) (n : Nat) : Bool := s.ssmStarted && (s.lockOf n).onL && s.latchOf n == 0 && s.driveEn
/-- GS_n: high during the soft-off hold; DRIVE_EN does not change it (R141). -/
def State.pinGS (s : State) (n : Nat) : Bool := s.ssmStarted && s.softOn n

/-- The di/dt detector of leg n has the blanking threshold selected (R135): under an override and in the window of an on-edge; never once the
CTRL clock has stopped. -/
def State.blanking (s : State) (n : Nat) : Bool := !s.ctrlStopped && (s.legOvr n != 0 || decide (s.up < (s.lockOf n).blankTo))

end Sys2Proof.Machine
end

