-- ==== Sys2Proof/Machine/Flags.lean ====
section
/-!
DEFINITION. The level of every event source (R396 and the event tables of each chapter): a source is raised while its
unit's flag is set and enabled.
-/
namespace Sys2Proof.Machine

/-- The bit mask of a field. -/
def Fld.mask (f : Fld) : Nat := 2 ^ (f.hi + 1) - 2 ^ f.lo

/-- Source m, as (flag register, enable register, mask), where it is "flag set and enabled". -/
def lineFlags (m : Nat) : Option (Nat × Nat × Nat) :=
  let mk (fs : List Fld) : Nat := (fs.map Fld.mask).foldl (· ||| ·) 0
  if m = 1 then some (R.EVC_EVT, R.EVC_EVTEN, 1)
  else if m = 8 then some (R.LSC_EVT, R.LSC_EVTEN, mk [F.LSC_EVT_MISM])
  else if m = 9 then some (R.SSM_EVT, R.SSM_EVTEN, mk [F.SSM_EVT_SAFE, F.SSM_EVT_RELEASED])
  else if m = 10 then some (R.SSM_EVT, R.SSM_EVTEN, mk [F.SSM_EVT_WDWARN])
  else if m = 11 then some (R.SSM_EVT, R.SSM_EVTEN, mk [F.SSM_EVT_FUNC])
  else if m = 12 then some (R.RST_EVT, R.RST_EVTEN, mk [F.RST_EVT_OPER])
  else if m = 13 then some (R.RST_EVT, R.RST_EVTEN, mk [F.RST_EVT_PAIRRST, F.RST_EVT_UNITRST])
  else if m = 14 then some (R.CLK_EVT, R.CLK_EVTEN, mk [F.CLK_EVT_WARN])
  else if 97 ≤ m ∧ m ≤ 112 then
    let n := (m - 97) / 2
    some (R.FEn_EVT n, R.FEn_EVTEN n, if (m - 97) % 2 = 0 then 0xFF else 0xFF00)
  else if m = 113 then some (R.MOD_EVT, R.MOD_EVTEN, mk [F.MOD_EVT_TRIP])
  else if m = 114 then some (R.MOD_EVT, R.MOD_EVTEN, mk [F.MOD_EVT_GFAULT, F.MOD_EVT_MISMATCH])
  else if m = 115 then some (R.MOD_EVT, R.MOD_EVTEN, mk [F.MOD_EVT_ILOCK, F.MOD_EVT_ILFAULT])
  else if m = 116 then some (R.MOD_EVT, R.MOD_EVTEN,
    mk [F.MOD_EVT_DEN_LOW, F.MOD_EVT_BAND, F.MOD_EVT_APERTURE, F.MOD_EVT_EARLY, F.MOD_EVT_CLEARED])
  else if 121 ≤ m ∧ m ≤ 128 then some (R.GLK_EVT, R.GLK_EVTEN, 0x101 * 2 ^ (m - 121))
  else if m = 129 then some (R.FCV_OVR, R.FCV_OVREN, 0xFFFFFFFF)
  else if m = 130 ∨ m = 131 then some (R.RNDr_EVT (m - 130), R.RNDr_EVTEN (m - 130), mk [F.RNDr_EVT_RQ, F.RNDr_EVT_URGDONE])
  else if m = 132 ∨ m = 133 then some (R.RNDr_EVT (m - 132), R.RNDr_EVTEN (m - 132),
    mk [F.RNDr_EVT_STALE, F.RNDr_EVT_OVF, F.RNDr_EVT_REF, F.RNDr_EVT_LOST])
  else if 134 ≤ m ∧ m ≤ 137 then some (R.POS_EVT, R.POS_EVTEN, 0x11 * 2 ^ (m - 134))
  else if 138 ≤ m ∧ m ≤ 141 then some (R.SENT_EVT, R.SENT_EVTEN, 0x11 * 2 ^ (m - 138))
  else if 142 ≤ m ∧ m ≤ 145 then some (R.SENT_EVT, R.SENT_EVTEN, 0x1100 * 2 ^ (m - 142))
  else if m = 161 then some (R.CHG_EVT, R.CHG_EVTEN, mk [F.CHG_EVT_FAULT])
  else if m = 162 then some (R.CHG_EVT, R.CHG_EVTEN, mk [F.CHG_EVT_PILOT, F.CHG_EVT_PLUG])
  else if m = 163 then some (R.CHG_EVT, R.CHG_EVTEN, mk [F.CHG_EVT_PHASE, F.CHG_EVT_LIMIT])
  else if m = 164 then some (R.REG_EVT, R.REG_EVTEN, mk [F.REG_EVT_FAULT, F.REG_EVT_OV])
  else if m = 165 then some (R.REG_EVT, R.REG_EVTEN, mk [F.REG_EVT_RESTORE, F.REG_EVT_SHED, F.REG_EVT_ADD])
  else if m = 166 then some (R.REG_EVT, R.REG_EVTEN, mk [F.REG_EVT_HICCUP, F.REG_EVT_LIMIT])
  else if 167 ≤ m ∧ m ≤ 170 then some (R.ACk_EVT (m - 167), R.ACk_EVTEN (m - 167), 0xFFFFFFFF)
  else if m = 171 then some (R.ACT_EVT, R.ACT_EVTEN, 0xFFFFFFFF)
  else if m = 172 then some (R.GBX_EVT, R.GBX_EVTEN, mk [F.GBX_EVT_DONE, F.GBX_EVT_REPORT, F.GBX_EVT_BLOCK])
  else if m = 173 then some (R.GBX_EVT, R.GBX_EVTEN, mk [F.GBX_EVT_FAULT])
  else if 193 ≤ m ∧ m ≤ 198 then some (R.CANn_EVT (m - 193), R.CANn_EVTEN (m - 193), 0xFFFFFFFF)
  else if m = 201 ∨ m = 202 then some (R.ETHp_EVT (m - 201), R.ETHp_EVTEN (m - 201), 0xFFFFFFFF)
  else if m = 203 then some (R.SEC_EVT, R.SEC_EVTEN, 0xFFFFFFFF)
  else if m = 225 then some (R.LDG_EVT, R.LDG_EVTEN, mk [F.LDG_EVT_IMB])
  else if m = 226 then some (R.LDG_EVT, R.LDG_EVTEN, mk [F.LDG_EVT_STALE, F.LDG_EVT_LIMITS])
  else if m = 227 then some (R.LDG_EVT, R.LDG_EVTEN, mk [F.LDG_EVT_WDRAW, F.LDG_EVT_WQOVF])
  else if m = 228 then some (R.LDG_EVT, R.LDG_EVTEN, mk [F.LDG_EVT_KAEND, F.LDG_EVT_SAT])
  else if m = 229 then some (R.THM_EVT, R.THM_EVTEN, mk [F.THM_EVT_THROT, F.THM_EVT_FAST])
  else if m = 230 then some (R.THM_EVT, R.THM_EVTEN, mk [F.THM_EVT_BROKEN, F.THM_EVT_COLD, F.THM_EVT_MRAMWIN])
  else if m = 232 then some (R.MEM_EVT, R.MEM_EVTEN, mk [F.MEM_EVT_CETHR])
  else if m = 233 then some (R.MEM_EVT, R.MEM_EVTEN, mk [F.MEM_EVT_UE, F.MEM_EVT_RESTFAIL])
  else if m = 234 then some (R.NVS_EVT, R.NVS_EVTEN, mk [F.NVS_EVT_WDONE, F.NVS_EVT_WFAIL])
  else if m = 235 then some (R.NVS_EVT, R.NVS_EVTEN, mk [F.NVS_EVT_JLOST])
  else none

/-- The event source 33 + n of pigeonhole n (R92): signalled receipts not yet consumed; for a letter pigeonhole, FULL_SEEN
with at least half its ring free. -/
def State.phLine (s : State) (n : Nat) : Bool :=
  s.phEn n &&
  (if s.phIsReceipt n then ringDist (s.phSize n) (s.phHead n) (s.pigeon n).signalled != 0
   else s.flag (R.PHn_STAT n) F.PHn_STAT_FULL_SEEN && 2 * s.phCount n ≤ s.phSize n)

/-- The level of event source m. Sources 3 and 4 follow R12 and R88, 231 any THM_SUPFLT.SEEN bit, 241 + k doorbell k. A
source that no chapter assigns is never raised. -/
def State.lineLevel (s : State) (m : Nat) : Bool :=
  if m = 3 then s.flag R.SYS_WERR_CODE F.SYS_WERR_CODE_VALID && s.flag R.SYS_WERR_CTL F.SYS_WERR_CTL_EVT_EN
  else if m = 4 then s.flag R.PST_MERR_CODE F.PST_MERR_CODE_VALID && s.flag R.PST_MERR_CTL F.PST_MERR_CTL_EVT_EN
  else if 33 ≤ m ∧ m ≤ 96 then s.phLine (m - 33)
  else if m = 231 then s.flag R.THM_SUPFLT F.THM_SUPFLT_SEEN
  else if 241 ≤ m ∧ m ≤ 256 then bitAt (s.fld R.EVC_DBSET F.EVC_DBSET_DB) (m - 241)
  else match lineFlags m with
    | none => false
    | some (e, en, mask) => ((s.reg e).toNat &&& (s.reg en).toNat &&& mask) != 0

end Sys2Proof.Machine
end

