-- ==== Sys2Proof/Machine/Letters.lean ====
section
/-!
DEFINITION. Letters: the intake checks (R79, R80), the delivery checks in their one order (R85), receipts of a
delivery and of an operation's end (R72, R89), and what a unit's chapter says of one opcode, as a `LetterSpec`.
Choices of the model: log 16, 17.
-/
namespace Sys2Proof

/-! ### Reading a letter's body: offsets are those of the 64-byte letter -/

def Msg.nat (m : Msg) (off n : Nat) : Nat := Machine.leAt m.letter.body (off - 16) n
def Msg.u8 (m : Msg) (off : Nat) : Nat := m.nat off 1
def Msg.u16 (m : Msg) (off : Nat) : Nat := m.nat off 2
def Msg.u32 (m : Msg) (off : Nat) : Nat := m.nat off 4
def Msg.i16 (m : Msg) (off : Nat) : Int := Machine.toSigned 16 (m.u16 off)
def Msg.i32 (m : Msg) (off : Nat) : Int := Machine.toSigned 32 (m.u32 off)
def Msg.unit (m : Msg) : Nat := m.letter.unit

/-- The register address that a WRITE letter names. -/
def Msg.addr (m : Msg) : Nat := m.u32 16

end Sys2Proof

namespace Sys2Proof.Machine

/-- The body bytes outside the used ranges (inclusive letter offsets) are zero, and the body is no longer than 40
bytes (R71). -/
def bodyZeroOutside (used : List (Nat × Nat)) (m : Msg) : Bool :=
  m.letter.body.length ≤ 40 &&
  (List.range 40).all fun i =>
    used.any (fun r => decide (r.1 ≤ i + 16) && decide (i + 16 ≤ r.2)) || m.letter.body.getD i 0 == 0

/-- What an accepted letter answers at its delivery: DONE with a result and what waits for its receipt's handover
(R477), or ACCEPTED, or nothing yet: its one receipt is issued when its steps are done (R67). -/
inductive Ans where
  | done (result : List Byte) (after : Option Deferred)
  | accepted
  | later
  deriving DecidableEq, Repr

/-- What a chapter says of one opcode: the units that know it, the states it is legal in, the body bytes it uses, the
checks it can fail (in any order: R85 orders them), its unit-specific checks (step 12), whether it completes later,
its failure detail, and its effect. -/
structure LetterSpec where
  units : State → Nat → Bool
  legal : UState → Bool
  used : List (Nat × Nat)
  fails : State → Msg → List Status := fun _ _ => []
  late : State → Msg → List Status := fun _ _ => []
  opens : State → Msg → Bool := fun _ _ => false
  detail : State → Msg → Status → List Byte := fun _ _ _ => []
  run : State → Msg → Nat → State × Ans

/-- The place of a check in the order of R85. -/
def checkRank : Status → Nat
  | .eAborted => 1 | .eDeadline => 2 | .eFormat => 3 | .eAbsent => 3 | .eFault => 4 | .eState => 5 | .eLocked => 6
  | .eRange => 7 | .eTemp => 8 | .eInterlock => 9 | .eBudget => 10 | .eFull => 11 | _ => 12

/-- The failing check that comes first in R85; of two of one rank the one named first. -/
def firstFail : List Status → Option Status
  | [] => none
  | x :: t =>
    match firstFail t with
    | none => some x
    | some y => if checkRank y < checkRank x then some y else some x

/-- The outstanding table is full (R89). -/
def State.opsFull (s : State) : Bool := 256 ≤ s.opCount

/-- The state check of an opcode: E_FAULT for a unit in FAULT, else E_STATE (R85). -/
def stateFail (legal : UState → Bool) (st : UState) : List Status :=
  if legal st then [] else if st = .fault then [.eFault] else if st = .absent then [.eAbsent] else [.eState]

/-- Letters that poste restante mode accepts (R361): STATE and READ, the image and firmware letters, RST_SYSTEM. -/
def prAccepts (opcode : Nat) : Bool :=
  [2, 3, 0x0A01, 0x0A02, 0x0A03, 0x0A11, 0x0A12, 0x0A13, 0x0D03].contains opcode

/-- The state check of poste restante mode (R361). -/
def State.prFails (s : State) (opcode : Nat) : List Status :=
  if s.flag R.RST_START F.RST_START_PR && !prAccepts opcode then [.eState] else []

/-- The first failing delivery check of a letter (R85); `none` where it passes all. -/
def verdict (sp : LetterSpec) (s : State) (m : Msg) : Option Status :=
  let l := m.letter
  if m.marked then some .eAborted
  else if l.deadline ≠ 0 ∧ pmBefore l.deadline s.pm then some .eDeadline
  else if !sp.units s l.unit || !bodyZeroOutside sp.used m then some .eFormat
  else
    match firstFail (sp.fails s m ++ s.prFails l.opcode ++ stateFail sp.legal (s.ust l.unit) ++ (if sp.opens s m && s.opsFull then [.eFull] else [])) with
    | some st => some st
    | none => (sp.late s m).head?

/-- A letter is refused at delivery: a failure receipt, and the dead-letter journal (R72, R96); for a converted
letter the capture in PST_MERR instead of a receipt (R88). -/
def refuseLetter (s : State) (m : Msg) (st : Status) (detail : List Byte) : State :=
  let r : Receipt := ⟨m.letter.opcode, m.letter.unit, st, m.letter.seq, s.pm, s.pm, detail⟩
  match m.src with
  | .mgmt => (s.captureMerr st m.addr).deadLetter (letterBytes m.letter) st 0xFF 4
  | .ph n => (s.issueReceipt m.src m.letter.flags r).1.deadLetter (letterBytes m.letter) st n 1

/-- A deferred action waits for its receipt in the ring, or is ready where the receipt counts as handed over (R477). -/
def State.defer (s : State) (d : Option Deferred) (p : Placed) : State :=
  match d with
  | none => s
  | some a =>
    match p with
    | .ring ph ix => { s with po := { s.po with deferred := s.po.deferred ++ [⟨a, ph, ix⟩] } }
    | _ => { s with po := { s.po with ready := s.po.ready ++ [a] } }

/-- The receipt of a delivery that was not refused. -/
def acceptLetter (s : State) (m : Msg) (a : Ans) : State :=
  let l := m.letter
  match a with
  | .later => s
  | .accepted => (s.issueReceipt m.src l.flags ⟨l.opcode, l.unit, .accepted, l.seq, s.pm, 0, []⟩).1
  | .done res after =>
    let (s1, p) := s.issueReceipt m.src l.flags ⟨l.opcode, l.unit, .done, l.seq, s.pm, s.pm, res⟩
    s1.defer after p

/-- Deliver a letter: the checks of R85, then its effect and its receipt; a refused letter changes no unit (R13). -/
def deliver (sp : LetterSpec) (s : State) (m : Msg) : State :=
  match verdict sp s m with
  | some st => refuseLetter s m st (sp.detail s m st)
  | none =>
    if sp.opens s m then
      let (s1, k) := s.openOp m
      let (s2, a) := sp.run s1 m k
      match a with
      | .accepted => acceptLetter s2 m a
      | .later => acceptLetter s2 m a
      | .done _ _ => acceptLetter (s2.closeOp k) m a
    else
      let (s2, a) := sp.run s m 0
      acceptLetter s2 m a

/-- A letter whose whole effect is an immediate DONE without result. -/
def doneWith (s : State) : State × Ans := (s, .done [] none)

/-- A letter that is accepted and completes later. -/
def acceptedWith (s : State) : State × Ans := (s, .accepted)

/-! ### The end of an operation (R89, R90) -/

/-- The operations whose chapter gives their failing final receipts a result: CHG_START (R226) and the sequencer's (R283). -/
def keepsResult (opcode : Nat) : Bool := [0x0502, 0x0903, 0x0904, 0x0905].contains opcode

/-- The final receipt of an outstanding operation: E_ABORTED or E_DEADLINE where it was being stopped, E_FAULT where its
unit faulted. A failing final receipt is journalled (stage 2). -/
def finalReceipt (s : State) (k : Nat) (st : Status) (result : List Byte) : State :=
  match s.po.ops.find? fun p => p.1 == k with
  | none => s
  | some (_, e) =>
    let st1 : Status := if st = .eFault then .eFault else
      match e.stop with
      | .none => st
      | .abort => .eAborted
      | .deadline => .eDeadline
    let res := if st1 = st ∨ keepsResult e.opcode then result else []
    let r : Receipt := ⟨e.opcode, e.unit, st1, e.seq, e.delivered, s.pm, res⟩
    let s1 := ((s.closeOp k).issueReceipt e.src e.flags r).1
    if st1.ok then s1 else s1.deadLetter (receiptBytes r) st1 e.src.phByte 2

/-- Every outstanding operation of a unit ends with a status (a fault: E_FAULT; a reset: E_ABORTED). -/
def endOpsOf (s : State) (unit : Nat) (st : Status) : State :=
  s.each ((s.po.ops.filter fun p => p.2.unit == unit).map (·.1)) fun s k => finalReceipt s k st []

/-! ### Intake (R79, R80) -/

/-- The sequence number that passes the check next (R80). -/
def State.nextSeq (s : State) (ph : Nat) : Nat := seqNext (s.reg (R.PHn_SEQ ph)).toNat

/-- The pigeonhole's producer is a network port (R76). -/
def State.phFromNet (s : State) (ph : Nat) : Bool := 0x30 ≤ s.phProducer ph && s.phProducer ph ≤ 0x39

/-- The first failing intake check of a letter (R79). -/
def intakeFail (s : State) (ph : Nat) (l : Letter) (frankOk : Bool) : Option Status :=
  let cls := l.flags % 4
  let franked := bitAt l.flags 3
  let next := pmNext s.pm
  let at' := if l.deliverAt = 0 then next else l.deliverAt
  if cls ≠ s.phClass ph || 16 ≤ l.flags || franked ≠ s.phFromNet ph || (!franked && l.frank.any (· != 0))
      || !unitKnown l.unit || (l.opcode < 0x100 && !(1 ≤ l.opcode && l.opcode ≤ 4)) || (l.opcode == 4 && l.unit != 0)
    then some .eFormat
  else if !frankOk then some .eFrank
  else if l.seq ≠ s.nextSeq ph then some .eSeq
  else if !unitPresent s.variant l.unit then some .eAbsent
  else if (l.deliverAt ≠ 0 && pmBefore s.pm l.deliverAt && 0x100000 < (l.deliverAt + 2 ^ 32 - s.pm) % 2 ^ 32)
      || (l.deadline ≠ 0 && pmBefore l.deadline at') then some .eRange
  else if s.phCount ph ≥ s.phSize ph then some .eFull
  else none

/-- Take a letter in on a pigeonhole: enqueue it at the tail, or refuse it with a receipt and a journal entry; PHn_STAT
shows the status, and a full ring sets FULL_SEEN (R78 to R80). A receipt for E_FRANK or E_SEQ to a network port carries the session counter
and PHn_SEQ (R427). -/
def intake (s : State) (ph : Nat) (l : Letter) (frankOk : Bool) : State :=
  match intakeFail s ph l frankOk with
  | none =>
    let t := s.phTail ph
    ((((s.setSlot (s.phSlot ph t) (.letter l false)).wroteSlot (s.phSlot ph t)).setFld (R.PHn_TAIL ph) F.PHn_TAIL_INDEX ((t + 1) % (2 * s.phSize ph))).setFld
      (R.PHn_SEQ ph) F.PHn_SEQ_SEQ l.seq).setFld (R.PHn_STAT ph) F.PHn_STAT_INTAKE Status.done.code
  | some st =>
    let s1 := s.setFld (R.PHn_STAT ph) F.PHn_STAT_INTAKE st.code
    let s2 := if st = .eFull then s1.setFlag (R.PHn_STAT ph) F.PHn_STAT_FULL_SEEN else s1
    let res := if (st = .eFrank ∨ st = .eSeq) ∧ s.phFromNet ph then leBytes 4 s.aon.session ++ leBytes 4 (s.reg (R.PHn_SEQ ph)).toNat else []
    let r : Receipt := ⟨l.opcode, l.unit, st, l.seq, s.pm, s.pm, res⟩
    (s2.sendReceipt ph (l.flags % 4) r).1.deadLetter (letterBytes l) st ph 0

/-- The letter that 64 bytes spell (Table PST-1). -/
def letterOfBytes (b : List Byte) : Letter :=
  ⟨leAt b 0 2, leAt b 2 1, leAt b 3 1, leAt b 4 4, leAt b 8 4, leAt b 12 4, padTo 40 (b.drop 16), padTo 8 (b.drop 56)⟩

end Sys2Proof.Machine
end

