-- ==== Sys2Proof/Machine/Cores.lean ====
section
/-!
DEFINITION. Cores and the event controller (15): delivery of sources, claims and completions, fast events, sleep and wake,
the CSRs, traps, physical memory protection and debug triggers, doorbells and start addresses.
Choices of the model: log 14, 224, 225, 226, 227.
-/
namespace Sys2Proof.Machine

/-! ### Standard CSRs and what they decide (R390, Table EVC-1) -/

/-- A standard CSR as stored. -/
def CoreSt.std (c : CoreSt) (n : Nat) : Word := FMap.get (fun _ => 0) c.csr n

/-- The core with a stored CSR replaced. -/
def CoreSt.setStd (c : CoreSt) (n : Nat) (v : Word) : CoreSt := { c with csr := FMap.set (fun _ => 0) c.csr n v }

/-- The configuration byte of PMP region i: L in bit 7, A in bits [4:3], X, W, R in bits 2 to 0. -/
def CoreSt.pmpCfg (c : CoreSt) (i : Nat) : Nat := (c.std (0x3A0 + i / 4)).toNat / 2 ^ (8 * (i % 4)) % 256

/-- How many low bits of a number are ones, up to a count. -/
def trailOnes : Nat → Nat → Nat
  | 0, _ => 0
  | f + 1, n => if n % 2 = 1 then 1 + trailOnes f (n / 2) else 0

/-- PMP region i holds an address: TOR or NAPOT over granules of 32 bytes. -/
def CoreSt.pmpHolds (c : CoreSt) (i a : Nat) : Bool :=
  let addr (j : Nat) := (c.std (0x3B0 + j)).toNat
  match c.pmpCfg i / 8 % 4 with
  | 1 => (if i = 0 then 0 else addr (i - 1) / 8 * 32) ≤ a && a < addr i / 8 * 32
  | 3 =>
    let size := 2 ^ (trailOnes 32 (addr i ||| 3) + 3)
    a / size == addr i * 4 / size
  | _ => false

/-- Physical memory protection lets an access pass in a privilege: bit 0 read, 1 write, 2 execute. The lowest region that holds the address
decides; M mode heeds a locked one only, and U mode needs one. -/
def CoreSt.pmpAllows (c : CoreSt) (priv a bit : Nat) : Bool :=
  match (List.range 16).find? fun i => c.pmpHolds i a with
  | some i => bitAt (c.pmpCfg i) bit || (priv == 3 && !bitAt (c.pmpCfg i) 7)
  | none => priv == 3

/-- The privilege of an access: that of the core, of mstatus.MPP for a data access with MPRV; the debugger's accesses through a halted hart
are M mode's. -/
def CoreSt.accessPriv (c : CoreSt) (fetch : Bool) : Nat :=
  if c.halted then 3
  else if !fetch && bitAt (c.std 0x300).toNat 17 then getF (c.std 0x300) ⟨12, 11⟩ else c.priv

/-- Debug trigger i of the core matches an access (R434): an equal address, in the mode that it watches, for a read (bit 0), a write (1) or a
fetch (2). -/
def CoreSt.triggerHits (c : CoreSt) (a bit i : Nat) : Bool :=
  let d := (c.std (0x1000 * (i + 1) + 0x7A1)).toNat
  !c.halted && bitAt d bit && bitAt d (if c.priv = 3 then 6 else 3) && (c.std (0x1000 * (i + 1) + 0x7A2)).toNat == a

/-! ### Interrupts and traps -/

/-- mip.MTIP of core t: the time of record is at or above mtimecmp (R391). -/
def State.mtip (s : State) (t : Nat) : Bool := decide ((s.core t).mtimecmp ≤ s.time)

/-- A trap of core t through mtvec with an mcause and mtval: mepc, mstatus and the privilege as the Machine ISA states them; a reservation
is lost (Table EVC-1), the bank and mfcause.ACTIVE stay (R407). -/
def State.trap (s : State) (t cause tval : Nat) : State :=
  s.updCore t fun c =>
    let m := c.std 0x300
    let v := (c.std 0x305).toNat
    let c1 := ((((c.setStd 0x341 (BitVec.ofNat 32 c.pc)).setStd 0x342 (BitVec.ofNat 32 cause)).setStd 0x343 (BitVec.ofNat 32 tval)).setStd 0x300
      (setF (setF (setF m ⟨7, 7⟩ (getF m ⟨3, 3⟩)) ⟨3, 3⟩ 0) ⟨12, 11⟩ c.priv))
    { c1 with priv := 3, reservation := none, pc := v / 4 * 4 + (if v % 4 = 1 ∧ 2 ^ 31 ≤ cause then 4 * (cause - 2 ^ 31) else 0) }

/-- The interrupt of the normal class or of the machine timer that core t takes now: enabled in mie, not masked by mstatus.MIE in M mode, and
none while a fast handler runs (R405), in WFI or debug mode. -/
def State.irqOf (s : State) (t : Nat) : Option Nat :=
  let c := s.core t
  if s.available t && !c.halted && !c.active && !c.wfi && (c.priv != 3 || bitAt (c.std 0x300).toNat 3) then
    if s.meip t && bitAt (c.std 0x304).toNat 11 then some 11
    else if s.mtip t && bitAt (c.std 0x304).toNat 7 then some 7 else none
  else none

/-- Core t takes an interrupt that is pending and enabled. -/
def State.takeIrq (s : State) (t : Nat) : State :=
  match s.irqOf t with
  | none => s
  | some k => s.trap t (2 ^ 31 + k) 0

/-- After a change at the EVC that a running core can take an interrupt on: the record of MEIP, and the interrupts. -/
def State.evcSettle (s : State) : State := s.evcRefresh.each s.runCores State.takeIrq

/-- Put a source line into the synchronised set, or take it out. -/
def State.setLine (s : State) (m : Nat) (on : Bool) : State :=
  let r := s.evc.raised.filter (· != m)
  { s with evc := { s.evc with raised := if on then m :: r else r } }

/-- Raise doorbell k: set again while in service, it is raised again after its completion (R397). -/
def State.ringBell (s : State) (k : Nat) : State :=
  let m := 241 + k
  if s.evc.inserv.any (fun p => p.1 == m) then
    { s with evc := { s.evc with again := m :: s.evc.again.filter (· != m) } }
  else (s.setBit R.EVC_DBSET F.EVC_DBSET_DB k).setLine m true

/-- Put a source in service at core t; a doorbell's line falls (R397, R398). -/
def State.takeSource (s : State) (m t : Nat) : State :=
  let s1 := { s with evc := { s.evc with inserv := FMap.put s.evc.inserv m t } }
  if 241 ≤ m then (s1.clrBit R.EVC_DBSET F.EVC_DBSET_DB (m - 241)).setLine m false else s1

/-- Complete a source (R398); a doorbell set again meanwhile is raised again. -/
def State.completeSource (s : State) (m : Nat) : State :=
  let s1 := { s with evc := { s.evc with inserv := FMap.erase s.evc.inserv m } }
  if s1.evc.again.contains m then
    State.ringBell { s1 with evc := { s1.evc with again := s1.evc.again.filter (· != m) } } (m - 241)
  else s1

/-- Whether a target register's core is absent, or not run by the boot mode (R408). -/
def State.coreFails (s : State) (t : Nat) : List Status :=
  if s.runCores.contains t then []
  else if t < (if s.split then s.variant.cores else if t < 4 then s.variant.pairs else s.variant.cores) then [.eState]
  else [.eAbsent]

/-- The requester is core t. -/
def State.isCore (s : State) (who : Requester) (t : Nat) : Bool :=
  match who with
  | .core c => s.coreOfCode c == some t
  | .letter c => s.coreOfCode c == some t
  | .debug _ => false

/-- An exception that this block raises to core t, by its mcause code, with its mtval: the address of an access, else 0. -/
def State.raiseExc (s : State) (t code tval : Nat) : State :=
  (s.trap t code tval).updCore t fun c => { c with exc := some code }

/-! ### Debug mode (R326, R327) -/

/-- A pair's watchdog pauses while its cores are halted with the debug lock open and goes on from its count afterwards (R327, R334). -/
def State.haltWatch (s : State) (n : Nat) : State :=
  let mode := s.fld (R.SSM_WDSTATn n) F.SSM_WDSTATn_MODE
  if (s.coresOf n).all fun t => (s.core t).halted then
    if mode = 1 ∨ mode = 2 then
      (s.setWd n { s.wd n with before := mode, at_ := s.time - (s.wd n).at_ }).setFld (R.SSM_WDSTATn n) F.SSM_WDSTATn_MODE 3
    else s
  else if mode = 3 then (s.setWd n { s.wd n with at_ := s.time - (s.wd n).at_ }).setFld (R.SSM_WDSTATn n) F.SSM_WDSTATn_MODE (s.wd n).before
  else s

/-- k actions pass through the replay queue of pair t (R326): the checker makes them 2 cycles later, when they leave it; where the queue of 16
is full the transaction waits for it to drain. -/
def State.replayed (s : State) (t k : Nat) : State :=
  if s.split then s
  else
    let old := (s.pairSt t).replay
    let now := min (if 16 < old + k then k else old + k) 16
    ((s.setPair t { s.pairSt t with replay := now }).setFld (R.DBG_REPLAYn t) F.DBG_REPLAYn_COUNT now).setFld (R.DBG_REPLAYn t)
      F.DBG_REPLAYn_PEAK (max (s.fld (R.DBG_REPLAYn t) F.DBG_REPLAYn_PEAK) (if 16 < old + k then 16 else now))

/-- The checkers have made the queued actions: two cycles have passed. -/
def State.replayDrain (s : State) : State :=
  s.each ((List.range 4).filter fun n => (s.pairSt n).replay != 0) fun s n =>
    (s.setPair n { s.pairSt n with replay := 0 }).setFld (R.DBG_REPLAYn n) F.DBG_REPLAYn_COUNT 0

/-- Core t enters debug mode for a cause of dcsr: 2 a trigger, 3 a halt request, 4 a step. The reservation is lost, the halt counted, the
watchdog of its pair paused. -/
def State.enterHalt (s : State) (t cause : Nat) : State :=
  let n := s.pairOf t
  let s1 := (s.updCore t fun c =>
    { c.setStd 0x7B0 (setF (c.std 0x7B0) ⟨8, 6⟩ cause) with halted := true, reservation := none }).incSat (R.DBG_HALTSt t) F.DBG_HALTSt_COUNT
  (if s.split || (s.core t).cond == .stopped then s1 else s1.setLscStat n 2).haltWatch n

/-- What stops an access of a core before it is made: a debug trigger, which halts the core or raises a breakpoint (3), else the physical
memory protection, an access fault (R390, R434). -/
def State.barred (s : State) (who : Requester) (a bit : Nat) : Option State :=
  match who with
  | .debug _ => none
  | .letter _ => none
  | .core code =>
    match s.coreOfCode code with
    | none => none
    | some t =>
      let c := s.core t
      match (List.range 4).find? (c.triggerHits a bit) with
      | some i =>
        let s1 : State := { s with resp := ⟨.eFault, 0⟩ }
        if bitAt (c.std (0x1000 * (i + 1) + 0x7A1)).toNat 12 then some ((s1.enterHalt t 2).replayed t 1) else some (s1.raiseExc t 3 a)
      | none =>
        if c.pmpAllows (c.accessPriv (bit == 2)) a bit then none
        else some (({ s with resp := ⟨.eFault, 0⟩ }).raiseExc t (if bit = 2 then 1 else if bit = 1 then 7 else 5) a)

/-- A register on the monitor die, across the link (Table EVC-3): SSM or THM. -/
def monitorReg (a : Nat) : Bool := (0x40030000 ≤ a && a < 0x40040000) || (0x40080000 ≤ a && a < 0x40090000)

/-- A register access by a requester, whose result otherwise is `t`: a debugger's one fails with sberror 7 while the lock is LOCKED,
recorded with E_LOCKED (R433, R434); a core's one that a trigger or the memory protection stops is not made (R390); a refused access is a
failed transaction to the debug module and an access fault to a core, a load (5) or a store one (7) (R4), and a letter's status. One that
has crossed the link to the monitor die ends its retries (R21). -/
def State.accessBy (s : State) (who : Requester) (a : Nat) (store : Bool) (t : State) : State :=
  match who with
  | .letter _ => t
  | .debug h =>
    if s.debugLocked && !debugOpen a then
      let x := s.refuse .eLocked a
      { x with dbg := { x.dbg with active := true, hartsel := h, sberror := 7 } }
    else
      let x : State := { t with dbg := { t.dbg with active := true, hartsel := h } }
      if t.resp.status.ok then x else x.sbFail t.resp.status
  | .core c =>
    match s.barred who a (b2n store) with
    | some x => x
    | none =>
      match t.resp.status.ok, t.coreOfCode c with
      | false, some k => t.raiseExc k (if store then 7 else 5) a
      | true, _ => if monitorReg a then t.linkDone 2 (c + 256 * b2n store) else t
      | _, _ => t

/-- The requester is P0, or C0 in split mode. -/
def State.isCore0 (s : State) (who : Requester) : Bool := s.isCore who 0

/-- EVENT_LINE_CHANGE: the line of source m takes its level, and delivery follows (R396, R398). -/
def execEventLineChange (m : Nat) (s : State) : Out :=
  .next (if 1 ≤ m ∧ m ≤ 256 then (s.setLine m (s.lineLevel m)).evcSettle else s)

/-- The value that a claim by core t returns (R399). -/
def State.claimValue (s : State) (t : Nat) : Nat :=
  match s.bestSource (s.evc.raised.filter (s.deliverable t)) with
  | some m => m
  | none => if (s.core t).meipSeen then 0x3FF else 0

/-- The effect of a claim by core t. -/
def State.claim (s : State) (t : Nat) : State :=
  let v := s.claimValue t
  let s1 := if v = 0 ∨ v = 0x3FF then s else s.takeSource v t
  ((s1.updCore t fun c => { c with meipSeen := false }).evcRefresh).respond v

/-- EVENT_CLAIM (R399): a read of EVC_CLAIMt by core t claims; a debug read returns what a claim would return and claims
nothing, and so does one through a halted hart (R402); any other requester is refused (R409). -/
def execEventClaim (who : Requester) (t : Nat) (s : State) : Out :=
  .next <| s.accessBy who (R.EVC_CLAIMt t) false <|
    match regFirst (s.coreFails t ++ (match who with | .debug _ => [] | _ => if s.isCore who t then [] else [.eLocked])) with
    | some st => s.refuse st (R.EVC_CLAIMt t)
    | none => match who with
      | .debug _ => s.respond (s.claimValue t)
      | _ => if (s.core t).halted then s.respond (s.claimValue t) else s.claim t

/-- EVENT_COMPLETE (R398): core t completes a source in service at it. -/
def execEventComplete (who : Requester) (t : Nat) (value : Word) (s : State) : Out :=
  let id := getF value F.EVC_CLAIMt_ID
  .next <| s.accessBy who (R.EVC_CLAIMt t) true <|
    match regFirst (s.coreFails t ++ (if s.isCore who t then [] else [.eLocked])
      ++ (if value.toNat < 1024 then [] else [.eFormat]) ++ (if id = 0 ∨ 0x100 < id then [.eRange] else [])
      ++ (if s.evc.inserv.any (fun p => p.1 == id && p.2 == t) then [] else [.eState])) with
    | some st => s.refuse st (R.EVC_CLAIMt t)
    | none => ((s.completeSource id).evcSettle).respond 0

/-- DOORBELL_SET (R397): each bit written 1 raises its doorbell. -/
def execDoorbellSet (who : Requester) (value : Word) (s : State) : Out :=
  .next <| s.accessBy who R.EVC_DBSET true <|
    if getF value ⟨31, 16⟩ ≠ 0 then s.refuse .eFormat R.EVC_DBSET
    else ((s.each ((List.range 16).filter (bitAt value.toNat)) State.ringBell).evcSettle).respond 0

/-- The status of a core unit code in EVC_SRCm (R409). -/
def State.codeFails (s : State) (code : Nat) : List Status :=
  if !((0x40 ≤ code ∧ code < 0x44) ∨ (0x48 ≤ code ∧ code < 0x50)) then [.eRange]
  else if !unitPresent s.variant code then [.eAbsent]
  else if (s.coreOfCode code).isNone then [.eState] else []

/-- EVENT_SOURCE_WRITE (R401, R409): a write of EVC_SRCm takes effect at once; a source in service stays with its core. -/
def execEventSourceWrite (who : Requester) (m : Nat) (value : Word) (s : State) : Out :=
  let tgt := getF value F.EVC_SRCm_TARGET
  let fb := getF value F.EVC_SRCm_FALLBACK
  .next <| s.accessBy who (R.EVC_SRCm m) true <|
    s.tryWrite (R.EVC_SRCm m) value
      (s.codeFails tgt ++ (if fb = 0xFF then [] else s.codeFails fb) ++ (if fb = tgt then [.eRange] else [])
        ++ (if getF value F.EVC_SRCm_PRIO = 0 then [.eRange] else []))
      fun s => (s.setReg (R.EVC_SRCm m) (BitVec.ofNat 32 (value.toNat / 4 * 4))).evcSettle

/-- STRANDED_EVENT (R403): a raised, enabled source that reaches no core is recorded; source 1 never is. -/
def execStrandedEvent (m : Nat) (s : State) : Out :=
  .next <|
    if m ≠ 1 && s.srcPending m && s.deliveredTo m == none then
      ((s.setFlag R.EVC_EVT F.EVC_EVT_STRANDED).setFld R.EVC_STRAND F.EVC_STRAND_ID m).incSat R.EVC_STRAND F.EVC_STRAND_COUNT
    else s

/-- A core becomes unavailable: its sources in service are completed by hardware and its fast handler abandoned (R402). -/
def State.dropCore (s : State) (t : Nat) : State :=
  let s1 := s.each ((s.evc.inserv.filter fun p => p.2 == t).map (·.1)) State.completeSource
  ((s1.updCore t fun c => { c with active := false, fid := 0 }).setReg (R.EVC_FASTt t) 0).evcRefresh

/-- CORE_UNAVAILABLE (R402). -/
def execCoreUnavailable (t : Nat) (s : State) : Out := .next (if s.available t then s else s.dropCore t)

/-! ### Sleep and wake (R93, R404) -/

/-- A wake condition of core t holds: kind 1 an event source, 2 a receipt pigeonhole, 3 the machine timer (R404). -/
def State.wakeHolds (s : State) (t kind id : Nat) : Bool :=
  match kind with
  | 1 => s.srcPending id && s.deliveredTo id == some t
  | 2 => 33 ≤ id && id ≤ 96 && s.phIsReceipt (id - 33) && s.coreOfCode (s.phConsumer (id - 33)) == some t && s.phLine (id - 33)
  | 3 => s.mtip t
  | _ => false

/-- Some wake condition of core t holds. -/
def State.anyWake (s : State) (t : Nat) : Bool :=
  s.evc.raised.any (s.wakeHolds t 1) || (List.range 64).any (fun n => s.wakeHolds t 2 (33 + n)) || s.mtip t

/-- Core t leaves WFI if it waited in it (R93, R404); EVC_WAKEt has no code for a debugger's request and stays (DESIGN CHOICE, log 187). -/
def State.endWfi (s : State) (t : Nat) : State :=
  if (s.core t).wfi then (s.updCore t fun c => { c with wfi := false }).leaveSleep t else s

/-- WFI (R404): the core waits; where a wake condition already holds it completes at once, which counts as leaving WFI. -/
def execWfi (t : Nat) (s : State) : Out :=
  .next <|
    if !s.available t then s
    else if s.anyWake t then s.leaveSleep t
    else s.updCore t fun c => { c with wfi := true }

/-- CORE_WAKE (R404): a core in WFI resumes on a wake condition that holds, and EVC_WAKEt records it; it takes the interrupt only where the
condition is enabled as one. -/
def execCoreWake (t kind id : Nat) (s : State) : Out :=
  .next <|
    if (s.core t).wfi && s.available t && s.wakeHolds t kind id then
      (((s.updCore t fun c => { c with wfi := false }).setReg (R.EVC_WAKEt t)
        (BitVec.ofNat 32 (kind * 2 ^ 30 + (if kind = 3 then 0 else id)))).leaveSleep t).takeIrq t
    else s

/-- MACHINE_TIMER_EXPIRY (R391): where the time of record has reached mtimecmp of core t, MTIP is pending, and the core takes the timer's
interrupt if it is enabled. The command moves no time (R25); before that time it does nothing. -/
def execMachineTimerExpiry (t : Nat) (s : State) : Out := .next (if s.mtip t then s.takeIrq t else s)

/-! ### The fast class (R405 to R407) -/

/-- Fast entry of core t (R405): with FEIP, mfcfg.EN, no fast handler and no debug mode the core claims the best fast source,
saves where it resumes and its privilege, switches bank, and fetches its vector; a core that waited in WFI has left it, woken by that source
(R93, R404). `pc` is where the interrupted code resumes. -/
def State.fastEntry (s : State) (t pc : Nat) : State :=
  let c := s.core t
  match s.bestSource (s.evc.raised.filter (s.fastPending t)) with
  | none => s
  | some m =>
    if s.available t && c.mfcfg && !c.active && !c.halted then
      let s1 := s.takeSource m t
      let s2 := s1.setCore t { c with active := true, fid := m, fpriv := c.priv, mfepc := pc, priv := 3, wfi := false,
                                      pc := c.mfvec + 4 * (m - 1) }
      let s3 := if c.wfi then (s2.setReg (R.EVC_WAKEt t) (BitVec.ofNat 32 (2 ^ 30 + m))).leaveSleep t else s2
      (s3.setReg (R.EVC_FASTt t) (BitVec.ofNat 32 (2 ^ 31 + m))).evcRefresh
    else s

/-- FAST_EVENT_ENTRY (R405). -/
def execFastEventEntry (t pc : Nat) (s : State) : Out := .next (s.fastEntry t pc)

/-- FRET (R407): completes the fast source, returns to the normal bank and to mfepc, where an enabled interrupt may be taken; without a fast
handler it is an illegal instruction. -/
def execFret (t : Nat) (s : State) : Out :=
  let c := s.core t
  .next <|
    if c.active then
      let s1 := s.completeSource c.fid
      ((s1.updCore t fun c => { c with active := false, fid := 0, pc := c.mfepc, priv := c.fpriv }).setReg (R.EVC_FASTt t) 0).evcSettle
    else s.raiseExc t 2 0

/-! ### CSRs (R391, R392) -/

/-- A register xk of a bank. -/
def bankReg (b : FMap Word) (k : Nat) : Word := FMap.get (fun _ => 0) b k

/-- The counters of core t: 0xB00 mcycle, 0xB02 minstret, their high halves at 0x80 more, and the unprivileged views 0x100 above. -/
def isCounter (csr : Nat) : Bool := (csr / 256 == 0xB || csr / 256 == 0xC) && [0x00, 0x02, 0x80, 0x82].contains (csr % 256)

/-- What a counter reads as (log 226): the value that mcountinhibit holds it at, else a free value, as the block does not count a core's
cycles and instructions. -/
def State.counter (s : State) (t csr : Nat) : Word :=
  if bitAt ((s.core t).std 0x320).toNat (csr % 128) then (s.core t).std (0xB00 + csr % 256) else Config.freeWord s.tick

/-- mip of core t: MEIP, MTIP and FEIP; MSIP reads 0 (Table EVC-1). -/
def State.mip (s : State) (t : Nat) : Word :=
  BitVec.ofNat 32 (b2n (s.meip t) * 2 ^ 11 + b2n (s.mtip t) * 2 ^ 7 + b2n (s.feip t) * 2 ^ 16)

/-- The stored standard CSRs with the bits that a write reaches (Table EVC-1, Machine ISA 1.12): mstatus, mie, mtvec, mcounteren, menvcfg,
mcountinhibit, mscratch, mepc, mcause, mtval. -/
def csrMasks : List (Nat × Nat) :=
  [(0x300, 0x00227888), (0x304, 0x10880), (0x305, 0xFFFFFFFD), (0x306, 7), (0x30A, 1), (0x320, 5), (0x340, 0xFFFFFFFF), (0x341, 0xFFFFFFFE),
   (0x342, 0xFFFFFFFF), (0x343, 0xFFFFFFFF)]

/-- CSRs that read 0: mstatush, menvcfgh, mconfigptr, mhpmcounter3 to 31 with their high halves and events. -/
def csrZero (csr : Nat) : Bool :=
  csr == 0x310 || csr == 0x31A || csr == 0xF15 || (0xB03 ≤ csr && csr < 0xB20) || (0xB83 ≤ csr && csr < 0xBA0) || (0x323 ≤ csr && csr < 0x340)

/-- The standard CSRs that a core stores, as they read: fflags and frm are parts of fcsr, mstatus.SD shows FS dirty, a PMP address shows its
granule of 32 bytes, tselect, tdata1 to 3 and tinfo those of the selected trigger. -/
def CoreSt.stdRead (c : CoreSt) (csr : Nat) : Option Word :=
  let tr := 0x1000 * ((c.std 0x7A0).toNat + 1)
  if csr = 0x001 then some (c.std 3 &&& 0x1F)
  else if csr = 0x002 then some (BitVec.ofNat 32 (getF (c.std 3) ⟨7, 5⟩))
  else if csr = 0x003 ∨ csr = 0x7A0 ∨ (0x3A0 ≤ csr ∧ csr < 0x3A4) then some (c.std csr)
  else if csr = 0x300 then some (if getF (c.std 0x300) ⟨14, 13⟩ = 3 then c.std 0x300 ||| 0x80000000 else c.std 0x300)
  else if 0x3B0 ≤ csr ∧ csr < 0x3C0 then some (if bitAt (c.pmpCfg (csr - 0x3B0)) 4 then c.std csr ||| 3 else c.std csr &&& 0xFFFFFFF8)
  else if csr = 0x7A1 then some (c.std (tr + csr) ||| 0x20000000)
  else if csr = 0x7A2 then some (c.std (tr + csr))
  else if csr = 0x7A3 then some 0
  else if csr = 0x7A4 then some 4
  else if csrZero csr then some 0
  else if csrMasks.any (fun p => p.1 == csr) then some (c.std csr)
  else none

/-- The value of a CSR of core t, where the device has it (Tables EVC-1 and EVC-2, R391); any other is an illegal instruction (R390). -/
def State.csrRead (s : State) (t csr : Nat) : Option Word :=
  let c := s.core t
  if csr = 0x7C0 then some (if c.mfcfg then 1 else 0)
  else if csr = 0x7C1 then some (BitVec.ofNat 32 c.mfvec)
  else if csr = 0x7C2 then some (BitVec.ofNat 32 c.mfepc)
  else if csr = 0x7C3 then some (BitVec.ofNat 32 (b2n c.active * 2 ^ 31 + c.fpriv % 4 * 2 ^ 11 + c.fid))
  else if csr = 0x7C4 then some (BitVec.ofNat 32 c.mtimecmp)
  else if csr = 0x7C5 then some (BitVec.ofNat 32 (c.mtimecmp / 2 ^ 32))
  else if 0x7E1 ≤ csr ∧ csr ≤ 0x7FF then some (bankReg (if c.active then c.bank else c.fast) (csr - 0x7E0))
  else if csr = 0x301 then some 0x40901125
  else if csr = 0x344 then some (s.mip t)
  else if csr = 0xF11 then some 0
  else if csr = 0xF12 then some 0x880
  else if csr = 0xF13 then some (s.reg R.SYS_REV)
  else if csr = 0xF14 then some (BitVec.ofNat 32 t)
  else if csr = 0xC01 then some (BitVec.ofNat 32 s.time)
  else if csr = 0xC81 then some (BitVec.ofNat 32 (s.time / 2 ^ 32))
  else if isCounter csr then some (s.counter t csr)
  else c.stdRead csr

/-- A byte of pmpcfg after a write: a locked region keeps its byte, and so does one whose new byte asks for NA4 or for write without read,
which cannot be selected (log 225). -/
def pmpByte (old new : Nat) : Nat :=
  if bitAt old 7 || new / 8 % 4 == 2 || new % 4 == 2 then old else new &&& 0x9F

/-- The core after a write of a standard CSR; `debug`: by the debugger, which alone reaches a trigger whose dmode is set. What a write may not
give a field leaves it as it is (log 225). -/
def CoreSt.stdWrite (c : CoreSt) (csr : Nat) (v : Word) (debug : Bool) : CoreSt :=
  let sel := (c.std 0x7A0).toNat
  let tr := 0x1000 * (sel + 1)
  let mine := debug || !bitAt (c.std (tr + 0x7A1)).toNat 27
  let dirty (w : Word) := (c.setStd 3 w).setStd 0x300 (setF (c.std 0x300) ⟨14, 13⟩ 3)
  if csr = 0x001 then dirty (setF (c.std 3) ⟨4, 0⟩ v.toNat)
  else if csr = 0x002 then dirty (setF (c.std 3) ⟨7, 5⟩ v.toNat)
  else if csr = 0x003 then dirty (v &&& 0xFF)
  else if csr = 0x7A0 then (if v.toNat < 4 then c.setStd csr v else c)
  else if csr = 0x7A1 then
    if mine then c.setStd (tr + csr) (v &&& (if debug && bitAt v.toNat 27 then 0x0800104F else 0x4F)) else c
  else if csr = 0x7A2 then (if mine then c.setStd (tr + csr) v else c)
  else if 0x3A0 ≤ csr ∧ csr < 0x3A4 then
    c.setStd csr (BitVec.ofNat 32 (leNat ((List.range 4).map fun j =>
      BitVec.ofNat 8 (pmpByte (c.pmpCfg (4 * (csr - 0x3A0) + j)) (v.toNat / 2 ^ (8 * j) % 256)))))
  else if 0x3B0 ≤ csr ∧ csr < 0x3C0 then
    let i := csr - 0x3B0
    if bitAt (c.pmpCfg i) 7 || (i < 15 && bitAt (c.pmpCfg (i + 1)) 7 && c.pmpCfg (i + 1) / 8 % 4 == 1) then c else c.setStd csr v
  else match csrMasks.find? fun p => p.1 == csr with
    | none => c
    | some (_, m) =>
      let w := (c.std csr &&& ~~~(BitVec.ofNat 32 m)) ||| (v &&& BitVec.ofNat 32 m)
      c.setStd csr (if csr = 0x300 ∧ (getF w ⟨12, 11⟩ = 1 ∨ getF w ⟨12, 11⟩ = 2) then setF w ⟨12, 11⟩ (getF (c.std csr) ⟨12, 11⟩) else w)

/-- The effect of writing a CSR of core t. A counter that mcountinhibit stops keeps the value it has then, a free one. -/
def State.csrWrite (s : State) (t csr : Nat) (v : Word) (debug : Bool) : State :=
  let c := s.core t
  if csr = 0x7C0 then s.setCore t { c with mfcfg := bitAt v.toNat 0 }
  else if csr = 0x7C1 then s.setCore t { c with mfvec := v.toNat / 1024 * 1024 }
  else if csr = 0x7C2 then s.setCore t { c with mfepc := v.toNat }
  else if csr = 0x7C4 then s.setCore t { c with mtimecmp := c.mtimecmp / 2 ^ 32 * 2 ^ 32 + v.toNat }
  else if csr = 0x7C5 then s.setCore t { c with mtimecmp := v.toNat * 2 ^ 32 + c.mtimecmp % 2 ^ 32 }
  else if 0x7E1 ≤ csr ∧ csr ≤ 0x7FF then
    if c.active then s.setCore t { c with bank := FMap.set (fun _ => 0) c.bank (csr - 0x7E0) v }
    else s.setCore t { c with fast := FMap.set (fun _ => 0) c.fast (csr - 0x7E0) v }
  else if isCounter csr then s.setCore t (c.setStd (0xB00 + csr % 256) v)
  else if csr = 0x320 then
    let stop := [0xB00, 0xB80, 0xB02, 0xB82].filter fun k => bitAt v.toNat (k % 128) && !bitAt (c.std 0x320).toNat (k % 128)
    let s1 := s.each stop fun s k => { s.updCore t fun c => c.setStd k (Config.freeWord s.tick) with tick := s.tick + 1 }
    s1.updCore t fun c => c.stdWrite csr v debug
  else s.setCore t (c.stdWrite csr v debug)

/-- A write to a CSR raises an illegal-instruction exception: mfcause is written only by hardware (R392), and a CSR whose
address has bits [11:10] set is read-only. -/
def csrReadOnly (csr : Nat) : Bool := csr == 0x7C3 || 0xC00 ≤ csr

/-- The privilege of core t reaches a CSR (R392, Machine ISA 1.12): M mode all of them; U mode those of its own, the counters as mcounteren
lets it. The floating-point ones need mstatus.FS. -/
def CoreSt.csrReach (c : CoreSt) (csr : Nat) : Bool :=
  (c.priv == 3 || (csr / 256 % 4 == 0 && (csr < 0xC00 || bitAt (c.std 0x306).toNat (csr % 128))))
  && (3 < csr || getF (c.std 0x300) ⟨14, 13⟩ != 0)

/-- DEVICE_CSR_ACCESS (R390 to R392): op 0 reads, 1 writes, 2 sets bits, 3 clears bits; a CSR that the core does not have, or that its mode
does not reach, is an illegal instruction. An interrupt that the write enables is taken. -/
def execDeviceCsrAccess (t csr op : Nat) (value : Word) (s : State) : Out :=
  let c := s.core t
  .next <|
    match s.csrRead t csr with
    | none => s.raiseExc t 2 0
    | some old =>
      if !c.csrReach csr || (op ≠ 0 && csrReadOnly csr) then s.raiseExc t 2 0
      else
        let new : Word := match op with | 1 => value | 2 => old ||| value | _ => old &&& ~~~value
        let s1 := if isCounter csr then { s with tick := s.tick + 1 } else s
        if op = 0 then s1.respond old.toNat else ((s1.csrWrite t csr new false).takeIrq t).respond old.toNat

/-! ### Doorbell letters and start addresses (R358, R368, R395) -/

/-- EVC_RING (R395). -/
def specEvcRing : LetterSpec where
  units _ u := 0x40 ≤ u && u < 0x50
  legal st := st == .idle || st == .running
  used := [(16, 16)]
  fails s m :=
    (if m.u8 16 ≤ 15 then [] else [.eRange])
    ++ (if m.u8 16 ≤ 15 && s.fld (R.EVC_SRCm (241 + m.u8 16)) F.EVC_SRCm_TARGET ≠ m.unit then [.eInterlock] else [])
  run s m _ := doneWith ((s.ringBell (m.u8 16)).evcSettle)

def execEvcRing (m : Msg) (s : State) : Out := .next (deliver specEvcRing s m)

/-- The address lies in the boot ROM, the TCM alias or the shared SRAM. -/
def startAddrOk (a : Nat) : Bool :=
  a < 0x10000 || (0x10000000 ≤ a && a < 0x10040000) || (0x20000000 ≤ a && a < 0x20400000)

/-- RST_PVEC_WRITE (R358, R368): P0, or C0, sets the start address of a core; a parked core leaves WFI and jumps to it, and events reach it
from then on (R93, R402). -/
def execRstPvecWrite (who : Requester) (n : Nat) (value : Word) (s : State) : Out :=
  let absent := if s.split then s.variant.cores ≤ n else 4 ≤ n && s.variant.cores ≤ n || n < 4 && s.variant.pairs ≤ n
  .next <| s.accessBy who (R.RST_PVECn n) true <|
    match regFirst ((if absent then [.eAbsent] else []) ++ (if s.isCore0 who then [] else [.eLocked])
      ++ (if value.toNat % 4 = 0 then [] else [.eFormat]) ++ (if startAddrOk value.toNat then [] else [.eRange])
      ++ (if n = 0 ∨ (!s.split && 4 ≤ n) then [.eState] else [])) with
    | some st => s.refuse st (R.RST_PVECn n)
    | none =>
      let s1 := s.setReg (R.RST_PVECn n) value
      (if (s.core n).cond == .parked && value ≠ 0 then
        ((s1.updCore n fun c => { c with cond := .running, wfi := false, pc := value.toNat }).leaveSleep n).evcRefresh
      else s1).respond 0

end Sys2Proof.Machine
end

