-- ==== Sys2Proof/Machine/Memory.lean ====
section
/-!
DEFINITION. Memory regions, the K-code's behaviour on a read and a write, scrubbing, error counts and injection, the
non-volatile store's write queue and the event journal's way into MRAM (17).
Choices of the model: log 9, 11, 15, 18, 167, 228, 229, 230.
-/
namespace Sys2Proof.Machine

/-! ### The K-code as an encoder (R444) -/

/-- Multiplication by α = 2 in GF(2^8) with field polynomial 0x11D. -/
def gfDouble (a : Byte) : Byte := if a.msb then (a <<< 1) ^^^ 0x1D else a <<< 1

/-- Multiplication in GF(2^8): the bits of b from the most significant down. -/
def gfMul (a b : Byte) : Byte :=
  ((List.range 8).reverse.foldl (fun acc i => let d := gfDouble acc; if b.getLsbD i then d ^^^ a else d) 0)

/-- α^i. -/
def gfPow : Nat → Byte
  | 0 => 1
  | n + 1 => gfDouble (gfPow n)

/-- A polynomial, highest coefficient first, times (x − r). -/
def polyTimes (p : List Byte) (r : Byte) : List Byte :=
  List.zipWith (· ^^^ ·) (p ++ [0]) (0 :: p.map (gfMul r))

/-- The generator g(x) = (x − α^0)(x − α^1) … (x − α^7), highest coefficient first. -/
def kGenerator : List Byte := (List.range 8).foldl (fun p i => polyTimes p (gfPow i)) [1]

/-- The check bytes 32 to 39 of 32 data bytes: the remainder of d(x)·x^8 by g(x), coefficient of x^7 first. -/
def kCheck (data : List Byte) : List Byte :=
  data.foldl (fun rem d =>
    let f := d ^^^ rem.headD 0
    List.zipWith (fun r g => r ^^^ gfMul f g) (rem.drop 1 ++ [0]) (kGenerator.drop 1)) (List.replicate 8 0)

/-! ### Regions (R442, Table MEM-1) -/

/-- The regions of Table MEM-1. -/
inductive Region where
  | rom | tcm | sram | table | queue | regs | mram | coll | none
  deriving DecidableEq, Repr

/-- The region that holds an address. -/
def regionOf (a : Nat) : Region :=
  if a < 0x10000 then .rom
  else if 0x10000000 ≤ a ∧ a < 0x10040000 then .tcm
  else if 0x20000000 ≤ a ∧ a < 0x20400000 then .sram
  else if 0x28000000 ≤ a ∧ a < 0x28200000 then .table
  else if 0x2C000000 ≤ a ∧ a < 0x2C100000 then .queue
  else if 0x40000000 ≤ a ∧ a < 0x40400000 then .regs
  else if 0x60000000 ≤ a ∧ a < 0x64000000 then .mram
  else if 0x70000000 ≤ a ∧ a < 0x70010000 then .coll
  else .none

/-- The store index of Table MEM-3 that a region's codewords belong to. -/
def Region.store : Region → Option Nat
  | .sram => some 0 | .tcm => some 1 | .table => some 2 | .queue => some 3 | .mram => some 7
  | .rom => Option.none | .regs => Option.none | .coll => Option.none | .none => Option.none

/-- The core whose TCM a requester reaches: its own, or the one of the selected hart (R442). -/
def State.tcmOwner (s : State) : Requester → Option Nat
  | .core c => s.coreOfCode c
  | .debug h => if s.runCores.contains h then some h else none
  | .letter _ => none

/-- The size of a TCM: 256 KiB of a pair, 128 KiB of a split core (R316). -/
def State.tcmSize (s : State) : Nat := if s.split then 0x20000 else 0x40000

/-- The storage key of an address for a requester; none where the access has no region (E_RANGE). -/
def State.keyOf (s : State) (who : Requester) (a : Nat) : Option Nat :=
  match regionOf a with
  | .none => none
  | .tcm =>
    match s.tcmOwner who with
    | none => none
    | some t => if a - 0x10000000 < s.tcmSize then some (tcmKey t (a - 0x10000000)) else none
  | _ => some a

/-- What a collection byte that nothing has written reads as. -/
def collDefault (_ : Nat) : Byte := 0

/-- The data of a queued MRAM write that a window read must return (R453): the latest one of the codeword. -/
def State.queuedByte (s : State) (a : Nat) : Option Byte :=
  ((s.nvs.queue.reverse.find? fun w => w.offset ≤ a - 0x60000000 && a - 0x60000000 < w.offset + 32).map fun w =>
    w.data.getD (a - 0x60000000 - w.offset) 0)

/-- The byte at a storage key: the boot ROM, queue memory and the collection window are views of what holds them. -/
def State.memByte (s : State) (k : Nat) : Byte :=
  match regionOf k with
  | .rom => Config.bootRom k
  | .queue =>
    match s.slot ((k - 0x2C000000) / 64) with
    | .empty => 0
    | .letter l _ => (letterBytes l).getD (k % 64) 0
    | .receipt r => (receiptBytes r).getD (k % 64) 0
  | .coll => FMap.get collDefault s.po.coll (k - 0x70000000)
  | .mram => (s.queuedByte k).getD (s.byte k)
  | _ => s.byte k

/-! ### The write queue (R453) -/

/-- Keep NVS_STATE.QUEUE equal to the writes queued. -/
def State.syncNvs (s : State) : State := s.setFld R.NVS_STATE F.NVS_STATE_QUEUE s.nvs.queue.length

/-- Enter a write into the queue; its pulse starts if none is running. -/
def State.nvsPush (s : State) (w : NvsWrite) : State :=
  State.syncNvs { s with nvs := { s.nvs with queue := s.nvs.queue ++ [w], pulse := true } }

/-- A codeword of the MRAM is rewritten with its corrected data, unless a write to it is queued (R446, R449); where the window is closed or
the queue full the write-back waits. -/
def State.oweBack (s : State) (off : Nat) : State :=
  if s.nvs.queue.any (fun w => w.offset == off) || s.nvs.owed.contains off then s
  else if s.mramClosed || 16 ≤ s.nvs.queue.length then { s with nvs := { s.nvs with owed := s.nvs.owed ++ [off] } }
  else s.nvsPush ⟨off, s.bytes (0x60000000 + off) 32, 3⟩

/-- The write-backs that waited enter the queue as far as it has room. -/
def State.payBack (s : State) : State := State.each { s with nvs := { s.nvs with owed := [] } } s.nvs.owed State.oweBack

/-! ### Errors (R445, R446, R450) -/

/-- What the decoder says of a codeword with n bytes in error (R445). -/
inductive KRead where
  | clean
  | corrected (n : Nat)
  | bad
  | silent (e : List (Nat × Byte))
  deriving DecidableEq, Repr

/-- Decode a codeword at a key with its error vector: 1 to 3 corrected, 4 or 5 reported, beyond that free (R445). -/
def kDecode (cw : Nat) (e : List (Nat × Byte)) : KRead :=
  if e.length = 0 then .clean
  else if e.length ≤ 3 then .corrected e.length
  else if e.length ≤ 5 then .bad
  else if Config.kcodeReports cw e then .bad else .silent e

/-- The error vector of a codeword in which further bytes are hit: errors of one byte combine, and a byte that is right again is no error. -/
def mergeErr (e upset : List (Nat × Byte)) : List (Nat × Byte) :=
  upset.foldl (fun e p =>
    let x := ((e.find? fun q => q.1 == p.1).map (·.2)).getD 0 ^^^ p.2
    let r := e.filter fun q => q.1 != p.1
    if x = 0 then r else r ++ [(p.1, x)]) e

/-- The address that MEM_LASTADDR shows for a codeword: of a TCM the alias. -/
def memAddr (k : Nat) : Nat := if 0x100000000 ≤ k then 0x10000000 + (k - 0x100000000) % 0x40000 else k

/-- Count and capture an error of a store (R450): MEM_CNTs, MEM_LASTINFO, MEM_EVT and the journal. -/
def State.memError (s : State) (store cw n : Nat) (ue : Bool) (req : Nat) : State :=
  let exceeds := s.flag R.MEM_LASTINFO F.MEM_LASTINFO_VALID || s.flag R.MEM_LASTINFO F.MEM_LASTINFO_OVERRUN
  let info := b2n exceeds * 2 ^ 17 + 2 ^ 16 + req * 2 ^ 8 + b2n ue * 2 ^ 7 + n % 8 * 2 ^ 4 + store
  let s1 : State := { s.setReg R.MEM_LASTINFO (BitVec.ofNat 32 info) with memCap := memAddr cw }
  let entry := leBytes 4 (memAddr cw) ++ leBytes 4 info
  if ue then
    ((s1.incSat (R.MEM_CNTs store) F.MEM_CNTs_UE).setFlag R.MEM_EVT F.MEM_EVT_UE).journal 7 entry
  else
    let s2 := s1.incSat (R.MEM_CNTs store) F.MEM_CNTs_CE
    if s2.fld (R.MEM_CNTs store) F.MEM_CNTs_CE = s2.fld R.MEM_CETHR F.MEM_CETHR_THR
        ∧ s1.fld (R.MEM_CNTs store) F.MEM_CNTs_CE ≠ s2.fld (R.MEM_CNTs store) F.MEM_CNTs_CE then
      (s2.setFlag R.MEM_EVT F.MEM_EVT_CETHR).journal 7 entry
    else s2

/-- Read a codeword of a store for a requester: the decoder's answer, the error counted, a corrected codeword written back
(R446), one of the MRAM through the write queue. `upset` is what the read finds beside the errors already held. -/
def State.readCw (s : State) (store cw : Nat) (upset : List (Nat × Byte)) (req : Nat) : State × KRead :=
  let e := mergeErr (s.errAt cw) upset
  let s0 := s.setErr cw e
  match kDecode cw e with
  | .clean => (s0, .clean)
  | .corrected n =>
    let s1 := s0.memError store cw n false req
    (if store = 7 then s1.oweBack (cw - 0x60000000) else s1.setErr cw [], .corrected n)
  | .bad => (s0.memError store cw 0 true req, .bad)
  | .silent e => (s0, .silent e)

/-- The data bytes of a codeword as a read delivers them. -/
def State.cwData (s : State) (cw : Nat) : KRead → List Byte
  | .silent e => (List.range 32).map fun i => Config.kcodeByte cw e i
  | _ => s.bytes cw 32

/-- The word an access returns: the bytes at the key, or what a miscorrected codeword delivers. -/
def State.loadData (s : State) (k n : Nat) (r : KRead) : Nat :=
  leNat ((List.range n).map fun i =>
    match r with
    | .silent e => Config.kcodeByte (k / 32 * 32) e ((k + i) % 32)
    | _ => s.memByte (k + i))

/-- The post office reads a 64-byte slot of queue memory (Table MEM-3): its bytes, or none where a codeword is uncorrectable. -/
def State.readSlot (s : State) (i : Nat) : State × Option (List Byte) :=
  let k := slotKey i
  let (s1, r1) := s.readCw 3 k [] U.po
  let (s2, r2) := s1.readCw 3 (k + 32) [] U.po
  if r1 = .bad ∨ r2 = .bad then (s2, none)
  else (s2, some (leBytes 32 (s2.loadData k 32 r1) ++ leBytes 32 (s2.loadData (k + 32) 32 r2)))

/-- The mcause code of an access fault: fetch 1, load 5, store 7; of a misaligned address 0, 4, 6. -/
def faultCode (a : MemOp) (misaligned : Bool) : Nat :=
  let b := if a.fetch then 0 else if a.store then 6 else 4
  if misaligned then b else b + 1

/-- The requester's unit code in MEM_LASTINFO.REQ; a debug access shows the code of the hart it selects. -/
def State.reqCode (s : State) : Requester → Nat
  | .core c => c
  | .letter c => c
  | .debug h => s.codeOfCore h

/-- A failed access: a core takes an exception, a debug access fails (R4, R446); refusals under R3 and R8 are captured
in SYS_WERR too. -/
def State.accessFail (s : State) (who : Requester) (a : MemOp) (st : Status) (capture : Bool) : State :=
  let s1 := if capture then s.captureWerr st a.addr else s
  let s2 : State := { s1 with resp := ⟨st, 0⟩ }
  match who with
  | .letter _ => s2
  | .debug _ => s2.sbFail st
  | .core c => match s2.coreOfCode c with
    | some t => s2.raiseExc t (faultCode a false) a.addr
    | none => s2

/-- A fabric transfer whose attempts met errors, by the bytes in error of each (Table MEM-3, index 5): a correctable attempt passes, an
uncorrectable one is made again up to three times; each is counted. False where the fourth has failed. -/
def State.fabric (s : State) (addr req : Nat) : Nat → List (List (Nat × Byte)) → State × Bool
  | _, [] => (s, true)
  | 0, _ => (s, false)
  | n + 1, e :: t =>
    match kDecode addr (mergeErr [] e) with
    | .corrected k => (s.memError 5 (addr / 32 * 32) k false req, true)
    | .bad => State.fabric (s.memError 5 (addr / 32 * 32) 0 true req) addr req n t
    | _ => (s, true)

/-- Read bytes of a store for a requester; none where the codeword is uncorrectable. A write of the MRAM codeword that is queued answers the
read (R453). -/
def State.memRead (s : State) (store k n : Nat) (upset : List (Nat × Byte)) (req : Nat) : State × Option Nat :=
  if store = 7 ∧ (s.queuedByte k).isSome then (s, some (s.loadData k n .clean))
  else
    match s.readCw store (k / 32 * 32) upset req with
    | (s1, .bad) => (s1, none)
    | (s1, r) => (s1, some (s1.loadData k n r))

/-- Write bytes of a store for a requester (R447): fewer than 32 read, modify and write their codeword; false where that read is
uncorrectable, and nothing is written. -/
def State.memWrite (s : State) (store k : Nat) (data : List Byte) (upset : List (Nat × Byte)) (req : Nat) : State × Bool :=
  let cw := k / 32 * 32
  if data.length = 32 then ((s.setBytes k data).wroteCw store cw, true)
  else
    match s.readCw store cw upset req with
    | (s1, .bad) => (s1, false)
    | (s1, r) => (((s1.setBytes cw (s1.cwData cw r)).setBytes k data).wroteCw store cw, true)

/-- A storage key of a cached region: the boot ROM and the lower half of the shared SRAM (Table EVC-3). -/
def cachedKey (k : Nat) : Bool := k < 0x10000 || (0x20000000 ≤ k && k < 0x20200000)

/-- The cache of core t that an access uses. -/
def CoreSt.cache (c : CoreSt) (fetch : Bool) : FMap Byte := if fetch then c.icache else c.dcache

/-- The cache holds n bytes from a key. -/
def cacheHas (m : FMap Byte) (k n : Nat) : Bool := (List.range n).all fun i => m.any fun p => p.1 == k + i

/-- Core t takes the codeword of a key into the cache of an access. -/
def State.cacheFill (s : State) (t k : Nat) (fetch : Bool) : State :=
  let cw := k / 32 * 32
  let add (m : FMap Byte) : FMap Byte := (List.range 32).foldl (fun m i => FMap.put m (cw + i) (s.memByte (cw + i))) m
  s.updCore t fun c => if fetch then { c with icache := add c.icache } else { c with dcache := add c.dcache }

/-- Core t drops the codeword of a key from the cache of an access. -/
def State.cacheDrop (s : State) (t k : Nat) (fetch : Bool) : State :=
  let rest (m : FMap Byte) : FMap Byte := m.filter fun p => p.1 / 32 != k / 32
  s.updCore t fun c => if fetch then { c with icache := rest c.icache } else { c with dcache := rest c.dcache }

/-- A load or fetch (R393, R442, R446): from the core's cache where that holds the bytes still, which is a free choice, since replacement is
not stated (log 228); an error met there invalidates and refills the line and counts as correctable (Table MEM-3, index 4). -/
def State.memLoad (s : State) (who : Requester) (a : MemOp) (k : Nat) : State :=
  let req := s.reqCode who
  let t := match who with | .core c => s.coreOfCode c | _ => none
  let plain (s : State) (upset : List (Nat × Byte)) : State :=
    match (regionOf a.addr).store with
    | none => s.respond (s.loadData k a.size .clean)
    | some store =>
      match s.memRead store k a.size upset req with
      | (s1, none) => s1.accessFail who a .eFault false
      | (s1, some v) => s1.respond v
  match t, cachedKey k && a.kind == .plain with
  | some t, true =>
    let fill (s : State) : State := if s.resp.status.ok then s.cacheFill t k a.fetch else s
    let m := (s.core t).cache a.fetch
    if cacheHas m k a.size then
      let s1 : State := { s with tick := s.tick + 1 }
      if !Config.cacheHolds s.tick then fill (plain s1 a.upset)
      else if a.upset = [] then s1.respond (leNat ((List.range a.size).map fun i => FMap.get (fun _ => 0) m (k + i)))
      else fill (plain ((s1.memError 4 (k / 32 * 32) (min a.upset.length 7) false req).cacheDrop t k a.fetch) [])
    else fill (plain s a.upset)
  | _, _ => plain s a.upset

/-- What a store that has been made does elsewhere: reservations of other cores on its bytes are lost, and the core's own data cache, which
is written through, follows where it holds them (R393, Table EVC-1). -/
def State.stored (s : State) (t : Option Nat) (k : Nat) (data : List Byte) : State :=
  let n := data.length
  let s1 := s.each (s.runCores.filter fun u => some u != t) fun s u =>
    match (s.core u).reservation with
    | some (r, _) => if r < k + n ∧ k < r + 4 then s.updCore u fun c => { c with reservation := none } else s
    | none => s
  match t with
  | none => s1
  | some t => if cachedKey k then s1.updCore t fun c =>
      { c with dcache := c.dcache.map fun p => if k ≤ p.1 ∧ p.1 < k + n then (p.1, data.getD (p.1 - k) 0) else p } else s1

/-- The word that an AMO stores. -/
def amoEval (op : AmoOp) (old v : Word) : Word :=
  match op with
  | .swap => v | .add => old + v | .xor => old ^^^ v | .and => old &&& v | .or => old ||| v
  | .min => if old.toInt ≤ v.toInt then old else v
  | .max => if old.toInt ≤ v.toInt then v else old
  | .minu => if old.toNat ≤ v.toNat then old else v
  | .maxu => if old.toNat ≤ v.toNat then v else old

/-- A store, SC or AMO to the TCM or the shared SRAM (R447, Table EVC-1). An SC answers 0 where its core's reservation on the word stands, else
1 and stores nothing; an AMO answers the old word. -/
def State.memStore (s : State) (who : Requester) (a : MemOp) (k store : Nat) : State :=
  let req := s.reqCode who
  let t := match who with | .core c => s.coreOfCode c | _ => none
  let put (s : State) (data : List Byte) (upset : List (Nat × Byte)) (v : Nat) : State :=
    match s.memWrite store k data upset req with
    | (s1, false) => s1.accessFail who a .eFault false
    | (s1, true) => (s1.stored t k data).respond v
  match a.kind with
  | .sc =>
    let ok := match t with
      | some t => match (s.core t).reservation with
        | some (r, til) => r == k && s.time < til
        | none => false
      | none => false
    let s1 := match t with | some t => s.updCore t fun c => { c with reservation := none } | none => s
    if ok then put s1 (padTo a.size a.data) a.upset 0 else s1.respond 1
  | .amo op =>
    match s.memRead store k 4 a.upset req with
    | (s1, none) => s1.accessFail who a .eFault false
    | (s1, some old) => put s1 (leBytes 4 (amoEval op (BitVec.ofNat 32 old) (BitVec.ofNat 32 (leNat a.data))).toNat) [] old
  | _ => put s (padTo a.size a.data) a.upset 0

/-- An access to a memory region (not to registers): decoded, K-code checked, performed or failed (R442, R446, R447). Atomic accesses reach
the TCM and the shared SRAM only (Table EVC-1; log 229). -/
def State.memAccess (s : State) (who : Requester) (a : MemOp) : State :=
  match s.keyOf who a.addr with
  | none => s.accessFail who a .eRange true
  | some k =>
    let reg := regionOf a.addr
    if a.fetch && !(reg == .rom || reg == .tcm || reg == .sram) then s.accessFail who a .eRange true
    else if a.store && !(reg == .tcm || reg == .sram) then s.accessFail who a .eLocked true
    else if a.kind != .plain && !(reg == .tcm || reg == .sram) then s.accessFail who a .eRange true
    else
      match s.fabric a.addr (s.reqCode who) 4 a.fabric with
      | (s1, false) => s1.accessFail who a .eFault false
      | (s1, true) =>
        match a.store, reg.store with
        | true, some store => s1.memStore who a k store
        | _, _ =>
          let s2 := s1.memLoad who a k
          match a.kind, who with
          | .lr, .core c => match s2.resp.status.ok, s2.coreOfCode c with
            | true, some t => s2.updCore t fun x => { x with reservation := some (k, s.time + 1024) }
            | _, _ => s2
          | _, _ => s2

/-! ### Scrubbing and restoration (R446, R449) -/

/-- SCRUB_VISIT (R449): the patrol scrubber reads a codeword of store 0 to 3 and writes a corrected one back; a write that
falls between its read and its write-back cancels the write-back. -/
def execScrubVisit (store cw : Nat) (upset : List (Nat × Byte)) (crossed : Bool) (s : State) : Out :=
  .next <|
    if 4 ≤ store then s
    else
      let c := cw / 32 * 32
      let (s1, r) := s.readCw store c upset 0x05
      match r with
      | .corrected _ => if crossed then s1.setErr c (s.errAt c) else s1
      | _ => s1

/-- The position in the image of the data of each table: running offset from the TABLES section's start (R42, R51). -/
def tablePlaces : List TableRec → Nat → List (Nat × Nat × Nat)
  | [], _ => []
  | t :: r, off =>
    let len := t.data.length
    (leAt t.header 24 4, off + 32, len) :: tablePlaces r (off + 32 + (len + 31) / 32 * 32)

/-- The first address of structure slot 0 (A) or 1 (B) and of firmware slot 0 or 1 in the MRAM window (Table MEM-5). -/
def slotBase (i : Nat) : Nat := 0x60000000 + 0x400000 * i
def fwBase (i : Nat) : Nat := 0x60800000 + 0xC00000 * i

/-- The MRAM key of the image data behind a byte of table memory: its table's data in the active structure slot. -/
def State.tableSource (s : State) (off : Nat) : Option Nat :=
  match s.img with
  | none => none
  | some im =>
    let sect := leAt im.header (64 + 7 * 16 + 4) 4
    (tablePlaces im.tables sect).findSome? fun (o, src, len) =>
      if o ≤ off ∧ off < o + len then some (slotBase s.imgSlot + src + (off - o)) else none

/-- TABLE_RESTORE (R446): the MEM block rewrites a table codeword from the same codeword of the active structure slot; an
uncorrectable MRAM codeword sets RESTFAIL instead, and the cause stays until the next system reset. -/
def execTableRestore (off : Nat) (upset : List (Nat × Byte)) (s : State) : Out :=
  let o := off / 32 * 32
  .next <|
    match s.tableSource o with
    | none => s
    | some src =>
      match s.readCw 7 (src / 32 * 32) upset 0x05 with
      | (s1, .bad) => { s1.setFlag R.MEM_EVT F.MEM_EVT_RESTFAIL with restFail := o :: s1.restFail.filter (· != o) }
      | (s1, r) => (s1.setBytes (0x28000000 + o) (s1.cwData (src / 32 * 32) r)).wroteCw 2 (0x28000000 + o)

/-! ### Error registers (R450, R451) -/

/-- MEM_LASTINFO_READ (R450 with R11): returns the capture, copies its address and clears VALID and OVERRUN. -/
def execMemLastinfoRead (who : Requester) (s : State) : Out :=
  let w := s.reg R.MEM_LASTINFO
  let s1 := if s.flag R.MEM_LASTINFO F.MEM_LASTINFO_VALID then s.setReg R.MEM_LASTADDR (BitVec.ofNat 32 s.memCap) else s
  .next (s.accessBy who R.MEM_LASTINFO false <| ((s1.clrFlag R.MEM_LASTINFO F.MEM_LASTINFO_VALID).clrFlag R.MEM_LASTINFO F.MEM_LASTINFO_OVERRUN).respond w.toNat)

/-- Every engine is OFF or IDLE (absent ones aside). -/
def State.enginesIdle (s : State) : Bool :=
  (List.range 8).all fun n => let st := s.ust (U.fe n); st == .absent || st == .off || st == .idle

/-- ERROR_INJECTION (R451): a write of MEM_INJ. -/
def execErrorInjection (who : Requester) (value : Word) (s : State) : Out :=
  let st := getF value F.MEM_INJ_STORE
  .next <| s.accessBy who R.MEM_INJ true <|
    s.tryWrite R.MEM_INJ value ((if 4 ≤ st then [.eRange] else [])
      ++ (if (st = 2 ∨ st = 3) && !s.enginesIdle then [.eState] else []))
      fun s => s.plainWrite R.MEM_INJ value

/-- ERROR_COUNT_CLEAR (R450): a write of 1 to MEM_CNTs.CLR clears both counts of store i. -/
def execErrorCountClear (who : Requester) (i : Nat) (value : Word) (s : State) : Out :=
  .next <| s.accessBy who (R.MEM_CNTs i) true <|
    s.tryWrite (R.MEM_CNTs i) value [] fun s =>
      if getF value F.MEM_CNTs_CLR = 1 then s.setReg (R.MEM_CNTs i) 0 else s

/-! ### The MRAM write queue (R452, R453) -/

/-- VNV is lost: a running pulse ends at once and its codeword is damaged in a way nothing states (R353, R376). -/
def State.losePulse (s : State) : State :=
  match s.nvs.pulse, s.nvs.queue with
  | true, w :: q =>
    let (v, s1) := s.drawN 40
    let e := ((List.range 40).zip v).filterMap fun p => if p.2 % 256 = 0 then none else some (p.1, BitVec.ofNat 8 p.2)
    State.syncNvs { (s1.setBytes (0x60000000 + w.offset) (padTo 32 w.data)).setErr (0x60000000 + w.offset) e with
      nvs := { s1.nvs with queue := q, pulse := false } }
  | _, _ => s

/-- Some check of an image or of firmware runs (R65, R431). -/
def State.checking (s : State) : Bool := s.icheck.running.isSome || s.fcheck.running.isSome

/-- The checks of R453 on a write request, in its order. -/
def State.nvsFails (s : State) (target off : Nat) (locked : Bool) : List Status :=
  let bound := if target = 1 then 0x400000 else if target = 2 then 0xC00000 else 0x4000000
  (if locked then [.eLocked] else [])
  ++ (if off % 32 = 0 ∧ off < bound then [] else [.eRange])
  ++ (if (target = 1 ∨ target = 2) ∧ s.checking then [.eState] else [])
  ++ (if 16 ≤ s.nvs.queue.length then [.eFull] else [])
  ++ (if s.mramClosed then [.eTemp] else [])

/-- The writer of a plain window write is not allowed for the region (Table MEM-5): slots, journal and device zone take no
such write; maps and calibration only P0 or C0; the customer area any core. -/
def State.nvsLocked (s : State) (who : Requester) (off : Nat) : Bool :=
  if off < 0x03010000 then true
  else if off < 0x03800000 then !s.isCore0 who
  else match who with | .core c => (s.coreOfCode c).isNone | .letter c => (s.coreOfCode c).isNone | .debug _ => true

/-- The data of NVS_WDATA0 to 7. -/
def State.nvsData (s : State) : List Byte := (List.range 8).flatMap fun j => leBytes 4 (s.reg (R.NVS_WDATAj j)).toNat

/-- Clear eight data registers (R459). -/
def State.clearData (s : State) (r : Nat → Nat) : State := s.each (List.range 8) fun s j => s.setReg (r j) 0

/-- A copy of the structure (0x0300_0000) or firmware (0x0300_0040) pointer record: commit count, active slot, SERIAL,
floor, and whether it is valid (R63, R430): it decodes and its fields are legal. -/
structure Pointer where
  count : Nat
  active : Nat
  serial : Nat
  floor : Nat
  valid : Bool
  deriving DecidableEq, Repr

/-- Read copy c of the pointer record at a base key. DESIGN CHOICE (log 194): a copy with six or more bytes in error, for which R445
guarantees neither correction nor detection, counts as uncorrectable; a commit count of 0 is no legal field. -/
def State.pointerCopy (s : State) (base c : Nat) : Pointer :=
  let k := base + 32 * c
  let b := s.bytes k 32
  let ok := (s.errAt k).length ≤ 3 && leAt b 4 1 ≤ 1 && leAt b 5 3 == 0 && (b.drop 16).all (· == 0) && leAt b 0 4 != 0
  ⟨leAt b 0 4, leAt b 4 1, leAt b 8 4, leAt b 12 4, ok⟩

/-- The copy that governs: valid with the higher commit count; on a tie the first (R63). -/
def State.governing (s : State) (base : Nat) : Option (Nat × Pointer) :=
  let a := s.pointerCopy base 0
  let b := s.pointerCopy base 1
  if a.valid then (if b.valid && a.count < b.count then some (1, b) else some (0, a))
  else if b.valid then some (1, b) else none

/-- Keys of the structure and firmware pointer records. The structure copies are the first 64 bytes of the area (R63). -/
def ptrKey : Nat := 0x63000000
def fwPtrKey : Nat := 0x63000040

/-- The active structure or firmware slot, if a pointer copy is valid. -/
def State.activeSlot (s : State) (base : Nat) : Option Nat := (s.governing base).map fun p => p.2.active

/-- The inactive slot: the other than the active one, A where no pointer is valid (R64, R430). -/
def State.inactiveSlot (s : State) (base : Nat) : Nat :=
  match s.activeSlot base with
  | some 0 => 1
  | some _ => 0
  | none => 0

/-- Queue a write into the inactive structure (1) or firmware (2) slot and discard the last check's result (R453, R65). -/
def State.slotWrite (s : State) (target off : Nat) (data : List Byte) : State :=
  if target = 1 then
    { s.nvsPush ⟨slotBase (s.inactiveSlot ptrKey) - 0x60000000 + off, data, 1⟩ with icheck := { s.icheck with passed := false } }
  else
    { s.nvsPush ⟨fwBase (s.inactiveSlot fwPtrKey) - 0x60000000 + off, data, 2⟩ with fcheck := { s.fcheck with passed := false } }

/-- NVS_WCMD with a TARGET (R453, R459). -/
def State.nvsCommand (s : State) (who : Requester) (target : Nat) (value : Word) : State :=
  let off := (s.reg R.NVS_WADDR).toNat
  let extra := (if value.toNat < 4 then [] else [.eFormat]) ++ (if target ≤ 2 then [] else [Status.eRange])
  match regFirst (extra ++ s.nvsFails target off (target == 0 && s.nvsLocked who off)) with
  | some st => s.refuse st R.NVS_WCMD
  | none =>
    let d := s.nvsData
    let s1 := if target = 0 then s.nvsPush ⟨off, d, 0⟩ else s.slotWrite target off d
    (s1.clearData R.NVS_WDATAj).respond 0

/-- NVS_WINDOW_WRITE (R453): NVS_WCMD with TARGET 0. -/
def execNvsWindowWrite (who : Requester) (s : State) : Out := .next (s.accessBy who R.NVS_WCMD true <| s.nvsCommand who 0 0)

/-- NVS_STRUCTURE_SLOT_WRITE (R453): NVS_WCMD with TARGET 1. -/
def execNvsStructureSlotWrite (who : Requester) (s : State) : Out := .next (s.accessBy who R.NVS_WCMD true <| s.nvsCommand who 1 1)

/-- NVS_FIRMWARE_SLOT_WRITE (R453): NVS_WCMD with TARGET 2. -/
def execNvsFirmwareSlotWrite (who : Requester) (s : State) : Out := .next (s.accessBy who R.NVS_WCMD true <| s.nvsCommand who 2 2)

/-- MRAM_SCRUB (R449): while Operational the NVS reads an MRAM codeword; a correctable one is rewritten with a pulse, which
waits while the write window is closed or the queue full. -/
def execMramScrub (off : Nat) (upset : List (Nat × Byte)) (s : State) : Out :=
  let o := off / 32 * 32
  .next <|
    if s.fld R.RST_STATE F.RST_STATE_PHASE ≠ 5 then s
    else
      (s.readCw 7 (0x60000000 + o) upset 0x05).1

/-! ### Commits (R67) and the end of a write pulse -/

/-- The key of the copy that a commit is writing. -/
def Commit.key (c : Commit) : Nat := c.base + 32 * (if c.second then 1 - c.first else c.first)

/-- The write of the copy that a commit is at. -/
def Commit.write (c : Commit) : NvsWrite := ⟨c.key - 0x60000000, c.bytes, 4⟩

/-- A commit ends: its one receipt, a failing one journalled; in mode 1 the replacement waits for the receipt's handover (R67, R477). One
that ends DONE has made the checked slot the active one, so that no check of the inactive slot stands (R65). -/
def State.commitEnds (s : State) (c : Commit) (st : Status) : State :=
  let l := c.msg.letter
  let r : Receipt := ⟨l.opcode, l.unit, st, l.seq, c.delivered, s.pm, []⟩
  let s0 : State := { s with nvs := { s.nvs with commits := s.nvs.commits.erase c } }
  let s1 : State := if !st.ok then s0
    else if c.base = ptrKey then { s0 with icheck := { s0.icheck with passed := false } } else { s0 with fcheck := { s0.fcheck with passed := false } }
  let (s2, p) := s1.issueReceipt c.msg.src l.flags r
  if st.ok then s2.defer (if l.body.headD 0 = 1 then some .structureReplace else none) p
  else s2.deadLetter (receiptBytes r) st c.msg.src.phByte 2

/-- Enter the write of a commit's next copy; a closed window refuses it with E_TEMP (R384). -/
def State.commitWrite (s : State) (c : Commit) : State :=
  if s.mramClosed then s.commitEnds c .eTemp
  else State.nvsPush { s with nvs := { s.nvs with commits := s.nvs.commits ++ [c] } } c.write

/-- The copy that a commit has written reads back as written (R67, step 2). -/
def State.copyGood (s : State) (c : Commit) : Bool := (s.errAt c.key).length ≤ 3 && s.bytes c.key 32 == c.bytes

/-- The pulse of a commit's write has ended. Whether the codeword took it is a free value, and so is what a codeword holds that did not
(log 194). The first copy is read back and verified, then the other is written; after that the receipt is issued (R67). -/
def State.commitPulse (s : State) (w : NvsWrite) : State :=
  match s.nvs.commits.find? fun c => c.write == w with
  | none => s
  | some c =>
    let (v, s1) := s.draw
    let (l, s2) := s1.drawN 40
    let e := if v = 0 then [] else ((List.range 40).zip l).filterMap fun p => if p.2 % 256 = 0 then none else some (p.1, BitVec.ofNat 8 p.2)
    let s3 := s2.setErr c.key e
    if c.second then s3.commitEnds c .done
    else if s3.copyGood c then State.commitWrite { s3 with nvs := { s3.nvs with commits := s3.nvs.commits.erase c } } { c with second := true }
    else s3.commitEnds c .eFault

/-! ### The journal in MRAM (R455) -/

/-- The length in codewords of an entry, header included (R455). -/
def jLen (typ : Nat) : Nat := if typ = 1 then 5 else if typ = 6 then 3 else 2

/-- The bytes of a journal entry: its header and its body, padded to whole codewords. -/
def jBytes (e : JEntry) (session : Nat) : List Byte :=
  padTo (32 * jLen e.typ) (leBytes 4 e.seq ++ leBytes 1 e.typ ++ leBytes 1 (jLen e.typ) ++ [0, 0] ++ leBytes 4 e.pm
    ++ leBytes 4 session ++ leBytes 8 e.time ++ List.replicate 8 0 ++ e.body)

/-- The writes of an entry's codewords in the journal ring of 16 MiB, which wraps, from an offset. -/
def ringWrites (off : Nat) (b : List Byte) : List NvsWrite :=
  (List.range (b.length / 32)).map fun i => ⟨0x2000000 + (off + 32 * i) % 0x1000000, (b.drop (32 * i)).take 32, 5⟩

/-- The key of the journal pointer record in the device zone (its place is not stated: log 9). -/
def jPtrKey : Nat := 0x6300FFE0

/-- The write of the journal pointer: the next offset and the next sequence. -/
def State.jPtrWrite (s : State) : NvsWrite :=
  let seq := match s.nvs.jbuf with | e :: _ => e.seq | [] => (s.reg R.NVS_JSEQ).toNat
  ⟨jPtrKey - 0x60000000, padTo 32 (leBytes 4 s.nvs.jptr ++ leBytes 4 seq), 5⟩

/-- The journal pointer enters the write queue. -/
def State.writeJPtr (s : State) : State := State.nvsPush { s with nvs := { s.nvs with jsince := 0 } } s.jPtrWrite

/-- The oldest buffered entry enters the write queue, where that has room for its codewords and the pointer and the window is open; the
pointer follows every 64 entries. -/
def State.journalOut (s : State) : State :=
  match s.nvs.jbuf with
  | [] => s
  | e :: q =>
    let l := ringWrites s.nvs.jptr (jBytes e s.aon.session)
    if s.mramClosed || 16 < s.nvs.queue.length + l.length + 1 then s
    else
      let s1 := s.each l State.nvsPush
      let s2 : State := { s1 with nvs := { s1.nvs with jbuf := q, jptr := (s.nvs.jptr + 32 * l.length) % 0x1000000, jsince := s.nvs.jsince + 1 } }
      if 64 ≤ s2.nvs.jsince then s2.writeJPtr else s2

/-- JOURNAL_WRITE (R455): a buffered entry goes to the MRAM ring through the write queue, and the pointer after every 64; the buffer holds
entries while the write window is closed. -/
def execJournalWrite (s : State) : Out := .next s.journalOut

/-- A flush goes on: as many entries as the queue has room for, and the pointer at its end. -/
def State.journalFeed (s : State) : State :=
  if !s.nvs.flush then s
  else
    let s1 := s.each (List.range s.nvs.jbuf.length) fun s _ => s.journalOut
    if s1.nvs.jbuf.isEmpty && !s1.mramClosed && s1.nvs.queue.length < 16 then
      State.writeJPtr { s1 with nvs := { s1.nvs with flush := false } }
    else s1

/-- Flush the journal: every buffered entry and the pointer (STANDBY, TRANSPORT). -/
def State.journalFlush (s : State) : State := State.journalFeed { s with nvs := { s.nvs with flush := true } }

/-- A system reset that waited for the end of a pulse is applied (R353). -/
def State.afterPulse (s : State) : State :=
  if s.rst.waitPulse then State.tryRelease (State.syncPend (State.systemClear { s with rst := { s.rst with waitPulse := false } }))
  else s.payBack.journalFeed.runReady

/-- MRAM_WRITE_PULSE_END (R453, R353): the head write is done; the next pulse begins; a commit takes its next step (R67); a system reset
that waited for the pulse is applied. -/
def execMramWritePulseEnd (s : State) : Out :=
  .next <|
    match s.nvs.queue with
    | [] => State.afterPulse { s with nvs := { s.nvs with pulse := false } }
    | w :: q =>
      if !s.nvs.pulse then s.afterPulse
      else
      let s1 := State.syncNvs { s with nvs := { s.nvs with queue := q, pulse := !q.isEmpty && !s.rst.waitPulse && !s.mramClosed } }
      let s2 := (s1.setBytes (0x60000000 + w.offset) (padTo 32 w.data)).setErr (0x60000000 + w.offset) []
      let s3 := if 3 ≤ w.target then s2
        else (s2.setFld R.NVS_WSTAT F.NVS_WSTAT_STATUS Status.done.code).setFlag R.NVS_EVT F.NVS_EVT_WDONE
      (if w.target = 4 then s3.commitPulse w else s3).afterPulse

/-- The MRAM write window closes (R384): a running pulse completes, the requests behind it are refused, a commit's among them; the
scrubber's write-backs and the journal's entries wait (R449, R455). -/
def State.closeWindow (s : State) : State :=
  let waits (w : NvsWrite) : Bool := w.target == 3 || w.target == 5
  let keep := if s.nvs.pulse then s.nvs.queue.take 1 ++ (s.nvs.queue.drop 1).filter waits else s.nvs.queue.filter waits
  let s1 := { s with mramClosed := true }
  if s.nvs.queue.length = keep.length then s1
  else
    let s2 := ((State.syncNvs { s1 with nvs := { s1.nvs with queue := keep } }).setFld R.NVS_WSTAT F.NVS_WSTAT_STATUS Status.eTemp.code).setFlag
      R.NVS_EVT F.NVS_EVT_WFAIL
    s2.each (s2.nvs.commits.filter fun c => !keep.contains c.write) fun s c => s.commitEnds c .eTemp

/-- The MRAM write window opens: the write-backs and journal entries that waited go on (R384, R449, R455). -/
def State.openWindow (s : State) : State :=
  (State.payBack { s with mramClosed := false, nvs := { s.nvs with pulse := !s.nvs.queue.isEmpty } }).journalFeed

/-- JOURNAL_POST (R459): a store to NVS_JPOST with GO makes a type 8 entry from NVS_JDATA0 to 7 and clears them. -/
def execJournalPost (who : Requester) (value : Word) (s : State) : Out :=
  .next <| s.accessBy who R.NVS_JPOST true <|
    if 2 ≤ value.toNat then s.refuse .eFormat R.NVS_JPOST
    else
      let d := (List.range 8).flatMap fun j => leBytes 4 (s.reg (R.NVS_JDATAj j)).toNat
      let s1 := if value = 1 then s.journal 8 d else s
      (s1.clearData R.NVS_JDATAj).respond 0

/-- CRITICAL_STATE_ERROR (R448): MEM_CRIT records the item of Table MEM-4 and STATE_INTEGRITY asserts. -/
def execCriticalStateError (item : Nat) (s : State) : Out :=
  .next ((s.setFld R.MEM_CRIT F.MEM_CRIT_ITEM item).assertSource 0x07 0)

end Sys2Proof.Machine
end

