-- ==== Sys2Proof/Machine/EngineOps.lean ====
section
/-!
DEFINITION. The parts of a field engine's update (04): loop parameters, table lookups (R114), angle tracking (R107),
effective torque (R188), harmonic injection (R112), adaptation (R111).
-/
namespace Sys2Proof.Machine

/-! ### Loop parameters -/

/-- The engine's active template. -/
def State.tmpl (s : State) (n : Nat) : Nat := s.fld (R.FEn_STATE n) F.FEn_STATE_TEMPLATE

/-- The active LOOPS record of an engine. -/
def State.loopRec (s : State) (n : Nat) : List Byte := s.withImg [] fun im => (im.loopWith n (s.tmpl n)).getD []

/-- I_BASE in A, V_BASE in V, series resistance in per-unit, pole pairs, position source, MOD_MAX flags byte (Table FE-10). -/
def State.iBase (s : State) (n : Nat) : Rat := (rf (s.loopRec n) 20 2 : Rat) / 10
def State.vBase (s : State) (n : Nat) : Rat := (rf (s.loopRec n) 22 2 : Rat) / 10
def State.rsPu (s : State) (n : Nat) : Rat := (rfi (s.loopRec n) 24 2 : Rat) / 32768
def State.polePairs (s : State) (n : Nat) : Nat := rf (s.loopRec n) 26 1
def State.posSource (s : State) (n : Nat) : Nat := rf (s.loopRec n) 27 1
/-- The flags byte of Table FE-10: byte 30, or 31 for WIND. -/
def State.loopFlags (s : State) (n : Nat) : Nat := rf (s.loopRec n) (if s.tmpl n = 4 then 31 else 30) 1
/-- The DTC band as a fraction of I_BASE; WIND has no band byte of its own and takes that of the machine's FOC6 record. -/
def State.dtcBand (s : State) (n : Nat) : Rat :=
  let r := if s.tmpl n = 4 then s.withImg [] fun im => (im.loopWith n 2).getD [] else s.loopRec n
  (rf r 31 1 : Rat) / 256

/-- The update spacing in seconds. -/
def State.spacingS (s : State) (n : Nat) : Rat := (s.spacing n : Rat) / 400000000
/-- λ, the lead divided by the spacing, in Q1.15. -/
def State.lam (s : State) (n : Nat) : Rat :=
  (minI 32767 (quant 15 ((s.fld (R.FEn_LEAD n) F.FEn_LEAD_LEAD : Rat) / (s.spacing n : Rat))) : Rat) / 32768

/-! ### Torque held by the gearbox sequencer (R278, R280) -/

/-- The output shaft's speed in rpm. -/
def State.outRpm (s : State) : Rat :=
  (s.sfld (R.POSk_SPD (s.fld R.GBX_CFG F.GBX_CFG_OUTSRC)) ⟨31, 0⟩ : Rat) * 60000000 / 4294967296

/-- The speed of the machine of function f in rpm, from its engine's filtered speed. -/
def State.machRpm (s : State) (f : Nat) : Rat :=
  let n := (s.enginesOf f).headD 0
  ((s.e n).spd : Rat) / 4294967296 / s.spacingS n / (max 1 (s.polePairs n) : Nat) * 60

/-- The speed the sequencer synchronises to: output speed × ratio, with the offset of a blocked engagement (R280, R281). -/
def State.nSync (s : State) : Rat :=
  let id := if s.gbx.mech = 2 then 0x0903 else if s.gbx.target = 2 then 0x0902 else 0x0901
  s.outRpm * (s.thr id 0xFF 1000 : Rat) / 1000 + (if s.gbx.blocked then (s.thr 0x0937 0xFF 20 : Rat) else 0)

/-- The operation under way and its phase (Table GBX-1). -/
def State.gbxOp (s : State) : Nat := s.fld R.GBX_STATE F.GBX_STATE_OP
def State.gbxPhase (s : State) : Nat := s.fld R.GBX_STATE F.GBX_STATE_PHASE

/-- The sequencer's torque request and ramp (N·m and N·m/ms, Q16.16) for a machine it holds (R278, Table GBX-1), whose torque of record
is `rec`; `op` is the operation under way. -/
def State.heldIn (s : State) (op f : Nat) (rec : Int) : Option (Int × Int) :=
  let decl := s.fld R.GBX_CFG ⟨30, 28⟩
  let isA := bitAt decl 0 && f == s.fld R.GBX_CFG F.GBX_CFG_FUNCA
  let isB := bitAt decl 2 && f == s.fld R.GBX_CFG F.GBX_CFG_FUNCB
  let slow := 65536 * s.thr 0x0930 0xFF 10
  let phase : Option (Int × Int) :=
    if !((isA && op == 1) || (isB && op == 3)) then none
    else match s.gbxPhase with
      | 3 | 4 =>
        let lim : Rat := s.thr 0x0933 0xFF 200
        let t := clampQ (-lim) lim ((s.thr 0x0932 0xFF 400 : Rat) / 1000 * (s.nSync - s.machRpm f))
        some (quant 16 t, 65536 * s.thr 0x0933 0xFF 200)
      | 5 =>
        let up : Int := (slow * (s.time - s.gbx.phaseAt : Nat)) / 1000000
        some (clampI (-up) up rec, slow)
      | 0 => none
      | _ => some (0, slow)
  if s.ust U.gbx = .off ∨ s.ust U.gbx = .absent ∨ !(isA || isB) then none
  else match phase with
    | some x => some x
    | none =>
      let r := if isA then s.fld R.GBX_STATE F.GBX_STATE_SHIFT else s.fld R.GBX_STATE F.GBX_STATE_CLUTCH
      if (isA && (r == 1 || r == 2)) || (!isA && r == 2) then none else some (0, slow)

/-- The sequencer's torque request and ramp for a machine it holds now. -/
def State.held (s : State) (f : Nat) (rec : Int) : Option (Int × Int) := s.heldIn s.gbxOp f rec

/-- t_req of R188 and its ramp for function f: 0 in STOPPING, the sequencer's for a held machine, else the torque of record and its ramp. -/
def State.tReq (s : State) (f : Nat) : Int × Int :=
  if s.ust (U.fn f) = .stopping then (0, (s.tr f).ramp) else (s.held f (s.tr f).torque).getD ((s.tr f).torque, (s.tr f).ramp)

/-- The least of a value and an optional one. -/
def capOpt (a : Int) : Option Int → Int
  | none => a
  | some b => minI a b

/-- The charger's programmed output current, Q16.16 (R220). -/
def State.chgProg (s : State) : Int := minI (capOpt s.chg.outLim s.chg.lOut) s.chg.bChg

/-- The charger's target V2 in force, Q16.16: the target under the V2 maximum of CHG_LIMIT and the battery voltage maximum. -/
def State.chgTarget (s : State) : Int := minI (capOpt s.chg.target s.chg.lV2) s.chg.bVmax

/-- What the charger's letters give its engines. -/
def State.chgLetters (s : State) : ChgPar :=
  ⟨s.fld R.CHG_STATE F.CHG_STATE_MODE, s.chgProg, s.chgTarget, s.chg.target, s.chg.power, s.chg.lDis.getD 0, s.chg.bDis, s.chg.lReact.getD 0,
   s.chg.islV, s.chg.islF, s.chg.three⟩

/-- The parameters that letters have given the engine by now (R105). -/
def State.letters (s : State) (n : Nat) : LetPar :=
  let f := s.fld (R.FEn_STATE n) F.FEn_STATE_FUNCTION
  ⟨(s.reg (R.FEn_GAINS n)).toNat, (s.reg (R.FEn_OUTKP n)).toNat, (s.reg (R.FEn_OUTKI n)).toNat,
   (s.reg (R.FEn_ADAPT n)).toNat, (s.reg (R.FEn_HCAP n)).toNat,
   (List.range 4).map fun k => ((s.reg (R.FEn_HCFGk n k)).toNat, (s.reg (R.FEn_HAMPk n k)).toNat),
   (s.tr f).torque, (s.tr f).ramp, (s.hl f).target, (s.hl f).i2lim, s.chgLetters, s.gbxOp⟩

/-- The parameter set in force now (R105): the letters' part is that of before the latest boundary until 1 µs after it; the planner's
envelope, the return factor, the charger's phase and a torque that the gearbox sequencer asks for in the operation that counts count from the
cycle after they are set. -/
def State.parAt (s : State) (n : Nat) : EngPar :=
  let f := s.fld (R.FEn_STATE n) F.FEn_STATE_FUNCTION
  let l := if s.time < s.po.boundaryAt + 1000 then (s.e n).prev else s.letters n
  let t := (s.heldIn (if l.gop = 0 then 0 else s.gbxOp) f l.torque).getD (l.torque, l.ramp)
  { l with
    torque := t.1, ramp := t.2, draw := (s.reg (R.LDG_EDf f)).toNat, ret := (s.reg (R.LDG_ERf f)).toNat, k := (s.lnk (s.linkOf f)).k,
    phase := s.chgPhase, lower := s.chg.lower, clamp := s.chg.clampNow, env := s.ldg.charger, dis := s.ldg.chargerDis }

/-- κ and MOD_MAX of a parameter set. -/
def EngPar.kappa (p : EngPar) : Rat := (bitsOf p.gains 15 0 : Rat) / 32768
def EngPar.modMax (p : EngPar) : Rat := (bitsOf p.gains 31 16 : Rat) / 32768

/-! ### Adaptation factors reset (R102, R111, R120) -/

/-- The adaptation factors return to 1.0 (R111). -/
def State.resetFactors (s : State) (n : Nat) : State :=
  (s.setReg (R.FEn_ADFAC n) 0x10001000).updE n fun e => { e with adaptL := 4096, resetAt := none }

/-- FE_ADAPT's reset of the factors has been latched by now (R105). -/
def State.resetDue (s : State) (n : Nat) : Bool := match (s.e n).resetAt with | some t => decide (t ≤ s.time) | none => false

/-- A reset of the factors that has been latched takes effect. -/
def State.settleReset (s : State) (n : Nat) : State := if s.resetDue n then s.resetFactors n else s

/-! ### Samples -/

/-- A slot's sample in per-unit (R106): Q1.15 times the Q10.22 factor FS ÷ BASE; it enters the engine in Q5.27. Log 256. -/
def State.slotPu (s : State) (n g slot : Nat) (volt : Bool) : Rat :=
  let x := ((FMap.get (fun _ => []) (s.e n).samp g).getD slot 0 : Rat) / 32768
  let base := if volt then s.vBase n else s.iBase n
  let fac := (nearest ((s.fld (R.FCV_CHn_FS (4 * g + slot)) F.FCV_CHn_FS_FS : Rat) / 10 / base * 4194304) : Rat) / 4194304
  x * fac

/-! ### Tables (R113, R114) -/

/-- The table of a kind in the loop's list (R48, Table FE-6). -/
def State.loopTable (s : State) (n kind : Nat) : Option TableRec :=
  s.withImg none fun im =>
    let r := s.loopRec n
    let first := rf r 16 2
    im.tables.find? fun t => first ≤ rf t.header 0 2 && rf t.header 0 2 < first + rf r 18 1 && rf t.header 2 1 == kind

/-- Size of an entry, count of its values and their fraction bits (Table FE-7). -/
def tabFormat : Nat → Nat × Nat × Nat
  | 0 => (4, 2, 15) | 1 => (2, 1, 15) | 2 => (8, 2, 16) | _ => (4, 1, 16)

/-- A lookup in progress: the state, values, whether a clamp occurred, the first codeword that was uncorrectable. -/
structure Lk where
  st : State
  vals : List Rat
  clamp : Bool
  bad : Option Nat

/-- Read one table entry; the codeword is checked and counted as a read of the engine's (R446). -/
def State.tabEntry (s : State) (n addr size vals frac : Nat) : State × List Rat × Option Nat :=
  let cw := addr / 32 * 32
  let (s1, k) := s.readCw 2 cw [] (U.fe n)
  let w := size / vals
  let v := (List.range vals).map fun i => (toSigned (8 * w) (s1.loadData (addr + i * w) w k) : Rat) / ((2 ^ frac : Nat) : Rat)
  (s1, v, if k = .bad then some cw else none)

/-- One axis of a lookup: the interval, the fraction in it, and whether it was clamped. A dimension of 1 ignores its axis. -/
def axis (x first step : Rat) (count : Nat) : Nat × Rat × Bool :=
  if count ≤ 1 then (0, 0, false)
  else
    let f := (x - first) / step
    let g := clampQ 0 ((count - 1 : Nat) : Rat) f
    let c := min g.floor.toNat (count - 2)
    (c, g - (c : Rat), !(g == f))

/-- The bilinear lookup of R114. -/
def State.lookup (s : State) (n : Nat) (t : TableRec) (x y : Rat) : Lk :=
  let h := t.header
  let (size, nv, frac) := tabFormat (rf h 3 1)
  let rows := rf h 4 2
  let cols := rf h 6 2
  let q (o : Nat) : Rat := (rfi h o 4 : Rat) / 65536
  let (c, ax, k1) := axis x (q 8) (q 12) cols
  let (r, ay, k2) := axis y (q 16) (q 20) rows
  let at' (j k : Nat) : Nat :=
    0x28000000 + rf h 24 4 + ((if j < rows then j else 0) * cols + (if k < cols then k else 0)) * size
  let (s1, e00, b1) := s.tabEntry n (at' r c) size nv frac
  let (s2, e01, b2) := s1.tabEntry n (at' r (c + 1)) size nv frac
  let (s3, e10, b3) := s2.tabEntry n (at' (r + 1) c) size nv frac
  let (s4, e11, b4) := s3.tabEntry n (at' (r + 1) (c + 1)) size nv frac
  let v := (List.range nv).map fun i =>
    (1 - ay) * ((1 - ax) * e00.getD i 0 + ax * e01.getD i 0) + ay * ((1 - ax) * e10.getD i 0 + ax * e11.getD i 0)
  ⟨s4, v, k1 || k2, b1 <|> b2 <|> b3 <|> b4⟩

/-- A lookup by kind; an absent table (admission requires it) reads as no values. -/
def State.lookupKind (s : State) (n kind : Nat) (x y : Rat) : Lk :=
  match s.loopTable n kind with
  | none => ⟨s, [], false, none⟩
  | some t => s.lookup n t x y

/-- The outcome of a lookup for the engine: TCLAMP where it clamped; an uncorrectable codeword is a table error that faults
the engine (R101, TERR). -/
def State.lookupDone (n : Nat) (l : Lk) : State :=
  let s1 := if l.clamp then l.st.feFlag n F.FEn_EVT_TCLAMP else l.st
  match l.bad with
  | none => s1
  | some cw => (s1.updE n fun e => { e with terrAt := cw }).engineFault n 4

/-- Set SAT where a stage has saturated (R99). -/
def State.satIf (s : State) (n : Nat) (sat : Bool) : State := if sat then s.feFlag n F.FEn_EVT_SAT else s

/-! ### Angle and speed (R107) -/

/-- The observer's estimate of angle and speed: its algorithm is not given, so both are free. -/
def State.observe (s : State) : Nat × Int × State :=
  let (a, s1) := s.draw
  let (b, s2) := s1.draw
  (a, toSigned 32 b, s2)

/-- OBS_MIN and the like: a threshold in rpm as electrical angle per update. -/
def State.rpmToSpd (s : State) (n : Nat) (rpm : Int) : Rat :=
  (rpm : Rat) / 60 * (s.polePairs n : Rat) * 4294967296 * s.spacingS n

/-- Store angle and speed. A new angle enters the eight changes the speed is filtered over; their mean is within the speed's format. -/
def State.setAngle (s : State) (n th : Nat) : State :=
  s.updE n fun e =>
    let h := if e.seen then (e.hist ++ [angDiff th e.ang]).drop (e.hist.length + 1 - 8) else []
    let sp := if h.isEmpty then 0 else quant 0 ((h.foldl (· + ·) 0 : Int) / (h.length : Nat) : Rat)
    { e with ang := th, hist := h, spd := sp, seen := true }

/-- The function runs on the observer: position 4 past its start, or fallback in use (R190, R192). -/
def State.onObserver (s : State) (n f : Nat) : Bool := s.posSource n == 4 || (s.tr f).sensorless || (s.tr f).phase == 4

/-- The open-loop vector of a sensorless start goes on by one update (Table TRA-4): in IF its frequency rises at IF_RATE, in DECEL it falls
to 0, where IF begins; the angle of DECEL is the observer's at OBS_MIN and above. -/
def State.vecStep (s : State) (n f : Nat) : State :=
  let t := s.tr f
  let rate := quant 0 (s.rpmToSpd n (s.thr 0x012C f 500) * s.spacingS n)
  let fr0 : Int := if t.phase = 2 then t.freq + rate else minI 0 (t.freq + rate)
  let fr := satS 32 fr0
  let byObs := t.phase = 3 ∧ s.rpmToSpd n (s.thr 0x0128 f 1000) ≤ (absI fr : Rat)
  let (a, _, s0) := s.observe
  let ang := if byObs then a else angAdd t.vec fr
  let s1 := ((if byObs then s0 else s).satIf n (fr != fr0)).updE n fun e => { e with ang := ang, spd := fr }
  s1.updTr f fun t => { t with freq := fr, vec := ang, phase := if t.phase = 3 ∧ fr = 0 then 2 else t.phase }

/-- The last valid angle carried on with the last filtered speed; 0 where the source has not been VALID since ARMED (R107). -/
def State.carryOn (s : State) (n : Nat) : State :=
  s.updE n fun e => if e.seen then { e with ang := angAdd e.ang e.spd } else { e with ang := 0, spd := 0, hist := [] }

/-- Angle and speed at the sample instant (R107, R190, R192): the open-loop vector of IF and DECEL; the source while VALID, once it has
delivered an angle so; the observer where it has taken over; the last valid angle carried on otherwise. A function in RUNNING or STOPPING that loses its source without a
fallback faults with POS_LOST. -/
def State.track (s : State) (n f : Nat) : State :=
  let src := s.posSource n
  let e := s.e n
  let run := s.ust (U.fe n) = .running ∨ s.ust (U.fe n) = .stopping
  let p := FMap.get (fun _ => PosSt.mk 0 0 false 0 false 0 none [] false) s.pos src
  let valid := src < 4 && s.flag (R.POSk_STAT src) F.POSk_STAT_VALID
  let dt : Rat := ((e.sampleAt : Int) - (p.at_ : Int) : Int)
  let th := angAdd (s.polePairs n * (s.reg (R.POSk_ANG src)).toNat) (quant 0 ((e.spd : Rat) * dt / (s.spacingS n * 1000000000)))
  let ph := (s.tr f).phase
  if ph = 2 ∨ ph = 3 then s.vecStep n f
  else if src = 4 ∨ ph = 4 then
    let (a, sp, s1) := s.observe
    s1.updE n fun e => { e with ang := a, spd := sp, seen := true }
  else if (s.tr f).sensorless then
    let (a, sp, s1) := s.observe
    if valid && p.fresh && absI (angDiff th a) < 59652324 then
      (s1.setAngle n th).updTr f fun t => { t with sensorless := false }
    else (s1.updE n fun e => { e with ang := a, spd := sp }).trFlag f 3
  else if valid then (if p.fresh then s.setAngle n th else s.carryOn n)
  else if run ∧ s.tmpl n ≤ 2 ∧ ph = 0 ∧ !s.faultPending (U.fn f) then
    let fallback := s.thr 0x0127 f 0 = 1 ∧ s.rpmToSpd n (s.thr 0x0128 f 1000) ≤ (absI e.spd : Rat)
    if fallback then
      let (a, sp, s1) := s.observe
      ((s1.updE n fun e => { e with ang := a, spd := sp }).updTr f fun t => { t with sensorless := true }).trFlag f 3
    else (s.carryOn n).fnFail f 6 0xFF
  else s.carryOn n

/-! ### Torque (R188) -/

/-- The speed in mechanical rad/s. -/
def State.mechSpeed (s : State) (n : Nat) : Rat :=
  2 * piR * ((s.e n).spd : Rat) / 4294967296 / s.spacingS n / (s.polePairs n : Rat)

/-- The effective torque of R188 for this update, N·m; the flags ENV (0), CLIP (1) and UV (2) of the record. -/
def State.effTorque (s : State) (n f : Nat) : State × Rat :=
  let t := s.tr f
  let par := (s.e n).par
  let stopping := s.ust (U.fn f) = .stopping
  let req : Rat := if stopping then 0 else (par.torque : Rat) / 65536
  let ramp : Rat := if stopping then (s.thr 0x0122 f 50 : Rat)
    else if par.ramp = 0 then (s.thr 0x0121 f 50 : Rat) else (par.ramp : Rat) / 65536
  let step := ramp * s.spacingS n * 1000
  let prev : Rat := (t.tEff : Rat) / 65536
  let tmax : Rat := (s.thr 0x0120 f 0 : Rat)
  let w := s.mechSpeed n
  let link := s.linkOf f
  let draw : Rat := par.draw
  let k : Rat := (par.k : Rat) / 32768
  let t1 := clampQ (-tmax) tmax (prev + clampQ (-step) step (req - prev))
  let (t2, f0) := if draw < t1 * w then (draw / w, true) else (t1, false)
  let c := k * par.ret
  let cut := t2 * w < 0 ∧ c < -t2 * w
  let t3 := if cut then -c / w else t2
  let uv := 0 < t3 * w ∧ s.linkVolts link < (s.thr 0x0105 link 0 : Rat)
  let t4 := if uv then 0 else t3
  let s1 := if f0 ∨ (cut ∧ ¬ k < 1) then s.trFlag f 0 else s
  let s2 := if cut ∧ k < 1 then s1.trFlag f 1 else s1
  let s3 := if uv then s2.trFlag f 2 else s2
  (s3.updTr f fun x => { x with tEff := satS 32 (quant 16 t4) }, t4)

/-! ### Harmonic injection (R112) -/

/-- A channel's order, axis, source flag and table from its HCFG word. -/
def hOrder (cfg : Nat) : Int := toSigned 8 (bitsOf cfg 15 8)

/-- The amplitude and phase (turns) of channel k, before the cap: fixed, or from its HARMONIC table. -/
def State.hAmp (s : State) (n : Nat) (cfg amp : Nat) (torque : Rat) : State × Rat × Rat :=
  if bitAt cfg 3 then
    match s.withImg none fun im => im.tableId (bitsOf cfg 31 16) with
    | none => (s, 0, 0)
    | some t =>
      let l := s.lookup n t (s.mechSpeed n * 30 / piR) torque
      (State.lookupDone n l, l.vals.getD 0 0, l.vals.getD 1 0 / 2)
  else (s, (bitsOf amp 15 0 : Rat) / 32768, (bitsOf amp 31 16 : Rat) / 65536)

/-- One step of a channel's fade: down over 64 updates while faded, up again after. -/
def fadeStep (fade : Bool) (x : Nat) : Nat := if fade then x - 1 else min (x + 1) 64

/-- The harmonic terms of an engine added to its (d, q) or (x, y) reference. `axes` is 0 for d and q, 2 for a partner's x and
y; `thu` the angle at the update point served. Table-sourced amplitudes beyond the cap are scaled down together. Log 257. -/
def State.harmonics (s : State) (n : Nat) (torque : Rat) (thu : Nat) (partner : Bool) : State × Vec :=
  let e := s.e n
  if s.tmpl n > 2 ∨ !bitAt (s.loopFlags n) 2 then (s, (0, 0))
  else
    let chans := (List.range 4).filter fun k => bitAt (e.par.harm.getD k (0, 0)).1 0
    let (s1, amps) := chans.foldl (fun (p : State × List (Nat × Rat × Rat)) k =>
      let c := e.par.harm.getD k (0, 0)
      let (s', a, ph) := p.1.hAmp n c.1 c.2 torque
      (s', p.2 ++ [(k, a, ph)])) (s, [])
    let cap : Rat := (bitsOf e.par.hcap 15 0 : Rat) / 32768
    let sum := amps.foldl (fun a x => a + x.2.1) 0
    let isTab (k : Nat) : Bool := bitAt (e.par.harm.getD k (0, 0)).1 3
    let tab := amps.foldl (fun a x => if isTab x.1 then a + x.2.1 else a) 0
    let exceeds := cap < sum ∧ 0 < tab
    let kk := if exceeds then clampQ 0 1 ((cap - (sum - tab)) / tab) else 1
    let faded (k : Nat) : Bool :=
      let c := (e.par.harm.getD k (0, 0)).1
      e.calm < 4 || decide (536870912 < (hOrder c).natAbs * e.spd.natAbs)
    let fades := (List.range 4).map fun k => fadeStep (chans.contains k && faded k) (e.fades.getD k 0)
    let term := amps.foldl (fun (v : Vec) x =>
      let c := (e.par.harm.getD x.1 (0, 0)).1
      let ax := bitsOf c 2 1
      let a := x.2.1 * (if isTab x.1 then kk else 1) * ((fades.getD x.1 0 : Nat) : Rat) / 64
      let val := a * (cosSin (angAdd 0 (hOrder c * (thu : Int) + quant 32 x.2.2))).1
      if partner != decide (2 ≤ ax) then v else if ax % 2 = 0 then (v.1 + val, v.2) else (v.1, v.2 + val)) (0, 0)
    let s2 := s1.updE n fun e => { e with fades := fades }
    let sat := exceeds ∨ (chans.any fun k => fades.getD k 0 != 64)
    (if sat then s2.feFlag n F.FEn_EVT_HSAT else s2, term)

/-! ### Adaptation (R111) -/

/-- One axis of the adaptation: the new factor in 1/4,096 and whether it was clamped. -/
def adaptAxis (c lo hi : Nat) (shift : Nat) (exc now pred prev : Rat) : Nat × Bool :=
  let u := pred - prev
  let r := now - pred
  if (if u < 0 then -u else u) < exc then (c, false)
  else
    let c' : Rat := (c : Rat) * (1 + (if 0 < u then r else -r) / ((2 ^ shift : Nat) : Rat))
    let v := quant 0 c'
    if v < lo then (lo, true) else if (hi : Int) < v then (hi, true) else (v.toNat, false)

/-- Adaptation runs (R111, Table FE-2): in RUNNING with RUN 1 and VLIM clear in this update and the four before it. -/
def State.adapts (s : State) (n : Nat) : Bool := s.ust (U.fe n) == .running && bitAt (s.e n).par.adapt 0 && decide (5 ≤ (s.e n).calm)

/-- The adaptation of an engine (R111), on the previous update's prediction of this sample. -/
def State.adaptStep (s : State) (n : Nat) : State :=
  let e := s.e n
  match e.pred with
  | none => s
  | some pred =>
    if !s.adapts n then s
    else
      let shift := bitsOf e.par.adapt 11 8
      let exc : Rat := (bitsOf e.par.adapt 31 16 : Rat) / 32768
      let lo := s.fld (R.FEn_ADLIM n) F.FEn_ADLIM_LO
      let hi := s.fld (R.FEn_ADLIM n) F.FEn_ADLIM_HI
      let (cd, k1) := adaptAxis (s.fld (R.FEn_ADFAC n) F.FEn_ADFAC_CD) lo hi shift exc (of27 e.i.1) (of27 pred.1) (of27 e.iprev.1)
      let (cq, k2) := adaptAxis (s.fld (R.FEn_ADFAC n) F.FEn_ADFAC_CQ) lo hi shift exc (of27 e.i.2) (of27 pred.2) (of27 e.iprev.2)
      let s1 := (s.setFld (R.FEn_ADFAC n) F.FEn_ADFAC_CD cd).setFld (R.FEn_ADFAC n) F.FEn_ADFAC_CQ cq
      if k1 || k2 then s1.feFlag n F.FEn_EVT_ACLAMP else s1

end Sys2Proof.Machine
end

