-- ==== Sys2Proof/Machine/ChgOps.lean ====
section
/-!
DEFINITION. The charger's parts that its engines use and its commands share (08): the input current limit, the output limit and
references, phase changes, ends of a session, and what it does at each DAB update.
Choices of the model: log 52, 56, 57, 58, 59, 61.
-/
namespace Sys2Proof.Machine

def State.updCh (s : State) (g : ChgSt → ChgSt) : State := { s with chg := g s.chg }
/-- An epoch flag of Table CHG-12, byte 15. -/
def State.chgFlag (s : State) (bit : Nat) : State :=
  s.updCh fun c => { c with flags := if bitAt c.flags bit then c.flags else c.flags + 2 ^ bit }
/-- A threshold of Table CHG-11. -/
def State.cth (s : State) (id : Nat) (d : Int) : Rat := s.thr id 0xFF d
def State.chgMode (s : State) : Nat := s.fld R.CHG_STATE F.CHG_STATE_MODE
/-- Proximity code; a cable is present for 1 to 4 (R212). -/
def State.ppCode (s : State) : Nat := s.fld R.CHG_PILOT F.CHG_PILOT_PP
def State.cablePresent (s : State) : Bool := 1 ≤ s.ppCode && s.ppCode ≤ 4
def State.pilotClass (s : State) : Nat := s.fld R.CHG_PILOT F.CHG_PILOT_CLASS
def State.pilotOsc (s : State) : Bool := s.flag R.CHG_PILOT F.CHG_PILOT_OSC
/-- Pilot current in 0.5 A; 0 none, 0xFF digital communication. -/
def State.pilotCur (s : State) : Nat := s.fld R.CHG_PILOT F.CHG_PILOT_ICUR

/-- The DAB engine of the charger, V2, I2 and the bus voltage as sampled last. -/
def State.chgDabN (s : State) : Nat := s.dabEngine s.chgDab
def State.chgBus (s : State) : Rat := s.dabSlot s.chgDabN 1
def State.chgV2 (s : State) : Rat := s.dabSlot s.chgDabN 2
def State.chgI2 (s : State) : Rat := s.dabSlot s.chgDabN 3

/-- The engines of the session's front end. -/
def State.frontEngines (s : State) : List Nat :=
  if s.chgIsWind then s.withImg [] fun im => im.windEngines s.chgDab
  else if s.chgAfe < 16 then s.enginesOf s.chgAfe else []

/-- Phases of the grid in use. -/
def State.gridUsed (s : State) (three : Bool) : List Int := s.chg.grid.take (if three then 3 else 1)
/-- The rms grid voltage: the mean of the phases in use, in V. -/
def State.gridVolts (s : State) : Rat :=
  let l := s.gridUsed s.chg.three
  ((l.foldl (· + ·) 0 : Int) : Rat) / 65536 / ((max 1 l.length : Nat) : Rat)

/-! ### The input current limit (R211, R213) -/

/-- The pilot current in A (Q16.16) for a duty, given as the high time and the length of the periods it is the mean of (Table CHG-4);
0: none, no transfer permitted; none: digital communication. -/
def pilotAmps (osc : Bool) (duty : Nat × Nat) : Option Int :=
  let h := 100 * duty.1
  let l := duty.2
  if !osc ∨ l = 0 ∨ h < 3 * l ∨ 97 * l < h ∨ (7 * l < h ∧ h < 8 * l) then some 0
  else if h ≤ 7 * l then none
  else if h < 10 * l then some (6 * 65536)
  else if h < 85 * l then some ((h : Int) * 6 * 65536 / (10 * (l : Int)))
  else if h ≤ 96 * l then some (((h : Int) - 64 * (l : Int)) * 5 * 65536 / (2 * (l : Int)))
  else some (80 * 65536)

/-- CHG_PILOT.ICUR: the pilot current in 0.5 A. -/
def pilotCurrent (osc : Bool) (duty : Nat × Nat) : Nat :=
  match pilotAmps osc duty with
  | none => 0xFF
  | some i => (i / 32768).toNat

/-- The cable rating of a proximity code in A (Table CHG-5). -/
def cableRating : Nat → Nat
  | 1 => 13 | 2 => 20 | 3 => 32 | 4 => 63 | _ => 0

/-- The limits of R213 other than the search value, as (A per phase in Q16.16, source); a pilot that permits no transfer is a limit of 0,
and so is digital communication without an input limit of CHG_LIMIT. -/
def State.inLimits (s : State) : List (Int × Nat) :=
  (match pilotAmps s.pilotOsc s.chg.duty with
    | none => if s.chg.lIn.isNone then [(0, 4)] else []
    | some p => [(p, 1)])
  ++ [(65536 * (cableRating s.ppCode : Int), 2)]
  ++ (if s.chg.inLim = 0 then [] else [(s.chg.inLim, 3)])
  ++ (match s.chg.lIn with | some l => [(l, 4)] | none => [])
  ++ [(32 * 65536, 6)]

/-- The lowest of a list of limits; of equal ones the first named. -/
def lowestLimit : List (Int × Nat) → Int × Nat
  | [] => (0, 0)
  | [x] => x
  | x :: t => let y := lowestLimit t; if y.1 < x.1 then y else x

/-- The input limit without the search value. -/
def State.otherLimit (s : State) : Int := (lowestLimit s.inLimits).1
/-- The input current limit in force (Q16.16) and its source. -/
def State.inLimit (s : State) : Int × Nat :=
  lowestLimit (s.inLimits.dropLast ++ (if s.chg.search = 0 then [] else [(s.chg.search, 5)]) ++ [(32 * 65536, 6)])

/-- The search is stepping. -/
def State.searching (s : State) : Bool := s.fld R.CHG_ILIM F.CHG_ILIM_SEARCH == 1

/-- Show the limit in force in CHG_ILIM, in whole 0.1 A (log 202); LIMIT where its value or source changed. -/
def State.showLimit (s : State) : State :=
  let (l, src) := s.inLimit
  let v := satU 16 (l * 10 / 65536).toNat
  if s.fld R.CHG_ILIM F.CHG_ILIM_LIMIT = v ∧ s.fld R.CHG_ILIM F.CHG_ILIM_SRC = src then s
  else ((s.setFld R.CHG_ILIM F.CHG_ILIM_LIMIT v).setFld R.CHG_ILIM F.CHG_ILIM_SRC src).setFlag R.CHG_EVT F.CHG_EVT_LIMIT

/-! ### The output (R220, R222, R223, R229) -/

/-- The temperatures of the drivers of the front end's and the DAB's legs, none where unknown; in WIND the machine's winding too. -/
def State.chgTemps (s : State) : List (Option Int) :=
  let code (t : Nat) (bad : Bool) : Option Int := if t = 0xFF ∨ bad then none else some ((t : Int) - 64)
  let legs := (if s.chgFront < 16 then s.fnLegs s.chgFront else []) ++ (if s.chgDab < 16 then s.fnLegs s.chgDab else [])
  (legs.map fun n =>
    let (k, j) := s.glOf n
    code (s.fld (R.GLKk_DRVj k j) F.GLKk_DRVj_TEMP) (bitAt (s.fld (R.GLKk_DRVj k j) F.GLKk_DRVj_FLAGS) 6))
  ++ (if s.chgIsWind then [code (Config.windingTemp s.time).toNat false] else [])

/-- The derating factor (R222). -/
def State.chgFactor (s : State) : Rat :=
  let one (t : Option Int) : Rat := match t with
    | none => 0
    | some x => clampQ 0 1 (1 - ((x : Rat) - s.cth 0x050F 110) / 25)
  (s.chgTemps.map one).foldl (fun a b => if b < a then b else a) 1

/-- The output current limit in A at a V2: derated, and at most the power of the envelope (22,000 W) over V2 (R222, R229). -/
def State.chgOutLimit (s : State) (p : EngPar) (v2 : Rat) : Rat :=
  let i := (p.chg.prog : Rat) / 65536 * s.chgFactor
  let w := clampQ 0 22000 (p.env : Rat)
  if v2 ≤ 0 then i else if w / v2 < i then w / v2 else i

/-- The export power in W: of FEED by R223, of ISLAND by its power, the envelope and 11,000 W. -/
def chgExport (p : EngPar) (v2 : Rat) : Rat :=
  let cap := clampQ 0 11000 (p.dis : Rat)
  let w : Rat := if (p.chg.power : Rat) < cap then p.chg.power else cap
  if p.chg.mode = 1 then
    let l : Rat := p.chg.dis
    let b := (p.chg.bDis : Rat) / 65536 * v2
    let q := if l < w then l else w
    if b < q then clampQ 0 11000 b else clampQ 0 11000 q
  else w

/-- The DAB's I2 reference in A for a parameter set (Table CHG-2, R209, R225): what the bus regulation lowers it by is taken off in SEARCH,
CC and FEED. FEED does not discharge below the lowest V2 of CHG_START. -/
def State.chgRef (s : State) (p : EngPar) (v2 : Rat) : Rat :=
  let lower : Rat := (p.lower : Rat) / 65536
  match p.phase with
  | 1 => -(s.cth 0x0503 20) / 10
  | 4 => clampQ 0 1000 (s.chgOutLimit p v2 - lower)
  | 5 => clampQ 0 1000 (s.chgOutLimit p v2 - lower)
  | 7 => if v2 * 65536 ≤ (p.chg.lowest : Rat) ∨ v2 ≤ 0 then 0 else -(chgExport p v2 / v2) - lower
  | 9 => (s.chg.ramp0 : Rat) / 65536 * clampQ 0 1 (1 - ((s.time - s.chg.rampAt : Nat) : Rat) / 100000000)
  | _ => 0

/-- The quantity that a charging DAB regulates and its reference in per-unit (R209, R224): I2 (0), V2 in CV (1), the bus in ISLAND (2). -/
def State.chgAim (s : State) (n : Nat) (p : EngPar) (v2 : Rat) : Nat × Rat :=
  if p.phase = 6 then (1, (p.chg.target : Rat) / 65536 / s.vBase n)
  else if p.phase = 8 then (2, -(s.cth 0x0501 760 / s.vBase n))
  else (0, s.chgRef p v2 / s.iBase n)

/-- What the charger asks of its front end's engine in per-unit, peak values (R117, R209, R213, R224): the outer loop's reference, the limit
of id*, and iq*. The bus is held at BUS_V within the input current clamp, the island's voltage within ISL_I. -/
def State.frontAim (s : State) (n : Nat) (p : EngPar) : Rat × Rat × Rat :=
  let isl := p.phase = 8
  let i := sqrtR 2 * (if isl then s.cth 0x0518 160 / 10 else (p.clamp : Rat) / 65536) / s.iBase n
  let t := (if isl then sqrtR 2 * (p.chg.islV : Rat) else s.cth 0x0501 760) / s.vBase n
  (t, i, if isl then 0 else sqrtR 2 * (p.chg.react : Rat) / 65536 / s.iBase n)

/-! ### Phases and the end of a session (R209, R225, R226) -/

/-- Enter RAMPDOWN: the DAB current ramps to zero, STOPPING at the next boundary. -/
def State.chgRampdown (s : State) : State :=
  let s1 := s.updCh fun c => { c with rampAt := s.time, ramp0 := (s.chgI2 * 65536).floor }
  ((s1.setFld R.CHG_ILIM F.CHG_ILIM_SEARCH 0).chgSetPhase 9).hwMove U.chg [.running] .stopping

/-- A session that runs ends with RAMPDOWN for a reason (R225). -/
def State.chgEnd (s : State) (r : Nat) : State :=
  if s.chgPhase = 0 ∨ s.chgPhase = 9 then s else (s.chgReason r).chgRampdown

/-- A session ends with a hard stop for a reason other than a fault (R225). -/
def State.chgEndHard (s : State) (r : Nat) : State :=
  if s.chgPhase = 0 ∨ s.chg.hard then s
  else (((s.chgReason r).chgHardStop).chgSetPhase 9).hwMove U.chg [.running] .stopping

/-! ### The search (R214) -/

/-- The search ends at a value; a search of SEARCH leads to CC. -/
def State.searchEnd (s : State) (v : Int) : State :=
  let s1 := ((s.updCh fun c => { c with search := v }).setFld R.CHG_ILIM F.CHG_ILIM_SEARCH 2).showLimit
  if s1.chgPhase = 4 then s1.chgSetPhase 5 else s1

/-- A search starts at a value. -/
def State.searchStart (s : State) (v : Int) : State :=
  (((s.updCh fun c => { c with search := v }).setFld R.CHG_ILIM F.CHG_ILIM_SEARCH 1).showLimit).chgFlag 0

/-- A limit of R213 has changed, from the state before: a lower one stops a search at it; a rise starts one from the value in force. DEDUCED
(log 203): in CC and CV, the phases that take the limit's current. -/
def State.limitsChanged (s : State) (before : Int) : State :=
  let now := s.otherLimit
  if s.searching then (if now < s.chg.search then s.searchEnd now else s.showLimit)
  else if (s.chgPhase = 5 ∨ s.chgPhase = 6) ∧ before < now then s.searchStart s.inLimit.1
  else s.showLimit

/-! ### Each DAB update (R209, R218, R220) -/

/-- V2 rises faster than SLOPE with the I2 reference at or above I_MIN (R218). -/
def State.chgRising (s : State) (v2 : Int) : Bool :=
  decide (s.cth 0x0508 100 * 65536 * 1000 * s.spacingS s.chgDabN < ((v2 - s.chg.v2prev : Int) : Rat))
    && decide (s.cth 0x0509 20 * 65536 ≤ 10 * (s.chg.ref : Rat))

/-- The timers, the energy, CHG_TIME, and since when I2 has been below the termination current in CV. -/
def State.chgCount (s : State) : State :=
  let dt := s.time - s.chg.last
  let i2 := s.chgI2
  let cc := (s.chgPhase = 4 ∨ s.chgPhase = 5) ∧ (s.chgProg : Rat) ≤ 2 * 65536 * i2
  let s1 := s.updCh fun c =>
    { c with ccNs := if cc then c.ccNs + dt else c.ccNs, energy := c.energy + quant 0 (s.chgV2 * i2 * (dt : Rat)), last := s.time,
             termAt := if s.chgPhase = 6 ∧ i2 * 65536 < (c.term : Rat) then some (c.termAt.getD s.time) else none }
  (s1.setFld R.CHG_TIME F.CHG_TIME_CC (satU 16 (s1.chg.ccNs / 60000000000))).setFld R.CHG_TIME F.CHG_TIME_SESSION
    (satU 16 ((s.time - s.chg.started) / 60000000000))

/-- What the charger does at an update of its DAB engine: counting, the absent-battery test, PRECHARGE done, CC to CV and back. -/
def State.chgDabTick (s : State) (n : Nat) : State :=
  if s.chgPhase = 0 ∨ n ≠ s.chgDabN then s
  else
    let v2 := (s.chgV2 * 65536).floor
    let up := s.chgRising v2
    let s1 := (s.chgCount).updCh fun c => { c with v2prev := v2, rises := if up then c.rises + 1 else 0 }
    if up ∧ 2 ≤ s1.chg.rises then s1.chgFail 3
    else if s1.chgPhase = 1 ∧ s1.cth 0x0501 760 - s1.cth 0x0502 20 ≤ s1.chgBus then
      (s1.updCh fun c => { c with acCmd := true }).chgSetPhase 2
    else if s1.chgPhase = 5 ∧ s1.chgTarget ≤ v2 then s1.chgSetPhase 6
    else if s1.chgPhase = 6 ∧ 100 * v2 < 98 * s1.chgTarget then s1.chgSetPhase 5
    else s1

end Sys2Proof.Machine
end

