-- ==== Sys2Proof/Machine/Engine.lean ====
section
/-!
DEFINITION. The field engines' commands (04): letters of Table FE-11 and one update (R103) for every template.
Choices of the model: log 25, 26.
-/
namespace Sys2Proof.Machine

/-! ### Letters (R120) -/

/-- A unit code is that of an engine. -/
def isFe (u : Nat) : Bool := 0x20 ≤ u && u ≤ 0x27
def feOf (m : Msg) : Nat := m.unit - 0x20

/-- A table identifier names a HARMONIC table of the engine's loop (R120). -/
def State.harmTable (s : State) (n id : Nat) : Bool :=
  s.withImg false fun im =>
    let r := s.loopRec n
    rf r 16 2 ≤ id && id < rf r 16 2 + rf r 18 1 &&
      (match im.tableId id with | some t => rf t.header 2 1 == 4 | none => false)

/-- The checks on harmonic channel k getting a configuration and an amplitude word (R112, R120): order, amplitude, axis, table,
and the cap on the fixed amplitudes in force. DESIGN CHOICE (log 217): the table identifier is checked only where the source is a table. -/
def State.harmFails (s : State) (n k cfg amp cap : Nat) : List Status :=
  let o := hOrder cfg
  let fixed (j : Nat) : Nat :=
    let c := if j = k then cfg else (s.reg (R.FEn_HCFGk n j)).toNat
    let a := if j = k then amp else (s.reg (R.FEn_HAMPk n j)).toNat
    if bitAt c 0 && !bitAt c 3 then bitsOf a 15 0 else 0
  let bad := 3 < k || o < -24 || 24 < o || (o = 0 && bitAt cfg 0) || 0x7FFF < bitsOf amp 15 0
    || (2 ≤ bitsOf cfg 2 1 && !(s.tmpl n = 2 && s.isPartner n))
    || (bitAt cfg 3 && !s.harmTable n (bitsOf cfg 31 16))
    || cap < ((List.range 4).map fixed).foldl (· + ·) 0
  (if s.tmpl n > 2 then [.eState] else []) ++ (if bad then [.eRange] else [])

/-- FE_HARM (R112, Table FE-11): the channel's configuration and amplitude words. -/
def specFeHarm : LetterSpec where
  units _ u := isFe u
  legal st := st = .idle || st = .armed || st = .running
  used := [(16, 25)]
  fails s m :=
    let n := feOf m
    (if bitsOf (m.u8 17) 7 4 = 0 then [] else [.eFormat]) ++
    s.harmFails n (m.u8 16) (m.u16 24 * 65536 + m.u16 18 % 256 * 256 + m.u8 17 % 16) (m.u16 22 * 65536 + m.u16 20)
      (s.fld (R.FEn_HCAP n) F.FEn_HCAP_CAP)
    ++ (if m.i16 18 < -24 || 24 < m.i16 18 then [.eRange] else [])
  run s m _ :=
    let n := feOf m
    let k := m.u8 16
    doneWith ((s.setReg (R.FEn_HCFGk n k) (BitVec.ofNat 32 (m.u16 24 * 65536 + m.u16 18 % 256 * 256 + m.u8 17 % 16))).setReg
      (R.FEn_HAMPk n k) (BitVec.ofNat 32 (m.u16 22 * 65536 + m.u16 20)))

/-- The adaptation factors as FEn_ADFAC shows them: 1.0 from the latch of a reset (R105, R120). -/
def State.factors (s : State) (n : Nat) : Nat := if s.resetDue n then 0x10001000 else (s.reg (R.FEn_ADFAC n)).toNat

/-- FE_ADAPT (R111): freeze, run, or reset the factors with the latch of R105; the result holds the factors before the action. -/
def specFeAdapt : LetterSpec where
  units _ u := isFe u
  legal st := st = .idle || st = .armed || st = .running || st = .stopping
  used := [(16, 16)]
  fails _ m := if m.u8 16 ≤ 2 then [] else [.eRange]
  run s m _ :=
    let n := feOf m
    let before := leBytes 4 (s.factors n)
    let s1 := match m.u8 16 with
      | 0 => s.setFld (R.FEn_ADAPT n) F.FEn_ADAPT_RUN 0
      | 1 => s.setFld (R.FEn_ADAPT n) F.FEn_ADAPT_RUN 1
      | _ => (s.settleReset n).updE n fun e => { e with resetAt := some (s.time + 1000) }
    (s1, .done before none)

/-- The range checks on κ, MOD_MAX and the outer gains (Tables FE-11, FE-19, FE-20, R120). -/
def State.gainFails (s : State) (n kappa modMax kp ki : Nat) : List Status :=
  if 0x2000 ≤ kappa ∧ kappa ≤ 0x7FFF ∧ 0x4000 ≤ modMax ∧ modMax ≤ 0x7FFF ∧ kp < 2 ^ 31 ∧ ki < 2 ^ 31
      ∧ (s.tmpl n ≤ 2 → kp = 0 ∧ ki = 0) then [] else [.eRange]

/-- FE_GAINS (Table FE-11). -/
def specFeGains : LetterSpec where
  units _ u := isFe u
  legal st := st = .idle || st = .armed
  used := [(16, 27)]
  fails s m := s.gainFails (feOf m) (m.u16 16) (m.u16 18) (m.u32 20) (m.u32 24)
  run s m _ :=
    let n := feOf m
    doneWith (((s.setReg (R.FEn_GAINS n) (BitVec.ofNat 32 (m.u16 18 * 65536 + m.u16 16))).setReg
      (R.FEn_OUTKP n) (BitVec.ofNat 32 (m.u32 20))).setReg (R.FEn_OUTKI n) (BitVec.ofNat 32 (m.u32 24)))

/-- The cause of an engine's fault persists (R102): a table error until the codeword is mended, or, where its restoring has failed, until the
next system reset (R446). -/
def State.feCausePersists (s : State) (n : Nat) : Bool :=
  (s.e n).cause == 5 && (4 ≤ (s.errAt (s.e n).terrAt).length || s.restFail.contains ((s.e n).terrAt - 0x28000000))

/-- An engine leaves FAULT for IDLE (R102): its factors are 1.0 again, the counters of FEn_ERRCNT stay. -/
def State.feClear (s : State) (n : Nat) : State :=
  (s.updE n fun e => { e with cause := 0, halt := false, first := true, calm := 5, pred := none }).resetFactors n

/-- FE_CLEAR (R102): both engines of a coupled pair return to IDLE. -/
def specFeClear : LetterSpec where
  units _ u := isFe u
  legal st := st = .fault
  used := []
  detail _ _ _ := []
  fails s m :=
    let n := feOf m
    let fs := s.ust (U.fn (s.fld (R.FEn_STATE n) F.FEn_STATE_FUNCTION))
    (if s.ust m.unit = .fault then [] else [.eState]) ++
    (if (fs = .off || fs = .idle || fs = .fault) && !(s.pairEngines n).any s.feCausePersists then [] else [.eInterlock])
  run s m _ := doneWith (s.each (s.pairEngines (feOf m)) fun s n =>
    if s.ust (U.fe n) = .fault then (s.feClear n).setUst (U.fe n) .idle else s)

def execFeHarm (m : Msg) (s : State) : Out := .next (deliver specFeHarm s m)
def execFeAdapt (m : Msg) (s : State) : Out := .next (deliver specFeAdapt s m)
def execFeGains (m : Msg) (s : State) : Out := .next (deliver specFeGains s m)
def execFeClear (m : Msg) (s : State) : Out := .next (deliver specFeClear s m)

/-! ### One update: measurement -/

/-- Unpack a group's samples: three currents and the DC voltage of slot 3; a voltage at or below 0 becomes 2^−27 and sets
SAT (R106, R109). -/
def State.unpack (s : State) (n g : Nat) : State :=
  let x := (List.range 3).map fun k => s.slotPu n g k false
  let v := s.slotPu n g 3 true
  let s1 := s.updE n fun e => { e with iph := x.map q27, vdc := maxI 1 (q27 v) }
  s1.satIf n (decide (q27 v ≤ 0) || out27 v || x.any out27)

/-- The Clarke vector of an engine's phase currents. -/
def State.clarkeOf (s : State) (n : Nat) : Vec :=
  let l := (s.e n).iph
  clarke (of27 (l.getD 0 0)) (of27 (l.getD 1 0)) (of27 (l.getD 2 0))

/-- Store a measured current vector; the one before it becomes the previous measurement. -/
def State.measured (s : State) (n : Nat) (v : Vec) : State :=
  (s.updE n fun e => { e with iprev := e.i, i := q27v v }).satIf n (fxv 27 v).2

/-- The gain of Table FE-5 from an inductance in µH times an adaptation factor in 1/4,096, in Q10.22, never 0 (R113), and whether it
saturates. -/
def State.gainOf (s : State) (n : Nat) (uH : Rat) (factor : Nat) : Rat × Bool :=
  let g : Rat := (quant 22 (uH / 1000000 * s.iBase n / (s.vBase n * s.spacingS n)) : Rat) / 4194304
  let (x, z) := fx 22 (g * (factor : Rat) / 4096)
  (if x ≤ 0 then 1 / 4194304 else x, z)

/-- The flux Ψ of Table FE-5 from mWb, in Q10.22. -/
def State.fluxOf (s : State) (n : Nat) (mWb : Rat) : Rat × Bool := fx 22 (mWb / 1000 / (s.vBase n * s.spacingS n))

/-- ωT: electrical radians per update, Q2.30. -/
def State.omegaT (s : State) (n : Nat) : Rat × Bool := fx 30 (2 * piR * ((s.e n).spd : Rat) / 4294967296)

/-- The factors in 1/4,096: d and q, or x and y on a partner. -/
def State.facD (s : State) (n : Nat) : Nat := s.fld (R.FEn_ADFAC n) F.FEn_ADFAC_CD
def State.facQ (s : State) (n : Nat) : Nat := s.fld (R.FEn_ADFAC n) F.FEn_ADFAC_CQ

/-- Record VLIM and the calm count (R109). -/
def State.vlimDone (s : State) (n : Nat) (hit : Bool) : State :=
  let s1 := if hit then s.feFlag n F.FEn_EVT_VLIM else s
  s1.updE n fun e => { e with calm := if hit then 0 else min (e.calm + 1) 5 }

/-- A law's outcome is recorded for engine n: SAT, VLIM, adaptation (R111), reference, command and the prediction of the next sample, which
an update whose duties come too late does not make. -/
def State.lawDone (s : State) (n : Nat) (ir : Vec) (o : LawOut) : State :=
  (((s.satIf n o.sat).vlimDone n o.hit).adaptStep n).updE n fun e =>
    { e with ir := q27v ir, v := q27v o.v, pred := if e.skip then none else some (q27v o.next), first := false }

/-- The law of R108 in one plane of engine n: current reference, gain entries in µH, flux in mWb, ωT, the voltage limit, and the voltage in
force at a first update. -/
def State.planeLaw (s : State) (n : Nat) (ir : Vec) (ld lq psi wT vlim : Rat) (v0 : Vec) (wide : Bool) : LawOut :=
  let e := s.e n
  let (gd, z1) := s.gainOf n ld (s.facD n)
  let (gq, z2) := s.gainOf n lq (s.facQ n)
  let o := Law.run ⟨of27v e.i, ir, if e.first then v0 else of27v e.vp, gd, gq, psi, s.rsPu n, wT, s.lam n, e.par.kappa⟩ vlim
  { o with sat := o.sat || z1 || z2 || wide }

/-! ### One update: duties -/

/-- This update writes no duties: they are withheld (R101, R116), or its update point has passed (R29). -/
def State.mute (s : State) (n : Nat) : Bool := (s.e n).halt || (s.e n).skip

/-- Duties from the phase voltages `ph`, the predicted phase currents `ic` and the measured ones `im` (per-unit) into the shadow registers of
the legs at positions from `base` on (R110, R128). Answers the booked power in W (R292). -/
def State.writeDuties (s : State) (n f role base : Nat) (ph ic im : List Rat) : State × Rat :=
  let vdc := of27 (s.e n).vdc
  let tc : Rat := (s.fld (R.FEn_PERIOD n) F.FEn_PERIOD_PERIOD : Rat) * 5 / 2
  (List.range ph.length).foldl (fun (p : State × Rat) k =>
    match p.1.withImg none (fun im => im.legAt f role (base + k)) with
    | none => p
    | some leg =>
      let l := p.1.leg leg
      let d0 := 1 / 2 + ph.getD k 0 / vdc
      let d1 := if bitAt (p.1.loopFlags n) 1 then d0 + dtc (ic.getD k 0) (p.1.dtcBand n) ((l.td : Rat) / tc) else d0
      let dmin := ((l.td + l.minon : Nat) : Rat) / tc
      let d := quant 30 (clampQ dmin (1 - dmin) d1)
      let w := vdc * p.1.vBase n * ((d : Rat) / 1073741824) * im.getD k 0 * p.1.iBase n
      (p.1.setShadow leg (some d), p.2 + w)) (s, 0)

/-- The duties of one winding set: `v` the phase-voltage vector, `ip` the predicted current vector, in the set's own axes. -/
def State.writeSet (s : State) (n f role base : Nat) (v ip : Vec) : State × Rat :=
  s.writeDuties n f role base (zeroSeq (phases v)) (phases ip) ((List.range 3).map fun k => of27 ((s.e n).iph.getD k 0))

/-- The duties of a single-phase front end (R117): positions 0 and 1 form a full bridge, position 2 is held off. -/
def State.writeBridge (s : State) (n f : Nat) (v i : Rat) : State × Rat :=
  let m := of27 ((s.e n).iph.getD 0 0)
  let s1 := match s.withImg none (fun im => im.legAt f 2 2) with | some leg => s.setShadow leg none | none => s
  s1.writeDuties n f 2 0 [v / 2, -(v / 2)] [i, -i] [m, -m]

/-- Post a pre-notice of a power in W for the update point that the sample serves (R115) and stage the booked power (R292, R298). -/
def State.post (s : State) (n f : Nat) (power booked : Rat) : State :=
  let pw := satS 32 (quant 0 power)
  let e := s.e n
  let sq := (e.seq + 1) % 65536
  let point := (2 * e.sampleAt + 5 * s.fld (R.FEn_LEAD n) F.FEn_LEAD_LEAD) / 2
  let s1 := s.updE n fun e => { e with seq := sq, power := pw, notices := (e.notices.drop (e.notices.length - 1)) ++ [Notice.mk sq point pw] }
  (((s1.satIf n (pw != quant 0 power)).updFp f fun p => { p with next := nearest (booked * 1000), preLive := true, preGone := false }).setReg
    (R.LDG_PNf f) (BitVec.ofNat 32 (ofSigned 32 pw)))

/-! ### Missing phase (R194) -/

/-- One update of the missing-phase test of a position: magnitude of its current, commanded amplitude and rated current in A,
electrical angle turned. Answers the test's new state and whether the phase is missing. -/
def missNext (m : MissSt) (mag cmd rated : Rat) (adv : Nat) (slow : Bool) : MissSt × Bool :=
  if slow then (⟨0, 0, none, 0⟩, false)
  else
    let q (x : Rat) : Int := (x * 65536).floor
    let pk := maxI m.peak (q mag)
    let cm := match m.cmd with | none => q cmd | some c => minI c (q cmd)
    let turn := m.turn + adv
    if turn < 4294967296 then (⟨turn, pk, some cm, m.cycles⟩, false)
    else
      let fails := (pk : Rat) < rated * 65536 * 3 / 100 ∧ rated * 65536 / 5 < (cm : Rat)
      let c := if fails then m.cycles + 1 else 0
      (⟨turn % 4294967296, 0, none, c⟩, decide (3 ≤ c))

/-- The test of a leg position of a function. -/
def State.missStep (s : State) (f pos : Nat) (mag cmd rated : Rat) (spd : Int) (slow : Bool) : State :=
  let d (_ : Nat) : MissSt := ⟨0, 0, none, 0⟩
  let (m, bad) := missNext (FMap.get d (s.tr f).miss pos) mag cmd rated spd.natAbs slow
  let s1 := s.updTr f fun t => { t with miss := FMap.set d t.miss pos m }
  if bad then s1.fnFail f 5 pos else s1

/-- I_RATED of a function in A: THRESH 0x0126, else I_BASE. -/
def State.iRated (s : State) (n f : Nat) : Rat := (s.thr 0x0126 f (rf (s.loopRec n) 20 2) : Rat) / 10

/-- The missing-phase test of a set: positions base to base + 2 (R193, R194). -/
def State.missSet (s : State) (n p f base : Nat) (amp : Rat) : State :=
  let e := s.e p
  let slow := (e.spd.natAbs : Rat) < 5 * 4294967296 * s.spacingS p
  s.each (List.range 3) fun s k =>
    let x := of27 ((s.e n).iph.getD k 0) * s.iBase n
    s.missStep f (base + k) (if x < 0 then -x else x) (amp * s.iBase n) (s.iRated n f) e.spd slow

/-! ### FOC3 and FOC6 -/

/-- The start-phase reference (Table TRA-4): IF holds a current vector on the d axis of the open-loop angle, DECEL brakes on the q axis with
the return factor; STOPPING ramps its amplitude to zero within 10 ms, and zero torque is then held on the observer (R184; DEDUCED, log
200). Answers the reference in per-unit, none outside those phases. -/
def State.startRef (s : State) (n f : Nat) : State × Option Vec :=
  let t := s.tr f
  if t.phase ≠ 2 ∧ t.phase ≠ 3 then (s, none)
  else
    let full : Rat := (s.thr 0x012B f 30 : Rat) / 100 * s.iRated n f
    let stopping := s.ust (U.fn f) = .stopping
    let amp : Rat := if stopping then clampQ 0 full ((t.amp : Rat) / 65536 - full * s.spacingS n * 100) else full
    let ends := stopping ∧ amp = 0
    let s1 := s.updTr f fun t =>
      { t with amp := (amp * 65536).floor, phase := if ends then 0 else t.phase, sensorless := t.sensorless || (ends && s.posSource n != 4) }
    let pu := amp / s.iBase n
    (s1, some (if t.phase = 2 then (pu, 0) else (0, pu * ((s.e n).par.k : Rat) / 32768)))

/-- The reference lane of a FOC engine: effective torque and the CURRENT lookup at ωe ÷ Vdc (R103, Table FE-6). -/
def State.focRef (s : State) (n f : Nat) : State × Vec × Rat :=
  match s.startRef n f with
  | (s1, some v) => (s1, v, 0)
  | (s1, none) =>
    let (s2, t) := s1.effTorque n f
    let we := (s2.omegaT n).1 / s2.spacingS n
    let l := s2.lookupKind n 1 t (we / (of27 (s2.e n).vdc * s2.vBase n))
    (State.lookupDone n l, (l.vals.getD 0 0, l.vals.getD 1 0), t)

/-- The xy plane of a FOC6 update on the partner (R108): no cross-coupling and no flux, limited to a twentieth of its own sample's DC voltage
(R109). Answers the partner's command, prediction and reference. -/
def State.focPartner (s : State) (q : Nat) (torque : Rat) (thu : Nat) (lx ly : Rat) : State × Vec × Vec × Vec :=
  let (s1, hx) := s.harmonics q torque thu true
  let (ir, z) := fxv 27 hx
  let ll := s1.lookupKind q 5 lx ly
  let s2 := State.lookupDone q ll
  let l := ll.vals.getD 0 0
  let o := s2.planeLaw q ir l l 0 0 (of27 (s2.e q).vdc / 20) (0, 0) z
  (s2.lawDone q ir o, o.v, o.ip, ir)

/-- One update of a FOC3 or FOC6 function past its measurement (R108 to R115). `n` the primary, `p` the partner. -/
def State.focLaw (s0 : State) (n : Nat) (p : Option Nat) (f : Nat) : State :=
  let (s1, ref0, torque) := s0.focRef n f
  let th := (s1.e n).ang
  let spd := (s1.e n).spd
  let lam := s1.lam n
  let thu := angAdd th (quant 0 ((spd : Rat) * lam))
  let thv := angAdd th (quant 0 ((spd : Rat) * (lam + 1 / 2)))
  let (s2, h) := s1.harmonics n torque thu false
  let (ir, z0) := fxv 27 (vadd ref0 h)
  let prev := of27v (s2.e n).iprev
  let lx := prev.1 * s2.iBase n
  let ly := prev.2 * s2.iBase n
  let li := s2.lookupKind n 2 lx ly
  let s3 := State.lookupDone n li
  let lf := s3.lookupKind n 3 lx ly
  let s4 := State.lookupDone n lf
  let (wT, z1) := s4.omegaT n
  let (psi, z2) := s4.fluxOf n (lf.vals.getD 0 0)
  let vxyPrev := match p with | some q => vabs (of27v (s4.e q).v) | none => 0
  let vlim := (s4.e n).par.modMax * of27 (s4.e n).vdc / sqrt3 - vxyPrev
  let o := s4.planeLaw n ir (li.vals.getD 0 0) (li.vals.getD 1 0) psi wT vlim (0, wT * psi) (z0 || z1 || z2)
  let s5 := s4.lawDone n ir o
  let (s6, vxy, ixy, irxy) := match p with
    | none => (s5, ((0, 0) : Vec), ((0, 0) : Vec), ((0, 0) : Vec))
    | some q => s5.focPartner q torque thu lx ly
  let vab := rot o.v thv
  let iab := rot o.ip thu
  let k : Rat := if p.isSome then 3 else 3 / 2
  let s7 : State :=
    if s6.mute n then s6
    else
      let (a, w1) := s6.writeSet n f 1 0 (vadd vab (vconj vxy)) (vadd iab (vconj ixy))
      let (b, w2) := match p with
        | none => (a, (0 : Rat))
        | some q => a.writeSet q f 1 3 (unrot (vsub vab (vconj vxy)) deg30) (unrot (vsub iab (vconj ixy)) deg30)
      b.post n f (k * b.vBase n * b.iBase n * (o.v.1 * ir.1 + o.v.2 * ir.2)) (w1 + w2)
  let cab := rot ir thu
  let s8 : State := s7.missSet n n f 0 (vabs (vadd cab (vconj irxy)))
  match p with
  | none => s8
  | some q => s8.missSet q n f 3 (vabs (vsub cab (vconj irxy)))

/-- STOPPING that interrupts OBSERVE: no current has flowed, and zero torque is held on the observer (R184; DEDUCED, log 200). -/
def State.leaveObserve (s : State) (n f : Nat) : State :=
  if (s.tr f).phase = 1 ∧ s.ust (U.fn f) = .stopping then
    s.updTr f fun t => { t with phase := 0, sensorless := s.posSource n != 4 }
  else s

/-- The table reads of an update whose duties are withheld or not called for (Table FE-3, R101): the stages run in every tracking state, and
CURRENT is read at no torque. DEDUCED (log 235). -/
def State.tableReads (s : State) (n : Nat) (p : Option Nat) : State :=
  let prev := of27v (s.e n).iprev
  let own (s : State) (kind : Nat) : State :=
    if kind = 1 then State.lookupDone n (s.lookupKind n 1 0 ((s.omegaT n).1 / s.spacingS n / (of27 (s.e n).vdc * s.vBase n)))
    else State.lookupDone n (s.lookupKind n kind (prev.1 * s.iBase n) (prev.2 * s.iBase n))
  let s1 := s.each (match s.tmpl n with | 1 => [1, 2, 3] | 2 => [1, 2, 3] | 3 => [5] | 4 => [2, 3] | _ => []) own
  match p with
  | some q => State.lookupDone q (s1.lookupKind q 5 (prev.1 * s1.iBase n) (prev.2 * s1.iBase n))
  | none => s1

/-- A FOC update: measurement in every tracking state; duties in RUNNING and STOPPING unless withheld (Table FE-2). -/
def State.focUpdate (s : State) (n : Nat) (p : Option Nat) (f : Nat) : State :=
  let s1 := (s.leaveObserve n f).unpack n ((s.groupsOf n).headD 0)
  let s2 := match p with | some q => s1.unpack q ((s1.groupsOf q).headD 0) | none => s1
  let s3 := s2.track n f
  let c1 := s3.clarkeOf n
  let s4 : State := match p with
    | none => s3.measured n (unrot c1 (s3.e n).ang)
    | some q =>
      let c2 := rot (s3.clarkeOf q) deg30
      let t := s3.measured n (unrot (vscale (1 / 2) (vadd c1 c2)) (s3.e n).ang)
      (t.measured q (vconj (vscale (1 / 2) (vsub c1 c2)))).updE q fun e => { e with ang := (t.e n).ang, spd := (t.e n).spd }
  let st := s4.ust (U.fe n)
  let exceeds := ([n] ++ p.toList).any fun k => ((s4.e k).iph.any fun x =>
    decide (s4.iRated n f / 10 < (if x < 0 then -(of27 x) else of27 x) * s4.iBase k))
  if (s4.tr f).phase = 1 then (if exceeds && st = .running then s4.fnFail f 8 0xFF else s4)
  else if st = .armed ∨ (s4.e n).halt then s4.tableReads n p
  else s4.focLaw n p f

/-! ### The grid: PFC3 and WIND (R117) -/

/-- The grid is single-phase in a charger phase: as the session has chosen, before that as the loop's grid mode says. -/
def State.gridSingle (s : State) (n phase : Nat) (three : Bool) : Bool :=
  if 4 ≤ phase ∧ phase ≤ 9 then !three
  else 2 ≤ rf (s.loopRec n) (if s.tmpl n = 4 then 29 else 26) 1

/-- The electrical angle per update of a frequency in 1/65536 Hz. -/
def State.gridStep (s : State) (n : Nat) (hz : Int) : Rat := (hz : Rat) * 65536 * s.spacingS n

/-- The grid angle and frequency: in ISLAND an angle that advances at the island frequency (R224), else the PLL, whose inner
law is not given, so both are free; outside 45 Hz to 65 Hz GRID is set. -/
def State.gridTrack (s : State) (n : Nat) : State :=
  let p := (s.e n).par
  if p.phase = 8 then
    s.updE n fun e => { e with pllHz := p.chg.islF * 65536, pllAng := angAdd e.pllAng (quant 0 (s.gridStep n (p.chg.islF * 65536))) }
  else
    let (a, s1) := s.draw
    let (h, s2) := s1.draw
    let s3 := s2.updE n fun e => { e with pllAng := a, pllHz := (h : Int) }
    if 45 * 65536 ≤ h ∧ h ≤ 65 * 65536 then s3 else s3.feFlag n F.FEn_EVT_GRID

/-- The outer PI (R117): measured against the target, gains in Q10.22 per update, the output held in its limits. DESIGN CHOICE (log 204):
the integral stands still while a limit binds. -/
def State.outerPi (s : State) (n : Nat) (target meas lo hi : Rat) : State × Rat :=
  let e := s.e n
  let (t, z1) := fx 27 target
  let (err, z2) := fx 27 (t - meas)
  let kp : Rat := (toSigned 32 e.par.outkp : Rat) / 4194304
  let ki : Rat := (toSigned 32 e.par.outki : Rat) / 4194304
  let (integ, z3) := fx 27 (of27 e.outI + ki * err)
  let out := kp * err + integ
  let s1 := s.satIf n (z1 || z2 || z3)
  if out < lo then (s1, lo) else if hi < out then (s1, hi)
  else (s1.updE n fun e => { e with outI := q27 integ }, out)

/-- The front end's outer loop (R117, R209): id* within ± the limit in force; whether the clamp binds is kept for the charger. -/
def State.frontPi (s : State) (n : Nat) (target meas lim : Rat) : State × Rat :=
  let (s1, id) := s.outerPi n target meas (-lim) lim
  (s1.updCh fun c => { c with binds := decide (id = lim) || decide (id = -lim) }, id)

/-- PFC3 past its measurement: the law of R108 on the grid currents with the LEAKAGE gain and no flux term. -/
def State.pfcLaw (s0 : State) (n f : Nat) : State :=
  let e0 := s0.e n
  let vdc := of27 e0.vdc
  let (target, lim, iq) := s0.frontAim n e0.par
  let meas := if e0.par.phase = 8 then sqrtR 2 * s0.gridVolts / s0.vBase n else vdc
  let (s1, id) := s0.frontPi n target meas lim
  let (ir, z0) := fxv 27 (id, iq)
  let prev := of27v (s1.e n).iprev
  let ll := s1.lookupKind n 5 (prev.1 * s1.iBase n) (prev.2 * s1.iBase n)
  let s2 := State.lookupDone n ll
  let e := s2.e n
  let (wT, z1) := fx 30 (2 * piR * ((e.pllHz : Rat) / 65536) * s2.spacingS n)
  let l := ll.vals.getD 0 0
  let o := s2.planeLaw n ir l l 0 wT (e.par.modMax * vdc / sqrt3) (0, 0) (z0 || z1)
  let s3 := s2.lawDone n ir o
  if s3.mute n then s3
  else
    let lam := s3.lam n
    let step := s3.gridStep n e.pllHz
    let vab := rot o.v (angAdd e.pllAng (quant 0 (step * (lam + 1 / 2))))
    let iab := rot o.ip (angAdd e.pllAng (quant 0 (step * lam)))
    let (s4, w) := if s3.gridSingle n e.par.phase e.par.chg.three then s3.writeBridge n f vab.1 iab.1 else s3.writeSet n f 2 0 vab iab
    s4.post n f (3 / 2 * s4.vBase n * s4.iBase n * (o.v.1 * ir.1 + o.v.2 * ir.2)) w

/-- The grid current vector in its own frame; in single-phase operation α is the current of slot 0 and the quadrature part comes from an
integrator whose law is not given, so it is free. -/
def State.gridVec (s : State) (n : Nat) : State × Vec :=
  if s.gridSingle n (s.e n).par.phase (s.e n).par.chg.three then
    let (b, s1) := s.draw
    (s1, unrot (of27 ((s.e n).iph.getD 0 0), of27 (toSigned 32 b)) (s.e n).pllAng)
  else (s, unrot (s.clarkeOf n) (s.e n).pllAng)

def State.pfcUpdate (s : State) (n f : Nat) : State :=
  let s1 := s.unpack n ((s.groupsOf n).headD 0)
  let s2 := s1.gridTrack n
  let sp := quant 0 (s2.gridStep n (s2.e n).pllHz)
  let s3 := (s2.satIf n (satS 32 sp != sp)).updE n fun e => { e with ang := e.pllAng, spd := satS 32 sp }
  let (s4, v) := s3.gridVec n
  let s5 := s4.measured n v
  if s5.ust (U.fe n) = .armed ∨ (s5.e n).halt ∨ s5.chg.hard then s5.tableReads n none else s5.pfcLaw n f

/-- The rotor watch (R117): a mechanical angle more than 2° from the one latched on entering RUNNING. -/
def State.rotorOff (s : State) (n : Nat) : Bool :=
  23860929 < (angDiff (s.reg (R.POSk_ANG (s.posSource n))).toNat (s.e n).rotor).natAbs

/-- The template of a WIND session stops (R117, R216): all six legs off in place of the next commit, R116, and back to ARMED at the next
boundary. -/
def State.windStop (s : State) (f : Nat) (es : List Nat) : State :=
  let s1 := (s.each (s.fnLegs f) fun s k => (s.setShadow k none).setDuty k none).withdrawOnce f
  s1.each es fun s k => s.hwMove (U.fe k) [.running, .stopping] .armed

/-- A rotor-watch stop (R117, R216): ROTOR, and charger fault ROTOR. -/
def State.rotorStop (s : State) (n q f : Nat) : State := ((s.windStop f [n, q]).feFlag n F.FEn_EVT_ROTOR).chgFail 8

/-- The grid group of a WIND engine (Table FE-10), and its motor group: the group of its mask that is not the grid group. -/
def State.gridGroup (s : State) (n : Nat) : Nat := rf (s.loopRec n) 28 1
def State.motorGroup (s : State) (n : Nat) : Nat := ((s.groupsOf n).find? (· != s.gridGroup n)).getD 0

/-- WIND past its measurement (R117): the primary holds αβ at zero with the law of R108, the partner regulates the grid current
placed in the xy plane; the outer loop holds the DC output voltage of the grid group. Log 259. -/
def State.windLaw (s0 : State) (n q f : Nat) : State :=
  let th := (s0.e n).ang
  let spd := (s0.e n).spd
  let lam := s0.lam n
  let prev := of27v (s0.e n).iprev
  let li := s0.lookupKind n 2 (prev.1 * s0.iBase n) (prev.2 * s0.iBase n)
  let s1 := State.lookupDone n li
  let lf := s1.lookupKind n 3 (prev.1 * s0.iBase n) (prev.2 * s0.iBase n)
  let s2 := State.lookupDone n lf
  let ll := s2.lookupKind q 5 (prev.1 * s0.iBase n) (prev.2 * s0.iBase n)
  let s3 := State.lookupDone q ll
  let (wT, z1) := s3.omegaT n
  let (psi, z2) := s3.fluxOf n (lf.vals.getD 0 0)
  let vlim (k : Nat) : Rat := (s3.e k).par.modMax * of27 (s3.e k).vdc / sqrt3
  let o := s3.planeLaw n (0, 0) (li.vals.getD 0 0) (li.vals.getD 1 0) psi wT (vlim n) (0, 0) (z1 || z2)
  let s4 := s3.lawDone n (0, 0) o
  let e := s4.e n
  let (target, lim, iq) := s4.frontAim n e.par
  let (out, z4) := fx 27 (s4.slotPu n (s4.gridGroup n) 3 true)
  let (s5, id) := (s4.satIf n z4).frontPi n target out lim
  let (irx, z3) := fxv 27 (rot (id, iq) e.pllAng)
  let l := ll.vals.getD 0 0
  let ox := s5.planeLaw q irx l l 0 0 (vlim q) (0, 0) z3
  let s6 := s5.lawDone q irx ox
  if s6.mute n then s6
  else
    let vab := rot o.v (angAdd th (quant 0 ((spd : Rat) * (lam + 1 / 2))))
    let iab := rot o.ip (angAdd th (quant 0 ((spd : Rat) * lam)))
    let (s7, p1) := s6.writeSet n f 1 0 (vadd vab (vconj ox.v)) (vadd iab (vconj ox.ip))
    let (s8, p2) := s7.writeSet q f 1 3 (unrot (vsub vab (vconj ox.v)) deg30) (unrot (vsub iab (vconj ox.ip)) deg30)
    s8.post n f (3 * s8.vBase n * s8.iBase n * (ox.v.1 * irx.1 + ox.v.2 * irx.2)) (p1 + p2)

def State.windUpdate (s : State) (n q f : Nat) : State :=
  let s1 := ((s.unpack n (s.motorGroup n)).unpack q (s.motorGroup q)).track n f
  let s2 := s1.gridTrack n
  let c1 := s2.clarkeOf n
  let c2 := rot (s2.clarkeOf q) deg30
  let s3 := s2.measured n (unrot (vscale (1 / 2) (vadd c1 c2)) (s2.e n).ang)
  let s4 := (s3.measured q (vconj (vscale (1 / 2) (vsub c1 c2)))).updE q fun e => { e with ang := (s3.e n).ang, spd := (s3.e n).spd }
  let st := s4.ust (U.fe n)
  if st = .armed then s4.tableReads n (some q)
  else if (s4.e n).halt ∨ s4.chg.hard then s4.tableReads n (some q)
  else if s4.rotorOff n then s4.rotorStop n q f
  else s4.windLaw n q f

/-! ### DAB (R118) -/

/-- The power clamp of a DAB function (R237, R229) at a V2: for HLV 0 to the least of the envelope, I2_LIM × V2 and 6,000 W; for the charger
the output limit and the envelope while charging, the export power in FEED and ISLAND, at most 22,000 W. Answers (lowest, highest) and which
HLV bound binds (0 ENV, 1 ILIM). -/
def State.dabLimits (s : State) (f : Nat) (p : EngPar) (v2 : Rat) : Rat × Rat × Nat :=
  if s.fnRole f = 5 then
    let env : Rat := p.draw
    let il : Rat := (p.hlvLim : Rat) / 10 * v2
    let hi := clampQ 0 6000 (if env ≤ il then env else il)
    (0, hi, if env ≤ il then 0 else 1)
  else if 4 ≤ p.phase ∧ p.phase ≤ 6 then (0, clampQ 0 (clampQ 0 22000 (p.env : Rat)) (s.chgOutLimit p v2 * v2), 0)
  else if p.phase = 7 ∨ p.phase = 8 then (-(chgExport p v2), 22000, 0)
  else (-22000, 22000, 0)

def State.portKind (s : State) (p : Nat) : Nat := s.fld (R.LDG_Pp_CFG p) F.LDG_Pp_CFG_KIND
def State.portSel (s : State) (p : Nat) : Nat := s.fld (R.LDG_Pp_CFG p) F.LDG_Pp_CFG_SEL
/-- The ports with a record. -/
def State.portsUsed (s : State) : List Nat := (List.range 12).filter fun p => s.portKind p != 0

/-- The FUNCTION port of a function. -/
def State.fnPort (s : State) (f : Nat) : Option Nat := s.portsUsed.find? fun p => s.portKind p == 3 && s.portSel p == f

/-- ΣP_pre, the sum of the pre-notice terms of a link's functions, and ΣP_now, that of the booked powers of its FUNCTION ports, in W (R298). -/
def State.linkPre (s : State) (k : Nat) : Rat × Rat :=
  let fs := s.functions.filter fun f => s.linkOf f == k
  ((fs.map s.preTerm).foldl (· + ·) 0, ((fs.filter fun f => (s.fnPort f).isSome).map fun f => (s.bookedNow f : Rat) / 1000).foldl (· + ·) 0)

/-- ΣP_pre − ΣP_now of a link (R118, R298). -/
def State.ffTerm (s : State) (link : Nat) : Rat :=
  (s.linkPre link).1 - (s.linkPre link).2

/-- The phase shift x of R118 for a power reference, and whether it is at its most. -/
def dabShift (p pmax : Rat) : Rat × Bool :=
  let pa := if p < 0 then -p else p
  let x := if pmax ≤ pa then 1 / 2 else (1 - sqrtR (1 - pa / pmax)) / 2
  (if p < 0 then -x else x, decide (pmax ≤ pa))

/-- The adaptation of a DAB's inductance (R118) from a power error whose law is not given: a free factor within FEn_ADLIM. -/
def State.adaptDab (s : State) (n : Nat) : State :=
  if bitAt (rf (s.loopRec n) 29 1) 1 && s.adapts n then
    let (d, t) := s.draw
    t.updE n fun e => { e with adaptL := min (max (d % 8193) (t.fld (R.FEn_ADLIM n) F.FEn_ADLIM_LO)) (t.fld (R.FEn_ADLIM n) F.FEn_ADLIM_HI) }
  else s

/-- One DAB update in RUNNING or STOPPING: P*, the phase shift and the offsets (R118, R237). -/
def State.dabLaw (s0 : State) (n f : Nat) : State :=
  let hlv := s0.fnRole f = 5
  let r := s0.loopRec n
  let g := (s0.groupsOf n).headD 0
  let par := (s0.e n).par
  let (u1, z1) := fx 27 (s0.slotPu n g 1 true)
  let (u2, z2) := fx 27 (s0.slotPu n g 2 true)
  let (j2, z3) := fx 27 (s0.slotPu n g 3 false)
  let v1 := u1 * s0.vBase n
  let v2 := u2 * s0.vBase n
  let i2 := j2 * s0.iBase n
  let base := s0.vBase n * s0.iBase n
  let (lo, hi, which) := s0.dabLimits f par v2
  -- the HLV reference ramps to its target; STOPPING ramps P* to 0 over 10 ms
  let sA := (if hlv then
      s0.updHl f fun h => if (s0.e n).first then { h with ref := (v2 * 65536).floor } else
        let step := ((s0.thr 0x0704 f 10 : Rat) * s0.spacingS n * 1000 * 65536).floor
        { h with ref := h.ref + clampI (-step) step (par.hlvTarget - h.ref) }
    else s0).satIf n (z1 || z2 || z3)
  let aim : Nat × Rat := if hlv then (1, ((sA.hl f).ref : Rat) / 65536 / s0.vBase n) else s0.chgAim n par v2
  let (sC, out) := sA.outerPi n aim.2 (if aim.1 = 1 then u2 else if aim.1 = 2 then -u1 else j2) (lo / base) (hi / base)
  let stopping := s0.ust (U.fe n) = .stopping
  let age : Rat := ((sC.time - (s0.hl f).stopAt : Nat) : Rat) / 10000000
  let p := if hlv && stopping then clampQ lo hi (((s0.hl f).ramp0 : Rat) * clampQ 0 1 (1 - age)) else out * base
  let sD := if hlv && p = hi then sC.trFlag f which else sC
  let ff := if hlv && bitAt (rf r 29 1) 0 then s0.ffTerm (s0.linkOf f) else 0
  let v1e := v1 - (rf r 30 2 : Rat) / 1000000 * ff
  let ratio : Rat := (rf r 24 2 : Rat) / 1024
  let ind : Rat := (rf r 26 2 : Rat) / 100000000 * ((s0.e n).adaptL : Rat) / 4096
  let freq : Rat := 400000000 / (s0.fld (R.FEn_PERIOD n) F.FEn_PERIOD_PERIOD : Rat)
  let (x, atMax) := dabShift p (v1e * ratio * v2 / (8 * freq * ind))
  let phi := x / 2
  let frac (y : Rat) : Int := quant 30 (y - (y.floor : Rat))
  let legs := s0.withImg [] fun im =>
    (if hlv then [(5, 0, 0), (5, 1, 1 / 2), (5, 2, phi), (5, 3, phi + 1 / 2)]
     else [(3, 0, 0), (3, 1, 1 / 2), (4, 0, phi), (4, 1, phi + 1 / 2)]).filterMap fun (x : Nat × Nat × Rat) =>
      (im.legAt f x.1 x.2.1).map fun l => (l, x.2.2)
  let (_, z4) := fx 27 (p / base)
  let ir := q27 (p / base)
  let sE := (((sD.satIf n z4).vlimDone n atMax).adaptDab n).updE n fun e => { e with first := false, ir := (ir, 0), i := (q27 j2, 0) }
  let sF := if hlv then
      let s1 := sE.updHl f fun h => { h with ffTerm := quant 0 ff }
      let s2 := if atMax then s1.trFlag f 2 else s1
      let s3 := if ff ≠ 0 then s2.trFlag f 3 else s2
      if 50 * absI ((v2 * 65536).floor - par.hlvTarget) ≤ par.hlvTarget then s3.finishOp (U.fn f) 0x0612 .done [] else s3
    else sE.updCh fun c => { c with ref := ((if aim.1 = 0 then aim.2 * s0.iBase n else if v2 = 0 then 0 else p / v2) * 65536).floor }
  if sF.mute n then sF
  else (sF.each legs fun s l => s.setShadow l.1 (some (frac l.2))).post n f p (v2 * i2)

def State.dabUpdate (s : State) (n f : Nat) : State :=
  let v := s.slotPu n ((s.groupsOf n).headD 0) 1 true
  let s0 := (s.updE n fun e => { e with vdc := q27 v }).satIf n (out27 v)
  let s1 := if s0.fnRole f = 5 then s0 else s0.chgDabTick n
  if s1.ust (U.fe n) = .armed ∨ (s1.e n).halt ∨ (s1.fnRole f ≠ 5 && s1.chg.hard) then s1
  else if s1.fnRole f = 5 ∧ s1.ust (U.fe n) = .stopping ∧ 10000000 ≤ s1.time - (s1.hl f).stopAt then s1.fnOff f
  else s1.dabLaw n f

/-! ### Errors of an update and the command itself -/

/-- A sample error of one engine (R101): the previous duties stand and so does the pre-notice; the third in a row faults it. -/
def State.sampleError (s : State) (n : Nat) : State :=
  let run := s.fld (R.FEn_ERRCNT n) F.FEn_ERRCNT_SERR_RUN + 1
  let s1 := (((s.feFlag n F.FEn_EVT_SERR).setFld (R.FEn_ERRCNT n) F.FEn_ERRCNT_SERR_RUN (satU 8 run)).incSat
    (R.FEn_ERRCNT n) F.FEn_ERRCNT_SERR_TOTAL).updE n fun e => { e with serr := e.serr + 1, pred := none }
  if 3 ≤ run then s1.engineFault n 0 else s1

/-- What an update with a sample error still does (R101, R107): the angle and the grid angle are tracked, and WIND compares its rotor (R117);
the engines repeat their duties. -/
def State.badUpdate (s : State) (p f : Nat) : State :=
  let es := s.pairEngines p
  let t := s.tmpl p
  let s1 := if t = 1 ∨ t = 2 ∨ t = 4 then
      (s.track p f).each (es.drop 1) fun s q => s.updE q fun e => { e with ang := (s.e p).ang, spd := (s.e p).spd }
    else s
  let s2 := if t = 3 ∨ t = 4 then s1.gridTrack p else s1
  let s3 := s2.each es State.sampleError
  if t = 4 ∧ s3.ust (U.fe p) ≠ .armed ∧ ¬ (s3.e p).halt ∧ ¬ s3.chg.hard ∧ s3.rotorOff p then s3.rotorStop p ((s3.partnerOf p).getD p) f else s3

/-- ENGINE_UPDATE (R103): the engine's computation on the sample that has been taken, for the update point LEAD after it. A coupled pair
computes together, whichever engine is named. An engine outside ARMED, RUNNING and STOPPING, one with a fault pending, or one without a
sample computes nothing. -/
def execEngineUpdate (n _point : Nat) (s : State) : Out :=
  .next <|
    let es := s.pairEngines n
    let p := es.headD n
    if !(s.ust (U.fe p)).active || es.any (fun k => !(s.e k).waiting || (s.e k).cause != 0 || s.faultPending (U.fe k)) then s
    else
      let bad := es.any fun k => (s.e k).bad
      let s1 := s.each es fun s k => s.updE k fun e => { e with waiting := false, bad := false, updAt := s.time }
      let f := s.fld (R.FEn_STATE p) F.FEn_STATE_FUNCTION
      if bad then s1.badUpdate p f
      else
        let s2 := s1.each es fun s k => s.setFld (R.FEn_ERRCNT k) F.FEn_ERRCNT_SERR_RUN 0
        match s.tmpl p with
        | 1 => s2.focUpdate p none f
        | 2 => s2.focUpdate p (s.partnerOf p) f
        | 3 => s2.pfcUpdate p f
        | 4 => s2.windUpdate p ((s.partnerOf p).getD p) f
        | 5 => s2.dabUpdate p f
        | _ => s2

end Sys2Proof.Machine
end

