-- ==== Sys2Proof/Machine/Modulator.lean ====
section
/-!
DEFINITION. The modulator and the gate links (05), the sample triggers and field conversions (05, 06): commands.
Choices of the model: log 28, 29, 30, 36, 37, 38.
-/
namespace Sys2Proof.Machine

/-! ### Sampling (R129, R159, R161, R195, R196) -/

/-- The correction of R161: corrected value and whether overrange is set. -/
def correct (raw ofs gain : Int) : Int × Bool :=
  let y := ((raw - ofs) * gain + 8192) / 16384
  if 32767 < y then (32767, true) else if y < -32768 then (-32768, true)
  else (y, raw == 32767 || raw == -32768)

/-- A link's overvoltage holds: two consecutive results above the threshold, none yet 20 V below it (R196). -/
def State.ovNow (s : State) (k : Nat) : Bool := (s.lnk k).ovRun == 2

/-- A result of a link-voltage channel against the hardware overvoltage threshold (R196); a report that the SSM still holds from before a reset
ends with the overvoltage too. -/
def State.ovCheck (s : State) (k : Nat) : State :=
  match s.withImg none fun im => im.thresh 0x0103 k with
  | none => s
  | some hw =>
    let v := s.linkVolts k
    if (hw : Rat) < v then
      let r := (s.lnk k).ovRun
      let s1 := s.updLnk k fun l => { l with ovRun := min (r + 1) 2 }
      if r = 1 then
        let fs := s.functions.filter fun f => s.fnRole f == 1 && s.linkOf f == k
        let chops := s.functions.filter fun f => s.fnRole f == 6 && s.linkOf f == k
        ((s1.sendFrame 7 k 0).each (fs ++ chops) fun s f => s.trFlag f 7).each fs fun s f =>
          if (s.ust (U.fn f)).live then (s.fnRecord f 3 0xFF).withdraw f else s
      else s1
    else if s.ovNow k || bitAt s.ssm.ovLinks k then
      if v ≤ (hw : Rat) - 20 then (s.updLnk k fun l => { l with ovRun := 0 }).ssmOv k false else s
    else s.updLnk k fun l => { l with ovRun := 0 }

/-- Since when a condition has held, given whether it holds now. -/
def heldSince (now : Nat) (holds : Bool) (since : Option Nat) : Option Nat := if holds then some (since.getD now) else none
/-- A condition has held for a time in ns. -/
def heldFor (now ns : Nat) (since : Option Nat) : Bool := match since with | some t => decide (t + ns ≤ now) | none => false

/-- The values of the last 200 µs, with the one in force when they began. -/
def trimWindow (now : Nat) : List (Nat × Int × Int) → List (Nat × Int × Int)
  | x :: y :: l => if y.1 + 200000 ≤ now then trimWindow now (y :: l) else x :: y :: l
  | l => l

/-- dV of a chopper at the link voltage v (R198). -/
def State.chopDv (s : State) (f : Nat) (v : Rat) : Rat :=
  clampQ 0 1 ((v - (s.thr 0x0101 (s.linkOf f) 1000 : Rat)) / (s.thr 0x0111 f 20 : Rat))

/-- A chopper's saturation follows dV without a break (R198). -/
def State.chopWatch (s : State) (f : Nat) : State :=
  let dv := s.chopDv f (s.linkVolts (s.linkOf f))
  s.updTr f fun t =>
    let full := heldSince s.time (dv = 1) t.dvFull
    let low := heldSince s.time (dv < 9 / 10) t.dvLow
    let sat := heldFor s.time 50000 full || (t.saturated && !heldFor s.time 1000000 low)
    { t with dvFull := full, dvLow := low, saturated := sat, flags := t.flags ||| b2n sat * 32 }

/-- A result of a link's voltage reaches its chopper: the mean of the last 200 µs (R199) and the saturation (R198). -/
def State.chopVolts (s : State) (k : Nat) : State :=
  s.each (s.functions.filter fun f => s.fnRole f == 6 && s.linkOf f == k) fun s f =>
    (s.updTr f fun t =>
      { t with window := trimWindow s.time (t.window ++ [(s.time, t.duty, nearest (s.linkVolts k * 65536))]) }).chopWatch f

/-- One channel's result: corrected, stored, seen by the ledger and the overvoltage comparison. -/
def State.fcResult (s : State) (ch raw : Nat) : State :=
  let c := s.reg (R.FCV_CHn_CORR ch)
  let (y, ov) := correct (toSigned 16 raw) (toSigned 16 (getF c F.FCV_CHn_CORR_OFS)) (getF c F.FCV_CHn_CORR_GAIN : Nat)
  let s1 := s.setReg (R.FCV_CHn_LAST ch) (BitVec.ofNat 32 (raw % 65536 * 65536 + ofSigned 16 y))
  let s2 := if ov then s1.setBit R.FCV_OVR F.FCV_OVR_CH ch else s1
  let ports := (List.range 12).filter fun p => let k := s.fld (R.LDG_Pp_CFG p) F.LDG_Pp_CFG_KIND; k == 1 || k == 2
  let s3 := s2.each ports fun s p =>
    let v := s.fld (R.LDG_Pp_CFG p) F.LDG_Pp_CFG_VCH == ch
    let i := s.fld (R.LDG_Pp_CFG p) F.LDG_Pp_CFG_ICH == ch
    if v || i then s.updPrt p fun x => { x with gotV := x.gotV || v, gotI := x.gotI || i } else s
  s3.each ((List.range 4).filter fun k => s.thr 0x0104 k (-1) == (ch : Int)) fun s k => (s.ovCheck k).chopVolts k

/-- CONVERSION_RESULT (R159): group g's four raw codes arrive for the loop of engine `by_`, or for a link watch. An
uncorrectable result frame is counted, updates nothing and spoils the engine's sample (R21, R101). A group that nothing triggered has
no results. -/
def execConversionResult (g : Nat) (by_ : Option Nat) (raw : List Nat) (bad : Bool) (s : State) : Out :=
  .next <|
    let es := match by_ with | some n => s.pairEngines n | none => []
    let taken := es.filter fun n => (s.e n).waiting && (s.groupsOf n).contains g
    let watch := by_.isNone && s.mdl.watch.contains g
    if 8 ≤ g || (taken.isEmpty && !watch) then s
    else
      let s0 := { s with mdl := { s.mdl with watch := if watch then s.mdl.watch.erase g else s.mdl.watch } }
      if bad then (s0.memError 6 0 0 true 0).each taken fun s n => s.updE n fun e => { e with bad := true }
      else
        let s1 := s0.each (List.range 4) fun s k => s.fcResult (4 * g + k) (raw.getD k 0 % 65536)
        let vals := (List.range 4).map fun k => s1.fcQ (4 * g + k)
        s1.each taken fun s n => s.updE n fun e => { e with samp := FMap.set (fun _ => []) e.samp g vals }

/-- LINK_WATCH_TRIGGER (R195): every 10 µs a link-voltage group that no tracking loop samples is sampled, unless a loop's
sample instant is `near`. -/
def execLinkWatchTrigger (g : Nat) (near : Bool) (s : State) : Out :=
  .next <|
    let isLink := (List.range 4).any fun k => s.thr 0x0104 k (-1) / 4 == (g : Int)
    let used := (List.range 8).any fun n => (s.ust (U.fe n)).active && (s.groupsOf n).contains g
    if near || used || !isLink || s.mdl.watch.contains g then s
    else { s with mdl := { s.mdl with watch := s.mdl.watch ++ [g] } }

/-! ### Commits and edges (R125 to R128, R131) -/

/-- The nearest tick, a tie upwards (R125). -/
def toTick (x : Rat) : Nat := (nearest x).toNat

/-- The edges of a committed value (Table MOD-2), rising and falling, and whether one was moved to the edge-lead (R126). -/
def edgesFor (period : Nat) (centre two peak dab : Bool) (old : Edges) (v : Int) : Option Nat × Option Nat × Bool :=
  let t : Rat := ((32 * period : Nat) : Rat)
  let x : Rat := (v : Rat) / 1073741824
  if dab then
    (some ((256 + toTick (x * t)) % (32 * period)), some ((256 + toTick ((x + 1 / 2) * t)) % (32 * period)), false)
  else if !centre then (some 256, some (256 + toTick (x * t)), false)
  else
    let r := toTick ((1 - x) * t / 2)
    let f := toTick ((1 + x) * t / 2)
    let lim := 16 * period + 256
    if peak then (old.rise, some (max f lim), decide (f < lim))
    else (some (max r 256), if two then old.fall else some f, decide (r < 256))

/-- New edges govern a leg from an edge-lead after now; until then those that govern it now do, none where it was off (R125). -/
def State.placeEdges (s : State) (n : Nat) (rise fall : Option Nat) : State :=
  let old := if (s.dutyOf n).isSome then s.governingEdges n else (none, none)
  s.setEdges n ⟨rise, fall, old.1, old.2, s.time⟩

/-- Commit one leg's shadow register; a latched leg stays off. -/
def State.commitLeg (s : State) (n leg : Nat) (peak : Bool) : State :=
  match s.shadowOf leg with
  | none => s
  | some v =>
    if s.latchOf leg ≠ 0 then s.setShadow leg none
    else
      let (r, f, early) := edgesFor (s.fld (R.FEn_PERIOD n) F.FEn_PERIOD_PERIOD) (s.flag (R.FEn_LOOPCFG n) F.FEn_LOOPCFG_MODE)
        (s.flag (R.FEn_LOOPCFG n) F.FEn_LOOPCFG_UPDATES) peak (s.tmpl n == 5) (s.edgesOf leg) v
      let s1 := ((s.placeEdges leg r f).setDuty leg (some v)).setShadow leg none
      if early then s1.setFlag R.MOD_EVT F.MOD_EVT_EARLY else s1

/-- A late duty of one engine (R29, R101): the previous duties stay, the computation that is late withholds its own; the third in a row
faults it. -/
def State.lateDuty (s : State) (n : Nat) : State :=
  let run := s.fld (R.FEn_ERRCNT n) F.FEn_ERRCNT_LATE_RUN + 1
  let s1 := ((s.feFlag n F.FEn_EVT_LATE).setFld (R.FEn_ERRCNT n) F.FEn_ERRCNT_LATE_RUN (satU 8 run)).updE n fun e =>
    { e with late := e.late + 1, skip := true, pred := none }
  if 3 ≤ run then s1.engineFault n 1 else s1

/-- The update point is the carrier's peak: of two updates in centre-aligned mode the one in the middle of the period. -/
def State.atPeak (s : State) (n f : Nat) : Bool :=
  let c := s.carrierOf f
  let pos := s.carrierTick c
  s.flag (R.FEn_LOOPCFG n) F.FEn_LOOPCFG_MODE && s.flag (R.FEn_LOOPCFG n) F.FEn_LOOPCFG_UPDATES
    && decide (8 * c.1 ≤ pos) && decide (pos < 24 * c.1)

/-- UPDATE_POINT_COMMIT (R125): an update point of engine n's loop. Effective timings come up to date (R131); a shadow write that has
completed is committed; a sample whose computation has not ended makes a late duty (R29). The notice of the interval that ends is over. -/
def execUpdatePointCommit (n : Nat) (_peak _late : Bool) (s : State) : Out :=
  .next <|
    let es := s.pairEngines n
    let p := es.headD n
    let f := s.fld (R.FEn_STATE p) F.FEn_STATE_FUNCTION
    let legs := s.fnLegs f
    let s1 := s.each legs State.applyTiming
    let st := s.ust (U.fe p)
    if (st ≠ .running ∧ st ≠ .stopping) ∨ es.any (fun k => s.faultPending (U.fe k)) then s1
    else if es.any fun k => (s1.e k).waiting then s1.each es State.lateDuty
    else
      let peak := s1.atPeak p f
      let any := legs.any fun l => (s1.shadowOf l).isSome
      let s2 := s1.each legs fun s l => s.commitLeg p l peak
      if !any then s2
      else
        (s2.each es fun s k => (s.setFld (R.FEn_ERRCNT k) F.FEn_ERRCNT_LATE_RUN 0).updE k fun e =>
          { e with vp := e.v, notices := e.notices.drop (e.notices.length - 1) }).updFp f
          fun x => { x with booked := x.next, withdrawn := false }

/-! ### Latches (R133 to R141) -/

/-- DIDT_TRIP (R134, R135, R40): the selected comparator of leg n has fired for 10 ns. An IDLE leg has no channel; in a reset, whose end
configures the legs again, the SSM still knows the legs in use. -/
def execDidtTrip (n : Nat) (_blanking : Bool) (s : State) : Out :=
  .next (if 48 ≤ n ∨ (s.fld (R.MOD_LCFGn n) F.MOD_LCFGn_ROLE = 0 ∧ (s.ssmFnOfLeg n).isNone) then s
    else s.latchLeg n (if s.blanking n then 2 else 1))

/-- SOFT_OFF_HOLD_END (R138): GS_n goes low; the leg stays off. While CTRL is stopped or in reset its timer does not run (log 210). -/
def execSoftOffHoldEnd (n : Nat) (s : State) : Out :=
  .next (if s.ctrlStopped ∨ s.rst.sysHold ≠ 0 ∨ s.rst.domains < 3 then s else s.setSoft n false)

/-- GF_FAULT (R137): GF_n has changed and passed its filter. Low while the function is ARMED, RUNNING or STOPPING latches
the leg; elsewhere it only shows. -/
def execGfFault (n : Nat) (high : Bool) (s : State) : Out :=
  .next <|
    if 48 ≤ n then s
    else
      let s1 := s.setGf n high
      let f := s.fld (R.MOD_LCFGn n) F.MOD_LCFGn_FUNC
      if !high && s.fld (R.MOD_LCFGn n) F.MOD_LCFGn_ROLE ≠ 0 && ((s.ust (U.fn f)).active) then s1.latchLeg n 3 else s1

/-- ILOCK_LATCH (R132, R133): the interlock suppresses an on-edge of leg n, counted while the override code is 0b00; both
commands held on for a full carrier period latch the leg. A fault of the edge registers, from outside; `gateLeg` finds what the chain itself
brings about. -/
def execIlockLatch (n : Nat) (held : Bool) (s : State) : Out :=
  .next <|
    if 48 ≤ n ∨ s.fld (R.MOD_LCFGn n) F.MOD_LCFGn_ROLE = 0 then s
    else
      let s1 := if s.legOvr n = 0 ∧ (s.lockOf n).counts (s.fld R.MOD_IDT F.MOD_IDT_IDT) s.up then
          (s.incSat (R.MOD_LCNTn n) F.MOD_LCNTn_ILOCK).setFlag R.MOD_EVT F.MOD_EVT_ILOCK else s
      if held then s1.latchLeg n 4 else s1

/-- What a falling DRIVE_EN does to one function (R141, R116, Tables TRA-7, LV-3). -/
def State.denFall (s : State) (f : Nat) : State :=
  if !(s.ust (U.fn f)).active then s
  else
    let s1 := (s.withdraw f).each (s.fnLegs f) fun s n => s.setDuty n none
    match s.fnRole f with
    | 1 => s1.fnRecord f 4 0xFF
    | 6 => (s1.fnRecord f 4 0xFF).sendFrame 3 f 4
    | 5 => (s1.fnRecord f 4 0xFF).sendFrame 3 f 4
    | _ => s1

/-- DRIVE_EN_FALL (R141): DRIVE_EN is low after its filter. -/
def execDriveEnFall (s : State) : Out :=
  .next <|
    if !s.driveEn then s
    else
      let s1 := (({ s with driveEn := false }).clrFlag R.MOD_STAT F.MOD_STAT_DEN).setFlag R.MOD_EVT F.MOD_EVT_DEN_LOW
      let s2 := s1.each s.functions State.denFall
      if (s.ust U.chg).active then s2.chgFail 15 else s2

/-- Keep GLKk_STAT.QUEUE equal to the entries in use. -/
def State.glSync (s : State) (k : Nat) : State := s.setFld (R.GLKk_STAT k) F.GLKk_STAT_QUEUE (s.glLink k).queue.length

/-- Put a command of the device's own on a gate link: on its queue of 8, or where that is full in wait for an entry (R149, log 211). -/
def State.glQueue (s : State) (k : Nat) (c : GlCmd) : State :=
  State.glSync (s.updGl k fun l =>
    if 8 ≤ l.queue.length ∨ !l.owed.isEmpty then { l with owed := l.owed ++ [c] } else { l with queue := l.queue ++ [c] }) k

/-- A command that some predicate knows is queued or waits. -/
def State.glHas (s : State) (k : Nat) (p : GlCmd → Bool) : Bool := ((s.glLink k).queue ++ (s.glLink k).owed).any p

/-- Clear one leg's latch at the rise of DRIVE_EN (R141): gone where GF_n is high and the comparators are quiet, with a CLEAR
write to its driver; set again as a new latch otherwise. -/
def State.clearLatch (s : State) (loud : List Nat) (n : Nat) : State :=
  let c := s.latchOf n
  let s1 := (s.setLatch n 0).syncLatched
  if s.gfHigh n && !loud.contains n then
    let (k, j) := s.glOf n
    (s1.glQueue k ⟨j, .clear, 0x0F, 0x5A5A, 0⟩).setFlag R.MOD_EVT F.MOD_EVT_CLEARED
  else s1.latchLeg n c

/-- DRIVE_EN_RISE (R141): DRIVE_EN is high again after `low` ns; `loud` lists the legs whose comparators are not quiet. From
10 µs the latches clear, below 9 µs never, between the two it is free. -/
def execDriveEnRise (low : Nat) (loud : List Nat) (s : State) : Out :=
  .next <|
    if s.driveEn then s
    else
      let s0 := ({ s with driveEn := true }).setFlag R.MOD_STAT F.MOD_STAT_DEN
      let (w, sd) := s0.draw
      let s1 := if 9000 ≤ low ∧ low < 10000 then sd else s0
      let clears := 10000 ≤ low || (9000 ≤ low && w % 2 == 1)
      if clears then s1.each (s.pads.legCause.map (·.1)) fun s n => s.clearLatch loud n else s1

/-! ### Gate links (R147 to R151) -/

/-- One step of the CRC-8 of R147, most significant bit first, polynomial 0x2F. -/
def crcBit (c : Byte) : Byte := if c.msb then (c <<< 1) ^^^ 0x2F else c <<< 1
/-- The CRC-8 of a list of bytes: initial value and final XOR 0xFF. -/
def crc8 (l : List Byte) : Byte :=
  (l.foldl (fun c b => (List.range 8).foldl (fun x _ => crcBit x) (c ^^^ b)) 0xFF) ^^^ 0xFF

/-- A request frame (Table MOD-12): command 1 STATUS, 2 READ, 3 WRITE. -/
def glFrame (slot cmd addr data : Nat) : List Byte :=
  let body := leBytes 1 (slot * 32 + cmd) ++ leBytes 1 addr ++ leBytes 2 data
  [0x5A] ++ body ++ [crc8 body]

/-- The request a command sends. -/
def GlCmd.frame (c : GlCmd) : List Byte :=
  match c.kind with
  | .readId => glFrame c.slot 2 c.addr 0
  | .letter _ w _ => glFrame c.slot (if w then 3 else 2) c.addr (if w then c.data else 0)
  | _ => glFrame c.slot 3 c.addr c.data

/-- The leg on a slot of a gate link. -/
def State.legOn (s : State) (k j : Nat) : Option Nat :=
  (List.range 48).find? fun n => s.fld (R.MOD_LCFGn n) F.MOD_LCFGn_ROLE != 0 && s.glOf n == (k, j)
def State.updSlot (s : State) (k j : Nat) (g : GlSlot → GlSlot) : State :=
  let x := g (s.glSlot k j)
  s.updGl k fun l => { l with slots := FMap.set glSlotDefault l.slots j x }

/-- Start a request on link k. -/
def State.glSend (s : State) (k : Nat) (w : GlWait) (fr : List Byte) : State :=
  s.updGl k fun l => { l with wait := w, frame := fr }

/-- Drop the command at the head of a link's queue; the first that waits for an entry takes one. -/
def State.glPop (s : State) (k : Nat) : State :=
  State.glSync (s.updGl k fun l => { l with queue := l.queue.drop 1 ++ l.owed.take 1, owed := l.owed.drop 1 }) k

/-- A slot becomes lost (R150): status, event, and its leg held to B3 timing from its next update point (R131); the leg's band stays that of
the codes its driver acknowledged last. -/
def State.glLose (s : State) (k j : Nat) : State :=
  if s.glLost k j then s
  else
    let s1 := ((s.setBit (R.GLKk_STAT k) F.GLKk_STAT_LOST j).setBit R.GLK_EVT F.GLK_EVT_LOST k).updSlot k j fun x => { x with goods := 0, idOk := false }
    match s.legOn k j with
    | none => s1
    | some n =>
      let was := (s.leg n).band
      let s2 := s1.updLeg n fun l => { l with lost := true, pend := false, want := 3 }
      if was ≠ 3 ∧ s.banded n then s2.setFlag R.MOD_EVT F.MOD_EVT_BAND else s2

/-- The STRENGTH data of a leg's band: turn-off code above turn-on code (R130). -/
def State.drvCodes (s : State) (n b : Nat) : Nat :=
  (if s.banded n then s.reg (R.MOD_TDRV0 + 4 * b) else s.reg R.MOD_PDRV).toNat % 65536

/-- Queue the STRENGTH write of a leg's wanted band unless one is queued already. -/
def State.glStrength (s : State) (n : Nat) : State :=
  let (k, j) := s.glOf n
  let b := (s.leg n).want
  if s.glHas k fun c => c.slot == j && (match c.kind with | .strength x => x == b | _ => false) then s
  else s.glQueue k ⟨j, .strength b, 0x01, s.drvCodes n b, 0⟩

/-- A poll of slot j has failed with its retry (R150). -/
def State.pollFailed (s : State) (k j : Nat) : State :=
  let f := (s.glSlot k j).fails + 1
  let s1 := s.updSlot k j fun x => { x with fails := min f 3, goods := 0 }
  if 3 ≤ f then s1.glLose k j else s1

/-- The band for a temperature in °C, with the hysteresis of Table MOD-3 from the present band. -/
def bandFor (cur : Nat) (t : Int) : Nat :=
  let up := if 140 ≤ t then 3 else if 90 ≤ t then 2 else if 25 ≤ t then 1 else 0
  let down := if t < 20 then 0 else if t < 85 then 1 else if t < 135 then 2 else 3
  if cur < up then up else if down < cur then down else cur

/-- A leg's temperature asks for a band (R130, R131). -/
def State.wantBand (s : State) (n b : Nat) : State :=
  if !s.banded n || (s.leg n).want = b then s
  else (s.updLeg n fun l => { l with want := b, pend := b != l.band }).glStrength n

/-- A leg's fault flags in a good poll, of a lost slot too: the second report in a row latches it (R137, DRVFLAG). -/
def State.drvFlags (s : State) (n flags : Nat) : State :=
  let bad := bitsOf flags 4 1 ≠ 0 ∧ s.gfHigh n ∧ (s.ust (U.fn (s.fld (R.MOD_LCFGn n) F.MOD_LCFGn_FUNC))).active
  let runs := if bad then (s.leg n).flagRuns + 1 else 0
  let s1 := s.updLeg n fun l => { l with flagRuns := min runs 2 }
  if 2 ≤ runs then s1.latchLeg n 5 else s1

/-- A lost slot recovers (R150): three good polls and a nonzero ID; its STRENGTH codes are written again. -/
def State.glRecover (s : State) (k j : Nat) : State :=
  let s1 := (s.clrBit (R.GLKk_STAT k) F.GLKk_STAT_LOST j).updSlot k j fun x => { x with idOk := true }
  match s.legOn k j with
  | none => s1
  | some n => (s1.updLeg n fun l => { l with lost := false, pend := s.banded n }).glStrength n

/-- A good STATUS of slot j (R130, R137, R150): status registers, recovery of a lost slot, the leg's band and its fault flags. -/
def State.goodPoll (s : State) (k j data : Nat) : State :=
  let temp := data / 256 % 256
  let flags := data % 256
  let s1 := s.setReg (R.GLKk_DRVj k j) (BitVec.ofNat 32 (temp * 2 ^ 24 + flags * 2 ^ 16))
  let x := s.glSlot k j
  let s2 := s1.updSlot k j fun x => { x with fails := 0, goods := min (x.goods + 1) 3 }
  match s.legOn k j with
  | none => s2
  | some n =>
    if s.glLost k j then
      let s2 := s2.drvFlags n flags
      if x.goods + 1 < 3 then s2
      else if !x.idOk then
        (if s2.glHas k fun c => c.slot == j && c.kind == .readId then s2 else s2.glQueue k ⟨j, .readId, 0, 0, 0⟩)
      else s2.glRecover k j
    else
      let b := if !s.banded n then 3 else if temp = 0xFF ∨ bitAt flags 6 then 3 else bandFor (s.leg n).want ((temp : Int) - 64)
      let s3 := s2.updLeg n fun l => { l with polled := true }
      let s4 := if (s3.leg n).want = b then (if (s3.leg n).pend || !x.strOk then s3.glStrength n else s3) else s3.wantBand n b
      s4.drvFlags n flags

/-- A command has been acknowledged with data and a result code. -/
def State.cmdGood (s : State) (k : Nat) (c : GlCmd) (data : Nat) : State :=
  let s1 := s.glPop k
  match c.kind with
  | .readId =>
    if data = 0 then s1.glLose k c.slot
    else if s.glLost k c.slot ∧ 3 ≤ (s.glSlot k c.slot).goods then s1.glRecover k c.slot
    else s1.updSlot k c.slot fun x => { x with idOk := true }
  | .strength b =>
    let s1 := s1.updSlot k c.slot fun x => { x with strOk := true }
    match s.legOn k c.slot with
    | none => s1
    | some n =>
      let old := (s.leg n).band
      let s2 := s1.updLeg n fun l => { l with band := b, pend := l.want != b && s.banded n }
      if old ≠ b ∧ s.banded n ∧ !(s.leg n).lost then s2.setFlag R.MOD_EVT F.MOD_EVT_BAND else s2
  | .clear => s1
  | .letter key _ _ => s1.hwFinish key .done (leBytes 2 data ++ [0])

/-- A command has failed: attempted at most three times in all (R149, R151). A driver letter then ends DONE with 0xFF; a slot
whose ID cannot be read is lost. -/
def State.cmdBad (s : State) (k : Nat) (c : GlCmd) : State :=
  if c.tries + 1 < 3 then
    s.updGl k fun l => { l with queue := match l.queue with
      | [] => []
      | x :: t => { x with tries := c.tries + 1 } :: t }
  else
    let s1 := s.glPop k
    match c.kind with
    | .readId => s1.glLose k c.slot
    | .letter key _ _ => s1.hwFinish key .done [0, 0, 0xFF]
    | _ => s1

/-- The request under way on link k has failed (R148, R149). -/
def State.glFail (s : State) (k : Nat) : State :=
  let w := (s.glLink k).wait
  let s1 := (s.setBit R.GLK_EVT F.GLK_EVT_CRC k).updGl k fun l => { l with wait := .none }
  match w with
  | .none => s
  | .poll j false => s1.updGl k fun l => { l with retry := some j }
  | .poll j true => s1.pollFailed k j
  | .cmd c => s1.cmdBad k c

/-- GATE_LINK_WINDOW (R149): the next of a link's twelve windows. Even window 2j polls slot j if used; the others carry a
retry, then the command queue. The age of every slot counts poll cycles. -/
def execGateLinkWindow (k : Nat) (s : State) : Out :=
  .next <|
    if s.variant.glks ≤ k then s
    else
      let w := (s.glLink k).window
      let s0 := s.updGl k fun l => { l with window := (w + 1) % 12, wait := .none }
      let s1 := if w = 0 then s0.each (List.range 6) fun s j => if s.glUsed k j then s.incSat (R.GLKk_DRVj k j) F.GLKk_DRVj_AGE else s else s0
      if w % 2 = 0 ∧ s.glUsed k (w / 2) then s1.glSend k (.poll (w / 2) false) (glFrame (w / 2) 1 0x02 0)
      else match (s1.glLink k).retry with
        | some j => (s1.updGl k fun l => { l with retry := none }).glSend k (.poll j true) (glFrame j 1 0x02 0)
        | none => match (s1.glLink k).queue.head? with
          | none => s1
          | some c => s1.glSend k (.cmd c) c.frame

/-- A response frame is good for the request under way (R148). -/
def glGood (req resp : List Byte) : Bool :=
  resp.length == 6 && resp.getD 0 0 == 0xA5 && resp.getD 5 0 == crc8 ((resp.drop 1).take 4)
    && resp.getD 1 0 == (req.getD 1 0 &&& 0xE0) && resp.getD 2 0 == req.getD 2 0

/-- GATE_LINK_RESPONSE (R148): a driver's answer that began within 3 µs. -/
def execGateLinkResponse (k : Nat) (frame : List Byte) (s : State) : Out :=
  .next <|
    let l := s.glLink k
    let data := leAt frame 3 2
    match l.wait with
    | .none => s
    | .poll j _ =>
      if glGood l.frame frame then (s.updGl k fun l => { l with wait := .none }).goodPoll k j data
      else (s.incSat (R.GLKk_ERR k) F.GLKk_ERR_BAD).glFail k
    | .cmd c =>
      if glGood l.frame frame then (s.updGl k fun l => { l with wait := .none }).cmdGood k c data
      else (s.incSat (R.GLKk_ERR k) F.GLKk_ERR_BAD).glFail k

/-- GATE_LINK_TIMEOUT (R148): no response within 3 µs of the request. -/
def execGateLinkTimeout (k : Nat) (s : State) : Out :=
  .next (if (s.glLink k).wait = .none then s else (s.incSat (R.GLKk_ERR k) F.GLKk_ERR_TIMEOUT).glFail k)

/-! ### Driver letters (R151) -/

/-- A unit code is that of a function. -/
def isFn (u : Nat) : Bool := 0x10 ≤ u && u ≤ 0x1F
def fnOf (m : Msg) : Nat := m.unit - 0x10

/-- The leg at a position of a function; of a charging DAB the primary's. -/
def State.legAtPos (s : State) (f pos : Nat) : Option Nat := s.withImg none fun im => im.legAt f (im.fnRole f) pos

/-- The checks that both driver letters share: position, and room in the link's queue. -/
def State.drvFails (s : State) (m : Msg) : List Status :=
  match s.legAtPos (fnOf m) (m.u8 16) with
  | none => [.eRange]
  | some n => if 8 ≤ (s.glLink (s.glOf n).1).queue.length then [.eFull] else []

/-- Queue a driver letter's transaction. -/
def State.drvRun (s : State) (m : Msg) (key : Nat) (w : Bool) (data : Nat) : State :=
  match s.legAtPos (fnOf m) (m.u8 16) with
  | none => s
  | some n => let (k, j) := s.glOf n; s.glQueue k ⟨j, .letter key w m.unit, m.u8 17, data, 0⟩

/-- DRV_READ (Table MOD-14). -/
def specDrvRead : LetterSpec where
  units s u := isFn u && s.fnRole (u - 0x10) != 0
  legal st := st.live || st = .fault
  used := [(16, 17)]
  fails s m := (if 3 ≤ m.u8 17 && m.u8 17 ≤ 0x0F then [.eRange] else []) ++ s.drvFails m
  opens _ _ := true
  run s m k := acceptedWith (s.drvRun m k false 0)

/-- DRV_WRITE (Table MOD-14). -/
def specDrvWrite : LetterSpec where
  units s u := isFn u && s.fnRole (u - 0x10) != 0
  legal st := st = .idle || st = .fault
  used := [(16, 19)]
  fails s m := (if m.u8 17 < 0x10 then [.eRange] else []) ++ s.drvFails m
  opens _ _ := true
  run s m k := acceptedWith (s.drvRun m k true (m.u16 18))

def execDrvRead (m : Msg) (s : State) : Out := .next (deliver specDrvRead s m)
def execDrvWrite (m : Msg) (s : State) : Out := .next (deliver specDrvWrite s m)

end Sys2Proof.Machine
end

