-- ==== Sys2Proof/Machine/SensingOps.lean ====
section
/-!
DEFINITION. The operations of the sensing units that other families use (06): urgent requests, delivery of round results,
published angles.
Choices of the model: log 27.
-/
namespace Sys2Proof.Machine

def rndDefault (_ : Nat) : RndSt := ⟨[], none, [], [], false, false, []⟩
def posDefault (_ : Nat) : PosSt := ⟨0, 0, false, 0, false, 0, none, [], false⟩
def sentDefault (_ : Nat) : SentSt := ⟨0, false, 0, 0, 0, 0, 0, []⟩

def State.rd (s : State) (r : Nat) : RndSt := FMap.get rndDefault s.rnd r
def State.updRd (s : State) (r : Nat) (g : RndSt → RndSt) : State := { s with rnd := FMap.set rndDefault s.rnd r (g (s.rd r)) }
def State.ps (s : State) (k : Nat) : PosSt := FMap.get posDefault s.pos k
def State.updPs (s : State) (k : Nat) (g : PosSt → PosSt) : State := { s with pos := FMap.set posDefault s.pos k (g (s.ps k)) }
def State.sn (s : State) (i : Nat) : SentSt := FMap.get sentDefault s.sent i
def State.updSn (s : State) (i : Nat) (g : SentSt → SentSt) : State := { s with sent := FMap.set sentDefault s.sent i (g (s.sn i)) }

/-- Keep RNDr_STATE.UQ, RNDr_RQSTAT.COUNT and the queue's head registers equal to the queues. -/
def State.syncRnd (s : State) (r : Nat) : State :=
  let q := (s.rd r).queue
  let h := q.headD []
  (((s.setFld (R.RNDr_STATE r) F.RNDr_STATE_UQ (s.rd r).urgent.length).setFld (R.RNDr_RQSTAT r) F.RNDr_RQSTAT_COUNT q.length).setReg
    (R.RNDr_RQLO r) (BitVec.ofNat 32 (leAt h 0 4))).setReg (R.RNDr_RQHI r) (BitVec.ofNat 32 (leAt h 4 4))

/-- The checks on an urgent request to converter r (R167): OFF, FAULT, and the queue of four. Log 262. -/
def State.urgentFails (s : State) (r : Nat) : List Status :=
  match s.ust (U.rnd r) with
  | .off => [.eState]
  | .absent => [.eAbsent]
  | .fault => [.eFault]
  | _ => if 4 ≤ (s.rd r).urgent.length then [.eFull] else []

/-- Queue an urgent request that passed its checks. -/
def State.urgentPush (s : State) (r : Nat) (u : Urgent) : State :=
  (s.updRd r fun x => { x with urgent := x.urgent ++ [u] }).syncRnd r

/-- Deliver a round result (R166): the corrected value of `m` by slot `slot` into the queue of 64, RNDr_LASTc and the array of the
collection. Answers the entry's bytes. DESIGN CHOICE (log 192): RQ is set when a delivery reaches THRESH, and at no other time. -/
def State.rndDeliver (s : State) (r ch slot m entry : Nat) (urgent : Bool) : State × List Byte :=
  let c := s.reg (R.RNDr_CORRk r slot)
  let (y, ov) := correct (m : Int) (toSigned 16 (getF c ⟨15, 0⟩)) (getF c ⟨31, 16⟩ : Nat)
  let v := ofSigned 16 y
  let b3 := b2n ov * 128 + b2n urgent * 64 + entry % 64
  let bytes := leBytes 2 v ++ leBytes 1 (r * 128 + ch) ++ leBytes 1 b3 ++ leBytes 4 s.pm
  let full := 64 ≤ (s.rd r).queue.length
  let s1 := s.updRd r fun x =>
    { x with queue := (if full then x.queue.drop 1 else x.queue) ++ [bytes], latest := FMap.set (fun _ => []) x.latest ch bytes }
  let s2 := if full then (s1.incSat (R.RNDr_RQSTAT r) F.RNDr_RQSTAT_OVF).setFlag (R.RNDr_EVT r) F.RNDr_EVT_OVF else s1
  let s3 := (s2.setReg (R.RNDr_LASTc r ch) (BitVec.ofNat 32 (b3 * 65536 + v))).syncRnd r
  (if s3.fld (R.RNDr_RQCTL r) F.RNDr_RQCTL_THRESH ≤ (s3.rd r).queue.length then s3.setFlag (R.RNDr_EVT r) F.RNDr_EVT_RQ else s3, bytes)

/-- In STOPPING with nothing left to do the converter reaches IDLE, and its RND_HALT is done (Table SEN-7). -/
def State.rndSettle (s : State) (r : Nat) : State :=
  let x := s.rd r
  if s.ust (U.rnd r) = .stopping ∧ !x.running ∧ x.active.isNone ∧ x.urgent.isEmpty then
    (s.hwMove (U.rnd r) [.stopping] .idle).finishOp (U.rnd r) 0x0302 .done []
  else s

/-- Every watched entry starts a fresh watch (R169). -/
def State.startWatch (s : State) (r : Nat) : State :=
  let es := (List.range 64).filter fun e => s.flag (R.RNDr_SEQe r e) F.RNDr_SEQe_VALID && s.fld (R.RNDr_LIMe r e) F.RNDr_LIMe_LIMIT != 0
  s.updRd r fun x => { x with watch := es.map fun e => (e, true) }

/-- The sequence of converter r has entries. -/
def State.hasEntries (s : State) (r : Nat) : Bool := (List.range 64).any fun e => s.flag (R.RNDr_SEQe r e) F.RNDr_SEQe_VALID

/-- The sequence starts at entry 0 (RND_RUN, auto-run). -/
def State.rndStart (s : State) (r : Nat) : State :=
  ((s.setFld (R.RNDr_STATE r) F.RNDr_STATE_ENTRY 0).updRd r fun x => { x with running := s.hasEntries r }).startWatch r

/-- Set or clear VALID of a position source; a fall is an event. -/
def State.setPosValid (s : State) (k : Nat) (v : Bool) : State :=
  let was := s.flag (R.POSk_STAT k) F.POSk_STAT_VALID
  let s1 := (s.setFld (R.POSk_STAT k) F.POSk_STAT_VALID (b2n v))
  let s2 := if v then s1.setBit R.POS_STATE F.POS_STATE_VALID k else s1.clrBit R.POS_STATE F.POS_STATE_VALID k
  let s3 := if v then s2 else s2.updPs k fun p => { p with fresh := false }
  if was && !v then s3.setBit R.POS_EVT F.POS_EVT_VFALL k else s3

/-- Latch a fault flag of a position source (R173, R174). -/
def State.posFlag (s : State) (k bit : Nat) : State :=
  ((s.setBit (R.POSk_FLT k) F.POSk_FLT_FLAGS bit).setBit R.POS_EVT F.POS_EVT_FLT k).updPs k fun p =>
    { p with epochFlags := if bitAt p.epochFlags bit then p.epochFlags else p.epochFlags + 2 ^ bit }

/-- The position unit runs and the source is enabled. -/
def State.posLive (s : State) (k : Nat) : Bool := k < 4 && s.ust U.pos == .running && s.flag (R.POSk_CFG k) F.POSk_CFG_EN

/-- The speed of a resolver channel: the shaft-angle change per µs, from two angles 400 ns apart (R171, R172). -/
def resolverSpeed (pp : Nat) (p : PosIn) : Int :=
  quant 0 ((toSigned 16 ((p.elec + 65536 - p.prev % 65536) % 65536) : Rat) * 65536 / (pp : Rat) * 5 / 2)

/-- A resolver channel publishes (R171, R172): shaft angle, speed, amplitude, tracking error and LOCK. Log 261. -/
def State.resolverIn (s : State) (p : PosIn) : State :=
  if 2 ≤ p.src ∨ !s.posLive p.src then s
  else
    let k := p.src
    let pp := max 1 (s.fld (R.POSk_CFG k) F.POSk_CFG_PP_LINES)
    let a := (p.elec % 65536 * 65536 / pp + (s.reg (R.POSk_OFS k)).toNat) % 4294967296
    let s1 := (s.setReg (R.POSk_ANG k) (BitVec.ofNat 32 a)).setReg (R.POSk_SPD k) (BitVec.ofNat 32 (ofSigned 32 (satS 32 (resolverSpeed pp p))))
    let s2 := ((s1.setFld (R.POSk_STAT k) F.POSk_STAT_AMP (satU 8 p.amp)).setFld (R.POSk_STAT k) F.POSk_STAT_TERR (satU 8 p.terr)).setFld
      (R.POSk_STAT k) F.POSk_STAT_LOCK (b2n (p.terr < 10))
    s2.updPs k fun x => { x with at_ := s.time, fresh := s.flag (R.POSk_STAT k) F.POSk_STAT_VALID }

end Sys2Proof.Machine
end

