-- ==== Sys2Proof/Machine/Traction.lean ====
section
/-!
DEFINITION. Traction and chopper functions (07): states shared with their engines, letters, the traction watch, the chopper,
sensorless starts.
Choices of the model: log 33, 34, 35.
-/
namespace Sys2Proof.Machine

/-! ### States of a function and its engines -/

/-- What an engine does on entering a state (Table FE-2, R107, R116, R117, R189): a start begins afresh and latches the rotor's angle, leaving the tracking states
forgets the angle, and outside RUNNING and STOPPING its legs are off at stage 1. -/
def State.engineEnter (s : State) (n : Nat) (st : UState) : State :=
  let old := s.ust (U.fe n)
  let s1 := s.setUst (U.fe n) st
  if old = st then s1
  else match st with
    | .running =>
      if old = .stopping then s1 else s1.updE n fun e => { e with first := true, halt := false, outI := 0, calm := 5, pred := none, rotor := (s.reg (R.POSk_ANG (s.posSource n))).toNat }
    | .stopping => s1
    | .armed => s1.updE n fun e => { e with notices := [], seen := if old = .running ∨ old = .stopping then e.seen else false,
                                            hist := if old = .running ∨ old = .stopping then e.hist else [] }
    | .fault => s1.updE n fun e => { e with notices := [], seen := false, hist := [], halt := true, waiting := false }
    | _ => s1.updE n fun e => { e with notices := [], seen := false, hist := [], waiting := false }

/-- The engines of a function other than a machine's in a WIND session take a state; outside RUNNING and STOPPING the legs are
off. An engine whose start state is OFF waits there until its function leaves IDLE. -/
def State.enginesEnter (s : State) (f : Nat) (st : UState) : State :=
  let s1 := s.each ((s.enginesOf f).filter fun n => !(st == .idle && s.ust (U.fe n) == .off)) fun s n => s.engineEnter n st
  if st = .running ∨ st = .stopping then s1 else s1.fnOff f

/-- A traction or HLV function changes state and its engines with it (R183, R236); the missing-phase test of a run ends with it (R193). -/
def State.fnEnter (s : State) (f : Nat) (st : UState) : State :=
  let s1 := (s.setUst (U.fn f) st).updTr f fun t => if st = .armed ∨ st = .fault then { t with miss := [] } else t
  if s1.windLive && f == s1.chgWind then s1 else s1.enginesEnter f st

/-- The primary engine of a function. -/
def State.fnEngine (s : State) (f : Nat) : Nat :=
  match s.enginesOf f with
  | [] => 0
  | n :: _ => (s.pairEngines n).headD n

/-! ### Letters (Table TRA-3) -/

/-- The unit is a function of a role. -/
def State.isRole (s : State) (u : Nat) (roles : List Nat) : Bool := isFn u && roles.contains (s.fnRole (u - 0x10))

/-- A WIND session holds the traction functions of its DC link in IDLE (R207). -/
def State.windBlocks (s : State) (f : Nat) : Bool := s.windLive && s.linkOf f == s.linkOf s.chgWind

/-- TRA_ARM (R183, R186). -/
def specTraArm : LetterSpec where
  units s u := s.isRole u [1]
  legal st := st = .idle
  used := []
  fails s m :=
    let f := fnOf m
    let link := s.linkOf f
    if s.armBlocked f || s.safeHeld || s.linkVolts link < (s.thr 0x0105 link 0 : Rat) || s.windBlocks f then [.eInterlock] else []
  run s m _ := doneWith (s.fnEnter (fnOf m) .armed)

/-- The function's source is a resolver or encoder that is VALID. -/
def State.srcValid (s : State) (f : Nat) : Bool :=
  let src := s.posSource (s.fnEngine f)
  src < 4 && s.flag (R.POSk_STAT src) F.POSk_STAT_VALID

/-- Sensorless fallback is enabled, or the function has no position source (R190). -/
def State.mayObserve (s : State) (f : Nat) : Bool := s.posSource (s.fnEngine f) == 4 || s.thr 0x0127 f 0 == 1

/-- TRA_RUN (R189, R190): synchronised at once where the source is VALID, else the sensorless start in OBSERVE. -/
def specTraRun : LetterSpec where
  units s u := s.isRole u [1]
  legal st := st = .armed
  used := []
  fails s m := if s.srcValid (fnOf m) || s.mayObserve (fnOf m) then [] else [.eInterlock]
  opens _ _ := true
  run s m k :=
    let f := fnOf m
    let s1 := s.fnEnter f .running
    if s.srcValid f then
      acceptedWith ((s1.updTr f fun t => { t with phase := 0, path := 0, tEff := 0, sensorless := false }).hwFinish k .done [0])
    else acceptedWith (s1.updTr f fun t => { t with phase := 1, path := 0, tEff := 0, sensorless := false, freq := 0, vec := 0 })

/-- TRA_TORQUE (R186, R187): the torque of record and its ramp. -/
def specTraTorque : LetterSpec where
  units s u := s.isRole u [1]
  legal st := st = .armed || st = .running
  used := [(16, 23)]
  fails s m :=
    let f := fnOf m
    let t := m.i32 16
    let ramp := m.u32 20
    let p : Rat := (t : Rat) / 65536 * s.mechSpeed (s.fnEngine f)
    let draw := (s.reg (R.LDG_EDf f)).toNat
    let ret := (s.reg (R.LDG_ERf f)).toNat
    (if s.thr 0x0120 f 0 * 65536 < absI t || (ramp ≠ 0 && (ramp < 65536 || 655360000 < ramp)) then [.eRange] else []) ++
    (if p < -(ret : Rat) || (draw : Rat) < p || (draw = 0 && ret = 0 && t ≠ 0) then [.eBudget] else [])
  run s m _ :=
    (s.updTr (fnOf m) fun t => { t with torque := m.i32 16, ramp := (m.u32 20 : Nat) }, .done (leBytes 4 (m.u32 16)) none)

/-- TRA_STOP (R184). -/
def specTraStop : LetterSpec where
  units s u := s.isRole u [1]
  legal st := st = .running
  used := []
  opens _ _ := true
  run s m _ := acceptedWith (s.fnEnter (fnOf m) .stopping)

/-- TRA_DISARM (R186, R187). -/
def specTraDisarm : LetterSpec where
  units s u := s.isRole u [1]
  legal st := st = .armed
  used := []
  fails s m := if s.ascPref (fnOf m) then [.eInterlock] else []
  run s m _ := doneWith ((s.fnEnter (fnOf m) .idle).updTr (fnOf m) fun t => { t with torque := 0, tEff := 0, phase := 0, sensorless := false })

/-- The chopper's resistance in ohms. -/
def State.chopOhms (s : State) (f : Nat) : Rat := (s.thr 0x0112 f 1000 : Rat) / 1000
/-- The chopper's current in A by the latest result of its channel (R199). -/
def State.chopAmps (s : State) (f : Nat) : Rat := s.rndQ (s.thrN 0x0113 f 0x40) * (s.thr 0x0116 f 0 : Rat) / 10

/-- A traction or chopper fault cause persists (Table TRA-7). -/
def State.traPersists (s : State) (f : Nat) : Bool :=
  let t := s.tr f
  let link := s.linkOf f
  match t.cause with
  | 1 => (s.fnLegs f).any fun n => s.latchOf n != 0
  | 2 => (s.enginesOf f).any s.feCausePersists
  | 3 => s.ovNow link
  | 4 => !s.driveEn
  | 7 => decide ((s.thr 0x0124 f 900 : Rat) / 1000 * s.linkVolts link < (t.lastE : Rat) / 65536)
  | 11 => s.ssmPat f != 4 && decide (s.linkVolts link / (4 * s.chopOhms f) < s.chopAmps f)
  | 12 => s.safeHeld
  | _ => false

/-- The SSM holds an ASC pattern on the function while ASC_PREF is 1 (R203). -/
def State.ascHeld (s : State) (f : Nat) : Bool := (s.ssmPat f == 2 || s.ssmPat f == 3) && s.ascPref f

/-- TRA_CLEAR (R203, R185): the function and its engines return to IDLE, the pattern is released; a chopper no longer starts by itself. -/
def specTraClear : LetterSpec where
  units s u := s.isRole u [1, 6]
  legal st := st = .fault
  used := []
  fails s m := if s.traPersists (fnOf m) || s.legsBad (fnOf m) || s.ascHeld (fnOf m) then [.eInterlock] else []
  run s m _ :=
    let f := fnOf m
    let s1 := (s.each (s.enginesOf f) fun s n => s.feClear n).fnEnter f .idle
    doneWith ((s1.updTr f fun t =>
      { t with cause := 0, badPos := 0xFF, detected := false, openAt := none, shortAt := none, phase := 0, sensorless := false,
               auto := t.auto || s.fnRole f == 6 }).ssmFreeFn f)

/-- CHOP_RUN (R185). -/
def specChopRun : LetterSpec where
  units s u := s.isRole u [6]
  legal st := st = .idle
  used := []
  fails s m := if s.armBlocked (fnOf m) || s.safeHeld then [.eInterlock] else []
  run s m _ := doneWith ((s.setUst m.unit .running).updTr (fnOf m) fun t => { t with auto := true })

/-- CHOP_HALT (R185). -/
def specChopHalt : LetterSpec where
  units s u := s.isRole u [6]
  legal st := st = .running
  used := []
  fails s m :=
    let link := s.linkOf (fnOf m)
    if s.functions.any fun g => s.fnRole g == 1 && s.linkOf g == link && (s.ust (U.fn g) == .running || s.ust (U.fn g) == .stopping)
    then [.eInterlock] else []
  run s m _ := doneWith (((s.setUst m.unit .idle).fnOff (fnOf m)).updTr (fnOf m) fun t => { t with duty := 0 })

def execTraArm (m : Msg) (s : State) : Out := .next (deliver specTraArm s m)
def execTraRun (m : Msg) (s : State) : Out := .next (deliver specTraRun s m)
def execTraTorque (m : Msg) (s : State) : Out := .next (deliver specTraTorque s m)
def execTraStop (m : Msg) (s : State) : Out := .next (deliver specTraStop s m)
def execTraDisarm (m : Msg) (s : State) : Out := .next (deliver specTraDisarm s m)
def execTraClear (m : Msg) (s : State) : Out := .next (deliver specTraClear s m)
def execChopRun (m : Msg) (s : State) : Out := .next (deliver specChopRun s m)
def execChopHalt (m : Msg) (s : State) : Out := .next (deliver specChopHalt s m)

/-! ### The chopper (R185, R197 to R199) -/

/-- The automatic start of a chopper (Table TRA-2): once per admission, at the first boundary that finds it possible. -/
def State.chopAuto (s : State) (f : Nat) : State :=
  if s.fnRole f = 6 ∧ s.ust (U.fn f) = .idle ∧ !(s.tr f).auto ∧ !s.armBlocked f ∧ !s.safeHeld then
    (s.setUst (U.fn f) .running).updTr f fun t => { t with auto := true }
  else s

/-- CHOP_AUTO_START (R185). -/
def execChopAutoStart (f : Nat) (s : State) : Out := .next (if s.atBoundary then s.chopAuto f else s)

/-- The time from `from_` to `now` that each period covers: its length in ns, duty and voltage. -/
def chopSpans (from_ now : Nat) : List (Nat × Int × Int) → List (Nat × Int × Int)
  | [] => []
  | (t, d, v) :: rest =>
    let stop := match rest with | [] => now | x :: _ => x.1
    (stop - max t from_, d, v) :: chopSpans from_ now rest

/-- The means of duty and link voltage over the 200 µs before now, as far as periods cover them (R199). -/
def chopMeans (now : Nat) (l : List (Nat × Int × Int)) : Rat × Rat :=
  let w := chopSpans (now - 200000) now l
  let all : Rat := (max 1 ((w.map (·.1)).foldl (· + ·) 0) : Nat)
  let sum (g : Nat × Int × Int → Int) : Rat := ((w.map g).foldl (· + ·) 0 : Int)
  (sum (fun x => x.1 * x.2.1) / all / 65536, sum (fun x => x.1 * x.2.2) / all / 65536)


/-- CHOPPER_PERIOD (R198): the start of a carrier period of a chopper: its duty in RUNNING, saturation, resistor energy, the
200 µs means, and the power it books (R292). -/
def execChopperPeriod (f : Nat) (s : State) : Out :=
  .next <|
    if s.fnRole f ≠ 6 then s
    else
      let t := s.tr f
      let link := s.linkOf f
      let v := s.linkVolts link
      let ohm := s.chopOhms f
      let per := s.thrN 0x0110 f 40000
      let ns := per * 5 / 2
      let dv := s.chopDv f v
      let pd : Rat := (s.lnk link).dump
      let dp := if v ≤ 0 then (if 0 < pd then 1 else 0) else clampQ 0 1 (pd * ohm / (v * v))
      let run := s.ust (U.fn f) = .running ∧ !s.faultPending (U.fn f) ∧ !s.ssm.entered
      let cap := s.thr 0x0114 f 0
      let d : Rat := if !run || t.hot then 0 else if dv < dp then dp else dv
      let dec : Rat := (ns : Rat) / ((s.thr 0x0115 f 60 : Rat) * 1000000000)
      let en : Rat := if cap = 0 then 0 else (t.energy : Rat) * (1 - dec) + d * v * v / ohm * (ns : Rat) / 1000000
      let lim : Rat := (cap : Rat) * 1000
      let hot := cap ≠ 0 && (if t.hot then decide (lim * 8 / 10 ≤ en) else decide (lim ≤ en))
      let win := trimWindow s.time (t.window ++ [(s.time, nearest (d * 65536), nearest (v * 65536))])
      let (dm, _) := chopMeans s.time win
      let free := s.ssmPat f = 0
      let s1 := (s.chopWatch f).updTr f fun t =>
        { t with duty := nearest (d * 65536), hot := hot, lastAt := s.time,
                 energy := quant 0 en, window := win, openAt := if 1 / 20 ≤ dm then t.openAt else none,
                 shortAt := if dm = 0 ∧ free then t.shortAt else none,
                 flags := t.flags ||| b2n hot * 64 }
      let pulse := run && decide ((s.fld R.MOD_PPROF ⟨29, 20⟩ : Rat) ≤ d * (ns : Rat)) && free
      let s2 := s1.each (s.fnLegs f) fun s n =>
        if pulse && s.latchOf n = 0 then
          (s.placeEdges n (some 256) (some (256 + toTick (d * ((32 * per : Nat) : Rat))))).setDuty n (some (quant 30 d))
        else s.setDuty n none
      s2.updFp f fun p => { p with booked := if run && free then nearest (d * v * v / ohm * 1000) else 0, withdrawn := p.withdrawn && !(run && free) }

/-- A chopper's fault cause has been detected (R199): k of the link to 0 at once, FAULT at the next boundary. -/
def State.chopDetect (s : State) (f c : Nat) : State :=
  ((s.fnFail f c 0xFF).updTr f fun t => { t with detected := true }).zeroK f

/-- A result of a sense channel is checked by the choppers that measure their current with it (R199). -/
def State.chopCheck (s : State) (ch : Nat) : State :=
  s.each (s.functions.filter fun f => s.fnRole f == 6 && s.thr 0x0113 f (-1) == (ch : Int)) fun s f =>
    let t := s.tr f
    let (dm, vm) := chopMeans s.time t.window
    let i := s.chopAmps f
    let ohm := s.chopOhms f
    let isOpen := heldSince s.time (decide (1 / 20 ≤ dm) && decide (i < dm * vm / (4 * ohm))) t.openAt
    let isShort := heldSince s.time (dm == 0 && s.ssmPat f == 0 && decide (vm / (4 * ohm) < i)) t.shortAt
    let s1 := s.updTr f fun t => { t with openAt := isOpen, shortAt := isShort }
    if heldFor s.time 200000 isOpen then s1.chopDetect f 10
    else if heldFor s.time 200000 isShort then s1.chopDetect f 11 else s1

/-! ### The traction watch (R200, R201) -/

/-- The electrical speed that the watch uses, in rad/s: the source's, or the observer's (R200). -/
def State.watchSpeed (s : State) (f : Nat) : Rat :=
  let n := s.fnEngine f
  let src := s.posSource n
  if s.onObserver n f then s.mechSpeed n * (s.polePairs n : Rat)
  else (s.sfld (R.POSk_SPD src) ⟨31, 0⟩ : Rat) / 4294967296 * 1000000 * 2 * piR * (s.polePairs n : Rat)

/-- TRACTION_WATCH (R200): every 10 µs the function's back-EMF against its link sets ASC_PREF in its heartbeat; a known speed with
too much back-EMF faults a function in IDLE or ARMED. `angles`: what the resolver channels have published last. -/
def execTractionWatch (f : Nat) (angles : List PosIn) (s : State) : Out :=
  .next <|
    let s := s.each angles State.resolverIn
    if s.fnRole f ≠ 1 then s
    else
      let n := s.fnEngine f
      let t := s.tr f
      let live := s.ust (U.fn f) = .running ∨ s.ust (U.fn f) = .stopping
      let known := s.srcValid f || (live && s.onObserver n f && t.phase ≠ 1 && t.phase ≠ 2 && t.phase ≠ 3)
      if !known then s.updTr f fun t => { t with known := false }
      else
        let w := s.watchSpeed f
        let e := sqrt3 * (if w < 0 then -w else w) * (s.thr 0x0123 f 0 : Rat) / 1000000
        let k : Rat := (s.thr 0x0124 f 900 : Rat) / 1000
        let v := s.linkVolts (s.linkOf f)
        let s1 := s.updTr f fun t =>
          { t with known := true, lastE := (e * 65536).floor, pref := decide (k * v < e) || (t.pref && !decide (e < (k - 1 / 50) * v)) }
        if (s.ust (U.fn f) = .idle ∨ s.ust (U.fn f) = .armed) ∧ k * v < e then s1.fnFail f 7 0xFF else s1

/-- UNKNOWN_SPEED_TIMEOUT (R200, R330): the speed has been unknown for longer than 100 ms: ASC_PREF becomes 1, in the watch's next
heartbeat, or in the SSM itself while heartbeats are absent. -/
def execUnknownSpeedTimeout (f : Nat) (s : State) : Out :=
  .next (if f < 16 ∧ (s.ssmFn f).role = 1 ∧ !s.ssm.heartbeat then (s.setBit R.SSM_ASC F.SSM_ASC_PREF f).ssmRefresh
    else if s.fnRole f = 1 ∧ !(s.tr f).known then s.updTr f fun t => { t with pref := true } else s)

/-- ASC_FREEWHEEL_CHANGE (R201): ASC_PREF has been 0 for 10 ms under an ASC pattern, which becomes FREEWHEEL. -/
def execAscFreewheelChange (f : Nat) (s : State) : Out :=
  .next (if f < 16 ∧ !s.ascPref f ∧ (s.ssmPat f = 2 ∨ s.ssmPat f = 3) then s.setSsmPat f 1 else s)

/-! ### Stops and sensorless starts (R184, R190, R191) -/

/-- TRACTION_STOP_COMPLETE (Table TRA-1): effective torque 0, every phase current below 2 % of I_RATED for 1 ms, ASC_PREF 0. -/
def execTractionStopComplete (f : Nat) (s : State) : Out :=
  .next <|
    let n := s.fnEngine f
    let quiet := (s.pairEngines n).all fun k => (s.e k).iph.all fun x => decide (absI x * 50 < quant 27 (s.iRated n f / s.iBase k))
    if s.fnRole f ≠ 1 ∨ s.ust (U.fn f) ≠ .stopping ∨ (s.tr f).tEff ≠ 0 ∨ !quiet ∨ s.ascPref f then s
    else ((s.hwMove (U.fn f) [.stopping] .armed).finishOp (U.fn f) 0x0404 .done []).finishOp (U.fn f) 0x0402 .eAborted []

/-- SENSORLESS_OBSERVE_SAMPLE (R190): every 20 µs in OBSERVE the function makes urgent requests for its three terminal-voltage
channels, settle 0; a request that its converter refuses is not made. -/
def execSensorlessObserveSample (f : Nat) (s : State) : Out :=
  .next <|
    if s.fnRole f ≠ 1 ∨ (s.tr f).phase ≠ 1 then s
    else s.each (List.range 3) fun s k =>
      let ch := s.thrN (0x0130 + k) f 0x40
      let r := if ch < 0x80 then 0 else 1
      if (s.urgentFails r).isEmpty then s.urgentPush r ⟨ch % 64, 0, 0, none, some (f, k), false⟩ else s

/-- The start reaches phase RUN (Table TRA-4): TRA_RUN completes with its path. -/
def State.startRun (s : State) (f path : Nat) : State :=
  ((s.updTr f fun t => { t with phase := 4, path := path, tEff := 0 }).each (s.enginesOf f) fun s n =>
    s.updE n fun e => { e with first := true }).finishOp (U.fn f) 0x0402 .done (leBytes 1 path)

/-- SENSORLESS_OBSERVE_END (R190): the decision after 2 ms, on the estimated amplitude in mV, frequency (electrical angle per
update, signed) and angle. DESIGN CHOICE (log 219): a forward start below CATCH_MIN reports path 2. -/
def execSensorlessObserveEnd (f amp : Nat) (freq : Int) (ang : Nat) (s : State) : Out :=
  .next <|
    if s.fnRole f ≠ 1 ∨ (s.tr f).phase ≠ 1 ∨ s.ust (U.fn f) ≠ .running then s
    else if (amp : Rat) / 1000 < s.linkVolts (s.linkOf f) / 50 then
      s.updTr f fun t => { t with phase := 2, path := 2, freq := 0, vec := 0 }
    else if 0 ≤ freq then
      if s.rpmToSpd (s.fnEngine f) (s.thr 0x0129 f 500) ≤ (freq : Rat) then s.startRun f 1
      else s.updTr f fun t => { t with phase := 2, path := 2, freq := freq, vec := ang }
    else s.updTr f fun t => { t with phase := 3, path := 3, freq := freq, vec := ang }

/-- IF_LOCK (R190): the observer has been within 10° of the vector for 20 ms at or above OBS_MIN. -/
def execIfLock (f : Nat) (s : State) : Out :=
  .next (if s.fnRole f = 1 ∧ s.ust (U.fn f) = .running ∧ (s.tr f).phase = 2 ∧ s.rpmToSpd (s.fnEngine f) (s.thr 0x0128 f 1000) ≤ ((s.tr f).freq : Rat) then
    s.startRun f (s.tr f).path else s)

/-- CATCH_FAIL (R191): IF has not reached RUN within IF_TIME of entering it. -/
def execCatchFail (f : Nat) (s : State) : Out :=
  .next (if s.fnRole f = 1 ∧ s.ust (U.fn f) = .running ∧ (s.tr f).phase = 2 then s.fnFail f 9 0xFF else s)

end Sys2Proof.Machine
end

