-- ==== Sys2Proof/Machine/Hlv.lean ====
section
/-!
DEFINITION. HLV functions (09): letters, the automatic start, the end of a stop, and the faults of Table LV-3.
Choices of the model: log 65.
-/
namespace Sys2Proof.Machine

/-- V1 of an HLV function in V. -/
def State.hlvV1 (s : State) (f : Nat) : Rat := s.dabSlot (s.dabEngine f) 1
/-- V2 of an HLV function in V. -/
def State.hlvV2 (s : State) (f : Nat) : Rat := s.dabSlot (s.dabEngine f) 2
/-- I2 of an HLV function in A. -/
def State.hlvI2 (s : State) (f : Nat) : Rat := s.dabSlot (s.dabEngine f) 3

/-- V1 is below HLV_VIN_MIN (Table LV-4). -/
def State.hlvLow (s : State) (f : Nat) : Bool := decide (s.hlvV1 f < (s.thr 0x0702 f 300 : Rat))
/-- V2 is above HLV_OV (Table LV-4). -/
def State.hlvOver (s : State) (f : Nat) : Bool := decide ((s.thr 0x0701 f 600 : Rat) / 10 < s.hlvV2 f)

/-- Entry to RUNNING: the V2 reference starts at the V2 measured (R237). -/
def State.hlvStart (s : State) (f : Nat) : State :=
  (s.fnEnter f .running).updHl f fun h => { h with ref := (s.hlvV2 f * 65536).floor }

/-- Entry to STOPPING: P* ramps to 0 from its value (R237). -/
def State.hlvStop (s : State) (f : Nat) : State :=
  let n := s.dabEngine f
  let p := of27 (s.e n).ir.1 * s.vBase n * s.iBase n
  (s.fnEnter f .stopping).updHl f fun h => { h with ramp0 := quant 0 p, stopAt := s.time }

/-- HLV_ARM (R238). -/
def specHlvArm : LetterSpec where
  units s u := s.isRole u [5]
  legal st := st = .idle
  used := []
  fails s m := if s.armBlocked (fnOf m) || s.safeHeld || s.hlvLow (fnOf m) then [.eInterlock] else []
  run s m _ := doneWith (s.fnEnter (fnOf m) .armed)

/-- HLV_RUN (R237, R238): completes when V2 first lies within 2 % of the target. -/
def specHlvRun : LetterSpec where
  units s u := s.isRole u [5]
  legal st := st = .armed
  used := []
  fails s m :=
    let f := fnOf m
    (if s.armBlocked f || s.hlvLow f then [.eInterlock] else []) ++ (if (s.reg (R.LDG_EDf f)).toNat = 0 then [.eBudget] else [])
  opens _ _ := true
  run s m _ := acceptedWith (s.hlvStart (fnOf m))

/-- HLV_SET (R238): target in 0.1 V, I2_LIM in 0.1 A. -/
def specHlvSet : LetterSpec where
  units s u := s.isRole u [5]
  legal st := st = .idle || st = .armed || st = .running
  used := [(16, 19)]
  fails s m :=
    let f := fnOf m
    let v := m.u16 16
    if v < 360 ∨ 560 < v ∨ s.thr 0x0703 f 1250 < (m.u16 18 : Int) ∨ s.thr 0x0701 f 600 - 20 < (v : Int) then [.eRange] else []
  run s m _ := doneWith (s.updHl (fnOf m) fun h => { h with target := (m.u16 16 * 65536 / 10 : Nat), i2lim := (m.u16 18 : Nat) })

/-- HLV_STOP (R236, R237). -/
def specHlvStop : LetterSpec where
  units s u := s.isRole u [5]
  legal st := st = .running
  used := []
  opens _ _ := true
  run s m _ := acceptedWith (s.hlvStop (fnOf m))

/-- HLV_DISARM (R236). -/
def specHlvDisarm : LetterSpec where
  units s u := s.isRole u [5]
  legal st := st = .armed
  used := []
  run s m _ := doneWith (s.fnEnter (fnOf m) .idle)

/-- An HLV fault cause persists (Table LV-3). -/
def State.hlvPersists (s : State) (f : Nat) : Bool :=
  match (s.tr f).cause with
  | 1 => (s.fnLegs f).any fun n => s.latchOf n != 0
  | 2 => (s.enginesOf f).any s.feCausePersists
  | 3 => s.hlvOver f
  | 4 => !s.driveEn
  | 5 => s.hlvLow f
  | 12 => s.safeHeld
  | _ => false

/-- HLV_CLEAR (R238): the function and its engine return to IDLE, its pattern is released. -/
def specHlvClear : LetterSpec where
  units s u := s.isRole u [5]
  legal st := st = .fault
  used := []
  fails s m := if s.hlvPersists (fnOf m) || s.legsBad (fnOf m) then [.eInterlock] else []
  run s m _ :=
    let f := fnOf m
    let s1 := (s.each (s.enginesOf f) fun s n => s.feClear n).fnEnter f .idle
    doneWith ((s1.updTr f fun t => { t with cause := 0, badPos := 0xFF }).ssmFreeFn f)

def execHlvArm (m : Msg) (s : State) : Out := .next (deliver specHlvArm s m)
def execHlvRun (m : Msg) (s : State) : Out := .next (deliver specHlvRun s m)
def execHlvSet (m : Msg) (s : State) : Out := .next (deliver specHlvSet s m)
def execHlvStop (m : Msg) (s : State) : Out := .next (deliver specHlvStop s m)
def execHlvDisarm (m : Msg) (s : State) : Out := .next (deliver specHlvDisarm s m)
def execHlvClear (m : Msg) (s : State) : Out := .next (deliver specHlvClear s m)

/-- The automatic start of an HLV function (Table LV-1): once per admission, at the first boundary that finds it possible. -/
def State.hlvAuto (s : State) (f : Nat) : State :=
  let asked := s.withImg false fun im => match im.unitRec 0x0A f with | some r => bitAt (rf r 4 1) 0 | none => false
  if s.fnRole f = 5 ∧ s.ust (U.fn f) ≠ .off ∧ asked ∧ !(s.hl f).auto ∧ !s.armBlocked f ∧ !s.hlvLow f then
    (if s.ust (U.fn f) = .idle then s.hlvStart f else s).updHl f fun h => { h with auto := true }
  else s

/-- HLV_AUTO_RUN (R236). -/
def execHlvAutoRun (f : Nat) (s : State) : Out := .next (if s.atBoundary then s.hlvAuto f else s)

/-- HLV_STOP_COMPLETE (R236): every leg has been off and |I2| below 1 A for 1 ms; ARMED at the next boundary. -/
def execHlvStopComplete (f : Nat) (s : State) : Out :=
  .next <|
    let i := s.hlvI2 f
    if s.fnRole f ≠ 5 ∨ s.ust (U.fn f) ≠ .stopping ∨ (s.fnLegs f).any (fun n => (s.dutyOf n).isSome) ∨ 1 ≤ i ∨ i ≤ -1 then s
    else ((s.hwMove (U.fn f) [.stopping] .armed).finishOp (U.fn f) 0x0614 .done []).finishOp (U.fn f) 0x0612 .eAborted []

/-- HLV_FAULT_DETECT (R239): cause 3, OUT_OV for 10 µs, or cause 5, IN_UV for 100 µs in RUNNING. Stage 1 holds every leg off and
R116 applies. -/
def execHlvFaultDetect (f cause : Nat) (s : State) : Out :=
  .next <|
    let holds := if cause = 3 then s.hlvOver f else if cause = 5 then s.hlvLow f && s.ust (U.fn f) == .running else false
    if s.fnRole f ≠ 5 ∨ !holds ∨ !(s.ust (U.fn f)).live then s
    else s.each (s.fnLegs f) (fun s n => s.setDuty n none) |>.fnFail f cause 0xFF

end Sys2Proof.Machine
end

