-- ==== Sys2Proof/Machine/Regulator.lean ====
section
/-!
DEFINITION. The 12 V regulator (09): constant on-time pulses, balancing, current limits, shedding, start, stop and hiccup,
the crowbar, letters and faults.
Choices of the model: log 45, 85.
-/
namespace Sys2Proof.Machine

/-! ### Settings and sensed values -/

/-- Phase codes of Table LV-12. -/
def regSoftStart : Nat := 1
def regRegulate : Nat := 2
def regHiccup : Nat := 3
def regSoftStop : Nat := 4

def State.regPhase (s : State) : Nat := s.fld R.REG_STATE F.REG_STATE_PHASE
def State.setRegPhase (s : State) (p : Nat) : State := s.setFld R.REG_STATE F.REG_STATE_PHASE p
def State.regUsed (s : State) : Nat := s.fld R.REG_STATE F.REG_STATE_USED
def State.regActive (s : State) : Nat := s.fld R.REG_STATE F.REG_STATE_ACTIVE
/-- The phases of a mask, ascending. -/
def phasesOf (m : Nat) : List Nat := (List.range 8).filter (bitAt m)
/-- Set the active phases, in REG_STATE and in each REG_PHn. -/
def State.setActive (s : State) (m : Nat) : State :=
  ({ s with rgl := { s.rgl with hiz := s.rgl.hiz - (s.rgl.hiz &&& m) } }.setFld R.REG_STATE F.REG_STATE_ACTIVE m).each (List.range 8) fun s n =>
    s.setFld (R.REG_PHn n) F.REG_PHn_ACT (b2n (bitAt m n))
/-- V_SET in mV. -/
def State.vSet (s : State) : Nat := s.fld R.REG_TARGET F.REG_TARGET_VSET
def State.updRg (s : State) (g : RegSt → RegSt) : State := { s with rgl := g s.rgl }
/-- An epoch flag of Table LV-12. -/
def State.regFlag (s : State) (bit : Nat) : State :=
  s.updRg fun r => { r with flags := if bitAt r.flags bit then r.flags else r.flags + 2 ^ bit }

/-- V_T in µV at the present time of record: the ramp from its start towards its goal at V_SET ÷ SS_TIME (R248, R250). -/
def State.regVt (s : State) : Rat :=
  let r := s.rgl
  let step : Rat := ((s.time - r.at_ : Nat) : Rat) * (s.vSet : Rat) / (s.fld R.REG_SS F.REG_SS_SSTIME : Rat)
  if r.from_ < r.goal then clampQ r.from_ r.goal ((r.from_ : Rat) + step) else clampQ r.goal r.from_ ((r.from_ : Rat) - step)

/-- Start a ramp of V_T from a value in µV to a goal. -/
def State.regRamp (s : State) (from_ goal : Int) : State := s.updRg fun r => { r with from_ := from_, at_ := s.time, goal := goal }

def State.regVos (s : State) : Nat := s.fld R.REG_OUT F.REG_OUT_VOS
def State.regIout (s : State) : Int := s.sfld R.REG_OUT F.REG_OUT_IOUT
/-- V_IN in 10 mV. -/
def State.regVinNow (s : State) : Nat := s.fld R.REG_VIN F.REG_VIN_VIN
def State.regVinMin (s : State) : Nat := s.fld R.REG_PROT F.REG_PROT_VINMIN
/-- The load-line target V_TL in µV (R243): 0.01 mΩ × 0.1 A is 1 µV. -/
def State.regVtl (s : State) : Rat := s.regVt - ((s.fld R.REG_TARGET F.REG_TARGET_RLL : Nat) : Rat) * (s.regIout : Rat)
/-- VOS ÷ V_TL (R246). -/
def State.regRatio (s : State) : Rat := (s.regVos : Rat) * 1000 / s.regVtl

/-- The fold-back limit of R246 in 0.1 A at a ratio r. -/
def State.regFold (s : State) (r : Rat) : Rat :=
  let hi : Rat := s.fld R.REG_ILIM F.REG_ILIM_IMAX
  let lo : Rat := s.fld R.REG_ILIM F.REG_ILIM_IMIN
  if 4 / 5 ≤ r then hi else if r < 3 / 10 then lo else lo + (hi - lo) * (r - 3 / 10) * 2

/-- The envelope limit per phase in 0.1 A: P_DRAW ÷ (V_SET × used count). -/
def State.regEnvLimit (s : State) : Rat :=
  (s.ldg.regulator : Rat) * 10000 / ((s.vSet : Rat) * ((phasesOf s.regUsed).length : Rat))

/-- The per-phase limit in force in 0.1 A: the lower of the two, never below I_PH_MIN (R246). -/
def State.regLimit (s : State) : Rat :=
  let lo : Rat := s.fld R.REG_ILIM F.REG_ILIM_IMIN
  let l := if s.regEnvLimit < s.regFold s.regRatio then s.regEnvLimit else s.regFold s.regRatio
  if l < lo then lo else l

/-- Phase n's sensed current in 0.1 A. -/
def State.regCur (s : State) (n : Nat) : Int := s.sfld (R.REG_PHn n) F.REG_PHn_I

/-! ### Readings (R243, R255) -/

/-- Pulses run: a phase other than HICCUP, and no crowbar. -/
def State.regPulses (s : State) : Bool :=
  (s.regPhase == regSoftStart || s.regPhase == regRegulate || s.regPhase == regSoftStop) && !s.pads.crowbar

/-- The current in 0.1 A that a code of BIn stands for: 3.3 V in 1,024 steps, BI_ZERO and BI_GAIN (R255). -/
def State.biAmps (s : State) (code : Nat) : Int :=
  let mv : Rat := ((code % 1024 : Nat) : Rat) * 3300 / 1024 - (s.fld R.REG_SENSE F.REG_SENSE_ZERO : Rat)
  nearest (mv * 10000 / (max 1 (s.fld R.REG_SENSE F.REG_SENSE_GAIN) : Nat))

/-- The mean over a span up to now of a value held from each of its times to the next; the latest alone where they span nothing. -/
def heldMean (now span : Nat) (l : List (Nat × Int)) : Rat :=
  let parts := (l.zip (l.drop 1 ++ [(now, 0)])).map fun p => (p.2.1 - max p.1.1 (now - span), p.1.2)
  let all := (parts.map (·.1)).foldl (· + ·) 0
  if all = 0 then (match l.getLast? with | some x => (x.2 : Rat) | none => 0)
  else (((parts.map fun p => (p.1 : Int) * p.2).foldl (· + ·) 0 : Int) : Rat) / (all : Rat)

/-- Drop the readings that a later one replaced before the span. -/
def heldSpan {α : Type} (now span : Nat) : List (Nat × α) → List (Nat × α)
  | x :: y :: l => if y.1 + span ≤ now then heldSpan now span (y :: l) else x :: y :: l
  | l => l

/-- The injected ripple in µV (R243): the filtered sum of the emulated currents, scaled by K_RIP. -/
def State.regRipple (s : State) : Rat := (s.rgl.ripY : Rat) * (s.fld R.REG_RIPPLE F.REG_RIPPLE_KRIP : Rat) / 100000

/-- The emulated currents and their 2 kHz high-pass come up to date (R243): each rises at (V_IN − V_T) ÷ L in its phase's on-time and falls at
V_T ÷ L otherwise; the filter is of first order (log 212). -/
def State.regEmulate (s : State) : State :=
  if !s.regPulses then s
  else
    let dt : Rat := ((s.time - s.rgl.senseAt : Nat) : Rat)
    let l : Rat := (max 1 (s.fld R.REG_RIPPLE F.REG_RIPPLE_L) : Nat)
    let step (n : Nat) : Int :=
      ((if bitAt s.rgl.onMask n then (s.regVinNow : Rat) * 10000 - s.regVt else -s.regVt) / l * dt).floor
    let used := phasesOf s.regUsed
    let all := (used.map step).foldl (· + ·) 0
    s.updRg fun r =>
      { r with emul := used.foldl (fun q n => FMap.upd (fun _ => 0) q n (· + step n)) r.emul,
               ripY := (((r.ripY + all : Int) : Rat) / (1 + 4 * piR * dt / 1000000)).floor }

/-- The phase currents are integrated for the epoch's means, each as it stood since the reading before. -/
def State.regIntegrate (s : State) : State :=
  let dt := s.time - s.rgl.senseAt
  s.updRg fun r =>
    { r with sums := (phasesOf s.regUsed).foldl (fun q n => FMap.upd (fun _ => 0) q n (· + (dt : Int) * s.regCur n)) r.sums,
             span := r.span + dt, senseAt := s.time }

/-- The mean current of a phase over the last 10 µs (R245), in 0.1 A. Log 252. -/
def State.regMean (s : State) (n : Nat) : Rat := heldMean s.time 10000 (s.rgl.bwin.map fun p => (p.1, p.2.getD n 0))

/-- A reading at or below REG_OV ends the overvoltage: REG_CROWBAR becomes REG_OFF at the SSM (R329; DEDUCED, log 237). -/
def State.regOvEnd (s : State) : State :=
  if s.ssm.regHeld = 2 ∧ s.regVos ≤ s.fld R.REG_PROT F.REG_PROT_OV then s.ssmHoldReg 1 else s

/-- Take in what the sense inputs read: the phases' currents, VOS, and I_OUT, their sum filtered over 200 ns. -/
def State.regRead (s : State) (m : RegIn) : State :=
  let used := phasesOf s.regUsed
  let s1 := ((s.regEmulate.regIntegrate).setFld R.REG_OUT F.REG_OUT_VOS (satU 16 m.vos.toNat)).each used fun s n =>
    s.setSfld (R.REG_PHn n) F.REG_PHn_I (satS 16 (s.biAmps (m.bi.getD n 0)))
  let all := (used.map fun n => s1.regCur n).foldl (· + ·) 0
  let win := heldSpan s.time 200 (s1.rgl.iwin ++ [(s.time, all)])
  let per := heldSpan s.time 10000 (s1.rgl.bwin ++ [(s.time, (List.range 8).map fun n => s1.regCur n)])
  ((s1.updRg fun r => { r with iwin := win, bwin := per }).setSfld R.REG_OUT F.REG_OUT_IOUT (satS 16 (nearest (heldMean s.time 200 win)))).regOvEnd

/-! ### Pulses and the pads (R243, R244, R252) -/

/-- The on-time of a pulse on phase n in 78.125 ps (R244): V_T ÷ (V_IN × f_SW) × (1 + trim), from 40 ns to 1 ÷ f_SW − T_OFFMIN. -/
def State.regOnTime (s : State) (n : Nat) : Nat :=
  let fsw : Rat := (s.fld R.REG_CFG F.REG_CFG_FSW : Rat) * 1000
  let vin : Rat := (s.regVinNow : Rat) * 10000
  let top : Rat := 12800000000 / fsw - (s.fld R.REG_CFG F.REG_CFG_TOFFMIN : Rat) * 128
  let trim : Rat := (s.sfld (R.REG_PHn n) F.REG_PHn_TRIM : Rat) / 4096
  let t : Rat := if vin = 0 then top else s.regVt / (vin * fsw) * (1 + trim) * 12800000000
  (quant 0 (clampQ 512 top t)).toNat

/-- A phase that can take a pulse: active, outside its on-time and T_OFFMIN, not held by its limit. -/
def State.regFree (s : State) (n : Nat) : Bool :=
  bitAt s.regActive n && !bitAt s.rgl.onMask n && decide (FMap.get (fun _ => 0) s.rgl.offUntil n ≤ s.time) && !bitAt s.rgl.held n

/-- The phases in ascending cyclic order after the phase last pulsed. -/
def State.regOrder (s : State) : List Nat := (List.range 8).map fun i => (s.rgl.last + 1 + i) % 8

/-- The active phases whose current exceeds the limit are held (R246). -/
def State.regHold (s : State) : State :=
  let exceeds := (phasesOf s.regActive).filter fun n => s.regLimit < (s.regCur n : Rat)
  let s1 := s.updRg fun r => { r with held := (exceeds.map fun n => 2 ^ n).foldl (· + ·) 0 }
  if exceeds.isEmpty then s1 else (s1.setFlag R.REG_EVT F.REG_EVT_LIMIT).regFlag 1

/-- Start the waiting pulse on the next free phase, if there is one. -/
def State.regTryPulse (s : State) : State :=
  if !s.rgl.waiting || !s.regPulses then s
  else match s.regOrder.find? s.regFree with
    | none => s
    | some n =>
      let t := s.regOnTime n
      s.updRg fun r => { r with waiting := false, last := n, onMask := r.onMask + 2 ^ n, tOn := FMap.set (fun _ => 0) r.tOn n t }

/-- The levels of a BPn pad. -/
inductive Pad where
  | low | high | hiZ
  deriving DecidableEq, Repr

/-- The level of the regulator's override wire (R252): low, held high, or toggling with a period of 200 ns since the pattern began. -/
def State.regWire (s : State) : Bool :=
  match s.fld R.SSM_PATX F.SSM_PATX_REG with
  | 0 => false
  | 1 => true
  | _ => (s.up - s.ssm.regAt) / 100 % 2 == 0

/-- The pads watch the wire (R252): a first edge gives REG_OFF or nothing, a second within 200 ns is REG_CROWBAR, and a wire that has stood for
200 ns means what its level says. -/
def State.wireTick (s : State) : State :=
  let w := s.regWire
  let p := s.pads
  let recent : Bool := match p.wireEdge with | some t => decide (s.up ≤ t + 200) | none => false
  if w ≠ p.wire then { s with pads := { p with wire := w, wireEdge := some s.up, wirePat := if recent then 2 else b2n w } }
  else if p.wireEdge.isSome && !recent then { s with pads := { p with wireEdge := none, wirePat := b2n w } } else s

/-- The BPn pad by the precedence of R252: the crowbar latch, the SSM's override, the state's REG_OFF, the pulses. Unused phases
are at high impedance, and so is a shed phase once its current has reached 0 A. -/
def State.regPad (s : State) (n : Nat) : Pad :=
  if s.pads.crowbar ∧ (bitAt s.pads.barMask n ∨ bitAt s.regUsed n) then .low
  else if !bitAt s.regUsed n then .hiZ
  else if s.pads.wirePat = 2 then .low
  else if s.pads.wirePat = 1 ∨ !s.regPulses then .hiZ
  else if bitAt s.rgl.onMask n then .high
  else if bitAt s.regActive n ∨ !bitAt s.rgl.hiz n then .low else .hiZ

/-! ### Restore, start and stop -/

/-- Shedding runs: phase REGULATE, enabled, and no hold (R247). -/
def State.regSheds (s : State) : Bool := s.regPhase == regRegulate && s.flag R.REG_SHED F.REG_SHED_EN && !s.rgl.shedHold

/-- Every used phase is restored at once (R247). -/
def State.regRestoreAll (s : State) : State :=
  (((s.setActive s.regUsed).setFlag R.REG_EVT F.REG_EVT_RESTORE).regFlag 0).updRg fun r =>
    { r with restores := (r.restores + 1) % 4294967296 }

/-- The event flag of a rank. -/
def regOpFlag (rank : Nat) : Fld :=
  if rank = 1 then F.REG_EVT_SHED else if rank = 2 then F.REG_EVT_ADD else F.REG_EVT_RESTORE

/-- One of the operations of R247 is due: of those due in the same cycle restore goes before add, and add before shed, so a lower one that
was taken first is taken back, and a higher one that was taken first stands. -/
def State.regOp (s : State) (rank : Nat) (f : State → State) : State :=
  let at_ := s.time
  let go (s : State) : State := f (s.updRg fun r => { r with op := some ⟨at_, rank, s.regActive, s.flag R.REG_EVT (regOpFlag rank)⟩ })
  match s.rgl.op with
  | none => go s
  | some o =>
    if o.at_ ≠ at_ then go s
    else if rank ≤ o.rank then s
    else
      let s1 := s.setActive o.mask
      go (if o.was then s1 else s1.clrFlag R.REG_EVT (regOpFlag o.rank))

/-- A load step while shedding runs: restore, and hold shedding off for SHED_HOLD. -/
def State.regRestore (s : State) : State :=
  if s.regSheds then s.regOp 3 fun s => (s.regRestoreAll.updRg fun r => { r with shedHold := true }).regTryPulse else s

/-- A phase held by its limit is a current-limit event, which restores (R246, R247). -/
def State.regLimitEvents (s : State) : State :=
  let s1 := s.regHold
  if s1.rgl.held ≠ 0 then s1.regRestore else s1

/-- Take in a reading; in a phase with a target the limit in force and its epoch flags follow, and the phases that it holds. -/
def State.regSense (s : State) (m : RegIn) : State :=
  let s1 := s.regRead m
  if s1.regPhase = 0 ∨ s1.regPhase = regHiccup then s1
  else
    let s2 := s1.setFld R.REG_LIM F.REG_LIM_ILIM (satU 16 (quant 0 s1.regLimit).toNat)
    let s3 := if s1.regRatio < 4 / 5 then s2.regFlag 2 else s2
    let s4 := if s1.regEnvLimit < s1.regFold s1.regRatio then s3.regFlag 3 else s3
    if s4.regPulses then s4.regLimitEvents else s4

/-- Every used BPn goes to high impedance: no pulse runs or waits, and the emulated ripple starts again. -/
def State.regOff (s : State) : State :=
  s.updRg fun r => { r with onMask := 0, waiting := false, held := 0, emul := [], ripY := 0, tripAt := none }

/-- Put the values of a REG_SET in force. -/
def State.regApply (s : State) (v rll en minPh : Nat) : State :=
  (((s.setFld R.REG_TARGET F.REG_TARGET_VSET v).setFld R.REG_TARGET F.REG_TARGET_RLL rll).setFld R.REG_SHED F.REG_SHED_EN en).setFld
    R.REG_SHED F.REG_SHED_MINPH minPh

/-- A start (R248): phase SOFTSTART, every used phase active, V_T from the larger of VOS and 0 to V_SET. -/
def State.regStart (s : State) : State :=
  let s1 := match s.rgl.next with
    | some (v, rll, en, mp) => (s.regApply v rll en mp).updRg fun r => { r with next := none }
    | none => s
  (((s1.setRegPhase regSoftStart).setActive s1.regUsed).regRamp (1000 * (s1.regVos : Int)) (1000 * (s1.vSet : Int))).updRg fun r =>
    { r with shedHold := false }

/-- Entry to RUNNING: trims 0, and a start (R245, R253). -/
def State.regRun (s : State) : State :=
  ((s.setUst U.reg .running).each (List.range 8) fun s n => s.setFld (R.REG_PHn n) F.REG_PHn_TRIM 0).regStart

/-- Entry to STOPPING (R250): phase SOFTSTOP, V_T from its value to 0, every used phase active. In HICCUP there is no pulse and
V_T is 0. -/
def State.regStop (s : State) : State :=
  let v : Int := if s.regPhase = regHiccup then 0 else quant 0 s.regVt
  (((s.setUst U.reg .stopping).setRegPhase regSoftStop).setActive s.regUsed).regRamp v 0

/-- A fault cause of the regulator arises (R254, R259): its bit in REG_FLT, the event, the fault frame. -/
def State.regCause (s : State) (c : Nat) : State :=
  (((s.setBit R.REG_FLT F.REG_FLT_CAUSE (c - 1)).setFlag R.REG_EVT F.REG_EVT_FAULT).updRg fun r =>
    { r with recorded := addCause r.recorded c, epoch := addCause r.epoch c }).sendFrame 6 0 c

/-- The regulator takes a fault cause (R254): FAULT at the next boundary; in FAULT it records the cause. -/
def State.regFail (s : State) (c : Nat) : State :=
  let st := s.ust U.reg
  if !st.live && st ≠ .fault then s
  else
    if st = .fault then s.regCause c else (s.regCause c).hwFault U.reg

/-- A start failure (R249): counted, HICCUP, and the third in a row is SHORT. -/
def State.regFailure (s : State) : State :=
  let n := s.fld R.REG_LIM F.REG_LIM_FAILS + 1
  let s1 := ((s.setFld R.REG_LIM F.REG_LIM_FAILS (min n 3)).setFlag R.REG_EVT F.REG_EVT_HICCUP).regFlag 4
  if 3 ≤ n then s1.regOff.regFail 2 else (s1.setRegPhase regHiccup).regOff

/-! ### Letters (Table LV-7) -/

def isReg (_ : State) (u : Nat) : Bool := u == U.reg

/-- REG_ARM (R253, R330). -/
def specRegArm : LetterSpec where
  units := isReg
  legal st := st = .idle
  used := []
  fails s _ := if s.safeHeld then [.eInterlock] else []
  run s _ _ := doneWith (s.setUst U.reg .armed)

/-- REG_RUN (R253): completes at the first entry to REGULATE. -/
def specRegRun : LetterSpec where
  units := isReg
  legal st := st = .armed
  used := []
  fails s _ := (if s.regVinNow < s.regVinMin then [.eInterlock] else []) ++ (if s.ldg.regulator ≤ 0 then [.eBudget] else [])
  opens _ _ := true
  run s _ _ := acceptedWith s.regRun

/-- REG_STOP (R250). -/
def specRegStop : LetterSpec where
  units := isReg
  legal st := st = .running
  used := []
  opens _ _ := true
  run s _ _ := acceptedWith s.regStop

/-- REG_DISARM (R253). -/
def specRegDisarm : LetterSpec where
  units := isReg
  legal st := st = .armed
  used := []
  run s _ _ := doneWith (s.setUst U.reg .idle)

/-- The ranges of R242 for V_SET, R_LL and MIN_PH. -/
def State.regSetOk (s : State) (v rll minPh : Nat) : Bool :=
  10500 ≤ v && v ≤ 15500 && v + 500 ≤ s.fld R.REG_PROT F.REG_PROT_OV && rll ≤ 500 && 1 ≤ minPh && minPh ≤ (phasesOf s.regUsed).length

/-- REG_SET takes effect (R250): in RUNNING V_SET moves by a ramp; in HICCUP it waits for the next start; disabling shedding
restores every used phase without a hold (R247). -/
def State.regSet (s : State) (v rll en minPh : Nat) : State :=
  if s.regPhase = regHiccup then s.updRg fun r => { r with next := some (v, rll, en, minPh) }
  else
    let was := s.flag R.REG_SHED F.REG_SHED_EN
    let vt := s.regVt
    let s1 := (s.regApply v rll en minPh).updRg fun r => { r with next := none }
    let s2 := if s.ust U.reg = .running then s1.regRamp (quant 0 vt) (1000 * (v : Int)) else s1
    if was ∧ en = 0 ∧ s.ust U.reg = .running then s2.regRestoreAll.updRg fun r => { r with shedHold := false } else s2

/-- REG_SET (Table LV-7). -/
def specRegSet : LetterSpec where
  units := isReg
  legal st := st = .idle || st = .armed || st = .running
  used := [(16, 21)]
  fails s m := (if m.u8 20 ≤ 1 then [] else [.eFormat]) ++ (if s.regSetOk (m.u16 16) (m.u16 18) (m.u8 21) then [] else [.eRange])
  run s m _ := doneWith (s.regSet (m.u16 16) (m.u16 18) (m.u8 20) (m.u8 21))

/-- A recorded cause persists (Table LV-8). -/
def State.regPersists (s : State) : Bool :=
  let has (c : Nat) : Bool := bitAt s.rgl.recorded (c - 1)
  (has 1 && decide (500 ≤ s.regVos)) || (has 3 && decide (s.regVinNow < s.regVinMin + 200))
    || (has 4 && s.rgl.bad &&& s.regUsed != 0) || (has 6 && s.safeHeld)

/-- REG_CLEAR (R253): IDLE, the crowbar latch is released, and with it the pattern. -/
def specRegClear : LetterSpec where
  units := isReg
  legal st := st = .fault
  used := []
  fails s _ := if s.regPersists || decide (500 ≤ s.regVos) then [.eInterlock] else []
  run s _ _ :=
    let s1 := (s.setUst U.reg .idle).updRg fun r => { r with recorded := 0 }
    doneWith (({ s1 with pads := { s1.pads with crowbar := false, barMask := 0 } }.setFld R.REG_LIM F.REG_LIM_FAILS 0).ssmHoldReg 0)

def execRegArm (m : Msg) (s : State) : Out := .next (deliver specRegArm s m)
def execRegRun (m : Msg) (s : State) : Out := .next (deliver specRegRun s m)
def execRegStop (m : Msg) (s : State) : Out := .next (deliver specRegStop s m)
def execRegDisarm (m : Msg) (s : State) : Out := .next (deliver specRegDisarm s m)
def execRegSet (m : Msg) (s : State) : Out := .next (deliver specRegSet s m)
def execRegClear (m : Msg) (s : State) : Out := .next (deliver specRegClear s m)

/-- The automatic start (Table LV-6): once per admission, at the first boundary with V_IN at VIN_MIN. -/
def State.regAuto (s : State) : State :=
  let asked := s.withImg false fun im => match im.unitRec 0x08 0 with | some r => bitAt (rf r 5 1) 0 | none => false
  if s.ust U.reg ≠ .off ∧ asked ∧ !s.rgl.auto ∧ s.regVinMin ≤ s.regVinNow then
    (if s.ust U.reg = .idle ∧ !s.faultPending U.reg then s.regRun else s).updRg fun r => { r with auto := true }
  else s

/-- REG_AUTO_RUN (R253). -/
def execRegAutoRun (s : State) : Out := .next (if s.atBoundary then s.regAuto else s)

/-! ### Events -/

/-- VOS with the injected ripple has fallen to V_TL, and the comparator is not blanked (R243). -/
def State.regTrips (s : State) : Bool :=
  s.regPulses && decide ((s.regVos : Rat) * 1000 + s.regRipple ≤ s.regVtl)
    && (match s.rgl.tripAt with | some t => decide (t + 20 ≤ s.time) | none => true)

/-- REG_COMPARATOR_TRIP (R243, R246): the output has fallen to V_TL: a pulse starts on the next free phase, or the trip waits. -/
def execRegComparatorTrip (m : RegIn) (s : State) : Out :=
  .next <|
    let s1 := s.regSense m
    if !s1.regTrips then s1 else (s1.updRg fun r => { r with waiting := true, tripAt := some s.time }).regTryPulse

/-- REG_ON_TIME_END (R244, R246): BPn goes low and T_OFFMIN runs; a pulse that ends early at 1.25 × the limit is a current-limit
event. -/
def execRegOnTimeEnd (n : Nat) (m : RegIn) (s : State) : Out :=
  .next <|
    let s1 := s.regSense m
    if !bitAt s1.rgl.onMask n then s1
    else
      let s2 := s1.updRg fun r =>
        { r with onMask := r.onMask - 2 ^ n, offUntil := FMap.set (fun _ => 0) r.offUntil n (s.time + 10 * s.fld R.REG_CFG F.REG_CFG_TOFFMIN) }
      let lim := (s2.setFlag R.REG_EVT F.REG_EVT_LIMIT).regFlag 1
      let s3 := if (s2.regCur n : Rat) < 5 / 4 * s2.regLimit then s2 else if bitAt lim.regActive n then lim.regRestore else lim
      s3.regTryPulse

/-- REG_BALANCE (R245): every 10 µs in phase REGULATE, on each phase's mean current over the last 10 µs. -/
def execRegBalance (m : RegIn) (s : State) : Out :=
  .next <|
    let s1 := s.regSense m
    let act := phasesOf s1.regActive
    let cur (n : Nat) : Rat := s1.regMean n
    let a : Rat := (act.map cur).foldl (· + ·) 0 / ((max 1 act.length : Nat) : Rat)
    if s1.regPhase ≠ regRegulate then s1
    else
      let s2 := s1.updRg fun r => { r with balAt := s.time }
      let s3 := if a < 50 then s2 else s2.each act fun s n =>
        let t : Rat := (s.sfld (R.REG_PHn n) F.REG_PHn_TRIM : Rat) / 4096
        s.setSfld (R.REG_PHn n) F.REG_PHn_TRIM (quant 12 (clampQ (-1 / 8) (1 / 8) (t + (a - cur n) / (64 * a))))
      s3.regTryPulse

/-- I_OUT ÷ (active count) in 0.1 A. -/
def State.regShare (s : State) : Rat := (s.regIout : Rat) / ((max 1 (phasesOf s.regActive).length : Nat) : Rat)

/-- REG_SHED (R247): the share has been below SHED_I throughout SHED_T, with more than MIN_PH phases active: the highest one is
shed. -/
def execRegShed (m : RegIn) (s : State) : Out :=
  .next <|
    let s1 := s.regSense m
    let act := phasesOf s1.regActive
    if s1.regSheds ∧ s1.fld R.REG_SHED F.REG_SHED_MINPH < act.length ∧ s1.regShare < 10 * (s1.fld R.REG_SHEDCFG F.REG_SHEDCFG_SHEDI : Rat) then
      s1.regOp 1 fun s => (s.setActive (s.regActive - 2 ^ act.getLastD 0)).setFlag R.REG_EVT F.REG_EVT_SHED
    else s1

/-- REG_ADD (R247): the share has been above ADD_I for 20 µs: the lowest inactive used phase is added. -/
def execRegAdd (m : RegIn) (s : State) : Out :=
  .next <|
    let s1 := s.regSense m
    if s1.regSheds ∧ 10 * (s1.fld R.REG_SHEDCFG F.REG_SHEDCFG_ADDI : Rat) < s1.regShare then
      match (phasesOf s1.regUsed).find? fun n => !bitAt s1.regActive n with
      | none => s1
      | some _ => s1.regOp 2 fun s =>
        match (phasesOf s.regUsed).find? fun n => !bitAt s.regActive n with
        | none => s
        | some n => ((s.setActive (s.regActive + 2 ^ n)).setFlag R.REG_EVT F.REG_EVT_ADD).regTryPulse
    else s1

/-- REG_RESTORE (R247): VOS has been below 0.98 × V_TL for 20 ns, or an active phase had a current-limit event. -/
def execRegRestore (m : RegIn) (s : State) : Out :=
  .next <|
    let s1 := s.regSense m
    if (s1.regVos : Rat) * 1000 < 98 / 100 * s1.regVtl then s1.regRestore else s1

/-- SHED_PHASE_HIGH_IMPEDANCE (R247): the current of a shed phase has reached 0 A: BPn goes from low to high impedance. -/
def execShedPhaseHighImpedance (n : Nat) (s : State) : Out :=
  .next <|
    if bitAt s.regUsed n ∧ !bitAt s.regActive n ∧ !bitAt s.rgl.onMask n ∧ !bitAt s.rgl.hiz n then s.updRg fun r => { r with hiz := r.hiz + 2 ^ n }
    else s

/-- REG_SHED_HOLD_END (R247): SHED_HOLD has passed since the latest restoration. -/
def execRegShedHoldEnd (s : State) : Out := .next (s.updRg fun r => { r with shedHold := false })

/-- REG_START_TEST (R248, R249): SS_TIME + SS_MARGIN after the start; REGULATE completes an outstanding REG_RUN. -/
def execRegStartTest (m : RegIn) (s : State) : Out :=
  .next <|
    let s1 := s.regSense m
    if s1.regPhase ≠ regSoftStart then s1
    else if s1.vSet ≤ 2 * s1.regVos then (s1.setRegPhase regRegulate).finishOp U.reg 0x0602 .done []
    else s1.regFailure

/-- REG_UNDERVOLTAGE_FAILURE (R249): in REGULATE, VOS has been below 0.5 × V_TL for SS_MARGIN. -/
def execRegUndervoltageFailure (m : RegIn) (s : State) : Out :=
  .next <|
    let s1 := s.regSense m
    if s1.regPhase = regRegulate ∧ (s1.regVos : Rat) * 2000 < s1.regVtl then s1.regFailure else s1

/-- REG_HICCUP_END (R249): HICCUP has passed, and a new start follows. -/
def execRegHiccupEnd (m : RegIn) (s : State) : Out :=
  .next <|
    let s1 := s.regSense m
    if s1.regPhase = regHiccup then s1.regStart else s1

/-- REG_FAIL_COUNT_RESET (R249): 100 ms in REGULATE without a failure. -/
def execRegFailCountReset (s : State) : Out :=
  .next (if s.regPhase = regRegulate then s.setFld R.REG_LIM F.REG_LIM_FAILS 0 else s)

/-- REG_SOFTSTOP_END (R250): the ramp has reached 0: every BPn at high impedance, ARMED at the next boundary. -/
def execRegSoftstopEnd (s : State) : Out :=
  .next (if s.regPhase = regSoftStop ∧ s.regVt = 0 ∧ s.ust U.reg = .stopping then
    (((s.regOff.setRegPhase 0).hwMove U.reg [.stopping] .armed).finishOp U.reg 0x0603 .done []).finishOp U.reg 0x0602 .eAborted []
  else s)

/-- REG_CROWBAR (R251): VOS has been above REG_OV for 200 ns: the crowbar latch is set and every used BPn is low. -/
def execRegCrowbar (m : RegIn) (s : State) : Out :=
  .next <|
    let s1 := s.regSense m
    if s1.ust U.reg = .off ∨ s1.regVos ≤ s1.fld R.REG_PROT F.REG_PROT_OV then s1
    else
      let s2 := { s1 with pads := { s1.pads with crowbar := true, barMask := s1.pads.barMask ||| s1.regUsed } }
      (((s2.regOff).setFlag R.REG_EVT F.REG_EVT_OV).regFlag 5).regFail 1

/-- REG_FAULT_DETECT (R254): a cause has held for its time: 3 VIN_UV, 4 ISENSE with the mask of the inputs outside their range (a
mask of 0: all are back), 5 SENSE with a local-output channel. -/
def execRegFaultDetect (cause bad : Nat) (s : State) : Out :=
  .next <|
    let st := s.ust U.reg
    let s1 := if cause = 4 then s.updRg fun r => { r with bad := bad } else s
    let apart := 1000 < absI ((s.regVos : Int) - s.rgl.localMv)
    if cause = 3 ∧ (st = .running ∨ st = .stopping) ∧ s.regVinNow < s.regVinMin then s1.regFail 3
    else if cause = 4 ∧ bad &&& s.regUsed ≠ 0 then s1.regFail 4
    else if cause = 5 ∧ st = .running ∧ 0 ≤ s.thr 0x0611 0xFF (-1) ∧ apart then s1.regFail 5
    else s1

/-- A round result of the V_IN or the local-output channel reaches the regulator; its scale is the implementation's. -/
def State.regRound (s : State) (ch : Nat) (v : Int) : State :=
  let s1 := if s.thr 0x0610 0xFF (-1) = (ch : Int) then s.setFld R.REG_VIN F.REG_VIN_VIN (Config.regVin v).toNat else s
  if s.thr 0x0611 0xFF (-1) = (ch : Int) then s1.updRg fun r => { r with localMv := ((Config.regLocal v).toNat : Int) } else s1

/-- The regulator enters FAULT (R252): REG_OFF in every cause but OV, no phase. -/
def State.regEnterFault (s : State) : State := (s.regOff.setRegPhase 0).setUst U.reg .fault

end Sys2Proof.Machine
end

