-- ==== Sys2Proof/Machine/Charger.lean ====
section
/-!
DEFINITION. The charger's commands (08): letters, pilot and proximity, contactors, phases, the input current search, timers,
ends and faults, transport.
Choices of the model: log 50, 51, 54, 55, 60.
-/
namespace Sys2Proof.Machine

/-! ### The charger's functions and engines (R207, R209) -/

/-- Make the WIND loops of the session's engines the active ones, or the first ones again (R49, R209). -/
def State.windSwitch (s : State) (on : Bool) : State :=
  s.each (s.withImg [] fun im => im.windEngines s.chgDab) fun s n =>
    (s.setFld (R.FEn_STATE n) F.FEn_STATE_SECOND (b2n on)).setFld (R.FEn_STATE n) F.FEn_STATE_TEMPLATE
      (if on then 4 else s.fld (R.FEn_LOOPCFG n) F.FEn_LOOPCFG_TEMPLATE)

/-- What the front end's engines do in the charger's state and phase (Table CHG-2). -/
def State.frontState (s : State) : UState :=
  match s.ust U.chg with
  | .running => if s.chgPhase ≤ 3 then .armed else if s.chg.hard then .stopping else .running
  | .stopping => if s.chg.hard then .stopping else .running
  | x => x

/-- What the DAB's engine does. -/
def State.dabState (s : State) : UState :=
  match s.ust U.chg with
  | .running => if s.chgPhase = 9 then .stopping else .running
  | x => x

/-- The AFE and DAB functions take the charger's state of record at the same boundary (R207). -/
def State.chgFunctions (s : State) : State :=
  s.each ((if s.chgAfe < 16 then [s.chgAfe] else []) ++ (if s.chgDab < 16 then [s.chgDab] else [])) fun s f => s.setUst (U.fn f) (s.ust U.chg)

/-- At a boundary: the AFE and DAB functions take the charger's state, their engines follow the phase, and the engines of a WIND
loop follow it while a WIND session is RUNNING or STOPPING (R207, R209); after a rotor-watch stop or a lost gearbox report they stand in
ARMED until the charger is cleared (R117, R216). -/
def State.chgBoundary (s : State) : State :=
  let st := s.ust U.chg
  if st = .off ∨ st = .absent then s
  else
    let wind := s.windLive
    let stopped := st = .fault ∧ (bitAt s.chg.recorded 7 || bitAt s.chg.recorded 8)
    let s1 := s.chgFunctions
    let s2 := if s1.chgAfe < 16 then
        let x := if s1.chgIsWind ∧ (st = .running ∨ st = .stopping) then .armed else s1.frontState
        s1.enginesEnter s1.chgAfe x
      else s1
    let s3 := if s2.chgDab < 16 then s2.enginesEnter s2.chgDab s2.dabState else s2
    let second := s3.flag (R.FEn_STATE (((s3.withImg [] fun im => im.windEngines s3.chgDab)).headD 0)) F.FEn_STATE_SECOND
    if wind then
      let s4 := if second then s3 else s3.windSwitch true
      let s5 := s4.each s4.frontEngines fun s n => s.engineEnter n s.frontState
      if s5.frontState = .running ∨ s5.frontState = .stopping then s5 else s5.fnOff s5.chgWind
    else if second ∧ stopped then
      (s3.each (s3.withImg [] fun im => im.windEngines s3.chgDab) fun s n =>
        if s.ust (U.fe n) = .fault then s else s.engineEnter n .armed).fnOff s3.chgWind
    else if second then
      let s4 := s3.each (s3.withImg [] fun im => im.windEngines s3.chgDab) fun s n =>
        if s.ust (U.fe n) = .fault then s else s.engineEnter n .idle
      (s4.fnOff s4.chgWind).windSwitch false
    else s3

/-! ### Letters (Table CHG-9) -/

def isChg (_ : State) (u : Nat) : Bool := u == U.chg

/-- CHG_ARM (R208, R229): a cable is present; the conditions of R140 hold off the functions' legs. -/
def specChgArm : LetterSpec where
  units := isChg
  legal st := st = .idle
  used := []
  fails s _ := if !s.cablePresent || s.safeHeld || s.armBlocked s.chgDab || (s.chgAfe < 16 && s.armBlocked s.chgAfe) then [.eInterlock] else []
  run s _ _ := doneWith (s.setUst U.chg .armed).chgBoundary

/-- A pilot class that ends or refuses a session: A, E, F (R225). -/
def endClass (c : Nat) : Bool := c == 0 || c == 4 || c == 5

/-- The battery temperature is known and inside the window (R221). -/
def State.tempOk (s : State) : Bool :=
  s.chg.tempKnown && decide ((s.chg.tMax : Rat) ≤ 10 * s.cth 0x050E 55) && decide (10 * s.cth 0x050D 0 ≤ (s.chg.tMin : Rat))

/-- The gearbox reports the park lock engaged and the clutch open. -/
def State.gearOk (s : State) : Bool := s.fld R.GBX_STATE F.GBX_STATE_PARK == 1 && s.fld R.GBX_STATE F.GBX_STATE_CLUTCH == 1

/-- The conditions of R215. -/
def State.windOk (s : State) : Bool :=
  let f := s.chgWind
  let src := s.posSource (s.fnEngine f)
  let rpm : Rat := (absI (s.sfld (R.POSk_SPD src) ⟨31, 0⟩) : Rat) * 60000000 / 4294967296
  s.gearOk && s.ust (U.fn f) == .idle && s.srcValid f && decide (rpm ≤ s.cth 0x051A 10)
    && (s.functions.all fun g => !(s.fnRole g == 1 && g != f && s.linkOf g == s.linkOf f) || !(s.ust (U.fn g)).active)
    && s.chg.bOpen

/-- The values of a CHG_START are in their ranges (Table CHG-9, R217, R231). -/
def State.startRanges (s : State) (m : Msg) : Bool :=
  let mode := m.u8 16
  let front := m.u8 17
  mode ≤ 2 && front ≤ 1 && m.u8 18 ≤ 2
    && decide ((m.u32 24 : Rat) * 10 ≤ 65536 * s.cth 0x050A 800)
    && (mode == 0 || (1 ≤ m.u32 36 && m.u32 36 ≤ 11000))
    && (mode != 2 || (200 ≤ m.u16 40 && m.u16 40 ≤ 240 && (m.u8 42 == 50 || m.u8 42 == 60)))
    && (if front = 0 then decide (s.chgAfe < 16) else decide (s.chgWind < 16))
    && !(front == 1 && mode != 0)

/-- The interlocks of a CHG_START (R217, R219, R223 to R225, R229). -/
def State.startBlocked (s : State) (m : Msg) : Bool :=
  let mode := m.u8 16
  let v2 := s.chgV2
  let quiet := match s.chg.quietAt with | some t => decide (t + 100000000 ≤ s.time) | none => false
  endClass s.pilotClass || s.pilotClass == 6
    || decide (v2 < s.cth 0x0506 200) || decide (s.cth 0x0507 1000 < v2)
    || (m.u8 17 == 1 && !s.windOk)
    || (mode == 0 && (s.pilotCur == 0 || s.pilotCur == 0xFF) && s.chg.lIn.isNone)
    || (mode == 1 && !(s.flag R.CHG_CFG F.CHG_CFG_FEED && m.u8 17 == 0 && s.pilotClass == 2 && s.pilotCur == 0xFF
        && decide (0 < s.chg.lDis.getD 0)))
    || (mode == 2 && !(s.flag R.CHG_CFG F.CHG_CFG_ISLAND && m.u8 17 == 0 && s.cablePresent && !s.pilotOsc && quiet))

/-- CHG_START (R209, R220, R226): a new session; with DRIVE_EN low it faults at once (cause 15, Table CHG-7). -/
def specChgStart : LetterSpec where
  units := isChg
  legal st := st = .armed
  used := [(16, 18), (20, 42)]
  fails s m :=
    (if s.startRanges m then [] else [.eRange]) ++ (if s.tempOk then [] else [.eTemp]) ++
    (if s.startBlocked m then [.eInterlock] else []) ++
    (if (if m.u8 16 = 0 then s.ldg.charger else s.ldg.chargerDis) ≤ 0 then [.eBudget] else [])
  opens _ _ := true
  run s m _ :=
    let mode := m.u8 16
    let s1 := ((s.setUst U.chg .running).chgFunctions.setFld R.CHG_STATE F.CHG_STATE_MODE mode).setFld R.CHG_STATE F.CHG_STATE_FRONT (m.u8 17 + 1)
    let s2 := s1.updCh fun c => { c with
      three := m.u8 18 = 1, phSel := m.u8 18, target := (m.u32 20 : Nat), outLim := (m.u32 24 : Nat), inLim := (m.u32 28 : Nat),
      term := (m.u32 32 : Nat), power := (m.u32 36 : Nat), islV := (m.u16 40 : Nat), islF := (m.u8 42 : Nat), search := 0,
      started := s.time, ended := 0, ccNs := 0, termAt := none, energy := 0, reason := 0, hard := false, rises := 0, lower := 0,
      v2prev := (s.chgV2 * 65536).floor, last := s.time }
    let s3 := (s2.setReg R.CHG_TIME 0).showLimit.chgSetPhase (if mode = 2 then 8 else 1)
    acceptedWith (if s3.driveEn then s3 else s3.chgFail 15)

/-- CHG_STOP (R225, R226). -/
def specChgStop : LetterSpec where
  units := isChg
  legal st := st = .running
  used := []
  opens _ _ := true
  run s _ _ := acceptedWith (s.chgEnd 1)

/-- CHG_DISARM (R208). -/
def specChgDisarm : LetterSpec where
  units := isChg
  legal st := st = .armed
  used := []
  run s _ _ := doneWith (s.setUst U.chg .idle).chgBoundary

/-- A field of CHG_LIMIT: 0xFFFF_FFFF leaves the limit unset. -/
def unsetOr (v : Nat) : Option Int := if v = 0xFFFFFFFF then none else some (v : Int)

/-- CHG_LIMIT (R213, R229). -/
def specChgLimit : LetterSpec where
  units := isChg
  legal st := st = .idle || st = .armed || st = .running || st = .stopping
  used := [(16, 35)]
  fails s m := match unsetOr (m.u32 20) with
    | some i => if 65536 * s.cth 0x050A 800 < 10 * (i : Rat) then [.eRange] else []
    | none => []
  run s m _ :=
    let before := s.otherLimit
    let s1 := s.updCh fun c => { c with
      lV2 := unsetOr (m.u32 16), lOut := unsetOr (m.u32 20), lIn := unsetOr (m.u32 24), lDis := unsetOr (m.u32 28),
      lReact := if m.u32 32 = 0xFFFFFFFF then none else some (m.i32 32) }
    doneWith (s1.limitsChanged before)

/-- CHG_BMS (R221): the battery's report; a RUNNING session whose temperature leaves the window ends with reason 5. -/
def specChgBms : LetterSpec where
  units := isChg
  legal st := st = .idle || st = .armed || st = .running || st = .stopping || st = .fault
  used := [(16, 32)]
  fails _ m := if m.u8 32 ≤ 1 then [] else [.eFormat]
  run s m _ :=
    let s1 := s.updCh fun c => { c with
      tMax := m.i16 16, tMin := m.i16 18, bChg := (m.u32 20 : Nat), bDis := (m.u32 24 : Nat), bVmax := (m.u32 28 : Nat),
      bOpen := m.u8 32 = 1, tempKnown := true }
    doneWith (if s1.ust U.chg = .running ∧ !s1.tempOk then s1.chgEnd 5 else s1)

/-- The legs of the charger's functions and of its WIND session. -/
def State.chgLegs (s : State) : List Nat :=
  ((if s.chgAfe < 16 then [s.chgAfe] else []) ++ (if s.chgDab < 16 then [s.chgDab] else [])
    ++ (if s.chgIsWind then [s.chgWind] else [])).flatMap s.fnLegs

/-- A recorded cause persists (Table CHG-7). -/
def State.chgPersists (s : State) : Bool :=
  let has (c : Nat) : Bool := bitAt s.chg.recorded (c - 1)
  (has 1 && s.chgLegs.any fun n => s.latchOf n != 0)
    || (has 2 && (s.frontEngines ++ [s.chgDabN]).any s.feCausePersists)
    || (has 4 && decide (s.chgV2 < s.cth 0x0506 200)) || (has 5 && decide (s.cth 0x0507 1000 < s.chgV2))
    || (has 6 && decide (s.cth 0x0505 1000 < s.chgBus)) || (has 9 && !s.gearOk)
    || (has 10 && s.chg.acFb != s.chg.acCmd) || (has 11 && s.pilotClass == 7) || (has 15 && !s.driveEn) || (has 16 && s.safeHeld)

/-- CHG_CLEAR (R228): the charger, its functions and its engines return to IDLE. -/
def specChgClear : LetterSpec where
  units := isChg
  legal st := st = .fault
  used := []
  fails s _ :=
    if s.fld R.CHG_FLT F.CHG_FLT_CAUSE ≠ 0 || s.chgPersists || (s.chgLegs.any fun n => s.latchOf n != 0 || !s.gfHigh n)
    then [.eInterlock] else []
  run s _ _ :=
    let fs := (if s.chgAfe < 16 then [s.chgAfe] else []) ++ (if s.chgDab < 16 then [s.chgDab] else [])
      ++ (if s.chgIsWind ∧ s.ust (U.fn s.chgWind) ≠ .fault then [s.chgWind] else [])
    let es := (s.frontEngines ++ [s.chgDabN]).filter fun n => s.ust (U.fe n) = .fault
    let s1 := (s.each es fun s n => (s.feClear n).setUst (U.fe n) .idle).setUst U.chg .idle
    let s2 := (s1.updCh fun c => { c with recorded := 0, hard := false }).setFld R.CHG_STATE F.CHG_STATE_FRONT 0
    doneWith ((s2.chgBoundary).each fs State.ssmFreeFn)

def execChgArm (m : Msg) (s : State) : Out := .next (deliver specChgArm s m)
def execChgStart (m : Msg) (s : State) : Out := .next (deliver specChgStart s m)
def execChgStop (m : Msg) (s : State) : Out := .next (deliver specChgStop s m)
def execChgDisarm (m : Msg) (s : State) : Out := .next (deliver specChgDisarm s m)
def execChgLimit (m : Msg) (s : State) : Out := .next (deliver specChgLimit s m)
def execChgBms (m : Msg) (s : State) : Out := .next (deliver specChgBms s m)
def execChgClear (m : Msg) (s : State) : Out := .next (deliver specChgClear s m)

/-! ### Pilot and proximity (R210 to R212) -/

/-- The pilot in the session's way (R225, R226): class A, E or F is a hard stop with reason 4; no oscillation or a duty without
current ends a session that draws by the pilot with reason 3. -/
def State.pilotCheck (s : State) : State :=
  let st := s.ust U.chg
  if st ≠ .running ∧ st ≠ .stopping then s
  else if endClass s.pilotClass then s.chgEndHard 4
  else if s.chgMode ≠ 2 ∧ s.pilotClass < 6 ∧ s.pilotCur = 0 then s.chgEnd 3 else s

/-- A period is that of a PWM between 980 Hz and 1,020 Hz (R210). -/
def pilotPwm (p : PilotPer) : Bool := 980 * p.len ≤ 10000000 && 10000000 ≤ 1020 * p.len

/-- The class of a level in mV, by Table CHG-3: classes E and F stand for steady levels only. -/
def levelClass (osc : Bool) (v : Int) : Nat :=
  if 11000 ≤ v ∧ v ≤ 13000 then 0 else if 8000 ≤ v ∧ v ≤ 10000 then 1 else if 5000 ≤ v ∧ v ≤ 7000 then 2
  else if 2000 ≤ v ∧ v ≤ 4000 then 3 else if !osc ∧ -1000 ≤ v ∧ v ≤ 1000 then 4 else if !osc ∧ -13000 ≤ v ∧ v ≤ -11000 then 5 else 6

/-- The class of one oscillating period: a negative plateau above −11.0 V is a diode fault. -/
def pilotPerClass (p : PilotPer) : Nat := if -11000 < p.neg then 7 else levelClass true p.pos

/-- The line oscillates: its latest period is that of a PWM in the band. -/
def pilotRuns (p : PilotIn) : Bool := match p.periods with | x :: _ => pilotPwm x | [] => false
/-- The class of the latest period, or of the steady level. -/
def pilotLevel (p : PilotIn) : Nat :=
  match p.periods with
  | x :: _ => if pilotPwm x then pilotPerClass x else levelClass false p.level
  | [] => levelClass false p.level
/-- The class has held: for three PWM periods in a row, or for 3 ms without oscillation (R210). -/
def pilotAccepted (p : PilotIn) : Bool :=
  if pilotRuns p then 3 ≤ p.periods.length && (p.periods.take 3).all fun x => pilotPwm x && pilotPerClass x == pilotLevel p else 3000000 ≤ p.held
/-- The duty, averaged over the last 8 periods, as their high time and their length; 0 without oscillation (log 206). -/
def pilotMean (p : PilotIn) : Nat × Nat :=
  let l := p.periods.take 8
  if pilotRuns p then ((l.map PilotPer.high).foldl (· + ·) 0, (l.map PilotPer.len).foldl (· + ·) 0) else (0, 1)
/-- CHG_PILOT.DUTY: that duty in 0.1 %. -/
def pilotDuty (p : PilotIn) : Nat := (pilotMean p).1 * 1000 / max 1 (pilotMean p).2

/-- PILOT_CLASS_ACCEPTED (R210, R211): what the detector has measured; a class that has not held long enough changes nothing. -/
def execPilotClassAccepted (periods : List PilotPer) (level : Int) (held : Nat) (s : State) : Out :=
  .next <|
    let p : PilotIn := ⟨periods, level, held⟩
    if s.ust U.chg = .absent ∨ !pilotAccepted p then s
    else
      let cls := pilotLevel p
      let osc := pilotRuns p
      let duty := pilotDuty p
      let cur := pilotCurrent osc (pilotMean p)
      let before := s.otherLimit
      let changed := s.pilotClass ≠ cls ∨ s.pilotCur ≠ cur
      let s1 := ((((s.setFld R.CHG_PILOT F.CHG_PILOT_CLASS cls).setFld R.CHG_PILOT F.CHG_PILOT_OSC (b2n osc)).setFld
        R.CHG_PILOT F.CHG_PILOT_DUTY (min duty 1000)).setFld R.CHG_PILOT F.CHG_PILOT_ICUR cur).updCh fun c => { c with duty := pilotMean p }
      let s2 := if changed then s1.setFlag R.CHG_EVT F.CHG_EVT_PILOT else s1
      (s2.limitsChanged before).pilotCheck

/-- The proximity code of a resistance to ground in Ω (Table CHG-5). -/
def ppDecode (r : Nat) : Nat :=
  if 4500 < r then 0 else if 1100 ≤ r ∧ r ≤ 2460 then 1 else if 400 ≤ r ∧ r ≤ 936 then 2 else if 164 ≤ r ∧ r ≤ 308 then 3
  else if 80 ≤ r ∧ r ≤ 140 then 4 else 7

/-- PROXIMITY_CODE_ACCEPTED (R212): the resistance on PP_IN has kept its code; a removed cable takes an ARMED charger to IDLE and ends a
session by a hard stop. -/
def execProximityCodeAccepted (ohms : Nat) (s : State) : Out :=
  .next <|
    if s.ust U.chg = .absent then s
    else
      let code := ppDecode ohms
      let before := s.otherLimit
      let s1 := s.setFld R.CHG_PILOT F.CHG_PILOT_PP code
      let s2 := if s.ppCode ≠ code then s1.setFlag R.CHG_EVT F.CHG_EVT_PLUG else s1
      let s3 := s2.limitsChanged before
      if s3.cablePresent then s3
      else match s3.ust U.chg with
        | .armed => s3.hwMove U.chg [.armed] .idle
        | .running => s3.chgEndHard 4
        | .stopping => s3.chgEndHard 4
        | _ => s3

/-- INVALID_PILOT_TIMEOUT (R225): an invalid pilot held for 100 ms. -/
def execInvalidPilotTimeout (s : State) : Out :=
  .next (if s.pilotClass = 6 ∧ (s.ust U.chg = .running ∨ s.ust U.chg = .stopping) then s.chgEndHard 4 else s)

/-- PILOT_DIODE_FAULT (R227): a diode fault held for 100 ms while RUNNING. -/
def execPilotDiodeFault (s : State) : Out :=
  .next (if s.pilotClass = 7 ∧ s.ust U.chg = .running then s.chgFail 11 else s)

/-! ### Contactors and phases (R209, R225) -/

/-- CONTACTOR_FEEDBACK_CHANGE: the feedback that closes in CONNECT closes CP_S2 and leads to AWAIT_GRID. -/
def execContactorFeedbackChange (closed : Bool) (s : State) : Out :=
  .next <|
    if s.ust U.chg = .absent then s
    else
      let s1 := s.updCh fun c => { c with acFb := closed }
      if s1.chgPhase = 2 ∧ closed ∧ s1.chg.acCmd ∧ s1.ust U.chg = .running then (s1.updCh fun c => { c with cpS2 := true }).chgSetPhase 3 else s1

/-- PRECHARGE_TIMEOUT (Table CHG-2). -/
def execPrechargeTimeout (s : State) : Out := .next (if s.chgPhase = 1 ∧ !s.chg.hard then s.chgFail 7 else s)

/-- CONTACTOR_TIMEOUT (Table CHG-2, R225): the feedback has disagreed with the command for AC_TIME. -/
def execContactorTimeout (s : State) : Out := .next (if s.chg.acCmd ≠ s.chg.acFb then s.chgFail 10 else s)

/-- Take in grid measurements; the time since when every phase reads below 20 V. -/
def State.gridSense (s : State) (g : GridIn) : State :=
  s.updCh fun c => { c with grid := g.u, gridI := g.i,
                            quietAt := if g.u.all (fun x => decide (x < 20 * 65536)) then some (c.quietAt.getD s.time) else none }

/-- The front end's engine is outside the PLL's lock range. -/
def State.gridLost (s : State) : Bool :=
  s.frontEngines.any fun n => !(decide (45 * 65536 ≤ (s.e n).pllHz) && decide ((s.e n).pllHz ≤ 65 * 65536))

/-- GRID_READY (R209): the grid has been above 0.5 × U_NOM on each phase in use, with GRID clear, for 100 ms: U0, the phases in use,
and SEARCH at 6 A or FEED. -/
def execGridReady (g : GridIn) (s : State) : Out :=
  .next <|
    let s1 := s.gridSense g
    let half := s.cth 0x051B 230 * 32768
    let above (l : List Int) : Bool := l.all fun x => decide (half < (x : Rat))
    let three := if s.chg.phSel = 0 then decide (3 ≤ g.u.length) && above (g.u.take 3) else s.chg.phSel == 1
    let used := g.u.take (if three then 3 else 1)
    if s1.chgPhase ≠ 3 ∨ s1.ust U.chg ≠ .running ∨ s1.chg.hard ∨ used.isEmpty ∨ !above used ∨ s1.gridLost then s1
    else
      let nominal := if 55 * 65536 ≤ (s1.e (s1.frontEngines.headD 8)).pllHz then 60 else 50
      let s2 := s1.updCh fun c =>
        { c with three := three, u0 := used.foldl (· + ·) 0 / ((used.length : Nat) : Int), clampNow := 0, binds := false, nominal := nominal }
      if s2.chgMode = 1 then s2.chgSetPhase 7 else (s2.searchStart (6 * 65536)).chgSetPhase 4

/-- GRID_WAIT_TIMEOUT (Table CHG-2). -/
def execGridWaitTimeout (s : State) : Out := .next (if s.chgPhase = 3 then s.chgEnd 3 else s)

/-- SEARCH_STEP (R214): after a hold of 200 ms, on the mean grid voltage and the grid current of the last 50 ms. -/
def execSearchStep (g : GridIn) (s : State) : Out :=
  .next <|
    let s1 := s.gridSense g
    let i := s1.chg.search
    let back := maxI (i - 65536) (6 * 65536)
    if !s1.searching then s1
    else if 100 * s1.gridVolts * 65536 < 94 * (s1.chg.u0 : Rat) then s1.searchEnd back
    else if g.i < i - 65536 then s1.searchEnd back
    else if s1.otherLimit ≤ i then s1.searchEnd i
    else (s1.updCh fun c => { c with search := i + 32768 }).showLimit

/-- SEARCH_REPEAT (R214): ten minutes after the end of the last search, in CC. -/
def execSearchRepeat (s : State) : Out :=
  .next (if s.chgPhase = 5 ∧ !s.searching then s.searchStart s.inLimit.1 else s)

/-- BUS_REGULATION_TICK (R209, R213): every 10 µs: the input clamp follows the limit in force, at once upwards and on its ramp
downwards, and the DAB's I2 reference is lowered by the bus error below BUS_V − 10 V. -/
def execBusRegulationTick (g : GridIn) (s : State) : Out :=
  .next <|
    if s.ust U.chg = .absent then s
    else
      let s1 := s.gridSense g
      let lim := s1.inLimit.1
      let down := s1.chg.clampNow - (21 + (Config.inRamp.toNat : Int))
      let clamp := if s1.chg.clampNow ≤ lim then lim else maxI lim down
      let err := s1.cth 0x0501 760 - 10 - s1.chgBus
      let low := if s1.chg.binds ∧ 0 < err ∧ (s1.chgPhase = 4 ∨ s1.chgPhase = 5 ∨ s1.chgPhase = 7) then (err * (Config.busGain.toNat : Rat)).floor else 0
      let s2 := s1.updCh fun c => { c with clampNow := clamp, lower := low }
      let s4 := if s2.chgFactor < 1 then s2.chgFlag 1 else s2
      let s5 := if s4.chg.tempKnown then s4 else s4.chgFlag 2
      if s5.gridLost then s5.chgFlag 3 else s5

/-- TERMINATION (Table CHG-2): I2 has been below the termination current for TERM_TIME in CV. -/
def execTermination (s : State) : Out :=
  .next (if s.chgPhase = 6 ∧ s.chgI2 * 65536 < (s.chg.term : Rat) then s.chgEnd 2 else s)

/-- CC_TIMER_EXPIRY (R220); termination that has ended the session governs. -/
def execCcTimerExpiry (s : State) : Out :=
  .next (if (s.chgPhase = 4 ∨ s.chgPhase = 5) ∧ s.chg.reason = 0 then s.chgFail 12 else s)

/-- I2 has been below the termination current for TERM_TIME in CV (Table CHG-2). -/
def State.terminated (s : State) : Bool :=
  s.chgPhase == 6 && match s.chg.termAt with | some t => decide ((t : Rat) + 1000000000 * s.cth 0x0512 60 ≤ (s.time : Rat)) | none => false

/-- SESSION_CAP_EXPIRY (R220): where termination has been reached by then, it governs (log 205). -/
def execSessionCapExpiry (s : State) : Out :=
  .next (if s.chgPhase = 0 ∨ s.chg.reason ≠ 0 then s else if s.terminated then s.chgEnd 2 else s.chgFail 13)

/-- BMS_TEMPERATURE_EXPIRY (R221): the battery temperature becomes unknown. -/
def execBmsTemperatureExpiry (s : State) : Out :=
  .next <|
    let s1 := s.updCh fun c => { c with tempKnown := false }
    if s1.ust U.chg = .running then s1.chgEnd 5 else s1

/-- OUTPUT_FAULT (R219): 4 BATT_SHORT, 5 OUT_OV, 6 BUS_OV, on the DAB's last sample. -/
def execOutputFault (cause : Nat) (s : State) : Out :=
  .next <|
    let i := if s.chgI2 < 0 then -s.chgI2 else s.chgI2
    let holds := if cause = 4 then decide (s.chgV2 < s.cth 0x0506 200) && decide (s.cth 0x0509 20 / 10 ≤ i)
      else if cause = 5 then decide (102 / 100 * s.cth 0x0507 1000 < s.chgV2)
      else if cause = 6 then decide (s.cth 0x0505 1000 < s.chgBus) else false
    if holds ∧ (s.ust U.chg).live then s.chgFail cause else s

/-- The nominal grid frequency in Hz: of the measured grid mode once SEARCH or FEED has begun (R229), before that of the front end's loop
(Table FE-10). DESIGN CHOICE (log 236): the measured mode is the one whose nominal frequency is nearer. -/
def State.gridNominal (s : State) : Nat :=
  match s.chg.nominal, s.frontEngines with
  | 0, [] => 50
  | k + 1, _ => k + 1
  | 0, n :: _ => if rf (s.loopRec n) (if s.tmpl n = 4 then 29 else 26) 1 % 2 = 1 then 60 else 50

/-- The grid lies outside the limits of R223: the voltage of a phase in use outside U_LO to U_HI of U_NOM, or the frequency outside the
nominal one − F_LO to + F_HI. -/
def State.gridOut (s : State) : Bool :=
  let u := s.cth 0x051B 230 * 65536 / 100
  let f : Rat := ((s.e (s.frontEngines.headD 8)).pllHz : Rat) / 65536
  let nom : Rat := s.gridNominal
  (s.gridUsed s.chg.three).any (fun x => decide ((x : Rat) < s.cth 0x0513 85 * u) || decide (s.cth 0x0514 110 * u < (x : Rat)))
    || decide (f < nom - s.cth 0x0515 250 / 100) || decide (nom + s.cth 0x0516 150 / 100 < f)

/-- GRID_TRIP (R223): the grid has been out of its limits for GRID_TRIP, or GRID set for 10 ms, in FEED; a grid that is inside them ends
nothing. -/
def execGridTrip (g : GridIn) (s : State) : Out :=
  .next (let s1 := s.gridSense g; if s1.chgPhase = 7 ∧ (s1.gridOut || s1.gridLost) then s1.chgEndHard 7 else s1)

/-- ISLAND_OVERLOAD (R224): the current limit has bound for ISL_OL. -/
def execIslandOverload (s : State) : Out := .next (if s.chgPhase = 8 ∧ !s.chg.hard then s.chgFail 14 else s)

/-- The sequencer signals a lost gearbox report (R216): the template stops as by the rotor watch, fault INTERLOCK. -/
def State.chgGearCheck (s : State) : State :=
  if s.windLive ∧ s.ust U.chg = .running ∧ !s.gearOk ∧ !s.faultPending U.chg then
    (s.windStop s.chgWind s.frontEngines).chgFail 9
  else s

/-! ### The end of a session (R208, R225, R226) -/

/-- RAMPDOWN_END (R225): the DAB current is zero: the front end stops, CP_S2 opens, then the AC contactor. -/
def execRampdownEnd (s : State) : Out :=
  .next <|
    if s.chgPhase ≠ 9 ∨ s.chg.hard then s
    else
      let fs := (if s.chgFront < 16 then [s.chgFront] else []) ++ [s.chgDab]
      let s1 := s.each fs fun s f => s.fnOff f
      s1.updCh fun c => { c with hard := true, cpS2 := false, acCmd := false }

/-- AC_CONTACTOR_OPEN (R225): after a hard stop, every grid current below 1 A or 10 ms passed. -/
def execAcContactorOpen (s : State) : Out :=
  .next (if s.chg.hard then s.updCh fun c => { c with acCmd := false } else s)

/-- The result of CHG_START's final receipt (R226): reason, energy in µJ, duration in s. -/
def State.chgResult (s : State) : List Byte :=
  leBytes 4 s.chg.reason ++ leBytes 8 (ofSigned 64 (s.chg.energy / 1000)) ++ leBytes 4 ((s.chg.ended - s.chg.started) / 1000000000)

/-- The final status of a reason (Table CHG-8). -/
def reasonStatus : Nat → Status
  | 5 => .eTemp | 8 => .eAborted | 9 => .eFault | _ => .done

/-- CHARGER_STOP_COMPLETE (Table CHG-1): every leg off, feedback and CP_S2 open: ARMED with the cable, IDLE without. -/
def execChargerStopComplete (s : State) : Out :=
  .next <|
    if s.ust U.chg ≠ .stopping ∨ !s.chg.hard ∨ s.chg.acFb ∨ s.chg.cpS2 ∨ s.chgLegs.any (fun n => (s.dutyOf n).isSome) then s
    else
      let s1 := s.hwMove U.chg [.stopping] (if s.cablePresent then .armed else .idle)
      let s2 := (s1.finishOp U.chg 0x0502 (reasonStatus s.chg.reason) s.chgResult).finishOp U.chg 0x0503 .done []
      ((s2.chgSetPhase 0).updCh fun c => { c with search := 0 }).showLimit

/-! ### Transport (R230) -/

/-- TRANSPORT, addressed to the reset controller: refused while a power function or an actuator channel is active, or with supply
equipment connected; the journal is written, and TRANSPORT_N follows after 100 ms. -/
def specTransport : LetterSpec where
  units _ u := u == U.rst
  legal st := st = .running
  used := []
  fails s _ :=
    let busy (u : Nat) : Bool := (s.ust u).active
    if s.functions.any (fun f => busy (U.fn f)) || busy U.chg || (List.range 4).any (fun k => busy (U.ac k))
      || (s.variant.chg && (s.cablePresent || !(s.pilotClass == 0 || s.pilotClass == 4))) then [.eInterlock] else []
  run s _ _ :=
    let s1 := if s.mramClosed then s else s.journalFlush
    doneWith { s1 with rst := { s1.rst with transportDue := true, wakeArmed := true } }

def execTransport (m : Msg) (s : State) : Out := .next (deliver specTransport s m)

/-- TRANSPORT_ENTRY (R230): 100 ms after TRANSPORT, unless a wake has cancelled it: TRANSPORT_N goes low. -/
def execTransportEntry (s : State) : Out :=
  .next (if s.rst.transportDue then { s with rst := { s.rst with transportDue := false, transport := true } } else s)

end Sys2Proof.Machine
end

