-- ==== Sys2Proof/Machine/Actuator.lean ====
section
/-!
DEFINITION. Actuator channels (10): letters, starts, the channel's update, pre-drivers and latches; and the operations on a
channel that the gearbox sequencer shares.
Choices of the model: log 62, 63, 80, 213, 214, 215.
-/
namespace Sys2Proof.Machine

/-! ### Operations on a channel -/

def State.acPhase (s : State) (k : Nat) : Nat := s.fld (R.ACk_STATE k) F.ACk_STATE_PHASE
def State.setAcPhase (s : State) (k p : Nat) : State := s.setFld (R.ACk_STATE k) F.ACk_STATE_PHASE p
def State.acOwned (s : State) (k : Nat) : Bool := s.flag (R.ACk_CFG k) F.ACk_CFG_OWNED
/-- A threshold of Table ACT-9 of channel k. -/
def State.ath (s : State) (k id : Nat) (d : Int) : Rat := s.thr id k d
/-- I_RATED in 0.1 A. -/
def State.acRated (s : State) (k : Nat) : Rat := s.fld (R.ACk_RATED k) F.ACk_RATED_IRATED
/-- VACT in mV as the AD has reported it. -/
def State.vact (s : State) : Nat := s.fld R.ACT_VACT F.ACT_VACT_MV
/-- The latch cause of actuator leg n. -/
def State.actLatch (s : State) (n : Nat) : Nat := FMap.get (fun _ => 0) s.pads.actCause n
def State.acLatched (s : State) (k : Nat) : Bool := (List.range 3).any fun p => s.actLatch (3 * k + p) != 0
/-- A flag of ACk_EVT. -/
def State.acEvt (s : State) (k : Nat) (f : Fld) : State := s.setFlag (R.ACk_EVT k) f
/-- A flag of the epoch (Table ACT-10, byte 3). -/
def State.acFlag (s : State) (k bit : Nat) : State :=
  s.updAc k fun a => { a with flags := if bitAt a.flags bit then a.flags else a.flags + 2 ^ bit }

/-- Keep ACk_LATCH and ACT_STAT.LATCHED equal to the latches. -/
def State.syncActLatch (s : State) : State :=
  let s1 := s.each (List.range 12) fun s n => s.setFld (R.ACk_LATCH (n / 3)) ⟨4 * (n % 3) + 3, 4 * (n % 3)⟩ (s.actLatch n)
  s1.setFld R.ACT_STAT F.ACT_STAT_LATCHED (((List.range 12).map fun n => b2n (s.actLatch n != 0) * 2 ^ n).foldl (· + ·) 0)

/-- Every leg of the channel off: no phase of a start, no duty. -/
def State.acOff (s : State) (k : Nat) : State :=
  (s.setAcPhase k 0).updAc k fun a =>
    { a with duty := [], edges := [], pulse := false, paused := false, lowAt := none, waiting := false, iqRef := 0, miss := [] }

/-- A phase of Table ACT-4 begins, its vector at rest. -/
def State.acEnter (s : State) (k p : Nat) : State := (s.setAcPhase k p).updAc k fun a => { a with phaseAt := s.time, vec := 0 }

/-- The channel stops (R272): a stop during a start holds every leg off at once; a start that waits is given up. -/
def State.acStop (s : State) (k : Nat) : State :=
  let s1 := s.updAc k fun a => { a with goal := 0, ask := false }
  if s.acPhase k = 6 ∨ s.acPhase k = 7 then s1 else s1.acOff k

/-- The sequencer takes a fault cause (R284): its bit in GBX_FLT, the event, every owned channel's move stopped, FAULT at the next
boundary; its power-hole notice ends with the operation. -/
def State.gbxFail (s : State) (c : Nat) : State :=
  let st := s.ust U.gbx
  if !st.live && st ≠ .fault then s
  else
    let s1 := ((s.setBit R.GBX_FLT F.GBX_FLT_CAUSE (c - 1)).setFlag R.GBX_EVT F.GBX_EVT_FAULT).updGb fun g =>
      { g with recorded := addCause g.recorded c, epoch := addCause g.epoch c }
    if st = .fault then s1
    else
      let s2 := s1.each ((List.range 3).filter s1.acOwned) fun s k =>
        if s.ust (U.ac k) = .running then (s.acStop k).hwMove (U.ac k) [.running] .stopping else s.updAc k fun a => { a with ask := false }
      ({ s2 with ldg := { s2.ldg with holes := [] } }.updGb fun g => { g with moveTo := 0 }).hwFault U.gbx

/-- The channel takes a fault cause (R274): its bit in ACk_FLT, the event, the fault frame, FAULT at the next boundary. An owned
channel faults the sequencer too (Table GBX-3). A latch has sent its frame (`framed`); a fault without a latch has no latch cause, so that
byte of its frame is free. A channel already in FAULT records the cause. -/
def State.actFail (s : State) (k c pos : Nat) (framed : Bool := false) : State :=
  let st := s.ust (U.ac k)
  if !st.live && st ≠ .fault then s
  else
    let s1 := ((s.setBit (R.ACk_FLT k) F.ACk_FLT_CAUSE (c - 1)).acEvt k F.ACk_EVT_FAULT).updAc k fun a =>
      { a with recorded := addCause a.recorded c, epoch := addCause a.epoch c, badPos := if pos < 3 then pos else a.badPos }
    let low := ((List.range 8).find? fun i => bitAt (s1.ac k).recorded i).getD 0 + 1
    let s2 := s1.setFld (R.ACk_STATE k) F.ACk_STATE_CAUSE low
    if st = .fault then s2
    else
      let s3 := ((s2.acOff k).setFld (R.ACk_STATE k) F.ACk_STATE_ATTEMPT 0).updAc k fun a => { a with ask := false, leak := [] }
      let s4 := if framed then s3 else let (v, sd) := s3.draw; sd.sendFrame 5 (3 * k) (v % 256)
      let s5 := s4.hwFault (U.ac k)
      if s5.acOwned k then s5.gbxFail 1 else s5

/-- Actuator leg n latches (R267): the gates of its channel low, a fault frame whatever the state, cause LEG_LATCH. -/
def State.latchAct (s : State) (n c : Nat) : State :=
  if s.actLatch n ≠ 0 then s
  else
    let s1 := State.syncActLatch { s with pads := { s.pads with actCause := FMap.set (fun _ => 0) s.pads.actCause n c } }
    ((s1.acOff (n / 3)).sendFrame 5 n c).actFail (n / 3) 1 (n % 3) true

/-- A start begins (R269): attempt 1, phase OBSERVE, all legs off. -/
def State.acBegin (s : State) (k : Nat) (goal : Int) (lim : Nat) (hold : Bool) : State :=
  ((s.acEnter k 1).setFld (R.ACk_STATE k) F.ACk_STATE_ATTEMPT 1).updAc k fun a =>
    { a with goal := goal, set_ := 0, lim := lim, path := 2, waiting := false, holdAsk := hold, ask := false, reached := false,
             paused := false, pulse := false, bemf := none, integ := 0 }

/-- Give the channel a speed and limit. -/
def State.acSpeed (s : State) (k : Nat) (goal : Int) (lim : Nat) : State := s.updAc k fun a => { a with goal := goal, lim := lim }

/-- A sequencer move takes the channel (R272, R279): one that runs changes its aim, from HOLD by RAMP; one that is ARMED starts, at once
where a boundary delivers the command (`now`), else at the next boundary; any other waits until it is ARMED. -/
def State.acAim (s : State) (k : Nat) (goal : Int) (lim : Nat) (hold now : Bool) : State :=
  if s.ust (U.ac k) = .running then
    let s1 := (s.acSpeed k goal lim).updAc k fun a => { a with holdAsk := hold }
    if s.acPhase k = 7 then s1.acEnter k 5 else s1
  else if now ∧ s.ust (U.ac k) = .armed then (s.setUst (U.ac k) .running).acBegin k goal lim hold
  else (s.acSpeed k goal lim).updAc k fun a => { a with holdAsk := hold, ask := true }

/-- The observer has caught the machine, or RAMP has locked: phase RUN, ACT_RUN completes with its path and attempts. -/
def State.acRun (s : State) (k : Nat) (rpm : Int) : State :=
  let s1 := ((s.acEnter k 6).acEvt k F.ACk_EVT_RUN).updAc k fun a => { a with set_ := rpm * 65536, reached := true, miss := [] }
  s1.finishOp (U.ac k) 0x0802 .done (leBytes 1 (s.ac k).path ++ leBytes 1 (s.fld (R.ACk_STATE k) F.ACk_STATE_ATTEMPT))

/-- An attempt fails (R271): legs off for RETRY_WAIT, after the fourth START_FAIL. -/
def State.acAttemptFail (s : State) (k : Nat) : State :=
  let n := s.fld (R.ACk_STATE k) F.ACk_STATE_ATTEMPT
  let s1 := s.acOff k
  if 4 ≤ n then s1.actFail k 4 0xFF
  else (s1.acEvt k F.ACk_EVT_RETRY).updAc k fun a => { a with waiting := true }

/-! ### Letters (Table ACT-7) -/

def isAc (_ : State) (u : Nat) : Bool := 0x28 ≤ u && u ≤ 0x2B
def acOf (m : Msg) : Nat := m.unit - 0x28

/-- ACT_EN low, a leg latched, or VACT below ACT_VUV. -/
def State.acBlocked (s : State) (k : Nat) : Bool := !s.actEn || s.acLatched k || decide ((s.vact : Rat) < 100 * s.ath k 0x080F 100)

/-- An owned channel takes only ACT_LEAKTEST and ACT_CLEAR. -/
def State.ownedFails (s : State) (m : Msg) : List Status := if s.acOwned (acOf m) then [.eInterlock] else []

/-- A gate-leakage check with its precharge (R265, R266), for ACT_ARM (1) or ACT_LEAKTEST (2): it begins at once, or after those that
wait before it. -/
def State.leakStart (s : State) (k why : Nat) : State :=
  s.updAc k fun a => { a with leak := a.leak ++ [why], preAt := if a.leak.isEmpty then some s.time else a.preAt }

/-- ACT_ARM (R272). -/
def specActArm : LetterSpec where
  units := isAc
  legal st := st = .idle
  used := []
  fails s m := s.ownedFails m ++ (if s.acBlocked (acOf m) || s.safeHeld then [.eInterlock] else [])
  opens _ _ := true
  run s m _ := acceptedWith (s.leakStart (acOf m) 1)

/-- The ranges of ACT_RUN and ACT_SPEED. -/
def State.acRange (s : State) (m : Msg) : List Status :=
  let v := m.i32 16
  if v = 0 ∨ (s.fld (R.ACk_CFG (acOf m)) F.ACk_CFG_SPDMAX : Int) < absI v ∨ m.u16 20 < 10 ∨ 150 < m.u16 20 then [.eRange] else []

/-- ACT_RUN (R269). -/
def specActRun : LetterSpec where
  units := isAc
  legal st := st = .armed
  used := [(16, 21)]
  fails s m := s.ownedFails m ++ s.acRange m ++ (if s.acBlocked (acOf m) then [.eInterlock] else [])
  opens _ _ := true
  run s m _ := acceptedWith ((s.setUst m.unit .running).acBegin (acOf m) (m.i32 16) (m.u16 20) false)

/-- ACT_SPEED (R273). -/
def specActSpeed : LetterSpec where
  units := isAc
  legal st := st = .running
  used := [(16, 21)]
  fails s m := s.ownedFails m ++ s.acRange m ++ (if m.i32 16 * (s.ac (acOf m)).goal < 0 then [.eRange] else [])
  run s m _ := doneWith (s.acSpeed (acOf m) (m.i32 16) (m.u16 20))

/-- ACT_STOP (R272). -/
def specActStop : LetterSpec where
  units := isAc
  legal st := st = .running
  used := []
  fails s m := s.ownedFails m
  opens _ _ := true
  run s m _ := acceptedWith ((s.setUst m.unit .stopping).acStop (acOf m))

/-- ACT_DISARM (R272). -/
def specActDisarm : LetterSpec where
  units := isAc
  legal st := st = .armed
  used := []
  fails s m := s.ownedFails m
  run s m _ := doneWith (s.setUst m.unit .idle)

/-- A recorded cause persists (Table ACT-8). -/
def State.actPersists (s : State) (k : Nat) : Bool :=
  let has (c : Nat) : Bool := bitAt (s.ac k).recorded (c - 1)
  (has 1 && s.acLatched k) || (has 2 && !s.actEn) || (has 6 && decide (100 * s.ath k 0x080E 580 < (s.vact : Rat)))
    || (has 7 && decide ((s.vact : Rat) < 100 * s.ath k 0x080F 100 + 1000)) || (has 8 && s.safeHeld)

/-- ACT_CLEAR (R273): IDLE, the override is released. -/
def specActClear : LetterSpec where
  units := isAc
  legal st := st = .fault
  used := []
  fails s m := if s.actPersists (acOf m) || s.acLatched (acOf m) then [.eInterlock] else []
  run s m _ :=
    let k := acOf m
    doneWith ((((s.setUst m.unit .idle).setFld (R.ACk_STATE k) F.ACk_STATE_CAUSE 0).updAc k fun a =>
      { a with recorded := 0, badPos := 0xFF, leak := [] }).ssmFreeAct k)

/-- ACT_LEAKTEST (R266). -/
def specActLeaktest : LetterSpec where
  units := isAc
  legal st := st = .idle || st = .armed
  used := []
  fails s m := if s.acBlocked (acOf m) then [.eInterlock] else []
  opens _ _ := true
  run s m _ := acceptedWith (s.leakStart (acOf m) 2)

def execActArm (m : Msg) (s : State) : Out := .next (deliver specActArm s m)
def execActRun (m : Msg) (s : State) : Out := .next (deliver specActRun s m)
def execActSpeed (m : Msg) (s : State) : Out := .next (deliver specActSpeed s m)
def execActStop (m : Msg) (s : State) : Out := .next (deliver specActStop s m)
def execActDisarm (m : Msg) (s : State) : Out := .next (deliver specActDisarm s m)
def execActClear (m : Msg) (s : State) : Out := .next (deliver specActClear s m)
def execActLeaktest (m : Msg) (s : State) : Out := .next (deliver specActLeaktest s m)

/-! ### The channel's update (R262 to R264) -/

/-- The carrier frequency in kHz. -/
def State.acKhz (s : State) (k : Nat) : Nat := max 1 (s.fld (R.ACk_CFG k) F.ACk_CFG_PWM)
def State.acPoles (s : State) (k : Nat) : Nat := s.fld (R.ACk_CFG k) F.ACk_CFG_PP

/-- A shunt input of ±200 mV full scale as a current in 0.1 A (Table ACT-2). -/
def State.shuntAmps (s : State) (k : Nat) (uv : Int) : Rat := ((clampI (-200000) 200000 uv * 10 : Int) : Rat) / s.ath k 0x0802 1000

/-- The phase currents in 0.1 A: a phase whose duty exceeds 0.9 is reconstructed from the other two (Table ACT-2). -/
def State.acPhases (s : State) (k : Nat) (m : ActIn) : List Rat :=
  let own (p : Nat) : Rat := s.shuntAmps k (m.shunts.getD p 0)
  (List.range 3).map fun p =>
    if 589824 < 10 * (s.ac k).duty.getD p 0 then -(own ((p + 1) % 3) + own ((p + 2) % 3)) else own p

/-- The voltage limit of Table ACT-2, on a command in mV: |v| ≤ ACT_MODMAX × VACT ÷ √3. Answers whether it binds. -/
def State.acLimit (s : State) (k vact : Nat) (v : Vec) : Vec × Bool :=
  let x : Rat := s.ath k 0x0819 950 * (vact : Rat) / 1000
  if 3 * vsq v ≤ x * x then (v, false) else (vscale (sqrtR (x * x / (3 * vsq v))) v, true)

/-- A duty in Q0.16 from a phase voltage in mV. -/
def acDuty (vact : Nat) (x : Rat) : Nat := min 65536 (nearest (65536 * (1 / 2 + (if vact = 0 then 0 else x / (vact : Rat))))).toNat

/-- The commanded edges of a duty after its trough, in 2.5 ns: rising and falling, centred in the period (Table ACT-2). A duty of 0 or 1
has none. -/
def State.acEdges (s : State) (k d : Nat) : List Nat :=
  let t : Rat := 400000 / (s.acKhz k : Rat)
  let up := (nearest (t * (65536 - d : Nat) / 131072)).toNat
  let down := (nearest (t * (65536 + d : Nat) / 131072)).toNat
  if d = 0 ∨ 65536 ≤ d then [] else [up, down]

/-- The commanded level of a position `x` after the trough, in 2.5 ns, and how long ago its last commanded edge was: an edge of the period, one
at the trough where the level differs from the one the period before ended with, else that period's last. -/
def cmdLevel (d : Nat) (e : List Nat) (was : Bool × Nat) (x : Nat) : Bool × Nat :=
  match e with
  | [up, down] =>
    if x < up then (false, if was.1 then x else was.2 + x) else if x < down then (true, x - up) else (false, x - down)
  | _ => let on := decide (65536 ≤ d); (on, if was.1 = on then was.2 + x else x)

/-- The commanded level of each position at a trough (R262). -/
def ActSt.levels (a : ActSt) (now : Nat) : List (Bool × Nat) :=
  (List.range 3).map fun p => cmdLevel (a.duty.getD p 0) (a.edges.getD p []) (a.was.getD p (false, 0)) ((now - a.lastAt) * 2 / 5)

/-- Apply a voltage command in mV, given in the frame at an angle: the limit, the duties with the min-max zero sequence, their edges; VSAT
where the limit binds, which is answered. -/
def State.acApply (s : State) (k : Nat) (m : ActIn) (th : Nat) (v : Vec) : State × Bool :=
  let (w, hit) := s.acLimit k m.vact v
  let duty := (zeroSeq (phases (rot w th))).map (acDuty m.vact)
  let s1 := s.updAc k fun a => { a with duty := duty, edges := duty.map (s.acEdges k) }
  (if hit then (s1.acEvt k F.ACk_EVT_VSAT).acFlag k 0 else s1, hit)

/-- The voltage command of the current law, in mV: its gains are not given, so it is a free value. -/
def State.acVolts (s : State) : Vec × State :=
  let (a, s1) := s.draw
  let (b, s2) := s1.draw
  (((toSigned 17 a : Rat), (toSigned 17 b : Rat)), s2)

/-- The speed and current loops in RUN: the setpoint's ramp; iq* of the speed loop within the limit in force, and scaled against a rise of
VACT while the channel returns energy (R264); the voltage, which a catch starts at the observed back-EMF; the integrator, held while the
voltage limit binds (R263). The gains of the two PI loops are not given: their parts are free values. -/
def State.acLoop (s : State) (k : Nat) (m : ActIn) (iq : Int) : State :=
  let a := s.ac k
  let step : Int := (s.ath k 0x081A 20000 * 65536 / (1000 * (s.acKhz k : Rat))).floor
  let goal := if s.ust (U.ac k) = .stopping then 0 else a.goal
  let set_ := a.set_ + clampI (-step) step (65536 * goal - a.set_)
  let lim : Int := ((a.lim : Rat) * s.acRated k / 100).floor
  let (w, s1) := s.draw
  let (u, s2) := s1.draw
  let raw := clampI (-lim) lim (a.integ + toSigned 16 w)
  let reg := s.ath k 0x080D 540 / 10
  let factor := if iq * m.speed < 0 then clampQ 0 1 ((reg + 2 - (m.vact : Rat) / 1000) / 2) else 1
  let (v, s3) : Vec × State := match a.bemf with | some e => ((0, (e : Rat)), s2) | none => s2.acVolts
  let (s4, hit) := s3.acApply k m (65536 * m.ang) v
  let s5 := if factor < 1 then (s4.acEvt k F.ACk_EVT_REGCLAMP).acFlag k 1 else s4
  (s5.updAc k fun b => { b with
    set_ := set_
    iqRef := ((raw : Rat) * factor).floor
    bemf := none
    ang := 65536 * m.ang % 4294967296
    integ := if hit then a.integ else clampI (-lim) lim (a.integ + toSigned 16 u) }).setSfld (R.ACk_SPD k) F.ACk_SPD_SET (set_ / 65536)

/-- A current vector of an amplitude in 0.1 A at the channel's angle. -/
def State.acVector (s : State) (k : Nat) (m : ActIn) (amp : Rat) : State :=
  let (v, s1) := s.acVolts
  ((s1.acApply k m (s.ac k).ang v).1).updAc k fun a => { a with iqRef := nearest amp }

/-- A percentage of I_RATED that a threshold gives, in 0.1 A. -/
def State.acShare (s : State) (k id : Nat) (d : Int) : Rat := s.ath k id d * s.acRated k / 100

/-- The vector of RAMP turns on by one period, forward, and gains ACC_START. -/
def State.acTurn (s : State) (k : Nat) : State :=
  let a := s.ac k
  let gain : Int := (s.ath k 0x0814 5000 * 65536 / (1000 * (s.acKhz k : Rat))).floor
  let vec := a.vec + (if a.goal < 0 then -gain else gain)
  let d : Int := ((vec : Rat) / 65536 * (s.acPoles k : Rat) / 60 * 4294967296 / (1000 * (s.acKhz k : Rat))).floor
  s.updAc k fun a => { a with vec := vec, ang := angAdd a.ang d }

/-- What a phase drives (Table ACT-4). -/
def State.acDrive (s : State) (k : Nat) (m : ActIn) (iq : Int) : State :=
  match s.acPhase k with
  | 4 =>
    let half := s.ath k 0x0811 20 * 500000
    s.acVector k m (s.acShare k 0x0812 50 * clampQ 0 1 (((s.time - (s.ac k).phaseAt : Nat) : Rat) / (if half = 0 then 1 else half)))
  | 5 => (s.acTurn k).acVector k m (s.acShare k 0x0813 50)
  | 6 => s.acLoop k m iq
  | 7 => s.acVector k m (s.acShare k 0x0815 30)
  | _ => s

/-- The missing-phase test of a channel (R193, R194, Table ACT-8), from its phase currents in 0.1 A. -/
def State.acMiss (s : State) (k : Nat) (speed : Int) (iph : List Rat) : State :=
  let hz : Rat := (absI speed : Rat) * (s.acPoles k : Rat) / 60
  let adv := (hz * 4294967296 / (1000 * (s.acKhz k : Rat))).floor.toNat
  s.each (List.range 3) fun s p =>
    let x := iph.getD p 0
    let (t, bad) := missNext (FMap.get (fun _ => ⟨0, 0, none, 0⟩) (s.ac k).miss p) ((if x < 0 then -x else x) / 10)
      ((absI (s.ac k).iqRef : Rat) / 10) (s.acRated k / 10) adv (hz < 5)
    let s1 := s.updAc k fun a => { a with miss := FMap.set (fun _ => ⟨0, 0, none, 0⟩) a.miss p t }
    if bad then s1.actFail k 3 p else s1

/-- The end of a stop (Table ACT-6): all low sides on once the speed is below STOP_RPM. -/
def State.acLowEnd (s : State) (k : Nat) (speed : Int) : State :=
  if s.ust (U.ac k) = .stopping ∧ (s.ac k).lowAt = none ∧ (absI speed : Rat) < s.ath k 0x081B 100 then
    (s.acOff k).updAc k fun a => { a with lowAt := some s.time }
  else s

/-- ACT_UPDATE (R262): at the trough: speed and currents measured; in ARMED, RUNNING and STOPPING what the phase drives, and the
missing-phase test in RAMP and RUN. -/
def execActUpdate (k : Nat) (m : ActIn) (s : State) : Out :=
  .next <|
    if !unitPresent s.variant (U.ac k) ∨ !isAc s (U.ac k) ∨ s.ust (U.ac k) = .off then s
    else
      let p := s.acPhase k
      let th := if p = 4 ∨ p = 5 ∨ p = 7 then (s.ac k).ang else 65536 * m.ang
      let iph := s.acPhases k m
      let dq := unrot (clarke (iph.getD 0 0) (iph.getD 1 0) (iph.getD 2 0)) th
      let iq := satS 16 (nearest dq.2)
      let s1 := (((s.setSfld (R.ACk_SPD k) F.ACk_SPD_SPEED m.speed).setSfld (R.ACk_I k) F.ACk_I_IQ iq).setSfld
        (R.ACk_I k) F.ACk_I_ID (satS 16 (nearest dq.1))).setFld R.ACT_VACT F.ACT_VACT_MV (satU 16 m.vact)
      let s2 := (s1.updAc k fun a => { a with lastAt := s.time, was := a.levels s.time }).acLowEnd k m.speed
      if !(s.ust (U.ac k)).active then s2
      else
        let q := s2.acPhase k
        let s3 := s2.acDrive k m iq
        if q = 5 ∨ q = 6 ∨ s2.ust (U.ac k) = .stopping then s3.acMiss k m.speed iph else s3

/-! ### Start phases (R269 to R271) -/

/-- The channel is in a start or drives: RUNNING, with no fault pending. -/
def State.acLive (s : State) (k : Nat) : Bool := isAc s (U.ac k) && s.ust (U.ac k) == .running && !s.faultPending (U.ac k)

/-- The index of the largest of a list. -/
def argMax (l : List Nat) : Nat := (l.findIdx? fun x => x == l.foldl max 0).getD 0

/-- ACT_START_PHASE_END (R269, R270): the end of OBSERVE, BRAKE by a still machine, SENSE or ALIGN, on what it has found. -/
def execActStartPhaseEnd (k : Nat) (o : ObsIn) (s : State) : Out :=
  .next <|
    let still := (o.amp : Rat) < s.ath k 0x0806 500
    let forward := 0 < o.rpm * (s.ac k).goal
    if !s.acLive k then s
    else match s.acPhase k with
      | 1 =>
        if still then (s.acEnter k 3).updAc k fun a => { a with path := 2 }
        else if forward ∧ s.ath k 0x0807 1000 ≤ (absI o.rpm : Rat) then
          (s.updAc k fun a => { a with path := 0, bemf := some (if o.rpm < 0 then -(o.amp : Int) else o.amp) }).acRun k o.rpm
        else (s.acEnter k 2).updAc k fun a => { a with path := 1, paused := false, pulse := false }
      | 2 => if still then (s.acEnter k 3).updAc k fun a => { a with pulse := false } else s
      | 3 =>
        let hi := o.peaks.foldl max 0
        let lo := o.peaks.foldl min hi
        if (hi - lo) * 100 < 5 * hi then
          ((((s.acEvt k F.ACk_EVT_BLIND).acFlag k 2).acEnter k 4).updAc k fun a => { a with ang := 0 })
        else (s.acEnter k 4).updAc k fun a => { a with ang := argMax o.peaks * 4294967296 / 6 }
      | 4 =>
        if (s.ac k).holdAsk then (s.acEnter k 7).acFlag k 4
        else s.acEnter k 5
      | _ => s

/-- ACT_BRAKE_PULSE (R269): a pulse of all low sides starts or ends in BRAKE; none starts from VACT_REG on, until VACT is 1 V
below. -/
def execActBrakePulse (k vact : Nat) (starts : Bool) (s : State) : Out :=
  .next <|
    let reg := 100 * s.ath k 0x080D 540
    let stop := if (s.ac k).paused then decide (reg - 1000 ≤ (vact : Rat)) else decide (reg ≤ (vact : Rat))
    if !s.acLive k ∨ s.acPhase k ≠ 2 then s
    else
      let s1 := s.setFld R.ACT_VACT F.ACT_VACT_MV (satU 16 vact)
      if !starts then s1.updAc k fun a => { a with pulse := false }
      else if stop then ((s1.acEvt k F.ACk_EVT_REGCLAMP).acFlag k 1).updAc k fun a => { a with paused := true, pulse := false }
      else s1.updAc k fun a => { a with paused := false, pulse := true }

/-- ACT_RAMP_LOCK (R269): the observer has been within 15° of the vector for 10 ms at or above OBS_MIN. -/
def execActRampLock (k : Nat) (rpm : Int) (s : State) : Out :=
  .next (if s.acLive k ∧ s.acPhase k = 5 ∧ s.ath k 0x0808 500 ≤ (absI rpm : Rat) then s.acRun k rpm else s)

/-- START_ATTEMPT_FAIL (R271): no RUN 300 ms after SENSE began, a pre-aligned start in HOLD included, or BRAKE ended by time. -/
def execStartAttemptFail (k : Nat) (s : State) : Out :=
  .next (if s.acLive k ∧ 2 ≤ s.acPhase k ∧ s.acPhase k ≠ 6 ∧ s.acPhase k ≤ 7 ∧ !(s.ac k).reached then s.acAttemptFail k else s)

/-- RETRY_WAIT_END (R271): a new attempt starts at OBSERVE. -/
def execRetryWaitEnd (k : Nat) (s : State) : Out :=
  .next (if s.acLive k ∧ (s.ac k).waiting then
    ((s.acEnter k 1).incFld (R.ACk_STATE k) F.ACk_STATE_ATTEMPT).updAc k fun a => { a with waiting := false, reached := false }
  else s)

/-! ### Pre-drivers and latches (R264 to R268) -/

/-- BOOTSTRAP_REFRESH (R265): the high side of leg n has been on for 4 ms: its refresh begins. -/
def execBootstrapRefresh (n : Nat) (s : State) : Out :=
  .next <|
    if !(s.ust (U.ac (n / 3))).active ∨ 12 ≤ n then s
    else ((s.incFld (R.ACk_BOOT (n / 3)) F.ACk_BOOT_COUNT).acFlag (n / 3) 5).updAc (n / 3) fun a =>
      { a with refreshes := a.refreshes + 1, refreshAt := FMap.put a.refreshAt (n % 3) s.time }

/-- BOOTSTRAP_UNDERVOLTAGE (R265): below 8 V for 2 µs while the high side is commanded on. -/
def execBootstrapUndervoltage (n : Nat) (s : State) : Out :=
  .next (if n < 12 ∧ (s.ust (U.ac (n / 3))).active then s.latchAct n 3 else s)

/-- ACT_LEG_LATCH (R267): cause 1 OC or 2 VDS on leg n. -/
def execActLegLatch (n cause : Nat) (s : State) : Out :=
  .next (if n < 12 ∧ (cause = 1 ∨ cause = 2) ∧ unitPresent s.variant (U.ac (n / 3)) then s.latchAct n cause else s)

/-- A gate reading of the leakage check: 10 mV per count, saturating. -/
def gateCount (mv : Nat) : Nat := min (mv / 10) 0xFF

/-- LEAK_TEST_COMPLETE (R266): the readings of the six gates, positions 0 to 2, in mV. A reading outside its limits latches its
leg; otherwise ACT_ARM reaches ARMED or ACT_LEAKTEST reports, and the next check that waits begins. -/
def execLeakTestComplete (k : Nat) (low high : List Nat) (s : State) : Out :=
  .next <|
    if !isAc s (U.ac k) ∨ (s.ac k).leak.isEmpty then s
    else
      let word (l : List Nat) : Nat := leNat ((List.range 3).map fun p => BitVec.ofNat 8 (gateCount (l.getD p 0)))
      let s1 := (s.setReg (R.ACk_LEAKL k) (BitVec.ofNat 32 (word low))).setReg (R.ACk_LEAKH k) (BitVec.ofNat 32 (word high))
      let out (mv : Nat) : Bool := decide ((mv : Rat) < s.ath k 0x081C 20) || decide (s.ath k 0x081D 1500 < (mv : Rat))
      let bad := (List.range 3).filter fun p => out (low.getD p 0) || out (high.getD p 0)
      let arm := (s.ac k).leak.headD 0 = 1
      let s2 := s1.updAc k fun a => { a with leak := a.leak.drop 1, preAt := if 1 < a.leak.length then some s.time else a.preAt }
      let s3 := s2.each bad fun s p => s.latchAct (3 * k + p) 4
      if !bad.isEmpty then s3
      else
        if arm then (s3.hwMove (U.ac k) [.idle] .armed).finishOp (U.ac k) 0x0801 .done []
        else s3.finishOp (U.ac k) 0x0807 .done (leBytes 3 (word low) ++ leBytes 3 (word high))

/-- VACT_FAULT (R264): VACT in mV has been above ACT_VOV for 10 µs, or below ACT_VUV for 100 µs. -/
def execVactFault (mv : Nat) (s : State) : Out :=
  .next <|
    let ks := (List.range 4).filter fun k => s.ust (U.ac k) ≠ .off && s.ust (U.ac k) ≠ .absent
    let s1 := s.setFld R.ACT_VACT F.ACT_VACT_MV (satU 16 mv)
    let exceeds := ks.any fun k => decide (100 * s.ath k 0x080E 580 < (mv : Rat))
    let s2 := if exceeds then
        (s1.setFlag R.ACT_EVT F.ACT_EVT_VOV).each ks fun s k => if (s.ust (U.ac k)).active then (s.acOff k).actFail k 6 0xFF else s
      else s1
    let low := ks.filter fun k => decide ((mv : Rat) < 100 * s.ath k 0x080F 100)
    let s3 := if low.isEmpty then s2 else s2.setFlag R.ACT_EVT F.ACT_EVT_VUV
    s3.each low fun s k => if s.ust (U.ac k) = .running ∨ s.ust (U.ac k) = .stopping then s.actFail k 7 0xFF else s

/-- ACT_EN_FALL (R268): the gates are low, and a channel in ARMED, RUNNING or STOPPING faults. -/
def execActEnFall (s : State) : Out :=
  .next <|
    if !s.actEn then s
    else
      let s1 := (({ s with actEn := false }).clrFlag R.ACT_STAT F.ACT_STAT_EN).setFlag R.ACT_EVT F.ACT_EVT_EN_LOW
      s1.each (List.range 4) fun s k => if (s.ust (U.ac k)).active then s.actFail k 2 0xFF else s

/-- ACT_EN_RISE (R268): ACT_EN is high again after `low` ns; `loud` lists the legs whose shunt still reads above ACT_OC. From 20 µs
the latches clear, below 18 µs never, between the two it is free. -/
def execActEnRise (low : Nat) (loud : List Nat) (s : State) : Out :=
  .next <|
    if s.actEn then s
    else
      let s0 := ({ s with actEn := true }).setFlag R.ACT_STAT F.ACT_STAT_EN
      let (w, sd) := s0.draw
      let s1 := if 18000 ≤ low ∧ low < 20000 then sd else s0
      let clears := 20000 ≤ low || (18000 ≤ low && w % 2 == 1)
      let gone := (s.pads.actCause.filter fun p => !(p.2 == 1 && loud.contains p.1)).map (·.1)
      if !clears ∨ gone.isEmpty then s1
      else
        let s2 := s1.each gone fun s n => { s with pads := { s.pads with actCause := FMap.erase s.pads.actCause n } }
        s2.syncActLatch.setFlag R.ACT_EVT F.ACT_EVT_CLEARED

/-- ACT_STOP_COMPLETE (R272): the speed is below STOP_RPM, the low sides have been on for 5 ms, all legs are off. -/
def execActStopComplete (k : Nat) (s : State) : Out :=
  .next <|
    let spd := s.sfld (R.ACk_SPD k) F.ACk_SPD_SPEED
    if !isAc s (U.ac k) ∨ s.ust (U.ac k) ≠ .stopping ∨ s.ath k 0x081B 100 ≤ (absI spd : Rat) then s
    else
      let s1 := ((s.acOff k).setFld (R.ACk_STATE k) F.ACk_STATE_ATTEMPT 0).updAc k fun a => { a with charge := true }
      ((s1.hwMove (U.ac k) [.stopping] .armed).finishOp (U.ac k) 0x0804 .done []).finishOp (U.ac k) 0x0802 .eAborted []

/-- At a boundary: the precharge of a channel that a stop has brought back to ARMED (R265), and the start of one that waits for ARMED. -/
def State.actBoundary (s : State) : State :=
  s.each (List.range 4) fun s k =>
    if s.ust (U.ac k) ≠ .armed then s
    else if (s.ac k).charge then s.updAc k fun a => { a with charge := false, preAt := some s.time }
    else if (s.ac k).ask then (s.setUst (U.ac k) .running).acBegin k (s.ac k).goal (s.ac k).lim (s.ac k).holdAsk
    else s

/-! ### The pins (R262, R265, R267, R268) -/

/-- ABH and ABL for a commanded level: a switch goes off at the edge, the other on ACT_DT after it (R262, R127). -/
def edgeLevels (c : Bool × Nat) (td : Nat) : Bool × Bool := (c.1 && decide (td ≤ c.2), !c.1 && decide (td ≤ c.2))

/-- The vector that a SENSE pulse applies: which positions have their high side on, by sixth of a turn. -/
def sensePulse (j p : Nat) : Bool :=
  (match j with | 0 => [0] | 1 => [0, 1] | 2 => [1] | 3 => [1, 2] | 4 => [2] | _ => [2, 0]).contains p

/-- ABH and ABL of a position in SENSE: six pulses of SNS_T, each followed by its decay with every switch off. -/
def State.senseLevels (s : State) (k p : Nat) : Bool × Bool :=
  let t := (1000 * s.ath k 0x0810 20).floor.toNat
  let x := s.time - (s.ac k).phaseAt
  let one := t + (Config.senseDecay k).toNat
  if one = 0 ∨ 6 ≤ x / one ∨ t ≤ x % one then (false, false) else (sensePulse (x / one) p, !sensePulse (x / one) p)

/-- ABH and ABL of a driven position: its edges, a refresh taking their place (R265). -/
def State.pwmLevels (s : State) (k p : Nat) : Bool × Bool :=
  let a := s.ac k
  let dt := (s.ath k 0x0801 300).floor.toNat
  let plain := edgeLevels ((a.levels s.time).getD p (false, 0)) (nearest (s.ath k 0x0801 300 * 2 / 5)).toNat
  match a.refreshAt.find? fun x => x.1 == p with
  | some (_, t) => if t ≤ s.time ∧ s.time < t + 2 * dt + 400 then (false, decide (t + dt ≤ s.time ∧ s.time < t + dt + 400)) else plain
  | none => plain

/-- ABH_n and ABL_n: ACT_EN low, a latch of the channel or its override wire hold them low; else a precharge pulse of 2 µs, one leg after
the other, a braking pulse or the end of a stop, or what the phase drives. -/
def State.abPins (s : State) (n : Nat) : Bool × Bool :=
  let k := n / 3
  let p := n % 3
  let a := s.ac k
  let charging : Bool := match a.preAt with | some t => decide (t ≤ s.time ∧ s.time < t + 6000) | none => false
  if !s.actEn || s.acLatched k || bitAt (s.fld R.SSM_PATX F.SSM_PATX_ACT) k then (false, false)
  else if charging then (false, decide ((s.time - a.preAt.getD 0) / 2000 = p))
  else if a.pulse || a.lowAt.isSome then (false, true)
  else match s.acPhase k with
    | 3 => s.senseLevels k p
    | 4 | 5 | 6 | 7 => if a.duty.isEmpty then (false, false) else s.pwmLevels k p
    | _ => (false, false)

end Sys2Proof.Machine
end

