-- ==== Sys2Proof/Machine/Thresholds.lean ====
section
/-!
DEFINITION. The threshold identifiers of every chapter with their ranges (R152, R160, R173, R204, R231, R240, R256, R275, R285, R310,
R343, R385, R437, R449), and what admission asks about an image by name.
-/
namespace Sys2Proof.Machine

/-- What byte 2 of a THRESH record holds (R52). -/
inductive ThreshKey where
  | device | link | function | channel | mech | watchdog | port
  deriving DecidableEq, Repr

/-- Byte 2 is in the range of its kind. -/
def ThreshKey.ok : ThreshKey → Nat → Bool
  | .device, b => b == 0xFF
  | .link, b => b < 4
  | .function, b => b < 16
  | .channel, b => b < 4
  | .mech, b => b < 3
  | .watchdog, b => b < 4
  | .port, b => b == 8 || b == 9

/-- Identifiers first to last with one key and one range. -/
structure ThreshDef where
  first : Nat
  last : Nat
  key : ThreshKey
  lo : Int
  hi : Int
  deriving DecidableEq, Repr

/-- Tables TRA-8 and MOD-15, R160, R173. Packed values carry the whole range; `packedOk` checks their fields. -/
def threshDefs1 : List ThreshDef :=
  [⟨0x0101, 0x0103, .link, 1, 1000⟩, ⟨0x0104, 0x0104, .link, 0x03, 0x1F⟩, ⟨0x0105, 0x0105, .link, 0, 1000⟩,
   ⟨0x0110, 0x0110, .function, 4000, 400000⟩, ⟨0x0111, 0x0111, .function, 5, 100⟩, ⟨0x0112, 0x0112, .function, 100, 1000000⟩,
   ⟨0x0113, 0x0113, .function, 0x40, 0xAF⟩, ⟨0x0114, 0x0114, .function, 0, 10000000⟩, ⟨0x0115, 0x0115, .function, 1, 3600⟩,
   ⟨0x0116, 0x0116, .function, 1, 100000⟩, ⟨0x0120, 0x0120, .function, 1, 5000⟩, ⟨0x0121, 0x0122, .function, 1, 10000⟩,
   ⟨0x0123, 0x0123, .function, 1, 2000000⟩, ⟨0x0124, 0x0124, .function, 500, 1000⟩, ⟨0x0125, 0x0125, .function, 0, 1⟩,
   ⟨0x0126, 0x0126, .function, 10, 65535⟩, ⟨0x0127, 0x0127, .function, 0, 1⟩, ⟨0x0128, 0x0128, .function, 100, 10000⟩,
   ⟨0x0129, 0x0129, .function, 50, 10000⟩, ⟨0x012A, 0x012A, .function, 10, 500⟩, ⟨0x012B, 0x012B, .function, 5, 100⟩,
   ⟨0x012C, 0x012C, .function, 10, 20000⟩, ⟨0x012D, 0x012D, .function, 100, 60000⟩, ⟨0x0130, 0x0132, .function, 0x40, 0xAF⟩,
   ⟨0x0133, 0x0133, .function, 100, 2000⟩,
   ⟨0x0201, 0x0201, .device, 500, 20000⟩, ⟨0x0202, 0x0202, .device, 20, 200⟩, ⟨0x0210, 0x0219, .device, -2147483648, 2147483647⟩,
   ⟨0x0220, 0x0220, .function, 0, 3⟩, ⟨0x0300, 0x031F, .device, 1, 100000⟩, ⟨0x0341, 0x0342, .device, 400, 4000⟩]

/-- Tables CHG-11 and LV-10, LV-4. -/
def threshDefs2 : List ThreshDef :=
  [⟨0x0501, 0x0501, .device, 400, 950⟩, ⟨0x0502, 0x0503, .device, 5, 100⟩, ⟨0x0504, 0x0504, .device, 10, 5000⟩,
   ⟨0x0505, 0x0505, .device, 450, 1000⟩, ⟨0x0506, 0x0506, .device, 0, 1000⟩, ⟨0x0507, 0x0507, .device, 250, 1000⟩,
   ⟨0x0508, 0x0508, .device, 10, 10000⟩, ⟨0x0509, 0x0509, .device, 5, 200⟩, ⟨0x050A, 0x050A, .device, 10, 1000⟩,
   ⟨0x050B, 0x050B, .device, 10, 1440⟩, ⟨0x050C, 0x050C, .device, 60, 2880⟩, ⟨0x050D, 0x050D, .device, -40, 60⟩,
   ⟨0x050E, 0x050E, .device, 0, 80⟩, ⟨0x050F, 0x050F, .device, 60, 140⟩, ⟨0x0510, 0x0510, .device, 5, 500⟩,
   ⟨0x0511, 0x0511, .device, 500, 10000⟩, ⟨0x0512, 0x0512, .device, 1, 600⟩, ⟨0x0513, 0x0513, .device, 70, 100⟩,
   ⟨0x0514, 0x0514, .device, 100, 125⟩, ⟨0x0515, 0x0516, .device, 10, 500⟩, ⟨0x0517, 0x0517, .device, 20, 2000⟩,
   ⟨0x0518, 0x0518, .device, 10, 320⟩, ⟨0x0519, 0x0519, .device, 100, 10000⟩, ⟨0x051A, 0x051A, .device, 1, 100⟩,
   ⟨0x051B, 0x051B, .device, 100, 280⟩,
   ⟨0x0601, 0x0601, .device, 12000, 17000⟩, ⟨0x0602, 0x0602, .device, 2400, 4800⟩, ⟨0x0603, 0x0603, .device, 100, 800⟩,
   ⟨0x0604, 0x0604, .device, 50, 400⟩, ⟨0x0605, 0x0605, .device, 100, 20000⟩, ⟨0x0606, 0x0606, .device, 1, 100⟩,
   ⟨0x0607, 0x0607, .device, 5, 200⟩, ⟨0x0608, 0x0608, .device, 2, 40⟩, ⟨0x0609, 0x0609, .device, 5, 80⟩,
   ⟨0x060A, 0x060B, .device, 1, 255⟩, ⟨0x060C, 0x060C, .device, 1000, 50000⟩, ⟨0x060D, 0x060D, .device, 300, 1800⟩,
   ⟨0x060E, 0x060E, .device, 100, 10000⟩, ⟨0x060F, 0x060F, .device, 10, 1000⟩, ⟨0x0610, 0x0611, .device, 0x40, 0xAF⟩,
   ⟨0x0701, 0x0701, .function, 400, 700⟩, ⟨0x0702, 0x0702, .function, 100, 1000⟩, ⟨0x0703, 0x0703, .function, 10, 1500⟩,
   ⟨0x0704, 0x0704, .function, 1, 100⟩, ⟨0x0705, 0x0705, .function, 360, 560⟩]

/-- Tables ACT-9 and GBX-4. -/
def threshDefs3 : List ThreshDef :=
  [⟨0x0801, 0x0801, .channel, 50, 2000⟩, ⟨0x0802, 0x0802, .channel, 100, 100000⟩, ⟨0x0803, 0x0803, .channel, 10, 2000⟩,
   ⟨0x0804, 0x0804, .channel, 200, 5000⟩, ⟨0x0805, 0x0805, .channel, 1, 100⟩, ⟨0x0806, 0x0806, .channel, 50, 5000⟩,
   ⟨0x0807, 0x0808, .channel, 100, 20000⟩, ⟨0x0809, 0x0809, .channel, 1, 100⟩, ⟨0x080A, 0x080A, .channel, 50, 10000⟩,
   ⟨0x080B, 0x080B, .channel, 10, 5000⟩, ⟨0x080C, 0x080C, .channel, 10, 300⟩, ⟨0x080D, 0x080D, .channel, 130, 650⟩,
   ⟨0x080E, 0x080E, .channel, 150, 660⟩, ⟨0x080F, 0x080F, .channel, 80, 600⟩, ⟨0x0810, 0x0810, .channel, 5, 200⟩,
   ⟨0x0811, 0x0811, .channel, 1, 500⟩, ⟨0x0812, 0x0813, .channel, 10, 150⟩, ⟨0x0814, 0x0814, .channel, 100, 100000⟩,
   ⟨0x0815, 0x0815, .channel, 5, 100⟩, ⟨0x0816, 0x0817, .channel, 10, 1000⟩, ⟨0x0818, 0x0818, .channel, 10, 5000⟩,
   ⟨0x0819, 0x0819, .channel, 500, 1000⟩, ⟨0x081A, 0x081A, .channel, 100, 500000⟩, ⟨0x081B, 0x081B, .channel, 10, 2000⟩,
   ⟨0x081C, 0x081C, .channel, 0, 1000⟩, ⟨0x081D, 0x081D, .channel, 100, 3000⟩,
   ⟨0x0901, 0x0905, .device, 1000, 30000⟩, ⟨0x0910, 0x0916, .device, -2147483648, 2147483647⟩,
   ⟨0x0920, 0x0920, .mech, 100, 30000⟩, ⟨0x0921, 0x0921, .mech, 50, 10000⟩, ⟨0x0922, 0x0922, .mech, 0, 1000⟩,
   ⟨0x0923, 0x0923, .mech, 20, 5000⟩, ⟨0x0924, 0x0924, .mech, 10, 150⟩, ⟨0x0925, 0x0925, .mech, 1, 100⟩,
   ⟨0x0926, 0x0926, .mech, 0, 1⟩, ⟨0x0930, 0x0930, .device, 1, 1000⟩, ⟨0x0931, 0x0931, .device, 0, 50⟩,
   ⟨0x0932, 0x0932, .device, 1, 10000⟩, ⟨0x0933, 0x0933, .device, 10, 1000⟩, ⟨0x0934, 0x0934, .device, 5, 500⟩,
   ⟨0x0935, 0x0935, .device, 1, 100⟩, ⟨0x0936, 0x0936, .device, 50, 2000⟩, ⟨0x0937, 0x0937, .device, 0, 500⟩,
   ⟨0x0938, 0x0938, .device, 50, 2000⟩, ⟨0x0940, 0x0940, .device, 0, 100⟩, ⟨0x0941, 0x0941, .device, 100, 10000⟩]

/-- Tables LDG-6 and LSS-9, R385, R437, R449. -/
def threshDefs4 : List ThreshDef :=
  [⟨0x0A01, 0x0A01, .link, 0, 100000⟩, ⟨0x0A02, 0x0A03, .device, 0, 1000000⟩, ⟨0x0A04, 0x0A04, .device, 100, 10000⟩,
   ⟨0x0A05, 0x0A05, .device, 0, 100⟩, ⟨0x0A06, 0x0A06, .device, 100, 3600⟩, ⟨0x0A07, 0x0A07, .device, 0, 3⟩,
   ⟨0x0A08, 0x0A08, .device, 2, 100⟩, ⟨0x0A09, 0x0A09, .device, 10, 1000⟩,
   ⟨0x0C01, 0x0C01, .watchdog, 1, 10000⟩, ⟨0x0C02, 0x0C02, .watchdog, 0, 5000⟩,
   ⟨0x0E01, 0x0E01, .device, 100, 148⟩, ⟨0x0E02, 0x0E02, .device, 151, 170⟩,
   ⟨0x0F01, 0x0F05, .port, -2147483648, 2147483647⟩, ⟨0x0F10, 0x0F13, .port, -2147483648, 2147483647⟩,
   ⟨0x0F14, 0x0F14, .port, 0, 2147483647⟩, ⟨0x0F20, 0x0F27, .port, -2147483648, 2147483647⟩,
   ⟨0x1001, 0x1004, .device, 10, 10000⟩, ⟨0x1005, 0x1005, .device, 1, 168⟩]

/-- The definition of a threshold identifier; none for an unknown one. -/
def threshDef (id : Nat) : Option ThreshDef :=
  (threshDefs1 ++ threshDefs2 ++ threshDefs3 ++ threshDefs4).find? fun d => d.first ≤ id && id ≤ d.last

/-- The fields of a packed value, and the values that a range leaves out: timings (Table MOD-20), drive codes, windows (R285), ENERGY,
slot 3 of a group (R204). -/
def packedOk (id : Nat) (v : Int) : Bool :=
  let w := ofSigned 32 v
  if (0x0210 ≤ id ∧ id ≤ 0x0213) ∨ id = 0x0218 then
    40 ≤ bitsOf w 9 0 && bitsOf w 9 0 ≤ 1000 && 50 ≤ bitsOf w 19 10 && bitsOf w 19 10 ≤ 1000
      && 20 ≤ bitsOf w 29 20 && bitsOf w 29 20 ≤ 500 && bitsOf w 31 30 == 0
  else if (0x0214 ≤ id ∧ id ≤ 0x0217) ∨ id = 0x0219 then
    bitsOf w 7 0 ≤ 15 && bitsOf w 15 8 ≤ 15 && bitsOf w 31 16 == 0
  else if 0x0910 ≤ id ∧ id ≤ 0x0916 then
    bitsOf w 15 0 ≤ 4095 && bitsOf w 31 16 ≤ 4095 && bitsOf w 15 0 ≤ bitsOf w 31 16
  else if id = 0x0114 then v == 0 || 100 ≤ v
  else if id = 0x0104 then v % 4 == 3
  else if id = 0x0F01 then
    let a := w / 2 ^ 24
    w != 0 && a != 127 && a < 224
  else true

/-! ### What admission asks of an image -/

/-- An image under admission: the variant's fuses, the BOOT_SPLIT level, the image (R60). -/
structure Adm where
  v : Variant
  split : Bool
  im : Image

/-- A threshold of the image, or its default. -/
def Adm.thr (a : Adm) (id b2 : Nat) (dflt : Int) : Int := (a.im.thresh id b2).getD dflt

/-- The image holds a threshold. -/
def Adm.hasThr (a : Adm) (id b2 : Nat) : Bool := (a.im.thresh id b2).isSome

/-- The image holds a UNITS record of a kind and instance. -/
def Adm.hasUnit (a : Adm) (kind inst : Nat) : Bool := (a.im.unitRec kind inst).isSome

/-- Some leg of function f has a role. -/
def Adm.fnHas (a : Adm) (f role : Nat) : Bool := a.im.legs.any fun r => rf r 1 1 == role && rf r 2 1 == f

/-- Function f is a charging DAB. -/
def Adm.fnDab (a : Adm) (f : Nat) : Bool := a.fnHas f 3 || a.fnHas f 4

/-- The index of the first LEGS record of function f with a role of Table SI-4. -/
def Adm.fnRec (a : Adm) (f : Nat) : Nat := (a.im.legs.findIdx? fun r => 1 ≤ rf r 1 1 && rf r 1 1 ≤ 6 && rf r 2 1 == f).getD 0

/-- The DC link of function f (THRESH 0x0220). -/
def Adm.link (a : Adm) (f : Nat) : Nat := (a.thr 0x0220 f 0).toNat

/-- The index of a THRESH record, else of the second one named, else 0. -/
def Adm.thrIdx (a : Adm) (id b2 other : Nat) : Nat :=
  match a.im.threshs.findIdx? fun r => rf r 0 2 == id && rf r 2 1 == b2 with
  | some i => i
  | none => (a.im.threshs.findIdx? fun r => rf r 0 2 == other && rf r 2 1 == b2).getD 0

/-- A sense channel is in Table SEN-2 and its unit has a UNITS record (R156). -/
def Adm.chanOk (a : Adm) (ch : Nat) : Bool :=
  if ch ≤ 0x1F then a.hasUnit 3 0
  else if 0x40 ≤ ch ∧ ch ≤ 0x6F then a.hasUnit 4 0
  else if 0x80 ≤ ch ∧ ch ≤ 0xAF then a.hasUnit 4 1
  else false

/-- The refresh limits of the round-sequence entries that name a sense channel. -/
def Adm.roundLimits (a : Adm) (ch : Nat) : List Nat :=
  ((a.im.schedKind 2).filter fun r => 0x40 ≤ ch && rf r 1 1 == (ch - 0x40) / 0x40 && rf r 3 1 == ch % 0x40).map fun r => rf r 8 4

/-! ### Findings (R62) -/

/-- Where a finding lies: code, section type, record index, item. -/
structure At where
  code : Nat
  sect : Nat
  record : Nat
  kind : Nat
  inst : Nat

/-- A finding with the value found and the limit broken. -/
def At.bad (p : At) (found limit : Int) : Finding := ⟨p.code, p.sect, p.record, p.kind, p.inst % 256, found, limit⟩

/-- A finding that compares no value with a limit: both words are open (R62 states none). -/
def At.free (p : At) : Finding :=
  p.bad (toSigned 32 (Config.findingWord p.code p.sect p.record 0).toNat) (toSigned 32 (Config.findingWord p.code p.sect p.record 1).toNat)

/-- A finding where a value lies outside a range. -/
def At.rng (p : At) (v lo hi : Int) : List Finding := if v < lo then [p.bad v lo] else if hi < v then [p.bad v hi] else []

/-- A finding where a reserved value is not zero. -/
def At.zero (p : At) (v : Nat) : List Finding := if v = 0 then [] else [p.bad v 0]

/-- A finding without numbers where a condition holds. -/
def At.when (p : At) (c : Bool) : List Finding := if c then [p.free] else []

/-- Reserved bytes of a record, from one offset to another. -/
def At.zeros (p : At) (r : List Byte) (lo hi : Nat) : List Finding :=
  (List.range (hi + 1 - lo)).flatMap fun i => p.zero (rf r (lo + i) 1)

/-- Number a list from 0. -/
def numbered {α : Type} (l : List α) : List (Nat × α) := (List.range l.length).zip l

/-- Bits set in the low byte. -/
def ones (m : Nat) : Nat := ((List.range 8).filter (bitAt m)).length

end Sys2Proof.Machine
end

