-- ==== Sys2Proof/Machine/AdmitRecords.lean ====
section
/-!
DEFINITION. Admission's first two checks: check_absent (R3) and check_records (R476), section by section.
Choices of the model: log 151, 154, 155, 158, 160, 168, 181.
-/
namespace Sys2Proof.Machine

/-! ### check_absent -/

/-- A UNITS record names a fused-off unit, or the regulator's an absent phase (R242). -/
def Adm.unitAbsent (a : Adm) (r : List Byte) : Bool :=
  let n := rf r 1 1
  match rf r 0 1 with
  | 1 => n < 8 && a.v.fes ≤ n
  | 2 => n < 8 && a.v.glks ≤ n
  | 7 => n < 4 && a.v.acs ≤ n
  | 8 => rf r 4 1 / 2 ^ a.v.bps != 0
  | 9 => !a.v.chg
  | _ => false

/-- A LEGS record names a fused-off leg, a charger's role, or an absent gate link (R47, R152). -/
def Adm.legAbsent (a : Adm) (r : List Byte) : Bool :=
  let role := rf r 1 1
  (rf r 0 1 < 48 && a.v.legs ≤ rf r 0 1) || (2 ≤ role && role ≤ 4 && !a.v.chg)
    || (role != 0 && rf r 4 1 / 16 < 8 && a.v.glks ≤ rf r 4 1 / 16)

/-- A LOOPS record names a fused-off engine or a charger's template (R2, R47). -/
def Adm.loopAbsent (a : Adm) (r : List Byte) : Bool :=
  let t := rf r 1 1
  let gone (n : Nat) : Bool := n < 8 && a.v.fes ≤ n
  gone (rf r 0 1) || ((t == 2 || t == 4) && gone (rf r 3 1))
    || (!a.v.chg && (t == 3 || t == 4 || (t == 5 && a.fnDab (rf r 2 1))))

/-- A pigeonhole names an absent core (R3). -/
def Adm.phAbsent (a : Adm) (r : List Byte) : Bool :=
  rf r 0 1 == 1 && [rf r 8 1, rf r 9 1].any fun c => unitKnown c && !unitPresent a.v c

/-- A THRESH record names an absent actuator channel or pair. -/
def Adm.thrAbsent (a : Adm) (r : List Byte) : Bool :=
  match threshDef (rf r 0 2) with
  | none => false
  | some d => rf r 2 1 < 4 && ((d.key == .channel && decide (a.v.acs ≤ rf r 2 1)) || (d.key == .watchdog && decide (a.v.pairs ≤ rf r 2 1)))

/-- The findings of one test over the records of a section. -/
def absentIn (sect : Nat) (l : List (List Byte)) (item : List Byte → Nat × Nat) (t : List Byte → Bool) : List Finding :=
  (numbered l).flatMap fun (i, r) => (At.mk 0x11 sect i (item r).1 (item r).2).when (t r)

/-- check_absent: every record that names a fused-off unit, leg, pin or template. -/
def Adm.checkAbsent (a : Adm) : List Finding :=
  absentIn 1 a.im.units (fun r => (rf r 0 1, rf r 1 1)) a.unitAbsent
  ++ absentIn 2 a.im.legs (fun r => (0x10, rf r 0 1)) a.legAbsent
  ++ absentIn 3 a.im.loops (fun r => (0x01, rf r 0 1)) a.loopAbsent
  ++ absentIn 4 a.im.sched (fun r => (0x11, rf r 1 1)) a.phAbsent
  ++ absentIn 6 a.im.threshs (fun r => (0x13, rf r 0 1)) a.thrAbsent

/-! ### UNITS (0x38, 0x39) -/

/-- The highest instance of a unit kind. -/
def topInst : Nat → Nat
  | 1 => 7 | 2 => 7 | 4 => 1 | 7 => 3 | 0x0A => 15 | 0x0C => 5 | 0x0D => 1 | _ => 0

/-- Bytes 4 to 15 of an FCV, GLK, FE or LDG record, of RND, POS and SENT (R179), of ACT (R261). DESIGN CHOICE (log 198): a REACH bit of
an absent pair is admitted. -/
def unitBytes1 (p : At) (r : List Byte) : Nat → List Finding
  | 0 => p.rng (rf r 4 2) 10 1000 ++ p.zeros r 7 15
  | 4 => p.zero (rf r 4 1 / 2) ++ p.zeros r 5 15
  | 5 => p.zero (rf r 4 1 / 2 % 8) ++ p.zeros r 5 5 ++ p.rng (rf r 6 1) 1 16 ++ p.rng (rf r 7 1) 1 16
      ++ p.rng (rf r 8 2) 1 65535 ++ p.rng (rf r 10 2) 1 65535
      ++ [12, 13].flatMap (fun o => p.rng (rf r o 1 % 16 : Nat) 0 12 ++ p.rng (rf r o 1 / 16 % 4 : Nat) 0 2 ++ p.zero (rf r o 1 / 64))
      ++ p.zeros r 14 15
  | 6 => (List.range 4).flatMap (fun i =>
        let f := rf r (5 + 2 * i) 1
        p.rng (rf r (4 + 2 * i) 1) 6 180 ++ p.rng (f % 8 : Nat) 1 6 ++ p.rng (f / 16 % 4 : Nat) 0 2)
      ++ p.rng (rf r 12 1) 1 255 ++ p.zero (rf r 13 1 / 2) ++ p.zeros r 14 15
  | 7 => p.zeros r 4 4 ++ p.rng (rf r 5 1) 1 16 ++ p.rng (rf r 6 2) 10 50 ++ p.rng (rf r 8 2) 10 1000
      ++ p.rng (rf r 10 2) 100 30000 ++ p.zeros r 12 15
  | _ => p.zeros r 4 15

/-- 0xFF for none, else a number up to a bound. -/
def At.opt (p : At) (v hi : Nat) : List Finding := if v = 0xFF then [] else p.rng v 0 hi

/-- Bytes 4 to 15 of REG (R242), CHG (R206), HLV (R235), GBX (R276), CAN and ETH (R436), THM (R385). -/
def Adm.unitBytes2 (a : Adm) (p : At) (r : List Byte) : Nat → List Finding
  | 8 => p.rng (rf r 4 1) 1 255 ++ p.zero (rf r 5 1 / 4) ++ p.rng (rf r 6 1) 1 (ones (rf r 4 1)) ++ p.zeros r 7 7
      ++ p.rng (rf r 8 2) 10500 (min 15500 (a.thr 0x0601 0xFF 16000 - 500)) ++ p.rng (rf r 10 2) 0 500 ++ p.rng (rf r 12 2) 200 1000
      ++ p.rng (rf r 14 1) 4 50 ++ p.zeros r 15 15
  | 9 => p.zero (rf r 7 1 / 4) ++ p.zeros r 8 15
  | 0x0A => p.zero (rf r 4 1 / 2) ++ p.zeros r 5 15
  | 0x0B =>
      let sensor (i : Nat) : List Finding :=
        let f := ((a.im.unitRec 6 0).map fun x => rf x (5 + 2 * rf r (8 + i) 1) 1 % 8).getD 7
        if bitAt (rf r 4 1) (i + 1) && rf r (8 + i) 1 < 4 && f < 3 then [p.bad f 3] else []
      p.zero (rf r 4 1 / 16) ++ p.opt (rf r 5 1) 15 ++ p.opt (rf r 6 1) 15 ++ p.rng (rf r 7 1) 0 3
        ++ p.opt (rf r 8 1) 3 ++ p.opt (rf r 9 1) 3 ++ p.opt (rf r 10 1) 3 ++ p.zeros r 11 15 ++ (List.range 3).flatMap sensor
  | 0x0C => p.rng (rf r 4 1 / 2 % 4 : Nat) 0 2
      ++ (if bitAt (rf r 4 1) 3 && 2 ≤ rf r 6 1 then [p.bad (rf r 6 1) 1] else [])
      ++ p.opt (rf r 5 1) 15 ++ p.rng (rf r 6 1) 0 3 ++ p.rng (rf r 7 1) 0 4 ++ p.rng (rf r 8 1) 60 90 ++ p.rng (rf r 9 1) 60 90
      ++ [10, 12].flatMap (fun o => p.rng (rf r o 2) 0 0x7FC ++ p.zero (rf r o 2 % 4)) ++ p.zeros r 14 15
  | 0x0D => p.zero (rf r 5 1 / 8) ++ p.rng (rf r 6 2) 0 4094 ++ (if bitAt (rf r 8 1) 0 then [p.bad (rf r 8 1) 0xFE] else [])
      ++ p.zeros r 14 15
  | 0x0F => p.zero (rf r 4 1 / 8) ++ p.zeros r 5 15
  | _ => []

/-- The owner of a unit names a pair, or in a split image a split core, that the variant has (R45, Table SI-10). -/
def Adm.ownerOk (a : Adm) (o : Nat) : Bool := o < (if a.split then a.v.cores else a.v.pairs)

/-- One UNITS record: kind, instance, repetition, start state, owner, bytes 4 to 15. -/
def Adm.unitRecord (a : Adm) (i : Nat) (r : List Byte) : List Finding :=
  let k := rf r 0 1
  let n := rf r 1 1
  let p : At := ⟨0x38, 1, i, k, n⟩
  (if 0x0F < k then [p.bad k 0x0F] else [])
  ++ p.when ((k == 0) != (i == 0))
  ++ (if k ≤ 0x0F then p.rng n 0 (topInst k) else [])
  ++ p.when ((a.im.units.take i).any fun x => rf x 0 1 == k && rf x 1 1 == n)
  ++ p.rng (rf r 2 1) 0 1
  ++ ({ p with code := 0x39 }).when (!a.ownerOk (rf r 3 1))
  ++ (if 0x0F < k then [] else if k < 8 ∨ k = 0x0E then unitBytes1 p r k else a.unitBytes2 p r k)

/-! ### LEGS (0x26, 0x25, 0x32) -/

/-- One LEGS record (R46, R152). A gate link above 7, which no variant has, is a field out of range (log 195). -/
def Adm.legRecord (a : Adm) (i : Nat) (r : List Byte) : List Finding :=
  let n := rf r 0 1
  let role := rf r 1 1
  let p : At := ⟨0x26, 2, i, 0x10, n⟩
  p.rng n 0 47
  ++ p.when ((a.im.legs.take i).any fun x => rf x 0 1 == n)
  ++ p.rng role 0 6
  ++ (if role = 0 then p.zeros r 2 7
      else p.rng (rf r 2 1) 0 15 ++ p.rng (rf r 4 1 / 16 : Nat) 0 7 ++ p.rng (rf r 4 1 % 16 : Nat) 0 5 ++ p.zero (rf r 7 1 / 2)
        ++ p.when ((a.im.legs.take i).any fun x => rf x 1 1 != 0 && rf x 4 1 == rf r 4 1)
        ++ (if rf r 5 1 = 0 ∨ rf r 6 1 < rf r 5 1 then [({ p with code := 0x32 }).bad (rf r 6 1) (rf r 5 1)] else []))

/-- The positions of a role in a function are 0 to n − 1, each once. -/
def Adm.positions (a : Adm) (f role n : Nat) : Bool :=
  let l := (a.im.legs.filter fun r => rf r 1 1 == role && rf r 2 1 == f).map fun r => rf r 3 1
  l.length == n && (List.range n).all l.contains

/-- A function's legs are grouped as Table SI-4 states (R47). -/
def Adm.grouped (a : Adm) (f : Nat) : Bool :=
  let roles := [1, 2, 3, 4, 5, 6].filter (a.fnHas f)
  let loops (t : Nat) : Bool := a.im.loops.any fun r => rf r 2 1 == f && rf r 1 1 == t
  if a.im.legs.any (fun r => 6 < rf r 1 1 && rf r 2 1 == f) then false
  else if roles = [1] then (a.positions f 1 3 && !loops 2) || (a.positions f 1 6 && !loops 1)
  else if roles = [2] then a.positions f 2 3
  else if roles = [3, 4] then a.positions f 3 2 && a.positions f 4 2
  else if roles = [5] then a.positions f 5 4
  else if roles = [6] then a.positions f 6 1
  else false

/-- The grouping findings of the functions whose first leg is record i. -/
def Adm.groupAt (a : Adm) (i : Nat) (r : List Byte) : List Finding :=
  let f := rf r 2 1
  (At.mk 0x25 2 i 0x10 (rf r 0 1)).when (1 ≤ rf r 1 1 && rf r 1 1 ≤ 6 && f < 16 && a.fnRec f == i && !a.grouped f)

/-! ### LOOPS (0x27) -/

/-- The number of converter groups that a template uses (Table FE-1). -/
def tmplGroups (t : Nat) : Nat := if t = 3 ∨ t = 4 then 2 else 1

/-- Bytes 20 to 31 of a LOOPS record (Table FE-10). The bit for feed-forward is the HLV converter's only. WIND's position source is a
relation (R54). -/
def Adm.tmplBytes (a : Adm) (p : At) (r : List Byte) (t : Nat) : List Finding :=
  let bases := p.rng (rf r 20 2) 10 65535 ++ p.rng (rf r 22 2) 10 11000
  match t with
  | 3 => bases ++ p.rng (rf r 26 1) 0 3 ++ p.rng (rf r 27 1) 5 255 ++ p.rng (rf r 28 2) 0x4000 0x7FFF ++ p.zero (rf r 30 1 / 4)
      ++ p.rng (rf r 31 1) 1 255
  | 4 => bases ++ p.rng (rf r 26 1) 1 16 ++ p.rng (rf r 27 1) 0 4 ++ p.rng (rf r 28 1) 0 7 ++ p.rng (rf r 29 1) 0 3
      ++ p.rng (rf r 30 1) 5 255 ++ p.zero (rf r 31 1 / 4)
  | 5 => bases ++ p.rng (rf r 24 2) 256 65535 ++ p.rng (rf r 26 2) 1 65535 ++ p.rng (rf r 28 1) 0 1 ++ p.zero (rf r 29 1 / 4)
      ++ (if a.fnDab (rf r 2 1) then p.zero (rf r 29 1 % 2) else [])
  | _ => bases ++ p.rng (rf r 26 1) 1 16 ++ p.rng (rf r 27 1) 0 4 ++ p.rng (rf r 28 2) 0x4000 0x7FFF ++ p.zero (rf r 30 1 / 8)
      ++ p.rng (rf r 31 1) 1 255

/-- One LOOPS record, each field on its own (R54). -/
def Adm.loopRecord (a : Adm) (i : Nat) (r : List Byte) : List Finding :=
  let t := rf r 1 1
  let p : At := ⟨0x27, 3, i, 0x01, rf r 0 1⟩
  p.rng (rf r 0 1) 0 7 ++ p.rng t 1 5 ++ p.rng (rf r 2 1) 0 15
  ++ (if t = 2 ∨ t = 4 then p.rng (rf r 3 1) 0 7 else p.rng (rf r 3 1) 0xFF 0xFF)
  ++ p.rng (rf r 4 4) 1000 400000 ++ p.rng (rf r 8 1) 0 1 ++ p.rng (rf r 9 1) 1 (if rf r 8 1 = 1 then 2 else 1)
  ++ (if 1 ≤ t ∧ t ≤ 5 then p.rng (ones (rf r 12 1)) (tmplGroups t) (tmplGroups t) else [])
  ++ (if t = 4 then p.rng (rf r 19 1) 0 15 else p.rng (rf r 19 1) 0xFF 0xFF)
  ++ (if 1 ≤ t ∧ t ≤ 5 then a.tmplBytes p r t else [])

/-! ### SCHED (0x2C, 0x30, 0x2F) -/

/-- The item of a network port code (0 to 5 CAN, 8 and 9 Ethernet). -/
def netItem (port : Nat) : Nat × Nat := if port < 8 then (0x0C, port) else (0x0D, port - 8)

/-- A ring size is a power of two from 16 to 4,096 (R58). -/
def ringOk (n : Nat) : Bool := (List.range 9).any fun k => n == 16 * 2 ^ k

/-- One SCHED record (R50, R58). -/
def schedRecord (i : Nat) (r : List Byte) : List Finding :=
  match rf r 0 1 with
  | 1 =>
    let p : At := ⟨0x2C, 4, i, 0x11, rf r 1 1⟩
    p.rng (rf r 1 1) 0 63 ++ p.rng (rf r 2 1) 0 2 ++ p.zeros r 3 3 ++ p.when (!ringOk (rf r 4 2)) ++ p.zeros r 10 15
  | 2 =>
    let p : At := ⟨0x30, 4, i, 0x04, rf r 1 1⟩
    p.rng (rf r 1 1) 0 1 ++ p.rng (rf r 2 1) 0 63 ++ p.rng (rf r 3 1) 0 47 ++ p.rng (rf r 4 1) 1 16 ++ p.rng (rf r 6 1) 0 15
      ++ p.zero (rf r 7 1 / 2) ++ p.zeros r 12 15
  | _ =>
    let it := netItem (rf r 1 1)
    let p : At := ⟨0x2F, 4, i, it.1, it.2⟩
    p.when (!([0, 1, 2, 3, 4, 5, 8, 9].contains (rf r 1 1))) ++ p.zeros r 2 3

/-! ### LEDGER (0x33) -/

/-- A channel of a measured port: a field-converter channel with an FS record (R293). -/
def Adm.fcWithFs (a : Adm) (ch : Nat) : Bool := ch ≤ 0x1F && a.hasThr (0x0300 + ch) 0xFF

/-- One LEDGER record (R291, R293). -/
def Adm.portRecord (a : Adm) (i : Nat) (r : List Byte) : List Finding :=
  let n := rf r 0 1
  let k := rf r 1 1
  let b := rf r 2 1
  let p : At := ⟨0x33, 5, i, 0x12, n⟩
  let before := a.im.ledger.take i
  p.rng n 0 11 ++ p.when (before.any fun x => rf x 0 1 == n) ++ p.rng k 1 5
  ++ (if k = 1 then p.rng b 0 3 else if k = 2 then p.opt b 3 else if k = 3 then [] else if k = 4 ∨ k = 5 then p.rng b 0xFF 0xFF else [])
  ++ p.when (k == 1 && before.any fun x => rf x 1 1 == 1 && rf x 2 1 == b)
  ++ p.zeros r 3 3 ++ p.zeros r 6 7 ++ p.zeros r 24 31
  ++ (if k = 1 ∨ k = 2 then [4, 5].flatMap fun o => p.when (!a.fcWithFs (rf r o 1))
      else if k ≤ 5 then [4, 5].flatMap fun o => p.rng (rf r o 1) 0xFF 0xFF else [])
  ++ p.when (k == 3 && !([1, 2, 3, 4, 5, 6].any (a.fnHas b)))
  ++ p.when ((k == 4 && !a.hasUnit 9 0) || (k == 5 && !a.hasUnit 8 0))
  ++ p.rng (rf r 8 4) 0 2000000 ++ p.rng (rf r 12 4) 0 2000000 ++ p.rng (rf r 16 4) 0 100000 ++ p.rng (rf r 20 4) 100 100000

/-! ### THRESH (0x32) -/

/-- One THRESH record: known, byte 2, reserved byte, range, not a repeat (R52). -/
def Adm.thrRecord (a : Adm) (i : Nat) (r : List Byte) : List Finding :=
  let id := rf r 0 2
  let v := rfi r 4 4
  let p : At := ⟨0x32, 6, i, 0x13, id⟩
  p.when ((a.im.threshs.take i).any fun x => rf x 0 2 == id && rf x 2 1 == rf r 2 1)
  ++ p.zeros r 3 3
  ++ match threshDef id with
    | none => [p.free]
    | some d => p.when (!d.key.ok (rf r 2 1)) ++ p.rng v d.lo d.hi ++ p.when (d.lo ≤ v && v ≤ d.hi && !packedOk id v)

/-- A relation between two thresholds with the same byte 2, of identifiers x and y with their defaults: broken where `bad` holds of their
values; reported at x's record, else at y's. -/
def Adm.rel2 (a : Adm) (x y b2 : Nat) (dx dy : Int) (bad : Int → Int → Bool) : List (Nat × Nat) :=
  if bad (a.thr x b2 dx) (a.thr y b2 dy) then [(a.thrIdx x b2 y, x)] else []

/-- A window of the gearbox sequencer (R285). -/
def Adm.window (a : Adm) (id : Nat) : Option (Nat × Nat) :=
  (a.im.thresh id 0xFF).map fun v => (bitsOf (ofSigned 32 v) 15 0, bitsOf (ofSigned 32 v) 31 16)

/-- Two windows overlap. -/
def Adm.overlap (a : Adm) (x y : Nat) : Bool :=
  match a.window x, a.window y with
  | some p, some q => p.1 ≤ q.2 && q.1 ≤ p.2
  | _, _ => false

/-- NEUTRAL does not lie between GEAR1 and GEAR2. -/
def Adm.neutralOut (a : Adm) : Bool :=
  match a.window 0x0910, a.window 0x0911, a.window 0x0912 with
  | some g1, some n, some g2 => !((g1.2 < n.1 && n.2 < g2.1) || (g2.2 < n.1 && n.2 < g1.1))
  | _, _, _ => false

/-- An Ethernet port's 64-bit SCI or 128-bit address is out of range (R437). -/
def Adm.wordsOf (a : Adm) (ids : List Nat) (port : Nat) : Nat :=
  ids.foldl (fun acc id => acc * 2 ^ 32 + ofSigned 32 (a.thr id port 0)) 0

/-- The relations of one Ethernet port's thresholds. -/
def Adm.ethRel (a : Adm) (port : Nat) : List (Nat × Nat) :=
  let some' (ids : List Nat) : Bool := ids.any fun id => a.hasThr id port
  let at1 (id : Nat) : Nat × Nat := (a.thrIdx id port (id + 1), id)
  let ip := [0x0F02, 0x0F03, 0x0F04, 0x0F05]
  let ipv6 := a.wordsOf ip port
  let sci (id : Nat) : List (Nat × Nat) :=
    let w := a.wordsOf [id, id + 1] port
    if some' [id, id + 1] && (w / 2 ^ 16 == 0 || bitAt w 56 || w % 2 ^ 16 == 0) then [at1 id] else []
  let gates := (List.range 8).map (0x0F20 + ·)
  let cycle := gates.foldl (fun t id => t + ofSigned 32 (a.thr id port 0) % 2 ^ 28) 0
  (if some' ip && (ipv6 ≤ 1 || ipv6 / 2 ^ 120 == 0xFF) then
      match ip.find? (a.hasThr · port) with | some id => [at1 id] | none => [] else [])
  ++ sci 0x0F10 ++ sci 0x0F12
  ++ (if some' gates && !(10000 ≤ cycle && cycle ≤ 10000000) then
      match gates.find? (a.hasThr · port) with | some id => [at1 id] | none => [] else [])

/-- 1.25 × IDT exceeds a td of a profile in use (R152): the TRA bands, the other roles' profile. -/
def Adm.idtBad (a : Adm) : Bool :=
  let idt := a.thr 0x0202 0xFF 50
  let beyond (id : Nat) (dflt : Nat) : Bool := decide (4 * (bitsOf (ofSigned 32 (a.thr id 0xFF dflt)) 9 0 : Int) < 5 * idt)
  (a.im.legs.any (fun r => rf r 1 1 == 1) && (List.range 4).any fun b => beyond (0x0210 + b) (resetWord (R.MOD_TBAND0 + 4 * b)))
  || (a.im.legs.any (fun r => 2 ≤ rf r 1 1 && rf r 1 1 ≤ 6) && beyond 0x0218 (resetWord R.MOD_PPROF))

/-- The relations of thresholds (R152, R204, R231, R240, R256, R275, R285, R343, R385, R437): (record, identifier). -/
def Adm.thrRelations (a : Adm) : List (Nat × Nat) :=
  (if a.idtBad then [(a.thrIdx 0x0202 0xFF 0x0218, 0x0202)] else [])
  ++ (List.range 16).flatMap (fun f => a.rel2 0x0129 0x0128 f 500 1000 fun c o => decide (o < c))
  ++ (if a.hasThr 0x0505 0xFF then a.rel2 0x0505 0x0501 0xFF 0 760 fun o b => decide (o < b + 20) else [])
  ++ a.rel2 0x0506 0x0507 0xFF 200 1000 (fun l h => decide (h ≤ l))
  ++ a.rel2 0x050D 0x050E 0xFF 0 55 (fun l h => decide (h ≤ l))
  ++ a.rel2 0x0604 0x0603 0xFF 200 600 (fun l h => decide (h ≤ l))
  ++ a.rel2 0x0609 0x0608 0xFF 40 15 (fun ad sh => decide (ad ≤ 2 * sh))
  ++ (match a.im.unitRec 8 0 with
      | some r => if a.hasThr 0x0601 0xFF && decide (a.thr 0x0601 0xFF 0 < rf r 8 2 + 500) then [(a.thrIdx 0x0601 0xFF 0x0601, 0x0601)] else []
      | none => [])
  ++ (List.range 16).flatMap (fun f => a.rel2 0x0705 0x0701 f 480 600 fun v o => decide (o - 20 < v))
  ++ (List.range 4).flatMap (fun k =>
      a.rel2 0x0807 0x0808 k 1000 500 (fun c o => decide (c < o))
      ++ a.rel2 0x080E 0x080D k 580 540 (fun o v => decide (o < v + 20))
      ++ a.rel2 0x081D 0x081C k 1500 20 (fun h l => decide (h ≤ l))
      ++ a.rel2 0x0C02 0x0C01 k 0 100 (fun lo hi => decide (hi < 2 * lo)))
  ++ [(0x0910, 0x0911), (0x0910, 0x0912), (0x0911, 0x0912), (0x0913, 0x0914), (0x0915, 0x0916)].flatMap
      (fun (x, y) => if a.overlap x y then [(a.thrIdx y 0xFF y, y)] else [])
  ++ (if a.neutralOut then [(a.thrIdx 0x0911 0xFF 0x0911, 0x0911)] else [])
  ++ a.rel2 0x0E02 0x0E01 0xFF 158 140 (fun sh th => decide (sh < th + 14))
  ++ a.ethRel 8 ++ a.ethRel 9

/-- The findings of the relations that fall on record i. -/
def Adm.relAt (rel : List (Nat × Nat)) (i : Nat) : List Finding :=
  (rel.filter fun x => x.1 == i).map fun x => (At.mk 0x32 6 i 0x13 x.2).free

/-! ### PINS (0x34) and TABLES (0x35) -/

/-- One PINS record (R465, R59). -/
def Adm.pinRecord (a : Adm) (i : Nat) (r : List Byte) : List Finding :=
  let n := rf r 0 2
  let f := rf r 2 1
  let p : At := ⟨0x34, 7, i, 0x14, n⟩
  let before := a.im.pins.take i
  p.rng n 0 31 ++ p.when (before.any fun x => rf x 0 2 == n) ++ p.rng f 0 5
  ++ p.when (2 ≤ f && f ≤ 5 && before.any fun x => rf x 2 1 == f)
  ++ p.rng (rf r 3 1) 0 2 ++ p.rng (rf r 4 1) 0 (if f = 0 ∨ f = 4 then 0 else 1) ++ p.zeros r 5 7

/-- The format of a table kind (Table FE-6). -/
def kindFormat : Nat → Nat | 1 => 0 | 2 => 2 | 3 => 3 | 4 => 0 | _ => 3

/-- The signed Q16.16 values of a table, in µH. -/
def tableVals (t : TableRec) : List Int := (List.range (t.data.length / 4)).map fun j => toSigned 32 (leAt t.data (4 * j) 4)

/-- The loop uses a table identifier. -/
def loopUses (r : List Byte) (id : Nat) : Bool := rf r 16 2 ≤ id && id < rf r 16 2 + rf r 18 1

/-- The update spacing of a LOOPS record in CTRL cycles. -/
def recSpacing (r : List Byte) : Rat := (rf r 4 4 : Rat) / (rf r 9 1 : Rat)

/-- The gain G of Table FE-5 that an entry in 1/65536 µH gives a loop: it rounds to 0 in Q10.22, or lies above 511. Log 258. -/
def gainBad (r : List Byte) (v : Int) : Bool :=
  let g : Rat := (v : Rat) / 65536 / 1000000 * (rf r 20 2 : Rat) / ((rf r 22 2 : Rat) * (recSpacing r / 400000000))
  nearest (g * 4194304) ≤ 0 || decide (511 < g)

/-- One TABLES header with its data (R51, R59, R113). -/
def Adm.tableRecord (a : Adm) (i : Nat) (t : TableRec) : List Finding :=
  let h := t.header
  let id := rf h 0 2
  let k := rf h 2 1
  let p : At := ⟨0x35, 8, i, 0x15, id⟩
  let size := rf h 4 2 * rf h 6 2 * (tabFormat (rf h 3 1)).1
  let off := rf h 24 4
  let before := a.im.tables.take i
  let ofs (x : TableRec) : Nat := rf x.header 24 4
  let len (x : TableRec) : Nat := rf x.header 28 4
  p.rng k 1 5 ++ (if 1 ≤ k ∧ k ≤ 5 then p.when (rf h 3 1 != kindFormat k) else p.rng (rf h 3 1) 0 3)
  ++ p.when (before.any fun x => rf x.header 0 2 == id)
  ++ p.rng (rf h 4 2) 1 256 ++ p.rng (rf h 6 2) 1 256
  ++ p.rng (rfi h 12 4) 1 2147483647 ++ p.rng (rfi h 20 4) 1 2147483647
  ++ p.zero (off % 32) ++ (if rf h 28 4 = size then [] else [p.bad (rf h 28 4) size])
  ++ p.rng (off + rf h 28 4) 0 2097152
  ++ p.when (before.any fun x => off < ofs x + len x && ofs x < off + rf h 28 4)
  ++ (if k = 2 ∨ k = 5 then
      let vals := tableVals t
      p.when (vals.any fun v => v ≤ 0)
      ++ p.when (a.im.loops.any fun r => loopUses r id && (a.loopRecord 0 r).isEmpty && vals.any fun v => decide (0 < v) && gainBad r v)
      else [])

/-! ### check_records -/

/-- check_records: every field of every record (R476), section by section in record order. DESIGN CHOICE (log 196): the findings of this
check that relate records (0x25, repeats, overlaps, the relations of thresholds) come with the record they fall on. -/
def Adm.checkRecords (a : Adm) : List Finding :=
  let rel := a.thrRelations
  (if a.im.units.isEmpty then [(At.mk 0x38 1 0 0 0).free] else [])
  ++ (numbered a.im.units).flatMap (fun (i, r) => a.unitRecord i r)
  ++ (numbered a.im.legs).flatMap (fun (i, r) => a.legRecord i r ++ a.groupAt i r)
  ++ (numbered a.im.loops).flatMap (fun (i, r) => a.loopRecord i r)
  ++ (numbered a.im.sched).flatMap (fun (i, r) => schedRecord i r)
  ++ (numbered a.im.ledger).flatMap (fun (i, r) => a.portRecord i r)
  ++ (numbered a.im.threshs).flatMap (fun (i, r) => a.thrRecord i r ++ Adm.relAt rel i)
  ++ (numbered a.im.pins).flatMap (fun (i, r) => a.pinRecord i r)
  ++ (numbered a.im.tables).flatMap (fun (i, t) => a.tableRecord i t)

end Sys2Proof.Machine
end

