-- ==== Sys2Proof/Machine/AdmitRelations.lean ====
section
/-!
DEFINITION. Admission's checks that relate records to one another: references, interlocks, ladder, loops, converters, rounds, traffic and
queue memory (R53 to R59, and the findings each chapter adds to them).
Choices of the model: log 153, 156, 157, 159, 161, 162, 163, 164, 165, 166, 180.
-/
namespace Sys2Proof.Machine

/-! ### check_references (0x36) -/

/-- A finding of UNITS record i for each condition that holds. -/
def unitRefs (i : Nat) (r : List Byte) (l : List Bool) : List Finding :=
  l.flatMap fun c => (At.mk 0x36 1 i (rf r 0 1) (rf r 1 1)).when c

/-- The charger's references (R206, R310, R465). -/
def Adm.chgRefs (a : Adm) (r : List Byte) : List Bool :=
  let afe := rf r 4 1
  let dab := rf r 5 1
  let wind := rf r 6 1
  let pin (f : Nat) : Bool := a.im.pins.any fun x => rf x 2 1 == f
  [!a.fnDab dab, afe == 0xFF && wind == 0xFF, afe != 0xFF && !a.fnHas afe 2,
   wind != 0xFF && !(a.im.loops.any fun x => rf x 1 1 == 4 && rf x 2 1 == wind && rf x 19 1 == dab),
   afe != 0xFF && a.link afe != a.link dab, wind != 0xFF && a.link wind != a.link dab,
   !a.hasThr 0x0505 0xFF, !a.hasThr 0x0A07 0xFF, !(pin 2 && pin 3 && pin 4)]

/-- A position source is enabled in the POS record (R179). -/
def Adm.posOn (a : Adm) (n : Nat) : Bool := match a.im.unitRec 5 0 with
  | some r => n < 4 && bitAt (rf r 4 1) (4 + n)
  | none => false

/-- The sequencer's references and required thresholds (R276, R285). -/
def Adm.gbxRefs (a : Adm) (r : List Byte) : List Bool :=
  let declared (i : Nat) : Bool := bitAt (rf r 4 1) (i + 1)
  let need (c : Bool) (ids : List Nat) : List Bool := ids.map fun id => c && !a.hasThr id 0xFF
  (List.range 3).flatMap (fun i => [declared i && (3 < rf r (8 + i) 1 || !a.hasUnit 6 0), declared i && !a.hasUnit 7 i])
  ++ [declared 0 && !a.fnHas (rf r 5 1) 1, declared 2 && !a.fnHas (rf r 6 1) 1, !a.posOn (rf r 7 1)]
  ++ need (declared 0) [0x0901, 0x0902, 0x0910, 0x0911, 0x0912] ++ need (declared 1) [0x0913, 0x0914]
  ++ need (declared 2) [0x0903, 0x0915, 0x0916] ++ need (rf r 5 1 != 0xFF) [0x0904] ++ need (rf r 6 1 != 0xFF) [0x0905]

/-- A unit that needs the ledger's record (R290). -/
def Adm.needsLedger (a : Adm) : Bool :=
  a.im.legs.any (fun r => rf r 1 1 == 1 || rf r 1 1 == 5 || rf r 1 1 == 6) || a.hasUnit 9 0 || a.hasUnit 8 0

/-- One UNITS record's references (R173, R235, R256, R275, R436); the device record stands for a ledger record that is missing. -/
def Adm.unitRef (a : Adm) (i : Nat) (r : List Byte) : List Finding :=
  let n := rf r 1 1
  unitRefs i r <| match rf r 0 1 with
  | 0 => [a.needsLedger && !a.hasUnit 0x0E 0]
  | 5 => (List.range 2).map fun k => bitAt (rf r 4 1) (4 + k) && !a.hasThr (0x0341 + k) 0xFF
  | 7 => [!a.hasThr 0x0802 n, !a.hasThr 0x0803 n]
  | 8 => [!a.hasThr 0x0610 0xFF, (a.roundLimits (a.thr 0x0610 0xFF 0).toNat).any fun l => l == 0 || 20000 < l]
  | 9 => a.chgRefs r
  | 0x0A => [!a.fnHas n 5]
  | 0x0B => a.gbxRefs r
  | 0x0D => [if bitAt (rf r 4 1) 3 then [0x0F02, 0x0F03, 0x0F04, 0x0F05].any (fun id => !a.hasThr id (8 + n)) else !a.hasThr 0x0F01 (8 + n)]
  | _ => []

/-- What a function of LEGS record i lacks (R199, R204, R235): reported once, at its first leg. -/
def Adm.fnRef (a : Adm) (i : Nat) (r : List Byte) : List Finding :=
  let f := rf r 2 1
  let role := rf r 1 1
  let k := a.link f
  let p : At := ⟨0x36, 2, i, 0x10, rf r 0 1⟩
  let need (l : List (Nat × Nat)) : List Finding := l.flatMap fun (id, b) => p.when (!a.hasThr id b)
  if f < 16 ∧ a.fnRec f = i then
    match role with
    | 1 =>
      let blind := a.im.loops.any (fun x => rf x 2 1 == f && (rf x 1 1 == 1 || rf x 1 1 == 2) && rf x 27 1 == 4)
      need [(0x0120, f), (0x0123, f), (0x0102, k), (0x0103, k), (0x0104, k)]
        ++ (if blind || a.thr 0x0127 f 0 % 2 == 1 then need ((List.range 4).map fun j => (0x0130 + j, f)) else [])
    | 5 => p.when (!a.hasUnit 0x0A f)
    | 6 =>
      let lims := a.roundLimits (a.thr 0x0113 f 0).toNat
      need [(0x0101, k), (0x0104, k), (0x0112, f), (0x0113, f), (0x0116, f)]
        ++ p.when (a.hasThr 0x0113 f && (lims.isEmpty || lims.any fun l => l == 0 || 50000 < l))
    | _ => []
  else []

/-- The function of a loop has the legs that Table FE-1 gives the template. -/
def Adm.loopFnOk (a : Adm) (t f : Nat) : Bool :=
  if t = 3 then a.fnHas f 2 else if t = 5 then a.fnHas f 5 || a.fnDab f else a.fnHas f 1

/-- The tables that a template needs (Table FE-1). -/
def tmplTables : Nat → List Nat
  | 1 => [1, 2, 3] | 2 => [1, 2, 3, 5] | 3 => [5] | 4 => [2, 3, 5] | _ => []

/-- The kinds of the tables a loop names; an identifier that no table or more than one has is not resolved (R113). -/
def Adm.loopKinds (a : Adm) (r : List Byte) : List (Option Nat) :=
  (List.range (rf r 18 1)).map fun j =>
    match a.im.tables.filter fun t => rf t.header 0 2 == rf r 16 2 + j with
    | [t] => some (rf t.header 2 1)
    | _ => none

/-- One LOOPS record's references (R113, R119, R160, R179). -/
def Adm.loopRef (a : Adm) (i : Nat) (r : List Byte) : List Finding :=
  let t := rf r 1 1
  let p : At := ⟨0x36, 3, i, 0x01, rf r 0 1⟩
  let kinds := a.loopKinds r
  let known := kinds.filterMap id
  p.when (1 ≤ t && t ≤ 5 && !a.loopFnOk t (rf r 2 1))
  ++ p.when (rf r 12 1 != 0 && !a.hasUnit 3 0)
  ++ ((List.range 8).filter (bitAt (rf r 12 1))).flatMap (fun g => (List.range 4).flatMap fun c => p.when (!a.hasThr (0x0300 + 4 * g + c) 0xFF))
  ++ p.when ((t == 1 || t == 2 || t == 4) && rf r 27 1 < 4 && !a.posOn (rf r 27 1))
  ++ p.when (t == 4 && !bitAt (rf r 12 1) (rf r 28 1))
  ++ kinds.flatMap (fun k => p.when k.isNone)
  ++ p.when (!((tmplTables t).all known.contains) || [1, 2, 3, 5].any fun k => 1 < known.count k)

/-- A unit code that may produce letters or consume receipts (R76). -/
def Adm.endpoint (a : Adm) (c : Nat) : Bool :=
  (0x30 ≤ c && c ≤ 0x35) || c == 0x38 || c == 0x39 || (if a.split then 0x48 ≤ c && c ≤ 0x4F else 0x40 ≤ c && c ≤ 0x43)

/-- The port code of a network unit code. -/
def netPort (c : Nat) : Nat := c - 0x30

/-- ETH0 and ETH1 are both 802.1CB members (R423). -/
def Adm.mergedPorts (a : Adm) : Bool := [0, 1].all fun p => match a.im.unitRec 0x0D p with
  | some r => bitAt (rf r 4 1) 5
  | none => false

/-- The bit rates of a CAN record's codes (Table NET-8). -/
def nominalRate : Nat → Nat | 0 => 125000 | 1 => 250000 | 2 => 500000 | _ => 1000000
def dataRate : Nat → Nat | 0 => 1000000 | 1 => 2000000 | 2 => 4000000 | 3 => 5000000 | _ => 8000000

/-- A network-load record's rates are those of its port's record (R436). -/
def Adm.ratesOk (a : Adm) (r : List Byte) : Bool :=
  let p := rf r 1 1
  if p < 6 then match a.im.unitRec 0x0C p with
    | some u => rf r 4 4 == nominalRate (rf u 6 1) && rf r 8 4 == dataRate (rf u 7 1)
    | none => false
  else match a.im.unitRec 0x0D (p - 8) with
    | some u => rf r 4 4 == (if bitAt (rf u 4 1) 2 then 1000000000 else 100000000)
    | none => false

/-- One SCHED record's references (R76, R156, R423, R436). -/
def Adm.schedRef (a : Adm) (i : Nat) (r : List Byte) : List Finding :=
  match rf r 0 1 with
  | 1 =>
    let p : At := ⟨0x36, 4, i, 0x11, rf r 1 1⟩
    let prod := rf r 8 1
    let cons := rf r 9 1
    let letter := cons == 0 && a.endpoint prod
    p.when (!letter && !(prod == 0 && a.endpoint cons))
    ++ p.when (letter && !(a.im.schedKind 1).any fun x => rf x 8 1 == 0 && rf x 9 1 == prod)
    ++ p.when (letter && prod < 0x40 && !(a.im.schedKind 3).any fun x => rf x 1 1 == netPort prod)
    ++ p.when (a.mergedPorts && prod == 0x39)
  | 2 => (At.mk 0x36 4 i 0x04 (rf r 1 1)).when (rf r 1 1 ≤ 1 && !a.hasUnit 4 (rf r 1 1))
  | _ => (At.mk 0x36 4 i (netItem (rf r 1 1)).1 (netItem (rf r 1 1)).2).when (!a.ratesOk r)

/-- One LEDGER record's references (R156, R179). -/
def Adm.portRef (a : Adm) (i : Nat) (r : List Byte) : List Finding :=
  if rf r 1 1 = 1 ∨ rf r 1 1 = 2 then [4, 5].flatMap fun o => (At.mk 0x36 5 i 0x12 (rf r 0 1)).when (!a.chanOk (rf r o 1)) else []

/-- The identifiers whose value is a sense channel. -/
def chanIds : List Nat := [0x0104, 0x0113, 0x0130, 0x0131, 0x0132, 0x0610, 0x0611]

/-- One THRESH record's references: its channel (R156), the FS records of the group that the link watch samples (R160, R195), its
function. -/
def Adm.thrRef (a : Adm) (i : Nat) (r : List Byte) : List Finding :=
  let id := rf r 0 2
  let v := (rfi r 4 4).toNat
  let p : At := ⟨0x36, 6, i, 0x13, id⟩
  p.when (chanIds.contains id && !a.chanOk v)
  ++ (if id = 0x0104 ∧ v ≤ 0x1F then (List.range 4).flatMap fun c => p.when (!a.hasThr (0x0300 + v / 4 * 4 + c) 0xFF) else [])
  ++ match threshDef id with
    | some d => p.when (d.key == .function && rf r 2 1 < 16 && !([1, 2, 3, 4, 5, 6].any (a.fnHas (rf r 2 1))))
    | none => []

/-- check_references. -/
def Adm.checkReferences (a : Adm) : List Finding :=
  (numbered a.im.units).flatMap (fun (i, r) => a.unitRef i r)
  ++ (numbered a.im.legs).flatMap (fun (i, r) => a.fnRef i r)
  ++ (numbered a.im.loops).flatMap (fun (i, r) => a.loopRef i r)
  ++ (numbered a.im.sched).flatMap (fun (i, r) => a.schedRef i r)
  ++ (numbered a.im.ledger).flatMap (fun (i, r) => a.portRef i r)
  ++ (numbered a.im.threshs).flatMap (fun (i, r) => a.thrRef i r)

/-! ### check_interlocks (0x37) and check_ladder (0x31) -/

/-- A WIND loop needs its FOC6 motor function, GBX, AC1 and AC2 (R59). -/
def Adm.checkInterlocks (a : Adm) : List Finding :=
  (numbered a.im.loops).flatMap fun (i, r) =>
    (At.mk 0x37 3 i 0x01 (rf r 0 1)).when (rf r 1 1 == 4 &&
      !((a.im.loops.any fun x => rf x 1 1 == 2 && rf x 2 1 == rf r 2 1) && a.hasUnit 0x0B 0 && a.hasUnit 7 1 && a.hasUnit 7 2))

/-- Findings in the order of their records (R53). -/
def inRecordOrder (l : List Finding) : List Finding :=
  l.mergeSort fun x y => decide (x.sect < y.sect) || (x.sect == y.sect && decide (x.record ≤ y.record))

/-- The ladder of DC link k (R59, R204). A value outside 1 to 1,000 V leaves its link unchecked. -/
def Adm.ladder (a : Adm) (k : Nat) : List Finding :=
  let chops := (List.range 16).filter fun f => a.fnHas f 6 && a.link f == k
  let at_ (id : Nat) : At := ⟨0x31, 6, a.thrIdx id k id, 0x13, id⟩
  let vals := [0x0101, 0x0102, 0x0103].filterMap fun id => (a.im.thresh id k).map fun v => (id, v)
  let step (x y : Nat × Int) : List Finding := if y.2 < x.2 + 10 then [(at_ y.1).bad y.2 (x.2 + 10)] else []
  if vals.any fun x => x.2 < 1 ∨ 1000 < x.2 then []
  else
    (if 1 < chops.length then [(At.mk 0x31 2 (a.fnRec (chops.getD 1 0)) 0x10 0).bad chops.length 1] else [])
    ++ (if chops.isEmpty && a.hasThr 0x0101 k then [(at_ 0x0101).free] else [])
    ++ (match vals with
      | [x, y] => step x y
      | [x, y, z] => step x y ++ step y z
      | _ => [])
    ++ chops.flatMap fun f => match a.im.thresh 0x0101 k, a.im.thresh 0x0102 k with
        | some c, some l => if l < c + a.thr 0x0111 f 20 then [(at_ 0x0101).bad (c + a.thr 0x0111 f 20) l] else []
        | _, _ => []

/-- check_ladder (R59). -/
def Adm.checkLadder (a : Adm) : List Finding := inRecordOrder ((List.range 4).flatMap a.ladder)

/-! ### check_loops (0x27, 0x28, 0x29) -/

/-- The loop's fields are all in range (R54). -/
def Adm.loopFine (a : Adm) (r : List Byte) : Bool := (a.loopRecord 0 r).isEmpty

/-- The rules of R49 on engine sharing and partners. -/
def Adm.r49 (a : Adm) (r : List Byte) : Bool :=
  let own := a.im.loops.filter fun x => rf x 0 1 == rf r 0 1
  let pairOk := match own with
    | [_] => true
    | [x, y] => ((rf x 1 1 == 2 && rf y 1 1 == 4) || (rf x 1 1 == 4 && rf y 1 1 == 2)) && rf x 2 1 == rf y 2 1 && rf x 3 1 == rf y 3 1
    | _ => false
  pairOk && (!(rf r 1 1 == 2 || rf r 1 1 == 4) ||
    (rf r 3 1 != rf r 0 1 && a.im.loops.any fun x => rf x 0 1 == rf r 3 1 && rf x 1 1 == rf r 1 1 && rf x 2 1 == rf r 2 1
      && rf x 3 1 == rf r 0 1 && (x.drop 4).take 8 == (r.drop 4).take 8 && rf x 13 3 == rf r 13 3))

/-- The base of a slot: true for V_BASE (R106, R117, R118). -/
def slotVolt (r : List Byte) (g slot : Nat) : Bool :=
  let groups := (List.range 8).filter (bitAt (rf r 12 1))
  match rf r 1 1 with
  | 3 => if groups.head? == some g then slot == 3 else slot != 3
  | 4 => if rf r 28 1 == g then true else slot == 3
  | 5 => slot == 1 || slot == 2
  | _ => slot == 3

/-- The per-unit factors above 511 of a loop (R106). -/
def Adm.factors (a : Adm) (p : At) (r : List Byte) : List Finding :=
  ((List.range 8).filter (bitAt (rf r 12 1))).flatMap fun g => (List.range 4).flatMap fun c =>
    let fs := (a.thr (0x0300 + 4 * g + c) 0xFF 0).toNat
    let base := rf r (if slotVolt r g c then 22 else 20) 2
    if 511 * base < fs then [p.bad (fs / base : Nat) 511] else []

/-- check_loops on one record. -/
def Adm.loopAt (a : Adm) (i : Nat) (r : List Byte) : List Finding :=
  if !a.loopFine r then []
  else
    let p : At := ⟨0x27, 3, i, 0x01, rf r 0 1⟩
    let per := rf r 4 4
    let up := rf r 9 1
    let lead := rf r 10 2
    let rate := 400000000 * up / per
    let t := rf r 1 1
    let rpp := match a.im.unitRec 5 0 with | some u => rf u (6 + rf r 27 1) 1 | none => 1
    p.when (!a.r49 r)
    ++ (if 400000 * per < 400000000 * up then [({ p with code := 0x28 }).bad rate 400000] else [])
    ++ (if lead < 100 then [({ p with code := 0x29 }).bad lead 100] else [])
    ++ (if per < lead * up then [({ p with code := 0x29 }).bad lead (per / up : Nat)] else [])
    ++ (if per ≤ rf r 13 3 then [p.bad (rf r 13 3) (per - 1 : Nat)] else [])
    ++ a.factors p r
    ++ (if (t = 1 ∨ t = 2 ∨ t = 4) ∧ rf r 27 1 < 2 ∧ rpp ≠ 0 ∧ rf r 26 1 % rpp ≠ 0 then [p.bad (rf r 26 1) rpp] else [])
    ++ (if t = 4 ∧ rf r 27 1 = 4 then [p.bad 4 3] else [])
    ++ (if t = 5 ∧ a.fnDab (rf r 2 1) ∧ 400000000 * up < 125000 * per then [p.bad rate 125000] else [])
    ++ (if t = 5 ∧ a.fnHas (rf r 2 1) 5 ∧ rf r 28 1 ≠ 1 then [p.bad (rf r 28 1) 1] else [])

def Adm.checkLoops (a : Adm) : List Finding := (numbered a.im.loops).flatMap fun (i, r) => a.loopAt i r

/-! ### check_converters (0x2A, 0x2B) -/

/-- The sample instants of a record over the hyperperiod, in half CTRL cycles (a peak of an odd period falls on a half). -/
def instants (r : List Byte) (h : Nat) : List Nat :=
  let per := rf r 4 4
  (List.range (h / per)).flatMap fun k =>
    let u := 2 * (rf r 13 3 + k * per)
    (if rf r 9 1 = 2 ∧ rf r 8 1 = 1 then [u, u + per] else [u]).map fun (x : Nat) => (((x : Int) - 2 * (rf r 10 2 : Int)) % ((2 * h : Nat) : Int)).toNat

/-- The neighbours of a sorted list, the last with the first one turn later. -/
def neighbours (turn : Nat) (l : List (Nat × Nat)) : List ((Nat × Nat) × (Nat × Nat)) :=
  match l with
  | [] => []
  | x :: t => l.zip (t ++ [(x.1 + turn, x.2)])

/-- The neighbouring sample instants of one group, over a set of numbered records, that lie closer than 27 cycles: (half cycle, record). -/
def tooClose (h g : Nat) (l : List (Nat × List Byte)) : List ((Nat × Nat) × (Nat × Nat)) :=
  let pts := (l.filter fun x => bitAt (rf x.2 12 1) g).flatMap fun x => (instants x.2 h).map fun t => (t, x.1)
  (neighbours (2 * h) (pts.mergeSort fun x y => x.1 ≤ y.1)).filter fun (x, y) => y.1 - x.1 < 54

/-- The spacing findings of the passes over one group: a pair that several passes show is one finding, at the record of its later
instant (log 222). -/
def spacing (h g : Nat) (passes : List (List (Nat × List Byte))) : List Finding :=
  ((passes.flatMap (tooClose h g)).eraseDups).map fun (x, y) => (At.mk 0x2A 3 y.2 0x16 g).bad ((y.1 - x.1) / 2 : Nat) 27

/-- The machine of a FOC6 or WIND record: the lower of its two engines. -/
def machineOf (r : List Byte) : Nat := min (rf r 0 1) (rf r 3 1)
/-- The machines with a FOC6 and a WIND loop, which never run together (R49). -/
def twinMachines (l : List (Nat × List Byte)) : List Nat :=
  (List.range 8).filter fun k => [2, 4].all fun t => l.any fun x => rf x.2 1 1 == t && machineOf x.2 == k
/-- The records of pass p: of each twin machine either the FOC6 or the WIND loop, by a bit of p. -/
def passOf (l : List (Nat × List Byte)) (p : Nat) : List (Nat × List Byte) :=
  l.filter fun x => (numbered (twinMachines l)).all fun (i, k) =>
    machineOf x.2 != k || rf x.2 1 1 != (if bitAt p i then 2 else 4)

/-- The record whose period takes the least common multiple past the limit (R55). -/
def overHyper : List (Nat × List Byte) → Nat → Option (Nat × Nat)
  | [], _ => none
  | (i, r) :: t, h =>
    let h1 := Nat.lcm h (rf r 4 4)
    if 1048576 < h1 then some (i, h1) else overHyper t h1

/-- check_converters, over every LOOPS record (R55). WIND and FOC6 loops of one machine are checked in separate passes (R49). A 0x2B
finding names the record whose period takes the hyperperiod past the limit and shows the largest signed word where it does not fit
(log 223). -/
def Adm.checkConverters (a : Adm) : List Finding :=
  let all := numbered a.im.loops
  let h := all.foldl (fun h x => Nat.lcm h (rf x.2 4 4)) 1
  if 1048576 < h then
    let i := ((overHyper all 1).map (·.1)).getD 0
    [(At.mk 0x2B 3 i 0x01 (rf (a.im.loops.getD i []) 0 1)).bad (min h 2147483647 : Nat) 1048576]
  else
    let l := (List.range (2 ^ (twinMachines all).length)).map (passOf all)
    inRecordOrder ((List.range 8).flatMap fun g => spacing h g l)

/-! ### check_rounds, check_traffic, check_queue_memory -/

/-- The numbered SCHED records of a kind. -/
def Adm.schedNum (a : Adm) (k : Nat) : List (Nat × List Byte) := (numbered a.im.sched).filter fun x => rf x.2 0 1 == k

/-- check_rounds: entries numbered from 0 without gaps (R50), refresh limits met (R56). -/
def Adm.checkRounds (a : Adm) : List Finding :=
  inRecordOrder <| (List.range 2).flatMap fun r =>
    let l := (a.schedNum 2).filter fun x => rf x.2 1 1 == r
    let cycle := l.foldl (fun t x => t + rf x.2 5 1 * 100 + rf x.2 4 1 * 200) 0
    let nums := l.map fun x => rf x.2 2 1
    let at_ (x : Nat × List Byte) : At := ⟨0x30, 4, x.1, 4, r⟩
    (if (List.range l.length).all nums.contains then [] else (l.head?.map fun x => (at_ x).free).toList)
    ++ l.flatMap fun x => if rf x.2 8 4 ≠ 0 ∧ rf x.2 8 4 < cycle then [(at_ x).bad cycle (rf x.2 8 4)] else []

/-- The record that takes a running sum past a limit. -/
def passes (f : List Byte → Nat) (limit : Nat) : List (Nat × List Byte) → Nat → Option (Nat × List Byte)
  | [], _ => none
  | x :: t, acc => if limit < acc + f x.2 then some x else passes f limit t (acc + f x.2)

/-- The sum finding of a code: a sum above its limit, at the record that takes it there. -/
def sumFinding (code limit : Nat) (f : List Byte → Nat) (l : List (Nat × List Byte)) : List Finding :=
  match passes f limit l 0 with
  | none => []
  | some x => [(At.mk code 4 x.1 0x11 (rf x.2 1 1)).bad (l.foldl (fun t y => t + f y.2) 0 : Nat) limit]

/-- The epoch period of the image in ns. -/
def Adm.epochNs (a : Adm) : Nat := rf a.im.device 4 2 * 1000

/-- A network-load record's load is above its limit (R57); a rate of 0 carries nothing. -/
def netOver (r : List Byte) : Bool :=
  let n : Rat := (rf r 12 2 + rf r 14 2 : Nat)
  if rf r 1 1 < 6 then
    rf r 4 4 == 0 || rf r 8 4 == 0 || decide (4 / 5 < n * 100 * (40 / (rf r 4 4 : Rat) + 690 / (rf r 8 4 : Rat)))
  else rf r 4 4 == 0 || decide (1 / 2 < n * 100 * (1600 / (rf r 4 4 : Rat)))

/-- check_traffic (R57). -/
def Adm.checkTraffic (a : Adm) : List Finding :=
  inRecordOrder <| sumFinding 0x2D 61 (rf · 6 2) ((a.schedNum 1).filter fun x => rf x.2 2 1 == 0)
  ++ sumFinding 0x2E (a.epochNs / 32) (rf · 6 2) (a.schedNum 1)
  ++ (a.schedNum 3).flatMap fun x => (At.mk 0x2F 4 x.1 (netItem (rf x.2 1 1)).1 (netItem (rf x.2 1 1)).2).when (netOver x.2)

/-- check_queue_memory (R58). -/
def Adm.checkQueueMemory (a : Adm) : List Finding :=
  inRecordOrder <|
    (a.schedNum 1).flatMap (fun x => (At.mk 0x2C 4 x.1 0x11 (rf x.2 1 1)).when
      ((a.schedNum 1).any fun y => y.1 < x.1 && rf y.2 1 1 == rf x.2 1 1))
    ++ sumFinding 0x2C 16384 (rf · 4 2) (a.schedNum 1)

/-- Every check that does not end admission at once, in the order of R53. -/
def Adm.findings (a : Adm) : List Finding :=
  a.checkAbsent ++ a.checkRecords ++ a.checkReferences ++ a.checkInterlocks ++ a.checkLadder ++ a.checkLoops ++ a.checkConverters
    ++ a.checkRounds ++ a.checkTraffic ++ a.checkQueueMemory

end Sys2Proof.Machine
end

