-- ==== Sys2Proof/Machine/PostOffice.lean ====
section
/-!
DEFINITION. The post office's own commands (00, 03): posting, consuming and moderating, sleep announcements, the
captures, STATE letters and the lost counts.
-/
namespace Sys2Proof.Machine

/-- The unit code of a requester; a debug access has none. -/
def Requester.codeIs : Requester → Nat → Bool
  | .core c, u => c == u
  | _, _ => false

/-- The words of a pigeonhole's post window, 16 of them (R78). -/
def State.window (s : State) (ph : Nat) : List Word :=
  let w := (s.pigeon ph).window
  w.take 16 ++ List.replicate (16 - w.length) 0

/-- Store one word of a post window. -/
def State.setWindow (s : State) (ph j : Nat) (v : Word) : State :=
  s.setPigeon ph { s.pigeon ph with window := (s.window ph).set j v }

/-- LETTER_POST (R78): the declared producer's store to PHn_POST15 posts the window, whose intake answers at once, and
clears it; any other requester is refused with E_LOCKED. In poste restante mode no core's pigeonhole is declared. -/
def execLetterPost (who : Requester) (ph : Nat) (value : Word) (s : State) : Out :=
  .next <| s.accessBy who (R.PHn_POSTj ph 15) true <|
    if !s.phEn ph || s.phIsReceipt ph || !Requester.codeIs who (s.phProducer ph) then s.refuse .eLocked (R.PHn_POSTj ph 15)
    else
      let s1 := s.setWindow ph 15 value
      let l := letterOfBytes ((s1.window ph).flatMap fun w => leBytes 4 w.toNat)
      (intake (s1.setPigeon ph { s1.pigeon ph with window := [] }) ph l true).respond 0

/-- A receipt index has been passed when HEAD moves from `a` to `b`: it lies in the half-open run. -/
def passedBy (size a b : Nat) (i : Nat) : Bool := ringDist size a i < ringDist size a b

/-- The consumer's ring index moves to v: held receipts that are passed stop being held, deferred actions whose receipt is passed proceed
(R92, R477). -/
def State.consumeTo (s : State) (ph v : Nat) : State :=
  let h := s.phHead ph
  let n := s.phSize ph
  let sg := (s.pigeon ph).signalled
  let s1 := s.setFld (R.PHn_HEAD ph) F.PHn_HEAD_INDEX v
  let s2 := if ringDist n h sg < ringDist n h v then s1.setPigeon ph { s1.pigeon ph with signalled := v } else s1
  ((s2.syncHeld ph).handOver ph (passedBy n h v)).runReady

/-- RECEIPT_CONSUME (R92, R477, Table PST-26): the consumer moves PHn_HEAD; held receipts that are passed stop being held,
and deferred actions whose receipt is passed proceed. Backwards or past the tail is E_RANGE. -/
def execReceiptConsume (who : Requester) (ph : Nat) (value : Word) (s : State) : Out :=
  let h := s.phHead ph
  let t := s.phTail ph
  let n := s.phSize ph
  let v := getF value F.PHn_HEAD_INDEX
  .next <| s.accessBy who (R.PHn_HEAD ph) true <|
    match regFirst ((if 64 ≤ ph ∨ !s.phEn ph ∨ !s.phIsReceipt ph ∨ !Requester.codeIs who (s.phConsumer ph) then [.eLocked] else [])
        ++ (if getF value ⟨31, 13⟩ = 0 then [] else [.eFormat])
        ++ (if ringDist n h v ≤ ringDist n h t && v < 2 * n then [] else [.eRange])) with
    | some st => s.refuse st (R.PHn_HEAD ph)
    | none => (s.consumeTo ph v).respond 0

/-- RECEIPT_HANDOVER_TIMEOUT (R477): 10 ms after delivery the receipt counts as handed over and its action proceeds. -/
def execReceiptHandoverTimeout (index : Nat) (s : State) : Out :=
  .next <|
    match s.po.deferred[index]? with
    | none => s
    | some d =>
      State.runReady { s with po := { s.po with deferred := s.po.deferred.eraseIdx index, ready := s.po.ready ++ [d.action] } }

/-- RECEIPT_MODERATION_EXPIRY (R92): the oldest held receipt has been held PHn_MOD.TIME; all held ones are signalled. -/
def execReceiptModerationExpiry (ph : Nat) (s : State) : Out :=
  .next (if s.phEn ph && s.phIsReceipt ph && s.phHeld ph != 0 then s.signalAll ph else s)

/-- The status of setting a PST_SLEEP bit (Table PST-14). -/
def State.sleepFails (s : State) (b : Nat) : List Status :=
  if b < 4 then (if s.variant.pairs ≤ b then [.eAbsent] else if s.split then [.eState] else [])
  else if 8 ≤ b ∧ b < 16 then (if s.variant.cores ≤ b - 8 then [.eAbsent] else if !s.split then [.eState] else [])
  else [.eFormat]

/-- Announce the host of PST_SLEEP bit b asleep: the held receipts of its FLUSH_SLEEP pigeonholes are signalled (R93). -/
def State.announce (s : State) (b : Nat) : State :=
  let code := if b < 4 then 0x40 + b else 0x48 + (b - 8)
  (s.setBit R.PST_SLEEP ⟨31, 0⟩ b).each ((List.range 64).filter fun n =>
    s.phEn n && s.phIsReceipt n && s.phConsumer n == code && s.flag (R.PHn_MOD n) F.PHn_MOD_FLUSH_SLEEP) State.signalAll

/-- SLEEP_ANNOUNCE (R93): a write of PST_SLEEP. -/
def execSleepAnnounce (who : Requester) (value : Word) (s : State) : Out :=
  let bits := (List.range 32).filter (bitAt value.toNat)
  .next <| s.accessBy who R.PST_SLEEP true <|
    match regFirst (bits.flatMap s.sleepFails) with
    | some st => s.refuse st R.PST_SLEEP
    | none => (s.each bits State.announce).respond 0

/-- SYS_WERR_CODE_READ (R11): the read returns the capture, copies its address and postmark and clears VALID and
OVERRUN; CODE stays. -/
def execSysWerrCodeRead (who : Requester) (s : State) : Out :=
  let w := s.reg R.SYS_WERR_CODE
  let s1 := if s.flag R.SYS_WERR_CODE F.SYS_WERR_CODE_VALID then
      (s.setReg R.SYS_WERR_ADDR (BitVec.ofNat 32 s.po.werr.addr)).setReg R.SYS_WERR_PM (BitVec.ofNat 32 s.po.werr.pm)
    else s
  .next (s.accessBy who R.SYS_WERR_CODE false <| ((s1.clrFlag R.SYS_WERR_CODE F.SYS_WERR_CODE_VALID).clrFlag R.SYS_WERR_CODE F.SYS_WERR_CODE_OVERRUN).respond w.toNat)

/-- PST_MERR_CODE_READ (R88): as R11 for the management refusal capture. -/
def execPstMerrCodeRead (who : Requester) (s : State) : Out :=
  let w := s.reg R.PST_MERR_CODE
  let s1 := if s.flag R.PST_MERR_CODE F.PST_MERR_CODE_VALID then
      (s.setReg R.PST_MERR_ADDR (BitVec.ofNat 32 s.po.merr.addr)).setReg R.PST_MERR_PM (BitVec.ofNat 32 s.po.merr.pm)
    else s
  .next (s.accessBy who R.PST_MERR_CODE false <| ((s1.clrFlag R.PST_MERR_CODE F.PST_MERR_CODE_VALID).clrFlag R.PST_MERR_CODE F.PST_MERR_CODE_OVERRUN).respond w.toNat)

/-- LOST_COUNT_READ (R98, R16): a read of PST_DLJ_LOST (which 0) or NVS_JLOST (which 1) returns the count and clears it. -/
def execLostCountRead (who : Requester) (which : Nat) (s : State) : Out :=
  let a := if which = 0 then R.PST_DLJ_LOST else R.NVS_JLOST
  .next (s.accessBy who a false <| (s.setReg a 0).respond (s.reg a).toNat)

/-- STATE (R75): the unit's state code and the postmark of its last change. -/
def specState : LetterSpec where
  units _ u := unitKnown u
  legal _ := true
  used := []
  run s m _ := (s, .done (leBytes 1 (s.ust m.unit).code ++ [0, 0, 0] ++ leBytes 4 (s.ustPm m.unit)) none)

def execState (m : Msg) (s : State) : Out := .next (deliver specState s m)

end Sys2Proof.Machine
end

