-- ==== Sys2Proof/Machine/Gearbox.lean ====
section
/-!
DEFINITION. The gearbox sequencer (10): position reports, moves, the phases of Table GBX-1, aborts and failures (Table GBX-3),
letters, and the stall of an actuator channel.
Choices of the model: log 147.
-/
namespace Sys2Proof.Machine

/-! ### Mechanisms: 0 shift, 1 park lock, 2 clutch -/

/-- The window of a report of a mechanism (Table GBX-4): (low, high) counts. -/
def State.repWindow (s : State) (m r : Nat) : Nat × Nat :=
  let id := if m = 0 then (if r = 1 then 0x0910 else if r = 3 then 0x0911 else 0x0912) else if m = 1 then 0x0912 + r else 0x0914 + r
  let w := s.thrN id 0xFF 0
  (w % 65536, w / 65536 % 65536)

def State.gbxDecl (s : State) (m : Nat) : Bool := bitAt (s.fld R.GBX_CFG F.GBX_CFG_DECL) m
/-- The present report of a mechanism. -/
def State.gbxReport (s : State) (m : Nat) : Nat := s.fld R.GBX_STATE ⟨19 + 4 * m, 16 + 4 * m⟩
/-- The present position of a mechanism, counts. -/
def State.gbxPos (s : State) (m : Nat) : Nat :=
  if m = 0 then s.fld R.GBX_POS0 F.GBX_POS0_SHIFT else if m = 1 then s.fld R.GBX_POS0 F.GBX_POS0_PARK else s.fld R.GBX_POS1 F.GBX_POS1_CLUTCH
/-- A threshold of Table GBX-4: of a mechanism, and of the sequencer. -/
def State.gmt (s : State) (m id : Nat) (d : Int) : Rat := s.thr id m d
def State.gt (s : State) (id : Nat) (d : Int) : Rat := s.thr id 0xFF d

/-- The reports whose windows a mechanism has, and its code BETWEEN. -/
def mechReports (m : Nat) : List Nat := if m = 0 then [1, 3, 2] else [1, 2]
def between (m : Nat) : Nat := if m = 0 then 4 else 3

/-- The report that a position gives (R277). -/
def State.reportFor (s : State) (m pos : Nat) (valid : Bool) : Nat :=
  if !valid then 0
  else ((mechReports m).find? fun r => decide ((s.repWindow m r).1 ≤ pos) && decide (pos ≤ (s.repWindow m r).2)).getD (between m)

/-- The machine function of a mechanism: A for the shift, B for the clutch; none for the park lock. -/
def State.gbxMachine (s : State) (m : Nat) : Option Nat :=
  if m = 0 then some (s.fld R.GBX_CFG F.GBX_CFG_FUNCA) else if m = 2 then some (s.fld R.GBX_CFG F.GBX_CFG_FUNCB) else none
/-- The machine of a mechanism is RUNNING. -/
def State.machRuns (s : State) (m : Nat) : Bool :=
  match s.gbxMachine m with
  | some f => f < 16 && s.ust (U.fn f) == .running
  | none => false

/-! ### Moves (R279) -/

/-- The speed that brings a mechanism to a window: V_SLOW within SLOW_ZONE of it, in the sense of the direction identifier. -/
def State.moveSpeed (s : State) (m to_ : Nat) (keep : Int) : Int :=
  let (lo, hi) := s.repWindow m to_
  let p := s.gbxPos m
  let zone := (s.gmt m 0x0922 100).floor.toNat
  let near := lo ≤ p + zone ∧ p ≤ hi + zone
  let v := (if near then s.gmt m 0x0921 1500 else s.gmt m 0x0920 6000).floor
  let dir : Int := if s.gmt m 0x0926 0 = 1 then -1 else 1
  if p < lo then dir * v else if hi < p then -(dir * v) else if keep < 0 then -v else if 0 < keep then v else 0

/-- The current limit of a move. -/
def State.moveLim (s : State) (m : Nat) : Nat := (s.gmt m 0x0924 100).floor.toNat

/-- The mechanism's channel moves towards a window (R279); `now` where a letter at a boundary begins the move. -/
def State.moveBegin (s : State) (m to_ : Nat) (now : Bool := false) : State :=
  (s.updGb fun g => { g with moveTo := to_, moveAt := s.time, left := false, blocked := false, parkWait := false }).acAim m
    (s.moveSpeed m to_ (s.ac m).goal) (s.moveLim m) false now

/-- The channel holds at its present angle. -/
def State.moveHold (s : State) (m : Nat) : State := ((s.acEnter m 7).acFlag m 4).updGb fun g => { g with moveTo := 0 }

/-- The channel's move is over: it stops (Table ACT-6). -/
def State.moveStop (s : State) (m : Nat) : State :=
  let s1 := (s.updGb fun g => { g with moveTo := 0 }).updAc m fun a => { a with ask := false }
  if s1.ust (U.ac m) = .running then (s1.acStop m).hwMove (U.ac m) [.running] .stopping else s1

/-! ### Phases and the end of an operation (R280, R283) -/

def State.gbxGo (s : State) (p : Nat) : State := (s.setFld R.GBX_STATE F.GBX_STATE_PHASE p).updGb fun g => { g with phaseAt := s.time }

/-- The opcode of an operation. -/
def gbxOpcode (op : Nat) : Nat := 0x0902 + op

/-- The result of an operation (Table GBX-2): report reached, block retries, duration in µs. -/
def State.gbxResult (s : State) : List Byte :=
  leBytes 1 (s.gbxReport s.gbx.mech) ++ leBytes 1 s.gbx.retries ++ [0, 0] ++ leBytes 4 ((s.time - s.gbx.started) / 1000)

/-- The sequencer in STOPPING without an operation reaches IDLE (Table GBX-5). -/
def State.gbxSettle (s : State) : State :=
  if s.ust U.gbx = .stopping ∧ s.gbxOp = 0 then (s.hwMove U.gbx [.stopping] .idle).finishOp U.gbx 0x0902 .done [] else s

/-- The machine that took part in the operation is RUNNING no longer, or has been out of RUNNING since the start (Table GBX-3). -/
def State.gbxLost (s : State) : Bool := s.gbx.lost || (s.gbx.synced && !s.machRuns s.gbx.mech)

/-- The operation ends with E_INTERLOCK. -/
def State.gbxInterlock (s : State) : State := (s.updGb fun g => { g with final := .eInterlock })

/-- The operation ends: its channel stops, its notice is closed, its receipt follows at the boundary; a machine that has left RUNNING makes it
E_INTERLOCK. -/
def State.gbxEnd (s0 : State) : State :=
  let op := s0.gbxOp
  let s := if s0.gbxLost then s0.gbxInterlock else s0
  let s1 := (s.moveStop s.gbx.mech).finishOp U.gbx (gbxOpcode op) s.gbx.final s.gbxResult
  let s2 := { s1 with ldg := { s1.ldg with holes := [] } }
  (((s2.setFld R.GBX_STATE F.GBX_STATE_OP 0).setFld R.GBX_STATE F.GBX_STATE_PHASE 0).setFlag R.GBX_EVT F.GBX_EVT_DONE).gbxSettle

/-- LOAD follows where the machine takes part and still runs; a machine that left RUNNING ends the operation with E_INTERLOCK. -/
def State.gbxLoad (s : State) : State :=
  let s1 := s.moveStop s.gbx.mech
  if !s.gbx.synced ∨ s.gbxLost then s1.gbxEnd else s1.gbxGo 5

/-- A move has reached its target. -/
def State.gbxReached (s : State) : State :=
  let g := s.gbx
  match s.gbxOp with
  | 1 =>
    if s.gbxPhase = 2 then
      if g.back then s.gbxLoad
      else if g.target = 3 then s.gbxEnd
      else if !g.synced then (s.gbxGo 4).moveBegin 0 g.target
      else if s.gbxLost then s.gbxEnd
      else (s.moveHold 0).gbxGo 3
    else if g.moveTo = 3 then s.gbxEnd
    else s.gbxLoad
  | 3 => if g.moveTo = 2 then s.gbxLoad else s.gbxEnd
  | _ => s.gbxEnd

/-- An operation starts: `phase` first, its move where the phase has one. -/
def State.gbxBegin (s : State) (op mech target : Nat) : State :=
  let old := s.gbxReport mech
  let runs := s.machRuns mech
  let s1 := (s.setFld R.GBX_STATE F.GBX_STATE_OP op).updGb fun g =>
    { g with target := target, old := old, mech := mech, started := s.time, retries := 0, synced := runs, lost := false, back := false, final := .done,
             moveTo := 0, blocked := false, parkWait := false }
  match op with
  | 1 =>
    let f := (s.gbxMachine 0).getD 0xFF
    let s2 := { s1 with ldg := { s1.ldg with holes := [Hole.mk f s.time (s1.thrN 0x0938 0xFF 250) none] } }
    if !runs then (if old = 3 then (s2.gbxGo 4).moveBegin 0 target true else (s2.gbxGo 2).moveBegin 0 3 true)
    else if old = 3 then s2.gbxGo 3
    else (s2.acAim 0 (s2.moveSpeed 0 3 0) (s2.moveLim 0) true true).gbxGo 1
  | 3 =>
    if !runs then (s1.gbxGo (if target = 2 then 4 else 2)).moveBegin 2 target true
    else if target = 2 then s1.gbxGo 3 else s1.gbxGo 1
  | _ => s1.moveBegin 1 target true

/-- An abort or a passed deadline of an outstanding operation (Table GBX-3); the receipt's status is the stop's. -/
def State.gbxAbort (s : State) : State :=
  let g := s.gbx
  let s1 := s.updGb fun g => { g with back := true }
  match s.gbxOp, s.gbxPhase with
  | 0, _ => s
  | 1, 1 => s1.gbxLoad
  | 1, 2 => s1.moveBegin 0 g.old
  | 1, 3 => if g.old = 3 then s1.gbxEnd else s.updGb fun x => { x with target := g.old }
  | 1, _ => s
  | 3, 1 => s1.gbxLoad
  | 3, 3 => s1.gbxEnd
  | 3, 5 => s
  | _, _ => if s.gbxReport g.mech = g.moveTo then s else s1.moveBegin g.mech g.old

/-! ### Reports (R277) -/

/-- A good frame of SENT input i, or its VALID falling: positions and reports of the mechanisms on it. -/
def State.gbxFrame (s : State) (i : Nat) (valid : Bool) (nibbles data : Nat) : State :=
  let ms := (List.range 3).filter fun m => s.gbxDecl m && s.fld R.GBX_SENT ⟨8 * m + 7, 8 * m⟩ == i
  if s.ust U.gbx = .off ∨ s.ust U.gbx = .absent then s
  else s.each ms fun s m =>
    let pos := if valid then data / 2 ^ (4 * nibbles - 12) % 4096 else s.gbxPos m
    let s1 := if m = 0 then s.setFld R.GBX_POS0 F.GBX_POS0_SHIFT pos
      else if m = 1 then s.setFld R.GBX_POS0 F.GBX_POS0_PARK pos else s.setFld R.GBX_POS1 F.GBX_POS1_CLUTCH pos
    let old := s.gbxReport m
    let r := s1.reportFor m pos valid
    let s2 := (s1.setFld R.GBX_STATE ⟨19 + 4 * m, 16 + 4 * m⟩ r).updGb fun g => { g with reportAt := s.time }
    let s3 := if r = old then s2 else s2.setFlag R.GBX_EVT F.GBX_EVT_REPORT
    let s4 := if s3.gbxOp ≠ 0 ∧ s3.gbx.mech = m ∧ s3.gbx.moveTo ≠ 0 then
        if !valid then s3.gbxFail 2
        else
          let s5 := s3.updGb fun g => { g with left := g.left || r != g.old }
          if s5.gbx.parkWait ∨ s5.gbx.blocked then s5
          else s5.acSpeed m (s5.moveSpeed m s5.gbx.moveTo (s5.ac m).goal) (s5.ac m).lim
      else s3
    s4.chgGearCheck

/-! ### Letters (Table GBX-2) -/

def isGbx (_ : State) (u : Nat) : Bool := u == U.gbx

/-- The owned channels are armed: the check of R266 and the precharge. -/
def State.gbxArm (s : State) : State :=
  s.each ((List.range 3).filter s.acOwned) fun s k => if s.ust (U.ac k) = .idle then s.leakStart k 1 else s

/-- GBX_RUN (R284, R330). -/
def specGbxRun : LetterSpec where
  units := isGbx
  legal st := st = .idle
  used := []
  fails s _ := if s.safeHeld then [.eInterlock] else []
  run s _ _ := doneWith (s.setUst U.gbx .running).gbxArm

/-- GBX_HALT (R284). -/
def specGbxHalt : LetterSpec where
  units := isGbx
  legal st := st = .running
  used := []
  opens _ _ := true
  run s _ _ := acceptedWith (s.setUst U.gbx .stopping).gbxSettle

/-- The report that a target of an operation stands for. -/
def targetReport (op t : Nat) : Nat :=
  if op = 1 then (if t = 0 then 3 else t) else if op = 2 then (if t = 1 then 1 else 2) else (if t = 1 then 2 else 1)

/-- The output turns, or the machine of a mechanism, at 10 rpm or more. -/
def State.turning (s : State) (m : Nat) : Bool :=
  let fast (x : Rat) : Bool := decide (10 ≤ x) || decide (x ≤ -10)
  fast s.outRpm || (match s.gbxMachine m with | some f => fast (s.machRpm f) | none => false)

/-- The checks on a GBX_SHIFT (1), GBX_PARK (2) or GBX_CLUTCH (3). -/
def State.gbxFails (s : State) (op : Nat) (m : Msg) : List Status :=
  let mech := op - 1
  let t := m.u8 16
  let r := s.gbxReport mech
  let out := if s.outRpm < 0 then -s.outRpm else s.outRpm
  let ratio := s.gt (if t = 2 then 0x0902 else 0x0901) 1000 / 1000
  let wind := s.windLive
  (if !s.gbxDecl mech || (if op = 1 then 2 else 1) < t then [.eRange] else []) ++
  (if s.gbxOp ≠ 0 then [.eFull] else []) ++
  (if r = 0 || r = between mech
      || (op == 1 && t != 0 && decide (s.gt 0x0904 30000 < out * ratio))
      || (op != 2 && !s.machRuns mech && s.turning mech)
      || (op == 2 && t == 1 && decide (s.gt 0x0940 3 < out))
      || (wind && ((op == 2 && t == 0) || (op == 3 && t == 1))) then [.eInterlock] else [])

/-- The common form of the three operations: at once DONE at the present report, else an operation. -/
def specGbxMove (op : Nat) : LetterSpec where
  units := isGbx
  legal st := st = .running
  used := [(16, 16)]
  fails s m := s.gbxFails op m
  opens s m := s.gbxReport (op - 1) ≠ targetReport op (m.u8 16)
  run s m _ :=
    let r := targetReport op (m.u8 16)
    if s.gbxReport (op - 1) = r then (s, .done (leBytes 1 r) none)
    else acceptedWith (s.gbxBegin op (op - 1) r)

/-- GBX_SHIFT, GBX_PARK and GBX_CLUTCH (R280, R281). -/
def specGbxShift : LetterSpec := specGbxMove 1
def specGbxPark : LetterSpec := specGbxMove 2
def specGbxClutch : LetterSpec := specGbxMove 3

/-- A recorded cause persists (Table GBX-5). -/
def State.gbxPersists (s : State) : Bool :=
  let has (c : Nat) : Bool := bitAt s.gbx.recorded (c - 1)
  (has 1 && (List.range 3).any fun k => s.acOwned k && s.ust (U.ac k) == .fault)
    || (has 2 && (List.range 3).any fun m => s.gbxDecl m && s.gbxReport m == 0) || (has 4 && s.safeHeld)

/-- GBX_CLEAR (R284). -/
def specGbxClear : LetterSpec where
  units := isGbx
  legal st := st = .fault
  used := []
  fails s _ := if s.gbxPersists then [.eInterlock] else []
  run s _ _ := doneWith ((s.setUst U.gbx .idle).updGb fun g => { g with recorded := 0 })

def execGbxRun (m : Msg) (s : State) : Out := .next (deliver specGbxRun s m)
def execGbxHalt (m : Msg) (s : State) : Out := .next (deliver specGbxHalt s m)
def execGbxShift (m : Msg) (s : State) : Out := .next (deliver specGbxShift s m)
def execGbxPark (m : Msg) (s : State) : Out := .next (deliver specGbxPark s m)
def execGbxClutch (m : Msg) (s : State) : Out := .next (deliver specGbxClutch s m)
def execGbxClear (m : Msg) (s : State) : Out := .next (deliver specGbxClear s m)

/-! ### Events -/

/-- MOVE_TARGET_REACHED (R279): the position has stayed in the move's window for DWELL. -/
def execMoveTargetReached (mech : Nat) (s : State) : Out :=
  .next <|
    let g := s.gbx
    if s.gbxOp = 0 ∨ g.mech ≠ mech ∨ g.moveTo = 0 ∨ s.gbxReport mech ≠ g.moveTo then s
    else s.gbxReached

/-- MOVE_TIMEOUT (R279, R283): the move has not reached its target within MOVE_TIME. Outside every window it is fault MOVE_FAIL;
DISENGAGE with the old window never left is loaded again in the old gear; another move that stands in a window ends with
E_INTERLOCK. -/
def execMoveTimeout (mech : Nat) (s : State) : Out :=
  .next <|
    let g := s.gbx
    let r := s.gbxReport mech
    if s.gbxOp = 0 ∨ g.mech ≠ mech ∨ g.moveTo = 0 ∨ g.parkWait ∨ r = g.moveTo then s
    else if r = between mech ∨ r = 0 then s.gbxFail 3
    else if s.gbxPhase = 2 ∧ !g.left then s.gbxInterlock.gbxLoad
    else s.gbxInterlock.gbxEnd

/-- SHIFT_PHASE_END (R280, R283): the end condition of UNLOAD, SYNC or LOAD. -/
def execShiftPhaseEnd (s : State) : Out :=
  .next <|
    let g := s.gbx
    let f := (s.gbxMachine g.mech).getD 0xFF
    let runs := s.machRuns g.mech
    match s.gbxPhase with
    | 1 =>
      if !runs then s.gbxInterlock.gbxEnd
      else if 65536 * s.gt 0x0931 2 < (absI (s.tr f).tEff : Rat) then s
      else (s.gbxGo 2).moveBegin g.mech (if s.gbxOp = 1 then 3 else 1)
    | 3 =>
      let d := s.nSync - s.machRpm f
      let tol := s.gt 0x0934 30
      if !runs then s.gbxInterlock.gbxEnd
      else if -tol ≤ d ∧ d ≤ tol then (s.gbxGo 4).moveBegin g.mech g.target
      else s
    | 5 =>
      let t : Rat := (absI (s.tr f).torque : Rat) / 65536
      if !runs then s.gbxInterlock.gbxEnd
      else if t ≤ s.gt 0x0930 10 * ((s.time - g.phaseAt : Nat) : Rat) / 1000000 then s.gbxEnd else s
    | _ => s

/-- BUTT_RETRY (R280): 20 ms after a blocked ENGAGE its speed offset ends and the move is retried. -/
def execButtRetry (s : State) : Out :=
  .next (if s.gbxOp ≠ 0 ∧ s.gbxPhase = 4 ∧ s.gbx.blocked then
      (s.updGb fun g => { g with blocked := false }).moveBegin s.gbx.mech s.gbx.target
    else s)

/-- SYNC_TIME_EXPIRY (R283): SYNC has not ended within SYNC_TIME: the shift stays in NEUTRAL, a clutch open. -/
def execSyncTimeExpiry (s : State) : Out :=
  .next (if s.gbxOp ≠ 0 ∧ s.gbxPhase = 3 then s.gbxInterlock.gbxEnd else s)

/-- PARK_WAIT_EXPIRY (R281): the pawl has not dropped in: it is moved back to RELEASED, E_INTERLOCK. -/
def execParkWaitExpiry (s : State) : Out :=
  .next (if s.gbxOp = 2 ∧ s.gbx.parkWait ∧ s.gbx.moveTo = 1 ∧ s.gbxReport 1 ≠ 1 then s.gbxInterlock.moveBegin 1 2 else s)

/-- A stall before the target window is a block of the move (R279, R280, R281, R283). -/
def State.gbxBlock (s : State) (k : Nat) : State :=
  let g := s.gbx
  if s.gbxOp = 0 ∨ g.mech ≠ k ∨ g.moveTo = 0 ∨ s.gbxReport k = g.moveTo then s
  else
    let s1 := s.setFlag R.GBX_EVT F.GBX_EVT_BLOCK
    if s.gbxOp = 1 ∧ s.gbxPhase = 4 then
      if g.moveTo = 3 then s1
      else if g.retries < 3 then ((s1.acEnter k 7).acFlag k 4).updGb fun g => { g with retries := g.retries + 1, blocked := true }
      else s1.gbxInterlock.moveBegin 0 3
    else if s.gbxPhase = 2 ∧ !g.left then s1.gbxInterlock.gbxLoad
    else if s.gbxOp = 2 ∧ g.moveTo = 1 then ((s1.acEnter k 7).acFlag k 4).updGb fun g => { g with parkWait := true }
    else s1

/-- ACT_STALL (R274, R279): in RUN below STALL_RPM at the current limit for STALL_T: fault STALL, or a block for an owned channel. -/
def execActStall (k : Nat) (s : State) : Out :=
  .next <|
    let spd := s.sfld (R.ACk_SPD k) F.ACk_SPD_SPEED
    if !isAc s (U.ac k) ∨ s.acPhase k ≠ 6 ∨ s.ath k 0x0817 50 ≤ (absI spd : Rat) then s
    else
      let s1 := (s.acEvt k F.ACk_EVT_STALL).acFlag k 3
      if s1.acOwned k then s1.gbxBlock k else s1.actFail k 5 0xFF

/-- At a boundary: auto-run at the first one after the sequencer's IDLE, and owned channels follow a sequencer that has left RUNNING (Tables ACT-6, GBX-5); a machine that has
left RUNNING ends a phase that needs it. -/
def State.gbxBoundary (s : State) : State :=
  let asked := s.withImg false fun im => match im.unitRec 0x0B 0 with | some r => bitAt (rf r 4 1) 0 | none => false
  let s0 := if s.ustPm U.gbx = s.pm ∨ s.ust U.gbx = .off ∨ s.ust U.gbx = .absent then s else s.updGb fun g => { g with auto := true }
  let s1 := if s.ust U.gbx = .idle ∧ asked ∧ !s.gbx.auto ∧ s.ustPm U.gbx ≠ s.pm then (s0.setUst U.gbx .running).gbxArm else s0
  let s2 := if s1.ust U.gbx = .idle ∨ s1.ust U.gbx = .fault then
      s1.each ((List.range 3).filter s1.acOwned) fun s k => if s.ust (U.ac k) = .armed then s.setUst (U.ac k) .idle else s
    else s1
  let p := s2.gbxPhase
  if s2.gbxOp = 0 ∨ !s2.gbxLost then s2
  else if p = 1 ∨ p = 3 ∨ p = 5 then s2.gbxEnd
  else s2.updGb fun g => { g with lost := true }

end Sys2Proof.Machine
end

