-- ==== Sys2Proof/Machine/Ledger.lean ====
section
/-!
DEFINITION. The energy ledger and planner (11): port powers and energies, the return factor, the imbalance detector, planner
rounds and their latch, letters, registers with an effect, and the standby keep-alive budget.
Choices of the model: log 66, 68, 70, 73.
-/
namespace Sys2Proof.Machine

/-! ### Ports (R291, R292) -/

/-- The DC link a port belongs to (Table LDG-1). -/
def State.portLink (s : State) (p : Nat) : Option Nat :=
  let k := s.portKind p
  if k = 1 ∨ k = 2 then (if s.portSel p < 4 then some (s.portSel p) else none)
  else if k = 3 then some (s.linkOf (s.portSel p)) else none

/-- The ports of DC link k. -/
def State.linkPorts (s : State) (k : Nat) : List Nat := s.portsUsed.filter fun p => s.portLink p == some k

/-- The BATTERY port of a link. -/
def State.battPort (s : State) (k : Nat) : Option Nat := s.portsUsed.find? fun p => s.portKind p == 1 && s.portSel p == k

/-- A port's record maxima in W; 0 where there is no port. -/
def State.maxDraw (s : State) (p : Option Nat) : Nat := match p with | some p => (s.reg (R.LDG_Pp_MAXD p)).toNat | none => 0
def State.maxRet (s : State) (p : Option Nat) : Nat := match p with | some p => (s.reg (R.LDG_Pp_MAXR p)).toNat | none => 0

/-- Power taken from the grid in mW: Σ v × i over the phases in use of the charger's front end (Table LDG-1). -/
def State.gridPower (s : State) : Int :=
  match s.frontEngines with
  | [] => 0
  | n :: _ =>
    if s.chgIsWind then
      let g := rf (s.loopRec n) 28 1
      let v := clarke (s.chanVal (4 * g)) (s.chanVal (4 * g + 1)) (s.chanVal (4 * g + 2))
      let q := (s.partnerOf n).getD n
      let i := of27v (s.e q).i
      nearest (3000 * s.iBase q * (v.1 * i.1 + v.2 * i.2))
    else
      let gs := s.groupsOf n
      let gi := gs.headD 0
      let gv := gs.getLastD 0
      let ph := if s.gridSingle n s.chgPhase s.chg.three then [0] else [0, 1, 2]
      nearest ((ph.map fun j => s.chanVal (4 * gv + j) * s.chanVal (4 * gi + j) * 1000).foldl (· + ·) 0)

/-- The power of a port at a tick in mW (R291). -/
def State.portPower (s : State) (p : Nat) : Int :=
  let c := s.reg (R.LDG_Pp_CFG p)
  match s.portKind p with
  | 1 => nearest (s.chanVal (getF c F.LDG_Pp_CFG_VCH) * s.chanVal (getF c F.LDG_Pp_CFG_ICH) * 1000)
  | 2 => nearest (s.chanVal (getF c F.LDG_Pp_CFG_VCH) * s.chanVal (getF c F.LDG_Pp_CFG_ICH) * 1000)
  | 3 => s.bookedNow (s.portSel p)
  | 4 => s.gridPower
  | 5 => nearest ((s.fld R.REG_OUT F.REG_OUT_VOS : Rat) * (s.sfld R.REG_OUT F.REG_OUT_IOUT : Rat) / 10)
  | _ => 0

/-! ### Integration (R294) -/

/-- An accumulator in nJ kept within the 64-bit range of its published value in µJ. -/
def satNj (v : Int) : Int := clampI (-9223372036854775808000) 9223372036854775807999 v

/-- One microsecond of a port: 1 mW for 1 µs is 1 nJ. -/
def State.portTick (s : State) (p : Nat) : State :=
  let w := s.portPower p
  let x := s.prt p
  let net := x.net + w
  let draw := x.draw + (if 0 < w then w else 0)
  let ret := x.ret + (if w < 0 then w else 0)
  let sat := satNj net != net || satNj draw != draw || satNj ret != ret
  let s1 := (s.updPrt p fun x =>
    { x with net := satNj net, draw := satNj draw, ret := satNj ret, power := w, block := x.block + w, round := x.round + w }).setReg
      (R.LDG_Pp_PWR p) (BitVec.ofNat 32 (ofSigned 32 (satS 32 (quant 0 ((w : Rat) / 1000)))))
  if sat then s1.setFlag R.LDG_EVT F.LDG_EVT_SAT else s1

/-- The chopper of a link. -/
def State.chopOf (s : State) (k : Nat) : Option Nat := s.functions.find? fun f => s.fnRole f == 6 && s.linkOf f == k

/-- The return factor of a link (R197). -/
def State.returnFactor (s : State) (k : Nat) : Rat :=
  let v := s.linkVolts k
  let clip : Rat := s.thr 0x0102 k 1000
  let (dead, low) : Bool × Bool := match s.chopOf k with
    | none => (false, false)
    | some f =>
      let t := s.tr f
      ((s.fnLegs f).any (fun n => s.latchOf n != 0) || t.detected || s.ust (U.fn f) == .fault, t.saturated || t.hot)
  let vs : Rat := if low then s.thr 0x0101 k 1000 else clip
  let ve : Rat := if low then clip else (clip + (s.thr 0x0103 k 1000 : Rat)) / 2
  if dead then 0 else if v ≤ vs then 1 else if ve ≤ v then 0 else (ve - v) / (ve - vs)

/-- The voltage of a link as its channel's code times full scale, in 1/327680 V. -/
def State.linkCode (s : State) (k : Nat) : Int :=
  let ch := s.thrN 0x0104 k 0
  s.fcQ ch * (s.fld (R.FCV_CHn_FS ch) F.FCV_CHn_FS_FS : Nat)

/-- One tick of a link: return factor, block voltages, and whether a function of it books 0 W by an override or a withdrawal. -/
def State.linkTick (s : State) (k : Nat) : State :=
  let zero := (s.linkPorts k).any fun p => s.portKind p == 3 && (s.ssmPat (s.portSel p) != 0 || (s.fp (s.portSel p)).withdrawn)
  let v := s.linkCode k
  let s := match s.chopOf k with | some f => s.chopWatch f | none => s
  State.clipFlags (s.updLnk k fun l =>
    { l with k := quant 15 (s.returnFactor k), vStart := some (l.vStart.getD v), vEnd := v, zeroAt := if zero then some s.time else l.zeroAt }) k

/-- The ramp of R305: what is left of an envelope. -/
def State.decayed (s : State) (w : Int) : Int :=
  let t : Rat := (s.thr 0x0A09 0xFF 100 : Rat) * 1000000
  ((w : Rat) * clampQ 0 1 (1 - ((s.time - s.ldg.staleAt : Nat) : Rat) / t)).floor

/-- While STALE, every envelope but P_DUMP ramps to 0 (R305). -/
def State.staleTick (s : State) : State :=
  if !s.flag R.LDG_STATE F.LDG_STATE_STALE then s
  else
    let s1 := s.each s.ldg.decay fun s (f, d, r) =>
      (s.setReg (R.LDG_EDf f) (BitVec.ofNat 32 (s.decayed d).toNat)).setReg (R.LDG_ERf f) (BitVec.ofNat 32 (s.decayed r).toNat)
    let (c, x, g) := s.ldg.decayCh
    { s1 with ldg := { s1.ldg with charger := s.decayed c, chargerDis := s.decayed x, regulator := s.decayed g } }

/-- LEDGER_TICK (R294, R197, R305): the ledger's work of one microsecond, in RUNNING. -/
def execLedgerTick (s : State) : Out :=
  .next (if s.ust U.ldg ≠ .running then s
    else ((s.each s.portsUsed State.portTick).each (List.range 4) State.linkTick).staleTick)

/-! ### The imbalance detector (R296, R297) -/

/-- The block of link k is void. -/
def State.blockVoid (s : State) (k : Nat) : Bool :=
  ((s.linkPorts k).any fun p => (s.portKind p == 1 || s.portKind p == 2) && !((s.prt p).gotV && (s.prt p).gotI))
  || (match (s.lnk k).zeroAt with | some t => decide (s.time ≤ t + 1100000) | none => false)
  || (s.windLive && s.linkOf s.chgWind == k)

/-- The residual of the block of link k in µJ. -/
def State.residual (s : State) (k : Nat) : Int :=
  let l := s.lnk k
  let e : Rat := (((s.linkPorts k).map fun p => (s.prt p).block).foldl (· + ·) 0 : Int)
  let v1 : Rat := (l.vEnd : Rat) / 327680
  let v0 : Rat := (l.vStart.getD l.vEnd : Rat) / 327680
  quant 0 (e / 1000 + (s.thr 0x0A01 k 0 : Rat) / 2 * (v1 * v1 - v0 * v0))

/-- An imbalance of link k is declared (R297). -/
def State.declareImbalance (s : State) (k : Nat) : State :=
  let l := s.lnk k
  let w (x : Int) : List Byte := leBytes 4 (ofSigned 32 (satS 32 (quant 0 ((x : Rat) / (100000 * (max 1 l.runs : Nat))))))
  let s1 := (s.setBit R.LDG_IMB F.LDG_IMB_LINK k).setFlag R.LDG_EVT F.LDG_EVT_IMB
  s1.journal 6 (leBytes 1 k ++ [0, 0, 0] ++ w (1000 * l.runSum) ++ (List.range 12).flatMap fun p => w (FMap.get (fun _ => 0) l.portSums p))

/-- The end of a block for link k. -/
def State.blockLink (s : State) (k : Nat) : State :=
  let ps := s.linkPorts k
  if ps.length < 2 then s
  else
    let r := s.residual k
    let wk : Nat := (ps.map fun p => (s.reg (R.LDG_Pp_IMBW p)).toNat).foldl (· + ·) 0
    let tk : Nat := (ps.map fun p => (s.reg (R.LDG_Pp_IMBT p)).toNat).foldl max 0
    let s1 := s.setReg (R.LDG_NRESk k) (BitVec.ofNat 32 (ofSigned 32 (satS 32 (quant 0 ((r : Rat) / 100)))))
    let bad := !s.blockVoid k && decide ((wk * 100 : Nat) < r.natAbs)
    let s2 := s1.updLnk k fun l =>
      { l with vStart := none, runs := if bad then l.runs + 1 else 0, runSum := if bad then l.runSum + r else 0,
               portSums := if bad then s1.portsUsed.foldl (fun q p => FMap.upd (fun _ => 0) q p (· + (s1.prt p).block)) l.portSums else [] }
    if bad ∧ (tk + 99) / 100 ≤ (s2.lnk k).runs then
      (s2.declareImbalance k).updLnk k fun l => { l with runs := 0, runSum := 0, portSums := [] }
    else s2

/-- IMBALANCE_BLOCK (R296): the end of a block of 100 µs. -/
def execImbalanceBlock (s : State) : Out :=
  .next (if s.ust U.ldg ≠ .running then s
    else (s.each (List.range 4) State.blockLink).each (List.range 12) fun s p =>
      s.updPrt p fun x => { x with block := 0, gotV := false, gotI := false })

/-! ### The planner (R300 to R304) -/

/-- The limits of battery_limits(n) in W and whether the link takes the fallback limits (R302). -/
def State.battLimits (s : State) (k : Nat) : Int × Int × Bool :=
  let l := s.lnk k
  match s.battPort k with
  | none => (0, 0, false)
  | some p =>
    let inTime := match l.battAt with | some t => decide (s.time ≤ t + s.thrN 0x0A04 0xFF 500 * 1000000) | none => false
    let dis := if !inTime then s.thr 0x0A02 0xFF 0 else if 0 < l.allowance then l.battPeak else l.battDis
    let chg := if inTime then l.battChg else s.thr 0x0A03 0xFF 0
    (minI dis (s.maxRet (some p)), minI chg (s.maxDraw (some p)), !inTime)

/-- The discharge energy of the last round in excess of the continuous discharge leaves the allowance (R302). -/
def State.spendAllowance (s : State) (k : Nat) : State :=
  match s.battPort k with
  | none => s
  | some p =>
    let r := (s.prt p).ret
    s.updLnk k fun l => { l with allowance := maxI 0 (l.allowance - maxI 0 ((l.lastRet - r) - l.battDis * 1000000)), lastRet := r }

/-- The planner takes the function into account. -/
def State.takesPart (s : State) (f : Nat) : Bool := (s.ust (U.fn f)).active

/-- demand(f) in W: t_req × the mechanical speed (R301), its magnitude rounded down, as Table LDG-5 has it. Log 247. -/
def State.demandOf (s : State) (f : Nat) : Int :=
  let d := ((s.tReq f).1 : Rat) / 65536 * s.mechSpeed ((s.fnEngines f).headD 0)
  if d < 0 then -(-d).floor else d.floor

/-- chop_capacity(n) in W (R303). -/
def State.chopCapacity (s : State) (k : Nat) : Int :=
  match s.chopOf k with
  | none => 0
  | some f =>
    if s.ust (U.fn f) = .running ∧ !(s.tr f).hot ∧ !(s.tr f).saturated then
      let v : Rat := s.thr 0x0102 k 1000
      (v * v / s.chopOhms f).floor
    else 0

/-- procedure share of R301: (function, demand, maximum) to (function, grant), in whole W, each value rounded down. -/
def share (a : Int) (l : List (Nat × Int × Nat)) : List (Nat × Int) :=
  let dd := (l.map (·.2.1)).foldl (· + ·) 0
  let mm : Int := ((l.map (·.2.2)).foldl (· + ·) 0 : Nat)
  l.map fun (f, d, m) =>
    let g := if dd ≤ a then (if mm = 0 then d else d + (a - dd) * m / mm) else a * d / dd
    (f, minI (m : Int) g)

def posPart (x : Rat) : Rat := if x < 0 then 0 else x
def minQ (a b : Rat) : Rat := if b < a then b else a

/-- The charger's demands (charge, discharge) in W, rounded down: its mode's in a session; before one, what a session could ask for (R301). -/
def State.chgDemand (s : State) : Int × Int :=
  let st := s.ust U.chg
  if !st.active then (0, 0)
  else if s.chgPhase = 0 then
    ((minQ 22000 (((capOpt (s.thr 0x050A 0xFF 800 * 65536 / 10) s.chg.lOut : Int) : Rat) / 65536 * posPart s.chgV2)).floor, 11000)
  else if s.chgMode = 0 then ((minQ 22000 ((s.chgProg : Rat) / 65536 * posPart s.chgV2)).floor, 0)
  else (0, minI 11000 s.chg.power)

/-- An envelope of a function after its power-hole floor (R304) and the imbalance limit of its link (R297). -/
def State.boundEnv (s : State) (k : Nat) (f : Nat) (d r : Int) : Nat × Int × Int :=
  let (d1, r1) := match s.ldg.holes.find? fun h => h.fn == f with
    | some h => (match h.floor with | some (fd, fr) => (maxI d fd, maxI r fr) | none => (d, r))
    | none => (d, r)
  if bitAt (s.fld R.LDG_IMB F.LDG_IMB_LINK) k then
    let pct := s.thr 0x0A05 0xFF 50
    (f, minI d1 ((s.maxDraw (s.fnPort f) : Int) * pct / 100), minI r1 ((s.maxRet (s.fnPort f) : Int) * pct / 100))
  else (f, d1, r1)

/-- The round for link k, added to what the round has so far. -/
def State.planLink (s : State) (o : PlanOut) (k : Nat) : PlanOut :=
  let (dis, chg, fallen) := s.battLimits k
  let fs := s.functions.filter fun f => s.linkOf f == k && s.takesPart f
  let (avail1, hl) := (fs.filter fun f => s.fnRole f == 5).foldl (fun (p : Int × List (Nat × Int)) h =>
    let g := minI (s.maxDraw (s.fnPort h)) p.1
    (p.1 - g, p.2 ++ [(h, g)])) (dis, [])
  let mine := s.variant.chg && s.thr 0x0A07 0xFF (-1) == (k : Int)
  let (dc, dx) := if mine then s.chgDemand else (0, 0)
  let gx := minI dx avail1
  let gc := minI dc chg
  let avail := avail1 - gx
  let acc := chg - gc
  let tr := fs.filter fun f => s.fnRole f == 1
  let draws := share avail (tr.map fun f => (f, maxI 0 (s.demandOf f), s.maxDraw (s.fnPort f)))
  let other := (((s.linkPorts k).filter fun p => s.portKind p == 2 || (s.portKind p == 3 && s.fnRole (s.portSel p) == 5)).map fun p =>
    maxI 0 ((s.prt p).round / 1000000)).foldl (· + ·) 0
  let cap := s.chopCapacity k
  let rets := share (acc + other + cap) (tr.map fun f => (f, maxI 0 (-(s.demandOf f)), s.maxRet (s.fnPort f)))
  let regen := (tr.map fun f => maxI 0 (-(s.demandOf f))).foldl (· + ·) 0
  let dump := clampI 0 cap (regen - acc - other)
  let env := (hl.map fun (f, g) => s.boundEnv k f g 0) ++
    (draws.zip rets).map fun (a, b) => s.boundEnv k a.1 a.2 b.2
  let imb := bitAt (s.fld R.LDG_IMB F.LDG_IMB_LINK) k
  let chgPort := s.fnPort s.chgDab
  let lim (m : Nat) (x : Int) : Int := if imb && chgPort.isSome then minI x ((m : Int) * s.thr 0x0A05 0xFF 50 / 100) else x
  { o with
    env := o.env ++ env, demand := o.demand ++ tr.map fun f => (f, s.demandOf f)
    limited := if imb then o.limited ++ env.map (·.1) else o.limited
    charger := if mine then lim (s.maxDraw chgPort) gc else o.charger
    chargerDis := if mine then lim (s.maxRet chgPort) gx else o.chargerDis
    links := o.links ++ [(k, dump, dis, chg)], fallback := if fallen then o.fallback ++ [k] else o.fallback }

/-- The envelopes of a snapshot (R301). -/
def State.plan (s : State) : PlanOut :=
  (List.range 4).foldl s.planLink ⟨s.time, [], [], [], 0, 0, s.thr 0x0A06 0xFF 3600, [], []⟩

/-- The planner's core, P0 or C0 in split mode, executes: it is neither held in reset nor stopped nor halted by the debugger (R300, R305).
Log 248. -/
def State.plannerRuns (s : State) : Bool :=
  ((s.core 0).cond = .running || (s.core 0).cond = .parked) && !(s.core 0).halted

/-- PLANNER_ROUND (R300 to R304): the snapshot and the computation, kept until the latch. -/
def execPlannerRound (s : State) : Out :=
  .next <|
    if s.ust U.ldg ≠ .running ∨ !s.plannerRuns then s
    else
      let s1 := s.each (List.range 4) State.spendAllowance
      let o := s1.plan
      let s2 := s1.each (List.range 12) fun s p => s.updPrt p fun x => { x with round := 0 }
      { s2 with ldg := { s2.ldg with
          plan := some o
          holes := s2.ldg.holes.map fun h =>
            match h.floor with
            | some _ => h
            | none => { h with floor := (o.env.find? fun e => e.1 == h.fn).map fun e => (e.2.1, e.2.2) } } }

/-- Every envelope and P_DUMP of a round, latched together, and what the round has taken (R300). -/
def State.latchPlan (s : State) (o : PlanOut) : State :=
  let s1 := s.each (List.range 16) fun s f =>
    let (d, r) := match o.env.find? fun e => e.1 == f with | some e => (e.2.1, e.2.2) | none => (0, 0)
    ((s.setReg (R.LDG_EDf f) (BitVec.ofNat 32 d.toNat)).setReg (R.LDG_ERf f) (BitVec.ofNat 32 r.toNat)).updFp f fun p =>
      { p with demand := ((o.demand.find? fun e => e.1 == f).map (·.2)).getD 0, limited := o.limited.contains f }
  let s2 := s1.each o.links fun s (k, dump, dis, chg) =>
    let fall := o.fallback.contains k
    let s' := if fall && !(s.lnk k).fallen then s.setFlag R.LDG_EVT F.LDG_EVT_LIMITS else s
    s'.updLnk k fun l => { l with dump := dump, dis := dis, chg := chg, fallen := fall }
  let s3 := (((s2.setFld R.LDG_STATE F.LDG_STATE_FALLBACK (b2n !o.fallback.isEmpty)).clrFlag R.LDG_STATE F.LDG_STATE_STALE).incFld
    R.LDG_ROUND F.LDG_ROUND_COUNT).setFld R.LDG_ROUND F.LDG_ROUND_TIME (satU 8 ((s.time - o.at_) / 1000))
  let l : LdgSt := { s3.ldg with plan := none, charger := o.charger, chargerDis := o.chargerDis, regulator := o.regulator, latchedAt := s.time }
  { s3 with ldg := { l with rounds := (l.rounds + 1) % 4294967296 } }

/-- PLANNER_LATCH (R300): the end of a round, on a core that executes. -/
def execPlannerLatch (_us : Nat) (s : State) : Out :=
  .next (match s.ldg.plan with | none => s | some o => if s.plannerRuns then s.latchPlan o else s)

/-- PLANNER_STALE (R305): no round has latched for STALE_T. -/
def execPlannerStale (s : State) : Out :=
  .next <|
    if s.ust U.ldg ≠ .running ∨ s.flag R.LDG_STATE F.LDG_STATE_STALE then s
    else
      let s1 := (s.setFlag R.LDG_STATE F.LDG_STATE_STALE).setFlag R.LDG_EVT F.LDG_EVT_STALE
      { s1 with ldg := { s1.ldg with
          staleAt := s.time
          decay := (List.range 16).map fun f => (f, ((s.reg (R.LDG_EDf f)).toNat : Int), ((s.reg (R.LDG_ERf f)).toNat : Int))
          decayCh := (s.ldg.charger, s.ldg.chargerDis, s.ldg.regulator) } }

/-- POWER_HOLE_TIMEOUT (R304): a notice still open after 4 × SHIFT_EST is closed and journalled. -/
def execPowerHoleTimeout (f : Nat) (s : State) : Out :=
  .next (if s.ldg.holes.any fun h => h.fn == f then
      State.journalFree { s with ldg := { s.ldg with holes := s.ldg.holes.filter fun h => h.fn != f } } U.ldg
    else s)

/-! ### Letters (Table LDG-3) -/

/-- LDG_BATTERY (R302, R306). -/
def specLdgBattery : LetterSpec where
  units _ u := u == U.ldg
  legal st := st = .running
  used := [(16, 16), (20, 35)]
  fails s m := if 3 < m.u8 16 ∨ (s.battPort (m.u8 16)).isNone ∨ m.u32 28 < m.u32 20 then [.eRange] else []
  run s m _ := doneWith (s.updLnk (m.u8 16) fun l =>
    { l with battDis := (m.u32 20 : Nat), battChg := (m.u32 24 : Nat), battPeak := (m.u32 28 : Nat),
             allowance := ((m.u32 32 * 1000000000 : Nat) : Int), battAt := some s.time })

/-- LDG_KEEPALIVE (R306, R307). -/
def specLdgKeepalive : LetterSpec where
  units _ u := u == U.ldg
  legal st := st = .running
  used := [(16, 34)]
  fails _ m :=
    (if 1 < m.u8 34 then [.eFormat] else []) ++
    (if 100000 < m.u32 16 ∨ 10000000 < m.u32 20 ∨ m.u32 24 < 1 ∨ 100000 < m.u32 24
        ∨ (m.u32 28 ≠ 0 ∧ (m.u32 28 < 60 ∨ 604800 < m.u32 28)) ∨ m.u16 32 < 100 ∨ 60000 < m.u16 32 then [.eRange] else [])
  run s m _ :=
    let cap := m.u32 16 * 1000000
    let a := { s.aon with cap := cap, refill := m.u32 20, wakePower := m.u32 24, period := m.u32 28, limit := m.u16 32,
                          balance := if m.u8 34 = 1 then ((cap * 4096 : Nat) : Int) else s.aon.balance }
    ({ s with aon := a }, .done (leBytes 8 (ofSigned 64 s.kaBalance)) none)

def execLdgBattery (m : Msg) (s : State) : Out := .next (deliver specLdgBattery s m)
def execLdgKeepalive (m : Msg) (s : State) : Out := .next (deliver specLdgKeepalive s m)

/-! ### Registers with an effect -/

/-- NET of a port in µJ, rounded towards minus infinity (R294). -/
def State.portNet (s : State) (p : Nat) : Int := (s.prt p).net / 1000

/-- LDG_NET_READ (R295): the low word of NET; the high word of the same tick goes to LDG_Pp_EHI. A port without a record reads zero. -/
def execLdgNetRead (who : Requester) (p : Nat) (s : State) : Out :=
  .next <| s.accessBy who (R.LDG_Pp_ELO p) false <|
    if 12 ≤ p then s.refuse .eFormat (R.LDG_Pp_ELO p)
    else if s.portKind p = 0 then s.respond 0
    else
      let v := ofSigned 64 (s.portNet p)
      (s.setReg (R.LDG_Pp_EHI p) (BitVec.ofNat 32 (v / 4294967296))).respond (v % 4294967296)

/-- WITHDRAWAL_QUEUE_READ (R299): bytes 4 to 7 of the head entry, which is removed; 0 where the queue is empty. -/
def execWithdrawalQueueRead (who : Requester) (s : State) : Out :=
  .next <| s.accessBy who R.LDG_WQHI false <|
    match s.ldg.wq with
    | [] => s.respond 0
    | x :: t => (({ s with ldg := { s.ldg with wq := t } }).setFld R.LDG_WQSTAT F.LDG_WQSTAT_COUNT t.length).respond (leAt x 4 4)

/-- KEEPALIVE_BALANCE_READ (R307, Table LDG-9): the low word of the balance; the high word goes to LDG_KABHI. -/
def execKeepaliveBalanceRead (who : Requester) (s : State) : Out :=
  .next <| s.accessBy who R.LDG_KABLO false <|
    let v := ofSigned 64 s.kaBalance
    (s.setReg R.LDG_KABHI (BitVec.ofNat 32 (v / 4294967296))).respond (v % 4294967296)

/-- IMBALANCE_CLEAR (R297): a write of LDG_IMB; the bits written as 1 are cleared. -/
def execImbalanceClear (who : Requester) (bits : Nat) (s : State) : Out :=
  let v := BitVec.ofNat 32 bits
  .next (s.accessBy who R.LDG_IMB true <| s.tryWrite R.LDG_IMB v [] fun s => s.plainWrite R.LDG_IMB v)

/-! ### The standby keep-alive budget (R307, R308) -/

/-- KEEPALIVE_REFILL (R307, R308): every AON second; a timer wake that waits for the balance takes place when it suffices. -/
def execKeepaliveRefill (s : State) : Out :=
  .next <|
    let b := minI (s.aon.balance + (s.aon.refill * 4096 : Nat)) (s.aon.cap * 4096 : Nat)
    let s1 := { s with aon := { s.aon with balance := b } }
    if s1.rst.standby ∧ s1.aon.waiting ∧ s1.kaNeed ≤ s1.kaBalance then s1.wake 4 else s1

/-- KEEPALIVE_DEBIT (R307, R309): every AON tick (1/32,768 s) while awake; the balance stops falling at minus the cap. -/
def execKeepaliveDebit (s : State) : Out :=
  .next <|
    if !s.awake then s
    else
      let floor : Int := -((s.aon.cap * 4096 : Nat) : Int)
      let b := s.aon.balance
      let b' := b - ((s.aon.wakePower * 125 : Nat) : Int)
      { s with aon := { s.aon with balance := if b' < floor then minI b floor else b' } }

/-- TIMER_WAKE (R308): due one timer period after the previous return to standby; with too low a balance it waits for the refill. -/
def execTimerWake (s : State) : Out :=
  .next <|
    if !(s.rst.standby ∨ s.rst.standbyDue) ∨ s.aon.period = 0 ∨ s.aon.waiting then s
    else if s.kaNeed ≤ s.kaBalance then s.wake 4
    else ({ s with aon := { s.aon with waiting := true } }).incFld R.LDG_KASKIP F.LDG_KASKIP_COUNT

/-- TIMER_WAKE_LIMIT (R308): a timer wake has reached its limit: KAEND, journalled; standby follows in 100 ms. -/
def execTimerWakeLimit (s : State) : Out :=
  .next <|
    if !s.awake ∨ s.fld R.RST_WAKE F.RST_WAKE_SRC ≠ 4 then s
    else
      let s1 := (s.setFlag R.LDG_EVT F.LDG_EVT_KAEND).journalFree U.ldg
      { s1 with rst := { s1.rst with standbyDue := true } }

end Sys2Proof.Machine
end

