-- ==== Sys2Proof/Machine/Sensing.lean ====
section
/-!
DEFINITION. The sensing units' commands (06): round converters and urgent requests, resolvers and encoders, SENT inputs, and the
registers of these units with checks or effects.
Choices of the model: log 74.
-/
namespace Sys2Proof.Machine

/-! ### Correction registers (R162, R165) -/

/-- GAIN and OFS of a correction word are in range. -/
def corrFails (v : Word) : List Status :=
  let ofs := toSigned 16 (getF v ⟨15, 0⟩)
  let gain := getF v ⟨31, 16⟩
  if gain < 0x2000 ∨ 0x7FFF < gain ∨ ofs < -2048 ∨ 2047 < ofs then [.eRange] else []

/-- An engine whose loop samples the group is ARMED, RUNNING or STOPPING. -/
def State.groupUsed (s : State) (g : Nat) : Bool := (List.range 8).any fun n => (s.ust (U.fe n)).active && (s.groupsOf n).contains g

/-- FCV_CORR_WRITE (R162). -/
def execFcvCorrWrite (who : Requester) (n : Nat) (value : Word) (s : State) : Out :=
  .next (s.accessBy who (R.FCV_CHn_CORR n) true <| s.tryWrite (R.FCV_CHn_CORR n) value (corrFails value ++ if s.groupUsed (n / 4) then [.eState] else [])
    fun s => s.plainWrite (R.FCV_CHn_CORR n) value)

/-- RND_CORR_WRITE (R165). -/
def execRndCorrWrite (who : Requester) (r k : Nat) (value : Word) (s : State) : Out :=
  .next (s.accessBy who (R.RNDr_CORRk r k) true <| s.tryWrite (R.RNDr_CORRk r k) value (corrFails value) fun s => s.plainWrite (R.RNDr_CORRk r k) value)

/-- A function whose loop names position source k is ARMED, RUNNING or STOPPING. -/
def State.sourceUsed (s : State) (k : Nat) : Bool :=
  s.withImg false fun im => im.loops.any fun r =>
    [1, 2, 4].contains (rf r 1 1) && rf r 27 1 == k && (s.ust (U.fn (rf r 2 1))).active

/-- POS_OFS_WRITE (R172). -/
def execPosOfsWrite (who : Requester) (k : Nat) (value : Word) (s : State) : Out :=
  .next (s.accessBy who (R.POSk_OFS k) true <| s.tryWrite (R.POSk_OFS k) value (if s.sourceUsed k then [.eState] else []) fun s => s.plainWrite (R.POSk_OFS k) value)

/-! ### Round converters -/

def isRnd (_ : State) (u : Nat) : Bool := u == U.rnd 0 || u == U.rnd 1
/-- The converter of a letter. -/
def rndOf (m : Msg) : Nat := m.unit - 0x2C

/-- RND_RUN (Table SEN-8). -/
def specRndRun : LetterSpec where
  units := isRnd
  legal st := st = .idle
  used := []
  late s m := if s.hasEntries (rndOf m) then [] else [.eState]
  run s m _ := doneWith ((s.setUst m.unit .running).rndStart (rndOf m))

/-- RND_HALT (Table SEN-8); a sequence that runs no entry is over at once. -/
def specRndHalt : LetterSpec where
  units := isRnd
  legal st := st = .running
  used := []
  opens _ _ := true
  run s m _ := acceptedWith (((s.setUst m.unit .stopping).updRd (rndOf m) fun x => { x with watch := [] }).rndSettle (rndOf m))

/-- RND_URGENT (R167, Table SEN-8). -/
def specRndUrgent : LetterSpec where
  units := isRnd
  legal st := st = .idle || st = .running || st = .stopping
  used := [(16, 18)]
  fails s m := (if 47 < m.u8 16 ∨ 15 < m.u8 18 then [.eRange] else []) ++
    (if 4 ≤ (s.rd (rndOf m)).urgent.length then [.eFull] else [])
  opens _ _ := true
  run s m k := acceptedWith (s.urgentPush (rndOf m) ⟨m.u8 16, m.u8 17, m.u8 18, some k, none, false⟩)

/-- RND_CLEAR (R170, Table SEN-8). -/
def specRndClear : LetterSpec where
  units := isRnd
  legal st := st = .fault
  used := []
  fails s m := if (s.rd (rndOf m)).refBad then [.eInterlock] else []
  run s m _ := doneWith (s.setUst m.unit .idle)

def execRndRun (m : Msg) (s : State) : Out := .next (deliver specRndRun s m)
def execRndHalt (m : Msg) (s : State) : Out := .next (deliver specRndHalt s m)
def execRndUrgent (m : Msg) (s : State) : Out := .next (deliver specRndUrgent s m)
def execRndClear (m : Msg) (s : State) : Out := .next (deliver specRndClear s m)

/-- The sense-channel number of input c of converter r (Table SEN-2). -/
def senseChan (r c : Nat) : Nat := 0x40 + 0x40 * r + c

/-- A delivered result is seen by the choppers and the regulator that use its channel (R199, R254). -/
def State.rndSeen (s : State) (r ch : Nat) (entry : List Byte) : State :=
  (s.chopCheck (senseChan r ch)).regRound (senseChan r ch) (toSigned 16 (leAt entry 0 2))

/-- The next urgent request starts, if none is under way and it has reached the converter. -/
def State.urgentStart (s : State) (r : Nat) : State :=
  match (s.rd r).active, (s.rd r).urgent with
  | none, u :: t => if u.arrived then (s.updRd r fun x => { x with active := some u, urgent := t }).syncRnd r else s
  | _, _ => s

/-- The entry in progress has ended, with a result or with one lost on the link: the sequence goes to the next entry, in STOPPING it ends
(R164, R170), and a request that waited for the end of a protected conversion starts (R168). `watch` says whether the entry's watch
restarts. -/
def State.entryDone (s : State) (r entry : Nat) (watch : Bool) : State :=
  let next := if entry < 63 ∧ s.flag (R.RNDr_SEQe r (entry + 1)) F.RNDr_SEQe_VALID then entry + 1 else 0
  let go := s.ust (U.rnd r) == .running
  ((s.setFld (R.RNDr_STATE r) F.RNDr_STATE_ENTRY next).updRd r fun x =>
    { x with watch := if watch then FMap.set (fun _ => false) x.watch entry true else x.watch, running := go }).urgentStart r

/-- An entry of the sequence can deliver: the converter runs it, and no urgent conversion is under way (R167). -/
def State.entryLive (s : State) (r entry : Nat) : Bool :=
  let st := s.ust (U.rnd r)
  r < 2 && entry < 64 && (s.rd r).running && (s.rd r).active.isNone && (st == .running || st == .stopping)
    && s.flag (R.RNDr_SEQe r entry) F.RNDr_SEQe_VALID && s.fld (R.RNDr_STATE r) F.RNDr_STATE_ENTRY == entry

/-- A round result is lost on the link (R21): n is the converter, plus 2 for the urgent result under way. The sequence goes on; a letter's
operation ends with E_FAULT (log 188). -/
def State.roundLost (s : State) (n : Nat) : State :=
  let r := n % 2
  let s1 := s.setFlag (R.RNDr_EVT r) F.RNDr_EVT_LOST
  if n < 2 then
    let e := s.fld (R.RNDr_STATE r) F.RNDr_STATE_ENTRY
    if s.entryLive r e then (s1.entryDone r e false).rndSettle r else s
  else match (s.rd r).active with
    | none => s
    | some u =>
      let s2 := s1.updRd r fun x => { x with active := none }
      ((match u.op with | some k => s2.hwFinish k .eFault [] | none => s2).urgentStart r).rndSettle r

/-- ROUND_ENTRY_RESULT (R164 to R166, R169): the last repeat of the entry in progress has ended; `raw` its codes. The mean is
rounded, a tie upwards. A watched entry's watch restarts; in STOPPING the sequence ends after the entry. -/
def execRoundEntryResult (r entry : Nat) (raw : List Nat) (s : State) : Out :=
  .next <|
    let st := s.ust (U.rnd r)
    let q := s.reg (R.RNDr_SEQe r entry)
    if !s.entryLive r entry then s
    else
      let rep := max 1 (getF q F.RNDr_SEQe_REPEAT)
      let sum := ((raw.take rep).map (· % 4096)).foldl (· + ·) 0
      let m := (2 * 8 * sum + rep) / (2 * rep)
      let ch := getF q F.RNDr_SEQe_CHANNEL
      let (s1, bytes) := s.rndDeliver r ch (getF q F.RNDr_SEQe_SLOT) m entry false
      (((s1.entryDone r entry (st == .running && s.fld (R.RNDr_LIMe r entry) F.RNDr_LIMe_LIMIT != 0)).rndSeen r ch bytes).rndSettle r).linkDone 4 r

/-- The oldest request that has not reached the converter does. -/
def arriveFirst : List Urgent → List Urgent
  | [] => []
  | u :: t => if u.arrived then u :: arriveFirst t else { u with arrived := true } :: t

/-- The entry in progress is protected, and the sequence runs. -/
def State.protectedNow (s : State) (r : Nat) : Bool :=
  (s.rd r).running && s.flag (R.RNDr_SEQe r (s.fld (R.RNDr_STATE r) F.RNDr_STATE_ENTRY)) F.RNDr_SEQe_PROT

/-- URGENT_ARRIVAL (R168): a request reaches the converter, which is idle, between entries or conversions (0), in a settle delay (1) or in a
conversion (2). It starts at once, but in a conversion of a protected entry, where it waits for the conversion's end: that of the entry's
last repeat is its result, that of an earlier one an arrival of activity 0 with no request on its way. -/
def execUrgentArrival (r activity : Nat) (s : State) : Out :=
  .next <|
    let st := s.ust (U.rnd r)
    if 2 ≤ r ∨ s.faultPending (U.rnd r) ∨ !(st = .idle ∨ st = .running ∨ st = .stopping) then s
    else
      let s1 := s.updRd r fun x => { x with urgent := arriveFirst x.urgent }
      if activity = 2 ∧ s.protectedNow r then s1 else s1.urgentStart r

/-- URGENT_RESULT (R166 to R168): the urgent conversion has ended; RNDr_URGRES, URGDONE, the letter's receipt; queued requests run
back to back. -/
def execUrgentResult (r raw : Nat) (s : State) : Out :=
  .next <|
    match (s.rd r).active with
    | none => s
    | some u =>
      if 2 ≤ r then s
      else
        let (s1, bytes) := s.rndDeliver r u.channel u.slot (8 * (raw % 4096)) 0 true
        let s2 := (s1.setReg (R.RNDr_URGRES r) (BitVec.ofNat 32 (2147483648 + leAt bytes 0 3))).setFlag (R.RNDr_EVT r) F.RNDr_EVT_URGDONE
        let s3 := s2.updRd r fun x => { x with active := none }
        let s4 := match u.op with
          | some k => s3.hwFinish k .done bytes
          | none => s3
        (((s4.rndSeen r u.channel bytes).urgentStart r).rndSettle r).linkDone 4 (r + 2)

/-- REFRESH_LAPSE (R169): the limit of a watched entry has elapsed: flagged once. -/
def execRefreshLapse (r entry : Nat) (s : State) : Out :=
  .next <|
    if 2 ≤ r ∨ s.ust (U.rnd r) ≠ .running ∨ !FMap.get (fun _ => false) (s.rd r).watch entry then s
    else
      let s1 := s.updRd r fun x => { x with watch := FMap.set (fun _ => false) x.watch entry false }
      ((s1.setFlag (R.RNDr_EVT r) F.RNDr_EVT_STALE).setFld (R.RNDr_STALE r) F.RNDr_STALE_ENTRY entry).incSat (R.RNDr_STALE r) F.RNDr_STALE_COUNT

/-- REFERENCE_FAULT (R170): the reference has been outside its limits for 10 µs (`bad`), or within them for 1 ms. A fault stops the
sequence and empties the urgent queue at once; FAULT at the boundary. Log 262. -/
def execReferenceFault (r : Nat) (bad : Bool) (s : State) : Out :=
  .next <|
    if 2 ≤ r then s
    else
      let s1 := s.updRd r fun x => { x with refBad := bad }
      if !bad ∨ s.ust (U.rnd r) = .off then s1
      else
        let s2 := (s1.updRd r fun x => { x with running := false, active := none, urgent := [], watch := [] }).syncRnd r
        (s2.setFlag (R.RNDr_EVT r) F.RNDr_EVT_REF).hwFault (U.rnd r)

/-! ### Result registers with a read effect (R166, Table SEN-16) -/

/-- RND_URG_WRITE (R167). -/
def execRndUrgWrite (who : Requester) (r : Nat) (value : Word) (s : State) : Out :=
  .next (s.accessBy who (R.RNDr_URG r) true <| s.tryWrite (R.RNDr_URG r) value ((if 47 < getF value ⟨5, 0⟩ then [.eRange] else []) ++ s.urgentFails r)
    fun s => s.urgentPush r ⟨getF value ⟨5, 0⟩, getF value ⟨13, 6⟩, getF value ⟨17, 14⟩, none, none, false⟩)

/-- ROUND_QUEUE_READ (R166): bytes 4 to 7 of the head entry, which is removed; 0 where the queue is empty. -/
def execRoundQueueRead (who : Requester) (r : Nat) (s : State) : Out :=
  .next <| s.accessBy who (R.RNDr_RQHI r) false <|
    match (s.rd r).queue with
    | [] => s.respond 0
    | x :: t => ((s.updRd r fun d => { d with queue := t }).syncRnd r).respond (leAt x 4 4)

/-- URGENT_RESULT_READ (Table SEN-16): RNDr_URGRES; the read clears NEW. -/
def execUrgentResultRead (who : Requester) (r : Nat) (s : State) : Out :=
  .next (s.accessBy who (R.RNDr_URGRES r) false <| (s.clrFlag (R.RNDr_URGRES r) F.RNDr_URGRES_NEW).respond (s.reg (R.RNDr_URGRES r)).toNat)

/-! ### Position (R171 to R174) -/

/-- The position unit starts: no index has been seen, nothing is present. -/
def State.posStart (s : State) : State :=
  (s.setUst U.pos .running).each (List.range 4) fun s k => s.updPs k fun p => { p with index := false, present := 0, excOff := false, ab := none, counts := [] }

/-- The position unit stops: sources are neither valid nor locked. -/
def State.posHalt (s : State) : State :=
  (s.setUst U.pos .idle).each (List.range 4) fun s k =>
    ((s.setPosValid k false).clrFlag (R.POSk_STAT k) F.POSk_STAT_LOCK).updPs k fun p => { p with index := false, present := 0, excOff := false }

def isPos (_ : State) (u : Nat) : Bool := u == U.pos

/-- POS_RUN (Table SEN-8). -/
def specPosRun : LetterSpec where
  units := isPos
  legal st := st = .idle
  used := []
  run s _ _ := doneWith s.posStart

/-- POS_STOP (Table SEN-8). -/
def specPosStop : LetterSpec where
  units := isPos
  legal st := st = .running
  used := []
  fails s _ := if (List.range 4).any s.sourceUsed then [.eInterlock] else []
  run s _ _ := doneWith s.posHalt

def execPosRun (m : Msg) (s : State) : Out := .next (deliver specPosRun s m)
def execPosStop (m : Msg) (s : State) : Out := .next (deliver specPosStop s m)

/-- The resolver faults that clear VALID: LOS, LOT, EXC, SPEED (Table SEN-10). -/
def invalidating (flag : Nat) : Bool := flag == 0 || flag == 2 || flag == 3 || flag == 5

/-- RESOLVER_FAULT (R173): a condition of Table SEN-10 has held for its time; EXC turns the excitation off. -/
def execResolverFault (k flag : Nat) (s : State) : Out :=
  .next <|
    if 2 ≤ k ∨ 6 ≤ flag ∨ !s.posLive k then s
    else
      let s1 := s.posFlag k flag
      if !invalidating flag then s1
      else (s1.setPosValid k false).updPs k fun p =>
        { p with present := if bitAt p.present flag then p.present else p.present + 2 ^ flag, excOff := p.excOff || flag == 3 }

/-- RESOLVER_VALID_RETURN (R173): for 20 ms no invalidating condition was present and the tracking error was below 1°. -/
def execResolverValidReturn (k : Nat) (s : State) : Out :=
  .next <|
    if 2 ≤ k ∨ !s.posLive k ∨ (s.ps k).excOff ∨ 10 ≤ s.fld (R.POSk_STAT k) F.POSk_STAT_TERR then s
    else (s.setPosValid k true).updPs k fun p => { p with present := 0 }

/-- EXCITATION_RESTART (R173): 100 ms after EXC the excitation restarts. -/
def execExcitationRestart (k : Nat) (s : State) : Out :=
  .next (if 2 ≤ k ∨ !s.posLive k then s else s.updPs k fun p => { p with excOff := false })

/-- Counts per turn of encoder source k. -/
def State.encTurn (s : State) (k : Nat) : Nat := 4 * max 1 (s.fld (R.POSk_CFG k) F.POSk_CFG_PP_LINES)

/-- Publish an encoder's angle (R172). Log 261. -/
def State.encPublish (s : State) (k : Nat) : State :=
  let a := (4294967296 * (s.ps k).count / (s.encTurn k : Int) + ((s.reg (R.POSk_OFS k)).toNat : Int)) % 4294967296
  (s.setReg (R.POSk_ANG k) (BitVec.ofNat 32 a.toNat)).updPs k fun p => { p with at_ := s.time, fresh := s.flag (R.POSk_STAT k) F.POSk_STAT_VALID }

/-- The place of the levels 2A + B in the quadrature cycle: A leads B while the count rises (log 189). -/
def quadPlace (ab : Nat) : Nat := match ab with | 0 => 0 | 2 => 1 | 3 => 2 | _ => 3

/-- The counts of the last 1 µs, and the one before them. -/
def recentCounts (now : Nat) : List (Nat × Int) → List (Nat × Int)
  | [] => []
  | c :: t => if now < c.1 + 1000 then c :: recentCounts now t else [c]

/-- The net counts and the number of counts in the window that the speed is taken over, and the window in ns: the longer of the last 1 µs
and the last count interval (R174). `l` holds the counts, the latest at `now`. -/
def countRate (now : Nat) (l : List (Nat × Int)) : Int × Nat × Nat :=
  match l with
  | (_, d) :: (t1, _) :: _ =>
    if t1 + 1000 < now then (d, 1, now - t1)
    else
      let w := l.filter fun c => decide (now < c.1 + 1000)
      ((w.map (·.2)).foldl (· + ·) 0, w.length, 1000)
  | l => ((l.map (·.2)).foldl (· + ·) 0, l.length, 1000)

/-- A count of encoder source k, up or down: the angle, the speed as shaft-angle change per µs, and SPEED above 10 million counts a second
(R172, R174). -/
def State.encStep (s : State) (k : Nat) (d : Int) : State :=
  let l := recentCounts s.time ((s.time, d) :: (s.ps k).counts)
  let (net, n, w) := countRate s.time l
  let v := quant 0 ((net : Rat) * 4294967296 / (s.encTurn k : Rat) * 1000 / (w : Rat))
  let s1 := ((s.updPs k fun p => { p with count := p.count + d, counts := l }).encPublish k).setReg (R.POSk_SPD k)
    (BitVec.ofNat 32 (ofSigned 32 (satS 32 v)))
  if 10 * w < 1000 * n then (s1.posFlag k 5).setPosValid k false else s1

/-- ENCODER_COUNT (R174): the inputs A and B as sampled, after their filter. One that changed is a count (×4 decoding); both in one sample
are the fault ILLEGAL, and the count does not change. The levels before are those the source holds; for the first edge since RUNNING, those
that come with it. -/
def execEncoderCount (k : Nat) (a0 b0 a b : Bool) (s : State) : Out :=
  .next <|
    if k < 2 ∨ !s.posLive k then s
    else
      let ab := 2 * b2n a + b2n b
      let old := (s.ps k).ab.getD (2 * b2n a0 + b2n b0)
      let s1 := s.updPs k fun p => { p with ab := some ab }
      match (quadPlace ab + 4 - quadPlace old) % 4 with
      | 0 => s1
      | 1 => s1.encStep k 1
      | 3 => s1.encStep k (-1)
      | _ => (s1.posFlag k 6).setPosValid k false

/-- ENCODER_INDEX (R174): an index pulse; the count is zero at the index. A count more than 2 from a multiple of 4 × lines is the
fault INDEX; the first index since RUNNING has nothing to be checked against. -/
def execEncoderIndex (k : Nat) (s : State) : Out :=
  .next <|
    if k < 2 ∨ !s.posLive k then s
    else
      let p := s.ps k
      let t : Int := s.encTurn k
      let d := p.count % t
      let off := p.index && decide (2 < d) && decide (2 < t - d)
      let s1 := ((s.updPs k fun p => { p with count := 0, index := true }).encPublish k).setFlag (R.POSk_STAT k) F.POSk_STAT_LOCK
      if off then (s1.posFlag k 7).setPosValid k false else (s1.setPosValid k true).updPs k fun p => { p with fresh := true }

/-! ### SENT inputs (R175 to R177) -/

def isSent (_ : State) (u : Nat) : Bool := u == U.sent

/-- Set or clear VALID of a SENT input; a fall is an event and reaches the gearbox sequencer (R176, R277). -/
def State.setSentValid (s : State) (i : Nat) (v : Bool) : State :=
  let was := (s.sn i).valid
  let s1 := s.updSn i fun x => { x with valid := v }
  let s2 := if v then s1.setBit R.SENT_STATE F.SENT_STATE_VALID i else s1.clrBit R.SENT_STATE F.SENT_STATE_VALID i
  if was && !v then (s2.setBit R.SENT_EVT F.SENT_EVT_INVALID i).gbxFrame i false 0 0 else s2

/-- SENT_RUN (Table SEN-8). -/
def specSentRun : LetterSpec where
  units := isSent
  legal st := st = .idle
  used := []
  run s _ _ := doneWith (s.setUst U.sent .running)

/-- The SENT unit stops receiving: no input is valid. -/
def State.sentHalt (s : State) : State :=
  (s.setUst U.sent .idle).each (List.range 4) fun s i => (s.setSentValid i false).updSn i fun x => { x with goods := 0, sync := 0, len := 0, slow := [] }

/-- SENT_STOP (Table SEN-8). -/
def specSentStop : LetterSpec where
  units := isSent
  legal st := st = .running
  used := []
  run s _ _ := doneWith s.sentHalt

def execSentRun (m : Msg) (s : State) : Out := .next (deliver specSentRun s m)
def execSentStop (m : Msg) (s : State) : Out := .next (deliver specSentStop s m)

/-- The SENT unit runs and the input is enabled. -/
def State.sentLive (s : State) (i : Nat) : Bool :=
  i < 4 && s.ust U.sent == .running && bitAt (s.fld (R.SENTi_CFG i) F.SENTi_CFG_FORMAT) 7

/-- A pulse in ticks of its frame, whose sync pulse is 56 ticks long, rounded to the nearest (log 190: SAE J2716). -/
def sentTicks (sync len : Nat) : Nat := (112 * len + sync) / (2 * max 1 sync)

/-- n steps of the division by a generator of degree w (its lower bits). -/
def crcSteps (w gen : Nat) : Nat → Nat → Nat
  | 0, c => c
  | n + 1, c => crcSteps w gen n (if bitAt c (w - 1) then Nat.xor (2 * c % 2 ^ w) gen else 2 * c)

/-- The CRC of SAE J2716 over w-bit groups from a seed; the recommended method appends one group of zeros (log 190). -/
def sentCrc (w gen seed : Nat) (append : Bool) (l : List Nat) : Nat :=
  let c := l.foldl (fun c d => Nat.xor (crcSteps w gen w c) d) seed
  if append then crcSteps w gen w c else c

/-- The CRC of four bits: x^4 + x^3 + x^2 + 1, seed 0101; by the legacy method no zeros are appended (Table SEN-11). -/
def sentCrc4 (legacy : Bool) (l : List Nat) : Nat := sentCrc 4 13 5 (!legacy) l

/-- The value of a list of bits, the first the most significant. -/
def bitsVal (l : List Nat) : Nat := l.foldl (fun a b => 2 * a + b) 0

/-- The slow message that the status bits of the good frames in a row complete, latest first: type (SENTi_SLOW.TYPE), ID, data, and whether
its CRC passes (Table SEN-11; log 190). A short message is 16 frames whose bit 3 is 1 in the first only; an enhanced one 18 frames whose bit
3 is 1 in the first six and 0 in the 7th, 13th and 18th. -/
def slowMessage (legacy : Bool) (h : List Nat) : Option (Nat × Nat × Nat × Bool) :=
  let l18 := (h.take 18).reverse
  let l16 := (h.take 16).reverse
  let b3 (l : List Nat) := l.map (· / 2 % 2)
  let b2 (l : List Nat) := l.map (· % 2)
  let part (l : List Nat) (i n : Nat) := bitsVal ((l.drop i).take n)
  if l18.length = 18 ∧ part (b3 l18) 0 7 = 126 ∧ part (b3 l18) 12 1 = 0 ∧ part (b3 l18) 17 1 = 0 then
    let bits := (l18.drop 6).flatMap fun x => [x % 2, x / 2 % 2]
    let ok := sentCrc 6 25 21 true ((List.range 4).map fun i => part bits (6 * i) 6) == part (b2 l18) 0 6
    let hi := part (b3 l18) 8 4
    let lo := part (b3 l18) 13 4
    let d := part (b2 l18) 6 12
    if part (b3 l18) 7 1 = 0 then some (2, hi * 16 + lo, d, ok) else some (3, hi, lo * 4096 + d, ok)
  else if l16.length = 16 ∧ part (b3 l16) 0 16 = 32768 then
    let ok := sentCrc4 legacy ((List.range 3).map fun i => part (b2 l16) (4 * i) 4) == part (b2 l16) 12 4
    some (1, part (b2 l16) 0 4, part (b2 l16) 4 8, ok)
  else none

/-- The nibbles of a frame. -/
def sentNibbles (f : SentIn) : List Nat := f.pulses.map fun p => sentTicks f.sync p - 12

/-- The length of a frame in ns, and in ticks. -/
def sentSpan (f : SentIn) : Nat := f.sync + f.pulses.foldl (· + ·) 0 + f.pause.getD 0
def sentFrameTicks (f : SentIn) : Nat := sentTicks f.sync (sentSpan f)

/-- The slow-channel history after a good frame. -/
def slowPush (h : List Nat) (status : Nat) : List Nat := (status / 4 % 4 :: h).take 18

/-- The checks of R176 on a frame but the slow channel's: bits of SENTi_ERR.LAST. -/
def State.sentErrs (s : State) (i : Nat) (f : SentIn) : Nat :=
  let fmt := s.fld (R.SENTi_CFG i) F.SENTi_CFG_FORMAT
  let nom := 500 * 56 * s.fld (R.SENTi_CFG i) F.SENTi_CFG_TICK
  let x := s.sn i
  let n := bitsOf fmt 2 0
  let tick := 4 * f.sync < 3 * nom ∨ 5 * nom < 4 * f.sync
  let vary := x.sync ≠ 0 ∧ x.sync < 64 * (if f.sync < x.sync then x.sync - f.sync else f.sync - x.sync)
  let nib := f.pulses.length ≠ n + 2 ∨ f.pulses.any fun p => sentTicks f.sync p < 12 || 27 < sentTicks f.sync p
  let crc := sentCrc4 (bitAt fmt 3) (((sentNibbles f).drop 1).take n) ≠ (sentNibbles f).getD (n + 1) 0
  let pause := match bitsOf fmt 5 4 with
    | 0 => f.pause.isSome
    | 2 => f.pause.isNone || (x.len != 0 && x.len != sentFrameTicks f)
    | _ => false
  b2n (decide tick) + b2n (decide vary) * 2 + b2n (decide nib) * 4 + b2n (!decide nib && decide crc) * 8 + b2n pause * 16

/-- The errors of a frame are flagged, counted and remembered (R176); a frame with several counts once (log 191). -/
def State.sentError (s : State) (i e : Nat) : State :=
  if e = 0 then s
  else (((s.setBit R.SENT_EVT F.SENT_EVT_ERR i).incSat (R.SENTi_ERR i) F.SENTi_ERR_TOTAL).setFld (R.SENTi_ERR i) F.SENTi_ERR_LAST e).updSn i
    fun x => { x with epochFlags := x.epochFlags ||| e }

/-- A good frame: SENTi_FAST, SENTi_TIME, VALID after two in a row (R176, R177). -/
def State.sentGood (s : State) (i : Nat) (f : SentIn) : State :=
  let n := bitsOf (s.fld (R.SENTi_CFG i) F.SENTi_CFG_FORMAT) 2 0
  let at_ := (s.time - sentSpan f) / 25 * 25
  let d := (((sentNibbles f).drop 1).take n).foldl (fun a b => 16 * a + b) 0
  let s1 := (((s.setFld (R.SENTi_ERR i) F.SENTi_ERR_RUN 0).setReg (R.SENTi_FAST i)
    (BitVec.ofNat 32 ((sentNibbles f).headD 0 % 16 * 268435456 + d % 16777216))).setReg (R.SENTi_TIME i) (BitVec.ofNat 32 at_)).setBit R.SENT_EVT
      F.SENT_EVT_FRAME i
  let s2 := s1.updSn i fun x => { x with goods := x.goods + 1, frames := x.frames + 1, at_ := at_ }
  let s3 := if 2 ≤ (s2.sn i).goods then s2.setSentValid i true else s2
  if (s3.sn i).valid then s3.gbxFrame i true n d else s3

/-- SENT_FRAME (R175 to R177): a frame by its pulses. It is checked; with an error but SLOWCRC it is discarded, and VALID falls where the
errors in a row reach the limit. The slow channel is decoded only where the input's is enabled. -/
def execSentFrame (i sync status : Nat) (data : List Nat) (pause : Option Nat) (s : State) : Out :=
  .next <|
    let f : SentIn := ⟨sync, status :: data, pause⟩
    if !s.sentLive i then s
    else
      let fmt := s.fld (R.SENTi_CFG i) F.SENTi_CFG_FORMAT
      let e := s.sentErrs i f
      let s0 := s.updSn i fun x => { x with sync := f.sync, len := sentFrameTicks f }
      if e ≠ 0 then
        let s1 := ((s0.sentError i e).incSat (R.SENTi_ERR i) F.SENTi_ERR_RUN).updSn i fun x => { x with goods := 0, slow := [] }
        if s1.fld (R.SENTi_CFG i) F.SENTi_CFG_ELIM ≤ s1.fld (R.SENTi_ERR i) F.SENTi_ERR_RUN then s1.setSentValid i false else s1
      else
        let h := if bitAt fmt 6 then slowPush (s.sn i).slow ((sentNibbles f).headD 0) else []
        let s1 := (s0.sentGood i f).updSn i fun x => { x with slow := h }
        match slowMessage (bitAt fmt 3) h with
        | none => s1
        | some (t, id, v, ok) =>
          let s2 := s1.updSn i fun x => { x with slow := [] }
          if ok then (s2.setReg (R.SENTi_SLOW i) (BitVec.ofNat 32 (t * 1073741824 + id * 65536 + v))).setBit R.SENT_EVT F.SENT_EVT_SLOW i
          else s2.sentError i 32

/-- SENT_TIMEOUT (R176): no good frame within 2,048 nominal ticks. -/
def execSentTimeout (i : Nat) (s : State) : Out :=
  .next (if !s.sentLive i then s else (s.setSentValid i false).updSn i fun x => { x with goods := 0 })

/-! ### Sample instants -/

/-- Where a loop's sample instant lies in its carrier period, in ticks: LEAD before the next update point (R129). -/
def State.samplePos (s : State) (n f : Nat) : Nat :=
  let c := s.carrierOf f
  let t := 32 * max 1 c.1
  let u := if s.flag (R.FEn_LOOPCFG n) F.FEn_LOOPCFG_UPDATES ∧ s.carrierTick c < t / 2 then t / 2 else t
  (u + t - 32 * s.fld (R.FEn_LEAD n) F.FEn_LEAD_LEAD % t) % t

/-- The pin positions of a leg within the 128 ticks of an aperture that opens at the sample instant. -/
def State.pinsWithin (s : State) (n f leg : Nat) : List Nat :=
  if (s.dutyOf leg).isNone then []
  else
    let t := 32 * max 1 (s.carrierOf f).1
    (pinPositions (s.fnRole f == 6) (s.leg leg).td (s.governingEdges leg)).filter fun p => (p % t + t - s.samplePos n f) % t < 128

/-- SAMPLE_TRIGGER (R129, R105): the loop's groups are triggered if its engine samples; the engine's computation will use the
parameter set in force at the sample instant. A pin of the function's own legs whose position lies within the 10 ns aperture is counted. `angles`:
what the resolver channels, which publish every 400 ns, have published last (R171). -/
def execSampleTrigger (n : Nat) (_early : Bool) (_apert : List Nat) (angles : List PosIn) (s : State) : Out :=
  .next <|
    let s := s.each angles State.resolverIn
    let es := s.pairEngines n
    if !(s.ust (U.fe (es.headD n))).active then s
    else
      let f := s.fld (R.FEn_STATE n) F.FEn_STATE_FUNCTION
      let s1 := s.each es fun s k =>
        let s := s.settleReset k
        let p := s.parAt k
        s.updE k fun e => { e with par := p, sampleAt := s.time, waiting := true, bad := false, skip := false, samp := [] }
      let hits := (s.fnLegs f).flatMap fun l => (s.pinsWithin (es.headD n) f l).map fun _ => l
      s1.each hits fun s l => (s.incSat (R.MOD_LCNTn l) F.MOD_LCNTn_APERT).setFlag R.MOD_EVT F.MOD_EVT_APERTURE

/-! ### Link frames (R21) -/

/-- A transfer failed: retried, up to three times; then it ends as `fail` says (R21). -/
def State.linkRetry (s : State) (kind n : Nat) (fail : State → State) : State :=
  if s.tries kind n < 3 then s.setTries kind n (s.tries kind n + 1) else fail (s.setTries kind n 0)

/-- A data transfer ends with a bus error to its requester: n holds the requester's unit code, and in bit 8 whether it stores. A code of
no core is the debug module's. -/
def State.linkBusError (s : State) (n : Nat) : State :=
  let s1 : State := { s with resp := ⟨.eFault, 0⟩ }
  match s1.coreOfCode (n % 256) with
  | some t => s1.raiseExc t (if bitAt n 8 then 7 else 5) 0
  | none => s1.sbFail .eFault

/-- A copy of the oldest fault report on the CD–XD link fails. It was sent twice: where the first copy had failed too the report is lost,
the control die counts as failed, and cause LINK holds the safe pattern of everything it serves (R21, Table LSS-3). -/
def State.reportLost (s : State) : State :=
  match s.ssm.frames with
  | [] => s
  | _ :: t =>
    if s.tries 1 0 = 0 then s.setTries 1 0 1
    else State.ssmRaise ({ s with ssm := { s.ssm with frames := t } }.setTries 1 0 0) 3

/-- LINK_FRAME_ERROR (R21): a frame between dies. A correctable error, of 1 to 3 bytes (a free value), is counted and the frame delivered. An uncorrectable one
by kind: 0 a sample result of engine n; 1 a copy of a fault report of the control die; 2 a data transfer (`linkBusError` reads n); 3 a
transfer of critical state (item n); 4 a round result (`roundLost` reads n). -/
def execLinkFrameError (ue : Bool) (kind n : Nat) (s : State) : Out :=
  .next <|
    let (v, s0) := s.draw
    let s1 := if ue then s.memError 6 0 0 true 0 else s0.memError 6 0 (v % 3 + 1) false 0
    if !ue then s1.setTries kind (if kind = 1 then 0 else n) 0
    else match kind with
      | 0 => s1.each (s.pairEngines n) fun s k => s.updE k fun e => { e with bad := e.bad || e.waiting }
      | 1 => s1.reportLost
      | 2 => s1.linkRetry 2 n fun t => t.linkBusError n
      | 3 => s1.linkRetry 3 n fun t => (t.setReg R.MEM_CRIT (BitVec.ofNat 32 (n % 256))).assertSource 7 0
      | 4 => s1.linkRetry 4 n fun t => t.roundLost n
      | _ => s1


end Sys2Proof.Machine
end

