-- ==== Sys2Proof/Machine/SafeState.lean ====
section
/-!
DEFINITION. Lockstep pairs and the safe-state manager (12): mismatches and self-tests, fault frames and heartbeats, watchdogs, the
MON clock check, SSM letters.
Choices of the model: log 12, 13, 77, 79, 81, 82, 83.
-/
namespace Sys2Proof.Machine

/-! ### Lockstep (R319 to R325) -/

/-- The pair executes: none of its cores is in reset or stopped. -/
def State.pairRuns (s : State) (n : Nat) : Bool :=
  n < s.variant.pairs && !s.split && ((s.core n).cond == .running || (s.core n).cond == .parked)

/-- The lowest class of a mask with bit c − 1 for class c (R319). -/
def lowestClass (m : Nat) : Nat := ((List.range 7).find? (bitAt m)).getD 0 + 1

/-- A mismatch of pair n (R322, R323): both cores stop, the first capture is kept, FAULT_N by the control-die driver, the fault
frame, the journal (after the restart where the reach is system), and reset source LOCKSTEP at once for pair reach. -/
def State.mismatch (s : State) (n classes : Nat) (pc : Word) : State :=
  let c := lowestClass classes
  let held := s.flag (R.LSC_MCAUSEn n) F.LSC_MCAUSEn_VALID
  let s1 := if held then s
    else ((s.setReg (R.LSC_MCAUSEn n) (BitVec.ofNat 32 (2147483648 + classes * 65536 + c))).setReg (R.LSC_MPCn n) pc).setReg
      (R.LSC_MTIMEn n) (BitVec.ofNat 32 s.time)
  let entry := leBytes 4 (2147483648 + classes * 65536 + c) ++ leBytes 4 pc.toNat ++ leBytes 4 s.time ++ leBytes 1 n
  let shown := leBytes 4 (s1.reg (R.LSC_MCAUSEn n)).toNat ++ leBytes 4 (s1.reg (R.LSC_MPCn n)).toNat ++ leBytes 4 (s1.reg (R.LSC_MTIMEn n)).toNat
    ++ leBytes 1 n
  let s2 := ((s1.setBit R.LSC_EVT F.LSC_EVT_MISM n).incSat (R.LSC_MCNTn n) F.LSC_MCNTn_COUNT).setLscStat n 3
  let s3 := ((s2.updCore n fun x => { x with cond := .stopped, wfi := false, reservation := none }).setPair n
    { s2.pairSt n with faultN := true, testWaits := false }).sendFrame 4 n c
  if s.reachOf 6 (2 ^ n) = 0 then (s3.journal 5 (padTo 32 shown)).assertSource 6 (2 ^ n)
  else { s3 with ssm := { s3.ssm with mism := s3.ssm.mism ++ [padTo 32 entry] } }

/-- The classes present in a cycle (R319), bit c − 1 for class c: a group that both comparators flag, COMPARATOR where one alone flags
one, DELAY_PARITY. -/
def cycleClasses (x : CmpIn) (parity : Bool) : Nat :=
  x.a % 16 &&& x.b % 16 ||| (if x.a % 16 = x.b % 16 then 0 else 16) ||| (if parity then 32 else 0)

/-- LOCKSTEP_MISMATCH (R319, R321, R322): what the comparators flag in a cycle, a parity error of the delay register, and the main core's
last retired instruction. Split mode makes no comparison (R316). -/
def execLockstepMismatch (n : Nat) (flags : CmpIn × Bool) (pc : Word) (s : State) : Out :=
  .next (if !s.pairRuns n ∨ cycleClasses flags.1 flags.2 = 0 then s else s.mismatch n (cycleClasses flags.1 flags.2) pc)

/-- The group, 0 RETIRE to 3 CSR, of an injected bit (R320). -/
def injectedGroup (pos : Nat) : Nat := if pos < 72 then 0 else if pos < 148 then 1 else if pos < 220 then 2 else 3

/-- The classes of a self-test cycle (R320): the comparator under test flags `own`, the other one `other`. The injected group's flag is
consumed, its absence is SELFTEST; every flag of the other comparator is a mismatch of its group, and another flag of the one under test a
disagreement where the other comparator does not share it. -/
def testClasses (g own other : Nat) : Nat :=
  let rest := (List.range 4).any fun i => i != g && bitAt own i && !bitAt other i
  other % 16 ||| (if rest then 16 else 0) ||| (if bitAt own g then 0 else 64)

/-- COMPARATOR_SELF_TEST (R320): every 1 ms; what the comparators flag in the cycle that tests CMP_A and, eight cycles later, in the one
that tests CMP_B. It waits while the pair is halted; RAN falls where 2 ms pass without a test. -/
def execComparatorSelfTest (n : Nat) (tests : CmpIn × CmpIn) (pc : Word) (s : State) : Out :=
  .next <|
    if 4 ≤ n ∨ s.split then s
    else if !s.pairRuns n ∨ (s.core n).halted then
      let s1 := s.setPair n { s.pairSt n with testWaits := true }
      if (s.pairSt n).testWaits then s1.clrBit R.LSC_STEST F.LSC_STEST_RAN n else s1
    else
      let g := injectedGroup (s.pairSt n).testPos
      let s1 := s.setPair n { s.pairSt n with testPos := ((s.pairSt n).testPos + 1) % 264, testWaits := false }
      let first := testClasses g tests.1.a tests.1.b
      let classes := if first = 0 then testClasses g tests.2.b tests.2.a else first
      if classes = 0 then s1.setBit R.LSC_STEST F.LSC_STEST_RAN n else s1.mismatch n classes pc

/-! ### Fault frames and heartbeats (R329, R330) -/

/-- The SSM acts on a fault report (Table LSS-2, R323, R333). -/
def State.report (s : State) (src inst cause : Nat) : State :=
  match src with
  | 1 => (match s.ssmFnOfLeg inst with | some f => s.ssmHoldFn f | none => s)
  | 2 => let f := s.fld (R.FEn_STATE inst) F.FEn_STATE_FUNCTION
         if (s.ssmFn f).role = 0 then s else s.ssmHoldFn f
  | 3 => if (s.ssmFn inst).role = 0 then s else s.ssmHoldFn inst
  | 4 =>
    let s1 := s.setFld R.SSM_STATE F.SSM_STATE_FAULTN 1
    if s1.reachOf 6 (2 ^ inst) = 0 then s1 else (s1.ssmRaise 0).assertSource 6 (2 ^ inst)
  | 5 => s.ssmHoldAct (inst / 3)
  | 6 => s.ssmHoldReg (if cause = 1 ∨ s.ssm.regHeld = 2 then 2 else 1)
  | 7 => s.ssmOv inst true
  | _ => s

/-- FAULT_FRAME_RECEIVED (R329, R324): the oldest frame on the CD–XD link reaches the SSM. -/
def execFaultFrameReceived (s : State) : Out :=
  .next <|
    match s.ssm.frames with
    | [] => s
    | (src, inst, cause) :: t =>
      let s1 : State := { s with ssm := { s.ssm with frames := t }, linkTries := FMap.erase s.linkTries 65536 }
      let s2 := s1.setReg R.SSM_LASTF (BitVec.ofNat 32 (src % 256 * 16777216 + inst % 256 * 65536 + cause % 256 * 256))
      s2.report src inst cause

/-- HEARTBEAT_RECEIVED (R200, R330): every 10 µs; it carries each traction function's ASC_PREF. Cause HEARTBEAT ends once heartbeats
have been present for 1 ms, 100 of them. -/
def execHeartbeatReceived (s : State) : Out :=
  .next <|
    let run := s.ssm.hbRun + 1
    let s1 := { s with ssm := { s.ssm with heartbeat := true, hbRun := min run 100, hbAt := some s.up } }
    let s2 := s1.each (s1.functions.filter fun f => s1.fnRole f == 1) fun s f =>
      if (s.tr f).pref then s.setBit R.SSM_ASC F.SSM_ASC_PREF f else s.clrBit R.SSM_ASC F.SSM_ASC_PREF f
    let s3 := if s2.ssmCause 2 ∧ 100 ≤ run then s2.ssmEnd 4 else s2
    s3.ssmRefresh

/-- HEARTBEAT_TIMEOUT (R330): none for 30 µs, once they have started after a reset. -/
def execHeartbeatTimeout (s : State) : Out :=
  .next (if !s.ssm.heartbeat then s
    else State.ssmRaise { s with ssm := { s.ssm with heartbeat := false, hbRun := 0 } } 2)

/-! ### Watchdogs (R334) -/

/-- The core that services watchdog n: Pn, or C2n in split mode. -/
def State.wdServer (s : State) (n : Nat) : Nat := if s.split then U.core (2 * n) else U.pair n

/-- Watchdog n expires. -/
def State.wdExpire (s : State) (n : Nat) : State :=
  let s1 := (s.incSat (R.SSM_WDSTATn n) F.SSM_WDSTATn_EXPIRED).setFld (R.SSM_WDSTATn n) F.SSM_WDSTATn_MODE 0
  if n = 0 then (s1.ssmRaise 1).assertSource 5 0 else s1.assertSource 4 (2 ^ n)

/-- A service now falls outside the window (R334): before WD_MIN or after WD_MAX, or after the 200 ms of the start window. -/
def State.wdOutside (s : State) (n mode : Nat) : Bool :=
  let t := s.time - (s.wd n).at_
  if mode = 2 then decide (t < 100000 * s.fld (R.SSM_WDCFGn n) F.SSM_WDCFGn_MIN) || decide (100000 * s.fld (R.SSM_WDCFGn n) F.SSM_WDCFGn_MAX < t)
  else decide (200000000 < t)

/-- WATCHDOG_SERVICE (R334): a write to SSM_WDKn. A wrong key or a service outside the window expires the watchdog; a watchdog that is off or
paused is not affected. -/
def execWatchdogService (who : Requester) (n : Nat) (key : Word) (_elapsed : Nat) (s : State) : Out :=
  .next (s.accessBy who (R.SSM_WDKn n) true <| s.tryWrite (R.SSM_WDKn n) key (if Requester.codeIs who (s.wdServer n) then [] else [.eLocked]) fun s =>
    let mode := s.fld (R.SSM_WDSTATn n) F.SSM_WDSTATn_MODE
    let want : Nat := if (s.wd n).second then 0x5AA5 else 0xA55A
    if mode ≠ 1 ∧ mode ≠ 2 then s
    else if key.toNat ≠ want ∨ s.wdOutside n mode then s.wdExpire n
    else (s.setWd n ⟨!(s.wd n).second, false, 0, s.time⟩).setFld (R.SSM_WDSTATn n) F.SSM_WDSTATn_MODE 2)

/-- WATCHDOG_WARNING (R334): 75 % of WD_MAX have passed without a service. -/
def execWatchdogWarning (n : Nat) (s : State) : Out :=
  .next <|
    if 4 ≤ n ∨ s.fld (R.SSM_WDSTATn n) F.SSM_WDSTATn_MODE ≠ 2 ∨ (s.wd n).warned then s
    else
      let s1 := (s.setWd n { s.wd n with warned := true }).setFlag R.SSM_EVT F.SSM_EVT_WDWARN
      { s1 with ssm := { s1.ssm with wdWarned := s1.ssm.wdWarned ||| 2 ^ n } }

/-- WATCHDOG_EXPIRY (R334): WD_MAX, or the first 200 ms, has passed without a service. -/
def execWatchdogExpiry (n : Nat) (s : State) : Out :=
  .next <|
    let mode := s.fld (R.SSM_WDSTATn n) F.SSM_WDSTATn_MODE
    if 4 ≤ n ∨ (mode ≠ 1 ∧ mode ≠ 2) then s else s.wdExpire n

/-! ### The MON clock (R335) -/

/-- A bad clock asserts CLOCK_LOSS (R372): its GOOD bit falls; CLK_LAST records index and kind where the source newly asserts. `key`
tells MON's assertion (R335) from the other monitors'. -/
def State.clockBad (s : State) (i kind key : Nat) : State :=
  let s1 := s.clrBit R.CLK_STAT F.CLK_STAT_GOOD i
  let s2 := if s.rst.sources.any (fun p => p.1 == 8) then s1
    else ((s1.incSat R.CLK_LAST F.CLK_LAST_LOSSES).setFld R.CLK_LAST F.CLK_LAST_KIND kind).setFld R.CLK_LAST F.CLK_LAST_INDEX i
  s2.assertSource 8 key

/-- A count of MON against an AON tick (R335): two bad counts in a row raise MON_CLOCK and hold CLOCK_LOSS (as its own assertion, beside
the clock monitors'); 33 good ticks, 1 ms, end both. -/
def State.monCount (s : State) (count : Nat) : State :=
  let s0 := s.setFld (R.CLK_FREQi 7) F.CLK_FREQi_COUNT count
  if count < 915 ∨ 1526 < count then
    let bad := s.ssm.monBad + 1
    let s1 := { s0 with ssm := { s0.ssm with monBad := min bad 2, monGood := 0 } }
    if 2 ≤ bad ∧ !s1.ssmCause 7 then (s1.ssmRaise 7).clockBad 7 (if count = 0 then 3 else 1) 1 else s1
  else
    let good := s.ssm.monGood + 1
    let s1 := { s0 with ssm := { s0.ssm with monBad := 0, monGood := min good 33 } }
    if 33 ≤ good ∧ s1.ssmCause 7 then ((s1.setBit R.CLK_STAT F.CLK_STAT_GOOD 7).ssmEnd 128).releaseSource 8 1 else s1

/-- MON_CLOCK_CHECK (R335): the MON cycles counted in an AON tick. -/
def execMonClockCheck (count : Nat) (s : State) : Out := .next (s.monCount count)

/-! ### FAULT_N and the letters (R332, R333, R337) -/

/-- FAULT_N_ACKNOWLEDGE (R333): a write to SSM_FACK; ACK is refused while a cause other than RESET holds. -/
def execFaultNAcknowledge (who : Requester) (value : Word) (s : State) : Out :=
  let ack := getF value F.SSM_FACK_ACK = 1
  let a := s.fld R.SSM_CAUSE F.SSM_CAUSE_ACTIVE
  .next (s.accessBy who R.SSM_FACK true <| s.tryWrite R.SSM_FACK value (if ack ∧ a ≠ 0 ∧ a ≠ 32 then [.eInterlock] else []) fun s =>
    if ack then s.setFld R.SSM_STATE F.SSM_STATE_FAULTN 0 else s)

/-- The pigeonhole's producer is P0, or C0 in split mode. -/
def State.fromCore0 (s : State) (m : Msg) : Bool :=
  match m.src with
  | .ph n => s.phProducer n == (if s.split then U.core 0 else U.pair 0)
  | .mgmt => false

/-- SSM_RELEASE (R332, R337): ends causes 0, 1, 3 and 8. -/
def specSsmRelease : LetterSpec where
  units _ u := u == U.ssm
  legal st := st = .running
  used := []
  fails s m :=
    (if s.fromCore0 m then [] else [.eLocked]) ++
    (if s.fld R.SSM_CAUSE F.SSM_CAUSE_ACTIVE &&& 0x2F4 ≠ 0 ∨ s.img.isNone
        ∨ (List.range 16).any (fun f => (s.ssmFn f).role == 1 && s.ascPref f) then [.eInterlock] else [])
  run s _ _ := doneWith (if s.fld R.SSM_CAUSE F.SSM_CAUSE_ACTIVE &&& 0x10B = 0 then s else s.ssmEnd 0x10B)

/-- SSM_FORCE (R337). -/
def specSsmForce : LetterSpec where
  units _ u := u == U.ssm
  legal st := st = .running
  used := []
  fails s m := if s.fromCore0 m then [] else [.eLocked]
  run s _ _ := doneWith (s.ssmRaise 8)

def execSsmRelease (m : Msg) (s : State) : Out := .next (deliver specSsmRelease s m)
def execSsmForce (m : Msg) (s : State) : Out := .next (deliver specSsmForce s m)

end Sys2Proof.Machine
end

