-- ==== Sys2Proof/Machine/ResetCtl.lean ====
section
/-!
DEFINITION. The reset controller's commands (13): sources, holds, release of the clock domains, power, start timer, standby and wake,
and its letters.
Choices of the model: log 86, 88, 89.
-/
namespace Sys2Proof.Machine

/-! ### Sources (R345 to R348) -/

/-- The pairs that a source may name: watchdogs 1 to 3 and RST_PAIR never P0; LOCKSTEP and DEBUG any; the others none. -/
def sourcePairs (id pairs : Nat) : Nat :=
  if id = 4 ∨ id = 9 then pairs % 16 / 2 * 2 else if id = 6 ∨ id = 11 then pairs % 16 else 0

/-- Only the pair sources need a pair. -/
def sourceNames (id pairs : Nat) : Bool := !(id == 4 || id == 6 || id == 9 || id == 11) || sourcePairs id pairs != 0

/-- A reset source asserts, with the cause of Table LSS-3 that goes with SUPPLY_LOW and THERMAL (R374, Table LSS-3). -/
def State.causeSource (s : State) (id pairs : Nat) : State :=
  let s1 := if id = 2 ∧ !s.ssmCause 4 then s.ssmRaise 4 else if id = 12 ∧ !s.ssmCause 6 then s.ssmRaise 6 else s
  s1.assertSource id pairs

/-- A reset source asserts. In transport mode only the wake detector runs (R230). -/
def State.raiseSource (s : State) (id pairs : Nat) : State := if s.rst.transport then s else s.causeSource id pairs

/-- RESET_SOURCE_ASSERT (R348): source `id` of Table RST-2, naming pairs by mask where its reach is a pair's. -/
def execResetSourceAssert (id pairs : Nat) (s : State) : Out :=
  .next (if 1 ≤ id ∧ id ≤ 13 ∧ sourceNames id pairs then s.raiseSource id (sourcePairs id pairs) else s)

/-- The level sources of Table RST-2; the others are pulses. -/
def levelSource (id : Nat) : Bool := [1, 2, 3, 8, 11, 12].contains id

/-- RESET_SOURCE_RELEASE (R348): a level source releases; cause SUPPLY ends with SUPPLY_LOW (R374). -/
def execResetSourceRelease (id pairs : Nat) (s : State) : Out :=
  .next (if levelSource id then (if id = 2 then s.ssmEnd 16 else s).releaseSource id (sourcePairs id pairs) else s)

/-- RESET_PULSE_END (R345): a pulse source ends 1 µs after its assertion. -/
def execResetPulseEnd (id pairs : Nat) (s : State) : Out :=
  .next (if levelSource id then s else s.releaseSource id (sourcePairs id pairs))

/-- The conditions of step 2 of Table RST-6: the power-good inputs high, the PLLs locked. -/
def State.powerReady (s : State) : Bool := s.rst.pg == 15 && s.fld R.CLK_STAT F.CLK_STAT_LOCK == 31

/-- RESET_HOLD_END (R347): the minimum hold of pair n (n below 4) or of the system or power-on reset ends; a power-on reset is held
until the conditions of step 2 are met. -/
def execResetHoldEnd (n : Nat) (s : State) : Out :=
  .next <|
    if n < 4 then
      if bitAt s.rst.pairMin n then State.tryPairs { s with rst := { s.rst with pairMin := s.rst.pairMin - 2 ^ n } } else s
    else if s.rst.sysHold = 0 ∨ (s.rst.sysHold = 2 ∧ !s.powerReady) then s
    else State.tryRelease { s with rst := { s.rst with sysMin := false } }

/-- RESET_PIN (R346): RESET_N beyond its filter. -/
def execResetPin (low : Bool) (s : State) : Out := .next (if low then s.raiseSource 3 0 else s.releaseSource 3 0)

/-! ### Power (R345, R356) -/

/-- Every rail but VWK is in range. -/
def State.railsIn (s : State) : Bool := s.fld R.THM_SUPFLT F.THM_SUPFLT_ACTIVE % 128 == 0

/-- SUPPLY_LOW and cause SUPPLY end when every power-good input is high and every rail is back in range (R374). -/
def State.supplyBack (s : State) : State :=
  if s.rst.pg = 15 ∧ s.railsIn then (s.ssmEnd 16).releaseSource 2 0 else s

/-- POWER_ON (R345): VKA crosses 5.5 V: below it the power-on reset asserts, at it the monitor die and AON start. VKA is watched in standby and transport mode too
(R377). -/
def execPowerOn (up : Bool) (s : State) : Out :=
  .next (if up then s.releaseSource 1 0 else s.assertSource 1 0)

/-- POWER_GOOD_CHANGE (R356): a power-good input (0 PG_CORE, 1 PG_IO, 2 PG_ANA, 3 PG_DRV): low before the first release it holds
POWER_ON, low after it asserts SUPPLY_LOW. In standby and transport mode, whose rails are off, the inputs only follow (R377). -/
def execPowerGoodChange (i : Nat) (high : Bool) (s : State) : Out :=
  .next <|
    if 4 ≤ i then s
    else
      let pg := if high then s.rst.pg ||| 2 ^ i else s.rst.pg &&& (15 - 2 ^ i)
      let s1 := { s with rst := { s.rst with pg := pg, startedAt := if i = 0 && high && !s.rst.released then s.up else s.rst.startedAt } }
      if s.rst.transport ∨ s.rst.standby then s1
      else if !high then (if s1.rst.released then s1.raiseSource 2 0 else s1.assertSource 1 1)
      else if pg = 15 then (s1.releaseSource 1 1).supplyBack
      else s1

/-- The power-good input of the die of an order of Table RST-4: 0 PG_CORE for CD, 1 PG_IO for MD (VNV), 2 PG_ANA for SD; the AD, which
follows CTRL, has PG_DRV (Table CTS-3). -/
def orderPg : Nat → List Nat
  | 1 => [1] | 2 => [0] | 3 => [0, 3] | 4 => [2] | _ => [0]

/-- The clock monitors (Table CTS-2) of an order of Table RST-4. -/
def orderClocks : Nat → List Nat
  | 1 => [6] | 2 => [0, 1] | 3 => [2, 5] | 4 => [3] | _ => [4]

/-- DOMAIN_RELEASE (R351): the next order of Table RST-4 leaves reset where its clocks are good and its die's power is. As CTRL restarts, the
soft-off holds that it could not end are over (R138). -/
def execDomainRelease (s : State) : Out :=
  .next <|
    let k := s.rst.domains + 1
    if 5 < k ∨ s.rst.sysHold ≠ 0 ∨ s.rst.standby ∨ s.rst.transport ∨ (orderPg k).any (fun i => !bitAt s.rst.pg i)
        ∨ (orderClocks k).any (fun i => !bitAt (s.fld R.CLK_STAT F.CLK_STAT_GOOD) i) then s
    else
      let s1 := { s with rst := { s.rst with domains := k } }
      if k = 3 then { s1 with pads := { s1.pads with soft := [] } } else s1

/-- START_TIMER_EXPIRY (R359): Operational not reached within 2 s: WDOG_MON, and RST_START.TIMEOUT. -/
def execStartTimerExpiry (s : State) : Out :=
  .next (if s.rst.startTimer then (s.setFlag R.RST_START F.RST_START_TIMEOUT).assertSource 5 0 else s)

/-! ### Standby and wake (R363, R377) -/

/-- A function of the roles R230 names, the charger or an actuator channel is in a state other than OFF, IDLE or FAULT (R230, Table RST-7). -/
def State.powerBusy (s : State) : Bool :=
  s.functions.any (fun f => (s.ust (U.fn f)).active) || (s.ust U.chg).active || (List.range 4).any (fun k => (s.ust (U.ac k)).active)

/-- STANDBY: the journal goes to MRAM, standby follows 10 ms later. -/
def specStandby : LetterSpec where
  units _ u := u == U.rst
  legal st := st = .running
  used := []
  fails s _ := if s.powerBusy then [.eInterlock] else []
  run s _ _ :=
    let s1 := if s.mramClosed then s else s.journalFlush
    doneWith { s1 with rst := { s1.rst with standbyDue := true } }

def execStandby (m : Msg) (s : State) : Out := .next (deliver specStandby s m)

/-- STANDBY_ENTRY (R363): 10 ms after STANDBY the dies enter reset, cause RESET is raised; a running MRAM pulse ends first (R353). -/
def execStandbyEntry (s : State) : Out :=
  .next (if s.rst.standbyDue then
    (State.ssmRaise { s with rst := { s.rst with standbyDue := false, standby := true, startTimer := false } } 5).applySystem
  else s)

/-- WAKE (R230, R308, R363): by source 1 WAKE, 2 CP_IN or 3 PP_IN. -/
def execWake (src : Nat) (s : State) : Out := .next (if 1 ≤ src ∧ src ≤ 3 then s.wake src else s)

/-- SUPPLY_ALARM (R377): VKA out of its alarm limits for 10 ms in standby. -/
def execSupplyAlarm (s : State) : Out := .next (if s.rst.standby then s.wake 5 else s)

/-! ### Letters (R364, R365) -/

/-- The units of Table RST-8. -/
def unitResettable (u : Nat) : Bool := (0x2C ≤ u && u ≤ 0x35) || u == 0x38 || u == 0x39

/-- The register belongs to a unit of Table RST-8. -/
def unitOwns (u : Nat) (r : RegAt) : Bool :=
  if u = 0x2C ∨ u = 0x2D then r.block.base == 0x401B0000 && r.inst == u - 0x2C
  else if u = 0x2E then r.block.base == 0x401D0000
  else if u = 0x2F then r.block.base == 0x403A0000
  else if u < 0x38 then r.block.base == 0x40300000 && r.inst == u - 0x30
  else r.block.base == 0x40380000 && r.inst == u - 0x38

/-- The reset value of a register with its RWS fields kept (R365). -/
def resetKeepRws (r : RegDesc) (cur : Word) : Word :=
  r.fields.foldl (fun w f => if f.acc = .rws then setF w ⟨f.hi, f.lo⟩ (getF cur ⟨f.hi, f.lo⟩) else w) (BitVec.ofNat 32 r.reset)

/-- The hidden state of a unit of Table RST-8 at its reset value. -/
def State.unitHidden (s : State) (u : Nat) : State :=
  if u = 0x2C ∨ u = 0x2D then { s with rnd := FMap.erase s.rnd (u - 0x2C) }
  else if u = 0x2E then { s with pos := [] }
  else if u = 0x2F then State.each { s with sent := [] } (List.range 4) fun s i => s.gbxFrame i false 0 0
  else if u < 0x38 then { s with can := FMap.erase s.can (u - 0x30) }
  else { s with eth := FMap.erase s.eth (u - 0x38) }

/-- Ports merged by their configuration read as merged (R423, Table NET-11). -/
def State.keepMerged (s : State) : State :=
  if s.merged then s.each [0, 1] fun s p => s.setFlag (R.ETHp_STATE p) F.ETHp_STATE_MERGED else s

/-- A unit reset (R365): logic and RW fields at their reset values, RWS fields kept, outstanding operations ended with E_ABORTED. -/
def State.unitClear (s : State) (u : Nat) : State :=
  let s1 := s.each (s.po.ops.filter fun p => p.2.unit == u) fun s p => s.hwFinish p.1 .eAborted []
  ((s1.each (s1.regs.map (·.1)) fun s a =>
    match findReg a with
    | some r => if unitOwns u r then s.setReg a (resetKeepRws r.desc (s.reg a)) else s
    | none => s).unitHidden u).keepMerged

/-- RST_UNIT: ACCEPTED; DONE, and the UNITS start state, at the boundary after the reset. -/
def specRstUnit : LetterSpec where
  units _ u := u == U.rst
  legal st := st = .running
  used := [(16, 16)]
  fails s m :=
    let u := m.u8 16
    if !unitResettable u then [.eRange]
    else if !unitPresent s.variant u then [.eAbsent]
    else if u = U.pos ∧ (List.range 4).any s.sourceUsed then [.eInterlock] else []
  opens _ _ := true
  run s m k :=
    let s1 := s.unitClear (m.u8 16)
    acceptedWith ({ s1 with rst := { s1.rst with unitReset := s1.rst.unitReset ++ [(m.u8 16, k)] } }.hwFinish k .done [])

/-- RST_PAIR: SW_PAIR asserts on pair 1 to 3, 1 µs after delivery. -/
def specRstPair : LetterSpec where
  units _ u := u == U.rst
  legal st := st = .running
  used := [(16, 16)]
  fails s m :=
    let n := m.u8 16
    if n = 0 ∨ 4 ≤ n then [.eRange] else if s.variant.pairs ≤ n then [.eAbsent] else []
  run s m _ := doneWith { s with rst := { s.rst with swPairs := s.rst.swPairs ||| 2 ^ m.u8 16, swAt := s.time } }

/-- RST_SYSTEM: SW_SYSTEM asserts when the receipt has been handed over (R477); not taken from P1 to P3 or C1 to C7. -/
def specRstSystem : LetterSpec where
  units _ u := u == U.rst
  legal st := st = .running
  used := []
  fails s m :=
    match m.src with
    | .ph n => if [0x41, 0x42, 0x43, 0x49, 0x4A, 0x4B, 0x4C, 0x4D, 0x4E, 0x4F].contains (s.phProducer n) then [.eLocked] else []
    | .mgmt => []
  run s _ _ := (s, .done [] (some .systemReset))

def execRstUnit (m : Msg) (s : State) : Out := .next (deliver specRstUnit s m)
def execRstPair (m : Msg) (s : State) : Out := .next (deliver specRstPair s m)
def execRstSystem (m : Msg) (s : State) : Out := .next (deliver specRstSystem s m).runReady

end Sys2Proof.Machine
end

