-- ==== Sys2Proof/Machine/Clocks.lean ====
section
/-!
DEFINITION. Clock monitors and PLLs, supply monitors, temperature: throttling, thermal reset, the MRAM write window (14).
Choices of the model: log 91, 92, 93, 95, 97, 98.
-/
namespace Sys2Proof.Machine

/-! ### Clocks (R370 to R372) -/

/-- The bad and the warning limits of clock i (Table CTS-2); MON has no warning limits and its own rule. -/
def clockLimits : Nat → (Nat × Nat) × (Nat × Nat)
  | 0 => ((9900, 10100), (9950, 10050))
  | 1 => ((4950, 5050), (4975, 5025))
  | 2 => ((3960, 4040), (3980, 4020))
  | 3 => ((2376, 2424), (2388, 2412))
  | 4 => ((1238, 1262), (1244, 1256))
  | 5 => ((792, 808), (796, 804))
  | 6 => ((1980, 2020), (1990, 2010))
  | _ => ((560, 720), (560, 720))

/-- The clocks that PLL p feeds (Table CTS-1), as indices of Table CTS-2. -/
def pllClocks : Nat → List Nat
  | 0 => [0, 1] | 1 => [2, 5] | 2 => [4] | 3 => [3] | _ => [6]

/-- Every clock monitor reports its clock good, and every PLL lock. -/
def State.clocksGood (s : State) : Bool :=
  (List.range 9).all (fun i => i == 7 || bitAt (s.fld R.CLK_STAT F.CLK_STAT_GOOD) i) && s.fld R.CLK_STAT F.CLK_STAT_LOCK == 31

/-- A good window: the clock is good; a PLL whose clocks are all good reports lock again; CLOCK_LOSS releases when every clock is good. -/
def State.clockGood (s : State) (i : Nat) : State :=
  let s1 := s.setBit R.CLK_STAT F.CLK_STAT_GOOD i
  let s2 := s1.each ((List.range 5).filter fun p => (pllClocks p).contains i) fun s p =>
    if (pllClocks p).all fun c => bitAt (s.fld R.CLK_STAT F.CLK_STAT_GOOD) c then s.setBit R.CLK_STAT F.CLK_STAT_LOCK p else s
  if s2.clocksGood then s2.releaseSource 8 0 else s2

/-- CLOCK_MONITOR_WINDOW (R371): the count of a window of clock i. -/
def execClockMonitorWindow (i count : Nat) (s : State) : Out :=
  .next <|
    if 9 ≤ i ∨ s.rst.standby ∨ s.rst.transport then s
    else if i = 7 then s.monCount count
    else
      let s1 := s.setFld (R.CLK_FREQi i) F.CLK_FREQi_COUNT count
      let ((blo, bhi), (wlo, whi)) := clockLimits i
      if count < blo ∨ bhi < count then s1.clockBad i (if count = 0 then 3 else 1) 0
      else
        let s2 := if count < wlo ∨ whi < count then s1.setBit R.CLK_EVT F.CLK_EVT_WARN i else s1
        s2.clockGood i

/-- PLL_LOCK_LOSS (R371): every clock PLL p feeds is bad. -/
def execPllLockLoss (p : Nat) (s : State) : Out :=
  .next <|
    if 5 ≤ p ∨ s.rst.standby ∨ s.rst.transport then s
    else (s.clrBit R.CLK_STAT F.CLK_STAT_LOCK p).each (pllClocks p) fun s i => s.clockBad i 2 0

/-! ### Supplies (R373 to R377) -/

/-- SUPPLY_OUT_OF_RANGE (R373): rail r of Table CTS-3 has been outside its window for 2 µs. VWK sets its bit only; VNV ends a write
pulse. In standby and transport mode only VKA and VWK are watched (R377). -/
def execSupplyOutOfRange (r : Nat) (s : State) : Out :=
  .next <|
    if 8 ≤ r ∨ ((s.rst.standby ∨ s.rst.transport) ∧ r < 6) then s
    else
      let s1 := (s.setBit R.THM_SUPFLT F.THM_SUPFLT_ACTIVE r).setBit R.THM_SUPFLT F.THM_SUPFLT_SEEN r
      let s2 := { s1 with thm := { s1.thm with rails := s1.thm.rails ||| 2 ^ r } }
      let s3 :=
        if r = 3 then
          let x := s2.losePulse
          if x.rst.waitPulse then State.tryRelease (State.systemClear { x with rst := { x.rst with waitPulse := false } }) else x
        else s2
      if r = 7 then s3 else s3.causeSource 2 0

/-- SUPPLY_RESTORED (R373): rail r has been 1 % inside its window for 1 ms. -/
def execSupplyRestored (r : Nat) (s : State) : Out :=
  .next <|
    if 8 ≤ r then s
    else
      let s1 := s.clrBit R.THM_SUPFLT F.THM_SUPFLT_ACTIVE r
      if r = 7 then s1 else s1.supplyBack

/-! ### Temperature (R378 to R384); temperatures in 1/16 °C -/

/-- T_THROT and T_SHUT in 1/16 °C. -/
def State.tThrot (s : State) : Int := 16 * (s.fld R.THM_LIMIT F.THM_LIMIT_THROT : Nat)
def State.tShut (s : State) : Int := 16 * (s.fld R.THM_LIMIT F.THM_LIMIT_SHUT : Nat)

/-- Sensor i is broken. -/
def State.tsBroken (s : State) (i : Nat) : Bool := bitAt (s.fld R.THM_STATE F.THM_STATE_BROKEN) i

/-- The raw reading that THM_TEMPs holds. -/
def State.tsRaw (s : State) (i : Nat) : Int := s.sfld (R.THM_TEMPs i) F.THM_TEMPs_TEMP

/-- The reading after R379: a broken sensor counts as T_SHUT − 1 °C. -/
def State.tsRead (s : State) (i : Nat) : Int := if s.tsBroken i then s.tShut - 16 else s.tsRaw i

/-- Take one sensor's conversion (none: it delivered none) and its self-check (R379). -/
def State.tsTake (s : State) (i : Nat) (t : Option Int) (diode : Bool) : State :=
  let missed := FMap.get (fun _ => 0) s.thm.missed i
  let goods := FMap.get (fun _ => 0) s.thm.goods i
  let set (s : State) (m g : Nat) : State :=
    { s with thm := { s.thm with missed := FMap.set (fun _ => 0) s.thm.missed i m, goods := FMap.set (fun _ => 0) s.thm.goods i g } }
  let breaks (s : State) : State :=
    if s.tsBroken i then s
    else ((s.setBit R.THM_STATE F.THM_STATE_BROKEN i).setFlag (R.THM_TEMPs i) F.THM_TEMPs_BROKEN).setFlag R.THM_EVT F.THM_EVT_BROKEN
  match t with
  | none => if 2 ≤ missed + 1 then breaks (set s 2 0) else set s (missed + 1) 0
  | some v =>
    let s1 := s.setSfld (R.THM_TEMPs i) F.THM_TEMPs_TEMP v
    if v < -960 ∨ 3040 < v ∨ !diode then breaks (set s1 0 0)
    else
      let s2 := set s1 0 (min (goods + 1) 16)
      if 16 ≤ goods + 1 then (s2.clrBit R.THM_STATE F.THM_STATE_BROKEN i).clrFlag (R.THM_TEMPs i) F.THM_TEMPs_BROKEN else s2

/-- The hottest sensor, the lowest index where several are. -/
def State.tsHottest (s : State) : Nat :=
  (List.range 8).foldl (fun b i => if s.tsRead b < s.tsRead i then i else b) 0

/-- The level after one measurement (R382): at most one step. -/
def throttleStep (throt : Int) (level : Nat) (t : Int) : Nat :=
  if level < 7 ∧ throt + 32 * (level : Int) ≤ t then level + 1
  else if 0 < level ∧ t < throt + 32 * ((level : Int) - 1) - 48 then level - 1
  else level

/-- A sensor reads within `d` of a limit of R380, or beyond it. -/
def State.tsNear (s : State) (d : Int) (i : Nat) : Bool :=
  let t := s.tsRead i
  decide (s.tThrot - d ≤ t) || decide (t ≤ -640 + d) || (i == 7 && decide (2160 - d ≤ t))

/-- The rate of measurement (R380): fast while a sensor is within 10 °C of a limit; slow again after 10 ms, 101 fast measurements, in
which every sensor was more than 12 °C from every limit. -/
def State.tsRate (s : State) : State :=
  let fast := s.flag R.THM_STATE F.THM_STATE_FAST
  let near := (List.range 8).any (s.tsNear 160)
  let far := !(List.range 8).any (s.tsNear 192)
  let calm := if far then s.thm.calm + 1 else 0
  if !fast then
    if near then ({ s with thm := { s.thm with calm := 0 } }.setFlag R.THM_STATE F.THM_STATE_FAST).setFlag R.THM_EVT F.THM_EVT_FAST else s
  else if 101 ≤ calm then ({ s with thm := { s.thm with calm := 0 } }.clrFlag R.THM_STATE F.THM_STATE_FAST).setFlag R.THM_EVT F.THM_EVT_FAST
  else { s with thm := { s.thm with calm := calm } }

/-- The MRAM write window follows TS7 (R384). -/
def State.tsWindow (s : State) : State :=
  let t := s.tsRaw 7
  if s.mramClosed then
    if !s.tsBroken 7 ∧ -608 ≤ t ∧ t ≤ 2128 then
      (s.openWindow.clrFlag R.THM_STATE F.THM_STATE_MRAMWIN).setFlag R.THM_EVT F.THM_EVT_MRAMWIN
    else s
  else if s.tsBroken 7 ∨ t < -640 ∨ 2160 < t then
    (s.closeWindow.setFlag R.THM_STATE F.THM_STATE_MRAMWIN).setFlag R.THM_EVT F.THM_EVT_MRAMWIN
  else s

/-- COLD (R381): a sensor that is not broken reads below −40 °C. -/
def State.tsCold (s : State) : State :=
  let cold := (List.range 8).any fun i => !s.tsBroken i && decide (s.tsRaw i < -640)
  if cold = s.flag R.THM_STATE F.THM_STATE_COLD then s
  else if cold then (s.setFlag R.THM_STATE F.THM_STATE_COLD).setFlag R.THM_EVT F.THM_EVT_COLD
  else s.clrFlag R.THM_STATE F.THM_STATE_COLD

/-- The thermal reset (R381). -/
def State.tsReset (s : State) : State :=
  let live := (List.range 8).filter fun i => !s.tsBroken i
  if live.any fun i => decide (s.tShut < s.tsRaw i) then s.raiseSource 12 0
  else if live.all fun i => decide (s.tsRaw i < s.tShut - 240) then s.releaseSource 12 0
  else s

/-- TEMPERATURE_MEASUREMENT (R378 to R384): the sensors' conversions, which self-checks pass (bit per sensor), and the rails in mV. They
run from step 1 of Table RST-6, when VKA has crossed 5.5 V, but not in standby or transport mode. -/
def execTemperatureMeasurement (temps : List (Option Int)) (diodes : Nat) (rails : List Nat) (s : State) : Out :=
  .next <|
    if s.rst.standby ∨ s.rst.transport ∨ s.rst.sources.contains (1, 0) then s
    else
      let s0 := s.each (List.range 8) fun s r =>
        match rails[r]? with | some mv => s.setFld (R.THM_SUPr r) F.THM_SUPr_MV (satU 16 mv) | none => s
      let s1 := s0.each (List.range 8) fun s i => s.tsTake i (temps.getD i none) (bitAt diodes i)
      let hot := s1.tsHottest
      let level := s1.fld R.THM_STATE F.THM_STATE_LEVEL
      let next := throttleStep s1.tThrot level (s1.tsRead hot)
      let s2 := { s1 with thm := { s1.thm with hot := hot, at_ := s1.time } }
      let s3 := if next = level then s2 else (s2.setFld R.THM_STATE F.THM_STATE_LEVEL next).setFlag R.THM_EVT F.THM_EVT_THROT
      (((s3.tsRate).tsCold).tsWindow).tsReset

end Sys2Proof.Machine
end

