-- ==== Sys2Proof/Machine/Nets.lean ====
section
/-!
DEFINITION. The network ports (16): CAN FD and Ethernet, their letters, franking, receipts as frames and datagrams.
Choices of the model: log 102, 104, 105, 106, 107, 109, 110, 112, 113.
-/
namespace Sys2Proof.Machine

/-! ### Instances and records -/

def canDefault (_ : Nat) : CanSt := ⟨0, 0, none, 0, [], 0, 0, 0, 0⟩
def ethDefault (_ : Nat) : EthSt := ⟨[], [], none, 0, true, 0, 0, 0, none, 0, none, [], 0, 0, 0, 0, 0⟩
def State.cn (s : State) (n : Nat) : CanSt := FMap.get canDefault s.can n
def State.updCn (s : State) (n : Nat) (g : CanSt → CanSt) : State := { s with can := FMap.set canDefault s.can n (g (s.cn n)) }
def State.et (s : State) (p : Nat) : EthSt := FMap.get ethDefault s.eth p
def State.updEt (s : State) (p : Nat) (g : EthSt → EthSt) : State := { s with eth := FMap.set ethDefault s.eth p (g (s.et p)) }

/-- A unit code is a network port's. -/
def isNet (u : Nat) : Bool := (0x30 ≤ u && u ≤ 0x35) || u == 0x38 || u == 0x39

/-- The UNITS record of a CAN port; while no image is admitted CAN0 has its recovery record (R435). -/
def State.canRec (s : State) (n : Nat) : Option (List Byte) :=
  match s.img with
  | some im => im.unitRec 0x0C n
  | none => if n = 0 then s.recovery.map (·.can) else none

/-- A THRESH value of Ethernet port p (R437), from the image or, while none is admitted, the recovery record. -/
def State.netThr (s : State) (id p : Nat) : Int :=
  match s.img with
  | some im => (im.thresh id (8 + p)).getD 0
  | none => ((s.recovery.bind fun r => r.thresh.find? fun x => rf x 0 2 == id && rf x 2 1 == 8 + p).map fun x => rfi x 4 4).getD 0

/-- The franking key slot of a port's record (Table NET-8): CAN bits 7:5 of byte 4, Ethernet bits 2:0 of byte 5. Without a record: FK0. -/
def State.frankSlot (s : State) (u : Nat) : Nat :=
  if u < 0x38 then ((s.canRec (u - 0x30)).map fun r => rf r 4 1 / 32).getD 0
  else s.fld (R.ETHp_CFG (u - 0x38)) F.ETHp_CFG_KEY

/-- A franking key that nothing has set. -/
def fkDefault (_ : Nat) : List Byte := List.replicate 16 0

/-- The FRANK of 56 bytes of a letter (0x4C) or receipt (0x52) at a port (R425). -/
def State.frank (s : State) (dir u : Nat) (item : List Byte) : List Byte :=
  let key := FMap.get fkDefault s.sec.fks (s.frankSlot u)
  leBytes 8 (Config.cmac128 key (leBytes 1 dir ++ leBytes 1 u ++ leBytes 4 s.aon.session ++ item.take 56)).toNat

/-! ### Letters in (R418, R420, R425) -/

/-- The lowest-numbered letter pigeonhole of a producer and class. -/
def State.letterPh (s : State) (u cls : Nat) : Option Nat :=
  (List.range 64).find? fun n => s.phEn n && !s.phIsReceipt n && s.phProducer n == u && s.phClass n == cls

/-- Take the 64 bytes of a letter in at port u for class `cls`; without a pigeonhole it is refused with E_FORMAT. Answers whether the letter
was accepted. -/
def State.netIntake (s : State) (u cls : Nat) (b : List Byte) : State × Bool :=
  let l := letterOfBytes b
  match s.letterPh u cls with
  | some ph => (intake s ph l (s.frank 0x4C u b == l.frank), (intakeFail s ph l (s.frank 0x4C u b == l.frank)).isNone)
  | none =>
    let r : Receipt := ⟨l.opcode, l.unit, .eFormat, l.seq, s.pm, s.pm, []⟩
    let s1 := match s.receiptOf u cls with
      | none => s.deadLetter (receiptBytes r) .eFormat 0xFF 3
      | some n => if s.phCount n ≥ s.phSize n then
          (s.setFlag (R.PHn_STAT n) F.PHn_STAT_OVERFLOW).deadLetter (receiptBytes r) .eFormat n 3
        else s.placeReceipt n r
    (s1.deadLetter (letterBytes l) .eFormat 0xFF 0, false)

/-! ### Receipts out (R418, R420) -/

/-- Of each class, the receipt pigeonhole that port u serves next: express, normal, bulk, the lowest-numbered of a class first. -/
def State.receiptPhs (s : State) (u : Nat) : List Nat :=
  [0, 1, 2].filterMap fun c => (List.range 64).find? fun n =>
    s.phEn n && s.phIsReceipt n && s.phConsumer n == u && s.phClass n == c && s.phCount n != 0

/-- The receipt pigeonhole that port u serves next: express, normal, bulk, the lowest-numbered of a class first. -/
def State.nextReceiptPh (s : State) (u : Nat) : Option Nat := (s.receiptPhs u).head?

/-- The ring index after the head. -/
def State.phNext (s : State) (ph k : Nat) : Nat := (s.phHead ph + k) % (2 * s.phSize ph)

/-- The 64 bytes of a receipt as it leaves port u, franked (R425). -/
def State.franked (s : State) (u : Nat) (b : List Byte) : List Byte := b.take 56 ++ s.frank 0x52 u b

/-! ### CAN (R412 to R418) -/

/-- CANn_STATE shows the error counters and the confinement state; a change sets CONF (R417). Bus-off lasts until recovery. -/
def State.canConf (s : State) (n : Nat) : State :=
  let c := s.cn n
  let conf := if 255 < c.tec then 2 else if 128 ≤ c.tec ∨ 128 ≤ c.rxc then 1 else 0
  let s1 := (s.setFld (R.CANn_STATE n) F.CANn_STATE_TEC (min c.tec 255)).setFld (R.CANn_STATE n) F.CANn_STATE_REC (min c.rxc 255)
  if s.fld (R.CANn_STATE n) F.CANn_STATE_CONF = conf then s1
  else (s1.setFld (R.CANn_STATE n) F.CANn_STATE_CONF conf).setFlag (R.CANn_EVT n) F.CANn_EVT_CONF

/-- Table NET-2: error counters move in normal mode only. -/
def State.canNormal (s : State) (n : Nat) : Bool := s.fld (R.CANn_MODE n) F.CANn_MODE_MODE == 0

/-- A frame is discarded and counted (R411). -/
def State.canDiscard (s : State) (n : Nat) : State :=
  ((s.incSat (R.CANn_CNT n) F.CANn_CNT_DISCARD).setFlag (R.CANn_EVT n) F.CANn_EVT_DISC).updCn n fun c => { c with discarded := c.discarded + 1 }

/-- CAN_FRAME_RECEIVED (R411, R417, R418): in RUNNING an error-free frame on RXID + class with 64 FD bytes is a letter; every other one
is discarded. The receive error counter moves as ISO 11898-1 has it. -/
def execCanFrameReceived (n : Nat) (f : CanIn) (s : State) : Out :=
  .next <|
    if 6 ≤ n ∨ s.ust (U.can n) ≠ .running ∨ s.fld (R.CANn_STATE n) F.CANn_STATE_CONF = 2 then s
    else if !f.ok then
      if s.canNormal n then (s.updCn n fun c => { c with rxc := c.rxc + 1 + 8 * f.worse }).canConf n else s
    else
      let (v, s0) := s.draw
      let s1 : State :=
        if !s.canNormal n then s
        else if 127 < (s.cn n).rxc then (s0.updCn n fun c => { c with rxc := 119 + v % 9 + 8 * f.worse }).canConf n
        else (s.updCn n fun c => { c with rxc := c.rxc - 1 + 8 * f.worse }).canConf n
      let s2 := s1.updCn n fun c => { c with received := c.received + 1 }
      let base := s.fld (R.CANn_IDS n) F.CANn_IDS_RXID
      if !f.extended ∧ f.fd ∧ f.data.length = 64 ∧ base ≤ f.id ∧ f.id ≤ base + 2 then (s2.netIntake (U.can n) (f.id - base) f.data).1
      else s2.canDiscard n

/-- A CAN port takes its next receipt: its frame is under way. An uncorrectable slot is discarded and counted in PST_DLJ_LOST (Table
MEM-3). -/
def State.canSend (s : State) (n : Nat) : State :=
  if s.ust (U.can n) ≠ .running ∨ !s.canNormal n ∨ s.fld (R.CANn_STATE n) F.CANn_STATE_CONF = 2 ∨ (s.cn n).tx.isSome then s
  else
    match s.nextReceiptPh (U.can n) with
    | none => s
    | some ph =>
      let (s1, b) := s.readSlot (s.phSlot ph (s.phHead ph))
      match b with
      | none => (s1.incSat R.PST_DLJ_LOST F.PST_DLJ_LOST_COUNT).consumeTo ph (s1.phNext ph 1)
      | some b => s1.updCn n fun c =>
          { c with tx := some (ph, 0), id := s.fld (R.CANn_IDS n) F.CANn_IDS_TXID + s.phClass ph, frame := s1.franked (U.can n) b }

/-- CAN_TRANSMIT_END (R416, R417): an attempt ends. After RETRY + 1 failed attempts the frame is dropped: journal stage 3. A frame whose attempt
leads to bus-off keeps its failed attempts for the time after the recovery. -/
def execCanTransmitEnd (n : Nat) (a : CanEnd) (s : State) : Out :=
  .next <|
    match (s.cn n).tx with
    | none => s
    | some (ph, fails) =>
      if s.ust (U.can n) ≠ .running ∨ s.fld (R.CANn_STATE n) F.CANn_STATE_CONF = 2 ∨ a.outcome = 2 then s
      else if a.outcome = 0 then
        (((s.updCn n fun c => { c with tec := c.tec - 1 + 8 * a.worse, sent := c.sent + 1, tx := none }).canConf n)).consumeTo ph (s.phNext ph 1)
      else
        let s1 := (s.updCn n fun c => { c with tec := (if a.outcome = 1 then c.tec + 8 else c.tec) + 8 * a.worse, tx := some (ph, fails + 1) }).canConf n
        let retry := s.fld (R.CANn_MODE n) F.CANn_MODE_RETRY
        if retry ≠ 31 ∧ retry < fails + 1 then
          let r := (s.cn n).frame
          let s2 := ((s1.incSat (R.CANn_CNT n) F.CANn_CNT_DROP).setFlag (R.CANn_EVT n) F.CANn_EVT_DROP).updCn n fun c =>
            { c with tx := none, dropped := c.dropped + 1 }
          let st : Status := match s.slot (s.phSlot ph (s.phHead ph)) with | .receipt r => r.status | _ => .done
          (s2.deadLetter (r.take 56 ++ List.replicate 8 0) st ph 3).consumeTo ph (s2.phNext ph 1)
        else s1

/-- CAN_BUS_OFF_RECOVERED (R417): error active again, both counters at 0. -/
def execCanBusOffRecovered (n : Nat) (s : State) : Out :=
  .next (if 6 ≤ n ∨ s.ust (U.can n) ≠ .running ∨ s.fld (R.CANn_STATE n) F.CANn_STATE_CONF ≠ 2 then s
    else (s.updCn n fun c => { c with tec := 0, rxc := 0 }).canConf n)

/-- CAN_MODE_WRITE (R415): only in IDLE; TRIPLE needs 250 kbit/s or less. -/
def execCanModeWrite (who : Requester) (n : Nat) (value : Word) (s : State) : Out :=
  let retry := getF value F.CANn_MODE_RETRY
  .next (s.accessBy who (R.CANn_MODE n) true <| s.tryWrite (R.CANn_MODE n) value
    ((if (getF value F.CANn_MODE_TRIPLE = 1 ∧ 1 < s.fld (R.CANn_TIMING n) F.CANn_TIMING_NRATE) ∨ getF value F.CANn_MODE_MODE = 3
        ∨ (15 < retry ∧ retry ≠ 31) then [.eRange] else []) ++ (if s.ust (U.can n) = .idle then [] else [.eState]))
    fun s => s.plainWrite (R.CANn_MODE n) value)

/-! ### Ethernet: frames in (R411, R420, R423, R424) -/

/-- The port's own IP address (R437), as octets: IPv6 where its record says so. -/
def State.ownIp (s : State) (p : Nat) : List Byte :=
  let word (id : Nat) : List Byte := (leBytes 4 (ofSigned 32 (s.netThr id p))).reverse
  if s.ethFlag p 3 then (List.range 4).flatMap fun i => word (0x0F02 + i) else word 0x0F01

def State.ethDiscard (s : State) (p : Nat) : State :=
  ((s.incSat (R.ETHp_CNT p) F.ETHp_CNT_DISCARD).setFlag (R.ETHp_EVT p) F.ETHp_EVT_DISC).updEt p fun e => { e with discarded := e.discarded + 1 }
def State.msDiscard (s : State) (p : Nat) : State :=
  ((s.incSat (R.ETHp_CNT p) F.ETHp_CNT_MSDROP).setFlag (R.ETHp_EVT p) F.ETHp_EVT_MSDROP).updEt p fun e => { e with msDrop := e.msDrop + 1 }

/-- The receive channel whose SCI the image gives (Table NET-3, R437); 0: none has it. -/
def State.rxChannel (s : State) (p sci : Nat) : Nat :=
  let own (i : Nat) : Nat := ofSigned 32 (s.netThr (0x0F10 + 2 * i) p) * 4294967296 + ofSigned 32 (s.netThr (0x0F11 + 2 * i) p)
  if sci = 0 then 0 else if own 0 = sci then 1 else if own 1 = sci then 2 else 0

/-- MACsec of a received frame (R424): its SCI is that of a receive channel, its association is installed, its ICV verifies, its PN is not below the lowest accepted; the
window follows. `none`: discarded. -/
def State.msAccept (s : State) (p : Nat) (f : EthIn) : Option State :=
  match f.sec with
  | none => if s.ethFlag p 4 then none else some s
  | some (sci, an, pn, ok) =>
    let ch := s.rxChannel p sci
    match (s.et p).assocs.find? fun a => a.channel == ch && a.an == an && ch != 0 with
    | none => none
    | some a =>
      if !ok ∨ pn < a.pn then none
      else
        let low := max a.pn (pn + 1 - (s.netThr 0x0F14 p).toNat)
        some (s.updEt p fun e => { e with assocs := e.assocs.map fun x =>
          if x.channel = ch ∧ x.an = an then { x with pn := low } else x })

/-- The difference of two 16-bit sequence numbers, −32,768 to 32,767. -/
def seqDelta (a b : Nat) : Int := toSigned 16 ((a + 65536 - b % 65536) % 65536)

/-- Sequence recovery (R423): the vector recovery algorithm of IEEE 802.1CB with a history of 32. Answers whether the frame passes. -/
def recover (e : EthSt) (seq : Nat) : EthSt × Bool :=
  let d := seqDelta seq e.recov
  if e.takeAny then ({ e with takeAny := false, recov := seq, hist := 1 }, true)
  else if 32 ≤ d ∨ d ≤ -32 then (e, false)
  else if d ≤ 0 then
    if bitAt e.hist d.natAbs then (e, false) else ({ e with hist := e.hist + 2 ^ d.natAbs }, true)
  else ({ e with recov := seq, hist := (e.hist * 2 ^ d.natAbs + 1) % 2 ^ 32 }, true)

/-- A datagram has the form of R420, for the port's own address. -/
def State.datagramOk (s : State) (p : Nat) (f : EthIn) : Bool :=
  let n := leAt f.payload 1 1
  f.dstPort == 49824 && f.dstIp == s.ownIp p && f.ip.length == f.dstIp.length && !f.fragment && !f.options && f.sumOk
    && leAt f.payload 0 1 == 1 && 1 ≤ n && n ≤ 16 && f.payload.length == 4 + 64 * n

/-- The letters of a datagram enter the pigeonholes of unit u in order; the receipts of a class follow its latest accepted letter. -/
def State.takeLetters (s : State) (u p : Nat) (f : EthIn) : State :=
  s.each (List.range (leAt f.payload 1 1)) fun s i =>
    let b := (f.payload.drop (4 + 64 * i)).take 64
    let cls := leAt b 3 1 % 4
    let (s1, ok) := s.netIntake u cls b
    if ok then s1.updEt p fun e => { e with dests := FMap.put e.dests cls ⟨f.ip, f.port, f.mac⟩ } else s1

/-- The port whose pigeonholes and addresses a port of the hardware works for: ETH0 where the two are merged (R423). -/
def State.ethHome (s : State) (p : Nat) : Nat := if s.merged then 0 else p

/-- A received frame on its way through the VLAN filter, MACsec and duplicate elimination (R420, R423, R424). Answers whether it passes. -/
def State.ethAccept (s : State) (p : Nat) (f : EthIn) : State × Bool :=
  let s1 := s.updEt p fun e => { e with received := e.received + 1 }
  let vid := s.fld (R.ETHp_CFG p) F.ETHp_CFG_VLAN
  let home := s.ethHome p
  if f.vlan ≠ (if vid = 0 then none else some vid) ∨ f.rtag.isSome ≠ s.merged then (s1.ethDiscard p, false)
  else
    match s1.msAccept p f with
    | none => (s1.msDiscard p, false)
    | some s2 =>
      let (e, pass) := match f.rtag with
        | some seq => recover (s2.et 0) seq
        | none => (s2.et home, true)
      let s3 := s2.updEt home fun _ => e
      (if pass then s3 else s3.updEt p fun e => { e with dups := e.dups + 1 }, pass)

/-- ETH_DATAGRAM_RECEIVED (R420, R423, R424): VLAN, MACsec, duplicate elimination, the form of the datagram, then its letters. -/
def execEthDatagramReceived (p : Nat) (f : EthIn) (s : State) : Out :=
  .next <|
    if 2 ≤ p ∨ s.ust (U.eth p) ≠ .running then s
    else
      let (s1, pass) := s.ethAccept p f
      if !pass then s1
      else if !s1.datagramOk p f then s1.ethDiscard p
      else s1.takeLetters (U.eth (s1.ethHome p)) (s1.ethHome p) f

/-- SEQUENCE_RECOVERY_RESET (R423): 100 ms without a frame: the next sequence number is taken whatever it is. -/
def execSequenceRecoveryReset (s : State) : Out :=
  .next (if s.merged then s.updEt 0 fun e => { e with takeAny := true, hist := 0 } else s)

/-! ### Ethernet: datagrams out (R420, R422 to R424) -/

/-- Line time in ns of a frame with a body of so many bytes: preamble, gap, MAC header, tags, body, FCS. -/
def State.frameTime (s : State) (p body : Nat) : Nat :=
  let bytes := 20 + 14 + 4 + body
    + (if s.fld (R.ETHp_CFG p) F.ETHp_CFG_VLAN = 0 then 0 else 4) + (if s.ethFlag p 4 then 32 else 0) + (if s.merged then 6 else 0)
  bytes * (if s.ethFlag p 2 then 8 else 80)

/-- Line time in ns of a datagram with n letters (R420): IP and UDP headers, payload. -/
def State.lineTime (s : State) (p n : Nat) : Nat := s.frameTime p (8 + 4 + 64 * n + (if s.ethFlag p 3 then 40 else 20))

/-- The gate entries present: (mask, interval in ns). -/
def State.gates (s : State) (p : Nat) : List (Nat × Nat) :=
  ((List.range 8).map fun j => (s.fld (R.ETHp_GCLj p j) F.ETHp_GCLj_GATES, s.fld (R.ETHp_GCLj p j) F.ETHp_GCLj_INTERVAL)).filter (·.2 != 0)

/-- How long a gate stays open from `pos` ns into a list of entries: the runs of open entries that hold `pos`. -/
def openFor (bit : Nat) : List (Nat × Nat) → Nat → Nat
  | [], _ => 0
  | (m, t) :: rest, pos =>
    if t ≤ pos then openFor bit rest (pos - t)
    else if bitAt m bit then (t - pos) + openFor bit rest 0 else 0

/-- A frame of `need` ns of class c may start: without Qbv or entries every gate is open; else it must end before its gate closes (R422),
over the cycle and the one after. -/
def State.gateOpen (s : State) (p c need : Nat) : Bool :=
  let g := s.gates p
  let cycle := g.foldl (fun a x => a + x.2) 0
  !s.ethFlag p 7 || cycle == 0 || g.all (fun x => bitAt x.1 (2 - c)) || decide (need ≤ openFor (2 - c) (g ++ g) ((s.time - (s.et p).gateAt) % cycle))

/-- A port can transmit: RUNNING, link up, and with MACsec an association with packet numbers left (R424). -/
def State.ethCan (s : State) (p : Nat) : Bool :=
  s.ust (U.eth p) == .running && s.flag (R.ETHp_STATE p) F.ETHp_STATE_LINK &&
  (!s.ethFlag p 4 || match (s.et p).txAn with
    | none => false
    | some an => (s.et p).assocs.any fun a => a.channel == 0 && a.an == an && a.pn < 0xFFFFFFFF)

/-- The association that port p transmits with, where its frames are protected. -/
def State.txAssoc (s : State) (p : Nat) : Option Assoc :=
  if s.ethFlag p 4 then (s.et p).assocs.find? fun a => a.channel == 0 && some a.an == (s.et p).txAn else none

/-- The VLAN tag of a frame of class c: the port's VLAN ID with PCP 6, 4 or 2; none with VLAN ID 0 (R420). -/
def State.vlanTag (s : State) (p c : Nat) : Option (Nat × Nat) :=
  let vid := s.fld (R.ETHp_CFG p) F.ETHp_CFG_VLAN
  if vid = 0 then none else some (vid, 6 - 2 * c)

/-- A frame leaves port p with its tags: counts, packet number with its warning (R424). -/
def State.ethSent (s : State) (p : Nat) (d : EthDest) (c : Nat) (payload : List Byte) : State :=
  let a := s.txAssoc p
  let fr : EthFrame := ⟨d, c, s.vlanTag p c, if s.merged then some (s.et 0).seqTx else none, a.map fun a => (a.an, a.pn), payload⟩
  let s1 := s.updEt p fun e => { e with
    sent := e.sent + 1, out := some fr,
    assocs := e.assocs.map fun x => if a = some x then { x with pn := x.pn + 1 } else x }
  if a.any fun x => 0xC0000000 ≤ x.pn then s1.setFlag (R.ETHp_EVT p) F.ETHp_EVT_PNWARN else s1

/-- A frame leaves port p, on both lines where the ports are merged (R423), from every line that can transmit. -/
def State.ethFrame (s : State) (p : Nat) (d : EthDest) (c : Nat) (payload : List Byte) : State :=
  let ports := if s.merged then [0, 1] else [p]
  (s.each (ports.filter s.ethCan) fun s q => s.ethSent q d c payload).updEt p fun e => { e with seqTx := (e.seqTx + 1) % 65536 }

/-- The answer to the oldest address request that waits leaves (R411), in the bulk queue (log 238), once it ends before its gate closes. -/
def State.ethAnswer (s : State) (p : Nat) : State :=
  match (s.et p).answers with
  | [] => s
  | d :: t =>
    if !s.gateOpen p 2 (s.frameTime p (if s.ethFlag p 3 then 72 else 46)) then s
    else (s.ethFrame p d 2 (s.ownIp p)).updEt p fun e => { e with answers := t }

/-- The boundary at which a receipt was placed: of its completion, else of its delivery. -/
def Receipt.placedAt (r : Receipt) : Nat := if r.pmCompleted = 0 then r.pmDelivered else r.pmCompleted

/-- How many receipts at the head of a ring one datagram takes: those placed at one boundary, at most 16. -/
def State.gather (s : State) (ph : Nat) : Nat :=
  let at_ (k : Nat) : Option Nat := match s.slot (s.phSlot ph (s.phNext ph k)) with | .receipt r => some r.placedAt | _ => none
  ((List.range (min 16 (s.phCount ph))).takeWhile fun k => at_ k == at_ 0).length

/-- Ethernet port p sends its next datagram; a receipt with no letter to follow goes to the dead-letter journal (R420). -/
def State.ethSend (s : State) (p : Nat) : State :=
  if (s.merged && p != 0) || !(if s.merged then [0, 1] else [p]).any s.ethCan then s
  else
    match (s.receiptPhs (U.eth p)).find? fun ph =>
        ((s.et p).dests.find? fun x => x.1 == s.phClass ph).isNone || s.gateOpen p (s.phClass ph) (s.lineTime p (s.gather ph)) with
    | none => s.ethAnswer p
    | some ph =>
      let c := s.phClass ph
      let n := s.gather ph
      let (s1, items) := (List.range n).foldl (fun (acc : State × List (List Byte × Status)) k =>
        let i := s.phSlot ph (s.phNext ph k)
        let (x, b) := acc.1.readSlot i
        match b, s.slot i with
        | some b, .receipt r => (x, acc.2 ++ [(b, r.status)])
        | _, _ => (x.incSat R.PST_DLJ_LOST F.PST_DLJ_LOST_COUNT, acc.2)) (s, [])
      match (s.et p).dests.find? fun x => x.1 == c with
      | none => (s1.each items fun s b => s.deadLetter (b.1.take 56 ++ List.replicate 8 0) b.2 ph 3).consumeTo ph (s.phNext ph n)
      | some (_, d) =>
        if items.isEmpty then s1.consumeTo ph (s.phNext ph n)
        else
          let payload := leBytes 1 1 ++ leBytes 1 items.length ++ [0, 0] ++ items.flatMap fun b => s.franked (U.eth p) b.1
          (s1.ethFrame p d c payload).consumeTo ph (s.phNext ph n)

/-- ADDRESS_RESOLUTION (R411): an ARP request or neighbour solicitation that the port accepts; it answers for its own address, at once where it
can transmit. -/
def execAddressResolution (p : Nat) (f : EthIn) (s : State) : Out :=
  .next <|
    if 2 ≤ p ∨ s.ust (U.eth p) ≠ .running then s
    else
      let (s1, pass) := s.ethAccept p f
      let h := s1.ethHome p
      if !pass then s1
      else if f.dstIp ≠ s1.ownIp p then s1.ethDiscard p
      else
        let s2 := s1.updEt h fun e => { e with answers := e.answers ++ [⟨f.ip, f.port, f.mac⟩] }
        if (if s2.merged then [0, 1] else [h]).any s2.ethCan then s2.ethAnswer h else s2

/-- NET_RECEIPT_SEND (R418, R420): port u takes its next receipts. -/
def execNetReceiptSend (u : Nat) (s : State) : Out :=
  .next (if !isNet u then s else if u < 0x38 then s.canSend (u - 0x30) else s.ethSend (u - 0x38))

/-- The gate cycle of port p in ns: the sum of its intervals. -/
def State.gateCycle (s : State) (p : Nat) : Nat := (s.gates p).foldl (fun a x => a + x.2) 0

/-- GATE_CYCLE_RESTART (R422): the gate list begins again, at a multiple of the cycle on the time of record. -/
def execGateCycleRestart (p : Nat) (s : State) : Out :=
  .next (if 2 ≤ p ∨ !s.ethFlag p 7 ∨ (s.gates p).isEmpty then s
    else s.updEt p fun e => { e with gateAt := s.time - s.time % s.gateCycle p })

/-- ETH_LINK_CHANGE (R419): the speed is the image's. -/
def execEthLinkChange (p : Nat) (up : Bool) (s : State) : Out :=
  .next <|
    if 2 ≤ p ∨ s.flag (R.ETHp_STATE p) F.ETHp_STATE_LINK = up then s
    else ((s.setFld (R.ETHp_STATE p) F.ETHp_STATE_LINK (b2n up)).setFld (R.ETHp_STATE p) F.ETHp_STATE_SPEED (b2n (s.ethFlag p 2))).setFlag
      (R.ETHp_EVT p) F.ETHp_EVT_LINK

/-! ### 802.1AS (R421) -/

/-- SYNCED changes. -/
def State.setSynced (s : State) (p : Nat) (on : Bool) : State :=
  if s.flag (R.ETHp_STATE p) F.ETHp_STATE_SYNCED = on then s
  else (s.setFld (R.ETHp_STATE p) F.ETHp_STATE_SYNCED (b2n on)).setFlag (R.ETHp_EVT p) F.ETHp_EVT_SYNC

/-- SYNC_RECEIVED (R421): a Sync gives an offset and the peer delay; it corrects the rate of the time of record where the best master clock
algorithm selects the port. The correction is a free value within ±200 ppm. -/
def execSyncReceived (p : Nat) (sync : SyncIn) (selected : Bool) (s : State) : Out :=
  .next <|
    if 2 ≤ p ∨ s.ust (U.eth p) ≠ .running ∨ !s.ethFlag p 6 then s
    else if !selected then s.updEt p fun e => { e with received := e.received + 1, delay := sync.delay }
    else
      let (v, sd) := s.draw
      let offset := sync.offset
      let s0 := { sd with rate := (v % 400001 : Nat) - 200000 }
      let s1 := (s0.setSfld (R.ETHp_OFFS p) F.ETHp_OFFS_VALUE offset).setSfld (R.ETHp_RATE p) F.ETHp_RATE_VALUE ((v % 400001 : Nat) - 200000)
      let since := if offset.natAbs < 1000 then some (((s.et p).goodSince).getD s.time) else none
      let s2 := s1.updEt p fun e => { e with goodSince := since, received := e.received + 1, delay := sync.delay }
      if 10000 < offset.natAbs then s2.setSynced p false
      else match since with
        | some t => if 1000000000 ≤ s.time - t then s2.setSynced p true else s2
        | none => s2

/-- SYNC_TIMEOUT (R421): no Sync within three intervals. -/
def execSyncTimeout (p : Nat) (s : State) : Out :=
  .next (if 2 ≤ p ∨ s.ust (U.eth p) ≠ .running ∨ !s.ethFlag p 6 then s
    else (s.updEt p fun e => { e with goodSince := none }).setSynced p false)

/-! ### PHY management (R419, Table NET-12) -/

/-- MDIO_TRANSACTION: a write to ETHp_MDIO; refused while one runs. -/
def execMdioTransaction (who : Requester) (p : Nat) (value : Word) (s : State) : Out :=
  .next (s.accessBy who (R.ETHp_MDIO p) true <| s.tryWrite (R.ETHp_MDIO p) value
    ((if getF value F.ETHp_MDIO_OP = 3 ∨ (getF value F.ETHp_MDIO_OP = 0 ∧ getF value F.ETHp_MDIO_CL45 = 0 ∧ getF value F.ETHp_MDIO_GO = 1)
        then [.eRange] else []) ++ (if s.flag (R.ETHp_MDIO p) F.ETHp_MDIO_GO then [.eState] else []))
    fun s => s.plainWrite (R.ETHp_MDIO p) value)

/-- MDIO_COMPLETE: GO clears; a read brings its data. -/
def execMdioComplete (p : Nat) (data : Nat) (s : State) : Out :=
  .next <|
    if 2 ≤ p ∨ !s.flag (R.ETHp_MDIO p) F.ETHp_MDIO_GO then s
    else
      let s1 := s.clrFlag (R.ETHp_MDIO p) F.ETHp_MDIO_GO
      if s.fld (R.ETHp_MDIO p) F.ETHp_MDIO_OP = 2 then s1.setFld (R.ETHp_MDIO p) F.ETHp_MDIO_DATA data else s1

/-! ### Letters (R410) -/

/-- NET_RUN: from IDLE; a franking port waits for the session counter's write to MRAM (R426). A CAN port starts with no frame under
way, an Ethernet port with no frame waiting. -/
def specNetRun : LetterSpec where
  units _ u := isNet u
  legal st := st = .idle
  used := []
  fails s _ := if s.sec.sessionWritten then [] else [.eState]
  run s m _ :=
    let s1 := if m.unit < 0x38 then s.updCn (m.unit - 0x30) fun c => { c with tx := none }
      else s.updEt (m.unit - 0x38) fun e => { e with answers := [] }
    doneWith (s1.setUst m.unit .running)

/-- NET_HALT: from RUNNING; IDLE follows when the receipt has been handed over (R477). -/
def specNetHalt : LetterSpec where
  units _ u := isNet u
  legal st := st = .running
  used := []
  run s m _ := (s, .done [] (some (.netHalt m.unit)))

def execNetRun (m : Msg) (s : State) : Out := .next (deliver specNetRun s m)
def execNetHalt (m : Msg) (s : State) : Out := .next (deliver specNetHalt s m).runReady

end Sys2Proof.Machine
end

