-- ==== Sys2Proof/Machine/Security.lean ====
section
/-!
DEFINITION. The security unit, the debug module and JTAG, and the general pins (16, 18).
Choices of the model: log 114, 115, 117, 133.
-/
namespace Sys2Proof.Machine

/-! ### Key commands (R428, R429) -/

/-- SEC_KDATA0 to 23 as bytes. -/
def State.keyData (s : State) (n : Nat) : List Byte := ((List.range 24).flatMap fun j => leBytes 4 (s.reg (R.SEC_KDATAj j)).toNat).take n

/-- Image key slot k is fused. -/
def State.keyFused (s : State) (k : Nat) : Bool := s.sec.digests.any fun p => p.1 == k

/-- Revoking slot k would leave no unrevoked provisioned image key. -/
def State.lastKey (s : State) (k : Nat) : Bool :=
  !(List.range 4).any fun i => i != k && s.keyProv i && !bitAt s.sec.revoked i

/-- A write to SEC_KCMD with an action: from the debug port with the lock not LOCKED; slots below `slots`; not while a command runs. -/
def State.keyCommand (s : State) (who : Requester) (action slot slots : Nat) (extra : List Status) (data : List Byte) : State :=
  let locked := match who with | .debug _ => s.debugLocked | _ => true
  match regFirst ((if locked then [.eLocked] else []) ++ (if slots ≤ slot then [.eRange] else [])
      ++ (if s.sec.cmd.isSome then [.eState] else []) ++ extra ++ (if s.mramClosed then [.eTemp] else [])) with
  | some st => s.refuse st R.SEC_KCMD
  | none => State.respond { s with sec := { s.sec with cmd := some ⟨action, slot, data⟩ } } 0

/-- FUSE_IMAGE_KEY: SEC_KCMD action 1. -/
def execFuseImageKey (who : Requester) (slot : Nat) (s : State) : Out :=
  .next <| s.accessBy who R.SEC_KCMD true <|
    s.keyCommand who 1 slot 4 (if s.keyFused slot then [.eState] else []) (s.keyData 96)

/-- SET_FRANKING_KEY: SEC_KCMD action 2. -/
def execSetFrankingKey (who : Requester) (slot : Nat) (s : State) : Out :=
  .next <| s.accessBy who R.SEC_KCMD true <| s.keyCommand who 2 slot 8 [] (s.keyData 16)

/-- FUSE_DEBUG_KEY: SEC_KCMD action 3; there is one slot. -/
def execFuseDebugKey (who : Requester) (slot : Nat) (s : State) : Out :=
  .next <| s.accessBy who R.SEC_KCMD true <|
    s.keyCommand who 3 slot 1 (if s.sec.debugKey.isSome then [.eState] else []) (s.keyData 32)

/-- REVOKE_IMAGE_KEY: SEC_KCMD action 4. -/
def execRevokeImageKey (who : Requester) (slot : Nat) (s : State) : Out :=
  .next <| s.accessBy who R.SEC_KCMD true <| s.keyCommand who 4 slot 4 (if s.lastKey slot then [.eInterlock] else []) []

/-- Revoke image key slot k. -/
def State.revoke (s : State) (k : Nat) : State := { s with sec := { s.sec with revoked := s.sec.revoked ||| 2 ^ k } }

/-- The effect of a key command. A debug key just fused leaves the lock UNLOCKED until the next reset, which locks it (R433). -/
def State.keyDone (s : State) (c : KeyCmd) : State :=
  if s.mramClosed then s else match c.action with
  | 1 => { s with sec := { s.sec with
      digests := FMap.put s.sec.digests c.slot (leBytes 48 (Config.sha384 c.data).toNat), records := FMap.put s.sec.records c.slot c.data } }
  | 2 => { s with sec := { s.sec with fks := FMap.put s.sec.fks c.slot c.data } }
  | 3 => State.setFlag { s with sec := { s.sec with debugKey := some c.data, unlocked := true } } R.SEC_EVT F.SEC_EVT_DBG
  | _ => s.revoke c.slot

/-- KEY_COMMAND_COMPLETE (R429): within 50 ms the command takes effect, BUSY clears, KCMD is set. -/
def execKeyCommandComplete (s : State) : Out :=
  .next <|
    match s.sec.cmd with
    | none => s
    | some c => State.setFlag (State.keyDone { s with sec := { s.sec with cmd := none } } c) R.SEC_EVT F.SEC_EVT_KCMD

/-! ### Key letters (R432) -/

/-- Senders of the key letters: P0, or C0 in split mode. -/
def State.keySender (s : State) (m : Msg) : List Status := if s.fromCore0 m then [] else [.eLocked]

/-- SEC_REVOKE. -/
def specSecRevoke : LetterSpec where
  units _ u := u == U.sec
  legal st := st = .running
  used := [(16, 16)]
  fails s m := s.keySender m ++ (if m.u8 16 < 4 then (if s.lastKey (m.u8 16) then [.eInterlock] else []) else [.eRange])
    ++ (if s.sec.cmd.isSome then [.eState] else [])
  run s m _ := doneWith (s.revoke (m.u8 16))

/-- The key that SEC_FKEY brings, unwrapped under the slot's current key. -/
def State.unwrapped (s : State) (m : Msg) : Option (List Byte) :=
  (Config.keyUnwrap (FMap.get fkDefault s.sec.fks (m.u8 16)) ((m.letter.body.drop 4).take 24)).map fun k => leBytes 16 k.toNat

/-- SEC_FKEY: the key applies from the next boundary; E_FRANK where the unwrap check fails. -/
def specSecFkey : LetterSpec where
  units _ u := u == U.sec
  legal st := st = .running
  used := [(16, 16), (20, 43)]
  fails s m := s.keySender m ++ (if m.u8 16 < 8 then [] else [.eRange]) ++ (if s.mramClosed then [.eTemp] else [])
  late s m := if (s.unwrapped m).isSome then [] else [.eFrank]
  run s m _ := doneWith
    (match s.unwrapped m with
    | some k => { s with sec := { s.sec with fkNext := s.sec.fkNext ++ [(m.u8 16, k)] } }
    | none => s)

/-- Install an association: at most two per channel, the oldest goes (Table NET-3). -/
def installSak (l : List Assoc) (a : Assoc) : List Assoc :=
  let keep := l.filter fun x => !(x.channel == a.channel && x.an == a.an)
  let mine := (keep.filter fun x => x.channel == a.channel)
  keep.filter (fun x => x.channel != a.channel) ++ mine.drop (mine.length - 1) ++ [a]

/-- SEC_SAK. -/
def specSecSak : LetterSpec where
  units _ u := u == U.sec
  legal st := st = .running
  used := [(16, 55)]
  fails s m := s.keySender m ++
    (if (m.u8 16 = 8 ∨ m.u8 16 = 9) ∧ m.u8 17 ≤ 2 ∧ m.u8 18 ≤ 3 ∧ m.u8 19 < 4 then [] else [.eRange])
  run s m _ :=
    let wide := bitAt (m.u8 19) 0
    let a : Assoc := ⟨m.u8 17, m.u8 18, wide, m.u32 20, (m.letter.body.drop 8).take (if wide then 32 else 16)⟩
    doneWith (s.updEt (m.u8 16 - 8) fun e => { e with
      assocs := installSak e.assocs a, txAn := if m.u8 17 = 0 ∧ bitAt (m.u8 19) 1 then some (m.u8 18) else e.txAn })

def execSecRevoke (m : Msg) (s : State) : Out := .next (deliver specSecRevoke s m)
def execSecFkey (m : Msg) (s : State) : Out := .next (deliver specSecFkey s m)
def execSecSak (m : Msg) (s : State) : Out := .next (deliver specSecSak s m)

/-! ### Debug lock (R433) -/

/-- DEBUG_CHALLENGE_READ: a read of SEC_DBGCHAL0 draws a new 16-byte challenge and returns its first word. -/
def execDebugChallengeRead (who : Requester) (s : State) : Out :=
  .next <| s.accessBy who (R.SEC_DBGCHALj 0) false <|
    let (l, s1) := s.drawN 4
    let s2 := s1.each (List.range 4) fun s j => s.setReg (R.SEC_DBGCHALj j) (BitVec.ofNat 32 (l.getD j 0))
    State.respond { s2 with sec := { s2.sec with challenge := some (l.flatMap (leBytes 4)) } } (s2.reg (R.SEC_DBGCHALj 0)).toNat

/-- The response that a challenge asks for: AES-256-CMAC over challenge, SYS_ID and session counter. -/
def State.debugAnswer (s : State) : Option (List Byte) :=
  match s.sec.debugKey, s.sec.challenge with
  | some k, some c => some (leBytes 16 (Config.cmac256 k (c ++ leBytes 4 (s.reg R.SYS_ID).toNat ++ leBytes 4 s.aon.session)).toNat)
  | _, _ => none

/-- DEBUG_RESPONSE_WRITE: a write to SEC_DBGRESP3 checks the response: E_STATE after the third failure since reset, else E_FRANK where it is
wrong, which counts. -/
def execDebugResponseWrite (who : Requester) (value : Word) (s : State) : Out :=
  .next <| s.accessBy who (R.SEC_DBGRESPj 3) true <|
    let s1 := s.setReg (R.SEC_DBGRESPj 3) value
    let given := (List.range 4).flatMap fun j => leBytes 4 (s1.reg (R.SEC_DBGRESPj j)).toNat
    if 3 ≤ s.sec.fails then s.refuse .eState (R.SEC_DBGRESPj 3)
    else if s.debugAnswer = some given then
      let s2 : State := { s1 with sec := { s1.sec with unlocked := true } }
      (if s.sec.unlocked then s2 else s2.setFlag R.SEC_EVT F.SEC_EVT_DBG).respond 0
    else State.refuse { s with sec := { s.sec with fails := s.sec.fails + 1 } } .eFrank (R.SEC_DBGRESPj 3)

/-- CHALLENGE_EXPIRY: 10 s after it was drawn. -/
def execChallengeExpiry (s : State) : Out := .next { s with sec := { s.sec with challenge := none } }

/-- RANDOM_WORD_READ (Table NET-14): a new random word, 0 after a failed health test of the source. -/
def execRandomWordRead (who : Requester) (healthy : Bool) (s : State) : Out :=
  .next <| s.accessBy who R.SEC_TRNG false <|
    if !healthy ∨ s.sec.trngBad then
      let s1 := if healthy then s else State.setFlag { s with sec := { s.sec with trngBad := true } } R.SEC_EVT F.SEC_EVT_TRNG
      s1.respond 0
    else
      let (v, s1) := s.draw
      s1.respond v

/-! ### The debug module (R326, R434, R441) -/

/-- Hart t answers to the debugger: the boot mode runs it and the lock is not LOCKED. -/
def State.hartThere (s : State) (t : Nat) : Bool := s.runCores.contains t && !s.debugLocked

/-- The debugger selects hart t. -/
def State.selectHart (s : State) (t : Nat) : State := { s with dbg := { s.dbg with active := true, hartsel := t } }

/-- DEBUG_HALT (R326): both cores of the pair stop after the same instruction; counted in DBG_HALTSt. -/
def execDebugHalt (t : Nat) (s : State) : Out :=
  .next <|
    let s0 := s.selectHart t
    if !s.hartThere t ∨ (s.core t).halted ∨ !((s.core t).cond = .running ∨ (s.core t).cond = .parked) then s0
    else (s0.endWfi t).enterHalt t 3

/-- DEBUG_RESUME (R326, R402): the hart runs again, through the replay queue, a pair that a mismatch has stopped stays stopped; the core first
takes the fast event that waits for it, then its normal interrupts. A self-test that waited is due at once (R320): it is the next
COMPARATOR_SELF_TEST. -/
def execDebugResume (t : Nat) (s : State) : Out :=
  .next <|
    let s0 := s.selectHart t
    if !s.hartThere t ∨ !(s.core t).halted then s0
    else
      let n := s.pairOf t
      let s1 := (s0.updCore t fun c => { c with halted := false }).replayed t 1
      let s2 := (if s.split || (s.core t).cond == .stopped then s1 else s1.setLscStat n 1).haltWatch n
      (s2.fastEntry t (s.core t).pc).evcSettle

/-- DEBUG_STEP (R326): one instruction, replayed; `pc` is the address it leaves. The hart halts again and the halt is counted. -/
def execDebugStep (t : Nat) (pc : Word) (s : State) : Out :=
  .next <|
    let s0 := s.selectHart t
    if !s.hartThere t ∨ !(s.core t).halted then s0
    else (s0.updCore t fun c => { c with pc := pc.toNat }).replayed t 1 |>.enterHalt t 4

/-- An abstract register access of a halted hart: the state after it and the data read; `none`: no such register. -/
def State.abstractReg (s : State) (t : Nat) (c : DbgCmd) : Option (State × Word) :=
  let x := s.core t
  if 0x1000 ≤ c.regno ∧ c.regno < 0x1020 then
    let k := c.regno - 0x1000
    let now := if k = 0 then 0 else bankReg (if x.active then x.fast else x.bank) k
    if !c.write ∨ k = 0 then some (s, now)
    else if x.active then some (s.setCore t { x with fast := FMap.set (fun _ => 0) x.fast k c.data }, c.data)
    else some (s.setCore t { x with bank := FMap.set (fun _ => 0) x.bank k c.data }, c.data)
  else if 0x1020 ≤ c.regno ∧ c.regno < 0x1040 then
    let k := c.regno - 0x1020
    if c.write then some (s.setCore t { x with fp := FMap.set (fun _ => 0) x.fp k c.data }, c.data)
    else some (s, FMap.get (fun _ => 0) x.fp k)
  else if c.regno = 0x7B0 then
    let v := (x.std 0x7B0 &&& 0x91C4) ||| BitVec.ofNat 32 (4 * 2 ^ 28 + x.priv % 4)
    if c.write then
      some (s.setCore t { x.setStd 0x7B0 ((x.std 0x7B0 &&& 0x1C0) ||| (c.data &&& 0x9004)) with
        priv := if c.data.toNat % 4 = 0 then 0 else if c.data.toNat % 4 = 3 then 3 else x.priv }, c.data)
    else some (s, v)
  else if c.regno = 0x7B1 then
    if c.write then some (s.setCore t { x with pc := c.data.toNat }, c.data) else some (s, BitVec.ofNat 32 x.pc)
  else if c.regno < 0x1000 then
    match s.csrRead t c.regno with
    | none => none
    | some v =>
      let s1 := if isCounter c.regno then { s with tick := s.tick + 1 } else s
      if !c.write then some (s1, v) else if csrReadOnly c.regno then none else some (s1.csrWrite t c.regno c.data true, c.data)
  else none

/-- The registers that an executed program buffer writes, in order; none where one does not exist. -/
def State.bufferRuns (s : State) (t : Nat) : List (Nat × Word) → Option State
  | [] => some s
  | (r, v) :: l =>
    match s.abstractReg t ⟨false, true, r, true, v, [], false, [], false⟩ with
    | none => none
    | some (s1, _) => State.bufferRuns s1 t l

/-- The execution of the program buffer after a transfer (R434): its register writes are replayed into the checker; cmderr 3 where it ends in
an exception. -/
def State.bufferExec (s : State) (t : Nat) (c : DbgCmd) : State :=
  if !c.exec then s
  else
    match s.bufferRuns t c.runs with
    | none => { s with dbg := { s.dbg with cmderr := 3 } }
    | some s1 =>
      let s2 := s1.replayed t (max 1 c.runs.length)
      if c.fails then { s2 with dbg := { s2.dbg with cmderr := 3 } } else s2

/-- DEBUG_ABSTRACT_COMMAND (R434): nothing is done while cmderr holds an error of an earlier one; cmderr 4 where the hart is not halted, 3
where the register does not exist; else the transfer, a write of it replayed into the checker, then the program buffer where the command
asks for it. -/
def execDebugAbstractCommand (t : Nat) (c : DbgCmd) (s : State) : Out :=
  .next <|
    let s1 := s.selectHart t
    if !s.hartThere t then s1
    else
      let s0 : State := { s1 with dbg := { s1.dbg with buf := (c.buf.filter fun p => p.1 < 8).foldl (fun m p => FMap.set (fun _ => 0) m p.1 p.2) s1.dbg.buf
                                                       cmderr := if c.clear then 0 else s1.dbg.cmderr } }
      if s0.dbg.cmderr ≠ 0 then s0
      else if !(s.core t).halted then { s0 with dbg := { s0.dbg with cmderr := 4 } }
      else if !c.transfer then s0.bufferExec t c
      else match s0.abstractReg t c with
        | none => { s0 with dbg := { s0.dbg with cmderr := 3 } }
        | some (s2, v) =>
          let s3 : State := { s2 with dbg := { s2.dbg with data := v } }
          (if c.write then s3.replayed t 1 else s3).bufferExec t c

/-- DEBUG_HART_RESET (R345, R434): the request asserts DEBUG on the hart's pair while it is held. -/
def execDebugHartReset (t : Nat) (held : Bool) (s : State) : Out :=
  .next <|
    let s0 := s.selectHart t
    if !s.runCores.contains t then s0
    else if !held then s0.releaseSource 11 (2 ^ s.pairOf t)
    else if s.debugLocked then s0
    else s0.raiseSource 11 (2 ^ s.pairOf t)

/-- JTAG_EXTEST (R433, R434): a JTAG instruction is selected. One that drives pins, with the levels of its boundary cells, is taken only while
the lock is UNLOCKED and DRIVE_EN and ACT_EN are low, else BYPASS is in its place; IDCODE reads 0x08800C3B. While the lock is LOCKED the
debug module's own registers serve what it still reaches (log 231). -/
def execJtagExtest (op : JtagOp) (s : State) : Out :=
  let take (op : JtagOp) : State := { s with pins := { s.pins with jtag := op } }
  .next <|
    match op with
    | .drive l => if s.debugLock = 2 ∧ !s.driveEn ∧ !s.actEn then take (.drive l) else take .bypass
    | .idcode => if s.tdoDriven then (take .idcode).respond 0x08800C3B else take .idcode
    | op => take op

/-! ### General pins (R465, R466) -/

/-- The function code of GPIO n. -/
def State.pinFunc (s : State) (n : Nat) : Nat := s.fld (R.PIN_CFGn n) F.PIN_CFGn_FUNC

/-- PIN_OUT_WRITE (R466): E_LOCKED where a bit of a pin whose function is not GPIO_OUT would change. -/
def execPinOutWrite (who : Requester) (value : Word) (s : State) : Out :=
  .next <| s.accessBy who R.PIN_OUT true <|
    s.tryWrite R.PIN_OUT value
      (if (List.range 32).any fun n => bitAt value.toNat n != bitAt (s.reg R.PIN_OUT).toNat n && s.pinFunc n != 1 then [.eLocked] else [])
      fun s => s.plainWrite R.PIN_OUT value

/-- PPS_PULSE (R465): the pin with function PPS goes high at a whole second of the time of record, and low 1 µs later. -/
def execPpsPulse (high : Bool) (s : State) : Out :=
  .next (if (List.range 32).any fun n => s.pinFunc n == 5 then { s with pins := { s.pins with pps := high } } else s)

end Sys2Proof.Machine
end

