-- ==== Sys2Proof/Machine/Admission.lean ====
section
/-!
DEFINITION. Admission of a slot (R53), the check of a firmware slot (R430), the image and firmware letters (R65 to R67, R431) and the
end of a check.
Choices of the model: log 121, 122, 169, 170, 171, 178.
-/
namespace Sys2Proof.Machine

/-! ### Reading a slot -/

/-- Read codewords of MRAM from a key, 32 bytes each, for the security unit; none where one is uncorrectable. -/
def State.readMram (s : State) (key : Nat) : Nat → State × Option (List Byte)
  | 0 => (s, some [])
  | n + 1 =>
    let (s1, r) := s.readCw 7 key [] U.sec
    let b := leBytes 32 (s1.loadData key 32 r)
    let (s2, t) := s1.readMram (key + 32) n
    (s2, if r = .bad then none else t.map fun l => b ++ l)

/-- An early end of admission, or of a firmware check: its one finding, with section 0 (R53, R431). -/
def early (code : Nat) : Finding := (At.mk code 0 0 0 0).free

/-- An early end that compares a value with a limit. -/
def earlyBad (code : Nat) (found limit : Int) : Finding := (At.mk code 0 0 0 0).bad found limit

/-- The signature of a slot verifies (R43): `b` holds the n signed bytes and the signature block. -/
def State.signed (s : State) (b : List Byte) (n : Nat) : Bool :=
  let k := leAt b n 1
  k ≤ 3 && s.keyProv k && !bitAt s.sec.revoked k &&
  match s.sec.records.find? (fun p => p.1 == k) with
  | some (_, key) => Config.ecdsaP384 key (Config.sha384 (b.take n)) ((b.drop (n + 16)).take 96)
  | none => false

/-- The bit of a variant in VARIANTS (Table SI-1). -/
def Variant.bit : Variant → Nat | .f => 0 | .d => 1 | .s => 2

/-- Bytes lo to hi of a byte list are zero. -/
def zeroFrom (b : List Byte) (lo hi : Nat) : Bool := (List.range (hi + 1 - lo)).all fun i => leAt b (lo + i) 1 == 0

/-- The checks between the signature and the layout, which images and firmware share (R53, R430). -/
def State.headFails (s : State) (b : List Byte) (magic : Nat) (floor : Nat) : Option Finding :=
  let serial := leAt b 12 4
  if leAt b 0 4 ≠ magic ∨ leAt b 4 2 ≠ 1 ∨ leAt b 6 2 ≠ 0x100 then some (early 0x20)
  else if !bitAt (leAt b 16 1) s.variant.bit then some (early 0x23)
  else if serial < floor then some (earlyBad 0x22 (toSigned 32 serial) (toSigned 32 floor))
  else if leAt b 17 1 ≠ b2n s.split then some (earlyBad 0x3A (leAt b 17 1) (b2n s.split))
  else none

/-! ### Layout (R42, R44) -/

/-- The bounds of a section's record count (Table SI-3). -/
def Variant.countOk (v : Variant) (i n : Nat) : Bool :=
  match i with
  | 0 => 1 ≤ n && n ≤ 128
  | 1 => n == v.legs
  | 2 => n ≤ 16
  | 3 => 1 ≤ n && n ≤ 512
  | 4 => n ≤ 12
  | 5 => n ≤ 1024
  | 6 => n ≤ 256
  | _ => n ≤ 64

/-- The bytes that n tables occupy from an offset, within a bound: none where one crosses it. -/
def tablesEnd (b : List Byte) (bound : Nat) : Nat → Nat → Option Nat
  | 0, off => some off
  | n + 1, off =>
    let e := off + 32 + (leAt b (off + 28) 4 + 31) / 32 * 32
    if bound < e then none else tablesEnd b bound n e

/-- The padding after the data of each table is zero. -/
def padZero (b : List Byte) : Nat → Nat → Bool
  | 0, _ => true
  | n + 1, off =>
    let len := leAt b (off + 28) 4
    let e := off + 32 + (len + 31) / 32 * 32
    zeroFrom b (off + 32 + len) (e - 1) && padZero b n e

/-- The end of what the records of section i occupy; none where they cross the section's length. -/
def recordsEnd (b : List Byte) (i : Nat) : Option Nat :=
  let (_, off, len, n) := dirEntry b i
  if i = 7 then tablesEnd b (off + len) n off
  else if len < n * recSize i then none else some (off + n * recSize i)

/-- Where section i + 1 begins, or the signature block after the last. -/
def nextStart (b : List Byte) (imgLen i : Nat) : Nat := if i = 7 then imgLen else (dirEntry b (i + 1)).2.1

/-- Section i breaks no rule of R42 and R44 on its place and count. -/
def Variant.sectionOk (v : Variant) (b : List Byte) (imgLen i : Nat) : Bool :=
  let (t, off, len, n) := dirEntry b i
  t == i + 1 && leAt b (66 + 16 * i) 2 == 0 && off % 32 == 0 && 256 ≤ off && off + len ≤ nextStart b imgLen i && v.countOk i n
    && (recordsEnd b i).isSome

/-- The bytes after the records of section i, up to what follows it, are zero (R42). -/
def gapZero (b : List Byte) (imgLen i : Nat) : Bool :=
  match recordsEnd b i with
  | none => false
  | some e => zeroFrom b e (nextStart b imgLen i - 1)

/-- The layout is valid (R42, R44, R50). -/
def Variant.layoutOk (v : Variant) (b : List Byte) (n : Nat) : Bool :=
  leAt b 16 1 < 8 && zeroFrom b 18 19 && zeroFrom b 48 63 && zeroFrom b 192 255
  && (List.range 8).all (v.sectionOk b n) && (List.range 8).all (gapZero b n)
  && zeroFrom b 256 ((dirEntry b 0).2.1 - 1)
  && padZero b (dirEntry b 7).2.2.2 (dirEntry b 7).2.1
  && (sectionRecords b 3 16).all (fun r => 1 ≤ rf r 0 1 && rf r 0 1 ≤ 3)
  && zeroFrom b (n + 1) (n + 15) && zeroFrom b (n + 112) (n + 127)

/-! ### The procedure of R53 -/

/-- The findings about the bytes of an image slot: IMG_LEN n has passed its bound, `b` holds the image and its signature block. -/
def State.imageFindings (s : State) (b : List Byte) (n floor : Nat) : List Finding :=
  if !s.signed b n then [early 0x21]
  else
    match s.headFails b 0x4953444B floor with
    | some f => [f]
    | none =>
      if !s.variant.layoutOk b n then [early 0x24]
      else Adm.findings ⟨s.variant, s.split, parseImage b⟩

/-- A length of an image or firmware is legal (R42, Table NET-6). -/
def lengthOk (n bound : Nat) : Bool := n % 32 == 0 && 256 ≤ n && n + 128 ≤ bound

/-- Read a slot by the length its header states: the bytes, or the finding that ends the check. An uncorrectable codeword leaves the
signature unverified. -/
def State.slotBytes (s : State) (key bound : Nat) : State × Except Finding (List Byte × Nat) :=
  match s.readMram key 1 with
  | (s1, none) => (s1, .error (early 0x21))
  | (s1, some h) =>
    let n := leAt h 8 4
    if !lengthOk n bound then (s1, .error (early 0x24))
    else
      match s1.readMram key ((n + 128) / 32) with
      | (s2, none) => (s2, .error (early 0x21))
      | (s2, some b) => (s2, .ok (b, n))

/-- The rollback floor of a pointer record; 0 where none is valid (R64). -/
def State.floorOf (s : State) (base : Nat) : Nat := ((s.governing base).map fun p => p.2.floor).getD 0

/-- Admission of structure slot i (R53): the findings, and the image's bytes. -/
def State.admitSlot (s : State) (i : Nat) : State × List Finding × List Byte :=
  match s.slotBytes (slotBase i) 4194304 with
  | (s1, .error f) => (s1, [f], [])
  | (s1, .ok (b, n)) => (s1, s1.imageFindings b n (s1.floorOf ptrKey), b)

/-- The layout of a firmware image (Table NET-6): reserved bytes, LOAD_ADDR and the fit of the copy. -/
def State.fwLayoutOk (s : State) (b : List Byte) (n : Nat) : Bool :=
  let a := leAt b 20 4
  let len := leAt b 24 4
  leAt b 16 1 < 8 && zeroFrom b 18 19 && zeroFrom b 48 255 && zeroFrom b (n + 1) (n + 15) && zeroFrom b (n + 112) (n + 127)
  && a % 32 == 0
  && ((0x10000000 ≤ a && a + len ≤ 0x10000000 + s.tcmSize) || (0x20000000 ≤ a && a + len ≤ 0x20400000))

/-- The check of firmware slot i (R430, R431): the finding that ends it, and the firmware's bytes. -/
def State.checkFw (s : State) (i : Nat) : State × List Finding × List Byte :=
  match s.slotBytes (fwBase i) 12582912 with
  | (s1, .error f) => (s1, [f], [])
  | (s1, .ok (b, n)) =>
    if !s1.signed b n then (s1, [early 0x21], b)
    else
      match s1.headFails b 0x5746444B (s1.floorOf fwPtrKey) with
      | some f => (s1, [f], b)
      | none => (s1, if s1.fwLayoutOk b n then [] else [early 0x24], b)

/-! ### Findings as bytes, journal, status (R62) -/

/-- The 16 bytes of a finding (R62). -/
def findingBytes (f : Finding) : List Byte :=
  leBytes 1 f.code ++ leBytes 1 f.sect ++ leBytes 2 f.record ++ leBytes 2 (f.itemKind * 256 + f.item) ++ [0, 0]
    ++ leBytes 4 (ofSigned 32 f.found) ++ leBytes 4 (ofSigned 32 f.limit)

/-- The first 32 findings are journalled (R53, R62). -/
def State.journalFindings (s : State) (l : List Finding) : State := s.each (l.take 32) fun s f => s.journal 3 (findingBytes f)

/-- The refusal code of a check: that of its first finding. -/
def checkStatus : List Finding → Status
  | [] => .done
  | f :: _ => if f.code = 0x11 then .eAbsent else .adm f.code

/-- The result of a check: the first finding and the number of findings (Table SI-11). -/
def checkResult (l : List Finding) : List Byte := padTo 16 ((l.head?.map findingBytes).getD []) ++ leBytes 4 l.length

/-! ### The image and firmware letters (R65, R431) -/

/-- Image and firmware letters come from P0's pigeonholes (C0 in split mode) or from a network port (R432). -/
def State.loadSender (s : State) (m : Msg) : List Status :=
  let net := match m.src with | .ph n => s.phFromNet n | .mgmt => false
  if s.fromCore0 m || net then [] else [.eLocked]

/-- IMAGE_WRITE (target 1) and FW_WRITE (target 2). -/
def specSlotWrite (target : Nat) : LetterSpec where
  units _ u := u == U.sec
  legal st := st = .running
  used := [(16, 19), (24, 55)]
  fails s m := s.loadSender m ++ (if s.checking then [.eState] else []) ++ s.nvsFails target (m.u32 16) false
  run s m _ := doneWith (s.slotWrite target (m.u32 16) ((m.letter.body.drop 8).take 32))

/-- IMAGE_CHECK and FW_CHECK: accepted; one check runs at a time. -/
def specSlotCheck (firmware : Bool) : LetterSpec where
  units _ u := u == U.sec
  legal st := st = .running
  used := []
  fails s m := s.loadSender m ++ (if s.checking then [.eState] else [])
  opens _ _ := true
  run s _ k := acceptedWith <|
    if firmware then { s with fcheck := ⟨some k, false, [], 0⟩ } else { s with icheck := ⟨some k, false, [], 0⟩ }

/-- The 32 bytes of a pointer record (R63). -/
def pointerBytes (p : Pointer) : List Byte :=
  padTo 32 (leBytes 4 p.count ++ leBytes 1 p.active ++ [0, 0, 0] ++ leBytes 4 p.serial ++ leBytes 4 p.floor)

/-- The pointer record that a commit writes (R64, R67), with the slot's SERIAL. -/
def State.commitPointer (s : State) (base serial : Nat) (raise : Bool) : Pointer :=
  match s.governing base with
  | none => ⟨1, 0, serial, if raise then serial else 0, true⟩
  | some (_, p) => ⟨p.count + 1, s.inactiveSlot base, serial, if raise then max p.floor serial else p.floor, true⟩

/-- A commit begins (R67): the copy of the pointer record that does not govern is written first (log 193). -/
def State.commit (s : State) (m : Msg) (base slot : Nat) : State :=
  let serial := leNat ((List.range 4).map fun i => s.memByte (slot + 12 + i))
  let first := match s.governing base with | none => 0 | some (c, _) => 1 - c
  s.commitWrite ⟨m, s.pm, base, first, pointerBytes (s.commitPointer base serial (m.u8 17 == 1)), false⟩

/-- IMAGE_COMMIT and FW_COMMIT (R65 to R67): the writes follow, and the receipt after them. -/
def specCommit (firmware : Bool) : LetterSpec where
  units _ u := u == U.sec
  legal st := st = .running
  used := [(16, 17)]
  fails s m :=
    s.loadSender m ++ (if m.u8 16 ≤ 1 then [] else [.eRange]) ++ (if m.u8 17 ≤ 1 then [] else [.eFormat])
    ++ (if (if firmware then s.fcheck.passed else s.icheck.passed) then [] else [.eState])
    ++ (if m.u8 16 = 1 && s.powerBusy then [.eState] else []) ++ (if s.mramClosed then [.eTemp] else [])
  run s m _ :=
    (if firmware then s.commit m fwPtrKey (fwBase (s.inactiveSlot fwPtrKey)) else s.commit m ptrKey (slotBase (s.inactiveSlot ptrKey)), .later)

/-- IMAGE_WRITE (R65). -/
def execImageWrite (m : Msg) (s : State) : Out := .next (deliver (specSlotWrite 1) s m)
/-- IMAGE_CHECK (R65). -/
def execImageCheck (m : Msg) (s : State) : Out := .next (deliver (specSlotCheck false) s m)
/-- IMAGE_COMMIT (R67). -/
def execImageCommit (m : Msg) (s : State) : Out := .next (deliver (specCommit false) s m).runReady
/-- FW_WRITE (R431). -/
def execFwWrite (m : Msg) (s : State) : Out := .next (deliver (specSlotWrite 2) s m)
/-- FW_CHECK (R431). -/
def execFwCheck (m : Msg) (s : State) : Out := .next (deliver (specSlotCheck true) s m)
/-- FW_COMMIT (R431). -/
def execFwCommit (m : Msg) (s : State) : Out := .next (deliver (specCommit true) s m).runReady

/-- A check ends with findings: they are journalled, the result is kept, the final receipt follows (R62, R65). -/
def State.checkEnds (s : State) (l : List Finding) (key : Nat) (firmware : Bool) : State :=
  let c : CheckState := ⟨none, l.isEmpty, l.take 32, l.length⟩
  let s1 := s.journalFindings l
  let s2 : State := if firmware then { s1 with fcheck := c } else { s1 with icheck := c }
  (s2.setFlag R.SEC_EVT F.SEC_EVT_CHECK).hwFinish key (checkStatus l) (checkResult l)

/-- CHECK_COMPLETE (R53, R65, R431): the running check of the inactive slot ends. -/
def execCheckComplete (firmware : Bool) (s : State) : Out :=
  .next <|
    match (if firmware then s.fcheck.running else s.icheck.running) with
    | none => s
    | some key =>
      let r := if firmware then s.checkFw (s.inactiveSlot fwPtrKey) else s.admitSlot (s.inactiveSlot ptrKey)
      r.1.checkEnds r.2.1 key firmware

end Sys2Proof.Machine
end

