-- ==== Sys2Proof/Machine/Load.lean ====
section
/-!
DEFINITION. What an admitted image gives the registers and units at unit release (R41, R357, Table RST-6 step 7), the recovery settings of
poste restante mode (R361, R435), and the start sequence (R355).
Choices of the model: log 172, 173, 174, 175, 177.
-/
namespace Sys2Proof.Machine

/-- Store a word, given as a number. -/
def State.setNat (s : State) (a v : Nat) : State := s.setReg a (BitVec.ofNat 32 v)

/-- Store a threshold of an image in a field, where the image has it. -/
def State.fromThr (s : State) (im : Image) (id b2 a : Nat) (f : Fld) : State :=
  match im.thresh id b2 with
  | none => s
  | some v => s.setFld a f (ofSigned 32 v)

/-! ### Pigeonholes (R76, R77) -/

/-- Declare a pigeonhole: ring size, class, producer, consumer, delivery limit, ring offset. -/
def State.declare (s : State) (n size cls producer consumer maxpe off : Nat) : State :=
  ((s.setNat (R.PHn_CFG n) (consumer * 2 ^ 24 + producer * 2 ^ 16 + Nat.log2 size * 2 ^ 12 + cls * 2 ^ 10
      + b2n (producer == 0) * 2 ^ 9 + 2 ^ 8)).setNat (R.PHn_LIM n) maxpe).setNat (R.PHn_BASE n) off

/-- The pigeonholes of the image, in ascending order from the start of queue memory. -/
def State.loadPost (s : State) (im : Image) : State :=
  let recs := im.schedKind 1
  ((List.range 64).foldl (fun (x : State × Nat) n =>
    match recs.find? fun r => rf r 1 1 == n with
    | none => x
    | some r => (x.1.declare n (rf r 4 2) (rf r 2 1) (rf r 8 1) (rf r 9 1) (rf r 6 2) x.2, x.2 + 64 * rf r 4 2)) (s, 0)).1

/-! ### Engines, legs, gate links (04, 05) -/

/-- The registers of engine n. MOD_MAX and ADAPT.RUN take their start from the record (Table FE-10; a DAB's adaptation flag is bit 1 of
byte 29). -/
def State.loadEngine (s : State) (im : Image) (n : Nat) : State :=
  match (match (im.loopsOf n).find? (fun r => rf r 1 1 != 4) with | some r => some r | none => (im.loopsOf n).head?) with
  | none => s
  | some r =>
    let t := rf r 1 1
    let s1 := (s.setFld (R.FEn_STATE n) F.FEn_STATE_TEMPLATE t).setFld (R.FEn_STATE n) F.FEn_STATE_FUNCTION (rf r 2 1)
    let s2 := s1.setNat (R.FEn_LOOPCFG n) (rf r 12 1 * 2 ^ 24 + rf r 3 1 * 2 ^ 16 + rf r 8 1 * 2 ^ 11 + (rf r 9 1 - 1) * 2 ^ 10
      + rf r 2 1 * 16 + t)
    let s3 := (((s2.setNat (R.FEn_PERIOD n) (rf r 4 4)).setNat (R.FEn_LEAD n) (rf r 10 2)).setNat (R.FEn_BASE n)
      (rf r 22 2 * 2 ^ 16 + rf r 20 2)).setNat (R.FEn_PHASE n) (rf r 13 3)
    let s4 := s3.each (List.range 3) fun s j => s.setNat (R.FEn_TMPLj n j) (rf r (20 + 4 * j) 4)
    let s5 := if 1 ≤ t ∧ t ≤ 3 then s4.setFld (R.FEn_GAINS n) F.FEn_GAINS_MOD_MAX (rf r 28 2) else s4
    let s6 := s5.setFld (R.FEn_ADAPT n) F.FEn_ADAPT_RUN (if t = 5 then rf r 29 1 / 2 % 2 else if t = 4 then rf r 31 1 % 2 else rf r 30 1 % 2)
    s6.updE n fun e => { e with par := s6.parAt n, prev := s6.letters n }

/-- The modulator's device-wide values (Table MOD-15). -/
def State.loadMod (s : State) (im : Image) : State :=
  let w : Fld := ⟨31, 0⟩
  let s1 := (s.fromThr im 0x0201 0xFF R.MOD_SOFT F.MOD_SOFT_HOLD).fromThr im 0x0202 0xFF R.MOD_IDT F.MOD_IDT_IDT
  let s2 := s1.each (List.range 4) fun s b =>
    (s.fromThr im (0x0210 + b) 0xFF (R.MOD_TBAND0 + 4 * b) w).fromThr im (0x0214 + b) 0xFF (R.MOD_TDRV0 + 4 * b) w
  let s3 := (s2.fromThr im 0x0218 0xFF R.MOD_PPROF w).fromThr im 0x0219 0xFF R.MOD_PDRV w
  s3.each (List.range 16) fun s f => s.fromThr im 0x0220 f R.MOD_DCL ⟨2 * f + 1, 2 * f⟩

/-- A used leg: its configuration, its driver slot in use, the timing of B3 from admission (R130). -/
def State.loadLeg (s : State) (r : List Byte) : State :=
  let n := rf r 0 1
  if rf r 1 1 = 0 then s
  else
    let k := rf r 4 1 / 16
    let j := rf r 4 1 % 16
    let s1 := s.setNat (R.MOD_LCFGn n) (rf r 4 1 * 2 ^ 24 + rf r 7 1 % 2 * 2 ^ 23 + rf r 1 1 * 2 ^ 16 + rf r 3 1 * 2 ^ 8 + rf r 2 1)
    let s2 := (s1.setNat (R.MOD_DIDTn n) (rf r 6 1 * 256 + rf r 5 1)).setBit (R.GLKk_STAT k) F.GLKk_STAT_USED j
    s2.applyTiming n

/-- After admission ID is read and STRENGTH written for every used slot (R150). -/
def State.loadDrivers (s : State) (im : Image) : State :=
  s.each (im.legs.filter fun r => rf r 1 1 != 0) fun s r =>
    let n := rf r 0 1
    let (k, j) := s.glOf n
    (s.glQueue k ⟨j, .readId, 0, 0, 0⟩).glQueue k ⟨j, .strength 3, 0x01, s.drvCodes n 3, 0⟩

/-! ### Sensing (06) -/

/-- The registers of FCV, RND, POS and SENT. -/
def State.loadSense (s : State) (im : Image) : State :=
  let s1 := s.each (List.range 32) fun s n => s.fromThr im (0x0300 + n) 0xFF (R.FCV_CHn_FS n) F.FCV_CHn_FS_FS
  let s2 := s1.each (im.schedKind 2) fun s r =>
    (s.setNat (R.RNDr_SEQe (rf r 1 1) (rf r 2 1)) (2 ^ 31 + rf r 7 1 % 2 * 2 ^ 30 + rf r 5 1 * 2 ^ 22 + rf r 6 1 * 2 ^ 18
      + rf r 4 1 * 2 ^ 13 + rf r 3 1)).setNat (R.RNDr_LIMe (rf r 1 1) (rf r 2 1)) (rf r 8 4)
  let s3 := match im.unitRec 5 0 with
    | none => s2
    | some r => s2.each (List.range 4) fun s k =>
      let en := b2n (bitAt (rf r 4 1) (4 + k)) * 2 ^ 31
      if k < 2 then
        (s.setNat (R.POSk_CFG k) (en + rf r (12 + k) 1 / 16 * 2 ^ 20 + rf r (12 + k) 1 % 16 * 2 ^ 16 + rf r (6 + k) 1)).fromThr im
          (0x0341 + k) 0xFF (R.POSk_NOM k) F.POSk_NOM_MV
      else s.setNat (R.POSk_CFG k) (en + rf r (8 + 2 * (k - 2)) 2)
  match im.unitRec 6 0 with
  | none => s3
  | some r => s3.each (List.range 4) fun s i =>
    s.setNat (R.SENTi_CFG i) (rf r 12 1 * 2 ^ 16 + rf r (4 + 2 * i) 1 * 2 ^ 8 + rf r (5 + 2 * i) 1)

/-! ### Charger, regulator, actuators, gearbox (08, 09, 10) -/

/-- The charger's functions (R206). -/
def State.loadChg (s : State) (im : Image) : State :=
  match im.unitRec 9 0 with
  | none => s
  | some r => s.setNat R.CHG_CFG (rf r 7 1 / 2 % 2 * 2 ^ 25 + rf r 7 1 % 2 * 2 ^ 24 + rf r 6 1 * 2 ^ 16 + rf r 4 1 * 2 ^ 8 + rf r 5 1)

/-- The regulator's record and thresholds (R242, R256). -/
def State.loadReg (s : State) (im : Image) : State :=
  match im.unitRec 8 0 with
  | none => s
  | some r =>
    let s1 := (s.setNat R.REG_TARGET (rf r 10 2 * 2 ^ 16 + rf r 8 2)).setNat R.REG_SHED (rf r 6 1 * 2 ^ 8 + rf r 5 1 / 2 % 2)
    let s2 := (s1.setNat R.REG_CFG (rf r 12 2 * 2 ^ 16 + rf r 14 1 * 2 ^ 8 + rf r 4 1)).setFld R.REG_STATE F.REG_STATE_USED (rf r 4 1)
    s2.each [(0x0601, R.REG_PROT, F.REG_PROT_OV), (0x0602, R.REG_PROT, F.REG_PROT_VINMIN), (0x0603, R.REG_ILIM, F.REG_ILIM_IMAX),
      (0x0604, R.REG_ILIM, F.REG_ILIM_IMIN), (0x0605, R.REG_SS, F.REG_SS_SSTIME), (0x0606, R.REG_SS, F.REG_SS_MARGIN),
      (0x0607, R.REG_SS, F.REG_SS_HICCUP), (0x0608, R.REG_SHEDCFG, F.REG_SHEDCFG_SHEDI), (0x0609, R.REG_SHEDCFG, F.REG_SHEDCFG_ADDI),
      (0x060A, R.REG_SHEDCFG, F.REG_SHEDCFG_SHEDT), (0x060B, R.REG_SHEDCFG, F.REG_SHEDCFG_HOLD), (0x060C, R.REG_SENSE, F.REG_SENSE_GAIN),
      (0x060D, R.REG_SENSE, F.REG_SENSE_ZERO), (0x060E, R.REG_RIPPLE, F.REG_RIPPLE_L), (0x060F, R.REG_RIPPLE, F.REG_RIPPLE_KRIP)]
      fun s p => s.fromThr im p.1 0xFF p.2.1 p.2.2

/-- Actuator channels and the sequencer (R261, R276). -/
def State.loadActs (s : State) (im : Image) : State :=
  let g := (im.unitRec 0x0B 0).getD []
  let s1 := s.each (List.range 4) fun s k =>
    match im.unitRec 7 k with
    | none => s
    | some r =>
      (s.setNat (R.ACk_CFG k) (rf r 10 2 * 2 ^ 16 + rf r 6 2 * 2 ^ 8 + b2n (k < 3 && bitAt (rf g 4 1) (k + 1)) * 2 ^ 7 + rf r 5 1)).setNat
        (R.ACk_RATED k) (rf r 8 2)
  if g.isEmpty then s1
  else (s1.setNat R.GBX_CFG (rf g 4 1 / 2 % 8 * 2 ^ 28 + rf g 7 1 % 4 * 2 ^ 24 + rf g 6 1 * 2 ^ 16 + rf g 5 1 * 2 ^ 8)).setNat R.GBX_SENT
    (rf g 10 1 * 2 ^ 16 + rf g 9 1 * 2 ^ 8 + rf g 8 1)

/-! ### Ledger, lockstep, watchdogs, thermal unit, memory, pins (11 to 14, 17, 18) -/

/-- A ledger port's registers; a MEASURED port on no link reads 0xF in SEL (Table LDG-1). -/
def State.loadPort (s : State) (r : List Byte) : State :=
  let p := rf r 0 1
  let kind := rf r 1 1
  let sel := if kind = 2 ∧ rf r 2 1 = 0xFF then 0xF else if 1 ≤ kind ∧ kind ≤ 3 then rf r 2 1 else 0
  ((((s.setNat (R.LDG_Pp_CFG p) (rf r 5 1 * 2 ^ 16 + rf r 4 1 * 2 ^ 8 + kind * 16 + sel)).setNat (R.LDG_Pp_MAXD p) (rf r 8 4)).setNat
    (R.LDG_Pp_MAXR p) (rf r 12 4)).setNat (R.LDG_Pp_IMBW p) (rf r 16 4)).setNat (R.LDG_Pp_IMBT p) (rf r 20 4)

/-- The remaining device-wide values: lockstep reach, watchdog windows, thermal limits and mask, scrub periods. -/
def State.loadMisc (s : State) (im : Image) : State :=
  let s1 := s.setFld R.LSC_CFG F.LSC_CFG_REACH (rf im.device 6 1 % 16 ||| 1)
  let s2 := s1.each (List.range 4) fun s n =>
    (s.fromThr im 0x0C01 n (R.SSM_WDCFGn n) F.SSM_WDCFGn_MAX).fromThr im 0x0C02 n (R.SSM_WDCFGn n) F.SSM_WDCFGn_MIN
  let s3 := (s2.fromThr im 0x0E01 0xFF R.THM_LIMIT F.THM_LIMIT_THROT).fromThr im 0x0E02 0xFF R.THM_LIMIT F.THM_LIMIT_SHUT
  let s4 := match im.unitRec 0x0F 0 with
    | none => s3
    | some r => s3.setFld R.THM_TCFG F.THM_TCFG_MASK (rf r 4 1 % 8)
  (s4.each (List.range 4) fun s i => s.fromThr im (0x1001 + i) 0xFF (R.MEM_SCRUBs i) F.MEM_SCRUBs_MS).fromThr im 0x1005 0xFF
    R.NVS_MSCRUB F.NVS_MSCRUB_HOURS

/-- Pins, and PIN_OUT's initial levels (R465, R466). -/
def State.loadPins (s : State) (im : Image) : State :=
  s.each im.pins fun s r =>
    let n := rf r 0 2
    (s.setNat (R.PIN_CFGn n) (rf r 2 1 * 2 ^ 8 + rf r 3 1 * 2 ^ 4 + rf r 4 1)).setFld R.PIN_OUT ⟨n, n⟩ (rf r 4 1)

/-- The data of each table goes to table memory (R51). -/
def State.loadTables (s : State) (im : Image) : State :=
  s.each im.tables fun s t => s.setBytes (0x28000000 + leAt t.header 24 4) t.data

/-! ### Networks (R435, R436) -/

/-- A CAN port's registers from its UNITS record. -/
def State.loadCan (s : State) (n : Nat) (r : List Byte) : State :=
  let b := rf r 4 1
  ((s.setNat (R.CANn_MODE n) ((if rf r 5 1 = 0xFF then 0x1F else rf r 5 1) * 2 ^ 8 + b / 8 % 2 * 8 + b / 2 % 4 * 2)).setNat (R.CANn_TIMING n)
    (rf r 9 1 * 2 ^ 24 + rf r 8 1 * 2 ^ 16 + b / 16 % 2 * 2 ^ 15 + rf r 7 1 * 2 ^ 8 + rf r 6 1)).setNat (R.CANn_IDS n)
    (rf r 12 2 * 2 ^ 16 + rf r 10 2)

/-- An Ethernet port's registers from its UNITS record and a lookup of its THRESH values. -/
def State.loadEth (s : State) (p : Nat) (r : List Byte) (thr : Nat → Option Int) : State :=
  let s1 := ((s.setNat (R.ETHp_CFG p) (rf r 6 2 * 2 ^ 16 + rf r 5 1 % 8 * 2 ^ 8 + rf r 4 1 / 2 * 2)).setNat (R.ETHp_MACL p) (rf r 8 4)).setNat
    (R.ETHp_MACH p) (rf r 12 2)
  s1.each (List.range 8) fun s j =>
    match thr (0x0F20 + j) with
    | none => s
    | some v => s.setNat (R.ETHp_GCLj p j) (ofSigned 32 v)

/-- The network ports, and whether ETH1 is merged into ETH0 (R423). -/
def State.loadNets (s : State) (im : Image) : State :=
  let s1 := s.each (List.range 6) fun s n => match im.unitRec 0x0C n with | some r => s.loadCan n r | none => s
  let s2 := s1.each (List.range 2) fun s p =>
    match im.unitRec 0x0D p with
    | some r => s.loadEth p r fun id => im.thresh id (8 + p)
    | none => s
  s2.keepMerged

/-- The recovery record: the UNITS and THRESH values of CAN0 and ETH0 (R435). -/
def recoveryOf (im : Image) : RecoveryRec :=
  ⟨(im.unitRec 0x0C 0).getD [], (im.unitRec 0x0D 0).getD [], im.threshs.filter fun r => 0x0F00 ≤ rf r 0 2 && rf r 0 2 < 0x1000 && rf r 2 1 == 8⟩

/-! ### What the units learn, and the start states -/

/-- What the SSM learns of the functions (R330). -/
def Image.ssmMap (im : Image) : FMap SsmFn :=
  im.functions.map fun f => (f, ⟨im.fnRole f, im.fnLegs f, im.thresh 0x0125 f == some 1, ((im.thresh 0x0220 f).getD 0).toNat⟩)

/-- A function's values before its first letter: an HLV function's target and limit (R237), ASC_PREF as the SSM has it. -/
def State.loadFn (s : State) (im : Image) (f : Nat) : State :=
  let s1 := s.updTr f fun t => { t with pref := s.ascPref f }
  if im.fnRole f = 5 then
    s1.updHl f fun h => { h with target := (im.thresh 0x0705 f).getD 480 * 65536 / 10, i2lim := (im.thresh 0x0703 f).getD 1250 }
  else s1

/-- The unit that a UNITS record names, where the record gives it a start state. -/
def recUnit (r : List Byte) : Option Nat :=
  let i := rf r 1 1
  match rf r 0 1 with
  | 0x01 => some (U.fe i) | 0x04 => some (U.rnd i) | 0x05 => some U.pos | 0x06 => some U.sent | 0x07 => some (U.ac i)
  | 0x08 => some U.reg | 0x09 => some U.chg | 0x0A => some (U.fn i) | 0x0B => some U.gbx | 0x0C => some (U.can i)
  | 0x0D => some (U.eth i) | _ => none

/-- The units that stand in IDLE at the boundary of step 8 (R357): those whose UNITS record says IDLE, and the functions of legs that have
no record of their own. The functions of the charger take its state. -/
def Image.startUnits (im : Image) : List Nat :=
  (im.units.filterMap fun r => if rf r 2 1 = 1 then recUnit r else none)
  ++ ((im.functions.filter fun f => im.fnRole f = 1 ∨ im.fnRole f = 6).map U.fn)
  ++ (match im.unitRec 9 0 with
      | some r => if rf r 2 1 = 1 then (im.functions.filter fun f => im.fnRole f = 2 ∨ im.fnRole f = 3 ∨ im.fnRole f = 4).map U.fn else []
      | none => [])

/-! ### The override test (R336) -/

/-- The items of the override test: used pool legs, actuator channels, used phases of the regulator (Table LSS-7, SSM_OTEST.ITEM). -/
def State.testItems (s : State) : List Nat :=
  List.range s.variant.legs ++ (List.range s.variant.acs).map (0x40 + ·)
  ++ ((List.range 8).filter (bitAt (s.fld R.REG_STATE F.REG_STATE_USED))).map (0x50 + ·)

/-- The override test: skipped while an enable is high; whether a readback is wrong, and which first, is the hardware's (a free value). A pass
ends cause OTEST, a failure raises it. -/
def State.overrideTest (s : State) : State :=
  let w := s.setNat R.SSM_OTEST 0xFF
  if s.driveEn || s.actEn then w.setFlag R.SSM_OTEST F.SSM_OTEST_SKIP
  else
    let (v, s1) := w.draw
    let s2 := s1.setFlag R.SSM_OTEST F.SSM_OTEST_RAN
    if v % 2 = 0 then
      let s3 := s2.setFlag R.SSM_OTEST F.SSM_OTEST_PASS
      if s3.ssmCause 9 then s3.ssmEnd 512 else s3
    else (s2.setFld R.SSM_OTEST F.SSM_OTEST_ITEM (s.testItems.getD (v / 2 % s.testItems.length) 0xFF)).ssmRaise 9

/-! ### Unit release (Table RST-6, step 7) -/

/-- The registers take the values of the image. -/
def State.loadRegs (s : State) (im : Image) : State :=
  let s1 := ((s.loadPost im).each (List.range 8) fun s n => s.loadEngine im n).loadMod im
  let s2 := ((s1.each im.legs State.loadLeg).loadDrivers im).loadSense im
  let s3 := (((s2.loadChg im).loadReg im).loadActs im).each im.ledger State.loadPort
  ((s3.loadMisc im).loadPins im).loadNets im

/-- An admitted image is loaded and the units are released: tables, registers, the SSM's map, the recovery record, the override test,
mismatches from before the restart in the journal (R324). Start states follow at the boundary of step 8. -/
def State.release (s : State) (im : Image) (slot : Nat) (fallback : Bool) : State :=
  let s1 : State := { s with img := some im, imgSlot := slot, fallback := fallback, recovery := if s.mramClosed then s.recovery else some (recoveryOf im),
                             ssm := { s.ssm with map := im.ssmMap, mism := [] } }
  let s2 := (s1.loadTables im).loadRegs im
  let s3 := s2.each im.functions fun s f => s.loadFn im f
  let s4 := s3.each s.ssm.mism fun s e => s.journal 5 e
  let s5 := (s4.overrideTest).ssmRefresh
  let s6 := State.each { s5 with mdl := { s5.mdl with carrierAt := s5.time } } im.startUnits fun s u => s.hwMove u [.off] .idle
  ({ s6 with rst := { s6.rst with unitsOut := true } }).setFld R.RST_STATE F.RST_STATE_PHASE 4

/-! ### The start (Table RST-6) -/

/-- The NVS reads a codeword of the MRAM (R446, R450): its bytes, or none where it is uncorrectable. -/
def State.nvsRead (s : State) (k : Nat) : State × Option (List Byte) :=
  let (s1, r) := s.readCw 7 k [] U.nvs
  (s1, if r = .bad then none else some (s1.cwData k r))

/-- The journal's end: entries that continue the pointer's sequence, at most 64 (R455). An uncorrectable header continues nothing. -/
def State.journalScan : Nat → State → Nat → Nat → State × Nat × Nat
  | 0, s, off, seq => (s, off, seq)
  | n + 1, s, off, seq =>
    let (s1, r) := s.nvsRead (0x62000000 + off / 32 * 32 % 0x1000000)
    let b := r.getD []
    let len := leAt b 5 1
    if leAt b 0 4 = seq ∧ (len = 2 ∨ len = 3 ∨ len = 5) then State.journalScan n s1 ((off + 32 * len) % 0x1000000) (seqNext seq)
    else (s1, off, seq)

/-- The NVS reads the journal pointer and scans forward. A pointer that nothing has written, or an uncorrectable one, gives offset 0 and
sequence 1 (DESIGN CHOICE, log 239). -/
def State.journalStart (s : State) : State :=
  let (s1, r) := s.nvsRead jPtrKey
  let b := r.getD []
  let seq := if leAt b 4 4 = 0 then 1 else leAt b 4 4
  let (s2, off, next) := State.journalScan 64 s1 (leAt b 0 4 % 0x1000000) seq
  ({ s2 with nvs := { s2.nvs with jptr := off, jsince := 0 } }).setNat R.NVS_JSEQ next

/-- Both copies of a pointer record are read (R63, R446). -/
def State.readPointers (s : State) (base : Nat) : State := (((s.nvsRead base).1).nvsRead (base + 32)).1

/-- Step 3: memories are initialised, RST_PEND is cleared, the start counter and the session counter advance, the start timer starts (R355, R359, R426). -/
def State.startStep (s : State) : State :=
  let s1 : State :=
    { s with
      mem := s.mem.filter fun p => keptByte p.1
      err := s.err.filter fun p => keptByte p.1
      aon := { s.aon with session := (s.aon.session + 1) % 2 ^ 32 }
      sec := { s.sec with sessionWritten := false }
      rst := { s.rst with startTimer := true } }
  let s2 := ((s1.setNat R.RST_PEND 0).setFld R.RST_START F.RST_START_COUNT (min 4 (s.fld R.RST_START F.RST_START_COUNT + 1))).journalStart
  (s2.clrFlag R.RST_START F.RST_START_PR).clrFlag R.RST_START F.RST_START_FWFAIL

/-- The recovery settings of CAN0 without a record (R435), as a UNITS record: 500 kbit/s, 2 Mbit/s with bit-rate switch, 80 % and 75 %,
normal, unlimited, RXID 0x700, TXID 0x704, FK0. -/
def canRecovery : List Byte := [0x0C, 0, 1, 0, 0x10, 0xFF, 2, 1, 80, 75, 0x00, 0x07, 0x04, 0x07, 0, 0]

/-- Poste restante mode (R361): fixed pigeonholes, CAN0 and ETH0 from the recovery record, the start timer stopped. The other pairs stay
in reset. -/
def State.posteRestante (s : State) : State :=
  let eth := match s.recovery with | some r => !r.eth.isEmpty | none => false
  let s := if s.split then s.updCore 1 fun c => { c with cond := .off, wfi := false } else s
  let s0 : State := { s with rst := { s.rst with startTimer := false, autoDue := if eth then [U.can 0, U.eth 0] else [U.can 0] } }
  let s1 := (s0.setFlag R.RST_START F.RST_START_PR).setFld R.RST_STATE F.RST_STATE_PHASE 6
  let s2 := (((s1.declare 0 16 1 0x30 0 16 0).declare 1 16 1 0 0x30 16 0x400).declare 2 16 1 0x38 0 16 0x800).declare 3 16 1 0 0x38 16 0xC00
  let can := match s.recovery with | some r => if r.can.isEmpty then canRecovery else r.can | none => canRecovery
  let s3 := (s2.loadCan 0 can).hwMove (U.can 0) [.off] .idle
  match s.recovery with
  | none => s3
  | some r =>
    if r.eth.isEmpty then s3
    else
      (s3.loadEth 0 r.eth fun id => (r.thresh.find? fun x => rf x 0 2 == id).map fun x => rfi x 4 4).hwMove (U.eth 0) [.off] .idle

/-- Slots in the order of a start: the governing active one, then the other; none where no pointer copy is valid (R64). -/
def State.slotOrder (s : State) (base : Nat) : List Nat :=
  match s.activeSlot base with
  | none => []
  | some i => [i, 1 - i]

/-- The first slot of a list whose check has no finding; the findings of those before it are journalled. -/
def firstGood (check : State → Nat → State × List Finding × List Byte) : State → List Nat → State × Option (Nat × List Byte)
  | s, [] => (s, none)
  | s, i :: t =>
    match check s i with
    | (s1, [], b) => (s1, some (i, b))
    | (s1, l, _) => firstGood check (s1.journalFindings l) t

/-- The firmware is copied to LOAD_ADDR and P0, or C0, jumps to its entry (R430). -/
def State.loadFirmware (s : State) (slot : Nat) (b : List Byte) : State :=
  let a := leAt b 20 4
  let code := (List.range (leAt b 24 4)).map fun i => s.memByte (fwBase slot + 256 + i)
  let key := if a < 0x20000000 then tcmKey 0 (a - 0x10000000) else a
  (s.setBytes key code).updCore 0 fun c => { c with cond := .running, wfi := false, pc := (a + leAt b 28 4) % 2 ^ 32 }

/-- The start waits for the release of the domains, and runs once. -/
def State.startReady (s : State) : Bool :=
  s.rst.sysHold == 0 && s.rst.domains == 5 && !s.rst.standby && !s.rst.transport && s.fld R.RST_STATE F.RST_STATE_PHASE == 1
    && (s.core 0).cond == .off

/-- Steps 6 and 7: the image of the governing slot, or of the other, is admitted and released; with neither the start fails (R64). -/
def State.startImage (s : State) : State :=
  let s1 := (s.setFld R.RST_STATE F.RST_STATE_PHASE 3).readPointers ptrKey
  match firstGood State.admitSlot s1 (s1.slotOrder ptrKey) with
  | (s2, none) => s2
  | (s2, some (i, b)) =>
    let fell := s1.activeSlot ptrKey != some i
    (if fell then s2.journalFree U.sec else s2).release (parseImage b) i fell

/-- START_SEQUENCE (R355, R359 to R361, R64, R430): steps 3 to 7 of Table RST-6. -/
def execStartSequence (s : State) : Out :=
  .next <|
    if !s.startReady then s
    else
      let again := s.fld R.RST_START F.RST_START_COUNT = 4
      let s1 := s.startStep.pairLeave 0
      if again then s1.posteRestante
      else
        let s2 := (s1.setFld R.RST_STATE F.RST_STATE_PHASE 2).readPointers fwPtrKey
        match firstGood State.checkFw s2 (s2.slotOrder fwPtrKey) with
        | (s3, none) => (s3.setFlag R.RST_START F.RST_START_FWFAIL).posteRestante
        | (s3, some (i, b)) =>
          let others := (List.range s3.variant.pairs).filter fun n => n != 0 && !bitAt s3.rst.pairs n
          ((s3.each others State.pairLeave).loadFirmware i b).startImage

end Sys2Proof.Machine
end

