-- ==== Sys2Proof/Machine/Bus.lean ====
section
/-!
DEFINITION. The bus: reads and writes of every register, by a core, the debug module or a WRITE or READ letter; converted writes (R9,
R86, R120); memory accesses (R442) and system bus accesses (R434).
Choices of the model: log 90, 118, 123, 124, 129, 130, 131, 132, 134.
-/
namespace Sys2Proof.Machine

/-- The state in an outcome; every meaning of this model answers a next state. -/
def afterOut (s : State) : Out → State
  | .next t => t
  | _ => s

/-! ### Registers that show live hardware -/

/-- The sequencer's torque t_s of a machine (R278): on its ramp while it is held, else 0 (a machine in FAULT is off). -/
def State.gbxTs (s : State) (f : Nat) : Int := if s.ust (U.fn f) ≠ .fault ∧ (s.held f (s.tr f).torque).isSome then (s.tr f).tEff else 0

/-- The level of GPIOn (Tables PKG-5, PKG-7), where the T880 knows it. -/
def State.pinLevel (s : State) (n : Nat) : Option Bool :=
  match s.pinFunc n with
  | 1 => some (bitAt (s.reg R.PIN_OUT).toNat n)
  | 2 => some s.chg.cpS2
  | 3 => some s.chg.acCmd
  | 4 => some s.chg.acFb
  | 5 => some s.pins.pps
  | _ => none

/-- MOD_LSTATn (Table MOD-24). -/
def State.lstat (s : State) (n : Nat) : Nat :=
  let l := s.leg n
  s.legOvr n * 2 ^ 30 + b2n (s.gfHigh n) * 2 ^ 29 + b2n (s.softOn n) * 2 ^ 28 + (if s.banded n then l.band % 4 else 0) * 2 ^ 26 + b2n l.pend * 2 ^ 25 + b2n l.lost * 2 ^ 24
    + s.latchOf n % 16 * 2 ^ 16 + l.td % 1024

/-- Bring the register at an address up to date, where it shows hardware that changes under it. -/
def State.liveView (s : State) (a : Nat) : State :=
  match findReg a with
  | none => s
  | some r =>
    let n := r.idx.headD 0
    if s.regAbsent r then s
    else if a = R.MOD_STAT then (s.setFld a F.MOD_STAT_DEN (b2n s.driveEn)).setFld a F.MOD_STAT_LATCHED s.pads.legCause.length
    else if a = R.MOD_LSTATn n then s.setNat a (s.lstat n)
    else if a = R.ACT_STAT ∨ a = R.ACk_LATCH n then (s.syncActLatch).setFld R.ACT_STAT F.ACT_STAT_EN (b2n s.actEn)
    else if a = R.FEn_ADFAC n then s.setNat a (s.factors n)
    else if a = R.GBX_OUTSPD then s.setNat a (ofSigned 32 (satS 32 (quant 16 s.outRpm)))
    else if a = R.GBX_TS then
      (s.setSfld a F.GBX_TS_TSA (nearest ((s.gbxTs (s.fld R.GBX_CFG F.GBX_CFG_FUNCA) : Rat) / 65536))).setSfld a F.GBX_TS_TSB
        (nearest ((s.gbxTs (s.fld R.GBX_CFG F.GBX_CFG_FUNCB) : Rat) / 65536))
    else if a = R.LDG_WQLO then s.setNat a (leAt (s.ldg.wq.headD []) 0 4)
    else if a = R.LDG_WQHI then s.setNat a (leAt (s.ldg.wq.headD []) 4 4)
    else if a = R.LDG_Pp_ELO n then s.setNat a (ofSigned 64 (s.portNet n))
    else if a = R.LDG_KABLO then s.setNat a (ofSigned 64 s.kaBalance)
    else if a = R.PIN_IN then
      let (v, s1) := s.draw
      s1.setNat a (maskOf 32 fun i => (s.pinLevel i).getD (bitAt v i))
    else s

/-! ### Writes -/

/-- The engine whose parameter a register sets: FEn_GAINS, OUTKP, OUTKI, ADAPT, HCFGk, HAMPk and HCAP are written by way of a letter
(R9, R120). -/
def convertedFe (a : Nat) : Option Nat :=
  let n := (a - 0x40100000) / 0x10000
  let o := a % 0x10000
  if 0x40100000 ≤ a ∧ a < 0x40180000 ∧ a % 4 = 0
      ∧ (o = 0x14 ∨ o = 0x18 ∨ o = 0x1C ∨ o = 0x20 ∨ (0x30 ≤ o ∧ o ≤ 0x50)) then some n else none

/-- The harmonic channel of FEn_HCFGk or FEn_HAMPk. -/
def harmChannel (a : Nat) : Nat := (a % 0x10000 - 0x30) / 8

/-- The checks of a harmonic channel's register getting a value, with a cap. -/
def State.harmWriteFails (s : State) (n a v cap : Nat) : List Status :=
  let k := harmChannel a
  if a = R.FEn_HCFGk n k then s.harmFails n k v (s.reg (R.FEn_HAMPk n k)).toNat cap
  else s.harmFails n k (s.reg (R.FEn_HCFGk n k)).toNat v cap

/-- The checks on an engine parameter that depend on the written value alone (R9, Tables FE-19 to FE-26). -/
def State.feValueFails (s : State) (n a v : Nat) : List Status :=
  let g := (s.reg (R.FEn_GAINS n)).toNat
  if a = R.FEn_GAINS n then s.gainFails n (bitsOf v 15 0) (bitsOf v 31 16) 0 0
  else if a = R.FEn_OUTKP n then s.gainFails n (bitsOf g 15 0) (bitsOf g 31 16) v 0
  else if a = R.FEn_OUTKI n then s.gainFails n (bitsOf g 15 0) (bitsOf g 31 16) 0 v
  else if a = R.FEn_ADAPT n then
    if 4 ≤ bitsOf v 11 8 ∧ 1 ≤ bitsOf v 31 16 ∧ bitsOf v 31 16 < 2 ^ 15 then [] else [.eRange]
  else if a = R.FEn_HCAP n then []
  else (s.harmWriteFails n a v (2 ^ 20)).filter (· == .eRange)

/-- The checks on an engine parameter at delivery (R9, R120): the states of the equivalent opcode, and the sum of the amplitudes against
the cap. -/
def State.feStateFails (s : State) (n a v : Nat) : List Status :=
  let st := s.ust (U.fe n)
  let early := st = .idle ∨ st = .armed
  if a = R.FEn_GAINS n ∨ a = R.FEn_OUTKP n ∨ a = R.FEn_OUTKI n then stateFail (fun x => x = .idle || x = .armed) st
  else if a = R.FEn_ADAPT n then stateFail (fun x => x = .idle || x = .armed || x = .running || x = .stopping) st
  else stateFail (fun x => x = .idle || x = .armed || x = .running) st ++
    (if a = R.FEn_HCAP n then (if early ∨ st = .running then s.harmFails n 0 (s.reg (R.FEn_HCFGk n 0)).toNat (s.reg (R.FEn_HAMPk n 0)).toNat (v % 2 ^ 16) else [])
     else s.harmWriteFails n a v (s.fld (R.FEn_HCAP n) F.FEn_HCAP_CAP))

/-- A register write becomes a letter on the management queue (R86): its checks of R8, then E_FULL where 32 letters wait. -/
def State.convertWrite (s : State) (n a : Nat) (v : Word) : State :=
  match regFirst (s.mapFails a v ++ s.feValueFails n a v.toNat) with
  | some st => s.refuse st a
  | none =>
    if 32 ≤ s.po.mgmt.length then s.refuse .eFull a
    else
      let sq := seqNext s.po.mgmtSeq
      let l : Letter := ⟨1, U.fe n, 1, sq, 0, 0, padTo 40 (leBytes 4 a ++ leBytes 4 v.toNat), padTo 8 []⟩
      State.respond { s with po := { s.po with mgmt := s.po.mgmt ++ [l], mgmtSeq := sq } } 0

/-- The checks of a plain write beside those of the map: PHn_MOD (Table PST-29), RNDr_RQCTL, MEM_CETHR, EVC_THRt of another mode. -/
def State.plainFails (s : State) (r : RegAt) (a : Nat) (v : Word) : List Status :=
  let n := r.idx.headD 0
  if a = R.PHn_MOD n then
    let count := getF v F.PHn_MOD_COUNT
    if s.phEn n && s.phIsReceipt n then
      if count = 0 ∨ s.phSize n < count ∨ (1 < count ∧ (getF v F.PHn_MOD_TIME = 0 ∨ s.phClass n = 0)) then [.eRange] else []
    else if v = regDefault a then [] else [.eState]
  else if a = R.RNDr_RQCTL r.inst then (if 1 ≤ v.toNat % 128 ∧ v.toNat % 128 ≤ 64 then [] else [.eRange])
  else if a = R.MEM_CETHR then (if v.toNat % 2 ^ 16 = 0 then [.eRange] else [])
  else []

/-- What follows a plain write at once: a lower COUNT may signal held receipts (R92), a threshold or a flag may change what a core
sees. -/
def State.afterWrite (s : State) (r : RegAt) (a : Nat) : State :=
  let n := r.idx.headD 0
  if a = R.PHn_MOD n then
    if s.phEn n && s.phIsReceipt n && s.phHeld n != 0 && s.fld a F.PHn_MOD_COUNT ≤ s.phHeld n then s.signalAll n else s
  else if a = R.EVC_THRt n then s.evcRefresh
  else s

/-- A write applied directly, of a register without a row of its own. -/
def State.directWrite (s : State) (a : Nat) (v : Word) : State :=
  match findReg a with
  | none => s.tryWrite a v [] id
  | some r =>
    match regFirst ((s.liveView a).mapFails a v ++ s.plainFails r a v) with
    | some st => s.refuse st a
    | none => ((s.plainWrite a v).afterWrite r a).respond 0

/-- A write of SEC_KCMD by its ACTION (Table NET-14). -/
def keyWrite (who : Requester) (v : Word) (s : State) : Out :=
  let slot := getF v F.SEC_KCMD_SLOT
  let locked := match who with | .debug _ => s.debugLocked | _ => true
  match regFirst ((if locked then [.eLocked] else []) ++ s.mapFails R.SEC_KCMD v) with
  | some st => .next (s.accessBy who R.SEC_KCMD true (s.refuse st R.SEC_KCMD))
  | none =>
    match getF v F.SEC_KCMD_ACTION with
    | 1 => execFuseImageKey who slot s
    | 2 => execSetFrankingKey who slot s
    | 3 => execFuseDebugKey who slot s
    | 4 => execRevokeImageKey who slot s
    | _ => .next (s.accessBy who R.SEC_KCMD true (s.refuse .eRange R.SEC_KCMD))

/-- A write of a post-window word other than the last: only the declared producer's (R78). -/
def State.windowWrite (s : State) (who : Requester) (n j : Nat) (v : Word) : State :=
  if s.phEn n && !s.phIsReceipt n && Requester.codeIs who (s.phProducer n) then (s.setWindow n j v).respond 0
  else s.refuse .eLocked (R.PHn_POSTj n j)

/-- A write of a register that has a row of its own, as that row. A watchdog's time since the last service is free here: only the row
carries it. -/
def rowWrite (who : Requester) (r : RegAt) (a : Nat) (v : Word) (s : State) : Option Out :=
  let n := r.idx.headD 0
  let k := r.idx.getD 1 0
  if a = R.PHn_POSTj n 15 then some (execLetterPost who n v s)
  else if a = R.PHn_POSTj n k ∧ r.idx.length = 2 then some (.next (s.accessBy who a true (s.windowWrite who n k v)))
  else if a = R.PHn_HEAD n then some (execReceiptConsume who n v s)
  else if a = R.PST_SLEEP then some (execSleepAnnounce who v s)
  else if a = R.EVC_CLAIMt n then some (execEventComplete who n v s)
  else if a = R.EVC_DBSET then some (execDoorbellSet who v s)
  else if a = R.EVC_SRCm (n + 1) then some (execEventSourceWrite who (n + 1) v s)
  else if a = R.RST_PVECn n then some (execRstPvecWrite who n v s)
  else if a = R.SSM_WDKn n then
    some (execWatchdogService who n v 0 s)
  else if a = R.SSM_FACK then some (execFaultNAcknowledge who v s)
  else if a = R.FCV_CHn_CORR n then some (execFcvCorrWrite who n v s)
  else if a = R.RNDr_CORRk r.inst n then some (execRndCorrWrite who r.inst n v s)
  else if a = R.RNDr_URG r.inst then some (execRndUrgWrite who r.inst v s)
  else if a = R.POSk_OFS n then some (execPosOfsWrite who n v s)
  else if a = R.MEM_INJ then some (execErrorInjection who v s)
  else if a = R.MEM_CNTs n then some (execErrorCountClear who n v s)
  else if a = R.NVS_WCMD then some (.next (s.accessBy who a true (s.nvsCommand who (v.toNat % 4) v)))
  else if a = R.NVS_JPOST then some (execJournalPost who v s)
  else if a = R.SEC_KCMD then some (keyWrite who v s)
  else if a = R.SEC_DBGRESPj 3 then some (execDebugResponseWrite who v s)
  else if a = R.CANn_MODE r.inst then some (execCanModeWrite who r.inst v s)
  else if a = R.ETHp_MDIO r.inst then some (execMdioTransaction who r.inst v s)
  else if a = R.PIN_OUT then some (execPinOutWrite who v s)
  else none

/-- A register write by a requester (R8, R9). -/
def State.busWrite (s : State) (who : Requester) (a : Nat) (v : Word) : State :=
  match findReg a with
  | none => s.accessBy who a true (s.directWrite a v)
  | some r =>
    match convertedFe a with
    | some n => s.accessBy who a true (s.convertWrite n a v)
    | none =>
      match rowWrite who r a v s with
      | some o => afterOut s o
      | none => s.accessBy who a true (s.directWrite a v)

/-- REGISTER_WRITE (R4, R8, R9, R16 to R18, R86). -/
def execRegisterWrite (who : Requester) (addr : Nat) (value : Word) (s : State) : Out := .next (s.busWrite who addr value)

/-! ### Reads -/

/-- The fault cause registers. -/
def faultCauseReg (r : RegAt) (a : Nat) : Bool :=
  a == R.CHG_FLT || a == R.REG_FLT || a == R.GBX_FLT || a == R.ACk_FLT (r.idx.headD 0)

/-- A read of a fault cause register returns its bits and clears them (R227, R254, R274, R284). -/
def State.causeRead (s : State) (a : Nat) : State :=
  match findReg a with
  | none => s.plainRead a
  | some r =>
    if s.regAbsent r || !faultCauseReg r a then s.plainRead a
    else (s.setReg a 0).respond (s.reg a).toNat

/-- FAULT_CAUSE_READ: CHG_FLT, REG_FLT, ACk_FLT or GBX_FLT. -/
def execFaultCauseRead (who : Requester) (addr : Nat) (s : State) : Out := .next (s.accessBy who addr false (s.causeRead addr))

/-- A read of a register that has a row of its own, as that row. Whether the random source is healthy is free here. -/
def rowRead (who : Requester) (r : RegAt) (a : Nat) (s : State) : Option Out :=
  let n := r.idx.headD 0
  if a = R.SYS_WERR_CODE then some (execSysWerrCodeRead who s)
  else if a = R.PST_MERR_CODE then some (execPstMerrCodeRead who s)
  else if a = R.PST_DLJ_LOST then some (execLostCountRead who 0 s)
  else if a = R.NVS_JLOST then some (execLostCountRead who 1 s)
  else if a = R.MEM_LASTINFO then some (execMemLastinfoRead who s)
  else if a = R.LDG_Pp_ELO n then some (execLdgNetRead who n s)
  else if a = R.LDG_KABLO then some (execKeepaliveBalanceRead who s)
  else if a = R.LDG_WQHI then some (execWithdrawalQueueRead who s)
  else if a = R.EVC_CLAIMt n then some (execEventClaim who n s)
  else if a = R.RNDr_RQHI r.inst then some (execRoundQueueRead who r.inst s)
  else if a = R.RNDr_URGRES r.inst then some (execUrgentResultRead who r.inst s)
  else if a = R.SEC_DBGCHALj 0 then some (execDebugChallengeRead who s)
  else if a = R.SEC_TRNG then
    let (x, s1) := s.draw
    some (execRandomWordRead who (x % 2 == 0) s1)
  else if faultCauseReg r a then some (execFaultCauseRead who a s)
  else none

/-- A register read by a requester. -/
def State.busRead (s : State) (who : Requester) (a : Nat) : State :=
  match findReg a with
  | none => s.accessBy who a false (s.plainRead a)
  | some r =>
    match rowRead who r a s with
    | some o => afterOut s o
    | none => s.accessBy who a false ((s.liveView a).plainRead a)

/-! ### WRITE and READ letters (R75) -/

/-- The block of a unit, for the units whose name is a block's (Tables PST-4, MEM-2): a channel has its
registers of ACT. -/
def unitBlock (u a : Nat) : Bool :=
  let within (base size : Nat) : Bool := base ≤ a && a < base + size
  if u = U.po then within 0x40060000 0x10000
  else if u = U.sec then within 0x403B0000 0x10000
  else if u = U.ssm then within 0x40030000 0x10000
  else if u = U.ldg then within 0x40070000 0x10000
  else if u = U.thm then within 0x40080000 0x10000
  else if u = U.nvs then within 0x40090000 0x10000
  else if u = U.rst then within 0x40010000 0x10000
  else if u = U.gbx then within 0x40210000 0x10000
  else if u = U.chg then within 0x40200000 0x10000
  else if u = U.reg then within 0x401F0000 0x10000
  else if 0x20 ≤ u ∧ u < 0x28 then within (0x40100000 + 0x10000 * (u - 0x20)) 0x10000
  else if 0x28 ≤ u ∧ u < 0x2C then within 0x401E0000 0x10000
  else if u = 0x2C ∨ u = 0x2D then within (0x401B0000 + 0x10000 * (u - 0x2C)) 0x10000
  else if u = U.pos then within 0x401D0000 0x10000
  else if u = U.sent then within 0x403A0000 0x10000
  else if 0x30 ≤ u ∧ u < 0x36 then within (0x40300000 + 0x10000 * (u - 0x30)) 0x10000
  else if u = 0x38 ∨ u = 0x39 then within (0x40380000 + 0x10000 * (u - 0x38)) 0x10000
  else false

/-- A letter accesses a register in the name of its pigeonhole's producer. -/
def State.sender (s : State) (m : Msg) : Requester :=
  match m.src with
  | .ph n => .letter (s.phProducer n)
  | .mgmt => .letter 0xFF

/-- A letter's access to a register leaves the bus answer alone. -/
def State.quiet (s : State) (t : State) : State := { t with resp := s.resp }

/-- The failing checks of a WRITE letter, in the order of R75: E_RANGE outside the unit's block, the checks of R8, then those of the state
of record. A converted letter passed the first two at its access. -/
def State.writeFails (s : State) (m : Msg) : List Status :=
  let a := m.addr
  let v := BitVec.ofNat 32 (m.u32 20)
  let access := m.src != .mgmt
  if access && !unitBlock m.unit a then [.eRange]
  else
    match convertedFe a with
    | some n =>
      match if access then regFirst (s.mapFails a v ++ s.feValueFails n a v.toNat) else none with
      | some st => [st]
      | none => s.feStateFails n a v.toNat
    | none =>
      let st := (s.busWrite (s.sender m) a v).resp.status
      if st.ok then [] else [st]

/-- The effect of an accepted WRITE letter. -/
def State.writeEffect (s : State) (m : Msg) : State :=
  let a := m.addr
  let v := BitVec.ofNat 32 (m.u32 20)
  match convertedFe a with
  | some _ => s.plainWrite a v
  | none => s.quiet (s.busWrite (s.sender m) a v)

/-- WRITE (R75). -/
def specWrite : LetterSpec where
  units _ u := unitKnown u
  legal _ := true
  used := [(16, 23)]
  fails s m := s.writeFails m
  run s m _ := doneWith (s.writeEffect m)

/-- READ (R75): the value in force at delivery; E_RANGE outside the unit's block. -/
def specRead : LetterSpec where
  units _ u := unitKnown u
  legal _ := true
  used := [(16, 19)]
  fails s m :=
    if !unitBlock m.unit m.addr then [.eRange]
    else
      let st := (s.busRead (s.sender m) m.addr).resp.status
      if st.ok then [] else [st]
  run s m _ :=
    let t := s.busRead (s.sender m) m.addr
    (s.quiet t, .done (leBytes 4 t.resp.data) none)

def execWrite (m : Msg) (s : State) : Out := .next (deliver specWrite s m)
def execRead (m : Msg) (s : State) : Out := .next (deliver specRead s m)

/-! ### Memory accesses (R442, R434) -/

/-- A misaligned access: an address-misaligned exception to a core, sberror 3 to the debug module. -/
def State.misaligned (s : State) (who : Requester) (a : MemOp) : State :=
  match who with
  | .letter _ => { s with resp := ⟨.eRange, 0⟩ }
  | .debug _ => { s with dbg := { s.dbg with sberror := 3 }, resp := ⟨.eRange, 0⟩ }
  | .core c =>
    match s.coreOfCode c with
    | some t => ({ s with resp := ⟨.eRange, 0⟩ }).raiseExc t (faultCode a true) a.addr
    | none => s

/-- The refusal of an access of another size than a word to a register block: E_ABSENT or E_LOCKED where the access to the word has it,
else E_FORMAT (R8). -/
def State.sizeRefusal (s : State) (who : Requester) (a : MemOp) : Status :=
  let w := a.addr / 4 * 4
  let v := BitVec.ofNat 32 (leNat ((putLe (leBytes 4 (s.readReg w).toNat) (a.addr % 4) a.size (leNat (a.data.take a.size))).take 4))
  let t := if a.store then s.busWrite who w v else s.busRead who w
  if s.spaceAbsent w then .eAbsent
  else if t.resp.status = .eAbsent ∨ t.resp.status = .eLocked then t.resp.status else .eFormat

/-- FENCE.I: the core invalidates its own instruction cache (R393). -/
def State.fenceI (s : State) : Requester → State
  | .core c => match s.coreOfCode c with
    | some t => s.updCore t fun x => { x with icache := [] }
    | none => s
  | _ => s

/-- An access by address: aligned, to a register block by register (32-bit words), else to memory; an instruction fetch from a register
block is refused with E_RANGE. -/
def State.busAccess (s : State) (who : Requester) (a : MemOp) : State :=
  match a.kind, s.barred who a.addr (if a.fetch then 2 else b2n a.store) with
  | .fenceI, _ => s.fenceI who
  | _, some x => x
  | _, none =>
  if a.size = 0 ∨ a.addr % a.size ≠ 0 then s.misaligned who a
  else if regionOf a.addr = .regs then
    if a.fetch || a.kind != .plain then s.accessFail who a .eRange true
    else if a.size ≠ 4 then s.accessFail who a (s.sizeRefusal who a) true
    else if a.store then s.busWrite who a.addr (BitVec.ofNat 32 (leNat (a.data.take 4)))
    else s.busRead who a.addr
  else
    match who with
    | .debug h =>
      if s.debugLocked then { s.refuse .eLocked a.addr with dbg := { s.dbg with active := true, hartsel := h, sberror := 7 } }
      else
        let t := s.memAccess who a
        { t with dbg := { t.dbg with active := true, hartsel := h, sberror := if regionOf a.addr = .tcm ∧ !s.runCores.contains h then 2 else t.dbg.sberror } }
    | _ => s.memAccess who a

/-- MEMORY_ACCESS (R4, R442, R446, R447). -/
def execMemoryAccess (who : Requester) (a : MemOp) (s : State) : Out := .next (s.busAccess who a)

/-- DEBUG_SYSTEM_BUS_ACCESS (R433, R434): a 32-bit access by the debug module with hartsel. -/
def execDebugSystemBusAccess (hart : Nat) (a : MemOp) (s : State) : Out :=
  .next ((s.selectHart hart).busAccess (.debug hart) { a with size := 4, fetch := false })

/-! ### ABORT (R90) -/

/-- The slot and letter of a pending letter of pigeonhole p with a sequence number. -/
def State.pendingLetter (s : State) (p seq : Nat) : Option (Nat × Letter × Bool) :=
  (List.range (s.phCount p)).findSome? fun i =>
    let k := s.phSlot p (s.phHead p + i)
    match s.slot k with
    | .letter l marked => if l.seq = seq then some (k, l, marked) else none
    | _ => none

/-- The outstanding operation that a letter of pigeonhole p with a sequence number opened. -/
def State.outstanding (s : State) (p seq : Nat) : Option (Nat × OpEntry) :=
  s.po.ops.find? fun x => x.2.src == .ph p && x.2.seq == seq

/-- A check's end by an abort or a deadline: the running check is dropped, its result with it. -/
def State.dropCheck (s : State) (firmware : Bool) (key : Nat) : State :=
  let s1 : State := if firmware then { s with fcheck := ⟨none, false, [], 0⟩ } else { s with icheck := ⟨none, false, [], 0⟩ }
  s1.hwFinish key .eAborted []

/-- An urgent request's end by an abort: a queued one is removed, one under conversion is not delivered to the letter. -/
def State.dropUrgent (s : State) (r key : Nat) : State :=
  ((s.updRd r fun x => { x with urgent := x.urgent.filter fun u => u.op != some key,
                                 active := x.active.map fun u => if u.op = some key then { u with op := none } else u }).syncRnd r).hwFinish key .eAborted []

/-- An abort of RND_HALT (Table SEN-7): the sequence continues, every entry under a fresh watch. -/
def State.haltAborted (s : State) (r key : Nat) : State :=
  if s.ust (U.rnd r) = .stopping then
    (((s.setUst (U.rnd r) .running).updRd r fun x => { x with running := true }).startWatch r).hwFinish key .eAborted []
  else s

/-- Stop the operation of an outstanding entry as its unit's chapter states (R89, R90): a start turns into a stop, a stop into a return
to RUNNING, a check is dropped. An operation whose chapter states no stop continues to its own end. -/
def State.stopOp (s : State) (key : Nat) (e : OpEntry) : State :=
  let u := e.unit
  let f := u - 0x10
  let st := s.ust u
  match e.opcode with
  | 0x0302 => s.haltAborted (u - 0x2C) key
  | 0x0303 => if (s.rd (u - 0x2C)).urgent.any (fun x => x.op == some key) then s.dropUrgent (u - 0x2C) key else s
  | 0x0402 => if st = .running then s.fnEnter f .stopping else s
  | 0x0404 => if st = .stopping then ((s.fnEnter f .running).updTr f fun t => { t with torque := 0 }).hwFinish key .eAborted [] else s
  | 0x0502 => if st = .running then s.chgEnd 8 else s
  | 0x0602 => if st = .running then s.regStop else s
  | 0x0603 => if st = .stopping then s.regRun.hwFinish key .eAborted [] else s
  | 0x0612 => if st = .running then s.hlvStop f else s
  | 0x0614 => if st = .stopping then (s.hlvStart f).hwFinish key .eAborted [] else s
  | 0x0802 => if st = .running then (s.setUst u .stopping).acStop (u - 0x28) else s
  | 0x0903 => s.gbxAbort
  | 0x0904 => s.gbxAbort
  | 0x0905 => s.gbxAbort
  | 0x0A02 => s.dropCheck false key
  | 0x0A12 => s.dropCheck true key
  | _ => s

/-- An outstanding operation is being stopped: marked, and stopped unless its end is already recorded. -/
def State.stopEntry (s : State) (key : Nat) (e : OpEntry) (why : StopKind) : State :=
  let s1 := s.markStop key why
  if s.po.hw.any (HwEvent.ends key) then s1 else s1.stopOp key e

/-- What an ABORT finds (Table PST-7). -/
inductive AbortCase where
  | refused (st : Status)
  | pending (slot : Nat) (l : Letter)
  | running (key : Nat) (e : OpEntry)
  deriving DecidableEq, Repr

/-- The row of Table PST-7 that an ABORT falls under. DESIGN CHOICE (log 199): a SEQ is after PHn_SEQ by the half range of R81. -/
def State.abortCase (s : State) (m : Msg) : AbortCase :=
  let p := m.u8 16
  let seq := m.u32 20
  let mine : Bool := match m.src with | .ph n => s.phProducer n == s.phProducer p | .mgmt => false
  if !s.phEn p || s.phIsReceipt p then .refused .eRange
  else if !mine then .refused .eState
  else if pmBefore (s.reg (R.PHn_SEQ p)).toNat seq then .refused .eRange
  else match s.pendingLetter p seq with
    | some (k, l, marked) => if marked then .refused .eState else .pending k l
    | none =>
      match s.outstanding p seq with
      | some (key, e) => if e.stop = .none then .running key e else .refused .eState
      | none => .refused .eTooLate

/-- ABORT (R75, R90). -/
def specAbort : LetterSpec where
  units _ u := u == U.po
  legal _ := true
  used := [(16, 16), (20, 23)]
  fails s m := match s.abortCase m with | .refused st => [st] | _ => []
  run s m _ :=
    match s.abortCase m with
    | .pending k l => doneWith (s.setSlot k (.letter l true))
    | .running key e => doneWith (s.stopEntry key e .abort)
    | .refused _ => doneWith s

def execAbort (m : Msg) (s : State) : Out := .next (deliver specAbort s m)

/-- OPERATION_DEADLINE_PASSED (R89): boundary DEADLINE + 1 is reached and the operation has not completed: it is stopped as for an
abort, and its final receipt carries E_DEADLINE. Log 255. -/
def execOperationDeadlinePassed (key : Nat) (s : State) : Out :=
  .next <|
    match s.po.ops.find? fun p => p.1 == key with
    | none => s
    | some (_, e) =>
      if s.atBoundary ∧ e.deadline ≠ 0 ∧ pmBefore e.deadline s.pm ∧ e.stop = .none ∧ !s.po.hw.any (HwEvent.ends key) then s.stopEntry key e .deadline
      else s

end Sys2Proof.Machine
end

