-- ==== Sys2Proof/Machine/Collection.lean ====
section
/-!
DEFINITION. The collection (R94, Table PST-9): the record of every unit as its chapter lays it out, and the latch at a boundary.
Choices of the model: log 128, 137, 138, 139, 141, 143.
-/
namespace Sys2Proof.Machine

/-! ### Fields of a record: an offset and the bytes there; what is not listed reads zero -/

/-- Signed 32 bits, saturated. -/
def i32 (v : Int) : List Byte := leBytes 4 (ofSigned 32 (satS 32 v))
/-- A value in Q16.16. -/
def q16 (x : Rat) : List Byte := i32 (quant 16 x)
/-- A value rounded to a whole number. -/
def whole (x : Rat) : List Byte := i32 (quant 0 x)
def b1 (v : Nat) : List Byte := leBytes 1 v
def b4 (v : Nat) : List Byte := leBytes 4 v
def b8 (v : Nat) : List Byte := leBytes 8 v
/-- A d and q pair in Q5.27. -/
def pair27 (v : Int × Int) : List Byte := i32 v.1 ++ i32 v.2
def State.word (s : State) (a : Nat) : List Byte := b4 (s.readReg a).toNat

/-- A record's fields in order of their offsets, each at its offset, padded with zeros to a size. -/
def layOut (size : Nat) (l : List (Nat × List Byte)) : List Byte :=
  padTo size (l.foldl (fun b x => padTo x.1 b ++ x.2) [])

/-- The lowest cause of a mask, 0 for none. -/
def lowCause (m : Nat) : Nat := match (List.range 16).find? (bitAt m) with | some i => i + 1 | none => 0

/-- Seconds of a time in ns. -/
def secs (ns : Nat) : Nat := ns / 1000000000

/-! ### Engines and functions -/

/-- An engine's record (R121, Table FE-12). -/
def State.recFe (s : State) (n : Nat) : List Byte :=
  let e := s.e n
  let t := if s.ust (U.fe n) = .off then 0 else s.tmpl n
  let seen (f : Fld) (i : Nat) : Nat := b2n (bitAt e.seenFlags f.lo) * 2 ^ i
  let xy := if t = 4 then (s.e ((s.pairEngines n).getD 1 n)).i else if t = 2 ∧ s.isPartner n then e.i else (0, 0)
  layOut 128
    [(0, b1 (s.ust (U.fe n)).code), (1, b1 t), (2, b1 (s.fld (R.FEn_STATE n) F.FEn_STATE_FUNCTION)),
     (3, b1 (seen F.FEn_EVT_VLIM 0 + seen F.FEn_EVT_ACLAMP 1 + seen F.FEn_EVT_TCLAMP 2 + seen F.FEn_EVT_HSAT 3 + seen F.FEn_EVT_GRID 4)),
     (4, b4 e.ang), (8, i32 e.spd), (12, pair27 e.i), (20, pair27 e.ir), (28, pair27 e.v), (36, b4 (s.factors n)), (40, i32 e.power),
     (44, i32 e.vdc), (48, pair27 xy), (56, b8 e.sampleAt), (64, b4 e.serr), (68, b4 e.late), (72, b4 e.wdraw)]

/-- The safe pattern byte of a function's record (Tables TRA-9, LV-5). -/
def State.patByte (s : State) (f : Nat) : Nat :=
  let p := s.ssmPat f
  match s.fnRole f with
  | 1 => p
  | 6 => if p = 4 then 4 else if p = 1 then 5 else 0
  | _ => if p = 0 then 0 else 1

/-- A traction or chopper function's record (R205, Table TRA-9). -/
def State.recTra (s : State) (f : Nat) : List Byte :=
  let t := s.tr f
  let k := s.linkOf f
  let tra := s.fnRole f = 1
  layOut 256
    [(0, b1 (s.ust (U.fn f)).code), (1, b1 (s.fnRole f)), (2, b1 k), (3, b1 (t.flags % 16 + b2n t.pref * 16 + t.flags / 32 * 32)),
     (4, b1 t.phase), (5, b1 t.cause), (6, b1 t.badPos), (7, b1 (s.patByte f)), (8, i32 t.torque), (12, i32 t.tEff),
     (16, if tra then q16 (s.machRpm f) else b4 0), (20, q16 (s.linkVolts k)), (24, s.word (R.LDG_EDf f)), (28, s.word (R.LDG_ERf f)),
     (32, leBytes 2 (min (s.lnk k).k.toNat 0x7FFF)), (34, leBytes 2 (min (quant 15 ((t.duty : Rat) / 65536)).toNat 0x7FFF)),
     (36, if tra then b4 0 else i32 (s.lnk k).dump), (40, whole ((t.energy : Rat) / 1000)), (44, i32 t.lastE),
     (48, b8 (if tra then (s.e (s.fnEngine f)).updAt else t.lastAt))]

/-- An HLV function's record (R241, Table LV-5). -/
def State.recHlv (s : State) (f : Nat) : List Byte :=
  let t := s.tr f
  let n := s.dabEngine f
  layOut 256
    [(0, b1 (s.ust (U.fn f)).code), (1, b1 5), (2, b1 (s.linkOf f)), (3, b1 (t.flags % 16)), (5, b1 t.cause), (6, b1 t.badPos),
     (7, b1 (s.patByte f)), (8, i32 (s.hl f).target), (12, q16 (s.hlvV1 f)), (16, q16 (s.hlvV2 f)), (20, q16 (s.hlvI2 f)),
     (24, whole (of27 (s.e n).ir.1 * s.vBase n * s.iBase n)), (28, s.word (R.LDG_EDf f)), (32, i32 (s.hl f).ffTerm), (36, b8 (s.e n).updAt)]

/-- The record of function f: traction, chopper and HLV functions have one. -/
def State.recFn (s : State) (f : Nat) : List Byte :=
  match s.fnRole f with
  | 1 => s.recTra f
  | 6 => s.recTra f
  | 5 => s.recHlv f
  | _ => []

/-! ### Actuators, sequencer, charger, regulator -/

/-- An actuator channel's record (Table ACT-10). -/
def State.recAc (s : State) (k : Nat) : List Byte :=
  let a := s.ac k
  let iq : Rat := (s.sfld (R.ACk_I k) F.ACk_I_IQ : Rat) / 10
  layOut 128
    [(0, b1 (s.ust (U.ac k)).code), (1, b1 (s.fld (R.ACk_STATE k) F.ACk_STATE_PHASE)), (2, b1 (s.fld (R.ACk_STATE k) F.ACk_STATE_ATTEMPT)),
     (3, b1 a.flags), (4, b1 (s.fld (R.ACk_STATE k) F.ACk_STATE_CAUSE)), (5, b1 a.badPos), (6, b1 (b2n (s.acOwned k))),
     (8, i32 (s.sfld (R.ACk_SPD k) F.ACk_SPD_SET)), (12, i32 (s.sfld (R.ACk_SPD k) F.ACk_SPD_SPEED)), (16, q16 iq),
     (20, q16 ((s.fld R.ACT_VACT F.ACT_VACT_MV : Rat) / 1000)), (24, leBytes 4 (Config.actPower (s.fld R.ACT_VACT F.ACT_VACT_MV) (s.sfld (R.ACk_I k) F.ACk_I_IQ) (s.sfld (R.ACk_SPD k) F.ACk_SPD_SPEED) a.duty).toNat), (28, b4 a.refreshes), (32, b8 a.lastAt)]

/-- The sequencer's record (Table GBX-7). N_SYNC is 0 where no shift or clutch operation runs. -/
def State.recGbx (s : State) : List Byte :=
  let op := s.gbxOp
  let g := s.gbx
  layOut 256
    [(0, b1 (s.ust U.gbx).code), (1, b1 op), (2, b1 s.gbxPhase), (3, b1 (s.gbxReport 0)), (4, b1 (s.gbxReport 1)), (5, b1 (s.gbxReport 2)),
     (6, b1 (lowCause g.recorded)), (7, b1 g.retries), (8, leBytes 2 (s.gbxPos 0)), (10, leBytes 2 (s.gbxPos 1)), (12, leBytes 2 (s.gbxPos 2)),
     (16, q16 s.outRpm), (20, if op = 1 ∨ op = 3 then q16 s.nSync else b4 0), (24, i32 (s.gbxTs (s.fld R.GBX_CFG F.GBX_CFG_FUNCA))),
     (28, i32 (s.gbxTs (s.fld R.GBX_CFG F.GBX_CFG_FUNCB))), (32, b4 (if op = 0 then 0 else (s.time - g.started) / 1000)), (36, b8 g.reportAt)]

/-- The rotor watch's deviation in a WIND session (Table CHG-12). -/
def State.rotorDev (s : State) : Int :=
  match s.windLive, s.frontEngines with
  | true, n :: _ => angDiff (s.reg (R.POSk_ANG (s.posSource n))).toNat (s.e n).rotor
  | _, _ => 0

/-- The charger's record (Table CHG-12). -/
def State.recChg (s : State) : List Byte :=
  let c := s.chg
  let none_ := s.chgPhase = 0
  let v2 := s.chgV2
  let i2 := s.chgI2
  let spent := if c.started = 0 then 0 else if none_ ∨ c.reason ≠ 0 then c.ended - c.started else s.time - c.started
  layOut 512
    [(0, b1 (s.ust U.chg).code), (1, b1 s.chgPhase), (2, b1 (if none_ then 0xFF else s.chgMode)),
     (3, b1 (if none_ then 0xFF else s.fld R.CHG_STATE F.CHG_STATE_FRONT - 1)), (4, b1 (s.pilotClass + b2n s.pilotOsc * 128)), (5, b1 s.ppCode),
     (6, leBytes 2 (s.fld R.CHG_PILOT F.CHG_PILOT_DUTY)), (8, i32 s.inLimit.1),
     (12, b1 (s.fld R.CHG_ILIM F.CHG_ILIM_SRC)), (13, b1 c.reason), (14, b1 (lowCause c.epoch)), (15, b1 c.flags), (16, q16 s.gridVolts),
     (20, i32 c.gridI), (24, i32 (s.e (s.frontEngines.headD 8)).pllHz), (28, q16 s.chgBus), (32, q16 v2), (36, q16 i2), (40, whole (v2 * i2)),
     (44, b4 (secs c.ccNs)), (48, b4 (secs spent)), (52, b8 (ofSigned 64 (c.energy / 1000))), (60, i32 s.rotorDev), (64, b8 (if s.chgDab < 16 then (s.e s.chgDabN).updAt else 0))]

/-- The regulator's record (Table LV-12). -/
def State.recReg (s : State) : List Byte :=
  let r := s.rgl
  let vos : Rat := (s.regVos : Rat) / 1000
  let iout : Rat := (s.regIout : Rat) / 10
  let mean (n : Nat) : Int := if r.span = 0 then s.regCur n else quant 0 (((FMap.get (fun _ => 0) r.sums n : Int) : Rat) / (r.span : Rat))
  layOut 256
    [(0, b1 (s.ust U.reg).code), (1, b1 s.regPhase), (2, b1 s.regActive), (3, b1 s.regUsed), (4, b1 (lowCause r.epoch)), (5, b1 r.flags),
     (6, b1 (s.fld R.REG_LIM F.REG_LIM_FAILS)), (8, if s.regPhase = 0 then b4 0 else q16 (s.regVtl / 1000000)), (12, q16 vos), (16, q16 iout),
     (20, q16 ((s.regVinNow : Rat) / 100)), (24, whole (vos * iout)), (28, i32 s.ldg.regulator),
     (32, (List.range 8).flatMap fun n => leBytes 2 (ofSigned 16 (satS 16 (mean n)))),
     (48, (List.range 8).flatMap fun n => leBytes 2 (ofSigned 16 (s.sfld (R.REG_PHn n) F.REG_PHn_TRIM))), (64, b4 r.restores), (68, b8 r.balAt)]

/-! ### Safe-state manager, reset controller, ledger, thermal unit -/

/-- The SSM's and the reset controller's record (R341, R367). -/
def State.recSsm (s : State) : List Byte :=
  layOut 256
    [(0, b1 (s.ust U.ssm).code), (1, b1 (b2n s.safeHeld + b2n s.faultNLow * 2 + b2n s.safeNLow * 4)),
     (2, leBytes 2 (s.fld R.SSM_CAUSE F.SSM_CAUSE_ACTIVE)), (4, s.word R.SSM_LASTF), (8, leBytes 2 (s.fld R.SSM_ASC F.SSM_ASC_PREF)),
     (10, b1 s.hbAge), (12, s.word R.SSM_PAT0), (16, s.word R.SSM_PAT1), (20, s.word R.SSM_PATX), (24, s.word R.SSM_OTEST),
     (28, s.word R.LSC_STAT), (32, b4 s.ssm.wdWarned), (64, s.word R.RST_CAUSE), (68, s.word R.RST_START), (72, s.word R.RST_WAKE),
     (76, s.word R.RST_OPTIME), (80, s.word R.RST_PEND), (84, b1 (s.fld R.RST_STATE F.RST_STATE_PHASE)), (85, b1 s.rst.pairEpoch)]

/-- Byte 2 of a port's LEDGER record. -/
def State.portByte2 (s : State) (p : Nat) : Nat :=
  s.withImg 0 fun im => match im.ledger.find? fun r => rf r 0 1 == p with | some r => rf r 2 1 | none => 0

/-- An accumulator in µJ, rounded towards minus infinity (R294). -/
def microJ (nj : Int) : List Byte := b8 (ofSigned 64 (nj / 1000))

/-- A port's record. -/
def State.recPort (s : State) (p : Nat) : List Byte :=
  if s.portKind p = 0 then List.replicate 32 0
  else
    let x := s.prt p
    layOut 32 [(0, b1 (s.portKind p)), (1, b1 ((s.portLink p).getD 0xFF)), (2, b1 (s.portByte2 p)), (4, whole ((x.power : Rat) / 1000)),
      (8, microJ x.net), (16, microJ x.draw), (24, microJ x.ret)]

/-- A link's record. -/
def State.recLink (s : State) (k : Nat) : List Byte :=
  let l := s.lnk k
  layOut 32 [(4, s.word (R.LDG_NRESk k)), (8, whole (s.linkPre k).1), (12, whole (s.linkPre k).2), (16, i32 l.dis), (20, i32 l.chg),
    (24, whole ((l.allowance : Rat) / 1000000000)), (28, i32 l.dump)]

/-- A function's envelopes and demand. -/
def State.recPlan (s : State) (f : Nat) : List Byte :=
  layOut 16 [(0, s.word (R.LDG_EDf f)), (4, s.word (R.LDG_ERf f)), (8, i32 (s.fp f).demand),
    (12, b1 (b2n (s.ldg.holes.any fun h => h.fn == f) + b2n (s.fp f).limited * 2))]

/-- The ledger's area (Table LDG-7). -/
def State.recLdg (s : State) : List Byte :=
  layOut 1024
    [(0, b4 s.ldg.rounds),
     (4, b1 (s.fld R.LDG_STATE F.LDG_STATE_STALE + s.fld R.LDG_STATE F.LDG_STATE_FALLBACK * 2 + s.fld R.LDG_IMB F.LDG_IMB_LINK * 4)),
     (8, i32 (if s.chgMode = 0 then s.ldg.charger else s.ldg.chargerDis)), (12, i32 s.ldg.regulator), (16, b8 (ofSigned 64 s.kaBalance)), (24, b8 s.ldg.latchedAt),
     (64, (List.range 12).flatMap s.recPort), (448, (List.range 4).flatMap s.recLink), (576, (List.range 16).flatMap s.recPlan)]

/-- The thermal unit's record (R387). -/
def State.recThm (s : State) : List Byte :=
  let st (f : Fld) : Nat := s.fld R.THM_STATE f
  layOut 256
    [(0, b1 (s.ust U.thm).code), (1, b1 (st F.THM_STATE_LEVEL)),
     (2, b1 (st F.THM_STATE_FAST + st F.THM_STATE_MRAMWIN * 2 + st F.THM_STATE_COLD * 4 + b2n (st F.THM_STATE_BROKEN != 0) * 8 + b2n (s.thm.rails != 0) * 16)),
     (4, (List.range 8).flatMap fun i => leBytes 2 (s.fld (R.THM_TEMPs i) F.THM_TEMPs_TEMP)), (20, b1 (st F.THM_STATE_BROKEN)), (21, b1 s.thm.hot),
     (24, (List.range 8).flatMap fun r => leBytes 2 (s.fld (R.THM_SUPr r) F.THM_SUPr_MV)), (40, b1 s.thm.rails), (44, s.word R.CLK_LAST),
     (48, b8 s.thm.at_)]

/-! ### Sensing and networks -/

/-- The latest results of both round converters (R181). -/
def State.recRnd (s : State) : List Byte :=
  (List.range 2).flatMap fun r => (List.range 48).flatMap fun c => padTo 8 (FMap.get (fun _ => []) (s.rd r).latest c)

/-- The position and SENT area (R181). -/
def State.recPos (s : State) : List Byte :=
  ((List.range 4).flatMap fun k =>
    layOut 32 [(0, b1 (s.fld (R.POSk_STAT k) F.POSk_STAT_VALID + s.fld (R.POSk_STAT k) F.POSk_STAT_LOCK * 2)), (1, b1 (s.ps k).epochFlags),
      (4, s.word (R.POSk_ANG k)), (8, s.word (R.POSk_SPD k)), (16, b8 (s.ps k).at_)])
  ++ (List.range 4).flatMap fun i =>
    layOut 32 [(0, b1 (b2n (s.sn i).valid)), (1, b1 (s.sn i).epochFlags), (4, s.word (R.SENTi_FAST i)), (8, s.word (R.SENTi_SLOW i)),
      (12, b4 (s.sn i).frames), (16, b8 (s.sn i).at_)]

/-- The network area (R439). -/
def State.recNet (s : State) : List Byte :=
  layOut 512
    [(0, (List.range 6).flatMap fun n =>
        let c := s.cn n
        layOut 32 [(0, b1 (s.ust (U.can n)).code), (1, b1 (s.fld (R.CANn_STATE n) F.CANn_STATE_CONF)), (2, b1 (satU 8 c.tec)), (3, b1 (satU 8 c.rxc)),
          (4, b4 c.received), (8, b4 c.sent), (12, b4 c.discarded), (16, b4 c.dropped)]),
     (192, (List.range 2).flatMap fun p =>
        let e := s.et p
        let f (x : Fld) : Nat := s.fld (R.ETHp_STATE p) x
        layOut 64 [(0, b1 (s.ust (U.eth p)).code), (1, b1 (f F.ETHp_STATE_LINK + f F.ETHp_STATE_SYNCED * 2 + f F.ETHp_STATE_MERGED * 4)),
          (4, s.word (R.ETHp_OFFS p)), (8, s.word (R.ETHp_RATE p)), (12, b4 e.received), (16, b4 e.sent), (20, b4 e.discarded), (24, b4 e.msDrop),
          (28, b4 e.dups)]),
     (320, layOut 8 [(0, b1 (s.ust U.sec).code), (1, b1 s.debugLock), (4, b4 s.aon.session)])]

/-! ### The whole buffer (Table PST-9) -/

/-- The header but for the head postmark. -/
def State.recHead (s : State) : List Byte :=
  let slot := s.imgSlot
  let synced := (List.range 2).any fun p => s.flag (R.ETHp_STATE p) F.ETHp_STATE_SYNCED
  layOut 64
    [(0, b4 s.pm), (4, b4 (b2n s.fallback + slot * 2 + b2n synced * 4)), (8, b8 s.time), (16, b4 (s.fld R.PST_EPOCH F.PST_EPOCH_PERIOD)),
     (20, b4 (s.withImg 0 fun im => im.serial)), (24, leBytes 2 s.opCount)]

/-- A pigeonhole's eight bytes. -/
def State.recPh (s : State) (n : Nat) : List Byte :=
  leBytes 2 (s.phHead n) ++ leBytes 2 (s.phTail n) ++ leBytes 2 (s.pigeon n).delivered ++ b1 (s.fld (R.PHn_STAT n) ⟨10, 8⟩) ++ [0]

/-- Records of absent units read zero. -/
def State.ifThere (s : State) (u size : Nat) (b : List Byte) : List Byte := if s.ust u = .absent then List.replicate size 0 else padTo size b

/-- The contents of a buffer, by offset. -/
def State.collection (s : State) : List (Nat × List Byte) :=
  [(0, s.recHead), (0x40, (List.range 256).map fun u => BitVec.ofNat 8 (if unitKnown u then (s.ust u).code else 0)),
   (0x140, (List.range 64).flatMap s.recPh), (0x400, (List.range 16).flatMap fun f => padTo 256 (s.recFn f)),
   (0x1400, (List.range 8).flatMap fun n => s.ifThere (U.fe n) 128 (s.recFe n)),
   (0x1800, (List.range 4).flatMap fun k => s.ifThere (U.ac k) 128 (s.recAc k)), (0x1A00, s.recGbx), (0x1B00, s.ifThere U.chg 512 s.recChg),
   (0x1D00, s.recReg), (0x1E00, s.recSsm), (0x1F00, s.recLdg), (0x2300, s.recThm), (0x2400, s.recRnd), (0x2700, s.recPos), (0x2800, s.recNet),
   (0x3FF8, b4 s.pm)]

/-- Bytes at an offset as map entries: those that are not zero. -/
def entriesAt (off : Nat) (b : List Byte) : FMap Byte :=
  ((List.range b.length).zip b).filterMap fun p => if p.2 = 0 then none else some (off + p.1, p.2)

/-- Latch collection n into buffer n mod 2, then COLL_LATEST (R94). Publication is whole within the boundary. -/
def State.latchCollection (s : State) : State :=
  let base := s.pm % 2 * 0x4000
  let new := s.collection.flatMap fun x => entriesAt (base + x.1) x.2
  let old := s.po.coll
  let both := old.filter (fun p => p.1 < base) ++ new ++ old.filter (fun p => decide (base + 0x4000 ≤ p.1) && decide (p.1 < 0x8000))
  { s with po := { s.po with coll := both ++ entriesAt 0x8000 (b4 s.pm) } }

end Sys2Proof.Machine
end

