-- ==== Sys2Proof/Machine/Boundary.lean ====
section
/-!
DEFINITION. The epoch boundary (R81 to R85): hardware transitions, final receipts and starts of step 1, the collection of step 2, the
deliveries of step 3.
Choices of the model: log 125, 136, 142, 144, 146, 148, 149.
-/
namespace Sys2Proof.Machine

/-! ### Latches of the epoch (R142, R143) -/

/-- The distance of two latches in time. -/
def latchDist (a b : LatchRec) : Nat := if a.time < b.time then b.time - a.time else a.time - b.time

/-- Earlier in time of record, then by leg. -/
def latchBefore (a b : LatchRec) : Bool := a.time < b.time || (a.time == b.time && a.leg < b.leg)

/-- A list of latches with one more at its place. -/
def insertLatch (x : LatchRec) : List LatchRec → List LatchRec
  | [] => [x]
  | y :: t => if latchBefore y x then y :: insertLatch x t else x :: y :: t

/-- The nearest other latch within 1 µs; of two at equal distance the earlier. -/
def partnerLatch (x : LatchRec) (l : List LatchRec) : Option LatchRec :=
  (l.filter fun y => y != x && decide (latchDist x y ≤ 1000)).foldl (fun best y =>
    match best with
    | none => some y
    | some b =>
      if latchDist x y < latchDist x b ∨ (latchDist x y = latchDist x b ∧ latchBefore y b) then some y else some b) none

/-- The class of a latch (R143): 0 SINGLE, 1 BRIDGE, 2 LINK, 3 SEPARATE. -/
def State.latchClass (s : State) (x : LatchRec) : Option LatchRec → Nat
  | none => 0
  | some y =>
    let f (n : Nat) : Nat := s.fld (R.MOD_LCFGn n) F.MOD_LCFGn_FUNC
    if f x.leg = f y.leg then 1 else if s.linkOf (f x.leg) = s.linkOf (f y.leg) then 2 else 3

/-- Table MOD-6. -/
def State.latchBytes (s : State) (x : LatchRec) (p : Option LatchRec) : List Byte :=
  let f := s.fld (R.MOD_LCFGn x.leg) F.MOD_LCFGn_FUNC
  b1 x.leg ++ b1 f ++ b1 x.cause ++ b1 (s.latchClass x p) ++ b1 (match p with | some y => y.leg | none => 0xFF)
    ++ b1 x.band ++ b1 (s.linkOf f) ++ [0] ++ b8 x.time ++ b4 s.pm

/-- The latches of the ended epoch are journalled in time order and become those of the epoch before; a BRIDGE or a LINK is counted. -/
def State.journalLatches (s : State) : State :=
  let all := s.mdl.latches ++ s.mdl.before
  let s1 := s.each (s.mdl.latches.foldr insertLatch []) fun s x =>
    let p := partnerLatch x (all)
    let c := s.latchClass x p
    let s' := s.journal 2 (s.latchBytes x p)
    if c = 1 ∨ c = 2 then s'.incSat R.MOD_STAT F.MOD_STAT_SHOOT else s'
  { s1 with mdl := { s1.mdl with before := s1.mdl.latches, latches := [] } }

/-! ### Causes that the boundary itself finds -/

/-- ARMED, RUNNING or STOPPING when the device-wide safe state was entered: FAULT with cause SSM (R330); the sequencer from IDLE too (Table
GBX-5). -/
def State.ssmFaults (s : State) : State :=
  if !s.ssm.entered then s
  else
    let s1 := s.each ((s.functions).filter fun f => [1, 5, 6].contains (s.fnRole f) && (s.ust (U.fn f)).active) fun s f => (s.fnRecord f 12 0xFF).sendFrame 3 f 12
    let s2 := if (s1.ust U.chg).active then s1.chgFail 16 else s1
    let s3 := if (s2.ust U.reg).active then s2.regFail 6 else s2
    let s4 := s3.each ((List.range 4).filter fun k => (s3.ust (U.ac k)).active) fun s k => s.actFail k 8 0xFF
    if (s4.ust U.gbx).live then s4.gbxFail 4 else s4

/-- A crowbar latched before the start takes the regulator from its start state to FAULT with OV (R251). -/
def State.crowbarFault (s : State) : State :=
  if s.rst.unitsOut && s.pads.crowbar && s.withImg false (fun im => im.startUnits.contains U.reg) then
    (s.regCause 1).hwFault U.reg
  else s

/-! ### Hardware transitions (R32, R33, R89) -/

/-- A unit takes a state of record: functions take their engines along, a traction function loses its torque of record on entry to IDLE or
FAULT (R187). A start state is taken from OFF by the unit alone. -/
def State.enter (s : State) (u : Nat) (st : UState) : State :=
  if s.ust u = .off then s.setUst u st
  else if isFn u then
    let s1 := s.fnEnter (u - 0x10) st
    if st = .running ∨ st = .stopping then s1
    else s1.updTr (u - 0x10) fun t =>
      { t with torque := if st = .armed then t.torque else 0, tEff := if st = .fault then t.tEff else 0, phase := 0, duty := 0,
               sensorless := false }
  else if 0x20 ≤ u && u < 0x28 then s.engineEnter (u - 0x20) st
  else s.setUst u st

/-- A unit enters FAULT; its outstanding operations end with E_FAULT, a charging session with its result (R226). -/
def State.faultUnit (s : State) (u : Nat) : State :=
  if u = U.chg then
    let s1 := match s.findOp U.chg 0x0502 with | some (k, _) => finalReceipt s k .eFault s.chgResult | none => s
    endOpsOf ((s1.setUst U.chg .fault).chgSetPhase 0) U.chg .eFault
  else if u = U.reg then endOpsOf s.regEnterFault u .eFault
  else if u = U.gbx then
    let s1 := match s.findOp u (gbxOpcode s.gbxOp) with | some (k, _) => finalReceipt s k .eFault s.gbxResult | none => s
    endOpsOf (((s1.setUst u .fault).setFld R.GBX_STATE F.GBX_STATE_OP 0).setFld R.GBX_STATE F.GBX_STATE_PHASE 0) u .eFault
  else endOpsOf (s.enter u .fault) u .eFault

/-- The causes of an epoch, in code order. -/
def causesOf (m : Nat) : List Nat := ((List.range 16).filter (bitAt m)).map (· + 1)

/-- Type 4 entries of a faulted function: its cause and record (R202, R239). -/
def State.journalFn (s : State) (u : Nat) : State :=
  if isFn u && [1, 5, 6].contains (s.fnRole (u - 0x10)) then s.journalFault u (s.tr (u - 0x10)).cause (s.recFn (u - 0x10)) else s

/-- Type 4 entries of the charger, the regulator and the channels: every cause that arose in the epoch (R227, R254, R274). -/
def State.journalCauses (s : State) : State :=
  let s1 := s.each (causesOf s.chg.epoch) fun s c => s.journalFault U.chg c s.recChg
  let s2 := s1.each (causesOf s.rgl.epoch) fun s c => s.journalFault U.reg c s.recReg
  s2.each (List.range 4) fun s k => s.each (causesOf (s.ac k).epoch) fun s c => s.journalFault (U.ac k) c (s.recAc k)

/-- Do something as of another postmark. -/
def State.asOf (s : State) (pm : Word) (f : State → State) : State :=
  let now := s.reg R.PST_PM
  (f (s.setReg R.PST_PM pm)).setReg R.PST_PM now

/-- Apply the transitions of the ended epoch, whose postmark was `old`: faults, final receipts, completions. A unit that faults takes no
completion. -/
def State.applyHw (s : State) (old : Word) : State :=
  let l := s.po.hw
  let faults := l.filterMap fun e => match e with | .fault u => some u | _ => none
  let s1 := State.each { s with po := { s.po with hw := [] } } faults State.faultUnit
  let s2 := s1.asOf old fun s => (s.each faults State.journalFn).journalCauses
  s2.each l fun s e => match e with
    | .fault _ => s
    | .finish k st res => finalReceipt s k st res
    | .move u froms dst => if faults.contains u || !froms.contains (s.ust u) then s else s.enter u dst

/-! ### Unit resets, start states, Operational (R357, R364, R365) -/

/-- The UNITS record of a unit that has a start state. -/
def State.unitsRec (s : State) (u : Nat) : Option (List Byte) := s.withImg none fun im => im.units.find? fun r => recUnit r == some u

/-- A unit reset is complete: the unit takes its start state unless it is in FAULT, and its auto-run is due; in poste restante mode the two
ports stand in IDLE. -/
def State.unitBack (s : State) (u : Nat) : State :=
  let idle := match s.unitsRec u with
    | some r => rf r 2 1 == 1
    | none => s.img.isNone && s.flag R.RST_START F.RST_START_PR && (u == U.can 0 || u == U.eth 0)
  let s1 := if s.ust u = .fault then s else s.setUst u (if idle then .idle else .off)
  { s1.setFlag R.RST_EVT F.RST_EVT_UNITRST with rst := { s1.rst with autoDue := s1.rst.autoDue ++ [u] } }

/-- Units that need no image are RUNNING from the first boundary after their reset (R337, R364, R432); cores follow their pairs. -/
def State.coreUnits (s : State) : State :=
  let s1 := s.each [U.po, U.sec, U.ssm, U.thm, U.nvs, U.rst] fun s u => s.setUst u .running
  let st (t : Nat) : UState := match (s1.core t).cond with | .off => .off | .parked => .idle | .running => .running | .stopped => .fault
  s1.each (List.range 8) fun s t =>
    let s' := if t < 4 then s.setUst (U.pair t) (if s.split then .off else st t) else s
    s'.setUst (U.core t) (if s.split then st t else .off)

/-- The ledger enters RUNNING at the first boundary after admission where the image has its record; without one it stays OFF (R45, R290). -/
def State.startLedger (s : State) : State := if (s.withImg none fun im => im.unitRec 0x0E 0).isSome then s.setUst U.ldg .running else s

/-- Operational (R357): RESET ends, the start counter clears, the phase, RST_OPTIME, the event; the epoch period of the device record. -/
def State.operational (s : State) : State :=
  if !s.rst.unitsOut then s
  else
    let s1 := ((s.ssmEnd 32).setFld R.RST_START F.RST_START_COUNT 0).clrFlag R.RST_START F.RST_START_TIMEOUT
    let s2 := ((s1.setFld R.RST_STATE F.RST_STATE_PHASE 5).setNat R.RST_OPTIME ((s.up - s.rst.startedAt) / 1000)).setFlag R.RST_EVT F.RST_EVT_OPER
    let s3 := (s2.setFld R.PST_EPOCH F.PST_EPOCH_PERIOD (s2.withImg 100 fun im => rf im.device 4 2)).startLedger
    { s3 with rst := { s3.rst with startTimer := false, unitsOut := false, autoDue := s3.rst.autoDue ++ s3.withImg [] fun im => im.startUnits } }

/-- Auto-run of a unit, at the boundary after its start state (R178, Table SEN-6, R435). A network port waits for the session counter. -/
def State.autoUnit (s : State) (u : Nat) : State :=
  let pr := s.img.isNone && (u == U.can 0 || u == U.eth 0)
  let bit (i : Nat) : Bool := match s.unitsRec u with | some r => bitAt (rf r i 1) 0 | none => pr
  if s.ust u ≠ .idle then s
  else if u = U.rnd 0 ∨ u = U.rnd 1 then
    if bit 4 then (s.setUst u .running).rndStart (u - 0x2C) else s
  else if u = U.pos then (if bit 4 then s.posStart else s)
  else if u = U.sent then (if bit 13 then s.setUst u .running else s)
  else if isNet u && bit 4 then
    if s.sec.sessionWritten then s.setUst u .running
    else { s with rst := { s.rst with autoDue := s.rst.autoDue ++ [u] } }
  else s

/-- Automatic starts: those due, and those that wait for a condition, after the boundary at which the unit takes its start state. -/
def State.autoRuns (s : State) (due : List Nat) : State :=
  let before (s : State) (u : Nat) : Bool := s.ust u != .idle || s.ustPm u != s.pm
  let s1 := s.each due State.autoUnit
  let s2 := s1.each (s1.functions.filter fun f => before s1 (U.fn f)) fun s f => (s.hlvAuto f).chopAuto f
  if before s2 U.reg then s2.regAuto else s2

/-- Franking keys unwrapped in the ended epoch apply (Table NET-7); the session counter is written to MRAM while that is writable (R426). -/
def State.secBoundary (s : State) : State :=
  { s with sec := { s.sec with fks := s.sec.fkNext.foldl (fun m p => FMap.put m p.1 p.2) s.sec.fks, fkNext := [],
                               sessionWritten := s.sec.sessionWritten || !s.mramClosed,
                               sessionMram := if s.sec.sessionWritten || s.mramClosed then s.sec.sessionMram else s.aon.session } }

/-- The charger's and the sequencer's units at a boundary. A charger outside a session shows no front end. -/
def State.followers (s : State) : State :=
  let s1 := s.chgBoundary
  let s2 := if s1.ust U.chg = .running ∨ s1.ust U.chg = .stopping ∨ s1.ust U.chg = .fault then s1
    else (s1.setFld R.CHG_STATE F.CHG_STATE_FRONT 0).setFld R.CHG_STATE F.CHG_STATE_MODE 0
  let s3 := s2.actBoundary
  s3.gbxBoundary

/-- Step 1 of R82, for the boundary after the epoch of postmark `old`. -/
def State.boundaryTransitions (s : State) : State :=
  let old := s.reg R.PST_PM
  let s1 := (s.journalLatches.ssmFaults).crowbarFault
  let s2 := (s1.setNat R.PST_PM (pmNext old.toNat)).applyHw old
  let due := s2.rst.autoDue
  let resets := s2.rst.unitReset.map (·.1)
  let s3 := State.each { s2 with rst := { s2.rst with autoDue := [], unitReset := [] } } resets State.unitBack
  ((s3.coreUnits.operational).secBoundary.followers).autoRuns due

/-! ### The collection (step 2) -/

/-- The monitor registers of an engine: Q5.11 pairs, angle, speed, pre-notice (Tables FE-30, FE-31). -/
def State.latchMonitor (s : State) (n : Nat) : State :=
  let e := s.e n
  let c (v : Int) : Nat := ofSigned 16 (satS 16 (quant 11 (of27 v)))
  let pair (v : Int × Int) : Nat := c v.2 * 65536 + c v.1
  (((((s.setNat (R.FEn_MON_I n) (pair e.i)).setNat (R.FEn_MON_IREF n) (pair e.ir)).setNat (R.FEn_MON_V n) (pair e.v)).setNat
    (R.FEn_MON_ANG n) (e.ang % 2 ^ 32)).setNat (R.FEn_MON_SPD n) (ofSigned 32 e.spd)).setNat (R.FEn_MON_PRE n) (ofSigned 32 (satS 32 e.power))

/-- The flags of a traction or chopper function's record that are present as an epoch begins (Table TRA-9). -/
def State.traFlags (s : State) (f : Nat) : Nat :=
  let t := s.tr f
  let k := s.linkOf f
  if s.fnRole f = 1 then b2n (decide ((s.lnk k).k < 32768)) * 2 + b2n t.sensorless * 8 + b2n (s.ovNow k) * 128
  else if s.fnRole f = 6 then b2n t.saturated * 32 + b2n t.hot * 64 + b2n (s.ovNow k) * 128
  else 0

/-- A new epoch: the counts and flags that a record keeps for one epoch start again; a condition that is still present is seen at once.
Log 263. -/
def State.newEpoch (s : State) : State :=
  let s1 := s.each (s.eng.map (·.1)) fun s n => s.updE n fun e => { e with seenFlags := 0, serr := 0, late := 0, wdraw := 0 }
  let s2 := s1.each (List.range 16) fun s f => s.updTr f fun t => { t with flags := s.traFlags f }
  let s3 := (s2.updCh fun c => { c with epoch := 0, flags := b2n s2.searching }).updRg fun r =>
    { r with epoch := 0, flags := 0, sums := [], span := 0 }
  let s4 := s3.each (s3.act.map (·.1)) fun s k => s.updAc k fun a => { a with epoch := 0, flags := b2n (s.acPhase k == 7) * 16, refreshes := 0 }
  let s5 := (s4.updGb fun g => { g with epoch := 0 }).each (s4.pos.map (·.1)) fun s k => s.updPs k fun p => { p with epochFlags := p.present }
  let s6 := s5.each (s5.sent.map (·.1)) fun s i => s.updSn i fun x => { x with epochFlags := 0, frames := 0 }
  let s7 := s6.each (s6.can.map (·.1)) fun s n => s.updCn n fun c => { c with received := 0, sent := 0, discarded := 0, dropped := 0 }
  let s8 := s7.each (s7.eth.map (·.1)) fun s p => s.updEt p fun e => { e with received := 0, sent := 0, discarded := 0, msDrop := 0, dups := 0 }
  let s9 := s8.each (s8.po.ph.map (·.1)) fun s n => s.setPigeon n { s.pigeon n with delivered := 0 }
  { s9 with ssm := { s9.ssm with wdWarned := 0, entered := false }, thm := { s9.thm with rails := s9.fld R.THM_SUPFLT F.THM_SUPFLT_ACTIVE },
            rst := { s9.rst with pairEpoch := s9.rst.pairs } }

/-- Step 2 of R82. -/
def State.boundaryCollection (s : State) : State :=
  (((s.regEmulate.regIntegrate).each (List.range s.variant.fes) State.latchMonitor).latchCollection).newEpoch

/-! ### Deliveries (step 3, R83) -/

/-- An opcode that no chapter defines (R85). -/
def specUnknown : LetterSpec where
  units _ _ := false
  legal _ := true
  used := []
  run s _ _ := doneWith s

/-- What the chapters say of an opcode: post office, engines, drivers, round converters, position, SENT, traction (Table PST-6, chapters
04 to 07). -/
def specOf1 : Nat → Option LetterSpec
  | 0x0001 => some specWrite | 0x0002 => some specRead | 0x0003 => some specState | 0x0004 => some specAbort
  | 0x0101 => some specFeHarm | 0x0102 => some specFeAdapt | 0x0103 => some specFeGains | 0x0104 => some specFeClear
  | 0x01F0 => some specDrvRead | 0x01F1 => some specDrvWrite
  | 0x0301 => some specRndRun | 0x0302 => some specRndHalt | 0x0303 => some specRndUrgent | 0x0304 => some specRndClear
  | 0x0311 => some specPosRun | 0x0312 => some specPosStop | 0x0321 => some specSentRun | 0x0322 => some specSentStop
  | 0x0401 => some specTraArm | 0x0402 => some specTraRun | 0x0403 => some specTraTorque | 0x0404 => some specTraStop
  | 0x0405 => some specTraDisarm | 0x0406 => some specTraClear | 0x0407 => some specChopRun | 0x0408 => some specChopHalt
  | _ => none

/-- Charging, supplies, actuators and gearbox (chapters 08 to 10). -/
def specOf2 : Nat → Option LetterSpec
  | 0x0501 => some specChgArm | 0x0502 => some specChgStart | 0x0503 => some specChgStop | 0x0504 => some specChgDisarm
  | 0x0505 => some specChgLimit | 0x0506 => some specChgBms | 0x0507 => some specChgClear | 0x05F0 => some specTransport
  | 0x0601 => some specRegArm | 0x0602 => some specRegRun | 0x0603 => some specRegStop | 0x0604 => some specRegDisarm
  | 0x0605 => some specRegSet | 0x0606 => some specRegClear
  | 0x0611 => some specHlvArm | 0x0612 => some specHlvRun | 0x0613 => some specHlvSet | 0x0614 => some specHlvStop
  | 0x0615 => some specHlvDisarm | 0x0616 => some specHlvClear
  | 0x0801 => some specActArm | 0x0802 => some specActRun | 0x0803 => some specActSpeed | 0x0804 => some specActStop
  | 0x0805 => some specActDisarm | 0x0806 => some specActClear | 0x0807 => some specActLeaktest
  | 0x0901 => some specGbxRun | 0x0902 => some specGbxHalt | 0x0903 => some specGbxShift | 0x0904 => some specGbxPark
  | 0x0905 => some specGbxClutch | 0x0906 => some specGbxClear
  | _ => none

/-- Images, security, ledger, safe state, reset, events and networks (chapters 02, 11 to 13, 15, 16). -/
def specOf3 : Nat → Option LetterSpec
  | 0x0A01 => some (specSlotWrite 1) | 0x0A02 => some (specSlotCheck false) | 0x0A03 => some (specCommit false)
  | 0x0A11 => some (specSlotWrite 2) | 0x0A12 => some (specSlotCheck true) | 0x0A13 => some (specCommit true)
  | 0x0A31 => some specSecRevoke | 0x0A32 => some specSecFkey | 0x0A33 => some specSecSak
  | 0x0B01 => some specLdgBattery | 0x0B02 => some specLdgKeepalive
  | 0x0C01 => some specSsmRelease | 0x0C02 => some specSsmForce
  | 0x0D01 => some specRstUnit | 0x0D02 => some specRstPair | 0x0D03 => some specRstSystem | 0x0D04 => some specStandby
  | 0x0E01 => some specEvcRing | 0x0F01 => some specNetRun | 0x0F02 => some specNetHalt
  | _ => none

/-- The meaning of an opcode. -/
def specOf (opcode : Nat) : LetterSpec :=
  match specOf1 opcode with
  | some sp => sp
  | none =>
    match specOf2 opcode with
    | some sp => sp
    | none => (specOf3 opcode).getD specUnknown

/-- Deliver a letter, and what is done at once where its receipt needs no handover. -/
def State.deliverLetter (s : State) (m : Msg) : State := (deliver (specOf m.letter.opcode) s m).runReady

/-- The head letter of a pigeonhole leaves its ring and is delivered; one whose slot does not read correctly is refused with E_FORMAT. -/
def State.deliverHead (s : State) (n : Nat) : State :=
  let h := s.phHead n
  let i := s.phSlot n h
  let marked := match s.slot i with | .letter _ m => m | _ => false
  let held : Letter := match s.slot i with | .letter l _ => l | _ => ⟨0, 0, 0, 0, 0, 0, [], []⟩
  let (s1, b) := s.readSlot i
  let s2 := (s1.setFld (R.PHn_HEAD n) F.PHn_HEAD_INDEX ((h + 1) % (2 * s.phSize n))).setPigeon n { s1.pigeon n with delivered := (s1.pigeon n).delivered + 1 }
  match b with
  | none => refuseLetter s2 ⟨.ph n, marked, held⟩ .eFormat []
  | some bytes => s2.deliverLetter ⟨.ph n, marked, letterOfBytes bytes⟩

/-- The head letter of a pigeonhole is due (R81). -/
def State.headDue (s : State) (n : Nat) : Bool :=
  s.phCount n != 0 && match s.slot (s.phSlot n (s.phHead n)) with
    | .letter l _ => l.deliverAt == 0 || !pmBefore s.pm l.deliverAt
    | _ => false

/-- Nothing more is delivered once a delivery has asserted a reset. -/
def State.delivers (s : State) : Bool := s.rst.sysHold == 0

/-- Deliver from a pigeonhole, up to a number of letters. -/
def State.deliverFrom (s : State) (n : Nat) : Nat → State
  | 0 => s
  | k + 1 => if s.delivers && s.headDue n then State.deliverFrom (s.deliverHead n) n k else s

/-- Deliver from the management queue, at most 16 letters at a boundary (R86). -/
def State.deliverMgmt (s : State) : Nat → State
  | 0 => s
  | k + 1 =>
    match s.po.mgmt with
    | [] => s
    | l :: t =>
      if s.delivers then State.deliverMgmt (State.deliverLetter { s with po := { s.po with mgmt := t } } ⟨.mgmt, false, l⟩) k else s

/-- Every letter pigeonhole of a class, ascending. -/
def State.deliverClass (s : State) (c : Nat) : State :=
  s.each (List.range 64) fun s n =>
    if s.phEn n && !s.phIsReceipt n && s.phClass n == c then s.deliverFrom n (s.fld (R.PHn_LIM n) F.PHn_LIM_MAXPE) else s

/-- Step 3 of R82: express, management, normal, bulk. -/
def State.boundaryDeliveries (s : State) : State := (((s.deliverClass 0).deliverMgmt 16).deliverClass 1).deliverClass 2

/-- The post office runs: no reset is held, every clock domain has left reset, neither standby nor transport. -/
def State.boundaryRuns (s : State) : Bool := s.rst.sysHold == 0 && s.rst.domains == 5 && !s.rst.standby && !s.rst.transport

/-- The letters of this boundary will be latched 1 µs after it; until then those in force before it govern (R105). -/
def State.latchPars (s : State) : State :=
  let s1 := s.each (List.range 8) fun s n =>
    if s.tmpl n = 0 then s else (s.settleReset n).updE n fun e => { e with prev := s.letters n }
  { s1 with po := { s1.po with boundaryAt := s1.time } }

/-- EPOCH_BOUNDARY (R82). -/
def execEpochBoundary (s : State) : Out :=
  .next (if s.boundaryRuns then ((s.latchPars.boundaryTransitions).boundaryCollection).boundaryDeliveries else s)

end Sys2Proof.Machine
end

