-- ==== Sys2Proof/Machine/Dispatch.lean ====
section
/-!
DEFINITION. The one dispatch from a command to its meaning.
-/
namespace Sys2Proof.Machine

/-- The effect of a command on everything but the queue. -/
def exec (i : Instr) (s : State) : Host.Outcome State Fault Refusal :=
  match i with
  | .epochBoundary => Sys2Proof.Machine.execEpochBoundary s
  | .operationDeadlinePassed key => Sys2Proof.Machine.execOperationDeadlinePassed key s
  | .letterPost who ph value => Sys2Proof.Machine.execLetterPost who ph value s
  | .receiptConsume who ph value => Sys2Proof.Machine.execReceiptConsume who ph value s
  | .receiptHandoverTimeout index => Sys2Proof.Machine.execReceiptHandoverTimeout index s
  | .receiptModerationExpiry ph => Sys2Proof.Machine.execReceiptModerationExpiry ph s
  | .sleepAnnounce who value => Sys2Proof.Machine.execSleepAnnounce who value s
  | .registerWrite who addr value => Sys2Proof.Machine.execRegisterWrite who addr value s
  | .sysWerrCodeRead who => Sys2Proof.Machine.execSysWerrCodeRead who s
  | .pstMerrCodeRead who => Sys2Proof.Machine.execPstMerrCodeRead who s
  | .memLastinfoRead who => Sys2Proof.Machine.execMemLastinfoRead who s
  | .faultCauseRead who addr => Sys2Proof.Machine.execFaultCauseRead who addr s
  | .write m => Sys2Proof.Machine.execWrite m s
  | .read m => Sys2Proof.Machine.execRead m s
  | .state m => Sys2Proof.Machine.execState m s
  | .abort m => Sys2Proof.Machine.execAbort m s
  | .imageWrite m => Sys2Proof.Machine.execImageWrite m s
  | .imageCheck m => Sys2Proof.Machine.execImageCheck m s
  | .imageCommit m => Sys2Proof.Machine.execImageCommit m s
  | .fwWrite m => Sys2Proof.Machine.execFwWrite m s
  | .fwCheck m => Sys2Proof.Machine.execFwCheck m s
  | .fwCommit m => Sys2Proof.Machine.execFwCommit m s
  | .checkComplete firmware => Sys2Proof.Machine.execCheckComplete firmware s
  | .feHarm m => Sys2Proof.Machine.execFeHarm m s
  | .feAdapt m => Sys2Proof.Machine.execFeAdapt m s
  | .feGains m => Sys2Proof.Machine.execFeGains m s
  | .feClear m => Sys2Proof.Machine.execFeClear m s
  | .drvRead m => Sys2Proof.Machine.execDrvRead m s
  | .drvWrite m => Sys2Proof.Machine.execDrvWrite m s
  | .rndRun m => Sys2Proof.Machine.execRndRun m s
  | .rndHalt m => Sys2Proof.Machine.execRndHalt m s
  | .rndUrgent m => Sys2Proof.Machine.execRndUrgent m s
  | .rndClear m => Sys2Proof.Machine.execRndClear m s
  | .posRun m => Sys2Proof.Machine.execPosRun m s
  | .posStop m => Sys2Proof.Machine.execPosStop m s
  | .sentRun m => Sys2Proof.Machine.execSentRun m s
  | .sentStop m => Sys2Proof.Machine.execSentStop m s
  | .traArm m => Sys2Proof.Machine.execTraArm m s
  | .traRun m => Sys2Proof.Machine.execTraRun m s
  | .traTorque m => Sys2Proof.Machine.execTraTorque m s
  | .traStop m => Sys2Proof.Machine.execTraStop m s
  | .traDisarm m => Sys2Proof.Machine.execTraDisarm m s
  | .traClear m => Sys2Proof.Machine.execTraClear m s
  | .chopRun m => Sys2Proof.Machine.execChopRun m s
  | .chopHalt m => Sys2Proof.Machine.execChopHalt m s
  | .chopAutoStart f => Sys2Proof.Machine.execChopAutoStart f s
  | .chgArm m => Sys2Proof.Machine.execChgArm m s
  | .chgStart m => Sys2Proof.Machine.execChgStart m s
  | .chgStop m => Sys2Proof.Machine.execChgStop m s
  | .chgDisarm m => Sys2Proof.Machine.execChgDisarm m s
  | .chgLimit m => Sys2Proof.Machine.execChgLimit m s
  | .chgBms m => Sys2Proof.Machine.execChgBms m s
  | .chgClear m => Sys2Proof.Machine.execChgClear m s
  | .transport m => Sys2Proof.Machine.execTransport m s
  | .hlvArm m => Sys2Proof.Machine.execHlvArm m s
  | .hlvRun m => Sys2Proof.Machine.execHlvRun m s
  | .hlvSet m => Sys2Proof.Machine.execHlvSet m s
  | .hlvStop m => Sys2Proof.Machine.execHlvStop m s
  | .hlvDisarm m => Sys2Proof.Machine.execHlvDisarm m s
  | .hlvClear m => Sys2Proof.Machine.execHlvClear m s
  | .hlvAutoRun f => Sys2Proof.Machine.execHlvAutoRun f s
  | .regArm m => Sys2Proof.Machine.execRegArm m s
  | .regRun m => Sys2Proof.Machine.execRegRun m s
  | .regStop m => Sys2Proof.Machine.execRegStop m s
  | .regDisarm m => Sys2Proof.Machine.execRegDisarm m s
  | .regSet m => Sys2Proof.Machine.execRegSet m s
  | .regClear m => Sys2Proof.Machine.execRegClear m s
  | .regAutoRun => Sys2Proof.Machine.execRegAutoRun s
  | .actArm m => Sys2Proof.Machine.execActArm m s
  | .actRun m => Sys2Proof.Machine.execActRun m s
  | .actSpeed m => Sys2Proof.Machine.execActSpeed m s
  | .actStop m => Sys2Proof.Machine.execActStop m s
  | .actDisarm m => Sys2Proof.Machine.execActDisarm m s
  | .actClear m => Sys2Proof.Machine.execActClear m s
  | .actLeaktest m => Sys2Proof.Machine.execActLeaktest m s
  | .gbxRun m => Sys2Proof.Machine.execGbxRun m s
  | .gbxHalt m => Sys2Proof.Machine.execGbxHalt m s
  | .gbxShift m => Sys2Proof.Machine.execGbxShift m s
  | .gbxPark m => Sys2Proof.Machine.execGbxPark m s
  | .gbxClutch m => Sys2Proof.Machine.execGbxClutch m s
  | .gbxClear m => Sys2Proof.Machine.execGbxClear m s
  | .ldgBattery m => Sys2Proof.Machine.execLdgBattery m s
  | .ldgKeepalive m => Sys2Proof.Machine.execLdgKeepalive m s
  | .ssmRelease m => Sys2Proof.Machine.execSsmRelease m s
  | .ssmForce m => Sys2Proof.Machine.execSsmForce m s
  | .rstUnit m => Sys2Proof.Machine.execRstUnit m s
  | .rstPair m => Sys2Proof.Machine.execRstPair m s
  | .rstSystem m => Sys2Proof.Machine.execRstSystem m s
  | .standby m => Sys2Proof.Machine.execStandby m s
  | .evcRing m => Sys2Proof.Machine.execEvcRing m s
  | .netRun m => Sys2Proof.Machine.execNetRun m s
  | .netHalt m => Sys2Proof.Machine.execNetHalt m s
  | .secRevoke m => Sys2Proof.Machine.execSecRevoke m s
  | .secFkey m => Sys2Proof.Machine.execSecFkey m s
  | .secSak m => Sys2Proof.Machine.execSecSak m s
  | .rndUrgWrite who r value => Sys2Proof.Machine.execRndUrgWrite who r value s
  | .roundQueueRead who r => Sys2Proof.Machine.execRoundQueueRead who r s
  | .fcvCorrWrite who n value => Sys2Proof.Machine.execFcvCorrWrite who n value s
  | .rndCorrWrite who r k value => Sys2Proof.Machine.execRndCorrWrite who r k value s
  | .posOfsWrite who k value => Sys2Proof.Machine.execPosOfsWrite who k value s
  | .ldgNetRead who p => Sys2Proof.Machine.execLdgNetRead who p s
  | .withdrawalQueueRead who => Sys2Proof.Machine.execWithdrawalQueueRead who s
  | .keepaliveBalanceRead who => Sys2Proof.Machine.execKeepaliveBalanceRead who s
  | .imbalanceClear who bits => Sys2Proof.Machine.execImbalanceClear who bits s
  | .faultNAcknowledge who value => Sys2Proof.Machine.execFaultNAcknowledge who value s
  | .watchdogService who n key elapsed => Sys2Proof.Machine.execWatchdogService who n key elapsed s
  | .rstPvecWrite who n value => Sys2Proof.Machine.execRstPvecWrite who n value s
  | .canModeWrite who n value => Sys2Proof.Machine.execCanModeWrite who n value s
  | .mdioTransaction who p value => Sys2Proof.Machine.execMdioTransaction who p value s
  | .mdioComplete p data => Sys2Proof.Machine.execMdioComplete p data s
  | .fuseImageKey who slot => Sys2Proof.Machine.execFuseImageKey who slot s
  | .setFrankingKey who slot => Sys2Proof.Machine.execSetFrankingKey who slot s
  | .fuseDebugKey who slot => Sys2Proof.Machine.execFuseDebugKey who slot s
  | .revokeImageKey who slot => Sys2Proof.Machine.execRevokeImageKey who slot s
  | .keyCommandComplete => Sys2Proof.Machine.execKeyCommandComplete s
  | .debugChallengeRead who => Sys2Proof.Machine.execDebugChallengeRead who s
  | .debugResponseWrite who value => Sys2Proof.Machine.execDebugResponseWrite who value s
  | .challengeExpiry => Sys2Proof.Machine.execChallengeExpiry s
  | .randomWordRead who healthy => Sys2Proof.Machine.execRandomWordRead who healthy s
  | .eventClaim who t => Sys2Proof.Machine.execEventClaim who t s
  | .eventComplete who t value => Sys2Proof.Machine.execEventComplete who t value s
  | .doorbellSet who value => Sys2Proof.Machine.execDoorbellSet who value s
  | .eventSourceWrite who m value => Sys2Proof.Machine.execEventSourceWrite who m value s
  | .errorInjection who value => Sys2Proof.Machine.execErrorInjection who value s
  | .errorCountClear who idx value => Sys2Proof.Machine.execErrorCountClear who idx value s
  | .nvsWindowWrite who => Sys2Proof.Machine.execNvsWindowWrite who s
  | .nvsStructureSlotWrite who => Sys2Proof.Machine.execNvsStructureSlotWrite who s
  | .nvsFirmwareSlotWrite who => Sys2Proof.Machine.execNvsFirmwareSlotWrite who s
  | .journalPost who value => Sys2Proof.Machine.execJournalPost who value s
  | .pinOutWrite who value => Sys2Proof.Machine.execPinOutWrite who value s
  | .memoryAccess who a => Sys2Proof.Machine.execMemoryAccess who a s
  | .tableRestore off upset => Sys2Proof.Machine.execTableRestore off upset s
  | .scrubVisit store cw upset crossed => Sys2Proof.Machine.execScrubVisit store cw upset crossed s
  | .mramScrub off upset => Sys2Proof.Machine.execMramScrub off upset s
  | .mramWritePulseEnd => Sys2Proof.Machine.execMramWritePulseEnd s
  | .journalWrite => Sys2Proof.Machine.execJournalWrite s
  | .criticalStateError item => Sys2Proof.Machine.execCriticalStateError item s
  | .linkFrameError ue kind n => Sys2Proof.Machine.execLinkFrameError ue kind n s
  | .sampleTrigger n early apert angles => Sys2Proof.Machine.execSampleTrigger n early apert angles s
  | .conversionResult g by_ raw bad => Sys2Proof.Machine.execConversionResult g by_ raw bad s
  | .engineUpdate n point => Sys2Proof.Machine.execEngineUpdate n point s
  | .updatePointCommit n peak late => Sys2Proof.Machine.execUpdatePointCommit n peak late s
  | .linkWatchTrigger g near => Sys2Proof.Machine.execLinkWatchTrigger g near s
  | .didtTrip n blanking => Sys2Proof.Machine.execDidtTrip n blanking s
  | .softOffHoldEnd n => Sys2Proof.Machine.execSoftOffHoldEnd n s
  | .gfFault n high => Sys2Proof.Machine.execGfFault n high s
  | .ilockLatch n held => Sys2Proof.Machine.execIlockLatch n held s
  | .driveEnFall => Sys2Proof.Machine.execDriveEnFall s
  | .driveEnRise low loud => Sys2Proof.Machine.execDriveEnRise low loud s
  | .gateLinkWindow k => Sys2Proof.Machine.execGateLinkWindow k s
  | .gateLinkResponse k frame => Sys2Proof.Machine.execGateLinkResponse k frame s
  | .gateLinkTimeout k => Sys2Proof.Machine.execGateLinkTimeout k s
  | .tractionWatch f angles => Sys2Proof.Machine.execTractionWatch f angles s
  | .ledgerTick => Sys2Proof.Machine.execLedgerTick s
  | .imbalanceBlock => Sys2Proof.Machine.execImbalanceBlock s
  | .plannerRound => Sys2Proof.Machine.execPlannerRound s
  | .plannerLatch us => Sys2Proof.Machine.execPlannerLatch us s
  | .plannerStale => Sys2Proof.Machine.execPlannerStale s
  | .powerHoleTimeout f => Sys2Proof.Machine.execPowerHoleTimeout f s
  | .chopperPeriod f => Sys2Proof.Machine.execChopperPeriod f s
  | .tractionStopComplete f => Sys2Proof.Machine.execTractionStopComplete f s
  | .sensorlessObserveSample f => Sys2Proof.Machine.execSensorlessObserveSample f s
  | .sensorlessObserveEnd f amp freq ang => Sys2Proof.Machine.execSensorlessObserveEnd f amp freq ang s
  | .ifLock f => Sys2Proof.Machine.execIfLock f s
  | .catchFail f => Sys2Proof.Machine.execCatchFail f s
  | .ascFreewheelChange f => Sys2Proof.Machine.execAscFreewheelChange f s
  | .unknownSpeedTimeout f => Sys2Proof.Machine.execUnknownSpeedTimeout f s
  | .roundEntryResult r entry raw => Sys2Proof.Machine.execRoundEntryResult r entry raw s
  | .urgentArrival r activity => Sys2Proof.Machine.execUrgentArrival r activity s
  | .urgentResult r raw => Sys2Proof.Machine.execUrgentResult r raw s
  | .refreshLapse r entry => Sys2Proof.Machine.execRefreshLapse r entry s
  | .referenceFault r bad => Sys2Proof.Machine.execReferenceFault r bad s
  | .resolverFault k flag => Sys2Proof.Machine.execResolverFault k flag s
  | .resolverValidReturn k => Sys2Proof.Machine.execResolverValidReturn k s
  | .excitationRestart k => Sys2Proof.Machine.execExcitationRestart k s
  | .encoderCount k a0 b0 a b => Sys2Proof.Machine.execEncoderCount k a0 b0 a b s
  | .encoderIndex k => Sys2Proof.Machine.execEncoderIndex k s
  | .sentFrame idx sync status data pause => Sys2Proof.Machine.execSentFrame idx sync status data pause s
  | .sentTimeout idx => Sys2Proof.Machine.execSentTimeout idx s
  | .pilotClassAccepted periods level held => Sys2Proof.Machine.execPilotClassAccepted periods level held s
  | .proximityCodeAccepted ohms => Sys2Proof.Machine.execProximityCodeAccepted ohms s
  | .contactorFeedbackChange closed => Sys2Proof.Machine.execContactorFeedbackChange closed s
  | .prechargeTimeout => Sys2Proof.Machine.execPrechargeTimeout s
  | .contactorTimeout => Sys2Proof.Machine.execContactorTimeout s
  | .gridReady g => Sys2Proof.Machine.execGridReady g s
  | .gridWaitTimeout => Sys2Proof.Machine.execGridWaitTimeout s
  | .searchStep g => Sys2Proof.Machine.execSearchStep g s
  | .searchRepeat => Sys2Proof.Machine.execSearchRepeat s
  | .busRegulationTick g => Sys2Proof.Machine.execBusRegulationTick g s
  | .termination => Sys2Proof.Machine.execTermination s
  | .ccTimerExpiry => Sys2Proof.Machine.execCcTimerExpiry s
  | .sessionCapExpiry => Sys2Proof.Machine.execSessionCapExpiry s
  | .bmsTemperatureExpiry => Sys2Proof.Machine.execBmsTemperatureExpiry s
  | .outputFault cause => Sys2Proof.Machine.execOutputFault cause s
  | .gridTrip g => Sys2Proof.Machine.execGridTrip g s
  | .islandOverload => Sys2Proof.Machine.execIslandOverload s
  | .pilotDiodeFault => Sys2Proof.Machine.execPilotDiodeFault s
  | .rampdownEnd => Sys2Proof.Machine.execRampdownEnd s
  | .acContactorOpen => Sys2Proof.Machine.execAcContactorOpen s
  | .chargerStopComplete => Sys2Proof.Machine.execChargerStopComplete s
  | .hlvStopComplete f => Sys2Proof.Machine.execHlvStopComplete f s
  | .hlvFaultDetect f cause => Sys2Proof.Machine.execHlvFaultDetect f cause s
  | .regComparatorTrip m => Sys2Proof.Machine.execRegComparatorTrip m s
  | .regOnTimeEnd n m => Sys2Proof.Machine.execRegOnTimeEnd n m s
  | .regBalance m => Sys2Proof.Machine.execRegBalance m s
  | .regShed m => Sys2Proof.Machine.execRegShed m s
  | .regAdd m => Sys2Proof.Machine.execRegAdd m s
  | .regRestore m => Sys2Proof.Machine.execRegRestore m s
  | .regShedHoldEnd => Sys2Proof.Machine.execRegShedHoldEnd s
  | .regStartTest m => Sys2Proof.Machine.execRegStartTest m s
  | .regUndervoltageFailure m => Sys2Proof.Machine.execRegUndervoltageFailure m s
  | .regHiccupEnd m => Sys2Proof.Machine.execRegHiccupEnd m s
  | .regFailCountReset => Sys2Proof.Machine.execRegFailCountReset s
  | .regSoftstopEnd => Sys2Proof.Machine.execRegSoftstopEnd s
  | .regCrowbar m => Sys2Proof.Machine.execRegCrowbar m s
  | .regFaultDetect cause bad => Sys2Proof.Machine.execRegFaultDetect cause bad s
  | .actUpdate k m => Sys2Proof.Machine.execActUpdate k m s
  | .actStartPhaseEnd k o => Sys2Proof.Machine.execActStartPhaseEnd k o s
  | .actBrakePulse k vact starts => Sys2Proof.Machine.execActBrakePulse k vact starts s
  | .actRampLock k rpm => Sys2Proof.Machine.execActRampLock k rpm s
  | .startAttemptFail k => Sys2Proof.Machine.execStartAttemptFail k s
  | .retryWaitEnd k => Sys2Proof.Machine.execRetryWaitEnd k s
  | .bootstrapRefresh n => Sys2Proof.Machine.execBootstrapRefresh n s
  | .bootstrapUndervoltage n => Sys2Proof.Machine.execBootstrapUndervoltage n s
  | .leakTestComplete k low high => Sys2Proof.Machine.execLeakTestComplete k low high s
  | .actLegLatch n cause => Sys2Proof.Machine.execActLegLatch n cause s
  | .vactFault mv => Sys2Proof.Machine.execVactFault mv s
  | .actStall k => Sys2Proof.Machine.execActStall k s
  | .actStopComplete k => Sys2Proof.Machine.execActStopComplete k s
  | .actEnFall => Sys2Proof.Machine.execActEnFall s
  | .actEnRise low loud => Sys2Proof.Machine.execActEnRise low loud s
  | .moveTargetReached mech => Sys2Proof.Machine.execMoveTargetReached mech s
  | .moveTimeout mech => Sys2Proof.Machine.execMoveTimeout mech s
  | .shiftPhaseEnd => Sys2Proof.Machine.execShiftPhaseEnd s
  | .buttRetry => Sys2Proof.Machine.execButtRetry s
  | .parkWaitExpiry => Sys2Proof.Machine.execParkWaitExpiry s
  | .syncTimeExpiry => Sys2Proof.Machine.execSyncTimeExpiry s
  | .lockstepMismatch n flags pc => Sys2Proof.Machine.execLockstepMismatch n flags pc s
  | .comparatorSelfTest n tests pc => Sys2Proof.Machine.execComparatorSelfTest n tests pc s
  | .faultFrameReceived => Sys2Proof.Machine.execFaultFrameReceived s
  | .heartbeatReceived => Sys2Proof.Machine.execHeartbeatReceived s
  | .heartbeatTimeout => Sys2Proof.Machine.execHeartbeatTimeout s
  | .watchdogWarning n => Sys2Proof.Machine.execWatchdogWarning n s
  | .watchdogExpiry n => Sys2Proof.Machine.execWatchdogExpiry n s
  | .monClockCheck count => Sys2Proof.Machine.execMonClockCheck count s
  | .resetSourceAssert id pairs => Sys2Proof.Machine.execResetSourceAssert id pairs s
  | .resetSourceRelease id pairs => Sys2Proof.Machine.execResetSourceRelease id pairs s
  | .resetPulseEnd id pairs => Sys2Proof.Machine.execResetPulseEnd id pairs s
  | .resetHoldEnd n => Sys2Proof.Machine.execResetHoldEnd n s
  | .resetPin low => Sys2Proof.Machine.execResetPin low s
  | .powerOn up => Sys2Proof.Machine.execPowerOn up s
  | .powerGoodChange idx high => Sys2Proof.Machine.execPowerGoodChange idx high s
  | .domainRelease => Sys2Proof.Machine.execDomainRelease s
  | .startSequence => Sys2Proof.Machine.execStartSequence s
  | .startTimerExpiry => Sys2Proof.Machine.execStartTimerExpiry s
  | .standbyEntry => Sys2Proof.Machine.execStandbyEntry s
  | .transportEntry => Sys2Proof.Machine.execTransportEntry s
  | .wake src => Sys2Proof.Machine.execWake src s
  | .supplyAlarm => Sys2Proof.Machine.execSupplyAlarm s
  | .timerWake => Sys2Proof.Machine.execTimerWake s
  | .timerWakeLimit => Sys2Proof.Machine.execTimerWakeLimit s
  | .keepaliveRefill => Sys2Proof.Machine.execKeepaliveRefill s
  | .keepaliveDebit => Sys2Proof.Machine.execKeepaliveDebit s
  | .clockMonitorWindow idx count => Sys2Proof.Machine.execClockMonitorWindow idx count s
  | .pllLockLoss p => Sys2Proof.Machine.execPllLockLoss p s
  | .supplyOutOfRange r => Sys2Proof.Machine.execSupplyOutOfRange r s
  | .supplyRestored r => Sys2Proof.Machine.execSupplyRestored r s
  | .temperatureMeasurement temps diodes rails => Sys2Proof.Machine.execTemperatureMeasurement temps diodes rails s
  | .wfi t => Sys2Proof.Machine.execWfi t s
  | .coreWake t kind id => Sys2Proof.Machine.execCoreWake t kind id s
  | .eventLineChange m => Sys2Proof.Machine.execEventLineChange m s
  | .fastEventEntry t pc => Sys2Proof.Machine.execFastEventEntry t pc s
  | .fret t => Sys2Proof.Machine.execFret t s
  | .machineTimerExpiry t => Sys2Proof.Machine.execMachineTimerExpiry t s
  | .strandedEvent m => Sys2Proof.Machine.execStrandedEvent m s
  | .coreUnavailable t => Sys2Proof.Machine.execCoreUnavailable t s
  | .canFrameReceived n f => Sys2Proof.Machine.execCanFrameReceived n f s
  | .canTransmitEnd n e => Sys2Proof.Machine.execCanTransmitEnd n e s
  | .canBusOffRecovered n => Sys2Proof.Machine.execCanBusOffRecovered n s
  | .ethDatagramReceived p f => Sys2Proof.Machine.execEthDatagramReceived p f s
  | .addressResolution p f => Sys2Proof.Machine.execAddressResolution p f s
  | .netReceiptSend u => Sys2Proof.Machine.execNetReceiptSend u s
  | .syncReceived p sync selected => Sys2Proof.Machine.execSyncReceived p sync selected s
  | .syncTimeout p => Sys2Proof.Machine.execSyncTimeout p s
  | .gateCycleRestart p => Sys2Proof.Machine.execGateCycleRestart p s
  | .debugHalt t => Sys2Proof.Machine.execDebugHalt t s
  | .debugResume t => Sys2Proof.Machine.execDebugResume t s
  | .debugStep t pc => Sys2Proof.Machine.execDebugStep t pc s
  | .debugAbstractCommand t c => Sys2Proof.Machine.execDebugAbstractCommand t c s
  | .debugSystemBusAccess hart a => Sys2Proof.Machine.execDebugSystemBusAccess hart a s
  | .debugHartReset t held => Sys2Proof.Machine.execDebugHartReset t held s
  | .jtagExtest cells => Sys2Proof.Machine.execJtagExtest cells s
  | .ethLinkChange p up => Sys2Proof.Machine.execEthLinkChange p up s
  | .sequenceRecoveryReset => Sys2Proof.Machine.execSequenceRecoveryReset s
  | .ppsPulse high => Sys2Proof.Machine.execPpsPulse high s
  | .invalidPilotTimeout => Sys2Proof.Machine.execInvalidPilotTimeout s
  | .shedPhaseHighImpedance n => Sys2Proof.Machine.execShedPhaseHighImpedance n s
  | .lostCountRead who which => Sys2Proof.Machine.execLostCountRead who which s
  | .urgentResultRead who r => Sys2Proof.Machine.execUrgentResultRead who r s
  | .deviceCsrAccess t csr op value => Sys2Proof.Machine.execDeviceCsrAccess t csr op value s

end Sys2Proof.Machine
end

