-- ==== Sys2Proof/Machine/Tick.lean ====
section
/-!
DEFINITION. The passing of time while no command waits: the output chains of the legs (05), the regulator's waiting pulse and the pads of its
override wire (09), the reset of a pair by letter (13).
Choices of the model: log 2, 208.
-/
namespace Sys2Proof.Machine

/-- The regulator while time passes: a trip that waits takes the first phase that is free again (R243). -/
def State.regTick (s : State) : State := if s.rgl.waiting then (s.regEmulate.regIntegrate).regTryPulse else s

/-- The time of record goes on by 5 ns at its rate (R421): what the correction adds up to shows as a nanosecond more or less. Log 241. -/
def State.timeOn (s : State) : State :=
  let f := s.frac + 5 * s.rate
  let c : Int := if 1000000000 ≤ f then 1 else if f ≤ -1000000000 then -1 else 0
  { s with time := (s.time + 5 + c).toNat, up := s.up + 5, frac := f - 1000000000 * c }

/-- The time of record advances by 5 ns, its resolution (R25), two cycles of the CTRL clock. DESIGN CHOICE, log 2. -/
def State.idle (s : State) : State := (s.timeOn.gateTick).regTick.wireTick.replayDrain.pairDue

end Sys2Proof.Machine
end

