-- ==== Sys2Proof/Safety.lean ====
section
/-!
DEFINITION. What counts as safe, in the terms the statements use: canonical maps, the fuses, the safe state.
-/
namespace Sys2Proof.Machine

/-- Memory is in canonical form: keys strictly rising, no byte that equals what an unlisted key reads as. -/
def Memory.wf (m : FMap Byte) : Bool := FMap.wf memDefault m

/-- Registers are in canonical form. -/
def Registers.wf (r : FMap Word) : Bool := FMap.wf regDefault r

/-- The device-wide safe state reaches every gate: while a cause of Table LSS-3 holds, SAFE is shown and every traction function, HLV
bridge and charger bridge carries a pattern (R330). -/
def State.SafeStateHolds (s : State) : Prop :=
  s.safeHeld = true → s.flag R.SSM_STATE F.SSM_STATE_SAFE = true ∧
    ∀ f, f < 16 → (s.ssmFn f).role ≠ 0 → s.ssmPat f ≠ 0

/-- The registers that an operation of the block writes, by name; a name with instance numbers stands for all its instances. -/
inductive Reg where
  | SYS_WERR_CODE | SYS_WERR_ADDR | SYS_WERR_PM | PST_PM | PST_EPOCH | PST_SLEEP | PST_OUTST | PST_MERR_CODE | PST_MERR_ADDR
  | PST_MERR_PM | PST_DLJ_CNT | PST_DLJ_LOST | PHn_CFG | PHn_LIM | PHn_BASE | PHn_HEAD | PHn_TAIL | PHn_SEQ | PHn_STAT
  | FEn_STATE | FEn_LOOPCFG | FEn_PERIOD | FEn_LEAD | FEn_BASE | FEn_GAINS | FEn_OUTKP | FEn_OUTKI | FEn_ADAPT | FEn_ADFAC
  | FEn_PHASE | FEn_HCFGk | FEn_HAMPk | FEn_EVT | FEn_ERRCNT | FEn_WDCNT | FEn_MON_I | FEn_MON_IREF | FEn_MON_V | FEn_MON_ANG
  | FEn_MON_SPD | FEn_MON_PRE | FEn_TMPLj | MOD_STAT | MOD_EVT | MOD_LCFGn | MOD_DIDTn | MOD_LCNTn | MOD_LTRIPn | GLK_EVT
  | GLKk_STAT | GLKk_ERR | GLKk_DRVj | FCV_OVR | FCV_CHn_CORR | FCV_CHn_LAST | RNDr_STATE | RNDr_EVT | RNDr_URGRES
  | RNDr_RQSTAT | RNDr_RQLO | RNDr_RQHI | RNDr_STALE | RNDr_CORRk | RNDr_SEQe | RNDr_LIMe | RNDr_LASTc | POS_STATE | POS_EVT
  | POSk_CFG | POSk_OFS | POSk_ANG | POSk_SPD | POSk_STAT | POSk_FLT | SENT_STATE | SENT_EVT | SENTi_CFG | SENTi_FAST
  | SENTi_SLOW | SENTi_ERR | SENTi_TIME | CHG_STATE | CHG_PILOT | CHG_ILIM | CHG_FLT | CHG_EVT | CHG_TIME | CHG_CFG
  | REG_STATE | REG_EVT | REG_FLT | REG_TARGET | REG_SHED | REG_OUT | REG_LIM | REG_VIN | REG_PHn | REG_CFG | ACT_STAT
  | ACT_EVT | ACT_VACT | ACk_STATE | ACk_CFG | ACk_RATED | ACk_SPD | ACk_I | ACk_EVT | ACk_FLT | ACk_LATCH | ACk_LEAKL
  | ACk_LEAKH | ACk_BOOT | GBX_STATE | GBX_EVT | GBX_FLT | GBX_POS0 | GBX_POS1 | GBX_CFG | GBX_SENT | LDG_STATE | LDG_EVT
  | LDG_IMB | LDG_ROUND | LDG_WQSTAT | LDG_KABHI | LDG_KASKIP | LDG_KAWAKE | LDG_NRESk | LDG_PNf | LDG_EDf | LDG_ERf
  | LDG_Pp_CFG | LDG_Pp_PWR | LDG_Pp_EHI | LDG_Pp_MAXD | LDG_Pp_MAXR | LDG_Pp_IMBW | LDG_Pp_IMBT | LSC_CFG | LSC_STAT
  | LSC_EVT | LSC_STEST | LSC_MCAUSEn | LSC_MPCn | LSC_MTIMEn | LSC_MCNTn | SSM_STATE | SSM_CAUSE | SSM_EVT | SSM_LASTF
  | SSM_ASC | SSM_HB | SSM_PAT0 | SSM_PAT1 | SSM_PATX | SSM_OTEST | SSM_WDSTATn | RST_STATE | RST_CAUSE | RST_PEND
  | RST_START | RST_WAKE | RST_EVT | RST_OPTIME | RST_PVECn | CLK_STAT | CLK_EVT | CLK_LAST | CLK_FREQi | THM_STATE | THM_EVT
  | THM_TCFG | THM_SUPFLT | THM_TEMPs | THM_SUPr | EVC_EVT | EVC_DBSET | EVC_STRAND | EVC_FASTt | EVC_WAKEt | EVC_SRCm
  | CANn_STATE | CANn_EVT | CANn_MODE | CANn_TIMING | CANn_IDS | CANn_CNT | ETHp_STATE | ETHp_EVT | ETHp_CFG | ETHp_MACL
  | ETHp_MACH | ETHp_OFFS | ETHp_RATE | ETHp_MDIO | ETHp_CNT | ETHp_GCLj | SEC_EVT | SEC_DBGCHALj | SEC_DBGRESPj
  | DBG_REPLAYn | DBG_HALTSt | MEM_EVT | MEM_LASTADDR | MEM_LASTINFO | MEM_INJ | MEM_CRIT | MEM_CNTs | NVS_STATE | NVS_EVT
  | NVS_WSTAT | NVS_JSEQ | NVS_JLOST | NVS_WDATAj | NVS_JDATAj | PIN_OUT | PIN_CFGn
  deriving DecidableEq, Repr

/-- The address is one of the register's. -/
inductive Reg.At : Reg → Nat → Prop where
  | SYS_WERR_CODE : At .SYS_WERR_CODE R.SYS_WERR_CODE
  | SYS_WERR_ADDR : At .SYS_WERR_ADDR R.SYS_WERR_ADDR
  | SYS_WERR_PM : At .SYS_WERR_PM R.SYS_WERR_PM
  | PST_PM : At .PST_PM R.PST_PM
  | PST_EPOCH : At .PST_EPOCH R.PST_EPOCH
  | PST_SLEEP : At .PST_SLEEP R.PST_SLEEP
  | PST_OUTST : At .PST_OUTST R.PST_OUTST
  | PST_MERR_CODE : At .PST_MERR_CODE R.PST_MERR_CODE
  | PST_MERR_ADDR : At .PST_MERR_ADDR R.PST_MERR_ADDR
  | PST_MERR_PM : At .PST_MERR_PM R.PST_MERR_PM
  | PST_DLJ_CNT : At .PST_DLJ_CNT R.PST_DLJ_CNT
  | PST_DLJ_LOST : At .PST_DLJ_LOST R.PST_DLJ_LOST
  | PHn_CFG (n : Nat) : At .PHn_CFG (R.PHn_CFG n)
  | PHn_LIM (n : Nat) : At .PHn_LIM (R.PHn_LIM n)
  | PHn_BASE (n : Nat) : At .PHn_BASE (R.PHn_BASE n)
  | PHn_HEAD (n : Nat) : At .PHn_HEAD (R.PHn_HEAD n)
  | PHn_TAIL (n : Nat) : At .PHn_TAIL (R.PHn_TAIL n)
  | PHn_SEQ (n : Nat) : At .PHn_SEQ (R.PHn_SEQ n)
  | PHn_STAT (n : Nat) : At .PHn_STAT (R.PHn_STAT n)
  | FEn_STATE (n : Nat) : At .FEn_STATE (R.FEn_STATE n)
  | FEn_LOOPCFG (n : Nat) : At .FEn_LOOPCFG (R.FEn_LOOPCFG n)
  | FEn_PERIOD (n : Nat) : At .FEn_PERIOD (R.FEn_PERIOD n)
  | FEn_LEAD (n : Nat) : At .FEn_LEAD (R.FEn_LEAD n)
  | FEn_BASE (n : Nat) : At .FEn_BASE (R.FEn_BASE n)
  | FEn_GAINS (n : Nat) : At .FEn_GAINS (R.FEn_GAINS n)
  | FEn_OUTKP (n : Nat) : At .FEn_OUTKP (R.FEn_OUTKP n)
  | FEn_OUTKI (n : Nat) : At .FEn_OUTKI (R.FEn_OUTKI n)
  | FEn_ADAPT (n : Nat) : At .FEn_ADAPT (R.FEn_ADAPT n)
  | FEn_ADFAC (n : Nat) : At .FEn_ADFAC (R.FEn_ADFAC n)
  | FEn_PHASE (n : Nat) : At .FEn_PHASE (R.FEn_PHASE n)
  | FEn_HCFGk (n k : Nat) : At .FEn_HCFGk (R.FEn_HCFGk n k)
  | FEn_HAMPk (n k : Nat) : At .FEn_HAMPk (R.FEn_HAMPk n k)
  | FEn_EVT (n : Nat) : At .FEn_EVT (R.FEn_EVT n)
  | FEn_ERRCNT (n : Nat) : At .FEn_ERRCNT (R.FEn_ERRCNT n)
  | FEn_WDCNT (n : Nat) : At .FEn_WDCNT (R.FEn_WDCNT n)
  | FEn_MON_I (n : Nat) : At .FEn_MON_I (R.FEn_MON_I n)
  | FEn_MON_IREF (n : Nat) : At .FEn_MON_IREF (R.FEn_MON_IREF n)
  | FEn_MON_V (n : Nat) : At .FEn_MON_V (R.FEn_MON_V n)
  | FEn_MON_ANG (n : Nat) : At .FEn_MON_ANG (R.FEn_MON_ANG n)
  | FEn_MON_SPD (n : Nat) : At .FEn_MON_SPD (R.FEn_MON_SPD n)
  | FEn_MON_PRE (n : Nat) : At .FEn_MON_PRE (R.FEn_MON_PRE n)
  | FEn_TMPLj (n j : Nat) : At .FEn_TMPLj (R.FEn_TMPLj n j)
  | MOD_STAT : At .MOD_STAT R.MOD_STAT
  | MOD_EVT : At .MOD_EVT R.MOD_EVT
  | MOD_LCFGn (n : Nat) : At .MOD_LCFGn (R.MOD_LCFGn n)
  | MOD_DIDTn (n : Nat) : At .MOD_DIDTn (R.MOD_DIDTn n)
  | MOD_LCNTn (n : Nat) : At .MOD_LCNTn (R.MOD_LCNTn n)
  | MOD_LTRIPn (n : Nat) : At .MOD_LTRIPn (R.MOD_LTRIPn n)
  | GLK_EVT : At .GLK_EVT R.GLK_EVT
  | GLKk_STAT (k : Nat) : At .GLKk_STAT (R.GLKk_STAT k)
  | GLKk_ERR (k : Nat) : At .GLKk_ERR (R.GLKk_ERR k)
  | GLKk_DRVj (k j : Nat) : At .GLKk_DRVj (R.GLKk_DRVj k j)
  | FCV_OVR : At .FCV_OVR R.FCV_OVR
  | FCV_CHn_CORR (n : Nat) : At .FCV_CHn_CORR (R.FCV_CHn_CORR n)
  | FCV_CHn_LAST (n : Nat) : At .FCV_CHn_LAST (R.FCV_CHn_LAST n)
  | RNDr_STATE (r : Nat) : At .RNDr_STATE (R.RNDr_STATE r)
  | RNDr_EVT (r : Nat) : At .RNDr_EVT (R.RNDr_EVT r)
  | RNDr_URGRES (r : Nat) : At .RNDr_URGRES (R.RNDr_URGRES r)
  | RNDr_RQSTAT (r : Nat) : At .RNDr_RQSTAT (R.RNDr_RQSTAT r)
  | RNDr_RQLO (r : Nat) : At .RNDr_RQLO (R.RNDr_RQLO r)
  | RNDr_RQHI (r : Nat) : At .RNDr_RQHI (R.RNDr_RQHI r)
  | RNDr_STALE (r : Nat) : At .RNDr_STALE (R.RNDr_STALE r)
  | RNDr_CORRk (r k : Nat) : At .RNDr_CORRk (R.RNDr_CORRk r k)
  | RNDr_SEQe (r e : Nat) : At .RNDr_SEQe (R.RNDr_SEQe r e)
  | RNDr_LIMe (r e : Nat) : At .RNDr_LIMe (R.RNDr_LIMe r e)
  | RNDr_LASTc (r c : Nat) : At .RNDr_LASTc (R.RNDr_LASTc r c)
  | POS_STATE : At .POS_STATE R.POS_STATE
  | POS_EVT : At .POS_EVT R.POS_EVT
  | POSk_CFG (k : Nat) : At .POSk_CFG (R.POSk_CFG k)
  | POSk_OFS (k : Nat) : At .POSk_OFS (R.POSk_OFS k)
  | POSk_ANG (k : Nat) : At .POSk_ANG (R.POSk_ANG k)
  | POSk_SPD (k : Nat) : At .POSk_SPD (R.POSk_SPD k)
  | POSk_STAT (k : Nat) : At .POSk_STAT (R.POSk_STAT k)
  | POSk_FLT (k : Nat) : At .POSk_FLT (R.POSk_FLT k)
  | SENT_STATE : At .SENT_STATE R.SENT_STATE
  | SENT_EVT : At .SENT_EVT R.SENT_EVT
  | SENTi_CFG (i : Nat) : At .SENTi_CFG (R.SENTi_CFG i)
  | SENTi_FAST (i : Nat) : At .SENTi_FAST (R.SENTi_FAST i)
  | SENTi_SLOW (i : Nat) : At .SENTi_SLOW (R.SENTi_SLOW i)
  | SENTi_ERR (i : Nat) : At .SENTi_ERR (R.SENTi_ERR i)
  | SENTi_TIME (i : Nat) : At .SENTi_TIME (R.SENTi_TIME i)
  | CHG_STATE : At .CHG_STATE R.CHG_STATE
  | CHG_PILOT : At .CHG_PILOT R.CHG_PILOT
  | CHG_ILIM : At .CHG_ILIM R.CHG_ILIM
  | CHG_FLT : At .CHG_FLT R.CHG_FLT
  | CHG_EVT : At .CHG_EVT R.CHG_EVT
  | CHG_TIME : At .CHG_TIME R.CHG_TIME
  | CHG_CFG : At .CHG_CFG R.CHG_CFG
  | REG_STATE : At .REG_STATE R.REG_STATE
  | REG_EVT : At .REG_EVT R.REG_EVT
  | REG_FLT : At .REG_FLT R.REG_FLT
  | REG_TARGET : At .REG_TARGET R.REG_TARGET
  | REG_SHED : At .REG_SHED R.REG_SHED
  | REG_OUT : At .REG_OUT R.REG_OUT
  | REG_LIM : At .REG_LIM R.REG_LIM
  | REG_VIN : At .REG_VIN R.REG_VIN
  | REG_PHn (n : Nat) : At .REG_PHn (R.REG_PHn n)
  | REG_CFG : At .REG_CFG R.REG_CFG
  | ACT_STAT : At .ACT_STAT R.ACT_STAT
  | ACT_EVT : At .ACT_EVT R.ACT_EVT
  | ACT_VACT : At .ACT_VACT R.ACT_VACT
  | ACk_STATE (k : Nat) : At .ACk_STATE (R.ACk_STATE k)
  | ACk_CFG (k : Nat) : At .ACk_CFG (R.ACk_CFG k)
  | ACk_RATED (k : Nat) : At .ACk_RATED (R.ACk_RATED k)
  | ACk_SPD (k : Nat) : At .ACk_SPD (R.ACk_SPD k)
  | ACk_I (k : Nat) : At .ACk_I (R.ACk_I k)
  | ACk_EVT (k : Nat) : At .ACk_EVT (R.ACk_EVT k)
  | ACk_FLT (k : Nat) : At .ACk_FLT (R.ACk_FLT k)
  | ACk_LATCH (k : Nat) : At .ACk_LATCH (R.ACk_LATCH k)
  | ACk_LEAKL (k : Nat) : At .ACk_LEAKL (R.ACk_LEAKL k)
  | ACk_LEAKH (k : Nat) : At .ACk_LEAKH (R.ACk_LEAKH k)
  | ACk_BOOT (k : Nat) : At .ACk_BOOT (R.ACk_BOOT k)
  | GBX_STATE : At .GBX_STATE R.GBX_STATE
  | GBX_EVT : At .GBX_EVT R.GBX_EVT
  | GBX_FLT : At .GBX_FLT R.GBX_FLT
  | GBX_POS0 : At .GBX_POS0 R.GBX_POS0
  | GBX_POS1 : At .GBX_POS1 R.GBX_POS1
  | GBX_CFG : At .GBX_CFG R.GBX_CFG
  | GBX_SENT : At .GBX_SENT R.GBX_SENT
  | LDG_STATE : At .LDG_STATE R.LDG_STATE
  | LDG_EVT : At .LDG_EVT R.LDG_EVT
  | LDG_IMB : At .LDG_IMB R.LDG_IMB
  | LDG_ROUND : At .LDG_ROUND R.LDG_ROUND
  | LDG_WQSTAT : At .LDG_WQSTAT R.LDG_WQSTAT
  | LDG_KABHI : At .LDG_KABHI R.LDG_KABHI
  | LDG_KASKIP : At .LDG_KASKIP R.LDG_KASKIP
  | LDG_KAWAKE : At .LDG_KAWAKE R.LDG_KAWAKE
  | LDG_NRESk (k : Nat) : At .LDG_NRESk (R.LDG_NRESk k)
  | LDG_PNf (f : Nat) : At .LDG_PNf (R.LDG_PNf f)
  | LDG_EDf (f : Nat) : At .LDG_EDf (R.LDG_EDf f)
  | LDG_ERf (f : Nat) : At .LDG_ERf (R.LDG_ERf f)
  | LDG_Pp_CFG (p : Nat) : At .LDG_Pp_CFG (R.LDG_Pp_CFG p)
  | LDG_Pp_PWR (p : Nat) : At .LDG_Pp_PWR (R.LDG_Pp_PWR p)
  | LDG_Pp_EHI (p : Nat) : At .LDG_Pp_EHI (R.LDG_Pp_EHI p)
  | LDG_Pp_MAXD (p : Nat) : At .LDG_Pp_MAXD (R.LDG_Pp_MAXD p)
  | LDG_Pp_MAXR (p : Nat) : At .LDG_Pp_MAXR (R.LDG_Pp_MAXR p)
  | LDG_Pp_IMBW (p : Nat) : At .LDG_Pp_IMBW (R.LDG_Pp_IMBW p)
  | LDG_Pp_IMBT (p : Nat) : At .LDG_Pp_IMBT (R.LDG_Pp_IMBT p)
  | LSC_CFG : At .LSC_CFG R.LSC_CFG
  | LSC_STAT : At .LSC_STAT R.LSC_STAT
  | LSC_EVT : At .LSC_EVT R.LSC_EVT
  | LSC_STEST : At .LSC_STEST R.LSC_STEST
  | LSC_MCAUSEn (n : Nat) : At .LSC_MCAUSEn (R.LSC_MCAUSEn n)
  | LSC_MPCn (n : Nat) : At .LSC_MPCn (R.LSC_MPCn n)
  | LSC_MTIMEn (n : Nat) : At .LSC_MTIMEn (R.LSC_MTIMEn n)
  | LSC_MCNTn (n : Nat) : At .LSC_MCNTn (R.LSC_MCNTn n)
  | SSM_STATE : At .SSM_STATE R.SSM_STATE
  | SSM_CAUSE : At .SSM_CAUSE R.SSM_CAUSE
  | SSM_EVT : At .SSM_EVT R.SSM_EVT
  | SSM_LASTF : At .SSM_LASTF R.SSM_LASTF
  | SSM_ASC : At .SSM_ASC R.SSM_ASC
  | SSM_HB : At .SSM_HB R.SSM_HB
  | SSM_PAT0 : At .SSM_PAT0 R.SSM_PAT0
  | SSM_PAT1 : At .SSM_PAT1 R.SSM_PAT1
  | SSM_PATX : At .SSM_PATX R.SSM_PATX
  | SSM_OTEST : At .SSM_OTEST R.SSM_OTEST
  | SSM_WDSTATn (n : Nat) : At .SSM_WDSTATn (R.SSM_WDSTATn n)
  | RST_STATE : At .RST_STATE R.RST_STATE
  | RST_CAUSE : At .RST_CAUSE R.RST_CAUSE
  | RST_PEND : At .RST_PEND R.RST_PEND
  | RST_START : At .RST_START R.RST_START
  | RST_WAKE : At .RST_WAKE R.RST_WAKE
  | RST_EVT : At .RST_EVT R.RST_EVT
  | RST_OPTIME : At .RST_OPTIME R.RST_OPTIME
  | RST_PVECn (n : Nat) : At .RST_PVECn (R.RST_PVECn n)
  | CLK_STAT : At .CLK_STAT R.CLK_STAT
  | CLK_EVT : At .CLK_EVT R.CLK_EVT
  | CLK_LAST : At .CLK_LAST R.CLK_LAST
  | CLK_FREQi (i : Nat) : At .CLK_FREQi (R.CLK_FREQi i)
  | THM_STATE : At .THM_STATE R.THM_STATE
  | THM_EVT : At .THM_EVT R.THM_EVT
  | THM_TCFG : At .THM_TCFG R.THM_TCFG
  | THM_SUPFLT : At .THM_SUPFLT R.THM_SUPFLT
  | THM_TEMPs (s : Nat) : At .THM_TEMPs (R.THM_TEMPs s)
  | THM_SUPr (r : Nat) : At .THM_SUPr (R.THM_SUPr r)
  | EVC_EVT : At .EVC_EVT R.EVC_EVT
  | EVC_DBSET : At .EVC_DBSET R.EVC_DBSET
  | EVC_STRAND : At .EVC_STRAND R.EVC_STRAND
  | EVC_FASTt (t : Nat) : At .EVC_FASTt (R.EVC_FASTt t)
  | EVC_WAKEt (t : Nat) : At .EVC_WAKEt (R.EVC_WAKEt t)
  | EVC_SRCm (m : Nat) : At .EVC_SRCm (R.EVC_SRCm m)
  | CANn_STATE (n : Nat) : At .CANn_STATE (R.CANn_STATE n)
  | CANn_EVT (n : Nat) : At .CANn_EVT (R.CANn_EVT n)
  | CANn_MODE (n : Nat) : At .CANn_MODE (R.CANn_MODE n)
  | CANn_TIMING (n : Nat) : At .CANn_TIMING (R.CANn_TIMING n)
  | CANn_IDS (n : Nat) : At .CANn_IDS (R.CANn_IDS n)
  | CANn_CNT (n : Nat) : At .CANn_CNT (R.CANn_CNT n)
  | ETHp_STATE (p : Nat) : At .ETHp_STATE (R.ETHp_STATE p)
  | ETHp_EVT (p : Nat) : At .ETHp_EVT (R.ETHp_EVT p)
  | ETHp_CFG (p : Nat) : At .ETHp_CFG (R.ETHp_CFG p)
  | ETHp_MACL (p : Nat) : At .ETHp_MACL (R.ETHp_MACL p)
  | ETHp_MACH (p : Nat) : At .ETHp_MACH (R.ETHp_MACH p)
  | ETHp_OFFS (p : Nat) : At .ETHp_OFFS (R.ETHp_OFFS p)
  | ETHp_RATE (p : Nat) : At .ETHp_RATE (R.ETHp_RATE p)
  | ETHp_MDIO (p : Nat) : At .ETHp_MDIO (R.ETHp_MDIO p)
  | ETHp_CNT (p : Nat) : At .ETHp_CNT (R.ETHp_CNT p)
  | ETHp_GCLj (p j : Nat) : At .ETHp_GCLj (R.ETHp_GCLj p j)
  | SEC_EVT : At .SEC_EVT R.SEC_EVT
  | SEC_DBGCHALj (j : Nat) : At .SEC_DBGCHALj (R.SEC_DBGCHALj j)
  | SEC_DBGRESPj (j : Nat) : At .SEC_DBGRESPj (R.SEC_DBGRESPj j)
  | DBG_REPLAYn (n : Nat) : At .DBG_REPLAYn (R.DBG_REPLAYn n)
  | DBG_HALTSt (t : Nat) : At .DBG_HALTSt (R.DBG_HALTSt t)
  | MEM_EVT : At .MEM_EVT R.MEM_EVT
  | MEM_LASTADDR : At .MEM_LASTADDR R.MEM_LASTADDR
  | MEM_LASTINFO : At .MEM_LASTINFO R.MEM_LASTINFO
  | MEM_INJ : At .MEM_INJ R.MEM_INJ
  | MEM_CRIT : At .MEM_CRIT R.MEM_CRIT
  | MEM_CNTs (s : Nat) : At .MEM_CNTs (R.MEM_CNTs s)
  | NVS_STATE : At .NVS_STATE R.NVS_STATE
  | NVS_EVT : At .NVS_EVT R.NVS_EVT
  | NVS_WSTAT : At .NVS_WSTAT R.NVS_WSTAT
  | NVS_JSEQ : At .NVS_JSEQ R.NVS_JSEQ
  | NVS_JLOST : At .NVS_JLOST R.NVS_JLOST
  | NVS_WDATAj (j : Nat) : At .NVS_WDATAj (R.NVS_WDATAj j)
  | NVS_JDATAj (j : Nat) : At .NVS_JDATAj (R.NVS_JDATAj j)
  | PIN_OUT : At .PIN_OUT R.PIN_OUT
  | PIN_CFGn (n : Nat) : At .PIN_CFGn (R.PIN_CFGn n)

/-- The parts of the state, by the names of its fields: what a frame statement can name. Registers are named one by one (`reg`), or as a
whole (`regs`). -/
inductive Part where
  | variant | split | bootSplit | rate | frac | time | up | regs | mem | err | units | po | img | imgSlot | fallback | icheck
  | fcheck | nvs | eng | mdl | gf | rnd | pos | sent | tra | chg | hlv | rgl | act | gbx | ldg | cores | lsc | ssm | rst
  | evc | driveEn | actEn | aon | pads | thm | can | eth | sec | dbg | pins | recovery | restFail | memCap | mramClosed
  | linkTries | resp | tick | pending
  | reg (r : Reg)
  deriving DecidableEq, Repr

/-- Every part, the registers as a whole. -/
def Part.all : List Part :=
  [.variant, .split, .bootSplit, .rate, .frac, .time, .up, .regs, .mem, .err, .units, .po, .img, .imgSlot, .fallback, .icheck,
   .fcheck, .nvs, .eng, .mdl, .gf, .rnd, .pos, .sent, .tra, .chg, .hlv, .rgl, .act, .gbx, .ldg, .cores, .lsc, .ssm, .rst, .evc,
   .driveEn, .actEn, .aon, .pads, .thm, .can, .eth, .sec, .dbg, .pins, .recovery, .restFail, .memCap, .mramClosed, .linkTries,
   .resp, .tick, .pending]

/-- Every part but some. -/
def Part.allBut (l : List Part) : List Part := Part.all.filter fun p => !l.contains p

/-- A part reads the same in two states; of registers, `Frame.regs` says it. -/
def Part.same (p : Part) (s t : State) : Prop :=
  match p with
  | .variant => t.variant = s.variant
  | .split => t.split = s.split
  | .bootSplit => t.bootSplit = s.bootSplit
  | .rate => t.rate = s.rate
  | .frac => t.frac = s.frac
  | .time => t.time = s.time
  | .up => t.up = s.up
  | .regs => True
  | .reg _ => True
  | .mem => t.mem = s.mem
  | .err => t.err = s.err
  | .units => t.units = s.units
  | .po => t.po = s.po
  | .img => t.img = s.img
  | .imgSlot => t.imgSlot = s.imgSlot
  | .fallback => t.fallback = s.fallback
  | .icheck => t.icheck = s.icheck
  | .fcheck => t.fcheck = s.fcheck
  | .nvs => t.nvs = s.nvs
  | .eng => t.eng = s.eng
  | .mdl => t.mdl = s.mdl
  | .gf => t.gf = s.gf
  | .rnd => t.rnd = s.rnd
  | .pos => t.pos = s.pos
  | .sent => t.sent = s.sent
  | .tra => t.tra = s.tra
  | .chg => t.chg = s.chg
  | .hlv => t.hlv = s.hlv
  | .rgl => t.rgl = s.rgl
  | .act => t.act = s.act
  | .gbx => t.gbx = s.gbx
  | .ldg => t.ldg = s.ldg
  | .cores => t.cores = s.cores
  | .lsc => t.lsc = s.lsc
  | .ssm => t.ssm = s.ssm
  | .rst => t.rst = s.rst
  | .evc => t.evc = s.evc
  | .driveEn => t.driveEn = s.driveEn
  | .actEn => t.actEn = s.actEn
  | .aon => t.aon = s.aon
  | .pads => t.pads = s.pads
  | .thm => t.thm = s.thm
  | .can => t.can = s.can
  | .eth => t.eth = s.eth
  | .sec => t.sec = s.sec
  | .dbg => t.dbg = s.dbg
  | .pins => t.pins = s.pins
  | .recovery => t.recovery = s.recovery
  | .restFail => t.restFail = s.restFail
  | .memCap => t.memCap = s.memCap
  | .mramClosed => t.mramClosed = s.mramClosed
  | .linkTries => t.linkTries = s.linkTries
  | .resp => t.resp = s.resp
  | .tick => t.tick = s.tick
  | .pending => t.pending = s.pending

/-- What a journal entry writes (R455), and more. -/
def Part.journal (l : List Part) : List Part :=
  .reg .NVS_EVT :: .reg .NVS_JLOST :: .reg .NVS_JSEQ :: .reg .PST_DLJ_CNT :: .reg .PST_DLJ_LOST :: .nvs :: l

/-- What a receipt writes, and more: its pigeonhole, queue memory (with an injected error, R451), the dead-letter journal (R92, R96). -/
def Part.receipt (l : List Part) : List Part :=
  Part.journal (.reg .PHn_STAT :: .reg .PHn_TAIL :: .reg .MEM_INJ :: .err :: .po :: l)

/-- Every part of d is in c; a register is in `regs`. -/
def Part.sub (d c : List Part) : Bool :=
  d.all fun p => c.contains p || match p with | .reg _ => c.contains .regs | _ => false

/-- A frame: from s to t, nothing has changed outside the parts and registers of c. -/
structure Frame (c : List Part) (s t : State) : Prop where
  outside : ∀ p, p ∈ c ∨ p.same s t
  regs : ∀ a, Part.regs ∈ c ∨ (∃ r, Part.reg r ∈ c ∧ r.At a) ∨ t.reg a = s.reg a

/-- The letter passes every delivery check of R85: of its own opcode, as its unit's chapter states them, and of every letter. -/
def Passes (sp : LetterSpec) (s : State) (m : Msg) : Prop := verdict sp s m = none

/-- A command answers a next state, and of it P holds. -/
def Answers (c : Instr) (s : State) (P : State → Prop) : Prop := ∃ t, exec c s = .next t ∧ P t

/-- Whenever the command answers a next state, nothing has changed outside the parts and registers of l. -/
def Framed (s : State) (c : Instr) (l : List Part) : Prop := ∀ t, exec c s = .next t → Frame l s t

/-- Every byte of storage whose key is outside the n from k reads the same in two states. -/
def BytesKept (k n : Nat) (s t : State) : Prop := ∀ x, x < k ∨ k + n ≤ x → t.byte x = s.byte x

/-- The letter a command is, with what the chapters say of its opcode; none for a command that is no letter. -/
def letterOf : Instr → Option (LetterSpec × Msg)
  | .write m => some (specWrite, m)
  | .read m => some (specRead, m)
  | .state m => some (specState, m)
  | .abort m => some (specAbort, m)
  | .imageWrite m => some (specSlotWrite 1, m)
  | .imageCheck m => some (specSlotCheck false, m)
  | .imageCommit m => some (specCommit false, m)
  | .fwWrite m => some (specSlotWrite 2, m)
  | .fwCheck m => some (specSlotCheck true, m)
  | .fwCommit m => some (specCommit true, m)
  | .feHarm m => some (specFeHarm, m)
  | .feAdapt m => some (specFeAdapt, m)
  | .feGains m => some (specFeGains, m)
  | .feClear m => some (specFeClear, m)
  | .drvRead m => some (specDrvRead, m)
  | .drvWrite m => some (specDrvWrite, m)
  | .rndRun m => some (specRndRun, m)
  | .rndHalt m => some (specRndHalt, m)
  | .rndUrgent m => some (specRndUrgent, m)
  | .rndClear m => some (specRndClear, m)
  | .posRun m => some (specPosRun, m)
  | .posStop m => some (specPosStop, m)
  | .sentRun m => some (specSentRun, m)
  | .sentStop m => some (specSentStop, m)
  | .traArm m => some (specTraArm, m)
  | .traRun m => some (specTraRun, m)
  | .traTorque m => some (specTraTorque, m)
  | .traStop m => some (specTraStop, m)
  | .traDisarm m => some (specTraDisarm, m)
  | .traClear m => some (specTraClear, m)
  | .chopRun m => some (specChopRun, m)
  | .chopHalt m => some (specChopHalt, m)
  | .chgArm m => some (specChgArm, m)
  | .chgStart m => some (specChgStart, m)
  | .chgStop m => some (specChgStop, m)
  | .chgDisarm m => some (specChgDisarm, m)
  | .chgLimit m => some (specChgLimit, m)
  | .chgBms m => some (specChgBms, m)
  | .chgClear m => some (specChgClear, m)
  | .transport m => some (specTransport, m)
  | .hlvArm m => some (specHlvArm, m)
  | .hlvRun m => some (specHlvRun, m)
  | .hlvSet m => some (specHlvSet, m)
  | .hlvStop m => some (specHlvStop, m)
  | .hlvDisarm m => some (specHlvDisarm, m)
  | .hlvClear m => some (specHlvClear, m)
  | .regArm m => some (specRegArm, m)
  | .regRun m => some (specRegRun, m)
  | .regStop m => some (specRegStop, m)
  | .regDisarm m => some (specRegDisarm, m)
  | .regSet m => some (specRegSet, m)
  | .regClear m => some (specRegClear, m)
  | .actArm m => some (specActArm, m)
  | .actRun m => some (specActRun, m)
  | .actSpeed m => some (specActSpeed, m)
  | .actStop m => some (specActStop, m)
  | .actDisarm m => some (specActDisarm, m)
  | .actClear m => some (specActClear, m)
  | .actLeaktest m => some (specActLeaktest, m)
  | .gbxRun m => some (specGbxRun, m)
  | .gbxHalt m => some (specGbxHalt, m)
  | .gbxShift m => some (specGbxShift, m)
  | .gbxPark m => some (specGbxPark, m)
  | .gbxClutch m => some (specGbxClutch, m)
  | .gbxClear m => some (specGbxClear, m)
  | .ldgBattery m => some (specLdgBattery, m)
  | .ldgKeepalive m => some (specLdgKeepalive, m)
  | .ssmRelease m => some (specSsmRelease, m)
  | .ssmForce m => some (specSsmForce, m)
  | .rstUnit m => some (specRstUnit, m)
  | .rstPair m => some (specRstPair, m)
  | .rstSystem m => some (specRstSystem, m)
  | .standby m => some (specStandby, m)
  | .evcRing m => some (specEvcRing, m)
  | .netRun m => some (specNetRun, m)
  | .netHalt m => some (specNetHalt, m)
  | .secRevoke m => some (specSecRevoke, m)
  | .secFkey m => some (specSecFkey, m)
  | .secSak m => some (specSecSak, m)
  | _ => none

/-- No trigger of the core that sends with code c matches the access to address a, and its PMP lets it through (R390, R434): bit 0 for a read,
1 for a write. -/
def State.Lets (s : State) (c a bit : Nat) : Prop := (s.barred (.core c) a bit).isNone = true

/-- A core's write of the word to the register passes the checks of R8 and R16 to R18, and the checks of the unit's own that `own` holds, and
nothing of the core's own bars it. -/
def State.Writes (s : State) (c a : Nat) (v : Word) (own : List Status := []) : Prop :=
  regFirst (s.mapFails a v ++ own) = none ∧ s.Lets c a 1

/-- The word of the register after a write of v (Table SCO-14). -/
def State.written (s : State) (a : Nat) (v : Word) : Word :=
  match findReg a with
  | none => s.reg a
  | some r => writtenWord r.desc (s.reg a) v

/-- A run of steps from a state stays among next states: no command of the table stops the block. -/
def State.runs (s : State) : Nat → Prop
  | 0 => True
  | n + 1 => ∃ t, step s = .next t ∧ t.runs n

end Sys2Proof.Machine
end

