-- ==== Sys2Proof/Certificates/Slice0/Obligations.lean ====
section
/-!
DEFINITION. The statements for the provers: the step and the post office's rules; for every command, where it completes and with what result;
for every command, what it leaves unchanged. `Answers c s P` says that the command answers a next state of which P holds.
-/
open Sys2Proof Sys2Proof.Machine

/-- The step takes the command at the front of the queue and runs it on the state with the queue's rest. -/
def Obligations.StepRunsFront : Prop := ∀ (s : State) (c : Instr) (q : List Instr), s.pending = c :: q → step s = exec c { s with pending := q }

/-- With no command waiting, 5 ns pass, and the time of record advances by 5 ns, by 4 or 6 where the rate correction of R421 has added up to
one, by 5 where it is zero. What then happens by itself (the legs' output chains, a regulator's waiting pulse and its override wire, the
debugger's queued replay, the reset of a pair that a letter asked for) moves only the parts of the state named; and where no leg
is in use or under an override and none of the others waits, nothing else changes. The model's choice, log 2. -/
def Obligations.IdleStep : Prop := ∀ (s : State), s.pending = [] → let u := s.timeOn
  ∃ t, step s = .next t ∧ t.up = s.up + 5 ∧ t.time = u.time ∧ s.time + 4 ≤ t.time ∧ t.time ≤ s.time + 6 ∧
    (s.rate = 0 → s.frac.natAbs < 1000000000 → t.time = s.time + 5) ∧
    Frame [.time, .up, .frac, .po, .eng, .mdl, .tra, .chg, .ldg, .ssm, .pads, .rgl, .cores, .lsc, .rst, .reg .FEn_EVT, .reg .FEn_WDCNT,
    .reg .MOD_STAT, .reg .MOD_EVT, .reg .MOD_LCNTn, .reg .MOD_LTRIPn, .reg .CHG_ILIM, .reg .CHG_FLT, .reg .CHG_EVT, .reg .LDG_EVT,
    .reg .LDG_WQSTAT, .reg .LDG_PNf, .reg .DBG_REPLAYn, .reg .PST_SLEEP, .reg .LSC_STAT, .reg .SSM_WDSTATn, .reg .RST_CAUSE,
    .reg .RST_PEND] s t ∧
    (u.gateLegs = [] → s.rgl.waiting = false → u.regWire = s.pads.wire → s.pads.wireEdge = none → (∀ n, n < 4 → (s.pairSt n).replay = 0) →
      s.rst.swPairs = 0 → Frame [.time, .up, .frac] s t)

/-- The output chain of the pool legs (R22, R123, R132, R139, R141, R144): 5 ns later no leg drives both its switches; a leg under a latch, and
every leg while DRIVE_EN is low, drives neither, whatever the override; the override code 0b01 leaves at most the low switch on, 0b10 at
most the high one, 0b11 neither. -/
def Obligations.OutputChain : Prop := ∀ (s t : State) (n : Nat), n < 48 → s.pending = [] → step s = .next t →
  ¬(t.pinGH n = true ∧ t.pinGL n = true) ∧ (t.latchOf n ≠ 0 ∨ t.driveEn = false → t.pinGH n = false ∧ t.pinGL n = false) ∧
  (s.legOvr n = 1 → t.pinGH n = false) ∧ (s.legOvr n = 2 → t.pinGL n = false) ∧ (s.legOvr n = 3 → t.pinGH n = false ∧ t.pinGL n = false)

/-- No command stops the block: each answers a next state, and so does every run of steps. -/
def Obligations.NoCommandStops : Prop := (∀ (c : Instr) (s : State), ∃ t, exec c s = .next t) ∧ ∀ (s : State) (n : Nat), s.runs n

/-- After reset, memory and registers are in canonical form. -/
def Obligations.ResetCanonical : Prop := Memory.wf State.reset.mem = true ∧ Registers.wf State.reset.regs = true

/-- What the manual gives the machine at reset: every register its reset value, among them SYS_ID, PST_PM and PST_EPOCH; every unit of the
variant OFF; no pigeonhole enabled and no ring filled; no operation outstanding, no letter queued, no journal entry waiting; the time of
record 0. The variant itself is the model's choice, log 1. -/
def Obligations.ResetLeaves : Prop :=
  (∀ a, State.reset.reg a = BitVec.ofNat 32 (resetWord a)) ∧ State.reset.reg R.SYS_ID = 0x08804B44 ∧ State.reset.pm = 1 ∧
  State.reset.reg R.PST_EPOCH = 100 ∧ State.reset.time = 0 ∧
  (∀ u, unitPresent State.reset.variant u = true → State.reset.ust u = .off) ∧
  (∀ ph, ph < 64 → State.reset.phEn ph = false ∧ State.reset.phCount ph = 0 ∧ State.reset.fld (R.PHn_SEQ ph) F.PHn_SEQ_SEQ = 0) ∧
  State.reset.po.ops = [] ∧ State.reset.po.mgmt = [] ∧ State.reset.nvs.jbuf = [] ∧ State.reset.pending = []

/-- Memory and registers stay in canonical form, whatever the command: no two states differ in their data only by how they are listed. -/
def Obligations.CanonicalKept : Prop := ∀ (s t : State), Memory.wf s.mem = true → Registers.wf s.regs = true → step s = .next t →
  Memory.wf t.mem = true ∧ Registers.wf t.regs = true

/-- No step turns one variant into another or moves the BOOT_SPLIT pin; the split mode stays or becomes what that pin says (R316); and every
step leaves the rest of the queue as it is. -/
def Obligations.VariantFixed : Prop := ∀ (s t : State), step s = .next t → t.variant = s.variant ∧ t.bootSplit = s.bootSplit ∧
  (t.split = s.split ∨ t.split = s.bootSplit) ∧ t.pending = s.pending.tail

/-- The levels of the fault lines, of DRIVE_EN and of ACT_EN move by their own pin events only. -/
def Obligations.OnlyPinEventsMovePins : Prop := ∀ (c : Instr) (s t : State), exec c s = .next t →
  ((∀ n h, c ≠ .gfFault n h) → t.gf = s.gf) ∧
  ((∀ k l, c ≠ .driveEnRise k l) → c ≠ .driveEnFall → t.driveEn = s.driveEn) ∧
  ((∀ k l, c ≠ .actEnRise k l) → c ≠ .actEnFall → t.actEn = s.actEn)

/-- A refused letter changes no unit: only its receipt, the dead-letter journal and, for a management letter, PST_MERR_CODE. -/
def Obligations.RefusedLetterChangesNothing : Prop := ∀ (c : Instr) (sp : LetterSpec) (m : Msg) (s : State) (st : Status),
  letterOf c = some (sp, m) → verdict sp s m = some st → s.po.ready = [] →
  Answers c s fun t => Frame (Part.receipt [.reg .PST_MERR_CODE]) s t ∧ t.po.ops = s.po.ops ∧ t.po.mgmt = s.po.mgmt ∧ t.po.hw = s.po.hw ∧
    t.po.deferred = s.po.deferred

/-- A refused letter of a pigeonhole gets a receipt with the status of the failing check that comes first, at the tail of the producer's
receipt ring. -/
def Obligations.RefusedLetterReceipt : Prop := ∀ (c : Instr) (sp : LetterSpec) (m : Msg) (s : State) (st : Status) (n p : Nat),
  letterOf c = some (sp, m) → verdict sp s m = some st → st.ok = false → s.po.ready = [] → m.src = .ph n → s.receiptPh n (m.letter.flags % 4) = some p →
  s.phCount p < s.phSize p → s.phSize p ≤ 4096 →
  Answers c s fun t => t.phTail p = (s.phTail p + 1) % (2 * s.phSize p) ∧
    t.slot (s.phSlot p (s.phTail p)) = .receipt ⟨m.letter.opcode, m.letter.unit, st, m.letter.seq, s.pm, s.pm, sp.detail s m st⟩

/-- The postmark (R81): its value after a system and a power-on reset, its successor, its order, and when the letter at the head of a ring
falls due. -/
def Obligations.Postmark : Prop :=
  State.reset.pm = 1 ∧ (∀ s : State, s.systemClear.pm = 1 ∧ s.powerClear.pm = 1) ∧
  (∀ s : State, s.boundaryRuns = true → (∀ k, k < 64 → s.phCount k = 0) → s.po.mgmt = [] → s.po.ops = [] → s.rst.unitReset = [] → s.rst.autoDue = [] →
    Answers .epochBoundary s fun t => t.pm = (if s.pm = 0xFFFFFFFF then 1 else s.pm + 1) ∧ t.pm ≠ 0) ∧
  (∀ a b, a < 2 ^ 32 → b < 2 ^ 32 → (pmBefore a b = true ↔ 1 ≤ ((b : Int) - a) % 2 ^ 32 ∧ ((b : Int) - a) % 2 ^ 32 ≤ 0x7FFFFFFF)) ∧
  ∀ (s : State) (ph : Nat) (l : Letter) (x : Bool), s.phCount ph ≠ 0 → s.slot (s.phSlot ph (s.phHead ph)) = .letter l x →
    (s.headDue ph = true ↔ l.deliverAt = 0 ∨ pmBefore s.pm l.deliverAt = false)

/-- What a reset leaves in the post office (R97): after a system or power-on reset every ring is empty, every sequence number 0, nothing is
outstanding, queued, asleep or waiting for the journal; a pair reset clears the post windows and sleep bits of its pair and nothing else
of the post office. -/
def Obligations.ResetPostOffice : Prop :=
  (∀ (s t : State), t = s.systemClear ∨ t = s.powerClear → (∀ ph, ph < 64 → t.phCount ph = 0 ∧ t.fld (R.PHn_SEQ ph) F.PHn_SEQ_SEQ = 0) ∧
    t.po.ops = [] ∧ t.po.mgmt = [] ∧ t.po.slots = [] ∧ t.reg R.PST_SLEEP = 0 ∧ t.nvs.jbuf = []) ∧
  ∀ (s : State) (n : Nat), n < 4 →
    let codes := if s.split then [U.core (2 * n), U.core (2 * n + 1)] else [U.pair n]
    (∀ ph, ph < 64 → s.phEn ph = true → codes.contains (s.phProducer ph) = true → ((s.pairClear n).pigeon ph).window = []) ∧
    (∀ ph, codes.contains (s.phProducer ph) = false → (s.pairClear n).pigeon ph = s.pigeon ph) ∧
    (∀ ph, ((s.pairClear n).pigeon ph).signalled = (s.pigeon ph).signalled ∧ ((s.pairClear n).pigeon ph).delivered = (s.pigeon ph).delivered) ∧
    (s.pairClear n).po = { s.po with ph := (s.pairClear n).po.ph } ∧
    (∀ c b, c ∈ codes → sleepBit c = some b → bitAt ((s.pairClear n).reg R.PST_SLEEP).toNat b = false) ∧
    (∀ b, b < 32 → (∀ c ∈ codes, sleepBit c ≠ some b) → bitAt ((s.pairClear n).reg R.PST_SLEEP).toNat b = bitAt (s.reg R.PST_SLEEP).toNat b) ∧
    Frame [.po, .cores, .lsc, .reg .PST_SLEEP, .reg .LSC_STAT, .reg .SSM_WDSTATn] s (s.pairClear n)

/-- IMAGE_COMMIT with mode 1 while a power unit is armed, running or stopping (R66): E_STATE, where no check that comes earlier fails. -/
def Obligations.CommitWhileBusy : Prop := ∀ (s : State) (m : Msg), m.marked = false →
  ¬(m.letter.deadline ≠ 0 ∧ pmBefore m.letter.deadline s.pm = true) → m.letter.unit = U.sec → bodyZeroOutside [(16, 17)] m = true → m.u8 17 ≤ 1 →
  m.u8 16 = 1 → s.ust U.sec = .running → s.po.ready = [] →
  ((∃ f ∈ s.functions, s.ust (U.fn f) ∈ [.armed, .running, .stopping]) ∨ s.ust U.chg ∈ [.armed, .running, .stopping] ∨
    ∃ k, k < 4 ∧ s.ust (U.ac k) ∈ [.armed, .running, .stopping]) →
  exec (.imageCommit m) s = .next (refuseLetter s m .eState ((specCommit false).detail s m .eState))

/-- A read of SYS_WERR_CODE (R11), and a rejection captured after it.
`resp` is the model's field for the answer of an access, log 19. -/
def Obligations.RejectionRead : Prop := ∀ (s : State) (c : Nat), s.flag R.SYS_WERR_CODE F.SYS_WERR_CODE_VALID = true →
  s.Lets c R.SYS_WERR_CODE 0 → Answers (.sysWerrCodeRead (.core c)) s fun t => t.resp = ⟨.done, (s.reg R.SYS_WERR_CODE).toNat⟩ ∧
    t.reg R.SYS_WERR_ADDR = BitVec.ofNat 32 s.po.werr.addr ∧ t.reg R.SYS_WERR_PM = BitVec.ofNat 32 s.po.werr.pm ∧
    t.flag R.SYS_WERR_CODE F.SYS_WERR_CODE_VALID = false ∧ t.flag R.SYS_WERR_CODE F.SYS_WERR_CODE_OVERRUN = false ∧
    t.fld R.SYS_WERR_CODE F.SYS_WERR_CODE_CODE = s.fld R.SYS_WERR_CODE F.SYS_WERR_CODE_CODE ∧
    ∀ st a, st.code < 256 → (t.captureWerr st a).flag R.SYS_WERR_CODE F.SYS_WERR_CODE_VALID = true ∧
      (t.captureWerr st a).flag R.SYS_WERR_CODE F.SYS_WERR_CODE_OVERRUN = false

/-- What a claim returns (R399): the deliverable source of a core that is not halted, 0x3FF where MEIP has been 1 since its last claim, else 0; and the record
of MEIP begins anew.
`resp` is the model's field for the answer of an access, log 19. -/
def Obligations.ClaimValue : Prop := ∀ (s : State) (c t : Nat), s.coreFails t = [] → s.coreOfCode c = some t →
  (∀ m ∈ s.evc.raised, 1 ≤ m ∧ m ≤ 256) → (s.core t).halted = false → s.Lets c (R.EVC_CLAIMt t) 0 → Answers (.eventClaim (.core c) t) s fun u =>
    ((∃ m ∈ s.evc.raised, s.deliverable t m = true) → ∃ m ∈ s.evc.raised, s.deliverable t m = true ∧ u.resp = ⟨.done, m⟩) ∧
    ((∀ m ∈ s.evc.raised, s.deliverable t m = false) → u.resp = ⟨.done, if (s.core t).meipSeen then 0x3FF else 0⟩) ∧
    (u.core t).meipSeen = u.meip t

/-- A core's plain store to SRAM or to its TCM that its triggers and PMP let through and the fabric carries without error (R447): of fewer than
32 bytes, a read-modify-write of the codeword that fails as a bus error on an uncorrectable error and then stores nothing; of 32 bytes, a write
without a read. E is the error of the codeword with the bytes that the access finds upset.
E_FAULT as the bus error's status is the model's reading, log 15. -/
def Obligations.StoreReadModifyWrite : Prop := ∀ (s : State) (c k : Nat) (op : MemOp), op.store = true → op.fetch = false →
  (regionOf op.addr = .sram ∨ regionOf op.addr = .tcm) → s.keyOf (.core c) op.addr = some k → 0 < op.size → op.addr % op.size = 0 →
  op.kind = .plain → op.fabric = [] → s.Lets c op.addr 1 → let E := mergeErr (s.errAt (k / 32 * 32)) op.upset
  (op.size = 32 → Answers (.memoryAccess (.core c) op) s fun t => t.resp = ⟨.done, 0⟩ ∧ t.bytes k 32 = padTo 32 op.data ∧ BytesKept k 32 s t ∧
    (s.fld R.MEM_INJ F.MEM_INJ_MASK = 0 → t.errAt (k / 32 * 32) = []) ∧ Frame [.mem, .err, .resp, .cores, .reg .MEM_INJ] s t) ∧
  (op.size < 32 → E.length ≤ 3 → Answers (.memoryAccess (.core c) op) s fun t => t.resp = ⟨.done, 0⟩ ∧
    t.bytes k op.size = padTo op.size op.data ∧ BytesKept k op.size s t ∧
    Frame (Part.journal [.mem, .err, .memCap, .resp, .cores, .reg .MEM_EVT, .reg .MEM_LASTINFO, .reg .MEM_CNTs, .reg .MEM_INJ]) s t) ∧
  (op.size < 32 → E.length = 4 → Answers (.memoryAccess (.core c) op) s fun t => t.resp.status = .eFault ∧
    Frame (Part.journal [.err, .memCap, .resp, .cores, .reg .MEM_EVT, .reg .MEM_LASTINFO, .reg .MEM_CNTs]) s t)

/-- A register write that fails a check of R8 (no row of the table's own, not converted): an error response, the capture of its status,
address and postmark with OVERRUN where one was already held (R10), a store access fault taken by the core that wrote, with the address as its
value, and no other change (R4). The exception's code and its entry are those of RISC-V, logs 11 and 224. -/
def Obligations.RegisterRejected : Prop := ∀ (s : State) (c k a : Nat) (v : Word) (r : RegAt) (st : Status), findReg a = some r →
  convertedFe a = none → (rowWrite (.core c) r a v s).isNone = true → regFirst ((s.liveView a).mapFails a v ++ s.plainFails r a v) = some st →
  st.ok = false → st.code < 256 → s.coreOfCode c = some k → s.Lets c a 1 → Answers (.registerWrite (.core c) a v) s fun t => t.resp = ⟨st, 0⟩ ∧
    t.flag R.SYS_WERR_CODE F.SYS_WERR_CODE_VALID = true ∧ t.fld R.SYS_WERR_CODE F.SYS_WERR_CODE_CODE = st.code ∧
    (s.flag R.SYS_WERR_CODE F.SYS_WERR_CODE_VALID = true → t.flag R.SYS_WERR_CODE F.SYS_WERR_CODE_OVERRUN = true) ∧
    t.po.werr = ⟨a, s.pm⟩ ∧ (t.core k).exc = some 7 ∧ (t.core k).std 0x342 = 7 ∧
    (t.core k).std 0x341 = BitVec.ofNat 32 (s.core k).pc ∧ (t.core k).std 0x343 = BitVec.ofNat 32 a ∧ (t.core k).pc = ((s.core k).std 0x305).toNat / 4 * 4 ∧ Frame [.po, .cores, .resp, .reg .SYS_WERR_CODE] s t

/-- TRA_ARM, TRA_RUN, TRA_TORQUE, TRA_STOP, TRA_DISARM, TRA_CLEAR, CHOP_RUN and CHOP_HALT, accepted: the states of record of the
traction and chopper tables, the torque of record and ramp that TRA_TORQUE carries, and the start phase of TRA_RUN: synchronised at once
(path 0) where the position source is VALID, else OBSERVE. -/
def Obligations.TractionLetters : Prop := ∀ (s : State) (m : Msg),
  (Passes specTraArm s m → Answers (.traArm m) s fun t => t.ust m.unit = .armed) ∧
  (Passes specTraRun s m → Answers (.traRun m) s fun t => t.ust m.unit = .running ∧
    (t.tr (fnOf m)).phase = (if s.srcValid (fnOf m) then 0 else 1) ∧ (t.tr (fnOf m)).tEff = 0) ∧
  (Passes specTraTorque s m → Answers (.traTorque m) s fun t => t.units = s.units ∧ (t.tr (fnOf m)).torque = m.i32 16 ∧
    (t.tr (fnOf m)).ramp = m.u32 20) ∧
  (Passes specTraStop s m → Answers (.traStop m) s fun t => t.ust m.unit = .stopping) ∧
  (Passes specTraDisarm s m → Answers (.traDisarm m) s fun t => t.ust m.unit = .idle ∧ (t.tr (fnOf m)).torque = 0) ∧
  (Passes specTraClear s m → Answers (.traClear m) s fun t => t.ust m.unit = .idle ∧ (t.tr (fnOf m)).cause = 0) ∧
  (Passes specChopRun s m → Answers (.chopRun m) s fun t => t.ust m.unit = .running) ∧
  (Passes specChopHalt s m → Answers (.chopHalt m) s fun t => t.ust m.unit = .idle ∧ (t.tr (fnOf m)).duty = 0 ∧
    ∀ n ∈ s.fnLegs (fnOf m), t.dutyOf n = none)

/-- CHG_ARM, CHG_START, CHG_STOP, CHG_DISARM, CHG_LIMIT, CHG_BMS, CHG_CLEAR and TRANSPORT, accepted: the charger's states of record, what
CHG_START, CHG_LIMIT and CHG_BMS give the session, RAMPDOWN with STOPPING at the next boundary for CHG_STOP, and for TRANSPORT the transport mode
due and the wake pin armed. -/
def Obligations.ChargerLetters : Prop := ∀ (s : State) (m : Msg),
  (Passes specChgArm s m → Answers (.chgArm m) s fun t => t.ust U.chg = .armed) ∧
  (Passes specChgStart s m → Answers (.chgStart m) s fun t => t.ust U.chg = .running ∧ t.chg.target = m.u32 20 ∧ t.chg.outLim = m.u32 24 ∧
    t.chg.inLim = m.u32 28 ∧ t.chg.term = m.u32 32 ∧ t.chg.power = m.u32 36 ∧ t.chg.started = s.time ∧ t.chg.energy = 0 ∧
    (s.driveEn = true → t.chg.reason = 0)) ∧
  (Passes specChgStop s m → s.chgPhase ≠ 0 → s.chgPhase ≠ 9 → Answers (.chgStop m) s fun t =>
    t.chgPhase = 9 ∧ t.chg.rampAt = s.time ∧
    (s.chg.reason = 0 → t.chg.reason = 1) ∧ HwEvent.move U.chg [.running] .stopping ∈ t.po.hw) ∧
  (Passes specChgDisarm s m → Answers (.chgDisarm m) s fun t => t.ust U.chg = .idle) ∧
  (Passes specChgLimit s m → Answers (.chgLimit m) s fun t => t.chg.lV2 = unsetOr (m.u32 16) ∧ t.chg.lOut = unsetOr (m.u32 20) ∧
    t.chg.lIn = unsetOr (m.u32 24) ∧ t.chg.lDis = unsetOr (m.u32 28)) ∧
  (Passes specChgBms s m → Answers (.chgBms m) s fun t => t.chg.tMax = m.i16 16 ∧ t.chg.tMin = m.i16 18 ∧ t.chg.bChg = m.u32 20 ∧
    t.chg.bDis = m.u32 24 ∧ t.chg.bVmax = m.u32 28 ∧ t.chg.bOpen = decide (m.u8 32 = 1) ∧ t.chg.tempKnown = true) ∧
  (Passes specChgClear s m → Answers (.chgClear m) s fun t => t.ust U.chg = .idle ∧ t.chg.recorded = 0 ∧ t.chg.hard = false) ∧
  (Passes specTransport s m → Answers (.transport m) s fun t => t.rst.transportDue = true ∧ t.rst.wakeArmed = true)

/-- The letters of the 48 V and 12 V supplies, accepted: states of record, the V2 target and current limit of HLV_SET, the settings of REG_SET
(applied now, or from the next start in HICCUP). -/
def Obligations.SupplyLetters : Prop := ∀ (s : State) (m : Msg),
  (Passes specHlvArm s m → Answers (.hlvArm m) s fun t => t.ust m.unit = .armed) ∧
  (Passes specHlvRun s m → Answers (.hlvRun m) s fun t => t.ust m.unit = .running) ∧
  (Passes specHlvSet s m → Answers (.hlvSet m) s fun t => t.units = s.units ∧
    (t.hl (fnOf m)).target = (m.u16 16 * 65536 / 10 : Nat) ∧ (t.hl (fnOf m)).i2lim = (m.u16 18 : Nat)) ∧
  (Passes specHlvStop s m → Answers (.hlvStop m) s fun t => t.ust m.unit = .stopping ∧ (t.hl (fnOf m)).stopAt = s.time) ∧
  (Passes specHlvDisarm s m → Answers (.hlvDisarm m) s fun t => t.ust m.unit = .idle) ∧
  (Passes specHlvClear s m → Answers (.hlvClear m) s fun t => t.ust m.unit = .idle ∧ (t.tr (fnOf m)).cause = 0) ∧
  (Passes specRegArm s m → Answers (.regArm m) s fun t => t.ust U.reg = .armed) ∧
  (Passes specRegRun s m → Answers (.regRun m) s fun t => t.ust U.reg = .running ∧ t.regPhase = regSoftStart) ∧
  (Passes specRegStop s m → Answers (.regStop m) s fun t => t.ust U.reg = .stopping ∧ t.regPhase = regSoftStop ∧ t.rgl.goal = 0) ∧
  (Passes specRegDisarm s m → Answers (.regDisarm m) s fun t => t.ust U.reg = .idle) ∧
  (Passes specRegSet s m → Answers (.regSet m) s fun t => t.units = s.units ∧
    (s.regPhase = regHiccup → t.rgl.next = some (m.u16 16, m.u16 18, m.u8 20, m.u8 21)) ∧ (s.regPhase ≠ regHiccup → t.vSet = m.u16 16 ∧
      t.fld R.REG_TARGET F.REG_TARGET_RLL = m.u16 18 ∧ t.flag R.REG_SHED F.REG_SHED_EN = decide (m.u8 20 = 1) ∧
      t.fld R.REG_SHED F.REG_SHED_MINPH = m.u8 21 ∧ t.rgl.next = none)) ∧
  (Passes specRegClear s m → Answers (.regClear m) s fun t => t.ust U.reg = .idle ∧ t.rgl.recorded = 0 ∧ t.pads.crowbar = false)

/-- The letters of the actuator channels and of the gearbox sequencer, accepted. ACT_ARM and ACT_LEAKTEST put a gate-leakage check in the line
of the channel's checks, GBX_RUN one for each owned channel that is IDLE. A sequencer letter whose target is already reported answers DONE
with that position, any other begins its operation. -/
def Obligations.ActuatorLetters : Prop := ∀ (s : State) (m : Msg),
  (Passes specActArm s m → Answers (.actArm m) s fun t => (t.ac (acOf m)).leak = (s.ac (acOf m)).leak ++ [1]) ∧
  (Passes specActRun s m → Answers (.actRun m) s fun t => t.ust m.unit = .running ∧ t.acPhase (acOf m) = 1 ∧
    (t.ac (acOf m)).goal = m.i32 16 ∧ (t.ac (acOf m)).lim = m.u16 20 ∧ t.fld (R.ACk_STATE (acOf m)) F.ACk_STATE_ATTEMPT = 1) ∧
  (Passes specActSpeed s m → Answers (.actSpeed m) s fun t => t.units = s.units ∧ (t.ac (acOf m)).goal = m.i32 16 ∧
    (t.ac (acOf m)).lim = m.u16 20) ∧
  (Passes specActStop s m → Answers (.actStop m) s fun t => t.ust m.unit = .stopping ∧ (t.ac (acOf m)).goal = 0 ∧
    (s.acPhase (acOf m) ≠ 6 → s.acPhase (acOf m) ≠ 7 → t.acPhase (acOf m) = 0)) ∧
  (Passes specActDisarm s m → Answers (.actDisarm m) s fun t => t.ust m.unit = .idle) ∧
  (Passes specActClear s m → Answers (.actClear m) s fun t => t.ust m.unit = .idle ∧ (t.ac (acOf m)).recorded = 0) ∧
  (Passes specActLeaktest s m → Answers (.actLeaktest m) s fun t => t.units = s.units ∧ (t.ac (acOf m)).leak = (s.ac (acOf m)).leak ++ [2]) ∧
  (Passes specGbxRun s m → Answers (.gbxRun m) s fun t => t.ust U.gbx = .running ∧
    ∀ k, k < 3 → s.acOwned k = true → s.ust (U.ac k) = .idle → (t.ac k).leak = (s.ac k).leak ++ [1]) ∧
  (Passes specGbxHalt s m → Answers (.gbxHalt m) s fun t => t.ust U.gbx = .stopping ∧
    (s.gbxOp = 0 → HwEvent.move U.gbx [.stopping] .idle ∈ t.po.hw)) ∧
  (Passes specGbxShift s m → Answers (.gbxShift m) s fun t => t.ust U.gbx = .running ∧
    (s.gbxReport 0 = targetReport 1 (m.u8 16) → t = acceptLetter s m (.done [BitVec.ofNat 8 (targetReport 1 (m.u8 16))] none)) ∧
    (s.gbxReport 0 ≠ targetReport 1 (m.u8 16) → t.gbxOp = 1 ∧ t.gbx.target = targetReport 1 (m.u8 16) ∧ t.gbx.started = s.time)) ∧
  (Passes specGbxPark s m → Answers (.gbxPark m) s fun t => t.ust U.gbx = .running ∧
    (s.gbxReport 1 = targetReport 2 (m.u8 16) → t = acceptLetter s m (.done [BitVec.ofNat 8 (targetReport 2 (m.u8 16))] none)) ∧
    (s.gbxReport 1 ≠ targetReport 2 (m.u8 16) → t.gbxOp = 2 ∧ t.gbx.target = targetReport 2 (m.u8 16) ∧ t.gbx.started = s.time)) ∧
  (Passes specGbxClutch s m → Answers (.gbxClutch m) s fun t => t.ust U.gbx = .running ∧
    (s.gbxReport 2 = targetReport 3 (m.u8 16) → t = acceptLetter s m (.done [BitVec.ofNat 8 (targetReport 3 (m.u8 16))] none)) ∧
    (s.gbxReport 2 ≠ targetReport 3 (m.u8 16) → t.gbxOp = 3 ∧ t.gbx.target = targetReport 3 (m.u8 16) ∧ t.gbx.started = s.time)) ∧
  (Passes specGbxClear s m → Answers (.gbxClear m) s fun t => t.ust U.gbx = .idle ∧ t.gbx.recorded = 0)

/-- The letters of the field engines and gate drivers, accepted: the words of a harmonic channel and of the gains, the adaptation actions
and their answer, the factors before (a reset acts 1 µs after the boundary, R105), IDLE with no cause and factors of 1.0 for the engines in
FAULT of a cleared pair, and a driver register command queued on its gate link. -/
def Obligations.EngineLetters : Prop := ∀ (s : State) (m : Msg),
  (Passes specFeHarm s m → Answers (.feHarm m) s fun t => t.units = s.units ∧
    t.reg (R.FEn_HCFGk (feOf m) (m.u8 16)) = BitVec.ofNat 32 (m.u16 24 * 65536 + m.u16 18 % 256 * 256 + m.u8 17 % 16) ∧
    t.reg (R.FEn_HAMPk (feOf m) (m.u8 16)) = BitVec.ofNat 32 (m.u16 22 * 65536 + m.u16 20)) ∧
  (Passes specFeAdapt s m → Answers (.feAdapt m) s fun t => t.units = s.units ∧
    (m.u8 16 = 0 → t.fld (R.FEn_ADAPT (feOf m)) F.FEn_ADAPT_RUN = 0) ∧ (m.u8 16 = 1 → t.fld (R.FEn_ADAPT (feOf m)) F.FEn_ADAPT_RUN = 1) ∧
    (m.u8 16 ≤ 1 → t = acceptLetter (s.setFld (R.FEn_ADAPT (feOf m)) F.FEn_ADAPT_RUN (m.u8 16)) m (.done (leBytes 4 (s.factors (feOf m))) none)) ∧
    (m.u8 16 = 2 → (t.e (feOf m)).resetAt = some (s.time + 1000) ∧ ({ t with time := s.time + 1000 }).factors (feOf m) = 0x10001000)) ∧
  (Passes specFeGains s m → Answers (.feGains m) s fun t => t.units = s.units ∧
    t.reg (R.FEn_GAINS (feOf m)) = BitVec.ofNat 32 (m.u16 18 * 65536 + m.u16 16) ∧
    t.reg (R.FEn_OUTKP (feOf m)) = BitVec.ofNat 32 (m.u32 20) ∧ t.reg (R.FEn_OUTKI (feOf m)) = BitVec.ofNat 32 (m.u32 24)) ∧
  (Passes specFeClear s m → Answers (.feClear m) s fun t => ∀ n ∈ s.pairEngines (feOf m), s.ust (U.fe n) = .fault →
    t.ust (U.fe n) = .idle ∧ (t.e n).cause = 0 ∧ t.reg (R.FEn_ADFAC n) = 0x10001000) ∧
  (Passes specDrvRead s m → ∀ n, s.legAtPos (fnOf m) (m.u8 16) = some n → Answers (.drvRead m) s fun t => t.units = s.units ∧
    ⟨(s.glOf n).2, .letter s.po.nextOp false m.unit, m.u8 17, 0, 0⟩ ∈ (t.glLink (s.glOf n).1).queue ++ (t.glLink (s.glOf n).1).owed) ∧
  (Passes specDrvWrite s m → ∀ n, s.legAtPos (fnOf m) (m.u8 16) = some n → Answers (.drvWrite m) s fun t => t.units = s.units ∧
    ⟨(s.glOf n).2, .letter s.po.nextOp true m.unit, m.u8 17, m.u16 18, 0⟩ ∈ (t.glLink (s.glOf n).1).queue ++ (t.glLink (s.glOf n).1).owed)

/-- The letters of the round converters, the position sources and the SENT inputs, accepted. -/
def Obligations.SensingLetters : Prop := ∀ (s : State) (m : Msg),
  (Passes specRndRun s m → Answers (.rndRun m) s fun t => t.ust m.unit = .running ∧ (t.rd (rndOf m)).running = true) ∧
  (Passes specRndHalt s m → Answers (.rndHalt m) s fun t => t.ust m.unit = .stopping ∧ (t.rd (rndOf m)).watch = []) ∧
  (Passes specRndUrgent s m → Answers (.rndUrgent m) s fun t => t.units = s.units ∧
    (t.rd (rndOf m)).urgent = (s.rd (rndOf m)).urgent ++ [⟨m.u8 16, m.u8 17, m.u8 18, some s.po.nextOp, none, false⟩]) ∧
  (Passes specRndClear s m → Answers (.rndClear m) s fun t => t.ust m.unit = .idle) ∧
  (Passes specPosRun s m → Answers (.posRun m) s fun t => t.ust U.pos = .running ∧ ∀ k, k < 4 → (t.ps k).index = false ∧ (t.ps k).present = 0) ∧
  (Passes specPosStop s m → Answers (.posStop m) s fun t => t.ust U.pos = .idle ∧ ∀ k, k < 4 → t.flag (R.POSk_STAT k) F.POSk_STAT_VALID = false) ∧
  (Passes specSentRun s m → Answers (.sentRun m) s fun t => t.ust U.sent = .running) ∧
  (Passes specSentStop s m → Answers (.sentStop m) s fun t => t.ust U.sent = .idle ∧ ∀ k, k < 4 → (t.sn k).goods = 0)

/-- The letters of the ledger, the safe-state manager, the reset controller and the event controller, each accepted by every form of it that
passes the checks of R85 (`Passes`): a link's battery limits, the keep-alive budget, the end of the four releasable causes of the safe state
and of no other, the forced safe state, a unit's reset begun, a pair's reset due, the system reset, standby due, a doorbell. The system reset
is asserted at once where its receipt counts as handed over (none due, or in the journal), and otherwise waits for its receipt in the ring
(R477); `place` is where the receipt goes. -/
def Obligations.SystemLetters : Prop := ∀ (s : State) (m : Msg),
  let place := (s.issueReceipt m.src m.letter.flags ⟨m.letter.opcode, m.letter.unit, .done, m.letter.seq, s.pm, s.pm, []⟩).2
  (Passes specLdgBattery s m → Answers (.ldgBattery m) s fun t => (t.lnk (m.u8 16)).battDis = m.u32 20 ∧ (t.lnk (m.u8 16)).battChg = m.u32 24 ∧
    (t.lnk (m.u8 16)).battPeak = m.u32 28 ∧ (t.lnk (m.u8 16)).allowance = ((m.u32 32 * 1000000000 : Nat) : Int) ∧ (t.lnk (m.u8 16)).battAt = some s.time) ∧
  (Passes specLdgKeepalive s m → Answers (.ldgKeepalive m) s fun t => t.aon.cap = m.u32 16 * 1000000 ∧ t.aon.refill = m.u32 20 ∧
    t.aon.wakePower = m.u32 24 ∧ t.aon.period = m.u32 28 ∧ t.aon.limit = m.u16 32 ∧
    t.aon.balance = (if m.u8 34 = 1 then ((m.u32 16 * 1000000 * 4096 : Nat) : Int) else s.aon.balance)) ∧
  (Passes specSsmRelease s m → Answers (.ssmRelease m) s fun t => ∀ c, c < 10 → bitAt (t.fld R.SSM_CAUSE F.SSM_CAUSE_ACTIVE) c =
    (bitAt (s.fld R.SSM_CAUSE F.SSM_CAUSE_ACTIVE) c && c ∉ [0, 1, 3, 8])) ∧
  (Passes specSsmForce s m → Answers (.ssmForce m) s fun t => t.ssm.entered = true ∧ t.fld R.SSM_STATE F.SSM_STATE_FAULTN = 1 ∧
    ∀ c, c < 10 → bitAt (t.fld R.SSM_CAUSE F.SSM_CAUSE_ACTIVE) c = (bitAt (s.fld R.SSM_CAUSE F.SSM_CAUSE_ACTIVE) c || c = 8)) ∧
  (Passes specRstUnit s m → Answers (.rstUnit m) s fun t => t.rst.unitReset = s.rst.unitReset ++ [(m.u8 16, s.po.nextOp)] ∧
    t.po.hw.any (HwEvent.ends s.po.nextOp) = true) ∧
  (Passes specRstPair s m → Answers (.rstPair m) s fun t => t.rst.swPairs = s.rst.swPairs ||| 2 ^ m.u8 16 ∧ t.rst.swAt = s.time) ∧
  (Passes specRstSystem s m → Answers (.rstSystem m) s fun t => match place with
    | .ring p i => s.po.ready = [] → t.po.deferred = s.po.deferred ++ [⟨.systemReset, p, i⟩] ∧ t.rst = s.rst
    | _ => (10, 0) ∈ t.rst.sources) ∧
  (Passes specStandby s m → Answers (.standby m) s fun t => t.rst.standbyDue = true) ∧
  (Passes specEvcRing s m → Answers (.evcRing m) s fun t => let x := 241 + m.u8 16
    if s.evc.inserv.any (fun p => p.1 == x) then x ∈ t.evc.again else x ∈ t.evc.raised ∧ bitAt (t.fld R.EVC_DBSET F.EVC_DBSET_DB) (m.u8 16) = true)

/-- The letters of the network ports and of the security unit, each accepted by every form of it that passes the checks of R85 (`Passes`): a
port runs; a halted port moves to IDLE at the next boundary, from when its receipt counts as handed over (R477; `place` is where the receipt
goes); a key slot is revoked; a franking key that unwraps takes effect at the next boundary, and one that does not, the only ground on
which it is then refused, changes no key; a MACsec association is installed. -/
def Obligations.NetworkLetters : Prop := ∀ (s : State) (m : Msg),
  let place := (s.issueReceipt m.src m.letter.flags ⟨m.letter.opcode, m.letter.unit, .done, m.letter.seq, s.pm, s.pm, []⟩).2
  (Passes specNetRun s m → Answers (.netRun m) s fun t => t.ust m.unit = .running) ∧
  (Passes specNetHalt s m → Answers (.netHalt m) s fun t => match place with
    | .ring p i => s.po.ready = [] → t.po.deferred = s.po.deferred ++ [⟨.netHalt m.unit, p, i⟩] ∧ t.po.hw = s.po.hw
    | _ => HwEvent.move m.unit [.running] .idle ∈ t.po.hw) ∧
  (Passes specSecRevoke s m → Answers (.secRevoke m) s fun t => t.sec.revoked = s.sec.revoked ||| 2 ^ m.u8 16) ∧
  (verdict specSecFkey s m ∈ [none, some .eFrank] → Answers (.secFkey m) s fun t => match s.unwrapped m with
    | some k => t.sec.fkNext = s.sec.fkNext ++ [(m.u8 16, k)]
    | none => t.sec = s.sec) ∧
  (Passes specSecSak s m → Answers (.secSak m) s fun t => (t.et (m.u8 16 - 8)).assocs = installSak (s.et (m.u8 16 - 8)).assocs
    ⟨m.u8 17, m.u8 18, bitAt (m.u8 19) 0, m.u32 20, (m.letter.body.drop 8).take (if bitAt (m.u8 19) 0 then 32 else 16)⟩ ∧
    (t.et (m.u8 16 - 8)).txAn = (if m.u8 17 = 0 ∧ bitAt (m.u8 19) 1 = true then some (m.u8 18) else (s.et (m.u8 16 - 8)).txAn))

/-- The opcodes common to all units and those of the image and firmware slots, accepted: WRITE of a converted register puts the value into
it; READ and STATE answer what is in force and change nothing of any unit; ABORT marks the letter still waiting; a slot write is queued for
the MRAM; a check runs as an operation of its own; a commit, in either mode, queues the write of the first copy of its pointer record, and
the check's result stands until it has ended; `ready` is what waits to be done at once, which a step leaves empty. -/
def Obligations.CommonLetters : Prop := ∀ (s : State) (m : Msg),
  (Passes specWrite s m → (convertedFe m.addr).isSome = true → Answers (.write m) s fun t => t.units = s.units ∧
    t.reg m.addr = s.written m.addr (BitVec.ofNat 32 (m.u32 20))) ∧
  (Passes specRead s m → Answers (.read m) s fun t => t.units = s.units ∧ t = acceptLetter (s.quiet (s.busRead (s.sender m) m.addr)) m
    (.done (leBytes 4 (s.busRead (s.sender m) m.addr).resp.data) none)) ∧
  (Passes specState s m → Answers (.state m) s fun t => t.units = s.units ∧
    t = acceptLetter s m (.done (leBytes 1 (s.ust m.unit).code ++ [0, 0, 0] ++ leBytes 4 (s.ustPm m.unit)) none)) ∧
  (Passes specAbort s m → Answers (.abort m) s fun t => (∃ k l, s.abortCase m = .pending k l ∧ t = acceptLetter (s.setSlot k (.letter l true)) m (.done [] none)) ∨
    ∃ k e, s.abortCase m = .running k e ∧ t = acceptLetter (s.stopEntry k e .abort) m (.done [] none)) ∧
  (Passes (specSlotWrite 1) s m → Answers (.imageWrite m) s fun t => t = acceptLetter (s.slotWrite 1 (m.u32 16) ((m.letter.body.drop 8).take 32)) m (.done [] none)) ∧
  (Passes (specSlotWrite 2) s m → Answers (.fwWrite m) s fun t => t = acceptLetter (s.slotWrite 2 (m.u32 16) ((m.letter.body.drop 8).take 32)) m (.done [] none)) ∧
  (Passes (specSlotCheck false) s m → Answers (.imageCheck m) s fun t => t.icheck.running = some s.po.nextOp ∧ t.icheck.passed = false) ∧
  (Passes (specSlotCheck true) s m → Answers (.fwCheck m) s fun t => t.fcheck.running = some s.po.nextOp ∧ t.fcheck.passed = false) ∧
  (Passes (specCommit false) s m → s.po.ready = [] → Answers (.imageCommit m) s fun t => t.icheck = s.icheck ∧
    ∃ c ∈ t.nvs.commits, c.msg = m ∧ c.delivered = s.pm ∧ c.base = ptrKey ∧ c.second = false ∧ c.write ∈ t.nvs.queue) ∧
  (Passes (specCommit true) s m → s.po.ready = [] → Answers (.fwCommit m) s fun t => t.fcheck = s.fcheck ∧
    ∃ c ∈ t.nvs.commits, c.msg = m ∧ c.delivered = s.pm ∧ c.base = fwPtrKey ∧ c.second = false ∧ c.write ∈ t.nvs.queue)

/-- The traction and chopper events, each where the unit is the one that the event is about: the chopper's own start at a boundary (R31, Table TRA-2), the
end of TRA_STOP, the sensorless start's decision and its ends (R190, R191), the watch's known or unknown speed and the ASC pattern that
gives way to FREEWHEEL (R200, R201), a chopper period: no pulse with the resistor hot or the chopper not RUNNING, else, with no power to dump,
the duty of the link voltage (R198).
Timer rows stand for the expiry and measured values are operands: the model's choices, logs 4 and 5. -/
def Obligations.TractionEvents : Prop := ∀ (s : State) (f : Nat), f < 16 →
  (s.po.boundaryAt = s.time → s.fnRole f = 6 → s.ust (U.fn f) = .idle → (s.tr f).auto = false → s.armBlocked f = false → s.safeHeld = false →
    Answers (.chopAutoStart f) s fun t => t.ust (U.fn f) = .running ∧ (t.tr f).auto = true) ∧
  (s.fnRole f = 6 → s.ust (U.fn f) ≠ .running ∨ (s.tr f).hot = true → Answers (.chopperPeriod f) s fun t => (t.tr f).duty = 0) ∧
  (s.fnRole f = 6 → s.ust (U.fn f) = .running → (s.tr f).hot = false → (s.lnk (s.linkOf f)).dump = 0 → Answers (.chopperPeriod f) s fun t =>
    (t.tr f).duty = nearest (clampQ 0 1 ((s.linkVolts (s.linkOf f) - (s.thr 0x0101 (s.linkOf f) 1000 : Rat)) / (s.thr 0x0111 f 20 : Rat)) * 65536)) ∧
  (∀ angles, s.fnRole f = 1 → (s.each angles State.resolverIn).srcValid f = false → s.ust (U.fn f) = .idle →
    Answers (.tractionWatch f angles) s fun t => (t.tr f).known = false) ∧
  (∀ angles, s.fnRole f = 1 → (s.each angles State.resolverIn).srcValid f = true →
    Answers (.tractionWatch f angles) s fun t => (t.tr f).known = true) ∧
  (s.fnRole f = 1 → s.ust (U.fn f) = .stopping → (s.tr f).tEff = 0 → s.ascPref f = false →
    (∀ k ∈ s.pairEngines (s.fnEngine f), ∀ x ∈ (s.e k).iph, absI x * 50 < quant 27 (s.iRated (s.fnEngine f) f / s.iBase k)) →
    Answers (.tractionStopComplete f) s fun t => HwEvent.move (U.fn f) [.stopping] .armed ∈ t.po.hw) ∧
  (s.fnRole f = 1 → (s.tr f).phase = 1 → (∀ k, k < 3 → s.thrN (0x0130 + k) f 0x40 < 0x80) → s.urgentFails 0 = [] → (s.rd 0).urgent = [] →
    Answers (.sensorlessObserveSample f) s fun t => (t.rd 0).urgent.length = 3) ∧
  (∀ amp freq ang, s.fnRole f = 1 → (s.tr f).phase = 1 → s.ust (U.fn f) = .running → Answers (.sensorlessObserveEnd f amp freq ang) s fun t =>
    (t.tr f).phase = (if (amp : Rat) / 1000 < s.linkVolts (s.linkOf f) / 50 then 2 else if freq < 0 then 3 else
      if s.rpmToSpd (s.fnEngine f) (s.thr 0x0129 f 500) ≤ (freq : Rat) then 4 else 2)) ∧
  (s.fnRole f = 1 → s.ust (U.fn f) = .running → (s.tr f).phase = 2 → s.rpmToSpd (s.fnEngine f) (s.thr 0x0128 f 1000) ≤ ((s.tr f).freq : Rat) →
    Answers (.ifLock f) s fun t => (t.tr f).phase = 4 ∧ (t.tr f).path = (s.tr f).path ∧ (t.tr f).tEff = 0) ∧
  (s.fnRole f = 1 → (s.tr f).phase = 2 → s.ust (U.fn f) = .running → Answers (.catchFail f) s fun t => HwEvent.fault (U.fn f) ∈ t.po.hw) ∧
  (s.ascPref f = false → s.ssmPat f = 2 ∨ s.ssmPat f = 3 → Answers (.ascFreewheelChange f) s fun t => t.ssmPat f = 1) ∧
  (s.fnRole f = 1 → (s.tr f).known = false → s.ssm.heartbeat = true → Answers (.unknownSpeedTimeout f) s fun t => (t.tr f).pref = true)

/-- The events of the 48 V and 12 V supplies, each where its condition holds: the start without a letter, at a boundary (R31), and the end of a stop; the
regulator's pulses at the comparator's trip (R243), current balance (R245), phase shedding and its ends (R247: of a restore, an addition and a
shedding in one cycle the first takes precedence), start test, undervoltage failure, HICCUP, soft stop, crowbar and fault
causes. u is the state with the event's measured values put into the monitor registers.
Timer rows stand for the expiry and measured values are operands: the model's choices, logs 4 and 5. -/
def Obligations.SupplyEvents : Prop := ∀ (s : State) (f n bad : Nat) (m : RegIn), f < 16 → let u := s.regSense m
  (s.po.boundaryAt = s.time → s.fnRole f = 5 → s.ust (U.fn f) = .idle → (s.withImg false fun im => match im.unitRec 0x0A f with | some r => bitAt (rf r 4 1) 0 | none => false) = true →
    (s.hl f).auto = false → s.armBlocked f = false → s.hlvLow f = false → Answers (.hlvAutoRun f) s fun t => t.ust (U.fn f) = .running ∧ (t.hl f).auto = true) ∧
  (s.fnRole f = 5 → s.ust (U.fn f) = .stopping → (∀ l ∈ s.fnLegs f, s.dutyOf l = none) → s.hlvI2 f < 1 → -1 < s.hlvI2 f →
    Answers (.hlvStopComplete f) s fun t => HwEvent.move (U.fn f) [.stopping] .armed ∈ t.po.hw) ∧
  (s.fnRole f = 5 → s.hlvOver f = true → (s.ust (U.fn f)).live = true → Answers (.hlvFaultDetect f 3) s fun t =>
    HwEvent.fault (U.fn f) ∈ t.po.hw ∧ ∀ l ∈ s.fnLegs f, t.dutyOf l = none) ∧
  (s.po.boundaryAt = s.time → s.ust U.reg = .idle → (s.withImg false fun im => match im.unitRec 0x08 0 with | some r => bitAt (rf r 5 1) 0 | none => false) = true →
    s.rgl.auto = false → s.regVinMin ≤ s.regVinNow → s.faultPending U.reg = false → Answers .regAutoRun s fun t =>
    t.ust U.reg = .running ∧ t.regPhase = regSoftStart ∧ t.rgl.auto = true) ∧
  (u.regPulses = true → (u.regVos : Rat) * 1000 + u.regRipple ≤ u.regVtl → u.rgl.tripAt = none → ∀ k, u.regOrder.find? u.regFree = some k →
    Answers (.regComparatorTrip m) s fun t => t.rgl.waiting = false ∧ t.rgl.last = k ∧ t.rgl.onMask = u.rgl.onMask + 2 ^ k ∧
      FMap.get (fun _ => 0) t.rgl.tOn k = u.regOnTime k ∧ t.rgl.tripAt = some s.time) ∧
  (u.regVtl < (u.regVos : Rat) * 1000 + u.regRipple → Answers (.regComparatorTrip m) s fun t => t.rgl.onMask = u.rgl.onMask ∧ t.rgl.waiting = u.rgl.waiting) ∧
  (bitAt u.rgl.onMask n = true → u.rgl.waiting = false → Answers (.regOnTimeEnd n m) s fun t => t.rgl.onMask = u.rgl.onMask - 2 ^ n ∧
    FMap.get (fun _ => 0) t.rgl.offUntil n = s.time + 10 * u.fld R.REG_CFG F.REG_CFG_TOFFMIN) ∧
  (u.regPhase = regRegulate → Answers (.regBalance m) s fun t => t.rgl.balAt = s.time ∧
    ∀ k, k < 8 → t.sfld (R.REG_PHn k) F.REG_PHn_TRIM =
      let a : Rat := ((((phasesOf u.regActive).map u.regCur).foldl (· + ·) 0 : Int) : Rat) / ((max 1 (phasesOf u.regActive).length : Nat) : Rat)
      if a < 50 ∨ bitAt u.regActive k = false then u.sfld (R.REG_PHn k) F.REG_PHn_TRIM
      else quant 12 (clampQ (-1 / 8) (1 / 8) ((u.sfld (R.REG_PHn k) F.REG_PHn_TRIM : Rat) / 4096 + (a - u.regCur k) / (64 * a)))) ∧
  (u.regSheds = true → u.rgl.op = none → u.fld R.REG_SHED F.REG_SHED_MINPH < (phasesOf u.regActive).length → u.regShare < 10 * (u.fld R.REG_SHEDCFG F.REG_SHEDCFG_SHEDI : Rat) →
    Answers (.regShed m) s fun t => t.regActive = u.regActive - 2 ^ (phasesOf u.regActive).getLastD 0) ∧
  (∀ o, u.rgl.op = some o → o.at_ = s.time → 1 ≤ o.rank → Answers (.regShed m) s fun t => t.regActive = u.regActive) ∧
  (u.regSheds = true → u.rgl.op = none → (phasesOf u.regUsed).find? (fun k => !bitAt u.regActive k) = some n → 10 * (u.fld R.REG_SHEDCFG F.REG_SHEDCFG_ADDI : Rat) < u.regShare →
    Answers (.regAdd m) s fun t => t.regActive = u.regActive + 2 ^ n) ∧
  (u.regSheds = true → u.rgl.op = none → (u.regVos : Rat) * 1000 < 98 / 100 * u.regVtl → Answers (.regRestore m) s fun t => t.regActive = u.regUsed ∧ t.rgl.shedHold = true) ∧
  (Answers .regShedHoldEnd s fun t => t.rgl = { s.rgl with shedHold := false }) ∧
  (u.regPhase = regSoftStart → u.vSet ≤ 2 * u.regVos → Answers (.regStartTest m) s fun t => t.regPhase = regRegulate) ∧
  (u.regPhase = regRegulate → (u.regVos : Rat) * 2000 < u.regVtl → u.fld R.REG_LIM F.REG_LIM_FAILS < 2 →
    Answers (.regUndervoltageFailure m) s fun t => t.regPhase = regHiccup ∧ t.fld R.REG_LIM F.REG_LIM_FAILS = u.fld R.REG_LIM F.REG_LIM_FAILS + 1) ∧
  (u.regPhase = regHiccup → Answers (.regHiccupEnd m) s fun t => t.regPhase = regSoftStart) ∧
  (s.regPhase = regRegulate → Answers .regFailCountReset s fun t => t.fld R.REG_LIM F.REG_LIM_FAILS = 0) ∧
  (s.regPhase = regSoftStop → s.regVt = 0 → s.ust U.reg = .stopping → Answers .regSoftstopEnd s fun t => t.regPhase = 0 ∧
    HwEvent.move U.reg [.stopping] .armed ∈ t.po.hw) ∧
  (u.ust U.reg ≠ .off → u.fld R.REG_PROT F.REG_PROT_OV < u.regVos → Answers (.regCrowbar m) s fun t => t.pads.crowbar = true ∧
    t.flag R.REG_EVT F.REG_EVT_OV = true ∧ t.pads.barMask = u.pads.barMask ||| u.regUsed) ∧
  (bad &&& s.regUsed ≠ 0 → (s.ust U.reg).live = true → Answers (.regFaultDetect 4 bad) s fun t => HwEvent.fault U.reg ∈ t.po.hw ∧ t.rgl.bad = bad) ∧
  (bitAt s.regUsed n = true → bitAt s.regActive n = false → bitAt s.rgl.onMask n = false → bitAt s.rgl.hiz n = false →
    Answers (.shedPhaseHighImpedance n) s fun t => t.rgl.hiz = s.rgl.hiz + 2 ^ n)

/-- The events of the converters, the position sources and the SENT inputs, each where it applies. u is the state with the trigger's resolver angles put into the sources.
Timer rows stand for the expiry and measured values are operands: the model's choices, logs 4 and 5. -/
def Obligations.SensingEvents : Prop := ∀ (s : State) (n r k entry raw : Nat) (rs : List Nat) (angles : List PosIn),
  let u := s.each angles State.resolverIn
  (∀ early apert, (u.ust (U.fe ((u.pairEngines n).headD n))).active = true → Answers (.sampleTrigger n early apert angles) s fun t =>
    ∀ j ∈ u.pairEngines n, (t.e j).sampleAt = s.time ∧ (t.e j).waiting = true ∧ (t.e j).samp = []) ∧
  (r < 2 → entry < 64 → (s.rd r).running = true → (s.rd r).active = none → s.ust (U.rnd r) = .running → s.flag (R.RNDr_SEQe r entry) F.RNDr_SEQe_VALID = true →
    s.fld (R.RNDr_STATE r) F.RNDr_STATE_ENTRY = entry → Answers (.roundEntryResult r entry rs) s fun t =>
    t.fld (R.RNDr_STATE r) F.RNDr_STATE_ENTRY = (if entry < 63 ∧ s.flag (R.RNDr_SEQe r (entry + 1)) F.RNDr_SEQe_VALID = true then entry + 1 else 0)) ∧
  (∀ x l, r < 2 → s.faultPending (U.rnd r) = false → s.ust (U.rnd r) = .running → (s.rd r).active = none → (s.rd r).urgent = x :: l →
    x.arrived = false → Answers (.urgentArrival r raw) s fun t =>
    (raw ≠ 2 ∨ s.protectedNow r = false → (t.rd r).active = some { x with arrived := true } ∧ (t.rd r).urgent = l) ∧
    (raw = 2 → s.protectedNow r = true → (t.rd r).active = none ∧ (t.rd r).urgent = { x with arrived := true } :: l)) ∧
  (∀ x, r < 2 → (s.rd r).active = some x → (s.rd r).urgent = [] → Answers (.urgentResult r raw) s fun t => (t.rd r).active = none ∧
    t.flag (R.RNDr_URGRES r) F.RNDr_URGRES_NEW = true ∧ t.flag (R.RNDr_EVT r) F.RNDr_EVT_URGDONE = true) ∧
  (r < 2 → entry < 64 → s.ust (U.rnd r) = .running → FMap.get (fun _ => false) (s.rd r).watch entry = true → Answers (.refreshLapse r entry) s fun t =>
    FMap.get (fun _ => false) (t.rd r).watch entry = false ∧ t.flag (R.RNDr_EVT r) F.RNDr_EVT_STALE = true ∧
    t.fld (R.RNDr_STALE r) F.RNDr_STALE_ENTRY = entry) ∧
  (r < 2 → s.ust (U.rnd r) ≠ .off → Answers (.referenceFault r true) s fun t => HwEvent.fault (U.rnd r) ∈ t.po.hw ∧ (t.rd r).refBad = true ∧
    (t.rd r).urgent = []) ∧
  (∀ flag, k < 2 → flag < 6 → s.posLive k = true → invalidating flag = true → Answers (.resolverFault k flag) s fun t =>
    t.flag (R.POSk_STAT k) F.POSk_STAT_VALID = false) ∧
  (k < 2 → s.posLive k = true → (s.ps k).excOff = false → s.fld (R.POSk_STAT k) F.POSk_STAT_TERR < 10 → Answers (.resolverValidReturn k) s fun t =>
    t.flag (R.POSk_STAT k) F.POSk_STAT_VALID = true ∧ (t.ps k).present = 0) ∧
  (k < 2 → s.posLive k = true → Answers (.excitationRestart k) s fun t => (t.ps k).excOff = false) ∧
  (∀ a0 b0 a b old, 2 ≤ k → s.posLive k = true → (s.ps k).ab.getD (2 * b2n a0 + b2n b0) = old → Answers (.encoderCount k a0 b0 a b) s fun t =>
    (t.ps k).ab = some (2 * b2n a + b2n b) ∧
    (t.ps k).count = (s.ps k).count + (match (quadPlace (2 * b2n a + b2n b) + 4 - quadPlace old) % 4 with | 1 => 1 | 3 => -1 | _ => 0) ∧
    ((quadPlace (2 * b2n a + b2n b) + 4 - quadPlace old) % 4 = 2 → t.flag (R.POSk_STAT k) F.POSk_STAT_VALID = false)) ∧
  (2 ≤ k → s.posLive k = true → Answers (.encoderIndex k) s fun t => (t.ps k).count = 0 ∧ (t.ps k).index = true ∧
    t.flag (R.POSk_STAT k) F.POSk_STAT_LOCK = true) ∧
  (∀ sync st data pause, let f : SentIn := ⟨sync, st :: data, pause⟩; k < 4 → s.sentLive k = true → s.sentErrs k f = 0 →
    Answers (.sentFrame k sync st data pause) s fun t => (t.sn k).goods = (s.sn k).goods + 1 ∧
    (t.sn k).at_ = (s.time - sentSpan f) / 25 * 25 ∧ t.fld (R.SENTi_ERR k) F.SENTi_ERR_RUN = 0) ∧
  (∀ sync st data pause, let f : SentIn := ⟨sync, st :: data, pause⟩; k < 4 → s.sentLive k = true → s.sentErrs k f ≠ 0 →
    Answers (.sentFrame k sync st data pause) s fun t => (t.sn k).goods = 0 ∧
    t.fld (R.SENTi_ERR k) F.SENTi_ERR_LAST = s.sentErrs k f ∧ bitAt (t.fld R.SENT_EVT F.SENT_EVT_ERR) k = true) ∧
  (s.sentLive k = true → Answers (.sentTimeout k) s fun t => (t.sn k).goods = 0 ∧ (t.sn k).valid = false)

/-- The registers of the converters and sources that act when they are written or read, by a core's access that passes the checks of R8: an
urgent request, correction words, an angle offset, the oldest result of a round's queue, the last urgent result. -/
def Obligations.SensingAccesses : Prop := ∀ (s : State) (c n r k : Nat) (v : Word),
  (s.Writes c (R.RNDr_URG r) v ((if 47 < getF v ⟨5, 0⟩ then [.eRange] else []) ++ s.urgentFails r) → Answers (.rndUrgWrite (.core c) r v) s fun t =>
    (t.rd r).urgent = (s.rd r).urgent ++ [⟨getF v ⟨5, 0⟩, getF v ⟨13, 6⟩, getF v ⟨17, 14⟩, none, none, false⟩] ∧ t.resp = ⟨.done, 0⟩) ∧
  (∀ x l, (s.rd r).queue = x :: l → s.Lets c (R.RNDr_RQHI r) 0 → Answers (.roundQueueRead (.core c) r) s fun t => (t.rd r).queue = l ∧ t.resp = ⟨.done, leAt x 4 4⟩) ∧
  (s.Writes c (R.FCV_CHn_CORR n) v (corrFails v ++ if s.groupUsed (n / 4) then [.eState] else []) → Answers (.fcvCorrWrite (.core c) n v) s fun t =>
    t.reg (R.FCV_CHn_CORR n) = s.written (R.FCV_CHn_CORR n) v ∧ t.resp = ⟨.done, 0⟩) ∧
  (s.Writes c (R.RNDr_CORRk r k) v (corrFails v) → Answers (.rndCorrWrite (.core c) r k v) s fun t =>
    t.reg (R.RNDr_CORRk r k) = s.written (R.RNDr_CORRk r k) v ∧ t.resp = ⟨.done, 0⟩) ∧
  (s.Writes c (R.POSk_OFS k) v (if s.sourceUsed k then [.eState] else []) → Answers (.posOfsWrite (.core c) k v) s fun t =>
    t.reg (R.POSk_OFS k) = s.written (R.POSk_OFS k) v ∧ t.resp = ⟨.done, 0⟩) ∧
  (s.Lets c (R.RNDr_URGRES r) 0 → Answers (.urgentResultRead (.core c) r) s fun t => t.flag (R.RNDr_URGRES r) F.RNDr_URGRES_NEW = false ∧
    t.resp = ⟨.done, (s.reg (R.RNDr_URGRES r)).toNat⟩)

/-- The ledger's and the planner's own events, each where it applies (chapter 11): a tick adds each port's power to its counters, a block
clears the block sums, with the planner's core running (R300) a round plans and its latch puts the plan into force, a stale plan, a hole, the keep-alive budget and the timer wake;
and the ledger's registers that act when they are read or written by a core.
Timer rows stand for the expiry and measured values are operands: the model's choices, logs 4 and 5. -/
def Obligations.LedgerEvents : Prop := ∀ (s : State) (c f p us : Nat), p < 12 →
  (s.ust U.ldg = .running → s.portKind p ≠ 0 → Answers .ledgerTick s fun t => (t.prt p).net = satNj ((s.prt p).net + (t.prt p).power) ∧
    (t.prt p).block = (s.prt p).block + (t.prt p).power ∧ (t.prt p).round = (s.prt p).round + (t.prt p).power) ∧
  (s.ust U.ldg = .running → Answers .imbalanceBlock s fun t => (t.prt p).block = 0 ∧ (t.prt p).gotV = false ∧ (t.prt p).gotI = false) ∧
  (s.ust U.ldg = .running → s.plannerRuns = true → Answers .plannerRound s fun t => t.ldg.plan = some (s.each (List.range 4) State.spendAllowance).plan ∧ (t.prt p).round = 0) ∧
  (∀ us o, s.ldg.plan = some o → s.plannerRuns = true → Answers (.plannerLatch us) s fun t => t.ldg.plan = none ∧ t.ldg.charger = o.charger ∧ t.ldg.chargerDis = o.chargerDis ∧
    t.ldg.regulator = o.regulator ∧ t.ldg.latchedAt = s.time ∧ t.flag R.LDG_STATE F.LDG_STATE_STALE = false ∧
    (f < 16 → t.reg (R.LDG_EDf f) = BitVec.ofNat 32 ((o.env.find? fun e => e.1 == f).elim 0 fun e => e.2.1.toNat))) ∧
  (s.ust U.ldg = .running → s.flag R.LDG_STATE F.LDG_STATE_STALE = false → Answers .plannerStale s fun t =>
    t.flag R.LDG_STATE F.LDG_STATE_STALE = true ∧ t.flag R.LDG_EVT F.LDG_EVT_STALE = true ∧ t.ldg.staleAt = s.time) ∧
  ((s.ldg.holes.any fun h => h.fn == f) = true → Answers (.powerHoleTimeout f) s fun t => t.ldg.holes = s.ldg.holes.filter fun h => h.fn != f) ∧
  (s.rst.standby = true → s.rst.transportDue = false → s.aon.period ≠ 0 → s.aon.waiting = false → Answers .timerWake s fun t =>
    (t.rst.standby = decide (s.kaBalance < s.kaNeed)) ∧ (t.aon.waiting = decide (s.kaBalance < s.kaNeed))) ∧
  (s.awake = true → s.fld R.RST_WAKE F.RST_WAKE_SRC = 4 → Answers .timerWakeLimit s fun t => t.rst.standbyDue = true) ∧
  (s.rst.standby = false → Answers .keepaliveRefill s fun t =>
    t.aon = { s.aon with balance := minI (s.aon.balance + (s.aon.refill * 4096 : Nat)) (s.aon.cap * 4096 : Nat) }) ∧
  (s.awake = true → -((s.aon.cap * 4096 : Nat) : Int) ≤ s.aon.balance - ((s.aon.wakePower * 125 : Nat) : Int) → Answers .keepaliveDebit s fun t =>
    t.aon = { s.aon with balance := s.aon.balance - ((s.aon.wakePower * 125 : Nat) : Int) }) ∧
  (s.portKind p ≠ 0 → s.Lets c (R.LDG_Pp_ELO p) 0 → Answers (.ldgNetRead (.core c) p) s fun t =>
    t.resp = ⟨.done, ofSigned 64 (s.portNet p) % 4294967296⟩ ∧ t.reg (R.LDG_Pp_EHI p) = BitVec.ofNat 32 (ofSigned 64 (s.portNet p) / 4294967296)) ∧
  (∀ x l, s.ldg.wq = x :: l → s.Lets c R.LDG_WQHI 0 → Answers (.withdrawalQueueRead (.core c)) s fun t => t.ldg.wq = l ∧ t.resp = ⟨.done, leAt x 4 4⟩) ∧
  (s.Lets c R.LDG_KABLO 0 → Answers (.keepaliveBalanceRead (.core c)) s fun t => t.resp = ⟨.done, ofSigned 64 s.kaBalance % 4294967296⟩ ∧
    t.reg R.LDG_KABHI = BitVec.ofNat 32 (ofSigned 64 s.kaBalance / 4294967296)) ∧
  (s.Writes c R.LDG_IMB (BitVec.ofNat 32 us) → Answers (.imbalanceClear (.core c) us) s fun t =>
    t.reg R.LDG_IMB = s.written R.LDG_IMB (BitVec.ofNat 32 us) ∧ t.resp = ⟨.done, 0⟩)

/-- The safe-state manager's events and registers, each where it applies: FAULT_N acknowledged, a watchdog serviced with the right key in
its window, a lockstep mismatch and a self-test passed, a fault frame taken from the line, heartbeats, warnings, expiries and the MON
clock's count (chapter 12).
Timer rows stand for the expiry and measured values are operands: the model's choices, logs 4 and 5. -/
def Obligations.SafeStateEvents : Prop := ∀ (s : State) (c n count : Nat) (flags atA atB : CmpIn) (parity : Bool) (v : Word),
  (getF v F.SSM_FACK_ACK = 1 → s.Writes c R.SSM_FACK v (if s.fld R.SSM_CAUSE F.SSM_CAUSE_ACTIVE ≠ 0 ∧ s.fld R.SSM_CAUSE F.SSM_CAUSE_ACTIVE ≠ 32 then [.eInterlock] else []) →
    Answers (.faultNAcknowledge (.core c) v) s fun t => t.fld R.SSM_STATE F.SSM_STATE_FAULTN = 0 ∧ t.resp = ⟨.done, 0⟩) ∧
  (∀ elapsed, s.Writes c (R.SSM_WDKn n) v (if c = s.wdServer n then [] else [.eLocked]) →
    s.fld (R.SSM_WDSTATn n) F.SSM_WDSTATn_MODE = 1 ∧ s.time - (s.wd n).at_ ≤ 200000000 ∨ s.fld (R.SSM_WDSTATn n) F.SSM_WDSTATn_MODE = 2 ∧
      100000 * s.fld (R.SSM_WDCFGn n) F.SSM_WDCFGn_MIN ≤ s.time - (s.wd n).at_ ∧ s.time - (s.wd n).at_ ≤ 100000 * s.fld (R.SSM_WDCFGn n) F.SSM_WDCFGn_MAX →
    v.toNat = (if (s.wd n).second then 0x5AA5 else 0xA55A) → Answers (.watchdogService (.core c) n v elapsed) s fun t =>
    t.fld (R.SSM_WDSTATn n) F.SSM_WDSTATn_MODE = 2 ∧ t.wd n = ⟨!(s.wd n).second, false, 0, s.time⟩ ∧ t.resp = ⟨.done, 0⟩) ∧
  (s.pairRuns n = true → cycleClasses flags parity ≠ 0 → s.reachOf 6 (2 ^ n) ≠ 0 → Answers (.lockstepMismatch n (flags, parity) v) s fun t =>
    (t.core n).cond = .stopped ∧ bitAt (t.fld R.LSC_EVT F.LSC_EVT_MISM) n = true ∧ (t.pairSt n).faultN = true ∧
    (s.flag (R.LSC_MCAUSEn n) F.LSC_MCAUSEn_VALID = false → t.reg (R.LSC_MPCn n) = v ∧
      t.fld (R.LSC_MCAUSEn n) F.LSC_MCAUSEn_CLASS = lowestClass (cycleClasses flags parity))) ∧
  (n < 4 → s.split = false → s.pairRuns n = true → (s.core n).halted = false →
    atA.a % 16 = 2 ^ injectedGroup (s.pairSt n).testPos → atA.b % 16 = 0 → atB.b % 16 = 2 ^ injectedGroup (s.pairSt n).testPos → atB.a % 16 = 0 →
    Answers (.comparatorSelfTest n (atA, atB) v) s fun t =>
    bitAt (t.fld R.LSC_STEST F.LSC_STEST_RAN) n = true ∧ (t.pairSt n).testPos = ((s.pairSt n).testPos + 1) % 264) ∧
  (∀ src inst cause l, s.ssm.frames = (src, inst, cause) :: l → src ≠ 4 → Answers .faultFrameReceived s fun t => t.ssm.frames = l ∧
    t.reg R.SSM_LASTF = BitVec.ofNat 32 (src % 256 * 16777216 + inst % 256 * 65536 + cause % 256 * 256)) ∧
  (Answers .heartbeatReceived s fun t => t.ssm.heartbeat = true ∧ t.ssm.hbRun = min (s.ssm.hbRun + 1) 100 ∧ t.ssm.hbAt = some s.up ∧
    getF (t.readReg R.SSM_HB) F.SSM_HB_AGE = 0) ∧
  (s.ssm.heartbeat = true → Answers .heartbeatTimeout s fun t => t.ssm.heartbeat = false ∧ t.ssm.hbRun = 0 ∧
    t.ssmCause 2 = true ∧ t.flag R.SSM_STATE F.SSM_STATE_SAFE = true) ∧
  (n < 4 → s.fld (R.SSM_WDSTATn n) F.SSM_WDSTATn_MODE = 2 → (s.wd n).warned = false → Answers (.watchdogWarning n) s fun t =>
    (t.wd n).warned = true ∧ t.flag R.SSM_EVT F.SSM_EVT_WDWARN = true) ∧
  (n < 4 → s.fld (R.SSM_WDSTATn n) F.SSM_WDSTATn_MODE = 1 ∨ s.fld (R.SSM_WDSTATn n) F.SSM_WDSTATn_MODE = 2 → Answers (.watchdogExpiry n) s fun t =>
    (if n = 0 then (5, 0) else (4, 2 ^ n)) ∈ t.rst.sources) ∧
  (915 ≤ count → count ≤ 1526 → s.ssmCause 7 = false → Answers (.monClockCheck count) s fun t =>
    t.ssm.monBad = 0 ∧ t.ssm.monGood = min (s.ssm.monGood + 1) 33 ∧ t.fld (R.CLK_FREQi 7) F.CLK_FREQi_COUNT = count) ∧
  (count < 915 ∨ 1526 < count → s.ssm.monBad = 0 → Answers (.monClockCheck count) s fun t => t.ssm.monBad = 1 ∧ t.ssm.monGood = 0)

/-- The event controller and the cores, each command where it applies (chapter 15): a claim and a completion by the core itself, doorbells, the
settings of a source, WFI and its wakes, a line's change, entry to a fast handler and FRET (back at the place and in the mode it was
entered from, or trapped there at once by an interrupt that its mie lets in), the machine timer and the interrupt that is taken, stranded events, a core lost, the device's own CSRs and the start address of a parked core.
Timer rows stand for the expiry and measured values are operands: the model's choices, logs 4 and 5. -/
def Obligations.CoreEvents : Prop := ∀ (s : State) (c t m kind id pc csr : Nat) (v : Word),
  (s.coreFails t = [] → s.coreOfCode c = some t → (s.core t).halted = false → ∀ x, s.bestSource (s.evc.raised.filter (s.deliverable t)) = some x → x ≠ 0 → x ≠ 0x3FF →
    s.Lets c (R.EVC_CLAIMt t) 0 → Answers (.eventClaim (.core c) t) s fun u => u.resp = ⟨.done, x⟩ ∧ FMap.get (fun _ => 99) u.evc.inserv x = t) ∧
  (s.coreFails t = [] → s.coreOfCode c = some t → v.toNat < 1024 → 0 < getF v F.EVC_CLAIMt_ID → getF v F.EVC_CLAIMt_ID ≤ 0x100 →
    (s.evc.inserv.any fun p => p.1 == getF v F.EVC_CLAIMt_ID && p.2 == t) = true → s.Lets c (R.EVC_CLAIMt t) 1 → Answers (.eventComplete (.core c) t v) s fun u =>
    u.resp = ⟨.done, 0⟩ ∧ (u.evc.inserv.any fun p => p.1 == getF v F.EVC_CLAIMt_ID) = false) ∧
  (∀ k, k < 16 → bitAt v.toNat k = true → getF v ⟨31, 16⟩ = 0 → s.Lets c R.EVC_DBSET 1 → Answers (.doorbellSet (.core c) v) s fun u => u.resp = ⟨.done, 0⟩ ∧
    ((241 + k) ∈ u.evc.raised ∨ (241 + k) ∈ u.evc.again)) ∧
  (s.Writes c (R.EVC_SRCm m) v (s.codeFails (getF v F.EVC_SRCm_TARGET) ++ (if getF v F.EVC_SRCm_FALLBACK = 0xFF then [] else s.codeFails (getF v F.EVC_SRCm_FALLBACK))
      ++ (if getF v F.EVC_SRCm_FALLBACK = getF v F.EVC_SRCm_TARGET then [.eRange] else []) ++ (if getF v F.EVC_SRCm_PRIO = 0 then [.eRange] else [])) →
    Answers (.eventSourceWrite (.core c) m v) s fun u => u.resp = ⟨.done, 0⟩ ∧ u.reg (R.EVC_SRCm m) = BitVec.ofNat 32 (v.toNat / 4 * 4)) ∧
  (s.available t = true → s.anyWake t = false → Answers (.wfi t) s fun u => (u.core t).wfi = true) ∧
  ((s.core t).wfi = true → s.available t = true → s.wakeHolds t kind id = true → Answers (.coreWake t kind id) s fun u => (u.core t).wfi = false ∧
    u.reg (R.EVC_WAKEt t) = BitVec.ofNat 32 (kind * 2 ^ 30 + (if kind = 3 then 0 else id))) ∧
  (1 ≤ m → m ≤ 256 → Answers (.eventLineChange m) s fun u => u.evc.raised.contains m = s.lineLevel m) ∧
  (∀ x, s.bestSource (s.evc.raised.filter (s.fastPending t)) = some x → s.available t = true → (s.core t).mfcfg = true → (s.core t).active = false →
    (s.core t).halted = false → Answers (.fastEventEntry t pc) s fun u => (u.core t).active = true ∧ (u.core t).fid = x ∧ (u.core t).mfepc = pc ∧
    (u.core t).fpriv = (s.core t).priv ∧ (u.core t).priv = 3 ∧ (u.core t).pc = (s.core t).mfvec + 4 * (x - 1)) ∧
  ((s.core t).active = true → Answers (.fret t) s fun u => (u.core t).active = false ∧
    ((u.core t).pc = (s.core t).mfepc ∧ (u.core t).priv = (s.core t).fpriv ∨
      (u.core t).std 0x341 = BitVec.ofNat 32 (s.core t).mfepc ∧ (u.core t).priv = 3 ∧ (s.core t).std 0x304 ≠ 0) ∧
    (u.evc.inserv.any fun p => p.1 == (s.core t).fid) = false) ∧
  (∀ k, (s.core t).mtimecmp ≤ s.time → s.irqOf t = some k → Answers (.machineTimerExpiry t) s fun u => u.mtip t = true ∧ (u.core t).priv = 3 ∧
    (u.core t).std 0x342 = BitVec.ofNat 32 (2 ^ 31 + k) ∧ (u.core t).std 0x341 = BitVec.ofNat 32 (s.core t).pc) ∧
  (s.time < (s.core t).mtimecmp ∨ s.irqOf t = none → Answers (.machineTimerExpiry t) s fun u => u = s) ∧
  (m ≠ 1 → m < 512 → s.srcPending m = true → s.deliveredTo m = none → Answers (.strandedEvent m) s fun u => u.flag R.EVC_EVT F.EVC_EVT_STRANDED = true ∧
    u.fld R.EVC_STRAND F.EVC_STRAND_ID = m) ∧
  (s.available t = false → Answers (.coreUnavailable t) s fun u => (u.core t).active = false ∧ (u.evc.inserv.any fun p => p.2 == t) = false) ∧
  (∀ old, s.csrRead t csr = some old → (s.core t).csrReach csr = true → isCounter csr = false → Answers (.deviceCsrAccess t csr 0 v) s fun u => u = s.respond old.toNat) ∧
  ((s.core t).priv = 3 → Answers (.deviceCsrAccess t 0x7C2 1 v) s fun u => (u.core t).mfepc = v.toNat ∧ u.resp = ⟨.done, (BitVec.ofNat 32 (s.core t).mfepc).toNat⟩) ∧
  (s.coreOfCode c = some 0 → 0 < m → m < (if s.split then s.variant.cores else s.variant.pairs) → v.toNat % 4 = 0 → startAddrOk v.toNat = true → v ≠ 0 →
    (s.core m).cond = .parked → s.Lets c (R.RST_PVECn m) 1 → Answers (.rstPvecWrite (.core c) m v) s fun u => u.reg (R.RST_PVECn m) = v ∧ (u.core m).cond = .running ∧ (u.core m).pc = v.toNat)

/-- The network ports' events and registers, each where it applies (chapter 16): CAN frames received, sent and failed, bus-off recovery, the
frame a port sends next, Ethernet frames, ARP, time synchronisation, gates, link, MDIO.
Timer rows stand for the expiry and measured values are operands: the model's choices, logs 4 and 5. -/
def Obligations.NetworkEvents : Prop := ∀ (s : State) (c n p data : Nat) (v : Word),
  (s.Writes c (R.CANn_MODE n) v ((if (getF v F.CANn_MODE_TRIPLE = 1 ∧ 1 < s.fld (R.CANn_TIMING n) F.CANn_TIMING_NRATE) ∨ getF v F.CANn_MODE_MODE = 3
      ∨ (15 < getF v F.CANn_MODE_RETRY ∧ getF v F.CANn_MODE_RETRY ≠ 31) then [.eRange] else []) ++ (if s.ust (U.can n) = .idle then [] else [.eState])) →
    Answers (.canModeWrite (.core c) n v) s fun t => t.reg (R.CANn_MODE n) = s.written (R.CANn_MODE n) v ∧ t.resp = ⟨.done, 0⟩) ∧
  (s.Writes c (R.ETHp_MDIO p) v ((if getF v F.ETHp_MDIO_OP = 3 ∨ (getF v F.ETHp_MDIO_OP = 0 ∧ getF v F.ETHp_MDIO_CL45 = 0 ∧ getF v F.ETHp_MDIO_GO = 1)
      then [.eRange] else []) ++ (if s.flag (R.ETHp_MDIO p) F.ETHp_MDIO_GO then [.eState] else [])) →
    Answers (.mdioTransaction (.core c) p v) s fun t => t.reg (R.ETHp_MDIO p) = s.written (R.ETHp_MDIO p) v ∧ t.resp = ⟨.done, 0⟩) ∧
  (p < 2 → data < 65536 → s.flag (R.ETHp_MDIO p) F.ETHp_MDIO_GO = true → s.fld (R.ETHp_MDIO p) F.ETHp_MDIO_OP = 2 → Answers (.mdioComplete p data) s fun t =>
    t.flag (R.ETHp_MDIO p) F.ETHp_MDIO_GO = false ∧ t.fld (R.ETHp_MDIO p) F.ETHp_MDIO_DATA = data) ∧
  (∀ f : CanIn, n < 6 → s.ust (U.can n) = .running → s.fld (R.CANn_STATE n) F.CANn_STATE_CONF ≠ 2 → s.canNormal n = true → Answers (.canFrameReceived n f) s fun t =>
    (f.ok = false → (t.cn n).rxc = (s.cn n).rxc + 1 + 8 * f.worse) ∧ (f.ok = true → (t.cn n).received = (s.cn n).received + 1)) ∧
  (∀ ph fails w, s.ust (U.can n) = .running → s.fld (R.CANn_STATE n) F.CANn_STATE_CONF ≠ 2 → (s.cn n).tx = some (ph, fails) → s.po.ready = [] → s.po.deferred = [] →
    Answers (.canTransmitEnd n ⟨0, w⟩) s fun t => (t.cn n).tx = none ∧ (t.cn n).sent = (s.cn n).sent + 1 ∧ (t.cn n).tec = (s.cn n).tec - 1 + 8 * w) ∧
  (∀ ph fails w, s.ust (U.can n) = .running → s.fld (R.CANn_STATE n) F.CANn_STATE_CONF ≠ 2 → (s.cn n).tx = some (ph, fails) →
    s.fld (R.CANn_MODE n) F.CANn_MODE_RETRY = 31 ∨ fails < s.fld (R.CANn_MODE n) F.CANn_MODE_RETRY → Answers (.canTransmitEnd n ⟨1, w⟩) s fun t =>
    (t.cn n).tx = some (ph, fails + 1) ∧ (t.cn n).tec = (s.cn n).tec + 8 + 8 * w) ∧
  (n < 6 → s.ust (U.can n) = .running → s.fld (R.CANn_STATE n) F.CANn_STATE_CONF = 2 → Answers (.canBusOffRecovered n) s fun t =>
    (t.cn n).tec = 0 ∧ (t.cn n).rxc = 0 ∧ t.fld (R.CANn_STATE n) F.CANn_STATE_CONF = 0) ∧
  (∀ ph b, n < 6 → s.ust (U.can n) = .running → s.canNormal n = true → s.fld (R.CANn_STATE n) F.CANn_STATE_CONF ≠ 2 → (s.cn n).tx = none →
    s.nextReceiptPh (U.can n) = some ph → (s.readSlot (s.phSlot ph (s.phHead ph))).2 = some b → Answers (.netReceiptSend (U.can n)) s fun t =>
    (t.cn n).tx = some (ph, 0) ∧ (t.cn n).id = s.fld (R.CANn_IDS n) F.CANn_IDS_TXID + s.phClass ph) ∧
  (∀ f : EthIn, p < 2 → s.ust (U.eth p) = .running → Answers (.ethDatagramReceived p f) s fun t => (t.et p).received = (s.et p).received + 1 ∧
    (f.rtag.isSome ≠ s.merged → (t.et p).discarded = (s.et p).discarded + 1)) ∧
  (∀ f : EthIn, p < 2 → s.ust (U.eth p) = .running → s.merged = false → (s.ethAccept p f).2 = true → f.dstIp = s.ownIp p → (s.et p).answers = [] →
    Answers (.addressResolution p f) s fun t => (t.et p).received = (s.et p).received + 1 ∧
    if s.ethCan p = true ∧ s.gateOpen p 2 (s.frameTime p (if s.ethFlag p 3 then 72 else 46)) = true then (t.et p).answers = [] ∧ (t.et p).sent = (s.et p).sent + 1
    else (t.et p).answers = [⟨f.ip, f.port, f.mac⟩]) ∧
  (∀ (offset : Int) (delay : Nat), p < 2 → s.ust (U.eth p) = .running → s.ethFlag p 6 = true → -2147483648 ≤ offset → offset < 2147483648 →
    Answers (.syncReceived p ⟨offset, delay⟩ true) s fun t => t.sfld (R.ETHp_OFFS p) F.ETHp_OFFS_VALUE = offset ∧
    (t.et p).delay = delay ∧ t.rate = t.sfld (R.ETHp_RATE p) F.ETHp_RATE_VALUE ∧
    (10000 < offset.natAbs → t.flag (R.ETHp_STATE p) F.ETHp_STATE_SYNCED = false)) ∧
  (p < 2 → s.ust (U.eth p) = .running → s.ethFlag p 6 = true → Answers (.syncTimeout p) s fun t => (t.et p).goodSince = none ∧
    t.flag (R.ETHp_STATE p) F.ETHp_STATE_SYNCED = false) ∧
  (p < 2 → s.ethFlag p 7 = true → s.gates p ≠ [] → Answers (.gateCycleRestart p) s fun t => (t.et p).gateAt = s.time - s.time % s.gateCycle p) ∧
  (∀ up, p < 2 → s.flag (R.ETHp_STATE p) F.ETHp_STATE_LINK ≠ up → Answers (.ethLinkChange p up) s fun t => t.flag (R.ETHp_STATE p) F.ETHp_STATE_LINK = up ∧
    t.flag (R.ETHp_EVT p) F.ETHp_EVT_LINK = true) ∧
  (s.merged = true → Answers .sequenceRecoveryReset s fun t => (t.et 0).takeAny = true ∧ (t.et 0).hist = 0)

/-- Keys, the debug lock, the TRNG and the pins, each where it applies (chapters 16 and 18): a key command is accepted from the debug module while
the lock is not LOCKED and MRAM writes are not refused (R384), and its effect comes with its completion; a challenge and its response; random words; the debug module's halt,
resume, step, abstract command (a register, the program buffer, a cmderr that stays until it is cleared) and hart reset; the JTAG instructions
that drive pins (BYPASS in their place where R433 does not let them), IDCODE, and the PPS output. -/
def Obligations.SecurityCommands : Prop := ∀ (s : State) (c h slot t : Nat) (v : Word),
  (s.debugLocked = false → s.sec.cmd = none → s.mramClosed = false →
    (slot < 4 → s.keyFused slot = false → Answers (.fuseImageKey (.debug h) slot) s fun u => u.sec.cmd = some ⟨1, slot, s.keyData 96⟩ ∧ u.resp = ⟨.done, 0⟩) ∧
    (slot < 8 → Answers (.setFrankingKey (.debug h) slot) s fun u => u.sec.cmd = some ⟨2, slot, s.keyData 16⟩ ∧ u.resp = ⟨.done, 0⟩) ∧
    (s.sec.debugKey = none → Answers (.fuseDebugKey (.debug h) 0) s fun u => u.sec.cmd = some ⟨3, 0, s.keyData 32⟩ ∧ u.resp = ⟨.done, 0⟩) ∧
    (slot < 4 → s.lastKey slot = false → Answers (.revokeImageKey (.debug h) slot) s fun u => u.sec.cmd = some ⟨4, slot, []⟩ ∧ u.resp = ⟨.done, 0⟩)) ∧
  (∀ k, s.sec.cmd = some k → Answers .keyCommandComplete s fun u => u.sec.cmd = none ∧ u.flag R.SEC_EVT F.SEC_EVT_KCMD = true ∧ (s.mramClosed = false →
    (k.action = 1 → FMap.get (fun _ => []) u.sec.records k.slot = k.data) ∧ (k.action = 2 → FMap.get fkDefault u.sec.fks k.slot = k.data) ∧
    (k.action = 3 → u.sec.debugKey = some k.data) ∧ (k.action = 4 → u.sec.revoked = s.sec.revoked ||| 2 ^ k.slot))) ∧
  (Answers (.debugChallengeRead (.debug h)) s fun u => ∃ l, u.sec.challenge = some l ∧ l.length = 16) ∧
  (s.sec.fails < 3 → Answers (.debugResponseWrite (.debug h) v) s fun u =>
    (s.debugAnswer = some ((List.range 4).flatMap fun j => leBytes 4 ((s.setReg (R.SEC_DBGRESPj 3) v).reg (R.SEC_DBGRESPj j)).toNat) → u.sec.unlocked = true ∧
      (s.sec.unlocked = false → u.flag R.SEC_EVT F.SEC_EVT_DBG = true)) ∧
    (s.debugAnswer ≠ some ((List.range 4).flatMap fun j => leBytes 4 ((s.setReg (R.SEC_DBGRESPj 3) v).reg (R.SEC_DBGRESPj j)).toNat) →
      u.sec.fails = s.sec.fails + 1 ∧ u.resp = ⟨.eFrank, 0⟩ ∧ u.sec.unlocked = s.sec.unlocked)) ∧
  (Answers .challengeExpiry s fun u => u.sec.challenge = none) ∧
  (s.sec.trngBad = false → s.Lets c R.SEC_TRNG 0 → Answers (.randomWordRead (.core c) true) s fun u => u.resp.status = .done ∧ u.tick = s.tick + 1) ∧
  (s.Lets c R.SEC_TRNG 0 → Answers (.randomWordRead (.core c) false) s fun u => u.sec.trngBad = true ∧ u.resp = ⟨.done, 0⟩ ∧ u.flag R.SEC_EVT F.SEC_EVT_TRNG = true) ∧
  (s.Writes c R.PIN_OUT v (if (List.range 32).any fun n => bitAt v.toNat n != bitAt (s.reg R.PIN_OUT).toNat n && s.pinFunc n != 1 then [.eLocked] else []) →
    Answers (.pinOutWrite (.core c) v) s fun u => u.reg R.PIN_OUT = s.written R.PIN_OUT v ∧ u.resp = ⟨.done, 0⟩) ∧
  (s.hartThere t = true → (s.core t).halted = false → (s.core t).cond = .running ∨ (s.core t).cond = .parked → Answers (.debugHalt t) s fun u =>
    (u.core t).halted = true ∧ (u.core t).reservation = none ∧ u.dbg.hartsel = t) ∧
  (s.hartThere t = true → (s.core t).halted = true → Answers (.debugResume t) s fun u => (u.core t).halted = false ∧ u.dbg.hartsel = t) ∧
  (s.hartThere t = true → (s.core t).halted = true → Answers (.debugStep t v) s fun u => (u.core t).pc = v.toNat ∧ (u.core t).halted = true) ∧
  (∀ k cl, 0 < k → k < 32 → s.hartThere t = true → (s.core t).halted = true → (s.core t).active = false → s.dbg.cmderr = 0 ∨ cl = true →
    (Answers (.debugAbstractCommand t ⟨cl, true, 0x1000 + k, true, v, [], false, [], false⟩) s fun u => bankReg (u.core t).bank k = v ∧ u.dbg.cmderr = 0) ∧
    (Answers (.debugAbstractCommand t ⟨cl, true, 0x1000 + k, false, v, [], false, [], false⟩) s fun u => u.dbg.data = bankReg (s.core t).bank k ∧ u.dbg.cmderr = 0) ∧
    (Answers (.debugAbstractCommand t ⟨cl, false, 0, false, v, [(7, v)], true, [(0x1000 + k, v)], false⟩) s fun u => bankReg (u.core t).bank k = v ∧
      u.dbg.cmderr = 0 ∧ FMap.get (fun _ => 0) u.dbg.buf 7 = v)) ∧
  (∀ d, s.hartThere t = true → s.dbg.cmderr ≠ 0 → d.clear = false → Answers (.debugAbstractCommand t d) s fun u => u.dbg.cmderr = s.dbg.cmderr ∧ u.cores = s.cores) ∧
  (s.runCores.contains t = true → s.debugLocked = false → s.rst.transport = false → Answers (.debugHartReset t true) s fun u =>
    (11, 2 ^ s.pairOf t) ∈ u.rst.sources) ∧
  (∀ l, Answers (.jtagExtest (.drive l)) s fun u => u.pins = { s.pins with
    jtag := if s.debugLock = 2 ∧ s.driveEn = false ∧ s.actEn = false then .drive l else .bypass }) ∧
  (s.tdoDriven = true → Answers (.jtagExtest .idcode) s fun u => u.pins = { s.pins with jtag := .idcode } ∧ u.resp = ⟨.done, 0x08800C3B⟩) ∧
  (∀ b, ((List.range 32).any fun n => s.pinFunc n == 5) = true → Answers (.ppsPulse b) s fun u => u.pins = { s.pins with pps := b })

/-- The modulator, the fast converters, the gate links and the engines, each command where it applies (chapters 04 and 05): an uncorrectable
error in a critical read with its three retries (R21), a conversion taken, an update point committed, the link watch, trips and latches, the level of a gate driver's
fault line, DRIVE_EN, the gate links' windows, answers and timeouts, and an engine's update, which takes its sample.
Timer rows stand for the expiry and measured values are operands: the model's choices, logs 4 and 5. -/
def Obligations.ModulatorEvents : Prop := ∀ (s : State) (n g k : Nat) (raw : List Nat),
  (s.tries 3 n < 3 → Answers (.linkFrameError true 3 n) s fun t => t.rst = s.rst ∧ t.tries 3 n = s.tries 3 n + 1) ∧
  (3 ≤ s.tries 3 n → Answers (.linkFrameError true 3 n) s fun t => (7, 0) ∈ t.rst.sources ∧ t.fld R.MEM_CRIT F.MEM_CRIT_ITEM = n % 256) ∧
  (g < 8 → (∀ j, j ∈ s.pairEngines n → (s.e j).waiting = true ∧ (s.groupsOf j).contains g = true) → s.pairEngines n ≠ [] →
    Answers (.conversionResult g (some n) raw false) s fun t => ∀ j ∈ s.pairEngines n, (FMap.get (fun _ => []) (t.e j).samp g).length = 4) ∧
  (∀ peak late, let p := (s.pairEngines n).headD n; let f := s.fld (R.FEn_STATE p) F.FEn_STATE_FUNCTION
    s.ust (U.fe p) = .running → (∀ j ∈ s.pairEngines n, s.faultPending (U.fe j) = false ∧ (s.e j).waiting = false) →
    (∃ l ∈ s.fnLegs f, ((s.each (s.fnLegs f) State.applyTiming).shadowOf l).isSome = true) → Answers (.updatePointCommit n peak late) s fun t =>
    (t.fp f).booked = (s.fp f).next ∧ (t.fp f).withdrawn = false ∧ ∀ j ∈ s.pairEngines n, t.fld (R.FEn_ERRCNT j) F.FEn_ERRCNT_LATE_RUN = 0) ∧
  ((List.range 8).all (fun j => !((s.ust (U.fe j)).active && (s.groupsOf j).contains g)) = true → (List.range 4).any (fun j => s.thr 0x0104 j (-1) / 4 == (g : Int)) = true →
    s.mdl.watch.contains g = false → Answers (.linkWatchTrigger g false) s fun t => t.mdl.watch = s.mdl.watch ++ [g]) ∧
  (∀ blanking, n < 48 → s.fld (R.MOD_LCFGn n) F.MOD_LCFGn_ROLE ≠ 0 → s.latchOf n = 0 → Answers (.didtTrip n blanking) s fun t =>
    t.latchOf n = (if s.blanking n then 2 else 1) ∧ t.dutyOf n = none ∧ t.pinGH n = false ∧ t.pinGL n = false ∧
      t.pinGS n = s.flag (R.MOD_LCFGn n) F.MOD_LCFGn_GSEN) ∧
  (s.ctrlStopped = false → s.rst.sysHold = 0 → 3 ≤ s.rst.domains → Answers (.softOffHoldEnd n) s fun t => t.pinGS n = false) ∧
  (∀ high, n < 48 → Answers (.gfFault n high) s fun t => t.gfHigh n = high ∧
    (high = false → s.fld (R.MOD_LCFGn n) F.MOD_LCFGn_ROLE ≠ 0 → (s.ust (U.fn (s.fld (R.MOD_LCFGn n) F.MOD_LCFGn_FUNC))).active = true →
      t.latchOf n = (if s.latchOf n = 0 then 3 else s.latchOf n))) ∧
  (n < 48 → s.fld (R.MOD_LCFGn n) F.MOD_LCFGn_ROLE ≠ 0 → s.legOvr n = 0 → (s.lockOf n).counts (s.fld R.MOD_IDT F.MOD_IDT_IDT) s.time = true →
    Answers (.ilockLatch n true) s fun t =>
    t.flag R.MOD_EVT F.MOD_EVT_ILOCK = true ∧ t.latchOf n = (if s.latchOf n = 0 then 4 else s.latchOf n)) ∧
  (s.driveEn = true → Answers .driveEnFall s fun t => t.driveEn = false ∧ t.flag R.MOD_STAT F.MOD_STAT_DEN = false ∧ t.flag R.MOD_EVT F.MOD_EVT_DEN_LOW = true) ∧
  (∀ low loud, s.driveEn = false → Answers (.driveEnRise low loud) s fun t => t.driveEn = true ∧ t.flag R.MOD_STAT F.MOD_STAT_DEN = true ∧
    (low < 9000 → t.pads = s.pads) ∧ (10000 ≤ low → s.gfHigh n = true → loud.contains n = false → t.latchOf n = 0)) ∧
  (k < s.variant.glks → Answers (.gateLinkWindow k) s fun t => (t.glLink k).window = ((s.glLink k).window + 1) % 12) ∧
  (∀ j r fr, k < 8 → j < 6 → (s.glLink k).wait = .poll j r → glGood (s.glLink k).frame fr = true → Answers (.gateLinkResponse k fr) s fun t =>
    t.reg (R.GLKk_DRVj k j) = BitVec.ofNat 32 (leAt fr 3 2 / 256 % 256 * 2 ^ 24 + leAt fr 3 2 % 256 * 2 ^ 16)) ∧
  (k < 8 → (s.glLink k).wait ≠ .none → Answers (.gateLinkTimeout k) s fun t => t.fld (R.GLKk_ERR k) F.GLKk_ERR_TIMEOUT =
    satU (F.GLKk_ERR_TIMEOUT.hi + 1 - F.GLKk_ERR_TIMEOUT.lo) (s.fld (R.GLKk_ERR k) F.GLKk_ERR_TIMEOUT + 1) ∧ bitAt (t.fld R.GLK_EVT F.GLK_EVT_CRC) k = true) ∧
  (∀ point, (s.ust (U.fe ((s.pairEngines n).headD n))).active = true →
    (∀ j ∈ s.pairEngines n, (s.e j).waiting = true ∧ (s.e j).cause = 0 ∧ s.faultPending (U.fe j) = false) → Answers (.engineUpdate n point) s fun t =>
    ∀ j ∈ s.pairEngines n, (t.e j).waiting = false)

/-- The charger's events, each where it applies (chapter 08): pilot and proximity, contactor, grid, the search of the input limit, the bus
regulation, the ends of a session and the causes of a fault. A session that ends goes to RAMPDOWN, phase 9; a fault waits for the
boundary. u is the state with the measured grid values.
Timer rows stand for the expiry and measured values are operands: the model's choices, logs 4 and 5. -/
def Obligations.ChargerEvents : Prop := ∀ (s : State) (g : GridIn), let u := s.gridSense g
  (∀ p : PilotIn, s.ust U.chg ≠ .absent → pilotAccepted p = true → Answers (.pilotClassAccepted p.periods p.level p.held) s fun t => t.pilotClass = pilotLevel p ∧
    t.fld R.CHG_PILOT F.CHG_PILOT_OSC = b2n (pilotRuns p) ∧ t.fld R.CHG_PILOT F.CHG_PILOT_DUTY = min (pilotDuty p) 1000 ∧
    t.fld R.CHG_PILOT F.CHG_PILOT_ICUR = pilotCurrent (pilotRuns p) (pilotMean p)) ∧
  (∀ p : PilotIn, pilotAccepted p = false → Answers (.pilotClassAccepted p.periods p.level p.held) s fun t => t = s) ∧
  (∀ ohms, s.ust U.chg ≠ .absent → Answers (.proximityCodeAccepted ohms) s fun t => t.ppCode = ppDecode ohms ∧
    (s.ust U.chg = .armed → ppDecode ohms = 0 → HwEvent.move U.chg [.armed] .idle ∈ t.po.hw)) ∧
  (s.pilotClass = 6 → s.ust U.chg = .running → s.chgPhase ≠ 0 → s.chg.hard = false → Answers .invalidPilotTimeout s fun t => t.chgPhase = 9 ∧
    t.chg.hard = true ∧ HwEvent.move U.chg [.running] .stopping ∈ t.po.hw) ∧
  (s.pilotClass = 7 → s.ust U.chg = .running → Answers .pilotDiodeFault s fun t => HwEvent.fault U.chg ∈ t.po.hw) ∧
  (∀ closed, s.ust U.chg ≠ .absent → Answers (.contactorFeedbackChange closed) s fun t => t.chg.acFb = closed ∧
    (s.chgPhase = 2 → closed = true → s.chg.acCmd = true → s.ust U.chg = .running → t.chgPhase = 3 ∧ t.chg.cpS2 = true)) ∧
  (s.chgPhase = 1 → s.chg.hard = false → (s.ust U.chg).live = true → Answers .prechargeTimeout s fun t => HwEvent.fault U.chg ∈ t.po.hw) ∧
  (s.chg.acCmd ≠ s.chg.acFb → (s.ust U.chg).live = true → Answers .contactorTimeout s fun t => HwEvent.fault U.chg ∈ t.po.hw) ∧
  (u.chgPhase = 3 → u.ust U.chg = .running → u.chg.hard = false → s.chg.phSel = 2 → g.u.take 1 ≠ [] →
    (g.u.take 1).all (fun x => decide (s.cth 0x051B 230 * 32768 < (x : Rat))) = true → u.gridLost = false → Answers (.gridReady g) s fun t =>
    t.chgPhase = (if s.chgMode = 1 then 7 else 4)) ∧
  (s.chgPhase = 3 → Answers .gridWaitTimeout s fun t => t.chgPhase = 9) ∧
  (u.searching = true → ¬100 * u.gridVolts * 65536 < 94 * (u.chg.u0 : Rat) → ¬g.i < u.chg.search - 65536 → u.chg.search < u.otherLimit →
    Answers (.searchStep g) s fun t => t.chg.search = u.chg.search + 32768) ∧
  (s.chgPhase = 5 → s.searching = false → Answers .searchRepeat s fun t => t.searching = true ∧ t.chg.search = s.inLimit.1) ∧
  (s.ust U.chg ≠ .absent → Answers (.busRegulationTick g) s fun t => t.chg.grid = g.u ∧ t.chg.gridI = g.i ∧
    (u.chg.clampNow ≤ u.inLimit.1 → t.chg.clampNow = u.inLimit.1)) ∧
  (s.chgPhase = 6 → s.chgI2 * 65536 < (s.chg.term : Rat) → Answers .termination s fun t => t.chgPhase = 9) ∧
  (s.chgPhase = 4 ∨ s.chgPhase = 5 → s.chg.reason = 0 → (s.ust U.chg).live = true → Answers .ccTimerExpiry s fun t => HwEvent.fault U.chg ∈ t.po.hw) ∧
  (s.chgPhase ≠ 0 → s.chg.reason = 0 → s.terminated = true → Answers .sessionCapExpiry s fun t => t.chgPhase = 9 ∧ t.chg.reason = 2) ∧
  (s.chgPhase ≠ 0 → s.chg.reason = 0 → s.terminated = false → (s.ust U.chg).live = true → Answers .sessionCapExpiry s fun t => HwEvent.fault U.chg ∈ t.po.hw) ∧
  (Answers .bmsTemperatureExpiry s fun t => t.chg.tempKnown = false ∧ (s.ust U.chg = .running → s.chgPhase ≠ 0 → t.chgPhase = 9)) ∧
  (102 / 100 * s.cth 0x0507 1000 < s.chgV2 → (s.ust U.chg).live = true → Answers (.outputFault 5) s fun t => HwEvent.fault U.chg ∈ t.po.hw) ∧
  (u.chgPhase = 7 → u.chg.hard = false → u.gridOut = true ∨ u.gridLost = true → Answers (.gridTrip g) s fun t => t.chgPhase = 9 ∧ t.chg.hard = true) ∧
  (s.chgPhase = 8 → s.chg.hard = false → (s.ust U.chg).live = true → Answers .islandOverload s fun t => HwEvent.fault U.chg ∈ t.po.hw) ∧
  (s.chgPhase = 9 → s.chg.hard = false → Answers .rampdownEnd s fun t => t.chg.hard = true ∧ t.chg.cpS2 = false ∧ t.chg.acCmd = false) ∧
  (s.chg.hard = true → Answers .acContactorOpen s fun t => t.chg.acCmd = false) ∧
  (s.ust U.chg = .stopping → s.chg.hard = true → s.chg.acFb = false → s.chg.cpS2 = false → (∀ n ∈ s.chgLegs, s.dutyOf n = none) →
    Answers .chargerStopComplete s fun t => t.chgPhase = 0 ∧ HwEvent.move U.chg [.stopping] (if s.cablePresent then .armed else .idle) ∈ t.po.hw) ∧
  (s.rst.transportDue = true → Answers .transportEntry s fun t => t.rst = { s.rst with transportDue := false, transport := true })

/-- The actuator channels' events, each where it applies (chapter 10): the measured speed and VACT of a control sample, the ends of the start's
phases, the brake pulses, a failed attempt (retried, or at the fourth START_FAIL), latches, the leakage check, VACT out of range, ACT_EN
and what its fall does to an active channel, the end of a stop.
Timer rows stand for the expiry and measured values are operands: the model's choices, logs 4 and 5. -/
def Obligations.ActuatorEvents : Prop := ∀ (s : State) (k : Nat), k < 4 →
  (∀ m : ActIn, unitPresent s.variant (U.ac k) = true → s.ust (U.ac k) ≠ .off → -32768 ≤ m.speed → m.speed < 32768 → Answers (.actUpdate k m) s fun t =>
    t.sfld (R.ACk_SPD k) F.ACk_SPD_SPEED = m.speed ∧ (t.ac k).lastAt = s.time ∧
    t.fld R.ACT_VACT F.ACT_VACT_MV = satU 16 m.vact) ∧
  (∀ o : ObsIn, s.acLive k = true → Answers (.actStartPhaseEnd k o) s fun t =>
    (s.acPhase k = 1 → t.acPhase k = (if (o.amp : Rat) < s.ath k 0x0806 500 then 3
      else if 0 < o.rpm * (s.ac k).goal ∧ s.ath k 0x0807 1000 ≤ (absI o.rpm : Rat) then 6 else 2)) ∧
    (s.acPhase k = 2 → t.acPhase k = (if (o.amp : Rat) < s.ath k 0x0806 500 then 3 else 2)) ∧
    (s.acPhase k = 3 → t.acPhase k = 4) ∧ (s.acPhase k = 4 → t.acPhase k = (if (s.ac k).holdAsk then 7 else 5))) ∧
  (∀ v, s.acLive k = true → s.acPhase k = 2 → (s.ac k).paused = false → Answers (.actBrakePulse k v true) s fun t =>
    (t.ac k).paused = decide (100 * s.ath k 0x080D 540 ≤ (v : Rat)) ∧ (t.ac k).pulse = !decide (100 * s.ath k 0x080D 540 ≤ (v : Rat))) ∧
  (∀ v, s.acLive k = true → s.acPhase k = 2 → Answers (.actBrakePulse k v false) s fun t => (t.ac k).pulse = false) ∧
  (∀ rpm, s.acLive k = true → s.acPhase k = 5 → s.ath k 0x0808 500 ≤ (absI rpm : Rat) → Answers (.actRampLock k rpm) s fun t => t.acPhase k = 6) ∧
  (s.acLive k = true → s.acPhase k ∈ [2, 3, 4, 5, 7] → (s.ac k).reached = false → s.fld (R.ACk_STATE k) F.ACk_STATE_ATTEMPT < 4 → Answers (.startAttemptFail k) s fun t =>
    t.acPhase k = 0 ∧ (t.ac k).waiting = true) ∧
  (s.acLive k = true → s.acPhase k ∈ [2, 3, 4, 5, 7] → (s.ac k).reached = false → 4 ≤ s.fld (R.ACk_STATE k) F.ACk_STATE_ATTEMPT →
    Answers (.startAttemptFail k) s fun t => t.acPhase k = 0 ∧ HwEvent.fault (U.ac k) ∈ t.po.hw ∧ bitAt (t.fld (R.ACk_FLT k) F.ACk_FLT_CAUSE) 3 = true) ∧
  (s.acLive k = true → (s.ac k).waiting = true → s.fld (R.ACk_STATE k) F.ACk_STATE_ATTEMPT < 4 → Answers (.retryWaitEnd k) s fun t =>
    t.acPhase k = 1 ∧ (t.ac k).waiting = false ∧ t.fld (R.ACk_STATE k) F.ACk_STATE_ATTEMPT = s.fld (R.ACk_STATE k) F.ACk_STATE_ATTEMPT + 1) ∧
  (∀ p, p < 3 → (s.ust (U.ac k)).active = true →
    (Answers (.bootstrapRefresh (3 * k + p)) s fun t => (t.ac k).refreshes = (s.ac k).refreshes + 1) ∧
    (s.actLatch (3 * k + p) = 0 → Answers (.bootstrapUndervoltage (3 * k + p)) s fun t => t.actLatch (3 * k + p) = 3)) ∧
  (∀ p c, p < 3 → c = 1 ∨ c = 2 → unitPresent s.variant (U.ac k) = true → s.actLatch (3 * k + p) = 0 → Answers (.actLegLatch (3 * k + p) c) s fun t =>
    t.actLatch (3 * k + p) = c) ∧
  (∀ low high, unitPresent s.variant (U.ac k) = true → (s.ac k).leak ≠ [] → (∀ p, p < 3 → s.ath k 0x081C 20 ≤ (low.getD p 0 : Rat) ∧ (low.getD p 0 : Rat) ≤ s.ath k 0x081D 1500 ∧
      s.ath k 0x081C 20 ≤ (high.getD p 0 : Rat) ∧ (high.getD p 0 : Rat) ≤ s.ath k 0x081D 1500) → Answers (.leakTestComplete k low high) s fun t =>
    (t.ac k).leak = (s.ac k).leak.drop 1 ∧ ((s.ac k).leak.headD 0 = 1 → HwEvent.move (U.ac k) [.idle] .armed ∈ t.po.hw)) ∧
  (∀ low high p, unitPresent s.variant (U.ac k) = true → (s.ac k).leak ≠ [] → p < 3 → s.actLatch (3 * k + p) = 0 →
    (low.getD p 0 : Rat) < s.ath k 0x081C 20 ∨ s.ath k 0x081D 1500 < (high.getD p 0 : Rat) → Answers (.leakTestComplete k low high) s fun t =>
    t.actLatch (3 * k + p) = 4) ∧
  (∀ mv, Answers (.vactFault mv) s fun t => t.fld R.ACT_VACT F.ACT_VACT_MV = satU 16 mv ∧
    ((s.ust (U.ac k)).active = true → 100 * s.ath k 0x080E 580 < (mv : Rat) → HwEvent.fault (U.ac k) ∈ t.po.hw) ∧
    (s.ust (U.ac k) = .running ∨ s.ust (U.ac k) = .stopping → (mv : Rat) < 100 * s.ath k 0x080F 100 → HwEvent.fault (U.ac k) ∈ t.po.hw)) ∧
  (unitPresent s.variant (U.ac k) = true → s.ust (U.ac k) = .stopping → ¬s.ath k 0x081B 100 ≤ (absI (s.sfld (R.ACk_SPD k) F.ACk_SPD_SPEED) : Rat) → Answers (.actStopComplete k) s fun t =>
    t.acPhase k = 0 ∧ (t.ac k).charge = true ∧
      HwEvent.move (U.ac k) [.stopping] .armed ∈ t.po.hw) ∧
  (s.actEn = true → Answers .actEnFall s fun t => t.actEn = false ∧ t.flag R.ACT_STAT F.ACT_STAT_EN = false ∧ t.flag R.ACT_EVT F.ACT_EVT_EN_LOW = true ∧
    ((s.ust (U.ac k)).active = true → HwEvent.fault (U.ac k) ∈ t.po.hw)) ∧
  (∀ low loud n, s.actEn = false → Answers (.actEnRise low loud) s fun t => t.actEn = true ∧ t.flag R.ACT_STAT F.ACT_STAT_EN = true ∧
    (20000 ≤ low → loud.contains n = false → t.actLatch n = 0))

/-- A stall and the gearbox sequencer's events, each where it applies: a target reached, a move timed out, the synchronisation reached, a retry
of a blocked engagement, the end of the wait for PARK, the end of the synchronisation time.
Timer rows stand for the expiry and measured values are operands: the model's choices, logs 4 and 5. -/
def Obligations.GearboxEvents : Prop := ∀ (s : State) (k mech : Nat), k < 4 →
  (unitPresent s.variant (U.ac k) = true → s.acPhase k = 6 → ¬s.ath k 0x0817 50 ≤ (absI (s.sfld (R.ACk_SPD k) F.ACk_SPD_SPEED) : Rat) → s.acOwned k = false → (s.ust (U.ac k)).live = true →
    Answers (.actStall k) s fun t => t.flag (R.ACk_EVT k) F.ACk_EVT_STALL = true ∧ HwEvent.fault (U.ac k) ∈ t.po.hw) ∧
  (s.gbxOp = 2 → s.gbx.mech = mech → s.gbx.moveTo ≠ 0 → s.gbxReport mech = s.gbx.moveTo → Answers (.moveTargetReached mech) s fun t => t.gbxOp = 0 ∧
    t.flag R.GBX_EVT F.GBX_EVT_DONE = true) ∧
  (s.gbxOp ≠ 0 → s.gbx.mech = mech → s.gbx.moveTo ≠ 0 → s.gbx.parkWait = false → s.gbxReport mech = 0 → (s.ust U.gbx).live = true →
    Answers (.moveTimeout mech) s fun t => HwEvent.fault U.gbx ∈ t.po.hw ∧ t.gbx.moveTo = 0) ∧
  (s.gbx.mech < 3 → s.gbxPhase = 3 → s.machRuns s.gbx.mech = true → -(s.gt 0x0934 30) ≤ s.nSync - s.machRpm ((s.gbxMachine s.gbx.mech).getD 0xFF) →
    s.nSync - s.machRpm ((s.gbxMachine s.gbx.mech).getD 0xFF) ≤ s.gt 0x0934 30 → Answers .shiftPhaseEnd s fun t => t.gbxPhase = 4 ∧ t.gbx.moveTo = s.gbx.target) ∧
  (s.gbxOp ≠ 0 → s.gbxPhase = 4 → s.gbx.blocked = true → Answers .buttRetry s fun t => t.gbx.blocked = false ∧ t.gbx.moveTo = s.gbx.target) ∧
  (s.gbxOp = 2 → s.gbx.parkWait = true → s.gbx.moveTo = 1 → s.gbxReport 1 ≠ 1 → Answers .parkWaitExpiry s fun t => t.gbx.parkWait = false ∧
    t.gbx.moveTo = 2 ∧ t.gbx.final = .eInterlock) ∧
  (s.gbxOp ≠ 0 → s.gbxPhase = 3 → Answers .syncTimeExpiry s fun t => t.gbxOp = 0 ∧ t.gbxPhase = 0)

/-- The memories, the non-volatile store and the journal, each command where it applies (chapter 17): the capture of errors and its read, the
counts, injection, scrubbing, restoration, the write queue and its pulses, journal entries and their way through that queue into the ring (R455),
critical state. `mergeErr` puts the bytes that an access finds upset upon those that stood in error. -/
def Obligations.MemoryCommands : Prop := ∀ (s : State) (c k cw off item : Nat) (upset : List (Nat × Byte)) (v : Word),
  let src := cw / 32 * 32
  let o := off / 32 * 32
  (s.Lets c R.MEM_LASTINFO 0 → Answers (.memLastinfoRead (.core c)) s fun t => t.resp = ⟨.done, (s.reg R.MEM_LASTINFO).toNat⟩ ∧ t.flag R.MEM_LASTINFO F.MEM_LASTINFO_VALID = false ∧
    t.flag R.MEM_LASTINFO F.MEM_LASTINFO_OVERRUN = false ∧
    t.reg R.MEM_LASTADDR = (if s.flag R.MEM_LASTINFO F.MEM_LASTINFO_VALID = true then BitVec.ofNat 32 s.memCap else s.reg R.MEM_LASTADDR)) ∧
  (s.Writes c R.MEM_INJ v ((if 4 ≤ getF v F.MEM_INJ_STORE then [.eRange] else [])
      ++ (if (getF v F.MEM_INJ_STORE = 2 ∨ getF v F.MEM_INJ_STORE = 3) && !s.enginesIdle then [.eState] else [])) →
    Answers (.errorInjection (.core c) v) s fun t => t.resp = ⟨.done, 0⟩ ∧ t.reg R.MEM_INJ = s.written R.MEM_INJ v) ∧
  (s.Writes c (R.MEM_CNTs k) v → Answers (.errorCountClear (.core c) k v) s fun t => t.resp = ⟨.done, 0⟩ ∧
    t.reg (R.MEM_CNTs k) = (if getF v F.MEM_CNTs_CLR = 1 then 0 else s.reg (R.MEM_CNTs k))) ∧
  (s.nvsFails 0 (s.reg R.NVS_WADDR).toNat (s.nvsLocked (.core c) (s.reg R.NVS_WADDR).toNat) = [] → s.Lets c R.NVS_WCMD 1 → Answers (.nvsWindowWrite (.core c)) s fun t =>
    t.resp = ⟨.done, 0⟩ ∧ t.nvs.queue = s.nvs.queue ++ [⟨(s.reg R.NVS_WADDR).toNat, s.nvsData, 0⟩] ∧ t.nvs.pulse = true ∧
    ∀ j, j < 8 → t.reg (R.NVS_WDATAj j) = 0) ∧
  (s.nvsFails 1 (s.reg R.NVS_WADDR).toNat false = [] → s.Lets c R.NVS_WCMD 1 → Answers (.nvsStructureSlotWrite (.core c)) s fun t => t.resp = ⟨.done, 0⟩ ∧
    t.nvs.queue = s.nvs.queue ++ [⟨slotBase (s.inactiveSlot ptrKey) - 0x60000000 + (s.reg R.NVS_WADDR).toNat, s.nvsData, 1⟩] ∧ t.icheck.passed = false) ∧
  (s.nvsFails 2 (s.reg R.NVS_WADDR).toNat false = [] → s.Lets c R.NVS_WCMD 1 → Answers (.nvsFirmwareSlotWrite (.core c)) s fun t => t.resp = ⟨.done, 0⟩ ∧
    t.nvs.queue = s.nvs.queue ++ [⟨fwBase (s.inactiveSlot fwPtrKey) - 0x60000000 + (s.reg R.NVS_WADDR).toNat, s.nvsData, 2⟩] ∧ t.fcheck.passed = false) ∧
  (s.nvs.jbuf.length < 64 → s.Lets c R.NVS_JPOST 1 → Answers (.journalPost (.core c) 1) s fun t => t.resp = ⟨.done, 0⟩ ∧ (∀ j, j < 8 → t.reg (R.NVS_JDATAj j) = 0) ∧
    t.nvs.jbuf = s.nvs.jbuf ++ [⟨(s.reg R.NVS_JSEQ).toNat, 8, s.pm, s.time, (List.range 8).flatMap fun j => leBytes 4 (s.reg (R.NVS_JDATAj j)).toNat⟩]) ∧
  (∀ x, s.tableSource o = some x → (mergeErr (s.errAt (x / 32 * 32)) upset).length ≤ 3 → Answers (.tableRestore off upset) s fun t =>
    (∀ i, i < 32 → t.byte (0x28000000 + o + i) = s.memByte (x + i)) ∧ BytesKept (0x28000000 + o) 32 s t) ∧
  (∀ x, s.tableSource o = some x → (mergeErr (s.errAt (x / 32 * 32)) upset).length = 4 → Answers (.tableRestore off upset) s fun t =>
    t.mem = s.mem ∧ t.flag R.MEM_EVT F.MEM_EVT_RESTFAIL = true ∧ o ∈ t.restFail) ∧
  (k < 4 → 0 < (mergeErr (s.errAt src) upset).length → (mergeErr (s.errAt src) upset).length ≤ 3 → Answers (.scrubVisit k cw upset false) s fun t =>
    t.mem = s.mem ∧ t.errAt src = [] ∧ t.fld (R.MEM_CNTs k) F.MEM_CNTs_CE = min (s.fld (R.MEM_CNTs k) F.MEM_CNTs_CE + 1) 65535) ∧
  (s.fld R.RST_STATE F.RST_STATE_PHASE = 5 → s.mramClosed = false → s.nvs.queue.length < 16 → 0 < (mergeErr (s.errAt (0x60000000 + o)) upset).length →
    (mergeErr (s.errAt (0x60000000 + o)) upset).length ≤ 3 → (s.nvs.queue.any fun w => w.offset == o) = false → s.nvs.owed.contains o = false → Answers (.mramScrub off upset) s fun t =>
    t.nvs.queue = s.nvs.queue ++ [⟨o, s.bytes (0x60000000 + o) 32, 3⟩] ∧ t.nvs.pulse = true) ∧
  (∀ w q, s.nvs.queue = w :: q → s.nvs.pulse = true → s.mramClosed = false → s.rst.waitPulse = false → s.nvs.owed = [] → s.nvs.jbuf = [] → s.nvs.flush = false → s.po.ready = [] → w.target ≠ 4 → w.data.length = 32 → Answers .mramWritePulseEnd s fun t => t.nvs.queue = q ∧
    t.nvs.pulse = !q.isEmpty ∧ t.bytes (0x60000000 + w.offset) 32 = w.data ∧ t.errAt (0x60000000 + w.offset) = [] ∧
    BytesKept (0x60000000 + w.offset) 32 s t) ∧
  (∀ e q, let l := ringWrites s.nvs.jptr (jBytes e s.aon.session); s.mramClosed = false → s.nvs.jbuf = e :: q → s.nvs.queue.length + l.length + 1 ≤ 16 →
    Answers .journalWrite s fun t => t.nvs.jbuf = q ∧ t.nvs.jptr = (s.nvs.jptr + 32 * l.length) % 0x1000000 ∧ t.mem = s.mem ∧ t.nvs.pulse = true ∧
    t.nvs.queue.take (s.nvs.queue.length + l.length) = s.nvs.queue ++ l ∧ (s.nvs.jsince < 63 → t.nvs.queue = s.nvs.queue ++ l)) ∧
  (item < 256 → Answers (.criticalStateError item) s fun t => t.fld R.MEM_CRIT F.MEM_CRIT_ITEM = item ∧ t.rst.sources.any (·.1 == 7) = true)

/-- Reads and writes over the bus, each where it applies (R4, R8, R9, R86, R227, R442): a write applied directly, a converted write, a read of a
fault cause register, an access to a memory of the T880 by a core (plain, past its cache and filling it, LR, SC and AMO) or by the debug module, a check's end, an operation whose deadline has passed.
`resp` is the model's field for the answer of an access, log 19. -/
def Obligations.BusCommands : Prop := ∀ (s : State) (c a n key : Nat) (v : Word) (op : MemOp),
  (∀ r, findReg a = some r → convertedFe a = none → (rowWrite (.core c) r a v s).isNone = true →
    regFirst ((s.liveView a).mapFails a v ++ s.plainFails r a v) = none → s.Lets c a 1 → Answers (.registerWrite (.core c) a v) s fun t =>
    t.resp = ⟨.done, 0⟩ ∧ t.reg a = s.written a v ∧ Frame [.regs, .po, .cores, .resp] s t ∧
    ∀ x, x ≠ a → (∀ n, x ≠ R.PHn_STAT n) → t.reg x = s.reg x) ∧
  ((findReg a).isSome = true → convertedFe a = some n → regFirst (s.mapFails a v ++ s.feValueFails n a v.toNat) = none → s.po.mgmt.length < 32 →
    s.Lets c a 1 → Answers (.registerWrite (.core c) a v) s fun t => t.resp = ⟨.done, 0⟩ ∧ Frame [.po, .resp] s t ∧ t.po.mgmt =
      s.po.mgmt ++ [⟨1, U.fe n, 1, seqNext s.po.mgmtSeq, 0, 0, padTo 40 (leBytes 4 a ++ leBytes 4 v.toNat), padTo 8 []⟩]) ∧
  (∀ r, findReg a = some r → faultCauseReg r a = true → s.regAbsent r = false → s.Lets c a 0 → Answers (.faultCauseRead (.core c) a) s fun t =>
    t.reg a = 0 ∧ t.resp = ⟨.done, (s.reg a).toNat⟩) ∧
  (op.store = true → op.fetch = false → op.kind = .plain → op.fabric = [] → op.size = 32 → op.addr % 32 = 0 → regionOf op.addr = .sram →
    s.Lets c op.addr 1 → Answers (.memoryAccess (.core c) op) s fun t =>
    t.resp = ⟨.done, 0⟩ ∧ t.bytes op.addr 32 = padTo 32 op.data ∧ BytesKept op.addr 32 s t) ∧
  (op.store = true → op.fetch = false → op.kind = .plain → op.fabric = [] → 0 < op.size → op.size < 32 → op.addr % op.size = 0 → regionOf op.addr = .sram →
    (mergeErr (s.errAt (op.addr / 32 * 32)) op.upset).length ≤ 3 → s.Lets c op.addr 1 → Answers (.memoryAccess (.core c) op) s fun t =>
    t.resp = ⟨.done, 0⟩ ∧ t.bytes op.addr op.size = padTo op.size op.data ∧
    BytesKept op.addr op.size s t) ∧
  (op.store = false → op.kind = .plain → op.fabric = [] → 0 < op.size → op.size ≤ 32 → op.addr % op.size = 0 → regionOf op.addr = .sram → cachedKey op.addr = false →
    (mergeErr (s.errAt (op.addr / 32 * 32)) op.upset).length ≤ 3 → s.Lets c op.addr (if op.fetch then 2 else 0) → Answers (.memoryAccess (.core c) op) s fun t =>
    t.resp = ⟨.done, leNat (s.bytes op.addr op.size)⟩ ∧ t.mem = s.mem) ∧
  (∀ k, op.store = false → op.kind = .plain → op.fabric = [] → 0 < op.size → op.size ≤ 32 → op.addr % op.size = 0 → regionOf op.addr = .sram → cachedKey op.addr = true →
    s.coreOfCode c = some k → cacheHas ((s.core k).cache op.fetch) op.addr op.size = false → (mergeErr (s.errAt (op.addr / 32 * 32)) op.upset).length ≤ 3 →
    s.Lets c op.addr (if op.fetch then 2 else 0) → Answers (.memoryAccess (.core c) op) s fun t => t.resp = ⟨.done, leNat (s.bytes op.addr op.size)⟩ ∧ t.mem = s.mem ∧
    ∀ x, op.addr / 32 * 32 ≤ x → x < op.addr / 32 * 32 + 32 → FMap.get (fun _ => 0) ((t.core k).cache op.fetch) x = s.byte x) ∧
  (∀ k x, op.store = false → op.fetch = false → op.kind = .lr → op.fabric = [] → op.size = 4 → op.addr % 4 = 0 → regionOf op.addr = .sram → s.coreOfCode c = some k →
    (mergeErr (s.errAt (op.addr / 32 * 32)) op.upset).length ≤ 3 → s.Lets c op.addr 0 → x = s.bytes op.addr 4 → Answers (.memoryAccess (.core c) op) s fun t =>
    t.resp = ⟨.done, leNat x⟩ ∧ t.mem = s.mem ∧ (t.core k).reservation = some (op.addr, s.time + 1024)) ∧
  (∀ k, op.store = true → op.fetch = false → op.kind = .sc → op.fabric = [] → op.size = 4 → op.addr % 4 = 0 → regionOf op.addr = .sram → s.coreOfCode c = some k →
    (mergeErr (s.errAt (op.addr / 32 * 32)) op.upset).length ≤ 3 → s.Lets c op.addr 1 → Answers (.memoryAccess (.core c) op) s fun t => (t.core k).reservation = none ∧
    let held := match (s.core k).reservation with | some (r, til) => r == op.addr && decide (s.time < til) | none => false
    t.resp = ⟨.done, if held then 0 else 1⟩ ∧ t.bytes op.addr 4 = (if held then padTo 4 op.data else s.bytes op.addr 4) ∧ BytesKept op.addr 4 s t) ∧
  (∀ f x, op.store = true → op.fetch = false → op.kind = .amo f → op.fabric = [] → op.size = 4 → op.addr % 4 = 0 → regionOf op.addr = .sram →
    (mergeErr (s.errAt (op.addr / 32 * 32)) op.upset).length ≤ 3 → s.Lets c op.addr 1 → x = BitVec.ofNat 32 (leNat (s.bytes op.addr 4)) →
    Answers (.memoryAccess (.core c) op) s fun t => t.resp = ⟨.done, x.toNat⟩ ∧
    t.bytes op.addr 4 = leBytes 4 (amoEval f x (BitVec.ofNat 32 (leNat op.data))).toNat ∧ BytesKept op.addr 4 s t) ∧
  (op.store = false → op.kind = .plain → op.fabric = [] → op.addr % 4 = 0 → regionOf op.addr = .sram → (mergeErr (s.errAt (op.addr / 32 * 32)) op.upset).length ≤ 3 → s.debugLocked = false →
    Answers (.debugSystemBusAccess n op) s fun t => t.resp = ⟨.done, leNat (s.bytes op.addr 4)⟩ ∧ t.mem = s.mem ∧ t.dbg.hartsel = n) ∧
  (op.store = true → op.kind = .plain → op.fabric = [] → op.addr % 4 = 0 → regionOf op.addr = .sram → (mergeErr (s.errAt (op.addr / 32 * 32)) op.upset).length ≤ 3 → s.debugLocked = false →
    Answers (.debugSystemBusAccess n op) s fun t => t.resp = ⟨.done, 0⟩ ∧ t.bytes op.addr 4 = padTo 4 op.data ∧ BytesKept op.addr 4 s t ∧ t.dbg.hartsel = n) ∧
  (s.icheck.running = some key → Answers (.checkComplete false) s fun t => t.icheck.running = none ∧ t.po.hw.any (HwEvent.ends key) = true ∧
    t.icheck.passed = (s.admitSlot (s.inactiveSlot ptrKey)).2.1.isEmpty) ∧
  (s.fcheck.running = some key → Answers (.checkComplete true) s fun t => t.fcheck.running = none ∧ t.po.hw.any (HwEvent.ends key) = true ∧
    t.fcheck.passed = (s.checkFw (s.inactiveSlot fwPtrKey)).2.1.isEmpty) ∧
  (∀ e, s.po.ops.find? (fun p => p.1 == key) = some (key, e) → e.deadline ≠ 0 → pmBefore e.deadline s.pm = true → e.stop = .none →
    s.po.hw.any (HwEvent.ends key) = false → e.opcode = 0x0402 → s.ust e.unit = .running → 0x10 ≤ e.unit → e.unit < 0x20 → s.po.boundaryAt = s.time →
    Answers (.operationDeadlinePassed key) s fun t => t.ust e.unit = .stopping)

/-- The post office's own commands, each where it applies (chapters 00 and 03): a letter posted by the declared producer, receipts consumed,
signalled, handed over, a sleep announcement, and the captures and lost counts that a read clears. -/
def Obligations.PostOfficeCommands : Prop := ∀ (s : State) (c ph k : Nat) (v : Word),
  (s.phEn ph = true → s.phIsReceipt ph = false → s.phProducer ph = c → s.Lets c (R.PHn_POSTj ph 15) 1 → Answers (.letterPost (.core c) ph v) s fun t => t.resp = ⟨.done, 0⟩) ∧
  (s.phEn ph = true → s.phIsReceipt ph = false → s.phProducer ph = c → ph < 64 → s.phSize ph ≤ 4096 →
    let l := letterOfBytes (((s.window ph).set 15 v).flatMap fun w => leBytes 4 w.toNat)
    intakeFail s ph l true = none → s.Lets c (R.PHn_POSTj ph 15) 1 → Answers (.letterPost (.core c) ph v) s fun t => t.slot (s.phSlot ph (s.phTail ph)) = .letter l false ∧
      t.phTail ph = (s.phTail ph + 1) % (2 * s.phSize ph) ∧ t.fld (R.PHn_SEQ ph) F.PHn_SEQ_SEQ = l.seq % 2 ^ 32 ∧ (t.pigeon ph).window = []) ∧
  (ph < 64 → s.phEn ph = true → s.phIsReceipt ph = true → s.phConsumer ph = c → v.toNat < 8192 → v.toNat < 2 * s.phSize ph →
    ringDist (s.phSize ph) (s.phHead ph) v.toNat ≤ ringDist (s.phSize ph) (s.phHead ph) (s.phTail ph) → s.po.deferred = [] → s.po.ready = [] →
    s.Lets c (R.PHn_HEAD ph) 1 → Answers (.receiptConsume (.core c) ph v) s fun t => t.phHead ph = v.toNat ∧ t.resp = ⟨.done, 0⟩) ∧
  (∀ d, s.po.deferred[k]? = some d → s.po.ready = [] → Answers (.receiptHandoverTimeout k) s fun t => match d.action with
    | .structureReplace => t.rst.sources.any (·.1 == 13) = true
    | .systemReset => t.rst.sources.any (·.1 == 10) = true
    | .netHalt u => HwEvent.move u [.running] .idle ∈ t.po.hw ∧ t.po.deferred = s.po.deferred.eraseIdx k) ∧
  (s.phEn ph = true → s.phIsReceipt ph = true → s.phHeld ph ≠ 0 → Answers (.receiptModerationExpiry ph) s fun t => t.phHeld ph = 0 ∧
    t.fld (R.PHn_STAT ph) F.PHn_STAT_HELD = 0) ∧
  (regFirst (((List.range 32).filter (bitAt v.toNat)).flatMap s.sleepFails) = none → s.Lets c R.PST_SLEEP 1 → Answers (.sleepAnnounce (.core c) v) s fun t => t.resp = ⟨.done, 0⟩ ∧
    ∀ b, b < 32 → bitAt (t.reg R.PST_SLEEP).toNat b = (bitAt (s.reg R.PST_SLEEP).toNat b || bitAt v.toNat b)) ∧
  (s.Lets c R.SYS_WERR_CODE 0 → Answers (.sysWerrCodeRead (.core c)) s fun t => t.resp = ⟨.done, (s.reg R.SYS_WERR_CODE).toNat⟩ ∧
    t.flag R.SYS_WERR_CODE F.SYS_WERR_CODE_VALID = false ∧ t.flag R.SYS_WERR_CODE F.SYS_WERR_CODE_OVERRUN = false ∧
    t.reg R.SYS_WERR_ADDR = (if s.flag R.SYS_WERR_CODE F.SYS_WERR_CODE_VALID = true then BitVec.ofNat 32 s.po.werr.addr else s.reg R.SYS_WERR_ADDR) ∧
    t.reg R.SYS_WERR_PM = (if s.flag R.SYS_WERR_CODE F.SYS_WERR_CODE_VALID = true then BitVec.ofNat 32 s.po.werr.pm else s.reg R.SYS_WERR_PM)) ∧
  (s.Lets c R.PST_MERR_CODE 0 → Answers (.pstMerrCodeRead (.core c)) s fun t => t.resp = ⟨.done, (s.reg R.PST_MERR_CODE).toNat⟩ ∧
    t.flag R.PST_MERR_CODE F.PST_MERR_CODE_VALID = false ∧ t.flag R.PST_MERR_CODE F.PST_MERR_CODE_OVERRUN = false ∧
    t.reg R.PST_MERR_ADDR = (if s.flag R.PST_MERR_CODE F.PST_MERR_CODE_VALID = true then BitVec.ofNat 32 s.po.merr.addr else s.reg R.PST_MERR_ADDR) ∧
    t.reg R.PST_MERR_PM = (if s.flag R.PST_MERR_CODE F.PST_MERR_CODE_VALID = true then BitVec.ofNat 32 s.po.merr.pm else s.reg R.PST_MERR_PM)) ∧
  (s.Lets c R.PST_DLJ_LOST 0 → Answers (.lostCountRead (.core c) 0) s fun t => t.resp = ⟨.done, (s.reg R.PST_DLJ_LOST).toNat⟩ ∧ t.reg R.PST_DLJ_LOST = 0) ∧
  (s.Lets c R.NVS_JLOST 0 → Answers (.lostCountRead (.core c) 1) s fun t => t.resp = ⟨.done, (s.reg R.NVS_JLOST).toNat⟩ ∧ t.reg R.NVS_JLOST = 0)

/-- The reset controller's events, each where it applies (chapter 13): sources asserting and releasing, what the assertion of a source of system
reach records and holds, the ends of holds, the pin and the power inputs, the release of a domain, the start timer, standby and wakes.
Timer rows stand for the expiry and measured values are operands: the model's choices, logs 4 and 5. -/
def Obligations.ResetEvents : Prop := ∀ (s : State) (id pairs n src : Nat),
  (1 ≤ id → id ≤ 13 → sourceNames id pairs = true → s.rst.transport = false → Answers (.resetSourceAssert id pairs) s fun t =>
    (id, sourcePairs id pairs) ∈ t.rst.sources) ∧
  (3 ≤ id → id ≤ 10 → id ≠ 4 → id ≠ 6 → id ≠ 9 → s.rst.transport = false → s.inReset = false → Answers (.resetSourceAssert id pairs) s fun t =>
    t.rst.sysHold = 1 ∧ t.rst.sysMin = true ∧ t.fld R.RST_CAUSE F.RST_CAUSE_SOURCE = id ∧ t.fld R.RST_CAUSE F.RST_CAUSE_REACH = 1 ∧
    (s.nvs.pulse = false → t.img = none ∧ t.fld R.RST_STATE F.RST_STATE_PHASE = 1)) ∧
  (levelSource id = true → Answers (.resetSourceRelease id pairs) s fun t => (id, sourcePairs id pairs) ∉ t.rst.sources) ∧
  (levelSource id = false → Answers (.resetPulseEnd id pairs) s fun t => (id, sourcePairs id pairs) ∉ t.rst.sources) ∧
  (n < 4 → bitAt s.rst.pairMin n = true → bitAt s.rst.pairs n = true → s.rst.sysHold = 0 → bitAt s.pairsAsserted n = false →
    Answers (.resetHoldEnd n) s fun t => bitAt t.rst.pairs n = false ∧ bitAt t.rst.pairMin n = false ∧
    (s.pairsUp = true → t.flag R.RST_EVT F.RST_EVT_PAIRRST = true)) ∧
  (s.rst.sysHold = 1 → s.rst.waitPulse = false → s.rst.sources.any (fun p => 1 ≤ s.reachOf p.1 p.2) = false → Answers (.resetHoldEnd 4) s fun t =>
    t.rst.sysHold = 0 ∧ t.rst.released = true ∧ t.rst.startedAt = s.up ∧ t.split = s.bootSplit) ∧
  (s.rst.transport = false → Answers (.resetPin true) s fun t => (3, 0) ∈ t.rst.sources) ∧
  (Answers (.resetPin false) s fun t => (3, 0) ∉ t.rst.sources) ∧
  (s.rst.transport = false → (Answers (.powerOn true) s fun t => (1, 0) ∉ t.rst.sources) ∧ (Answers (.powerOn false) s fun t => (1, 0) ∈ t.rst.sources)) ∧
  (n < 4 → s.rst.transport = false → s.rst.standby = false → Answers (.powerGoodChange n true) s fun t => t.rst.pg = s.rst.pg ||| 2 ^ n) ∧
  (n < 4 → s.rst.transport = false → s.rst.standby = false → Answers (.powerGoodChange n false) s fun t => t.rst.pg = s.rst.pg &&& (15 - 2 ^ n) ∧
    (if s.rst.released then (2, 0) ∈ t.rst.sources else (1, 1) ∈ t.rst.sources)) ∧
  (s.rst.domains < 5 → s.rst.sysHold = 0 → s.rst.standby = false → s.rst.transport = false → s.rst.pg = 15 → s.fld R.CLK_STAT F.CLK_STAT_GOOD = 511 →
    Answers .domainRelease s fun t => t.rst.domains = s.rst.domains + 1) ∧
  (s.rst.startTimer = true → Answers .startTimerExpiry s fun t => (5, 0) ∈ t.rst.sources ∧
    t.flag R.RST_START F.RST_START_TIMEOUT = true) ∧
  (s.rst.standbyDue = true → Answers .standbyEntry s fun t => t.rst.standby = true ∧ t.rst.standbyDue = false) ∧
  (1 ≤ src → src ≤ 3 → s.rst.transportDue = false → s.rst.standby = true → Answers (.wake src) s fun t => t.rst.standby = false ∧
    t.reg R.RST_WAKE = BitVec.ofNat 32 src) ∧
  (1 ≤ src → src ≤ 3 → s.rst.transportDue = false → s.rst.standby = false → s.rst.transport = true → Answers (.wake src) s fun t =>
    t.rst.transport = false ∧ t.rst.sysHold = 2 ∧ t.reg R.RST_WAKE = BitVec.ofNat 32 (256 + src)) ∧
  (s.rst.transportDue = false → s.rst.standby = true → Answers .supplyAlarm s fun t => t.rst.standby = false ∧ t.reg R.RST_WAKE = 5)

/-- Clock monitors, PLLs, supply monitors and die sensors, each where it applies (chapter 14).
Timer rows stand for the expiry and measured values are operands: the model's choices, logs 4 and 5. -/
def Obligations.ClockSupplyThermalEvents : Prop := ∀ (s : State) (n p r count : Nat) (temps : List (Option Int)) (diodes : Nat) (rails : List Nat),
  s.rst.standby = false → s.rst.transport = false →
  (n < 9 → n ≠ 7 → (clockLimits n).1.1 ≤ count → count ≤ (clockLimits n).1.2 → Answers (.clockMonitorWindow n count) s fun t =>
    t.fld (R.CLK_FREQi n) F.CLK_FREQi_COUNT = count ∧ bitAt (t.fld R.CLK_STAT F.CLK_STAT_GOOD) n = true) ∧
  (n < 9 → n ≠ 7 → count < (clockLimits n).1.1 → Answers (.clockMonitorWindow n count) s fun t => t.rst.sources.any (·.1 == 8) = true ∧
    bitAt (t.fld R.CLK_STAT F.CLK_STAT_GOOD) n = false) ∧
  (p < 5 → Answers (.pllLockLoss p) s fun t => t.rst.sources.any (·.1 == 8) = true ∧ bitAt (t.fld R.CLK_STAT F.CLK_STAT_LOCK) p = false ∧
    ∀ x ∈ pllClocks p, bitAt (t.fld R.CLK_STAT F.CLK_STAT_GOOD) x = false) ∧
  (r < 8 → Answers (.supplyOutOfRange r) s fun t => bitAt (t.fld R.THM_SUPFLT F.THM_SUPFLT_ACTIVE) r = true ∧
    bitAt (t.fld R.THM_SUPFLT F.THM_SUPFLT_SEEN) r = true ∧ (r ≠ 7 → (2, 0) ∈ t.rst.sources)) ∧
  (r < 8 → bitAt (s.fld R.THM_SUPFLT F.THM_SUPFLT_ACTIVE) r = true → Answers (.supplyRestored r) s fun t =>
    bitAt (t.fld R.THM_SUPFLT F.THM_SUPFLT_ACTIVE) r = false) ∧
  (s.rst.sysHold ≠ 2 → Answers (.temperatureMeasurement temps diodes rails) s fun t => t.thm.at_ = s.time ∧
    ∀ i v, i < 8 → temps.getD i none = some v → -32768 ≤ v → v < 32768 → t.sfld (R.THM_TEMPs i) F.THM_TEMPs_TEMP = v)

/-- An epoch boundary with no letter waiting and no operation outstanding (R82): the postmark advances, the latches of the ended epoch become
those of the epoch before, a port's transition is applied. -/
def Obligations.BoundaryAdvances : Prop := ∀ (s : State) (n : Nat),
  s.boundaryRuns = true → (∀ k, k < 64 → s.phCount k = 0) → s.po.mgmt = [] → s.po.ops = [] → s.rst.unitReset = [] → s.rst.autoDue = [] →
  (Answers .epochBoundary s fun t => t.pm = pmNext s.pm ∧ t.mdl.before = s.mdl.latches ∧ t.mdl.latches = [] ∧ t.ssm.entered = false) ∧
  (n < 6 → unitPresent s.variant (U.can n) = true → s.po.hw = [.move (U.can n) [s.ust (U.can n)] .idle] → Answers .epochBoundary s fun t => t.ust (U.can n) = .idle)

/-- The start after a reset (R355, R359 to R361): the start counter and the session counter advance, pair 0 leaves reset; at the fifth
attempt the device stands in poste restante mode, else in that mode or with its start timer running and its units released or not.
What the start finds in the slots decides which; the override test's outcome is free, log 176. -/
def Obligations.StartSequence : Prop := ∀ (s : State), s.startReady = true →
  (s.fld R.RST_START F.RST_START_COUNT = 4 → Answers .startSequence s fun t => t.fld R.RST_STATE F.RST_STATE_PHASE = 6 ∧
    t.flag R.RST_START F.RST_START_PR = true ∧ t.rst.startTimer = false ∧ t.aon.session = (s.aon.session + 1) % 2 ^ 32) ∧
  (s.fld R.RST_START F.RST_START_COUNT < 4 → Answers .startSequence s fun t => t.aon.session = (s.aon.session + 1) % 2 ^ 32 ∧
    t.fld R.RST_START F.RST_START_COUNT = s.fld R.RST_START F.RST_START_COUNT + 1 ∧ (t.core 0).cond = .running ∧
    ((t.fld R.RST_STATE F.RST_STATE_PHASE = 6 ∧ t.flag R.RST_START F.RST_START_PR = true ∧ t.rst.startTimer = false) ∨
      (t.fld R.RST_STATE F.RST_STATE_PHASE = 3 ∧ t.img = s.img ∧ t.rst.startTimer = true) ∨
      (t.fld R.RST_STATE F.RST_STATE_PHASE = 4 ∧ t.img.isSome = true ∧ t.rst.unitsOut = true ∧ t.rst.startTimer = true)))

/-- What the commands of the post office, the common letters and the bus leave unchanged, command by command: every part of the state and every register that is not
named. `Part.journal` and `Part.receipt` add what a journal entry and a receipt write; `Part.allBut` names what a reset keeps as well. -/
def Obligations.PostOfficeFrames : Prop := ∀ (s : State),
  (let l := (Part.allBut [.variant, .split, .bootSplit, .up, .gf, .driveEn, .actEn, .recovery, .pending]);
    (Framed s .epochBoundary l) ∧
    (∀ who addr value, Framed s (.registerWrite who addr value) l) ∧
    (∀ m, Framed s (.write m) l) ∧
    (∀ who a, Framed s (.memoryAccess who a) l) ∧
    (∀ hart a, Framed s (.debugSystemBusAccess hart a) l)) ∧
  (∀ key, Framed s (.operationDeadlinePassed key) [.units, .po, .icheck, .fcheck, .eng, .mdl, .rnd, .tra, .chg, .hlv, .rgl, .act, .gbx,
      .ldg, .reg .RNDr_STATE, .reg .RNDr_RQSTAT, .reg .RNDr_RQLO, .reg .RNDr_RQHI, .reg .CHG_STATE, .reg .CHG_ILIM, .reg .CHG_EVT, .reg
      .REG_STATE, .reg .REG_TARGET, .reg .REG_SHED, .reg .REG_PHn, .reg .ACk_STATE, .reg .GBX_STATE, .reg .GBX_EVT]) ∧
  (∀ who ph value, Framed s (.letterPost who ph value) (Part.receipt [.cores, .lsc, .ssm, .dbg, .linkTries, .resp, .reg .SYS_WERR_CODE,
      .reg .PHn_SEQ, .reg .LSC_STAT, .reg .SSM_WDSTATn, .reg .DBG_REPLAYn, .reg .DBG_HALTSt])) ∧
  (∀ who ph value, Framed s (.receiptConsume who ph value) (Part.allBut [.variant, .split, .bootSplit, .up, .gf, .driveEn, .actEn,
      .recovery, .tick, .pending])) ∧
  (∀ index, Framed s (.receiptHandoverTimeout index) (Part.allBut [.variant, .split, .bootSplit, .up, .gf, .driveEn, .actEn, .recovery,
      .resp, .tick, .pending])) ∧
  (∀ ph, Framed s (.receiptModerationExpiry ph) [.po, .reg .PHn_STAT]) ∧
  (∀ who value, Framed s (.sleepAnnounce who value) [.po, .cores, .lsc, .ssm, .dbg, .linkTries, .resp, .reg .SYS_WERR_CODE, .reg
      .PST_SLEEP, .reg .PHn_STAT, .reg .LSC_STAT, .reg .SSM_WDSTATn, .reg .DBG_REPLAYn, .reg .DBG_HALTSt]) ∧
  (∀ who, Framed s (.sysWerrCodeRead who) [.po, .cores, .lsc, .ssm, .dbg, .linkTries, .resp, .reg .SYS_WERR_CODE, .reg .SYS_WERR_ADDR, .reg
      .SYS_WERR_PM, .reg .LSC_STAT, .reg .SSM_WDSTATn, .reg .DBG_REPLAYn, .reg .DBG_HALTSt]) ∧
  (∀ who, Framed s (.pstMerrCodeRead who) [.po, .cores, .lsc, .ssm, .dbg, .linkTries, .resp, .reg .SYS_WERR_CODE, .reg .PST_MERR_CODE, .reg
      .PST_MERR_ADDR, .reg .PST_MERR_PM, .reg .LSC_STAT, .reg .SSM_WDSTATn, .reg .DBG_REPLAYn, .reg .DBG_HALTSt]) ∧
  (∀ who addr, Framed s (.faultCauseRead who addr) [.regs, .po, .cores, .lsc, .ssm, .dbg, .linkTries, .resp]) ∧
  (∀ m, Framed s (.read m) [.regs, .err, .po, .nvs, .rnd, .ldg, .cores, .lsc, .ssm, .evc, .sec, .dbg, .linkTries, .resp, .tick]) ∧
  (∀ m, Framed s (.state m) (Part.receipt [.reg .PST_OUTST, .reg .PST_MERR_CODE])) ∧
  (∀ m, Framed s (.abort m) (Part.receipt [.units, .icheck, .fcheck, .eng, .mdl, .rnd, .tra, .chg, .hlv, .rgl, .act, .gbx, .ldg, .reg
      .PST_OUTST, .reg .PST_MERR_CODE, .reg .RNDr_STATE, .reg .RNDr_RQSTAT, .reg .RNDr_RQLO, .reg .RNDr_RQHI, .reg .CHG_STATE, .reg
      .CHG_ILIM, .reg .CHG_EVT, .reg .REG_STATE, .reg .REG_TARGET, .reg .REG_SHED, .reg .REG_PHn, .reg .ACk_STATE, .reg .GBX_STATE, .reg
      .GBX_EVT])) ∧
  (∀ who which, Framed s (.lostCountRead who which) [.po, .cores, .lsc, .ssm, .dbg, .linkTries, .resp, .reg .SYS_WERR_CODE, .reg
      .PST_DLJ_LOST, .reg .LSC_STAT, .reg .SSM_WDSTATn, .reg .DBG_REPLAYn, .reg .DBG_HALTSt, .reg .NVS_JLOST])

/-- What the commands of the memories, the slots and the start leave unchanged, command by command: every part of the state and every register that is not
named. `Part.journal` and `Part.receipt` add what a journal entry and a receipt write; `Part.allBut` names what a reset keeps as well. -/
def Obligations.MemoryFrames : Prop := ∀ (s : State),
  (∀ who, Framed s (.memLastinfoRead who) [.po, .cores, .lsc, .ssm, .dbg, .linkTries, .resp, .reg .SYS_WERR_CODE, .reg .LSC_STAT, .reg
      .SSM_WDSTATn, .reg .DBG_REPLAYn, .reg .DBG_HALTSt, .reg .MEM_LASTADDR, .reg .MEM_LASTINFO]) ∧
  (let l := (Part.receipt [.icheck, .fcheck, .reg .PST_OUTST, .reg .PST_MERR_CODE, .reg .NVS_STATE]);
    (∀ m, Framed s (.imageWrite m) l) ∧
    (∀ m, Framed s (.fwWrite m) l)) ∧
  (let l := (Part.receipt [.icheck, .fcheck, .reg .PST_OUTST, .reg .PST_MERR_CODE]);
    (∀ m, Framed s (.imageCheck m) l) ∧
    (∀ m, Framed s (.fwCheck m) l)) ∧
  (let l := (Part.allBut [.variant, .split, .bootSplit, .up, .gf, .driveEn, .actEn, .recovery, .resp, .tick, .pending]);
    (∀ m, Framed s (.imageCommit m) l) ∧
    (∀ m, Framed s (.fwCommit m) l) ∧
    (∀ item, Framed s (.criticalStateError item) l)) ∧
  (∀ firmware, Framed s (.checkComplete firmware) (Part.journal [.err, .po, .icheck, .fcheck, .memCap, .reg .SEC_EVT, .reg .MEM_EVT, .reg
      .MEM_LASTINFO, .reg .MEM_CNTs, .reg .NVS_STATE])) ∧
  (∀ who value, Framed s (.errorInjection who value) [.po, .cores, .lsc, .ssm, .dbg, .linkTries, .resp, .reg .SYS_WERR_CODE, .reg
      .LSC_STAT, .reg .SSM_WDSTATn, .reg .DBG_REPLAYn, .reg .DBG_HALTSt, .reg .MEM_INJ]) ∧
  (∀ who idx value, Framed s (.errorCountClear who idx value) [.po, .cores, .lsc, .ssm, .dbg, .linkTries, .resp, .reg .SYS_WERR_CODE, .reg
      .LSC_STAT, .reg .SSM_WDSTATn, .reg .DBG_REPLAYn, .reg .DBG_HALTSt, .reg .MEM_CNTs]) ∧
  (let l := ([.po, .icheck, .fcheck, .nvs, .cores, .lsc, .ssm, .dbg, .linkTries, .resp, .reg .SYS_WERR_CODE, .reg .LSC_STAT, .reg
      .SSM_WDSTATn, .reg .DBG_REPLAYn, .reg .DBG_HALTSt, .reg .NVS_STATE, .reg .NVS_WDATAj] : List Part);
    (∀ who, Framed s (.nvsWindowWrite who) l) ∧
    (∀ who, Framed s (.nvsStructureSlotWrite who) l) ∧
    (∀ who, Framed s (.nvsFirmwareSlotWrite who) l)) ∧
  (∀ who value, Framed s (.journalPost who value) (Part.journal [.po, .cores, .lsc, .ssm, .dbg, .linkTries, .resp, .reg .SYS_WERR_CODE,
      .reg .LSC_STAT, .reg .SSM_WDSTATn, .reg .DBG_REPLAYn, .reg .DBG_HALTSt, .reg .NVS_JDATAj])) ∧
  (∀ off upset, Framed s (.tableRestore off upset) (Part.journal [.mem, .err, .restFail, .memCap, .reg .MEM_EVT, .reg .MEM_LASTINFO, .reg
      .MEM_INJ, .reg .MEM_CNTs, .reg .NVS_STATE])) ∧
  (let l := (Part.journal [.err, .memCap, .reg .MEM_EVT, .reg .MEM_LASTINFO, .reg .MEM_CNTs, .reg .NVS_STATE]);
    (∀ store cw upset crossed, Framed s (.scrubVisit store cw upset crossed) l) ∧
    (∀ off upset, Framed s (.mramScrub off upset) l)) ∧
  (Framed s .mramWritePulseEnd (Part.allBut [.variant, .bootSplit, .up, .gf, .driveEn, .actEn, .recovery, .resp, .pending])) ∧
  (Framed s .journalWrite [.nvs, .reg .NVS_STATE]) ∧
  (Framed s .startSequence [.regs, .mem, .err, .po, .img, .imgSlot, .fallback, .nvs, .eng, .mdl, .tra, .hlv, .ldg, .cores, .lsc, .ssm,
      .rst, .aon, .sec, .recovery, .memCap, .tick])

/-- What the commands of the field engines leave unchanged, command by command: every part of the state and every register that is not
named. `Part.journal` and `Part.receipt` add what a journal entry and a receipt write; `Part.allBut` names what a reset keeps as well. -/
def Obligations.EngineFrames : Prop := ∀ (s : State),
  (∀ m, Framed s (.feHarm m) (Part.receipt [.reg .PST_OUTST, .reg .PST_MERR_CODE, .reg .FEn_HCFGk, .reg .FEn_HAMPk])) ∧
  (∀ m, Framed s (.feAdapt m) (Part.receipt [.eng, .reg .PST_OUTST, .reg .PST_MERR_CODE, .reg .FEn_ADAPT, .reg .FEn_ADFAC])) ∧
  (∀ m, Framed s (.feGains m) (Part.receipt [.reg .PST_OUTST, .reg .PST_MERR_CODE, .reg .FEn_GAINS, .reg .FEn_OUTKP, .reg .FEn_OUTKI])) ∧
  (∀ m, Framed s (.feClear m) (Part.receipt [.units, .eng, .reg .PST_OUTST, .reg .PST_MERR_CODE, .reg .FEn_ADFAC])) ∧
  (∀ n point, Framed s (.engineUpdate n point) (Part.journal [.err, .po, .eng, .mdl, .tra, .chg, .hlv, .ldg, .ssm, .memCap, .tick, .reg
      .FEn_ADFAC, .reg .FEn_EVT, .reg .FEn_ERRCNT, .reg .FEn_WDCNT, .reg .CHG_STATE, .reg .CHG_ILIM, .reg .CHG_FLT, .reg .CHG_EVT, .reg
      .CHG_TIME, .reg .LDG_EVT, .reg .LDG_WQSTAT, .reg .LDG_PNf, .reg .MEM_EVT, .reg .MEM_LASTINFO, .reg .MEM_CNTs, .reg .NVS_STATE]))

/-- What the commands of legs, modulation and gate links leave unchanged, command by command: every part of the state and every register that is not
named. `Part.journal` and `Part.receipt` add what a journal entry and a receipt write; `Part.allBut` names what a reset keeps as well. -/
def Obligations.ModulatorFrames : Prop := ∀ (s : State),
  (let l := (Part.receipt [.mdl, .reg .PST_OUTST, .reg .PST_MERR_CODE, .reg .GLKk_STAT]);
    (∀ m, Framed s (.drvRead m) l) ∧
    (∀ m, Framed s (.drvWrite m) l)) ∧
  (∀ g by_ raw bad, Framed s (.conversionResult g by_ raw bad) (Part.journal [.po, .eng, .mdl, .tra, .ldg, .ssm, .memCap, .reg .FEn_EVT,
      .reg .FEn_WDCNT, .reg .FCV_OVR, .reg .FCV_CHn_LAST, .reg .LDG_EVT, .reg .LDG_WQSTAT, .reg .LDG_PNf, .reg .SSM_STATE, .reg .SSM_EVT,
      .reg .SSM_PAT0, .reg .SSM_PAT1, .reg .SSM_PATX, .reg .MEM_EVT, .reg .MEM_LASTINFO, .reg .MEM_CNTs])) ∧
  (∀ n peak late, Framed s (.updatePointCommit n peak late) [.po, .eng, .mdl, .tra, .chg, .ldg, .ssm, .reg .FEn_EVT, .reg .FEn_ERRCNT, .reg
      .FEn_WDCNT, .reg .MOD_EVT, .reg .CHG_ILIM, .reg .CHG_FLT, .reg .CHG_EVT, .reg .LDG_EVT, .reg .LDG_WQSTAT, .reg .LDG_PNf]) ∧
  (∀ g near, Framed s (.linkWatchTrigger g near) [.mdl]) ∧
  (let l := ([.po, .eng, .mdl, .tra, .chg, .ldg, .ssm, .pads, .reg .FEn_EVT, .reg .FEn_WDCNT, .reg .MOD_STAT, .reg .MOD_EVT, .reg
      .MOD_LCNTn, .reg .MOD_LTRIPn, .reg .CHG_ILIM, .reg .CHG_FLT, .reg .CHG_EVT, .reg .LDG_EVT, .reg .LDG_WQSTAT, .reg .LDG_PNf] : List
      Part);
    (∀ n blanking, Framed s (.didtTrip n blanking) l) ∧
    (∀ n held, Framed s (.ilockLatch n held) l)) ∧
  (∀ n, Framed s (.softOffHoldEnd n) [.pads]) ∧
  (∀ n high, Framed s (.gfFault n high) [.po, .eng, .mdl, .gf, .tra, .chg, .ldg, .ssm, .pads, .reg .FEn_EVT, .reg .FEn_WDCNT, .reg
      .MOD_STAT, .reg .MOD_EVT, .reg .MOD_LCNTn, .reg .MOD_LTRIPn, .reg .CHG_ILIM, .reg .CHG_FLT, .reg .CHG_EVT, .reg .LDG_EVT, .reg
      .LDG_WQSTAT, .reg .LDG_PNf]) ∧
  (Framed s .driveEnFall [.po, .eng, .mdl, .tra, .chg, .ldg, .ssm, .driveEn, .reg .FEn_EVT, .reg .FEn_WDCNT, .reg .MOD_STAT, .reg .MOD_EVT,
      .reg .CHG_ILIM, .reg .CHG_FLT, .reg .CHG_EVT, .reg .LDG_EVT, .reg .LDG_WQSTAT, .reg .LDG_PNf]) ∧
  (∀ low loud, Framed s (.driveEnRise low loud) [.po, .eng, .mdl, .tra, .chg, .ldg, .ssm, .driveEn, .pads, .tick, .reg .FEn_EVT, .reg
      .FEn_WDCNT, .reg .MOD_STAT, .reg .MOD_EVT, .reg .MOD_LCNTn, .reg .MOD_LTRIPn, .reg .GLKk_STAT, .reg .CHG_ILIM, .reg .CHG_FLT, .reg
      .CHG_EVT, .reg .LDG_EVT, .reg .LDG_WQSTAT, .reg .LDG_PNf]) ∧
  (∀ k, Framed s (.gateLinkWindow k) [.mdl, .reg .GLKk_DRVj]) ∧
  (∀ k frame, Framed s (.gateLinkResponse k frame) [.po, .eng, .mdl, .tra, .chg, .ldg, .ssm, .pads, .reg .FEn_EVT, .reg .FEn_WDCNT, .reg
      .MOD_STAT, .reg .MOD_EVT, .reg .MOD_LCNTn, .reg .MOD_LTRIPn, .reg .GLK_EVT, .reg .GLKk_STAT, .reg .GLKk_ERR, .reg .GLKk_DRVj, .reg
      .CHG_ILIM, .reg .CHG_FLT, .reg .CHG_EVT, .reg .LDG_EVT, .reg .LDG_WQSTAT, .reg .LDG_PNf]) ∧
  (∀ k, Framed s (.gateLinkTimeout k) [.po, .mdl, .reg .MOD_EVT, .reg .GLK_EVT, .reg .GLKk_STAT, .reg .GLKk_ERR])

/-- What the commands of sensing leave unchanged, command by command: every part of the state and every register that is not
named. `Part.journal` and `Part.receipt` add what a journal entry and a receipt write; `Part.allBut` names what a reset keeps as well. -/
def Obligations.SensingFrames : Prop := ∀ (s : State),
  (∀ m, Framed s (.rndRun m) (Part.receipt [.units, .rnd, .reg .PST_OUTST, .reg .PST_MERR_CODE, .reg .RNDr_STATE])) ∧
  (∀ m, Framed s (.rndHalt m) (Part.receipt [.units, .rnd, .reg .PST_OUTST, .reg .PST_MERR_CODE])) ∧
  (∀ m, Framed s (.rndUrgent m) (Part.receipt [.rnd, .reg .PST_OUTST, .reg .PST_MERR_CODE, .reg .RNDr_STATE, .reg .RNDr_RQSTAT, .reg
      .RNDr_RQLO, .reg .RNDr_RQHI])) ∧
  (let l := (Part.receipt [.units, .reg .PST_OUTST, .reg .PST_MERR_CODE]);
    (∀ m, Framed s (.rndClear m) l) ∧
    (∀ m, Framed s (.sentRun m) l)) ∧
  (∀ m, Framed s (.posRun m) (Part.receipt [.units, .pos, .reg .PST_OUTST, .reg .PST_MERR_CODE])) ∧
  (∀ m, Framed s (.posStop m) (Part.receipt [.units, .pos, .reg .PST_OUTST, .reg .PST_MERR_CODE, .reg .POS_STATE, .reg .POS_EVT, .reg
      .POSk_STAT])) ∧
  (∀ m, Framed s (.sentStop m) (Part.receipt [.units, .eng, .mdl, .sent, .chg, .act, .gbx, .ldg, .ssm, .reg .PST_OUTST, .reg
      .PST_MERR_CODE, .reg .FEn_EVT, .reg .FEn_WDCNT, .reg .SENT_STATE, .reg .SENT_EVT, .reg .CHG_ILIM, .reg .CHG_FLT, .reg .CHG_EVT,
      .reg .ACk_STATE, .reg .GBX_STATE, .reg .GBX_EVT, .reg .GBX_FLT, .reg .GBX_POS0, .reg .GBX_POS1, .reg .LDG_EVT, .reg .LDG_WQSTAT,
      .reg .LDG_PNf])) ∧
  (let l := ([.po, .rnd, .cores, .lsc, .ssm, .dbg, .linkTries, .resp, .reg .SYS_WERR_CODE, .reg .RNDr_STATE, .reg .RNDr_RQSTAT, .reg
      .RNDr_RQLO, .reg .RNDr_RQHI, .reg .LSC_STAT, .reg .SSM_WDSTATn, .reg .DBG_REPLAYn, .reg .DBG_HALTSt] : List Part);
    (∀ who r value, Framed s (.rndUrgWrite who r value) l) ∧
    (∀ who r, Framed s (.roundQueueRead who r) l)) ∧
  (∀ who n value, Framed s (.fcvCorrWrite who n value) [.po, .cores, .lsc, .ssm, .dbg, .linkTries, .resp, .reg .SYS_WERR_CODE, .reg
      .FCV_CHn_CORR, .reg .LSC_STAT, .reg .SSM_WDSTATn, .reg .DBG_REPLAYn, .reg .DBG_HALTSt]) ∧
  (∀ who r k value, Framed s (.rndCorrWrite who r k value) [.po, .cores, .lsc, .ssm, .dbg, .linkTries, .resp, .reg .SYS_WERR_CODE, .reg
      .RNDr_CORRk, .reg .LSC_STAT, .reg .SSM_WDSTATn, .reg .DBG_REPLAYn, .reg .DBG_HALTSt]) ∧
  (∀ who k value, Framed s (.posOfsWrite who k value) [.po, .cores, .lsc, .ssm, .dbg, .linkTries, .resp, .reg .SYS_WERR_CODE, .reg
      .POSk_OFS, .reg .LSC_STAT, .reg .SSM_WDSTATn, .reg .DBG_REPLAYn, .reg .DBG_HALTSt]) ∧
  (∀ ue kind n, Framed s (.linkFrameError ue kind n) (Part.allBut [.variant, .split, .bootSplit, .up, .gf, .driveEn, .actEn, .recovery,
      .pending])) ∧
  (∀ n early apert angles, Framed s (.sampleTrigger n early apert angles) [.eng, .pos, .reg .FEn_ADFAC, .reg .MOD_EVT, .reg .MOD_LCNTn,
      .reg .POSk_ANG, .reg .POSk_SPD, .reg .POSk_STAT]) ∧
  (∀ r entry raw, Framed s (.roundEntryResult r entry raw) [.po, .eng, .mdl, .rnd, .tra, .rgl, .ldg, .ssm, .linkTries, .reg .FEn_EVT, .reg
      .FEn_WDCNT, .reg .RNDr_STATE, .reg .RNDr_EVT, .reg .RNDr_RQSTAT, .reg .RNDr_RQLO, .reg .RNDr_RQHI, .reg .RNDr_LASTc, .reg .REG_VIN,
      .reg .LDG_EVT, .reg .LDG_WQSTAT, .reg .LDG_PNf]) ∧
  (∀ r activity, Framed s (.urgentArrival r activity) [.rnd, .reg .RNDr_STATE, .reg .RNDr_RQSTAT, .reg .RNDr_RQLO, .reg .RNDr_RQHI]) ∧
  (∀ r raw, Framed s (.urgentResult r raw) [.po, .eng, .mdl, .rnd, .tra, .rgl, .ldg, .ssm, .linkTries, .reg .FEn_EVT, .reg .FEn_WDCNT, .reg
      .RNDr_STATE, .reg .RNDr_EVT, .reg .RNDr_URGRES, .reg .RNDr_RQSTAT, .reg .RNDr_RQLO, .reg .RNDr_RQHI, .reg .RNDr_LASTc, .reg
      .REG_VIN, .reg .LDG_EVT, .reg .LDG_WQSTAT, .reg .LDG_PNf]) ∧
  (∀ r entry, Framed s (.refreshLapse r entry) [.rnd, .reg .RNDr_EVT, .reg .RNDr_STALE]) ∧
  (∀ r bad, Framed s (.referenceFault r bad) [.po, .rnd, .reg .RNDr_STATE, .reg .RNDr_EVT, .reg .RNDr_RQSTAT, .reg .RNDr_RQLO, .reg
      .RNDr_RQHI]) ∧
  (∀ k flag, Framed s (.resolverFault k flag) [.pos, .reg .POS_STATE, .reg .POS_EVT, .reg .POSk_STAT, .reg .POSk_FLT]) ∧
  (∀ k, Framed s (.resolverValidReturn k) [.pos, .reg .POS_STATE, .reg .POS_EVT, .reg .POSk_STAT]) ∧
  (∀ k, Framed s (.excitationRestart k) [.pos]) ∧
  (∀ k a0 b0 a b, Framed s (.encoderCount k a0 b0 a b) [.pos, .reg .POS_STATE, .reg .POS_EVT, .reg .POSk_ANG, .reg .POSk_SPD, .reg
      .POSk_STAT, .reg .POSk_FLT]) ∧
  (∀ k, Framed s (.encoderIndex k) [.pos, .reg .POS_STATE, .reg .POS_EVT, .reg .POSk_ANG, .reg .POSk_STAT, .reg .POSk_FLT]) ∧
  (∀ idx sync status data pause, Framed s (.sentFrame idx sync status data pause) [.po, .eng, .mdl, .sent, .chg, .act, .gbx, .ldg, .ssm,
      .reg .FEn_EVT, .reg .FEn_WDCNT, .reg .SENT_STATE, .reg .SENT_EVT, .reg .SENTi_FAST, .reg .SENTi_SLOW, .reg .SENTi_ERR, .reg
      .SENTi_TIME, .reg .CHG_ILIM, .reg .CHG_FLT, .reg .CHG_EVT, .reg .ACk_STATE, .reg .GBX_STATE, .reg .GBX_EVT, .reg .GBX_FLT, .reg
      .GBX_POS0, .reg .GBX_POS1, .reg .LDG_EVT, .reg .LDG_WQSTAT, .reg .LDG_PNf]) ∧
  (∀ idx, Framed s (.sentTimeout idx) [.po, .eng, .mdl, .sent, .chg, .act, .gbx, .ldg, .ssm, .reg .FEn_EVT, .reg .FEn_WDCNT, .reg
      .SENT_STATE, .reg .SENT_EVT, .reg .CHG_ILIM, .reg .CHG_FLT, .reg .CHG_EVT, .reg .ACk_STATE, .reg .GBX_STATE, .reg .GBX_EVT, .reg
      .GBX_FLT, .reg .GBX_POS0, .reg .GBX_POS1, .reg .LDG_EVT, .reg .LDG_WQSTAT, .reg .LDG_PNf]) ∧
  (∀ who r, Framed s (.urgentResultRead who r) [.po, .cores, .lsc, .ssm, .dbg, .linkTries, .resp, .reg .SYS_WERR_CODE, .reg .RNDr_URGRES,
      .reg .LSC_STAT, .reg .SSM_WDSTATn, .reg .DBG_REPLAYn, .reg .DBG_HALTSt])

/-- What the commands of traction and choppers leave unchanged, command by command: every part of the state and every register that is not
named. `Part.journal` and `Part.receipt` add what a journal entry and a receipt write; `Part.allBut` names what a reset keeps as well. -/
def Obligations.TractionFrames : Prop := ∀ (s : State),
  (let l := (Part.receipt [.units, .eng, .mdl, .tra, .ldg, .reg .PST_OUTST, .reg .PST_MERR_CODE]);
    (∀ m, Framed s (.traArm m) l) ∧
    (∀ m, Framed s (.traRun m) l) ∧
    (∀ m, Framed s (.traStop m) l) ∧
    (∀ m, Framed s (.traDisarm m) l)) ∧
  (∀ m, Framed s (.traTorque m) (Part.receipt [.tra, .reg .PST_OUTST, .reg .PST_MERR_CODE])) ∧
  (∀ m, Framed s (.traClear m) (Part.receipt [.units, .eng, .mdl, .tra, .ldg, .ssm, .reg .PST_OUTST, .reg .PST_MERR_CODE, .reg .FEn_ADFAC,
      .reg .FEn_EVT, .reg .FEn_WDCNT, .reg .LDG_EVT, .reg .LDG_WQSTAT, .reg .LDG_PNf, .reg .SSM_STATE, .reg .SSM_PAT0, .reg .SSM_PAT1,
      .reg .SSM_PATX])) ∧
  (∀ m, Framed s (.chopRun m) (Part.receipt [.units, .tra, .reg .PST_OUTST, .reg .PST_MERR_CODE])) ∧
  (∀ m, Framed s (.chopHalt m) (Part.receipt [.units, .mdl, .tra, .ldg, .reg .PST_OUTST, .reg .PST_MERR_CODE])) ∧
  (∀ f, Framed s (.chopAutoStart f) [.units, .tra]) ∧
  (∀ f angles, Framed s (.tractionWatch f angles) [.po, .eng, .mdl, .pos, .tra, .ldg, .ssm, .reg .FEn_EVT, .reg .FEn_WDCNT, .reg .POSk_ANG,
      .reg .POSk_SPD, .reg .POSk_STAT, .reg .LDG_EVT, .reg .LDG_WQSTAT, .reg .LDG_PNf]) ∧
  (∀ f, Framed s (.chopperPeriod f) [.mdl, .tra, .ldg]) ∧
  (∀ f, Framed s (.tractionStopComplete f) [.po]) ∧
  (∀ f, Framed s (.sensorlessObserveSample f) [.rnd, .reg .RNDr_STATE, .reg .RNDr_RQSTAT, .reg .RNDr_RQLO, .reg .RNDr_RQHI]) ∧
  (let l := ([.po, .eng, .tra] : List Part);
    (∀ f amp freq ang, Framed s (.sensorlessObserveEnd f amp freq ang) l) ∧
    (∀ f, Framed s (.ifLock f) l)) ∧
  (∀ f, Framed s (.catchFail f) [.po, .eng, .mdl, .tra, .ldg, .ssm, .reg .FEn_EVT, .reg .FEn_WDCNT, .reg .LDG_EVT, .reg .LDG_WQSTAT, .reg
      .LDG_PNf]) ∧
  (∀ f, Framed s (.ascFreewheelChange f) [.reg .SSM_PAT0, .reg .SSM_PAT1]) ∧
  (∀ f, Framed s (.unknownSpeedTimeout f) [.eng, .mdl, .tra, .ldg, .ssm, .reg .FEn_EVT, .reg .FEn_WDCNT, .reg .LDG_EVT, .reg .LDG_WQSTAT,
      .reg .LDG_PNf, .reg .SSM_STATE, .reg .SSM_ASC, .reg .SSM_PAT0, .reg .SSM_PAT1, .reg .SSM_PATX])

/-- What the commands of charging and transport leave unchanged, command by command: every part of the state and every register that is not
named. `Part.journal` and `Part.receipt` add what a journal entry and a receipt write; `Part.allBut` names what a reset keeps as well. -/
def Obligations.ChargerFrames : Prop := ∀ (s : State),
  (let l := (Part.receipt [.units, .eng, .mdl, .ldg, .reg .PST_OUTST, .reg .PST_MERR_CODE, .reg .FEn_STATE]);
    (∀ m, Framed s (.chgArm m) l) ∧
    (∀ m, Framed s (.chgDisarm m) l)) ∧
  (∀ m, Framed s (.chgStart m) (Part.receipt [.units, .eng, .mdl, .chg, .ldg, .ssm, .reg .PST_OUTST, .reg .PST_MERR_CODE, .reg .FEn_EVT,
      .reg .FEn_WDCNT, .reg .CHG_STATE, .reg .CHG_ILIM, .reg .CHG_FLT, .reg .CHG_EVT, .reg .CHG_TIME, .reg .LDG_EVT, .reg .LDG_WQSTAT,
      .reg .LDG_PNf])) ∧
  (let l := (Part.receipt [.chg, .reg .PST_OUTST, .reg .PST_MERR_CODE, .reg .CHG_STATE, .reg .CHG_ILIM, .reg .CHG_EVT]);
    (∀ m, Framed s (.chgStop m) l) ∧
    (∀ m, Framed s (.chgLimit m) l) ∧
    (∀ m, Framed s (.chgBms m) l)) ∧
  (∀ m, Framed s (.chgClear m) (Part.receipt [.units, .eng, .mdl, .chg, .ldg, .ssm, .reg .PST_OUTST, .reg .PST_MERR_CODE, .reg .FEn_STATE,
      .reg .FEn_ADFAC, .reg .FEn_EVT, .reg .FEn_WDCNT, .reg .CHG_STATE, .reg .LDG_EVT, .reg .LDG_WQSTAT, .reg .LDG_PNf, .reg .SSM_STATE,
      .reg .SSM_PAT0, .reg .SSM_PAT1, .reg .SSM_PATX])) ∧
  (∀ m, Framed s (.transport m) (Part.receipt [.rst, .reg .PST_OUTST, .reg .PST_MERR_CODE, .reg .NVS_STATE])) ∧
  (let l := ([.po, .eng, .mdl, .chg, .ldg, .reg .FEn_EVT, .reg .FEn_WDCNT, .reg .CHG_STATE, .reg .CHG_PILOT, .reg .CHG_ILIM, .reg .CHG_EVT,
      .reg .LDG_EVT, .reg .LDG_WQSTAT, .reg .LDG_PNf] : List Part);
    (∀ periods level held, Framed s (.pilotClassAccepted periods level held) l) ∧
    (∀ ohms, Framed s (.proximityCodeAccepted ohms) l)) ∧
  (∀ closed, Framed s (.contactorFeedbackChange closed) [.chg, .reg .CHG_STATE, .reg .CHG_EVT]) ∧
  (let l := ([.po, .eng, .mdl, .chg, .ldg, .ssm, .reg .FEn_EVT, .reg .FEn_WDCNT, .reg .CHG_ILIM, .reg .CHG_FLT, .reg .CHG_EVT, .reg
      .LDG_EVT, .reg .LDG_WQSTAT, .reg .LDG_PNf] : List Part);
    (Framed s .prechargeTimeout l) ∧
    (Framed s .contactorTimeout l) ∧
    (Framed s .ccTimerExpiry l) ∧
    (∀ cause, Framed s (.outputFault cause) l) ∧
    (Framed s .islandOverload l) ∧
    (Framed s .pilotDiodeFault l)) ∧
  (let l := ([.chg, .reg .CHG_STATE, .reg .CHG_ILIM, .reg .CHG_EVT] : List Part);
    (∀ g, Framed s (.gridReady g) l) ∧
    (∀ g, Framed s (.searchStep g) l)) ∧
  (let l := ([.po, .chg, .reg .CHG_STATE, .reg .CHG_ILIM, .reg .CHG_EVT] : List Part);
    (Framed s .gridWaitTimeout l) ∧
    (Framed s .termination l) ∧
    (Framed s .bmsTemperatureExpiry l) ∧
    (Framed s .chargerStopComplete l)) ∧
  (Framed s .searchRepeat [.chg, .reg .CHG_ILIM, .reg .CHG_EVT]) ∧
  (let l := ([.chg] : List Part);
    (∀ g, Framed s (.busRegulationTick g) l) ∧
    (Framed s .acContactorOpen l)) ∧
  (Framed s .sessionCapExpiry [.po, .eng, .mdl, .chg, .ldg, .ssm, .reg .FEn_EVT, .reg .FEn_WDCNT, .reg .CHG_STATE, .reg .CHG_ILIM, .reg
      .CHG_FLT, .reg .CHG_EVT, .reg .LDG_EVT, .reg .LDG_WQSTAT, .reg .LDG_PNf]) ∧
  (let l := ([.po, .eng, .mdl, .chg, .ldg, .reg .FEn_EVT, .reg .FEn_WDCNT, .reg .CHG_STATE, .reg .CHG_ILIM, .reg .CHG_EVT, .reg .LDG_EVT,
      .reg .LDG_WQSTAT, .reg .LDG_PNf] : List Part);
    (∀ g, Framed s (.gridTrip g) l) ∧
    (Framed s .invalidPilotTimeout l)) ∧
  (Framed s .rampdownEnd [.mdl, .chg, .ldg]) ∧
  (Framed s .transportEntry [.rst])

/-- What the commands of the 48 V and 12 V supplies leave unchanged, command by command: every part of the state and every register that is not
named. `Part.journal` and `Part.receipt` add what a journal entry and a receipt write; `Part.allBut` names what a reset keeps as well. -/
def Obligations.SupplyFrames : Prop := ∀ (s : State),
  (let l := (Part.receipt [.units, .eng, .mdl, .tra, .ldg, .reg .PST_OUTST, .reg .PST_MERR_CODE]);
    (∀ m, Framed s (.hlvArm m) l) ∧
    (∀ m, Framed s (.hlvDisarm m) l)) ∧
  (let l := (Part.receipt [.units, .eng, .mdl, .tra, .hlv, .ldg, .reg .PST_OUTST, .reg .PST_MERR_CODE]);
    (∀ m, Framed s (.hlvRun m) l) ∧
    (∀ m, Framed s (.hlvStop m) l)) ∧
  (∀ m, Framed s (.hlvSet m) (Part.receipt [.hlv, .reg .PST_OUTST, .reg .PST_MERR_CODE])) ∧
  (∀ m, Framed s (.hlvClear m) (Part.receipt [.units, .eng, .mdl, .tra, .ldg, .ssm, .reg .PST_OUTST, .reg .PST_MERR_CODE, .reg .FEn_ADFAC,
      .reg .FEn_EVT, .reg .FEn_WDCNT, .reg .LDG_EVT, .reg .LDG_WQSTAT, .reg .LDG_PNf, .reg .SSM_STATE, .reg .SSM_PAT0, .reg .SSM_PAT1,
      .reg .SSM_PATX])) ∧
  (∀ f, Framed s (.hlvAutoRun f) [.units, .eng, .mdl, .tra, .hlv, .ldg]) ∧
  (let l := (Part.receipt [.units, .reg .PST_OUTST, .reg .PST_MERR_CODE]);
    (∀ m, Framed s (.regArm m) l) ∧
    (∀ m, Framed s (.regDisarm m) l)) ∧
  (∀ m, Framed s (.regRun m) (Part.receipt [.units, .rgl, .reg .PST_OUTST, .reg .PST_MERR_CODE, .reg .REG_STATE, .reg .REG_TARGET, .reg
      .REG_SHED, .reg .REG_PHn])) ∧
  (∀ m, Framed s (.regStop m) (Part.receipt [.units, .rgl, .reg .PST_OUTST, .reg .PST_MERR_CODE, .reg .REG_STATE, .reg .REG_PHn])) ∧
  (∀ m, Framed s (.regSet m) (Part.receipt [.rgl, .reg .PST_OUTST, .reg .PST_MERR_CODE, .reg .REG_STATE, .reg .REG_EVT, .reg .REG_TARGET,
      .reg .REG_SHED, .reg .REG_PHn])) ∧
  (∀ m, Framed s (.regClear m) (Part.receipt [.units, .eng, .mdl, .rgl, .ldg, .ssm, .pads, .reg .PST_OUTST, .reg .PST_MERR_CODE, .reg
      .FEn_EVT, .reg .FEn_WDCNT, .reg .REG_LIM, .reg .LDG_EVT, .reg .LDG_WQSTAT, .reg .LDG_PNf, .reg .SSM_STATE, .reg .SSM_EVT, .reg
      .SSM_PAT0, .reg .SSM_PAT1, .reg .SSM_PATX])) ∧
  (Framed s .regAutoRun [.units, .rgl, .reg .REG_STATE, .reg .REG_TARGET, .reg .REG_SHED, .reg .REG_PHn]) ∧
  (∀ f, Framed s (.hlvStopComplete f) [.po]) ∧
  (∀ f cause, Framed s (.hlvFaultDetect f cause) [.po, .eng, .mdl, .tra, .ldg, .ssm, .reg .FEn_EVT, .reg .FEn_WDCNT, .reg .LDG_EVT, .reg
      .LDG_WQSTAT, .reg .LDG_PNf]) ∧
  (let l := ([.eng, .mdl, .rgl, .ldg, .ssm, .reg .FEn_EVT, .reg .FEn_WDCNT, .reg .REG_STATE, .reg .REG_EVT, .reg .REG_OUT, .reg .REG_LIM,
      .reg .REG_PHn, .reg .LDG_EVT, .reg .LDG_WQSTAT, .reg .LDG_PNf, .reg .SSM_STATE, .reg .SSM_EVT, .reg .SSM_PAT0, .reg .SSM_PAT1, .reg
      .SSM_PATX] : List Part);
    (∀ m, Framed s (.regComparatorTrip m) l) ∧
    (∀ n m, Framed s (.regOnTimeEnd n m) l) ∧
    (∀ m, Framed s (.regBalance m) l) ∧
    (∀ m, Framed s (.regShed m) l) ∧
    (∀ m, Framed s (.regAdd m) l) ∧
    (∀ m, Framed s (.regRestore m) l)) ∧
  (let l := ([.rgl] : List Part);
    (Framed s .regShedHoldEnd l) ∧
    (∀ n, Framed s (.shedPhaseHighImpedance n) l)) ∧
  (let l := ([.po, .eng, .mdl, .rgl, .ldg, .ssm, .reg .FEn_EVT, .reg .FEn_WDCNT, .reg .REG_STATE, .reg .REG_EVT, .reg .REG_FLT, .reg
      .REG_OUT, .reg .REG_LIM, .reg .REG_PHn, .reg .LDG_EVT, .reg .LDG_WQSTAT, .reg .LDG_PNf, .reg .SSM_STATE, .reg .SSM_EVT, .reg
      .SSM_PAT0, .reg .SSM_PAT1, .reg .SSM_PATX] : List Part);
    (∀ m, Framed s (.regStartTest m) l) ∧
    (∀ m, Framed s (.regUndervoltageFailure m) l)) ∧
  (∀ m, Framed s (.regHiccupEnd m) [.eng, .mdl, .rgl, .ldg, .ssm, .reg .FEn_EVT, .reg .FEn_WDCNT, .reg .REG_STATE, .reg .REG_EVT, .reg
      .REG_TARGET, .reg .REG_SHED, .reg .REG_OUT, .reg .REG_LIM, .reg .REG_PHn, .reg .LDG_EVT, .reg .LDG_WQSTAT, .reg .LDG_PNf, .reg
      .SSM_STATE, .reg .SSM_EVT, .reg .SSM_PAT0, .reg .SSM_PAT1, .reg .SSM_PATX]) ∧
  (Framed s .regFailCountReset [.reg .REG_LIM]) ∧
  (Framed s .regSoftstopEnd [.po, .rgl, .reg .REG_STATE]) ∧
  (∀ m, Framed s (.regCrowbar m) [.po, .eng, .mdl, .rgl, .ldg, .ssm, .pads, .reg .FEn_EVT, .reg .FEn_WDCNT, .reg .REG_STATE, .reg .REG_EVT,
      .reg .REG_FLT, .reg .REG_OUT, .reg .REG_LIM, .reg .REG_PHn, .reg .LDG_EVT, .reg .LDG_WQSTAT, .reg .LDG_PNf, .reg .SSM_STATE, .reg
      .SSM_EVT, .reg .SSM_PAT0, .reg .SSM_PAT1, .reg .SSM_PATX]) ∧
  (∀ cause bad, Framed s (.regFaultDetect cause bad) [.po, .rgl, .ssm, .reg .REG_EVT, .reg .REG_FLT])

/-- What the commands of actuators and the gearbox sequencer leave unchanged, command by command: every part of the state and every register that is not
named. `Part.journal` and `Part.receipt` add what a journal entry and a receipt write; `Part.allBut` names what a reset keeps as well. -/
def Obligations.ActuatorFrames : Prop := ∀ (s : State),
  (let l := (Part.receipt [.act, .reg .PST_OUTST, .reg .PST_MERR_CODE]);
    (∀ m, Framed s (.actArm m) l) ∧
    (∀ m, Framed s (.actSpeed m) l) ∧
    (∀ m, Framed s (.actLeaktest m) l)) ∧
  (let l := (Part.receipt [.units, .act, .reg .PST_OUTST, .reg .PST_MERR_CODE, .reg .ACk_STATE]);
    (∀ m, Framed s (.actRun m) l) ∧
    (∀ m, Framed s (.actStop m) l)) ∧
  (let l := (Part.receipt [.units, .reg .PST_OUTST, .reg .PST_MERR_CODE]);
    (∀ m, Framed s (.actDisarm m) l) ∧
    (∀ m, Framed s (.gbxHalt m) l)) ∧
  (∀ m, Framed s (.actClear m) (Part.receipt [.units, .eng, .mdl, .act, .ldg, .ssm, .reg .PST_OUTST, .reg .PST_MERR_CODE, .reg .FEn_EVT,
      .reg .FEn_WDCNT, .reg .ACk_STATE, .reg .LDG_EVT, .reg .LDG_WQSTAT, .reg .LDG_PNf, .reg .SSM_STATE, .reg .SSM_PAT0, .reg .SSM_PAT1,
      .reg .SSM_PATX])) ∧
  (∀ m, Framed s (.gbxRun m) (Part.receipt [.units, .act, .reg .PST_OUTST, .reg .PST_MERR_CODE])) ∧
  (let l := (Part.receipt [.units, .act, .gbx, .ldg, .reg .PST_OUTST, .reg .PST_MERR_CODE, .reg .ACk_STATE, .reg .GBX_STATE]);
    (∀ m, Framed s (.gbxShift m) l) ∧
    (∀ m, Framed s (.gbxPark m) l) ∧
    (∀ m, Framed s (.gbxClutch m) l)) ∧
  (∀ m, Framed s (.gbxClear m) (Part.receipt [.units, .gbx, .reg .PST_OUTST, .reg .PST_MERR_CODE])) ∧
  (∀ k m, Framed s (.actUpdate k m) [.po, .act, .gbx, .ldg, .ssm, .tick, .reg .ACT_VACT, .reg .ACk_STATE, .reg .ACk_SPD, .reg .ACk_I, .reg
      .ACk_EVT, .reg .ACk_FLT, .reg .GBX_EVT, .reg .GBX_FLT]) ∧
  (let l := ([.po, .act, .reg .ACk_STATE, .reg .ACk_EVT] : List Part);
    (∀ k o, Framed s (.actStartPhaseEnd k o) l) ∧
    (∀ k rpm, Framed s (.actRampLock k rpm) l)) ∧
  (∀ k vact starts, Framed s (.actBrakePulse k vact starts) [.act, .reg .ACT_VACT, .reg .ACk_EVT]) ∧
  (∀ k, Framed s (.startAttemptFail k) [.po, .act, .gbx, .ldg, .ssm, .tick, .reg .ACk_STATE, .reg .ACk_EVT, .reg .ACk_FLT, .reg .GBX_EVT,
      .reg .GBX_FLT]) ∧
  (∀ k, Framed s (.retryWaitEnd k) [.act, .reg .ACk_STATE]) ∧
  (∀ n, Framed s (.bootstrapRefresh n) [.act, .reg .ACk_BOOT]) ∧
  (let l := ([.po, .act, .gbx, .ldg, .ssm, .pads, .tick, .reg .ACT_STAT, .reg .ACk_STATE, .reg .ACk_EVT, .reg .ACk_FLT, .reg .ACk_LATCH,
      .reg .GBX_EVT, .reg .GBX_FLT] : List Part);
    (∀ n, Framed s (.bootstrapUndervoltage n) l) ∧
    (∀ n cause, Framed s (.actLegLatch n cause) l)) ∧
  (∀ k low high, Framed s (.leakTestComplete k low high) [.po, .act, .gbx, .ldg, .ssm, .pads, .tick, .reg .ACT_STAT, .reg .ACk_STATE, .reg
      .ACk_EVT, .reg .ACk_FLT, .reg .ACk_LATCH, .reg .ACk_LEAKL, .reg .ACk_LEAKH, .reg .GBX_EVT, .reg .GBX_FLT]) ∧
  (∀ mv, Framed s (.vactFault mv) [.po, .act, .gbx, .ldg, .ssm, .tick, .reg .ACT_EVT, .reg .ACT_VACT, .reg .ACk_STATE, .reg .ACk_EVT, .reg
      .ACk_FLT, .reg .GBX_EVT, .reg .GBX_FLT]) ∧
  (∀ k, Framed s (.actStall k) [.units, .po, .act, .gbx, .ldg, .ssm, .tick, .reg .ACk_STATE, .reg .ACk_EVT, .reg .ACk_FLT, .reg .GBX_STATE,
      .reg .GBX_EVT, .reg .GBX_FLT]) ∧
  (∀ k, Framed s (.actStopComplete k) [.po, .act, .reg .ACk_STATE]) ∧
  (Framed s .actEnFall [.po, .act, .gbx, .ldg, .ssm, .actEn, .tick, .reg .ACT_STAT, .reg .ACT_EVT, .reg .ACk_STATE, .reg .ACk_EVT, .reg
      .ACk_FLT, .reg .GBX_EVT, .reg .GBX_FLT]) ∧
  (∀ low loud, Framed s (.actEnRise low loud) [.actEn, .pads, .tick, .reg .ACT_STAT, .reg .ACT_EVT, .reg .ACk_LATCH]) ∧
  (let l := ([.units, .po, .act, .gbx, .ldg, .reg .ACk_STATE, .reg .GBX_STATE, .reg .GBX_EVT] : List Part);
    (∀ mech, Framed s (.moveTargetReached mech) l) ∧
    (Framed s .shiftPhaseEnd l)) ∧
  (∀ mech, Framed s (.moveTimeout mech) [.po, .act, .gbx, .ldg, .reg .ACk_STATE, .reg .GBX_STATE, .reg .GBX_EVT, .reg .GBX_FLT]) ∧
  (let l := ([.units, .act, .gbx, .reg .ACk_STATE] : List Part);
    (Framed s .buttRetry l) ∧
    (Framed s .parkWaitExpiry l)) ∧
  (Framed s .syncTimeExpiry [.po, .act, .gbx, .ldg, .reg .ACk_STATE, .reg .GBX_STATE, .reg .GBX_EVT])

/-- What the commands of the ledger and withdrawals leave unchanged, command by command: every part of the state and every register that is not
named. `Part.journal` and `Part.receipt` add what a journal entry and a receipt write; `Part.allBut` names what a reset keeps as well. -/
def Obligations.LedgerFrames : Prop := ∀ (s : State),
  (∀ m, Framed s (.ldgBattery m) (Part.receipt [.ldg, .reg .PST_OUTST, .reg .PST_MERR_CODE])) ∧
  (∀ m, Framed s (.ldgKeepalive m) (Part.receipt [.aon, .reg .PST_OUTST, .reg .PST_MERR_CODE])) ∧
  (∀ who p, Framed s (.ldgNetRead who p) [.po, .cores, .lsc, .ssm, .dbg, .linkTries, .resp, .reg .SYS_WERR_CODE, .reg .LDG_Pp_EHI, .reg
      .LSC_STAT, .reg .SSM_WDSTATn, .reg .DBG_REPLAYn, .reg .DBG_HALTSt]) ∧
  (∀ who, Framed s (.withdrawalQueueRead who) [.po, .ldg, .cores, .lsc, .ssm, .dbg, .linkTries, .resp, .reg .SYS_WERR_CODE, .reg
      .LDG_WQSTAT, .reg .LSC_STAT, .reg .SSM_WDSTATn, .reg .DBG_REPLAYn, .reg .DBG_HALTSt]) ∧
  (∀ who, Framed s (.keepaliveBalanceRead who) [.po, .cores, .lsc, .ssm, .dbg, .linkTries, .resp, .reg .SYS_WERR_CODE, .reg .LDG_KABHI,
      .reg .LSC_STAT, .reg .SSM_WDSTATn, .reg .DBG_REPLAYn, .reg .DBG_HALTSt]) ∧
  (∀ who bits, Framed s (.imbalanceClear who bits) [.po, .cores, .lsc, .ssm, .dbg, .linkTries, .resp, .reg .SYS_WERR_CODE, .reg .LDG_IMB,
      .reg .LSC_STAT, .reg .SSM_WDSTATn, .reg .DBG_REPLAYn, .reg .DBG_HALTSt]) ∧
  (Framed s .ledgerTick [.tra, .ldg, .reg .LDG_EVT, .reg .LDG_EDf, .reg .LDG_ERf, .reg .LDG_Pp_PWR]) ∧
  (Framed s .imbalanceBlock (Part.journal [.ldg, .reg .LDG_EVT, .reg .LDG_IMB, .reg .LDG_NRESk])) ∧
  (Framed s .plannerRound [.ldg]) ∧
  (∀ us, Framed s (.plannerLatch us) [.ldg, .reg .LDG_STATE, .reg .LDG_EVT, .reg .LDG_ROUND, .reg .LDG_EDf, .reg .LDG_ERf]) ∧
  (Framed s .plannerStale [.ldg, .reg .LDG_STATE, .reg .LDG_EVT]) ∧
  (∀ f, Framed s (.powerHoleTimeout f) (Part.journal [.ldg, .tick])) ∧
  (let l := (Part.allBut [.variant, .split, .bootSplit, .up, .gf, .driveEn, .actEn, .recovery, .resp, .pending]);
    (Framed s .timerWake l) ∧
    (Framed s .keepaliveRefill l)) ∧
  (Framed s .timerWakeLimit (Part.journal [.rst, .tick, .reg .LDG_EVT])) ∧
  (Framed s .keepaliveDebit [.aon])

/-- What the commands of the safe-state manager, the pairs and the cores leave unchanged, command by command: every part of the state and every register that is not
named. `Part.journal` and `Part.receipt` add what a journal entry and a receipt write; `Part.allBut` names what a reset keeps as well. -/
def Obligations.CoreFrames : Prop := ∀ (s : State),
  (let l := (Part.receipt [.eng, .mdl, .ldg, .ssm, .reg .PST_OUTST, .reg .PST_MERR_CODE, .reg .FEn_EVT, .reg .FEn_WDCNT, .reg .LDG_EVT,
      .reg .LDG_WQSTAT, .reg .LDG_PNf, .reg .SSM_STATE, .reg .SSM_CAUSE, .reg .SSM_EVT, .reg .SSM_PAT0, .reg .SSM_PAT1, .reg .SSM_PATX]);
    (∀ m, Framed s (.ssmRelease m) l) ∧
    (∀ m, Framed s (.ssmForce m) l)) ∧
  (∀ m, Framed s (.evcRing m) (Part.receipt [.cores, .evc, .reg .PST_OUTST, .reg .PST_MERR_CODE, .reg .EVC_DBSET])) ∧
  (∀ who value, Framed s (.faultNAcknowledge who value) [.po, .cores, .lsc, .ssm, .dbg, .linkTries, .resp, .reg .SYS_WERR_CODE, .reg
      .LSC_STAT, .reg .SSM_STATE, .reg .SSM_WDSTATn, .reg .DBG_REPLAYn, .reg .DBG_HALTSt]) ∧
  (∀ who n key elapsed, Framed s (.watchdogService who n key elapsed) (Part.allBut [.variant, .split, .bootSplit, .up, .gf, .driveEn,
      .actEn, .recovery, .tick, .pending])) ∧
  (∀ who n value, Framed s (.rstPvecWrite who n value) [.po, .cores, .lsc, .ssm, .dbg, .linkTries, .resp, .reg .SYS_WERR_CODE, .reg
      .PST_SLEEP, .reg .LSC_STAT, .reg .SSM_WDSTATn, .reg .RST_PVECn, .reg .DBG_REPLAYn, .reg .DBG_HALTSt]) ∧
  (let l := ([.po, .cores, .lsc, .ssm, .evc, .dbg, .linkTries, .resp, .reg .SYS_WERR_CODE, .reg .LSC_STAT, .reg .SSM_WDSTATn, .reg
      .EVC_DBSET, .reg .DBG_REPLAYn, .reg .DBG_HALTSt] : List Part);
    (∀ who t, Framed s (.eventClaim who t) l) ∧
    (∀ who t value, Framed s (.eventComplete who t value) l) ∧
    (∀ who value, Framed s (.doorbellSet who value) l)) ∧
  (∀ who m value, Framed s (.eventSourceWrite who m value) [.po, .cores, .lsc, .ssm, .dbg, .linkTries, .resp, .reg .SYS_WERR_CODE, .reg
      .LSC_STAT, .reg .SSM_WDSTATn, .reg .EVC_SRCm, .reg .DBG_REPLAYn, .reg .DBG_HALTSt]) ∧
  (let l := (Part.allBut [.variant, .split, .bootSplit, .up, .gf, .driveEn, .actEn, .recovery, .resp, .tick, .pending]);
    (∀ n flags pc, Framed s (.lockstepMismatch n flags pc) l) ∧
    (∀ n tests pc, Framed s (.comparatorSelfTest n tests pc) l) ∧
    (Framed s .faultFrameReceived l) ∧
    (∀ n, Framed s (.watchdogExpiry n) l)) ∧
  (Framed s .heartbeatReceived [.eng, .mdl, .ldg, .ssm, .reg .FEn_EVT, .reg .FEn_WDCNT, .reg .LDG_EVT, .reg .LDG_WQSTAT, .reg .LDG_PNf,
      .reg .SSM_STATE, .reg .SSM_CAUSE, .reg .SSM_EVT, .reg .SSM_ASC, .reg .SSM_PAT0, .reg .SSM_PAT1, .reg .SSM_PATX]) ∧
  (Framed s .heartbeatTimeout [.eng, .mdl, .ldg, .ssm, .reg .FEn_EVT, .reg .FEn_WDCNT, .reg .LDG_EVT, .reg .LDG_WQSTAT, .reg .LDG_PNf, .reg
      .SSM_STATE, .reg .SSM_CAUSE, .reg .SSM_EVT, .reg .SSM_HB, .reg .SSM_PAT0, .reg .SSM_PAT1, .reg .SSM_PATX]) ∧
  (∀ n, Framed s (.watchdogWarning n) [.ssm, .reg .SSM_EVT]) ∧
  (∀ count, Framed s (.monClockCheck count) (Part.allBut [.variant, .bootSplit, .up, .gf, .driveEn, .actEn, .recovery, .resp, .tick,
      .pending])) ∧
  (∀ t, Framed s (.wfi t) [.cores, .reg .PST_SLEEP]) ∧
  (∀ t kind id, Framed s (.coreWake t kind id) [.cores, .reg .PST_SLEEP, .reg .EVC_WAKEt]) ∧
  (∀ m, Framed s (.eventLineChange m) [.cores, .evc]) ∧
  (∀ t pc, Framed s (.fastEventEntry t pc) [.cores, .evc, .reg .PST_SLEEP, .reg .EVC_DBSET, .reg .EVC_FASTt, .reg .EVC_WAKEt]) ∧
  (let l := ([.cores, .evc, .reg .EVC_DBSET, .reg .EVC_FASTt] : List Part);
    (∀ t, Framed s (.fret t) l) ∧
    (∀ t, Framed s (.coreUnavailable t) l)) ∧
  (∀ t, Framed s (.machineTimerExpiry t) [.cores]) ∧
  (∀ m, Framed s (.strandedEvent m) [.reg .EVC_EVT, .reg .EVC_STRAND]) ∧
  (∀ t csr op value, Framed s (.deviceCsrAccess t csr op value) [.cores, .resp, .tick])

/-- What the commands of reset, clocks, supplies and temperature leave unchanged, command by command: every part of the state and every register that is not
named. `Part.journal` and `Part.receipt` add what a journal entry and a receipt write; `Part.allBut` names what a reset keeps as well. -/
def Obligations.ResetFrames : Prop := ∀ (s : State),
  (∀ m, Framed s (.rstUnit m) [.regs, .err, .po, .nvs, .eng, .mdl, .rnd, .pos, .sent, .chg, .act, .gbx, .ldg, .ssm, .rst, .can, .eth]) ∧
  (∀ m, Framed s (.rstPair m) (Part.receipt [.rst, .reg .PST_OUTST, .reg .PST_MERR_CODE])) ∧
  (let l := (Part.allBut [.variant, .split, .bootSplit, .up, .gf, .driveEn, .actEn, .recovery, .resp, .tick, .pending]);
    (∀ m, Framed s (.rstSystem m) l) ∧
    (∀ id pairs, Framed s (.resetSourceAssert id pairs) l) ∧
    (Framed s .startTimerExpiry l) ∧
    (∀ p, Framed s (.pllLockLoss p) l)) ∧
  (∀ m, Framed s (.standby m) (Part.receipt [.rst, .reg .PST_OUTST, .reg .PST_MERR_CODE, .reg .NVS_STATE])) ∧
  (let l := ([.split, .regs, .eng, .mdl, .ldg, .cores, .lsc, .ssm, .rst] : List Part);
    (∀ id pairs, Framed s (.resetSourceRelease id pairs) l) ∧
    (∀ id pairs, Framed s (.resetPulseEnd id pairs) l) ∧
    (∀ n, Framed s (.resetHoldEnd n) l) ∧
    (∀ r, Framed s (.supplyRestored r) l)) ∧
  (let l := (Part.allBut [.variant, .bootSplit, .up, .gf, .driveEn, .actEn, .recovery, .resp, .tick, .pending]);
    (∀ low, Framed s (.resetPin low) l) ∧
    (∀ up, Framed s (.powerOn up) l) ∧
    (∀ idx high, Framed s (.powerGoodChange idx high) l) ∧
    (∀ idx count, Framed s (.clockMonitorWindow idx count) l) ∧
    (∀ temps diodes rails, Framed s (.temperatureMeasurement temps diodes rails) l)) ∧
  (Framed s .domainRelease [.rst, .pads]) ∧
  (Framed s .standbyEntry (Part.allBut [.variant, .split, .bootSplit, .up, .gf, .driveEn, .actEn, .aon, .pads, .thm, .recovery,
      .mramClosed, .resp, .tick, .pending])) ∧
  (let l := (Part.allBut [.variant, .split, .bootSplit, .up, .gf, .driveEn, .actEn, .recovery, .resp, .pending]);
    (∀ src, Framed s (.wake src) l) ∧
    (Framed s .supplyAlarm l)) ∧
  (∀ r, Framed s (.supplyOutOfRange r) (Part.allBut [.variant, .bootSplit, .up, .gf, .driveEn, .actEn, .recovery, .resp, .pending]))

/-- What the commands of networks, security and debug leave unchanged, command by command: every part of the state and every register that is not
named. `Part.journal` and `Part.receipt` add what a journal entry and a receipt write; `Part.allBut` names what a reset keeps as well. -/
def Obligations.NetworkFrames : Prop := ∀ (s : State),
  (∀ m, Framed s (.netRun m) (Part.receipt [.units, .can, .eth, .reg .PST_OUTST, .reg .PST_MERR_CODE])) ∧
  (let l := (Part.allBut [.variant, .split, .bootSplit, .up, .gf, .driveEn, .actEn, .recovery, .resp, .tick, .pending]);
    (∀ m, Framed s (.netHalt m) l) ∧
    (∀ n e, Framed s (.canTransmitEnd n e) l) ∧
    (∀ u, Framed s (.netReceiptSend u) l)) ∧
  (let l := (Part.receipt [.sec, .reg .PST_OUTST, .reg .PST_MERR_CODE]);
    (∀ m, Framed s (.secRevoke m) l) ∧
    (∀ m, Framed s (.secFkey m) l)) ∧
  (∀ m, Framed s (.secSak m) (Part.receipt [.eth, .reg .PST_OUTST, .reg .PST_MERR_CODE])) ∧
  (∀ who n value, Framed s (.canModeWrite who n value) [.po, .cores, .lsc, .ssm, .dbg, .linkTries, .resp, .reg .SYS_WERR_CODE, .reg
      .LSC_STAT, .reg .SSM_WDSTATn, .reg .CANn_MODE, .reg .DBG_REPLAYn, .reg .DBG_HALTSt]) ∧
  (∀ who p value, Framed s (.mdioTransaction who p value) [.po, .cores, .lsc, .ssm, .dbg, .linkTries, .resp, .reg .SYS_WERR_CODE, .reg
      .LSC_STAT, .reg .SSM_WDSTATn, .reg .ETHp_MDIO, .reg .DBG_REPLAYn, .reg .DBG_HALTSt]) ∧
  (∀ p data, Framed s (.mdioComplete p data) [.reg .ETHp_MDIO]) ∧
  (let l := ([.po, .cores, .lsc, .ssm, .sec, .dbg, .linkTries, .resp, .reg .SYS_WERR_CODE, .reg .LSC_STAT, .reg .SSM_WDSTATn, .reg
      .DBG_REPLAYn, .reg .DBG_HALTSt] : List Part);
    (∀ who slot, Framed s (.fuseImageKey who slot) l) ∧
    (∀ who slot, Framed s (.setFrankingKey who slot) l) ∧
    (∀ who slot, Framed s (.fuseDebugKey who slot) l) ∧
    (∀ who slot, Framed s (.revokeImageKey who slot) l)) ∧
  (Framed s .keyCommandComplete [.sec, .reg .SEC_EVT]) ∧
  (∀ who, Framed s (.debugChallengeRead who) [.po, .cores, .lsc, .ssm, .sec, .dbg, .linkTries, .resp, .tick, .reg .SYS_WERR_CODE, .reg
      .LSC_STAT, .reg .SSM_WDSTATn, .reg .SEC_DBGCHALj, .reg .DBG_REPLAYn, .reg .DBG_HALTSt]) ∧
  (∀ who value, Framed s (.debugResponseWrite who value) [.po, .cores, .lsc, .ssm, .sec, .dbg, .linkTries, .resp, .reg .SYS_WERR_CODE, .reg
      .LSC_STAT, .reg .SSM_WDSTATn, .reg .SEC_EVT, .reg .SEC_DBGRESPj, .reg .DBG_REPLAYn, .reg .DBG_HALTSt]) ∧
  (Framed s .challengeExpiry [.sec]) ∧
  (∀ who healthy, Framed s (.randomWordRead who healthy) [.po, .cores, .lsc, .ssm, .sec, .dbg, .linkTries, .resp, .tick, .reg
      .SYS_WERR_CODE, .reg .LSC_STAT, .reg .SSM_WDSTATn, .reg .SEC_EVT, .reg .DBG_REPLAYn, .reg .DBG_HALTSt]) ∧
  (∀ who value, Framed s (.pinOutWrite who value) [.po, .cores, .lsc, .ssm, .dbg, .linkTries, .resp, .reg .SYS_WERR_CODE, .reg .LSC_STAT,
      .reg .SSM_WDSTATn, .reg .DBG_REPLAYn, .reg .DBG_HALTSt, .reg .PIN_OUT]) ∧
  (∀ n f, Framed s (.canFrameReceived n f) (Part.receipt [.can, .tick, .reg .PHn_SEQ, .reg .CANn_STATE, .reg .CANn_EVT, .reg .CANn_CNT])) ∧
  (∀ n, Framed s (.canBusOffRecovered n) [.can, .reg .CANn_STATE, .reg .CANn_EVT]) ∧
  (∀ p f, Framed s (.ethDatagramReceived p f) (Part.receipt [.eth, .reg .PHn_SEQ, .reg .ETHp_EVT, .reg .ETHp_CNT])) ∧
  (∀ p f, Framed s (.addressResolution p f) [.eth, .reg .ETHp_EVT, .reg .ETHp_CNT]) ∧
  (∀ p sync selected, Framed s (.syncReceived p sync selected) [.rate, .eth, .tick, .reg .ETHp_STATE, .reg .ETHp_EVT, .reg .ETHp_OFFS, .reg
      .ETHp_RATE]) ∧
  (∀ p, Framed s (.syncTimeout p) [.eth, .reg .ETHp_STATE, .reg .ETHp_EVT]) ∧
  (let l := ([.eth] : List Part);
    (∀ p, Framed s (.gateCycleRestart p) l) ∧
    (Framed s .sequenceRecoveryReset l)) ∧
  (∀ t, Framed s (.debugHalt t) [.cores, .ssm, .dbg, .reg .PST_SLEEP, .reg .LSC_STAT, .reg .SSM_WDSTATn, .reg .DBG_HALTSt]) ∧
  (∀ t, Framed s (.debugResume t) [.cores, .lsc, .ssm, .evc, .dbg, .reg .PST_SLEEP, .reg .LSC_STAT, .reg .SSM_WDSTATn, .reg .EVC_DBSET,
      .reg .EVC_FASTt, .reg .EVC_WAKEt, .reg .DBG_REPLAYn]) ∧
  (∀ t pc, Framed s (.debugStep t pc) [.cores, .lsc, .ssm, .dbg, .reg .LSC_STAT, .reg .SSM_WDSTATn, .reg .DBG_REPLAYn, .reg .DBG_HALTSt]) ∧
  (∀ t c, Framed s (.debugAbstractCommand t c) [.cores, .lsc, .dbg, .tick, .reg .DBG_REPLAYn]) ∧
  (∀ t held, Framed s (.debugHartReset t held) (Part.allBut [.variant, .bootSplit, .up, .gf, .driveEn, .actEn, .recovery, .resp, .tick,
      .pending])) ∧
  (∀ cells, Framed s (.jtagExtest cells) [.pins, .resp]) ∧
  (∀ p up, Framed s (.ethLinkChange p up) [.reg .ETHp_STATE, .reg .ETHp_EVT]) ∧
  (∀ high, Framed s (.ppsPulse high) [.pins])
end

