-- ==== Sys2Proof/Laws/Maps.lean ====
section
/-!
SUPPORT. Sparse maps: reading after writing, and that every operation keeps the canonical form.
-/
namespace Sys2Proof.Machine

variable {α : Type} {d : Nat → α}

/-- Every key of a canonical map's rest is above a bound. -/
def FMap.above (k : Nat) (m : FMap α) : Prop := ∀ p ∈ m, k < p.1

theorem FMap.wf_cons [DecidableEq α] {k : Nat} {v : α} {t : FMap α} :
    FMap.wf d ((k, v) :: t) = true ↔ v ≠ d k ∧ FMap.above k t ∧ FMap.wf d t = true := by
  simp [FMap.wf, FMap.above, and_assoc]

theorem FMap.get_above {m : FMap α} {k : Nat} (h : ∀ p ∈ m, k ≠ p.1) : FMap.get d m k = d k := by
  induction m with
  | nil => rfl
  | cons p t ih =>
    simp only [List.mem_cons, forall_eq_or_imp] at h
    simp only [FMap.get, h.1, if_false]
    exact ih h.2

@[simp] theorem FMap.get_put_same {m : FMap α} {k : Nat} {v : α} : FMap.get d (FMap.put m k v) k = v := by
  induction m with
  | nil => simp [FMap.put, FMap.get]
  | cons p t ih =>
    simp only [FMap.put]
    split
    · simp [FMap.get]
    · split
      · simp [FMap.get]
      · simp only [FMap.get]
        rw [if_neg (by assumption)]
        exact ih

theorem FMap.get_put_ne {m : FMap α} {k j : Nat} {v : α} (h : j ≠ k) : FMap.get d (FMap.put m k v) j = FMap.get d m j := by
  induction m with
  | nil => simp [FMap.put, FMap.get, h]
  | cons p t ih =>
    simp only [FMap.put]
    split
    · simp [FMap.get, h]
    · split
      · rename_i e
        simp [FMap.get, h, ← e]
      · simp only [FMap.get, ih]

theorem FMap.get_erase_ne {m : FMap α} {k j : Nat} (h : j ≠ k) : FMap.get d (FMap.erase m k) j = FMap.get d m j := by
  induction m with
  | nil => rfl
  | cons p t ih =>
    simp only [FMap.erase]
    split
    · rename_i e
      simp [FMap.get, h, ← e, ih]
    · simp only [FMap.get, ih]

theorem FMap.get_erase_same {m : FMap α} {k : Nat} : FMap.get d (FMap.erase m k) k = d k := by
  induction m with
  | nil => rfl
  | cons p t ih =>
    simp only [FMap.erase]
    split
    · exact ih
    · rename_i e
      simp only [FMap.get, if_neg e, ih]

/-- Reading back what was stored. -/
theorem FMap.get_set_same [DecidableEq α] {m : FMap α} {k : Nat} {v : α} : FMap.get d (FMap.set d m k v) k = v := by
  unfold FMap.set
  split
  · rename_i e
    rw [FMap.get_erase_same, e]
  · exact FMap.get_put_same

/-- A store leaves every other key alone. -/
theorem FMap.get_set_ne [DecidableEq α] {m : FMap α} {k j : Nat} {v : α} (h : j ≠ k) : FMap.get d (FMap.set d m k v) j = FMap.get d m j := by
  unfold FMap.set
  split
  · exact FMap.get_erase_ne h
  · exact FMap.get_put_ne h

theorem FMap.mem_put {m : FMap α} {k : Nat} {v : α} {p : Nat × α} (h : p ∈ FMap.put m k v) : p = (k, v) ∨ p ∈ m := by
  induction m with
  | nil => exact .inl (by simpa [FMap.put] using h)
  | cons q t ih =>
    simp only [FMap.put] at h
    split at h
    · simpa using h
    · split at h
      · rcases List.mem_cons.mp h with e | e
        · exact .inl e
        · exact .inr (List.mem_cons_of_mem _ e)
      · rcases List.mem_cons.mp h with e | e
        · exact .inr (e ▸ List.mem_cons_self)
        · exact (ih e).imp id (List.mem_cons_of_mem _)

theorem FMap.mem_erase {m : FMap α} {k : Nat} {p : Nat × α} (h : p ∈ FMap.erase m k) : p ∈ m := by
  induction m with
  | nil => exact h
  | cons q t ih =>
    simp only [FMap.erase] at h
    split at h
    · exact List.mem_cons_of_mem _ (ih h)
    · rcases List.mem_cons.mp h with e | e
      · exact e ▸ List.mem_cons_self
      · exact List.mem_cons_of_mem _ (ih e)

theorem FMap.wf_put [DecidableEq α] {m : FMap α} {k : Nat} {v : α} (h : FMap.wf d m = true) (hv : v ≠ d k) :
    FMap.wf d (FMap.put m k v) = true := by
  induction m with
  | nil => simp [FMap.put, FMap.wf, hv]
  | cons p t ih =>
    obtain ⟨hp, ha, hw⟩ := FMap.wf_cons.mp h
    simp only [FMap.put]
    split
    · rename_i lt
      refine FMap.wf_cons.mpr ⟨hv, fun q hq => ?_, h⟩
      rcases List.mem_cons.mp hq with e | e
      · exact e ▸ lt
      · exact lt.trans (ha q e)
    · split
      · rename_i e
        exact FMap.wf_cons.mpr ⟨hv, fun q hq => e ▸ ha q hq, hw⟩
      · refine FMap.wf_cons.mpr ⟨hp, fun q hq => ?_, ih hw⟩
        rcases FMap.mem_put hq with e | e
        · subst e
          show p.1 < k
          omega
        · exact ha q e

theorem FMap.wf_erase [DecidableEq α] {m : FMap α} {k : Nat} (h : FMap.wf d m = true) : FMap.wf d (FMap.erase m k) = true := by
  induction m with
  | nil => rfl
  | cons p t ih =>
    obtain ⟨hp, ha, hw⟩ := FMap.wf_cons.mp h
    simp only [FMap.erase]
    split
    · exact ih hw
    · exact FMap.wf_cons.mpr ⟨hp, fun q hq => ha q (FMap.mem_erase hq), ih hw⟩

/-- Storing keeps the canonical form. -/
theorem FMap.wf_set [DecidableEq α] {m : FMap α} {k : Nat} {v : α} (h : FMap.wf d m = true) : FMap.wf d (FMap.set d m k v) = true := by
  unfold FMap.set
  split
  · exact FMap.wf_erase h
  · rename_i e
    exact FMap.wf_put h e

/-- Dropping keys keeps the canonical form. -/
theorem FMap.wf_filter [DecidableEq α] {m : FMap α} {q : Nat × α → Bool} (h : FMap.wf d m = true) :
    FMap.wf d (List.filter q m : FMap α) = true := by
  induction m with
  | nil => rfl
  | cons p t ih =>
    obtain ⟨hp, ha, hw⟩ := FMap.wf_cons.mp h
    rw [List.filter_cons]
    split
    · exact FMap.wf_cons.mpr ⟨hp, fun q hq => ha q (List.mem_of_mem_filter hq), ih hw⟩
    · exact ih hw

/-- Two canonical maps, the keys of the first below those of the second. -/
theorem FMap.wf_append [DecidableEq α] {m n : FMap α} (h : FMap.wf d m = true) (k : FMap.wf d n = true)
    (b : ∀ p ∈ m, ∀ q ∈ n, p.1 < q.1) : FMap.wf d (m ++ n : FMap α) = true := by
  induction m with
  | nil => exact k
  | cons p t ih =>
    obtain ⟨hp, ha, hw⟩ := FMap.wf_cons.mp h
    refine FMap.wf_cons.mpr ⟨hp, fun q hq => ?_, ih hw fun x hx => b x (List.mem_cons_of_mem _ hx)⟩
    rcases List.mem_append.mp hq with e | e
    · exact ha q e
    · exact b p List.mem_cons_self q e

end Sys2Proof.Machine
end

