-- ==== Sys2Proof/Laws/Frame.lean ====
section
/-!
SUPPORT. Frames: how they compose, and what the loops and choices of the model need of their bodies. `Kept c s t` is what every operation
of the model is shown to give: a frame, and the canonical form of memory and of the registers.
-/
namespace Sys2Proof.Machine

theorem Part.same_refl (p : Part) (s : State) : p.same s s := by cases p <;> first | rfl | exact True.intro

theorem Part.same_trans {p : Part} {s t u : State} (h : p.same s t) (k : p.same t u) : p.same s u := by
  cases p <;> first | exact Eq.trans k h | exact True.intro

theorem Frame.refl (c : List Part) (s : State) : Frame c s s := ⟨fun p => .inr (p.same_refl s), fun _ => .inr (.inr rfl)⟩

theorem Part.mem_of_sub {d c : List Part} (k : sub d c = true) {p : Part} (h : p ∈ d) (q : ∀ r, p ≠ .reg r) : p ∈ c := by
  have x := List.all_eq_true.mp k p h
  cases p <;> first | exact absurd rfl (q _) | simpa using x

theorem Part.reg_of_sub {d c : List Part} (k : sub d c = true) {r : Reg} (h : Part.reg r ∈ d) : Part.regs ∈ c ∨ Part.reg r ∈ c := by
  have x := List.all_eq_true.mp k _ h
  simp only [Bool.or_eq_true, List.contains_iff_mem] at x
  exact x.symm

theorem Part.sub_trans {a b c : List Part} (h : sub a b = true) (k : sub b c = true) : sub a c = true := by
  refine List.all_eq_true.mpr fun p hp => ?_
  cases p with
  | reg r =>
    simp only [Bool.or_eq_true, List.contains_iff_mem]
    rcases reg_of_sub h hp with x | x
    · exact .inr (mem_of_sub (p := .regs) k x nofun)
    · exact (reg_of_sub k x).symm
  | _ => simpa using mem_of_sub k (mem_of_sub h hp nofun) nofun

theorem Frame.mono {c d : List Part} {s t : State} (h : Frame c s t) (k : Part.sub c d = true) : Frame d s t := by
  refine ⟨fun p => ?_, fun a => ?_⟩
  · rcases h.outside p with m | e
    · cases p with
      | reg r => exact .inr True.intro
      | _ => exact .inl (Part.mem_of_sub k m nofun)
    · exact .inr e
  · rcases h.regs a with m | ⟨r, m, e⟩ | e
    · exact .inl (Part.mem_of_sub (p := .regs) k m nofun)
    · exact (Part.reg_of_sub k m).elim .inl fun x => .inr (.inl ⟨r, x, e⟩)
    · exact .inr (.inr e)

theorem Frame.trans {c : List Part} {s t u : State} (h : Frame c s t) (k : Frame c t u) : Frame c s u := by
  refine ⟨fun p => ?_, fun a => ?_⟩
  · rcases h.outside p with m | e
    · exact .inl m
    · exact (k.outside p).imp id (Part.same_trans e)
  · rcases h.regs a with m | m | e
    · exact .inl m
    · exact .inr (.inl m)
    · exact (k.regs a).imp id (Or.imp id fun x => x.trans e)

/-- A part outside the frame's list has not changed. -/
theorem Frame.same {c : List Part} {s t : State} (h : Frame c s t) (p : Part) (k : c.contains p = false) : p.same s t := by
  rcases h.outside p with m | e
  · simp [m] at k
  · exact e

/-- A frame, and the canonical form of memory and registers kept. -/
structure Kept (c : List Part) (s t : State) : Prop where
  frame : Frame c s t
  memWf : Memory.wf s.mem = true → Memory.wf t.mem = true
  regWf : Registers.wf s.regs = true → Registers.wf t.regs = true

theorem Kept.refl (c : List Part) (s : State) : Kept c s s := ⟨Frame.refl c s, id, id⟩

theorem Kept.trans {c : List Part} {s t u : State} (h : Kept c s t) (k : Kept c t u) : Kept c s u :=
  ⟨h.frame.trans k.frame, fun x => k.memWf (h.memWf x), fun x => k.regWf (h.regWf x)⟩

theorem Kept.mono {c d : List Part} {s t : State} (h : Kept c s t) (k : Part.sub c d = true) : Kept d s t :=
  ⟨h.frame.mono k, h.memWf, h.regWf⟩

/-- The last of several operations, with its own frame. -/
theorem Kept.via {c d : List Part} {s t u : State} (k : Kept d t u) (m : Part.sub d c = true) (h : Kept c s t) :
    Kept c s u := h.trans (k.mono m)

/-- A record update that leaves the queue, memory and registers alone: `_hp` finds the state updated. -/
theorem Kept.update {c : List Part} {s t : State} {a0 a1 a2 a3 a4 a5 a6 a7 a8 a9 a10 a11 a12 a13 a14 a15 a16 a17 a18 a19 a20 a21
    a22 a23 a24 a25 a26 a27 a28 a29 a30 a31 a32 a33 a34 a35 a36 a37 a38 a39 a40 a41 a42 a43 a44 a45 a46 a47 a48 a49 a50 a51 a52
    a53} (_hp : a53 = t.pending) (hm : a8 = t.mem) (hr : a7 = t.regs) (k : ∀ p, p ∈ c ∨ p.same t (State.mk a0 a1 a2 a3 a4 a5 a6
    a7 a8 a9 a10 a11 a12 a13 a14 a15 a16 a17 a18 a19 a20 a21 a22 a23 a24 a25 a26 a27 a28 a29 a30 a31 a32 a33 a34 a35 a36 a37 a38
    a39 a40 a41 a42 a43 a44 a45 a46 a47 a48 a49 a50 a51 a52 a53)) (h : Kept c s t) : Kept c s (State.mk a0 a1 a2 a3 a4 a5 a6 a7
    a8 a9 a10 a11 a12 a13 a14 a15 a16 a17 a18 a19 a20 a21 a22 a23 a24 a25 a26 a27 a28 a29 a30 a31 a32 a33 a34 a35 a36 a37 a38
    a39 a40 a41 a42 a43 a44 a45 a46 a47 a48 a49 a50 a51 a52 a53) :=
  ⟨h.frame.trans ⟨k, fun a => .inr (.inr (congrArg (FMap.get regDefault · a) hr))⟩, fun x => by rw [show State.mem _ = _ from hm]; exact h.memWf x,
    fun x => by rw [show State.regs _ = _ from hr]; exact h.regWf x⟩

theorem Part.pads_kept (t : State) (x) : Kept [.pads] t { t with pads := x } := by
  refine .update rfl rfl rfl (fun p => ?_) (.refl _ t)
  cases p <;> first | exact .inl (List.mem_of_elem_eq_true rfl) | exact .inr rfl | exact .inr True.intro

theorem Part.ldg_kept (t : State) (x) : Kept [.ldg] t { t with ldg := x } := by
  refine .update rfl rfl rfl (fun p => ?_) (.refl _ t)
  cases p <;> first | exact .inl (List.mem_of_elem_eq_true rfl) | exact .inr rfl | exact .inr True.intro

theorem Part.po_kept (t : State) (x) : Kept [.po] t { t with po := x } := by
  refine .update rfl rfl rfl (fun p => ?_) (.refl _ t)
  cases p <;> first | exact .inl (List.mem_of_elem_eq_true rfl) | exact .inr rfl | exact .inr True.intro

theorem Part.dbg_kept (t : State) (x) : Kept [.dbg] t { t with dbg := x } := by
  refine .update rfl rfl rfl (fun p => ?_) (.refl _ t)
  cases p <;> first | exact .inl (List.mem_of_elem_eq_true rfl) | exact .inr rfl | exact .inr True.intro

theorem Part.icheck_kept (t : State) (x) : Kept [.icheck] t { t with icheck := x } := by
  refine .update rfl rfl rfl (fun p => ?_) (.refl _ t)
  cases p <;> first | exact .inl (List.mem_of_elem_eq_true rfl) | exact .inr rfl | exact .inr True.intro

theorem Part.fcheck_kept (t : State) (x) : Kept [.fcheck] t { t with fcheck := x } := by
  refine .update rfl rfl rfl (fun p => ?_) (.refl _ t)
  cases p <;> first | exact .inl (List.mem_of_elem_eq_true rfl) | exact .inr rfl | exact .inr True.intro

theorem Kept.ite {c : List Part} {s t u : State} {q : Prop} [Decidable q] (h : Kept c s t) (k : Kept c s u) :
    Kept c s (if q then t else u) := by split <;> assumption

theorem foldl_kept {α : Type} {c : List Part} {f : State → α → State} (h : ∀ u x, Kept c u (f u x)) (l : List α) :
    ∀ s, Kept c s (l.foldl f s) := by
  induction l with
  | nil => exact Kept.refl c
  | cons x l ih => exact fun s => (h s x).trans (ih _)

theorem State.each_kept {α : Type} {c : List Part} {f : State → α → State} (h : ∀ u x, Kept c u (f u x)) (l : List α)
    (s : State) : Kept c s (s.each l f) := foldl_kept h l s

theorem Kept.each {α : Type} {c : List Part} {s t : State} {f : State → α → State} {l : List α}
    (h : ∀ u x, Kept c u (f u x)) (k : Kept c s t) : Kept c s (t.each l f) := k.trans (State.each_kept h l t)

theorem Kept.foldl {α : Type} {c : List Part} {s t : State} {f : State → α → State} {l : List α}
    (h : ∀ u x, Kept c u (f u x)) (k : Kept c s t) : Kept c s (l.foldl f t) := k.trans (foldl_kept h l t)

/-- A fold whose accumulator carries the state first. -/
theorem Kept.foldlFst {α β : Type} {c : List Part} {s : State} {f : State × β → α → State × β} {l : List α}
    {p : State × β} (h : ∀ p x, Kept c p.1 (f p x).1) (k : Kept c s p.1) : Kept c s (l.foldl f p).1 := by
  induction l generalizing p with
  | nil => exact k
  | cons x l ih => exact ih (k.trans (h p x))

/-- A pair taken apart. -/
theorem Kept.matchFst {β γ : Type} {c : List Part} {s : State} {q : State × β} {F : State → β → State × γ}
    (k : Kept c s q.1) (h : ∀ a b, Kept c s a → Kept c s (F a b).1) : Kept c s (match q with | (a, b) => F a b).1 :=
  h q.1 q.2 k

/-- A choice that gives an answer gives it on one side. -/
theorem some_ite {α : Type} {q P : Prop} [Decidable q] {x y : Option α} {o : α} (h : x = some o → P) (k : y = some o → P) :
    (if q then x else y) = some o → P := by split <;> assumption

/-- A command answers a next state, with a frame and the canonical form kept. -/
def KeptOut (c : List Part) (s : State) (o : Out) : Prop := ∃ t, o = .next t ∧ Kept c s t

theorem KeptOut.next {c : List Part} {s t : State} (h : Kept c s t) : KeptOut c s (.next t) := ⟨t, rfl, h⟩

theorem KeptOut.mono {c d : List Part} {s : State} {o : Out} (h : KeptOut c s o) (k : Part.sub c d = true) :
    KeptOut d s o := h.imp fun _ x => ⟨x.1, x.2.mono k⟩

theorem KeptOut.ite {c : List Part} {s : State} {o p : Out} {q : Prop} [Decidable q] (h : KeptOut c s o)
    (k : KeptOut c s p) : KeptOut c s (if q then o else p) := by split <;> assumption

/-- One answer of a choice among commands. -/
theorem KeptOut.leaf {c d : List Part} {s : State} {o p : Out} (h : KeptOut d s o) (k : Part.sub d c = true)
    (e : some o = some p) : KeptOut c s p := Option.some.inj e ▸ h.mono k

/-- A command run on a state that something has led to. -/
theorem KeptOut.after {c d : List Part} {s t : State} {o : Out} (k : KeptOut d t o) (m : Part.sub d c = true)
    (h : Kept c s t) : KeptOut c s o := (k.mono m).imp fun _ x => ⟨x.1, h.trans x.2⟩

end Sys2Proof.Machine
end

