-- ==== Sys2Proof/Laws/KeptOps.lean ====
section
/-!
SUPPORT. The frame of each operation of Sys2Proof/Machine/Ops.lean: the parts of the state that it can change.
-/
namespace Sys2Proof.Machine
set_option Elab.async false

theorem State.setReg_any (s : State) (a : Nat) (w : Word) : Kept [.regs] s (s.setReg a w) :=
  ⟨⟨fun p => by cases p <;> first | exact .inr rfl | exact .inr True.intro, fun _ => .inl (List.mem_of_elem_eq_true rfl)⟩, id, FMap.wf_set⟩
theorem State.setReg_kept {k : Reg} {a : Nat} (h : k.At a) (s : State) (w : Word) : Kept [.reg k] s (s.setReg a w) := by
  refine ⟨⟨fun p => by cases p <;> first | exact .inr rfl | exact .inr True.intro, fun b => .inr ?_⟩, id, FMap.wf_set⟩
  by_cases e : b = a
  · exact .inl ⟨k, List.mem_singleton.mpr rfl, e ▸ h⟩
  · exact .inr (FMap.get_set_ne e)

theorem State.setFld_kept {k : Reg} {a : Nat} (h : k.At a) (s : State) (f : Fld) (v : Nat) : Kept [.reg k] s (s.setFld a f v) :=
  State.setReg_kept h ..

theorem State.setFlag_kept {k : Reg} {a : Nat} (h : k.At a) (s : State) (f : Fld) : Kept [.reg k] s (s.setFlag a f) :=
  State.setFld_kept h ..

theorem State.clrFlag_kept {k : Reg} {a : Nat} (h : k.At a) (s : State) (f : Fld) : Kept [.reg k] s (s.clrFlag a f) :=
  State.setFld_kept h ..

theorem State.incFld_kept {k : Reg} {a : Nat} (h : k.At a) (s : State) (f : Fld) : Kept [.reg k] s (s.incFld a f) :=
  State.setFld_kept h ..

theorem State.incSat_kept {k : Reg} {a : Nat} (h : k.At a) (s : State) (f : Fld) : Kept [.reg k] s (s.incSat a f) :=
  State.setFld_kept h ..

theorem State.setSfld_kept {k : Reg} {a : Nat} (h : k.At a) (s : State) (f : Fld) (v : Int) : Kept [.reg k] s (s.setSfld a f v)
    :=
  State.setFld_kept h ..

theorem State.setBit_kept {k : Reg} {a : Nat} (h : k.At a) (s : State) (f : Fld) (n : Nat) : Kept [.reg k] s (s.setBit a f n) :=
  .ite (.refl _ _) (State.setFld_kept h ..)

theorem State.clrBit_kept {k : Reg} {a : Nat} (h : k.At a) (s : State) (f : Fld) (n : Nat) : Kept [.reg k] s (s.clrBit a f n) :=
  .ite (State.setFld_kept h ..) (.refl _ _)

theorem State.setUst_kept (s : State) (u : Nat) (st : UState) : Kept [.units] s (State.setUst s u st) := by
  unfold State.setUst
  try dsimp only
  repeat' first
    | with_reducible exact .refl _ _ | with_reducible assumption | with_reducible refine .ite ?_ ?_
    | (intro p; cases p <;> first | exact .inl (List.mem_of_elem_eq_true rfl) | exact .inr rfl | exact .inr True.intro) | split
    | dsimp only | with_reducible refine .update rfl rfl rfl ?_ ?_

theorem State.setByte_kept (s : State) (a : Nat) (b : Byte) : Kept [.mem] s (s.setByte a b) :=
  ⟨⟨fun p => by cases p <;> first | exact .inl (List.mem_of_elem_eq_true rfl) | exact .inr rfl | exact .inr True.intro, fun _ => .inr (.inr rfl)⟩, FMap.wf_set, id⟩

theorem State.setBytes_kept (l : List Byte) : ∀ (s : State) (a : Nat), Kept [.mem] s (s.setBytes a l) := by
  induction l with
  | nil => exact fun s _ => Kept.refl _ s
  | cons b l ih => exact fun s a => (State.setByte_kept s a b).trans (ih _ _)

theorem State.setErr_kept (s : State) (cw : Nat) (e : List (Nat × Byte)) : Kept [.err] s (State.setErr s cw e) := by
  unfold State.setErr
  try dsimp only
  repeat' first
    | with_reducible exact .refl _ _ | with_reducible assumption
    | (intro p; cases p <;> first | exact .inl (List.mem_of_elem_eq_true rfl) | exact .inr rfl | exact .inr True.intro)
    | dsimp only | with_reducible refine .update rfl rfl rfl ?_ ?_

theorem State.wroteCw_kept (s : State) (store cw : Nat) : Kept [.err, .reg .MEM_INJ] s (State.wroteCw s store cw) := by
  unfold State.wroteCw
  try dsimp only
  repeat' first
    | with_reducible exact .refl _ _ | with_reducible assumption | with_reducible refine .ite ?_ ?_
    | with_reducible apply Kept.via (State.setReg_kept (.MEM_INJ) ..) | with_reducible apply Kept.via (State.setErr_kept ..)
    | exact rfl

theorem State.wroteSlot_kept (s : State) (i : Nat) : Kept [.err, .reg .MEM_INJ] s (State.wroteSlot s i) := by
  unfold State.wroteSlot
  try dsimp only
  repeat' first
    | with_reducible exact .refl _ _ | with_reducible apply Kept.via (State.wroteCw_kept ..) | exact rfl

theorem State.journal_kept (s : State) (typ : Nat) (body : List Byte) : Kept (Part.journal []) s (State.journal s typ body) :=
    by
  unfold State.journal
  try dsimp only
  repeat' first
    | with_reducible exact .refl _ _ | with_reducible assumption | with_reducible refine .ite ?_ ?_
    | with_reducible apply Kept.via (State.incFld_kept (.PST_DLJ_CNT) ..)
    | with_reducible apply Kept.via (State.incSat_kept (.NVS_JLOST) ..)
    | with_reducible apply Kept.via (State.incSat_kept (.PST_DLJ_LOST) ..)
    | with_reducible apply Kept.via (State.setFlag_kept (.NVS_EVT) ..)
    | with_reducible apply Kept.via (State.setReg_kept (.NVS_JSEQ) ..)
    | (intro p; cases p <;> first | exact .inl (List.mem_of_elem_eq_true rfl) | exact .inr rfl | exact .inr True.intro)
    | exact rfl | split | dsimp only | with_reducible refine .update rfl rfl rfl ?_ ?_

theorem State.journalFault_kept (s : State) (unit cause : Nat) (record : List Byte) : Kept (Part.journal []) s
    (State.journalFault s unit cause record) := by
  unfold State.journalFault
  try dsimp only
  repeat' first
    | with_reducible exact .refl _ _ | with_reducible apply Kept.via (State.journal_kept ..) | exact rfl

theorem State.journalEvent_kept (s : State) (unit code : Nat) (data : List Byte) : Kept (Part.journal []) s (State.journalEvent
    s unit code data) := by
  unfold State.journalEvent
  try dsimp only
  repeat' first
    | with_reducible exact .refl _ _ | with_reducible apply Kept.via (State.journal_kept ..) | exact rfl

theorem State.hwAdd_kept (s : State) (e : HwEvent) : Kept [.po] s (State.hwAdd s e) := by
  unfold State.hwAdd
  try dsimp only
  repeat' first
    | with_reducible exact .refl _ _ | with_reducible assumption
    | (intro p; cases p <;> first | exact .inl (List.mem_of_elem_eq_true rfl) | exact .inr rfl | exact .inr True.intro)
    | dsimp only | with_reducible refine .update rfl rfl rfl ?_ ?_

theorem State.hwFault_kept (s : State) (u : Nat) : Kept [.po] s (State.hwFault s u) := by
  unfold State.hwFault
  try dsimp only
  repeat' first
    | with_reducible exact .refl _ _ | with_reducible assumption | with_reducible refine .ite ?_ ?_
    | with_reducible apply Kept.via (State.hwAdd_kept ..) | exact rfl

theorem State.hwMove_kept (s : State) (u : Nat) (froms : List UState) (dst : UState) : Kept [.po] s (State.hwMove s u froms
    dst) := by
  unfold State.hwMove
  try dsimp only
  repeat' first
    | with_reducible exact .refl _ _ | with_reducible assumption | with_reducible apply Kept.via (State.hwAdd_kept ..)
    | exact rfl

theorem State.hwFinish_kept (s : State) (key : Nat) (st : Status) (result : List Byte) : Kept [.po] s (State.hwFinish s key st
    result) := by
  unfold State.hwFinish
  try dsimp only
  repeat' first
    | with_reducible exact .refl _ _ | with_reducible assumption | with_reducible refine .ite ?_ ?_
    | with_reducible apply Kept.via (State.hwAdd_kept ..) | exact rfl

theorem State.finishOp_kept (s : State) (unit opcode : Nat) (st : Status) (result : List Byte) : Kept [.po] s (State.finishOp s
    unit opcode st result) := by
  unfold State.finishOp
  try dsimp only
  repeat' first
    | with_reducible exact .refl _ _ | with_reducible assumption | with_reducible apply Kept.via (State.hwFinish_kept ..)
    | exact rfl | split

theorem State.syncOutst_kept (s : State) : Kept [.reg .PST_OUTST] s (State.syncOutst s) := by
  unfold State.syncOutst
  try dsimp only
  repeat' first
    | with_reducible exact .refl _ _ | with_reducible apply Kept.via (State.setFld_kept (.PST_OUTST) ..) | exact rfl

theorem State.openOp_kept (s : State) (m : Msg) : Kept [.po, .reg .PST_OUTST] s (State.openOp s m).1 := by
  unfold State.openOp
  try dsimp only
  repeat' first
    | with_reducible exact .refl _ _ | with_reducible assumption | with_reducible apply Kept.via (State.syncOutst_kept ..)
    | (intro p; cases p <;> first | exact .inl (List.mem_of_elem_eq_true rfl) | exact .inr rfl | exact .inr True.intro)
    | exact rfl | dsimp only | with_reducible refine .update rfl rfl rfl ?_ ?_
theorem State.openOp_kept_eq {s : State} {m : Msg} {r_} {x_} (h : State.openOp s m = (r_, x_)) : Kept [.po, .reg .PST_OUTST] s
    r_ := by
  have k := State.openOp_kept s m
  rw [h] at k
  exact k

theorem State.closeOp_kept (s : State) (k : Nat) : Kept [.po, .reg .PST_OUTST] s (State.closeOp s k) := by
  unfold State.closeOp
  try dsimp only
  repeat' first
    | with_reducible exact .refl _ _ | with_reducible assumption | with_reducible apply Kept.via (State.syncOutst_kept ..)
    | (intro p; cases p <;> first | exact .inl (List.mem_of_elem_eq_true rfl) | exact .inr rfl | exact .inr True.intro)
    | exact rfl | dsimp only | with_reducible refine .update rfl rfl rfl ?_ ?_

theorem State.markStop_kept (s : State) (k : Nat) (why : StopKind) : Kept [.po] s (State.markStop s k why) := by
  unfold State.markStop
  try dsimp only
  repeat' first
    | with_reducible exact .refl _ _ | with_reducible assumption | with_reducible refine .ite ?_ ?_
    | (intro p; cases p <;> first | exact .inl (List.mem_of_elem_eq_true rfl) | exact .inr rfl | exact .inr True.intro) | split
    | dsimp only | with_reducible refine .update rfl rfl rfl ?_ ?_

theorem State.setTries_kept (s : State) (kind n v : Nat) : Kept [.linkTries] s (State.setTries s kind n v) := by
  unfold State.setTries
  try dsimp only
  repeat' first
    | with_reducible exact .refl _ _ | with_reducible assumption | with_reducible refine .ite ?_ ?_
    | (intro p; cases p <;> first | exact .inl (List.mem_of_elem_eq_true rfl) | exact .inr rfl | exact .inr True.intro) | split
    | dsimp only | with_reducible refine .update rfl rfl rfl ?_ ?_

theorem State.linkDone_kept (s : State) (kind n : Nat) : Kept [.linkTries] s (State.linkDone s kind n) := by
  unfold State.linkDone
  try dsimp only
  repeat' first
    | with_reducible exact .refl _ _ | with_reducible apply Kept.via (State.setTries_kept ..) | exact rfl

theorem State.setPigeon_kept (s : State) (n : Nat) (p : Pigeon) : Kept [.po] s (State.setPigeon s n p) := by
  unfold State.setPigeon
  try dsimp only
  repeat' first
    | with_reducible exact .refl _ _ | with_reducible assumption
    | (intro p; cases p <;> first | exact .inl (List.mem_of_elem_eq_true rfl) | exact .inr rfl | exact .inr True.intro)
    | dsimp only | with_reducible refine .update rfl rfl rfl ?_ ?_

theorem State.setSlot_kept (s : State) (i : Nat) (x : Slot) : Kept [.po] s (State.setSlot s i x) := by
  unfold State.setSlot
  try dsimp only
  repeat' first
    | with_reducible exact .refl _ _ | with_reducible assumption
    | (intro p; cases p <;> first | exact .inl (List.mem_of_elem_eq_true rfl) | exact .inr rfl | exact .inr True.intro)
    | dsimp only | with_reducible refine .update rfl rfl rfl ?_ ?_

theorem State.syncHeld_kept (s : State) (n : Nat) : Kept [.reg .PHn_STAT] s (State.syncHeld s n) := by
  unfold State.syncHeld
  try dsimp only
  repeat' first
    | with_reducible exact .refl _ _ | with_reducible assumption
    | with_reducible apply Kept.via (State.setFld_kept (.PHn_STAT _) ..) | exact rfl

theorem State.signalAll_kept (s : State) (n : Nat) : Kept [.po, .reg .PHn_STAT] s (State.signalAll s n) := by
  unfold State.signalAll
  try dsimp only
  repeat' first
    | with_reducible exact .refl _ _ | with_reducible assumption | with_reducible apply Kept.via (State.setPigeon_kept ..)
    | with_reducible apply Kept.via (State.syncHeld_kept ..) | exact rfl

theorem State.placeReceipt_kept (s : State) (n : Nat) (r : Receipt) : Kept [.err, .po, .reg .PHn_TAIL, .reg .PHn_STAT, .reg
    .MEM_INJ] s (State.placeReceipt s n r) := by
  unfold State.placeReceipt
  try dsimp only
  repeat' first
    | with_reducible exact .refl _ _ | with_reducible assumption | with_reducible refine .ite ?_ ?_
    | with_reducible apply Kept.via (State.setFld_kept (.PHn_TAIL _) ..)
    | with_reducible apply Kept.via (State.wroteSlot_kept ..) | with_reducible apply Kept.via (State.setSlot_kept ..)
    | with_reducible apply Kept.via (State.syncHeld_kept ..) | with_reducible apply Kept.via (State.signalAll_kept ..)
    | exact rfl

theorem State.deadLetter_kept (s : State) (item : List Byte) (st : Status) (ph stage : Nat) : Kept (Part.journal []) s
    (State.deadLetter s item st ph stage) := by
  unfold State.deadLetter
  try dsimp only
  repeat' first
    | with_reducible exact .refl _ _ | with_reducible assumption | with_reducible apply Kept.via (State.journal_kept ..)
    | exact rfl

theorem State.sendReceipt_kept (s : State) (ph cls : Nat) (r : Receipt) : Kept (Part.receipt []) s (State.sendReceipt s ph cls
    r).1 := by
  unfold State.sendReceipt
  try dsimp only
  repeat' first
    | with_reducible exact .refl _ _ | with_reducible assumption | with_reducible refine .ite ?_ ?_
    | with_reducible apply Kept.via (State.setFlag_kept (.PHn_STAT _) ..)
    | with_reducible apply Kept.via (State.placeReceipt_kept ..) | with_reducible apply Kept.via (State.deadLetter_kept ..)
    | exact rfl | split
theorem State.sendReceipt_kept_eq {s : State} {ph cls : Nat} {r : Receipt} {r_} {x_} (h : State.sendReceipt s ph cls r = (r_,
    x_)) : Kept (Part.receipt []) s r_ := by
  have k := State.sendReceipt_kept s ph cls r
  rw [h] at k
  exact k

theorem State.issueReceipt_kept (s : State) (src : Src) (flags : Nat) (r : Receipt) : Kept (Part.receipt []) s
    (State.issueReceipt s src flags r).1 := by
  unfold State.issueReceipt
  try dsimp only
  repeat' first
    | with_reducible exact .refl _ _ | with_reducible assumption | with_reducible refine .ite ?_ ?_
    | with_reducible apply Kept.via (State.sendReceipt_kept ..)
    | with_reducible apply Kept.via (State.sendReceipt_kept_eq (by assumption)) | exact rfl | split
theorem State.issueReceipt_kept_eq {s : State} {src : Src} {flags : Nat} {r : Receipt} {r_} {x_} (h : State.issueReceipt s src
    flags r = (r_, x_)) : Kept (Part.receipt []) s r_ := by
  have k := State.issueReceipt_kept s src flags r
  rw [h] at k
  exact k

theorem State.captureWerr_kept (s : State) (st : Status) (addr : Nat) : Kept [.po, .reg .SYS_WERR_CODE] s (State.captureWerr s
    st addr) := by
  unfold State.captureWerr
  try dsimp only
  repeat' first
    | with_reducible exact .refl _ _ | with_reducible assumption
    | with_reducible apply Kept.via (State.setReg_kept (.SYS_WERR_CODE) ..)
    | (intro p; cases p <;> first | exact .inl (List.mem_of_elem_eq_true rfl) | exact .inr rfl | exact .inr True.intro)
    | exact rfl | dsimp only | with_reducible refine .update rfl rfl rfl ?_ ?_

theorem State.captureMerr_kept (s : State) (st : Status) (addr : Nat) : Kept [.po, .reg .PST_MERR_CODE] s (State.captureMerr s
    st addr) := by
  unfold State.captureMerr
  try dsimp only
  repeat' first
    | with_reducible exact .refl _ _ | with_reducible assumption
    | with_reducible apply Kept.via (State.setReg_kept (.PST_MERR_CODE) ..)
    | (intro p; cases p <;> first | exact .inl (List.mem_of_elem_eq_true rfl) | exact .inr rfl | exact .inr True.intro)
    | exact rfl | dsimp only | with_reducible refine .update rfl rfl rfl ?_ ?_

theorem State.respond_kept (s : State) (v : Nat) : Kept [.resp] s (State.respond s v) := by
  unfold State.respond
  try dsimp only
  repeat' first
    | with_reducible exact .refl _ _ | with_reducible assumption
    | (intro p; cases p <;> first | exact .inl (List.mem_of_elem_eq_true rfl) | exact .inr rfl | exact .inr True.intro)
    | dsimp only | with_reducible refine .update rfl rfl rfl ?_ ?_

theorem State.sbFail_kept (s : State) (st : Status) : Kept [.dbg] s (State.sbFail s st) := by
  unfold State.sbFail
  try dsimp only
  repeat' first
    | with_reducible exact .refl _ _ | with_reducible assumption
    | (intro p; cases p <;> first | exact .inl (List.mem_of_elem_eq_true rfl) | exact .inr rfl | exact .inr True.intro)
    | dsimp only | with_reducible refine .update rfl rfl rfl ?_ ?_

theorem State.refuse_kept (s : State) (st : Status) (addr : Nat) : Kept [.po, .resp, .reg .SYS_WERR_CODE] s (State.refuse s st
    addr) := by
  unfold State.refuse
  try dsimp only
  repeat' first
    | with_reducible exact .refl _ _ | with_reducible assumption | with_reducible apply Kept.via (State.captureWerr_kept ..)
    | (intro p; cases p <;> first | exact .inl (List.mem_of_elem_eq_true rfl) | exact .inr rfl | exact .inr True.intro)
    | exact rfl | dsimp only | with_reducible refine .update rfl rfl rfl ?_ ?_

end Sys2Proof.Machine
end

