-- ==== Sys2Proof/Laws/KeptDrive.lean ====
section
/-!
SUPPORT. The frame of each operation of Sys2Proof/Machine/Drive.lean: the parts of the state that it can change.
-/
namespace Sys2Proof.Machine
set_option Elab.async false

theorem State.setE_kept (s : State) (n : Nat) (x : Engine) : Kept [.eng] s (State.setE s n x) := by
  unfold State.setE
  try dsimp only
  repeat' first
    | with_reducible exact .refl _ _ | with_reducible assumption
    | (intro p; cases p <;> first | exact .inl (List.mem_of_elem_eq_true rfl) | exact .inr rfl | exact .inr True.intro)
    | dsimp only | with_reducible refine .update rfl rfl rfl ?_ ?_

theorem State.updE_kept (s : State) (n : Nat) (f : Engine → Engine) : Kept [.eng] s (State.updE s n f) := by
  unfold State.updE
  try dsimp only
  repeat' first
    | with_reducible exact .refl _ _ | with_reducible apply Kept.via (State.setE_kept ..) | exact rfl

theorem State.updTr_kept (s : State) (f : Nat) (g : TraSt → TraSt) : Kept [.tra] s (State.updTr s f g) := by
  unfold State.updTr
  try dsimp only
  repeat' first
    | with_reducible exact .refl _ _ | with_reducible assumption
    | (intro p; cases p <;> first | exact .inl (List.mem_of_elem_eq_true rfl) | exact .inr rfl | exact .inr True.intro)
    | dsimp only | with_reducible refine .update rfl rfl rfl ?_ ?_

theorem State.trFlag_kept (s : State) (f bit : Nat) : Kept [.tra] s (State.trFlag s f bit) := by
  unfold State.trFlag
  try dsimp only
  repeat' first
    | with_reducible exact .refl _ _ | with_reducible assumption | with_reducible refine .ite ?_ ?_
    | with_reducible apply Kept.via (State.updTr_kept ..) | exact rfl

theorem State.clipFlags_kept (s : State) (k : Nat) : Kept [.tra] s (State.clipFlags s k) := by
  unfold State.clipFlags
  try dsimp only
  repeat' first
    | with_reducible exact .refl _ _ | with_reducible assumption | with_reducible refine .ite ?_ ?_
    | with_reducible apply Kept.via (State.trFlag_kept ..) | with_reducible refine .each (fun _ _ => ?_) ?_ | exact rfl

theorem State.updHl_kept (s : State) (f : Nat) (g : HlvSt → HlvSt) : Kept [.hlv] s (State.updHl s f g) := by
  unfold State.updHl
  try dsimp only
  repeat' first
    | with_reducible exact .refl _ _ | with_reducible assumption
    | (intro p; cases p <;> first | exact .inl (List.mem_of_elem_eq_true rfl) | exact .inr rfl | exact .inr True.intro)
    | dsimp only | with_reducible refine .update rfl rfl rfl ?_ ?_

theorem State.updLeg_kept (s : State) (n : Nat) (g : LegSt → LegSt) : Kept [.mdl] s (State.updLeg s n g) := by
  unfold State.updLeg
  try dsimp only
  repeat' first
    | with_reducible exact .refl _ _ | with_reducible assumption
    | (intro p; cases p <;> first | exact .inl (List.mem_of_elem_eq_true rfl) | exact .inr rfl | exact .inr True.intro)
    | dsimp only | with_reducible refine .update rfl rfl rfl ?_ ?_

theorem State.setShadow_kept (s : State) (n : Nat) (v : Option Int) : Kept [.mdl] s (State.setShadow s n v) := by
  unfold State.setShadow
  try dsimp only
  repeat' first
    | with_reducible exact .refl _ _ | with_reducible assumption
    | (intro p; cases p <;> first | exact .inl (List.mem_of_elem_eq_true rfl) | exact .inr rfl | exact .inr True.intro)
    | dsimp only | with_reducible refine .update rfl rfl rfl ?_ ?_

theorem State.setDuty_kept (s : State) (n : Nat) (v : Option Int) : Kept [.mdl] s (State.setDuty s n v) := by
  unfold State.setDuty
  try dsimp only
  repeat' first
    | with_reducible exact .refl _ _ | with_reducible assumption
    | (intro p; cases p <;> first | exact .inl (List.mem_of_elem_eq_true rfl) | exact .inr rfl | exact .inr True.intro)
    | dsimp only | with_reducible refine .update rfl rfl rfl ?_ ?_

theorem State.setEdges_kept (s : State) (n : Nat) (e : Edges) : Kept [.mdl] s (State.setEdges s n e) := by
  unfold State.setEdges
  try dsimp only
  repeat' first
    | with_reducible exact .refl _ _ | with_reducible assumption
    | (intro p; cases p <;> first | exact .inl (List.mem_of_elem_eq_true rfl) | exact .inr rfl | exact .inr True.intro)
    | dsimp only | with_reducible refine .update rfl rfl rfl ?_ ?_

theorem State.updGl_kept (s : State) (k : Nat) (g : GlLink → GlLink) : Kept [.mdl] s (State.updGl s k g) := by
  unfold State.updGl
  try dsimp only
  repeat' first
    | with_reducible exact .refl _ _ | with_reducible assumption
    | (intro p; cases p <;> first | exact .inl (List.mem_of_elem_eq_true rfl) | exact .inr rfl | exact .inr True.intro)
    | dsimp only | with_reducible refine .update rfl rfl rfl ?_ ?_

theorem State.updLnk_kept (s : State) (k : Nat) (g : LinkSt → LinkSt) : Kept [.ldg] s (State.updLnk s k g) := by
  unfold State.updLnk
  try dsimp only
  repeat' first
    | with_reducible exact .refl _ _ | with_reducible assumption
    | (intro p; cases p <;> first | exact .inl (List.mem_of_elem_eq_true rfl) | exact .inr rfl | exact .inr True.intro)
    | dsimp only | with_reducible refine .update rfl rfl rfl ?_ ?_

theorem State.updPrt_kept (s : State) (p : Nat) (g : PortSt → PortSt) : Kept [.ldg] s (State.updPrt s p g) := by
  unfold State.updPrt
  try dsimp only
  repeat' first
    | with_reducible exact .refl _ _ | with_reducible assumption
    | (intro p; cases p <;> first | exact .inl (List.mem_of_elem_eq_true rfl) | exact .inr rfl | exact .inr True.intro)
    | dsimp only | with_reducible refine .update rfl rfl rfl ?_ ?_

theorem State.updFp_kept (s : State) (f : Nat) (g : FnPow → FnPow) : Kept [.ldg] s (State.updFp s f g) := by
  unfold State.updFp
  try dsimp only
  repeat' first
    | with_reducible exact .refl _ _ | with_reducible assumption
    | (intro p; cases p <;> first | exact .inl (List.mem_of_elem_eq_true rfl) | exact .inr rfl | exact .inr True.intro)
    | dsimp only | with_reducible refine .update rfl rfl rfl ?_ ?_

theorem State.updAc_kept (s : State) (k : Nat) (g : ActSt → ActSt) : Kept [.act] s (State.updAc s k g) := by
  unfold State.updAc
  try dsimp only
  repeat' first
    | with_reducible exact .refl _ _ | with_reducible assumption
    | (intro p; cases p <;> first | exact .inl (List.mem_of_elem_eq_true rfl) | exact .inr rfl | exact .inr True.intro)
    | dsimp only | with_reducible refine .update rfl rfl rfl ?_ ?_

theorem State.updGb_kept (s : State) (g : GbxSt → GbxSt) : Kept [.gbx] s (State.updGb s g) := by
  unfold State.updGb
  try dsimp only
  repeat' first
    | with_reducible exact .refl _ _ | with_reducible assumption
    | (intro p; cases p <;> first | exact .inl (List.mem_of_elem_eq_true rfl) | exact .inr rfl | exact .inr True.intro)
    | dsimp only | with_reducible refine .update rfl rfl rfl ?_ ?_

theorem State.setLock_kept (s : State) (n : Nat) (l : Lock) : Kept [.pads] s (State.setLock s n l) := by
  unfold State.setLock
  try dsimp only
  repeat' first
    | with_reducible exact .refl _ _ | with_reducible assumption
    | (intro p; cases p <;> first | exact .inl (List.mem_of_elem_eq_true rfl) | exact .inr rfl | exact .inr True.intro)
    | dsimp only | with_reducible refine .update rfl rfl rfl ?_ ?_

theorem State.setSoft_kept (s : State) (n : Nat) (b : Bool) : Kept [.pads] s (State.setSoft s n b) := by
  unfold State.setSoft
  try dsimp only
  repeat' first
    | with_reducible exact .refl _ _ | with_reducible assumption | with_reducible refine .ite ?_ ?_
    | (intro p; cases p <;> first | exact .inl (List.mem_of_elem_eq_true rfl) | exact .inr rfl | exact .inr True.intro) | split
    | dsimp only | with_reducible refine .update rfl rfl rfl ?_ ?_

theorem State.setGf_kept (s : State) (n : Nat) (b : Bool) : Kept [.gf] s (State.setGf s n b) := by
  unfold State.setGf
  try dsimp only
  repeat' first
    | with_reducible exact .refl _ _ | with_reducible assumption
    | (intro p; cases p <;> first | exact .inl (List.mem_of_elem_eq_true rfl) | exact .inr rfl | exact .inr True.intro)
    | dsimp only | with_reducible refine .update rfl rfl rfl ?_ ?_

theorem State.setLatch_kept (s : State) (n c : Nat) : Kept [.pads] s (State.setLatch s n c) := by
  unfold State.setLatch
  try dsimp only
  repeat' first
    | with_reducible exact .refl _ _ | with_reducible assumption
    | (intro p; cases p <;> first | exact .inl (List.mem_of_elem_eq_true rfl) | exact .inr rfl | exact .inr True.intro)
    | dsimp only | with_reducible refine .update rfl rfl rfl ?_ ?_

theorem State.feFlag_kept (s : State) (n : Nat) (f : Fld) : Kept [.eng, .reg .FEn_EVT] s (State.feFlag s n f) := by
  unfold State.feFlag
  try dsimp only
  repeat' first
    | with_reducible exact .refl _ _ | with_reducible assumption | with_reducible refine .ite ?_ ?_
    | with_reducible apply Kept.via (State.setFlag_kept (.FEn_EVT _) ..) | with_reducible apply Kept.via (State.updE_kept ..)
    | exact rfl

theorem State.draw_kept (s : State) : Kept [.tick] s (State.draw s).2 := by
  unfold State.draw
  try dsimp only
  repeat' first
    | with_reducible exact .refl _ _ | with_reducible assumption
    | (intro p; cases p <;> first | exact .inl (List.mem_of_elem_eq_true rfl) | exact .inr rfl | exact .inr True.intro)
    | dsimp only | with_reducible refine .update rfl rfl rfl ?_ ?_
theorem State.draw_kept_eq {s : State} {r_} {x_} (h : State.draw s = (x_, r_)) : Kept [.tick] s r_ := by
  have k := State.draw_kept s
  rw [h] at k
  exact k

theorem State.drawN_kept (n : Nat) : ∀ s : State, Kept [.tick] s (s.drawN n).2 := by
  induction n with
  | zero => exact Kept.refl _
  | succ n ih => exact fun s => (State.draw_kept s).trans (ih _)
theorem State.drawN_kept_eq {n : Nat} {s r : State} {x} (h : s.drawN n = (x, r)) : Kept [.tick] s r := by
  have k := State.drawN_kept n s
  rw [h] at k
  exact k

theorem State.journalFree_kept (s : State) (unit : Nat) : Kept (Part.journal [.tick]) s (State.journalFree s unit) := by
  unfold State.journalFree
  try dsimp only
  repeat' first
    | with_reducible exact .refl _ _ | with_reducible assumption | with_reducible apply Kept.via (State.journalEvent_kept ..)
    | with_reducible apply Kept.via (State.drawN_kept ..) | with_reducible apply Kept.via (State.drawN_kept_eq (by assumption))
    | exact rfl

theorem State.queueWithdrawn_kept (s : State) (n f : Nat) (x : Notice) : Kept [.ldg, .reg .LDG_EVT, .reg .LDG_WQSTAT] s
    (State.queueWithdrawn s n f x) := by
  unfold State.queueWithdrawn
  try dsimp only
  repeat' first
    | with_reducible exact .refl _ _ | with_reducible assumption | with_reducible refine .ite ?_ ?_
    | with_reducible apply Kept.via (State.incSat_kept (.LDG_WQSTAT) ..)
    | with_reducible apply Kept.via (State.setFlag_kept (.LDG_EVT) ..)
    | with_reducible apply Kept.via (State.setFld_kept (.LDG_WQSTAT) ..)
    | (intro p; cases p <;> first | exact .inl (List.mem_of_elem_eq_true rfl) | exact .inr rfl | exact .inr True.intro)
    | exact rfl | split | dsimp only | with_reducible refine .update rfl rfl rfl ?_ ?_

theorem State.withdrawEngine_kept (s : State) (f n : Nat) : Kept [.eng, .ldg, .reg .FEn_EVT, .reg .FEn_WDCNT, .reg .LDG_EVT,
    .reg .LDG_WQSTAT] s (State.withdrawEngine s f n) := by
  unfold State.withdrawEngine
  try dsimp only
  repeat' first
    | with_reducible exact .refl _ _ | with_reducible assumption
    | with_reducible apply Kept.via (State.incFld_kept (.FEn_WDCNT _) ..) | with_reducible apply Kept.via (State.updE_kept ..)
    | with_reducible apply Kept.via (State.feFlag_kept ..) | with_reducible apply Kept.via (State.queueWithdrawn_kept ..)
    | with_reducible refine .each (fun _ _ => ?_) ?_ | exact rfl

theorem State.withdraw_kept (s : State) (f : Nat) : Kept [.eng, .mdl, .ldg, .reg .FEn_EVT, .reg .FEn_WDCNT, .reg .LDG_EVT, .reg
    .LDG_WQSTAT, .reg .LDG_PNf] s (State.withdraw s f) := by
  unfold State.withdraw
  try dsimp only
  repeat' first
    | with_reducible exact .refl _ _ | with_reducible assumption | with_reducible refine .ite ?_ ?_
    | with_reducible apply Kept.via (State.setReg_kept (.LDG_PNf _) ..)
    | with_reducible apply Kept.via (State.setShadow_kept ..) | with_reducible apply Kept.via (State.updFp_kept ..)
    | with_reducible apply Kept.via (State.withdrawEngine_kept ..) | with_reducible refine .each (fun _ _ => ?_) ?_ | exact rfl

theorem State.withdrawOnce_kept (s : State) (f : Nat) : Kept [.eng, .mdl, .ldg, .reg .FEn_EVT, .reg .FEn_WDCNT, .reg .LDG_EVT,
    .reg .LDG_WQSTAT, .reg .LDG_PNf] s (State.withdrawOnce s f) := by
  unfold State.withdrawOnce
  try dsimp only
  repeat' first
    | with_reducible exact .refl _ _ | with_reducible assumption | with_reducible refine .ite ?_ ?_
    | with_reducible apply Kept.via (State.withdraw_kept ..) | exact rfl

theorem State.fnOff_kept (s : State) (f : Nat) : Kept [.mdl, .ldg] s (State.fnOff s f) := by
  unfold State.fnOff
  try dsimp only
  repeat' first
    | with_reducible exact .refl _ _ | with_reducible assumption | with_reducible apply Kept.via (State.setShadow_kept ..)
    | with_reducible apply Kept.via (State.setDuty_kept ..) | with_reducible apply Kept.via (State.updFp_kept ..)
    | with_reducible refine .each (fun _ _ => ?_) ?_ | exact rfl

end Sys2Proof.Machine
end

