-- ==== Sys2Proof/Laws/KeptAccess.lean ====
section
/-!
SUPPORT. The frame of each operation of Sys2Proof/Machine/Access.lean: the parts of the state that it can change.
-/
namespace Sys2Proof.Machine
set_option Elab.async false

theorem State.plainWrite_any (s : State) (a : Nat) (v : Word) : Kept [.regs] s (s.plainWrite a v) := by
  unfold State.plainWrite
  split
  · exact .refl _ _
  · exact State.setReg_any ..
theorem State.plainWrite_kept {k : Reg} {a : Nat} (h : k.At a) (s : State) (v : Word) : Kept [.reg k] s (s.plainWrite a v) := by
  unfold State.plainWrite
  split
  · exact .refl _ _
  · exact State.setReg_kept h ..

theorem State.tryWrite_kept {c : List Part} {s t : State} {a : Nat} {v : Word} {l : List Status} {f : State → State}
    (m : Part.sub [.reg .SYS_WERR_CODE, .po, .resp] c = true) (h : ∀ u, Kept c u (f u)) (k : Kept c s t) :
    Kept c s (t.tryWrite a v l f) := by
  unfold State.tryWrite
  split
  · exact .via (State.refuse_kept ..) (Part.sub_trans rfl m) k
  · exact .via (State.respond_kept ..) (Part.sub_trans rfl m) (k.trans (h t))

theorem State.plainRead_kept (s : State) (addr : Nat) : Kept [.po, .resp, .reg .SYS_WERR_CODE] s (State.plainRead s addr) := by
  unfold State.plainRead
  try dsimp only
  repeat' first
    | with_reducible exact .refl _ _ | with_reducible assumption | with_reducible refine .ite ?_ ?_
    | with_reducible apply Kept.via (State.respond_kept ..) | with_reducible apply Kept.via (State.refuse_kept ..)
    | with_reducible refine .foldl (fun _ _ => ?_) ?_ | exact rfl | split

end Sys2Proof.Machine
end

