-- ==== Sys2Proof/Laws/KeptLetters.lean ====
section
/-!
SUPPORT. The frame of each operation of Sys2Proof/Machine/Letters.lean: the parts of the state that it can change.
-/
namespace Sys2Proof.Machine
set_option Elab.async false

theorem refuseLetter_kept (s : State) (m : Msg) (st : Status) (detail : List Byte) : Kept (Part.receipt [.reg .PST_MERR_CODE])
    s (refuseLetter s m st detail) := by
  unfold refuseLetter
  try dsimp only
  repeat' first
    | with_reducible exact .refl _ _ | with_reducible assumption | with_reducible apply Kept.via (State.deadLetter_kept ..)
    | with_reducible apply Kept.via (State.issueReceipt_kept ..)
    | with_reducible apply Kept.via (State.issueReceipt_kept_eq (by assumption))
    | with_reducible apply Kept.via (State.captureMerr_kept ..) | exact rfl | split

theorem State.defer_kept (s : State) (d : Option Deferred) (p : Placed) : Kept [.po] s (State.defer s d p) := by
  unfold State.defer
  try dsimp only
  repeat' first
    | with_reducible exact .refl _ _ | with_reducible assumption
    | (intro p; cases p <;> first | exact .inl (List.mem_of_elem_eq_true rfl) | exact .inr rfl | exact .inr True.intro) | split
    | dsimp only | with_reducible refine .update rfl rfl rfl ?_ ?_

theorem acceptLetter_kept (s : State) (m : Msg) (a : Ans) : Kept (Part.receipt []) s (acceptLetter s m a) := by
  unfold acceptLetter
  try dsimp only
  repeat' first
    | with_reducible exact .refl _ _ | with_reducible assumption | with_reducible apply Kept.via (State.issueReceipt_kept ..)
    | with_reducible apply Kept.via (State.issueReceipt_kept_eq (by assumption))
    | with_reducible apply Kept.via (State.defer_kept ..) | exact rfl | split

theorem deliver_kept {c : List Part} {sp : LetterSpec} (m : Part.sub (Part.receipt [.reg .PST_MERR_CODE, .reg .PST_OUTST]) c =
    true)
    (h : ∀ s m k, Kept c s (sp.run s m k).1) (s : State) (l : Msg) : Kept c s (deliver sp s l) := by
  have e (s : State) (l : Msg) (a : Ans) : Kept c s (acceptLetter s l a) := (acceptLetter_kept ..).mono (Part.sub_trans rfl m)
  have o (s : State) (l : Msg) : Kept c s (s.openOp l).1 := (State.openOp_kept ..).mono (Part.sub_trans rfl m)
  have x (s : State) (k : Nat) : Kept c s (s.closeOp k) := (State.closeOp_kept ..).mono (Part.sub_trans rfl m)
  unfold deliver
  split
  · exact (refuseLetter_kept ..).mono (Part.sub_trans rfl m)
  · split
    · have q := (o s l).trans (h (s.openOp l).1 l (s.openOp l).2)
      dsimp only
      split
      · exact q.trans (e ..)
      · exact q.trans (e ..)
      · exact (q.trans (x ..)).trans (e ..)
    · exact (h s l 0).trans (e ..)

theorem doneWith_kept (s : State) : Kept [] s (doneWith s).1 := by
  unfold doneWith
  try dsimp only
  repeat' first
    | with_reducible exact .refl _ _
theorem doneWith_kept_eq {s : State} {r_} {x_} (h : doneWith s = (r_, x_)) : Kept [] s r_ := by
  have k := doneWith_kept s
  rw [h] at k
  exact k

theorem acceptedWith_kept (s : State) : Kept [] s (acceptedWith s).1 := by
  unfold acceptedWith
  try dsimp only
  repeat' first
    | with_reducible exact .refl _ _
theorem acceptedWith_kept_eq {s : State} {r_} {x_} (h : acceptedWith s = (r_, x_)) : Kept [] s r_ := by
  have k := acceptedWith_kept s
  rw [h] at k
  exact k

theorem finalReceipt_kept (s : State) (k : Nat) (st : Status) (result : List Byte) : Kept (Part.receipt [.reg .PST_OUTST]) s
    (finalReceipt s k st result) := by
  unfold finalReceipt
  try dsimp only
  repeat' first
    | with_reducible exact .refl _ _ | with_reducible assumption | with_reducible refine .ite ?_ ?_
    | with_reducible apply Kept.via (State.closeOp_kept ..) | with_reducible apply Kept.via (State.deadLetter_kept ..)
    | with_reducible apply Kept.via (State.issueReceipt_kept ..)
    | with_reducible apply Kept.via (State.issueReceipt_kept_eq (by assumption)) | exact rfl | split

theorem endOpsOf_kept (s : State) (unit : Nat) (st : Status) : Kept (Part.receipt [.reg .PST_OUTST]) s (endOpsOf s unit st) :=
    by
  unfold endOpsOf
  try dsimp only
  repeat' first
    | with_reducible exact .refl _ _ | with_reducible assumption | with_reducible apply Kept.via (finalReceipt_kept ..)
    | with_reducible refine .each (fun _ _ => ?_) ?_ | exact rfl

theorem intake_kept (s : State) (ph : Nat) (l : Letter) (frankOk : Bool) : Kept (Part.receipt [.reg .PHn_SEQ]) s (intake s ph l
    frankOk) := by
  unfold intake
  try dsimp only
  repeat' first
    | with_reducible exact .refl _ _ | with_reducible assumption | with_reducible refine .ite ?_ ?_
    | with_reducible apply Kept.via (State.setFlag_kept (.PHn_STAT _) ..)
    | with_reducible apply Kept.via (State.setFld_kept (.PHn_SEQ _) ..)
    | with_reducible apply Kept.via (State.setFld_kept (.PHn_STAT _) ..)
    | with_reducible apply Kept.via (State.setFld_kept (.PHn_TAIL _) ..)
    | with_reducible apply Kept.via (State.wroteSlot_kept ..) | with_reducible apply Kept.via (State.setSlot_kept ..)
    | with_reducible apply Kept.via (State.deadLetter_kept ..) | with_reducible apply Kept.via (State.sendReceipt_kept ..)
    | with_reducible apply Kept.via (State.sendReceipt_kept_eq (by assumption)) | exact rfl | split

end Sys2Proof.Machine
end

