-- ==== Sys2Proof/Laws/KeptSafeOps.lean ====
section
/-!
SUPPORT. The frame of each operation of Sys2Proof/Machine/SafeOps.lean: the parts of the state that it can change.
-/
namespace Sys2Proof.Machine
set_option Elab.async false

theorem State.setSsmPat_kept (s : State) (f v : Nat) : Kept [.reg .SSM_PAT0, .reg .SSM_PAT1] s (State.setSsmPat s f v) := by
  unfold State.setSsmPat
  try dsimp only
  repeat' first
    | with_reducible exact .refl _ _ | with_reducible assumption | with_reducible refine .ite ?_ ?_
    | with_reducible apply Kept.via (State.setFld_kept (.SSM_PAT0) ..)
    | with_reducible apply Kept.via (State.setFld_kept (.SSM_PAT1) ..) | exact rfl

theorem State.ssmRefresh_kept (s : State) : Kept [.eng, .mdl, .ldg, .ssm, .reg .FEn_EVT, .reg .FEn_WDCNT, .reg .LDG_EVT, .reg
    .LDG_WQSTAT, .reg .LDG_PNf, .reg .SSM_STATE, .reg .SSM_PAT0, .reg .SSM_PAT1, .reg .SSM_PATX] s (State.ssmRefresh s) := by
  unfold State.ssmRefresh
  try dsimp only
  repeat' first
    | with_reducible exact .refl _ _ | with_reducible assumption | with_reducible refine .ite ?_ ?_
    | with_reducible apply Kept.via (State.setFld_kept (.SSM_PATX) ..)
    | with_reducible apply Kept.via (State.setFld_kept (.SSM_STATE) ..)
    | with_reducible apply Kept.via (State.setShadow_kept ..) | with_reducible apply Kept.via (State.setDuty_kept ..)
    | with_reducible apply Kept.via (State.withdraw_kept ..) | with_reducible apply Kept.via (State.setSsmPat_kept ..)
    | with_reducible refine .each (fun _ _ => ?_) ?_
    | (intro p; cases p <;> first | exact .inl (List.mem_of_elem_eq_true rfl) | exact .inr rfl | exact .inr True.intro)
    | exact rfl | split | dsimp only | with_reducible refine .update rfl rfl rfl ?_ ?_

theorem State.ssmRaise_kept (s : State) (c : Nat) : Kept [.eng, .mdl, .ldg, .ssm, .reg .FEn_EVT, .reg .FEn_WDCNT, .reg
    .LDG_EVT, .reg .LDG_WQSTAT, .reg .LDG_PNf, .reg .SSM_STATE, .reg .SSM_CAUSE, .reg .SSM_EVT, .reg .SSM_PAT0, .reg .SSM_PAT1,
    .reg .SSM_PATX] s (State.ssmRaise s c) := by
  unfold State.ssmRaise
  try dsimp only
  repeat' first
    | with_reducible exact .refl _ _ | with_reducible assumption | with_reducible refine .ite ?_ ?_
    | with_reducible apply Kept.via (State.setBit_kept (.SSM_CAUSE) ..)
    | with_reducible apply Kept.via (State.setFlag_kept (.SSM_EVT) ..)
    | with_reducible apply Kept.via (State.setFld_kept (.SSM_STATE) ..)
    | with_reducible apply Kept.via (State.ssmRefresh_kept ..) | with_reducible refine .update rfl rfl rfl ?_ ?_
    | (intro p; cases p <;> first | exact .inl (List.mem_of_elem_eq_true rfl) | exact .inr rfl | exact .inr True.intro)
    | exact rfl

theorem State.keepHeld_kept (s : State) : Kept [.ssm] s (State.keepHeld s) := by
  unfold State.keepHeld
  try dsimp only
  repeat' first
    | with_reducible exact .refl _ _ | with_reducible assumption | with_reducible refine .ite ?_ ?_
    | (intro p; cases p <;> first | exact .inl (List.mem_of_elem_eq_true rfl) | exact .inr rfl | exact .inr True.intro) | split
    | dsimp only | with_reducible refine .update rfl rfl rfl ?_ ?_

theorem State.ssmEnd_kept (s : State) (mask : Nat) : Kept [.eng, .mdl, .ldg, .ssm, .reg .FEn_EVT, .reg .FEn_WDCNT, .reg
    .LDG_EVT, .reg .LDG_WQSTAT, .reg .LDG_PNf, .reg .SSM_STATE, .reg .SSM_CAUSE, .reg .SSM_EVT, .reg .SSM_PAT0, .reg .SSM_PAT1,
    .reg .SSM_PATX] s (State.ssmEnd s mask) := by
  unfold State.ssmEnd
  try dsimp only
  repeat' first
    | with_reducible exact .refl _ _ | with_reducible assumption | with_reducible refine .ite ?_ ?_
    | with_reducible apply Kept.via (State.setFlag_kept (.SSM_EVT) ..)
    | with_reducible apply Kept.via (State.setFld_kept (.SSM_CAUSE) ..)
    | with_reducible apply Kept.via (State.ssmRefresh_kept ..) | with_reducible apply Kept.via (State.keepHeld_kept ..)
    | exact rfl

theorem State.ssmHoldFn_kept (s : State) (f : Nat) : Kept [.eng, .mdl, .ldg, .ssm, .reg .FEn_EVT, .reg .FEn_WDCNT, .reg
    .LDG_EVT, .reg .LDG_WQSTAT, .reg .LDG_PNf, .reg .SSM_STATE, .reg .SSM_EVT, .reg .SSM_PAT0, .reg .SSM_PAT1, .reg .SSM_PATX]
    s (State.ssmHoldFn s f) := by
  unfold State.ssmHoldFn
  try dsimp only
  repeat' first
    | with_reducible exact .refl _ _ | with_reducible assumption | with_reducible refine .ite ?_ ?_
    | with_reducible apply Kept.via (State.setFlag_kept (.SSM_EVT) ..)
    | with_reducible apply Kept.via (State.ssmRefresh_kept ..)
    | (intro p; cases p <;> first | exact .inl (List.mem_of_elem_eq_true rfl) | exact .inr rfl | exact .inr True.intro)
    | exact rfl | split | dsimp only | with_reducible refine .update rfl rfl rfl ?_ ?_

theorem State.ssmFreeFn_kept (s : State) (f : Nat) : Kept [.eng, .mdl, .ldg, .ssm, .reg .FEn_EVT, .reg .FEn_WDCNT, .reg
    .LDG_EVT, .reg .LDG_WQSTAT, .reg .LDG_PNf, .reg .SSM_STATE, .reg .SSM_PAT0, .reg .SSM_PAT1, .reg .SSM_PATX] s
    (State.ssmFreeFn s f) := by
  unfold State.ssmFreeFn
  try dsimp only
  repeat' first
    | with_reducible exact .refl _ _ | with_reducible assumption | with_reducible refine .ite ?_ ?_
    | with_reducible apply Kept.via (State.ssmRefresh_kept ..)
    | (intro p; cases p <;> first | exact .inl (List.mem_of_elem_eq_true rfl) | exact .inr rfl | exact .inr True.intro)
    | exact rfl | split | dsimp only | with_reducible refine .update rfl rfl rfl ?_ ?_

theorem State.ssmHoldAct_kept (s : State) (k : Nat) : Kept [.eng, .mdl, .ldg, .ssm, .reg .FEn_EVT, .reg .FEn_WDCNT, .reg
    .LDG_EVT, .reg .LDG_WQSTAT, .reg .LDG_PNf, .reg .SSM_STATE, .reg .SSM_EVT, .reg .SSM_PAT0, .reg .SSM_PAT1, .reg .SSM_PATX]
    s (State.ssmHoldAct s k) := by
  unfold State.ssmHoldAct
  try dsimp only
  repeat' first
    | with_reducible exact .refl _ _ | with_reducible assumption | with_reducible refine .ite ?_ ?_
    | with_reducible apply Kept.via (State.setFlag_kept (.SSM_EVT) ..)
    | with_reducible apply Kept.via (State.ssmRefresh_kept ..)
    | (intro p; cases p <;> first | exact .inl (List.mem_of_elem_eq_true rfl) | exact .inr rfl | exact .inr True.intro)
    | exact rfl | split | dsimp only | with_reducible refine .update rfl rfl rfl ?_ ?_

theorem State.ssmFreeAct_kept (s : State) (k : Nat) : Kept [.eng, .mdl, .ldg, .ssm, .reg .FEn_EVT, .reg .FEn_WDCNT, .reg
    .LDG_EVT, .reg .LDG_WQSTAT, .reg .LDG_PNf, .reg .SSM_STATE, .reg .SSM_PAT0, .reg .SSM_PAT1, .reg .SSM_PATX] s
    (State.ssmFreeAct s k) := by
  unfold State.ssmFreeAct
  try dsimp only
  repeat' first
    | with_reducible exact .refl _ _ | with_reducible assumption | with_reducible refine .ite ?_ ?_
    | with_reducible apply Kept.via (State.ssmRefresh_kept ..)
    | (intro p; cases p <;> first | exact .inl (List.mem_of_elem_eq_true rfl) | exact .inr rfl | exact .inr True.intro)
    | exact rfl | split | dsimp only | with_reducible refine .update rfl rfl rfl ?_ ?_

theorem State.ssmHoldReg_kept (s : State) (v : Nat) : Kept [.eng, .mdl, .ldg, .ssm, .reg .FEn_EVT, .reg .FEn_WDCNT, .reg
    .LDG_EVT, .reg .LDG_WQSTAT, .reg .LDG_PNf, .reg .SSM_STATE, .reg .SSM_EVT, .reg .SSM_PAT0, .reg .SSM_PAT1, .reg .SSM_PATX]
    s (State.ssmHoldReg s v) := by
  unfold State.ssmHoldReg
  try dsimp only
  repeat' first
    | with_reducible exact .refl _ _ | with_reducible assumption | with_reducible refine .ite ?_ ?_
    | with_reducible apply Kept.via (State.setFlag_kept (.SSM_EVT) ..)
    | with_reducible apply Kept.via (State.ssmRefresh_kept ..)
    | (intro p; cases p <;> first | exact .inl (List.mem_of_elem_eq_true rfl) | exact .inr rfl | exact .inr True.intro)
    | exact rfl | split | dsimp only | with_reducible refine .update rfl rfl rfl ?_ ?_

theorem State.ssmOv_kept (s : State) (link : Nat) (on : Bool) : Kept [.eng, .mdl, .ldg, .ssm, .reg .FEn_EVT, .reg .FEn_WDCNT,
    .reg .LDG_EVT, .reg .LDG_WQSTAT, .reg .LDG_PNf, .reg .SSM_STATE, .reg .SSM_EVT, .reg .SSM_PAT0, .reg .SSM_PAT1, .reg
    .SSM_PATX] s (State.ssmOv s link on) := by
  unfold State.ssmOv
  try dsimp only
  repeat' first
    | with_reducible exact .refl _ _ | with_reducible assumption | with_reducible refine .ite ?_ ?_
    | with_reducible apply Kept.via (State.ssmRefresh_kept ..) | with_reducible apply Kept.via (State.ssmHoldFn_kept ..)
    | with_reducible refine .each (fun _ _ => ?_) ?_
    | (intro p; cases p <;> first | exact .inl (List.mem_of_elem_eq_true rfl) | exact .inr rfl | exact .inr True.intro)
    | exact rfl | split | dsimp only | with_reducible refine .update rfl rfl rfl ?_ ?_

theorem State.sendFrame_kept (s : State) (src inst cause : Nat) : Kept [.ssm] s (State.sendFrame s src inst cause) := by
  unfold State.sendFrame
  try dsimp only
  repeat' first
    | with_reducible exact .refl _ _ | with_reducible assumption
    | (intro p; cases p <;> first | exact .inl (List.mem_of_elem_eq_true rfl) | exact .inr rfl | exact .inr True.intro)
    | dsimp only | with_reducible refine .update rfl rfl rfl ?_ ?_

end Sys2Proof.Machine
end

