-- ==== Sys2Proof/Laws/KeptResetOps.lean ====
section
/-!
SUPPORT. The frame of each operation of Sys2Proof/Machine/ResetOps.lean: the parts of the state that it can change.
-/
namespace Sys2Proof.Machine
set_option Elab.async false

theorem State.setCore_kept (s : State) (t : Nat) (c : CoreSt) : Kept [.cores] s (State.setCore s t c) := by
  unfold State.setCore
  try dsimp only
  repeat' first
    | with_reducible exact .refl _ _ | with_reducible assumption
    | (intro p; cases p <;> first | exact .inl (List.mem_of_elem_eq_true rfl) | exact .inr rfl | exact .inr True.intro)
    | dsimp only | with_reducible refine .update rfl rfl rfl ?_ ?_

theorem State.updCore_kept (s : State) (t : Nat) (f : CoreSt → CoreSt) : Kept [.cores] s (State.updCore s t f) := by
  unfold State.updCore
  try dsimp only
  repeat' first
    | with_reducible exact .refl _ _ | with_reducible apply Kept.via (State.setCore_kept ..) | exact rfl

theorem State.setPair_kept (s : State) (n : Nat) (p : PairSt) : Kept [.lsc] s (State.setPair s n p) := by
  unfold State.setPair
  try dsimp only
  repeat' first
    | with_reducible exact .refl _ _ | with_reducible assumption
    | (intro p; cases p <;> first | exact .inl (List.mem_of_elem_eq_true rfl) | exact .inr rfl | exact .inr True.intro)
    | dsimp only | with_reducible refine .update rfl rfl rfl ?_ ?_

theorem State.setWd_kept (s : State) (n : Nat) (w : WdSt) : Kept [.ssm] s (State.setWd s n w) := by
  unfold State.setWd
  try dsimp only
  repeat' first
    | with_reducible exact .refl _ _ | with_reducible assumption
    | (intro p; cases p <;> first | exact .inl (List.mem_of_elem_eq_true rfl) | exact .inr rfl | exact .inr True.intro)
    | dsimp only | with_reducible refine .update rfl rfl rfl ?_ ?_

theorem State.setLscStat_kept (s : State) (n v : Nat) : Kept [.reg .LSC_STAT] s (State.setLscStat s n v) := by
  unfold State.setLscStat
  try dsimp only
  repeat' first
    | with_reducible exact .refl _ _ | with_reducible apply Kept.via (State.setFld_kept (.LSC_STAT) ..) | exact rfl

/-- EVC_SRCm at its split-mode value, m = 1 to n. -/
def splitSources (n : Nat) : FMap Word := (List.range n).map fun j => (R.EVC_SRCm (j + 1), (0x01FF4800 : Word))

theorem splitSources_wf : Registers.wf (splitSources 256) = true := by decide +kernel

theorem State.evcSplitTargets_kept (s : State) : Kept [.regs] s s.evcSplitTargets := by
  unfold State.evcSplitTargets
  split
  · refine ⟨⟨fun p => ?_, fun _ => .inl (List.mem_of_elem_eq_true rfl)⟩, id, fun h => ?_⟩
    · cases p <;> first | exact .inl (List.mem_of_elem_eq_true rfl) | exact .inr rfl | exact .inr True.intro
    · refine FMap.wf_append (FMap.wf_append (FMap.wf_filter h) splitSources_wf ?_) (FMap.wf_filter h) ?_
      · intro p hp q hq
        simp only [List.mem_filter, decide_eq_true_eq, List.mem_map, List.mem_range] at hp hq
        obtain ⟨j, -, rfl⟩ := hq
        exact lt_of_lt_of_le hp.2 (by simp [R.EVC_SRCm])
      · intro p hp q hq
        simp only [List.mem_append, List.mem_filter, decide_eq_true_eq, List.mem_map, List.mem_range] at hp hq
        refine lt_of_le_of_lt ?_ hq.2
        rcases hp with hp | ⟨j, hj, rfl⟩
        · exact le_of_lt (lt_of_lt_of_le hp.2 (by decide))
        · simp only [R.EVC_SRCm]; omega
  · exact Kept.refl _ _

theorem State.keepTrips_kept (s old : State) : Kept [.reg .MOD_LCNTn] s (State.keepTrips s old) := by
  unfold State.keepTrips
  try dsimp only
  repeat' first
    | with_reducible exact .refl _ _ | with_reducible assumption
    | with_reducible apply Kept.via (State.setFld_kept (.MOD_LCNTn _) ..) | with_reducible refine .each (fun _ _ => ?_) ?_
    | exact rfl

theorem State.systemClear_kept (s : State) : Kept (Part.allBut [.variant, .split, .bootSplit, .up, .gf, .driveEn, .actEn, .aon,
    .pads, .thm, .recovery, .mramClosed, .resp, .tick, .pending]) s s.systemClear := by
  have b : ∀ u : State, (∀ p, p ∈ ((Part.allBut [.variant, .split, .bootSplit, .up, .gf, .driveEn, .actEn, .aon, .pads, .thm,
      .recovery, .mramClosed, .resp, .tick, .pending]) : List Part) ∨ p.same s u) →
      u.mem = s.mem.filter (fun p => keptByte p.1) → u.regs = s.regs.filter (fun p => keptReg p.1) → Kept (Part.allBut [.variant, .split, .bootSplit, .up, .gf, .driveEn, .actEn, .aon, .pads, .thm, .recovery, .mramClosed, .resp, .tick, .pending]) s u :=
    fun u h hm hr => ⟨⟨h, fun _ => .inl (List.mem_of_elem_eq_true rfl)⟩, fun x => by rw [hm]; exact FMap.wf_filter x,
      fun x => by rw [hr]; exact FMap.wf_filter x⟩
  unfold State.systemClear
  try dsimp only
  repeat' first
    | with_reducible exact .refl _ _ | with_reducible assumption
    | with_reducible apply Kept.via (State.setFld_kept (.LSC_CFG) ..)
    | with_reducible apply Kept.via (State.setFld_kept (.RST_STATE) ..)
    | with_reducible apply Kept.via (State.setFld_kept (.SSM_WDSTATn _) ..)
    | with_reducible apply Kept.via (State.ssmRefresh_kept ..) | with_reducible apply Kept.via (State.setLscStat_kept ..)
    | with_reducible apply Kept.via (State.evcSplitTargets_kept ..) | with_reducible apply Kept.via (State.keepTrips_kept ..)
    | with_reducible refine .each (fun _ _ => ?_) ?_ | with_reducible refine .foldl (fun _ _ => ?_) ?_ | exact rfl | dsimp only
    | with_reducible refine .update rfl rfl rfl ?_ ?_
  · refine b _ (fun p => ?_) rfl rfl
    cases p <;> first | exact .inl (List.mem_of_elem_eq_true rfl) | exact .inr rfl | exact .inr True.intro

theorem State.powerClear_kept (s : State) : Kept (Part.allBut [.variant, .split, .bootSplit, .up, .gf, .driveEn, .actEn,
    .recovery, .resp, .tick, .pending]) s s.powerClear := by
  have b : ∀ u : State, (∀ p, p ∈ ((Part.allBut [.variant, .split, .bootSplit, .up, .gf, .driveEn, .actEn, .recovery, .resp,
      .tick, .pending]) : List Part) ∨ p.same s u) →
      u.mem = s.mem.filter (fun p => keptByte p.1) → u.regs = [] → Kept (Part.allBut [.variant, .split, .bootSplit, .up, .gf, .driveEn, .actEn, .recovery, .resp, .tick, .pending]) s u :=
    fun u h hm hr => ⟨⟨h, fun _ => .inl (List.mem_of_elem_eq_true rfl)⟩, fun x => by rw [hm]; exact FMap.wf_filter x,
      fun x => by rw [hr]; exact rfl⟩
  unfold State.powerClear
  try dsimp only
  repeat' first
    | with_reducible exact .refl _ _ | with_reducible assumption
    | with_reducible apply Kept.via (State.setFld_kept (.LSC_CFG) ..)
    | with_reducible apply Kept.via (State.ssmRefresh_kept ..) | with_reducible apply Kept.via (State.setLscStat_kept ..)
    | with_reducible apply Kept.via (State.evcSplitTargets_kept ..) | with_reducible refine .each (fun _ _ => ?_) ?_
    | exact rfl | dsimp only | with_reducible refine .update rfl rfl rfl ?_ ?_
  · refine b _ (fun p => ?_) rfl rfl
    cases p <;> first | exact .inl (List.mem_of_elem_eq_true rfl) | exact .inr rfl | exact .inr True.intro

theorem State.pairClear_kept (s : State) (n : Nat) : Kept [.po, .cores, .lsc, .reg .PST_SLEEP, .reg .LSC_STAT, .reg
    .SSM_WDSTATn] s (State.pairClear s n) := by
  unfold State.pairClear
  try dsimp only
  repeat' first
    | with_reducible exact .refl _ _ | with_reducible assumption | with_reducible refine .ite ?_ ?_
    | with_reducible apply Kept.via (State.clrBit_kept (.PST_SLEEP) ..)
    | with_reducible apply Kept.via (State.setFld_kept (.SSM_WDSTATn _) ..)
    | with_reducible apply Kept.via (State.setPigeon_kept ..) | with_reducible apply Kept.via (State.setCore_kept ..)
    | with_reducible apply Kept.via (State.setPair_kept ..) | with_reducible apply Kept.via (State.setLscStat_kept ..)
    | with_reducible refine .each (fun _ _ => ?_) ?_ | exact rfl | split

theorem State.syncPend_kept (s : State) : Kept [.reg .RST_PEND] s (State.syncPend s) := by
  unfold State.syncPend
  try dsimp only
  repeat' first
    | with_reducible exact .refl _ _ | with_reducible apply Kept.via (State.setReg_kept (.RST_PEND) ..)
    | with_reducible refine .foldl (fun _ _ => ?_) ?_ | exact rfl

theorem State.recordCause_kept (s : State) (id reach pairs : Nat) : Kept [.reg .RST_CAUSE] s (State.recordCause s id reach
    pairs) := by
  unfold State.recordCause
  try dsimp only
  repeat' first
    | with_reducible exact .refl _ _ | with_reducible assumption | with_reducible refine .ite ?_ ?_
    | with_reducible apply Kept.via (State.setReg_kept (.RST_CAUSE) ..) | exact rfl

theorem State.applySystem_kept (s : State) : Kept (Part.allBut [.variant, .split, .bootSplit, .up, .gf, .driveEn, .actEn, .aon,
    .pads, .thm, .recovery, .mramClosed, .resp, .tick, .pending]) s (State.applySystem s) := by
  unfold State.applySystem
  try dsimp only
  repeat' first
    | with_reducible exact .refl _ _ | with_reducible assumption | with_reducible refine .ite ?_ ?_
    | with_reducible apply Kept.via (State.systemClear_kept ..) | with_reducible apply Kept.via (State.syncPend_kept ..)
    | (intro p; cases p <;> first | exact .inl (List.mem_of_elem_eq_true rfl) | exact .inr rfl | exact .inr True.intro)
    | exact rfl | split | dsimp only | with_reducible refine .update rfl rfl rfl ?_ ?_

theorem State.causesBack_kept (s : State) : Kept [.eng, .mdl, .ldg, .ssm, .reg .FEn_EVT, .reg .FEn_WDCNT, .reg .LDG_EVT, .reg
    .LDG_WQSTAT, .reg .LDG_PNf, .reg .SSM_STATE, .reg .SSM_CAUSE, .reg .SSM_EVT, .reg .SSM_PAT0, .reg .SSM_PAT1, .reg
    .SSM_PATX] s (State.causesBack s) := by
  unfold State.causesBack
  try dsimp only
  repeat' first
    | with_reducible exact .refl _ _ | with_reducible assumption | with_reducible refine .ite ?_ ?_
    | with_reducible apply Kept.via (State.ssmRaise_kept ..) | exact rfl

theorem State.assertSource_kept (s : State) (id pairs : Nat) : Kept (Part.allBut [.variant, .split, .bootSplit, .up, .gf,
    .driveEn, .actEn, .recovery, .resp, .tick, .pending]) s (State.assertSource s id pairs) := by
  unfold State.assertSource
  try dsimp only
  repeat' first
    | with_reducible exact .refl _ _ | with_reducible assumption | with_reducible refine .ite ?_ ?_
    | with_reducible apply Kept.via (State.ssmRaise_kept ..) | with_reducible apply Kept.via (State.powerClear_kept ..)
    | with_reducible apply Kept.via (State.pairClear_kept ..) | with_reducible apply Kept.via (State.syncPend_kept ..)
    | with_reducible apply Kept.via (State.recordCause_kept ..) | with_reducible apply Kept.via (State.applySystem_kept ..)
    | with_reducible apply Kept.via (State.causesBack_kept ..) | with_reducible refine .each (fun _ _ => ?_) ?_
    | (intro p; cases p <;> first | exact .inl (List.mem_of_elem_eq_true rfl) | exact .inr rfl | exact .inr True.intro)
    | exact rfl | split | dsimp only | with_reducible refine .update rfl rfl rfl ?_ ?_

theorem State.evcRefresh_kept (s : State) : Kept [.cores] s (State.evcRefresh s) := by
  unfold State.evcRefresh
  try dsimp only
  repeat' first
    | with_reducible exact .refl _ _ | with_reducible assumption | with_reducible refine .ite ?_ ?_
    | with_reducible apply Kept.via (State.updCore_kept ..) | with_reducible refine .each (fun _ _ => ?_) ?_ | exact rfl

theorem State.leaveSleep_kept (s : State) (t : Nat) : Kept [.reg .PST_SLEEP] s (State.leaveSleep s t) := by
  unfold State.leaveSleep
  try dsimp only
  repeat' first
    | with_reducible exact .refl _ _ | with_reducible assumption
    | with_reducible apply Kept.via (State.clrBit_kept (.PST_SLEEP) ..) | exact rfl | split

theorem State.bootCore_kept (s : State) (t : Nat) : Kept [.cores] s (State.bootCore s t) := by
  unfold State.bootCore
  try dsimp only
  repeat' first
    | with_reducible exact .refl _ _ | with_reducible assumption | with_reducible refine .ite ?_ ?_
    | with_reducible apply Kept.via (State.updCore_kept ..) | exact rfl

theorem State.pairLeave_kept (s : State) (n : Nat) : Kept [.cores, .lsc, .ssm, .reg .LSC_STAT, .reg .SSM_WDSTATn] s
    (State.pairLeave s n) := by
  unfold State.pairLeave
  try dsimp only
  repeat' first
    | with_reducible exact .refl _ _ | with_reducible assumption | with_reducible refine .ite ?_ ?_
    | with_reducible apply Kept.via (State.setFld_kept (.SSM_WDSTATn _) ..)
    | with_reducible apply Kept.via (State.setPair_kept ..) | with_reducible apply Kept.via (State.setWd_kept ..)
    | with_reducible apply Kept.via (State.setLscStat_kept ..) | with_reducible apply Kept.via (State.evcRefresh_kept ..)
    | with_reducible apply Kept.via (State.bootCore_kept ..) | with_reducible refine .each (fun _ _ => ?_) ?_ | exact rfl

/-- A source of pair reach resets no more than pairs. -/
theorem State.assertPair_kept (s : State) (id pairs : Nat) (h : s.reachOf id pairs = 0) : Kept [.po, .cores, .lsc, .rst,
    .reg .PST_SLEEP, .reg .LSC_STAT, .reg .SSM_WDSTATn, .reg .RST_CAUSE, .reg .RST_PEND] s (State.assertSource s id pairs) := by
  unfold State.assertSource
  dsimp only
  rw [if_pos h]
  repeat' first
    | with_reducible exact .refl _ _ | with_reducible assumption | with_reducible refine .ite ?_ ?_
    | with_reducible apply Kept.via (State.pairClear_kept ..) | with_reducible apply Kept.via (State.syncPend_kept ..)
    | with_reducible apply Kept.via (State.recordCause_kept ..) | with_reducible refine .each (fun _ _ => ?_) ?_
    | (intro p; cases p <;> first | exact .inl (List.mem_of_elem_eq_true rfl) | exact .inr rfl | exact .inr True.intro)
    | exact rfl | split | dsimp only | with_reducible refine .update rfl rfl rfl ?_ ?_

theorem State.pairDue_kept (s : State) : Kept [.po, .cores, .lsc, .rst, .reg .PST_SLEEP, .reg .LSC_STAT, .reg .SSM_WDSTATn,
    .reg .RST_CAUSE, .reg .RST_PEND] s (State.pairDue s) := by
  unfold State.pairDue
  split
  · refine .via (State.assertPair_kept _ 9 _ rfl) rfl (.update rfl rfl rfl ?_ (.refl _ _))
    intro p; cases p <;> first | exact .inl (List.mem_of_elem_eq_true rfl) | exact .inr rfl | exact .inr True.intro
  · exact .refl _ _

theorem State.tryPairs_kept (s : State) : Kept [.cores, .lsc, .ssm, .rst, .reg .LSC_STAT, .reg .SSM_WDSTATn, .reg .RST_EVT] s
    (State.tryPairs s) := by
  unfold State.tryPairs
  try dsimp only
  repeat' first
    | with_reducible exact .refl _ _ | with_reducible assumption | with_reducible refine .ite ?_ ?_
    | with_reducible apply Kept.via (State.setFlag_kept (.RST_EVT) ..)
    | with_reducible apply Kept.via (State.pairLeave_kept ..) | with_reducible refine .each (fun _ _ => ?_) ?_
    | (intro p; cases p <;> first | exact .inl (List.mem_of_elem_eq_true rfl) | exact .inr rfl | exact .inr True.intro)
    | exact rfl | split | dsimp only | with_reducible refine .update rfl rfl rfl ?_ ?_

theorem State.sampleSplit_kept (s : State) : Kept [.split, .regs] s (State.sampleSplit s) := by
  have h : ∀ r : FMap Word, r = (s.regs.filter fun p => p.1 < R.EVC_SRCm 1 || R.EVC_SRCm 256 < p.1) → Kept [.split, .regs] s
      (State.setFld { s with split := s.bootSplit, regs := r } R.LSC_CFG F.LSC_CFG_SPLIT (b2n s.bootSplit)).evcSplitTargets := by
    intro r e
    refine .via (State.evcSplitTargets_kept _) rfl (.via (State.setFld_kept .LSC_CFG ..) rfl ?_)
    refine ⟨⟨fun p => ?_, fun _ => .inl (List.mem_of_elem_eq_true rfl)⟩, id, fun h => ?_⟩
    · cases p <;> first | exact .inl (List.mem_of_elem_eq_true rfl) | exact .inr rfl | exact .inr True.intro
    · rw [e]; exact FMap.wf_filter h
  unfold State.sampleSplit
  split
  · exact Kept.refl _ _
  · exact h _ rfl

theorem State.tryRelease_kept (s : State) : Kept [.split, .regs, .eng, .mdl, .ldg, .cores, .lsc, .ssm, .rst] s
    (State.tryRelease s) := by
  unfold State.tryRelease
  try dsimp only
  repeat' first
    | with_reducible exact .refl _ _ | with_reducible assumption | with_reducible refine .ite ?_ ?_
    | with_reducible apply Kept.via (State.ssmEnd_kept ..) | with_reducible apply Kept.via (State.tryPairs_kept ..)
    | with_reducible apply Kept.via (State.sampleSplit_kept ..)
    | (intro p; cases p <;> first | exact .inl (List.mem_of_elem_eq_true rfl) | exact .inr rfl | exact .inr True.intro)
    | exact rfl | split | dsimp only | with_reducible refine .update rfl rfl rfl ?_ ?_

theorem State.releaseSource_kept (s : State) (id pairs : Nat) : Kept [.split, .regs, .eng, .mdl, .ldg, .cores, .lsc, .ssm,
    .rst] s (State.releaseSource s id pairs) := by
  unfold State.releaseSource
  try dsimp only
  repeat' first
    | with_reducible exact .refl _ _ | with_reducible assumption | with_reducible apply Kept.via (State.syncPend_kept ..)
    | with_reducible apply Kept.via (State.tryRelease_kept ..)
    | (intro p; cases p <;> first | exact .inl (List.mem_of_elem_eq_true rfl) | exact .inr rfl | exact .inr True.intro)
    | exact rfl | dsimp only | with_reducible refine .update rfl rfl rfl ?_ ?_

theorem State.wake_kept (s : State) (src : Nat) : Kept (Part.allBut [.variant, .split, .bootSplit, .up, .gf, .driveEn, .actEn,
    .recovery, .resp, .pending]) s (State.wake s src) := by
  unfold State.wake
  try dsimp only
  repeat' first
    | with_reducible exact .refl _ _ | with_reducible assumption | with_reducible refine .ite ?_ ?_
    | with_reducible apply Kept.via (State.incSat_kept (.LDG_KAWAKE) ..)
    | with_reducible apply Kept.via (State.setFld_kept (.RST_WAKE) ..)
    | with_reducible apply Kept.via (State.setReg_kept (.RST_WAKE) ..)
    | with_reducible apply Kept.via (State.journalFree_kept ..) | with_reducible apply Kept.via (State.powerClear_kept ..)
    | with_reducible apply Kept.via (State.recordCause_kept ..) | with_reducible apply Kept.via (State.causesBack_kept ..)
    | (intro p; cases p <;> first | exact .inl (List.mem_of_elem_eq_true rfl) | exact .inr rfl | exact .inr True.intro)
    | exact rfl | split | dsimp only | with_reducible refine .update rfl rfl rfl ?_ ?_

theorem State.perform_kept (s : State) (d : Deferred) : Kept (Part.allBut [.variant, .split, .bootSplit, .up, .gf, .driveEn,
    .actEn, .recovery, .resp, .tick, .pending]) s (s.perform d) := by
  unfold State.perform
  repeat' first
    | with_reducible exact .refl _ _ | with_reducible assumption | with_reducible refine .ite ?_ ?_
    | with_reducible apply Kept.via (State.setFld_kept (.RST_START) ..) | with_reducible apply Kept.via (State.hwMove_kept ..)
    | with_reducible apply Kept.via (State.assertSource_kept ..) | exact rfl | split

theorem State.runReady_kept (s : State) : Kept (Part.allBut [.variant, .split, .bootSplit, .up, .gf, .driveEn, .actEn,
    .recovery, .resp, .tick, .pending]) s (State.runReady s) := by
  unfold State.runReady
  try dsimp only
  repeat' first
    | with_reducible exact .refl _ _ | with_reducible assumption | with_reducible apply Kept.via (State.perform_kept ..)
    | with_reducible refine .each (fun _ _ => ?_) ?_
    | (intro p; cases p <;> first | exact .inl (List.mem_of_elem_eq_true rfl) | exact .inr rfl | exact .inr True.intro)
    | exact rfl | dsimp only | with_reducible refine .update rfl rfl rfl ?_ ?_

theorem State.handOver_kept (s : State) (ph : Nat) (passed : Nat → Bool) : Kept [.po] s (State.handOver s ph passed) := by
  unfold State.handOver
  try dsimp only
  repeat' first
    | with_reducible exact .refl _ _ | with_reducible assumption
    | (intro p; cases p <;> first | exact .inl (List.mem_of_elem_eq_true rfl) | exact .inr rfl | exact .inr True.intro) | split
    | dsimp only | with_reducible refine .update rfl rfl rfl ?_ ?_

end Sys2Proof.Machine
end

