-- ==== Sys2Proof/Laws/KeptFaults.lean ====
section
/-!
SUPPORT. The frame of each operation of Sys2Proof/Machine/Faults.lean: the parts of the state that it can change.
-/
namespace Sys2Proof.Machine
set_option Elab.async false

theorem State.applyTiming_kept (s : State) (n : Nat) : Kept [.mdl] s (State.applyTiming s n) := by
  unfold State.applyTiming
  try dsimp only
  repeat' first
    | with_reducible exact .refl _ _ | with_reducible assumption | with_reducible apply Kept.via (State.updLeg_kept ..)
    | exact rfl

theorem State.chgSetPhase_kept (s : State) (p : Nat) : Kept [.reg .CHG_STATE, .reg .CHG_EVT] s (State.chgSetPhase s p) := by
  unfold State.chgSetPhase
  try dsimp only
  repeat' first
    | with_reducible exact .refl _ _ | with_reducible assumption | with_reducible refine .ite ?_ ?_
    | with_reducible apply Kept.via (State.setFlag_kept (.CHG_EVT) ..)
    | with_reducible apply Kept.via (State.setFld_kept (.CHG_STATE) ..) | exact rfl

theorem State.chgHardStop_kept (s : State) : Kept [.eng, .mdl, .chg, .ldg, .reg .FEn_EVT, .reg .FEn_WDCNT, .reg .CHG_ILIM, .reg
    .LDG_EVT, .reg .LDG_WQSTAT, .reg .LDG_PNf] s (State.chgHardStop s) := by
  unfold State.chgHardStop
  try dsimp only
  repeat' first
    | with_reducible exact .refl _ _ | with_reducible assumption | with_reducible refine .ite ?_ ?_
    | with_reducible apply Kept.via (State.setFld_kept (.CHG_ILIM) ..) | with_reducible apply Kept.via (State.setDuty_kept ..)
    | with_reducible apply Kept.via (State.withdrawOnce_kept ..) | with_reducible refine .each (fun _ _ => ?_) ?_
    | (intro p; cases p <;> first | exact .inl (List.mem_of_elem_eq_true rfl) | exact .inr rfl | exact .inr True.intro)
    | exact rfl | split | dsimp only | with_reducible refine .update rfl rfl rfl ?_ ?_

theorem State.chgReason_kept (s : State) (r : Nat) : Kept [.chg] s (State.chgReason s r) := by
  unfold State.chgReason
  try dsimp only
  repeat' first
    | with_reducible exact .refl _ _ | with_reducible assumption | with_reducible refine .ite ?_ ?_
    | (intro p; cases p <;> first | exact .inl (List.mem_of_elem_eq_true rfl) | exact .inr rfl | exact .inr True.intro) | split
    | dsimp only | with_reducible refine .update rfl rfl rfl ?_ ?_

theorem State.chgFail_kept (s : State) (c : Nat) : Kept [.po, .eng, .mdl, .chg, .ldg, .ssm, .reg .FEn_EVT, .reg .FEn_WDCNT,
    .reg .CHG_ILIM, .reg .CHG_FLT, .reg .CHG_EVT, .reg .LDG_EVT, .reg .LDG_WQSTAT, .reg .LDG_PNf] s (State.chgFail s c) := by
  unfold State.chgFail
  lift_lets
  repeat'
    intro x
    first
    | have hx : Kept [.po, .eng, .mdl, .chg, .ldg, .ssm, .reg .FEn_EVT, .reg .FEn_WDCNT, .reg .CHG_ILIM, .reg .CHG_FLT, .reg .CHG_EVT, .reg .LDG_EVT, .reg .LDG_WQSTAT, .reg .LDG_PNf] s x := by
        dsimp only [x]
        repeat' first
          | with_reducible exact .refl _ _ | with_reducible assumption | with_reducible refine .ite ?_ ?_
          | with_reducible apply Kept.via (State.setBit_kept (.CHG_FLT) ..)
          | with_reducible apply Kept.via (State.setFlag_kept (.CHG_EVT) ..)
          | with_reducible apply Kept.via (State.hwFault_kept ..) | with_reducible apply Kept.via (State.sendFrame_kept ..)
          | with_reducible apply Kept.via (State.chgHardStop_kept ..) | with_reducible apply Kept.via (State.chgReason_kept ..)
          | (intro p; cases p <;> first | exact .inl (List.mem_of_elem_eq_true rfl) | exact .inr rfl | exact .inr True.intro)
          | exact rfl | split | dsimp only | with_reducible refine .update rfl rfl rfl ?_ ?_
      clear_value x
    | skip
  repeat' first
    | with_reducible exact .refl _ _ | with_reducible assumption | with_reducible refine .ite ?_ ?_
    | with_reducible apply Kept.via (State.setBit_kept (.CHG_FLT) ..)
    | with_reducible apply Kept.via (State.setFlag_kept (.CHG_EVT) ..) | with_reducible apply Kept.via (State.hwFault_kept ..)
    | with_reducible apply Kept.via (State.sendFrame_kept ..) | with_reducible apply Kept.via (State.chgHardStop_kept ..)
    | with_reducible apply Kept.via (State.chgReason_kept ..)
    | (intro p; cases p <;> first | exact .inl (List.mem_of_elem_eq_true rfl) | exact .inr rfl | exact .inr True.intro)
    | exact rfl | split | dsimp only | with_reducible refine .update rfl rfl rfl ?_ ?_

theorem State.fnRecord_kept (s : State) (f c pos : Nat) : Kept [.po, .tra] s (State.fnRecord s f c pos) := by
  unfold State.fnRecord
  try dsimp only
  repeat' first
    | with_reducible exact .refl _ _ | with_reducible assumption | with_reducible refine .ite ?_ ?_
    | with_reducible apply Kept.via (State.hwFault_kept ..) | with_reducible apply Kept.via (State.updTr_kept ..) | exact rfl

theorem State.fnFail_kept (s : State) (f c pos : Nat) : Kept [.po, .eng, .mdl, .tra, .ldg, .ssm, .reg .FEn_EVT, .reg
    .FEn_WDCNT, .reg .LDG_EVT, .reg .LDG_WQSTAT, .reg .LDG_PNf] s (State.fnFail s f c pos) := by
  unfold State.fnFail
  try dsimp only
  repeat' first
    | with_reducible exact .refl _ _ | with_reducible assumption | with_reducible refine .ite ?_ ?_
    | with_reducible apply Kept.via (State.withdraw_kept ..) | with_reducible apply Kept.via (State.sendFrame_kept ..)
    | with_reducible apply Kept.via (State.fnRecord_kept ..) | exact rfl

theorem State.fnReact_kept (s : State) (f c pos : Nat) : Kept [.po, .eng, .mdl, .tra, .chg, .ldg, .ssm, .reg .FEn_EVT, .reg
    .FEn_WDCNT, .reg .CHG_ILIM, .reg .CHG_FLT, .reg .CHG_EVT, .reg .LDG_EVT, .reg .LDG_WQSTAT, .reg .LDG_PNf] s (State.fnReact
    s f c pos) := by
  unfold State.fnReact
  try dsimp only
  repeat' first
    | with_reducible exact .refl _ _ | with_reducible assumption | with_reducible refine .ite ?_ ?_
    | with_reducible apply Kept.via (State.chgFail_kept ..) | with_reducible apply Kept.via (State.fnRecord_kept ..)
    | exact rfl

theorem State.engineFault1_kept (s : State) (n bit : Nat) : Kept [.po, .eng, .ssm, .reg .FEn_EVT] s (State.engineFault1 s n
    bit) := by
  unfold State.engineFault1
  try dsimp only
  repeat' first
    | with_reducible exact .refl _ _ | with_reducible assumption | with_reducible refine .ite ?_ ?_
    | with_reducible apply Kept.via (State.hwFault_kept ..) | with_reducible apply Kept.via (State.updE_kept ..)
    | with_reducible apply Kept.via (State.feFlag_kept ..) | with_reducible apply Kept.via (State.sendFrame_kept ..)
    | exact rfl

theorem State.engineFault_kept (s : State) (n bit : Nat) : Kept [.po, .eng, .mdl, .tra, .chg, .ldg, .ssm, .reg .FEn_EVT, .reg
    .FEn_WDCNT, .reg .CHG_ILIM, .reg .CHG_FLT, .reg .CHG_EVT, .reg .LDG_EVT, .reg .LDG_WQSTAT, .reg .LDG_PNf] s
    (State.engineFault s n bit) := by
  unfold State.engineFault
  try dsimp only
  repeat' first
    | with_reducible exact .refl _ _ | with_reducible assumption | with_reducible refine .ite ?_ ?_
    | with_reducible apply Kept.via (State.withdraw_kept ..) | with_reducible apply Kept.via (State.fnReact_kept ..)
    | with_reducible apply Kept.via (State.engineFault1_kept ..) | exact rfl | split

theorem State.zeroK_kept (s : State) (f : Nat) : Kept [.tra, .ldg] s (State.zeroK s f) := by
  unfold State.zeroK
  try dsimp only
  repeat' first
    | with_reducible exact .refl _ _ | with_reducible assumption | with_reducible refine .ite ?_ ?_
    | with_reducible apply Kept.via (State.clipFlags_kept ..) | with_reducible apply Kept.via (State.updLnk_kept ..)
    | exact rfl

theorem State.syncLatched_kept (s : State) : Kept [.reg .MOD_STAT] s (State.syncLatched s) := by
  unfold State.syncLatched
  try dsimp only
  repeat' first
    | with_reducible exact .refl _ _ | with_reducible assumption
    | with_reducible apply Kept.via (State.setFld_kept (.MOD_STAT) ..) | exact rfl

theorem State.latchLeg_kept (s : State) (n c : Nat) : Kept [.po, .eng, .mdl, .tra, .chg, .ldg, .ssm, .pads, .reg .FEn_EVT, .reg
    .FEn_WDCNT, .reg .MOD_STAT, .reg .MOD_EVT, .reg .MOD_LCNTn, .reg .MOD_LTRIPn, .reg .CHG_ILIM, .reg .CHG_FLT, .reg .CHG_EVT,
    .reg .LDG_EVT, .reg .LDG_WQSTAT, .reg .LDG_PNf] s (State.latchLeg s n c) := by
  unfold State.latchLeg
  lift_lets
  repeat'
    intro x
    first
    | have hx : Kept [.po, .eng, .mdl, .tra, .chg, .ldg, .ssm, .pads, .reg .FEn_EVT, .reg .FEn_WDCNT, .reg .MOD_STAT, .reg .MOD_EVT, .reg .MOD_LCNTn, .reg .MOD_LTRIPn, .reg .CHG_ILIM, .reg .CHG_FLT, .reg .CHG_EVT, .reg .LDG_EVT, .reg .LDG_WQSTAT, .reg .LDG_PNf] s x := by
        dsimp only [x]
        repeat' first
          | with_reducible exact .refl _ _ | with_reducible assumption | with_reducible refine .ite ?_ ?_
          | with_reducible apply Kept.via (State.incSat_kept (.MOD_LCNTn _) ..)
          | with_reducible apply Kept.via (State.setFlag_kept (.MOD_EVT) ..)
          | with_reducible apply Kept.via (State.setReg_kept (.MOD_LTRIPn _) ..)
          | with_reducible apply Kept.via (State.setDuty_kept ..) | with_reducible apply Kept.via (State.setSoft_kept ..)
          | with_reducible apply Kept.via (State.setLatch_kept ..) | with_reducible apply Kept.via (State.withdraw_kept ..)
          | with_reducible apply Kept.via (State.sendFrame_kept ..) | with_reducible apply Kept.via (State.fnReact_kept ..)
          | with_reducible apply Kept.via (State.zeroK_kept ..) | with_reducible apply Kept.via (State.syncLatched_kept ..)
          | with_reducible refine .update rfl rfl rfl ?_ ?_
          | (intro p; cases p <;> first | exact .inl (List.mem_of_elem_eq_true rfl) | exact .inr rfl | exact .inr True.intro)
          | exact rfl | split | dsimp only
      clear_value x
    | skip
  repeat' first
    | with_reducible exact .refl _ _ | with_reducible assumption | with_reducible refine .ite ?_ ?_
    | with_reducible apply Kept.via (State.incSat_kept (.MOD_LCNTn _) ..)
    | with_reducible apply Kept.via (State.setFlag_kept (.MOD_EVT) ..)
    | with_reducible apply Kept.via (State.setReg_kept (.MOD_LTRIPn _) ..)
    | with_reducible apply Kept.via (State.setDuty_kept ..) | with_reducible apply Kept.via (State.setSoft_kept ..)
    | with_reducible apply Kept.via (State.setLatch_kept ..) | with_reducible apply Kept.via (State.withdraw_kept ..)
    | with_reducible apply Kept.via (State.sendFrame_kept ..) | with_reducible apply Kept.via (State.fnReact_kept ..)
    | with_reducible apply Kept.via (State.zeroK_kept ..) | with_reducible apply Kept.via (State.syncLatched_kept ..)
    | with_reducible refine .update rfl rfl rfl ?_ ?_
    | (intro p; cases p <;> first | exact .inl (List.mem_of_elem_eq_true rfl) | exact .inr rfl | exact .inr True.intro)
    | exact rfl | split | dsimp only

end Sys2Proof.Machine
end

