-- ==== Sys2Proof/Laws/KeptGates.lean ====
section
/-!
SUPPORT. The frame of each operation of Sys2Proof/Machine/Gates.lean: the parts of the state that it can change.
-/
namespace Sys2Proof.Machine
set_option Elab.async false

theorem State.gateLeg_kept (s : State) (n : Nat) : Kept [.po, .eng, .mdl, .tra, .chg, .ldg, .ssm, .pads, .reg .FEn_EVT, .reg
    .FEn_WDCNT, .reg .MOD_STAT, .reg .MOD_EVT, .reg .MOD_LCNTn, .reg .MOD_LTRIPn, .reg .CHG_ILIM, .reg .CHG_FLT, .reg .CHG_EVT,
    .reg .LDG_EVT, .reg .LDG_WQSTAT, .reg .LDG_PNf] s (State.gateLeg s n) := by
  unfold State.gateLeg
  try dsimp only
  repeat' first
    | with_reducible exact .refl _ _ | with_reducible assumption | with_reducible refine .ite ?_ ?_
    | with_reducible apply Kept.via (State.incSat_kept (.MOD_LCNTn _) ..)
    | with_reducible apply Kept.via (State.setFlag_kept (.MOD_EVT) ..) | with_reducible apply Kept.via (State.setLock_kept ..)
    | with_reducible apply Kept.via (State.latchLeg_kept ..) | exact rfl | split

theorem State.gateTick_kept (s : State) : Kept [.po, .eng, .mdl, .tra, .chg, .ldg, .ssm, .pads, .reg .FEn_EVT, .reg .FEn_WDCNT,
    .reg .MOD_STAT, .reg .MOD_EVT, .reg .MOD_LCNTn, .reg .MOD_LTRIPn, .reg .CHG_ILIM, .reg .CHG_FLT, .reg .CHG_EVT, .reg
    .LDG_EVT, .reg .LDG_WQSTAT, .reg .LDG_PNf] s (State.gateTick s) := by
  unfold State.gateTick
  try dsimp only
  repeat' first
    | with_reducible exact .refl _ _ | with_reducible assumption | with_reducible apply Kept.via (State.gateLeg_kept ..)
    | with_reducible refine .each (fun _ _ => ?_) ?_ | exact rfl

end Sys2Proof.Machine
end

