-- ==== Sys2Proof/Laws/KeptCores.lean ====
section
/-!
SUPPORT. The frame of each operation of Sys2Proof/Machine/Cores.lean: the parts of the state that it can change.
-/
namespace Sys2Proof.Machine
set_option Elab.async false

theorem State.trap_kept (s : State) (t cause tval : Nat) : Kept [.cores] s (State.trap s t cause tval) := by
  unfold State.trap
  try dsimp only
  repeat' first
    | with_reducible exact .refl _ _ | with_reducible assumption | with_reducible refine .ite ?_ ?_
    | with_reducible apply Kept.via (State.updCore_kept ..) | exact rfl

theorem State.takeIrq_kept (s : State) (t : Nat) : Kept [.cores] s (State.takeIrq s t) := by
  unfold State.takeIrq
  try dsimp only
  repeat' first
    | with_reducible exact .refl _ _ | with_reducible assumption | with_reducible apply Kept.via (State.trap_kept ..)
    | exact rfl | split

theorem State.evcSettle_kept (s : State) : Kept [.cores] s (State.evcSettle s) := by
  unfold State.evcSettle
  try dsimp only
  repeat' first
    | with_reducible exact .refl _ _ | with_reducible assumption | with_reducible apply Kept.via (State.evcRefresh_kept ..)
    | with_reducible apply Kept.via (State.takeIrq_kept ..) | with_reducible refine .each (fun _ _ => ?_) ?_ | exact rfl

theorem State.setLine_kept (s : State) (m : Nat) (on : Bool) : Kept [.evc] s (State.setLine s m on) := by
  unfold State.setLine
  try dsimp only
  repeat' first
    | with_reducible exact .refl _ _ | with_reducible assumption | with_reducible refine .ite ?_ ?_
    | (intro p; cases p <;> first | exact .inl (List.mem_of_elem_eq_true rfl) | exact .inr rfl | exact .inr True.intro) | split
    | dsimp only | with_reducible refine .update rfl rfl rfl ?_ ?_

theorem State.ringBell_kept (s : State) (k : Nat) : Kept [.evc, .reg .EVC_DBSET] s (State.ringBell s k) := by
  unfold State.ringBell
  try dsimp only
  repeat' first
    | with_reducible exact .refl _ _ | with_reducible assumption | with_reducible refine .ite ?_ ?_
    | with_reducible apply Kept.via (State.setBit_kept (.EVC_DBSET) ..) | with_reducible apply Kept.via (State.setLine_kept ..)
    | (intro p; cases p <;> first | exact .inl (List.mem_of_elem_eq_true rfl) | exact .inr rfl | exact .inr True.intro)
    | exact rfl | split | dsimp only | with_reducible refine .update rfl rfl rfl ?_ ?_

theorem State.takeSource_kept (s : State) (m t : Nat) : Kept [.evc, .reg .EVC_DBSET] s (State.takeSource s m t) := by
  unfold State.takeSource
  try dsimp only
  repeat' first
    | with_reducible exact .refl _ _ | with_reducible assumption | with_reducible refine .ite ?_ ?_
    | with_reducible apply Kept.via (State.clrBit_kept (.EVC_DBSET) ..) | with_reducible apply Kept.via (State.setLine_kept ..)
    | (intro p; cases p <;> first | exact .inl (List.mem_of_elem_eq_true rfl) | exact .inr rfl | exact .inr True.intro)
    | exact rfl | split | dsimp only | with_reducible refine .update rfl rfl rfl ?_ ?_

theorem State.completeSource_kept (s : State) (m : Nat) : Kept [.evc, .reg .EVC_DBSET] s (State.completeSource s m) := by
  unfold State.completeSource
  try dsimp only
  repeat' first
    | with_reducible exact .refl _ _ | with_reducible assumption | with_reducible refine .ite ?_ ?_
    | with_reducible apply Kept.via (State.ringBell_kept ..)
    | (intro p; cases p <;> first | exact .inl (List.mem_of_elem_eq_true rfl) | exact .inr rfl | exact .inr True.intro)
    | exact rfl | split | dsimp only | with_reducible refine .update rfl rfl rfl ?_ ?_

theorem State.raiseExc_kept (s : State) (t code tval : Nat) : Kept [.cores] s (State.raiseExc s t code tval) := by
  unfold State.raiseExc
  try dsimp only
  repeat' first
    | with_reducible exact .refl _ _ | with_reducible assumption | with_reducible apply Kept.via (State.updCore_kept ..)
    | with_reducible apply Kept.via (State.trap_kept ..) | exact rfl

theorem State.haltWatch_kept (s : State) (n : Nat) : Kept [.ssm, .reg .SSM_WDSTATn] s (State.haltWatch s n) := by
  unfold State.haltWatch
  try dsimp only
  repeat' first
    | with_reducible exact .refl _ _ | with_reducible assumption | with_reducible refine .ite ?_ ?_
    | with_reducible apply Kept.via (State.setFld_kept (.SSM_WDSTATn _) ..)
    | with_reducible apply Kept.via (State.setWd_kept ..) | exact rfl

theorem State.replayed_kept (s : State) (t k : Nat) : Kept [.lsc, .reg .DBG_REPLAYn] s (State.replayed s t k) := by
  unfold State.replayed
  try dsimp only
  repeat' first
    | with_reducible exact .refl _ _ | with_reducible assumption | with_reducible refine .ite ?_ ?_
    | with_reducible apply Kept.via (State.setFld_kept (.DBG_REPLAYn _) ..)
    | with_reducible apply Kept.via (State.setPair_kept ..) | exact rfl

theorem State.replayDrain_kept (s : State) : Kept [.lsc, .reg .DBG_REPLAYn] s (State.replayDrain s) := by
  unfold State.replayDrain
  try dsimp only
  repeat' first
    | with_reducible exact .refl _ _ | with_reducible assumption
    | with_reducible apply Kept.via (State.setFld_kept (.DBG_REPLAYn _) ..)
    | with_reducible apply Kept.via (State.setPair_kept ..) | with_reducible refine .each (fun _ _ => ?_) ?_ | exact rfl

theorem State.enterHalt_kept (s : State) (t cause : Nat) : Kept [.cores, .ssm, .reg .LSC_STAT, .reg .SSM_WDSTATn, .reg
    .DBG_HALTSt] s (State.enterHalt s t cause) := by
  unfold State.enterHalt
  try dsimp only
  repeat' first
    | with_reducible exact .refl _ _ | with_reducible assumption | with_reducible refine .ite ?_ ?_
    | with_reducible apply Kept.via (State.incSat_kept (.DBG_HALTSt _) ..)
    | with_reducible apply Kept.via (State.updCore_kept ..) | with_reducible apply Kept.via (State.setLscStat_kept ..)
    | with_reducible apply Kept.via (State.haltWatch_kept ..) | exact rfl

theorem State.barred_kept {s x : State} {who : Requester} {a b : Nat} (e : s.barred who a b = some x) :
    Kept [.resp, .cores, .lsc, .ssm, .reg .LSC_STAT, .reg .SSM_WDSTATn, .reg .DBG_HALTSt, .reg .DBG_REPLAYn] s x := by
  have q : Kept [.resp] s { s with resp := ⟨.eFault, 0⟩ } := by
    refine .update rfl rfl rfl (fun p => ?_) (.refl _ _)
    cases p <;> first | exact .inl (List.mem_of_elem_eq_true rfl) | exact .inr rfl | exact .inr True.intro
  revert e
  unfold State.barred
  dsimp only
  generalize ({ s with resp := ⟨.eFault, 0⟩ } : State) = y at q ⊢
  split
  · nofun
  · nofun
  · split
    · nofun
    · split
      · split <;> rintro ⟨⟩
        · exact .via (State.replayed_kept ..) rfl (.via (State.enterHalt_kept ..) rfl (q.mono rfl))
        · exact .via (State.raiseExc_kept ..) rfl (q.mono rfl)
      · split
        · nofun
        · rintro ⟨⟩
          exact .via (State.raiseExc_kept ..) rfl (q.mono rfl)

theorem State.accessBy_kept {c : List Part} {s t u : State} {who : Requester} {a : Nat} {b : Bool}
    (m : Part.sub [.reg .SYS_WERR_CODE, .po, .cores, .dbg, .resp, .lsc, .ssm, .linkTries, .reg .LSC_STAT, .reg
      .SSM_WDSTATn, .reg .DBG_HALTSt, .reg .DBG_REPLAYn] c = true) (h : Kept c s t) (k : Kept c s u) : Kept c s (t.accessBy who a b u) := by
  unfold State.accessBy
  split
  · exact k
  · split
    · have q : Kept c s (t.refuse .eLocked a) := .via (State.refuse_kept ..) (Part.sub_trans rfl m) h
      dsimp only
      generalize t.refuse .eLocked a = x at q ⊢
      exact .via (Part.dbg_kept x _) (Part.sub_trans rfl m) q
    · rename_i n _
      have q := Kept.via (Part.dbg_kept u { u.dbg with active := true, hartsel := n }) (Part.sub_trans rfl m) k
      exact .ite q (.via (State.sbFail_kept ..) (Part.sub_trans rfl m) q)
  · split
    · rename_i e
      exact .via (State.barred_kept e) (Part.sub_trans rfl m) h
    · split
      · exact .via (State.raiseExc_kept ..) (Part.sub_trans rfl m) k
      · exact .ite (.via (State.linkDone_kept ..) (Part.sub_trans rfl m) k) k
      · exact k

theorem execEventLineChange_kept (m : Nat) (s : State) : KeptOut [.cores, .evc] s (execEventLineChange m s) := by
  unfold execEventLineChange
  repeat' first
    | with_reducible apply KeptOut.next | with_reducible apply KeptOut.ite | with_reducible exact .refl _ _
    | with_reducible assumption | with_reducible refine .ite ?_ ?_ | with_reducible apply Kept.via (State.evcSettle_kept ..)
    | with_reducible apply Kept.via (State.setLine_kept ..) | exact rfl

theorem State.claim_kept (s : State) (t : Nat) : Kept [.cores, .evc, .resp, .reg .EVC_DBSET] s (State.claim s t) := by
  unfold State.claim
  try dsimp only
  repeat' first
    | with_reducible exact .refl _ _ | with_reducible assumption | with_reducible refine .ite ?_ ?_
    | with_reducible apply Kept.via (State.respond_kept ..) | with_reducible apply Kept.via (State.updCore_kept ..)
    | with_reducible apply Kept.via (State.evcRefresh_kept ..) | with_reducible apply Kept.via (State.takeSource_kept ..)
    | exact rfl

theorem execEventClaim_kept (who : Requester) (t : Nat) (s : State) : KeptOut [.po, .cores, .lsc, .ssm, .evc, .dbg, .linkTries,
    .resp, .reg .SYS_WERR_CODE, .reg .LSC_STAT, .reg .SSM_WDSTATn, .reg .EVC_DBSET, .reg .DBG_REPLAYn, .reg .DBG_HALTSt] s
    (execEventClaim who t s) := by
  unfold execEventClaim
  repeat' first
    | with_reducible apply KeptOut.next | with_reducible apply KeptOut.ite | with_reducible exact .refl _ _
    | with_reducible assumption | with_reducible refine .ite ?_ ?_ | with_reducible apply Kept.via (State.respond_kept ..)
    | with_reducible apply Kept.via (State.refuse_kept ..) | with_reducible apply State.accessBy_kept
    | with_reducible apply Kept.via (State.claim_kept ..) | exact rfl | split

theorem execEventComplete_kept (who : Requester) (t : Nat) (value : Word) (s : State) : KeptOut [.po, .cores, .lsc, .ssm, .evc,
    .dbg, .linkTries, .resp, .reg .SYS_WERR_CODE, .reg .LSC_STAT, .reg .SSM_WDSTATn, .reg .EVC_DBSET, .reg .DBG_REPLAYn, .reg
    .DBG_HALTSt] s (execEventComplete who t value s) := by
  unfold execEventComplete
  repeat' first
    | with_reducible apply KeptOut.next | with_reducible apply KeptOut.ite | with_reducible exact .refl _ _
    | with_reducible assumption | with_reducible refine .ite ?_ ?_ | with_reducible apply Kept.via (State.respond_kept ..)
    | with_reducible apply Kept.via (State.refuse_kept ..) | with_reducible apply Kept.via (State.evcSettle_kept ..)
    | with_reducible apply Kept.via (State.completeSource_kept ..) | with_reducible apply State.accessBy_kept | exact rfl
    | split

theorem execDoorbellSet_kept (who : Requester) (value : Word) (s : State) : KeptOut [.po, .cores, .lsc, .ssm, .evc, .dbg,
    .linkTries, .resp, .reg .SYS_WERR_CODE, .reg .LSC_STAT, .reg .SSM_WDSTATn, .reg .EVC_DBSET, .reg .DBG_REPLAYn, .reg
    .DBG_HALTSt] s (execDoorbellSet who value s) := by
  unfold execDoorbellSet
  repeat' first
    | with_reducible apply KeptOut.next | with_reducible apply KeptOut.ite | with_reducible exact .refl _ _
    | with_reducible assumption | with_reducible refine .ite ?_ ?_ | with_reducible apply Kept.via (State.respond_kept ..)
    | with_reducible apply Kept.via (State.refuse_kept ..) | with_reducible apply Kept.via (State.evcSettle_kept ..)
    | with_reducible apply Kept.via (State.ringBell_kept ..) | with_reducible apply State.accessBy_kept
    | with_reducible refine .each (fun _ _ => ?_) ?_ | exact rfl

theorem execEventSourceWrite_kept (who : Requester) (m : Nat) (value : Word) (s : State) : KeptOut [.po, .cores, .lsc, .ssm,
    .dbg, .linkTries, .resp, .reg .SYS_WERR_CODE, .reg .LSC_STAT, .reg .SSM_WDSTATn, .reg .EVC_SRCm, .reg .DBG_REPLAYn, .reg
    .DBG_HALTSt] s (execEventSourceWrite who m value s) := by
  unfold execEventSourceWrite
  repeat' first
    | with_reducible apply KeptOut.next | with_reducible apply KeptOut.ite | with_reducible exact .refl _ _
    | with_reducible assumption | with_reducible refine .ite ?_ ?_
    | with_reducible apply Kept.via (State.setReg_kept (.EVC_SRCm _) ..) | with_reducible apply State.tryWrite_kept
    | with_reducible apply Kept.via (State.evcSettle_kept ..) | with_reducible apply State.accessBy_kept | exact rfl | split
    | dsimp only | intro _

theorem execStrandedEvent_kept (m : Nat) (s : State) : KeptOut [.reg .EVC_EVT, .reg .EVC_STRAND] s (execStrandedEvent m s) := by
  unfold execStrandedEvent
  repeat' first
    | with_reducible apply KeptOut.next | with_reducible apply KeptOut.ite | with_reducible exact .refl _ _
    | with_reducible assumption | with_reducible refine .ite ?_ ?_
    | with_reducible apply Kept.via (State.incSat_kept (.EVC_STRAND) ..)
    | with_reducible apply Kept.via (State.setFlag_kept (.EVC_EVT) ..)
    | with_reducible apply Kept.via (State.setFld_kept (.EVC_STRAND) ..) | exact rfl

theorem State.dropCore_kept (s : State) (t : Nat) : Kept [.cores, .evc, .reg .EVC_DBSET, .reg .EVC_FASTt] s (State.dropCore s
    t) := by
  unfold State.dropCore
  try dsimp only
  repeat' first
    | with_reducible exact .refl _ _ | with_reducible assumption
    | with_reducible apply Kept.via (State.setReg_kept (.EVC_FASTt _) ..)
    | with_reducible apply Kept.via (State.updCore_kept ..) | with_reducible apply Kept.via (State.evcRefresh_kept ..)
    | with_reducible apply Kept.via (State.completeSource_kept ..) | with_reducible refine .each (fun _ _ => ?_) ?_ | exact rfl

theorem execCoreUnavailable_kept (t : Nat) (s : State) : KeptOut [.cores, .evc, .reg .EVC_DBSET, .reg .EVC_FASTt] s
    (execCoreUnavailable t s) := by
  unfold execCoreUnavailable
  repeat' first
    | with_reducible apply KeptOut.next | with_reducible apply KeptOut.ite | with_reducible exact .refl _ _
    | with_reducible assumption | with_reducible refine .ite ?_ ?_ | with_reducible apply Kept.via (State.dropCore_kept ..)
    | exact rfl

theorem State.endWfi_kept (s : State) (t : Nat) : Kept [.cores, .reg .PST_SLEEP] s (State.endWfi s t) := by
  unfold State.endWfi
  try dsimp only
  repeat' first
    | with_reducible exact .refl _ _ | with_reducible assumption | with_reducible refine .ite ?_ ?_
    | with_reducible apply Kept.via (State.updCore_kept ..) | with_reducible apply Kept.via (State.leaveSleep_kept ..)
    | exact rfl

theorem execWfi_kept (t : Nat) (s : State) : KeptOut [.cores, .reg .PST_SLEEP] s (execWfi t s) := by
  unfold execWfi
  repeat' first
    | with_reducible apply KeptOut.next | with_reducible apply KeptOut.ite | with_reducible exact .refl _ _
    | with_reducible assumption | with_reducible refine .ite ?_ ?_ | with_reducible apply Kept.via (State.updCore_kept ..)
    | with_reducible apply Kept.via (State.leaveSleep_kept ..) | exact rfl

theorem execCoreWake_kept (t kind id : Nat) (s : State) : KeptOut [.cores, .reg .PST_SLEEP, .reg .EVC_WAKEt] s (execCoreWake t
    kind id s) := by
  unfold execCoreWake
  repeat' first
    | with_reducible apply KeptOut.next | with_reducible apply KeptOut.ite | with_reducible exact .refl _ _
    | with_reducible assumption | with_reducible refine .ite ?_ ?_
    | with_reducible apply Kept.via (State.setReg_kept (.EVC_WAKEt _) ..)
    | with_reducible apply Kept.via (State.updCore_kept ..) | with_reducible apply Kept.via (State.leaveSleep_kept ..)
    | with_reducible apply Kept.via (State.takeIrq_kept ..) | exact rfl

theorem execMachineTimerExpiry_kept (t : Nat) (s : State) : KeptOut [.cores] s (execMachineTimerExpiry t s) := by
  unfold execMachineTimerExpiry
  repeat' first
    | with_reducible apply KeptOut.next | with_reducible apply KeptOut.ite | with_reducible exact .refl _ _
    | with_reducible assumption | with_reducible refine .ite ?_ ?_ | with_reducible apply Kept.via (State.takeIrq_kept ..)
    | exact rfl

theorem State.fastEntry_kept (s : State) (t pc : Nat) : Kept [.cores, .evc, .reg .PST_SLEEP, .reg .EVC_DBSET, .reg .EVC_FASTt,
    .reg .EVC_WAKEt] s (State.fastEntry s t pc) := by
  unfold State.fastEntry
  try dsimp only
  repeat' first
    | with_reducible exact .refl _ _ | with_reducible assumption | with_reducible refine .ite ?_ ?_
    | with_reducible apply Kept.via (State.setReg_kept (.EVC_FASTt _) ..)
    | with_reducible apply Kept.via (State.setReg_kept (.EVC_WAKEt _) ..)
    | with_reducible apply Kept.via (State.setCore_kept ..) | with_reducible apply Kept.via (State.evcRefresh_kept ..)
    | with_reducible apply Kept.via (State.leaveSleep_kept ..) | with_reducible apply Kept.via (State.takeSource_kept ..)
    | exact rfl | split

theorem execFastEventEntry_kept (t pc : Nat) (s : State) : KeptOut [.cores, .evc, .reg .PST_SLEEP, .reg .EVC_DBSET, .reg
    .EVC_FASTt, .reg .EVC_WAKEt] s (execFastEventEntry t pc s) := by
  unfold execFastEventEntry
  repeat' first
    | with_reducible apply KeptOut.next | with_reducible exact .refl _ _
    | with_reducible apply Kept.via (State.fastEntry_kept ..) | exact rfl

theorem execFret_kept (t : Nat) (s : State) : KeptOut [.cores, .evc, .reg .EVC_DBSET, .reg .EVC_FASTt] s (execFret t s) := by
  unfold execFret
  repeat' first
    | with_reducible apply KeptOut.next | with_reducible apply KeptOut.ite | with_reducible exact .refl _ _
    | with_reducible assumption | with_reducible refine .ite ?_ ?_
    | with_reducible apply Kept.via (State.setReg_kept (.EVC_FASTt _) ..)
    | with_reducible apply Kept.via (State.updCore_kept ..) | with_reducible apply Kept.via (State.evcSettle_kept ..)
    | with_reducible apply Kept.via (State.completeSource_kept ..) | with_reducible apply Kept.via (State.raiseExc_kept ..)
    | exact rfl

theorem State.csrWrite_kept (s : State) (t csr : Nat) (v : Word) (debug : Bool) : Kept [.cores, .tick] s (State.csrWrite s t
    csr v debug) := by
  unfold State.csrWrite
  lift_lets
  repeat'
    intro x
    first
    | have hx : Kept [.cores, .tick] s x := by
        dsimp only [x]
        repeat' first
          | with_reducible exact .refl _ _ | with_reducible assumption | with_reducible refine .ite ?_ ?_
          | with_reducible apply Kept.via (State.setCore_kept ..) | with_reducible apply Kept.via (State.updCore_kept ..)
          | with_reducible refine .each (fun _ _ => ?_) ?_
          | (intro p; cases p <;> first | exact .inl (List.mem_of_elem_eq_true rfl) | exact .inr rfl | exact .inr True.intro)
          | exact rfl | split | dsimp only | with_reducible refine .update rfl rfl rfl ?_ ?_
      clear_value x
    | skip
  repeat' first
    | with_reducible exact .refl _ _ | with_reducible assumption | with_reducible refine .ite ?_ ?_
    | with_reducible apply Kept.via (State.setCore_kept ..) | with_reducible apply Kept.via (State.updCore_kept ..)
    | with_reducible refine .each (fun _ _ => ?_) ?_
    | (intro p; cases p <;> first | exact .inl (List.mem_of_elem_eq_true rfl) | exact .inr rfl | exact .inr True.intro)
    | exact rfl | split | dsimp only | with_reducible refine .update rfl rfl rfl ?_ ?_

theorem execDeviceCsrAccess_kept (t csr op : Nat) (value : Word) (s : State) : KeptOut [.cores, .resp, .tick] s
    (execDeviceCsrAccess t csr op value s) := by
  unfold execDeviceCsrAccess
  repeat' first
    | with_reducible apply KeptOut.next | with_reducible apply KeptOut.ite | with_reducible exact .refl _ _
    | with_reducible assumption | with_reducible refine .ite ?_ ?_ | with_reducible apply Kept.via (State.respond_kept ..)
    | with_reducible apply Kept.via (State.takeIrq_kept ..) | with_reducible apply Kept.via (State.raiseExc_kept ..)
    | with_reducible apply Kept.via (State.csrWrite_kept ..)
    | (intro p; cases p <;> first | exact .inl (List.mem_of_elem_eq_true rfl) | exact .inr rfl | exact .inr True.intro)
    | exact rfl | split | dsimp only | with_reducible refine .update rfl rfl rfl ?_ ?_

theorem specEvcRing_kept  (s : State) (m : Msg) (k : Nat) : Kept [.cores, .evc, .reg .EVC_DBSET] s (specEvcRing.run s m k).1 :=
    by
  unfold specEvcRing
  try dsimp only
  repeat' first
    | with_reducible exact .refl _ _ | with_reducible assumption | with_reducible refine .ite ?_ ?_
    | with_reducible apply Kept.via (doneWith_kept ..) | with_reducible apply Kept.via (doneWith_kept_eq (by assumption))
    | with_reducible apply Kept.via (State.evcSettle_kept ..) | with_reducible apply Kept.via (State.ringBell_kept ..)
    | exact rfl

theorem execEvcRing_kept (m : Msg) (s : State) : KeptOut (Part.receipt [.cores, .evc, .reg .PST_OUTST, .reg .PST_MERR_CODE,
    .reg .EVC_DBSET]) s (execEvcRing m s) := by
  unfold execEvcRing
  repeat' first
    | with_reducible apply KeptOut.next | with_reducible exact .refl _ _
    | with_reducible apply deliver_kept rfl (fun s m k => (specEvcRing_kept s m k).mono rfl) _ _

theorem execRstPvecWrite_kept (who : Requester) (n : Nat) (value : Word) (s : State) : KeptOut [.po, .cores, .lsc, .ssm, .dbg,
    .linkTries, .resp, .reg .SYS_WERR_CODE, .reg .PST_SLEEP, .reg .LSC_STAT, .reg .SSM_WDSTATn, .reg .RST_PVECn, .reg
    .DBG_REPLAYn, .reg .DBG_HALTSt] s (execRstPvecWrite who n value s) := by
  unfold execRstPvecWrite
  repeat' first
    | with_reducible apply KeptOut.next | with_reducible apply KeptOut.ite | with_reducible exact .refl _ _
    | with_reducible assumption | with_reducible refine .ite ?_ ?_
    | with_reducible apply Kept.via (State.setReg_kept (.RST_PVECn _) ..)
    | with_reducible apply Kept.via (State.respond_kept ..) | with_reducible apply Kept.via (State.refuse_kept ..)
    | with_reducible apply Kept.via (State.updCore_kept ..) | with_reducible apply Kept.via (State.evcRefresh_kept ..)
    | with_reducible apply Kept.via (State.leaveSleep_kept ..) | with_reducible apply State.accessBy_kept | exact rfl | split

end Sys2Proof.Machine
end

