-- ==== Sys2Proof/Laws/KeptPostOffice.lean ====
section
/-!
SUPPORT. The frame of each operation of Sys2Proof/Machine/PostOffice.lean: the parts of the state that it can change.
-/
namespace Sys2Proof.Machine
set_option Elab.async false

theorem State.setWindow_kept (s : State) (ph j : Nat) (v : Word) : Kept [.po] s (State.setWindow s ph j v) := by
  unfold State.setWindow
  try dsimp only
  repeat' first
    | with_reducible exact .refl _ _ | with_reducible assumption | with_reducible apply Kept.via (State.setPigeon_kept ..)
    | exact rfl

theorem execLetterPost_kept (who : Requester) (ph : Nat) (value : Word) (s : State) : KeptOut (Part.receipt [.cores, .lsc,
    .ssm, .dbg, .linkTries, .resp, .reg .SYS_WERR_CODE, .reg .PHn_SEQ, .reg .LSC_STAT, .reg .SSM_WDSTATn, .reg .DBG_REPLAYn,
    .reg .DBG_HALTSt]) s (execLetterPost who ph value s) := by
  unfold execLetterPost
  repeat' first
    | with_reducible apply KeptOut.next | with_reducible apply KeptOut.ite | with_reducible exact .refl _ _
    | with_reducible assumption | with_reducible refine .ite ?_ ?_ | with_reducible apply Kept.via (State.setPigeon_kept ..)
    | with_reducible apply Kept.via (State.respond_kept ..) | with_reducible apply Kept.via (State.refuse_kept ..)
    | with_reducible apply Kept.via (intake_kept ..) | with_reducible apply State.accessBy_kept
    | with_reducible apply Kept.via (State.setWindow_kept ..) | exact rfl

theorem State.consumeTo_kept (s : State) (ph v : Nat) : Kept (Part.allBut [.variant, .split, .bootSplit, .up, .gf, .driveEn,
    .actEn, .recovery, .resp, .tick, .pending]) s (State.consumeTo s ph v) := by
  unfold State.consumeTo
  try dsimp only
  repeat' first
    | with_reducible exact .refl _ _ | with_reducible assumption | with_reducible refine .ite ?_ ?_
    | with_reducible apply Kept.via (State.setFld_kept (.PHn_HEAD _) ..)
    | with_reducible apply Kept.via (State.setPigeon_kept ..) | with_reducible apply Kept.via (State.syncHeld_kept ..)
    | with_reducible apply Kept.via (State.runReady_kept ..) | with_reducible apply Kept.via (State.handOver_kept ..)
    | exact rfl

theorem execReceiptConsume_kept (who : Requester) (ph : Nat) (value : Word) (s : State) : KeptOut (Part.allBut [.variant,
    .split, .bootSplit, .up, .gf, .driveEn, .actEn, .recovery, .tick, .pending]) s (execReceiptConsume who ph value s) := by
  unfold execReceiptConsume
  repeat' first
    | with_reducible apply KeptOut.next | with_reducible apply KeptOut.ite | with_reducible exact .refl _ _
    | with_reducible assumption | with_reducible refine .ite ?_ ?_ | with_reducible apply Kept.via (State.respond_kept ..)
    | with_reducible apply Kept.via (State.refuse_kept ..) | with_reducible apply State.accessBy_kept
    | with_reducible apply Kept.via (State.consumeTo_kept ..) | exact rfl | split

theorem execReceiptHandoverTimeout_kept (index : Nat) (s : State) : KeptOut (Part.allBut [.variant, .split, .bootSplit, .up,
    .gf, .driveEn, .actEn, .recovery, .resp, .tick, .pending]) s (execReceiptHandoverTimeout index s) := by
  unfold execReceiptHandoverTimeout
  repeat' first
    | with_reducible apply KeptOut.next | with_reducible exact .refl _ _ | with_reducible assumption
    | with_reducible apply Kept.via (State.runReady_kept ..)
    | (intro p; cases p <;> first | exact .inl (List.mem_of_elem_eq_true rfl) | exact .inr rfl | exact .inr True.intro)
    | exact rfl | split | dsimp only | with_reducible refine .update rfl rfl rfl ?_ ?_

theorem execReceiptModerationExpiry_kept (ph : Nat) (s : State) : KeptOut [.po, .reg .PHn_STAT] s (execReceiptModerationExpiry
    ph s) := by
  unfold execReceiptModerationExpiry
  repeat' first
    | with_reducible apply KeptOut.next | with_reducible apply KeptOut.ite | with_reducible exact .refl _ _
    | with_reducible assumption | with_reducible refine .ite ?_ ?_ | with_reducible apply Kept.via (State.signalAll_kept ..)
    | exact rfl

theorem State.announce_kept (s : State) (b : Nat) : Kept [.po, .reg .PST_SLEEP, .reg .PHn_STAT] s (State.announce s b) := by
  unfold State.announce
  try dsimp only
  repeat' first
    | with_reducible exact .refl _ _ | with_reducible assumption | with_reducible refine .ite ?_ ?_
    | with_reducible apply Kept.via (State.setBit_kept (.PST_SLEEP) ..)
    | with_reducible apply Kept.via (State.signalAll_kept ..) | with_reducible refine .each (fun _ _ => ?_) ?_ | exact rfl

theorem execSleepAnnounce_kept (who : Requester) (value : Word) (s : State) : KeptOut [.po, .cores, .lsc, .ssm, .dbg,
    .linkTries, .resp, .reg .SYS_WERR_CODE, .reg .PST_SLEEP, .reg .PHn_STAT, .reg .LSC_STAT, .reg .SSM_WDSTATn, .reg
    .DBG_REPLAYn, .reg .DBG_HALTSt] s (execSleepAnnounce who value s) := by
  unfold execSleepAnnounce
  repeat' first
    | with_reducible apply KeptOut.next | with_reducible exact .refl _ _ | with_reducible assumption
    | with_reducible apply Kept.via (State.respond_kept ..) | with_reducible apply Kept.via (State.refuse_kept ..)
    | with_reducible apply State.accessBy_kept | with_reducible apply Kept.via (State.announce_kept ..)
    | with_reducible refine .each (fun _ _ => ?_) ?_ | exact rfl | split

theorem execSysWerrCodeRead_kept (who : Requester) (s : State) : KeptOut [.po, .cores, .lsc, .ssm, .dbg, .linkTries, .resp,
    .reg .SYS_WERR_CODE, .reg .SYS_WERR_ADDR, .reg .SYS_WERR_PM, .reg .LSC_STAT, .reg .SSM_WDSTATn, .reg .DBG_REPLAYn, .reg
    .DBG_HALTSt] s (execSysWerrCodeRead who s) := by
  unfold execSysWerrCodeRead
  repeat' first
    | with_reducible apply KeptOut.next | with_reducible apply KeptOut.ite | with_reducible exact .refl _ _
    | with_reducible assumption | with_reducible refine .ite ?_ ?_
    | with_reducible apply Kept.via (State.clrFlag_kept (.SYS_WERR_CODE) ..)
    | with_reducible apply Kept.via (State.setReg_kept (.SYS_WERR_ADDR) ..)
    | with_reducible apply Kept.via (State.setReg_kept (.SYS_WERR_PM) ..)
    | with_reducible apply Kept.via (State.respond_kept ..) | with_reducible apply State.accessBy_kept | exact rfl

theorem execPstMerrCodeRead_kept (who : Requester) (s : State) : KeptOut [.po, .cores, .lsc, .ssm, .dbg, .linkTries, .resp,
    .reg .SYS_WERR_CODE, .reg .PST_MERR_CODE, .reg .PST_MERR_ADDR, .reg .PST_MERR_PM, .reg .LSC_STAT, .reg .SSM_WDSTATn, .reg
    .DBG_REPLAYn, .reg .DBG_HALTSt] s (execPstMerrCodeRead who s) := by
  unfold execPstMerrCodeRead
  repeat' first
    | with_reducible apply KeptOut.next | with_reducible apply KeptOut.ite | with_reducible exact .refl _ _
    | with_reducible assumption | with_reducible refine .ite ?_ ?_
    | with_reducible apply Kept.via (State.clrFlag_kept (.PST_MERR_CODE) ..)
    | with_reducible apply Kept.via (State.setReg_kept (.PST_MERR_ADDR) ..)
    | with_reducible apply Kept.via (State.setReg_kept (.PST_MERR_PM) ..)
    | with_reducible apply Kept.via (State.respond_kept ..) | with_reducible apply State.accessBy_kept | exact rfl

theorem execLostCountRead_kept (who : Requester) (which : Nat) (s : State) : KeptOut [.po, .cores, .lsc, .ssm, .dbg,
    .linkTries, .resp, .reg .SYS_WERR_CODE, .reg .PST_DLJ_LOST, .reg .LSC_STAT, .reg .SSM_WDSTATn, .reg .DBG_REPLAYn, .reg
    .DBG_HALTSt, .reg .NVS_JLOST] s (execLostCountRead who which s) := by
  refine .next (State.accessBy_kept rfl (.refl _ _) ?_)
  split
  · exact .via (State.respond_kept ..) rfl (.via (State.setReg_kept .PST_DLJ_LOST ..) rfl (.refl _ _))
  · exact .via (State.respond_kept ..) rfl (.via (State.setReg_kept .NVS_JLOST ..) rfl (.refl _ _))

theorem specState_kept  (s : State) (m : Msg) (k : Nat) : Kept [] s (specState.run s m k).1 := by
  unfold specState
  try dsimp only
  repeat' first
    | with_reducible exact .refl _ _

theorem execState_kept (m : Msg) (s : State) : KeptOut (Part.receipt [.reg .PST_OUTST, .reg .PST_MERR_CODE]) s (execState m s)
    := by
  unfold execState
  repeat' first
    | with_reducible apply KeptOut.next | with_reducible exact .refl _ _
    | with_reducible apply deliver_kept rfl (fun s m k => (specState_kept s m k).mono rfl) _ _

end Sys2Proof.Machine
end

