-- ==== Sys2Proof/Laws/KeptMemory.lean ====
section
/-!
SUPPORT. The frame of each operation of Sys2Proof/Machine/Memory.lean: the parts of the state that it can change.
-/
namespace Sys2Proof.Machine
set_option Elab.async false

theorem State.syncNvs_kept (s : State) : Kept [.reg .NVS_STATE] s (State.syncNvs s) := by
  unfold State.syncNvs
  try dsimp only
  repeat' first
    | with_reducible exact .refl _ _ | with_reducible assumption
    | with_reducible apply Kept.via (State.setFld_kept (.NVS_STATE) ..) | exact rfl

theorem State.nvsPush_kept (s : State) (w : NvsWrite) : Kept [.nvs, .reg .NVS_STATE] s (State.nvsPush s w) := by
  unfold State.nvsPush
  try dsimp only
  repeat' first
    | with_reducible exact .refl _ _ | with_reducible assumption | with_reducible apply Kept.via (State.syncNvs_kept ..)
    | (intro p; cases p <;> first | exact .inl (List.mem_of_elem_eq_true rfl) | exact .inr rfl | exact .inr True.intro)
    | exact rfl | dsimp only | with_reducible refine .update rfl rfl rfl ?_ ?_

theorem State.oweBack_kept (s : State) (off : Nat) : Kept [.nvs, .reg .NVS_STATE] s (State.oweBack s off) := by
  unfold State.oweBack
  try dsimp only
  repeat' first
    | with_reducible exact .refl _ _ | with_reducible assumption | with_reducible refine .ite ?_ ?_
    | with_reducible apply Kept.via (State.nvsPush_kept ..)
    | (intro p; cases p <;> first | exact .inl (List.mem_of_elem_eq_true rfl) | exact .inr rfl | exact .inr True.intro)
    | exact rfl | split | dsimp only | with_reducible refine .update rfl rfl rfl ?_ ?_

theorem State.payBack_kept (s : State) : Kept [.nvs, .reg .NVS_STATE] s (State.payBack s) := by
  unfold State.payBack
  try dsimp only
  repeat' first
    | with_reducible exact .refl _ _ | with_reducible assumption | with_reducible apply Kept.via (State.oweBack_kept ..)
    | with_reducible refine .each (fun _ _ => ?_) ?_
    | (intro p; cases p <;> first | exact .inl (List.mem_of_elem_eq_true rfl) | exact .inr rfl | exact .inr True.intro)
    | exact rfl | dsimp only | with_reducible refine .update rfl rfl rfl ?_ ?_

theorem State.memError_kept (s : State) (store cw n : Nat) (ue : Bool) (req : Nat) : Kept (Part.journal [.memCap, .reg
    .MEM_EVT, .reg .MEM_LASTINFO, .reg .MEM_CNTs]) s (State.memError s store cw n ue req) := by
  unfold State.memError
  try dsimp only
  repeat' first
    | with_reducible exact .refl _ _ | with_reducible assumption | with_reducible refine .ite ?_ ?_
    | with_reducible apply Kept.via (State.incSat_kept (.MEM_CNTs _) ..)
    | with_reducible apply Kept.via (State.setFlag_kept (.MEM_EVT) ..)
    | with_reducible apply Kept.via (State.setReg_kept (.MEM_LASTINFO) ..)
    | with_reducible apply Kept.via (State.journal_kept ..)
    | (intro p; cases p <;> first | exact .inl (List.mem_of_elem_eq_true rfl) | exact .inr rfl | exact .inr True.intro)
    | exact rfl | split | dsimp only | with_reducible refine .update rfl rfl rfl ?_ ?_

theorem State.readCw_kept (s : State) (store cw : Nat) (upset : List (Nat × Byte)) (req : Nat) : Kept (Part.journal [.err,
    .memCap, .reg .MEM_EVT, .reg .MEM_LASTINFO, .reg .MEM_CNTs, .reg .NVS_STATE]) s (State.readCw s store cw upset req).1 := by
  unfold State.readCw
  try dsimp only
  repeat' first
    | with_reducible exact .refl _ _ | with_reducible assumption | with_reducible refine .ite ?_ ?_
    | with_reducible apply Kept.via (State.setErr_kept ..) | with_reducible apply Kept.via (State.oweBack_kept ..)
    | with_reducible apply Kept.via (State.memError_kept ..) | exact rfl | split
theorem State.readCw_kept_eq {s : State} {store cw : Nat} {upset : List (Nat × Byte)} {req : Nat} {r_} {x_} (h : State.readCw s
    store cw upset req = (r_, x_)) : Kept (Part.journal [.err, .memCap, .reg .MEM_EVT, .reg .MEM_LASTINFO, .reg .MEM_CNTs, .reg
    .NVS_STATE]) s r_ := by
  have k := State.readCw_kept s store cw upset req
  rw [h] at k
  exact k

theorem State.readSlot_kept (s : State) (i : Nat) : Kept (Part.journal [.err, .memCap, .reg .MEM_EVT, .reg .MEM_LASTINFO, .reg
    .MEM_CNTs, .reg .NVS_STATE]) s (State.readSlot s i).1 := by
  unfold State.readSlot
  try dsimp only
  repeat' first
    | with_reducible exact .refl _ _ | with_reducible assumption | with_reducible refine .ite ?_ ?_
    | with_reducible apply Kept.via (State.readCw_kept ..)
    | with_reducible apply Kept.via (State.readCw_kept_eq (by assumption)) | exact rfl | split
theorem State.readSlot_kept_eq {s : State} {i : Nat} {r_} {x_} (h : State.readSlot s i = (r_, x_)) : Kept (Part.journal [.err,
    .memCap, .reg .MEM_EVT, .reg .MEM_LASTINFO, .reg .MEM_CNTs, .reg .NVS_STATE]) s r_ := by
  have k := State.readSlot_kept s i
  rw [h] at k
  exact k

theorem State.accessFail_kept (s : State) (who : Requester) (a : MemOp) (st : Status) (capture : Bool) : Kept [.po, .cores,
    .dbg, .resp, .reg .SYS_WERR_CODE] s (State.accessFail s who a st capture) := by
  unfold State.accessFail
  try dsimp only
  repeat' first
    | with_reducible exact .refl _ _ | with_reducible assumption | with_reducible refine .ite ?_ ?_
    | with_reducible apply Kept.via (State.captureWerr_kept ..) | with_reducible apply Kept.via (State.sbFail_kept ..)
    | with_reducible apply Kept.via (State.raiseExc_kept ..)
    | (intro p; cases p <;> first | exact .inl (List.mem_of_elem_eq_true rfl) | exact .inr rfl | exact .inr True.intro)
    | exact rfl | split | dsimp only | with_reducible refine .update rfl rfl rfl ?_ ?_

theorem State.fabric_kept (s : State) (addr req n : Nat) (l : List (List (Nat × Byte))) : Kept (Part.journal [.err, .memCap,
    .reg .MEM_EVT, .reg .MEM_LASTINFO, .reg .MEM_CNTs]) s (State.fabric s addr req n l).1 := by
  induction n generalizing s l with
  | zero => cases l <;> exact .refl _ _
  | succ n ih =>
    cases l with
    | nil => exact .refl _ _
    | cons e t =>
      unfold State.fabric
      split
      · dsimp only
        exact (State.memError_kept ..).mono rfl
      · exact .trans ((State.memError_kept ..).mono rfl) (ih _ t)
      · exact .refl _ _
theorem State.fabric_kept_eq {s : State} {addr req n : Nat} {l : List (List (Nat × Byte))} {r_} {x_} (h : State.fabric s addr
    req n l = (r_, x_)) : Kept (Part.journal [.err, .memCap, .reg .MEM_EVT, .reg .MEM_LASTINFO, .reg .MEM_CNTs]) s r_ := by
  have k := State.fabric_kept s addr req n l
  rw [h] at k
  exact k

theorem State.memRead_kept (s : State) (store k n : Nat) (upset : List (Nat × Byte)) (req : Nat) : Kept (Part.journal [.err,
    .memCap, .reg .MEM_EVT, .reg .MEM_LASTINFO, .reg .MEM_CNTs, .reg .NVS_STATE]) s (State.memRead s store k n upset req).1 :=
    by
  unfold State.memRead
  try dsimp only
  repeat' first
    | with_reducible exact .refl _ _ | with_reducible assumption | with_reducible refine .ite ?_ ?_
    | with_reducible apply Kept.via (State.readCw_kept ..)
    | with_reducible apply Kept.via (State.readCw_kept_eq (by assumption)) | exact rfl | split
theorem State.memRead_kept_eq {s : State} {store k n : Nat} {upset : List (Nat × Byte)} {req : Nat} {r_} {x_} (h :
    State.memRead s store k n upset req = (r_, x_)) : Kept (Part.journal [.err, .memCap, .reg .MEM_EVT, .reg .MEM_LASTINFO,
    .reg .MEM_CNTs, .reg .NVS_STATE]) s r_ := by
  have k := State.memRead_kept s store k n upset req
  rw [h] at k
  exact k

theorem State.memWrite_kept (s : State) (store k : Nat) (data : List Byte) (upset : List (Nat × Byte)) (req : Nat) : Kept
    (Part.journal [.mem, .err, .memCap, .reg .MEM_EVT, .reg .MEM_LASTINFO, .reg .MEM_INJ, .reg .MEM_CNTs, .reg .NVS_STATE]) s
    (State.memWrite s store k data upset req).1 := by
  unfold State.memWrite
  try dsimp only
  repeat' first
    | with_reducible exact .refl _ _ | with_reducible assumption | with_reducible refine .ite ?_ ?_
    | with_reducible apply Kept.via (State.setBytes_kept ..) | with_reducible apply Kept.via (State.wroteCw_kept ..)
    | with_reducible apply Kept.via (State.readCw_kept ..)
    | with_reducible apply Kept.via (State.readCw_kept_eq (by assumption)) | exact rfl | split
theorem State.memWrite_kept_eq {s : State} {store k : Nat} {data : List Byte} {upset : List (Nat × Byte)} {req : Nat} {r_} {x_}
    (h : State.memWrite s store k data upset req = (r_, x_)) : Kept (Part.journal [.mem, .err, .memCap, .reg .MEM_EVT, .reg
    .MEM_LASTINFO, .reg .MEM_INJ, .reg .MEM_CNTs, .reg .NVS_STATE]) s r_ := by
  have k := State.memWrite_kept s store k data upset req
  rw [h] at k
  exact k

theorem State.cacheFill_kept (s : State) (t k : Nat) (fetch : Bool) : Kept [.cores] s (State.cacheFill s t k fetch) := by
  unfold State.cacheFill
  try dsimp only
  repeat' first
    | with_reducible exact .refl _ _ | with_reducible assumption | with_reducible refine .ite ?_ ?_
    | with_reducible apply Kept.via (State.updCore_kept ..) | with_reducible refine .foldl (fun _ _ => ?_) ?_ | exact rfl

theorem State.cacheDrop_kept (s : State) (t k : Nat) (fetch : Bool) : Kept [.cores] s (State.cacheDrop s t k fetch) := by
  unfold State.cacheDrop
  try dsimp only
  repeat' first
    | with_reducible exact .refl _ _ | with_reducible assumption | with_reducible refine .ite ?_ ?_
    | with_reducible apply Kept.via (State.updCore_kept ..) | exact rfl

theorem State.memLoad_kept (s : State) (who : Requester) (a : MemOp) (k : Nat) : Kept (Part.journal [.err, .po, .cores, .dbg,
    .memCap, .resp, .tick, .reg .SYS_WERR_CODE, .reg .MEM_EVT, .reg .MEM_LASTINFO, .reg .MEM_CNTs, .reg .NVS_STATE]) s
    (State.memLoad s who a k) := by
  unfold State.memLoad
  try dsimp only
  repeat' first
    | with_reducible exact .refl _ _ | with_reducible assumption | with_reducible refine .ite ?_ ?_
    | with_reducible apply Kept.via (State.respond_kept ..) | with_reducible apply Kept.via (State.memError_kept ..)
    | with_reducible apply Kept.via (State.accessFail_kept ..) | with_reducible apply Kept.via (State.memRead_kept ..)
    | with_reducible apply Kept.via (State.memRead_kept_eq (by assumption))
    | with_reducible apply Kept.via (State.cacheFill_kept ..) | with_reducible apply Kept.via (State.cacheDrop_kept ..)
    | (intro p; cases p <;> first | exact .inl (List.mem_of_elem_eq_true rfl) | exact .inr rfl | exact .inr True.intro)
    | exact rfl | split | dsimp only | with_reducible refine .update rfl rfl rfl ?_ ?_

theorem State.stored_kept (s : State) (t : Option Nat) (k : Nat) (data : List Byte) : Kept [.cores] s (State.stored s t k data)
    := by
  unfold State.stored
  try dsimp only
  repeat' first
    | with_reducible exact .refl _ _ | with_reducible assumption | with_reducible refine .ite ?_ ?_
    | with_reducible apply Kept.via (State.updCore_kept ..) | with_reducible refine .each (fun _ _ => ?_) ?_ | exact rfl
    | split

theorem State.memStore_kept (s : State) (who : Requester) (a : MemOp) (k store : Nat) : Kept (Part.journal [.mem, .err, .po,
    .cores, .dbg, .memCap, .resp, .reg .SYS_WERR_CODE, .reg .MEM_EVT, .reg .MEM_LASTINFO, .reg .MEM_INJ, .reg .MEM_CNTs, .reg
    .NVS_STATE]) s (State.memStore s who a k store) := by
  unfold State.memStore
  try dsimp only
  repeat' first
    | with_reducible exact .refl _ _ | with_reducible assumption | with_reducible refine .ite ?_ ?_
    | with_reducible apply Kept.via (State.respond_kept ..) | with_reducible apply Kept.via (State.updCore_kept ..)
    | with_reducible apply Kept.via (State.accessFail_kept ..) | with_reducible apply Kept.via (State.memRead_kept ..)
    | with_reducible apply Kept.via (State.memRead_kept_eq (by assumption))
    | with_reducible apply Kept.via (State.memWrite_kept ..)
    | with_reducible apply Kept.via (State.memWrite_kept_eq (by assumption))
    | with_reducible apply Kept.via (State.stored_kept ..) | exact rfl | split

theorem State.memAccess_kept (s : State) (who : Requester) (a : MemOp) : Kept (Part.journal [.mem, .err, .po, .cores, .dbg,
    .memCap, .resp, .tick, .reg .SYS_WERR_CODE, .reg .MEM_EVT, .reg .MEM_LASTINFO, .reg .MEM_INJ, .reg .MEM_CNTs, .reg
    .NVS_STATE]) s (State.memAccess s who a) := by
  unfold State.memAccess
  try dsimp only
  repeat' first
    | with_reducible exact .refl _ _ | with_reducible assumption | with_reducible refine .ite ?_ ?_
    | with_reducible apply Kept.via (State.updCore_kept ..) | with_reducible apply Kept.via (State.accessFail_kept ..)
    | with_reducible apply Kept.via (State.fabric_kept ..)
    | with_reducible apply Kept.via (State.fabric_kept_eq (by assumption))
    | with_reducible apply Kept.via (State.memLoad_kept ..) | with_reducible apply Kept.via (State.memStore_kept ..)
    | exact rfl | split

theorem execScrubVisit_kept (store cw : Nat) (upset : List (Nat × Byte)) (crossed : Bool) (s : State) : KeptOut (Part.journal
    [.err, .memCap, .reg .MEM_EVT, .reg .MEM_LASTINFO, .reg .MEM_CNTs, .reg .NVS_STATE]) s (execScrubVisit store cw upset
    crossed s) := by
  unfold execScrubVisit
  repeat' first
    | with_reducible apply KeptOut.next | with_reducible apply KeptOut.ite | with_reducible exact .refl _ _
    | with_reducible assumption | with_reducible refine .ite ?_ ?_ | with_reducible apply Kept.via (State.setErr_kept ..)
    | with_reducible apply Kept.via (State.readCw_kept ..)
    | with_reducible apply Kept.via (State.readCw_kept_eq (by assumption)) | exact rfl | split | dsimp only

theorem execTableRestore_kept (off : Nat) (upset : List (Nat × Byte)) (s : State) : KeptOut (Part.journal [.mem, .err,
    .restFail, .memCap, .reg .MEM_EVT, .reg .MEM_LASTINFO, .reg .MEM_INJ, .reg .MEM_CNTs, .reg .NVS_STATE]) s (execTableRestore
    off upset s) := by
  unfold execTableRestore
  repeat' first
    | with_reducible apply KeptOut.next | with_reducible exact .refl _ _ | with_reducible assumption
    | with_reducible apply Kept.via (State.setFlag_kept (.MEM_EVT) ..) | with_reducible apply Kept.via (State.setBytes_kept ..)
    | with_reducible apply Kept.via (State.wroteCw_kept ..) | with_reducible apply Kept.via (State.readCw_kept ..)
    | with_reducible apply Kept.via (State.readCw_kept_eq (by assumption))
    | (intro p; cases p <;> first | exact .inl (List.mem_of_elem_eq_true rfl) | exact .inr rfl | exact .inr True.intro)
    | exact rfl | split | dsimp only | with_reducible refine .update rfl rfl rfl ?_ ?_

theorem execMemLastinfoRead_kept (who : Requester) (s : State) : KeptOut [.po, .cores, .lsc, .ssm, .dbg, .linkTries, .resp,
    .reg .SYS_WERR_CODE, .reg .LSC_STAT, .reg .SSM_WDSTATn, .reg .DBG_REPLAYn, .reg .DBG_HALTSt, .reg .MEM_LASTADDR, .reg
    .MEM_LASTINFO] s (execMemLastinfoRead who s) := by
  unfold execMemLastinfoRead
  repeat' first
    | with_reducible apply KeptOut.next | with_reducible apply KeptOut.ite | with_reducible exact .refl _ _
    | with_reducible assumption | with_reducible refine .ite ?_ ?_
    | with_reducible apply Kept.via (State.clrFlag_kept (.MEM_LASTINFO) ..)
    | with_reducible apply Kept.via (State.setReg_kept (.MEM_LASTADDR) ..)
    | with_reducible apply Kept.via (State.respond_kept ..) | with_reducible apply State.accessBy_kept | exact rfl

theorem execErrorInjection_kept (who : Requester) (value : Word) (s : State) : KeptOut [.po, .cores, .lsc, .ssm, .dbg,
    .linkTries, .resp, .reg .SYS_WERR_CODE, .reg .LSC_STAT, .reg .SSM_WDSTATn, .reg .DBG_REPLAYn, .reg .DBG_HALTSt, .reg
    .MEM_INJ] s (execErrorInjection who value s) := by
  unfold execErrorInjection
  repeat' first
    | with_reducible apply KeptOut.next | with_reducible apply KeptOut.ite | with_reducible exact .refl _ _
    | with_reducible assumption | with_reducible refine .ite ?_ ?_
    | with_reducible apply Kept.via (State.plainWrite_kept (.MEM_INJ) ..) | with_reducible apply State.tryWrite_kept
    | with_reducible apply State.accessBy_kept | exact rfl | split | dsimp only | intro _

theorem execErrorCountClear_kept (who : Requester) (i : Nat) (value : Word) (s : State) : KeptOut [.po, .cores, .lsc, .ssm,
    .dbg, .linkTries, .resp, .reg .SYS_WERR_CODE, .reg .LSC_STAT, .reg .SSM_WDSTATn, .reg .DBG_REPLAYn, .reg .DBG_HALTSt, .reg
    .MEM_CNTs] s (execErrorCountClear who i value s) := by
  unfold execErrorCountClear
  repeat' first
    | with_reducible apply KeptOut.next | with_reducible apply KeptOut.ite | with_reducible exact .refl _ _
    | with_reducible assumption | with_reducible refine .ite ?_ ?_
    | with_reducible apply Kept.via (State.setReg_kept (.MEM_CNTs _) ..) | with_reducible apply State.tryWrite_kept
    | with_reducible apply State.accessBy_kept | exact rfl | split | dsimp only | intro _

theorem State.losePulse_kept (s : State) : Kept [.mem, .err, .nvs, .tick, .reg .NVS_STATE] s (State.losePulse s) := by
  unfold State.losePulse
  try dsimp only
  repeat' first
    | with_reducible exact .refl _ _ | with_reducible assumption | with_reducible refine .ite ?_ ?_
    | with_reducible apply Kept.via (State.setBytes_kept ..) | with_reducible apply Kept.via (State.setErr_kept ..)
    | with_reducible apply Kept.via (State.drawN_kept ..) | with_reducible apply Kept.via (State.drawN_kept_eq (by assumption))
    | with_reducible apply Kept.via (State.syncNvs_kept ..)
    | (intro p; cases p <;> first | exact .inl (List.mem_of_elem_eq_true rfl) | exact .inr rfl | exact .inr True.intro)
    | exact rfl | split | dsimp only | with_reducible refine .update rfl rfl rfl ?_ ?_

theorem State.clearData_kept {k : Reg} {r : Nat → Nat} (h : ∀ j, k.At (r j)) (s : State) : Kept [.reg k] s (s.clearData r) :=
  .each (fun _ j => State.setReg_kept (h j) ..) (.refl _ _)

theorem State.slotWrite_kept (s : State) (target off : Nat) (data : List Byte) : Kept [.icheck, .fcheck, .nvs, .reg .NVS_STATE]
    s (State.slotWrite s target off data) := by
  unfold State.slotWrite
  try dsimp only
  repeat' first
    | with_reducible exact .refl _ _ | with_reducible assumption | with_reducible refine .ite ?_ ?_
    | with_reducible apply Kept.via (State.nvsPush_kept ..)
    | (intro p; cases p <;> first | exact .inl (List.mem_of_elem_eq_true rfl) | exact .inr rfl | exact .inr True.intro)
    | exact rfl | split | dsimp only | with_reducible refine .update rfl rfl rfl ?_ ?_

theorem State.nvsCommand_kept (s : State) (who : Requester) (target : Nat) (value : Word) : Kept [.po, .icheck, .fcheck, .nvs,
    .resp, .reg .SYS_WERR_CODE, .reg .NVS_STATE, .reg .NVS_WDATAj] s (State.nvsCommand s who target value) := by
  unfold State.nvsCommand
  try dsimp only
  repeat' first
    | with_reducible exact .refl _ _ | with_reducible assumption | with_reducible refine .ite ?_ ?_
    | with_reducible apply Kept.via (State.clearData_kept (fun _ => (.NVS_WDATAj _)) ..)
    | with_reducible apply Kept.via (State.respond_kept ..) | with_reducible apply Kept.via (State.refuse_kept ..)
    | with_reducible apply Kept.via (State.nvsPush_kept ..) | with_reducible apply Kept.via (State.slotWrite_kept ..)
    | exact rfl | split

theorem execNvsWindowWrite_kept (who : Requester) (s : State) : KeptOut [.po, .icheck, .fcheck, .nvs, .cores, .lsc, .ssm, .dbg,
    .linkTries, .resp, .reg .SYS_WERR_CODE, .reg .LSC_STAT, .reg .SSM_WDSTATn, .reg .DBG_REPLAYn, .reg .DBG_HALTSt, .reg
    .NVS_STATE, .reg .NVS_WDATAj] s (execNvsWindowWrite who s) := by
  unfold execNvsWindowWrite
  repeat' first
    | with_reducible apply KeptOut.next | with_reducible exact .refl _ _ | with_reducible assumption
    | with_reducible apply State.accessBy_kept | with_reducible apply Kept.via (State.nvsCommand_kept ..) | exact rfl

theorem execNvsStructureSlotWrite_kept (who : Requester) (s : State) : KeptOut [.po, .icheck, .fcheck, .nvs, .cores, .lsc,
    .ssm, .dbg, .linkTries, .resp, .reg .SYS_WERR_CODE, .reg .LSC_STAT, .reg .SSM_WDSTATn, .reg .DBG_REPLAYn, .reg .DBG_HALTSt,
    .reg .NVS_STATE, .reg .NVS_WDATAj] s (execNvsStructureSlotWrite who s) := by
  unfold execNvsStructureSlotWrite
  repeat' first
    | with_reducible apply KeptOut.next | with_reducible exact .refl _ _ | with_reducible assumption
    | with_reducible apply State.accessBy_kept | with_reducible apply Kept.via (State.nvsCommand_kept ..) | exact rfl

theorem execNvsFirmwareSlotWrite_kept (who : Requester) (s : State) : KeptOut [.po, .icheck, .fcheck, .nvs, .cores, .lsc, .ssm,
    .dbg, .linkTries, .resp, .reg .SYS_WERR_CODE, .reg .LSC_STAT, .reg .SSM_WDSTATn, .reg .DBG_REPLAYn, .reg .DBG_HALTSt, .reg
    .NVS_STATE, .reg .NVS_WDATAj] s (execNvsFirmwareSlotWrite who s) := by
  unfold execNvsFirmwareSlotWrite
  repeat' first
    | with_reducible apply KeptOut.next | with_reducible exact .refl _ _ | with_reducible assumption
    | with_reducible apply State.accessBy_kept | with_reducible apply Kept.via (State.nvsCommand_kept ..) | exact rfl

theorem execMramScrub_kept (off : Nat) (upset : List (Nat × Byte)) (s : State) : KeptOut (Part.journal [.err, .memCap, .reg
    .MEM_EVT, .reg .MEM_LASTINFO, .reg .MEM_CNTs, .reg .NVS_STATE]) s (execMramScrub off upset s) := by
  unfold execMramScrub
  repeat' first
    | with_reducible apply KeptOut.next | with_reducible apply KeptOut.ite | with_reducible exact .refl _ _
    | with_reducible assumption | with_reducible refine .ite ?_ ?_ | with_reducible apply Kept.via (State.readCw_kept ..)
    | with_reducible apply Kept.via (State.readCw_kept_eq (by assumption)) | exact rfl

theorem State.commitEnds_kept (s : State) (c : Commit) (st : Status) : Kept (Part.receipt [.icheck, .fcheck]) s
    (State.commitEnds s c st) := by
  unfold State.commitEnds
  try dsimp only
  repeat' first
    | with_reducible exact .refl _ _ | with_reducible assumption | with_reducible refine .ite ?_ ?_
    | with_reducible apply Kept.via (State.deadLetter_kept ..) | with_reducible apply Kept.via (State.issueReceipt_kept ..)
    | with_reducible apply Kept.via (State.issueReceipt_kept_eq (by assumption))
    | with_reducible apply Kept.via (State.defer_kept ..)
    | (intro p; cases p <;> first | exact .inl (List.mem_of_elem_eq_true rfl) | exact .inr rfl | exact .inr True.intro)
    | exact rfl | split | dsimp only | with_reducible refine .update rfl rfl rfl ?_ ?_

theorem State.commitWrite_kept (s : State) (c : Commit) : Kept (Part.receipt [.icheck, .fcheck, .reg .NVS_STATE]) s
    (State.commitWrite s c) := by
  unfold State.commitWrite
  try dsimp only
  repeat' first
    | with_reducible exact .refl _ _ | with_reducible assumption | with_reducible refine .ite ?_ ?_
    | with_reducible apply Kept.via (State.nvsPush_kept ..) | with_reducible apply Kept.via (State.commitEnds_kept ..)
    | (intro p; cases p <;> first | exact .inl (List.mem_of_elem_eq_true rfl) | exact .inr rfl | exact .inr True.intro)
    | exact rfl | split | dsimp only | with_reducible refine .update rfl rfl rfl ?_ ?_

theorem State.commitPulse_kept (s : State) (w : NvsWrite) : Kept (Part.receipt [.icheck, .fcheck, .tick, .reg .NVS_STATE]) s
    (State.commitPulse s w) := by
  unfold State.commitPulse
  try dsimp only
  repeat' first
    | with_reducible exact .refl _ _ | with_reducible assumption | with_reducible refine .ite ?_ ?_
    | with_reducible apply Kept.via (State.setErr_kept ..) | with_reducible apply Kept.via (State.draw_kept ..)
    | with_reducible apply Kept.via (State.draw_kept_eq (by assumption)) | with_reducible apply Kept.via (State.drawN_kept ..)
    | with_reducible apply Kept.via (State.drawN_kept_eq (by assumption))
    | with_reducible apply Kept.via (State.commitEnds_kept ..) | with_reducible apply Kept.via (State.commitWrite_kept ..)
    | (intro p; cases p <;> first | exact .inl (List.mem_of_elem_eq_true rfl) | exact .inr rfl | exact .inr True.intro)
    | exact rfl | split | dsimp only | with_reducible refine .update rfl rfl rfl ?_ ?_

theorem State.writeJPtr_kept (s : State) : Kept [.nvs, .reg .NVS_STATE] s (State.writeJPtr s) := by
  unfold State.writeJPtr
  lift_lets
  repeat'
    intro x
    first
    | have hx : Kept [.nvs, .reg .NVS_STATE] s x := by
        dsimp only [x]
        repeat' first
          | with_reducible exact .refl _ _ | with_reducible assumption | with_reducible apply Kept.via (State.nvsPush_kept ..)
          | (intro p; cases p <;> first | exact .inl (List.mem_of_elem_eq_true rfl) | exact .inr rfl | exact .inr True.intro)
          | exact rfl | dsimp only | with_reducible refine .update rfl rfl rfl ?_ ?_
      clear_value x
    | skip
  repeat' first
    | with_reducible exact .refl _ _ | with_reducible assumption | with_reducible apply Kept.via (State.nvsPush_kept ..)
    | (intro p; cases p <;> first | exact .inl (List.mem_of_elem_eq_true rfl) | exact .inr rfl | exact .inr True.intro)
    | exact rfl | dsimp only | with_reducible refine .update rfl rfl rfl ?_ ?_

theorem State.journalOut_kept (s : State) : Kept [.nvs, .reg .NVS_STATE] s (State.journalOut s) := by
  unfold State.journalOut
  try dsimp only
  repeat' first
    | with_reducible exact .refl _ _ | with_reducible assumption | with_reducible refine .ite ?_ ?_
    | with_reducible apply Kept.via (State.nvsPush_kept ..) | with_reducible apply Kept.via (State.writeJPtr_kept ..)
    | with_reducible refine .each (fun _ _ => ?_) ?_
    | (intro p; cases p <;> first | exact .inl (List.mem_of_elem_eq_true rfl) | exact .inr rfl | exact .inr True.intro)
    | exact rfl | split | dsimp only | with_reducible refine .update rfl rfl rfl ?_ ?_

theorem execJournalWrite_kept (s : State) : KeptOut [.nvs, .reg .NVS_STATE] s (execJournalWrite s) := by
  unfold execJournalWrite
  repeat' first
    | with_reducible apply KeptOut.next | with_reducible exact .refl _ _
    | with_reducible apply Kept.via (State.journalOut_kept ..) | exact rfl

theorem State.journalFeed_kept (s : State) : Kept [.nvs, .reg .NVS_STATE] s (State.journalFeed s) := by
  unfold State.journalFeed
  try dsimp only
  repeat' first
    | with_reducible exact .refl _ _ | with_reducible assumption | with_reducible refine .ite ?_ ?_
    | with_reducible apply Kept.via (State.writeJPtr_kept ..) | with_reducible apply Kept.via (State.journalOut_kept ..)
    | with_reducible refine .each (fun _ _ => ?_) ?_
    | (intro p; cases p <;> first | exact .inl (List.mem_of_elem_eq_true rfl) | exact .inr rfl | exact .inr True.intro)
    | exact rfl | split | dsimp only | with_reducible refine .update rfl rfl rfl ?_ ?_

theorem State.journalFlush_kept (s : State) : Kept [.nvs, .reg .NVS_STATE] s (State.journalFlush s) := by
  unfold State.journalFlush
  try dsimp only
  repeat' first
    | with_reducible exact .refl _ _ | with_reducible assumption | with_reducible apply Kept.via (State.journalFeed_kept ..)
    | (intro p; cases p <;> first | exact .inl (List.mem_of_elem_eq_true rfl) | exact .inr rfl | exact .inr True.intro)
    | exact rfl | with_reducible refine .update rfl rfl rfl ?_ ?_

theorem State.afterPulse_kept (s : State) : Kept (Part.allBut [.variant, .bootSplit, .up, .gf, .driveEn, .actEn, .recovery,
    .resp, .tick, .pending]) s (State.afterPulse s) := by
  unfold State.afterPulse
  try dsimp only
  repeat' first
    | with_reducible exact .refl _ _ | with_reducible assumption | with_reducible refine .ite ?_ ?_
    | with_reducible apply Kept.via (State.systemClear_kept ..) | with_reducible apply Kept.via (State.syncPend_kept ..)
    | with_reducible apply Kept.via (State.tryRelease_kept ..) | with_reducible apply Kept.via (State.runReady_kept ..)
    | with_reducible apply Kept.via (State.payBack_kept ..) | with_reducible apply Kept.via (State.journalFeed_kept ..)
    | (intro p; cases p <;> first | exact .inl (List.mem_of_elem_eq_true rfl) | exact .inr rfl | exact .inr True.intro)
    | exact rfl | split | dsimp only | with_reducible refine .update rfl rfl rfl ?_ ?_

theorem execMramWritePulseEnd_kept (s : State) : KeptOut (Part.allBut [.variant, .bootSplit, .up, .gf, .driveEn, .actEn,
    .recovery, .resp, .pending]) s (execMramWritePulseEnd s) := by
  unfold execMramWritePulseEnd
  repeat' first
    | with_reducible apply KeptOut.next | with_reducible apply KeptOut.ite | with_reducible exact .refl _ _
    | with_reducible assumption | with_reducible refine .ite ?_ ?_
    | with_reducible apply Kept.via (State.setFlag_kept (.NVS_EVT) ..)
    | with_reducible apply Kept.via (State.setFld_kept (.NVS_WSTAT) ..)
    | with_reducible apply Kept.via (State.setBytes_kept ..) | with_reducible apply Kept.via (State.setErr_kept ..)
    | with_reducible apply Kept.via (State.syncNvs_kept ..) | with_reducible apply Kept.via (State.commitPulse_kept ..)
    | with_reducible apply Kept.via (State.afterPulse_kept ..)
    | (intro p; cases p <;> first | exact .inl (List.mem_of_elem_eq_true rfl) | exact .inr rfl | exact .inr True.intro)
    | exact rfl | split | dsimp only | with_reducible refine .update rfl rfl rfl ?_ ?_

theorem State.closeWindow_kept (s : State) : Kept (Part.receipt [.icheck, .fcheck, .mramClosed, .reg .NVS_STATE, .reg
    .NVS_WSTAT]) s (State.closeWindow s) := by
  unfold State.closeWindow
  try dsimp only
  repeat' first
    | with_reducible exact .refl _ _ | with_reducible assumption | with_reducible refine .ite ?_ ?_
    | with_reducible apply Kept.via (State.setFlag_kept (.NVS_EVT) ..)
    | with_reducible apply Kept.via (State.setFld_kept (.NVS_WSTAT) ..) | with_reducible apply Kept.via (State.syncNvs_kept ..)
    | with_reducible apply Kept.via (State.commitEnds_kept ..) | with_reducible refine .each (fun _ _ => ?_) ?_
    | (intro p; cases p <;> first | exact .inl (List.mem_of_elem_eq_true rfl) | exact .inr rfl | exact .inr True.intro)
    | exact rfl | split | dsimp only | with_reducible refine .update rfl rfl rfl ?_ ?_

theorem State.openWindow_kept (s : State) : Kept [.nvs, .mramClosed, .reg .NVS_STATE] s (State.openWindow s) := by
  unfold State.openWindow
  try dsimp only
  repeat' first
    | with_reducible exact .refl _ _ | with_reducible assumption | with_reducible apply Kept.via (State.payBack_kept ..)
    | with_reducible apply Kept.via (State.journalFeed_kept ..)
    | (intro p; cases p <;> first | exact .inl (List.mem_of_elem_eq_true rfl) | exact .inr rfl | exact .inr True.intro)
    | exact rfl | dsimp only | with_reducible refine .update rfl rfl rfl ?_ ?_

theorem execJournalPost_kept (who : Requester) (value : Word) (s : State) : KeptOut (Part.journal [.po, .cores, .lsc, .ssm,
    .dbg, .linkTries, .resp, .reg .SYS_WERR_CODE, .reg .LSC_STAT, .reg .SSM_WDSTATn, .reg .DBG_REPLAYn, .reg .DBG_HALTSt, .reg
    .NVS_JDATAj]) s (execJournalPost who value s) := by
  unfold execJournalPost
  repeat' first
    | with_reducible apply KeptOut.next | with_reducible apply KeptOut.ite | with_reducible exact .refl _ _
    | with_reducible assumption | with_reducible refine .ite ?_ ?_
    | with_reducible apply Kept.via (State.clearData_kept (fun _ => (.NVS_JDATAj _)) ..)
    | with_reducible apply Kept.via (State.journal_kept ..) | with_reducible apply Kept.via (State.respond_kept ..)
    | with_reducible apply Kept.via (State.refuse_kept ..) | with_reducible apply State.accessBy_kept | exact rfl

theorem execCriticalStateError_kept (item : Nat) (s : State) : KeptOut (Part.allBut [.variant, .split, .bootSplit, .up, .gf,
    .driveEn, .actEn, .recovery, .resp, .tick, .pending]) s (execCriticalStateError item s) := by
  unfold execCriticalStateError
  repeat' first
    | with_reducible apply KeptOut.next | with_reducible exact .refl _ _
    | with_reducible apply Kept.via (State.setFld_kept (.MEM_CRIT) ..)
    | with_reducible apply Kept.via (State.assertSource_kept ..) | exact rfl

end Sys2Proof.Machine
end

