-- ==== Sys2Proof/Laws/KeptEngineOps.lean ====
section
/-!
SUPPORT. The frame of each operation of Sys2Proof/Machine/EngineOps.lean: the parts of the state that it can change.
-/
namespace Sys2Proof.Machine
set_option Elab.async false

theorem State.resetFactors_kept (s : State) (n : Nat) : Kept [.eng, .reg .FEn_ADFAC] s (State.resetFactors s n) := by
  unfold State.resetFactors
  try dsimp only
  repeat' first
    | with_reducible exact .refl _ _ | with_reducible assumption
    | with_reducible apply Kept.via (State.setReg_kept (.FEn_ADFAC _) ..) | with_reducible apply Kept.via (State.updE_kept ..)
    | exact rfl

theorem State.settleReset_kept (s : State) (n : Nat) : Kept [.eng, .reg .FEn_ADFAC] s (State.settleReset s n) := by
  unfold State.settleReset
  try dsimp only
  repeat' first
    | with_reducible exact .refl _ _ | with_reducible assumption | with_reducible refine .ite ?_ ?_
    | with_reducible apply Kept.via (State.resetFactors_kept ..) | exact rfl

theorem State.tabEntry_kept (s : State) (n addr size vals frac : Nat) : Kept (Part.journal [.err, .memCap, .reg .MEM_EVT, .reg
    .MEM_LASTINFO, .reg .MEM_CNTs, .reg .NVS_STATE]) s (State.tabEntry s n addr size vals frac).1 := by
  unfold State.tabEntry
  try dsimp only
  repeat' first
    | with_reducible exact .refl _ _ | with_reducible assumption | with_reducible refine .ite ?_ ?_
    | with_reducible apply Kept.via (State.readCw_kept ..)
    | with_reducible apply Kept.via (State.readCw_kept_eq (by assumption)) | exact rfl
theorem State.tabEntry_kept_eq {s : State} {n addr size vals frac : Nat} {r_} {x_} (h : State.tabEntry s n addr size vals frac
    = (r_, x_)) : Kept (Part.journal [.err, .memCap, .reg .MEM_EVT, .reg .MEM_LASTINFO, .reg .MEM_CNTs, .reg .NVS_STATE]) s r_
    := by
  have k := State.tabEntry_kept s n addr size vals frac
  rw [h] at k
  exact k

theorem State.lookup_kept (s : State) (n : Nat) (t : TableRec) (x y : Rat) : Kept (Part.journal [.err, .memCap, .reg .MEM_EVT,
    .reg .MEM_LASTINFO, .reg .MEM_CNTs, .reg .NVS_STATE]) s (s.lookup n t x y).st := by
  unfold State.lookup
  dsimp only
  repeat' first
    | with_reducible exact .refl _ _ | with_reducible apply Kept.via (State.tabEntry_kept ..) | exact rfl

theorem State.lookupKind_kept (s : State) (n kind : Nat) (x y : Rat) : Kept (Part.journal [.err, .memCap, .reg .MEM_EVT, .reg
    .MEM_LASTINFO, .reg .MEM_CNTs, .reg .NVS_STATE]) s (s.lookupKind n kind x y).st := by
  unfold State.lookupKind
  split
  · exact .refl _ _
  · exact .via (State.lookup_kept ..) rfl (.refl _ _)

theorem State.lookupDone_kept (n : Nat) (l : Lk) : Kept [.po, .eng, .mdl, .tra, .chg, .ldg, .ssm, .reg .FEn_EVT, .reg
    .FEn_WDCNT, .reg .CHG_ILIM, .reg .CHG_FLT, .reg .CHG_EVT, .reg .LDG_EVT, .reg .LDG_WQSTAT, .reg .LDG_PNf] l.st
    (State.lookupDone n l) := by
  have k : Kept [.po, .eng, .mdl, .tra, .chg, .ldg, .ssm, .reg .FEn_EVT, .reg .FEn_WDCNT, .reg .CHG_ILIM, .reg .CHG_FLT, .reg
      .CHG_EVT, .reg .LDG_EVT, .reg .LDG_WQSTAT, .reg .LDG_PNf] l.st (if l.clamp then l.st.feFlag n F.FEn_EVT_TCLAMP else l.st)
      :=
    .ite (.via (State.feFlag_kept ..) rfl (.refl _ _)) (.refl _ _)
  unfold State.lookupDone
  dsimp only
  generalize (if l.clamp then l.st.feFlag n F.FEn_EVT_TCLAMP else l.st) = x at k ⊢
  split
  · exact k
  · exact .via (State.engineFault_kept ..) rfl (.via (State.updE_kept ..) rfl k)

theorem State.satIf_kept (s : State) (n : Nat) (sat : Bool) : Kept [.eng, .reg .FEn_EVT] s (State.satIf s n sat) := by
  unfold State.satIf
  try dsimp only
  repeat' first
    | with_reducible exact .refl _ _ | with_reducible assumption | with_reducible refine .ite ?_ ?_
    | with_reducible apply Kept.via (State.feFlag_kept ..) | exact rfl

theorem State.observe_kept (s : State) : Kept [.tick] s s.observe.2.2 := by
  unfold State.observe
  dsimp only
  exact (State.draw_kept s).trans (State.draw_kept _)
theorem State.observe_kept_eq {s r : State} {a : Nat} {b : Int} (h : s.observe = (a, b, r)) : Kept [.tick] s r := by
  have k := State.observe_kept s
  rw [h] at k
  exact k

theorem State.setAngle_kept (s : State) (n th : Nat) : Kept [.eng] s (State.setAngle s n th) := by
  unfold State.setAngle
  try dsimp only
  repeat' first
    | with_reducible exact .refl _ _ | with_reducible assumption | with_reducible refine .ite ?_ ?_
    | with_reducible apply Kept.via (State.updE_kept ..) | with_reducible refine .foldl (fun _ _ => ?_) ?_ | exact rfl

theorem State.vecStep_kept (s : State) (n f : Nat) : Kept [.eng, .tra, .tick, .reg .FEn_EVT] s (State.vecStep s n f) := by
  unfold State.vecStep
  try dsimp only
  repeat' first
    | with_reducible exact .refl _ _ | with_reducible assumption | with_reducible refine .ite ?_ ?_
    | with_reducible apply Kept.via (State.updE_kept ..) | with_reducible apply Kept.via (State.updTr_kept ..)
    | with_reducible apply Kept.via (State.satIf_kept ..) | with_reducible apply Kept.via (State.observe_kept ..)
    | with_reducible apply Kept.via (State.observe_kept_eq (by assumption)) | exact rfl

theorem State.carryOn_kept (s : State) (n : Nat) : Kept [.eng] s (State.carryOn s n) := by
  unfold State.carryOn
  try dsimp only
  repeat' first
    | with_reducible exact .refl _ _ | with_reducible assumption | with_reducible refine .ite ?_ ?_
    | with_reducible apply Kept.via (State.updE_kept ..) | exact rfl

theorem State.track_kept (s : State) (n f : Nat) : Kept [.po, .eng, .mdl, .tra, .ldg, .ssm, .tick, .reg .FEn_EVT, .reg
    .FEn_WDCNT, .reg .LDG_EVT, .reg .LDG_WQSTAT, .reg .LDG_PNf] s (State.track s n f) := by
  unfold State.track
  try dsimp only
  repeat' first
    | with_reducible exact .refl _ _ | with_reducible assumption | with_reducible refine .ite ?_ ?_
    | with_reducible apply Kept.via (State.updE_kept ..) | with_reducible apply Kept.via (State.updTr_kept ..)
    | with_reducible apply Kept.via (State.trFlag_kept ..) | with_reducible apply Kept.via (State.fnFail_kept ..)
    | with_reducible apply Kept.via (State.observe_kept ..)
    | with_reducible apply Kept.via (State.observe_kept_eq (by assumption))
    | with_reducible apply Kept.via (State.setAngle_kept ..) | with_reducible apply Kept.via (State.vecStep_kept ..)
    | with_reducible apply Kept.via (State.carryOn_kept ..) | exact rfl

theorem State.effTorque_kept (s : State) (n f : Nat) : Kept [.tra] s (State.effTorque s n f).1 := by
  unfold State.effTorque
  try dsimp only
  repeat' first
    | with_reducible exact .refl _ _ | with_reducible assumption | with_reducible refine .ite ?_ ?_
    | with_reducible apply Kept.via (State.updTr_kept ..) | with_reducible apply Kept.via (State.trFlag_kept ..) | exact rfl
theorem State.effTorque_kept_eq {s : State} {n f : Nat} {r_} {x_} (h : State.effTorque s n f = (r_, x_)) : Kept [.tra] s r_ :=
    by
  have k := State.effTorque_kept s n f
  rw [h] at k
  exact k

theorem State.hAmp_kept (s : State) (n : Nat) (cfg amp : Nat) (torque : Rat) : Kept (Part.journal [.err, .po, .eng, .mdl, .tra,
    .chg, .ldg, .ssm, .memCap, .reg .FEn_EVT, .reg .FEn_WDCNT, .reg .CHG_ILIM, .reg .CHG_FLT, .reg .CHG_EVT, .reg .LDG_EVT,
    .reg .LDG_WQSTAT, .reg .LDG_PNf, .reg .MEM_EVT, .reg .MEM_LASTINFO, .reg .MEM_CNTs, .reg .NVS_STATE]) s (State.hAmp s n cfg
    amp torque).1 := by
  unfold State.hAmp
  try dsimp only
  repeat' first
    | with_reducible exact .refl _ _ | with_reducible assumption | with_reducible refine .ite ?_ ?_
    | with_reducible apply Kept.via (State.lookup_kept ..) | with_reducible apply Kept.via (State.lookupDone_kept ..)
    | exact rfl | split
theorem State.hAmp_kept_eq {s : State} {n : Nat} {cfg amp : Nat} {torque : Rat} {r_} {x_} (h : State.hAmp s n cfg amp torque =
    (r_, x_)) : Kept (Part.journal [.err, .po, .eng, .mdl, .tra, .chg, .ldg, .ssm, .memCap, .reg .FEn_EVT, .reg .FEn_WDCNT,
    .reg .CHG_ILIM, .reg .CHG_FLT, .reg .CHG_EVT, .reg .LDG_EVT, .reg .LDG_WQSTAT, .reg .LDG_PNf, .reg .MEM_EVT, .reg
    .MEM_LASTINFO, .reg .MEM_CNTs, .reg .NVS_STATE]) s r_ := by
  have k := State.hAmp_kept s n cfg amp torque
  rw [h] at k
  exact k

theorem State.harmonics_kept (s : State) (n : Nat) (torque : Rat) (thu : Nat) (partner : Bool) :
    Kept (Part.journal [.err, .po, .eng, .mdl, .tra, .chg, .ldg, .ssm, .memCap, .reg .FEn_EVT, .reg .FEn_WDCNT, .reg .CHG_ILIM, .reg .CHG_FLT, .reg .CHG_EVT, .reg .LDG_EVT, .reg .LDG_WQSTAT, .reg .LDG_PNf, .reg .MEM_EVT, .reg .MEM_LASTINFO, .reg .MEM_CNTs, .reg .NVS_STATE]) s (s.harmonics n torque thu partner).1 := by
  unfold State.harmonics
  dsimp only
  split
  · exact .refl _ _
  · have k : ∀ l, Kept (Part.journal [.err, .po, .eng, .mdl, .tra, .chg, .ldg, .ssm, .memCap, .reg .FEn_EVT, .reg .FEn_WDCNT, .reg .CHG_ILIM, .reg .CHG_FLT, .reg .CHG_EVT, .reg .LDG_EVT, .reg .LDG_WQSTAT, .reg .LDG_PNf, .reg .MEM_EVT, .reg .MEM_LASTINFO, .reg .MEM_CNTs, .reg .NVS_STATE]) s (List.foldl (fun (p : State × List (Nat × Rat × Rat)) k =>
        ((p.1.hAmp n ((s.e n).par.harm.getD k (0, 0)).1 ((s.e n).par.harm.getD k (0, 0)).2 torque).1,
         p.2 ++ [(k, (p.1.hAmp n ((s.e n).par.harm.getD k (0, 0)).1 ((s.e n).par.harm.getD k (0, 0)).2 torque).2.1,
           (p.1.hAmp n ((s.e n).par.harm.getD k (0, 0)).1 ((s.e n).par.harm.getD k (0, 0)).2 torque).2.2)])) (s, []) l).1 :=
      fun l => .foldlFst (fun p x => .via (State.hAmp_kept ..) rfl (.refl _ _)) (.refl _ _)
    exact .ite (.via (State.feFlag_kept ..) rfl (.via (State.updE_kept ..) rfl (k _))) (.via (State.updE_kept ..) rfl (k _))
theorem State.harmonics_kept_eq {s r : State} {n : Nat} {torque : Rat} {thu : Nat} {partner : Bool} {x}
    (h : s.harmonics n torque thu partner = (r, x)) : Kept (Part.journal [.err, .po, .eng, .mdl, .tra, .chg, .ldg, .ssm, .memCap, .reg .FEn_EVT, .reg .FEn_WDCNT, .reg .CHG_ILIM, .reg .CHG_FLT, .reg .CHG_EVT, .reg .LDG_EVT, .reg .LDG_WQSTAT, .reg .LDG_PNf, .reg .MEM_EVT, .reg .MEM_LASTINFO, .reg .MEM_CNTs, .reg .NVS_STATE]) s r := by
  have k := State.harmonics_kept s n torque thu partner
  rw [h] at k
  exact k

theorem State.adaptStep_kept (s : State) (n : Nat) : Kept [.eng, .reg .FEn_ADFAC, .reg .FEn_EVT] s (State.adaptStep s n) := by
  unfold State.adaptStep
  try dsimp only
  repeat' first
    | with_reducible exact .refl _ _ | with_reducible assumption | with_reducible refine .ite ?_ ?_
    | with_reducible apply Kept.via (State.setFld_kept (.FEn_ADFAC _) ..)
    | with_reducible apply Kept.via (State.feFlag_kept ..) | exact rfl | split

end Sys2Proof.Machine
end

