-- ==== Sys2Proof/Laws/KeptChgOps.lean ====
section
/-!
SUPPORT. The frame of each operation of Sys2Proof/Machine/ChgOps.lean: the parts of the state that it can change.
-/
namespace Sys2Proof.Machine
set_option Elab.async false

theorem State.updCh_kept (s : State) (g : ChgSt → ChgSt) : Kept [.chg] s (State.updCh s g) := by
  unfold State.updCh
  try dsimp only
  repeat' first
    | with_reducible exact .refl _ _ | with_reducible assumption
    | (intro p; cases p <;> first | exact .inl (List.mem_of_elem_eq_true rfl) | exact .inr rfl | exact .inr True.intro)
    | dsimp only | with_reducible refine .update rfl rfl rfl ?_ ?_

theorem State.chgFlag_kept (s : State) (bit : Nat) : Kept [.chg] s (State.chgFlag s bit) := by
  unfold State.chgFlag
  try dsimp only
  repeat' first
    | with_reducible exact .refl _ _ | with_reducible assumption | with_reducible refine .ite ?_ ?_
    | with_reducible apply Kept.via (State.updCh_kept ..) | exact rfl

theorem State.showLimit_kept (s : State) : Kept [.reg .CHG_ILIM, .reg .CHG_EVT] s (State.showLimit s) := by
  unfold State.showLimit
  try dsimp only
  repeat' first
    | with_reducible exact .refl _ _ | with_reducible assumption | with_reducible refine .ite ?_ ?_
    | with_reducible apply Kept.via (State.setFlag_kept (.CHG_EVT) ..)
    | with_reducible apply Kept.via (State.setFld_kept (.CHG_ILIM) ..) | exact rfl

theorem State.chgRampdown_kept (s : State) : Kept [.po, .chg, .reg .CHG_STATE, .reg .CHG_ILIM, .reg .CHG_EVT] s
    (State.chgRampdown s) := by
  unfold State.chgRampdown
  try dsimp only
  repeat' first
    | with_reducible exact .refl _ _ | with_reducible assumption
    | with_reducible apply Kept.via (State.setFld_kept (.CHG_ILIM) ..) | with_reducible apply Kept.via (State.hwMove_kept ..)
    | with_reducible apply Kept.via (State.chgSetPhase_kept ..) | with_reducible apply Kept.via (State.updCh_kept ..)
    | exact rfl

theorem State.chgEnd_kept (s : State) (r : Nat) : Kept [.po, .chg, .reg .CHG_STATE, .reg .CHG_ILIM, .reg .CHG_EVT] s
    (State.chgEnd s r) := by
  unfold State.chgEnd
  try dsimp only
  repeat' first
    | with_reducible exact .refl _ _ | with_reducible assumption | with_reducible refine .ite ?_ ?_
    | with_reducible apply Kept.via (State.chgReason_kept ..) | with_reducible apply Kept.via (State.chgRampdown_kept ..)
    | exact rfl

theorem State.chgEndHard_kept (s : State) (r : Nat) : Kept [.po, .eng, .mdl, .chg, .ldg, .reg .FEn_EVT, .reg .FEn_WDCNT, .reg
    .CHG_STATE, .reg .CHG_ILIM, .reg .CHG_EVT, .reg .LDG_EVT, .reg .LDG_WQSTAT, .reg .LDG_PNf] s (State.chgEndHard s r) := by
  unfold State.chgEndHard
  try dsimp only
  repeat' first
    | with_reducible exact .refl _ _ | with_reducible assumption | with_reducible refine .ite ?_ ?_
    | with_reducible apply Kept.via (State.hwMove_kept ..) | with_reducible apply Kept.via (State.chgSetPhase_kept ..)
    | with_reducible apply Kept.via (State.chgHardStop_kept ..) | with_reducible apply Kept.via (State.chgReason_kept ..)
    | exact rfl

theorem State.searchEnd_kept (s : State) (v : Int) : Kept [.chg, .reg .CHG_STATE, .reg .CHG_ILIM, .reg .CHG_EVT] s
    (State.searchEnd s v) := by
  unfold State.searchEnd
  try dsimp only
  repeat' first
    | with_reducible exact .refl _ _ | with_reducible assumption | with_reducible refine .ite ?_ ?_
    | with_reducible apply Kept.via (State.setFld_kept (.CHG_ILIM) ..)
    | with_reducible apply Kept.via (State.chgSetPhase_kept ..) | with_reducible apply Kept.via (State.updCh_kept ..)
    | with_reducible apply Kept.via (State.showLimit_kept ..) | exact rfl

theorem State.searchStart_kept (s : State) (v : Int) : Kept [.chg, .reg .CHG_ILIM, .reg .CHG_EVT] s (State.searchStart s v) :=
    by
  unfold State.searchStart
  try dsimp only
  repeat' first
    | with_reducible exact .refl _ _ | with_reducible assumption
    | with_reducible apply Kept.via (State.setFld_kept (.CHG_ILIM) ..) | with_reducible apply Kept.via (State.updCh_kept ..)
    | with_reducible apply Kept.via (State.chgFlag_kept ..) | with_reducible apply Kept.via (State.showLimit_kept ..)
    | exact rfl

theorem State.limitsChanged_kept (s : State) (before : Int) : Kept [.chg, .reg .CHG_STATE, .reg .CHG_ILIM, .reg .CHG_EVT] s
    (State.limitsChanged s before) := by
  unfold State.limitsChanged
  try dsimp only
  repeat' first
    | with_reducible exact .refl _ _ | with_reducible assumption | with_reducible refine .ite ?_ ?_
    | with_reducible apply Kept.via (State.showLimit_kept ..) | with_reducible apply Kept.via (State.searchEnd_kept ..)
    | with_reducible apply Kept.via (State.searchStart_kept ..) | exact rfl

theorem State.chgCount_kept (s : State) : Kept [.chg, .reg .CHG_TIME] s (State.chgCount s) := by
  unfold State.chgCount
  try dsimp only
  repeat' first
    | with_reducible exact .refl _ _ | with_reducible assumption | with_reducible refine .ite ?_ ?_
    | with_reducible apply Kept.via (State.setFld_kept (.CHG_TIME) ..) | with_reducible apply Kept.via (State.updCh_kept ..)
    | exact rfl

theorem State.chgDabTick_kept (s : State) (n : Nat) : Kept [.po, .eng, .mdl, .chg, .ldg, .ssm, .reg .FEn_EVT, .reg .FEn_WDCNT,
    .reg .CHG_STATE, .reg .CHG_ILIM, .reg .CHG_FLT, .reg .CHG_EVT, .reg .CHG_TIME, .reg .LDG_EVT, .reg .LDG_WQSTAT, .reg
    .LDG_PNf] s (State.chgDabTick s n) := by
  unfold State.chgDabTick
  try dsimp only
  repeat' first
    | with_reducible exact .refl _ _ | with_reducible assumption | with_reducible refine .ite ?_ ?_
    | with_reducible apply Kept.via (State.chgSetPhase_kept ..) | with_reducible apply Kept.via (State.chgFail_kept ..)
    | with_reducible apply Kept.via (State.updCh_kept ..) | with_reducible apply Kept.via (State.chgCount_kept ..) | exact rfl

end Sys2Proof.Machine
end

