-- ==== Sys2Proof/Laws/KeptEngine.lean ====
section
/-!
SUPPORT. The frame of each operation of Sys2Proof/Machine/Engine.lean: the parts of the state that it can change.
-/
namespace Sys2Proof.Machine
set_option Elab.async false

theorem specFeHarm_kept  (s : State) (m : Msg) (k : Nat) : Kept [.reg .FEn_HCFGk, .reg .FEn_HAMPk] s (specFeHarm.run s m k).1
    := by
  unfold specFeHarm
  try dsimp only
  repeat' first
    | with_reducible exact .refl _ _ | with_reducible assumption | with_reducible refine .ite ?_ ?_
    | with_reducible apply Kept.via (State.setReg_kept (.FEn_HAMPk _ _) ..)
    | with_reducible apply Kept.via (State.setReg_kept (.FEn_HCFGk _ _) ..) | with_reducible apply Kept.via (doneWith_kept ..)
    | with_reducible apply Kept.via (doneWith_kept_eq (by assumption)) | exact rfl

theorem specFeAdapt_kept  (s : State) (m : Msg) (k : Nat) : Kept [.eng, .reg .FEn_ADAPT, .reg .FEn_ADFAC] s (specFeAdapt.run s
    m k).1 := by
  unfold specFeAdapt
  try dsimp only
  repeat' first
    | with_reducible exact .refl _ _ | with_reducible assumption | with_reducible refine .ite ?_ ?_
    | with_reducible apply Kept.via (State.setFld_kept (.FEn_ADAPT _) ..) | with_reducible apply Kept.via (State.updE_kept ..)
    | with_reducible apply Kept.via (State.settleReset_kept ..) | exact rfl | split

theorem specFeGains_kept  (s : State) (m : Msg) (k : Nat) : Kept [.reg .FEn_GAINS, .reg .FEn_OUTKP, .reg .FEn_OUTKI] s
    (specFeGains.run s m k).1 := by
  unfold specFeGains
  try dsimp only
  repeat' first
    | with_reducible exact .refl _ _ | with_reducible assumption
    | with_reducible apply Kept.via (State.setReg_kept (.FEn_GAINS _) ..)
    | with_reducible apply Kept.via (State.setReg_kept (.FEn_OUTKI _) ..)
    | with_reducible apply Kept.via (State.setReg_kept (.FEn_OUTKP _) ..) | with_reducible apply Kept.via (doneWith_kept ..)
    | with_reducible apply Kept.via (doneWith_kept_eq (by assumption)) | exact rfl

theorem State.feClear_kept (s : State) (n : Nat) : Kept [.eng, .reg .FEn_ADFAC] s (State.feClear s n) := by
  unfold State.feClear
  try dsimp only
  repeat' first
    | with_reducible exact .refl _ _ | with_reducible assumption | with_reducible apply Kept.via (State.updE_kept ..)
    | with_reducible apply Kept.via (State.resetFactors_kept ..) | exact rfl

theorem specFeClear_kept  (s : State) (m : Msg) (k : Nat) : Kept [.units, .eng, .reg .FEn_ADFAC] s (specFeClear.run s m k).1 :=
    by
  unfold specFeClear
  try dsimp only
  repeat' first
    | with_reducible exact .refl _ _ | with_reducible assumption | with_reducible refine .ite ?_ ?_
    | with_reducible apply Kept.via (State.setUst_kept ..) | with_reducible apply Kept.via (doneWith_kept ..)
    | with_reducible apply Kept.via (doneWith_kept_eq (by assumption)) | with_reducible apply Kept.via (State.feClear_kept ..)
    | with_reducible refine .each (fun _ _ => ?_) ?_ | exact rfl

theorem execFeHarm_kept (m : Msg) (s : State) : KeptOut (Part.receipt [.reg .PST_OUTST, .reg .PST_MERR_CODE, .reg .FEn_HCFGk,
    .reg .FEn_HAMPk]) s (execFeHarm m s) := by
  unfold execFeHarm
  repeat' first
    | with_reducible apply KeptOut.next | with_reducible exact .refl _ _
    | with_reducible apply deliver_kept rfl (fun s m k => (specFeHarm_kept s m k).mono rfl) _ _

theorem execFeAdapt_kept (m : Msg) (s : State) : KeptOut (Part.receipt [.eng, .reg .PST_OUTST, .reg .PST_MERR_CODE, .reg
    .FEn_ADAPT, .reg .FEn_ADFAC]) s (execFeAdapt m s) := by
  unfold execFeAdapt
  repeat' first
    | with_reducible apply KeptOut.next | with_reducible exact .refl _ _
    | with_reducible apply deliver_kept rfl (fun s m k => (specFeAdapt_kept s m k).mono rfl) _ _

theorem execFeGains_kept (m : Msg) (s : State) : KeptOut (Part.receipt [.reg .PST_OUTST, .reg .PST_MERR_CODE, .reg .FEn_GAINS,
    .reg .FEn_OUTKP, .reg .FEn_OUTKI]) s (execFeGains m s) := by
  unfold execFeGains
  repeat' first
    | with_reducible apply KeptOut.next | with_reducible exact .refl _ _
    | with_reducible apply deliver_kept rfl (fun s m k => (specFeGains_kept s m k).mono rfl) _ _

theorem execFeClear_kept (m : Msg) (s : State) : KeptOut (Part.receipt [.units, .eng, .reg .PST_OUTST, .reg .PST_MERR_CODE,
    .reg .FEn_ADFAC]) s (execFeClear m s) := by
  unfold execFeClear
  repeat' first
    | with_reducible apply KeptOut.next | with_reducible exact .refl _ _
    | with_reducible apply deliver_kept rfl (fun s m k => (specFeClear_kept s m k).mono rfl) _ _

theorem State.unpack_kept (s : State) (n g : Nat) : Kept [.eng, .reg .FEn_EVT] s (State.unpack s n g) := by
  unfold State.unpack
  try dsimp only
  repeat' first
    | with_reducible exact .refl _ _ | with_reducible assumption | with_reducible apply Kept.via (State.updE_kept ..)
    | with_reducible apply Kept.via (State.satIf_kept ..) | exact rfl

theorem State.measured_kept (s : State) (n : Nat) (v : Vec) : Kept [.eng, .reg .FEn_EVT] s (State.measured s n v) := by
  unfold State.measured
  try dsimp only
  repeat' first
    | with_reducible exact .refl _ _ | with_reducible assumption | with_reducible apply Kept.via (State.updE_kept ..)
    | with_reducible apply Kept.via (State.satIf_kept ..) | exact rfl

theorem State.vlimDone_kept (s : State) (n : Nat) (hit : Bool) : Kept [.eng, .reg .FEn_EVT] s (State.vlimDone s n hit) := by
  unfold State.vlimDone
  try dsimp only
  repeat' first
    | with_reducible exact .refl _ _ | with_reducible assumption | with_reducible refine .ite ?_ ?_
    | with_reducible apply Kept.via (State.updE_kept ..) | with_reducible apply Kept.via (State.feFlag_kept ..) | exact rfl

theorem State.lawDone_kept (s : State) (n : Nat) (ir : Vec) (o : LawOut) : Kept [.eng, .reg .FEn_ADFAC, .reg .FEn_EVT] s
    (State.lawDone s n ir o) := by
  unfold State.lawDone
  try dsimp only
  repeat' first
    | with_reducible exact .refl _ _ | with_reducible assumption | with_reducible refine .ite ?_ ?_
    | with_reducible apply Kept.via (State.updE_kept ..) | with_reducible apply Kept.via (State.satIf_kept ..)
    | with_reducible apply Kept.via (State.adaptStep_kept ..) | with_reducible apply Kept.via (State.vlimDone_kept ..)
    | exact rfl

theorem State.writeDuties_kept (s : State) (n f role base : Nat) (ph ic im : List Rat) :
    Kept [.mdl] s (s.writeDuties n f role base ph ic im).1 := by
  unfold State.writeDuties
  dsimp only
  refine .foldlFst (fun p k => ?_) (.refl _ _)
  split
  · exact .refl _ _
  · exact .via (State.setShadow_kept ..) rfl (.refl _ _)
theorem State.writeDuties_kept_eq {s r : State} {n f role base : Nat} {ph ic im : List Rat} {x}
    (h : s.writeDuties n f role base ph ic im = (r, x)) : Kept [.mdl] s r := by
  have k := State.writeDuties_kept s n f role base ph ic im
  rw [h] at k
  exact k

theorem State.writeSet_kept (s : State) (n f role base : Nat) (v ip : Vec) : Kept [.mdl] s (State.writeSet s n f role base v
    ip).1 := by
  unfold State.writeSet
  try dsimp only
  repeat' first
    | with_reducible exact .refl _ _ | with_reducible assumption | with_reducible apply Kept.via (State.writeDuties_kept ..)
    | with_reducible apply Kept.via (State.writeDuties_kept_eq (by assumption)) | exact rfl
theorem State.writeSet_kept_eq {s : State} {n f role base : Nat} {v ip : Vec} {r_} {x_} (h : State.writeSet s n f role base v
    ip = (r_, x_)) : Kept [.mdl] s r_ := by
  have k := State.writeSet_kept s n f role base v ip
  rw [h] at k
  exact k

theorem State.writeBridge_kept (s : State) (n f : Nat) (v i : Rat) : Kept [.mdl] s (State.writeBridge s n f v i).1 := by
  unfold State.writeBridge
  try dsimp only
  repeat' first
    | with_reducible exact .refl _ _ | with_reducible assumption | with_reducible apply Kept.via (State.setShadow_kept ..)
    | with_reducible apply Kept.via (State.writeDuties_kept ..)
    | with_reducible apply Kept.via (State.writeDuties_kept_eq (by assumption)) | exact rfl | split
theorem State.writeBridge_kept_eq {s : State} {n f : Nat} {v i : Rat} {r_} {x_} (h : State.writeBridge s n f v i = (r_, x_)) :
    Kept [.mdl] s r_ := by
  have k := State.writeBridge_kept s n f v i
  rw [h] at k
  exact k

theorem State.post_kept (s : State) (n f : Nat) (power booked : Rat) : Kept [.eng, .ldg, .reg .FEn_EVT, .reg .LDG_PNf] s
    (State.post s n f power booked) := by
  unfold State.post
  try dsimp only
  repeat' first
    | with_reducible exact .refl _ _ | with_reducible assumption
    | with_reducible apply Kept.via (State.setReg_kept (.LDG_PNf _) ..) | with_reducible apply Kept.via (State.updE_kept ..)
    | with_reducible apply Kept.via (State.updFp_kept ..) | with_reducible apply Kept.via (State.satIf_kept ..) | exact rfl

theorem State.missStep_kept (s : State) (f pos : Nat) (mag cmd rated : Rat) (spd : Int) (slow : Bool) : Kept [.po, .eng, .mdl,
    .tra, .ldg, .ssm, .reg .FEn_EVT, .reg .FEn_WDCNT, .reg .LDG_EVT, .reg .LDG_WQSTAT, .reg .LDG_PNf] s (State.missStep s f pos
    mag cmd rated spd slow) := by
  unfold State.missStep
  try dsimp only
  repeat' first
    | with_reducible exact .refl _ _ | with_reducible assumption | with_reducible refine .ite ?_ ?_
    | with_reducible apply Kept.via (State.updTr_kept ..) | with_reducible apply Kept.via (State.fnFail_kept ..) | exact rfl

theorem State.missSet_kept (s : State) (n p f base : Nat) (amp : Rat) : Kept [.po, .eng, .mdl, .tra, .ldg, .ssm, .reg .FEn_EVT,
    .reg .FEn_WDCNT, .reg .LDG_EVT, .reg .LDG_WQSTAT, .reg .LDG_PNf] s (State.missSet s n p f base amp) := by
  unfold State.missSet
  try dsimp only
  repeat' first
    | with_reducible exact .refl _ _ | with_reducible assumption | with_reducible refine .ite ?_ ?_
    | with_reducible apply Kept.via (State.missStep_kept ..) | with_reducible refine .each (fun _ _ => ?_) ?_ | exact rfl

theorem State.startRef_kept (s : State) (n f : Nat) : Kept [.tra] s (State.startRef s n f).1 := by
  unfold State.startRef
  try dsimp only
  repeat' first
    | with_reducible exact .refl _ _ | with_reducible assumption | with_reducible refine .ite ?_ ?_
    | with_reducible apply Kept.via (State.updTr_kept ..) | exact rfl | split
theorem State.startRef_kept_eq {s : State} {n f : Nat} {r_} {x_} (h : State.startRef s n f = (r_, x_)) : Kept [.tra] s r_ := by
  have k := State.startRef_kept s n f
  rw [h] at k
  exact k

theorem State.focRef_kept (s : State) (n f : Nat) : Kept (Part.journal [.err, .po, .eng, .mdl, .tra, .chg, .ldg, .ssm, .memCap,
    .reg .FEn_EVT, .reg .FEn_WDCNT, .reg .CHG_ILIM, .reg .CHG_FLT, .reg .CHG_EVT, .reg .LDG_EVT, .reg .LDG_WQSTAT, .reg
    .LDG_PNf, .reg .MEM_EVT, .reg .MEM_LASTINFO, .reg .MEM_CNTs, .reg .NVS_STATE]) s (State.focRef s n f).1 := by
  unfold State.focRef
  try dsimp only
  repeat' first
    | with_reducible exact .refl _ _ | with_reducible assumption | with_reducible apply Kept.via (State.lookupKind_kept ..)
    | with_reducible apply Kept.via (State.lookupDone_kept ..) | with_reducible apply Kept.via (State.effTorque_kept ..)
    | with_reducible apply Kept.via (State.effTorque_kept_eq (by assumption))
    | with_reducible apply Kept.via (State.startRef_kept ..)
    | with_reducible apply Kept.via (State.startRef_kept_eq (by assumption)) | exact rfl | split
theorem State.focRef_kept_eq {s : State} {n f : Nat} {r_} {x_} (h : State.focRef s n f = (r_, x_)) : Kept (Part.journal [.err,
    .po, .eng, .mdl, .tra, .chg, .ldg, .ssm, .memCap, .reg .FEn_EVT, .reg .FEn_WDCNT, .reg .CHG_ILIM, .reg .CHG_FLT, .reg
    .CHG_EVT, .reg .LDG_EVT, .reg .LDG_WQSTAT, .reg .LDG_PNf, .reg .MEM_EVT, .reg .MEM_LASTINFO, .reg .MEM_CNTs, .reg
    .NVS_STATE]) s r_ := by
  have k := State.focRef_kept s n f
  rw [h] at k
  exact k

theorem State.focPartner_kept (s : State) (q : Nat) (torque : Rat) (thu : Nat) (lx ly : Rat) : Kept (Part.journal [.err, .po,
    .eng, .mdl, .tra, .chg, .ldg, .ssm, .memCap, .reg .FEn_ADFAC, .reg .FEn_EVT, .reg .FEn_WDCNT, .reg .CHG_ILIM, .reg
    .CHG_FLT, .reg .CHG_EVT, .reg .LDG_EVT, .reg .LDG_WQSTAT, .reg .LDG_PNf, .reg .MEM_EVT, .reg .MEM_LASTINFO, .reg .MEM_CNTs,
    .reg .NVS_STATE]) s (State.focPartner s q torque thu lx ly).1 := by
  unfold State.focPartner
  try dsimp only
  repeat' first
    | with_reducible exact .refl _ _ | with_reducible assumption | with_reducible apply Kept.via (State.lookupKind_kept ..)
    | with_reducible apply Kept.via (State.lookupDone_kept ..) | with_reducible apply Kept.via (State.harmonics_kept ..)
    | with_reducible apply Kept.via (State.harmonics_kept_eq (by assumption))
    | with_reducible apply Kept.via (State.lawDone_kept ..) | exact rfl
theorem State.focPartner_kept_eq {s : State} {q : Nat} {torque : Rat} {thu : Nat} {lx ly : Rat} {r_} {x_} (h : State.focPartner
    s q torque thu lx ly = (r_, x_)) : Kept (Part.journal [.err, .po, .eng, .mdl, .tra, .chg, .ldg, .ssm, .memCap, .reg
    .FEn_ADFAC, .reg .FEn_EVT, .reg .FEn_WDCNT, .reg .CHG_ILIM, .reg .CHG_FLT, .reg .CHG_EVT, .reg .LDG_EVT, .reg .LDG_WQSTAT,
    .reg .LDG_PNf, .reg .MEM_EVT, .reg .MEM_LASTINFO, .reg .MEM_CNTs, .reg .NVS_STATE]) s r_ := by
  have k := State.focPartner_kept s q torque thu lx ly
  rw [h] at k
  exact k

theorem State.focLaw_kept (s0 : State) (n : Nat) (p : Option Nat) (f : Nat) : Kept (Part.journal [.err, .po, .eng, .mdl, .tra,
    .chg, .ldg, .ssm, .memCap, .reg .FEn_ADFAC, .reg .FEn_EVT, .reg .FEn_WDCNT, .reg .CHG_ILIM, .reg .CHG_FLT, .reg .CHG_EVT,
    .reg .LDG_EVT, .reg .LDG_WQSTAT, .reg .LDG_PNf, .reg .MEM_EVT, .reg .MEM_LASTINFO, .reg .MEM_CNTs, .reg .NVS_STATE]) s0
    (State.focLaw s0 n p f) := by
  unfold State.focLaw
  try dsimp only
  repeat' first
    | with_reducible exact .refl _ _ | with_reducible assumption | with_reducible refine .ite ?_ ?_
    | with_reducible apply Kept.via (State.lookupKind_kept ..) | with_reducible apply Kept.via (State.lookupDone_kept ..)
    | with_reducible apply Kept.via (State.harmonics_kept ..)
    | with_reducible apply Kept.via (State.harmonics_kept_eq (by assumption))
    | with_reducible apply Kept.via (State.lawDone_kept ..) | with_reducible apply Kept.via (State.writeSet_kept ..)
    | with_reducible apply Kept.via (State.writeSet_kept_eq (by assumption))
    | with_reducible apply Kept.via (State.post_kept ..) | with_reducible apply Kept.via (State.missSet_kept ..)
    | with_reducible apply Kept.via (State.focRef_kept ..)
    | with_reducible apply Kept.via (State.focRef_kept_eq (by assumption))
    | with_reducible apply Kept.via (State.focPartner_kept ..)
    | with_reducible apply Kept.via (State.focPartner_kept_eq (by assumption)) | exact rfl | split

theorem State.leaveObserve_kept (s : State) (n f : Nat) : Kept [.tra] s (State.leaveObserve s n f) := by
  unfold State.leaveObserve
  try dsimp only
  repeat' first
    | with_reducible exact .refl _ _ | with_reducible assumption | with_reducible refine .ite ?_ ?_
    | with_reducible apply Kept.via (State.updTr_kept ..) | exact rfl

theorem State.tableReads_kept (s : State) (n : Nat) (p : Option Nat) : Kept (Part.journal [.err, .po, .eng, .mdl, .tra, .chg,
    .ldg, .ssm, .memCap, .reg .FEn_EVT, .reg .FEn_WDCNT, .reg .CHG_ILIM, .reg .CHG_FLT, .reg .CHG_EVT, .reg .LDG_EVT, .reg
    .LDG_WQSTAT, .reg .LDG_PNf, .reg .MEM_EVT, .reg .MEM_LASTINFO, .reg .MEM_CNTs, .reg .NVS_STATE]) s (State.tableReads s n p)
    := by
  unfold State.tableReads
  try dsimp only
  repeat' first
    | with_reducible exact .refl _ _ | with_reducible assumption | with_reducible refine .ite ?_ ?_
    | with_reducible apply Kept.via (State.lookupKind_kept ..) | with_reducible apply Kept.via (State.lookupDone_kept ..)
    | with_reducible refine .each (fun _ _ => ?_) ?_ | exact rfl | split

theorem State.focUpdate_kept (s : State) (n : Nat) (p : Option Nat) (f : Nat) : Kept (Part.journal [.err, .po, .eng, .mdl,
    .tra, .chg, .ldg, .ssm, .memCap, .tick, .reg .FEn_ADFAC, .reg .FEn_EVT, .reg .FEn_WDCNT, .reg .CHG_ILIM, .reg .CHG_FLT,
    .reg .CHG_EVT, .reg .LDG_EVT, .reg .LDG_WQSTAT, .reg .LDG_PNf, .reg .MEM_EVT, .reg .MEM_LASTINFO, .reg .MEM_CNTs, .reg
    .NVS_STATE]) s (State.focUpdate s n p f) := by
  unfold State.focUpdate
  try dsimp only
  repeat' first
    | with_reducible exact .refl _ _ | with_reducible assumption | with_reducible refine .ite ?_ ?_
    | with_reducible apply Kept.via (State.updE_kept ..) | with_reducible apply Kept.via (State.fnFail_kept ..)
    | with_reducible apply Kept.via (State.track_kept ..) | with_reducible apply Kept.via (State.unpack_kept ..)
    | with_reducible apply Kept.via (State.measured_kept ..) | with_reducible apply Kept.via (State.focLaw_kept ..)
    | with_reducible apply Kept.via (State.leaveObserve_kept ..) | with_reducible apply Kept.via (State.tableReads_kept ..)
    | exact rfl | split

theorem State.gridTrack_kept (s : State) (n : Nat) : Kept [.eng, .tick, .reg .FEn_EVT] s (State.gridTrack s n) := by
  unfold State.gridTrack
  try dsimp only
  repeat' first
    | with_reducible exact .refl _ _ | with_reducible assumption | with_reducible refine .ite ?_ ?_
    | with_reducible apply Kept.via (State.updE_kept ..) | with_reducible apply Kept.via (State.feFlag_kept ..)
    | with_reducible apply Kept.via (State.draw_kept ..) | with_reducible apply Kept.via (State.draw_kept_eq (by assumption))
    | exact rfl

theorem State.outerPi_kept (s : State) (n : Nat) (target meas lo hi : Rat) : Kept [.eng, .reg .FEn_EVT] s (State.outerPi s n
    target meas lo hi).1 := by
  unfold State.outerPi
  try dsimp only
  repeat' first
    | with_reducible exact .refl _ _ | with_reducible assumption | with_reducible refine .ite ?_ ?_
    | with_reducible apply Kept.via (State.updE_kept ..) | with_reducible apply Kept.via (State.satIf_kept ..) | exact rfl
    | split
theorem State.outerPi_kept_eq {s : State} {n : Nat} {target meas lo hi : Rat} {r_} {x_} (h : State.outerPi s n target meas lo
    hi = (r_, x_)) : Kept [.eng, .reg .FEn_EVT] s r_ := by
  have k := State.outerPi_kept s n target meas lo hi
  rw [h] at k
  exact k

theorem State.frontPi_kept (s : State) (n : Nat) (target meas lim : Rat) : Kept [.eng, .chg, .reg .FEn_EVT] s (State.frontPi s
    n target meas lim).1 := by
  unfold State.frontPi
  try dsimp only
  repeat' first
    | with_reducible exact .refl _ _ | with_reducible assumption | with_reducible apply Kept.via (State.updCh_kept ..)
    | with_reducible apply Kept.via (State.outerPi_kept ..)
    | with_reducible apply Kept.via (State.outerPi_kept_eq (by assumption)) | exact rfl
theorem State.frontPi_kept_eq {s : State} {n : Nat} {target meas lim : Rat} {r_} {x_} (h : State.frontPi s n target meas lim =
    (r_, x_)) : Kept [.eng, .chg, .reg .FEn_EVT] s r_ := by
  have k := State.frontPi_kept s n target meas lim
  rw [h] at k
  exact k

theorem State.pfcLaw_kept (s0 : State) (n f : Nat) : Kept (Part.journal [.err, .po, .eng, .mdl, .tra, .chg, .ldg, .ssm,
    .memCap, .reg .FEn_ADFAC, .reg .FEn_EVT, .reg .FEn_WDCNT, .reg .CHG_ILIM, .reg .CHG_FLT, .reg .CHG_EVT, .reg .LDG_EVT, .reg
    .LDG_WQSTAT, .reg .LDG_PNf, .reg .MEM_EVT, .reg .MEM_LASTINFO, .reg .MEM_CNTs, .reg .NVS_STATE]) s0 (State.pfcLaw s0 n f)
    := by
  unfold State.pfcLaw
  try dsimp only
  repeat' first
    | with_reducible exact .refl _ _ | with_reducible assumption | with_reducible refine .ite ?_ ?_
    | with_reducible apply Kept.via (State.lookupKind_kept ..) | with_reducible apply Kept.via (State.lookupDone_kept ..)
    | with_reducible apply Kept.via (State.lawDone_kept ..) | with_reducible apply Kept.via (State.writeSet_kept ..)
    | with_reducible apply Kept.via (State.writeSet_kept_eq (by assumption))
    | with_reducible apply Kept.via (State.writeBridge_kept ..)
    | with_reducible apply Kept.via (State.writeBridge_kept_eq (by assumption))
    | with_reducible apply Kept.via (State.post_kept ..) | with_reducible apply Kept.via (State.frontPi_kept ..)
    | with_reducible apply Kept.via (State.frontPi_kept_eq (by assumption)) | exact rfl | split

theorem State.gridVec_kept (s : State) (n : Nat) : Kept [.tick] s (State.gridVec s n).1 := by
  unfold State.gridVec
  try dsimp only
  repeat' first
    | with_reducible exact .refl _ _ | with_reducible assumption | with_reducible refine .ite ?_ ?_
    | with_reducible apply Kept.via (State.draw_kept ..) | with_reducible apply Kept.via (State.draw_kept_eq (by assumption))
    | exact rfl | split
theorem State.gridVec_kept_eq {s : State} {n : Nat} {r_} {x_} (h : State.gridVec s n = (r_, x_)) : Kept [.tick] s r_ := by
  have k := State.gridVec_kept s n
  rw [h] at k
  exact k

theorem State.pfcUpdate_kept (s : State) (n f : Nat) : Kept (Part.journal [.err, .po, .eng, .mdl, .tra, .chg, .ldg, .ssm,
    .memCap, .tick, .reg .FEn_ADFAC, .reg .FEn_EVT, .reg .FEn_WDCNT, .reg .CHG_ILIM, .reg .CHG_FLT, .reg .CHG_EVT, .reg
    .LDG_EVT, .reg .LDG_WQSTAT, .reg .LDG_PNf, .reg .MEM_EVT, .reg .MEM_LASTINFO, .reg .MEM_CNTs, .reg .NVS_STATE]) s
    (State.pfcUpdate s n f) := by
  unfold State.pfcUpdate
  try dsimp only
  repeat' first
    | with_reducible exact .refl _ _ | with_reducible assumption | with_reducible refine .ite ?_ ?_
    | with_reducible apply Kept.via (State.updE_kept ..) | with_reducible apply Kept.via (State.satIf_kept ..)
    | with_reducible apply Kept.via (State.unpack_kept ..) | with_reducible apply Kept.via (State.measured_kept ..)
    | with_reducible apply Kept.via (State.tableReads_kept ..) | with_reducible apply Kept.via (State.gridTrack_kept ..)
    | with_reducible apply Kept.via (State.pfcLaw_kept ..) | with_reducible apply Kept.via (State.gridVec_kept ..)
    | with_reducible apply Kept.via (State.gridVec_kept_eq (by assumption)) | exact rfl

theorem State.windStop_kept (s : State) (f : Nat) (es : List Nat) : Kept [.po, .eng, .mdl, .ldg, .reg .FEn_EVT, .reg
    .FEn_WDCNT, .reg .LDG_EVT, .reg .LDG_WQSTAT, .reg .LDG_PNf] s (State.windStop s f es) := by
  unfold State.windStop
  try dsimp only
  repeat' first
    | with_reducible exact .refl _ _ | with_reducible assumption | with_reducible apply Kept.via (State.hwMove_kept ..)
    | with_reducible apply Kept.via (State.setShadow_kept ..) | with_reducible apply Kept.via (State.setDuty_kept ..)
    | with_reducible apply Kept.via (State.withdrawOnce_kept ..) | with_reducible refine .each (fun _ _ => ?_) ?_ | exact rfl

theorem State.rotorStop_kept (s : State) (n q f : Nat) : Kept [.po, .eng, .mdl, .chg, .ldg, .ssm, .reg .FEn_EVT, .reg
    .FEn_WDCNT, .reg .CHG_ILIM, .reg .CHG_FLT, .reg .CHG_EVT, .reg .LDG_EVT, .reg .LDG_WQSTAT, .reg .LDG_PNf] s
    (State.rotorStop s n q f) := by
  unfold State.rotorStop
  try dsimp only
  repeat' first
    | with_reducible exact .refl _ _ | with_reducible assumption | with_reducible apply Kept.via (State.feFlag_kept ..)
    | with_reducible apply Kept.via (State.chgFail_kept ..) | with_reducible apply Kept.via (State.windStop_kept ..)
    | exact rfl

theorem State.windLaw_kept (s0 : State) (n q f : Nat) : Kept (Part.journal [.err, .po, .eng, .mdl, .tra, .chg, .ldg, .ssm,
    .memCap, .reg .FEn_ADFAC, .reg .FEn_EVT, .reg .FEn_WDCNT, .reg .CHG_ILIM, .reg .CHG_FLT, .reg .CHG_EVT, .reg .LDG_EVT, .reg
    .LDG_WQSTAT, .reg .LDG_PNf, .reg .MEM_EVT, .reg .MEM_LASTINFO, .reg .MEM_CNTs, .reg .NVS_STATE]) s0 (State.windLaw s0 n q
    f) := by
  unfold State.windLaw
  try dsimp only
  repeat' first
    | with_reducible exact .refl _ _ | with_reducible assumption | with_reducible refine .ite ?_ ?_
    | with_reducible apply Kept.via (State.lookupKind_kept ..) | with_reducible apply Kept.via (State.lookupDone_kept ..)
    | with_reducible apply Kept.via (State.satIf_kept ..) | with_reducible apply Kept.via (State.lawDone_kept ..)
    | with_reducible apply Kept.via (State.writeSet_kept ..)
    | with_reducible apply Kept.via (State.writeSet_kept_eq (by assumption))
    | with_reducible apply Kept.via (State.post_kept ..) | with_reducible apply Kept.via (State.frontPi_kept ..)
    | with_reducible apply Kept.via (State.frontPi_kept_eq (by assumption)) | exact rfl

theorem State.windUpdate_kept (s : State) (n q f : Nat) : Kept (Part.journal [.err, .po, .eng, .mdl, .tra, .chg, .ldg, .ssm,
    .memCap, .tick, .reg .FEn_ADFAC, .reg .FEn_EVT, .reg .FEn_WDCNT, .reg .CHG_ILIM, .reg .CHG_FLT, .reg .CHG_EVT, .reg
    .LDG_EVT, .reg .LDG_WQSTAT, .reg .LDG_PNf, .reg .MEM_EVT, .reg .MEM_LASTINFO, .reg .MEM_CNTs, .reg .NVS_STATE]) s
    (State.windUpdate s n q f) := by
  unfold State.windUpdate
  try dsimp only
  repeat' first
    | with_reducible exact .refl _ _ | with_reducible assumption | with_reducible refine .ite ?_ ?_
    | with_reducible apply Kept.via (State.updE_kept ..) | with_reducible apply Kept.via (State.track_kept ..)
    | with_reducible apply Kept.via (State.unpack_kept ..) | with_reducible apply Kept.via (State.measured_kept ..)
    | with_reducible apply Kept.via (State.tableReads_kept ..) | with_reducible apply Kept.via (State.gridTrack_kept ..)
    | with_reducible apply Kept.via (State.rotorStop_kept ..) | with_reducible apply Kept.via (State.windLaw_kept ..)
    | exact rfl

theorem State.adaptDab_kept (s : State) (n : Nat) : Kept [.eng, .tick] s (State.adaptDab s n) := by
  unfold State.adaptDab
  try dsimp only
  repeat' first
    | with_reducible exact .refl _ _ | with_reducible assumption | with_reducible refine .ite ?_ ?_
    | with_reducible apply Kept.via (State.updE_kept ..) | with_reducible apply Kept.via (State.draw_kept ..)
    | with_reducible apply Kept.via (State.draw_kept_eq (by assumption)) | exact rfl

theorem State.dabLaw_kept (s0 : State) (n f : Nat) : Kept [.po, .eng, .mdl, .tra, .chg, .hlv, .ldg, .tick, .reg .FEn_EVT, .reg
    .LDG_PNf] s0 (State.dabLaw s0 n f) := by
  unfold State.dabLaw
  try dsimp only
  repeat' first
    | with_reducible exact .refl _ _ | with_reducible assumption | with_reducible refine .ite ?_ ?_
    | with_reducible apply Kept.via (State.finishOp_kept ..) | with_reducible apply Kept.via (State.updE_kept ..)
    | with_reducible apply Kept.via (State.trFlag_kept ..) | with_reducible apply Kept.via (State.updHl_kept ..)
    | with_reducible apply Kept.via (State.setShadow_kept ..) | with_reducible apply Kept.via (State.satIf_kept ..)
    | with_reducible apply Kept.via (State.updCh_kept ..) | with_reducible apply Kept.via (State.vlimDone_kept ..)
    | with_reducible apply Kept.via (State.post_kept ..) | with_reducible apply Kept.via (State.outerPi_kept ..)
    | with_reducible apply Kept.via (State.outerPi_kept_eq (by assumption))
    | with_reducible apply Kept.via (State.adaptDab_kept ..) | with_reducible refine .each (fun _ _ => ?_) ?_ | exact rfl

theorem State.dabUpdate_kept (s : State) (n f : Nat) : Kept [.po, .eng, .mdl, .tra, .chg, .hlv, .ldg, .ssm, .tick, .reg
    .FEn_EVT, .reg .FEn_WDCNT, .reg .CHG_STATE, .reg .CHG_ILIM, .reg .CHG_FLT, .reg .CHG_EVT, .reg .CHG_TIME, .reg .LDG_EVT,
    .reg .LDG_WQSTAT, .reg .LDG_PNf] s (State.dabUpdate s n f) := by
  unfold State.dabUpdate
  try dsimp only
  repeat' first
    | with_reducible exact .refl _ _ | with_reducible assumption | with_reducible refine .ite ?_ ?_
    | with_reducible apply Kept.via (State.updE_kept ..) | with_reducible apply Kept.via (State.fnOff_kept ..)
    | with_reducible apply Kept.via (State.satIf_kept ..) | with_reducible apply Kept.via (State.chgDabTick_kept ..)
    | with_reducible apply Kept.via (State.dabLaw_kept ..) | exact rfl

theorem State.sampleError_kept (s : State) (n : Nat) : Kept [.po, .eng, .mdl, .tra, .chg, .ldg, .ssm, .reg .FEn_EVT, .reg
    .FEn_ERRCNT, .reg .FEn_WDCNT, .reg .CHG_ILIM, .reg .CHG_FLT, .reg .CHG_EVT, .reg .LDG_EVT, .reg .LDG_WQSTAT, .reg .LDG_PNf]
    s (State.sampleError s n) := by
  unfold State.sampleError
  try dsimp only
  repeat' first
    | with_reducible exact .refl _ _ | with_reducible assumption | with_reducible refine .ite ?_ ?_
    | with_reducible apply Kept.via (State.incSat_kept (.FEn_ERRCNT _) ..)
    | with_reducible apply Kept.via (State.setFld_kept (.FEn_ERRCNT _) ..) | with_reducible apply Kept.via (State.updE_kept ..)
    | with_reducible apply Kept.via (State.feFlag_kept ..) | with_reducible apply Kept.via (State.engineFault_kept ..)
    | exact rfl

theorem State.badUpdate_kept (s : State) (p f : Nat) : Kept [.po, .eng, .mdl, .tra, .chg, .ldg, .ssm, .tick, .reg .FEn_EVT,
    .reg .FEn_ERRCNT, .reg .FEn_WDCNT, .reg .CHG_ILIM, .reg .CHG_FLT, .reg .CHG_EVT, .reg .LDG_EVT, .reg .LDG_WQSTAT, .reg
    .LDG_PNf] s (State.badUpdate s p f) := by
  unfold State.badUpdate
  try dsimp only
  repeat' first
    | with_reducible exact .refl _ _ | with_reducible assumption | with_reducible refine .ite ?_ ?_
    | with_reducible apply Kept.via (State.updE_kept ..) | with_reducible apply Kept.via (State.track_kept ..)
    | with_reducible apply Kept.via (State.gridTrack_kept ..) | with_reducible apply Kept.via (State.rotorStop_kept ..)
    | with_reducible apply Kept.via (State.sampleError_kept ..) | with_reducible refine .each (fun _ _ => ?_) ?_ | exact rfl

theorem execEngineUpdate_kept (n _point : Nat) (s : State) : KeptOut (Part.journal [.err, .po, .eng, .mdl, .tra, .chg, .hlv,
    .ldg, .ssm, .memCap, .tick, .reg .FEn_ADFAC, .reg .FEn_EVT, .reg .FEn_ERRCNT, .reg .FEn_WDCNT, .reg .CHG_STATE, .reg
    .CHG_ILIM, .reg .CHG_FLT, .reg .CHG_EVT, .reg .CHG_TIME, .reg .LDG_EVT, .reg .LDG_WQSTAT, .reg .LDG_PNf, .reg .MEM_EVT,
    .reg .MEM_LASTINFO, .reg .MEM_CNTs, .reg .NVS_STATE]) s (execEngineUpdate n _point s) := by
  unfold execEngineUpdate
  repeat' first
    | with_reducible apply KeptOut.next | with_reducible apply KeptOut.ite | with_reducible exact .refl _ _
    | with_reducible assumption | with_reducible refine .ite ?_ ?_
    | with_reducible apply Kept.via (State.setFld_kept (.FEn_ERRCNT _) ..) | with_reducible apply Kept.via (State.updE_kept ..)
    | with_reducible apply Kept.via (State.focUpdate_kept ..) | with_reducible apply Kept.via (State.pfcUpdate_kept ..)
    | with_reducible apply Kept.via (State.windUpdate_kept ..) | with_reducible apply Kept.via (State.dabUpdate_kept ..)
    | with_reducible apply Kept.via (State.badUpdate_kept ..) | with_reducible refine .each (fun _ _ => ?_) ?_ | exact rfl
    | split

end Sys2Proof.Machine
end

