-- ==== Sys2Proof/Laws/KeptModulator.lean ====
section
/-!
SUPPORT. The frame of each operation of Sys2Proof/Machine/Modulator.lean: the parts of the state that it can change.
-/
namespace Sys2Proof.Machine
set_option Elab.async false

theorem State.ovCheck_kept (s : State) (k : Nat) : Kept [.po, .eng, .mdl, .tra, .ldg, .ssm, .reg .FEn_EVT, .reg .FEn_WDCNT,
    .reg .LDG_EVT, .reg .LDG_WQSTAT, .reg .LDG_PNf, .reg .SSM_STATE, .reg .SSM_EVT, .reg .SSM_PAT0, .reg .SSM_PAT1, .reg
    .SSM_PATX] s (State.ovCheck s k) := by
  unfold State.ovCheck
  try dsimp only
  repeat' first
    | with_reducible exact .refl _ _ | with_reducible assumption | with_reducible refine .ite ?_ ?_
    | with_reducible apply Kept.via (State.trFlag_kept ..) | with_reducible apply Kept.via (State.updLnk_kept ..)
    | with_reducible apply Kept.via (State.withdraw_kept ..) | with_reducible apply Kept.via (State.ssmOv_kept ..)
    | with_reducible apply Kept.via (State.sendFrame_kept ..) | with_reducible apply Kept.via (State.fnRecord_kept ..)
    | with_reducible refine .each (fun _ _ => ?_) ?_ | exact rfl | split

theorem State.chopWatch_kept (s : State) (f : Nat) : Kept [.tra] s (State.chopWatch s f) := by
  unfold State.chopWatch
  try dsimp only
  repeat' first
    | with_reducible exact .refl _ _ | with_reducible assumption | with_reducible apply Kept.via (State.updTr_kept ..)
    | exact rfl

theorem State.chopVolts_kept (s : State) (k : Nat) : Kept [.tra] s (State.chopVolts s k) := by
  unfold State.chopVolts
  try dsimp only
  repeat' first
    | with_reducible exact .refl _ _ | with_reducible assumption | with_reducible apply Kept.via (State.updTr_kept ..)
    | with_reducible apply Kept.via (State.chopWatch_kept ..) | with_reducible refine .each (fun _ _ => ?_) ?_ | exact rfl

theorem State.fcResult_kept (s : State) (ch raw : Nat) : Kept [.po, .eng, .mdl, .tra, .ldg, .ssm, .reg .FEn_EVT, .reg
    .FEn_WDCNT, .reg .FCV_OVR, .reg .FCV_CHn_LAST, .reg .LDG_EVT, .reg .LDG_WQSTAT, .reg .LDG_PNf, .reg .SSM_STATE, .reg
    .SSM_EVT, .reg .SSM_PAT0, .reg .SSM_PAT1, .reg .SSM_PATX] s (State.fcResult s ch raw) := by
  unfold State.fcResult
  try dsimp only
  repeat' first
    | with_reducible exact .refl _ _ | with_reducible assumption | with_reducible refine .ite ?_ ?_
    | with_reducible apply Kept.via (State.setBit_kept (.FCV_OVR) ..)
    | with_reducible apply Kept.via (State.setReg_kept (.FCV_CHn_LAST _) ..)
    | with_reducible apply Kept.via (State.updPrt_kept ..) | with_reducible apply Kept.via (State.ovCheck_kept ..)
    | with_reducible apply Kept.via (State.chopVolts_kept ..) | with_reducible refine .each (fun _ _ => ?_) ?_ | exact rfl

theorem execConversionResult_kept (g : Nat) (by_ : Option Nat) (raw : List Nat) (bad : Bool) (s : State) : KeptOut
    (Part.journal [.po, .eng, .mdl, .tra, .ldg, .ssm, .memCap, .reg .FEn_EVT, .reg .FEn_WDCNT, .reg .FCV_OVR, .reg
    .FCV_CHn_LAST, .reg .LDG_EVT, .reg .LDG_WQSTAT, .reg .LDG_PNf, .reg .SSM_STATE, .reg .SSM_EVT, .reg .SSM_PAT0, .reg
    .SSM_PAT1, .reg .SSM_PATX, .reg .MEM_EVT, .reg .MEM_LASTINFO, .reg .MEM_CNTs]) s (execConversionResult g by_ raw bad s) :=
    by
  unfold execConversionResult
  repeat' first
    | with_reducible apply KeptOut.next | with_reducible apply KeptOut.ite | with_reducible exact .refl _ _
    | with_reducible assumption | with_reducible refine .ite ?_ ?_ | with_reducible apply Kept.via (State.updE_kept ..)
    | with_reducible apply Kept.via (State.memError_kept ..) | with_reducible apply Kept.via (State.fcResult_kept ..)
    | with_reducible refine .each (fun _ _ => ?_) ?_
    | (intro p; cases p <;> first | exact .inl (List.mem_of_elem_eq_true rfl) | exact .inr rfl | exact .inr True.intro)
    | exact rfl | split | dsimp only | with_reducible refine .update rfl rfl rfl ?_ ?_

theorem execLinkWatchTrigger_kept (g : Nat) (near : Bool) (s : State) : KeptOut [.mdl] s (execLinkWatchTrigger g near s) := by
  unfold execLinkWatchTrigger
  repeat' first
    | with_reducible apply KeptOut.next | with_reducible apply KeptOut.ite | with_reducible exact .refl _ _
    | with_reducible assumption | with_reducible refine .ite ?_ ?_
    | (intro p; cases p <;> first | exact .inl (List.mem_of_elem_eq_true rfl) | exact .inr rfl | exact .inr True.intro) | split
    | dsimp only | with_reducible refine .update rfl rfl rfl ?_ ?_

theorem State.placeEdges_kept (s : State) (n : Nat) (rise fall : Option Nat) : Kept [.mdl] s (State.placeEdges s n rise fall)
    := by
  unfold State.placeEdges
  try dsimp only
  repeat' first
    | with_reducible exact .refl _ _ | with_reducible assumption | with_reducible refine .ite ?_ ?_
    | with_reducible apply Kept.via (State.setEdges_kept ..) | exact rfl

theorem State.commitLeg_kept (s : State) (n leg : Nat) (peak : Bool) : Kept [.mdl, .reg .MOD_EVT] s (State.commitLeg s n leg
    peak) := by
  unfold State.commitLeg
  try dsimp only
  repeat' first
    | with_reducible exact .refl _ _ | with_reducible assumption | with_reducible refine .ite ?_ ?_
    | with_reducible apply Kept.via (State.setFlag_kept (.MOD_EVT) ..)
    | with_reducible apply Kept.via (State.setShadow_kept ..) | with_reducible apply Kept.via (State.setDuty_kept ..)
    | with_reducible apply Kept.via (State.placeEdges_kept ..) | exact rfl | split

theorem State.lateDuty_kept (s : State) (n : Nat) : Kept [.po, .eng, .mdl, .tra, .chg, .ldg, .ssm, .reg .FEn_EVT, .reg
    .FEn_ERRCNT, .reg .FEn_WDCNT, .reg .CHG_ILIM, .reg .CHG_FLT, .reg .CHG_EVT, .reg .LDG_EVT, .reg .LDG_WQSTAT, .reg .LDG_PNf]
    s (State.lateDuty s n) := by
  unfold State.lateDuty
  try dsimp only
  repeat' first
    | with_reducible exact .refl _ _ | with_reducible assumption | with_reducible refine .ite ?_ ?_
    | with_reducible apply Kept.via (State.setFld_kept (.FEn_ERRCNT _) ..) | with_reducible apply Kept.via (State.updE_kept ..)
    | with_reducible apply Kept.via (State.feFlag_kept ..) | with_reducible apply Kept.via (State.engineFault_kept ..)
    | exact rfl

theorem execUpdatePointCommit_kept (n : Nat) (_peak _late : Bool) (s : State) : KeptOut [.po, .eng, .mdl, .tra, .chg, .ldg,
    .ssm, .reg .FEn_EVT, .reg .FEn_ERRCNT, .reg .FEn_WDCNT, .reg .MOD_EVT, .reg .CHG_ILIM, .reg .CHG_FLT, .reg .CHG_EVT, .reg
    .LDG_EVT, .reg .LDG_WQSTAT, .reg .LDG_PNf] s (execUpdatePointCommit n _peak _late s) := by
  unfold execUpdatePointCommit
  repeat' first
    | with_reducible apply KeptOut.next | with_reducible apply KeptOut.ite | with_reducible exact .refl _ _
    | with_reducible assumption | with_reducible refine .ite ?_ ?_
    | with_reducible apply Kept.via (State.setFld_kept (.FEn_ERRCNT _) ..) | with_reducible apply Kept.via (State.updE_kept ..)
    | with_reducible apply Kept.via (State.updFp_kept ..) | with_reducible apply Kept.via (State.applyTiming_kept ..)
    | with_reducible apply Kept.via (State.commitLeg_kept ..) | with_reducible apply Kept.via (State.lateDuty_kept ..)
    | with_reducible refine .each (fun _ _ => ?_) ?_ | exact rfl

theorem execDidtTrip_kept (n : Nat) (_blanking : Bool) (s : State) : KeptOut [.po, .eng, .mdl, .tra, .chg, .ldg, .ssm, .pads,
    .reg .FEn_EVT, .reg .FEn_WDCNT, .reg .MOD_STAT, .reg .MOD_EVT, .reg .MOD_LCNTn, .reg .MOD_LTRIPn, .reg .CHG_ILIM, .reg
    .CHG_FLT, .reg .CHG_EVT, .reg .LDG_EVT, .reg .LDG_WQSTAT, .reg .LDG_PNf] s (execDidtTrip n _blanking s) := by
  unfold execDidtTrip
  repeat' first
    | with_reducible apply KeptOut.next | with_reducible apply KeptOut.ite | with_reducible exact .refl _ _
    | with_reducible assumption | with_reducible refine .ite ?_ ?_ | with_reducible apply Kept.via (State.latchLeg_kept ..)
    | exact rfl

theorem execSoftOffHoldEnd_kept (n : Nat) (s : State) : KeptOut [.pads] s (execSoftOffHoldEnd n s) := by
  unfold execSoftOffHoldEnd
  repeat' first
    | with_reducible apply KeptOut.next | with_reducible apply KeptOut.ite | with_reducible exact .refl _ _
    | with_reducible assumption | with_reducible refine .ite ?_ ?_ | with_reducible apply Kept.via (State.setSoft_kept ..)
    | exact rfl

theorem execGfFault_kept (n : Nat) (high : Bool) (s : State) : KeptOut [.po, .eng, .mdl, .gf, .tra, .chg, .ldg, .ssm, .pads,
    .reg .FEn_EVT, .reg .FEn_WDCNT, .reg .MOD_STAT, .reg .MOD_EVT, .reg .MOD_LCNTn, .reg .MOD_LTRIPn, .reg .CHG_ILIM, .reg
    .CHG_FLT, .reg .CHG_EVT, .reg .LDG_EVT, .reg .LDG_WQSTAT, .reg .LDG_PNf] s (execGfFault n high s) := by
  unfold execGfFault
  repeat' first
    | with_reducible apply KeptOut.next | with_reducible apply KeptOut.ite | with_reducible exact .refl _ _
    | with_reducible assumption | with_reducible refine .ite ?_ ?_ | with_reducible apply Kept.via (State.setGf_kept ..)
    | with_reducible apply Kept.via (State.latchLeg_kept ..) | exact rfl

theorem execIlockLatch_kept (n : Nat) (held : Bool) (s : State) : KeptOut [.po, .eng, .mdl, .tra, .chg, .ldg, .ssm, .pads, .reg
    .FEn_EVT, .reg .FEn_WDCNT, .reg .MOD_STAT, .reg .MOD_EVT, .reg .MOD_LCNTn, .reg .MOD_LTRIPn, .reg .CHG_ILIM, .reg .CHG_FLT,
    .reg .CHG_EVT, .reg .LDG_EVT, .reg .LDG_WQSTAT, .reg .LDG_PNf] s (execIlockLatch n held s) := by
  unfold execIlockLatch
  repeat' first
    | with_reducible apply KeptOut.next | with_reducible apply KeptOut.ite | with_reducible exact .refl _ _
    | with_reducible assumption | with_reducible refine .ite ?_ ?_
    | with_reducible apply Kept.via (State.incSat_kept (.MOD_LCNTn _) ..)
    | with_reducible apply Kept.via (State.setFlag_kept (.MOD_EVT) ..) | with_reducible apply Kept.via (State.latchLeg_kept ..)
    | exact rfl

theorem State.denFall_kept (s : State) (f : Nat) : Kept [.po, .eng, .mdl, .tra, .ldg, .ssm, .reg .FEn_EVT, .reg .FEn_WDCNT,
    .reg .LDG_EVT, .reg .LDG_WQSTAT, .reg .LDG_PNf] s (State.denFall s f) := by
  unfold State.denFall
  try dsimp only
  repeat' first
    | with_reducible exact .refl _ _ | with_reducible assumption | with_reducible refine .ite ?_ ?_
    | with_reducible apply Kept.via (State.setDuty_kept ..) | with_reducible apply Kept.via (State.withdraw_kept ..)
    | with_reducible apply Kept.via (State.sendFrame_kept ..) | with_reducible apply Kept.via (State.fnRecord_kept ..)
    | with_reducible refine .each (fun _ _ => ?_) ?_ | exact rfl | split

theorem execDriveEnFall_kept (s : State) : KeptOut [.po, .eng, .mdl, .tra, .chg, .ldg, .ssm, .driveEn, .reg .FEn_EVT, .reg
    .FEn_WDCNT, .reg .MOD_STAT, .reg .MOD_EVT, .reg .CHG_ILIM, .reg .CHG_FLT, .reg .CHG_EVT, .reg .LDG_EVT, .reg .LDG_WQSTAT,
    .reg .LDG_PNf] s (execDriveEnFall s) := by
  unfold execDriveEnFall
  repeat' first
    | with_reducible apply KeptOut.next | with_reducible apply KeptOut.ite | with_reducible exact .refl _ _
    | with_reducible assumption | with_reducible refine .ite ?_ ?_
    | with_reducible apply Kept.via (State.clrFlag_kept (.MOD_STAT) ..)
    | with_reducible apply Kept.via (State.setFlag_kept (.MOD_EVT) ..) | with_reducible apply Kept.via (State.chgFail_kept ..)
    | with_reducible apply Kept.via (State.denFall_kept ..) | with_reducible refine .each (fun _ _ => ?_) ?_
    | (intro p; cases p <;> first | exact .inl (List.mem_of_elem_eq_true rfl) | exact .inr rfl | exact .inr True.intro)
    | exact rfl | split | dsimp only | with_reducible refine .update rfl rfl rfl ?_ ?_

theorem State.glSync_kept (s : State) (k : Nat) : Kept [.reg .GLKk_STAT] s (State.glSync s k) := by
  unfold State.glSync
  try dsimp only
  repeat' first
    | with_reducible exact .refl _ _ | with_reducible assumption
    | with_reducible apply Kept.via (State.setFld_kept (.GLKk_STAT _) ..) | exact rfl

theorem State.glQueue_kept (s : State) (k : Nat) (c : GlCmd) : Kept [.mdl, .reg .GLKk_STAT] s (State.glQueue s k c) := by
  unfold State.glQueue
  try dsimp only
  repeat' first
    | with_reducible exact .refl _ _ | with_reducible assumption | with_reducible refine .ite ?_ ?_
    | with_reducible apply Kept.via (State.updGl_kept ..) | with_reducible apply Kept.via (State.glSync_kept ..) | exact rfl

theorem State.clearLatch_kept (s : State) (loud : List Nat) (n : Nat) : Kept [.po, .eng, .mdl, .tra, .chg, .ldg, .ssm, .pads,
    .reg .FEn_EVT, .reg .FEn_WDCNT, .reg .MOD_STAT, .reg .MOD_EVT, .reg .MOD_LCNTn, .reg .MOD_LTRIPn, .reg .GLKk_STAT, .reg
    .CHG_ILIM, .reg .CHG_FLT, .reg .CHG_EVT, .reg .LDG_EVT, .reg .LDG_WQSTAT, .reg .LDG_PNf] s (State.clearLatch s loud n) := by
  unfold State.clearLatch
  try dsimp only
  repeat' first
    | with_reducible exact .refl _ _ | with_reducible assumption | with_reducible refine .ite ?_ ?_
    | with_reducible apply Kept.via (State.setFlag_kept (.MOD_EVT) ..) | with_reducible apply Kept.via (State.setLatch_kept ..)
    | with_reducible apply Kept.via (State.syncLatched_kept ..) | with_reducible apply Kept.via (State.latchLeg_kept ..)
    | with_reducible apply Kept.via (State.glQueue_kept ..) | exact rfl

theorem execDriveEnRise_kept (low : Nat) (loud : List Nat) (s : State) : KeptOut [.po, .eng, .mdl, .tra, .chg, .ldg, .ssm,
    .driveEn, .pads, .tick, .reg .FEn_EVT, .reg .FEn_WDCNT, .reg .MOD_STAT, .reg .MOD_EVT, .reg .MOD_LCNTn, .reg .MOD_LTRIPn,
    .reg .GLKk_STAT, .reg .CHG_ILIM, .reg .CHG_FLT, .reg .CHG_EVT, .reg .LDG_EVT, .reg .LDG_WQSTAT, .reg .LDG_PNf] s
    (execDriveEnRise low loud s) := by
  unfold execDriveEnRise
  repeat' first
    | with_reducible apply KeptOut.next | with_reducible apply KeptOut.ite | with_reducible exact .refl _ _
    | with_reducible assumption | with_reducible refine .ite ?_ ?_
    | with_reducible apply Kept.via (State.setFlag_kept (.MOD_STAT) ..) | with_reducible apply Kept.via (State.draw_kept ..)
    | with_reducible apply Kept.via (State.draw_kept_eq (by assumption))
    | with_reducible apply Kept.via (State.clearLatch_kept ..) | with_reducible refine .each (fun _ _ => ?_) ?_
    | (intro p; cases p <;> first | exact .inl (List.mem_of_elem_eq_true rfl) | exact .inr rfl | exact .inr True.intro)
    | exact rfl | split | dsimp only | with_reducible refine .update rfl rfl rfl ?_ ?_

theorem State.updSlot_kept (s : State) (k j : Nat) (g : GlSlot → GlSlot) : Kept [.mdl] s (State.updSlot s k j g) := by
  unfold State.updSlot
  try dsimp only
  repeat' first
    | with_reducible exact .refl _ _ | with_reducible assumption | with_reducible apply Kept.via (State.updGl_kept ..)
    | exact rfl

theorem State.glSend_kept (s : State) (k : Nat) (w : GlWait) (fr : List Byte) : Kept [.mdl] s (State.glSend s k w fr) := by
  unfold State.glSend
  try dsimp only
  repeat' first
    | with_reducible exact .refl _ _ | with_reducible assumption | with_reducible apply Kept.via (State.updGl_kept ..)
    | exact rfl

theorem State.glPop_kept (s : State) (k : Nat) : Kept [.mdl, .reg .GLKk_STAT] s (State.glPop s k) := by
  unfold State.glPop
  try dsimp only
  repeat' first
    | with_reducible exact .refl _ _ | with_reducible assumption | with_reducible apply Kept.via (State.updGl_kept ..)
    | with_reducible apply Kept.via (State.glSync_kept ..) | exact rfl

theorem State.glLose_kept (s : State) (k j : Nat) : Kept [.mdl, .reg .MOD_EVT, .reg .GLK_EVT, .reg .GLKk_STAT] s (State.glLose
    s k j) := by
  unfold State.glLose
  try dsimp only
  repeat' first
    | with_reducible exact .refl _ _ | with_reducible assumption | with_reducible refine .ite ?_ ?_
    | with_reducible apply Kept.via (State.setBit_kept (.GLK_EVT) ..)
    | with_reducible apply Kept.via (State.setBit_kept (.GLKk_STAT _) ..)
    | with_reducible apply Kept.via (State.setFlag_kept (.MOD_EVT) ..) | with_reducible apply Kept.via (State.updLeg_kept ..)
    | with_reducible apply Kept.via (State.updSlot_kept ..) | exact rfl | split

theorem State.glStrength_kept (s : State) (n : Nat) : Kept [.mdl, .reg .GLKk_STAT] s (State.glStrength s n) := by
  unfold State.glStrength
  try dsimp only
  repeat' first
    | with_reducible exact .refl _ _ | with_reducible assumption | with_reducible refine .ite ?_ ?_
    | with_reducible apply Kept.via (State.glQueue_kept ..) | exact rfl

theorem State.pollFailed_kept (s : State) (k j : Nat) : Kept [.mdl, .reg .MOD_EVT, .reg .GLK_EVT, .reg .GLKk_STAT] s
    (State.pollFailed s k j) := by
  unfold State.pollFailed
  try dsimp only
  repeat' first
    | with_reducible exact .refl _ _ | with_reducible assumption | with_reducible refine .ite ?_ ?_
    | with_reducible apply Kept.via (State.updSlot_kept ..) | with_reducible apply Kept.via (State.glLose_kept ..) | exact rfl

theorem State.wantBand_kept (s : State) (n b : Nat) : Kept [.mdl, .reg .GLKk_STAT] s (State.wantBand s n b) := by
  unfold State.wantBand
  try dsimp only
  repeat' first
    | with_reducible exact .refl _ _ | with_reducible assumption | with_reducible refine .ite ?_ ?_
    | with_reducible apply Kept.via (State.updLeg_kept ..) | with_reducible apply Kept.via (State.glStrength_kept ..)
    | exact rfl

theorem State.drvFlags_kept (s : State) (n flags : Nat) : Kept [.po, .eng, .mdl, .tra, .chg, .ldg, .ssm, .pads, .reg .FEn_EVT,
    .reg .FEn_WDCNT, .reg .MOD_STAT, .reg .MOD_EVT, .reg .MOD_LCNTn, .reg .MOD_LTRIPn, .reg .CHG_ILIM, .reg .CHG_FLT, .reg
    .CHG_EVT, .reg .LDG_EVT, .reg .LDG_WQSTAT, .reg .LDG_PNf] s (State.drvFlags s n flags) := by
  unfold State.drvFlags
  try dsimp only
  repeat' first
    | with_reducible exact .refl _ _ | with_reducible assumption | with_reducible refine .ite ?_ ?_
    | with_reducible apply Kept.via (State.updLeg_kept ..) | with_reducible apply Kept.via (State.latchLeg_kept ..) | exact rfl

theorem State.glRecover_kept (s : State) (k j : Nat) : Kept [.mdl, .reg .GLKk_STAT] s (State.glRecover s k j) := by
  unfold State.glRecover
  try dsimp only
  repeat' first
    | with_reducible exact .refl _ _ | with_reducible assumption
    | with_reducible apply Kept.via (State.clrBit_kept (.GLKk_STAT _) ..)
    | with_reducible apply Kept.via (State.updLeg_kept ..) | with_reducible apply Kept.via (State.updSlot_kept ..)
    | with_reducible apply Kept.via (State.glStrength_kept ..) | exact rfl | split

theorem State.goodPoll_kept (s : State) (k j data : Nat) : Kept [.po, .eng, .mdl, .tra, .chg, .ldg, .ssm, .pads, .reg .FEn_EVT,
    .reg .FEn_WDCNT, .reg .MOD_STAT, .reg .MOD_EVT, .reg .MOD_LCNTn, .reg .MOD_LTRIPn, .reg .GLKk_STAT, .reg .GLKk_DRVj, .reg
    .CHG_ILIM, .reg .CHG_FLT, .reg .CHG_EVT, .reg .LDG_EVT, .reg .LDG_WQSTAT, .reg .LDG_PNf] s (State.goodPoll s k j data) := by
  unfold State.goodPoll
  try dsimp only
  repeat' first
    | with_reducible exact .refl _ _ | with_reducible assumption | with_reducible refine .ite ?_ ?_
    | with_reducible apply Kept.via (State.setReg_kept (.GLKk_DRVj _ _) ..)
    | with_reducible apply Kept.via (State.updLeg_kept ..) | with_reducible apply Kept.via (State.glQueue_kept ..)
    | with_reducible apply Kept.via (State.updSlot_kept ..) | with_reducible apply Kept.via (State.glStrength_kept ..)
    | with_reducible apply Kept.via (State.wantBand_kept ..) | with_reducible apply Kept.via (State.drvFlags_kept ..)
    | with_reducible apply Kept.via (State.glRecover_kept ..) | exact rfl | split

theorem State.cmdGood_kept (s : State) (k : Nat) (c : GlCmd) (data : Nat) : Kept [.po, .mdl, .reg .MOD_EVT, .reg .GLK_EVT, .reg
    .GLKk_STAT] s (State.cmdGood s k c data) := by
  unfold State.cmdGood
  try dsimp only
  repeat' first
    | with_reducible exact .refl _ _ | with_reducible assumption | with_reducible refine .ite ?_ ?_
    | with_reducible apply Kept.via (State.setFlag_kept (.MOD_EVT) ..) | with_reducible apply Kept.via (State.hwFinish_kept ..)
    | with_reducible apply Kept.via (State.updLeg_kept ..) | with_reducible apply Kept.via (State.updSlot_kept ..)
    | with_reducible apply Kept.via (State.glPop_kept ..) | with_reducible apply Kept.via (State.glLose_kept ..)
    | with_reducible apply Kept.via (State.glRecover_kept ..) | exact rfl | split

theorem State.cmdBad_kept (s : State) (k : Nat) (c : GlCmd) : Kept [.po, .mdl, .reg .MOD_EVT, .reg .GLK_EVT, .reg .GLKk_STAT] s
    (State.cmdBad s k c) := by
  unfold State.cmdBad
  try dsimp only
  repeat' first
    | with_reducible exact .refl _ _ | with_reducible assumption | with_reducible refine .ite ?_ ?_
    | with_reducible apply Kept.via (State.hwFinish_kept ..) | with_reducible apply Kept.via (State.updGl_kept ..)
    | with_reducible apply Kept.via (State.glPop_kept ..) | with_reducible apply Kept.via (State.glLose_kept ..) | exact rfl
    | split

theorem State.glFail_kept (s : State) (k : Nat) : Kept [.po, .mdl, .reg .MOD_EVT, .reg .GLK_EVT, .reg .GLKk_STAT] s
    (State.glFail s k) := by
  unfold State.glFail
  try dsimp only
  repeat' first
    | with_reducible exact .refl _ _ | with_reducible assumption
    | with_reducible apply Kept.via (State.setBit_kept (.GLK_EVT) ..) | with_reducible apply Kept.via (State.updGl_kept ..)
    | with_reducible apply Kept.via (State.pollFailed_kept ..) | with_reducible apply Kept.via (State.cmdBad_kept ..)
    | exact rfl | split

theorem execGateLinkWindow_kept (k : Nat) (s : State) : KeptOut [.mdl, .reg .GLKk_DRVj] s (execGateLinkWindow k s) := by
  unfold execGateLinkWindow
  repeat' first
    | with_reducible apply KeptOut.next | with_reducible apply KeptOut.ite | with_reducible exact .refl _ _
    | with_reducible assumption | with_reducible refine .ite ?_ ?_
    | with_reducible apply Kept.via (State.incSat_kept (.GLKk_DRVj _ _) ..)
    | with_reducible apply Kept.via (State.updGl_kept ..) | with_reducible apply Kept.via (State.glSend_kept ..)
    | with_reducible refine .each (fun _ _ => ?_) ?_ | exact rfl | split

theorem execGateLinkResponse_kept (k : Nat) (frame : List Byte) (s : State) : KeptOut [.po, .eng, .mdl, .tra, .chg, .ldg, .ssm,
    .pads, .reg .FEn_EVT, .reg .FEn_WDCNT, .reg .MOD_STAT, .reg .MOD_EVT, .reg .MOD_LCNTn, .reg .MOD_LTRIPn, .reg .GLK_EVT,
    .reg .GLKk_STAT, .reg .GLKk_ERR, .reg .GLKk_DRVj, .reg .CHG_ILIM, .reg .CHG_FLT, .reg .CHG_EVT, .reg .LDG_EVT, .reg
    .LDG_WQSTAT, .reg .LDG_PNf] s (execGateLinkResponse k frame s) := by
  unfold execGateLinkResponse
  repeat' first
    | with_reducible apply KeptOut.next | with_reducible apply KeptOut.ite | with_reducible exact .refl _ _
    | with_reducible assumption | with_reducible refine .ite ?_ ?_
    | with_reducible apply Kept.via (State.incSat_kept (.GLKk_ERR _) ..) | with_reducible apply Kept.via (State.updGl_kept ..)
    | with_reducible apply Kept.via (State.goodPoll_kept ..) | with_reducible apply Kept.via (State.cmdGood_kept ..)
    | with_reducible apply Kept.via (State.glFail_kept ..) | exact rfl | split | dsimp only

theorem execGateLinkTimeout_kept (k : Nat) (s : State) : KeptOut [.po, .mdl, .reg .MOD_EVT, .reg .GLK_EVT, .reg .GLKk_STAT,
    .reg .GLKk_ERR] s (execGateLinkTimeout k s) := by
  unfold execGateLinkTimeout
  repeat' first
    | with_reducible apply KeptOut.next | with_reducible apply KeptOut.ite | with_reducible exact .refl _ _
    | with_reducible assumption | with_reducible refine .ite ?_ ?_
    | with_reducible apply Kept.via (State.incSat_kept (.GLKk_ERR _) ..) | with_reducible apply Kept.via (State.glFail_kept ..)
    | exact rfl

theorem State.drvRun_kept (s : State) (m : Msg) (key : Nat) (w : Bool) (data : Nat) : Kept [.mdl, .reg .GLKk_STAT] s
    (State.drvRun s m key w data) := by
  unfold State.drvRun
  try dsimp only
  repeat' first
    | with_reducible exact .refl _ _ | with_reducible assumption | with_reducible apply Kept.via (State.glQueue_kept ..)
    | exact rfl | split

theorem specDrvRead_kept  (s : State) (m : Msg) (k : Nat) : Kept [.mdl, .reg .GLKk_STAT] s (specDrvRead.run s m k).1 := by
  unfold specDrvRead
  try dsimp only
  repeat' first
    | with_reducible exact .refl _ _ | with_reducible assumption | with_reducible refine .ite ?_ ?_
    | with_reducible apply Kept.via (acceptedWith_kept ..)
    | with_reducible apply Kept.via (acceptedWith_kept_eq (by assumption))
    | with_reducible apply Kept.via (State.drvRun_kept ..) | exact rfl

theorem specDrvWrite_kept  (s : State) (m : Msg) (k : Nat) : Kept [.mdl, .reg .GLKk_STAT] s (specDrvWrite.run s m k).1 := by
  unfold specDrvWrite
  try dsimp only
  repeat' first
    | with_reducible exact .refl _ _ | with_reducible assumption | with_reducible refine .ite ?_ ?_
    | with_reducible apply Kept.via (acceptedWith_kept ..)
    | with_reducible apply Kept.via (acceptedWith_kept_eq (by assumption))
    | with_reducible apply Kept.via (State.drvRun_kept ..) | exact rfl

theorem execDrvRead_kept (m : Msg) (s : State) : KeptOut (Part.receipt [.mdl, .reg .PST_OUTST, .reg .PST_MERR_CODE, .reg
    .GLKk_STAT]) s (execDrvRead m s) := by
  unfold execDrvRead
  repeat' first
    | with_reducible apply KeptOut.next | with_reducible exact .refl _ _
    | with_reducible apply deliver_kept rfl (fun s m k => (specDrvRead_kept s m k).mono rfl) _ _

theorem execDrvWrite_kept (m : Msg) (s : State) : KeptOut (Part.receipt [.mdl, .reg .PST_OUTST, .reg .PST_MERR_CODE, .reg
    .GLKk_STAT]) s (execDrvWrite m s) := by
  unfold execDrvWrite
  repeat' first
    | with_reducible apply KeptOut.next | with_reducible exact .refl _ _
    | with_reducible apply deliver_kept rfl (fun s m k => (specDrvWrite_kept s m k).mono rfl) _ _

end Sys2Proof.Machine
end

