-- ==== Sys2Proof/Laws/KeptSensingOps.lean ====
section
/-!
SUPPORT. The frame of each operation of Sys2Proof/Machine/SensingOps.lean: the parts of the state that it can change.
-/
namespace Sys2Proof.Machine
set_option Elab.async false

theorem State.updRd_kept (s : State) (r : Nat) (g : RndSt → RndSt) : Kept [.rnd] s (State.updRd s r g) := by
  unfold State.updRd
  try dsimp only
  repeat' first
    | with_reducible exact .refl _ _ | with_reducible assumption
    | (intro p; cases p <;> first | exact .inl (List.mem_of_elem_eq_true rfl) | exact .inr rfl | exact .inr True.intro)
    | dsimp only | with_reducible refine .update rfl rfl rfl ?_ ?_

theorem State.updPs_kept (s : State) (k : Nat) (g : PosSt → PosSt) : Kept [.pos] s (State.updPs s k g) := by
  unfold State.updPs
  try dsimp only
  repeat' first
    | with_reducible exact .refl _ _ | with_reducible assumption
    | (intro p; cases p <;> first | exact .inl (List.mem_of_elem_eq_true rfl) | exact .inr rfl | exact .inr True.intro)
    | dsimp only | with_reducible refine .update rfl rfl rfl ?_ ?_

theorem State.updSn_kept (s : State) (i : Nat) (g : SentSt → SentSt) : Kept [.sent] s (State.updSn s i g) := by
  unfold State.updSn
  try dsimp only
  repeat' first
    | with_reducible exact .refl _ _ | with_reducible assumption
    | (intro p; cases p <;> first | exact .inl (List.mem_of_elem_eq_true rfl) | exact .inr rfl | exact .inr True.intro)
    | dsimp only | with_reducible refine .update rfl rfl rfl ?_ ?_

theorem State.syncRnd_kept (s : State) (r : Nat) : Kept [.reg .RNDr_STATE, .reg .RNDr_RQSTAT, .reg .RNDr_RQLO, .reg .RNDr_RQHI]
    s (State.syncRnd s r) := by
  unfold State.syncRnd
  try dsimp only
  repeat' first
    | with_reducible exact .refl _ _ | with_reducible assumption
    | with_reducible apply Kept.via (State.setFld_kept (.RNDr_RQSTAT _) ..)
    | with_reducible apply Kept.via (State.setFld_kept (.RNDr_STATE _) ..)
    | with_reducible apply Kept.via (State.setReg_kept (.RNDr_RQHI _) ..)
    | with_reducible apply Kept.via (State.setReg_kept (.RNDr_RQLO _) ..) | exact rfl

theorem State.urgentPush_kept (s : State) (r : Nat) (u : Urgent) : Kept [.rnd, .reg .RNDr_STATE, .reg .RNDr_RQSTAT, .reg
    .RNDr_RQLO, .reg .RNDr_RQHI] s (State.urgentPush s r u) := by
  unfold State.urgentPush
  try dsimp only
  repeat' first
    | with_reducible exact .refl _ _ | with_reducible assumption | with_reducible apply Kept.via (State.updRd_kept ..)
    | with_reducible apply Kept.via (State.syncRnd_kept ..) | exact rfl

theorem State.rndDeliver_kept (s : State) (r ch slot m entry : Nat) (urgent : Bool) : Kept [.rnd, .reg .RNDr_STATE, .reg
    .RNDr_EVT, .reg .RNDr_RQSTAT, .reg .RNDr_RQLO, .reg .RNDr_RQHI, .reg .RNDr_LASTc] s (State.rndDeliver s r ch slot m entry
    urgent).1 := by
  unfold State.rndDeliver
  try dsimp only
  repeat' first
    | with_reducible exact .refl _ _ | with_reducible assumption | with_reducible refine .ite ?_ ?_
    | with_reducible apply Kept.via (State.incSat_kept (.RNDr_RQSTAT _) ..)
    | with_reducible apply Kept.via (State.setFlag_kept (.RNDr_EVT _) ..)
    | with_reducible apply Kept.via (State.setReg_kept (.RNDr_LASTc _ _) ..)
    | with_reducible apply Kept.via (State.updRd_kept ..) | with_reducible apply Kept.via (State.syncRnd_kept ..) | exact rfl
theorem State.rndDeliver_kept_eq {s : State} {r ch slot m entry : Nat} {urgent : Bool} {r_} {x_} (h : State.rndDeliver s r ch
    slot m entry urgent = (r_, x_)) : Kept [.rnd, .reg .RNDr_STATE, .reg .RNDr_EVT, .reg .RNDr_RQSTAT, .reg .RNDr_RQLO, .reg
    .RNDr_RQHI, .reg .RNDr_LASTc] s r_ := by
  have k := State.rndDeliver_kept s r ch slot m entry urgent
  rw [h] at k
  exact k

theorem State.rndSettle_kept (s : State) (r : Nat) : Kept [.po] s (State.rndSettle s r) := by
  unfold State.rndSettle
  try dsimp only
  repeat' first
    | with_reducible exact .refl _ _ | with_reducible assumption | with_reducible refine .ite ?_ ?_
    | with_reducible apply Kept.via (State.hwMove_kept ..) | with_reducible apply Kept.via (State.finishOp_kept ..) | exact rfl

theorem State.startWatch_kept (s : State) (r : Nat) : Kept [.rnd] s (State.startWatch s r) := by
  unfold State.startWatch
  try dsimp only
  repeat' first
    | with_reducible exact .refl _ _ | with_reducible assumption | with_reducible apply Kept.via (State.updRd_kept ..)
    | exact rfl

theorem State.rndStart_kept (s : State) (r : Nat) : Kept [.rnd, .reg .RNDr_STATE] s (State.rndStart s r) := by
  unfold State.rndStart
  try dsimp only
  repeat' first
    | with_reducible exact .refl _ _ | with_reducible assumption
    | with_reducible apply Kept.via (State.setFld_kept (.RNDr_STATE _) ..)
    | with_reducible apply Kept.via (State.updRd_kept ..) | with_reducible apply Kept.via (State.startWatch_kept ..)
    | exact rfl

theorem State.setPosValid_kept (s : State) (k : Nat) (v : Bool) : Kept [.pos, .reg .POS_STATE, .reg .POS_EVT, .reg .POSk_STAT]
    s (State.setPosValid s k v) := by
  unfold State.setPosValid
  try dsimp only
  repeat' first
    | with_reducible exact .refl _ _ | with_reducible assumption | with_reducible refine .ite ?_ ?_
    | with_reducible apply Kept.via (State.clrBit_kept (.POS_STATE) ..)
    | with_reducible apply Kept.via (State.setBit_kept (.POS_EVT) ..)
    | with_reducible apply Kept.via (State.setBit_kept (.POS_STATE) ..)
    | with_reducible apply Kept.via (State.setFld_kept (.POSk_STAT _) ..) | with_reducible apply Kept.via (State.updPs_kept ..)
    | exact rfl

theorem State.posFlag_kept (s : State) (k bit : Nat) : Kept [.pos, .reg .POS_EVT, .reg .POSk_FLT] s (State.posFlag s k bit) :=
    by
  unfold State.posFlag
  try dsimp only
  repeat' first
    | with_reducible exact .refl _ _ | with_reducible assumption | with_reducible refine .ite ?_ ?_
    | with_reducible apply Kept.via (State.setBit_kept (.POS_EVT) ..)
    | with_reducible apply Kept.via (State.setBit_kept (.POSk_FLT _) ..) | with_reducible apply Kept.via (State.updPs_kept ..)
    | exact rfl

theorem State.resolverIn_kept (s : State) (p : PosIn) : Kept [.pos, .reg .POSk_ANG, .reg .POSk_SPD, .reg .POSk_STAT] s
    (State.resolverIn s p) := by
  unfold State.resolverIn
  try dsimp only
  repeat' first
    | with_reducible exact .refl _ _ | with_reducible assumption | with_reducible refine .ite ?_ ?_
    | with_reducible apply Kept.via (State.setFld_kept (.POSk_STAT _) ..)
    | with_reducible apply Kept.via (State.setReg_kept (.POSk_ANG _) ..)
    | with_reducible apply Kept.via (State.setReg_kept (.POSk_SPD _) ..) | with_reducible apply Kept.via (State.updPs_kept ..)
    | exact rfl

end Sys2Proof.Machine
end

