-- ==== Sys2Proof/Laws/KeptTraction.lean ====
section
/-!
SUPPORT. The frame of each operation of Sys2Proof/Machine/Traction.lean: the parts of the state that it can change.
-/
namespace Sys2Proof.Machine
set_option Elab.async false

theorem State.engineEnter_kept (s : State) (n : Nat) (st : UState) : Kept [.units, .eng] s (State.engineEnter s n st) := by
  unfold State.engineEnter
  try dsimp only
  repeat' first
    | with_reducible exact .refl _ _ | with_reducible assumption | with_reducible refine .ite ?_ ?_
    | with_reducible apply Kept.via (State.setUst_kept ..) | with_reducible apply Kept.via (State.updE_kept ..) | exact rfl
    | split

theorem State.enginesEnter_kept (s : State) (f : Nat) (st : UState) : Kept [.units, .eng, .mdl, .ldg] s (State.enginesEnter s f
    st) := by
  unfold State.enginesEnter
  try dsimp only
  repeat' first
    | with_reducible exact .refl _ _ | with_reducible assumption | with_reducible refine .ite ?_ ?_
    | with_reducible apply Kept.via (State.fnOff_kept ..) | with_reducible apply Kept.via (State.engineEnter_kept ..)
    | with_reducible refine .each (fun _ _ => ?_) ?_ | exact rfl

theorem State.fnEnter_kept (s : State) (f : Nat) (st : UState) : Kept [.units, .eng, .mdl, .tra, .ldg] s (State.fnEnter s f st)
    := by
  unfold State.fnEnter
  try dsimp only
  repeat' first
    | with_reducible exact .refl _ _ | with_reducible assumption | with_reducible refine .ite ?_ ?_
    | with_reducible apply Kept.via (State.setUst_kept ..) | with_reducible apply Kept.via (State.updTr_kept ..)
    | with_reducible apply Kept.via (State.enginesEnter_kept ..) | exact rfl

theorem specTraArm_kept  (s : State) (m : Msg) (k : Nat) : Kept [.units, .eng, .mdl, .tra, .ldg] s (specTraArm.run s m k).1 :=
    by
  unfold specTraArm
  try dsimp only
  repeat' first
    | with_reducible exact .refl _ _ | with_reducible assumption | with_reducible refine .ite ?_ ?_
    | with_reducible apply Kept.via (doneWith_kept ..) | with_reducible apply Kept.via (doneWith_kept_eq (by assumption))
    | with_reducible apply Kept.via (State.fnEnter_kept ..) | exact rfl

theorem specTraRun_kept  (s : State) (m : Msg) (k : Nat) : Kept [.units, .po, .eng, .mdl, .tra, .ldg] s (specTraRun.run s m
    k).1 := by
  unfold specTraRun
  try dsimp only
  repeat' first
    | with_reducible exact .refl _ _ | with_reducible assumption | with_reducible refine .ite ?_ ?_
    | with_reducible apply Kept.via (State.hwFinish_kept ..) | with_reducible apply Kept.via (State.updTr_kept ..)
    | with_reducible apply Kept.via (acceptedWith_kept ..)
    | with_reducible apply Kept.via (acceptedWith_kept_eq (by assumption))
    | with_reducible apply Kept.via (State.fnEnter_kept ..) | exact rfl | split

theorem specTraTorque_kept  (s : State) (m : Msg) (k : Nat) : Kept [.tra] s (specTraTorque.run s m k).1 := by
  unfold specTraTorque
  try dsimp only
  repeat' first
    | with_reducible exact .refl _ _ | with_reducible assumption | with_reducible refine .ite ?_ ?_
    | with_reducible apply Kept.via (State.updTr_kept ..) | exact rfl

theorem specTraStop_kept  (s : State) (m : Msg) (k : Nat) : Kept [.units, .eng, .mdl, .tra, .ldg] s (specTraStop.run s m k).1
    := by
  unfold specTraStop
  try dsimp only
  repeat' first
    | with_reducible exact .refl _ _ | with_reducible assumption | with_reducible apply Kept.via (acceptedWith_kept ..)
    | with_reducible apply Kept.via (acceptedWith_kept_eq (by assumption))
    | with_reducible apply Kept.via (State.fnEnter_kept ..) | exact rfl

theorem specTraDisarm_kept  (s : State) (m : Msg) (k : Nat) : Kept [.units, .eng, .mdl, .tra, .ldg] s (specTraDisarm.run s m
    k).1 := by
  unfold specTraDisarm
  try dsimp only
  repeat' first
    | with_reducible exact .refl _ _ | with_reducible assumption | with_reducible refine .ite ?_ ?_
    | with_reducible apply Kept.via (State.updTr_kept ..) | with_reducible apply Kept.via (doneWith_kept ..)
    | with_reducible apply Kept.via (doneWith_kept_eq (by assumption)) | with_reducible apply Kept.via (State.fnEnter_kept ..)
    | exact rfl

theorem specTraClear_kept  (s : State) (m : Msg) (k : Nat) : Kept [.units, .eng, .mdl, .tra, .ldg, .ssm, .reg .FEn_ADFAC, .reg
    .FEn_EVT, .reg .FEn_WDCNT, .reg .LDG_EVT, .reg .LDG_WQSTAT, .reg .LDG_PNf, .reg .SSM_STATE, .reg .SSM_PAT0, .reg .SSM_PAT1,
    .reg .SSM_PATX] s (specTraClear.run s m k).1 := by
  unfold specTraClear
  try dsimp only
  repeat' first
    | with_reducible exact .refl _ _ | with_reducible assumption | with_reducible refine .ite ?_ ?_
    | with_reducible apply Kept.via (State.updTr_kept ..) | with_reducible apply Kept.via (doneWith_kept ..)
    | with_reducible apply Kept.via (doneWith_kept_eq (by assumption))
    | with_reducible apply Kept.via (State.ssmFreeFn_kept ..) | with_reducible apply Kept.via (State.feClear_kept ..)
    | with_reducible apply Kept.via (State.fnEnter_kept ..) | with_reducible refine .each (fun _ _ => ?_) ?_ | exact rfl

theorem specChopRun_kept  (s : State) (m : Msg) (k : Nat) : Kept [.units, .tra] s (specChopRun.run s m k).1 := by
  unfold specChopRun
  try dsimp only
  repeat' first
    | with_reducible exact .refl _ _ | with_reducible assumption | with_reducible refine .ite ?_ ?_
    | with_reducible apply Kept.via (State.setUst_kept ..) | with_reducible apply Kept.via (State.updTr_kept ..)
    | with_reducible apply Kept.via (doneWith_kept ..) | with_reducible apply Kept.via (doneWith_kept_eq (by assumption))
    | exact rfl

theorem specChopHalt_kept  (s : State) (m : Msg) (k : Nat) : Kept [.units, .mdl, .tra, .ldg] s (specChopHalt.run s m k).1 := by
  unfold specChopHalt
  try dsimp only
  repeat' first
    | with_reducible exact .refl _ _ | with_reducible assumption | with_reducible refine .ite ?_ ?_
    | with_reducible apply Kept.via (State.setUst_kept ..) | with_reducible apply Kept.via (State.updTr_kept ..)
    | with_reducible apply Kept.via (State.fnOff_kept ..) | with_reducible apply Kept.via (doneWith_kept ..)
    | with_reducible apply Kept.via (doneWith_kept_eq (by assumption)) | exact rfl

theorem execTraArm_kept (m : Msg) (s : State) : KeptOut (Part.receipt [.units, .eng, .mdl, .tra, .ldg, .reg .PST_OUTST, .reg
    .PST_MERR_CODE]) s (execTraArm m s) := by
  unfold execTraArm
  repeat' first
    | with_reducible apply KeptOut.next | with_reducible exact .refl _ _
    | with_reducible apply deliver_kept rfl (fun s m k => (specTraArm_kept s m k).mono rfl) _ _

theorem execTraRun_kept (m : Msg) (s : State) : KeptOut (Part.receipt [.units, .eng, .mdl, .tra, .ldg, .reg .PST_OUTST, .reg
    .PST_MERR_CODE]) s (execTraRun m s) := by
  unfold execTraRun
  repeat' first
    | with_reducible apply KeptOut.next | with_reducible exact .refl _ _
    | with_reducible apply deliver_kept rfl (fun s m k => (specTraRun_kept s m k).mono rfl) _ _

theorem execTraTorque_kept (m : Msg) (s : State) : KeptOut (Part.receipt [.tra, .reg .PST_OUTST, .reg .PST_MERR_CODE]) s
    (execTraTorque m s) := by
  unfold execTraTorque
  repeat' first
    | with_reducible apply KeptOut.next | with_reducible exact .refl _ _
    | with_reducible apply deliver_kept rfl (fun s m k => (specTraTorque_kept s m k).mono rfl) _ _

theorem execTraStop_kept (m : Msg) (s : State) : KeptOut (Part.receipt [.units, .eng, .mdl, .tra, .ldg, .reg .PST_OUTST, .reg
    .PST_MERR_CODE]) s (execTraStop m s) := by
  unfold execTraStop
  repeat' first
    | with_reducible apply KeptOut.next | with_reducible exact .refl _ _
    | with_reducible apply deliver_kept rfl (fun s m k => (specTraStop_kept s m k).mono rfl) _ _

theorem execTraDisarm_kept (m : Msg) (s : State) : KeptOut (Part.receipt [.units, .eng, .mdl, .tra, .ldg, .reg .PST_OUTST, .reg
    .PST_MERR_CODE]) s (execTraDisarm m s) := by
  unfold execTraDisarm
  repeat' first
    | with_reducible apply KeptOut.next | with_reducible exact .refl _ _
    | with_reducible apply deliver_kept rfl (fun s m k => (specTraDisarm_kept s m k).mono rfl) _ _

theorem execTraClear_kept (m : Msg) (s : State) : KeptOut (Part.receipt [.units, .eng, .mdl, .tra, .ldg, .ssm, .reg .PST_OUTST,
    .reg .PST_MERR_CODE, .reg .FEn_ADFAC, .reg .FEn_EVT, .reg .FEn_WDCNT, .reg .LDG_EVT, .reg .LDG_WQSTAT, .reg .LDG_PNf, .reg
    .SSM_STATE, .reg .SSM_PAT0, .reg .SSM_PAT1, .reg .SSM_PATX]) s (execTraClear m s) := by
  unfold execTraClear
  repeat' first
    | with_reducible apply KeptOut.next | with_reducible exact .refl _ _
    | with_reducible apply deliver_kept rfl (fun s m k => (specTraClear_kept s m k).mono rfl) _ _

theorem execChopRun_kept (m : Msg) (s : State) : KeptOut (Part.receipt [.units, .tra, .reg .PST_OUTST, .reg .PST_MERR_CODE]) s
    (execChopRun m s) := by
  unfold execChopRun
  repeat' first
    | with_reducible apply KeptOut.next | with_reducible exact .refl _ _ | with_reducible assumption
    | with_reducible apply deliver_kept rfl (fun s m k => (specChopRun_kept s m k).mono rfl) _ _

theorem execChopHalt_kept (m : Msg) (s : State) : KeptOut (Part.receipt [.units, .mdl, .tra, .ldg, .reg .PST_OUTST, .reg
    .PST_MERR_CODE]) s (execChopHalt m s) := by
  unfold execChopHalt
  repeat' first
    | with_reducible apply KeptOut.next | with_reducible exact .refl _ _ | with_reducible assumption
    | with_reducible apply deliver_kept rfl (fun s m k => (specChopHalt_kept s m k).mono rfl) _ _

theorem State.chopAuto_kept (s : State) (f : Nat) : Kept [.units, .tra] s (State.chopAuto s f) := by
  unfold State.chopAuto
  try dsimp only
  repeat' first
    | with_reducible exact .refl _ _ | with_reducible assumption | with_reducible refine .ite ?_ ?_
    | with_reducible apply Kept.via (State.setUst_kept ..) | with_reducible apply Kept.via (State.updTr_kept ..) | exact rfl

theorem execChopAutoStart_kept (f : Nat) (s : State) : KeptOut [.units, .tra] s (execChopAutoStart f s) := by
  unfold execChopAutoStart
  repeat' first
    | with_reducible apply KeptOut.next | with_reducible apply KeptOut.ite | with_reducible exact .refl _ _
    | with_reducible assumption | with_reducible refine .ite ?_ ?_ | with_reducible apply Kept.via (State.chopAuto_kept ..)
    | exact rfl

theorem execChopperPeriod_kept (f : Nat) (s : State) : KeptOut [.mdl, .tra, .ldg] s (execChopperPeriod f s) := by
  unfold execChopperPeriod
  repeat' first
    | with_reducible apply KeptOut.next | with_reducible apply KeptOut.ite | with_reducible exact .refl _ _
    | with_reducible assumption | with_reducible refine .ite ?_ ?_ | with_reducible apply Kept.via (State.updTr_kept ..)
    | with_reducible apply Kept.via (State.setDuty_kept ..) | with_reducible apply Kept.via (State.updFp_kept ..)
    | with_reducible apply Kept.via (State.chopWatch_kept ..) | with_reducible apply Kept.via (State.placeEdges_kept ..)
    | with_reducible refine .each (fun _ _ => ?_) ?_ | exact rfl

theorem State.chopDetect_kept (s : State) (f c : Nat) : Kept [.po, .eng, .mdl, .tra, .ldg, .ssm, .reg .FEn_EVT, .reg
    .FEn_WDCNT, .reg .LDG_EVT, .reg .LDG_WQSTAT, .reg .LDG_PNf] s (State.chopDetect s f c) := by
  unfold State.chopDetect
  try dsimp only
  repeat' first
    | with_reducible exact .refl _ _ | with_reducible assumption | with_reducible apply Kept.via (State.updTr_kept ..)
    | with_reducible apply Kept.via (State.fnFail_kept ..) | with_reducible apply Kept.via (State.zeroK_kept ..) | exact rfl

theorem State.chopCheck_kept (s : State) (ch : Nat) : Kept [.po, .eng, .mdl, .tra, .ldg, .ssm, .reg .FEn_EVT, .reg .FEn_WDCNT,
    .reg .LDG_EVT, .reg .LDG_WQSTAT, .reg .LDG_PNf] s (State.chopCheck s ch) := by
  unfold State.chopCheck
  try dsimp only
  repeat' first
    | with_reducible exact .refl _ _ | with_reducible assumption | with_reducible refine .ite ?_ ?_
    | with_reducible apply Kept.via (State.updTr_kept ..) | with_reducible apply Kept.via (State.chopDetect_kept ..)
    | with_reducible refine .each (fun _ _ => ?_) ?_ | exact rfl

theorem execTractionWatch_kept (f : Nat) (angles : List PosIn) (s : State) : KeptOut [.po, .eng, .mdl, .pos, .tra, .ldg, .ssm,
    .reg .FEn_EVT, .reg .FEn_WDCNT, .reg .POSk_ANG, .reg .POSk_SPD, .reg .POSk_STAT, .reg .LDG_EVT, .reg .LDG_WQSTAT, .reg
    .LDG_PNf] s (execTractionWatch f angles s) := by
  unfold execTractionWatch
  repeat' first
    | with_reducible apply KeptOut.next | with_reducible apply KeptOut.ite | with_reducible exact .refl _ _
    | with_reducible assumption | with_reducible refine .ite ?_ ?_ | with_reducible apply Kept.via (State.updTr_kept ..)
    | with_reducible apply Kept.via (State.fnFail_kept ..) | with_reducible apply Kept.via (State.resolverIn_kept ..)
    | with_reducible refine .each (fun _ _ => ?_) ?_ | exact rfl

theorem execUnknownSpeedTimeout_kept (f : Nat) (s : State) : KeptOut [.eng, .mdl, .tra, .ldg, .ssm, .reg .FEn_EVT, .reg
    .FEn_WDCNT, .reg .LDG_EVT, .reg .LDG_WQSTAT, .reg .LDG_PNf, .reg .SSM_STATE, .reg .SSM_ASC, .reg .SSM_PAT0, .reg .SSM_PAT1,
    .reg .SSM_PATX] s (execUnknownSpeedTimeout f s) := by
  unfold execUnknownSpeedTimeout
  repeat' first
    | with_reducible apply KeptOut.next | with_reducible apply KeptOut.ite | with_reducible exact .refl _ _
    | with_reducible assumption | with_reducible refine .ite ?_ ?_
    | with_reducible apply Kept.via (State.setBit_kept (.SSM_ASC) ..) | with_reducible apply Kept.via (State.updTr_kept ..)
    | with_reducible apply Kept.via (State.ssmRefresh_kept ..) | exact rfl

theorem execAscFreewheelChange_kept (f : Nat) (s : State) : KeptOut [.reg .SSM_PAT0, .reg .SSM_PAT1] s (execAscFreewheelChange
    f s) := by
  unfold execAscFreewheelChange
  repeat' first
    | with_reducible apply KeptOut.next | with_reducible apply KeptOut.ite | with_reducible exact .refl _ _
    | with_reducible assumption | with_reducible refine .ite ?_ ?_ | with_reducible apply Kept.via (State.setSsmPat_kept ..)
    | exact rfl

theorem execTractionStopComplete_kept (f : Nat) (s : State) : KeptOut [.po] s (execTractionStopComplete f s) := by
  unfold execTractionStopComplete
  repeat' first
    | with_reducible apply KeptOut.next | with_reducible apply KeptOut.ite | with_reducible exact .refl _ _
    | with_reducible assumption | with_reducible refine .ite ?_ ?_ | with_reducible apply Kept.via (State.hwMove_kept ..)
    | with_reducible apply Kept.via (State.finishOp_kept ..) | exact rfl

theorem execSensorlessObserveSample_kept (f : Nat) (s : State) : KeptOut [.rnd, .reg .RNDr_STATE, .reg .RNDr_RQSTAT, .reg
    .RNDr_RQLO, .reg .RNDr_RQHI] s (execSensorlessObserveSample f s) := by
  unfold execSensorlessObserveSample
  repeat' first
    | with_reducible apply KeptOut.next | with_reducible apply KeptOut.ite | with_reducible exact .refl _ _
    | with_reducible assumption | with_reducible refine .ite ?_ ?_ | with_reducible apply Kept.via (State.urgentPush_kept ..)
    | with_reducible refine .each (fun _ _ => ?_) ?_ | exact rfl

theorem State.startRun_kept (s : State) (f path : Nat) : Kept [.po, .eng, .tra] s (State.startRun s f path) := by
  unfold State.startRun
  try dsimp only
  repeat' first
    | with_reducible exact .refl _ _ | with_reducible assumption | with_reducible apply Kept.via (State.finishOp_kept ..)
    | with_reducible apply Kept.via (State.updE_kept ..) | with_reducible apply Kept.via (State.updTr_kept ..)
    | with_reducible refine .each (fun _ _ => ?_) ?_ | exact rfl

theorem execSensorlessObserveEnd_kept (f amp : Nat) (freq : Int) (ang : Nat) (s : State) : KeptOut [.po, .eng, .tra] s
    (execSensorlessObserveEnd f amp freq ang s) := by
  unfold execSensorlessObserveEnd
  repeat' first
    | with_reducible apply KeptOut.next | with_reducible apply KeptOut.ite | with_reducible exact .refl _ _
    | with_reducible assumption | with_reducible refine .ite ?_ ?_ | with_reducible apply Kept.via (State.updTr_kept ..)
    | with_reducible apply Kept.via (State.startRun_kept ..) | exact rfl

theorem execIfLock_kept (f : Nat) (s : State) : KeptOut [.po, .eng, .tra] s (execIfLock f s) := by
  unfold execIfLock
  repeat' first
    | with_reducible apply KeptOut.next | with_reducible apply KeptOut.ite | with_reducible exact .refl _ _
    | with_reducible assumption | with_reducible refine .ite ?_ ?_ | with_reducible apply Kept.via (State.startRun_kept ..)
    | exact rfl

theorem execCatchFail_kept (f : Nat) (s : State) : KeptOut [.po, .eng, .mdl, .tra, .ldg, .ssm, .reg .FEn_EVT, .reg .FEn_WDCNT,
    .reg .LDG_EVT, .reg .LDG_WQSTAT, .reg .LDG_PNf] s (execCatchFail f s) := by
  unfold execCatchFail
  repeat' first
    | with_reducible apply KeptOut.next | with_reducible apply KeptOut.ite | with_reducible exact .refl _ _
    | with_reducible assumption | with_reducible refine .ite ?_ ?_ | with_reducible apply Kept.via (State.fnFail_kept ..)
    | exact rfl

end Sys2Proof.Machine
end

