-- ==== Sys2Proof/Laws/KeptHlv.lean ====
section
/-!
SUPPORT. The frame of each operation of Sys2Proof/Machine/Hlv.lean: the parts of the state that it can change.
-/
namespace Sys2Proof.Machine
set_option Elab.async false

theorem State.hlvStart_kept (s : State) (f : Nat) : Kept [.units, .eng, .mdl, .tra, .hlv, .ldg] s (State.hlvStart s f) := by
  unfold State.hlvStart
  try dsimp only
  repeat' first
    | with_reducible exact .refl _ _ | with_reducible assumption | with_reducible apply Kept.via (State.updHl_kept ..)
    | with_reducible apply Kept.via (State.fnEnter_kept ..) | exact rfl

theorem State.hlvStop_kept (s : State) (f : Nat) : Kept [.units, .eng, .mdl, .tra, .hlv, .ldg] s (State.hlvStop s f) := by
  unfold State.hlvStop
  try dsimp only
  repeat' first
    | with_reducible exact .refl _ _ | with_reducible assumption | with_reducible apply Kept.via (State.updHl_kept ..)
    | with_reducible apply Kept.via (State.fnEnter_kept ..) | exact rfl

theorem specHlvArm_kept  (s : State) (m : Msg) (k : Nat) : Kept [.units, .eng, .mdl, .tra, .ldg] s (specHlvArm.run s m k).1 :=
    by
  unfold specHlvArm
  try dsimp only
  repeat' first
    | with_reducible exact .refl _ _ | with_reducible assumption | with_reducible refine .ite ?_ ?_
    | with_reducible apply Kept.via (doneWith_kept ..) | with_reducible apply Kept.via (doneWith_kept_eq (by assumption))
    | with_reducible apply Kept.via (State.fnEnter_kept ..) | exact rfl

theorem specHlvRun_kept  (s : State) (m : Msg) (k : Nat) : Kept [.units, .eng, .mdl, .tra, .hlv, .ldg] s (specHlvRun.run s m
    k).1 := by
  unfold specHlvRun
  try dsimp only
  repeat' first
    | with_reducible exact .refl _ _ | with_reducible assumption | with_reducible refine .ite ?_ ?_
    | with_reducible apply Kept.via (acceptedWith_kept ..)
    | with_reducible apply Kept.via (acceptedWith_kept_eq (by assumption))
    | with_reducible apply Kept.via (State.hlvStart_kept ..) | exact rfl

theorem specHlvSet_kept  (s : State) (m : Msg) (k : Nat) : Kept [.hlv] s (specHlvSet.run s m k).1 := by
  unfold specHlvSet
  try dsimp only
  repeat' first
    | with_reducible exact .refl _ _ | with_reducible assumption | with_reducible refine .ite ?_ ?_
    | with_reducible apply Kept.via (State.updHl_kept ..) | with_reducible apply Kept.via (doneWith_kept ..)
    | with_reducible apply Kept.via (doneWith_kept_eq (by assumption)) | exact rfl

theorem specHlvStop_kept  (s : State) (m : Msg) (k : Nat) : Kept [.units, .eng, .mdl, .tra, .hlv, .ldg] s (specHlvStop.run s m
    k).1 := by
  unfold specHlvStop
  try dsimp only
  repeat' first
    | with_reducible exact .refl _ _ | with_reducible assumption | with_reducible apply Kept.via (acceptedWith_kept ..)
    | with_reducible apply Kept.via (acceptedWith_kept_eq (by assumption))
    | with_reducible apply Kept.via (State.hlvStop_kept ..) | exact rfl

theorem specHlvDisarm_kept  (s : State) (m : Msg) (k : Nat) : Kept [.units, .eng, .mdl, .tra, .ldg] s (specHlvDisarm.run s m
    k).1 := by
  unfold specHlvDisarm
  try dsimp only
  repeat' first
    | with_reducible exact .refl _ _ | with_reducible assumption | with_reducible apply Kept.via (doneWith_kept ..)
    | with_reducible apply Kept.via (doneWith_kept_eq (by assumption)) | with_reducible apply Kept.via (State.fnEnter_kept ..)
    | exact rfl

theorem specHlvClear_kept  (s : State) (m : Msg) (k : Nat) : Kept [.units, .eng, .mdl, .tra, .ldg, .ssm, .reg .FEn_ADFAC, .reg
    .FEn_EVT, .reg .FEn_WDCNT, .reg .LDG_EVT, .reg .LDG_WQSTAT, .reg .LDG_PNf, .reg .SSM_STATE, .reg .SSM_PAT0, .reg .SSM_PAT1,
    .reg .SSM_PATX] s (specHlvClear.run s m k).1 := by
  unfold specHlvClear
  try dsimp only
  repeat' first
    | with_reducible exact .refl _ _ | with_reducible assumption | with_reducible refine .ite ?_ ?_
    | with_reducible apply Kept.via (State.updTr_kept ..) | with_reducible apply Kept.via (doneWith_kept ..)
    | with_reducible apply Kept.via (doneWith_kept_eq (by assumption))
    | with_reducible apply Kept.via (State.ssmFreeFn_kept ..) | with_reducible apply Kept.via (State.feClear_kept ..)
    | with_reducible apply Kept.via (State.fnEnter_kept ..) | with_reducible refine .each (fun _ _ => ?_) ?_ | exact rfl

theorem execHlvArm_kept (m : Msg) (s : State) : KeptOut (Part.receipt [.units, .eng, .mdl, .tra, .ldg, .reg .PST_OUTST, .reg
    .PST_MERR_CODE]) s (execHlvArm m s) := by
  unfold execHlvArm
  repeat' first
    | with_reducible apply KeptOut.next | with_reducible exact .refl _ _
    | with_reducible apply deliver_kept rfl (fun s m k => (specHlvArm_kept s m k).mono rfl) _ _

theorem execHlvRun_kept (m : Msg) (s : State) : KeptOut (Part.receipt [.units, .eng, .mdl, .tra, .hlv, .ldg, .reg .PST_OUTST,
    .reg .PST_MERR_CODE]) s (execHlvRun m s) := by
  unfold execHlvRun
  repeat' first
    | with_reducible apply KeptOut.next | with_reducible exact .refl _ _
    | with_reducible apply deliver_kept rfl (fun s m k => (specHlvRun_kept s m k).mono rfl) _ _

theorem execHlvSet_kept (m : Msg) (s : State) : KeptOut (Part.receipt [.hlv, .reg .PST_OUTST, .reg .PST_MERR_CODE]) s
    (execHlvSet m s) := by
  unfold execHlvSet
  repeat' first
    | with_reducible apply KeptOut.next | with_reducible exact .refl _ _
    | with_reducible apply deliver_kept rfl (fun s m k => (specHlvSet_kept s m k).mono rfl) _ _

theorem execHlvStop_kept (m : Msg) (s : State) : KeptOut (Part.receipt [.units, .eng, .mdl, .tra, .hlv, .ldg, .reg .PST_OUTST,
    .reg .PST_MERR_CODE]) s (execHlvStop m s) := by
  unfold execHlvStop
  repeat' first
    | with_reducible apply KeptOut.next | with_reducible exact .refl _ _
    | with_reducible apply deliver_kept rfl (fun s m k => (specHlvStop_kept s m k).mono rfl) _ _

theorem execHlvDisarm_kept (m : Msg) (s : State) : KeptOut (Part.receipt [.units, .eng, .mdl, .tra, .ldg, .reg .PST_OUTST, .reg
    .PST_MERR_CODE]) s (execHlvDisarm m s) := by
  unfold execHlvDisarm
  repeat' first
    | with_reducible apply KeptOut.next | with_reducible exact .refl _ _
    | with_reducible apply deliver_kept rfl (fun s m k => (specHlvDisarm_kept s m k).mono rfl) _ _

theorem execHlvClear_kept (m : Msg) (s : State) : KeptOut (Part.receipt [.units, .eng, .mdl, .tra, .ldg, .ssm, .reg .PST_OUTST,
    .reg .PST_MERR_CODE, .reg .FEn_ADFAC, .reg .FEn_EVT, .reg .FEn_WDCNT, .reg .LDG_EVT, .reg .LDG_WQSTAT, .reg .LDG_PNf, .reg
    .SSM_STATE, .reg .SSM_PAT0, .reg .SSM_PAT1, .reg .SSM_PATX]) s (execHlvClear m s) := by
  unfold execHlvClear
  repeat' first
    | with_reducible apply KeptOut.next | with_reducible exact .refl _ _
    | with_reducible apply deliver_kept rfl (fun s m k => (specHlvClear_kept s m k).mono rfl) _ _

theorem State.hlvAuto_kept (s : State) (f : Nat) : Kept [.units, .eng, .mdl, .tra, .hlv, .ldg] s (State.hlvAuto s f) := by
  unfold State.hlvAuto
  try dsimp only
  repeat' first
    | with_reducible exact .refl _ _ | with_reducible assumption | with_reducible refine .ite ?_ ?_
    | with_reducible apply Kept.via (State.updHl_kept ..) | with_reducible apply Kept.via (State.hlvStart_kept ..) | exact rfl

theorem execHlvAutoRun_kept (f : Nat) (s : State) : KeptOut [.units, .eng, .mdl, .tra, .hlv, .ldg] s (execHlvAutoRun f s) := by
  unfold execHlvAutoRun
  repeat' first
    | with_reducible apply KeptOut.next | with_reducible apply KeptOut.ite | with_reducible exact .refl _ _
    | with_reducible assumption | with_reducible refine .ite ?_ ?_ | with_reducible apply Kept.via (State.hlvAuto_kept ..)
    | exact rfl

theorem execHlvStopComplete_kept (f : Nat) (s : State) : KeptOut [.po] s (execHlvStopComplete f s) := by
  unfold execHlvStopComplete
  repeat' first
    | with_reducible apply KeptOut.next | with_reducible apply KeptOut.ite | with_reducible exact .refl _ _
    | with_reducible assumption | with_reducible refine .ite ?_ ?_ | with_reducible apply Kept.via (State.hwMove_kept ..)
    | with_reducible apply Kept.via (State.finishOp_kept ..) | exact rfl

theorem execHlvFaultDetect_kept (f cause : Nat) (s : State) : KeptOut [.po, .eng, .mdl, .tra, .ldg, .ssm, .reg .FEn_EVT, .reg
    .FEn_WDCNT, .reg .LDG_EVT, .reg .LDG_WQSTAT, .reg .LDG_PNf] s (execHlvFaultDetect f cause s) := by
  unfold execHlvFaultDetect
  repeat' first
    | with_reducible apply KeptOut.next | with_reducible apply KeptOut.ite | with_reducible exact .refl _ _
    | with_reducible assumption | with_reducible refine .ite ?_ ?_ | with_reducible apply Kept.via (State.setDuty_kept ..)
    | with_reducible apply Kept.via (State.fnFail_kept ..) | with_reducible refine .each (fun _ _ => ?_) ?_ | exact rfl

end Sys2Proof.Machine
end

