-- ==== Sys2Proof/Laws/KeptRegulator.lean ====
section
/-!
SUPPORT. The frame of each operation of Sys2Proof/Machine/Regulator.lean: the parts of the state that it can change.
-/
namespace Sys2Proof.Machine
set_option Elab.async false

theorem State.setRegPhase_kept (s : State) (p : Nat) : Kept [.reg .REG_STATE] s (State.setRegPhase s p) := by
  unfold State.setRegPhase
  try dsimp only
  repeat' first
    | with_reducible exact .refl _ _ | with_reducible apply Kept.via (State.setFld_kept (.REG_STATE) ..) | exact rfl

theorem State.setActive_kept (s : State) (m : Nat) : Kept [.rgl, .reg .REG_STATE, .reg .REG_PHn] s (State.setActive s m) := by
  unfold State.setActive
  try dsimp only
  repeat' first
    | with_reducible exact .refl _ _ | with_reducible assumption
    | with_reducible apply Kept.via (State.setFld_kept (.REG_PHn _) ..)
    | with_reducible apply Kept.via (State.setFld_kept (.REG_STATE) ..) | with_reducible refine .each (fun _ _ => ?_) ?_
    | (intro p; cases p <;> first | exact .inl (List.mem_of_elem_eq_true rfl) | exact .inr rfl | exact .inr True.intro)
    | exact rfl | dsimp only | with_reducible refine .update rfl rfl rfl ?_ ?_

theorem State.updRg_kept (s : State) (g : RegSt → RegSt) : Kept [.rgl] s (State.updRg s g) := by
  unfold State.updRg
  try dsimp only
  repeat' first
    | with_reducible exact .refl _ _ | with_reducible assumption
    | (intro p; cases p <;> first | exact .inl (List.mem_of_elem_eq_true rfl) | exact .inr rfl | exact .inr True.intro)
    | dsimp only | with_reducible refine .update rfl rfl rfl ?_ ?_

theorem State.regFlag_kept (s : State) (bit : Nat) : Kept [.rgl] s (State.regFlag s bit) := by
  unfold State.regFlag
  try dsimp only
  repeat' first
    | with_reducible exact .refl _ _ | with_reducible assumption | with_reducible refine .ite ?_ ?_
    | with_reducible apply Kept.via (State.updRg_kept ..) | exact rfl

theorem State.regRamp_kept (s : State) (from_ goal : Int) : Kept [.rgl] s (State.regRamp s from_ goal) := by
  unfold State.regRamp
  try dsimp only
  repeat' first
    | with_reducible exact .refl _ _ | with_reducible assumption | with_reducible apply Kept.via (State.updRg_kept ..)
    | exact rfl

theorem State.regEmulate_kept (s : State) : Kept [.rgl] s (State.regEmulate s) := by
  unfold State.regEmulate
  try dsimp only
  repeat' first
    | with_reducible exact .refl _ _ | with_reducible assumption | with_reducible refine .ite ?_ ?_
    | with_reducible apply Kept.via (State.updRg_kept ..) | with_reducible refine .foldl (fun _ _ => ?_) ?_ | exact rfl

theorem State.regIntegrate_kept (s : State) : Kept [.rgl] s (State.regIntegrate s) := by
  unfold State.regIntegrate
  try dsimp only
  repeat' first
    | with_reducible exact .refl _ _ | with_reducible assumption | with_reducible apply Kept.via (State.updRg_kept ..)
    | with_reducible refine .foldl (fun _ _ => ?_) ?_ | exact rfl

theorem State.regOvEnd_kept (s : State) : Kept [.eng, .mdl, .ldg, .ssm, .reg .FEn_EVT, .reg .FEn_WDCNT, .reg .LDG_EVT, .reg
    .LDG_WQSTAT, .reg .LDG_PNf, .reg .SSM_STATE, .reg .SSM_EVT, .reg .SSM_PAT0, .reg .SSM_PAT1, .reg .SSM_PATX] s
    (State.regOvEnd s) := by
  unfold State.regOvEnd
  try dsimp only
  repeat' first
    | with_reducible exact .refl _ _ | with_reducible assumption | with_reducible refine .ite ?_ ?_
    | with_reducible apply Kept.via (State.ssmHoldReg_kept ..) | exact rfl

theorem State.regRead_kept (s : State) (m : RegIn) : Kept [.eng, .mdl, .rgl, .ldg, .ssm, .reg .FEn_EVT, .reg .FEn_WDCNT, .reg
    .REG_OUT, .reg .REG_PHn, .reg .LDG_EVT, .reg .LDG_WQSTAT, .reg .LDG_PNf, .reg .SSM_STATE, .reg .SSM_EVT, .reg .SSM_PAT0,
    .reg .SSM_PAT1, .reg .SSM_PATX] s (State.regRead s m) := by
  unfold State.regRead
  try dsimp only
  repeat' first
    | with_reducible exact .refl _ _ | with_reducible assumption
    | with_reducible apply Kept.via (State.setFld_kept (.REG_OUT) ..)
    | with_reducible apply Kept.via (State.setSfld_kept (.REG_OUT) ..)
    | with_reducible apply Kept.via (State.setSfld_kept (.REG_PHn _) ..) | with_reducible apply Kept.via (State.updRg_kept ..)
    | with_reducible apply Kept.via (State.regEmulate_kept ..) | with_reducible apply Kept.via (State.regIntegrate_kept ..)
    | with_reducible apply Kept.via (State.regOvEnd_kept ..) | with_reducible refine .each (fun _ _ => ?_) ?_
    | with_reducible refine .foldl (fun _ _ => ?_) ?_ | exact rfl

theorem State.regHold_kept (s : State) : Kept [.rgl, .reg .REG_EVT] s (State.regHold s) := by
  unfold State.regHold
  try dsimp only
  repeat' first
    | with_reducible exact .refl _ _ | with_reducible assumption | with_reducible refine .ite ?_ ?_
    | with_reducible apply Kept.via (State.setFlag_kept (.REG_EVT) ..) | with_reducible apply Kept.via (State.updRg_kept ..)
    | with_reducible apply Kept.via (State.regFlag_kept ..) | with_reducible refine .foldl (fun _ _ => ?_) ?_ | exact rfl

theorem State.regTryPulse_kept (s : State) : Kept [.rgl] s (State.regTryPulse s) := by
  unfold State.regTryPulse
  try dsimp only
  repeat' first
    | with_reducible exact .refl _ _ | with_reducible assumption | with_reducible refine .ite ?_ ?_
    | with_reducible apply Kept.via (State.updRg_kept ..) | exact rfl | split

theorem State.wireTick_kept (s : State) : Kept [.pads] s (State.wireTick s) := by
  unfold State.wireTick
  try dsimp only
  repeat' first
    | with_reducible exact .refl _ _ | with_reducible assumption | with_reducible refine .ite ?_ ?_
    | (intro p; cases p <;> first | exact .inl (List.mem_of_elem_eq_true rfl) | exact .inr rfl | exact .inr True.intro) | split
    | dsimp only | with_reducible refine .update rfl rfl rfl ?_ ?_

theorem State.regRestoreAll_kept (s : State) : Kept [.rgl, .reg .REG_STATE, .reg .REG_EVT, .reg .REG_PHn] s
    (State.regRestoreAll s) := by
  unfold State.regRestoreAll
  try dsimp only
  repeat' first
    | with_reducible exact .refl _ _ | with_reducible assumption
    | with_reducible apply Kept.via (State.setFlag_kept (.REG_EVT) ..)
    | with_reducible apply Kept.via (State.setActive_kept ..) | with_reducible apply Kept.via (State.updRg_kept ..)
    | with_reducible apply Kept.via (State.regFlag_kept ..) | exact rfl

theorem State.regOp_kept {c : List Part} {s t : State} {rank : Nat} {f : State → State}
    (m : Part.sub [.rgl, .reg .REG_STATE, .reg .REG_EVT, .reg .REG_PHn] c = true) (h : ∀ u, Kept c u (f u)) (k : Kept c s t) :
    Kept c s (t.regOp rank f) := by
  have g : ∀ u x, Kept c s u → Kept c s (f (u.updRg x)) := fun u x q => (Kept.via (State.updRg_kept ..) (Part.sub_trans rfl m)
      q).trans (h _)
  unfold State.regOp
  dsimp only
  split
  · exact g _ _ k
  · refine .ite (g _ _ k) (.ite k (g _ _ (.ite ?_ (.via (State.clrFlag_kept .REG_EVT ..) (Part.sub_trans rfl m) ?_))))
    all_goals exact .via (State.setActive_kept ..) (Part.sub_trans rfl m) k

theorem State.regRestore_kept (s : State) : Kept [.rgl, .reg .REG_STATE, .reg .REG_EVT, .reg .REG_PHn] s (State.regRestore s)
    := by
  unfold State.regRestore
  try dsimp only
  repeat' first
    | with_reducible exact .refl _ _ | with_reducible assumption | with_reducible refine .ite ?_ ?_
    | with_reducible apply Kept.via (State.updRg_kept ..) | with_reducible apply Kept.via (State.regTryPulse_kept ..)
    | with_reducible apply Kept.via (State.regRestoreAll_kept ..) | with_reducible apply State.regOp_kept
    | (intro p; cases p <;> first | exact .inl (List.mem_of_elem_eq_true rfl) | exact .inr rfl | exact .inr True.intro)
    | exact rfl | split | dsimp only | intro _

theorem State.regLimitEvents_kept (s : State) : Kept [.rgl, .reg .REG_STATE, .reg .REG_EVT, .reg .REG_PHn] s
    (State.regLimitEvents s) := by
  unfold State.regLimitEvents
  try dsimp only
  repeat' first
    | with_reducible exact .refl _ _ | with_reducible assumption | with_reducible refine .ite ?_ ?_
    | with_reducible apply Kept.via (State.regHold_kept ..) | with_reducible apply Kept.via (State.regRestore_kept ..)
    | exact rfl

theorem State.regSense_kept (s : State) (m : RegIn) : Kept [.eng, .mdl, .rgl, .ldg, .ssm, .reg .FEn_EVT, .reg .FEn_WDCNT, .reg
    .REG_STATE, .reg .REG_EVT, .reg .REG_OUT, .reg .REG_LIM, .reg .REG_PHn, .reg .LDG_EVT, .reg .LDG_WQSTAT, .reg .LDG_PNf,
    .reg .SSM_STATE, .reg .SSM_EVT, .reg .SSM_PAT0, .reg .SSM_PAT1, .reg .SSM_PATX] s (State.regSense s m) := by
  unfold State.regSense
  try dsimp only
  repeat' first
    | with_reducible exact .refl _ _ | with_reducible assumption | with_reducible refine .ite ?_ ?_
    | with_reducible apply Kept.via (State.setFld_kept (.REG_LIM) ..) | with_reducible apply Kept.via (State.regFlag_kept ..)
    | with_reducible apply Kept.via (State.regRead_kept ..) | with_reducible apply Kept.via (State.regLimitEvents_kept ..)
    | exact rfl

theorem State.regOff_kept (s : State) : Kept [.rgl] s (State.regOff s) := by
  unfold State.regOff
  try dsimp only
  repeat' first
    | with_reducible exact .refl _ _ | with_reducible assumption | with_reducible apply Kept.via (State.updRg_kept ..)
    | exact rfl

theorem State.regApply_kept (s : State) (v rll en minPh : Nat) : Kept [.reg .REG_TARGET, .reg .REG_SHED] s (State.regApply s v
    rll en minPh) := by
  unfold State.regApply
  try dsimp only
  repeat' first
    | with_reducible exact .refl _ _ | with_reducible assumption
    | with_reducible apply Kept.via (State.setFld_kept (.REG_SHED) ..)
    | with_reducible apply Kept.via (State.setFld_kept (.REG_TARGET) ..) | exact rfl

theorem State.regStart_kept (s : State) : Kept [.rgl, .reg .REG_STATE, .reg .REG_TARGET, .reg .REG_SHED, .reg .REG_PHn] s
    (State.regStart s) := by
  unfold State.regStart
  try dsimp only
  repeat' first
    | with_reducible exact .refl _ _ | with_reducible assumption | with_reducible apply Kept.via (State.setRegPhase_kept ..)
    | with_reducible apply Kept.via (State.setActive_kept ..) | with_reducible apply Kept.via (State.updRg_kept ..)
    | with_reducible apply Kept.via (State.regRamp_kept ..) | with_reducible apply Kept.via (State.regApply_kept ..)
    | exact rfl | split

theorem State.regRun_kept (s : State) : Kept [.units, .rgl, .reg .REG_STATE, .reg .REG_TARGET, .reg .REG_SHED, .reg .REG_PHn] s
    (State.regRun s) := by
  unfold State.regRun
  try dsimp only
  repeat' first
    | with_reducible exact .refl _ _ | with_reducible assumption
    | with_reducible apply Kept.via (State.setFld_kept (.REG_PHn _) ..) | with_reducible apply Kept.via (State.setUst_kept ..)
    | with_reducible apply Kept.via (State.regStart_kept ..) | with_reducible refine .each (fun _ _ => ?_) ?_ | exact rfl

theorem State.regStop_kept (s : State) : Kept [.units, .rgl, .reg .REG_STATE, .reg .REG_PHn] s (State.regStop s) := by
  unfold State.regStop
  try dsimp only
  repeat' first
    | with_reducible exact .refl _ _ | with_reducible assumption | with_reducible refine .ite ?_ ?_
    | with_reducible apply Kept.via (State.setUst_kept ..) | with_reducible apply Kept.via (State.setRegPhase_kept ..)
    | with_reducible apply Kept.via (State.setActive_kept ..) | with_reducible apply Kept.via (State.regRamp_kept ..)
    | exact rfl

theorem State.regCause_kept (s : State) (c : Nat) : Kept [.rgl, .ssm, .reg .REG_EVT, .reg .REG_FLT] s (State.regCause s c) := by
  unfold State.regCause
  try dsimp only
  repeat' first
    | with_reducible exact .refl _ _ | with_reducible assumption
    | with_reducible apply Kept.via (State.setBit_kept (.REG_FLT) ..)
    | with_reducible apply Kept.via (State.setFlag_kept (.REG_EVT) ..)
    | with_reducible apply Kept.via (State.sendFrame_kept ..) | with_reducible apply Kept.via (State.updRg_kept ..) | exact rfl

theorem State.regFail_kept (s : State) (c : Nat) : Kept [.po, .rgl, .ssm, .reg .REG_EVT, .reg .REG_FLT] s (State.regFail s c)
    := by
  unfold State.regFail
  try dsimp only
  repeat' first
    | with_reducible exact .refl _ _ | with_reducible assumption | with_reducible refine .ite ?_ ?_
    | with_reducible apply Kept.via (State.hwFault_kept ..) | with_reducible apply Kept.via (State.regCause_kept ..)
    | exact rfl

theorem State.regFailure_kept (s : State) : Kept [.po, .rgl, .ssm, .reg .REG_STATE, .reg .REG_EVT, .reg .REG_FLT, .reg
    .REG_LIM] s (State.regFailure s) := by
  unfold State.regFailure
  try dsimp only
  repeat' first
    | with_reducible exact .refl _ _ | with_reducible assumption | with_reducible refine .ite ?_ ?_
    | with_reducible apply Kept.via (State.setFlag_kept (.REG_EVT) ..)
    | with_reducible apply Kept.via (State.setFld_kept (.REG_LIM) ..)
    | with_reducible apply Kept.via (State.setRegPhase_kept ..) | with_reducible apply Kept.via (State.regFlag_kept ..)
    | with_reducible apply Kept.via (State.regOff_kept ..) | with_reducible apply Kept.via (State.regFail_kept ..) | exact rfl

theorem specRegArm_kept  (s : State) (m : Msg) (k : Nat) : Kept [.units] s (specRegArm.run s m k).1 := by
  unfold specRegArm
  try dsimp only
  repeat' first
    | with_reducible exact .refl _ _ | with_reducible assumption | with_reducible refine .ite ?_ ?_
    | with_reducible apply Kept.via (State.setUst_kept ..) | with_reducible apply Kept.via (doneWith_kept ..)
    | with_reducible apply Kept.via (doneWith_kept_eq (by assumption)) | exact rfl

theorem specRegRun_kept  (s : State) (m : Msg) (k : Nat) : Kept [.units, .rgl, .reg .REG_STATE, .reg .REG_TARGET, .reg
    .REG_SHED, .reg .REG_PHn] s (specRegRun.run s m k).1 := by
  unfold specRegRun
  try dsimp only
  repeat' first
    | with_reducible exact .refl _ _ | with_reducible assumption | with_reducible refine .ite ?_ ?_
    | with_reducible apply Kept.via (acceptedWith_kept ..)
    | with_reducible apply Kept.via (acceptedWith_kept_eq (by assumption))
    | with_reducible apply Kept.via (State.regRun_kept ..) | exact rfl

theorem specRegStop_kept  (s : State) (m : Msg) (k : Nat) : Kept [.units, .rgl, .reg .REG_STATE, .reg .REG_PHn] s
    (specRegStop.run s m k).1 := by
  unfold specRegStop
  try dsimp only
  repeat' first
    | with_reducible exact .refl _ _ | with_reducible assumption | with_reducible apply Kept.via (acceptedWith_kept ..)
    | with_reducible apply Kept.via (acceptedWith_kept_eq (by assumption))
    | with_reducible apply Kept.via (State.regStop_kept ..) | exact rfl

theorem specRegDisarm_kept  (s : State) (m : Msg) (k : Nat) : Kept [.units] s (specRegDisarm.run s m k).1 := by
  unfold specRegDisarm
  try dsimp only
  repeat' first
    | with_reducible exact .refl _ _ | with_reducible assumption | with_reducible apply Kept.via (State.setUst_kept ..)
    | with_reducible apply Kept.via (doneWith_kept ..) | with_reducible apply Kept.via (doneWith_kept_eq (by assumption))
    | exact rfl

theorem State.regSet_kept (s : State) (v rll en minPh : Nat) : Kept [.rgl, .reg .REG_STATE, .reg .REG_EVT, .reg .REG_TARGET,
    .reg .REG_SHED, .reg .REG_PHn] s (State.regSet s v rll en minPh) := by
  unfold State.regSet
  try dsimp only
  repeat' first
    | with_reducible exact .refl _ _ | with_reducible assumption | with_reducible refine .ite ?_ ?_
    | with_reducible apply Kept.via (State.updRg_kept ..) | with_reducible apply Kept.via (State.regRamp_kept ..)
    | with_reducible apply Kept.via (State.regRestoreAll_kept ..) | with_reducible apply Kept.via (State.regApply_kept ..)
    | exact rfl

theorem specRegSet_kept  (s : State) (m : Msg) (k : Nat) : Kept [.rgl, .reg .REG_STATE, .reg .REG_EVT, .reg .REG_TARGET, .reg
    .REG_SHED, .reg .REG_PHn] s (specRegSet.run s m k).1 := by
  unfold specRegSet
  try dsimp only
  repeat' first
    | with_reducible exact .refl _ _ | with_reducible assumption | with_reducible refine .ite ?_ ?_
    | with_reducible apply Kept.via (doneWith_kept ..) | with_reducible apply Kept.via (doneWith_kept_eq (by assumption))
    | with_reducible apply Kept.via (State.regSet_kept ..) | exact rfl

theorem specRegClear_kept  (s : State) (m : Msg) (k : Nat) : Kept [.units, .eng, .mdl, .rgl, .ldg, .ssm, .pads, .reg .FEn_EVT,
    .reg .FEn_WDCNT, .reg .REG_LIM, .reg .LDG_EVT, .reg .LDG_WQSTAT, .reg .LDG_PNf, .reg .SSM_STATE, .reg .SSM_EVT, .reg
    .SSM_PAT0, .reg .SSM_PAT1, .reg .SSM_PATX] s (specRegClear.run s m k).1 := by
  unfold specRegClear
  try dsimp only
  repeat' first
    | with_reducible exact .refl _ _ | with_reducible assumption | with_reducible refine .ite ?_ ?_
    | with_reducible apply Kept.via (State.setFld_kept (.REG_LIM) ..) | with_reducible apply Kept.via (State.setUst_kept ..)
    | with_reducible apply Kept.via (doneWith_kept ..) | with_reducible apply Kept.via (doneWith_kept_eq (by assumption))
    | with_reducible apply Kept.via (State.ssmHoldReg_kept ..) | with_reducible apply Kept.via (State.updRg_kept ..)
    | (intro p; cases p <;> first | exact .inl (List.mem_of_elem_eq_true rfl) | exact .inr rfl | exact .inr True.intro)
    | exact rfl | split | dsimp only | with_reducible refine .update rfl rfl rfl ?_ ?_

theorem execRegArm_kept (m : Msg) (s : State) : KeptOut (Part.receipt [.units, .reg .PST_OUTST, .reg .PST_MERR_CODE]) s
    (execRegArm m s) := by
  unfold execRegArm
  repeat' first
    | with_reducible apply KeptOut.next | with_reducible exact .refl _ _
    | with_reducible apply deliver_kept rfl (fun s m k => (specRegArm_kept s m k).mono rfl) _ _

theorem execRegRun_kept (m : Msg) (s : State) : KeptOut (Part.receipt [.units, .rgl, .reg .PST_OUTST, .reg .PST_MERR_CODE, .reg
    .REG_STATE, .reg .REG_TARGET, .reg .REG_SHED, .reg .REG_PHn]) s (execRegRun m s) := by
  unfold execRegRun
  repeat' first
    | with_reducible apply KeptOut.next | with_reducible exact .refl _ _
    | with_reducible apply deliver_kept rfl (fun s m k => (specRegRun_kept s m k).mono rfl) _ _

theorem execRegStop_kept (m : Msg) (s : State) : KeptOut (Part.receipt [.units, .rgl, .reg .PST_OUTST, .reg .PST_MERR_CODE,
    .reg .REG_STATE, .reg .REG_PHn]) s (execRegStop m s) := by
  unfold execRegStop
  repeat' first
    | with_reducible apply KeptOut.next | with_reducible exact .refl _ _
    | with_reducible apply deliver_kept rfl (fun s m k => (specRegStop_kept s m k).mono rfl) _ _

theorem execRegDisarm_kept (m : Msg) (s : State) : KeptOut (Part.receipt [.units, .reg .PST_OUTST, .reg .PST_MERR_CODE]) s
    (execRegDisarm m s) := by
  unfold execRegDisarm
  repeat' first
    | with_reducible apply KeptOut.next | with_reducible exact .refl _ _
    | with_reducible apply deliver_kept rfl (fun s m k => (specRegDisarm_kept s m k).mono rfl) _ _

theorem execRegSet_kept (m : Msg) (s : State) : KeptOut (Part.receipt [.rgl, .reg .PST_OUTST, .reg .PST_MERR_CODE, .reg
    .REG_STATE, .reg .REG_EVT, .reg .REG_TARGET, .reg .REG_SHED, .reg .REG_PHn]) s (execRegSet m s) := by
  unfold execRegSet
  repeat' first
    | with_reducible apply KeptOut.next | with_reducible exact .refl _ _
    | with_reducible apply deliver_kept rfl (fun s m k => (specRegSet_kept s m k).mono rfl) _ _

theorem execRegClear_kept (m : Msg) (s : State) : KeptOut (Part.receipt [.units, .eng, .mdl, .rgl, .ldg, .ssm, .pads, .reg
    .PST_OUTST, .reg .PST_MERR_CODE, .reg .FEn_EVT, .reg .FEn_WDCNT, .reg .REG_LIM, .reg .LDG_EVT, .reg .LDG_WQSTAT, .reg
    .LDG_PNf, .reg .SSM_STATE, .reg .SSM_EVT, .reg .SSM_PAT0, .reg .SSM_PAT1, .reg .SSM_PATX]) s (execRegClear m s) := by
  unfold execRegClear
  repeat' first
    | with_reducible apply KeptOut.next | with_reducible exact .refl _ _
    | with_reducible apply deliver_kept rfl (fun s m k => (specRegClear_kept s m k).mono rfl) _ _

theorem State.regAuto_kept (s : State) : Kept [.units, .rgl, .reg .REG_STATE, .reg .REG_TARGET, .reg .REG_SHED, .reg .REG_PHn]
    s (State.regAuto s) := by
  unfold State.regAuto
  try dsimp only
  repeat' first
    | with_reducible exact .refl _ _ | with_reducible assumption | with_reducible refine .ite ?_ ?_
    | with_reducible apply Kept.via (State.updRg_kept ..) | with_reducible apply Kept.via (State.regRun_kept ..) | exact rfl

theorem execRegAutoRun_kept (s : State) : KeptOut [.units, .rgl, .reg .REG_STATE, .reg .REG_TARGET, .reg .REG_SHED, .reg
    .REG_PHn] s (execRegAutoRun s) := by
  unfold execRegAutoRun
  repeat' first
    | with_reducible apply KeptOut.next | with_reducible apply KeptOut.ite | with_reducible exact .refl _ _
    | with_reducible assumption | with_reducible refine .ite ?_ ?_ | with_reducible apply Kept.via (State.regAuto_kept ..)
    | exact rfl

theorem execRegComparatorTrip_kept (m : RegIn) (s : State) : KeptOut [.eng, .mdl, .rgl, .ldg, .ssm, .reg .FEn_EVT, .reg
    .FEn_WDCNT, .reg .REG_STATE, .reg .REG_EVT, .reg .REG_OUT, .reg .REG_LIM, .reg .REG_PHn, .reg .LDG_EVT, .reg .LDG_WQSTAT,
    .reg .LDG_PNf, .reg .SSM_STATE, .reg .SSM_EVT, .reg .SSM_PAT0, .reg .SSM_PAT1, .reg .SSM_PATX] s (execRegComparatorTrip m
    s) := by
  unfold execRegComparatorTrip
  repeat' first
    | with_reducible apply KeptOut.next | with_reducible apply KeptOut.ite | with_reducible exact .refl _ _
    | with_reducible assumption | with_reducible refine .ite ?_ ?_ | with_reducible apply Kept.via (State.updRg_kept ..)
    | with_reducible apply Kept.via (State.regTryPulse_kept ..) | with_reducible apply Kept.via (State.regSense_kept ..)
    | exact rfl

theorem execRegOnTimeEnd_kept (n : Nat) (m : RegIn) (s : State) : KeptOut [.eng, .mdl, .rgl, .ldg, .ssm, .reg .FEn_EVT, .reg
    .FEn_WDCNT, .reg .REG_STATE, .reg .REG_EVT, .reg .REG_OUT, .reg .REG_LIM, .reg .REG_PHn, .reg .LDG_EVT, .reg .LDG_WQSTAT,
    .reg .LDG_PNf, .reg .SSM_STATE, .reg .SSM_EVT, .reg .SSM_PAT0, .reg .SSM_PAT1, .reg .SSM_PATX] s (execRegOnTimeEnd n m s)
    := by
  unfold execRegOnTimeEnd
  repeat' first
    | with_reducible apply KeptOut.next | with_reducible apply KeptOut.ite | with_reducible exact .refl _ _
    | with_reducible assumption | with_reducible refine .ite ?_ ?_
    | with_reducible apply Kept.via (State.setFlag_kept (.REG_EVT) ..) | with_reducible apply Kept.via (State.updRg_kept ..)
    | with_reducible apply Kept.via (State.regFlag_kept ..) | with_reducible apply Kept.via (State.regTryPulse_kept ..)
    | with_reducible apply Kept.via (State.regRestore_kept ..) | with_reducible apply Kept.via (State.regSense_kept ..)
    | exact rfl

theorem execRegBalance_kept (m : RegIn) (s : State) : KeptOut [.eng, .mdl, .rgl, .ldg, .ssm, .reg .FEn_EVT, .reg .FEn_WDCNT,
    .reg .REG_STATE, .reg .REG_EVT, .reg .REG_OUT, .reg .REG_LIM, .reg .REG_PHn, .reg .LDG_EVT, .reg .LDG_WQSTAT, .reg
    .LDG_PNf, .reg .SSM_STATE, .reg .SSM_EVT, .reg .SSM_PAT0, .reg .SSM_PAT1, .reg .SSM_PATX] s (execRegBalance m s) := by
  unfold execRegBalance
  repeat' first
    | with_reducible apply KeptOut.next | with_reducible apply KeptOut.ite | with_reducible exact .refl _ _
    | with_reducible assumption | with_reducible refine .ite ?_ ?_
    | with_reducible apply Kept.via (State.setSfld_kept (.REG_PHn _) ..) | with_reducible apply Kept.via (State.updRg_kept ..)
    | with_reducible apply Kept.via (State.regTryPulse_kept ..) | with_reducible apply Kept.via (State.regSense_kept ..)
    | with_reducible refine .each (fun _ _ => ?_) ?_ | with_reducible refine .foldl (fun _ _ => ?_) ?_ | exact rfl

theorem execRegShed_kept (m : RegIn) (s : State) : KeptOut [.eng, .mdl, .rgl, .ldg, .ssm, .reg .FEn_EVT, .reg .FEn_WDCNT, .reg
    .REG_STATE, .reg .REG_EVT, .reg .REG_OUT, .reg .REG_LIM, .reg .REG_PHn, .reg .LDG_EVT, .reg .LDG_WQSTAT, .reg .LDG_PNf,
    .reg .SSM_STATE, .reg .SSM_EVT, .reg .SSM_PAT0, .reg .SSM_PAT1, .reg .SSM_PATX] s (execRegShed m s) := by
  unfold execRegShed
  repeat' first
    | with_reducible apply KeptOut.next | with_reducible apply KeptOut.ite | with_reducible exact .refl _ _
    | with_reducible assumption | with_reducible refine .ite ?_ ?_
    | with_reducible apply Kept.via (State.setFlag_kept (.REG_EVT) ..)
    | with_reducible apply Kept.via (State.setActive_kept ..) | with_reducible apply State.regOp_kept
    | with_reducible apply Kept.via (State.regSense_kept ..) | exact rfl | split | dsimp only | intro _

theorem execRegAdd_kept (m : RegIn) (s : State) : KeptOut [.eng, .mdl, .rgl, .ldg, .ssm, .reg .FEn_EVT, .reg .FEn_WDCNT, .reg
    .REG_STATE, .reg .REG_EVT, .reg .REG_OUT, .reg .REG_LIM, .reg .REG_PHn, .reg .LDG_EVT, .reg .LDG_WQSTAT, .reg .LDG_PNf,
    .reg .SSM_STATE, .reg .SSM_EVT, .reg .SSM_PAT0, .reg .SSM_PAT1, .reg .SSM_PATX] s (execRegAdd m s) := by
  unfold execRegAdd
  repeat' first
    | with_reducible apply KeptOut.next | with_reducible apply KeptOut.ite | with_reducible exact .refl _ _
    | with_reducible assumption | with_reducible refine .ite ?_ ?_
    | with_reducible apply Kept.via (State.setFlag_kept (.REG_EVT) ..)
    | with_reducible apply Kept.via (State.setActive_kept ..) | with_reducible apply Kept.via (State.regTryPulse_kept ..)
    | with_reducible apply State.regOp_kept | with_reducible apply Kept.via (State.regSense_kept ..)
    | (intro p; cases p <;> first | exact .inl (List.mem_of_elem_eq_true rfl) | exact .inr rfl | exact .inr True.intro)
    | exact rfl | split | dsimp only | intro _

theorem execRegRestore_kept (m : RegIn) (s : State) : KeptOut [.eng, .mdl, .rgl, .ldg, .ssm, .reg .FEn_EVT, .reg .FEn_WDCNT,
    .reg .REG_STATE, .reg .REG_EVT, .reg .REG_OUT, .reg .REG_LIM, .reg .REG_PHn, .reg .LDG_EVT, .reg .LDG_WQSTAT, .reg
    .LDG_PNf, .reg .SSM_STATE, .reg .SSM_EVT, .reg .SSM_PAT0, .reg .SSM_PAT1, .reg .SSM_PATX] s (execRegRestore m s) := by
  unfold execRegRestore
  repeat' first
    | with_reducible apply KeptOut.next | with_reducible apply KeptOut.ite | with_reducible exact .refl _ _
    | with_reducible assumption | with_reducible refine .ite ?_ ?_ | with_reducible apply Kept.via (State.regRestore_kept ..)
    | with_reducible apply Kept.via (State.regSense_kept ..) | exact rfl

theorem execShedPhaseHighImpedance_kept (n : Nat) (s : State) : KeptOut [.rgl] s (execShedPhaseHighImpedance n s) := by
  unfold execShedPhaseHighImpedance
  repeat' first
    | with_reducible apply KeptOut.next | with_reducible apply KeptOut.ite | with_reducible exact .refl _ _
    | with_reducible assumption | with_reducible refine .ite ?_ ?_ | with_reducible apply Kept.via (State.updRg_kept ..)
    | exact rfl

theorem execRegShedHoldEnd_kept (s : State) : KeptOut [.rgl] s (execRegShedHoldEnd s) := by
  unfold execRegShedHoldEnd
  repeat' first
    | with_reducible apply KeptOut.next | with_reducible exact .refl _ _ | with_reducible assumption
    | with_reducible apply Kept.via (State.updRg_kept ..) | exact rfl

theorem execRegStartTest_kept (m : RegIn) (s : State) : KeptOut [.po, .eng, .mdl, .rgl, .ldg, .ssm, .reg .FEn_EVT, .reg
    .FEn_WDCNT, .reg .REG_STATE, .reg .REG_EVT, .reg .REG_FLT, .reg .REG_OUT, .reg .REG_LIM, .reg .REG_PHn, .reg .LDG_EVT, .reg
    .LDG_WQSTAT, .reg .LDG_PNf, .reg .SSM_STATE, .reg .SSM_EVT, .reg .SSM_PAT0, .reg .SSM_PAT1, .reg .SSM_PATX] s
    (execRegStartTest m s) := by
  unfold execRegStartTest
  repeat' first
    | with_reducible apply KeptOut.next | with_reducible apply KeptOut.ite | with_reducible exact .refl _ _
    | with_reducible assumption | with_reducible refine .ite ?_ ?_ | with_reducible apply Kept.via (State.finishOp_kept ..)
    | with_reducible apply Kept.via (State.setRegPhase_kept ..) | with_reducible apply Kept.via (State.regSense_kept ..)
    | with_reducible apply Kept.via (State.regFailure_kept ..) | exact rfl

theorem execRegUndervoltageFailure_kept (m : RegIn) (s : State) : KeptOut [.po, .eng, .mdl, .rgl, .ldg, .ssm, .reg .FEn_EVT,
    .reg .FEn_WDCNT, .reg .REG_STATE, .reg .REG_EVT, .reg .REG_FLT, .reg .REG_OUT, .reg .REG_LIM, .reg .REG_PHn, .reg .LDG_EVT,
    .reg .LDG_WQSTAT, .reg .LDG_PNf, .reg .SSM_STATE, .reg .SSM_EVT, .reg .SSM_PAT0, .reg .SSM_PAT1, .reg .SSM_PATX] s
    (execRegUndervoltageFailure m s) := by
  unfold execRegUndervoltageFailure
  repeat' first
    | with_reducible apply KeptOut.next | with_reducible apply KeptOut.ite | with_reducible exact .refl _ _
    | with_reducible assumption | with_reducible refine .ite ?_ ?_ | with_reducible apply Kept.via (State.regSense_kept ..)
    | with_reducible apply Kept.via (State.regFailure_kept ..) | exact rfl

theorem execRegHiccupEnd_kept (m : RegIn) (s : State) : KeptOut [.eng, .mdl, .rgl, .ldg, .ssm, .reg .FEn_EVT, .reg .FEn_WDCNT,
    .reg .REG_STATE, .reg .REG_EVT, .reg .REG_TARGET, .reg .REG_SHED, .reg .REG_OUT, .reg .REG_LIM, .reg .REG_PHn, .reg
    .LDG_EVT, .reg .LDG_WQSTAT, .reg .LDG_PNf, .reg .SSM_STATE, .reg .SSM_EVT, .reg .SSM_PAT0, .reg .SSM_PAT1, .reg .SSM_PATX]
    s (execRegHiccupEnd m s) := by
  unfold execRegHiccupEnd
  repeat' first
    | with_reducible apply KeptOut.next | with_reducible apply KeptOut.ite | with_reducible exact .refl _ _
    | with_reducible assumption | with_reducible refine .ite ?_ ?_ | with_reducible apply Kept.via (State.regSense_kept ..)
    | with_reducible apply Kept.via (State.regStart_kept ..) | exact rfl

theorem execRegFailCountReset_kept (s : State) : KeptOut [.reg .REG_LIM] s (execRegFailCountReset s) := by
  unfold execRegFailCountReset
  repeat' first
    | with_reducible apply KeptOut.next | with_reducible apply KeptOut.ite | with_reducible exact .refl _ _
    | with_reducible assumption | with_reducible refine .ite ?_ ?_
    | with_reducible apply Kept.via (State.setFld_kept (.REG_LIM) ..) | exact rfl

theorem execRegSoftstopEnd_kept (s : State) : KeptOut [.po, .rgl, .reg .REG_STATE] s (execRegSoftstopEnd s) := by
  unfold execRegSoftstopEnd
  repeat' first
    | with_reducible apply KeptOut.next | with_reducible apply KeptOut.ite | with_reducible exact .refl _ _
    | with_reducible assumption | with_reducible refine .ite ?_ ?_ | with_reducible apply Kept.via (State.hwMove_kept ..)
    | with_reducible apply Kept.via (State.finishOp_kept ..) | with_reducible apply Kept.via (State.setRegPhase_kept ..)
    | with_reducible apply Kept.via (State.regOff_kept ..) | exact rfl

theorem execRegCrowbar_kept (m : RegIn) (s : State) : KeptOut [.po, .eng, .mdl, .rgl, .ldg, .ssm, .pads, .reg .FEn_EVT, .reg
    .FEn_WDCNT, .reg .REG_STATE, .reg .REG_EVT, .reg .REG_FLT, .reg .REG_OUT, .reg .REG_LIM, .reg .REG_PHn, .reg .LDG_EVT, .reg
    .LDG_WQSTAT, .reg .LDG_PNf, .reg .SSM_STATE, .reg .SSM_EVT, .reg .SSM_PAT0, .reg .SSM_PAT1, .reg .SSM_PATX] s
    (execRegCrowbar m s) := by
  unfold execRegCrowbar
  repeat' first
    | with_reducible apply KeptOut.next | with_reducible apply KeptOut.ite | with_reducible exact .refl _ _
    | with_reducible assumption | with_reducible refine .ite ?_ ?_
    | with_reducible apply Kept.via (State.setFlag_kept (.REG_EVT) ..) | with_reducible apply Kept.via (State.regFlag_kept ..)
    | with_reducible apply Kept.via (State.regSense_kept ..) | with_reducible apply Kept.via (State.regOff_kept ..)
    | with_reducible apply Kept.via (State.regFail_kept ..)
    | (intro p; cases p <;> first | exact .inl (List.mem_of_elem_eq_true rfl) | exact .inr rfl | exact .inr True.intro)
    | exact rfl | split | dsimp only | with_reducible refine .update rfl rfl rfl ?_ ?_

theorem execRegFaultDetect_kept (cause bad : Nat) (s : State) : KeptOut [.po, .rgl, .ssm, .reg .REG_EVT, .reg .REG_FLT] s
    (execRegFaultDetect cause bad s) := by
  unfold execRegFaultDetect
  repeat' first
    | with_reducible apply KeptOut.next | with_reducible apply KeptOut.ite | with_reducible exact .refl _ _
    | with_reducible assumption | with_reducible refine .ite ?_ ?_ | with_reducible apply Kept.via (State.updRg_kept ..)
    | with_reducible apply Kept.via (State.regFail_kept ..) | exact rfl

theorem State.regRound_kept (s : State) (ch : Nat) (v : Int) : Kept [.rgl, .reg .REG_VIN] s (State.regRound s ch v) := by
  unfold State.regRound
  try dsimp only
  repeat' first
    | with_reducible exact .refl _ _ | with_reducible assumption | with_reducible refine .ite ?_ ?_
    | with_reducible apply Kept.via (State.setFld_kept (.REG_VIN) ..) | with_reducible apply Kept.via (State.updRg_kept ..)
    | exact rfl

theorem State.regEnterFault_kept (s : State) : Kept [.units, .rgl, .reg .REG_STATE] s (State.regEnterFault s) := by
  unfold State.regEnterFault
  try dsimp only
  repeat' first
    | with_reducible exact .refl _ _ | with_reducible assumption | with_reducible apply Kept.via (State.setUst_kept ..)
    | with_reducible apply Kept.via (State.setRegPhase_kept ..) | with_reducible apply Kept.via (State.regOff_kept ..)
    | exact rfl

end Sys2Proof.Machine
end

