-- ==== Sys2Proof/Laws/KeptTick.lean ====
section
/-!
SUPPORT. The frame of each operation of Sys2Proof/Machine/Tick.lean: the parts of the state that it can change.
-/
namespace Sys2Proof.Machine
set_option Elab.async false

theorem State.regTick_kept (s : State) : Kept [.rgl] s (State.regTick s) := by
  unfold State.regTick
  try dsimp only
  repeat' first
    | with_reducible exact .refl _ _ | with_reducible assumption | with_reducible refine .ite ?_ ?_
    | with_reducible apply Kept.via (State.regEmulate_kept ..) | with_reducible apply Kept.via (State.regIntegrate_kept ..)
    | with_reducible apply Kept.via (State.regTryPulse_kept ..) | exact rfl

theorem State.timeOn_kept (s : State) : Kept [.frac, .time, .up] s (State.timeOn s) := by
  unfold State.timeOn
  try dsimp only
  repeat' first
    | with_reducible exact .refl _ _ | with_reducible assumption | with_reducible refine .ite ?_ ?_
    | (intro p; cases p <;> first | exact .inl (List.mem_of_elem_eq_true rfl) | exact .inr rfl | exact .inr True.intro) | split
    | dsimp only | with_reducible refine .update rfl rfl rfl ?_ ?_

theorem State.idle_kept (s : State) : Kept [.time, .up, .frac, .po, .eng, .mdl, .tra, .chg, .ldg, .ssm, .pads, .rgl, .cores,
    .lsc, .rst, .reg .FEn_EVT, .reg .FEn_WDCNT, .reg .MOD_STAT, .reg .MOD_EVT, .reg .MOD_LCNTn, .reg .MOD_LTRIPn, .reg .CHG_ILIM,
    .reg .CHG_FLT, .reg .CHG_EVT, .reg .LDG_EVT, .reg .LDG_WQSTAT, .reg .LDG_PNf, .reg .DBG_REPLAYn, .reg .PST_SLEEP,
    .reg .LSC_STAT, .reg .SSM_WDSTATn, .reg .RST_CAUSE, .reg .RST_PEND] s (State.idle s) := by
  unfold State.idle
  try dsimp only
  repeat' first
    | with_reducible exact .refl _ _ | with_reducible apply Kept.via (State.pairDue_kept ..)
    | with_reducible apply Kept.via (State.gateTick_kept ..) | with_reducible apply Kept.via (State.replayDrain_kept ..)
    | with_reducible apply Kept.via (State.wireTick_kept ..) | with_reducible apply Kept.via (State.regTick_kept ..)
    | with_reducible apply Kept.via (State.timeOn_kept ..) | exact rfl

end Sys2Proof.Machine
end

