-- ==== Sys2Proof/Laws/KeptCharger.lean ====
section
/-!
SUPPORT. The frame of each operation of Sys2Proof/Machine/Charger.lean: the parts of the state that it can change.
-/
namespace Sys2Proof.Machine
set_option Elab.async false

theorem State.windSwitch_kept (s : State) (on : Bool) : Kept [.reg .FEn_STATE] s (State.windSwitch s on) := by
  unfold State.windSwitch
  try dsimp only
  repeat' first
    | with_reducible exact .refl _ _ | with_reducible assumption | with_reducible refine .ite ?_ ?_
    | with_reducible apply Kept.via (State.setFld_kept (.FEn_STATE _) ..) | with_reducible refine .each (fun _ _ => ?_) ?_
    | exact rfl

theorem State.chgFunctions_kept (s : State) : Kept [.units] s (State.chgFunctions s) := by
  unfold State.chgFunctions
  try dsimp only
  repeat' first
    | with_reducible exact .refl _ _ | with_reducible assumption | with_reducible refine .ite ?_ ?_
    | with_reducible apply Kept.via (State.setUst_kept ..) | with_reducible refine .each (fun _ _ => ?_) ?_ | exact rfl

theorem State.chgBoundary_kept (s : State) : Kept [.units, .eng, .mdl, .ldg, .reg .FEn_STATE] s (State.chgBoundary s) := by
  unfold State.chgBoundary
  try dsimp only
  repeat' first
    | with_reducible exact .refl _ _ | with_reducible assumption | with_reducible refine .ite ?_ ?_
    | with_reducible apply Kept.via (State.fnOff_kept ..) | with_reducible apply Kept.via (State.engineEnter_kept ..)
    | with_reducible apply Kept.via (State.enginesEnter_kept ..) | with_reducible apply Kept.via (State.windSwitch_kept ..)
    | with_reducible apply Kept.via (State.chgFunctions_kept ..) | with_reducible refine .each (fun _ _ => ?_) ?_ | exact rfl

theorem specChgArm_kept  (s : State) (m : Msg) (k : Nat) : Kept [.units, .eng, .mdl, .ldg, .reg .FEn_STATE] s (specChgArm.run s
    m k).1 := by
  unfold specChgArm
  try dsimp only
  repeat' first
    | with_reducible exact .refl _ _ | with_reducible assumption | with_reducible refine .ite ?_ ?_
    | with_reducible apply Kept.via (State.setUst_kept ..) | with_reducible apply Kept.via (doneWith_kept ..)
    | with_reducible apply Kept.via (doneWith_kept_eq (by assumption))
    | with_reducible apply Kept.via (State.chgBoundary_kept ..) | exact rfl

theorem specChgStart_kept  (s : State) (m : Msg) (k : Nat) : Kept [.units, .po, .eng, .mdl, .chg, .ldg, .ssm, .reg .FEn_EVT,
    .reg .FEn_WDCNT, .reg .CHG_STATE, .reg .CHG_ILIM, .reg .CHG_FLT, .reg .CHG_EVT, .reg .CHG_TIME, .reg .LDG_EVT, .reg
    .LDG_WQSTAT, .reg .LDG_PNf] s (specChgStart.run s m k).1 := by
  unfold specChgStart
  try dsimp only
  repeat' first
    | with_reducible exact .refl _ _ | with_reducible assumption | with_reducible refine .ite ?_ ?_
    | with_reducible apply Kept.via (State.setFld_kept (.CHG_STATE) ..)
    | with_reducible apply Kept.via (State.setReg_kept (.CHG_TIME) ..) | with_reducible apply Kept.via (State.setUst_kept ..)
    | with_reducible apply Kept.via (acceptedWith_kept ..)
    | with_reducible apply Kept.via (acceptedWith_kept_eq (by assumption))
    | with_reducible apply Kept.via (State.chgSetPhase_kept ..) | with_reducible apply Kept.via (State.chgFail_kept ..)
    | with_reducible apply Kept.via (State.updCh_kept ..) | with_reducible apply Kept.via (State.showLimit_kept ..)
    | with_reducible apply Kept.via (State.chgFunctions_kept ..) | exact rfl

theorem specChgStop_kept  (s : State) (m : Msg) (k : Nat) : Kept [.po, .chg, .reg .CHG_STATE, .reg .CHG_ILIM, .reg .CHG_EVT] s
    (specChgStop.run s m k).1 := by
  unfold specChgStop
  try dsimp only
  repeat' first
    | with_reducible exact .refl _ _ | with_reducible assumption | with_reducible apply Kept.via (acceptedWith_kept ..)
    | with_reducible apply Kept.via (acceptedWith_kept_eq (by assumption))
    | with_reducible apply Kept.via (State.chgEnd_kept ..) | exact rfl

theorem specChgDisarm_kept  (s : State) (m : Msg) (k : Nat) : Kept [.units, .eng, .mdl, .ldg, .reg .FEn_STATE] s
    (specChgDisarm.run s m k).1 := by
  unfold specChgDisarm
  try dsimp only
  repeat' first
    | with_reducible exact .refl _ _ | with_reducible assumption | with_reducible apply Kept.via (State.setUst_kept ..)
    | with_reducible apply Kept.via (doneWith_kept ..) | with_reducible apply Kept.via (doneWith_kept_eq (by assumption))
    | with_reducible apply Kept.via (State.chgBoundary_kept ..) | exact rfl

theorem specChgLimit_kept  (s : State) (m : Msg) (k : Nat) : Kept [.chg, .reg .CHG_STATE, .reg .CHG_ILIM, .reg .CHG_EVT] s
    (specChgLimit.run s m k).1 := by
  unfold specChgLimit
  try dsimp only
  repeat' first
    | with_reducible exact .refl _ _ | with_reducible assumption | with_reducible refine .ite ?_ ?_
    | with_reducible apply Kept.via (doneWith_kept ..) | with_reducible apply Kept.via (doneWith_kept_eq (by assumption))
    | with_reducible apply Kept.via (State.updCh_kept ..) | with_reducible apply Kept.via (State.limitsChanged_kept ..)
    | exact rfl

theorem specChgBms_kept  (s : State) (m : Msg) (k : Nat) : Kept [.po, .chg, .reg .CHG_STATE, .reg .CHG_ILIM, .reg .CHG_EVT] s
    (specChgBms.run s m k).1 := by
  unfold specChgBms
  try dsimp only
  repeat' first
    | with_reducible exact .refl _ _ | with_reducible assumption | with_reducible refine .ite ?_ ?_
    | with_reducible apply Kept.via (doneWith_kept ..) | with_reducible apply Kept.via (doneWith_kept_eq (by assumption))
    | with_reducible apply Kept.via (State.updCh_kept ..) | with_reducible apply Kept.via (State.chgEnd_kept ..) | exact rfl

theorem specChgClear_kept  (s : State) (m : Msg) (k : Nat) : Kept [.units, .eng, .mdl, .chg, .ldg, .ssm, .reg .FEn_STATE, .reg
    .FEn_ADFAC, .reg .FEn_EVT, .reg .FEn_WDCNT, .reg .CHG_STATE, .reg .LDG_EVT, .reg .LDG_WQSTAT, .reg .LDG_PNf, .reg
    .SSM_STATE, .reg .SSM_PAT0, .reg .SSM_PAT1, .reg .SSM_PATX] s (specChgClear.run s m k).1 := by
  unfold specChgClear
  try dsimp only
  repeat' first
    | with_reducible exact .refl _ _ | with_reducible assumption | with_reducible refine .ite ?_ ?_
    | with_reducible apply Kept.via (State.setFld_kept (.CHG_STATE) ..) | with_reducible apply Kept.via (State.setUst_kept ..)
    | with_reducible apply Kept.via (doneWith_kept ..) | with_reducible apply Kept.via (doneWith_kept_eq (by assumption))
    | with_reducible apply Kept.via (State.ssmFreeFn_kept ..) | with_reducible apply Kept.via (State.updCh_kept ..)
    | with_reducible apply Kept.via (State.feClear_kept ..) | with_reducible apply Kept.via (State.chgBoundary_kept ..)
    | with_reducible refine .each (fun _ _ => ?_) ?_ | exact rfl

theorem execChgArm_kept (m : Msg) (s : State) : KeptOut (Part.receipt [.units, .eng, .mdl, .ldg, .reg .PST_OUTST, .reg
    .PST_MERR_CODE, .reg .FEn_STATE]) s (execChgArm m s) := by
  unfold execChgArm
  repeat' first
    | with_reducible apply KeptOut.next | with_reducible exact .refl _ _ | with_reducible assumption
    | with_reducible apply deliver_kept rfl (fun s m k => (specChgArm_kept s m k).mono rfl) _ _

theorem execChgStart_kept (m : Msg) (s : State) : KeptOut (Part.receipt [.units, .eng, .mdl, .chg, .ldg, .ssm, .reg .PST_OUTST,
    .reg .PST_MERR_CODE, .reg .FEn_EVT, .reg .FEn_WDCNT, .reg .CHG_STATE, .reg .CHG_ILIM, .reg .CHG_FLT, .reg .CHG_EVT, .reg
    .CHG_TIME, .reg .LDG_EVT, .reg .LDG_WQSTAT, .reg .LDG_PNf]) s (execChgStart m s) := by
  unfold execChgStart
  repeat' first
    | with_reducible apply KeptOut.next | with_reducible exact .refl _ _ | with_reducible assumption
    | with_reducible apply deliver_kept rfl (fun s m k => (specChgStart_kept s m k).mono rfl) _ _

theorem execChgStop_kept (m : Msg) (s : State) : KeptOut (Part.receipt [.chg, .reg .PST_OUTST, .reg .PST_MERR_CODE, .reg
    .CHG_STATE, .reg .CHG_ILIM, .reg .CHG_EVT]) s (execChgStop m s) := by
  unfold execChgStop
  repeat' first
    | with_reducible apply KeptOut.next | with_reducible exact .refl _ _ | with_reducible assumption
    | with_reducible apply deliver_kept rfl (fun s m k => (specChgStop_kept s m k).mono rfl) _ _

theorem execChgDisarm_kept (m : Msg) (s : State) : KeptOut (Part.receipt [.units, .eng, .mdl, .ldg, .reg .PST_OUTST, .reg
    .PST_MERR_CODE, .reg .FEn_STATE]) s (execChgDisarm m s) := by
  unfold execChgDisarm
  repeat' first
    | with_reducible apply KeptOut.next | with_reducible exact .refl _ _ | with_reducible assumption
    | with_reducible apply deliver_kept rfl (fun s m k => (specChgDisarm_kept s m k).mono rfl) _ _

theorem execChgLimit_kept (m : Msg) (s : State) : KeptOut (Part.receipt [.chg, .reg .PST_OUTST, .reg .PST_MERR_CODE, .reg
    .CHG_STATE, .reg .CHG_ILIM, .reg .CHG_EVT]) s (execChgLimit m s) := by
  unfold execChgLimit
  repeat' first
    | with_reducible apply KeptOut.next | with_reducible exact .refl _ _ | with_reducible assumption
    | with_reducible apply deliver_kept rfl (fun s m k => (specChgLimit_kept s m k).mono rfl) _ _

theorem execChgBms_kept (m : Msg) (s : State) : KeptOut (Part.receipt [.chg, .reg .PST_OUTST, .reg .PST_MERR_CODE, .reg
    .CHG_STATE, .reg .CHG_ILIM, .reg .CHG_EVT]) s (execChgBms m s) := by
  unfold execChgBms
  repeat' first
    | with_reducible apply KeptOut.next | with_reducible exact .refl _ _ | with_reducible assumption
    | with_reducible apply deliver_kept rfl (fun s m k => (specChgBms_kept s m k).mono rfl) _ _

theorem execChgClear_kept (m : Msg) (s : State) : KeptOut (Part.receipt [.units, .eng, .mdl, .chg, .ldg, .ssm, .reg .PST_OUTST,
    .reg .PST_MERR_CODE, .reg .FEn_STATE, .reg .FEn_ADFAC, .reg .FEn_EVT, .reg .FEn_WDCNT, .reg .CHG_STATE, .reg .LDG_EVT, .reg
    .LDG_WQSTAT, .reg .LDG_PNf, .reg .SSM_STATE, .reg .SSM_PAT0, .reg .SSM_PAT1, .reg .SSM_PATX]) s (execChgClear m s) := by
  unfold execChgClear
  repeat' first
    | with_reducible apply KeptOut.next | with_reducible exact .refl _ _ | with_reducible assumption
    | with_reducible apply deliver_kept rfl (fun s m k => (specChgClear_kept s m k).mono rfl) _ _

theorem State.pilotCheck_kept (s : State) : Kept [.po, .eng, .mdl, .chg, .ldg, .reg .FEn_EVT, .reg .FEn_WDCNT, .reg .CHG_STATE,
    .reg .CHG_ILIM, .reg .CHG_EVT, .reg .LDG_EVT, .reg .LDG_WQSTAT, .reg .LDG_PNf] s (State.pilotCheck s) := by
  unfold State.pilotCheck
  try dsimp only
  repeat' first
    | with_reducible exact .refl _ _ | with_reducible assumption | with_reducible refine .ite ?_ ?_
    | with_reducible apply Kept.via (State.chgEnd_kept ..) | with_reducible apply Kept.via (State.chgEndHard_kept ..)
    | exact rfl

theorem execPilotClassAccepted_kept (periods : List PilotPer) (level : Int) (held : Nat) (s : State) : KeptOut [.po, .eng,
    .mdl, .chg, .ldg, .reg .FEn_EVT, .reg .FEn_WDCNT, .reg .CHG_STATE, .reg .CHG_PILOT, .reg .CHG_ILIM, .reg .CHG_EVT, .reg
    .LDG_EVT, .reg .LDG_WQSTAT, .reg .LDG_PNf] s (execPilotClassAccepted periods level held s) := by
  unfold execPilotClassAccepted
  repeat' first
    | with_reducible apply KeptOut.next | with_reducible apply KeptOut.ite | with_reducible exact .refl _ _
    | with_reducible assumption | with_reducible refine .ite ?_ ?_
    | with_reducible apply Kept.via (State.setFlag_kept (.CHG_EVT) ..)
    | with_reducible apply Kept.via (State.setFld_kept (.CHG_PILOT) ..) | with_reducible apply Kept.via (State.updCh_kept ..)
    | with_reducible apply Kept.via (State.limitsChanged_kept ..) | with_reducible apply Kept.via (State.pilotCheck_kept ..)
    | exact rfl

theorem execProximityCodeAccepted_kept (ohms : Nat) (s : State) : KeptOut [.po, .eng, .mdl, .chg, .ldg, .reg .FEn_EVT, .reg
    .FEn_WDCNT, .reg .CHG_STATE, .reg .CHG_PILOT, .reg .CHG_ILIM, .reg .CHG_EVT, .reg .LDG_EVT, .reg .LDG_WQSTAT, .reg
    .LDG_PNf] s (execProximityCodeAccepted ohms s) := by
  unfold execProximityCodeAccepted
  repeat' first
    | with_reducible apply KeptOut.next | with_reducible apply KeptOut.ite | with_reducible exact .refl _ _
    | with_reducible assumption | with_reducible refine .ite ?_ ?_
    | with_reducible apply Kept.via (State.setFlag_kept (.CHG_EVT) ..)
    | with_reducible apply Kept.via (State.setFld_kept (.CHG_PILOT) ..) | with_reducible apply Kept.via (State.hwMove_kept ..)
    | with_reducible apply Kept.via (State.chgEndHard_kept ..) | with_reducible apply Kept.via (State.limitsChanged_kept ..)
    | exact rfl | split

theorem execInvalidPilotTimeout_kept (s : State) : KeptOut [.po, .eng, .mdl, .chg, .ldg, .reg .FEn_EVT, .reg .FEn_WDCNT, .reg
    .CHG_STATE, .reg .CHG_ILIM, .reg .CHG_EVT, .reg .LDG_EVT, .reg .LDG_WQSTAT, .reg .LDG_PNf] s (execInvalidPilotTimeout s) :=
    by
  unfold execInvalidPilotTimeout
  repeat' first
    | with_reducible apply KeptOut.next | with_reducible apply KeptOut.ite | with_reducible exact .refl _ _
    | with_reducible assumption | with_reducible refine .ite ?_ ?_ | with_reducible apply Kept.via (State.chgEndHard_kept ..)
    | exact rfl

theorem execPilotDiodeFault_kept (s : State) : KeptOut [.po, .eng, .mdl, .chg, .ldg, .ssm, .reg .FEn_EVT, .reg .FEn_WDCNT, .reg
    .CHG_ILIM, .reg .CHG_FLT, .reg .CHG_EVT, .reg .LDG_EVT, .reg .LDG_WQSTAT, .reg .LDG_PNf] s (execPilotDiodeFault s) := by
  unfold execPilotDiodeFault
  repeat' first
    | with_reducible apply KeptOut.next | with_reducible apply KeptOut.ite | with_reducible exact .refl _ _
    | with_reducible assumption | with_reducible refine .ite ?_ ?_ | with_reducible apply Kept.via (State.chgFail_kept ..)
    | exact rfl

theorem execContactorFeedbackChange_kept (closed : Bool) (s : State) : KeptOut [.chg, .reg .CHG_STATE, .reg .CHG_EVT] s
    (execContactorFeedbackChange closed s) := by
  unfold execContactorFeedbackChange
  repeat' first
    | with_reducible apply KeptOut.next | with_reducible apply KeptOut.ite | with_reducible exact .refl _ _
    | with_reducible assumption | with_reducible refine .ite ?_ ?_ | with_reducible apply Kept.via (State.chgSetPhase_kept ..)
    | with_reducible apply Kept.via (State.updCh_kept ..) | exact rfl

theorem execPrechargeTimeout_kept (s : State) : KeptOut [.po, .eng, .mdl, .chg, .ldg, .ssm, .reg .FEn_EVT, .reg .FEn_WDCNT,
    .reg .CHG_ILIM, .reg .CHG_FLT, .reg .CHG_EVT, .reg .LDG_EVT, .reg .LDG_WQSTAT, .reg .LDG_PNf] s (execPrechargeTimeout s) :=
    by
  unfold execPrechargeTimeout
  repeat' first
    | with_reducible apply KeptOut.next | with_reducible apply KeptOut.ite | with_reducible exact .refl _ _
    | with_reducible assumption | with_reducible refine .ite ?_ ?_ | with_reducible apply Kept.via (State.chgFail_kept ..)
    | exact rfl

theorem execContactorTimeout_kept (s : State) : KeptOut [.po, .eng, .mdl, .chg, .ldg, .ssm, .reg .FEn_EVT, .reg .FEn_WDCNT,
    .reg .CHG_ILIM, .reg .CHG_FLT, .reg .CHG_EVT, .reg .LDG_EVT, .reg .LDG_WQSTAT, .reg .LDG_PNf] s (execContactorTimeout s) :=
    by
  unfold execContactorTimeout
  repeat' first
    | with_reducible apply KeptOut.next | with_reducible apply KeptOut.ite | with_reducible exact .refl _ _
    | with_reducible assumption | with_reducible refine .ite ?_ ?_ | with_reducible apply Kept.via (State.chgFail_kept ..)
    | exact rfl

theorem State.gridSense_kept (s : State) (g : GridIn) : Kept [.chg] s (State.gridSense s g) := by
  unfold State.gridSense
  try dsimp only
  repeat' first
    | with_reducible exact .refl _ _ | with_reducible assumption | with_reducible refine .ite ?_ ?_
    | with_reducible apply Kept.via (State.updCh_kept ..) | exact rfl

theorem execGridReady_kept (g : GridIn) (s : State) : KeptOut [.chg, .reg .CHG_STATE, .reg .CHG_ILIM, .reg .CHG_EVT] s
    (execGridReady g s) := by
  unfold execGridReady
  repeat' first
    | with_reducible apply KeptOut.next | with_reducible apply KeptOut.ite | with_reducible exact .refl _ _
    | with_reducible assumption | with_reducible refine .ite ?_ ?_ | with_reducible apply Kept.via (State.chgSetPhase_kept ..)
    | with_reducible apply Kept.via (State.updCh_kept ..) | with_reducible apply Kept.via (State.searchStart_kept ..)
    | with_reducible apply Kept.via (State.gridSense_kept ..) | with_reducible refine .foldl (fun _ _ => ?_) ?_ | exact rfl

theorem execGridWaitTimeout_kept (s : State) : KeptOut [.po, .chg, .reg .CHG_STATE, .reg .CHG_ILIM, .reg .CHG_EVT] s
    (execGridWaitTimeout s) := by
  unfold execGridWaitTimeout
  repeat' first
    | with_reducible apply KeptOut.next | with_reducible apply KeptOut.ite | with_reducible exact .refl _ _
    | with_reducible assumption | with_reducible refine .ite ?_ ?_ | with_reducible apply Kept.via (State.chgEnd_kept ..)
    | exact rfl

theorem execSearchStep_kept (g : GridIn) (s : State) : KeptOut [.chg, .reg .CHG_STATE, .reg .CHG_ILIM, .reg .CHG_EVT] s
    (execSearchStep g s) := by
  unfold execSearchStep
  repeat' first
    | with_reducible apply KeptOut.next | with_reducible apply KeptOut.ite | with_reducible exact .refl _ _
    | with_reducible assumption | with_reducible refine .ite ?_ ?_ | with_reducible apply Kept.via (State.updCh_kept ..)
    | with_reducible apply Kept.via (State.showLimit_kept ..) | with_reducible apply Kept.via (State.searchEnd_kept ..)
    | with_reducible apply Kept.via (State.gridSense_kept ..) | exact rfl

theorem execSearchRepeat_kept (s : State) : KeptOut [.chg, .reg .CHG_ILIM, .reg .CHG_EVT] s (execSearchRepeat s) := by
  unfold execSearchRepeat
  repeat' first
    | with_reducible apply KeptOut.next | with_reducible apply KeptOut.ite | with_reducible exact .refl _ _
    | with_reducible assumption | with_reducible refine .ite ?_ ?_ | with_reducible apply Kept.via (State.searchStart_kept ..)
    | exact rfl

theorem execBusRegulationTick_kept (g : GridIn) (s : State) : KeptOut [.chg] s (execBusRegulationTick g s) := by
  unfold execBusRegulationTick
  repeat' first
    | with_reducible apply KeptOut.next | with_reducible apply KeptOut.ite | with_reducible exact .refl _ _
    | with_reducible assumption | with_reducible refine .ite ?_ ?_ | with_reducible apply Kept.via (State.updCh_kept ..)
    | with_reducible apply Kept.via (State.chgFlag_kept ..) | with_reducible apply Kept.via (State.gridSense_kept ..)
    | exact rfl

theorem execTermination_kept (s : State) : KeptOut [.po, .chg, .reg .CHG_STATE, .reg .CHG_ILIM, .reg .CHG_EVT] s
    (execTermination s) := by
  unfold execTermination
  repeat' first
    | with_reducible apply KeptOut.next | with_reducible apply KeptOut.ite | with_reducible exact .refl _ _
    | with_reducible assumption | with_reducible refine .ite ?_ ?_ | with_reducible apply Kept.via (State.chgEnd_kept ..)
    | exact rfl

theorem execCcTimerExpiry_kept (s : State) : KeptOut [.po, .eng, .mdl, .chg, .ldg, .ssm, .reg .FEn_EVT, .reg .FEn_WDCNT, .reg
    .CHG_ILIM, .reg .CHG_FLT, .reg .CHG_EVT, .reg .LDG_EVT, .reg .LDG_WQSTAT, .reg .LDG_PNf] s (execCcTimerExpiry s) := by
  unfold execCcTimerExpiry
  repeat' first
    | with_reducible apply KeptOut.next | with_reducible apply KeptOut.ite | with_reducible exact .refl _ _
    | with_reducible assumption | with_reducible refine .ite ?_ ?_ | with_reducible apply Kept.via (State.chgFail_kept ..)
    | exact rfl

theorem execSessionCapExpiry_kept (s : State) : KeptOut [.po, .eng, .mdl, .chg, .ldg, .ssm, .reg .FEn_EVT, .reg .FEn_WDCNT,
    .reg .CHG_STATE, .reg .CHG_ILIM, .reg .CHG_FLT, .reg .CHG_EVT, .reg .LDG_EVT, .reg .LDG_WQSTAT, .reg .LDG_PNf] s
    (execSessionCapExpiry s) := by
  unfold execSessionCapExpiry
  repeat' first
    | with_reducible apply KeptOut.next | with_reducible apply KeptOut.ite | with_reducible exact .refl _ _
    | with_reducible assumption | with_reducible refine .ite ?_ ?_ | with_reducible apply Kept.via (State.chgFail_kept ..)
    | with_reducible apply Kept.via (State.chgEnd_kept ..) | exact rfl

theorem execBmsTemperatureExpiry_kept (s : State) : KeptOut [.po, .chg, .reg .CHG_STATE, .reg .CHG_ILIM, .reg .CHG_EVT] s
    (execBmsTemperatureExpiry s) := by
  unfold execBmsTemperatureExpiry
  repeat' first
    | with_reducible apply KeptOut.next | with_reducible apply KeptOut.ite | with_reducible exact .refl _ _
    | with_reducible assumption | with_reducible refine .ite ?_ ?_ | with_reducible apply Kept.via (State.updCh_kept ..)
    | with_reducible apply Kept.via (State.chgEnd_kept ..) | exact rfl

theorem execOutputFault_kept (cause : Nat) (s : State) : KeptOut [.po, .eng, .mdl, .chg, .ldg, .ssm, .reg .FEn_EVT, .reg
    .FEn_WDCNT, .reg .CHG_ILIM, .reg .CHG_FLT, .reg .CHG_EVT, .reg .LDG_EVT, .reg .LDG_WQSTAT, .reg .LDG_PNf] s
    (execOutputFault cause s) := by
  unfold execOutputFault
  repeat' first
    | with_reducible apply KeptOut.next | with_reducible apply KeptOut.ite | with_reducible exact .refl _ _
    | with_reducible assumption | with_reducible refine .ite ?_ ?_ | with_reducible apply Kept.via (State.chgFail_kept ..)
    | exact rfl

theorem execGridTrip_kept (g : GridIn) (s : State) : KeptOut [.po, .eng, .mdl, .chg, .ldg, .reg .FEn_EVT, .reg .FEn_WDCNT, .reg
    .CHG_STATE, .reg .CHG_ILIM, .reg .CHG_EVT, .reg .LDG_EVT, .reg .LDG_WQSTAT, .reg .LDG_PNf] s (execGridTrip g s) := by
  unfold execGridTrip
  repeat' first
    | with_reducible apply KeptOut.next | with_reducible apply KeptOut.ite | with_reducible exact .refl _ _
    | with_reducible assumption | with_reducible refine .ite ?_ ?_ | with_reducible apply Kept.via (State.chgEndHard_kept ..)
    | with_reducible apply Kept.via (State.gridSense_kept ..) | exact rfl

theorem execIslandOverload_kept (s : State) : KeptOut [.po, .eng, .mdl, .chg, .ldg, .ssm, .reg .FEn_EVT, .reg .FEn_WDCNT, .reg
    .CHG_ILIM, .reg .CHG_FLT, .reg .CHG_EVT, .reg .LDG_EVT, .reg .LDG_WQSTAT, .reg .LDG_PNf] s (execIslandOverload s) := by
  unfold execIslandOverload
  repeat' first
    | with_reducible apply KeptOut.next | with_reducible apply KeptOut.ite | with_reducible exact .refl _ _
    | with_reducible assumption | with_reducible refine .ite ?_ ?_ | with_reducible apply Kept.via (State.chgFail_kept ..)
    | exact rfl

theorem State.chgGearCheck_kept (s : State) : Kept [.po, .eng, .mdl, .chg, .ldg, .ssm, .reg .FEn_EVT, .reg .FEn_WDCNT, .reg
    .CHG_ILIM, .reg .CHG_FLT, .reg .CHG_EVT, .reg .LDG_EVT, .reg .LDG_WQSTAT, .reg .LDG_PNf] s (State.chgGearCheck s) := by
  unfold State.chgGearCheck
  try dsimp only
  repeat' first
    | with_reducible exact .refl _ _ | with_reducible assumption | with_reducible refine .ite ?_ ?_
    | with_reducible apply Kept.via (State.chgFail_kept ..) | with_reducible apply Kept.via (State.windStop_kept ..)
    | exact rfl

theorem execRampdownEnd_kept (s : State) : KeptOut [.mdl, .chg, .ldg] s (execRampdownEnd s) := by
  unfold execRampdownEnd
  repeat' first
    | with_reducible apply KeptOut.next | with_reducible apply KeptOut.ite | with_reducible exact .refl _ _
    | with_reducible assumption | with_reducible refine .ite ?_ ?_ | with_reducible apply Kept.via (State.fnOff_kept ..)
    | with_reducible apply Kept.via (State.updCh_kept ..) | with_reducible refine .each (fun _ _ => ?_) ?_ | exact rfl

theorem execAcContactorOpen_kept (s : State) : KeptOut [.chg] s (execAcContactorOpen s) := by
  unfold execAcContactorOpen
  repeat' first
    | with_reducible apply KeptOut.next | with_reducible apply KeptOut.ite | with_reducible exact .refl _ _
    | with_reducible assumption | with_reducible refine .ite ?_ ?_ | with_reducible apply Kept.via (State.updCh_kept ..)
    | exact rfl

theorem execChargerStopComplete_kept (s : State) : KeptOut [.po, .chg, .reg .CHG_STATE, .reg .CHG_ILIM, .reg .CHG_EVT] s
    (execChargerStopComplete s) := by
  unfold execChargerStopComplete
  repeat' first
    | with_reducible apply KeptOut.next | with_reducible apply KeptOut.ite | with_reducible exact .refl _ _
    | with_reducible assumption | with_reducible refine .ite ?_ ?_ | with_reducible apply Kept.via (State.hwMove_kept ..)
    | with_reducible apply Kept.via (State.finishOp_kept ..) | with_reducible apply Kept.via (State.chgSetPhase_kept ..)
    | with_reducible apply Kept.via (State.updCh_kept ..) | with_reducible apply Kept.via (State.showLimit_kept ..) | exact rfl

theorem specTransport_kept  (s : State) (m : Msg) (k : Nat) : Kept [.nvs, .rst, .reg .NVS_STATE] s (specTransport.run s m k).1
    := by
  unfold specTransport
  lift_lets
  repeat'
    intro x
    first
    | have hx : Kept [.nvs, .rst, .reg .NVS_STATE] None x := by
        dsimp only [x]
        repeat' first
          | with_reducible exact .refl _ _ | with_reducible assumption | with_reducible refine .ite ?_ ?_
          | with_reducible apply Kept.via (doneWith_kept ..) | with_reducible apply Kept.via (doneWith_kept_eq (by assumption))
          | with_reducible apply Kept.via (State.journalFlush_kept ..) | with_reducible refine .update rfl rfl rfl ?_ ?_
          | (intro p; cases p <;> first | exact .inl (List.mem_of_elem_eq_true rfl) | exact .inr rfl | exact .inr True.intro)
          | exact rfl | split | dsimp only
      clear_value x
    | skip
  repeat' first
    | with_reducible exact .refl _ _ | with_reducible assumption | with_reducible refine .ite ?_ ?_
    | with_reducible apply Kept.via (doneWith_kept ..) | with_reducible apply Kept.via (doneWith_kept_eq (by assumption))
    | with_reducible apply Kept.via (State.journalFlush_kept ..) | with_reducible refine .update rfl rfl rfl ?_ ?_
    | (intro p; cases p <;> first | exact .inl (List.mem_of_elem_eq_true rfl) | exact .inr rfl | exact .inr True.intro)
    | exact rfl | split | dsimp only

theorem execTransport_kept (m : Msg) (s : State) : KeptOut (Part.receipt [.rst, .reg .PST_OUTST, .reg .PST_MERR_CODE, .reg
    .NVS_STATE]) s (execTransport m s) := by
  unfold execTransport
  repeat' first
    | with_reducible apply KeptOut.next | with_reducible exact .refl _ _
    | with_reducible apply deliver_kept rfl (fun s m k => (specTransport_kept s m k).mono rfl) _ _ | exact rfl | dsimp only
    | intro _

theorem execTransportEntry_kept (s : State) : KeptOut [.rst] s (execTransportEntry s) := by
  unfold execTransportEntry
  repeat' first
    | with_reducible apply KeptOut.next | with_reducible apply KeptOut.ite | with_reducible exact .refl _ _
    | with_reducible assumption | with_reducible refine .ite ?_ ?_
    | (intro p; cases p <;> first | exact .inl (List.mem_of_elem_eq_true rfl) | exact .inr rfl | exact .inr True.intro) | split
    | dsimp only | with_reducible refine .update rfl rfl rfl ?_ ?_

end Sys2Proof.Machine
end

