-- ==== Sys2Proof/Laws/KeptActuator.lean ====
section
/-!
SUPPORT. The frame of each operation of Sys2Proof/Machine/Actuator.lean: the parts of the state that it can change.
-/
namespace Sys2Proof.Machine
set_option Elab.async false

theorem State.setAcPhase_kept (s : State) (k p : Nat) : Kept [.reg .ACk_STATE] s (State.setAcPhase s k p) := by
  unfold State.setAcPhase
  try dsimp only
  repeat' first
    | with_reducible exact .refl _ _ | with_reducible apply Kept.via (State.setFld_kept (.ACk_STATE _) ..) | exact rfl

theorem State.acEvt_kept (s : State) (k : Nat) (f : Fld) : Kept [.reg .ACk_EVT] s (State.acEvt s k f) := by
  unfold State.acEvt
  try dsimp only
  repeat' first
    | with_reducible exact .refl _ _ | with_reducible apply Kept.via (State.setFlag_kept (.ACk_EVT _) ..) | exact rfl

theorem State.acFlag_kept (s : State) (k bit : Nat) : Kept [.act] s (State.acFlag s k bit) := by
  unfold State.acFlag
  try dsimp only
  repeat' first
    | with_reducible exact .refl _ _ | with_reducible assumption | with_reducible refine .ite ?_ ?_
    | with_reducible apply Kept.via (State.updAc_kept ..) | exact rfl

theorem State.syncActLatch_kept (s : State) : Kept [.reg .ACT_STAT, .reg .ACk_LATCH] s (State.syncActLatch s) := by
  unfold State.syncActLatch
  try dsimp only
  repeat' first
    | with_reducible exact .refl _ _ | with_reducible assumption
    | with_reducible apply Kept.via (State.setFld_kept (.ACT_STAT) ..)
    | with_reducible apply Kept.via (State.setFld_kept (.ACk_LATCH _) ..) | with_reducible refine .each (fun _ _ => ?_) ?_
    | with_reducible refine .foldl (fun _ _ => ?_) ?_ | exact rfl

theorem State.acOff_kept (s : State) (k : Nat) : Kept [.act, .reg .ACk_STATE] s (State.acOff s k) := by
  unfold State.acOff
  try dsimp only
  repeat' first
    | with_reducible exact .refl _ _ | with_reducible assumption | with_reducible apply Kept.via (State.updAc_kept ..)
    | with_reducible apply Kept.via (State.setAcPhase_kept ..) | exact rfl

theorem State.acEnter_kept (s : State) (k p : Nat) : Kept [.act, .reg .ACk_STATE] s (State.acEnter s k p) := by
  unfold State.acEnter
  try dsimp only
  repeat' first
    | with_reducible exact .refl _ _ | with_reducible assumption | with_reducible apply Kept.via (State.updAc_kept ..)
    | with_reducible apply Kept.via (State.setAcPhase_kept ..) | exact rfl

theorem State.acStop_kept (s : State) (k : Nat) : Kept [.act, .reg .ACk_STATE] s (State.acStop s k) := by
  unfold State.acStop
  try dsimp only
  repeat' first
    | with_reducible exact .refl _ _ | with_reducible assumption | with_reducible refine .ite ?_ ?_
    | with_reducible apply Kept.via (State.updAc_kept ..) | with_reducible apply Kept.via (State.acOff_kept ..) | exact rfl

theorem State.gbxFail_kept (s : State) (c : Nat) : Kept [.po, .act, .gbx, .ldg, .reg .ACk_STATE, .reg .GBX_EVT, .reg .GBX_FLT]
    s (State.gbxFail s c) := by
  unfold State.gbxFail
  try dsimp only
  repeat' first
    | with_reducible exact .refl _ _ | with_reducible assumption | with_reducible refine .ite ?_ ?_
    | with_reducible apply Kept.via (State.setBit_kept (.GBX_FLT) ..)
    | with_reducible apply Kept.via (State.setFlag_kept (.GBX_EVT) ..) | with_reducible apply Kept.via (State.hwFault_kept ..)
    | with_reducible apply Kept.via (State.hwMove_kept ..) | with_reducible apply Kept.via (State.updAc_kept ..)
    | with_reducible apply Kept.via (State.updGb_kept ..) | with_reducible apply Kept.via (State.acStop_kept ..)
    | with_reducible refine .each (fun _ _ => ?_) ?_
    | (intro p; cases p <;> first | exact .inl (List.mem_of_elem_eq_true rfl) | exact .inr rfl | exact .inr True.intro)
    | exact rfl | split | dsimp only | with_reducible refine .update rfl rfl rfl ?_ ?_

theorem State.actFail_kept (s : State) (k c pos : Nat) (framed : Bool) : Kept [.po, .act, .gbx, .ldg, .ssm, .tick, .reg
    .ACk_STATE, .reg .ACk_EVT, .reg .ACk_FLT, .reg .GBX_EVT, .reg .GBX_FLT] s (State.actFail s k c pos framed) := by
  unfold State.actFail
  try dsimp only
  repeat' first
    | with_reducible exact .refl _ _ | with_reducible assumption | with_reducible refine .ite ?_ ?_
    | with_reducible apply Kept.via (State.setBit_kept (.ACk_FLT _) ..)
    | with_reducible apply Kept.via (State.setFld_kept (.ACk_STATE _) ..)
    | with_reducible apply Kept.via (State.hwFault_kept ..) | with_reducible apply Kept.via (State.updAc_kept ..)
    | with_reducible apply Kept.via (State.draw_kept ..) | with_reducible apply Kept.via (State.draw_kept_eq (by assumption))
    | with_reducible apply Kept.via (State.sendFrame_kept ..) | with_reducible apply Kept.via (State.acEvt_kept ..)
    | with_reducible apply Kept.via (State.acOff_kept ..) | with_reducible apply Kept.via (State.gbxFail_kept ..) | exact rfl

theorem State.latchAct_kept (s : State) (n c : Nat) : Kept [.po, .act, .gbx, .ldg, .ssm, .pads, .tick, .reg .ACT_STAT, .reg
    .ACk_STATE, .reg .ACk_EVT, .reg .ACk_FLT, .reg .ACk_LATCH, .reg .GBX_EVT, .reg .GBX_FLT] s (s.latchAct n c) := by
  unfold State.latchAct
  split
  · exact .refl _ _
  · extract_lets +onlyGivenNames p s1
    have k : Kept [.po, .act, .gbx, .ldg, .ssm, .pads, .tick, .reg .ACT_STAT, .reg .ACk_STATE, .reg .ACk_EVT, .reg .ACk_FLT, .reg .ACk_LATCH, .reg .GBX_EVT, .reg .GBX_FLT] s s1 := .via (State.syncActLatch_kept ..) rfl (.via (Part.pads_kept s _) rfl (.refl _ s))
    clear_value s1
    exact .via (State.actFail_kept _ _ _ _ _) rfl (.via (State.sendFrame_kept ..) rfl (.via (State.acOff_kept ..) rfl k))

theorem State.acBegin_kept (s : State) (k : Nat) (goal : Int) (lim : Nat) (hold : Bool) : Kept [.act, .reg .ACk_STATE] s
    (State.acBegin s k goal lim hold) := by
  unfold State.acBegin
  try dsimp only
  repeat' first
    | with_reducible exact .refl _ _ | with_reducible assumption
    | with_reducible apply Kept.via (State.setFld_kept (.ACk_STATE _) ..) | with_reducible apply Kept.via (State.updAc_kept ..)
    | with_reducible apply Kept.via (State.acEnter_kept ..) | exact rfl

theorem State.acSpeed_kept (s : State) (k : Nat) (goal : Int) (lim : Nat) : Kept [.act] s (State.acSpeed s k goal lim) := by
  unfold State.acSpeed
  try dsimp only
  repeat' first
    | with_reducible exact .refl _ _ | with_reducible assumption | with_reducible apply Kept.via (State.updAc_kept ..)
    | exact rfl

theorem State.acAim_kept (s : State) (k : Nat) (goal : Int) (lim : Nat) (hold now : Bool) : Kept [.units, .act, .reg
    .ACk_STATE] s (State.acAim s k goal lim hold now) := by
  unfold State.acAim
  try dsimp only
  repeat' first
    | with_reducible exact .refl _ _ | with_reducible assumption | with_reducible refine .ite ?_ ?_
    | with_reducible apply Kept.via (State.setUst_kept ..) | with_reducible apply Kept.via (State.updAc_kept ..)
    | with_reducible apply Kept.via (State.acEnter_kept ..) | with_reducible apply Kept.via (State.acBegin_kept ..)
    | with_reducible apply Kept.via (State.acSpeed_kept ..) | exact rfl

theorem State.acRun_kept (s : State) (k : Nat) (rpm : Int) : Kept [.po, .act, .reg .ACk_STATE, .reg .ACk_EVT] s (State.acRun s
    k rpm) := by
  unfold State.acRun
  try dsimp only
  repeat' first
    | with_reducible exact .refl _ _ | with_reducible assumption | with_reducible apply Kept.via (State.finishOp_kept ..)
    | with_reducible apply Kept.via (State.updAc_kept ..) | with_reducible apply Kept.via (State.acEvt_kept ..)
    | with_reducible apply Kept.via (State.acEnter_kept ..) | exact rfl

theorem State.acAttemptFail_kept (s : State) (k : Nat) : Kept [.po, .act, .gbx, .ldg, .ssm, .tick, .reg .ACk_STATE, .reg
    .ACk_EVT, .reg .ACk_FLT, .reg .GBX_EVT, .reg .GBX_FLT] s (State.acAttemptFail s k) := by
  unfold State.acAttemptFail
  try dsimp only
  repeat' first
    | with_reducible exact .refl _ _ | with_reducible assumption | with_reducible refine .ite ?_ ?_
    | with_reducible apply Kept.via (State.updAc_kept ..) | with_reducible apply Kept.via (State.acEvt_kept ..)
    | with_reducible apply Kept.via (State.acOff_kept ..) | with_reducible apply Kept.via (State.actFail_kept ..) | exact rfl

theorem State.leakStart_kept (s : State) (k why : Nat) : Kept [.act] s (State.leakStart s k why) := by
  unfold State.leakStart
  try dsimp only
  repeat' first
    | with_reducible exact .refl _ _ | with_reducible assumption | with_reducible refine .ite ?_ ?_
    | with_reducible apply Kept.via (State.updAc_kept ..) | exact rfl

theorem specActArm_kept  (s : State) (m : Msg) (k : Nat) : Kept [.act] s (specActArm.run s m k).1 := by
  unfold specActArm
  try dsimp only
  repeat' first
    | with_reducible exact .refl _ _ | with_reducible assumption | with_reducible refine .ite ?_ ?_
    | with_reducible apply Kept.via (acceptedWith_kept ..)
    | with_reducible apply Kept.via (acceptedWith_kept_eq (by assumption))
    | with_reducible apply Kept.via (State.leakStart_kept ..) | exact rfl

theorem specActRun_kept  (s : State) (m : Msg) (k : Nat) : Kept [.units, .act, .reg .ACk_STATE] s (specActRun.run s m k).1 := by
  unfold specActRun
  try dsimp only
  repeat' first
    | with_reducible exact .refl _ _ | with_reducible assumption | with_reducible refine .ite ?_ ?_
    | with_reducible apply Kept.via (State.setUst_kept ..) | with_reducible apply Kept.via (acceptedWith_kept ..)
    | with_reducible apply Kept.via (acceptedWith_kept_eq (by assumption))
    | with_reducible apply Kept.via (State.acBegin_kept ..) | exact rfl

theorem specActSpeed_kept  (s : State) (m : Msg) (k : Nat) : Kept [.act] s (specActSpeed.run s m k).1 := by
  unfold specActSpeed
  try dsimp only
  repeat' first
    | with_reducible exact .refl _ _ | with_reducible assumption | with_reducible refine .ite ?_ ?_
    | with_reducible apply Kept.via (doneWith_kept ..) | with_reducible apply Kept.via (doneWith_kept_eq (by assumption))
    | with_reducible apply Kept.via (State.acSpeed_kept ..) | exact rfl

theorem specActStop_kept  (s : State) (m : Msg) (k : Nat) : Kept [.units, .act, .reg .ACk_STATE] s (specActStop.run s m k).1 :=
    by
  unfold specActStop
  try dsimp only
  repeat' first
    | with_reducible exact .refl _ _ | with_reducible assumption | with_reducible apply Kept.via (State.setUst_kept ..)
    | with_reducible apply Kept.via (acceptedWith_kept ..)
    | with_reducible apply Kept.via (acceptedWith_kept_eq (by assumption))
    | with_reducible apply Kept.via (State.acStop_kept ..) | exact rfl

theorem specActDisarm_kept  (s : State) (m : Msg) (k : Nat) : Kept [.units] s (specActDisarm.run s m k).1 := by
  unfold specActDisarm
  try dsimp only
  repeat' first
    | with_reducible exact .refl _ _ | with_reducible assumption | with_reducible apply Kept.via (State.setUst_kept ..)
    | with_reducible apply Kept.via (doneWith_kept ..) | with_reducible apply Kept.via (doneWith_kept_eq (by assumption))
    | exact rfl

theorem specActClear_kept  (s : State) (m : Msg) (k : Nat) : Kept [.units, .eng, .mdl, .act, .ldg, .ssm, .reg .FEn_EVT, .reg
    .FEn_WDCNT, .reg .ACk_STATE, .reg .LDG_EVT, .reg .LDG_WQSTAT, .reg .LDG_PNf, .reg .SSM_STATE, .reg .SSM_PAT0, .reg
    .SSM_PAT1, .reg .SSM_PATX] s (specActClear.run s m k).1 := by
  unfold specActClear
  try dsimp only
  repeat' first
    | with_reducible exact .refl _ _ | with_reducible assumption | with_reducible refine .ite ?_ ?_
    | with_reducible apply Kept.via (State.setFld_kept (.ACk_STATE _) ..)
    | with_reducible apply Kept.via (State.setUst_kept ..) | with_reducible apply Kept.via (State.updAc_kept ..)
    | with_reducible apply Kept.via (doneWith_kept ..) | with_reducible apply Kept.via (doneWith_kept_eq (by assumption))
    | with_reducible apply Kept.via (State.ssmFreeAct_kept ..) | exact rfl

theorem specActLeaktest_kept  (s : State) (m : Msg) (k : Nat) : Kept [.act] s (specActLeaktest.run s m k).1 := by
  unfold specActLeaktest
  try dsimp only
  repeat' first
    | with_reducible exact .refl _ _ | with_reducible assumption | with_reducible refine .ite ?_ ?_
    | with_reducible apply Kept.via (acceptedWith_kept ..)
    | with_reducible apply Kept.via (acceptedWith_kept_eq (by assumption))
    | with_reducible apply Kept.via (State.leakStart_kept ..) | exact rfl

theorem execActArm_kept (m : Msg) (s : State) : KeptOut (Part.receipt [.act, .reg .PST_OUTST, .reg .PST_MERR_CODE]) s
    (execActArm m s) := by
  unfold execActArm
  repeat' first
    | with_reducible apply KeptOut.next | with_reducible exact .refl _ _
    | with_reducible apply deliver_kept rfl (fun s m k => (specActArm_kept s m k).mono rfl) _ _

theorem execActRun_kept (m : Msg) (s : State) : KeptOut (Part.receipt [.units, .act, .reg .PST_OUTST, .reg .PST_MERR_CODE, .reg
    .ACk_STATE]) s (execActRun m s) := by
  unfold execActRun
  repeat' first
    | with_reducible apply KeptOut.next | with_reducible exact .refl _ _
    | with_reducible apply deliver_kept rfl (fun s m k => (specActRun_kept s m k).mono rfl) _ _

theorem execActSpeed_kept (m : Msg) (s : State) : KeptOut (Part.receipt [.act, .reg .PST_OUTST, .reg .PST_MERR_CODE]) s
    (execActSpeed m s) := by
  unfold execActSpeed
  repeat' first
    | with_reducible apply KeptOut.next | with_reducible exact .refl _ _
    | with_reducible apply deliver_kept rfl (fun s m k => (specActSpeed_kept s m k).mono rfl) _ _

theorem execActStop_kept (m : Msg) (s : State) : KeptOut (Part.receipt [.units, .act, .reg .PST_OUTST, .reg .PST_MERR_CODE,
    .reg .ACk_STATE]) s (execActStop m s) := by
  unfold execActStop
  repeat' first
    | with_reducible apply KeptOut.next | with_reducible exact .refl _ _
    | with_reducible apply deliver_kept rfl (fun s m k => (specActStop_kept s m k).mono rfl) _ _

theorem execActDisarm_kept (m : Msg) (s : State) : KeptOut (Part.receipt [.units, .reg .PST_OUTST, .reg .PST_MERR_CODE]) s
    (execActDisarm m s) := by
  unfold execActDisarm
  repeat' first
    | with_reducible apply KeptOut.next | with_reducible exact .refl _ _
    | with_reducible apply deliver_kept rfl (fun s m k => (specActDisarm_kept s m k).mono rfl) _ _

theorem execActClear_kept (m : Msg) (s : State) : KeptOut (Part.receipt [.units, .eng, .mdl, .act, .ldg, .ssm, .reg .PST_OUTST,
    .reg .PST_MERR_CODE, .reg .FEn_EVT, .reg .FEn_WDCNT, .reg .ACk_STATE, .reg .LDG_EVT, .reg .LDG_WQSTAT, .reg .LDG_PNf, .reg
    .SSM_STATE, .reg .SSM_PAT0, .reg .SSM_PAT1, .reg .SSM_PATX]) s (execActClear m s) := by
  unfold execActClear
  repeat' first
    | with_reducible apply KeptOut.next | with_reducible exact .refl _ _
    | with_reducible apply deliver_kept rfl (fun s m k => (specActClear_kept s m k).mono rfl) _ _

theorem execActLeaktest_kept (m : Msg) (s : State) : KeptOut (Part.receipt [.act, .reg .PST_OUTST, .reg .PST_MERR_CODE]) s
    (execActLeaktest m s) := by
  unfold execActLeaktest
  repeat' first
    | with_reducible apply KeptOut.next | with_reducible exact .refl _ _
    | with_reducible apply deliver_kept rfl (fun s m k => (specActLeaktest_kept s m k).mono rfl) _ _

theorem State.acApply_kept (s : State) (k : Nat) (m : ActIn) (th : Nat) (v : Vec) : Kept [.act, .reg .ACk_EVT] s (State.acApply
    s k m th v).1 := by
  unfold State.acApply
  try dsimp only
  repeat' first
    | with_reducible exact .refl _ _ | with_reducible assumption | with_reducible refine .ite ?_ ?_
    | with_reducible apply Kept.via (State.updAc_kept ..) | with_reducible apply Kept.via (State.acEvt_kept ..)
    | with_reducible apply Kept.via (State.acFlag_kept ..) | exact rfl
theorem State.acApply_kept_eq {s : State} {k : Nat} {m : ActIn} {th : Nat} {v : Vec} {r_} {x_} (h : State.acApply s k m th v =
    (r_, x_)) : Kept [.act, .reg .ACk_EVT] s r_ := by
  have k := State.acApply_kept s k m th v
  rw [h] at k
  exact k

theorem State.acVolts_kept (s : State) : Kept [.tick] s (State.acVolts s).2 := by
  unfold State.acVolts
  try dsimp only
  repeat' first
    | with_reducible exact .refl _ _ | with_reducible apply Kept.via (State.draw_kept ..)
    | with_reducible apply Kept.via (State.draw_kept_eq (by assumption)) | exact rfl
theorem State.acVolts_kept_eq {s : State} {r_} {x_} (h : State.acVolts s = (x_, r_)) : Kept [.tick] s r_ := by
  have k := State.acVolts_kept s
  rw [h] at k
  exact k

theorem State.acLoop_kept (s : State) (k : Nat) (m : ActIn) (iq : Int) : Kept [.act, .tick, .reg .ACk_SPD, .reg .ACk_EVT] s
    (State.acLoop s k m iq) := by
  unfold State.acLoop
  extract_lets +onlyGivenNames a step goal set_ lim
  clear_value set_ lim
  split
  rename_i w s1 h1
  split
  rename_i u s2 h2
  have k2 : Kept [.act, .tick, .reg .ACk_SPD, .reg .ACk_EVT] s s2 := .via (State.draw_kept_eq h2) rfl ((State.draw_kept_eq
      h1).mono rfl)
  extract_lets +onlyGivenNames raw reg factor
  clear_value raw factor
  split
  rename_i v s3 h3
  have k3 : Kept [.act, .tick, .reg .ACk_SPD, .reg .ACk_EVT] s s3 := by
    revert h3
    split
    · intro h; cases h; exact k2
    · intro h; exact .via (State.acVolts_kept_eq h) rfl k2
  split
  rename_i s4 hit h4
  have k4 : Kept [.act, .tick, .reg .ACk_SPD, .reg .ACk_EVT] s s4 := .via (State.acApply_kept_eq h4) rfl k3
  exact .via (State.setSfld_kept (.ACk_SPD _) ..) rfl (.via (State.updAc_kept ..) rfl
    (.ite (.via (State.acFlag_kept ..) rfl (.via (State.acEvt_kept ..) rfl k4)) k4))

theorem State.acVector_kept (s : State) (k : Nat) (m : ActIn) (amp : Rat) : Kept [.act, .tick, .reg .ACk_EVT] s (State.acVector
    s k m amp) := by
  unfold State.acVector
  split
  rename_i v s1 h
  exact .via (State.updAc_kept ..) rfl (.via (State.acApply_kept ..) rfl ((State.acVolts_kept_eq h).mono rfl))

theorem State.acTurn_kept (s : State) (k : Nat) : Kept [.act] s (State.acTurn s k) := by
  unfold State.acTurn
  try dsimp only
  repeat' first
    | with_reducible exact .refl _ _ | with_reducible assumption | with_reducible refine .ite ?_ ?_
    | with_reducible apply Kept.via (State.updAc_kept ..) | exact rfl

theorem State.acDrive_kept (s : State) (k : Nat) (m : ActIn) (iq : Int) : Kept [.act, .tick, .reg .ACk_SPD, .reg .ACk_EVT] s
    (State.acDrive s k m iq) := by
  unfold State.acDrive
  try dsimp only
  repeat' first
    | with_reducible exact .refl _ _ | with_reducible assumption | with_reducible refine .ite ?_ ?_
    | with_reducible apply Kept.via (State.acLoop_kept ..) | with_reducible apply Kept.via (State.acVector_kept ..)
    | with_reducible apply Kept.via (State.acTurn_kept ..) | exact rfl | split

theorem State.acMiss_kept (s : State) (k : Nat) (speed : Int) (iph : List Rat) : Kept [.po, .act, .gbx, .ldg, .ssm, .tick, .reg
    .ACk_STATE, .reg .ACk_EVT, .reg .ACk_FLT, .reg .GBX_EVT, .reg .GBX_FLT] s (State.acMiss s k speed iph) := by
  unfold State.acMiss
  try dsimp only
  repeat' first
    | with_reducible exact .refl _ _ | with_reducible assumption | with_reducible refine .ite ?_ ?_
    | with_reducible apply Kept.via (State.updAc_kept ..) | with_reducible apply Kept.via (State.actFail_kept ..)
    | with_reducible refine .each (fun _ _ => ?_) ?_ | exact rfl

theorem State.acLowEnd_kept (s : State) (k : Nat) (speed : Int) : Kept [.act, .reg .ACk_STATE] s (State.acLowEnd s k speed) :=
    by
  unfold State.acLowEnd
  try dsimp only
  repeat' first
    | with_reducible exact .refl _ _ | with_reducible assumption | with_reducible refine .ite ?_ ?_
    | with_reducible apply Kept.via (State.updAc_kept ..) | with_reducible apply Kept.via (State.acOff_kept ..) | exact rfl

theorem execActUpdate_kept (k : Nat) (m : ActIn) (s : State) : KeptOut [.po, .act, .gbx, .ldg, .ssm, .tick, .reg .ACT_VACT,
    .reg .ACk_STATE, .reg .ACk_SPD, .reg .ACk_I, .reg .ACk_EVT, .reg .ACk_FLT, .reg .GBX_EVT, .reg .GBX_FLT] s (execActUpdate k
    m s) := by
  unfold execActUpdate
  repeat' first
    | with_reducible apply KeptOut.next | with_reducible apply KeptOut.ite | with_reducible exact .refl _ _
    | with_reducible assumption | with_reducible refine .ite ?_ ?_
    | with_reducible apply Kept.via (State.setFld_kept (.ACT_VACT) ..)
    | with_reducible apply Kept.via (State.setSfld_kept (.ACk_I _) ..)
    | with_reducible apply Kept.via (State.setSfld_kept (.ACk_SPD _) ..) | with_reducible apply Kept.via (State.updAc_kept ..)
    | with_reducible apply Kept.via (State.acDrive_kept ..) | with_reducible apply Kept.via (State.acMiss_kept ..)
    | with_reducible apply Kept.via (State.acLowEnd_kept ..) | exact rfl

theorem execActStartPhaseEnd_kept (k : Nat) (o : ObsIn) (s : State) : KeptOut [.po, .act, .reg .ACk_STATE, .reg .ACk_EVT] s
    (execActStartPhaseEnd k o s) := by
  unfold execActStartPhaseEnd
  repeat' first
    | with_reducible apply KeptOut.next | with_reducible apply KeptOut.ite | with_reducible exact .refl _ _
    | with_reducible assumption | with_reducible refine .ite ?_ ?_ | with_reducible apply Kept.via (State.updAc_kept ..)
    | with_reducible apply Kept.via (State.acEvt_kept ..) | with_reducible apply Kept.via (State.acFlag_kept ..)
    | with_reducible apply Kept.via (State.acEnter_kept ..) | with_reducible apply Kept.via (State.acRun_kept ..)
    | with_reducible refine .foldl (fun _ _ => ?_) ?_ | exact rfl | split

theorem execActBrakePulse_kept (k vact : Nat) (starts : Bool) (s : State) : KeptOut [.act, .reg .ACT_VACT, .reg .ACk_EVT] s
    (execActBrakePulse k vact starts s) := by
  unfold execActBrakePulse
  repeat' first
    | with_reducible apply KeptOut.next | with_reducible apply KeptOut.ite | with_reducible exact .refl _ _
    | with_reducible assumption | with_reducible refine .ite ?_ ?_
    | with_reducible apply Kept.via (State.setFld_kept (.ACT_VACT) ..) | with_reducible apply Kept.via (State.updAc_kept ..)
    | with_reducible apply Kept.via (State.acEvt_kept ..) | with_reducible apply Kept.via (State.acFlag_kept ..) | exact rfl

theorem execActRampLock_kept (k : Nat) (rpm : Int) (s : State) : KeptOut [.po, .act, .reg .ACk_STATE, .reg .ACk_EVT] s
    (execActRampLock k rpm s) := by
  unfold execActRampLock
  repeat' first
    | with_reducible apply KeptOut.next | with_reducible apply KeptOut.ite | with_reducible exact .refl _ _
    | with_reducible assumption | with_reducible refine .ite ?_ ?_ | with_reducible apply Kept.via (State.acRun_kept ..)
    | exact rfl

theorem execStartAttemptFail_kept (k : Nat) (s : State) : KeptOut [.po, .act, .gbx, .ldg, .ssm, .tick, .reg .ACk_STATE, .reg
    .ACk_EVT, .reg .ACk_FLT, .reg .GBX_EVT, .reg .GBX_FLT] s (execStartAttemptFail k s) := by
  unfold execStartAttemptFail
  repeat' first
    | with_reducible apply KeptOut.next | with_reducible apply KeptOut.ite | with_reducible exact .refl _ _
    | with_reducible assumption | with_reducible refine .ite ?_ ?_
    | with_reducible apply Kept.via (State.acAttemptFail_kept ..) | exact rfl

theorem execRetryWaitEnd_kept (k : Nat) (s : State) : KeptOut [.act, .reg .ACk_STATE] s (execRetryWaitEnd k s) := by
  unfold execRetryWaitEnd
  repeat' first
    | with_reducible apply KeptOut.next | with_reducible apply KeptOut.ite | with_reducible exact .refl _ _
    | with_reducible assumption | with_reducible refine .ite ?_ ?_
    | with_reducible apply Kept.via (State.incFld_kept (.ACk_STATE _) ..) | with_reducible apply Kept.via (State.updAc_kept ..)
    | with_reducible apply Kept.via (State.acEnter_kept ..) | exact rfl

theorem execBootstrapRefresh_kept (n : Nat) (s : State) : KeptOut [.act, .reg .ACk_BOOT] s (execBootstrapRefresh n s) := by
  unfold execBootstrapRefresh
  repeat' first
    | with_reducible apply KeptOut.next | with_reducible apply KeptOut.ite | with_reducible exact .refl _ _
    | with_reducible assumption | with_reducible refine .ite ?_ ?_
    | with_reducible apply Kept.via (State.incFld_kept (.ACk_BOOT _) ..) | with_reducible apply Kept.via (State.updAc_kept ..)
    | with_reducible apply Kept.via (State.acFlag_kept ..) | exact rfl

theorem execBootstrapUndervoltage_kept (n : Nat) (s : State) : KeptOut [.po, .act, .gbx, .ldg, .ssm, .pads, .tick, .reg
    .ACT_STAT, .reg .ACk_STATE, .reg .ACk_EVT, .reg .ACk_FLT, .reg .ACk_LATCH, .reg .GBX_EVT, .reg .GBX_FLT] s
    (execBootstrapUndervoltage n s) := by
  unfold execBootstrapUndervoltage
  repeat' first
    | with_reducible apply KeptOut.next | with_reducible apply KeptOut.ite | with_reducible exact .refl _ _
    | with_reducible assumption | with_reducible refine .ite ?_ ?_ | with_reducible apply Kept.via (State.latchAct_kept ..)
    | exact rfl

theorem execActLegLatch_kept (n cause : Nat) (s : State) : KeptOut [.po, .act, .gbx, .ldg, .ssm, .pads, .tick, .reg .ACT_STAT,
    .reg .ACk_STATE, .reg .ACk_EVT, .reg .ACk_FLT, .reg .ACk_LATCH, .reg .GBX_EVT, .reg .GBX_FLT] s (execActLegLatch n cause s)
    := by
  unfold execActLegLatch
  repeat' first
    | with_reducible apply KeptOut.next | with_reducible apply KeptOut.ite | with_reducible exact .refl _ _
    | with_reducible assumption | with_reducible refine .ite ?_ ?_ | with_reducible apply Kept.via (State.latchAct_kept ..)
    | exact rfl

theorem execLeakTestComplete_kept (k : Nat) (low high : List Nat) (s : State) : KeptOut [.po, .act, .gbx, .ldg, .ssm, .pads,
    .tick, .reg .ACT_STAT, .reg .ACk_STATE, .reg .ACk_EVT, .reg .ACk_FLT, .reg .ACk_LATCH, .reg .ACk_LEAKL, .reg .ACk_LEAKH,
    .reg .GBX_EVT, .reg .GBX_FLT] s (execLeakTestComplete k low high s) := by
  unfold execLeakTestComplete
  repeat' first
    | with_reducible apply KeptOut.next | with_reducible apply KeptOut.ite | with_reducible exact .refl _ _
    | with_reducible assumption | with_reducible refine .ite ?_ ?_
    | with_reducible apply Kept.via (State.setReg_kept (.ACk_LEAKH _) ..)
    | with_reducible apply Kept.via (State.setReg_kept (.ACk_LEAKL _) ..)
    | with_reducible apply Kept.via (State.hwMove_kept ..) | with_reducible apply Kept.via (State.finishOp_kept ..)
    | with_reducible apply Kept.via (State.updAc_kept ..) | with_reducible apply Kept.via (State.latchAct_kept ..)
    | with_reducible refine .each (fun _ _ => ?_) ?_ | exact rfl

theorem execVactFault_kept (mv : Nat) (s : State) : KeptOut [.po, .act, .gbx, .ldg, .ssm, .tick, .reg .ACT_EVT, .reg .ACT_VACT,
    .reg .ACk_STATE, .reg .ACk_EVT, .reg .ACk_FLT, .reg .GBX_EVT, .reg .GBX_FLT] s (execVactFault mv s) := by
  unfold execVactFault
  repeat' first
    | with_reducible apply KeptOut.next | with_reducible apply KeptOut.ite | with_reducible exact .refl _ _
    | with_reducible assumption | with_reducible refine .ite ?_ ?_
    | with_reducible apply Kept.via (State.setFlag_kept (.ACT_EVT) ..)
    | with_reducible apply Kept.via (State.setFld_kept (.ACT_VACT) ..) | with_reducible apply Kept.via (State.acOff_kept ..)
    | with_reducible apply Kept.via (State.actFail_kept ..) | with_reducible refine .each (fun _ _ => ?_) ?_ | exact rfl

theorem execActEnFall_kept (s : State) : KeptOut [.po, .act, .gbx, .ldg, .ssm, .actEn, .tick, .reg .ACT_STAT, .reg .ACT_EVT,
    .reg .ACk_STATE, .reg .ACk_EVT, .reg .ACk_FLT, .reg .GBX_EVT, .reg .GBX_FLT] s (execActEnFall s) := by
  unfold execActEnFall
  repeat' first
    | with_reducible apply KeptOut.next | with_reducible apply KeptOut.ite | with_reducible exact .refl _ _
    | with_reducible assumption | with_reducible refine .ite ?_ ?_
    | with_reducible apply Kept.via (State.clrFlag_kept (.ACT_STAT) ..)
    | with_reducible apply Kept.via (State.setFlag_kept (.ACT_EVT) ..) | with_reducible apply Kept.via (State.actFail_kept ..)
    | with_reducible refine .each (fun _ _ => ?_) ?_
    | (intro p; cases p <;> first | exact .inl (List.mem_of_elem_eq_true rfl) | exact .inr rfl | exact .inr True.intro)
    | exact rfl | split | dsimp only | with_reducible refine .update rfl rfl rfl ?_ ?_

theorem execActEnRise_kept (low : Nat) (loud : List Nat) (s : State) : KeptOut [.actEn, .pads, .tick, .reg .ACT_STAT, .reg
    .ACT_EVT, .reg .ACk_LATCH] s (execActEnRise low loud s) := by
  unfold execActEnRise
  repeat' first
    | with_reducible apply KeptOut.next | with_reducible apply KeptOut.ite | with_reducible exact .refl _ _
    | with_reducible assumption | with_reducible refine .ite ?_ ?_
    | with_reducible apply Kept.via (State.setFlag_kept (.ACT_EVT) ..)
    | with_reducible apply Kept.via (State.setFlag_kept (.ACT_STAT) ..) | with_reducible apply Kept.via (State.draw_kept ..)
    | with_reducible apply Kept.via (State.draw_kept_eq (by assumption))
    | with_reducible apply Kept.via (State.syncActLatch_kept ..) | with_reducible refine .each (fun _ _ => ?_) ?_
    | (intro p; cases p <;> first | exact .inl (List.mem_of_elem_eq_true rfl) | exact .inr rfl | exact .inr True.intro)
    | exact rfl | split | dsimp only | with_reducible refine .update rfl rfl rfl ?_ ?_

theorem execActStopComplete_kept (k : Nat) (s : State) : KeptOut [.po, .act, .reg .ACk_STATE] s (execActStopComplete k s) := by
  unfold execActStopComplete
  repeat' first
    | with_reducible apply KeptOut.next | with_reducible apply KeptOut.ite | with_reducible exact .refl _ _
    | with_reducible assumption | with_reducible refine .ite ?_ ?_
    | with_reducible apply Kept.via (State.setFld_kept (.ACk_STATE _) ..)
    | with_reducible apply Kept.via (State.hwMove_kept ..) | with_reducible apply Kept.via (State.finishOp_kept ..)
    | with_reducible apply Kept.via (State.updAc_kept ..) | with_reducible apply Kept.via (State.acOff_kept ..) | exact rfl

theorem State.actBoundary_kept (s : State) : Kept [.units, .act, .reg .ACk_STATE] s (State.actBoundary s) := by
  unfold State.actBoundary
  try dsimp only
  repeat' first
    | with_reducible exact .refl _ _ | with_reducible assumption | with_reducible refine .ite ?_ ?_
    | with_reducible apply Kept.via (State.setUst_kept ..) | with_reducible apply Kept.via (State.updAc_kept ..)
    | with_reducible apply Kept.via (State.acBegin_kept ..) | with_reducible refine .each (fun _ _ => ?_) ?_ | exact rfl

end Sys2Proof.Machine
end

