-- ==== Sys2Proof/Laws/KeptGearbox.lean ====
section
/-!
SUPPORT. The frame of each operation of Sys2Proof/Machine/Gearbox.lean: the parts of the state that it can change.
-/
namespace Sys2Proof.Machine
set_option Elab.async false

theorem State.moveBegin_kept (s : State) (m to_ : Nat) (now : Bool) : Kept [.units, .act, .gbx, .reg .ACk_STATE] s
    (State.moveBegin s m to_ now) := by
  unfold State.moveBegin
  try dsimp only
  repeat' first
    | with_reducible exact .refl _ _ | with_reducible assumption | with_reducible apply Kept.via (State.updGb_kept ..)
    | with_reducible apply Kept.via (State.acAim_kept ..) | exact rfl

theorem State.moveHold_kept (s : State) (m : Nat) : Kept [.act, .gbx, .reg .ACk_STATE] s (State.moveHold s m) := by
  unfold State.moveHold
  try dsimp only
  repeat' first
    | with_reducible exact .refl _ _ | with_reducible assumption | with_reducible apply Kept.via (State.updGb_kept ..)
    | with_reducible apply Kept.via (State.acFlag_kept ..) | with_reducible apply Kept.via (State.acEnter_kept ..) | exact rfl

theorem State.moveStop_kept (s : State) (m : Nat) : Kept [.po, .act, .gbx, .reg .ACk_STATE] s (State.moveStop s m) := by
  unfold State.moveStop
  try dsimp only
  repeat' first
    | with_reducible exact .refl _ _ | with_reducible assumption | with_reducible refine .ite ?_ ?_
    | with_reducible apply Kept.via (State.hwMove_kept ..) | with_reducible apply Kept.via (State.updAc_kept ..)
    | with_reducible apply Kept.via (State.updGb_kept ..) | with_reducible apply Kept.via (State.acStop_kept ..) | exact rfl

theorem State.gbxGo_kept (s : State) (p : Nat) : Kept [.gbx, .reg .GBX_STATE] s (State.gbxGo s p) := by
  unfold State.gbxGo
  try dsimp only
  repeat' first
    | with_reducible exact .refl _ _ | with_reducible assumption
    | with_reducible apply Kept.via (State.setFld_kept (.GBX_STATE) ..) | with_reducible apply Kept.via (State.updGb_kept ..)
    | exact rfl

theorem State.gbxSettle_kept (s : State) : Kept [.po] s (State.gbxSettle s) := by
  unfold State.gbxSettle
  try dsimp only
  repeat' first
    | with_reducible exact .refl _ _ | with_reducible assumption | with_reducible refine .ite ?_ ?_
    | with_reducible apply Kept.via (State.hwMove_kept ..) | with_reducible apply Kept.via (State.finishOp_kept ..) | exact rfl

theorem State.gbxInterlock_kept (s : State) : Kept [.gbx] s (State.gbxInterlock s) := by
  unfold State.gbxInterlock
  try dsimp only
  repeat' first
    | with_reducible exact .refl _ _ | with_reducible assumption | with_reducible apply Kept.via (State.updGb_kept ..)
    | exact rfl

theorem State.gbxEnd_kept (s0 : State) : Kept [.po, .act, .gbx, .ldg, .reg .ACk_STATE, .reg .GBX_STATE, .reg .GBX_EVT] s0
    (State.gbxEnd s0) := by
  unfold State.gbxEnd
  try dsimp only
  repeat' first
    | with_reducible exact .refl _ _ | with_reducible assumption | with_reducible refine .ite ?_ ?_
    | with_reducible apply Kept.via (State.setFlag_kept (.GBX_EVT) ..)
    | with_reducible apply Kept.via (State.setFld_kept (.GBX_STATE) ..)
    | with_reducible apply Kept.via (State.finishOp_kept ..) | with_reducible apply Kept.via (State.moveStop_kept ..)
    | with_reducible apply Kept.via (State.gbxSettle_kept ..) | with_reducible apply Kept.via (State.gbxInterlock_kept ..)
    | (intro p; cases p <;> first | exact .inl (List.mem_of_elem_eq_true rfl) | exact .inr rfl | exact .inr True.intro)
    | exact rfl | split | dsimp only | with_reducible refine .update rfl rfl rfl ?_ ?_

theorem State.gbxLoad_kept (s : State) : Kept [.po, .act, .gbx, .ldg, .reg .ACk_STATE, .reg .GBX_STATE, .reg .GBX_EVT] s
    (State.gbxLoad s) := by
  unfold State.gbxLoad
  try dsimp only
  repeat' first
    | with_reducible exact .refl _ _ | with_reducible assumption | with_reducible refine .ite ?_ ?_
    | with_reducible apply Kept.via (State.moveStop_kept ..) | with_reducible apply Kept.via (State.gbxGo_kept ..)
    | with_reducible apply Kept.via (State.gbxEnd_kept ..) | exact rfl

theorem State.gbxReached_kept (s : State) : Kept [.units, .po, .act, .gbx, .ldg, .reg .ACk_STATE, .reg .GBX_STATE, .reg
    .GBX_EVT] s (State.gbxReached s) := by
  unfold State.gbxReached
  try dsimp only
  repeat' first
    | with_reducible exact .refl _ _ | with_reducible assumption | with_reducible refine .ite ?_ ?_
    | with_reducible apply Kept.via (State.moveBegin_kept ..) | with_reducible apply Kept.via (State.moveHold_kept ..)
    | with_reducible apply Kept.via (State.gbxGo_kept ..) | with_reducible apply Kept.via (State.gbxEnd_kept ..)
    | with_reducible apply Kept.via (State.gbxLoad_kept ..) | exact rfl | split

theorem State.gbxBegin_kept (s : State) (op mech target : Nat) : Kept [.units, .act, .gbx, .ldg, .reg .ACk_STATE, .reg
    .GBX_STATE] s (s.gbxBegin op mech target) := by
  have k : ∀ g, Kept [.units, .act, .gbx, .ldg, .reg .ACk_STATE, .reg .GBX_STATE] s ((s.setFld R.GBX_STATE F.GBX_STATE_OP
      op).updGb g) :=
    fun g => .via (State.updGb_kept ..) rfl (.via (State.setFld_kept .GBX_STATE ..) rfl (.refl _ _))
  have l : ∀ g x, Kept [.units, .act, .gbx, .ldg, .reg .ACk_STATE, .reg .GBX_STATE] s { (s.setFld R.GBX_STATE F.GBX_STATE_OP
      op).updGb g with ldg := x } :=
    fun g x => .via (Part.ldg_kept _ x) rfl (k g)
  unfold State.gbxBegin
  dsimp only
  split
  · refine .ite (.ite ?_ ?_) (.ite ?_ ?_)
    · exact .via (State.moveBegin_kept ..) rfl (.via (State.gbxGo_kept ..) rfl (l _ _))
    · exact .via (State.moveBegin_kept ..) rfl (.via (State.gbxGo_kept ..) rfl (l _ _))
    · exact .via (State.gbxGo_kept ..) rfl (l _ _)
    · exact .via (State.gbxGo_kept ..) rfl (.via (State.acAim_kept ..) rfl (l _ _))
  · refine .ite ?_ (.ite ?_ ?_)
    · exact .via (State.moveBegin_kept ..) rfl (.via (State.gbxGo_kept ..) rfl (k _))
    · exact .via (State.gbxGo_kept ..) rfl (k _)
    · exact .via (State.gbxGo_kept ..) rfl (k _)
  · exact .via (State.moveBegin_kept ..) rfl (k _)

theorem State.gbxAbort_kept (s : State) : Kept [.units, .po, .act, .gbx, .ldg, .reg .ACk_STATE, .reg .GBX_STATE, .reg .GBX_EVT]
    s (State.gbxAbort s) := by
  unfold State.gbxAbort
  try dsimp only
  repeat' first
    | with_reducible exact .refl _ _ | with_reducible assumption | with_reducible refine .ite ?_ ?_
    | with_reducible apply Kept.via (State.updGb_kept ..) | with_reducible apply Kept.via (State.moveBegin_kept ..)
    | with_reducible apply Kept.via (State.gbxEnd_kept ..) | with_reducible apply Kept.via (State.gbxLoad_kept ..) | exact rfl
    | split

theorem State.gbxFrame_kept (s : State) (i : Nat) (valid : Bool) (nibbles data : Nat) : Kept [.po, .eng, .mdl, .chg, .act,
    .gbx, .ldg, .ssm, .reg .FEn_EVT, .reg .FEn_WDCNT, .reg .CHG_ILIM, .reg .CHG_FLT, .reg .CHG_EVT, .reg .ACk_STATE, .reg
    .GBX_STATE, .reg .GBX_EVT, .reg .GBX_FLT, .reg .GBX_POS0, .reg .GBX_POS1, .reg .LDG_EVT, .reg .LDG_WQSTAT, .reg .LDG_PNf] s
    (State.gbxFrame s i valid nibbles data) := by
  unfold State.gbxFrame
  try dsimp only
  repeat' first
    | with_reducible exact .refl _ _ | with_reducible assumption | with_reducible refine .ite ?_ ?_
    | with_reducible apply Kept.via (State.setFlag_kept (.GBX_EVT) ..)
    | with_reducible apply Kept.via (State.setFld_kept (.GBX_POS0) ..)
    | with_reducible apply Kept.via (State.setFld_kept (.GBX_POS1) ..)
    | with_reducible apply Kept.via (State.setFld_kept (.GBX_STATE) ..) | with_reducible apply Kept.via (State.updGb_kept ..)
    | with_reducible apply Kept.via (State.chgGearCheck_kept ..) | with_reducible apply Kept.via (State.gbxFail_kept ..)
    | with_reducible apply Kept.via (State.acSpeed_kept ..) | with_reducible refine .each (fun _ _ => ?_) ?_ | exact rfl

theorem State.gbxArm_kept (s : State) : Kept [.act] s (State.gbxArm s) := by
  unfold State.gbxArm
  try dsimp only
  repeat' first
    | with_reducible exact .refl _ _ | with_reducible assumption | with_reducible refine .ite ?_ ?_
    | with_reducible apply Kept.via (State.leakStart_kept ..) | with_reducible refine .each (fun _ _ => ?_) ?_ | exact rfl

theorem specGbxRun_kept  (s : State) (m : Msg) (k : Nat) : Kept [.units, .act] s (specGbxRun.run s m k).1 := by
  unfold specGbxRun
  try dsimp only
  repeat' first
    | with_reducible exact .refl _ _ | with_reducible assumption | with_reducible refine .ite ?_ ?_
    | with_reducible apply Kept.via (State.setUst_kept ..) | with_reducible apply Kept.via (doneWith_kept ..)
    | with_reducible apply Kept.via (doneWith_kept_eq (by assumption)) | with_reducible apply Kept.via (State.gbxArm_kept ..)
    | exact rfl

theorem specGbxHalt_kept  (s : State) (m : Msg) (k : Nat) : Kept [.units, .po] s (specGbxHalt.run s m k).1 := by
  unfold specGbxHalt
  try dsimp only
  repeat' first
    | with_reducible exact .refl _ _ | with_reducible assumption | with_reducible apply Kept.via (State.setUst_kept ..)
    | with_reducible apply Kept.via (acceptedWith_kept ..)
    | with_reducible apply Kept.via (acceptedWith_kept_eq (by assumption))
    | with_reducible apply Kept.via (State.gbxSettle_kept ..) | exact rfl

theorem specGbxMove_kept (op : Nat) (s : State) (m : Msg) (k : Nat) : Kept [.units, .act, .gbx, .ldg, .reg .ACk_STATE, .reg
    .GBX_STATE] s ((specGbxMove op).run s m k).1 := by
  unfold specGbxMove
  try dsimp only
  repeat' first
    | with_reducible exact .refl _ _ | with_reducible assumption | with_reducible refine .ite ?_ ?_
    | with_reducible apply Kept.via (acceptedWith_kept ..)
    | with_reducible apply Kept.via (acceptedWith_kept_eq (by assumption))
    | with_reducible apply Kept.via (State.gbxBegin_kept ..) | exact rfl | split

theorem specGbxShift_kept (s : State) (m : Msg) (k : Nat) : Kept [.units, .act, .gbx, .ldg, .reg .ACk_STATE, .reg .GBX_STATE] s
    (specGbxShift.run s m k).1 :=
  specGbxMove_kept ..

theorem specGbxPark_kept (s : State) (m : Msg) (k : Nat) : Kept [.units, .act, .gbx, .ldg, .reg .ACk_STATE, .reg .GBX_STATE] s
    (specGbxPark.run s m k).1 :=
  specGbxMove_kept ..

theorem specGbxClutch_kept (s : State) (m : Msg) (k : Nat) : Kept [.units, .act, .gbx, .ldg, .reg .ACk_STATE, .reg .GBX_STATE]
    s (specGbxClutch.run s m k).1 :=
  specGbxMove_kept ..

theorem specGbxClear_kept  (s : State) (m : Msg) (k : Nat) : Kept [.units, .gbx] s (specGbxClear.run s m k).1 := by
  unfold specGbxClear
  try dsimp only
  repeat' first
    | with_reducible exact .refl _ _ | with_reducible assumption | with_reducible refine .ite ?_ ?_
    | with_reducible apply Kept.via (State.setUst_kept ..) | with_reducible apply Kept.via (State.updGb_kept ..)
    | with_reducible apply Kept.via (doneWith_kept ..) | with_reducible apply Kept.via (doneWith_kept_eq (by assumption))
    | exact rfl

theorem execGbxRun_kept (m : Msg) (s : State) : KeptOut (Part.receipt [.units, .act, .reg .PST_OUTST, .reg .PST_MERR_CODE]) s
    (execGbxRun m s) := by
  unfold execGbxRun
  repeat' first
    | with_reducible apply KeptOut.next | with_reducible exact .refl _ _
    | with_reducible apply deliver_kept rfl (fun s m k => (specGbxRun_kept s m k).mono rfl) _ _

theorem execGbxHalt_kept (m : Msg) (s : State) : KeptOut (Part.receipt [.units, .reg .PST_OUTST, .reg .PST_MERR_CODE]) s
    (execGbxHalt m s) := by
  unfold execGbxHalt
  repeat' first
    | with_reducible apply KeptOut.next | with_reducible exact .refl _ _
    | with_reducible apply deliver_kept rfl (fun s m k => (specGbxHalt_kept s m k).mono rfl) _ _

theorem execGbxShift_kept (m : Msg) (s : State) : KeptOut (Part.receipt [.units, .act, .gbx, .ldg, .reg .PST_OUTST, .reg
    .PST_MERR_CODE, .reg .ACk_STATE, .reg .GBX_STATE]) s (execGbxShift m s) := by
  unfold execGbxShift
  repeat' first
    | with_reducible apply KeptOut.next | with_reducible exact .refl _ _ | with_reducible assumption
    | with_reducible apply deliver_kept rfl (fun s m k => (specGbxShift_kept s m k).mono rfl) _ _

theorem execGbxPark_kept (m : Msg) (s : State) : KeptOut (Part.receipt [.units, .act, .gbx, .ldg, .reg .PST_OUTST, .reg
    .PST_MERR_CODE, .reg .ACk_STATE, .reg .GBX_STATE]) s (execGbxPark m s) := by
  unfold execGbxPark
  repeat' first
    | with_reducible apply KeptOut.next | with_reducible exact .refl _ _
    | with_reducible apply deliver_kept rfl (fun s m k => (specGbxPark_kept s m k).mono rfl) _ _

theorem execGbxClutch_kept (m : Msg) (s : State) : KeptOut (Part.receipt [.units, .act, .gbx, .ldg, .reg .PST_OUTST, .reg
    .PST_MERR_CODE, .reg .ACk_STATE, .reg .GBX_STATE]) s (execGbxClutch m s) := by
  unfold execGbxClutch
  repeat' first
    | with_reducible apply KeptOut.next | with_reducible exact .refl _ _ | with_reducible assumption
    | with_reducible apply deliver_kept rfl (fun s m k => (specGbxClutch_kept s m k).mono rfl) _ _

theorem execGbxClear_kept (m : Msg) (s : State) : KeptOut (Part.receipt [.units, .gbx, .reg .PST_OUTST, .reg .PST_MERR_CODE]) s
    (execGbxClear m s) := by
  unfold execGbxClear
  repeat' first
    | with_reducible apply KeptOut.next | with_reducible exact .refl _ _
    | with_reducible apply deliver_kept rfl (fun s m k => (specGbxClear_kept s m k).mono rfl) _ _

theorem execMoveTargetReached_kept (mech : Nat) (s : State) : KeptOut [.units, .po, .act, .gbx, .ldg, .reg .ACk_STATE, .reg
    .GBX_STATE, .reg .GBX_EVT] s (execMoveTargetReached mech s) := by
  unfold execMoveTargetReached
  repeat' first
    | with_reducible apply KeptOut.next | with_reducible apply KeptOut.ite | with_reducible exact .refl _ _
    | with_reducible assumption | with_reducible refine .ite ?_ ?_ | with_reducible apply Kept.via (State.gbxReached_kept ..)
    | exact rfl

theorem execMoveTimeout_kept (mech : Nat) (s : State) : KeptOut [.po, .act, .gbx, .ldg, .reg .ACk_STATE, .reg .GBX_STATE, .reg
    .GBX_EVT, .reg .GBX_FLT] s (execMoveTimeout mech s) := by
  unfold execMoveTimeout
  repeat' first
    | with_reducible apply KeptOut.next | with_reducible apply KeptOut.ite | with_reducible exact .refl _ _
    | with_reducible assumption | with_reducible refine .ite ?_ ?_ | with_reducible apply Kept.via (State.gbxFail_kept ..)
    | with_reducible apply Kept.via (State.gbxInterlock_kept ..) | with_reducible apply Kept.via (State.gbxEnd_kept ..)
    | with_reducible apply Kept.via (State.gbxLoad_kept ..) | exact rfl

theorem execShiftPhaseEnd_kept (s : State) : KeptOut [.units, .po, .act, .gbx, .ldg, .reg .ACk_STATE, .reg .GBX_STATE, .reg
    .GBX_EVT] s (execShiftPhaseEnd s) := by
  unfold execShiftPhaseEnd
  repeat' first
    | with_reducible apply KeptOut.next | with_reducible apply KeptOut.ite | with_reducible exact .refl _ _
    | with_reducible assumption | with_reducible refine .ite ?_ ?_ | with_reducible apply Kept.via (State.moveBegin_kept ..)
    | with_reducible apply Kept.via (State.gbxGo_kept ..) | with_reducible apply Kept.via (State.gbxInterlock_kept ..)
    | with_reducible apply Kept.via (State.gbxEnd_kept ..) | exact rfl | split

theorem execButtRetry_kept (s : State) : KeptOut [.units, .act, .gbx, .reg .ACk_STATE] s (execButtRetry s) := by
  unfold execButtRetry
  repeat' first
    | with_reducible apply KeptOut.next | with_reducible apply KeptOut.ite | with_reducible exact .refl _ _
    | with_reducible assumption | with_reducible refine .ite ?_ ?_ | with_reducible apply Kept.via (State.updGb_kept ..)
    | with_reducible apply Kept.via (State.moveBegin_kept ..) | exact rfl

theorem execSyncTimeExpiry_kept (s : State) : KeptOut [.po, .act, .gbx, .ldg, .reg .ACk_STATE, .reg .GBX_STATE, .reg .GBX_EVT]
    s (execSyncTimeExpiry s) := by
  unfold execSyncTimeExpiry
  repeat' first
    | with_reducible apply KeptOut.next | with_reducible apply KeptOut.ite | with_reducible exact .refl _ _
    | with_reducible assumption | with_reducible refine .ite ?_ ?_ | with_reducible apply Kept.via (State.gbxInterlock_kept ..)
    | with_reducible apply Kept.via (State.gbxEnd_kept ..) | exact rfl

theorem execParkWaitExpiry_kept (s : State) : KeptOut [.units, .act, .gbx, .reg .ACk_STATE] s (execParkWaitExpiry s) := by
  unfold execParkWaitExpiry
  repeat' first
    | with_reducible apply KeptOut.next | with_reducible apply KeptOut.ite | with_reducible exact .refl _ _
    | with_reducible assumption | with_reducible refine .ite ?_ ?_ | with_reducible apply Kept.via (State.moveBegin_kept ..)
    | with_reducible apply Kept.via (State.gbxInterlock_kept ..) | exact rfl

theorem State.gbxBlock_kept (s : State) (k : Nat) : Kept [.units, .po, .act, .gbx, .ldg, .reg .ACk_STATE, .reg .GBX_STATE, .reg
    .GBX_EVT] s (State.gbxBlock s k) := by
  unfold State.gbxBlock
  try dsimp only
  repeat' first
    | with_reducible exact .refl _ _ | with_reducible assumption | with_reducible refine .ite ?_ ?_
    | with_reducible apply Kept.via (State.setFlag_kept (.GBX_EVT) ..) | with_reducible apply Kept.via (State.updGb_kept ..)
    | with_reducible apply Kept.via (State.acFlag_kept ..) | with_reducible apply Kept.via (State.acEnter_kept ..)
    | with_reducible apply Kept.via (State.moveBegin_kept ..) | with_reducible apply Kept.via (State.gbxInterlock_kept ..)
    | with_reducible apply Kept.via (State.gbxLoad_kept ..) | exact rfl

theorem execActStall_kept (k : Nat) (s : State) : KeptOut [.units, .po, .act, .gbx, .ldg, .ssm, .tick, .reg .ACk_STATE, .reg
    .ACk_EVT, .reg .ACk_FLT, .reg .GBX_STATE, .reg .GBX_EVT, .reg .GBX_FLT] s (execActStall k s) := by
  unfold execActStall
  repeat' first
    | with_reducible apply KeptOut.next | with_reducible apply KeptOut.ite | with_reducible exact .refl _ _
    | with_reducible assumption | with_reducible refine .ite ?_ ?_ | with_reducible apply Kept.via (State.acEvt_kept ..)
    | with_reducible apply Kept.via (State.acFlag_kept ..) | with_reducible apply Kept.via (State.actFail_kept ..)
    | with_reducible apply Kept.via (State.gbxBlock_kept ..) | exact rfl

theorem State.gbxBoundary_kept (s : State) : Kept [.units, .po, .act, .gbx, .ldg, .reg .ACk_STATE, .reg .GBX_STATE, .reg
    .GBX_EVT] s (State.gbxBoundary s) := by
  unfold State.gbxBoundary
  try dsimp only
  repeat' first
    | with_reducible exact .refl _ _ | with_reducible assumption | with_reducible refine .ite ?_ ?_
    | with_reducible apply Kept.via (State.setUst_kept ..) | with_reducible apply Kept.via (State.updGb_kept ..)
    | with_reducible apply Kept.via (State.gbxEnd_kept ..) | with_reducible apply Kept.via (State.gbxArm_kept ..)
    | with_reducible refine .each (fun _ _ => ?_) ?_ | exact rfl

end Sys2Proof.Machine
end

