-- ==== Sys2Proof/Laws/KeptLedger.lean ====
section
/-!
SUPPORT. The frame of each operation of Sys2Proof/Machine/Ledger.lean: the parts of the state that it can change.
-/
namespace Sys2Proof.Machine
set_option Elab.async false

theorem State.portTick_kept (s : State) (p : Nat) : Kept [.ldg, .reg .LDG_EVT, .reg .LDG_Pp_PWR] s (State.portTick s p) := by
  unfold State.portTick
  try dsimp only
  repeat' first
    | with_reducible exact .refl _ _ | with_reducible assumption | with_reducible refine .ite ?_ ?_
    | with_reducible apply Kept.via (State.setFlag_kept (.LDG_EVT) ..)
    | with_reducible apply Kept.via (State.setReg_kept (.LDG_Pp_PWR _) ..)
    | with_reducible apply Kept.via (State.updPrt_kept ..) | exact rfl

theorem State.linkTick_kept (s : State) (k : Nat) : Kept [.tra, .ldg] s (State.linkTick s k) := by
  unfold State.linkTick
  try dsimp only
  repeat' first
    | with_reducible exact .refl _ _ | with_reducible assumption | with_reducible refine .ite ?_ ?_
    | with_reducible apply Kept.via (State.clipFlags_kept ..) | with_reducible apply Kept.via (State.updLnk_kept ..)
    | with_reducible apply Kept.via (State.chopWatch_kept ..) | exact rfl | split

theorem State.staleTick_kept (s : State) : Kept [.ldg, .reg .LDG_EDf, .reg .LDG_ERf] s (State.staleTick s) := by
  unfold State.staleTick
  try dsimp only
  repeat' first
    | with_reducible exact .refl _ _ | with_reducible assumption | with_reducible refine .ite ?_ ?_
    | with_reducible apply Kept.via (State.setReg_kept (.LDG_EDf _) ..)
    | with_reducible apply Kept.via (State.setReg_kept (.LDG_ERf _) ..) | with_reducible refine .each (fun _ _ => ?_) ?_
    | (intro p; cases p <;> first | exact .inl (List.mem_of_elem_eq_true rfl) | exact .inr rfl | exact .inr True.intro)
    | exact rfl | split | dsimp only | with_reducible refine .update rfl rfl rfl ?_ ?_

theorem execLedgerTick_kept (s : State) : KeptOut [.tra, .ldg, .reg .LDG_EVT, .reg .LDG_EDf, .reg .LDG_ERf, .reg .LDG_Pp_PWR] s
    (execLedgerTick s) := by
  unfold execLedgerTick
  repeat' first
    | with_reducible apply KeptOut.next | with_reducible apply KeptOut.ite | with_reducible exact .refl _ _
    | with_reducible assumption | with_reducible refine .ite ?_ ?_ | with_reducible apply Kept.via (State.portTick_kept ..)
    | with_reducible apply Kept.via (State.linkTick_kept ..) | with_reducible apply Kept.via (State.staleTick_kept ..)
    | with_reducible refine .each (fun _ _ => ?_) ?_ | exact rfl

theorem State.declareImbalance_kept (s : State) (k : Nat) : Kept (Part.journal [.reg .LDG_EVT, .reg .LDG_IMB]) s
    (State.declareImbalance s k) := by
  unfold State.declareImbalance
  try dsimp only
  repeat' first
    | with_reducible exact .refl _ _ | with_reducible apply Kept.via (State.setBit_kept (.LDG_IMB) ..)
    | with_reducible apply Kept.via (State.setFlag_kept (.LDG_EVT) ..) | with_reducible apply Kept.via (State.journal_kept ..)
    | exact rfl

theorem State.blockLink_kept (s : State) (k : Nat) : Kept (Part.journal [.ldg, .reg .LDG_EVT, .reg .LDG_IMB, .reg .LDG_NRESk])
    s (State.blockLink s k) := by
  unfold State.blockLink
  try dsimp only
  repeat' first
    | with_reducible exact .refl _ _ | with_reducible assumption | with_reducible refine .ite ?_ ?_
    | with_reducible apply Kept.via (State.setReg_kept (.LDG_NRESk _) ..)
    | with_reducible apply Kept.via (State.updLnk_kept ..) | with_reducible apply Kept.via (State.declareImbalance_kept ..)
    | with_reducible refine .foldl (fun _ _ => ?_) ?_ | exact rfl

theorem execImbalanceBlock_kept (s : State) : KeptOut (Part.journal [.ldg, .reg .LDG_EVT, .reg .LDG_IMB, .reg .LDG_NRESk]) s
    (execImbalanceBlock s) := by
  unfold execImbalanceBlock
  repeat' first
    | with_reducible apply KeptOut.next | with_reducible apply KeptOut.ite | with_reducible exact .refl _ _
    | with_reducible assumption | with_reducible refine .ite ?_ ?_ | with_reducible apply Kept.via (State.updPrt_kept ..)
    | with_reducible apply Kept.via (State.blockLink_kept ..) | with_reducible refine .each (fun _ _ => ?_) ?_ | exact rfl

theorem State.spendAllowance_kept (s : State) (k : Nat) : Kept [.ldg] s (State.spendAllowance s k) := by
  unfold State.spendAllowance
  try dsimp only
  repeat' first
    | with_reducible exact .refl _ _ | with_reducible assumption | with_reducible apply Kept.via (State.updLnk_kept ..)
    | exact rfl | split

theorem execPlannerRound_kept (s : State) : KeptOut [.ldg] s (execPlannerRound s) := by
  refine .next (.ite (.refl _ _) (.via (Part.ldg_kept _ _) rfl (.each (fun _ _ => ?_) (.each (fun _ _ => ?_) (.refl _ _)))))
  · exact .via (State.updPrt_kept ..) rfl (.refl _ _)
  · exact .via (State.spendAllowance_kept ..) rfl (.refl _ _)

theorem State.latchPlan_kept (s : State) (o : PlanOut) : Kept [.ldg, .reg .LDG_STATE, .reg .LDG_EVT, .reg .LDG_ROUND, .reg
    .LDG_EDf, .reg .LDG_ERf] s (State.latchPlan s o) := by
  unfold State.latchPlan
  lift_lets
  repeat'
    intro x
    first
    | have hx : Kept [.ldg, .reg .LDG_STATE, .reg .LDG_EVT, .reg .LDG_ROUND, .reg .LDG_EDf, .reg .LDG_ERf] s x := by
        dsimp only [x]
        repeat' first
          | with_reducible exact .refl _ _ | with_reducible assumption | with_reducible refine .ite ?_ ?_
          | with_reducible apply Kept.via (State.clrFlag_kept (.LDG_STATE) ..)
          | with_reducible apply Kept.via (State.incFld_kept (.LDG_ROUND) ..)
          | with_reducible apply Kept.via (State.setFlag_kept (.LDG_EVT) ..)
          | with_reducible apply Kept.via (State.setFld_kept (.LDG_ROUND) ..)
          | with_reducible apply Kept.via (State.setFld_kept (.LDG_STATE) ..)
          | with_reducible apply Kept.via (State.setReg_kept (.LDG_EDf _) ..)
          | with_reducible apply Kept.via (State.setReg_kept (.LDG_ERf _) ..)
          | with_reducible apply Kept.via (State.updLnk_kept ..) | with_reducible apply Kept.via (State.updFp_kept ..)
          | with_reducible refine .each (fun _ _ => ?_) ?_
          | (intro p; cases p <;> first | exact .inl (List.mem_of_elem_eq_true rfl) | exact .inr rfl | exact .inr True.intro)
          | exact rfl | split | dsimp only | with_reducible refine .update rfl rfl rfl ?_ ?_
      clear_value x
    | skip
  repeat' first
    | with_reducible exact .refl _ _ | with_reducible assumption | with_reducible refine .ite ?_ ?_
    | with_reducible apply Kept.via (State.clrFlag_kept (.LDG_STATE) ..)
    | with_reducible apply Kept.via (State.incFld_kept (.LDG_ROUND) ..)
    | with_reducible apply Kept.via (State.setFlag_kept (.LDG_EVT) ..)
    | with_reducible apply Kept.via (State.setFld_kept (.LDG_ROUND) ..)
    | with_reducible apply Kept.via (State.setFld_kept (.LDG_STATE) ..)
    | with_reducible apply Kept.via (State.setReg_kept (.LDG_EDf _) ..)
    | with_reducible apply Kept.via (State.setReg_kept (.LDG_ERf _) ..) | with_reducible apply Kept.via (State.updLnk_kept ..)
    | with_reducible apply Kept.via (State.updFp_kept ..) | with_reducible refine .each (fun _ _ => ?_) ?_
    | (intro p; cases p <;> first | exact .inl (List.mem_of_elem_eq_true rfl) | exact .inr rfl | exact .inr True.intro)
    | exact rfl | split | dsimp only | with_reducible refine .update rfl rfl rfl ?_ ?_

theorem execPlannerLatch_kept (_us : Nat) (s : State) : KeptOut [.ldg, .reg .LDG_STATE, .reg .LDG_EVT, .reg .LDG_ROUND, .reg
    .LDG_EDf, .reg .LDG_ERf] s (execPlannerLatch _us s) := by
  unfold execPlannerLatch
  repeat' first
    | with_reducible apply KeptOut.next | with_reducible apply KeptOut.ite | with_reducible exact .refl _ _
    | with_reducible assumption | with_reducible refine .ite ?_ ?_ | with_reducible apply Kept.via (State.latchPlan_kept ..)
    | exact rfl | split

theorem execPlannerStale_kept (s : State) : KeptOut [.ldg, .reg .LDG_STATE, .reg .LDG_EVT] s (execPlannerStale s) :=
  .next (.ite (.refl _ _)
    (.via (Part.ldg_kept _ _) rfl (.via (State.setFlag_kept .LDG_EVT ..) rfl (.via (State.setFlag_kept .LDG_STATE ..) rfl (.refl _ _)))))

theorem execPowerHoleTimeout_kept (f : Nat) (s : State) : KeptOut (Part.journal [.ldg, .tick]) s (execPowerHoleTimeout f s) :=
    by
  unfold execPowerHoleTimeout
  repeat' first
    | with_reducible apply KeptOut.next | with_reducible apply KeptOut.ite | with_reducible exact .refl _ _
    | with_reducible assumption | with_reducible refine .ite ?_ ?_ | with_reducible apply Kept.via (State.journalFree_kept ..)
    | (intro p; cases p <;> first | exact .inl (List.mem_of_elem_eq_true rfl) | exact .inr rfl | exact .inr True.intro)
    | exact rfl | split | dsimp only | with_reducible refine .update rfl rfl rfl ?_ ?_

theorem specLdgBattery_kept  (s : State) (m : Msg) (k : Nat) : Kept [.ldg] s (specLdgBattery.run s m k).1 := by
  unfold specLdgBattery
  try dsimp only
  repeat' first
    | with_reducible exact .refl _ _ | with_reducible assumption | with_reducible refine .ite ?_ ?_
    | with_reducible apply Kept.via (State.updLnk_kept ..) | with_reducible apply Kept.via (doneWith_kept ..)
    | with_reducible apply Kept.via (doneWith_kept_eq (by assumption)) | exact rfl

theorem specLdgKeepalive_kept  (s : State) (m : Msg) (k : Nat) : Kept [.aon] s (specLdgKeepalive.run s m k).1 := by
  unfold specLdgKeepalive
  try dsimp only
  repeat' first
    | with_reducible exact .refl _ _ | with_reducible assumption | with_reducible refine .ite ?_ ?_
    | (intro p; cases p <;> first | exact .inl (List.mem_of_elem_eq_true rfl) | exact .inr rfl | exact .inr True.intro) | split
    | dsimp only | with_reducible refine .update rfl rfl rfl ?_ ?_

theorem execLdgBattery_kept (m : Msg) (s : State) : KeptOut (Part.receipt [.ldg, .reg .PST_OUTST, .reg .PST_MERR_CODE]) s
    (execLdgBattery m s) := by
  unfold execLdgBattery
  repeat' first
    | with_reducible apply KeptOut.next | with_reducible exact .refl _ _
    | with_reducible apply deliver_kept rfl (fun s m k => (specLdgBattery_kept s m k).mono rfl) _ _

theorem execLdgKeepalive_kept (m : Msg) (s : State) : KeptOut (Part.receipt [.aon, .reg .PST_OUTST, .reg .PST_MERR_CODE]) s
    (execLdgKeepalive m s) := by
  unfold execLdgKeepalive
  repeat' first
    | with_reducible apply KeptOut.next | with_reducible exact .refl _ _
    | with_reducible apply deliver_kept rfl (fun s m k => (specLdgKeepalive_kept s m k).mono rfl) _ _

theorem execLdgNetRead_kept (who : Requester) (p : Nat) (s : State) : KeptOut [.po, .cores, .lsc, .ssm, .dbg, .linkTries,
    .resp, .reg .SYS_WERR_CODE, .reg .LDG_Pp_EHI, .reg .LSC_STAT, .reg .SSM_WDSTATn, .reg .DBG_REPLAYn, .reg .DBG_HALTSt] s
    (execLdgNetRead who p s) := by
  unfold execLdgNetRead
  repeat' first
    | with_reducible apply KeptOut.next | with_reducible apply KeptOut.ite | with_reducible exact .refl _ _
    | with_reducible assumption | with_reducible refine .ite ?_ ?_
    | with_reducible apply Kept.via (State.setReg_kept (.LDG_Pp_EHI _) ..)
    | with_reducible apply Kept.via (State.respond_kept ..) | with_reducible apply Kept.via (State.refuse_kept ..)
    | with_reducible apply State.accessBy_kept | exact rfl

theorem execWithdrawalQueueRead_kept (who : Requester) (s : State) : KeptOut [.po, .ldg, .cores, .lsc, .ssm, .dbg, .linkTries,
    .resp, .reg .SYS_WERR_CODE, .reg .LDG_WQSTAT, .reg .LSC_STAT, .reg .SSM_WDSTATn, .reg .DBG_REPLAYn, .reg .DBG_HALTSt] s
    (execWithdrawalQueueRead who s) := by
  unfold execWithdrawalQueueRead
  repeat' first
    | with_reducible apply KeptOut.next | with_reducible exact .refl _ _ | with_reducible assumption
    | with_reducible apply Kept.via (State.setFld_kept (.LDG_WQSTAT) ..)
    | with_reducible apply Kept.via (State.respond_kept ..) | with_reducible apply State.accessBy_kept
    | (intro p; cases p <;> first | exact .inl (List.mem_of_elem_eq_true rfl) | exact .inr rfl | exact .inr True.intro)
    | exact rfl | split | dsimp only | with_reducible refine .update rfl rfl rfl ?_ ?_

theorem execKeepaliveBalanceRead_kept (who : Requester) (s : State) : KeptOut [.po, .cores, .lsc, .ssm, .dbg, .linkTries,
    .resp, .reg .SYS_WERR_CODE, .reg .LDG_KABHI, .reg .LSC_STAT, .reg .SSM_WDSTATn, .reg .DBG_REPLAYn, .reg .DBG_HALTSt] s
    (execKeepaliveBalanceRead who s) := by
  unfold execKeepaliveBalanceRead
  repeat' first
    | with_reducible apply KeptOut.next | with_reducible exact .refl _ _ | with_reducible assumption
    | with_reducible apply Kept.via (State.setReg_kept (.LDG_KABHI) ..) | with_reducible apply Kept.via (State.respond_kept ..)
    | with_reducible apply State.accessBy_kept | exact rfl

theorem execImbalanceClear_kept (who : Requester) (bits : Nat) (s : State) : KeptOut [.po, .cores, .lsc, .ssm, .dbg,
    .linkTries, .resp, .reg .SYS_WERR_CODE, .reg .LDG_IMB, .reg .LSC_STAT, .reg .SSM_WDSTATn, .reg .DBG_REPLAYn, .reg
    .DBG_HALTSt] s (execImbalanceClear who bits s) := by
  unfold execImbalanceClear
  repeat' first
    | with_reducible apply KeptOut.next | with_reducible exact .refl _ _ | with_reducible assumption
    | with_reducible apply Kept.via (State.plainWrite_kept (.LDG_IMB) ..) | with_reducible apply State.tryWrite_kept
    | with_reducible apply State.accessBy_kept | exact rfl | dsimp only | intro _

theorem execKeepaliveRefill_kept (s : State) : KeptOut (Part.allBut [.variant, .split, .bootSplit, .up, .gf, .driveEn, .actEn,
    .recovery, .resp, .pending]) s (execKeepaliveRefill s) := by
  unfold execKeepaliveRefill
  repeat' first
    | with_reducible apply KeptOut.next | with_reducible apply KeptOut.ite | with_reducible exact .refl _ _
    | with_reducible assumption | with_reducible refine .ite ?_ ?_ | with_reducible apply Kept.via (State.wake_kept ..)
    | (intro p; cases p <;> first | exact .inl (List.mem_of_elem_eq_true rfl) | exact .inr rfl | exact .inr True.intro)
    | exact rfl | split | dsimp only | with_reducible refine .update rfl rfl rfl ?_ ?_

theorem execKeepaliveDebit_kept (s : State) : KeptOut [.aon] s (execKeepaliveDebit s) := by
  unfold execKeepaliveDebit
  repeat' first
    | with_reducible apply KeptOut.next | with_reducible apply KeptOut.ite | with_reducible exact .refl _ _
    | with_reducible assumption | with_reducible refine .ite ?_ ?_
    | (intro p; cases p <;> first | exact .inl (List.mem_of_elem_eq_true rfl) | exact .inr rfl | exact .inr True.intro) | split
    | dsimp only | with_reducible refine .update rfl rfl rfl ?_ ?_

theorem execTimerWake_kept (s : State) : KeptOut (Part.allBut [.variant, .split, .bootSplit, .up, .gf, .driveEn, .actEn,
    .recovery, .resp, .pending]) s (execTimerWake s) := by
  unfold execTimerWake
  repeat' first
    | with_reducible apply KeptOut.next | with_reducible apply KeptOut.ite | with_reducible exact .refl _ _
    | with_reducible assumption | with_reducible refine .ite ?_ ?_
    | with_reducible apply Kept.via (State.incFld_kept (.LDG_KASKIP) ..) | with_reducible apply Kept.via (State.wake_kept ..)
    | (intro p; cases p <;> first | exact .inl (List.mem_of_elem_eq_true rfl) | exact .inr rfl | exact .inr True.intro)
    | exact rfl | split | dsimp only | with_reducible refine .update rfl rfl rfl ?_ ?_

theorem execTimerWakeLimit_kept (s : State) : KeptOut (Part.journal [.rst, .tick, .reg .LDG_EVT]) s (execTimerWakeLimit s) := by
  unfold execTimerWakeLimit
  repeat' first
    | with_reducible apply KeptOut.next | with_reducible apply KeptOut.ite | with_reducible exact .refl _ _
    | with_reducible assumption | with_reducible refine .ite ?_ ?_
    | with_reducible apply Kept.via (State.setFlag_kept (.LDG_EVT) ..)
    | with_reducible apply Kept.via (State.journalFree_kept ..)
    | (intro p; cases p <;> first | exact .inl (List.mem_of_elem_eq_true rfl) | exact .inr rfl | exact .inr True.intro)
    | exact rfl | split | dsimp only | with_reducible refine .update rfl rfl rfl ?_ ?_

end Sys2Proof.Machine
end

