-- ==== Sys2Proof/Laws/KeptSensing.lean ====
section
/-!
SUPPORT. The frame of each operation of Sys2Proof/Machine/Sensing.lean: the parts of the state that it can change.
-/
namespace Sys2Proof.Machine
set_option Elab.async false

theorem execFcvCorrWrite_kept (who : Requester) (n : Nat) (value : Word) (s : State) : KeptOut [.po, .cores, .lsc, .ssm, .dbg,
    .linkTries, .resp, .reg .SYS_WERR_CODE, .reg .FCV_CHn_CORR, .reg .LSC_STAT, .reg .SSM_WDSTATn, .reg .DBG_REPLAYn, .reg
    .DBG_HALTSt] s (execFcvCorrWrite who n value s) := by
  unfold execFcvCorrWrite
  repeat' first
    | with_reducible apply KeptOut.next | with_reducible apply KeptOut.ite | with_reducible exact .refl _ _
    | with_reducible assumption | with_reducible refine .ite ?_ ?_
    | with_reducible apply Kept.via (State.plainWrite_kept (.FCV_CHn_CORR _) ..) | with_reducible apply State.tryWrite_kept
    | with_reducible apply State.accessBy_kept | exact rfl | split | dsimp only | intro _

theorem execRndCorrWrite_kept (who : Requester) (r k : Nat) (value : Word) (s : State) : KeptOut [.po, .cores, .lsc, .ssm,
    .dbg, .linkTries, .resp, .reg .SYS_WERR_CODE, .reg .RNDr_CORRk, .reg .LSC_STAT, .reg .SSM_WDSTATn, .reg .DBG_REPLAYn, .reg
    .DBG_HALTSt] s (execRndCorrWrite who r k value s) := by
  unfold execRndCorrWrite
  repeat' first
    | with_reducible apply KeptOut.next | with_reducible exact .refl _ _ | with_reducible assumption
    | with_reducible apply Kept.via (State.plainWrite_kept (.RNDr_CORRk _ _) ..) | with_reducible apply State.tryWrite_kept
    | with_reducible apply State.accessBy_kept | exact rfl | dsimp only | intro _

theorem execPosOfsWrite_kept (who : Requester) (k : Nat) (value : Word) (s : State) : KeptOut [.po, .cores, .lsc, .ssm, .dbg,
    .linkTries, .resp, .reg .SYS_WERR_CODE, .reg .POSk_OFS, .reg .LSC_STAT, .reg .SSM_WDSTATn, .reg .DBG_REPLAYn, .reg
    .DBG_HALTSt] s (execPosOfsWrite who k value s) := by
  unfold execPosOfsWrite
  repeat' first
    | with_reducible apply KeptOut.next | with_reducible apply KeptOut.ite | with_reducible exact .refl _ _
    | with_reducible assumption | with_reducible refine .ite ?_ ?_
    | with_reducible apply Kept.via (State.plainWrite_kept (.POSk_OFS _) ..) | with_reducible apply State.tryWrite_kept
    | with_reducible apply State.accessBy_kept | exact rfl | split | dsimp only | intro _

theorem specRndRun_kept  (s : State) (m : Msg) (k : Nat) : Kept [.units, .rnd, .reg .RNDr_STATE] s (specRndRun.run s m k).1 :=
    by
  unfold specRndRun
  try dsimp only
  repeat' first
    | with_reducible exact .refl _ _ | with_reducible assumption | with_reducible refine .ite ?_ ?_
    | with_reducible apply Kept.via (State.setUst_kept ..) | with_reducible apply Kept.via (doneWith_kept ..)
    | with_reducible apply Kept.via (doneWith_kept_eq (by assumption)) | with_reducible apply Kept.via (State.rndStart_kept ..)
    | exact rfl

theorem specRndHalt_kept  (s : State) (m : Msg) (k : Nat) : Kept [.units, .po, .rnd] s (specRndHalt.run s m k).1 := by
  unfold specRndHalt
  try dsimp only
  repeat' first
    | with_reducible exact .refl _ _ | with_reducible assumption | with_reducible apply Kept.via (State.setUst_kept ..)
    | with_reducible apply Kept.via (acceptedWith_kept ..)
    | with_reducible apply Kept.via (acceptedWith_kept_eq (by assumption))
    | with_reducible apply Kept.via (State.updRd_kept ..) | with_reducible apply Kept.via (State.rndSettle_kept ..) | exact rfl

theorem specRndUrgent_kept  (s : State) (m : Msg) (k : Nat) : Kept [.rnd, .reg .RNDr_STATE, .reg .RNDr_RQSTAT, .reg .RNDr_RQLO,
    .reg .RNDr_RQHI] s (specRndUrgent.run s m k).1 := by
  unfold specRndUrgent
  try dsimp only
  repeat' first
    | with_reducible exact .refl _ _ | with_reducible assumption | with_reducible refine .ite ?_ ?_
    | with_reducible apply Kept.via (acceptedWith_kept ..)
    | with_reducible apply Kept.via (acceptedWith_kept_eq (by assumption))
    | with_reducible apply Kept.via (State.urgentPush_kept ..) | exact rfl

theorem specRndClear_kept  (s : State) (m : Msg) (k : Nat) : Kept [.units] s (specRndClear.run s m k).1 := by
  unfold specRndClear
  try dsimp only
  repeat' first
    | with_reducible exact .refl _ _ | with_reducible assumption | with_reducible refine .ite ?_ ?_
    | with_reducible apply Kept.via (State.setUst_kept ..) | with_reducible apply Kept.via (doneWith_kept ..)
    | with_reducible apply Kept.via (doneWith_kept_eq (by assumption)) | exact rfl

theorem execRndRun_kept (m : Msg) (s : State) : KeptOut (Part.receipt [.units, .rnd, .reg .PST_OUTST, .reg .PST_MERR_CODE, .reg
    .RNDr_STATE]) s (execRndRun m s) := by
  unfold execRndRun
  repeat' first
    | with_reducible apply KeptOut.next | with_reducible exact .refl _ _
    | with_reducible apply deliver_kept rfl (fun s m k => (specRndRun_kept s m k).mono rfl) _ _

theorem execRndHalt_kept (m : Msg) (s : State) : KeptOut (Part.receipt [.units, .rnd, .reg .PST_OUTST, .reg .PST_MERR_CODE]) s
    (execRndHalt m s) := by
  unfold execRndHalt
  repeat' first
    | with_reducible apply KeptOut.next | with_reducible exact .refl _ _
    | with_reducible apply deliver_kept rfl (fun s m k => (specRndHalt_kept s m k).mono rfl) _ _

theorem execRndUrgent_kept (m : Msg) (s : State) : KeptOut (Part.receipt [.rnd, .reg .PST_OUTST, .reg .PST_MERR_CODE, .reg
    .RNDr_STATE, .reg .RNDr_RQSTAT, .reg .RNDr_RQLO, .reg .RNDr_RQHI]) s (execRndUrgent m s) := by
  unfold execRndUrgent
  repeat' first
    | with_reducible apply KeptOut.next | with_reducible exact .refl _ _
    | with_reducible apply deliver_kept rfl (fun s m k => (specRndUrgent_kept s m k).mono rfl) _ _

theorem execRndClear_kept (m : Msg) (s : State) : KeptOut (Part.receipt [.units, .reg .PST_OUTST, .reg .PST_MERR_CODE]) s
    (execRndClear m s) := by
  unfold execRndClear
  repeat' first
    | with_reducible apply KeptOut.next | with_reducible exact .refl _ _
    | with_reducible apply deliver_kept rfl (fun s m k => (specRndClear_kept s m k).mono rfl) _ _

theorem State.rndSeen_kept (s : State) (r ch : Nat) (entry : List Byte) : Kept [.po, .eng, .mdl, .tra, .rgl, .ldg, .ssm, .reg
    .FEn_EVT, .reg .FEn_WDCNT, .reg .REG_VIN, .reg .LDG_EVT, .reg .LDG_WQSTAT, .reg .LDG_PNf] s (State.rndSeen s r ch entry) :=
    by
  unfold State.rndSeen
  try dsimp only
  repeat' first
    | with_reducible exact .refl _ _ | with_reducible assumption | with_reducible apply Kept.via (State.chopCheck_kept ..)
    | with_reducible apply Kept.via (State.regRound_kept ..) | exact rfl

theorem State.urgentStart_kept (s : State) (r : Nat) : Kept [.rnd, .reg .RNDr_STATE, .reg .RNDr_RQSTAT, .reg .RNDr_RQLO, .reg
    .RNDr_RQHI] s (State.urgentStart s r) := by
  unfold State.urgentStart
  try dsimp only
  repeat' first
    | with_reducible exact .refl _ _ | with_reducible assumption | with_reducible refine .ite ?_ ?_
    | with_reducible apply Kept.via (State.updRd_kept ..) | with_reducible apply Kept.via (State.syncRnd_kept ..) | exact rfl
    | split

theorem State.entryDone_kept (s : State) (r entry : Nat) (watch : Bool) : Kept [.rnd, .reg .RNDr_STATE, .reg .RNDr_RQSTAT, .reg
    .RNDr_RQLO, .reg .RNDr_RQHI] s (State.entryDone s r entry watch) := by
  unfold State.entryDone
  try dsimp only
  repeat' first
    | with_reducible exact .refl _ _ | with_reducible assumption | with_reducible refine .ite ?_ ?_
    | with_reducible apply Kept.via (State.setFld_kept (.RNDr_STATE _) ..)
    | with_reducible apply Kept.via (State.updRd_kept ..) | with_reducible apply Kept.via (State.urgentStart_kept ..)
    | exact rfl

theorem State.roundLost_kept (s : State) (n : Nat) : Kept [.po, .rnd, .reg .RNDr_STATE, .reg .RNDr_EVT, .reg .RNDr_RQSTAT, .reg
    .RNDr_RQLO, .reg .RNDr_RQHI] s (State.roundLost s n) := by
  unfold State.roundLost
  try dsimp only
  repeat' first
    | with_reducible exact .refl _ _ | with_reducible assumption | with_reducible refine .ite ?_ ?_
    | with_reducible apply Kept.via (State.setFlag_kept (.RNDr_EVT _) ..)
    | with_reducible apply Kept.via (State.hwFinish_kept ..) | with_reducible apply Kept.via (State.updRd_kept ..)
    | with_reducible apply Kept.via (State.rndSettle_kept ..) | with_reducible apply Kept.via (State.urgentStart_kept ..)
    | with_reducible apply Kept.via (State.entryDone_kept ..) | exact rfl | split

theorem execRoundEntryResult_kept (r entry : Nat) (raw : List Nat) (s : State) : KeptOut [.po, .eng, .mdl, .rnd, .tra, .rgl,
    .ldg, .ssm, .linkTries, .reg .FEn_EVT, .reg .FEn_WDCNT, .reg .RNDr_STATE, .reg .RNDr_EVT, .reg .RNDr_RQSTAT, .reg
    .RNDr_RQLO, .reg .RNDr_RQHI, .reg .RNDr_LASTc, .reg .REG_VIN, .reg .LDG_EVT, .reg .LDG_WQSTAT, .reg .LDG_PNf] s
    (execRoundEntryResult r entry raw s) := by
  unfold execRoundEntryResult
  repeat' first
    | with_reducible apply KeptOut.next | with_reducible apply KeptOut.ite | with_reducible exact .refl _ _
    | with_reducible assumption | with_reducible refine .ite ?_ ?_ | with_reducible apply Kept.via (State.linkDone_kept ..)
    | with_reducible apply Kept.via (State.rndDeliver_kept ..)
    | with_reducible apply Kept.via (State.rndDeliver_kept_eq (by assumption))
    | with_reducible apply Kept.via (State.rndSettle_kept ..) | with_reducible apply Kept.via (State.rndSeen_kept ..)
    | with_reducible apply Kept.via (State.entryDone_kept ..) | with_reducible refine .foldl (fun _ _ => ?_) ?_ | exact rfl

theorem execUrgentArrival_kept (r activity : Nat) (s : State) : KeptOut [.rnd, .reg .RNDr_STATE, .reg .RNDr_RQSTAT, .reg
    .RNDr_RQLO, .reg .RNDr_RQHI] s (execUrgentArrival r activity s) := by
  unfold execUrgentArrival
  repeat' first
    | with_reducible apply KeptOut.next | with_reducible apply KeptOut.ite | with_reducible exact .refl _ _
    | with_reducible assumption | with_reducible refine .ite ?_ ?_ | with_reducible apply Kept.via (State.updRd_kept ..)
    | with_reducible apply Kept.via (State.urgentStart_kept ..) | exact rfl

theorem execUrgentResult_kept (r raw : Nat) (s : State) : KeptOut [.po, .eng, .mdl, .rnd, .tra, .rgl, .ldg, .ssm, .linkTries,
    .reg .FEn_EVT, .reg .FEn_WDCNT, .reg .RNDr_STATE, .reg .RNDr_EVT, .reg .RNDr_URGRES, .reg .RNDr_RQSTAT, .reg .RNDr_RQLO,
    .reg .RNDr_RQHI, .reg .RNDr_LASTc, .reg .REG_VIN, .reg .LDG_EVT, .reg .LDG_WQSTAT, .reg .LDG_PNf] s (execUrgentResult r raw
    s) := by
  unfold execUrgentResult
  repeat' first
    | with_reducible apply KeptOut.next | with_reducible apply KeptOut.ite | with_reducible exact .refl _ _
    | with_reducible assumption | with_reducible refine .ite ?_ ?_
    | with_reducible apply Kept.via (State.setFlag_kept (.RNDr_EVT _) ..)
    | with_reducible apply Kept.via (State.setReg_kept (.RNDr_URGRES _) ..)
    | with_reducible apply Kept.via (State.hwFinish_kept ..) | with_reducible apply Kept.via (State.linkDone_kept ..)
    | with_reducible apply Kept.via (State.updRd_kept ..) | with_reducible apply Kept.via (State.rndDeliver_kept ..)
    | with_reducible apply Kept.via (State.rndDeliver_kept_eq (by assumption))
    | with_reducible apply Kept.via (State.rndSettle_kept ..) | with_reducible apply Kept.via (State.rndSeen_kept ..)
    | with_reducible apply Kept.via (State.urgentStart_kept ..) | exact rfl | split

theorem execRefreshLapse_kept (r entry : Nat) (s : State) : KeptOut [.rnd, .reg .RNDr_EVT, .reg .RNDr_STALE] s
    (execRefreshLapse r entry s) := by
  unfold execRefreshLapse
  repeat' first
    | with_reducible apply KeptOut.next | with_reducible apply KeptOut.ite | with_reducible exact .refl _ _
    | with_reducible assumption | with_reducible refine .ite ?_ ?_
    | with_reducible apply Kept.via (State.incSat_kept (.RNDr_STALE _) ..)
    | with_reducible apply Kept.via (State.setFlag_kept (.RNDr_EVT _) ..)
    | with_reducible apply Kept.via (State.setFld_kept (.RNDr_STALE _) ..)
    | with_reducible apply Kept.via (State.updRd_kept ..) | exact rfl

theorem execReferenceFault_kept (r : Nat) (bad : Bool) (s : State) : KeptOut [.po, .rnd, .reg .RNDr_STATE, .reg .RNDr_EVT, .reg
    .RNDr_RQSTAT, .reg .RNDr_RQLO, .reg .RNDr_RQHI] s (execReferenceFault r bad s) := by
  unfold execReferenceFault
  repeat' first
    | with_reducible apply KeptOut.next | with_reducible apply KeptOut.ite | with_reducible exact .refl _ _
    | with_reducible assumption | with_reducible refine .ite ?_ ?_
    | with_reducible apply Kept.via (State.setFlag_kept (.RNDr_EVT _) ..)
    | with_reducible apply Kept.via (State.hwFault_kept ..) | with_reducible apply Kept.via (State.updRd_kept ..)
    | with_reducible apply Kept.via (State.syncRnd_kept ..) | exact rfl

theorem execRndUrgWrite_kept (who : Requester) (r : Nat) (value : Word) (s : State) : KeptOut [.po, .rnd, .cores, .lsc, .ssm,
    .dbg, .linkTries, .resp, .reg .SYS_WERR_CODE, .reg .RNDr_STATE, .reg .RNDr_RQSTAT, .reg .RNDr_RQLO, .reg .RNDr_RQHI, .reg
    .LSC_STAT, .reg .SSM_WDSTATn, .reg .DBG_REPLAYn, .reg .DBG_HALTSt] s (execRndUrgWrite who r value s) := by
  unfold execRndUrgWrite
  repeat' first
    | with_reducible apply KeptOut.next | with_reducible apply KeptOut.ite | with_reducible exact .refl _ _
    | with_reducible assumption | with_reducible refine .ite ?_ ?_ | with_reducible apply State.tryWrite_kept
    | with_reducible apply State.accessBy_kept | with_reducible apply Kept.via (State.urgentPush_kept ..) | exact rfl | split
    | dsimp only | intro _

theorem execRoundQueueRead_kept (who : Requester) (r : Nat) (s : State) : KeptOut [.po, .rnd, .cores, .lsc, .ssm, .dbg,
    .linkTries, .resp, .reg .SYS_WERR_CODE, .reg .RNDr_STATE, .reg .RNDr_RQSTAT, .reg .RNDr_RQLO, .reg .RNDr_RQHI, .reg
    .LSC_STAT, .reg .SSM_WDSTATn, .reg .DBG_REPLAYn, .reg .DBG_HALTSt] s (execRoundQueueRead who r s) := by
  unfold execRoundQueueRead
  repeat' first
    | with_reducible apply KeptOut.next | with_reducible exact .refl _ _ | with_reducible assumption
    | with_reducible apply Kept.via (State.respond_kept ..) | with_reducible apply State.accessBy_kept
    | with_reducible apply Kept.via (State.updRd_kept ..) | with_reducible apply Kept.via (State.syncRnd_kept ..) | exact rfl
    | split

theorem execUrgentResultRead_kept (who : Requester) (r : Nat) (s : State) : KeptOut [.po, .cores, .lsc, .ssm, .dbg, .linkTries,
    .resp, .reg .SYS_WERR_CODE, .reg .RNDr_URGRES, .reg .LSC_STAT, .reg .SSM_WDSTATn, .reg .DBG_REPLAYn, .reg .DBG_HALTSt] s
    (execUrgentResultRead who r s) := by
  unfold execUrgentResultRead
  repeat' first
    | with_reducible apply KeptOut.next | with_reducible exact .refl _ _ | with_reducible assumption
    | with_reducible apply Kept.via (State.clrFlag_kept (.RNDr_URGRES _) ..)
    | with_reducible apply Kept.via (State.respond_kept ..) | with_reducible apply State.accessBy_kept | exact rfl

theorem State.posStart_kept (s : State) : Kept [.units, .pos] s (State.posStart s) := by
  unfold State.posStart
  try dsimp only
  repeat' first
    | with_reducible exact .refl _ _ | with_reducible assumption | with_reducible apply Kept.via (State.setUst_kept ..)
    | with_reducible apply Kept.via (State.updPs_kept ..) | with_reducible refine .each (fun _ _ => ?_) ?_ | exact rfl

theorem State.posHalt_kept (s : State) : Kept [.units, .pos, .reg .POS_STATE, .reg .POS_EVT, .reg .POSk_STAT] s (State.posHalt
    s) := by
  unfold State.posHalt
  try dsimp only
  repeat' first
    | with_reducible exact .refl _ _ | with_reducible assumption
    | with_reducible apply Kept.via (State.clrFlag_kept (.POSk_STAT _) ..)
    | with_reducible apply Kept.via (State.setUst_kept ..) | with_reducible apply Kept.via (State.updPs_kept ..)
    | with_reducible apply Kept.via (State.setPosValid_kept ..) | with_reducible refine .each (fun _ _ => ?_) ?_ | exact rfl

theorem specPosRun_kept  (s : State) (m : Msg) (k : Nat) : Kept [.units, .pos] s (specPosRun.run s m k).1 := by
  unfold specPosRun
  try dsimp only
  repeat' first
    | with_reducible exact .refl _ _ | with_reducible assumption | with_reducible apply Kept.via (doneWith_kept ..)
    | with_reducible apply Kept.via (doneWith_kept_eq (by assumption)) | with_reducible apply Kept.via (State.posStart_kept ..)
    | exact rfl

theorem specPosStop_kept  (s : State) (m : Msg) (k : Nat) : Kept [.units, .pos, .reg .POS_STATE, .reg .POS_EVT, .reg
    .POSk_STAT] s (specPosStop.run s m k).1 := by
  unfold specPosStop
  try dsimp only
  repeat' first
    | with_reducible exact .refl _ _ | with_reducible assumption | with_reducible refine .ite ?_ ?_
    | with_reducible apply Kept.via (doneWith_kept ..) | with_reducible apply Kept.via (doneWith_kept_eq (by assumption))
    | with_reducible apply Kept.via (State.posHalt_kept ..) | exact rfl

theorem execPosRun_kept (m : Msg) (s : State) : KeptOut (Part.receipt [.units, .pos, .reg .PST_OUTST, .reg .PST_MERR_CODE]) s
    (execPosRun m s) := by
  unfold execPosRun
  repeat' first
    | with_reducible apply KeptOut.next | with_reducible exact .refl _ _
    | with_reducible apply deliver_kept rfl (fun s m k => (specPosRun_kept s m k).mono rfl) _ _

theorem execPosStop_kept (m : Msg) (s : State) : KeptOut (Part.receipt [.units, .pos, .reg .PST_OUTST, .reg .PST_MERR_CODE,
    .reg .POS_STATE, .reg .POS_EVT, .reg .POSk_STAT]) s (execPosStop m s) := by
  unfold execPosStop
  repeat' first
    | with_reducible apply KeptOut.next | with_reducible exact .refl _ _
    | with_reducible apply deliver_kept rfl (fun s m k => (specPosStop_kept s m k).mono rfl) _ _

theorem execResolverFault_kept (k flag : Nat) (s : State) : KeptOut [.pos, .reg .POS_STATE, .reg .POS_EVT, .reg .POSk_STAT,
    .reg .POSk_FLT] s (execResolverFault k flag s) := by
  unfold execResolverFault
  repeat' first
    | with_reducible apply KeptOut.next | with_reducible apply KeptOut.ite | with_reducible exact .refl _ _
    | with_reducible assumption | with_reducible refine .ite ?_ ?_ | with_reducible apply Kept.via (State.updPs_kept ..)
    | with_reducible apply Kept.via (State.setPosValid_kept ..) | with_reducible apply Kept.via (State.posFlag_kept ..)
    | exact rfl

theorem execResolverValidReturn_kept (k : Nat) (s : State) : KeptOut [.pos, .reg .POS_STATE, .reg .POS_EVT, .reg .POSk_STAT] s
    (execResolverValidReturn k s) := by
  unfold execResolverValidReturn
  repeat' first
    | with_reducible apply KeptOut.next | with_reducible apply KeptOut.ite | with_reducible exact .refl _ _
    | with_reducible assumption | with_reducible refine .ite ?_ ?_ | with_reducible apply Kept.via (State.updPs_kept ..)
    | with_reducible apply Kept.via (State.setPosValid_kept ..) | exact rfl

theorem execExcitationRestart_kept (k : Nat) (s : State) : KeptOut [.pos] s (execExcitationRestart k s) := by
  unfold execExcitationRestart
  repeat' first
    | with_reducible apply KeptOut.next | with_reducible apply KeptOut.ite | with_reducible exact .refl _ _
    | with_reducible assumption | with_reducible refine .ite ?_ ?_ | with_reducible apply Kept.via (State.updPs_kept ..)
    | exact rfl

theorem State.encPublish_kept (s : State) (k : Nat) : Kept [.pos, .reg .POSk_ANG] s (State.encPublish s k) := by
  unfold State.encPublish
  try dsimp only
  repeat' first
    | with_reducible exact .refl _ _ | with_reducible assumption
    | with_reducible apply Kept.via (State.setReg_kept (.POSk_ANG _) ..) | with_reducible apply Kept.via (State.updPs_kept ..)
    | exact rfl

theorem State.encStep_kept (s : State) (k : Nat) (d : Int) : Kept [.pos, .reg .POS_STATE, .reg .POS_EVT, .reg .POSk_ANG, .reg
    .POSk_SPD, .reg .POSk_STAT, .reg .POSk_FLT] s (State.encStep s k d) := by
  unfold State.encStep
  try dsimp only
  repeat' first
    | with_reducible exact .refl _ _ | with_reducible assumption | with_reducible refine .ite ?_ ?_
    | with_reducible apply Kept.via (State.setReg_kept (.POSk_SPD _) ..) | with_reducible apply Kept.via (State.updPs_kept ..)
    | with_reducible apply Kept.via (State.setPosValid_kept ..) | with_reducible apply Kept.via (State.posFlag_kept ..)
    | with_reducible apply Kept.via (State.encPublish_kept ..) | exact rfl

theorem execEncoderCount_kept (k : Nat) (a0 b0 a b : Bool) (s : State) : KeptOut [.pos, .reg .POS_STATE, .reg .POS_EVT, .reg
    .POSk_ANG, .reg .POSk_SPD, .reg .POSk_STAT, .reg .POSk_FLT] s (execEncoderCount k a0 b0 a b s) := by
  unfold execEncoderCount
  repeat' first
    | with_reducible apply KeptOut.next | with_reducible apply KeptOut.ite | with_reducible exact .refl _ _
    | with_reducible assumption | with_reducible refine .ite ?_ ?_ | with_reducible apply Kept.via (State.updPs_kept ..)
    | with_reducible apply Kept.via (State.setPosValid_kept ..) | with_reducible apply Kept.via (State.posFlag_kept ..)
    | with_reducible apply Kept.via (State.encStep_kept ..) | exact rfl | split | dsimp only

theorem execEncoderIndex_kept (k : Nat) (s : State) : KeptOut [.pos, .reg .POS_STATE, .reg .POS_EVT, .reg .POSk_ANG, .reg
    .POSk_STAT, .reg .POSk_FLT] s (execEncoderIndex k s) := by
  unfold execEncoderIndex
  repeat' first
    | with_reducible apply KeptOut.next | with_reducible apply KeptOut.ite | with_reducible exact .refl _ _
    | with_reducible assumption | with_reducible refine .ite ?_ ?_
    | with_reducible apply Kept.via (State.setFlag_kept (.POSk_STAT _) ..)
    | with_reducible apply Kept.via (State.updPs_kept ..) | with_reducible apply Kept.via (State.setPosValid_kept ..)
    | with_reducible apply Kept.via (State.posFlag_kept ..) | with_reducible apply Kept.via (State.encPublish_kept ..)
    | exact rfl

theorem State.setSentValid_kept (s : State) (i : Nat) (v : Bool) : Kept [.po, .eng, .mdl, .sent, .chg, .act, .gbx, .ldg, .ssm,
    .reg .FEn_EVT, .reg .FEn_WDCNT, .reg .SENT_STATE, .reg .SENT_EVT, .reg .CHG_ILIM, .reg .CHG_FLT, .reg .CHG_EVT, .reg
    .ACk_STATE, .reg .GBX_STATE, .reg .GBX_EVT, .reg .GBX_FLT, .reg .GBX_POS0, .reg .GBX_POS1, .reg .LDG_EVT, .reg .LDG_WQSTAT,
    .reg .LDG_PNf] s (State.setSentValid s i v) := by
  unfold State.setSentValid
  try dsimp only
  repeat' first
    | with_reducible exact .refl _ _ | with_reducible assumption | with_reducible refine .ite ?_ ?_
    | with_reducible apply Kept.via (State.clrBit_kept (.SENT_STATE) ..)
    | with_reducible apply Kept.via (State.setBit_kept (.SENT_EVT) ..)
    | with_reducible apply Kept.via (State.setBit_kept (.SENT_STATE) ..) | with_reducible apply Kept.via (State.updSn_kept ..)
    | with_reducible apply Kept.via (State.gbxFrame_kept ..) | exact rfl

theorem specSentRun_kept  (s : State) (m : Msg) (k : Nat) : Kept [.units] s (specSentRun.run s m k).1 := by
  unfold specSentRun
  try dsimp only
  repeat' first
    | with_reducible exact .refl _ _ | with_reducible assumption | with_reducible apply Kept.via (State.setUst_kept ..)
    | with_reducible apply Kept.via (doneWith_kept ..) | with_reducible apply Kept.via (doneWith_kept_eq (by assumption))
    | exact rfl

theorem State.sentHalt_kept (s : State) : Kept [.units, .po, .eng, .mdl, .sent, .chg, .act, .gbx, .ldg, .ssm, .reg .FEn_EVT,
    .reg .FEn_WDCNT, .reg .SENT_STATE, .reg .SENT_EVT, .reg .CHG_ILIM, .reg .CHG_FLT, .reg .CHG_EVT, .reg .ACk_STATE, .reg
    .GBX_STATE, .reg .GBX_EVT, .reg .GBX_FLT, .reg .GBX_POS0, .reg .GBX_POS1, .reg .LDG_EVT, .reg .LDG_WQSTAT, .reg .LDG_PNf] s
    (State.sentHalt s) := by
  unfold State.sentHalt
  try dsimp only
  repeat' first
    | with_reducible exact .refl _ _ | with_reducible assumption | with_reducible apply Kept.via (State.setUst_kept ..)
    | with_reducible apply Kept.via (State.updSn_kept ..) | with_reducible apply Kept.via (State.setSentValid_kept ..)
    | with_reducible refine .each (fun _ _ => ?_) ?_ | exact rfl

theorem specSentStop_kept  (s : State) (m : Msg) (k : Nat) : Kept [.units, .po, .eng, .mdl, .sent, .chg, .act, .gbx, .ldg,
    .ssm, .reg .FEn_EVT, .reg .FEn_WDCNT, .reg .SENT_STATE, .reg .SENT_EVT, .reg .CHG_ILIM, .reg .CHG_FLT, .reg .CHG_EVT, .reg
    .ACk_STATE, .reg .GBX_STATE, .reg .GBX_EVT, .reg .GBX_FLT, .reg .GBX_POS0, .reg .GBX_POS1, .reg .LDG_EVT, .reg .LDG_WQSTAT,
    .reg .LDG_PNf] s (specSentStop.run s m k).1 := by
  unfold specSentStop
  try dsimp only
  repeat' first
    | with_reducible exact .refl _ _ | with_reducible assumption | with_reducible apply Kept.via (doneWith_kept ..)
    | with_reducible apply Kept.via (doneWith_kept_eq (by assumption)) | with_reducible apply Kept.via (State.sentHalt_kept ..)
    | exact rfl

theorem execSentRun_kept (m : Msg) (s : State) : KeptOut (Part.receipt [.units, .reg .PST_OUTST, .reg .PST_MERR_CODE]) s
    (execSentRun m s) := by
  unfold execSentRun
  repeat' first
    | with_reducible apply KeptOut.next | with_reducible exact .refl _ _
    | with_reducible apply deliver_kept rfl (fun s m k => (specSentRun_kept s m k).mono rfl) _ _

theorem execSentStop_kept (m : Msg) (s : State) : KeptOut (Part.receipt [.units, .eng, .mdl, .sent, .chg, .act, .gbx, .ldg,
    .ssm, .reg .PST_OUTST, .reg .PST_MERR_CODE, .reg .FEn_EVT, .reg .FEn_WDCNT, .reg .SENT_STATE, .reg .SENT_EVT, .reg
    .CHG_ILIM, .reg .CHG_FLT, .reg .CHG_EVT, .reg .ACk_STATE, .reg .GBX_STATE, .reg .GBX_EVT, .reg .GBX_FLT, .reg .GBX_POS0,
    .reg .GBX_POS1, .reg .LDG_EVT, .reg .LDG_WQSTAT, .reg .LDG_PNf]) s (execSentStop m s) := by
  unfold execSentStop
  repeat' first
    | with_reducible apply KeptOut.next | with_reducible exact .refl _ _
    | with_reducible apply deliver_kept rfl (fun s m k => (specSentStop_kept s m k).mono rfl) _ _

theorem State.sentError_kept (s : State) (i e : Nat) : Kept [.sent, .reg .SENT_EVT, .reg .SENTi_ERR] s (State.sentError s i e)
    := by
  unfold State.sentError
  try dsimp only
  repeat' first
    | with_reducible exact .refl _ _ | with_reducible assumption | with_reducible refine .ite ?_ ?_
    | with_reducible apply Kept.via (State.incSat_kept (.SENTi_ERR _) ..)
    | with_reducible apply Kept.via (State.setBit_kept (.SENT_EVT) ..)
    | with_reducible apply Kept.via (State.setFld_kept (.SENTi_ERR _) ..) | with_reducible apply Kept.via (State.updSn_kept ..)
    | exact rfl

theorem State.sentGood_kept (s : State) (i : Nat) (f : SentIn) : Kept [.po, .eng, .mdl, .sent, .chg, .act, .gbx, .ldg, .ssm,
    .reg .FEn_EVT, .reg .FEn_WDCNT, .reg .SENT_STATE, .reg .SENT_EVT, .reg .SENTi_FAST, .reg .SENTi_ERR, .reg .SENTi_TIME, .reg
    .CHG_ILIM, .reg .CHG_FLT, .reg .CHG_EVT, .reg .ACk_STATE, .reg .GBX_STATE, .reg .GBX_EVT, .reg .GBX_FLT, .reg .GBX_POS0,
    .reg .GBX_POS1, .reg .LDG_EVT, .reg .LDG_WQSTAT, .reg .LDG_PNf] s (State.sentGood s i f) := by
  unfold State.sentGood
  try dsimp only
  repeat' first
    | with_reducible exact .refl _ _ | with_reducible assumption | with_reducible refine .ite ?_ ?_
    | with_reducible apply Kept.via (State.setBit_kept (.SENT_EVT) ..)
    | with_reducible apply Kept.via (State.setFld_kept (.SENTi_ERR _) ..)
    | with_reducible apply Kept.via (State.setReg_kept (.SENTi_FAST _) ..)
    | with_reducible apply Kept.via (State.setReg_kept (.SENTi_TIME _) ..)
    | with_reducible apply Kept.via (State.updSn_kept ..) | with_reducible apply Kept.via (State.gbxFrame_kept ..)
    | with_reducible apply Kept.via (State.setSentValid_kept ..) | with_reducible refine .foldl (fun _ _ => ?_) ?_ | exact rfl

theorem execSentFrame_kept (i sync status : Nat) (data : List Nat) (pause : Option Nat) (s : State) : KeptOut [.po, .eng, .mdl,
    .sent, .chg, .act, .gbx, .ldg, .ssm, .reg .FEn_EVT, .reg .FEn_WDCNT, .reg .SENT_STATE, .reg .SENT_EVT, .reg .SENTi_FAST,
    .reg .SENTi_SLOW, .reg .SENTi_ERR, .reg .SENTi_TIME, .reg .CHG_ILIM, .reg .CHG_FLT, .reg .CHG_EVT, .reg .ACk_STATE, .reg
    .GBX_STATE, .reg .GBX_EVT, .reg .GBX_FLT, .reg .GBX_POS0, .reg .GBX_POS1, .reg .LDG_EVT, .reg .LDG_WQSTAT, .reg .LDG_PNf] s
    (execSentFrame i sync status data pause s) := by
  unfold execSentFrame
  repeat' first
    | with_reducible apply KeptOut.next | with_reducible apply KeptOut.ite | with_reducible exact .refl _ _
    | with_reducible assumption | with_reducible refine .ite ?_ ?_
    | with_reducible apply Kept.via (State.incSat_kept (.SENTi_ERR _) ..)
    | with_reducible apply Kept.via (State.setBit_kept (.SENT_EVT) ..)
    | with_reducible apply Kept.via (State.setReg_kept (.SENTi_SLOW _) ..)
    | with_reducible apply Kept.via (State.updSn_kept ..) | with_reducible apply Kept.via (State.setSentValid_kept ..)
    | with_reducible apply Kept.via (State.sentError_kept ..) | with_reducible apply Kept.via (State.sentGood_kept ..)
    | exact rfl | split | dsimp only

theorem execSentTimeout_kept (i : Nat) (s : State) : KeptOut [.po, .eng, .mdl, .sent, .chg, .act, .gbx, .ldg, .ssm, .reg
    .FEn_EVT, .reg .FEn_WDCNT, .reg .SENT_STATE, .reg .SENT_EVT, .reg .CHG_ILIM, .reg .CHG_FLT, .reg .CHG_EVT, .reg .ACk_STATE,
    .reg .GBX_STATE, .reg .GBX_EVT, .reg .GBX_FLT, .reg .GBX_POS0, .reg .GBX_POS1, .reg .LDG_EVT, .reg .LDG_WQSTAT, .reg
    .LDG_PNf] s (execSentTimeout i s) := by
  unfold execSentTimeout
  repeat' first
    | with_reducible apply KeptOut.next | with_reducible apply KeptOut.ite | with_reducible exact .refl _ _
    | with_reducible assumption | with_reducible refine .ite ?_ ?_ | with_reducible apply Kept.via (State.updSn_kept ..)
    | with_reducible apply Kept.via (State.setSentValid_kept ..) | exact rfl

theorem execSampleTrigger_kept (n : Nat) (_early : Bool) (_apert : List Nat) (angles : List PosIn) (s : State) : KeptOut [.eng,
    .pos, .reg .FEn_ADFAC, .reg .MOD_EVT, .reg .MOD_LCNTn, .reg .POSk_ANG, .reg .POSk_SPD, .reg .POSk_STAT] s
    (execSampleTrigger n _early _apert angles s) := by
  unfold execSampleTrigger
  repeat' first
    | with_reducible apply KeptOut.next | with_reducible apply KeptOut.ite | with_reducible exact .refl _ _
    | with_reducible assumption | with_reducible refine .ite ?_ ?_
    | with_reducible apply Kept.via (State.incSat_kept (.MOD_LCNTn _) ..)
    | with_reducible apply Kept.via (State.setFlag_kept (.MOD_EVT) ..) | with_reducible apply Kept.via (State.updE_kept ..)
    | with_reducible apply Kept.via (State.settleReset_kept ..) | with_reducible apply Kept.via (State.resolverIn_kept ..)
    | with_reducible refine .each (fun _ _ => ?_) ?_ | exact rfl

theorem State.linkRetry_kept {c : List Part} {s t : State} {kind n : Nat} {f : State → State} (m : Part.sub [.linkTries] c =
    true)
    (h : ∀ u, Kept c u (f u)) (k : Kept c s t) : Kept c s (t.linkRetry kind n f) :=
  .ite (.via (State.setTries_kept ..) m k) ((Kept.via (State.setTries_kept ..) m k).trans (h _))

theorem State.linkBusError_kept (s : State) (n : Nat) : Kept [.cores, .dbg, .resp] s (State.linkBusError s n) := by
  unfold State.linkBusError
  try dsimp only
  repeat' first
    | with_reducible exact .refl _ _ | with_reducible assumption | with_reducible refine .ite ?_ ?_
    | with_reducible apply Kept.via (State.sbFail_kept ..) | with_reducible apply Kept.via (State.raiseExc_kept ..)
    | (intro p; cases p <;> first | exact .inl (List.mem_of_elem_eq_true rfl) | exact .inr rfl | exact .inr True.intro)
    | exact rfl | split | dsimp only | with_reducible refine .update rfl rfl rfl ?_ ?_

theorem State.reportLost_kept (s : State) : Kept [.eng, .mdl, .ldg, .ssm, .linkTries, .reg .FEn_EVT, .reg .FEn_WDCNT, .reg
    .LDG_EVT, .reg .LDG_WQSTAT, .reg .LDG_PNf, .reg .SSM_STATE, .reg .SSM_CAUSE, .reg .SSM_EVT, .reg .SSM_PAT0, .reg .SSM_PAT1,
    .reg .SSM_PATX] s (State.reportLost s) := by
  unfold State.reportLost
  try dsimp only
  repeat' first
    | with_reducible exact .refl _ _ | with_reducible assumption | with_reducible refine .ite ?_ ?_
    | with_reducible apply Kept.via (State.setTries_kept ..) | with_reducible apply Kept.via (State.ssmRaise_kept ..)
    | (intro p; cases p <;> first | exact .inl (List.mem_of_elem_eq_true rfl) | exact .inr rfl | exact .inr True.intro)
    | exact rfl | split | dsimp only | with_reducible refine .update rfl rfl rfl ?_ ?_

theorem execLinkFrameError_kept (ue : Bool) (kind n : Nat) (s : State) : KeptOut (Part.allBut [.variant, .split, .bootSplit,
    .up, .gf, .driveEn, .actEn, .recovery, .pending]) s (execLinkFrameError ue kind n s) := by
  unfold execLinkFrameError
  repeat' first
    | with_reducible apply KeptOut.next | with_reducible apply KeptOut.ite | with_reducible exact .refl _ _
    | with_reducible assumption | with_reducible refine .ite ?_ ?_
    | with_reducible apply Kept.via (State.setReg_kept (.MEM_CRIT) ..) | with_reducible apply Kept.via (State.setTries_kept ..)
    | with_reducible apply Kept.via (State.updE_kept ..) | with_reducible apply Kept.via (State.draw_kept ..)
    | with_reducible apply Kept.via (State.draw_kept_eq (by assumption))
    | with_reducible apply Kept.via (State.assertSource_kept ..) | with_reducible apply Kept.via (State.memError_kept ..)
    | with_reducible apply Kept.via (State.roundLost_kept ..) | with_reducible apply State.linkRetry_kept
    | with_reducible apply Kept.via (State.linkBusError_kept ..) | with_reducible apply Kept.via (State.reportLost_kept ..)
    | with_reducible refine .each (fun _ _ => ?_) ?_
    | (intro p; cases p <;> first | exact .inl (List.mem_of_elem_eq_true rfl) | exact .inr rfl | exact .inr True.intro)
    | exact rfl | split | dsimp only | intro _

end Sys2Proof.Machine
end

