-- ==== Sys2Proof/Laws/KeptSafeState.lean ====
section
/-!
SUPPORT. The frame of each operation of Sys2Proof/Machine/SafeState.lean: the parts of the state that it can change.
-/
namespace Sys2Proof.Machine
set_option Elab.async false

theorem State.mismatch_kept (s : State) (n classes : Nat) (pc : Word) : Kept (Part.allBut [.variant, .split, .bootSplit, .up,
    .gf, .driveEn, .actEn, .recovery, .resp, .tick, .pending]) s (State.mismatch s n classes pc) := by
  unfold State.mismatch
  try dsimp only
  repeat' first
    | with_reducible exact .refl _ _ | with_reducible assumption | with_reducible refine .ite ?_ ?_
    | with_reducible apply Kept.via (State.incSat_kept (.LSC_MCNTn _) ..)
    | with_reducible apply Kept.via (State.setBit_kept (.LSC_EVT) ..)
    | with_reducible apply Kept.via (State.setReg_kept (.LSC_MCAUSEn _) ..)
    | with_reducible apply Kept.via (State.setReg_kept (.LSC_MPCn _) ..)
    | with_reducible apply Kept.via (State.setReg_kept (.LSC_MTIMEn _) ..)
    | with_reducible apply Kept.via (State.journal_kept ..) | with_reducible apply Kept.via (State.sendFrame_kept ..)
    | with_reducible apply Kept.via (State.updCore_kept ..) | with_reducible apply Kept.via (State.setPair_kept ..)
    | with_reducible apply Kept.via (State.setLscStat_kept ..) | with_reducible apply Kept.via (State.assertSource_kept ..)
    | (intro p; cases p <;> first | exact .inl (List.mem_of_elem_eq_true rfl) | exact .inr rfl | exact .inr True.intro)
    | exact rfl | split | dsimp only | with_reducible refine .update rfl rfl rfl ?_ ?_

theorem execLockstepMismatch_kept (n : Nat) (flags : CmpIn × Bool) (pc : Word) (s : State) : KeptOut (Part.allBut [.variant,
    .split, .bootSplit, .up, .gf, .driveEn, .actEn, .recovery, .resp, .tick, .pending]) s (execLockstepMismatch n flags pc s)
    := by
  unfold execLockstepMismatch
  repeat' first
    | with_reducible apply KeptOut.next | with_reducible apply KeptOut.ite | with_reducible exact .refl _ _
    | with_reducible assumption | with_reducible refine .ite ?_ ?_ | with_reducible apply Kept.via (State.mismatch_kept ..)
    | exact rfl

theorem execComparatorSelfTest_kept (n : Nat) (tests : CmpIn × CmpIn) (pc : Word) (s : State) : KeptOut (Part.allBut [.variant,
    .split, .bootSplit, .up, .gf, .driveEn, .actEn, .recovery, .resp, .tick, .pending]) s (execComparatorSelfTest n tests pc s)
    := by
  unfold execComparatorSelfTest
  repeat' first
    | with_reducible apply KeptOut.next | with_reducible apply KeptOut.ite | with_reducible exact .refl _ _
    | with_reducible assumption | with_reducible refine .ite ?_ ?_
    | with_reducible apply Kept.via (State.clrBit_kept (.LSC_STEST) ..)
    | with_reducible apply Kept.via (State.setBit_kept (.LSC_STEST) ..) | with_reducible apply Kept.via (State.setPair_kept ..)
    | with_reducible apply Kept.via (State.mismatch_kept ..) | exact rfl

theorem State.report_kept (s : State) (src inst cause : Nat) : Kept (Part.allBut [.variant, .split, .bootSplit, .up, .gf,
    .driveEn, .actEn, .recovery, .resp, .tick, .pending]) s (State.report s src inst cause) := by
  unfold State.report
  try dsimp only
  repeat' first
    | with_reducible exact .refl _ _ | with_reducible assumption | with_reducible refine .ite ?_ ?_
    | with_reducible apply Kept.via (State.setFld_kept (.SSM_STATE) ..)
    | with_reducible apply Kept.via (State.ssmRaise_kept ..) | with_reducible apply Kept.via (State.ssmHoldFn_kept ..)
    | with_reducible apply Kept.via (State.ssmHoldAct_kept ..) | with_reducible apply Kept.via (State.ssmHoldReg_kept ..)
    | with_reducible apply Kept.via (State.ssmOv_kept ..) | with_reducible apply Kept.via (State.assertSource_kept ..)
    | exact rfl | split

theorem execFaultFrameReceived_kept (s : State) : KeptOut (Part.allBut [.variant, .split, .bootSplit, .up, .gf, .driveEn,
    .actEn, .recovery, .resp, .tick, .pending]) s (execFaultFrameReceived s) := by
  unfold execFaultFrameReceived
  repeat' first
    | with_reducible apply KeptOut.next | with_reducible exact .refl _ _ | with_reducible assumption
    | with_reducible apply Kept.via (State.setReg_kept (.SSM_LASTF) ..) | with_reducible apply Kept.via (State.report_kept ..)
    | (intro p; cases p <;> first | exact .inl (List.mem_of_elem_eq_true rfl) | exact .inr rfl | exact .inr True.intro)
    | exact rfl | split | dsimp only | with_reducible refine .update rfl rfl rfl ?_ ?_

theorem execHeartbeatReceived_kept (s : State) : KeptOut [.eng, .mdl, .ldg, .ssm, .reg .FEn_EVT, .reg .FEn_WDCNT, .reg
    .LDG_EVT, .reg .LDG_WQSTAT, .reg .LDG_PNf, .reg .SSM_STATE, .reg .SSM_CAUSE, .reg .SSM_EVT, .reg .SSM_ASC, .reg .SSM_PAT0,
    .reg .SSM_PAT1, .reg .SSM_PATX] s (execHeartbeatReceived s) := by
  unfold execHeartbeatReceived
  repeat' first
    | with_reducible apply KeptOut.next | with_reducible apply KeptOut.ite | with_reducible exact .refl _ _
    | with_reducible assumption | with_reducible refine .ite ?_ ?_
    | with_reducible apply Kept.via (State.clrBit_kept (.SSM_ASC) ..)
    | with_reducible apply Kept.via (State.setBit_kept (.SSM_ASC) ..)
    | with_reducible apply Kept.via (State.ssmRefresh_kept ..) | with_reducible apply Kept.via (State.ssmEnd_kept ..)
    | with_reducible refine .each (fun _ _ => ?_) ?_
    | (intro p; cases p <;> first | exact .inl (List.mem_of_elem_eq_true rfl) | exact .inr rfl | exact .inr True.intro)
    | exact rfl | split | dsimp only | with_reducible refine .update rfl rfl rfl ?_ ?_

theorem execHeartbeatTimeout_kept (s : State) : KeptOut [.eng, .mdl, .ldg, .ssm, .reg .FEn_EVT, .reg .FEn_WDCNT, .reg .LDG_EVT,
    .reg .LDG_WQSTAT, .reg .LDG_PNf, .reg .SSM_STATE, .reg .SSM_CAUSE, .reg .SSM_EVT, .reg .SSM_HB, .reg .SSM_PAT0, .reg
    .SSM_PAT1, .reg .SSM_PATX] s (execHeartbeatTimeout s) := by
  unfold execHeartbeatTimeout
  repeat' first
    | with_reducible apply KeptOut.next | with_reducible apply KeptOut.ite | with_reducible exact .refl _ _
    | with_reducible assumption | with_reducible refine .ite ?_ ?_
    | with_reducible apply Kept.via (State.setFld_kept (.SSM_HB) ..) | with_reducible apply Kept.via (State.ssmRaise_kept ..)
    | (intro p; cases p <;> first | exact .inl (List.mem_of_elem_eq_true rfl) | exact .inr rfl | exact .inr True.intro)
    | exact rfl | split | dsimp only | with_reducible refine .update rfl rfl rfl ?_ ?_

theorem State.wdExpire_kept (s : State) (n : Nat) : Kept (Part.allBut [.variant, .split, .bootSplit, .up, .gf, .driveEn,
    .actEn, .recovery, .resp, .tick, .pending]) s (State.wdExpire s n) := by
  unfold State.wdExpire
  try dsimp only
  repeat' first
    | with_reducible exact .refl _ _ | with_reducible assumption | with_reducible refine .ite ?_ ?_
    | with_reducible apply Kept.via (State.incSat_kept (.SSM_WDSTATn _) ..)
    | with_reducible apply Kept.via (State.setFld_kept (.SSM_WDSTATn _) ..)
    | with_reducible apply Kept.via (State.ssmRaise_kept ..) | with_reducible apply Kept.via (State.assertSource_kept ..)
    | exact rfl

theorem execWatchdogService_kept (who : Requester) (n : Nat) (key : Word) (_elapsed : Nat) (s : State) : KeptOut (Part.allBut
    [.variant, .split, .bootSplit, .up, .gf, .driveEn, .actEn, .recovery, .tick, .pending]) s (execWatchdogService who n key
    _elapsed s) := by
  unfold execWatchdogService
  repeat' first
    | with_reducible apply KeptOut.next | with_reducible apply KeptOut.ite | with_reducible exact .refl _ _
    | with_reducible assumption | with_reducible refine .ite ?_ ?_
    | with_reducible apply Kept.via (State.setFld_kept (.SSM_WDSTATn _) ..) | with_reducible apply State.tryWrite_kept
    | with_reducible apply Kept.via (State.setWd_kept ..) | with_reducible apply State.accessBy_kept
    | with_reducible apply Kept.via (State.wdExpire_kept ..) | exact rfl | split | dsimp only | intro _

theorem execWatchdogWarning_kept (n : Nat) (s : State) : KeptOut [.ssm, .reg .SSM_EVT] s (execWatchdogWarning n s) := by
  unfold execWatchdogWarning
  repeat' first
    | with_reducible apply KeptOut.next | with_reducible apply KeptOut.ite | with_reducible exact .refl _ _
    | with_reducible assumption | with_reducible refine .ite ?_ ?_
    | with_reducible apply Kept.via (State.setFlag_kept (.SSM_EVT) ..) | with_reducible apply Kept.via (State.setWd_kept ..)
    | (intro p; cases p <;> first | exact .inl (List.mem_of_elem_eq_true rfl) | exact .inr rfl | exact .inr True.intro)
    | exact rfl | split | dsimp only | with_reducible refine .update rfl rfl rfl ?_ ?_

theorem execWatchdogExpiry_kept (n : Nat) (s : State) : KeptOut (Part.allBut [.variant, .split, .bootSplit, .up, .gf, .driveEn,
    .actEn, .recovery, .resp, .tick, .pending]) s (execWatchdogExpiry n s) := by
  unfold execWatchdogExpiry
  repeat' first
    | with_reducible apply KeptOut.next | with_reducible apply KeptOut.ite | with_reducible exact .refl _ _
    | with_reducible assumption | with_reducible refine .ite ?_ ?_ | with_reducible apply Kept.via (State.wdExpire_kept ..)
    | exact rfl

theorem State.clockBad_kept (s : State) (i kind key : Nat) : Kept (Part.allBut [.variant, .split, .bootSplit, .up, .gf,
    .driveEn, .actEn, .recovery, .resp, .tick, .pending]) s (State.clockBad s i kind key) := by
  unfold State.clockBad
  try dsimp only
  repeat' first
    | with_reducible exact .refl _ _ | with_reducible assumption | with_reducible refine .ite ?_ ?_
    | with_reducible apply Kept.via (State.clrBit_kept (.CLK_STAT) ..)
    | with_reducible apply Kept.via (State.incSat_kept (.CLK_LAST) ..)
    | with_reducible apply Kept.via (State.setFld_kept (.CLK_LAST) ..)
    | with_reducible apply Kept.via (State.assertSource_kept ..) | exact rfl

theorem State.monCount_kept (s : State) (count : Nat) : Kept (Part.allBut [.variant, .bootSplit, .up, .gf, .driveEn, .actEn,
    .recovery, .resp, .tick, .pending]) s (State.monCount s count) := by
  unfold State.monCount
  try dsimp only
  repeat' first
    | with_reducible exact .refl _ _ | with_reducible assumption | with_reducible refine .ite ?_ ?_
    | with_reducible apply Kept.via (State.setBit_kept (.CLK_STAT) ..)
    | with_reducible apply Kept.via (State.setFld_kept (.CLK_FREQi _) ..)
    | with_reducible apply Kept.via (State.ssmRaise_kept ..) | with_reducible apply Kept.via (State.ssmEnd_kept ..)
    | with_reducible apply Kept.via (State.releaseSource_kept ..) | with_reducible apply Kept.via (State.clockBad_kept ..)
    | (intro p; cases p <;> first | exact .inl (List.mem_of_elem_eq_true rfl) | exact .inr rfl | exact .inr True.intro)
    | exact rfl | split | dsimp only | with_reducible refine .update rfl rfl rfl ?_ ?_

theorem execMonClockCheck_kept (count : Nat) (s : State) : KeptOut (Part.allBut [.variant, .bootSplit, .up, .gf, .driveEn,
    .actEn, .recovery, .resp, .tick, .pending]) s (execMonClockCheck count s) := by
  unfold execMonClockCheck
  repeat' first
    | with_reducible apply KeptOut.next | with_reducible exact .refl _ _
    | with_reducible apply Kept.via (State.monCount_kept ..) | exact rfl

theorem execFaultNAcknowledge_kept (who : Requester) (value : Word) (s : State) : KeptOut [.po, .cores, .lsc, .ssm, .dbg,
    .linkTries, .resp, .reg .SYS_WERR_CODE, .reg .LSC_STAT, .reg .SSM_STATE, .reg .SSM_WDSTATn, .reg .DBG_REPLAYn, .reg
    .DBG_HALTSt] s (execFaultNAcknowledge who value s) := by
  unfold execFaultNAcknowledge
  repeat' first
    | with_reducible apply KeptOut.next | with_reducible apply KeptOut.ite | with_reducible exact .refl _ _
    | with_reducible assumption | with_reducible refine .ite ?_ ?_
    | with_reducible apply Kept.via (State.setFld_kept (.SSM_STATE) ..) | with_reducible apply State.tryWrite_kept
    | with_reducible apply State.accessBy_kept | exact rfl | split | dsimp only | intro _

theorem specSsmRelease_kept  (s : State) (m : Msg) (k : Nat) : Kept [.eng, .mdl, .ldg, .ssm, .reg .FEn_EVT, .reg .FEn_WDCNT,
    .reg .LDG_EVT, .reg .LDG_WQSTAT, .reg .LDG_PNf, .reg .SSM_STATE, .reg .SSM_CAUSE, .reg .SSM_EVT, .reg .SSM_PAT0, .reg
    .SSM_PAT1, .reg .SSM_PATX] s (specSsmRelease.run s m k).1 := by
  unfold specSsmRelease
  try dsimp only
  repeat' first
    | with_reducible exact .refl _ _ | with_reducible assumption | with_reducible refine .ite ?_ ?_
    | with_reducible apply Kept.via (doneWith_kept ..) | with_reducible apply Kept.via (doneWith_kept_eq (by assumption))
    | with_reducible apply Kept.via (State.ssmEnd_kept ..) | exact rfl

theorem specSsmForce_kept  (s : State) (m : Msg) (k : Nat) : Kept [.eng, .mdl, .ldg, .ssm, .reg .FEn_EVT, .reg .FEn_WDCNT, .reg
    .LDG_EVT, .reg .LDG_WQSTAT, .reg .LDG_PNf, .reg .SSM_STATE, .reg .SSM_CAUSE, .reg .SSM_EVT, .reg .SSM_PAT0, .reg .SSM_PAT1,
    .reg .SSM_PATX] s (specSsmForce.run s m k).1 := by
  unfold specSsmForce
  try dsimp only
  repeat' first
    | with_reducible exact .refl _ _ | with_reducible assumption | with_reducible refine .ite ?_ ?_
    | with_reducible apply Kept.via (doneWith_kept ..) | with_reducible apply Kept.via (doneWith_kept_eq (by assumption))
    | with_reducible apply Kept.via (State.ssmRaise_kept ..) | exact rfl

theorem execSsmRelease_kept (m : Msg) (s : State) : KeptOut (Part.receipt [.eng, .mdl, .ldg, .ssm, .reg .PST_OUTST, .reg
    .PST_MERR_CODE, .reg .FEn_EVT, .reg .FEn_WDCNT, .reg .LDG_EVT, .reg .LDG_WQSTAT, .reg .LDG_PNf, .reg .SSM_STATE, .reg
    .SSM_CAUSE, .reg .SSM_EVT, .reg .SSM_PAT0, .reg .SSM_PAT1, .reg .SSM_PATX]) s (execSsmRelease m s) := by
  unfold execSsmRelease
  repeat' first
    | with_reducible apply KeptOut.next | with_reducible exact .refl _ _
    | with_reducible apply deliver_kept rfl (fun s m k => (specSsmRelease_kept s m k).mono rfl) _ _

theorem execSsmForce_kept (m : Msg) (s : State) : KeptOut (Part.receipt [.eng, .mdl, .ldg, .ssm, .reg .PST_OUTST, .reg
    .PST_MERR_CODE, .reg .FEn_EVT, .reg .FEn_WDCNT, .reg .LDG_EVT, .reg .LDG_WQSTAT, .reg .LDG_PNf, .reg .SSM_STATE, .reg
    .SSM_CAUSE, .reg .SSM_EVT, .reg .SSM_PAT0, .reg .SSM_PAT1, .reg .SSM_PATX]) s (execSsmForce m s) := by
  unfold execSsmForce
  repeat' first
    | with_reducible apply KeptOut.next | with_reducible exact .refl _ _
    | with_reducible apply deliver_kept rfl (fun s m k => (specSsmForce_kept s m k).mono rfl) _ _

end Sys2Proof.Machine
end

