-- ==== Sys2Proof/Laws/KeptResetCtl.lean ====
section
/-!
SUPPORT. The frame of each operation of Sys2Proof/Machine/ResetCtl.lean: the parts of the state that it can change.
-/
namespace Sys2Proof.Machine
set_option Elab.async false

theorem State.causeSource_kept (s : State) (id pairs : Nat) : Kept (Part.allBut [.variant, .split, .bootSplit, .up, .gf,
    .driveEn, .actEn, .recovery, .resp, .tick, .pending]) s (State.causeSource s id pairs) := by
  unfold State.causeSource
  try dsimp only
  repeat' first
    | with_reducible exact .refl _ _ | with_reducible assumption | with_reducible refine .ite ?_ ?_
    | with_reducible apply Kept.via (State.ssmRaise_kept ..) | with_reducible apply Kept.via (State.assertSource_kept ..)
    | exact rfl

theorem State.raiseSource_kept (s : State) (id pairs : Nat) : Kept (Part.allBut [.variant, .split, .bootSplit, .up, .gf,
    .driveEn, .actEn, .recovery, .resp, .tick, .pending]) s (State.raiseSource s id pairs) := by
  unfold State.raiseSource
  try dsimp only
  repeat' first
    | with_reducible exact .refl _ _ | with_reducible assumption | with_reducible refine .ite ?_ ?_
    | with_reducible apply Kept.via (State.causeSource_kept ..) | exact rfl

theorem execResetSourceAssert_kept (id pairs : Nat) (s : State) : KeptOut (Part.allBut [.variant, .split, .bootSplit, .up, .gf,
    .driveEn, .actEn, .recovery, .resp, .tick, .pending]) s (execResetSourceAssert id pairs s) := by
  unfold execResetSourceAssert
  repeat' first
    | with_reducible apply KeptOut.next | with_reducible apply KeptOut.ite | with_reducible exact .refl _ _
    | with_reducible assumption | with_reducible refine .ite ?_ ?_ | with_reducible apply Kept.via (State.raiseSource_kept ..)
    | exact rfl

theorem execResetSourceRelease_kept (id pairs : Nat) (s : State) : KeptOut [.split, .regs, .eng, .mdl, .ldg, .cores, .lsc,
    .ssm, .rst] s (execResetSourceRelease id pairs s) := by
  unfold execResetSourceRelease
  repeat' first
    | with_reducible apply KeptOut.next | with_reducible apply KeptOut.ite | with_reducible exact .refl _ _
    | with_reducible assumption | with_reducible refine .ite ?_ ?_ | with_reducible apply Kept.via (State.ssmEnd_kept ..)
    | with_reducible apply Kept.via (State.releaseSource_kept ..) | exact rfl

theorem execResetPulseEnd_kept (id pairs : Nat) (s : State) : KeptOut [.split, .regs, .eng, .mdl, .ldg, .cores, .lsc, .ssm,
    .rst] s (execResetPulseEnd id pairs s) := by
  unfold execResetPulseEnd
  repeat' first
    | with_reducible apply KeptOut.next | with_reducible apply KeptOut.ite | with_reducible exact .refl _ _
    | with_reducible assumption | with_reducible refine .ite ?_ ?_
    | with_reducible apply Kept.via (State.releaseSource_kept ..) | exact rfl

theorem execResetHoldEnd_kept (n : Nat) (s : State) : KeptOut [.split, .regs, .eng, .mdl, .ldg, .cores, .lsc, .ssm, .rst] s
    (execResetHoldEnd n s) := by
  unfold execResetHoldEnd
  repeat' first
    | with_reducible apply KeptOut.next | with_reducible apply KeptOut.ite | with_reducible exact .refl _ _
    | with_reducible assumption | with_reducible refine .ite ?_ ?_ | with_reducible apply Kept.via (State.tryPairs_kept ..)
    | with_reducible apply Kept.via (State.tryRelease_kept ..)
    | (intro p; cases p <;> first | exact .inl (List.mem_of_elem_eq_true rfl) | exact .inr rfl | exact .inr True.intro)
    | exact rfl | split | dsimp only | with_reducible refine .update rfl rfl rfl ?_ ?_

theorem execResetPin_kept (low : Bool) (s : State) : KeptOut (Part.allBut [.variant, .bootSplit, .up, .gf, .driveEn, .actEn,
    .recovery, .resp, .tick, .pending]) s (execResetPin low s) := by
  unfold execResetPin
  repeat' first
    | with_reducible apply KeptOut.next | with_reducible apply KeptOut.ite | with_reducible exact .refl _ _
    | with_reducible assumption | with_reducible refine .ite ?_ ?_
    | with_reducible apply Kept.via (State.releaseSource_kept ..) | with_reducible apply Kept.via (State.raiseSource_kept ..)
    | exact rfl

theorem State.supplyBack_kept (s : State) : Kept [.split, .regs, .eng, .mdl, .ldg, .cores, .lsc, .ssm, .rst] s
    (State.supplyBack s) := by
  unfold State.supplyBack
  try dsimp only
  repeat' first
    | with_reducible exact .refl _ _ | with_reducible assumption | with_reducible refine .ite ?_ ?_
    | with_reducible apply Kept.via (State.ssmEnd_kept ..) | with_reducible apply Kept.via (State.releaseSource_kept ..)
    | exact rfl

theorem execPowerOn_kept (up : Bool) (s : State) : KeptOut (Part.allBut [.variant, .bootSplit, .up, .gf, .driveEn, .actEn,
    .recovery, .resp, .tick, .pending]) s (execPowerOn up s) := by
  unfold execPowerOn
  repeat' first
    | with_reducible apply KeptOut.next | with_reducible apply KeptOut.ite | with_reducible exact .refl _ _
    | with_reducible assumption | with_reducible refine .ite ?_ ?_ | with_reducible apply Kept.via (State.assertSource_kept ..)
    | with_reducible apply Kept.via (State.releaseSource_kept ..) | exact rfl

theorem execPowerGoodChange_kept (i : Nat) (high : Bool) (s : State) : KeptOut (Part.allBut [.variant, .bootSplit, .up, .gf,
    .driveEn, .actEn, .recovery, .resp, .tick, .pending]) s (execPowerGoodChange i high s) := by
  unfold execPowerGoodChange
  repeat' first
    | with_reducible apply KeptOut.next | with_reducible apply KeptOut.ite | with_reducible exact .refl _ _
    | with_reducible assumption | with_reducible refine .ite ?_ ?_ | with_reducible apply Kept.via (State.assertSource_kept ..)
    | with_reducible apply Kept.via (State.releaseSource_kept ..) | with_reducible apply Kept.via (State.raiseSource_kept ..)
    | with_reducible apply Kept.via (State.supplyBack_kept ..)
    | (intro p; cases p <;> first | exact .inl (List.mem_of_elem_eq_true rfl) | exact .inr rfl | exact .inr True.intro)
    | exact rfl | split | dsimp only | with_reducible refine .update rfl rfl rfl ?_ ?_

theorem execDomainRelease_kept (s : State) : KeptOut [.rst, .pads] s (execDomainRelease s) := by
  unfold execDomainRelease
  repeat' first
    | with_reducible apply KeptOut.next | with_reducible apply KeptOut.ite | with_reducible exact .refl _ _
    | with_reducible assumption | with_reducible refine .ite ?_ ?_
    | (intro p; cases p <;> first | exact .inl (List.mem_of_elem_eq_true rfl) | exact .inr rfl | exact .inr True.intro) | split
    | dsimp only | with_reducible refine .update rfl rfl rfl ?_ ?_

theorem execStartTimerExpiry_kept (s : State) : KeptOut (Part.allBut [.variant, .split, .bootSplit, .up, .gf, .driveEn, .actEn,
    .recovery, .resp, .tick, .pending]) s (execStartTimerExpiry s) := by
  unfold execStartTimerExpiry
  repeat' first
    | with_reducible apply KeptOut.next | with_reducible apply KeptOut.ite | with_reducible exact .refl _ _
    | with_reducible assumption | with_reducible refine .ite ?_ ?_
    | with_reducible apply Kept.via (State.setFlag_kept (.RST_START) ..)
    | with_reducible apply Kept.via (State.assertSource_kept ..) | exact rfl

theorem specStandby_kept  (s : State) (m : Msg) (k : Nat) : Kept [.nvs, .rst, .reg .NVS_STATE] s (specStandby.run s m k).1 := by
  unfold specStandby
  lift_lets
  repeat'
    intro x
    first
    | have hx : Kept [.nvs, .rst, .reg .NVS_STATE] None x := by
        dsimp only [x]
        repeat' first
          | with_reducible exact .refl _ _ | with_reducible assumption | with_reducible refine .ite ?_ ?_
          | with_reducible apply Kept.via (doneWith_kept ..) | with_reducible apply Kept.via (doneWith_kept_eq (by assumption))
          | with_reducible apply Kept.via (State.journalFlush_kept ..) | with_reducible refine .update rfl rfl rfl ?_ ?_
          | (intro p; cases p <;> first | exact .inl (List.mem_of_elem_eq_true rfl) | exact .inr rfl | exact .inr True.intro)
          | exact rfl | split | dsimp only
      clear_value x
    | skip
  repeat' first
    | with_reducible exact .refl _ _ | with_reducible assumption | with_reducible refine .ite ?_ ?_
    | with_reducible apply Kept.via (doneWith_kept ..) | with_reducible apply Kept.via (doneWith_kept_eq (by assumption))
    | with_reducible apply Kept.via (State.journalFlush_kept ..) | with_reducible refine .update rfl rfl rfl ?_ ?_
    | (intro p; cases p <;> first | exact .inl (List.mem_of_elem_eq_true rfl) | exact .inr rfl | exact .inr True.intro)
    | exact rfl | split | dsimp only

theorem execStandby_kept (m : Msg) (s : State) : KeptOut (Part.receipt [.rst, .reg .PST_OUTST, .reg .PST_MERR_CODE, .reg
    .NVS_STATE]) s (execStandby m s) := by
  unfold execStandby
  repeat' first
    | with_reducible apply KeptOut.next | with_reducible exact .refl _ _
    | with_reducible apply deliver_kept rfl (fun s m k => (specStandby_kept s m k).mono rfl) _ _ | exact rfl | dsimp only
    | intro _

theorem execStandbyEntry_kept (s : State) : KeptOut (Part.allBut [.variant, .split, .bootSplit, .up, .gf, .driveEn, .actEn,
    .aon, .pads, .thm, .recovery, .mramClosed, .resp, .tick, .pending]) s (execStandbyEntry s) := by
  unfold execStandbyEntry
  repeat' first
    | with_reducible apply KeptOut.next | with_reducible apply KeptOut.ite | with_reducible exact .refl _ _
    | with_reducible assumption | with_reducible refine .ite ?_ ?_ | with_reducible apply Kept.via (State.ssmRaise_kept ..)
    | with_reducible apply Kept.via (State.applySystem_kept ..)
    | (intro p; cases p <;> first | exact .inl (List.mem_of_elem_eq_true rfl) | exact .inr rfl | exact .inr True.intro)
    | exact rfl | split | dsimp only | with_reducible refine .update rfl rfl rfl ?_ ?_

theorem execWake_kept (src : Nat) (s : State) : KeptOut (Part.allBut [.variant, .split, .bootSplit, .up, .gf, .driveEn, .actEn,
    .recovery, .resp, .pending]) s (execWake src s) := by
  unfold execWake
  repeat' first
    | with_reducible apply KeptOut.next | with_reducible apply KeptOut.ite | with_reducible exact .refl _ _
    | with_reducible assumption | with_reducible refine .ite ?_ ?_ | with_reducible apply Kept.via (State.wake_kept ..)
    | exact rfl

theorem execSupplyAlarm_kept (s : State) : KeptOut (Part.allBut [.variant, .split, .bootSplit, .up, .gf, .driveEn, .actEn,
    .recovery, .resp, .pending]) s (execSupplyAlarm s) := by
  unfold execSupplyAlarm
  repeat' first
    | with_reducible apply KeptOut.next | with_reducible apply KeptOut.ite | with_reducible exact .refl _ _
    | with_reducible assumption | with_reducible refine .ite ?_ ?_ | with_reducible apply Kept.via (State.wake_kept ..)
    | exact rfl

theorem State.unitHidden_kept (s : State) (u : Nat) : Kept [.po, .eng, .mdl, .rnd, .pos, .sent, .chg, .act, .gbx, .ldg, .ssm,
    .can, .eth, .reg .FEn_EVT, .reg .FEn_WDCNT, .reg .CHG_ILIM, .reg .CHG_FLT, .reg .CHG_EVT, .reg .ACk_STATE, .reg .GBX_STATE,
    .reg .GBX_EVT, .reg .GBX_FLT, .reg .GBX_POS0, .reg .GBX_POS1, .reg .LDG_EVT, .reg .LDG_WQSTAT, .reg .LDG_PNf] s
    (State.unitHidden s u) := by
  unfold State.unitHidden
  try dsimp only
  repeat' first
    | with_reducible exact .refl _ _ | with_reducible assumption | with_reducible refine .ite ?_ ?_
    | with_reducible apply Kept.via (State.gbxFrame_kept ..) | with_reducible refine .each (fun _ _ => ?_) ?_
    | (intro p; cases p <;> first | exact .inl (List.mem_of_elem_eq_true rfl) | exact .inr rfl | exact .inr True.intro)
    | exact rfl | split | dsimp only | with_reducible refine .update rfl rfl rfl ?_ ?_

theorem State.keepMerged_kept (s : State) : Kept [.reg .ETHp_STATE] s (State.keepMerged s) := by
  unfold State.keepMerged
  try dsimp only
  repeat' first
    | with_reducible exact .refl _ _ | with_reducible assumption | with_reducible refine .ite ?_ ?_
    | with_reducible apply Kept.via (State.setFlag_kept (.ETHp_STATE _) ..) | with_reducible refine .each (fun _ _ => ?_) ?_
    | exact rfl

theorem State.unitClear_kept (s : State) (u : Nat) : Kept [.regs, .po, .eng, .mdl, .rnd, .pos, .sent, .chg, .act, .gbx, .ldg,
    .ssm, .can, .eth] s (s.unitClear u) := by
  unfold State.unitClear
  dsimp only
  refine .via (State.keepMerged_kept ..) rfl (.via (State.unitHidden_kept ..) rfl (.each (fun v a => ?_) (.each (fun v p => .via (State.hwFinish_kept ..) rfl (.refl _ _)) (.refl _ _))))
  split
  · exact .ite (.via (State.setReg_any ..) rfl (.refl _ _)) (.refl _ _)
  · exact .refl _ _

theorem specRstUnit_kept  (s : State) (m : Msg) (k : Nat) : Kept [.regs, .po, .eng, .mdl, .rnd, .pos, .sent, .chg, .act, .gbx,
    .ldg, .ssm, .rst, .can, .eth] s (specRstUnit.run s m k).1 := by
  unfold specRstUnit
  try dsimp only
  repeat' first
    | with_reducible exact .refl _ _ | with_reducible assumption | with_reducible refine .ite ?_ ?_
    | with_reducible apply Kept.via (State.hwFinish_kept ..) | with_reducible apply Kept.via (acceptedWith_kept ..)
    | with_reducible apply Kept.via (acceptedWith_kept_eq (by assumption))
    | with_reducible apply Kept.via (State.unitClear_kept ..)
    | (intro p; cases p <;> first | exact .inl (List.mem_of_elem_eq_true rfl) | exact .inr rfl | exact .inr True.intro)
    | exact rfl | split | dsimp only | with_reducible refine .update rfl rfl rfl ?_ ?_

theorem specRstPair_kept  (s : State) (m : Msg) (k : Nat) : Kept [.rst] s (specRstPair.run s m k).1 := by
  unfold specRstPair
  try dsimp only
  repeat' first
    | with_reducible exact .refl _ _ | with_reducible assumption | with_reducible refine .ite ?_ ?_
    | with_reducible apply Kept.via (doneWith_kept ..) | with_reducible apply Kept.via (doneWith_kept_eq (by assumption))
    | (intro p; cases p <;> first | exact .inl (List.mem_of_elem_eq_true rfl) | exact .inr rfl | exact .inr True.intro)
    | exact rfl | split | dsimp only | with_reducible refine .update rfl rfl rfl ?_ ?_

theorem specRstSystem_kept  (s : State) (m : Msg) (k : Nat) : Kept [] s (specRstSystem.run s m k).1 := by
  unfold specRstSystem
  try dsimp only
  repeat' first
    | with_reducible exact .refl _ _

theorem execRstUnit_kept (m : Msg) (s : State) : KeptOut [.regs, .err, .po, .nvs, .eng, .mdl, .rnd, .pos, .sent, .chg, .act,
    .gbx, .ldg, .ssm, .rst, .can, .eth] s (execRstUnit m s) := by
  unfold execRstUnit
  repeat' first
    | with_reducible apply KeptOut.next | with_reducible exact .refl _ _
    | with_reducible apply deliver_kept rfl (fun s m k => (specRstUnit_kept s m k).mono rfl) _ _

theorem execRstPair_kept (m : Msg) (s : State) : KeptOut (Part.receipt [.rst, .reg .PST_OUTST, .reg .PST_MERR_CODE]) s
    (execRstPair m s) := by
  unfold execRstPair
  repeat' first
    | with_reducible apply KeptOut.next | with_reducible exact .refl _ _
    | with_reducible apply deliver_kept rfl (fun s m k => (specRstPair_kept s m k).mono rfl) _ _

theorem execRstSystem_kept (m : Msg) (s : State) : KeptOut (Part.allBut [.variant, .split, .bootSplit, .up, .gf, .driveEn,
    .actEn, .recovery, .resp, .tick, .pending]) s (execRstSystem m s) := by
  unfold execRstSystem
  repeat' first
    | with_reducible apply KeptOut.next | with_reducible exact .refl _ _
    | with_reducible apply Kept.via (State.runReady_kept ..)
    | with_reducible apply deliver_kept rfl (fun s m k => (specRstSystem_kept s m k).mono rfl) _ _ | exact rfl

end Sys2Proof.Machine
end

