-- ==== Sys2Proof/Laws/KeptClocks.lean ====
section
/-!
SUPPORT. The frame of each operation of Sys2Proof/Machine/Clocks.lean: the parts of the state that it can change.
-/
namespace Sys2Proof.Machine
set_option Elab.async false

theorem State.clockGood_kept (s : State) (i : Nat) : Kept [.split, .regs, .eng, .mdl, .ldg, .cores, .lsc, .ssm, .rst] s
    (State.clockGood s i) := by
  unfold State.clockGood
  try dsimp only
  repeat' first
    | with_reducible exact .refl _ _ | with_reducible assumption | with_reducible refine .ite ?_ ?_
    | with_reducible apply Kept.via (State.setBit_kept (.CLK_STAT) ..)
    | with_reducible apply Kept.via (State.releaseSource_kept ..) | with_reducible refine .each (fun _ _ => ?_) ?_ | exact rfl

theorem execClockMonitorWindow_kept (i count : Nat) (s : State) : KeptOut (Part.allBut [.variant, .bootSplit, .up, .gf,
    .driveEn, .actEn, .recovery, .resp, .tick, .pending]) s (execClockMonitorWindow i count s) := by
  unfold execClockMonitorWindow
  repeat' first
    | with_reducible apply KeptOut.next | with_reducible apply KeptOut.ite | with_reducible exact .refl _ _
    | with_reducible assumption | with_reducible refine .ite ?_ ?_
    | with_reducible apply Kept.via (State.setBit_kept (.CLK_EVT) ..)
    | with_reducible apply Kept.via (State.setFld_kept (.CLK_FREQi _) ..)
    | with_reducible apply Kept.via (State.clockBad_kept ..) | with_reducible apply Kept.via (State.monCount_kept ..)
    | with_reducible apply Kept.via (State.clockGood_kept ..) | exact rfl

theorem execPllLockLoss_kept (p : Nat) (s : State) : KeptOut (Part.allBut [.variant, .split, .bootSplit, .up, .gf, .driveEn,
    .actEn, .recovery, .resp, .tick, .pending]) s (execPllLockLoss p s) := by
  unfold execPllLockLoss
  repeat' first
    | with_reducible apply KeptOut.next | with_reducible apply KeptOut.ite | with_reducible exact .refl _ _
    | with_reducible assumption | with_reducible refine .ite ?_ ?_
    | with_reducible apply Kept.via (State.clrBit_kept (.CLK_STAT) ..) | with_reducible apply Kept.via (State.clockBad_kept ..)
    | with_reducible refine .each (fun _ _ => ?_) ?_ | exact rfl

theorem execSupplyOutOfRange_kept (r : Nat) (s : State) : KeptOut (Part.allBut [.variant, .bootSplit, .up, .gf, .driveEn,
    .actEn, .recovery, .resp, .pending]) s (execSupplyOutOfRange r s) := by
  unfold execSupplyOutOfRange
  repeat' first
    | with_reducible apply KeptOut.next | with_reducible apply KeptOut.ite | with_reducible exact .refl _ _
    | with_reducible assumption | with_reducible refine .ite ?_ ?_
    | with_reducible apply Kept.via (State.setBit_kept (.THM_SUPFLT) ..)
    | with_reducible apply Kept.via (State.systemClear_kept ..) | with_reducible apply Kept.via (State.tryRelease_kept ..)
    | with_reducible apply Kept.via (State.losePulse_kept ..) | with_reducible apply Kept.via (State.causeSource_kept ..)
    | (intro p; cases p <;> first | exact .inl (List.mem_of_elem_eq_true rfl) | exact .inr rfl | exact .inr True.intro)
    | exact rfl | split | dsimp only | with_reducible refine .update rfl rfl rfl ?_ ?_

theorem execSupplyRestored_kept (r : Nat) (s : State) : KeptOut [.split, .regs, .eng, .mdl, .ldg, .cores, .lsc, .ssm, .rst] s
    (execSupplyRestored r s) := by
  unfold execSupplyRestored
  repeat' first
    | with_reducible apply KeptOut.next | with_reducible apply KeptOut.ite | with_reducible exact .refl _ _
    | with_reducible assumption | with_reducible refine .ite ?_ ?_
    | with_reducible apply Kept.via (State.clrBit_kept (.THM_SUPFLT) ..)
    | with_reducible apply Kept.via (State.supplyBack_kept ..) | exact rfl

theorem State.tsTake_kept (s : State) (i : Nat) (t : Option Int) (diode : Bool) : Kept [.thm, .reg .THM_STATE, .reg .THM_EVT,
    .reg .THM_TEMPs] s (State.tsTake s i t diode) := by
  unfold State.tsTake
  try dsimp only
  repeat' first
    | with_reducible exact .refl _ _ | with_reducible assumption | with_reducible refine .ite ?_ ?_
    | with_reducible apply Kept.via (State.clrBit_kept (.THM_STATE) ..)
    | with_reducible apply Kept.via (State.clrFlag_kept (.THM_TEMPs _) ..)
    | with_reducible apply Kept.via (State.setBit_kept (.THM_STATE) ..)
    | with_reducible apply Kept.via (State.setFlag_kept (.THM_EVT) ..)
    | with_reducible apply Kept.via (State.setFlag_kept (.THM_TEMPs _) ..)
    | with_reducible apply Kept.via (State.setSfld_kept (.THM_TEMPs _) ..)
    | (intro p; cases p <;> first | exact .inl (List.mem_of_elem_eq_true rfl) | exact .inr rfl | exact .inr True.intro)
    | exact rfl | split | dsimp only | with_reducible refine .update rfl rfl rfl ?_ ?_

theorem State.tsRate_kept (s : State) : Kept [.thm, .reg .THM_STATE, .reg .THM_EVT] s (State.tsRate s) := by
  unfold State.tsRate
  try dsimp only
  repeat' first
    | with_reducible exact .refl _ _ | with_reducible assumption | with_reducible refine .ite ?_ ?_
    | with_reducible apply Kept.via (State.clrFlag_kept (.THM_STATE) ..)
    | with_reducible apply Kept.via (State.setFlag_kept (.THM_EVT) ..)
    | with_reducible apply Kept.via (State.setFlag_kept (.THM_STATE) ..)
    | (intro p; cases p <;> first | exact .inl (List.mem_of_elem_eq_true rfl) | exact .inr rfl | exact .inr True.intro)
    | exact rfl | split | dsimp only | with_reducible refine .update rfl rfl rfl ?_ ?_

theorem State.tsWindow_kept (s : State) : Kept (Part.receipt [.icheck, .fcheck, .mramClosed, .reg .THM_STATE, .reg .THM_EVT,
    .reg .NVS_STATE, .reg .NVS_WSTAT]) s (State.tsWindow s) := by
  unfold State.tsWindow
  try dsimp only
  repeat' first
    | with_reducible exact .refl _ _ | with_reducible assumption | with_reducible refine .ite ?_ ?_
    | with_reducible apply Kept.via (State.clrFlag_kept (.THM_STATE) ..)
    | with_reducible apply Kept.via (State.setFlag_kept (.THM_EVT) ..)
    | with_reducible apply Kept.via (State.setFlag_kept (.THM_STATE) ..)
    | with_reducible apply Kept.via (State.closeWindow_kept ..) | with_reducible apply Kept.via (State.openWindow_kept ..)
    | exact rfl

theorem State.tsCold_kept (s : State) : Kept [.reg .THM_STATE, .reg .THM_EVT] s (State.tsCold s) := by
  unfold State.tsCold
  try dsimp only
  repeat' first
    | with_reducible exact .refl _ _ | with_reducible assumption | with_reducible refine .ite ?_ ?_
    | with_reducible apply Kept.via (State.clrFlag_kept (.THM_STATE) ..)
    | with_reducible apply Kept.via (State.setFlag_kept (.THM_EVT) ..)
    | with_reducible apply Kept.via (State.setFlag_kept (.THM_STATE) ..) | exact rfl

theorem State.tsReset_kept (s : State) : Kept (Part.allBut [.variant, .bootSplit, .up, .gf, .driveEn, .actEn, .recovery, .resp,
    .tick, .pending]) s (State.tsReset s) := by
  unfold State.tsReset
  try dsimp only
  repeat' first
    | with_reducible exact .refl _ _ | with_reducible assumption | with_reducible refine .ite ?_ ?_
    | with_reducible apply Kept.via (State.releaseSource_kept ..) | with_reducible apply Kept.via (State.raiseSource_kept ..)
    | exact rfl

theorem execTemperatureMeasurement_kept (temps : List (Option Int)) (diodes : Nat) (rails : List Nat) (s : State) : KeptOut
    (Part.allBut [.variant, .bootSplit, .up, .gf, .driveEn, .actEn, .recovery, .resp, .tick, .pending]) s
    (execTemperatureMeasurement temps diodes rails s) := by
  unfold execTemperatureMeasurement
  repeat' first
    | with_reducible apply KeptOut.next | with_reducible apply KeptOut.ite | with_reducible exact .refl _ _
    | with_reducible assumption | with_reducible refine .ite ?_ ?_
    | with_reducible apply Kept.via (State.setFlag_kept (.THM_EVT) ..)
    | with_reducible apply Kept.via (State.setFld_kept (.THM_STATE) ..)
    | with_reducible apply Kept.via (State.setFld_kept (.THM_SUPr _) ..) | with_reducible apply Kept.via (State.tsTake_kept ..)
    | with_reducible apply Kept.via (State.tsRate_kept ..) | with_reducible apply Kept.via (State.tsWindow_kept ..)
    | with_reducible apply Kept.via (State.tsCold_kept ..) | with_reducible apply Kept.via (State.tsReset_kept ..)
    | with_reducible refine .each (fun _ _ => ?_) ?_
    | (intro p; cases p <;> first | exact .inl (List.mem_of_elem_eq_true rfl) | exact .inr rfl | exact .inr True.intro)
    | exact rfl | split | dsimp only | with_reducible refine .update rfl rfl rfl ?_ ?_

end Sys2Proof.Machine
end

