-- ==== Sys2Proof/Laws/KeptNets.lean ====
section
/-!
SUPPORT. The frame of each operation of Sys2Proof/Machine/Nets.lean: the parts of the state that it can change.
-/
namespace Sys2Proof.Machine
set_option Elab.async false

theorem State.updCn_kept (s : State) (n : Nat) (g : CanSt → CanSt) : Kept [.can] s (State.updCn s n g) := by
  unfold State.updCn
  try dsimp only
  repeat' first
    | with_reducible exact .refl _ _ | with_reducible assumption
    | (intro p; cases p <;> first | exact .inl (List.mem_of_elem_eq_true rfl) | exact .inr rfl | exact .inr True.intro)
    | dsimp only | with_reducible refine .update rfl rfl rfl ?_ ?_

theorem State.updEt_kept (s : State) (p : Nat) (g : EthSt → EthSt) : Kept [.eth] s (State.updEt s p g) := by
  unfold State.updEt
  try dsimp only
  repeat' first
    | with_reducible exact .refl _ _ | with_reducible assumption
    | (intro p; cases p <;> first | exact .inl (List.mem_of_elem_eq_true rfl) | exact .inr rfl | exact .inr True.intro)
    | dsimp only | with_reducible refine .update rfl rfl rfl ?_ ?_

theorem State.netIntake_kept (s : State) (u cls : Nat) (b : List Byte) : Kept (Part.receipt [.reg .PHn_SEQ]) s (State.netIntake
    s u cls b).1 := by
  unfold State.netIntake
  try dsimp only
  repeat' first
    | with_reducible exact .refl _ _ | with_reducible assumption | with_reducible refine .ite ?_ ?_
    | with_reducible apply Kept.via (State.setFlag_kept (.PHn_STAT _) ..)
    | with_reducible apply Kept.via (State.placeReceipt_kept ..) | with_reducible apply Kept.via (State.deadLetter_kept ..)
    | with_reducible apply Kept.via (intake_kept ..) | exact rfl | split
theorem State.netIntake_kept_eq {s : State} {u cls : Nat} {b : List Byte} {r_} {x_} (h : State.netIntake s u cls b = (r_, x_))
    : Kept (Part.receipt [.reg .PHn_SEQ]) s r_ := by
  have k := State.netIntake_kept s u cls b
  rw [h] at k
  exact k

theorem State.canConf_kept (s : State) (n : Nat) : Kept [.reg .CANn_STATE, .reg .CANn_EVT] s (State.canConf s n) := by
  unfold State.canConf
  try dsimp only
  repeat' first
    | with_reducible exact .refl _ _ | with_reducible assumption | with_reducible refine .ite ?_ ?_
    | with_reducible apply Kept.via (State.setFlag_kept (.CANn_EVT _) ..)
    | with_reducible apply Kept.via (State.setFld_kept (.CANn_STATE _) ..) | exact rfl

theorem State.canDiscard_kept (s : State) (n : Nat) : Kept [.can, .reg .CANn_EVT, .reg .CANn_CNT] s (State.canDiscard s n) := by
  unfold State.canDiscard
  try dsimp only
  repeat' first
    | with_reducible exact .refl _ _ | with_reducible assumption
    | with_reducible apply Kept.via (State.incSat_kept (.CANn_CNT _) ..)
    | with_reducible apply Kept.via (State.setFlag_kept (.CANn_EVT _) ..) | with_reducible apply Kept.via (State.updCn_kept ..)
    | exact rfl

theorem execCanFrameReceived_kept (n : Nat) (f : CanIn) (s : State) : KeptOut (Part.receipt [.can, .tick, .reg .PHn_SEQ, .reg
    .CANn_STATE, .reg .CANn_EVT, .reg .CANn_CNT]) s (execCanFrameReceived n f s) := by
  unfold execCanFrameReceived
  repeat' first
    | with_reducible apply KeptOut.next | with_reducible apply KeptOut.ite | with_reducible exact .refl _ _
    | with_reducible assumption | with_reducible refine .ite ?_ ?_ | with_reducible apply Kept.via (State.draw_kept ..)
    | with_reducible apply Kept.via (State.draw_kept_eq (by assumption)) | with_reducible apply Kept.via (State.updCn_kept ..)
    | with_reducible apply Kept.via (State.netIntake_kept ..)
    | with_reducible apply Kept.via (State.netIntake_kept_eq (by assumption))
    | with_reducible apply Kept.via (State.canConf_kept ..) | with_reducible apply Kept.via (State.canDiscard_kept ..)
    | exact rfl

theorem State.canSend_kept (s : State) (n : Nat) : Kept (Part.allBut [.variant, .split, .bootSplit, .up, .gf, .driveEn, .actEn,
    .recovery, .resp, .tick, .pending]) s (State.canSend s n) := by
  unfold State.canSend
  try dsimp only
  repeat' first
    | with_reducible exact .refl _ _ | with_reducible assumption | with_reducible refine .ite ?_ ?_
    | with_reducible apply Kept.via (State.incSat_kept (.PST_DLJ_LOST) ..)
    | with_reducible apply Kept.via (State.consumeTo_kept ..) | with_reducible apply Kept.via (State.readSlot_kept ..)
    | with_reducible apply Kept.via (State.readSlot_kept_eq (by assumption))
    | with_reducible apply Kept.via (State.updCn_kept ..) | exact rfl | split

theorem execCanTransmitEnd_kept (n : Nat) (a : CanEnd) (s : State) : KeptOut (Part.allBut [.variant, .split, .bootSplit, .up,
    .gf, .driveEn, .actEn, .recovery, .resp, .tick, .pending]) s (execCanTransmitEnd n a s) := by
  unfold execCanTransmitEnd
  repeat' first
    | with_reducible apply KeptOut.next | with_reducible apply KeptOut.ite | with_reducible exact .refl _ _
    | with_reducible assumption | with_reducible refine .ite ?_ ?_
    | with_reducible apply Kept.via (State.incSat_kept (.CANn_CNT _) ..)
    | with_reducible apply Kept.via (State.setFlag_kept (.CANn_EVT _) ..)
    | with_reducible apply Kept.via (State.deadLetter_kept ..) | with_reducible apply Kept.via (State.consumeTo_kept ..)
    | with_reducible apply Kept.via (State.updCn_kept ..) | with_reducible apply Kept.via (State.canConf_kept ..) | exact rfl
    | split

theorem execCanBusOffRecovered_kept (n : Nat) (s : State) : KeptOut [.can, .reg .CANn_STATE, .reg .CANn_EVT] s
    (execCanBusOffRecovered n s) := by
  unfold execCanBusOffRecovered
  repeat' first
    | with_reducible apply KeptOut.next | with_reducible apply KeptOut.ite | with_reducible exact .refl _ _
    | with_reducible assumption | with_reducible refine .ite ?_ ?_ | with_reducible apply Kept.via (State.updCn_kept ..)
    | with_reducible apply Kept.via (State.canConf_kept ..) | exact rfl

theorem execCanModeWrite_kept (who : Requester) (n : Nat) (value : Word) (s : State) : KeptOut [.po, .cores, .lsc, .ssm, .dbg,
    .linkTries, .resp, .reg .SYS_WERR_CODE, .reg .LSC_STAT, .reg .SSM_WDSTATn, .reg .CANn_MODE, .reg .DBG_REPLAYn, .reg
    .DBG_HALTSt] s (execCanModeWrite who n value s) := by
  unfold execCanModeWrite
  repeat' first
    | with_reducible apply KeptOut.next | with_reducible apply KeptOut.ite | with_reducible exact .refl _ _
    | with_reducible assumption | with_reducible refine .ite ?_ ?_
    | with_reducible apply Kept.via (State.plainWrite_kept (.CANn_MODE _) ..) | with_reducible apply State.tryWrite_kept
    | with_reducible apply State.accessBy_kept | exact rfl | split | dsimp only | intro _

theorem State.ethDiscard_kept (s : State) (p : Nat) : Kept [.eth, .reg .ETHp_EVT, .reg .ETHp_CNT] s (State.ethDiscard s p) := by
  unfold State.ethDiscard
  try dsimp only
  repeat' first
    | with_reducible exact .refl _ _ | with_reducible assumption
    | with_reducible apply Kept.via (State.incSat_kept (.ETHp_CNT _) ..)
    | with_reducible apply Kept.via (State.setFlag_kept (.ETHp_EVT _) ..) | with_reducible apply Kept.via (State.updEt_kept ..)
    | exact rfl

theorem State.msDiscard_kept (s : State) (p : Nat) : Kept [.eth, .reg .ETHp_EVT, .reg .ETHp_CNT] s (State.msDiscard s p) := by
  unfold State.msDiscard
  try dsimp only
  repeat' first
    | with_reducible exact .refl _ _ | with_reducible assumption
    | with_reducible apply Kept.via (State.incSat_kept (.ETHp_CNT _) ..)
    | with_reducible apply Kept.via (State.setFlag_kept (.ETHp_EVT _) ..) | with_reducible apply Kept.via (State.updEt_kept ..)
    | exact rfl

theorem State.msAccept_kept {s r : State} {p : Nat} {f : EthIn} (h : s.msAccept p f = some r) : Kept [.eth] s r := by
  unfold State.msAccept at h
  split at h
  · split at h
    · cases h
    · cases h; exact .refl _ _
  · dsimp only at h
    split at h
    · cases h
    · split at h
      · cases h
      · cases h; exact .via (State.updEt_kept ..) rfl (.refl _ _)

theorem State.takeLetters_kept (s : State) (u p : Nat) (f : EthIn) : Kept (Part.receipt [.eth, .reg .PHn_SEQ]) s
    (State.takeLetters s u p f) := by
  unfold State.takeLetters
  try dsimp only
  repeat' first
    | with_reducible exact .refl _ _ | with_reducible assumption | with_reducible refine .ite ?_ ?_
    | with_reducible apply Kept.via (State.updEt_kept ..) | with_reducible apply Kept.via (State.netIntake_kept ..)
    | with_reducible apply Kept.via (State.netIntake_kept_eq (by assumption)) | with_reducible refine .each (fun _ _ => ?_) ?_
    | exact rfl

theorem State.ethAccept_kept (s : State) (p : Nat) (f : EthIn) : Kept [.eth, .reg .ETHp_EVT, .reg .ETHp_CNT] s (State.ethAccept
    s p f).1 := by
  unfold State.ethAccept
  try dsimp only
  repeat' first
    | with_reducible exact .refl _ _ | with_reducible assumption | with_reducible refine .ite ?_ ?_
    | with_reducible apply Kept.via (State.updEt_kept ..) | with_reducible apply Kept.via (State.ethDiscard_kept ..)
    | with_reducible apply Kept.via (State.msDiscard_kept ..)
    | with_reducible apply Kept.via (State.msAccept_kept (by assumption)) | exact rfl | split
theorem State.ethAccept_kept_eq {s : State} {p : Nat} {f : EthIn} {r_} {x_} (h : State.ethAccept s p f = (r_, x_)) : Kept
    [.eth, .reg .ETHp_EVT, .reg .ETHp_CNT] s r_ := by
  have k := State.ethAccept_kept s p f
  rw [h] at k
  exact k

theorem execEthDatagramReceived_kept (p : Nat) (f : EthIn) (s : State) : KeptOut (Part.receipt [.eth, .reg .PHn_SEQ, .reg
    .ETHp_EVT, .reg .ETHp_CNT]) s (execEthDatagramReceived p f s) := by
  unfold execEthDatagramReceived
  repeat' first
    | with_reducible apply KeptOut.next | with_reducible apply KeptOut.ite | with_reducible exact .refl _ _
    | with_reducible assumption | with_reducible refine .ite ?_ ?_ | with_reducible apply Kept.via (State.ethDiscard_kept ..)
    | with_reducible apply Kept.via (State.takeLetters_kept ..) | with_reducible apply Kept.via (State.ethAccept_kept ..)
    | with_reducible apply Kept.via (State.ethAccept_kept_eq (by assumption)) | exact rfl

theorem execSequenceRecoveryReset_kept (s : State) : KeptOut [.eth] s (execSequenceRecoveryReset s) := by
  unfold execSequenceRecoveryReset
  repeat' first
    | with_reducible apply KeptOut.next | with_reducible apply KeptOut.ite | with_reducible exact .refl _ _
    | with_reducible assumption | with_reducible refine .ite ?_ ?_ | with_reducible apply Kept.via (State.updEt_kept ..)
    | exact rfl

theorem State.ethSent_kept (s : State) (p : Nat) (d : EthDest) (c : Nat) (payload : List Byte) : Kept [.eth, .reg .ETHp_EVT] s
    (State.ethSent s p d c payload) := by
  unfold State.ethSent
  try dsimp only
  repeat' first
    | with_reducible exact .refl _ _ | with_reducible assumption | with_reducible refine .ite ?_ ?_
    | with_reducible apply Kept.via (State.setFlag_kept (.ETHp_EVT _) ..) | with_reducible apply Kept.via (State.updEt_kept ..)
    | exact rfl

theorem State.ethFrame_kept (s : State) (p : Nat) (d : EthDest) (c : Nat) (payload : List Byte) : Kept [.eth, .reg .ETHp_EVT] s
    (State.ethFrame s p d c payload) := by
  unfold State.ethFrame
  try dsimp only
  repeat' first
    | with_reducible exact .refl _ _ | with_reducible assumption | with_reducible refine .ite ?_ ?_
    | with_reducible apply Kept.via (State.updEt_kept ..) | with_reducible apply Kept.via (State.ethSent_kept ..)
    | with_reducible refine .each (fun _ _ => ?_) ?_ | exact rfl

theorem State.ethAnswer_kept (s : State) (p : Nat) : Kept [.eth, .reg .ETHp_EVT] s (State.ethAnswer s p) := by
  unfold State.ethAnswer
  try dsimp only
  repeat' first
    | with_reducible exact .refl _ _ | with_reducible assumption | with_reducible refine .ite ?_ ?_
    | with_reducible apply Kept.via (State.updEt_kept ..) | with_reducible apply Kept.via (State.ethFrame_kept ..) | exact rfl
    | split

theorem State.ethSend_kept (s : State) (p : Nat) : Kept (Part.allBut [.variant, .split, .bootSplit, .up, .gf, .driveEn, .actEn,
    .recovery, .resp, .tick, .pending]) s (s.ethSend p) := by
  unfold State.ethSend
  dsimp only
  refine .ite (.refl _ _) ?_
  split
  · exact .via (State.ethAnswer_kept ..) rfl (.refl _ _)
  · rename_i ph e
    have k : ∀ l, Kept (Part.allBut [.variant, .split, .bootSplit, .up, .gf, .driveEn, .actEn, .recovery, .resp, .tick, .pending]) s (List.foldl (fun (acc : State × List (List Byte × Status)) k =>
        match (acc.1.readSlot (s.phSlot ph (s.phNext ph k))).2, s.slot (s.phSlot ph (s.phNext ph k)) with
        | some b, .receipt r => ((acc.1.readSlot (s.phSlot ph (s.phNext ph k))).1, acc.2 ++ [(b, r.status)])
        | _, _ => ((acc.1.readSlot (s.phSlot ph (s.phNext ph k))).1.incSat R.PST_DLJ_LOST F.PST_DLJ_LOST_COUNT, acc.2))
        (s, []) l).1 := by
      refine fun l => .foldlFst (fun q x => ?_) (.refl _ _)
      split
      · exact .via (State.readSlot_kept ..) rfl (.refl _ _)
      · exact .via (State.incSat_kept .PST_DLJ_LOST ..) rfl (.via (State.readSlot_kept ..) rfl (.refl _ _))
    split
    · exact .via (State.consumeTo_kept ..) rfl (.each (fun _ _ => .via (State.deadLetter_kept ..) rfl (.refl _ _)) (k _))
    · exact .ite (.via (State.consumeTo_kept ..) rfl (k _)) (.via (State.consumeTo_kept ..) rfl (.via (State.ethFrame_kept ..) rfl (k _)))

theorem execAddressResolution_kept (p : Nat) (f : EthIn) (s : State) : KeptOut [.eth, .reg .ETHp_EVT, .reg .ETHp_CNT] s
    (execAddressResolution p f s) := by
  unfold execAddressResolution
  repeat' first
    | with_reducible apply KeptOut.next | with_reducible apply KeptOut.ite | with_reducible exact .refl _ _
    | with_reducible assumption | with_reducible refine .ite ?_ ?_ | with_reducible apply Kept.via (State.updEt_kept ..)
    | with_reducible apply Kept.via (State.ethDiscard_kept ..) | with_reducible apply Kept.via (State.ethAccept_kept ..)
    | with_reducible apply Kept.via (State.ethAccept_kept_eq (by assumption))
    | with_reducible apply Kept.via (State.ethAnswer_kept ..) | exact rfl

theorem execNetReceiptSend_kept (u : Nat) (s : State) : KeptOut (Part.allBut [.variant, .split, .bootSplit, .up, .gf, .driveEn,
    .actEn, .recovery, .resp, .tick, .pending]) s (execNetReceiptSend u s) := by
  unfold execNetReceiptSend
  repeat' first
    | with_reducible apply KeptOut.next | with_reducible apply KeptOut.ite | with_reducible exact .refl _ _
    | with_reducible assumption | with_reducible refine .ite ?_ ?_ | with_reducible apply Kept.via (State.canSend_kept ..)
    | with_reducible apply Kept.via (State.ethSend_kept ..) | exact rfl

theorem execGateCycleRestart_kept (p : Nat) (s : State) : KeptOut [.eth] s (execGateCycleRestart p s) := by
  unfold execGateCycleRestart
  repeat' first
    | with_reducible apply KeptOut.next | with_reducible apply KeptOut.ite | with_reducible exact .refl _ _
    | with_reducible assumption | with_reducible refine .ite ?_ ?_ | with_reducible apply Kept.via (State.updEt_kept ..)
    | exact rfl

theorem execEthLinkChange_kept (p : Nat) (up : Bool) (s : State) : KeptOut [.reg .ETHp_STATE, .reg .ETHp_EVT] s
    (execEthLinkChange p up s) := by
  unfold execEthLinkChange
  repeat' first
    | with_reducible apply KeptOut.next | with_reducible apply KeptOut.ite | with_reducible exact .refl _ _
    | with_reducible assumption | with_reducible refine .ite ?_ ?_
    | with_reducible apply Kept.via (State.setFlag_kept (.ETHp_EVT _) ..)
    | with_reducible apply Kept.via (State.setFld_kept (.ETHp_STATE _) ..) | exact rfl

theorem State.setSynced_kept (s : State) (p : Nat) (on : Bool) : Kept [.reg .ETHp_STATE, .reg .ETHp_EVT] s (State.setSynced s p
    on) := by
  unfold State.setSynced
  try dsimp only
  repeat' first
    | with_reducible exact .refl _ _ | with_reducible assumption | with_reducible refine .ite ?_ ?_
    | with_reducible apply Kept.via (State.setFlag_kept (.ETHp_EVT _) ..)
    | with_reducible apply Kept.via (State.setFld_kept (.ETHp_STATE _) ..) | exact rfl

theorem execSyncReceived_kept (p : Nat) (sync : SyncIn) (selected : Bool) (s : State) : KeptOut [.rate, .eth, .tick, .reg
    .ETHp_STATE, .reg .ETHp_EVT, .reg .ETHp_OFFS, .reg .ETHp_RATE] s (execSyncReceived p sync selected s) := by
  unfold execSyncReceived
  repeat' first
    | with_reducible apply KeptOut.next | with_reducible apply KeptOut.ite | with_reducible exact .refl _ _
    | with_reducible assumption | with_reducible refine .ite ?_ ?_
    | with_reducible apply Kept.via (State.setSfld_kept (.ETHp_OFFS _) ..)
    | with_reducible apply Kept.via (State.setSfld_kept (.ETHp_RATE _) ..) | with_reducible apply Kept.via (State.draw_kept ..)
    | with_reducible apply Kept.via (State.draw_kept_eq (by assumption)) | with_reducible apply Kept.via (State.updEt_kept ..)
    | with_reducible apply Kept.via (State.setSynced_kept ..)
    | (intro p; cases p <;> first | exact .inl (List.mem_of_elem_eq_true rfl) | exact .inr rfl | exact .inr True.intro)
    | exact rfl | split | dsimp only | with_reducible refine .update rfl rfl rfl ?_ ?_

theorem execSyncTimeout_kept (p : Nat) (s : State) : KeptOut [.eth, .reg .ETHp_STATE, .reg .ETHp_EVT] s (execSyncTimeout p s)
    := by
  unfold execSyncTimeout
  repeat' first
    | with_reducible apply KeptOut.next | with_reducible apply KeptOut.ite | with_reducible exact .refl _ _
    | with_reducible assumption | with_reducible refine .ite ?_ ?_ | with_reducible apply Kept.via (State.updEt_kept ..)
    | with_reducible apply Kept.via (State.setSynced_kept ..) | exact rfl

theorem execMdioTransaction_kept (who : Requester) (p : Nat) (value : Word) (s : State) : KeptOut [.po, .cores, .lsc, .ssm,
    .dbg, .linkTries, .resp, .reg .SYS_WERR_CODE, .reg .LSC_STAT, .reg .SSM_WDSTATn, .reg .ETHp_MDIO, .reg .DBG_REPLAYn, .reg
    .DBG_HALTSt] s (execMdioTransaction who p value s) := by
  unfold execMdioTransaction
  repeat' first
    | with_reducible apply KeptOut.next | with_reducible apply KeptOut.ite | with_reducible exact .refl _ _
    | with_reducible assumption | with_reducible refine .ite ?_ ?_
    | with_reducible apply Kept.via (State.plainWrite_kept (.ETHp_MDIO _) ..) | with_reducible apply State.tryWrite_kept
    | with_reducible apply State.accessBy_kept | exact rfl | split | dsimp only | intro _

theorem execMdioComplete_kept (p : Nat) (data : Nat) (s : State) : KeptOut [.reg .ETHp_MDIO] s (execMdioComplete p data s) := by
  unfold execMdioComplete
  repeat' first
    | with_reducible apply KeptOut.next | with_reducible apply KeptOut.ite | with_reducible exact .refl _ _
    | with_reducible assumption | with_reducible refine .ite ?_ ?_
    | with_reducible apply Kept.via (State.clrFlag_kept (.ETHp_MDIO _) ..)
    | with_reducible apply Kept.via (State.setFld_kept (.ETHp_MDIO _) ..) | exact rfl

theorem specNetRun_kept  (s : State) (m : Msg) (k : Nat) : Kept [.units, .can, .eth] s (specNetRun.run s m k).1 := by
  unfold specNetRun
  try dsimp only
  repeat' first
    | with_reducible exact .refl _ _ | with_reducible assumption | with_reducible refine .ite ?_ ?_
    | with_reducible apply Kept.via (State.setUst_kept ..) | with_reducible apply Kept.via (doneWith_kept ..)
    | with_reducible apply Kept.via (doneWith_kept_eq (by assumption)) | with_reducible apply Kept.via (State.updCn_kept ..)
    | with_reducible apply Kept.via (State.updEt_kept ..) | exact rfl

theorem specNetHalt_kept  (s : State) (m : Msg) (k : Nat) : Kept [] s (specNetHalt.run s m k).1 := by
  unfold specNetHalt
  try dsimp only
  repeat' first
    | with_reducible exact .refl _ _

theorem execNetRun_kept (m : Msg) (s : State) : KeptOut (Part.receipt [.units, .can, .eth, .reg .PST_OUTST, .reg
    .PST_MERR_CODE]) s (execNetRun m s) := by
  unfold execNetRun
  repeat' first
    | with_reducible apply KeptOut.next | with_reducible exact .refl _ _
    | with_reducible apply deliver_kept rfl (fun s m k => (specNetRun_kept s m k).mono rfl) _ _

theorem execNetHalt_kept (m : Msg) (s : State) : KeptOut (Part.allBut [.variant, .split, .bootSplit, .up, .gf, .driveEn,
    .actEn, .recovery, .resp, .tick, .pending]) s (execNetHalt m s) := by
  unfold execNetHalt
  repeat' first
    | with_reducible apply KeptOut.next | with_reducible exact .refl _ _
    | with_reducible apply Kept.via (State.runReady_kept ..)
    | with_reducible apply deliver_kept rfl (fun s m k => (specNetHalt_kept s m k).mono rfl) _ _ | exact rfl

end Sys2Proof.Machine
end

