-- ==== Sys2Proof/Laws/KeptSecurity.lean ====
section
/-!
SUPPORT. The frame of each operation of Sys2Proof/Machine/Security.lean: the parts of the state that it can change.
-/
namespace Sys2Proof.Machine
set_option Elab.async false

theorem State.keyCommand_kept (s : State) (who : Requester) (action slot slots : Nat) (extra : List Status) (data : List Byte)
    : Kept [.po, .sec, .resp, .reg .SYS_WERR_CODE] s (State.keyCommand s who action slot slots extra data) := by
  unfold State.keyCommand
  try dsimp only
  repeat' first
    | with_reducible exact .refl _ _ | with_reducible assumption | with_reducible refine .ite ?_ ?_
    | with_reducible apply Kept.via (State.respond_kept ..) | with_reducible apply Kept.via (State.refuse_kept ..)
    | (intro p; cases p <;> first | exact .inl (List.mem_of_elem_eq_true rfl) | exact .inr rfl | exact .inr True.intro)
    | exact rfl | split | dsimp only | with_reducible refine .update rfl rfl rfl ?_ ?_

theorem execFuseImageKey_kept (who : Requester) (slot : Nat) (s : State) : KeptOut [.po, .cores, .lsc, .ssm, .sec, .dbg,
    .linkTries, .resp, .reg .SYS_WERR_CODE, .reg .LSC_STAT, .reg .SSM_WDSTATn, .reg .DBG_REPLAYn, .reg .DBG_HALTSt] s
    (execFuseImageKey who slot s) := by
  unfold execFuseImageKey
  repeat' first
    | with_reducible apply KeptOut.next | with_reducible apply KeptOut.ite | with_reducible exact .refl _ _
    | with_reducible assumption | with_reducible refine .ite ?_ ?_ | with_reducible apply State.accessBy_kept
    | with_reducible apply Kept.via (State.keyCommand_kept ..) | exact rfl

theorem execSetFrankingKey_kept (who : Requester) (slot : Nat) (s : State) : KeptOut [.po, .cores, .lsc, .ssm, .sec, .dbg,
    .linkTries, .resp, .reg .SYS_WERR_CODE, .reg .LSC_STAT, .reg .SSM_WDSTATn, .reg .DBG_REPLAYn, .reg .DBG_HALTSt] s
    (execSetFrankingKey who slot s) := by
  unfold execSetFrankingKey
  repeat' first
    | with_reducible apply KeptOut.next | with_reducible exact .refl _ _ | with_reducible assumption
    | with_reducible apply State.accessBy_kept | with_reducible apply Kept.via (State.keyCommand_kept ..) | exact rfl

theorem execFuseDebugKey_kept (who : Requester) (slot : Nat) (s : State) : KeptOut [.po, .cores, .lsc, .ssm, .sec, .dbg,
    .linkTries, .resp, .reg .SYS_WERR_CODE, .reg .LSC_STAT, .reg .SSM_WDSTATn, .reg .DBG_REPLAYn, .reg .DBG_HALTSt] s
    (execFuseDebugKey who slot s) := by
  unfold execFuseDebugKey
  repeat' first
    | with_reducible apply KeptOut.next | with_reducible apply KeptOut.ite | with_reducible exact .refl _ _
    | with_reducible assumption | with_reducible refine .ite ?_ ?_ | with_reducible apply State.accessBy_kept
    | with_reducible apply Kept.via (State.keyCommand_kept ..) | exact rfl

theorem execRevokeImageKey_kept (who : Requester) (slot : Nat) (s : State) : KeptOut [.po, .cores, .lsc, .ssm, .sec, .dbg,
    .linkTries, .resp, .reg .SYS_WERR_CODE, .reg .LSC_STAT, .reg .SSM_WDSTATn, .reg .DBG_REPLAYn, .reg .DBG_HALTSt] s
    (execRevokeImageKey who slot s) := by
  unfold execRevokeImageKey
  repeat' first
    | with_reducible apply KeptOut.next | with_reducible apply KeptOut.ite | with_reducible exact .refl _ _
    | with_reducible assumption | with_reducible refine .ite ?_ ?_ | with_reducible apply State.accessBy_kept
    | with_reducible apply Kept.via (State.keyCommand_kept ..) | exact rfl

theorem State.revoke_kept (s : State) (k : Nat) : Kept [.sec] s (State.revoke s k) := by
  unfold State.revoke
  try dsimp only
  repeat' first
    | with_reducible exact .refl _ _ | with_reducible assumption
    | (intro p; cases p <;> first | exact .inl (List.mem_of_elem_eq_true rfl) | exact .inr rfl | exact .inr True.intro)
    | dsimp only | with_reducible refine .update rfl rfl rfl ?_ ?_

theorem State.keyDone_kept (s : State) (c : KeyCmd) : Kept [.sec, .reg .SEC_EVT] s (State.keyDone s c) := by
  unfold State.keyDone
  try dsimp only
  repeat' first
    | with_reducible exact .refl _ _ | with_reducible assumption | with_reducible refine .ite ?_ ?_
    | with_reducible apply Kept.via (State.setFlag_kept (.SEC_EVT) ..) | with_reducible apply Kept.via (State.revoke_kept ..)
    | (intro p; cases p <;> first | exact .inl (List.mem_of_elem_eq_true rfl) | exact .inr rfl | exact .inr True.intro)
    | exact rfl | split | dsimp only | with_reducible refine .update rfl rfl rfl ?_ ?_

theorem execKeyCommandComplete_kept (s : State) : KeptOut [.sec, .reg .SEC_EVT] s (execKeyCommandComplete s) := by
  unfold execKeyCommandComplete
  repeat' first
    | with_reducible apply KeptOut.next | with_reducible exact .refl _ _ | with_reducible assumption
    | with_reducible apply Kept.via (State.setFlag_kept (.SEC_EVT) ..) | with_reducible apply Kept.via (State.keyDone_kept ..)
    | (intro p; cases p <;> first | exact .inl (List.mem_of_elem_eq_true rfl) | exact .inr rfl | exact .inr True.intro)
    | exact rfl | split | dsimp only | with_reducible refine .update rfl rfl rfl ?_ ?_

theorem specSecRevoke_kept  (s : State) (m : Msg) (k : Nat) : Kept [.sec] s (specSecRevoke.run s m k).1 := by
  unfold specSecRevoke
  try dsimp only
  repeat' first
    | with_reducible exact .refl _ _ | with_reducible assumption | with_reducible refine .ite ?_ ?_
    | with_reducible apply Kept.via (doneWith_kept ..) | with_reducible apply Kept.via (doneWith_kept_eq (by assumption))
    | with_reducible apply Kept.via (State.revoke_kept ..) | exact rfl

theorem specSecFkey_kept  (s : State) (m : Msg) (k : Nat) : Kept [.sec] s (specSecFkey.run s m k).1 := by
  unfold specSecFkey
  try dsimp only
  repeat' first
    | with_reducible exact .refl _ _ | with_reducible assumption | with_reducible refine .ite ?_ ?_
    | with_reducible apply Kept.via (doneWith_kept ..) | with_reducible apply Kept.via (doneWith_kept_eq (by assumption))
    | (intro p; cases p <;> first | exact .inl (List.mem_of_elem_eq_true rfl) | exact .inr rfl | exact .inr True.intro)
    | exact rfl | split | dsimp only | with_reducible refine .update rfl rfl rfl ?_ ?_

theorem specSecSak_kept  (s : State) (m : Msg) (k : Nat) : Kept [.eth] s (specSecSak.run s m k).1 := by
  unfold specSecSak
  try dsimp only
  repeat' first
    | with_reducible exact .refl _ _ | with_reducible assumption | with_reducible refine .ite ?_ ?_
    | with_reducible apply Kept.via (doneWith_kept ..) | with_reducible apply Kept.via (doneWith_kept_eq (by assumption))
    | with_reducible apply Kept.via (State.updEt_kept ..) | exact rfl

theorem execSecRevoke_kept (m : Msg) (s : State) : KeptOut (Part.receipt [.sec, .reg .PST_OUTST, .reg .PST_MERR_CODE]) s
    (execSecRevoke m s) := by
  unfold execSecRevoke
  repeat' first
    | with_reducible apply KeptOut.next | with_reducible exact .refl _ _
    | with_reducible apply deliver_kept rfl (fun s m k => (specSecRevoke_kept s m k).mono rfl) _ _

theorem execSecFkey_kept (m : Msg) (s : State) : KeptOut (Part.receipt [.sec, .reg .PST_OUTST, .reg .PST_MERR_CODE]) s
    (execSecFkey m s) := by
  unfold execSecFkey
  repeat' first
    | with_reducible apply KeptOut.next | with_reducible exact .refl _ _
    | with_reducible apply deliver_kept rfl (fun s m k => (specSecFkey_kept s m k).mono rfl) _ _

theorem execSecSak_kept (m : Msg) (s : State) : KeptOut (Part.receipt [.eth, .reg .PST_OUTST, .reg .PST_MERR_CODE]) s
    (execSecSak m s) := by
  unfold execSecSak
  repeat' first
    | with_reducible apply KeptOut.next | with_reducible exact .refl _ _
    | with_reducible apply deliver_kept rfl (fun s m k => (specSecSak_kept s m k).mono rfl) _ _

theorem execDebugChallengeRead_kept (who : Requester) (s : State) : KeptOut [.po, .cores, .lsc, .ssm, .sec, .dbg, .linkTries,
    .resp, .tick, .reg .SYS_WERR_CODE, .reg .LSC_STAT, .reg .SSM_WDSTATn, .reg .SEC_DBGCHALj, .reg .DBG_REPLAYn, .reg
    .DBG_HALTSt] s (execDebugChallengeRead who s) := by
  unfold execDebugChallengeRead
  repeat' first
    | with_reducible apply KeptOut.next | with_reducible exact .refl _ _ | with_reducible assumption
    | with_reducible apply Kept.via (State.setReg_kept (.SEC_DBGCHALj _) ..)
    | with_reducible apply Kept.via (State.respond_kept ..) | with_reducible apply Kept.via (State.drawN_kept ..)
    | with_reducible apply Kept.via (State.drawN_kept_eq (by assumption)) | with_reducible apply State.accessBy_kept
    | with_reducible refine .each (fun _ _ => ?_) ?_
    | (intro p; cases p <;> first | exact .inl (List.mem_of_elem_eq_true rfl) | exact .inr rfl | exact .inr True.intro)
    | exact rfl | split | dsimp only | with_reducible refine .update rfl rfl rfl ?_ ?_

theorem execDebugResponseWrite_kept (who : Requester) (value : Word) (s : State) : KeptOut [.po, .cores, .lsc, .ssm, .sec,
    .dbg, .linkTries, .resp, .reg .SYS_WERR_CODE, .reg .LSC_STAT, .reg .SSM_WDSTATn, .reg .SEC_EVT, .reg .SEC_DBGRESPj, .reg
    .DBG_REPLAYn, .reg .DBG_HALTSt] s (execDebugResponseWrite who value s) := by
  unfold execDebugResponseWrite
  repeat' first
    | with_reducible apply KeptOut.next | with_reducible apply KeptOut.ite | with_reducible exact .refl _ _
    | with_reducible assumption | with_reducible refine .ite ?_ ?_
    | with_reducible apply Kept.via (State.setFlag_kept (.SEC_EVT) ..)
    | with_reducible apply Kept.via (State.setReg_kept (.SEC_DBGRESPj _) ..)
    | with_reducible apply Kept.via (State.respond_kept ..) | with_reducible apply Kept.via (State.refuse_kept ..)
    | with_reducible apply State.accessBy_kept
    | (intro p; cases p <;> first | exact .inl (List.mem_of_elem_eq_true rfl) | exact .inr rfl | exact .inr True.intro)
    | exact rfl | split | dsimp only | with_reducible refine .update rfl rfl rfl ?_ ?_

theorem execChallengeExpiry_kept (s : State) : KeptOut [.sec] s (execChallengeExpiry s) := by
  unfold execChallengeExpiry
  repeat' first
    | with_reducible apply KeptOut.next | with_reducible exact .refl _ _ | with_reducible assumption
    | (intro p; cases p <;> first | exact .inl (List.mem_of_elem_eq_true rfl) | exact .inr rfl | exact .inr True.intro)
    | dsimp only | with_reducible refine .update rfl rfl rfl ?_ ?_

theorem execRandomWordRead_kept (who : Requester) (healthy : Bool) (s : State) : KeptOut [.po, .cores, .lsc, .ssm, .sec, .dbg,
    .linkTries, .resp, .tick, .reg .SYS_WERR_CODE, .reg .LSC_STAT, .reg .SSM_WDSTATn, .reg .SEC_EVT, .reg .DBG_REPLAYn, .reg
    .DBG_HALTSt] s (execRandomWordRead who healthy s) := by
  unfold execRandomWordRead
  repeat' first
    | with_reducible apply KeptOut.next | with_reducible apply KeptOut.ite | with_reducible exact .refl _ _
    | with_reducible assumption | with_reducible refine .ite ?_ ?_
    | with_reducible apply Kept.via (State.setFlag_kept (.SEC_EVT) ..) | with_reducible apply Kept.via (State.respond_kept ..)
    | with_reducible apply Kept.via (State.draw_kept ..) | with_reducible apply Kept.via (State.draw_kept_eq (by assumption))
    | with_reducible apply State.accessBy_kept
    | (intro p; cases p <;> first | exact .inl (List.mem_of_elem_eq_true rfl) | exact .inr rfl | exact .inr True.intro)
    | exact rfl | split | dsimp only | with_reducible refine .update rfl rfl rfl ?_ ?_

theorem State.selectHart_kept (s : State) (t : Nat) : Kept [.dbg] s (State.selectHart s t) := by
  unfold State.selectHart
  try dsimp only
  repeat' first
    | with_reducible exact .refl _ _ | with_reducible assumption
    | (intro p; cases p <;> first | exact .inl (List.mem_of_elem_eq_true rfl) | exact .inr rfl | exact .inr True.intro)
    | dsimp only | with_reducible refine .update rfl rfl rfl ?_ ?_

theorem execDebugHalt_kept (t : Nat) (s : State) : KeptOut [.cores, .ssm, .dbg, .reg .PST_SLEEP, .reg .LSC_STAT, .reg
    .SSM_WDSTATn, .reg .DBG_HALTSt] s (execDebugHalt t s) := by
  unfold execDebugHalt
  repeat' first
    | with_reducible apply KeptOut.next | with_reducible apply KeptOut.ite | with_reducible exact .refl _ _
    | with_reducible assumption | with_reducible refine .ite ?_ ?_ | with_reducible apply Kept.via (State.enterHalt_kept ..)
    | with_reducible apply Kept.via (State.endWfi_kept ..) | with_reducible apply Kept.via (State.selectHart_kept ..)
    | exact rfl

theorem execDebugResume_kept (t : Nat) (s : State) : KeptOut [.cores, .lsc, .ssm, .evc, .dbg, .reg .PST_SLEEP, .reg .LSC_STAT,
    .reg .SSM_WDSTATn, .reg .EVC_DBSET, .reg .EVC_FASTt, .reg .EVC_WAKEt, .reg .DBG_REPLAYn] s (execDebugResume t s) := by
  unfold execDebugResume
  repeat' first
    | with_reducible apply KeptOut.next | with_reducible apply KeptOut.ite | with_reducible exact .refl _ _
    | with_reducible assumption | with_reducible refine .ite ?_ ?_ | with_reducible apply Kept.via (State.updCore_kept ..)
    | with_reducible apply Kept.via (State.setLscStat_kept ..) | with_reducible apply Kept.via (State.evcSettle_kept ..)
    | with_reducible apply Kept.via (State.haltWatch_kept ..) | with_reducible apply Kept.via (State.replayed_kept ..)
    | with_reducible apply Kept.via (State.fastEntry_kept ..) | with_reducible apply Kept.via (State.selectHart_kept ..)
    | exact rfl

theorem execDebugStep_kept (t : Nat) (pc : Word) (s : State) : KeptOut [.cores, .lsc, .ssm, .dbg, .reg .LSC_STAT, .reg
    .SSM_WDSTATn, .reg .DBG_REPLAYn, .reg .DBG_HALTSt] s (execDebugStep t pc s) := by
  unfold execDebugStep
  repeat' first
    | with_reducible apply KeptOut.next | with_reducible apply KeptOut.ite | with_reducible exact .refl _ _
    | with_reducible assumption | with_reducible refine .ite ?_ ?_ | with_reducible apply Kept.via (State.updCore_kept ..)
    | with_reducible apply Kept.via (State.replayed_kept ..) | with_reducible apply Kept.via (State.enterHalt_kept ..)
    | with_reducible apply Kept.via (State.selectHart_kept ..) | exact rfl

theorem State.abstractReg_kept {s r : State} {t : Nat} {c : DbgCmd} {v : Word} (h : s.abstractReg t c = some (r, v)) :
    Kept [.cores, .tick] s r := by
  have w : Kept [.cores, .tick] s s := .refl _ _
  have q : Kept [.cores, .tick] s (if isCounter c.regno then { s with tick := s.tick + 1 } else s) := by
    refine .ite (.update rfl rfl rfl (fun p => ?_) (.refl _ _)) w
    cases p <;> first | exact .inl (List.mem_of_elem_eq_true rfl) | exact .inr rfl | exact .inr True.intro
  unfold State.abstractReg at h
  dsimp only at h
  generalize (if isCounter c.regno then ({ s with tick := s.tick + 1 } : State) else s) = y at q h
  repeat' first
    | split at h
    | (cases h; done)
    | (cases h; first | exact w | exact q | exact .via (State.setCore_kept ..) rfl w | exact .via (State.csrWrite_kept ..) rfl q)

theorem State.bufferRuns_kept {s r : State} {t : Nat} {l : List (Nat × Word)} (h : s.bufferRuns t l = some r) :
    Kept [.cores, .tick] s r := by
  induction l generalizing s with
  | nil => cases h; exact .refl _ _
  | cons p l ih =>
    obtain ⟨a, v⟩ := p
    unfold State.bufferRuns at h
    split at h
    · cases h
    · rename_i e
      exact .trans (State.abstractReg_kept e) (ih h)

theorem State.bufferExec_kept (s : State) (t : Nat) (c : DbgCmd) : Kept [.cores, .lsc, .dbg, .tick, .reg .DBG_REPLAYn] s
    (s.bufferExec t c) := by
  unfold State.bufferExec
  split
  · exact .refl _ _
  · split
    · exact .via (Part.dbg_kept ..) rfl (.refl _ _)
    · rename_i e
      have k : Kept [.cores, .lsc, .dbg, .tick, .reg .DBG_REPLAYn] s _ := .via (State.replayed_kept _ t (max 1 c.runs.length)) rfl ((State.bufferRuns_kept e).mono rfl)
      exact .ite (.via (Part.dbg_kept ..) rfl k) k

theorem execDebugAbstractCommand_kept (t : Nat) (c : DbgCmd) (s : State) : KeptOut [.cores, .lsc, .dbg, .tick, .reg
    .DBG_REPLAYn] s (execDebugAbstractCommand t c s) := by
  unfold execDebugAbstractCommand
  repeat' first
    | with_reducible apply KeptOut.next | with_reducible apply KeptOut.ite | with_reducible exact .refl _ _
    | with_reducible assumption | with_reducible refine .ite ?_ ?_ | with_reducible apply Kept.via (State.replayed_kept ..)
    | with_reducible apply Kept.via (State.selectHart_kept ..)
    | with_reducible apply Kept.via (State.abstractReg_kept (by assumption))
    | with_reducible apply Kept.via (State.bufferExec_kept ..) | with_reducible refine .foldl (fun _ _ => ?_) ?_
    | (intro p; cases p <;> first | exact .inl (List.mem_of_elem_eq_true rfl) | exact .inr rfl | exact .inr True.intro)
    | exact rfl | split | dsimp only | with_reducible refine .update rfl rfl rfl ?_ ?_

theorem execDebugHartReset_kept (t : Nat) (held : Bool) (s : State) : KeptOut (Part.allBut [.variant, .bootSplit, .up, .gf,
    .driveEn, .actEn, .recovery, .resp, .tick, .pending]) s (execDebugHartReset t held s) := by
  unfold execDebugHartReset
  repeat' first
    | with_reducible apply KeptOut.next | with_reducible apply KeptOut.ite | with_reducible exact .refl _ _
    | with_reducible assumption | with_reducible refine .ite ?_ ?_
    | with_reducible apply Kept.via (State.releaseSource_kept ..) | with_reducible apply Kept.via (State.raiseSource_kept ..)
    | with_reducible apply Kept.via (State.selectHart_kept ..) | exact rfl

theorem execJtagExtest_kept (op : JtagOp) (s : State) : KeptOut [.pins, .resp] s (execJtagExtest op s) := by
  unfold execJtagExtest
  repeat' first
    | with_reducible apply KeptOut.next | with_reducible apply KeptOut.ite | with_reducible exact .refl _ _
    | with_reducible assumption | with_reducible refine .ite ?_ ?_ | with_reducible apply Kept.via (State.respond_kept ..)
    | (intro p; cases p <;> first | exact .inl (List.mem_of_elem_eq_true rfl) | exact .inr rfl | exact .inr True.intro)
    | exact rfl | split | dsimp only | with_reducible refine .update rfl rfl rfl ?_ ?_

theorem execPinOutWrite_kept (who : Requester) (value : Word) (s : State) : KeptOut [.po, .cores, .lsc, .ssm, .dbg, .linkTries,
    .resp, .reg .SYS_WERR_CODE, .reg .LSC_STAT, .reg .SSM_WDSTATn, .reg .DBG_REPLAYn, .reg .DBG_HALTSt, .reg .PIN_OUT] s
    (execPinOutWrite who value s) := by
  unfold execPinOutWrite
  repeat' first
    | with_reducible apply KeptOut.next | with_reducible apply KeptOut.ite | with_reducible exact .refl _ _
    | with_reducible assumption | with_reducible refine .ite ?_ ?_
    | with_reducible apply Kept.via (State.plainWrite_kept (.PIN_OUT) ..) | with_reducible apply State.tryWrite_kept
    | with_reducible apply State.accessBy_kept | exact rfl | split | dsimp only | intro _

theorem execPpsPulse_kept (high : Bool) (s : State) : KeptOut [.pins] s (execPpsPulse high s) := by
  unfold execPpsPulse
  repeat' first
    | with_reducible apply KeptOut.next | with_reducible apply KeptOut.ite | with_reducible exact .refl _ _
    | with_reducible assumption | with_reducible refine .ite ?_ ?_
    | (intro p; cases p <;> first | exact .inl (List.mem_of_elem_eq_true rfl) | exact .inr rfl | exact .inr True.intro) | split
    | dsimp only | with_reducible refine .update rfl rfl rfl ?_ ?_

end Sys2Proof.Machine
end

