-- ==== Sys2Proof/Laws/KeptAdmission.lean ====
section
/-!
SUPPORT. The frame of each operation of Sys2Proof/Machine/Admission.lean: the parts of the state that it can change.
-/
namespace Sys2Proof.Machine
set_option Elab.async false

theorem State.readMram_kept (n : Nat) : ∀ (s : State) (key : Nat), Kept (Part.journal [.err, .memCap, .reg .MEM_EVT, .reg
    .MEM_LASTINFO, .reg .MEM_CNTs, .reg .NVS_STATE]) s (s.readMram key n).1 := by
  induction n with
  | zero => exact fun s _ => .refl _ s
  | succ n ih =>
    intro s key
    unfold State.readMram
    dsimp only
    exact .via (ih ..) rfl (.via (State.readCw_kept ..) rfl (.refl _ s))
theorem State.readMram_kept_eq {n key : Nat} {s r : State} {x} (h : s.readMram key n = (r, x)) : Kept (Part.journal [.err,
    .memCap, .reg .MEM_EVT, .reg .MEM_LASTINFO, .reg .MEM_CNTs, .reg .NVS_STATE]) s r := by
  have k := State.readMram_kept n s key
  rw [h] at k
  exact k

theorem State.slotBytes_kept (s : State) (key bound : Nat) : Kept (Part.journal [.err, .memCap, .reg .MEM_EVT, .reg
    .MEM_LASTINFO, .reg .MEM_CNTs, .reg .NVS_STATE]) s (State.slotBytes s key bound).1 := by
  unfold State.slotBytes
  try dsimp only
  repeat' first
    | with_reducible exact .refl _ _ | with_reducible assumption | with_reducible refine .ite ?_ ?_
    | with_reducible apply Kept.via (State.readMram_kept ..)
    | with_reducible apply Kept.via (State.readMram_kept_eq (by assumption)) | exact rfl | split
theorem State.slotBytes_kept_eq {s : State} {key bound : Nat} {r_} {x_} (h : State.slotBytes s key bound = (r_, x_)) : Kept
    (Part.journal [.err, .memCap, .reg .MEM_EVT, .reg .MEM_LASTINFO, .reg .MEM_CNTs, .reg .NVS_STATE]) s r_ := by
  have k := State.slotBytes_kept s key bound
  rw [h] at k
  exact k

theorem State.admitSlot_kept (s : State) (i : Nat) : Kept (Part.journal [.err, .memCap, .reg .MEM_EVT, .reg .MEM_LASTINFO, .reg
    .MEM_CNTs, .reg .NVS_STATE]) s (State.admitSlot s i).1 := by
  unfold State.admitSlot
  try dsimp only
  repeat' first
    | with_reducible exact .refl _ _ | with_reducible assumption | with_reducible apply Kept.via (State.slotBytes_kept ..)
    | with_reducible apply Kept.via (State.slotBytes_kept_eq (by assumption)) | exact rfl | split
theorem State.admitSlot_kept_eq {s : State} {i : Nat} {r_} {x_} (h : State.admitSlot s i = (r_, x_)) : Kept (Part.journal
    [.err, .memCap, .reg .MEM_EVT, .reg .MEM_LASTINFO, .reg .MEM_CNTs, .reg .NVS_STATE]) s r_ := by
  have k := State.admitSlot_kept s i
  rw [h] at k
  exact k

theorem State.checkFw_kept (s : State) (i : Nat) : Kept (Part.journal [.err, .memCap, .reg .MEM_EVT, .reg .MEM_LASTINFO, .reg
    .MEM_CNTs, .reg .NVS_STATE]) s (State.checkFw s i).1 := by
  unfold State.checkFw
  try dsimp only
  repeat' first
    | with_reducible exact .refl _ _ | with_reducible assumption | with_reducible refine .ite ?_ ?_
    | with_reducible apply Kept.via (State.slotBytes_kept ..)
    | with_reducible apply Kept.via (State.slotBytes_kept_eq (by assumption)) | exact rfl | split
theorem State.checkFw_kept_eq {s : State} {i : Nat} {r_} {x_} (h : State.checkFw s i = (r_, x_)) : Kept (Part.journal [.err,
    .memCap, .reg .MEM_EVT, .reg .MEM_LASTINFO, .reg .MEM_CNTs, .reg .NVS_STATE]) s r_ := by
  have k := State.checkFw_kept s i
  rw [h] at k
  exact k

theorem State.journalFindings_kept (s : State) (l : List Finding) : Kept (Part.journal []) s (State.journalFindings s l) := by
  unfold State.journalFindings
  try dsimp only
  repeat' first
    | with_reducible exact .refl _ _ | with_reducible assumption | with_reducible apply Kept.via (State.journal_kept ..)
    | with_reducible refine .each (fun _ _ => ?_) ?_ | exact rfl

theorem specSlotWrite_kept (target : Nat) (s : State) (m : Msg) (k : Nat) : Kept [.icheck, .fcheck, .nvs, .reg .NVS_STATE] s
    ((specSlotWrite target).run s m k).1 := by
  unfold specSlotWrite
  try dsimp only
  repeat' first
    | with_reducible exact .refl _ _ | with_reducible assumption | with_reducible refine .ite ?_ ?_
    | with_reducible apply Kept.via (doneWith_kept ..) | with_reducible apply Kept.via (doneWith_kept_eq (by assumption))
    | with_reducible apply Kept.via (State.slotWrite_kept ..) | exact rfl

theorem specSlotCheck_kept (firmware : Bool) (s : State) (m : Msg) (k : Nat) : Kept [.icheck, .fcheck] s ((specSlotCheck
    firmware).run s m k).1 := by
  unfold specSlotCheck
  try dsimp only
  repeat' first
    | with_reducible exact .refl _ _ | with_reducible assumption | with_reducible refine .ite ?_ ?_
    | with_reducible apply Kept.via (acceptedWith_kept ..)
    | with_reducible apply Kept.via (acceptedWith_kept_eq (by assumption))
    | (intro p; cases p <;> first | exact .inl (List.mem_of_elem_eq_true rfl) | exact .inr rfl | exact .inr True.intro)
    | exact rfl | split | dsimp only | with_reducible refine .update rfl rfl rfl ?_ ?_

theorem State.commit_kept (s : State) (m : Msg) (base slot : Nat) : Kept (Part.receipt [.icheck, .fcheck, .reg .NVS_STATE]) s
    (State.commit s m base slot) := by
  unfold State.commit
  try dsimp only
  repeat' first
    | with_reducible exact .refl _ _ | with_reducible assumption | with_reducible apply Kept.via (State.commitWrite_kept ..)
    | exact rfl

theorem specCommit_kept (firmware : Bool) (s : State) (m : Msg) (k : Nat) :
    Kept (Part.receipt [.icheck, .fcheck, .reg .NVS_STATE]) s ((specCommit firmware).run s m k).1 := by
  have h : ∀ a b c, Kept (Part.receipt [.icheck, .fcheck, .reg .NVS_STATE]) s (s.commit a b c) := fun a b c =>
      (State.commit_kept s a b c).mono rfl
  unfold specCommit
  dsimp only
  exact .ite (h ..) (h ..)

theorem execImageWrite_kept (m : Msg) (s : State) : KeptOut (Part.receipt [.icheck, .fcheck, .reg .PST_OUTST, .reg
    .PST_MERR_CODE, .reg .NVS_STATE]) s (execImageWrite m s) := by
  unfold execImageWrite
  repeat' first
    | with_reducible apply KeptOut.next | with_reducible exact .refl _ _
    | with_reducible apply deliver_kept rfl (fun s m k => (specSlotWrite_kept _ s m k).mono rfl) _ _

theorem execImageCheck_kept (m : Msg) (s : State) : KeptOut (Part.receipt [.icheck, .fcheck, .reg .PST_OUTST, .reg
    .PST_MERR_CODE]) s (execImageCheck m s) := by
  unfold execImageCheck
  repeat' first
    | with_reducible apply KeptOut.next | with_reducible exact .refl _ _ | with_reducible assumption
    | with_reducible apply deliver_kept rfl (fun s m k => (specSlotCheck_kept _ s m k).mono rfl) _ _

theorem execImageCommit_kept (m : Msg) (s : State) : KeptOut (Part.allBut [.variant, .split, .bootSplit, .up, .gf, .driveEn,
    .actEn, .recovery, .resp, .tick, .pending]) s (execImageCommit m s) := by
  unfold execImageCommit
  repeat' first
    | with_reducible apply KeptOut.next | with_reducible exact .refl _ _
    | with_reducible apply Kept.via (State.runReady_kept ..)
    | with_reducible apply deliver_kept rfl (fun s m k => (specCommit_kept _ s m k).mono rfl) _ _ | exact rfl | dsimp only
    | intro _

theorem execFwWrite_kept (m : Msg) (s : State) : KeptOut (Part.receipt [.icheck, .fcheck, .reg .PST_OUTST, .reg .PST_MERR_CODE,
    .reg .NVS_STATE]) s (execFwWrite m s) := by
  unfold execFwWrite
  repeat' first
    | with_reducible apply KeptOut.next | with_reducible exact .refl _ _
    | with_reducible apply deliver_kept rfl (fun s m k => (specSlotWrite_kept _ s m k).mono rfl) _ _

theorem execFwCheck_kept (m : Msg) (s : State) : KeptOut (Part.receipt [.icheck, .fcheck, .reg .PST_OUTST, .reg
    .PST_MERR_CODE]) s (execFwCheck m s) := by
  unfold execFwCheck
  repeat' first
    | with_reducible apply KeptOut.next | with_reducible exact .refl _ _ | with_reducible assumption
    | with_reducible apply deliver_kept rfl (fun s m k => (specSlotCheck_kept _ s m k).mono rfl) _ _

theorem execFwCommit_kept (m : Msg) (s : State) : KeptOut (Part.allBut [.variant, .split, .bootSplit, .up, .gf, .driveEn,
    .actEn, .recovery, .resp, .tick, .pending]) s (execFwCommit m s) := by
  unfold execFwCommit
  repeat' first
    | with_reducible apply KeptOut.next | with_reducible exact .refl _ _
    | with_reducible apply Kept.via (State.runReady_kept ..)
    | with_reducible apply deliver_kept rfl (fun s m k => (specCommit_kept _ s m k).mono rfl) _ _ | exact rfl | dsimp only
    | intro _

theorem State.checkEnds_kept (s : State) (l : List Finding) (key : Nat) (firmware : Bool) : Kept (Part.journal [.po, .icheck,
    .fcheck, .reg .SEC_EVT]) s (State.checkEnds s l key firmware) := by
  unfold State.checkEnds
  try dsimp only
  repeat' first
    | with_reducible exact .refl _ _ | with_reducible assumption | with_reducible refine .ite ?_ ?_
    | with_reducible apply Kept.via (State.setFlag_kept (.SEC_EVT) ..) | with_reducible apply Kept.via (State.hwFinish_kept ..)
    | with_reducible apply Kept.via (State.journalFindings_kept ..)
    | (intro p; cases p <;> first | exact .inl (List.mem_of_elem_eq_true rfl) | exact .inr rfl | exact .inr True.intro)
    | exact rfl | split | dsimp only | with_reducible refine .update rfl rfl rfl ?_ ?_

theorem execCheckComplete_kept (firmware : Bool) (s : State) : KeptOut (Part.journal [.err, .po, .icheck, .fcheck, .memCap,
    .reg .SEC_EVT, .reg .MEM_EVT, .reg .MEM_LASTINFO, .reg .MEM_CNTs, .reg .NVS_STATE]) s (execCheckComplete firmware s) := by
  unfold execCheckComplete
  repeat' first
    | with_reducible apply KeptOut.next | with_reducible apply KeptOut.ite | with_reducible exact .refl _ _
    | with_reducible assumption | with_reducible refine .ite ?_ ?_ | with_reducible apply Kept.via (State.admitSlot_kept ..)
    | with_reducible apply Kept.via (State.admitSlot_kept_eq (by assumption))
    | with_reducible apply Kept.via (State.checkFw_kept ..)
    | with_reducible apply Kept.via (State.checkFw_kept_eq (by assumption))
    | with_reducible apply Kept.via (State.checkEnds_kept ..) | exact rfl | split

end Sys2Proof.Machine
end

