-- ==== Sys2Proof/Laws/KeptLoad.lean ====
section
/-!
SUPPORT. The frame of each operation of Sys2Proof/Machine/Load.lean: the parts of the state that it can change.
-/
namespace Sys2Proof.Machine
set_option Elab.async false

theorem State.setNat_kept {k : Reg} {a : Nat} (h : k.At a) (s : State) (v : Nat) : Kept [.reg k] s (s.setNat a v) :=
  State.setReg_kept h ..
theorem State.setNat_any (s : State) (a v : Nat) : Kept [.regs] s (s.setNat a v) := State.setReg_any ..

theorem State.fromThr_kept {k : Reg} {a : Nat} (h : k.At a) (s : State) (im : Image) (id b2 : Nat) (f : Fld) :
    Kept [.reg k] s (s.fromThr im id b2 a f) := by
  unfold State.fromThr
  split
  · exact .refl _ _
  · exact State.setFld_kept h ..
theorem State.fromThr_any (s : State) (im : Image) (id b2 a : Nat) (f : Fld) : Kept [.regs] s (s.fromThr im id b2 a f) := by
  unfold State.fromThr
  split
  · exact .refl _ _
  · exact State.setReg_any ..

theorem State.declare_kept (s : State) (n size cls producer consumer maxpe off : Nat) : Kept [.reg .PHn_CFG, .reg .PHn_LIM,
    .reg .PHn_BASE] s (State.declare s n size cls producer consumer maxpe off) := by
  unfold State.declare
  try dsimp only
  repeat' first
    | with_reducible exact .refl _ _ | with_reducible apply Kept.via (State.setNat_kept (.PHn_BASE _) ..)
    | with_reducible apply Kept.via (State.setNat_kept (.PHn_CFG _) ..)
    | with_reducible apply Kept.via (State.setNat_kept (.PHn_LIM _) ..) | exact rfl

theorem State.loadPost_kept (s : State) (im : Image) : Kept [.reg .PHn_CFG, .reg .PHn_LIM, .reg .PHn_BASE] s (s.loadPost im) :=
    by
  unfold State.loadPost
  dsimp only
  refine .foldlFst (fun p n => ?_) (.refl _ _)
  split
  · exact .refl _ _
  · exact .via (State.declare_kept ..) rfl (.refl _ _)

theorem State.loadEngine_kept (s : State) (im : Image) (n : Nat) : Kept [.eng, .reg .FEn_STATE, .reg .FEn_LOOPCFG, .reg
    .FEn_PERIOD, .reg .FEn_LEAD, .reg .FEn_BASE, .reg .FEn_GAINS, .reg .FEn_ADAPT, .reg .FEn_PHASE, .reg .FEn_TMPLj] s
    (State.loadEngine s im n) := by
  unfold State.loadEngine
  try dsimp only
  repeat' first
    | with_reducible exact .refl _ _ | with_reducible assumption | with_reducible refine .ite ?_ ?_
    | with_reducible apply Kept.via (State.setFld_kept (.FEn_ADAPT _) ..)
    | with_reducible apply Kept.via (State.setFld_kept (.FEn_GAINS _) ..)
    | with_reducible apply Kept.via (State.setFld_kept (.FEn_STATE _) ..)
    | with_reducible apply Kept.via (State.setNat_kept (.FEn_BASE _) ..)
    | with_reducible apply Kept.via (State.setNat_kept (.FEn_LEAD _) ..)
    | with_reducible apply Kept.via (State.setNat_kept (.FEn_LOOPCFG _) ..)
    | with_reducible apply Kept.via (State.setNat_kept (.FEn_PERIOD _) ..)
    | with_reducible apply Kept.via (State.setNat_kept (.FEn_PHASE _) ..)
    | with_reducible apply Kept.via (State.setNat_kept (.FEn_TMPLj _ _) ..)
    | with_reducible apply Kept.via (State.updE_kept ..) | with_reducible refine .each (fun _ _ => ?_) ?_ | exact rfl | split

theorem State.loadMod_kept (s : State) (im : Image) : Kept [.regs] s (State.loadMod s im) := by
  unfold State.loadMod
  try dsimp only
  repeat' first
    | with_reducible exact .refl _ _ | with_reducible assumption | with_reducible apply Kept.via (State.fromThr_any ..)
    | with_reducible refine .each (fun _ _ => ?_) ?_ | exact rfl

theorem State.loadLeg_kept (s : State) (r : List Byte) : Kept [.mdl, .reg .MOD_LCFGn, .reg .MOD_DIDTn, .reg .GLKk_STAT] s
    (State.loadLeg s r) := by
  unfold State.loadLeg
  try dsimp only
  repeat' first
    | with_reducible exact .refl _ _ | with_reducible assumption | with_reducible refine .ite ?_ ?_
    | with_reducible apply Kept.via (State.setBit_kept (.GLKk_STAT _) ..)
    | with_reducible apply Kept.via (State.setNat_kept (.MOD_DIDTn _) ..)
    | with_reducible apply Kept.via (State.setNat_kept (.MOD_LCFGn _) ..)
    | with_reducible apply Kept.via (State.applyTiming_kept ..) | exact rfl

theorem State.loadDrivers_kept (s : State) (im : Image) : Kept [.mdl, .reg .GLKk_STAT] s (State.loadDrivers s im) := by
  unfold State.loadDrivers
  try dsimp only
  repeat' first
    | with_reducible exact .refl _ _ | with_reducible assumption | with_reducible apply Kept.via (State.glQueue_kept ..)
    | with_reducible refine .each (fun _ _ => ?_) ?_ | exact rfl

theorem State.loadSense_kept (s : State) (im : Image) : Kept [.regs] s (State.loadSense s im) := by
  unfold State.loadSense
  try dsimp only
  repeat' first
    | with_reducible exact .refl _ _ | with_reducible assumption | with_reducible refine .ite ?_ ?_
    | with_reducible apply Kept.via (State.setNat_kept (.POSk_CFG _) ..)
    | with_reducible apply Kept.via (State.setNat_kept (.RNDr_LIMe _ _) ..)
    | with_reducible apply Kept.via (State.setNat_kept (.RNDr_SEQe _ _) ..)
    | with_reducible apply Kept.via (State.setNat_kept (.SENTi_CFG _) ..)
    | with_reducible apply Kept.via (State.fromThr_any ..) | with_reducible refine .each (fun _ _ => ?_) ?_ | exact rfl | split

theorem State.loadChg_kept (s : State) (im : Image) : Kept [.reg .CHG_CFG] s (State.loadChg s im) := by
  unfold State.loadChg
  try dsimp only
  repeat' first
    | with_reducible exact .refl _ _ | with_reducible assumption
    | with_reducible apply Kept.via (State.setNat_kept (.CHG_CFG) ..) | exact rfl | split

theorem State.loadReg_kept (s : State) (im : Image) : Kept [.regs] s (State.loadReg s im) := by
  unfold State.loadReg
  try dsimp only
  repeat' first
    | with_reducible exact .refl _ _ | with_reducible assumption
    | with_reducible apply Kept.via (State.setFld_kept (.REG_STATE) ..)
    | with_reducible apply Kept.via (State.setNat_kept (.REG_CFG) ..)
    | with_reducible apply Kept.via (State.setNat_kept (.REG_SHED) ..)
    | with_reducible apply Kept.via (State.setNat_kept (.REG_TARGET) ..) | with_reducible apply Kept.via (State.fromThr_any ..)
    | with_reducible refine .each (fun _ _ => ?_) ?_ | exact rfl | split

theorem State.loadActs_kept (s : State) (im : Image) : Kept [.reg .ACk_CFG, .reg .ACk_RATED, .reg .GBX_CFG, .reg .GBX_SENT] s
    (State.loadActs s im) := by
  unfold State.loadActs
  try dsimp only
  repeat' first
    | with_reducible exact .refl _ _ | with_reducible assumption | with_reducible refine .ite ?_ ?_
    | with_reducible apply Kept.via (State.setNat_kept (.ACk_CFG _) ..)
    | with_reducible apply Kept.via (State.setNat_kept (.ACk_RATED _) ..)
    | with_reducible apply Kept.via (State.setNat_kept (.GBX_CFG) ..)
    | with_reducible apply Kept.via (State.setNat_kept (.GBX_SENT) ..) | with_reducible refine .each (fun _ _ => ?_) ?_
    | exact rfl | split

theorem State.loadPort_kept (s : State) (r : List Byte) : Kept [.reg .LDG_Pp_CFG, .reg .LDG_Pp_MAXD, .reg .LDG_Pp_MAXR, .reg
    .LDG_Pp_IMBW, .reg .LDG_Pp_IMBT] s (State.loadPort s r) := by
  unfold State.loadPort
  try dsimp only
  repeat' first
    | with_reducible exact .refl _ _ | with_reducible assumption | with_reducible refine .ite ?_ ?_
    | with_reducible apply Kept.via (State.setNat_kept (.LDG_Pp_CFG _) ..)
    | with_reducible apply Kept.via (State.setNat_kept (.LDG_Pp_IMBT _) ..)
    | with_reducible apply Kept.via (State.setNat_kept (.LDG_Pp_IMBW _) ..)
    | with_reducible apply Kept.via (State.setNat_kept (.LDG_Pp_MAXD _) ..)
    | with_reducible apply Kept.via (State.setNat_kept (.LDG_Pp_MAXR _) ..) | exact rfl

theorem State.loadMisc_kept (s : State) (im : Image) : Kept [.regs] s (State.loadMisc s im) := by
  unfold State.loadMisc
  try dsimp only
  repeat' first
    | with_reducible exact .refl _ _ | with_reducible assumption
    | with_reducible apply Kept.via (State.setFld_kept (.LSC_CFG) ..)
    | with_reducible apply Kept.via (State.setFld_kept (.THM_TCFG) ..) | with_reducible apply Kept.via (State.fromThr_any ..)
    | with_reducible refine .each (fun _ _ => ?_) ?_ | exact rfl | split

theorem State.loadPins_kept (s : State) (im : Image) : Kept [.reg .PIN_OUT, .reg .PIN_CFGn] s (State.loadPins s im) := by
  unfold State.loadPins
  try dsimp only
  repeat' first
    | with_reducible exact .refl _ _ | with_reducible assumption
    | with_reducible apply Kept.via (State.setFld_kept (.PIN_OUT) ..)
    | with_reducible apply Kept.via (State.setNat_kept (.PIN_CFGn _) ..) | with_reducible refine .each (fun _ _ => ?_) ?_
    | exact rfl

theorem State.loadTables_kept (s : State) (im : Image) : Kept [.mem] s (State.loadTables s im) := by
  unfold State.loadTables
  try dsimp only
  repeat' first
    | with_reducible exact .refl _ _ | with_reducible assumption | with_reducible apply Kept.via (State.setBytes_kept ..)
    | with_reducible refine .each (fun _ _ => ?_) ?_ | exact rfl

theorem State.loadCan_kept (s : State) (n : Nat) (r : List Byte) : Kept [.reg .CANn_MODE, .reg .CANn_TIMING, .reg .CANn_IDS] s
    (State.loadCan s n r) := by
  unfold State.loadCan
  try dsimp only
  repeat' first
    | with_reducible exact .refl _ _ | with_reducible assumption | with_reducible refine .ite ?_ ?_
    | with_reducible apply Kept.via (State.setNat_kept (.CANn_IDS _) ..)
    | with_reducible apply Kept.via (State.setNat_kept (.CANn_MODE _) ..)
    | with_reducible apply Kept.via (State.setNat_kept (.CANn_TIMING _) ..) | exact rfl

theorem State.loadEth_kept (s : State) (p : Nat) (r : List Byte) (thr : Nat → Option Int) : Kept [.reg .ETHp_CFG, .reg
    .ETHp_MACL, .reg .ETHp_MACH, .reg .ETHp_GCLj] s (State.loadEth s p r thr) := by
  unfold State.loadEth
  try dsimp only
  repeat' first
    | with_reducible exact .refl _ _ | with_reducible assumption
    | with_reducible apply Kept.via (State.setNat_kept (.ETHp_CFG _) ..)
    | with_reducible apply Kept.via (State.setNat_kept (.ETHp_GCLj _ _) ..)
    | with_reducible apply Kept.via (State.setNat_kept (.ETHp_MACH _) ..)
    | with_reducible apply Kept.via (State.setNat_kept (.ETHp_MACL _) ..) | with_reducible refine .each (fun _ _ => ?_) ?_
    | exact rfl | split

theorem State.loadNets_kept (s : State) (im : Image) : Kept [.reg .CANn_MODE, .reg .CANn_TIMING, .reg .CANn_IDS, .reg
    .ETHp_STATE, .reg .ETHp_CFG, .reg .ETHp_MACL, .reg .ETHp_MACH, .reg .ETHp_GCLj] s (State.loadNets s im) := by
  unfold State.loadNets
  try dsimp only
  repeat' first
    | with_reducible exact .refl _ _ | with_reducible assumption | with_reducible apply Kept.via (State.keepMerged_kept ..)
    | with_reducible apply Kept.via (State.loadCan_kept ..) | with_reducible apply Kept.via (State.loadEth_kept ..)
    | with_reducible refine .each (fun _ _ => ?_) ?_ | exact rfl | split

theorem State.loadFn_kept (s : State) (im : Image) (f : Nat) : Kept [.tra, .hlv] s (State.loadFn s im f) := by
  unfold State.loadFn
  try dsimp only
  repeat' first
    | with_reducible exact .refl _ _ | with_reducible assumption | with_reducible refine .ite ?_ ?_
    | with_reducible apply Kept.via (State.updTr_kept ..) | with_reducible apply Kept.via (State.updHl_kept ..) | exact rfl

theorem State.overrideTest_kept (s : State) : Kept [.eng, .mdl, .ldg, .ssm, .tick, .reg .FEn_EVT, .reg .FEn_WDCNT, .reg
    .LDG_EVT, .reg .LDG_WQSTAT, .reg .LDG_PNf, .reg .SSM_STATE, .reg .SSM_CAUSE, .reg .SSM_EVT, .reg .SSM_PAT0, .reg .SSM_PAT1,
    .reg .SSM_PATX, .reg .SSM_OTEST] s (State.overrideTest s) := by
  unfold State.overrideTest
  try dsimp only
  repeat' first
    | with_reducible exact .refl _ _ | with_reducible assumption | with_reducible refine .ite ?_ ?_
    | with_reducible apply Kept.via (State.setFlag_kept (.SSM_OTEST) ..)
    | with_reducible apply Kept.via (State.setFld_kept (.SSM_OTEST) ..)
    | with_reducible apply Kept.via (State.setNat_kept (.SSM_OTEST) ..) | with_reducible apply Kept.via (State.draw_kept ..)
    | with_reducible apply Kept.via (State.draw_kept_eq (by assumption))
    | with_reducible apply Kept.via (State.ssmRaise_kept ..) | with_reducible apply Kept.via (State.ssmEnd_kept ..) | exact rfl

theorem State.loadRegs_kept (s : State) (im : Image) : Kept [.regs, .eng, .mdl] s (State.loadRegs s im) := by
  unfold State.loadRegs
  try dsimp only
  repeat' first
    | with_reducible exact .refl _ _ | with_reducible assumption | with_reducible apply Kept.via (State.loadPost_kept ..)
    | with_reducible apply Kept.via (State.loadEngine_kept ..) | with_reducible apply Kept.via (State.loadMod_kept ..)
    | with_reducible apply Kept.via (State.loadLeg_kept ..) | with_reducible apply Kept.via (State.loadDrivers_kept ..)
    | with_reducible apply Kept.via (State.loadSense_kept ..) | with_reducible apply Kept.via (State.loadChg_kept ..)
    | with_reducible apply Kept.via (State.loadReg_kept ..) | with_reducible apply Kept.via (State.loadActs_kept ..)
    | with_reducible apply Kept.via (State.loadPort_kept ..) | with_reducible apply Kept.via (State.loadMisc_kept ..)
    | with_reducible apply Kept.via (State.loadPins_kept ..) | with_reducible apply Kept.via (State.loadNets_kept ..)
    | with_reducible refine .each (fun _ _ => ?_) ?_ | exact rfl

theorem State.release_kept (s : State) (im : Image) (slot : Nat) (fallback : Bool) : Kept [.regs, .mem, .po, .img, .imgSlot,
    .fallback, .nvs, .eng, .mdl, .tra, .hlv, .ldg, .ssm, .rst, .recovery, .tick] s (State.release s im slot fallback) := by
  unfold State.release
  lift_lets
  repeat'
    intro x
    first
    | have hx : Kept [.regs, .mem, .po, .img, .imgSlot, .fallback, .nvs, .eng, .mdl, .tra, .hlv, .ldg, .ssm, .rst, .recovery, .tick] s x := by
        dsimp only [x]
        repeat' first
          | with_reducible exact .refl _ _ | with_reducible assumption | with_reducible refine .ite ?_ ?_
          | with_reducible apply Kept.via (State.setFld_kept (.RST_STATE) ..)
          | with_reducible apply Kept.via (State.journal_kept ..) | with_reducible apply Kept.via (State.hwMove_kept ..)
          | with_reducible apply Kept.via (State.ssmRefresh_kept ..) | with_reducible apply Kept.via (State.loadTables_kept ..)
          | with_reducible apply Kept.via (State.loadFn_kept ..) | with_reducible apply Kept.via (State.overrideTest_kept ..)
          | with_reducible apply Kept.via (State.loadRegs_kept ..) | with_reducible refine .each (fun _ _ => ?_) ?_
          | (intro p; cases p <;> first | exact .inl (List.mem_of_elem_eq_true rfl) | exact .inr rfl | exact .inr True.intro)
          | exact rfl | split | dsimp only | with_reducible refine .update rfl rfl rfl ?_ ?_
      clear_value x
    | skip
  repeat' first
    | with_reducible exact .refl _ _ | with_reducible assumption | with_reducible refine .ite ?_ ?_
    | with_reducible apply Kept.via (State.setFld_kept (.RST_STATE) ..) | with_reducible apply Kept.via (State.journal_kept ..)
    | with_reducible apply Kept.via (State.hwMove_kept ..) | with_reducible apply Kept.via (State.ssmRefresh_kept ..)
    | with_reducible apply Kept.via (State.loadTables_kept ..) | with_reducible apply Kept.via (State.loadFn_kept ..)
    | with_reducible apply Kept.via (State.overrideTest_kept ..) | with_reducible apply Kept.via (State.loadRegs_kept ..)
    | with_reducible refine .each (fun _ _ => ?_) ?_
    | (intro p; cases p <;> first | exact .inl (List.mem_of_elem_eq_true rfl) | exact .inr rfl | exact .inr True.intro)
    | exact rfl | split | dsimp only | with_reducible refine .update rfl rfl rfl ?_ ?_

theorem State.nvsRead_kept (s : State) (k : Nat) : Kept (Part.journal [.err, .memCap, .reg .MEM_EVT, .reg .MEM_LASTINFO, .reg
    .MEM_CNTs, .reg .NVS_STATE]) s (State.nvsRead s k).1 := by
  unfold State.nvsRead
  try dsimp only
  repeat' first
    | with_reducible exact .refl _ _ | with_reducible assumption | with_reducible refine .ite ?_ ?_
    | with_reducible apply Kept.via (State.readCw_kept ..)
    | with_reducible apply Kept.via (State.readCw_kept_eq (by assumption)) | exact rfl
theorem State.nvsRead_kept_eq {s : State} {k : Nat} {r_} {x_} (h : State.nvsRead s k = (r_, x_)) : Kept (Part.journal [.err,
    .memCap, .reg .MEM_EVT, .reg .MEM_LASTINFO, .reg .MEM_CNTs, .reg .NVS_STATE]) s r_ := by
  have k := State.nvsRead_kept s k
  rw [h] at k
  exact k

-- TODO State.journalScan Nat → State → Nat → Nat → State × Nat × Nat

theorem State.journalScan_kept (n : Nat) (s : State) (off seq : Nat) : Kept (Part.journal [.err, .memCap, .reg .MEM_EVT, .reg
    .MEM_LASTINFO, .reg .MEM_CNTs, .reg .NVS_STATE]) s (State.journalScan n s off seq).1 := by
  induction n generalizing s off seq with
  | zero => exact .refl _ _
  | succ n ih =>
    have a : Kept (Part.journal [.err, .memCap, .reg .MEM_EVT, .reg .MEM_LASTINFO, .reg .MEM_CNTs, .reg .NVS_STATE]) s (s.nvsRead (0x62000000 + off / 32 * 32 % 0x1000000)).1 := (State.nvsRead_kept ..).mono rfl
    unfold State.journalScan
    generalize s.nvsRead (0x62000000 + off / 32 * 32 % 0x1000000) = q at a ⊢
    obtain ⟨s1, r⟩ := q
    dsimp only at a ⊢
    split
    · exact a.trans (ih ..)
    · exact a

theorem State.journalStart_kept (s : State) : Kept (Part.journal [.err, .memCap, .reg .MEM_EVT, .reg .MEM_LASTINFO, .reg
    .MEM_CNTs, .reg .NVS_STATE]) s s.journalStart := by
  have a : Kept (Part.journal [.err, .memCap, .reg .MEM_EVT, .reg .MEM_LASTINFO, .reg .MEM_CNTs, .reg .NVS_STATE]) s (s.nvsRead
      jPtrKey).1 := (State.nvsRead_kept ..).mono rfl
  unfold State.journalStart
  generalize s.nvsRead jPtrKey = q at a ⊢
  obtain ⟨s1, r⟩ := q
  dsimp only at a ⊢
  refine .via (State.setNat_kept .NVS_JSEQ ..) rfl (.update rfl rfl rfl (fun p => ?_) (a.trans ((State.journalScan_kept ..).mono rfl)))
  cases p <;> first | exact .inl (List.mem_of_elem_eq_true rfl) | exact .inr rfl | exact .inr True.intro

theorem State.readPointers_kept (s : State) (base : Nat) : Kept (Part.journal [.err, .memCap, .reg .MEM_EVT, .reg
    .MEM_LASTINFO, .reg .MEM_CNTs, .reg .NVS_STATE]) s (State.readPointers s base) := by
  unfold State.readPointers
  try dsimp only
  repeat' first
    | with_reducible exact .refl _ _ | with_reducible apply Kept.via (State.nvsRead_kept ..)
    | with_reducible apply Kept.via (State.nvsRead_kept_eq (by assumption)) | exact rfl

theorem State.startStep_kept (s : State) : Kept (Part.journal [.mem, .err, .rst, .aon, .sec, .memCap, .reg .RST_PEND, .reg
    .RST_START, .reg .MEM_EVT, .reg .MEM_LASTINFO, .reg .MEM_CNTs, .reg .NVS_STATE]) s s.startStep := by
  have b : ∀ u : State, (∀ p, p ∈ ((Part.journal [.mem, .err, .rst, .aon, .sec, .memCap, .reg .RST_PEND, .reg .RST_START, .reg
      .MEM_EVT, .reg .MEM_LASTINFO, .reg .MEM_CNTs, .reg .NVS_STATE]) : List Part) ∨ p.same s u) →
      u.mem = s.mem.filter (fun p => keptByte p.1) → u.regs = s.regs → Kept (Part.journal [.mem, .err, .rst, .aon, .sec, .memCap, .reg .RST_PEND, .reg .RST_START, .reg .MEM_EVT, .reg .MEM_LASTINFO, .reg .MEM_CNTs, .reg .NVS_STATE]) s u :=
    fun u h hm hr => ⟨⟨h, fun a => .inr (.inr (congrArg (FMap.get regDefault · a) hr))⟩,
      fun x => by rw [hm]; exact FMap.wf_filter x, fun x => by rw [hr]; exact x⟩
  unfold State.startStep
  try dsimp only
  repeat' first
    | with_reducible exact .refl _ _ | with_reducible assumption
    | with_reducible apply Kept.via (State.clrFlag_kept (.RST_START) ..)
    | with_reducible apply Kept.via (State.setFld_kept (.RST_START) ..)
    | with_reducible apply Kept.via (State.setNat_kept (.RST_PEND) ..)
    | with_reducible apply Kept.via (State.journalStart_kept ..) | exact rfl | dsimp only
    | with_reducible refine .update rfl rfl rfl ?_ ?_
  · refine b _ (fun p => ?_) rfl rfl
    cases p <;> first | exact .inl (List.mem_of_elem_eq_true rfl) | exact .inr rfl | exact .inr True.intro

theorem State.posteRestante_kept (s : State) : Kept [.po, .cores, .rst, .reg .PHn_CFG, .reg .PHn_LIM, .reg .PHn_BASE, .reg
    .RST_STATE, .reg .RST_START, .reg .CANn_MODE, .reg .CANn_TIMING, .reg .CANn_IDS, .reg .ETHp_CFG, .reg .ETHp_MACL, .reg
    .ETHp_MACH, .reg .ETHp_GCLj] s (State.posteRestante s) := by
  unfold State.posteRestante
  try dsimp only
  repeat' first
    | with_reducible exact .refl _ _ | with_reducible assumption | with_reducible refine .ite ?_ ?_
    | with_reducible apply Kept.via (State.setFlag_kept (.RST_START) ..)
    | with_reducible apply Kept.via (State.setFld_kept (.RST_STATE) ..) | with_reducible apply Kept.via (State.hwMove_kept ..)
    | with_reducible apply Kept.via (State.updCore_kept ..) | with_reducible apply Kept.via (State.declare_kept ..)
    | with_reducible apply Kept.via (State.loadCan_kept ..) | with_reducible apply Kept.via (State.loadEth_kept ..)
    | (intro p; cases p <;> first | exact .inl (List.mem_of_elem_eq_true rfl) | exact .inr rfl | exact .inr True.intro)
    | exact rfl | split | dsimp only | with_reducible refine .update rfl rfl rfl ?_ ?_

theorem firstGood_kept {c : List Part} {check : State → Nat → State × List Finding × List Byte}
    (m : Part.sub (Part.journal []) c = true) (h : ∀ s n, Kept c s (check s n).1) (l : List Nat) :
    ∀ s, Kept c s (firstGood check s l).1 := by
  induction l with
  | nil => exact fun s => .refl _ s
  | cons a l ih =>
    intro s
    unfold firstGood
    have k := h s a
    split
    · rename_i e
      rw [e] at k
      exact k
    · rename_i e
      rw [e] at k
      exact (Kept.via (State.journalFindings_kept ..) m k).trans (ih _)
theorem firstGood_kept_eq {c : List Part} {check : State → Nat → State × List Finding × List Byte}
    (m : Part.sub (Part.journal []) c = true) (h : ∀ s n, Kept c s (check s n).1) {l : List Nat} {s r : State} {x}
    (e : firstGood check s l = (r, x)) : Kept c s r := by
  have k := firstGood_kept m h l s
  rw [e] at k
  exact k

theorem State.loadFirmware_kept (s : State) (slot : Nat) (b : List Byte) : Kept [.mem, .cores] s (State.loadFirmware s slot b)
    := by
  unfold State.loadFirmware
  try dsimp only
  repeat' first
    | with_reducible exact .refl _ _ | with_reducible assumption | with_reducible refine .ite ?_ ?_
    | with_reducible apply Kept.via (State.setBytes_kept ..) | with_reducible apply Kept.via (State.updCore_kept ..)
    | exact rfl

theorem State.startImage_kept (s : State) : Kept [.regs, .mem, .err, .po, .img, .imgSlot, .fallback, .nvs, .eng, .mdl, .tra,
    .hlv, .ldg, .ssm, .rst, .recovery, .memCap, .tick] s s.startImage := by
  unfold State.startImage
  dsimp only
  have h : ∀ u n, Kept [.regs, .mem, .err, .po, .img, .imgSlot, .fallback, .nvs, .eng, .mdl, .tra, .hlv, .ldg, .ssm, .rst,
      .recovery, .memCap, .tick] u (State.admitSlot u n).1 := fun u n => (State.admitSlot_kept u n).mono rfl
  have k : Kept [.regs, .mem, .err, .po, .img, .imgSlot, .fallback, .nvs, .eng, .mdl, .tra, .hlv, .ldg, .ssm, .rst, .recovery,
      .memCap, .tick] s ((s.setFld R.RST_STATE F.RST_STATE_PHASE 3).readPointers ptrKey) :=
    .via (State.readPointers_kept ..) rfl (.via (State.setFld_kept .RST_STATE ..) rfl (.refl _ s))
  generalize (s.setFld R.RST_STATE F.RST_STATE_PHASE 3).readPointers ptrKey = w at k ⊢
  split
  · rename_i e
    exact k.trans (firstGood_kept_eq rfl h e)
  · rename_i e
    refine .via (State.release_kept ..) rfl (.ite (.via (State.journalFree_kept ..) rfl ?_) ?_)
    all_goals exact k.trans (firstGood_kept_eq rfl h e)

theorem execStartSequence_kept (s : State) : KeptOut [.regs, .mem, .err, .po, .img, .imgSlot, .fallback, .nvs, .eng, .mdl,
    .tra, .hlv, .ldg, .cores, .lsc, .ssm, .rst, .aon, .sec, .recovery, .memCap, .tick] s (execStartSequence s) := by
  unfold execStartSequence
  refine .next (.ite (.refl _ _) ?_)
  dsimp only
  have h : ∀ u n, Kept [.regs, .mem, .err, .po, .img, .imgSlot, .fallback, .nvs, .eng, .mdl, .tra, .hlv, .ldg, .cores, .lsc,
      .ssm, .rst, .aon, .sec, .recovery, .memCap, .tick] u (State.checkFw u n).1 := fun u n => (State.checkFw_kept u n).mono rfl
  have a : Kept [.regs, .mem, .err, .po, .img, .imgSlot, .fallback, .nvs, .eng, .mdl, .tra, .hlv, .ldg, .cores, .lsc, .ssm,
      .rst, .aon, .sec, .recovery, .memCap, .tick] s (s.startStep.pairLeave 0) := .via (State.pairLeave_kept ..) rfl
      ((State.startStep_kept s).mono rfl)
  generalize s.startStep.pairLeave 0 = t at a ⊢
  refine .ite (.via (State.posteRestante_kept ..) rfl a) ?_
  have b : Kept [.regs, .mem, .err, .po, .img, .imgSlot, .fallback, .nvs, .eng, .mdl, .tra, .hlv, .ldg, .cores, .lsc, .ssm,
      .rst, .aon, .sec, .recovery, .memCap, .tick] s ((t.setFld R.RST_STATE F.RST_STATE_PHASE 2).readPointers fwPtrKey) :=
    .via (State.readPointers_kept ..) rfl (.via (State.setFld_kept .RST_STATE ..) rfl a)
  generalize (t.setFld R.RST_STATE F.RST_STATE_PHASE 2).readPointers fwPtrKey = w at b ⊢
  split
  · rename_i e
    exact .via (State.posteRestante_kept ..) rfl (.via (State.setFlag_kept .RST_START ..) rfl (b.trans (firstGood_kept_eq rfl h e)))
  · rename_i e
    refine .via (State.startImage_kept ..) rfl (.via (State.loadFirmware_kept ..) rfl (.each (fun u n => ?_) ?_))
    · exact (State.pairLeave_kept u n).mono rfl
    · exact b.trans (firstGood_kept_eq rfl h e)

end Sys2Proof.Machine
end

