-- ==== Sys2Proof/Laws/KeptBus.lean ====
section
/-!
SUPPORT. The frame of each operation of Sys2Proof/Machine/Bus.lean: the parts of the state that it can change.
-/
namespace Sys2Proof.Machine
set_option Elab.async false

theorem afterOut_kept {c : List Part} {s : State} {o : Out} (h : KeptOut c s o) : Kept c s (afterOut s o) := by
  obtain ⟨t, rfl, k⟩ := h
  exact k

theorem State.liveView_kept (s : State) (a : Nat) : Kept [.regs, .tick] s (s.liveView a) := by
  have f : ∀ u f v, Kept [.regs, .tick] u (State.setFld u a f v) := fun u f v => (State.setReg_any u a _).mono rfl
  have n : ∀ u v, Kept [.regs, .tick] u (State.setNat u a v) := fun u v => (State.setReg_any u a _).mono rfl
  have g : ∀ u f v, Kept [.regs, .tick] u (State.setSfld u a f v) := fun u f v => (State.setReg_any u a _).mono rfl
  have e : ∀ u : State, Kept [.regs, .tick] u (u.setFld R.ACT_STAT F.ACT_STAT_EN (b2n s.actEn)) := fun u => (State.setReg_any u
      _ _).mono rfl
  unfold State.liveView
  split
  · exact .refl _ _
  · dsimp only
    refine .ite (.refl _ _) <| .ite ((f ..).trans (f ..)) <| .ite (n ..) <|
      .ite (.trans (.via (State.syncActLatch_kept s) rfl (.refl _ _)) (e _)) <| .ite (n ..) <| .ite (n ..) <|
      .ite ((g ..).trans (g ..)) <| .ite (n ..) <| .ite (n ..) <| .ite (n ..) <| .ite (n ..) <| .ite ?_ (.refl _ _)
    exact .trans (.via (State.draw_kept s) rfl (.refl _ _)) (n ..)

theorem State.convertWrite_kept (s : State) (n a : Nat) (v : Word) : Kept [.po, .resp, .reg .SYS_WERR_CODE] s
    (State.convertWrite s n a v) := by
  unfold State.convertWrite
  try dsimp only
  repeat' first
    | with_reducible exact .refl _ _ | with_reducible assumption | with_reducible refine .ite ?_ ?_
    | with_reducible apply Kept.via (State.respond_kept ..) | with_reducible apply Kept.via (State.refuse_kept ..)
    | (intro p; cases p <;> first | exact .inl (List.mem_of_elem_eq_true rfl) | exact .inr rfl | exact .inr True.intro)
    | exact rfl | split | dsimp only | with_reducible refine .update rfl rfl rfl ?_ ?_

theorem State.afterWrite_kept (s : State) (r : RegAt) (a : Nat) : Kept [.po, .cores, .reg .PHn_STAT] s (State.afterWrite s r a)
    := by
  unfold State.afterWrite
  try dsimp only
  repeat' first
    | with_reducible exact .refl _ _ | with_reducible assumption | with_reducible refine .ite ?_ ?_
    | with_reducible apply Kept.via (State.signalAll_kept ..) | with_reducible apply Kept.via (State.evcRefresh_kept ..)
    | exact rfl

theorem State.directWrite_kept (s : State) (a : Nat) (v : Word) : Kept [.regs, .po, .cores, .resp, .tick] s (s.directWrite a v)
    := by
  unfold State.directWrite
  split
  · exact State.tryWrite_kept rfl (fun _ => .refl _ _) (.refl _ _)
  · split
    · exact .via (State.refuse_kept ..) rfl (.refl _ _)
    · exact .via (State.respond_kept ..) rfl (.via (State.afterWrite_kept ..) rfl (.via (State.plainWrite_any ..) rfl (.refl _ _)))

theorem keyWrite_kept (who : Requester) (v : Word) (s : State) : KeptOut [.po, .cores, .lsc, .ssm, .sec, .dbg, .linkTries,
    .resp, .reg .SYS_WERR_CODE, .reg .LSC_STAT, .reg .SSM_WDSTATn, .reg .DBG_REPLAYn, .reg .DBG_HALTSt] s (keyWrite who v s) :=
    by
  unfold keyWrite
  repeat' first
    | with_reducible apply KeptOut.next | with_reducible apply KeptOut.ite | with_reducible exact .refl _ _
    | with_reducible assumption | with_reducible refine .ite ?_ ?_ | with_reducible apply Kept.via (State.refuse_kept ..)
    | with_reducible apply State.accessBy_kept | with_reducible apply KeptOut.after (execFuseImageKey_kept ..)
    | with_reducible apply KeptOut.after (execSetFrankingKey_kept ..)
    | with_reducible apply KeptOut.after (execFuseDebugKey_kept ..)
    | with_reducible apply KeptOut.after (execRevokeImageKey_kept ..) | exact rfl | split | dsimp only

theorem State.windowWrite_kept (s : State) (who : Requester) (n j : Nat) (v : Word) : Kept [.po, .resp, .reg .SYS_WERR_CODE] s
    (State.windowWrite s who n j v) := by
  unfold State.windowWrite
  try dsimp only
  repeat' first
    | with_reducible exact .refl _ _ | with_reducible assumption | with_reducible refine .ite ?_ ?_
    | with_reducible apply Kept.via (State.respond_kept ..) | with_reducible apply Kept.via (State.refuse_kept ..)
    | with_reducible apply Kept.via (State.setWindow_kept ..) | exact rfl

theorem rowWrite_kept {who : Requester} {r : RegAt} {a : Nat} {v : Word} {s : State} {o : Out} (h : rowWrite who r a v s = some
    o) :
    KeptOut (Part.allBut [.variant, .split, .bootSplit, .up, .gf, .driveEn, .actEn, .recovery, .tick, .pending]) s o := by
  have w : ∀ n v, KeptOut (Part.allBut [.variant, .split, .bootSplit, .up, .gf, .driveEn, .actEn, .recovery, .tick, .pending])
      s (.next (s.accessBy who a true (s.windowWrite who n (r.idx.getD 1 0) v))) := fun n v =>
    .next (State.accessBy_kept rfl (.refl _ _) (.via (State.windowWrite_kept ..) rfl (.refl _ _)))
  have c : ∀ n v, KeptOut (Part.allBut [.variant, .split, .bootSplit, .up, .gf, .driveEn, .actEn, .recovery, .tick, .pending])
      s (.next (s.accessBy who a true (s.nvsCommand who n v))) := fun n v =>
    .next (State.accessBy_kept rfl (.refl _ _) (.via (State.nvsCommand_kept ..) rfl (.refl _ _)))
  unfold rowWrite at h
  dsimp only at h
  revert h
  exact some_ite (.leaf (execLetterPost_kept ..) rfl) <| some_ite (.leaf (w ..) rfl) <|
    some_ite (.leaf (execReceiptConsume_kept ..) rfl) <| some_ite (.leaf (execSleepAnnounce_kept ..) rfl) <|
    some_ite (.leaf (execEventComplete_kept ..) rfl) <| some_ite (.leaf (execDoorbellSet_kept ..) rfl) <|
    some_ite (.leaf (execEventSourceWrite_kept ..) rfl) <| some_ite (.leaf (execRstPvecWrite_kept ..) rfl) <|
    some_ite (.leaf (execWatchdogService_kept ..) rfl) <| some_ite (.leaf (execFaultNAcknowledge_kept ..) rfl) <|
    some_ite (.leaf (execFcvCorrWrite_kept ..) rfl) <| some_ite (.leaf (execRndCorrWrite_kept ..) rfl) <|
    some_ite (.leaf (execRndUrgWrite_kept ..) rfl) <| some_ite (.leaf (execPosOfsWrite_kept ..) rfl) <|
    some_ite (.leaf (execErrorInjection_kept ..) rfl) <| some_ite (.leaf (execErrorCountClear_kept ..) rfl) <|
    some_ite (.leaf (c ..) rfl) <| some_ite (.leaf (execJournalPost_kept ..) rfl) <|
    some_ite (.leaf (keyWrite_kept ..) rfl) <| some_ite (.leaf (execDebugResponseWrite_kept ..) rfl) <|
    some_ite (.leaf (execCanModeWrite_kept ..) rfl) <| some_ite (.leaf (execMdioTransaction_kept ..) rfl) <|
    some_ite (.leaf (execPinOutWrite_kept ..) rfl) <| nofun

theorem State.busWrite_kept (s : State) (who : Requester) (a : Nat) (v : Word) : Kept (Part.allBut [.variant, .split,
    .bootSplit, .up, .gf, .driveEn, .actEn, .recovery, .pending]) s (s.busWrite who a v) := by
  have k : Kept (Part.allBut [.variant, .split, .bootSplit, .up, .gf, .driveEn, .actEn, .recovery, .pending]) s (s.directWrite
      a v) := (State.directWrite_kept ..).mono rfl
  unfold State.busWrite
  split
  · exact State.accessBy_kept rfl (.refl _ _) k
  · split
    · exact State.accessBy_kept rfl (.refl _ _) ((State.convertWrite_kept ..).mono rfl)
    · split
      · rename_i h
        exact afterOut_kept ((rowWrite_kept h).mono rfl)
      · exact State.accessBy_kept rfl (.refl _ _) k

theorem execRegisterWrite_kept (who : Requester) (addr : Nat) (value : Word) (s : State) : KeptOut (Part.allBut [.variant,
    .split, .bootSplit, .up, .gf, .driveEn, .actEn, .recovery, .pending]) s (execRegisterWrite who addr value s) := by
  unfold execRegisterWrite
  repeat' first
    | with_reducible apply KeptOut.next | with_reducible exact .refl _ _ | with_reducible assumption
    | with_reducible apply Kept.via (State.busWrite_kept ..) | exact rfl

theorem State.causeRead_kept (s : State) (a : Nat) : Kept [.regs, .po, .resp] s (s.causeRead a) := by
  unfold State.causeRead
  split
  · exact .via (State.plainRead_kept ..) rfl (.refl _ _)
  · refine .ite (.via (State.plainRead_kept ..) rfl (.refl _ _)) ?_
    exact .via (State.respond_kept ..) rfl (.via (State.setReg_any ..) rfl (.refl _ _))

theorem execFaultCauseRead_kept (who : Requester) (addr : Nat) (s : State) : KeptOut [.regs, .po, .cores, .lsc, .ssm, .dbg,
    .linkTries, .resp] s (execFaultCauseRead who addr s) := by
  unfold execFaultCauseRead
  repeat' first
    | with_reducible apply KeptOut.next | with_reducible exact .refl _ _ | with_reducible assumption
    | with_reducible apply State.accessBy_kept | with_reducible apply Kept.via (State.causeRead_kept ..) | exact rfl

theorem rowRead_kept {who : Requester} {r : RegAt} {a : Nat} {s : State} {o : Out} (h : rowRead who r a s = some o) :
    KeptOut [.regs, .po, .rnd, .ldg, .cores, .lsc, .ssm, .evc, .sec, .dbg, .linkTries, .resp, .tick] s o := by
  have d : ∀ b, KeptOut [.regs, .po, .rnd, .ldg, .cores, .lsc, .ssm, .evc, .sec, .dbg, .linkTries, .resp, .tick] s
      (execRandomWordRead who b s.draw.2) := fun b =>
    .after (execRandomWordRead_kept ..) rfl (.via (State.draw_kept s) rfl (.refl _ _))
  unfold rowRead at h
  dsimp only at h
  revert h
  exact some_ite (.leaf (execSysWerrCodeRead_kept ..) rfl) <| some_ite (.leaf (execPstMerrCodeRead_kept ..) rfl) <|
    some_ite (.leaf (execLostCountRead_kept ..) rfl) <| some_ite (.leaf (execLostCountRead_kept ..) rfl) <|
    some_ite (.leaf (execMemLastinfoRead_kept ..) rfl) <| some_ite (.leaf (execLdgNetRead_kept ..) rfl) <|
    some_ite (.leaf (execKeepaliveBalanceRead_kept ..) rfl) <| some_ite (.leaf (execWithdrawalQueueRead_kept ..) rfl) <|
    some_ite (.leaf (execEventClaim_kept ..) rfl) <| some_ite (.leaf (execRoundQueueRead_kept ..) rfl) <|
    some_ite (.leaf (execUrgentResultRead_kept ..) rfl) <| some_ite (.leaf (execDebugChallengeRead_kept ..) rfl) <|
    some_ite (.leaf (d ..) rfl) <| some_ite (.leaf (execFaultCauseRead_kept ..) rfl) <| nofun

theorem State.busRead_kept (s : State) (who : Requester) (a : Nat) : Kept [.regs, .po, .rnd, .ldg, .cores, .lsc, .ssm, .evc,
    .sec, .dbg, .linkTries, .resp, .tick] s (s.busRead who a) := by
  unfold State.busRead
  split
  · exact State.accessBy_kept rfl (.refl _ _) (.via (State.plainRead_kept ..) rfl (.refl _ _))
  · split
    · rename_i h
      exact afterOut_kept ((rowRead_kept h).mono rfl)
    · exact State.accessBy_kept rfl (.refl _ _) (.via (State.plainRead_kept ..) rfl (.via (State.liveView_kept ..) rfl (.refl _ _)))

theorem State.quiet_kept {c : List Part} {s t u : State} (m : Part.sub [Part.cores, .resp] c = true) (h : Kept c s u) :
    Kept c s (t.quiet u) := by
  unfold State.quiet
  with_reducible refine .update rfl rfl rfl ?_ h
  intro p
  cases p <;> first | exact .inl (Part.mem_of_sub m (List.mem_of_elem_eq_true rfl) nofun) | exact .inr rfl | exact .inr True.intro

theorem State.writeEffect_kept (s : State) (m : Msg) : Kept (Part.allBut [.variant, .split, .bootSplit, .up, .gf, .driveEn,
    .actEn, .recovery, .pending]) s (s.writeEffect m) := by
  unfold State.writeEffect
  dsimp only
  split
  · exact .via (State.plainWrite_any ..) rfl (.refl _ _)
  · exact State.quiet_kept rfl (.via (State.busWrite_kept ..) rfl (.refl _ _))

theorem specWrite_kept  (s : State) (m : Msg) (k : Nat) : Kept (Part.allBut [.variant, .split, .bootSplit, .up, .gf, .driveEn,
    .actEn, .recovery, .pending]) s (specWrite.run s m k).1 := by
  unfold specWrite
  try dsimp only
  repeat' first
    | with_reducible exact .refl _ _ | with_reducible assumption | with_reducible apply Kept.via (doneWith_kept ..)
    | with_reducible apply Kept.via (doneWith_kept_eq (by assumption))
    | with_reducible apply Kept.via (State.writeEffect_kept ..) | exact rfl

theorem specRead_kept  (s : State) (m : Msg) (k : Nat) : Kept [.regs, .po, .rnd, .ldg, .cores, .lsc, .ssm, .evc, .sec, .dbg,
    .linkTries, .resp, .tick] s (specRead.run s m k).1 := by
  unfold specRead
  try dsimp only
  repeat' first
    | with_reducible exact .refl _ _ | with_reducible assumption | with_reducible refine .ite ?_ ?_
    | with_reducible apply Kept.via (State.busRead_kept ..) | with_reducible apply State.quiet_kept | exact rfl

theorem execWrite_kept (m : Msg) (s : State) : KeptOut (Part.allBut [.variant, .split, .bootSplit, .up, .gf, .driveEn, .actEn,
    .recovery, .pending]) s (execWrite m s) := by
  unfold execWrite
  repeat' first
    | with_reducible apply KeptOut.next | with_reducible exact .refl _ _
    | with_reducible apply deliver_kept rfl (fun s m k => (specWrite_kept s m k).mono rfl) _ _

theorem execRead_kept (m : Msg) (s : State) : KeptOut [.regs, .err, .po, .nvs, .rnd, .ldg, .cores, .lsc, .ssm, .evc, .sec,
    .dbg, .linkTries, .resp, .tick] s (execRead m s) := by
  unfold execRead
  repeat' first
    | with_reducible apply KeptOut.next | with_reducible exact .refl _ _
    | with_reducible apply deliver_kept rfl (fun s m k => (specRead_kept s m k).mono rfl) _ _

theorem State.misaligned_kept (s : State) (who : Requester) (a : MemOp) : Kept [.cores, .dbg, .resp] s (State.misaligned s who
    a) := by
  unfold State.misaligned
  try dsimp only
  repeat' first
    | with_reducible exact .refl _ _ | with_reducible assumption | with_reducible apply Kept.via (State.raiseExc_kept ..)
    | (intro p; cases p <;> first | exact .inl (List.mem_of_elem_eq_true rfl) | exact .inr rfl | exact .inr True.intro)
    | exact rfl | split | dsimp only | with_reducible refine .update rfl rfl rfl ?_ ?_

-- TODO State.fenceI Requester → State

theorem State.busAccess_kept (s : State) (who : Requester) (a : MemOp) : Kept (Part.allBut [.variant, .split, .bootSplit, .up,
    .gf, .driveEn, .actEn, .recovery, .pending]) s (s.busAccess who a) := by
  have f : ∀ w, Kept (Part.allBut [.variant, .split, .bootSplit, .up, .gf, .driveEn, .actEn, .recovery, .pending]) s (s.fenceI
      w) := by
    intro w
    unfold State.fenceI
    split
    · split
      · exact .via (State.updCore_kept ..) rfl (.refl _ _)
      · exact .refl _ _
    · exact .refl _ _
  have m : Kept (Part.allBut [.variant, .split, .bootSplit, .up, .gf, .driveEn, .actEn, .recovery, .pending]) s (s.memAccess
      who a) := (State.memAccess_kept ..).mono rfl
  have r : ∀ st b, Kept (Part.allBut [.variant, .split, .bootSplit, .up, .gf, .driveEn, .actEn, .recovery, .pending]) s
      (s.accessFail who a st b) := fun st b => (State.accessFail_kept ..).mono rfl
  unfold State.busAccess
  split
  · exact f _
  · exact (State.barred_kept (by assumption)).mono rfl
  · refine .ite ((State.misaligned_kept ..).mono rfl) (.ite (.ite (r ..) (.ite (r ..)
      (.ite ((State.busWrite_kept ..).mono rfl) ((State.busRead_kept ..).mono rfl)))) ?_)
    split
    · refine .ite ?_ ?_
      · have q : Kept (Part.allBut [.variant, .split, .bootSplit, .up, .gf, .driveEn, .actEn, .recovery, .pending]) s (s.refuse .eLocked a.addr) := (State.refuse_kept ..).mono rfl
        dsimp only
        generalize s.refuse .eLocked a.addr = x at q ⊢
        exact .via (Part.dbg_kept x _) rfl q
      · dsimp only
        exact .via (Part.dbg_kept ..) rfl m
    · exact m

theorem execMemoryAccess_kept (who : Requester) (a : MemOp) (s : State) : KeptOut (Part.allBut [.variant, .split, .bootSplit,
    .up, .gf, .driveEn, .actEn, .recovery, .pending]) s (execMemoryAccess who a s) := by
  unfold execMemoryAccess
  repeat' first
    | with_reducible apply KeptOut.next | with_reducible exact .refl _ _ | with_reducible assumption
    | with_reducible apply Kept.via (State.busAccess_kept ..) | exact rfl

theorem execDebugSystemBusAccess_kept (hart : Nat) (a : MemOp) (s : State) : KeptOut (Part.allBut [.variant, .split,
    .bootSplit, .up, .gf, .driveEn, .actEn, .recovery, .pending]) s (execDebugSystemBusAccess hart a s) := by
  unfold execDebugSystemBusAccess
  repeat' first
    | with_reducible apply KeptOut.next | with_reducible exact .refl _ _ | with_reducible assumption
    | with_reducible apply Kept.via (State.selectHart_kept ..) | with_reducible apply Kept.via (State.busAccess_kept ..)
    | exact rfl

theorem State.dropCheck_kept (s : State) (firmware : Bool) (key : Nat) : Kept [.po, .icheck, .fcheck] s (State.dropCheck s
    firmware key) := by
  unfold State.dropCheck
  lift_lets
  repeat'
    intro x
    first
    | have hx : Kept [.po, .icheck, .fcheck] s x := by
        dsimp only [x]
        repeat' first
          | with_reducible exact .refl _ _ | with_reducible assumption | with_reducible refine .ite ?_ ?_
          | with_reducible apply Kept.via (State.hwFinish_kept ..)
          | (intro p; cases p <;> first | exact .inl (List.mem_of_elem_eq_true rfl) | exact .inr rfl | exact .inr True.intro)
          | exact rfl | split | dsimp only | with_reducible refine .update rfl rfl rfl ?_ ?_
      clear_value x
    | skip
  repeat' first
    | with_reducible exact .refl _ _ | with_reducible assumption | with_reducible refine .ite ?_ ?_
    | with_reducible apply Kept.via (State.hwFinish_kept ..)
    | (intro p; cases p <;> first | exact .inl (List.mem_of_elem_eq_true rfl) | exact .inr rfl | exact .inr True.intro)
    | exact rfl | split | dsimp only | with_reducible refine .update rfl rfl rfl ?_ ?_

theorem State.dropUrgent_kept (s : State) (r key : Nat) : Kept [.po, .rnd, .reg .RNDr_STATE, .reg .RNDr_RQSTAT, .reg
    .RNDr_RQLO, .reg .RNDr_RQHI] s (State.dropUrgent s r key) := by
  unfold State.dropUrgent
  try dsimp only
  repeat' first
    | with_reducible exact .refl _ _ | with_reducible assumption | with_reducible refine .ite ?_ ?_
    | with_reducible apply Kept.via (State.hwFinish_kept ..) | with_reducible apply Kept.via (State.updRd_kept ..)
    | with_reducible apply Kept.via (State.syncRnd_kept ..) | exact rfl

theorem State.haltAborted_kept (s : State) (r key : Nat) : Kept [.units, .po, .rnd] s (State.haltAborted s r key) := by
  unfold State.haltAborted
  try dsimp only
  repeat' first
    | with_reducible exact .refl _ _ | with_reducible assumption | with_reducible refine .ite ?_ ?_
    | with_reducible apply Kept.via (State.setUst_kept ..) | with_reducible apply Kept.via (State.hwFinish_kept ..)
    | with_reducible apply Kept.via (State.updRd_kept ..) | with_reducible apply Kept.via (State.startWatch_kept ..)
    | exact rfl

theorem State.stopOp_kept (s : State) (key : Nat) (e : OpEntry) : Kept [.units, .po, .icheck, .fcheck, .eng, .mdl, .rnd, .tra,
    .chg, .hlv, .rgl, .act, .gbx, .ldg, .reg .RNDr_STATE, .reg .RNDr_RQSTAT, .reg .RNDr_RQLO, .reg .RNDr_RQHI, .reg .CHG_STATE,
    .reg .CHG_ILIM, .reg .CHG_EVT, .reg .REG_STATE, .reg .REG_TARGET, .reg .REG_SHED, .reg .REG_PHn, .reg .ACk_STATE, .reg
    .GBX_STATE, .reg .GBX_EVT] s (State.stopOp s key e) := by
  unfold State.stopOp
  try dsimp only
  repeat' first
    | with_reducible exact .refl _ _ | with_reducible assumption | with_reducible refine .ite ?_ ?_
    | with_reducible apply Kept.via (State.setUst_kept ..) | with_reducible apply Kept.via (State.hwFinish_kept ..)
    | with_reducible apply Kept.via (State.updTr_kept ..) | with_reducible apply Kept.via (State.chgEnd_kept ..)
    | with_reducible apply Kept.via (State.fnEnter_kept ..) | with_reducible apply Kept.via (State.hlvStart_kept ..)
    | with_reducible apply Kept.via (State.hlvStop_kept ..) | with_reducible apply Kept.via (State.regRun_kept ..)
    | with_reducible apply Kept.via (State.regStop_kept ..) | with_reducible apply Kept.via (State.acStop_kept ..)
    | with_reducible apply Kept.via (State.gbxAbort_kept ..) | with_reducible apply Kept.via (State.dropCheck_kept ..)
    | with_reducible apply Kept.via (State.dropUrgent_kept ..) | with_reducible apply Kept.via (State.haltAborted_kept ..)
    | exact rfl | split

theorem State.stopEntry_kept (s : State) (key : Nat) (e : OpEntry) (why : StopKind) : Kept [.units, .po, .icheck, .fcheck,
    .eng, .mdl, .rnd, .tra, .chg, .hlv, .rgl, .act, .gbx, .ldg, .reg .RNDr_STATE, .reg .RNDr_RQSTAT, .reg .RNDr_RQLO, .reg
    .RNDr_RQHI, .reg .CHG_STATE, .reg .CHG_ILIM, .reg .CHG_EVT, .reg .REG_STATE, .reg .REG_TARGET, .reg .REG_SHED, .reg
    .REG_PHn, .reg .ACk_STATE, .reg .GBX_STATE, .reg .GBX_EVT] s (State.stopEntry s key e why) := by
  unfold State.stopEntry
  try dsimp only
  repeat' first
    | with_reducible exact .refl _ _ | with_reducible assumption | with_reducible refine .ite ?_ ?_
    | with_reducible apply Kept.via (State.markStop_kept ..) | with_reducible apply Kept.via (State.stopOp_kept ..) | exact rfl

theorem specAbort_kept  (s : State) (m : Msg) (k : Nat) : Kept [.units, .po, .icheck, .fcheck, .eng, .mdl, .rnd, .tra, .chg,
    .hlv, .rgl, .act, .gbx, .ldg, .reg .RNDr_STATE, .reg .RNDr_RQSTAT, .reg .RNDr_RQLO, .reg .RNDr_RQHI, .reg .CHG_STATE, .reg
    .CHG_ILIM, .reg .CHG_EVT, .reg .REG_STATE, .reg .REG_TARGET, .reg .REG_SHED, .reg .REG_PHn, .reg .ACk_STATE, .reg
    .GBX_STATE, .reg .GBX_EVT] s (specAbort.run s m k).1 := by
  unfold specAbort
  try dsimp only
  repeat' first
    | with_reducible exact .refl _ _ | with_reducible assumption | with_reducible apply Kept.via (State.setSlot_kept ..)
    | with_reducible apply Kept.via (doneWith_kept ..) | with_reducible apply Kept.via (doneWith_kept_eq (by assumption))
    | with_reducible apply Kept.via (State.stopEntry_kept ..) | exact rfl | split

theorem execAbort_kept (m : Msg) (s : State) : KeptOut (Part.receipt [.units, .icheck, .fcheck, .eng, .mdl, .rnd, .tra, .chg,
    .hlv, .rgl, .act, .gbx, .ldg, .reg .PST_OUTST, .reg .PST_MERR_CODE, .reg .RNDr_STATE, .reg .RNDr_RQSTAT, .reg .RNDr_RQLO,
    .reg .RNDr_RQHI, .reg .CHG_STATE, .reg .CHG_ILIM, .reg .CHG_EVT, .reg .REG_STATE, .reg .REG_TARGET, .reg .REG_SHED, .reg
    .REG_PHn, .reg .ACk_STATE, .reg .GBX_STATE, .reg .GBX_EVT]) s (execAbort m s) := by
  unfold execAbort
  repeat' first
    | with_reducible apply KeptOut.next | with_reducible exact .refl _ _
    | with_reducible apply deliver_kept rfl (fun s m k => (specAbort_kept s m k).mono rfl) _ _

theorem execOperationDeadlinePassed_kept (key : Nat) (s : State) : KeptOut [.units, .po, .icheck, .fcheck, .eng, .mdl, .rnd,
    .tra, .chg, .hlv, .rgl, .act, .gbx, .ldg, .reg .RNDr_STATE, .reg .RNDr_RQSTAT, .reg .RNDr_RQLO, .reg .RNDr_RQHI, .reg
    .CHG_STATE, .reg .CHG_ILIM, .reg .CHG_EVT, .reg .REG_STATE, .reg .REG_TARGET, .reg .REG_SHED, .reg .REG_PHn, .reg
    .ACk_STATE, .reg .GBX_STATE, .reg .GBX_EVT] s (execOperationDeadlinePassed key s) := by
  unfold execOperationDeadlinePassed
  repeat' first
    | with_reducible apply KeptOut.next | with_reducible apply KeptOut.ite | with_reducible exact .refl _ _
    | with_reducible assumption | with_reducible refine .ite ?_ ?_ | with_reducible apply Kept.via (State.stopEntry_kept ..)
    | exact rfl | split

end Sys2Proof.Machine
end

