-- ==== Sys2Proof/Laws/KeptCollection.lean ====
section
/-!
SUPPORT. The frame of each operation of Sys2Proof/Machine/Collection.lean: the parts of the state that it can change.
-/
namespace Sys2Proof.Machine
set_option Elab.async false

theorem State.latchCollection_kept (s : State) : Kept [.po] s (State.latchCollection s) := by
  unfold State.latchCollection
  try dsimp only
  repeat' first
    | with_reducible exact .refl _ _ | with_reducible assumption
    | (intro p; cases p <;> first | exact .inl (List.mem_of_elem_eq_true rfl) | exact .inr rfl | exact .inr True.intro)
    | dsimp only | with_reducible refine .update rfl rfl rfl ?_ ?_

end Sys2Proof.Machine
end

