-- ==== Sys2Proof/Laws/KeptBoundary.lean ====
section
/-!
SUPPORT. The frame of each operation of Sys2Proof/Machine/Boundary.lean: the parts of the state that it can change.
-/
namespace Sys2Proof.Machine
set_option Elab.async false

theorem State.journalLatches_kept (s : State) : Kept (Part.journal [.mdl, .reg .MOD_STAT]) s (State.journalLatches s) := by
  unfold State.journalLatches
  try dsimp only
  repeat' first
    | with_reducible exact .refl _ _ | with_reducible assumption | with_reducible refine .ite ?_ ?_
    | with_reducible apply Kept.via (State.incSat_kept (.MOD_STAT) ..) | with_reducible apply Kept.via (State.journal_kept ..)
    | with_reducible refine .each (fun _ _ => ?_) ?_
    | (intro p; cases p <;> first | exact .inl (List.mem_of_elem_eq_true rfl) | exact .inr rfl | exact .inr True.intro)
    | exact rfl | split | dsimp only | with_reducible refine .update rfl rfl rfl ?_ ?_

theorem State.ssmFaults_kept (s : State) : Kept [.po, .eng, .mdl, .tra, .chg, .rgl, .act, .gbx, .ldg, .ssm, .tick, .reg
    .FEn_EVT, .reg .FEn_WDCNT, .reg .CHG_ILIM, .reg .CHG_FLT, .reg .CHG_EVT, .reg .REG_EVT, .reg .REG_FLT, .reg .ACk_STATE,
    .reg .ACk_EVT, .reg .ACk_FLT, .reg .GBX_EVT, .reg .GBX_FLT, .reg .LDG_EVT, .reg .LDG_WQSTAT, .reg .LDG_PNf] s
    (State.ssmFaults s) := by
  unfold State.ssmFaults
  try dsimp only
  repeat' first
    | with_reducible exact .refl _ _ | with_reducible assumption | with_reducible refine .ite ?_ ?_
    | with_reducible apply Kept.via (State.sendFrame_kept ..) | with_reducible apply Kept.via (State.chgFail_kept ..)
    | with_reducible apply Kept.via (State.fnRecord_kept ..) | with_reducible apply Kept.via (State.regFail_kept ..)
    | with_reducible apply Kept.via (State.gbxFail_kept ..) | with_reducible apply Kept.via (State.actFail_kept ..)
    | with_reducible refine .each (fun _ _ => ?_) ?_ | exact rfl

theorem State.crowbarFault_kept (s : State) : Kept [.po, .rgl, .ssm, .reg .REG_EVT, .reg .REG_FLT] s (State.crowbarFault s) :=
    by
  unfold State.crowbarFault
  try dsimp only
  repeat' first
    | with_reducible exact .refl _ _ | with_reducible assumption | with_reducible refine .ite ?_ ?_
    | with_reducible apply Kept.via (State.hwFault_kept ..) | with_reducible apply Kept.via (State.regCause_kept ..)
    | exact rfl

theorem State.enter_kept (s : State) (u : Nat) (st : UState) : Kept [.units, .eng, .mdl, .tra, .ldg] s (State.enter s u st) :=
    by
  unfold State.enter
  try dsimp only
  repeat' first
    | with_reducible exact .refl _ _ | with_reducible assumption | with_reducible refine .ite ?_ ?_
    | with_reducible apply Kept.via (State.setUst_kept ..) | with_reducible apply Kept.via (State.updTr_kept ..)
    | with_reducible apply Kept.via (State.engineEnter_kept ..) | with_reducible apply Kept.via (State.fnEnter_kept ..)
    | exact rfl

theorem State.faultUnit_kept (s : State) (u : Nat) : Kept (Part.receipt [.units, .eng, .mdl, .tra, .rgl, .ldg, .reg .PST_OUTST,
    .reg .CHG_STATE, .reg .CHG_EVT, .reg .REG_STATE, .reg .GBX_STATE]) s (State.faultUnit s u) := by
  unfold State.faultUnit
  try dsimp only
  repeat' first
    | with_reducible exact .refl _ _ | with_reducible assumption | with_reducible refine .ite ?_ ?_
    | with_reducible apply Kept.via (State.setFld_kept (.GBX_STATE) ..) | with_reducible apply Kept.via (State.setUst_kept ..)
    | with_reducible apply Kept.via (finalReceipt_kept ..) | with_reducible apply Kept.via (endOpsOf_kept ..)
    | with_reducible apply Kept.via (State.chgSetPhase_kept ..) | with_reducible apply Kept.via (State.regEnterFault_kept ..)
    | with_reducible apply Kept.via (State.enter_kept ..) | exact rfl | split

theorem State.journalFn_kept (s : State) (u : Nat) : Kept (Part.journal []) s (State.journalFn s u) := by
  unfold State.journalFn
  try dsimp only
  repeat' first
    | with_reducible exact .refl _ _ | with_reducible assumption | with_reducible refine .ite ?_ ?_
    | with_reducible apply Kept.via (State.journalFault_kept ..) | exact rfl

theorem State.journalCauses_kept (s : State) : Kept (Part.journal []) s (State.journalCauses s) := by
  unfold State.journalCauses
  try dsimp only
  repeat' first
    | with_reducible exact .refl _ _ | with_reducible assumption | with_reducible apply Kept.via (State.journalFault_kept ..)
    | with_reducible refine .each (fun _ _ => ?_) ?_ | exact rfl

theorem State.asOf_kept {c : List Part} {s t : State} {w : Word} {f : State → State} (m : Part.sub [.reg .PST_PM] c = true)
    (h : ∀ u, Kept c u (f u)) (k : Kept c s t) : Kept c s (t.asOf w f) :=
  .via (State.setReg_kept .PST_PM ..) m ((Kept.via (State.setReg_kept .PST_PM t w) m k).trans (h _))

theorem State.applyHw_kept (s : State) (old : Word) : Kept (Part.receipt [.units, .eng, .mdl, .tra, .rgl, .ldg, .reg .PST_PM,
    .reg .PST_OUTST, .reg .CHG_STATE, .reg .CHG_EVT, .reg .REG_STATE, .reg .GBX_STATE]) s (s.applyHw old) := by
  have f : ∀ u e, Kept (Part.receipt [.units, .eng, .mdl, .tra, .rgl, .ldg, .reg .PST_PM, .reg .PST_OUTST, .reg .CHG_STATE,
      .reg .CHG_EVT, .reg .REG_STATE, .reg .GBX_STATE]) u (State.faultUnit u e) := fun u e => (State.faultUnit_kept ..).mono rfl
  have j : ∀ u l, Kept (Part.receipt [.units, .eng, .mdl, .tra, .rgl, .ldg, .reg .PST_PM, .reg .PST_OUTST, .reg .CHG_STATE,
      .reg .CHG_EVT, .reg .REG_STATE, .reg .GBX_STATE]) u (State.journalCauses (State.each u l State.journalFn)) := fun u l =>
    .via (State.journalCauses_kept ..) rfl (.each (fun u e => (State.journalFn_kept ..).mono rfl) (.refl _ _))
  unfold State.applyHw
  dsimp only
  refine .each (fun u e => ?_) (State.asOf_kept rfl (fun u => j u _) (.each f (.via (Part.po_kept s _) rfl (.refl _ s))))
  split
  · exact .refl _ _
  · exact .via (finalReceipt_kept ..) rfl (.refl _ _)
  · exact .ite (.refl _ _) (.via (State.enter_kept ..) rfl (.refl _ _))

theorem State.unitBack_kept (s : State) (u : Nat) : Kept [.units, .rst, .reg .RST_EVT] s (State.unitBack s u) := by
  unfold State.unitBack
  lift_lets
  repeat'
    intro x
    first
    | have hx : Kept [.units, .rst, .reg .RST_EVT] s x := by
        dsimp only [x]
        repeat' first
          | with_reducible exact .refl _ _ | with_reducible assumption | with_reducible refine .ite ?_ ?_
          | with_reducible apply Kept.via (State.setFlag_kept (.RST_EVT) ..)
          | with_reducible apply Kept.via (State.setUst_kept ..)
          | (intro p; cases p <;> first | exact .inl (List.mem_of_elem_eq_true rfl) | exact .inr rfl | exact .inr True.intro)
          | exact rfl | split | dsimp only | with_reducible refine .update rfl rfl rfl ?_ ?_
      clear_value x
    | skip
  repeat' first
    | with_reducible exact .refl _ _ | with_reducible assumption | with_reducible refine .ite ?_ ?_
    | with_reducible apply Kept.via (State.setFlag_kept (.RST_EVT) ..) | with_reducible apply Kept.via (State.setUst_kept ..)
    | (intro p; cases p <;> first | exact .inl (List.mem_of_elem_eq_true rfl) | exact .inr rfl | exact .inr True.intro)
    | exact rfl | split | dsimp only | with_reducible refine .update rfl rfl rfl ?_ ?_

theorem State.coreUnits_kept (s : State) : Kept [.units] s (State.coreUnits s) := by
  unfold State.coreUnits
  try dsimp only
  repeat' first
    | with_reducible exact .refl _ _ | with_reducible assumption | with_reducible refine .ite ?_ ?_
    | with_reducible apply Kept.via (State.setUst_kept ..) | with_reducible refine .each (fun _ _ => ?_) ?_ | exact rfl

theorem State.startLedger_kept (s : State) : Kept [.units] s (State.startLedger s) := by
  unfold State.startLedger
  try dsimp only
  repeat' first
    | with_reducible exact .refl _ _ | with_reducible assumption | with_reducible refine .ite ?_ ?_
    | with_reducible apply Kept.via (State.setUst_kept ..) | exact rfl

theorem State.operational_kept (s : State) : Kept [.units, .eng, .mdl, .ldg, .ssm, .rst, .reg .PST_EPOCH, .reg .FEn_EVT, .reg
    .FEn_WDCNT, .reg .LDG_EVT, .reg .LDG_WQSTAT, .reg .LDG_PNf, .reg .SSM_STATE, .reg .SSM_CAUSE, .reg .SSM_EVT, .reg
    .SSM_PAT0, .reg .SSM_PAT1, .reg .SSM_PATX, .reg .RST_STATE, .reg .RST_START, .reg .RST_EVT, .reg .RST_OPTIME] s
    (State.operational s) := by
  unfold State.operational
  try dsimp only
  repeat' first
    | with_reducible exact .refl _ _ | with_reducible assumption | with_reducible refine .ite ?_ ?_
    | with_reducible apply Kept.via (State.clrFlag_kept (.RST_START) ..)
    | with_reducible apply Kept.via (State.setFlag_kept (.RST_EVT) ..)
    | with_reducible apply Kept.via (State.setFld_kept (.PST_EPOCH) ..)
    | with_reducible apply Kept.via (State.setFld_kept (.RST_START) ..)
    | with_reducible apply Kept.via (State.setFld_kept (.RST_STATE) ..)
    | with_reducible apply Kept.via (State.setNat_kept (.RST_OPTIME) ..) | with_reducible apply Kept.via (State.ssmEnd_kept ..)
    | with_reducible apply Kept.via (State.startLedger_kept ..)
    | (intro p; cases p <;> first | exact .inl (List.mem_of_elem_eq_true rfl) | exact .inr rfl | exact .inr True.intro)
    | exact rfl | split | dsimp only | with_reducible refine .update rfl rfl rfl ?_ ?_

theorem State.autoUnit_kept (s : State) (u : Nat) : Kept [.units, .rnd, .pos, .rst, .reg .RNDr_STATE] s (State.autoUnit s u) :=
    by
  unfold State.autoUnit
  try dsimp only
  repeat' first
    | with_reducible exact .refl _ _ | with_reducible assumption | with_reducible refine .ite ?_ ?_
    | with_reducible apply Kept.via (State.setUst_kept ..) | with_reducible apply Kept.via (State.rndStart_kept ..)
    | with_reducible apply Kept.via (State.posStart_kept ..)
    | (intro p; cases p <;> first | exact .inl (List.mem_of_elem_eq_true rfl) | exact .inr rfl | exact .inr True.intro)
    | exact rfl | split | dsimp only | with_reducible refine .update rfl rfl rfl ?_ ?_

theorem State.autoRuns_kept (s : State) (due : List Nat) : Kept [.units, .eng, .mdl, .rnd, .pos, .tra, .hlv, .rgl, .ldg, .rst,
    .reg .RNDr_STATE, .reg .REG_STATE, .reg .REG_TARGET, .reg .REG_SHED, .reg .REG_PHn] s (State.autoRuns s due) := by
  unfold State.autoRuns
  try dsimp only
  repeat' first
    | with_reducible exact .refl _ _ | with_reducible assumption | with_reducible refine .ite ?_ ?_
    | with_reducible apply Kept.via (State.chopAuto_kept ..) | with_reducible apply Kept.via (State.hlvAuto_kept ..)
    | with_reducible apply Kept.via (State.regAuto_kept ..) | with_reducible apply Kept.via (State.autoUnit_kept ..)
    | with_reducible refine .each (fun _ _ => ?_) ?_ | exact rfl

theorem State.secBoundary_kept (s : State) : Kept [.sec] s (State.secBoundary s) := by
  unfold State.secBoundary
  try dsimp only
  repeat' first
    | with_reducible exact .refl _ _ | with_reducible assumption | with_reducible refine .ite ?_ ?_
    | with_reducible refine .foldl (fun _ _ => ?_) ?_
    | (intro p; cases p <;> first | exact .inl (List.mem_of_elem_eq_true rfl) | exact .inr rfl | exact .inr True.intro) | split
    | dsimp only | with_reducible refine .update rfl rfl rfl ?_ ?_

theorem State.followers_kept (s : State) : Kept [.units, .po, .eng, .mdl, .act, .gbx, .ldg, .reg .FEn_STATE, .reg .CHG_STATE,
    .reg .ACk_STATE, .reg .GBX_STATE, .reg .GBX_EVT] s (State.followers s) := by
  unfold State.followers
  try dsimp only
  repeat' first
    | with_reducible exact .refl _ _ | with_reducible assumption | with_reducible refine .ite ?_ ?_
    | with_reducible apply Kept.via (State.setFld_kept (.CHG_STATE) ..)
    | with_reducible apply Kept.via (State.chgBoundary_kept ..) | with_reducible apply Kept.via (State.actBoundary_kept ..)
    | with_reducible apply Kept.via (State.gbxBoundary_kept ..) | exact rfl

theorem State.boundaryTransitions_kept (s : State) : Kept (Part.receipt [.units, .eng, .mdl, .rnd, .pos, .tra, .chg, .hlv,
    .rgl, .act, .gbx, .ldg, .ssm, .rst, .sec, .tick, .reg .PST_PM, .reg .PST_EPOCH, .reg .PST_OUTST, .reg .FEn_STATE, .reg
    .FEn_EVT, .reg .FEn_WDCNT, .reg .MOD_STAT, .reg .RNDr_STATE, .reg .CHG_STATE, .reg .CHG_ILIM, .reg .CHG_FLT, .reg .CHG_EVT,
    .reg .REG_STATE, .reg .REG_EVT, .reg .REG_FLT, .reg .REG_TARGET, .reg .REG_SHED, .reg .REG_PHn, .reg .ACk_STATE, .reg
    .ACk_EVT, .reg .ACk_FLT, .reg .GBX_STATE, .reg .GBX_EVT, .reg .GBX_FLT, .reg .LDG_EVT, .reg .LDG_WQSTAT, .reg .LDG_PNf,
    .reg .SSM_STATE, .reg .SSM_CAUSE, .reg .SSM_EVT, .reg .SSM_PAT0, .reg .SSM_PAT1, .reg .SSM_PATX, .reg .RST_STATE, .reg
    .RST_START, .reg .RST_EVT, .reg .RST_OPTIME]) s (State.boundaryTransitions s) := by
  unfold State.boundaryTransitions
  lift_lets
  repeat'
    intro x
    first
    | have hx : Kept (Part.receipt [.units, .eng, .mdl, .rnd, .pos, .tra, .chg, .hlv, .rgl, .act, .gbx, .ldg, .ssm, .rst, .sec, .tick, .reg .PST_PM, .reg .PST_EPOCH, .reg .PST_OUTST, .reg .FEn_STATE, .reg .FEn_EVT, .reg .FEn_WDCNT, .reg .MOD_STAT, .reg .RNDr_STATE, .reg .CHG_STATE, .reg .CHG_ILIM, .reg .CHG_FLT, .reg .CHG_EVT, .reg .REG_STATE, .reg .REG_EVT, .reg .REG_FLT, .reg .REG_TARGET, .reg .REG_SHED, .reg .REG_PHn, .reg .ACk_STATE, .reg .ACk_EVT, .reg .ACk_FLT, .reg .GBX_STATE, .reg .GBX_EVT, .reg .GBX_FLT, .reg .LDG_EVT, .reg .LDG_WQSTAT, .reg .LDG_PNf, .reg .SSM_STATE, .reg .SSM_CAUSE, .reg .SSM_EVT, .reg .SSM_PAT0, .reg .SSM_PAT1, .reg .SSM_PATX, .reg .RST_STATE, .reg .RST_START, .reg .RST_EVT, .reg .RST_OPTIME]) s x := by
        dsimp only [x]
        repeat' first
          | with_reducible exact .refl _ _ | with_reducible assumption
          | with_reducible apply Kept.via (State.setNat_kept (.PST_PM) ..)
          | with_reducible apply Kept.via (State.journalLatches_kept ..)
          | with_reducible apply Kept.via (State.ssmFaults_kept ..)
          | with_reducible apply Kept.via (State.crowbarFault_kept ..) | with_reducible apply Kept.via (State.applyHw_kept ..)
          | with_reducible apply Kept.via (State.unitBack_kept ..) | with_reducible apply Kept.via (State.coreUnits_kept ..)
          | with_reducible apply Kept.via (State.operational_kept ..) | with_reducible apply Kept.via (State.autoRuns_kept ..)
          | with_reducible apply Kept.via (State.secBoundary_kept ..) | with_reducible apply Kept.via (State.followers_kept ..)
          | with_reducible refine .each (fun _ _ => ?_) ?_
          | (intro p; cases p <;> first | exact .inl (List.mem_of_elem_eq_true rfl) | exact .inr rfl | exact .inr True.intro)
          | exact rfl | dsimp only | with_reducible refine .update rfl rfl rfl ?_ ?_
      clear_value x
    | skip
  repeat' first
    | with_reducible exact .refl _ _ | with_reducible assumption
    | with_reducible apply Kept.via (State.setNat_kept (.PST_PM) ..)
    | with_reducible apply Kept.via (State.journalLatches_kept ..) | with_reducible apply Kept.via (State.ssmFaults_kept ..)
    | with_reducible apply Kept.via (State.crowbarFault_kept ..) | with_reducible apply Kept.via (State.applyHw_kept ..)
    | with_reducible apply Kept.via (State.unitBack_kept ..) | with_reducible apply Kept.via (State.coreUnits_kept ..)
    | with_reducible apply Kept.via (State.operational_kept ..) | with_reducible apply Kept.via (State.autoRuns_kept ..)
    | with_reducible apply Kept.via (State.secBoundary_kept ..) | with_reducible apply Kept.via (State.followers_kept ..)
    | with_reducible refine .each (fun _ _ => ?_) ?_
    | (intro p; cases p <;> first | exact .inl (List.mem_of_elem_eq_true rfl) | exact .inr rfl | exact .inr True.intro)
    | exact rfl | dsimp only | with_reducible refine .update rfl rfl rfl ?_ ?_

theorem State.latchMonitor_kept (s : State) (n : Nat) : Kept [.reg .FEn_MON_I, .reg .FEn_MON_IREF, .reg .FEn_MON_V, .reg
    .FEn_MON_ANG, .reg .FEn_MON_SPD, .reg .FEn_MON_PRE] s (State.latchMonitor s n) := by
  unfold State.latchMonitor
  try dsimp only
  repeat' first
    | with_reducible exact .refl _ _ | with_reducible apply Kept.via (State.setNat_kept (.FEn_MON_ANG _) ..)
    | with_reducible apply Kept.via (State.setNat_kept (.FEn_MON_I _) ..)
    | with_reducible apply Kept.via (State.setNat_kept (.FEn_MON_IREF _) ..)
    | with_reducible apply Kept.via (State.setNat_kept (.FEn_MON_PRE _) ..)
    | with_reducible apply Kept.via (State.setNat_kept (.FEn_MON_SPD _) ..)
    | with_reducible apply Kept.via (State.setNat_kept (.FEn_MON_V _) ..) | exact rfl

theorem State.newEpoch_kept (s : State) : Kept [.po, .eng, .pos, .sent, .tra, .chg, .rgl, .act, .gbx, .ssm, .rst, .thm, .can,
    .eth] s (State.newEpoch s) := by
  unfold State.newEpoch
  lift_lets
  repeat'
    intro x
    first
    | have hx : Kept [.po, .eng, .pos, .sent, .tra, .chg, .rgl, .act, .gbx, .ssm, .rst, .thm, .can, .eth] s x := by
        dsimp only [x]
        repeat' first
          | with_reducible exact .refl _ _ | with_reducible assumption
          | with_reducible apply Kept.via (State.setPigeon_kept ..) | with_reducible apply Kept.via (State.updE_kept ..)
          | with_reducible apply Kept.via (State.updTr_kept ..) | with_reducible apply Kept.via (State.updAc_kept ..)
          | with_reducible apply Kept.via (State.updGb_kept ..) | with_reducible apply Kept.via (State.updCh_kept ..)
          | with_reducible apply Kept.via (State.updPs_kept ..) | with_reducible apply Kept.via (State.updSn_kept ..)
          | with_reducible apply Kept.via (State.updRg_kept ..) | with_reducible apply Kept.via (State.updCn_kept ..)
          | with_reducible apply Kept.via (State.updEt_kept ..) | with_reducible refine .each (fun _ _ => ?_) ?_
          | with_reducible refine .update rfl rfl rfl ?_ ?_
          | (intro p; cases p <;> first | exact .inl (List.mem_of_elem_eq_true rfl) | exact .inr rfl | exact .inr True.intro)
          | exact rfl | dsimp only
      clear_value x
    | skip
  repeat' first
    | with_reducible exact .refl _ _ | with_reducible assumption | with_reducible apply Kept.via (State.setPigeon_kept ..)
    | with_reducible apply Kept.via (State.updE_kept ..) | with_reducible apply Kept.via (State.updTr_kept ..)
    | with_reducible apply Kept.via (State.updAc_kept ..) | with_reducible apply Kept.via (State.updGb_kept ..)
    | with_reducible apply Kept.via (State.updCh_kept ..) | with_reducible apply Kept.via (State.updPs_kept ..)
    | with_reducible apply Kept.via (State.updSn_kept ..) | with_reducible apply Kept.via (State.updRg_kept ..)
    | with_reducible apply Kept.via (State.updCn_kept ..) | with_reducible apply Kept.via (State.updEt_kept ..)
    | with_reducible refine .each (fun _ _ => ?_) ?_ | with_reducible refine .update rfl rfl rfl ?_ ?_
    | (intro p; cases p <;> first | exact .inl (List.mem_of_elem_eq_true rfl) | exact .inr rfl | exact .inr True.intro)
    | exact rfl | dsimp only

theorem State.boundaryCollection_kept (s : State) : Kept [.po, .eng, .pos, .sent, .tra, .chg, .rgl, .act, .gbx, .ssm, .rst,
    .thm, .can, .eth, .reg .FEn_MON_I, .reg .FEn_MON_IREF, .reg .FEn_MON_V, .reg .FEn_MON_ANG, .reg .FEn_MON_SPD, .reg
    .FEn_MON_PRE] s (State.boundaryCollection s) := by
  unfold State.boundaryCollection
  try dsimp only
  repeat' first
    | with_reducible exact .refl _ _ | with_reducible assumption | with_reducible apply Kept.via (State.regEmulate_kept ..)
    | with_reducible apply Kept.via (State.regIntegrate_kept ..)
    | with_reducible apply Kept.via (State.latchCollection_kept ..)
    | with_reducible apply Kept.via (State.latchMonitor_kept ..) | with_reducible apply Kept.via (State.newEpoch_kept ..)
    | with_reducible refine .each (fun _ _ => ?_) ?_ | exact rfl

theorem specUnknown_kept  (s : State) (m : Msg) (k : Nat) : Kept [] s (specUnknown.run s m k).1 := by
  unfold specUnknown
  try dsimp only
  repeat' first
    | with_reducible exact .refl _ _ | with_reducible assumption | with_reducible apply Kept.via (doneWith_kept ..)
    | with_reducible apply Kept.via (doneWith_kept_eq (by assumption)) | exact rfl

theorem specOf1_kept {op : Nat} {sp : LetterSpec} (h : specOf1 op = some sp) (s : State) (m : Msg) (k : Nat) :
    Kept (Part.allBut [.variant, .split, .bootSplit, .up, .gf, .driveEn, .actEn, .recovery, .pending]) s (sp.run s m k).1 := by
  unfold specOf1 at h
  split at h
  · cases h; exact (specWrite_kept ..).mono rfl
  · cases h; exact (specRead_kept ..).mono rfl
  · cases h; exact (specState_kept ..).mono rfl
  · cases h; exact (specAbort_kept ..).mono rfl
  · cases h; exact (specFeHarm_kept ..).mono rfl
  · cases h; exact (specFeAdapt_kept ..).mono rfl
  · cases h; exact (specFeGains_kept ..).mono rfl
  · cases h; exact (specFeClear_kept ..).mono rfl
  · cases h; exact (specDrvRead_kept ..).mono rfl
  · cases h; exact (specDrvWrite_kept ..).mono rfl
  · cases h; exact (specRndRun_kept ..).mono rfl
  · cases h; exact (specRndHalt_kept ..).mono rfl
  · cases h; exact (specRndUrgent_kept ..).mono rfl
  · cases h; exact (specRndClear_kept ..).mono rfl
  · cases h; exact (specPosRun_kept ..).mono rfl
  · cases h; exact (specPosStop_kept ..).mono rfl
  · cases h; exact (specSentRun_kept ..).mono rfl
  · cases h; exact (specSentStop_kept ..).mono rfl
  · cases h; exact (specTraArm_kept ..).mono rfl
  · cases h; exact (specTraRun_kept ..).mono rfl
  · cases h; exact (specTraTorque_kept ..).mono rfl
  · cases h; exact (specTraStop_kept ..).mono rfl
  · cases h; exact (specTraDisarm_kept ..).mono rfl
  · cases h; exact (specTraClear_kept ..).mono rfl
  · cases h; exact (specChopRun_kept ..).mono rfl
  · cases h; exact (specChopHalt_kept ..).mono rfl
  · cases h
theorem specOf2_kept {op : Nat} {sp : LetterSpec} (h : specOf2 op = some sp) (s : State) (m : Msg) (k : Nat) :
    Kept (Part.allBut [.variant, .split, .bootSplit, .up, .gf, .driveEn, .actEn, .recovery, .pending]) s (sp.run s m k).1 := by
  unfold specOf2 at h
  split at h
  · cases h; exact (specChgArm_kept ..).mono rfl
  · cases h; exact (specChgStart_kept ..).mono rfl
  · cases h; exact (specChgStop_kept ..).mono rfl
  · cases h; exact (specChgDisarm_kept ..).mono rfl
  · cases h; exact (specChgLimit_kept ..).mono rfl
  · cases h; exact (specChgBms_kept ..).mono rfl
  · cases h; exact (specChgClear_kept ..).mono rfl
  · cases h; exact (specTransport_kept ..).mono rfl
  · cases h; exact (specRegArm_kept ..).mono rfl
  · cases h; exact (specRegRun_kept ..).mono rfl
  · cases h; exact (specRegStop_kept ..).mono rfl
  · cases h; exact (specRegDisarm_kept ..).mono rfl
  · cases h; exact (specRegSet_kept ..).mono rfl
  · cases h; exact (specRegClear_kept ..).mono rfl
  · cases h; exact (specHlvArm_kept ..).mono rfl
  · cases h; exact (specHlvRun_kept ..).mono rfl
  · cases h; exact (specHlvSet_kept ..).mono rfl
  · cases h; exact (specHlvStop_kept ..).mono rfl
  · cases h; exact (specHlvDisarm_kept ..).mono rfl
  · cases h; exact (specHlvClear_kept ..).mono rfl
  · cases h; exact (specActArm_kept ..).mono rfl
  · cases h; exact (specActRun_kept ..).mono rfl
  · cases h; exact (specActSpeed_kept ..).mono rfl
  · cases h; exact (specActStop_kept ..).mono rfl
  · cases h; exact (specActDisarm_kept ..).mono rfl
  · cases h; exact (specActClear_kept ..).mono rfl
  · cases h; exact (specActLeaktest_kept ..).mono rfl
  · cases h; exact (specGbxRun_kept ..).mono rfl
  · cases h; exact (specGbxHalt_kept ..).mono rfl
  · cases h; exact (specGbxShift_kept ..).mono rfl
  · cases h; exact (specGbxPark_kept ..).mono rfl
  · cases h; exact (specGbxClutch_kept ..).mono rfl
  · cases h; exact (specGbxClear_kept ..).mono rfl
  · cases h
theorem specOf3_kept {op : Nat} {sp : LetterSpec} (h : specOf3 op = some sp) (s : State) (m : Msg) (k : Nat) :
    Kept (Part.allBut [.variant, .split, .bootSplit, .up, .gf, .driveEn, .actEn, .recovery, .pending]) s (sp.run s m k).1 := by
  unfold specOf3 at h
  split at h
  · cases h; exact (specSlotWrite_kept ..).mono rfl
  · cases h; exact (specSlotCheck_kept ..).mono rfl
  · cases h; exact (specCommit_kept ..).mono rfl
  · cases h; exact (specSlotWrite_kept ..).mono rfl
  · cases h; exact (specSlotCheck_kept ..).mono rfl
  · cases h; exact (specCommit_kept ..).mono rfl
  · cases h; exact (specSecRevoke_kept ..).mono rfl
  · cases h; exact (specSecFkey_kept ..).mono rfl
  · cases h; exact (specSecSak_kept ..).mono rfl
  · cases h; exact (specLdgBattery_kept ..).mono rfl
  · cases h; exact (specLdgKeepalive_kept ..).mono rfl
  · cases h; exact (specSsmRelease_kept ..).mono rfl
  · cases h; exact (specSsmForce_kept ..).mono rfl
  · cases h; exact (specRstUnit_kept ..).mono rfl
  · cases h; exact (specRstPair_kept ..).mono rfl
  · cases h; exact (specRstSystem_kept ..).mono rfl
  · cases h; exact (specStandby_kept ..).mono rfl
  · cases h; exact (specEvcRing_kept ..).mono rfl
  · cases h; exact (specNetRun_kept ..).mono rfl
  · cases h; exact (specNetHalt_kept ..).mono rfl
  · cases h
theorem specOf_kept (opcode : Nat) (s : State) (m : Msg) (k : Nat) : Kept (Part.allBut [.variant, .split, .bootSplit, .up, .gf,
    .driveEn, .actEn, .recovery, .pending]) s ((specOf opcode).run s m k).1 := by
  unfold specOf
  split
  · exact specOf1_kept (by assumption) s m k
  · split
    · exact specOf2_kept (by assumption) s m k
    · cases h : specOf3 opcode with
      | some sp => exact specOf3_kept h s m k
      | none => exact .refl _ _

theorem State.deliverLetter_kept (s : State) (m : Msg) : Kept (Part.allBut [.variant, .split, .bootSplit, .up, .gf, .driveEn,
    .actEn, .recovery, .pending]) s (State.deliverLetter s m) := by
  unfold State.deliverLetter
  try dsimp only
  repeat' first
    | with_reducible exact .refl _ _ | with_reducible apply Kept.via (State.runReady_kept ..)
    | with_reducible apply deliver_kept rfl (specOf_kept _) _ _ | exact rfl

theorem State.deliverHead_kept (s : State) (n : Nat) : Kept (Part.allBut [.variant, .split, .bootSplit, .up, .gf, .driveEn,
    .actEn, .recovery, .pending]) s (State.deliverHead s n) := by
  unfold State.deliverHead
  try dsimp only
  repeat' first
    | with_reducible exact .refl _ _ | with_reducible assumption
    | with_reducible apply Kept.via (State.setFld_kept (.PHn_HEAD _) ..)
    | with_reducible apply Kept.via (State.setPigeon_kept ..) | with_reducible apply Kept.via (refuseLetter_kept ..)
    | with_reducible apply Kept.via (State.readSlot_kept ..)
    | with_reducible apply Kept.via (State.readSlot_kept_eq (by assumption))
    | with_reducible apply Kept.via (State.deliverLetter_kept ..) | exact rfl | split

theorem State.deliverFrom_kept (n k : Nat) : ∀ s : State, Kept (Part.allBut [.variant, .split, .bootSplit, .up, .gf, .driveEn,
    .actEn, .recovery, .pending]) s (s.deliverFrom n k) := by
  induction k with
  | zero => exact fun s => .refl _ s
  | succ k ih =>
    intro s
    unfold State.deliverFrom
    split
    · exact ((State.deliverHead_kept s n).mono rfl).trans (ih _)
    · exact .refl _ s

theorem State.deliverMgmt_kept (k : Nat) : ∀ s : State, Kept (Part.allBut [.variant, .split, .bootSplit, .up, .gf, .driveEn,
    .actEn, .recovery, .pending]) s (s.deliverMgmt k) := by
  induction k with
  | zero => exact fun s => .refl _ s
  | succ k ih =>
    intro s
    unfold State.deliverMgmt
    split
    · exact .refl _ s
    · split
      · refine Kept.trans (.via (State.deliverLetter_kept ..) rfl ?_) (ih _)
        with_reducible refine .update rfl rfl rfl ?_ (.refl _ s)
        intro p
        cases p <;> first | exact .inl (List.mem_of_elem_eq_true rfl) | exact .inr rfl | exact .inr True.intro
      · exact .refl _ s

theorem State.deliverClass_kept (s : State) (c : Nat) : Kept (Part.allBut [.variant, .split, .bootSplit, .up, .gf, .driveEn,
    .actEn, .recovery, .pending]) s (State.deliverClass s c) := by
  unfold State.deliverClass
  try dsimp only
  repeat' first
    | with_reducible exact .refl _ _ | with_reducible assumption | with_reducible refine .ite ?_ ?_
    | with_reducible apply Kept.via (State.deliverFrom_kept ..) | with_reducible refine .each (fun _ _ => ?_) ?_ | exact rfl

theorem State.boundaryDeliveries_kept (s : State) : Kept (Part.allBut [.variant, .split, .bootSplit, .up, .gf, .driveEn,
    .actEn, .recovery, .pending]) s (State.boundaryDeliveries s) := by
  unfold State.boundaryDeliveries
  try dsimp only
  repeat' first
    | with_reducible exact .refl _ _ | with_reducible apply Kept.via (State.deliverMgmt_kept ..)
    | with_reducible apply Kept.via (State.deliverClass_kept ..) | exact rfl

theorem State.latchPars_kept (s : State) : Kept [.po, .eng, .reg .FEn_ADFAC] s (State.latchPars s) := by
  unfold State.latchPars
  try dsimp only
  repeat' first
    | with_reducible exact .refl _ _ | with_reducible assumption | with_reducible refine .ite ?_ ?_
    | with_reducible apply Kept.via (State.updE_kept ..) | with_reducible apply Kept.via (State.settleReset_kept ..)
    | with_reducible refine .each (fun _ _ => ?_) ?_
    | (intro p; cases p <;> first | exact .inl (List.mem_of_elem_eq_true rfl) | exact .inr rfl | exact .inr True.intro)
    | exact rfl | split | dsimp only | with_reducible refine .update rfl rfl rfl ?_ ?_

theorem execEpochBoundary_kept (s : State) : KeptOut (Part.allBut [.variant, .split, .bootSplit, .up, .gf, .driveEn, .actEn,
    .recovery, .pending]) s (execEpochBoundary s) := by
  unfold execEpochBoundary
  repeat' first
    | with_reducible apply KeptOut.next | with_reducible apply KeptOut.ite | with_reducible exact .refl _ _
    | with_reducible assumption | with_reducible refine .ite ?_ ?_
    | with_reducible apply Kept.via (State.boundaryTransitions_kept ..)
    | with_reducible apply Kept.via (State.boundaryCollection_kept ..)
    | with_reducible apply Kept.via (State.boundaryDeliveries_kept ..)
    | with_reducible apply Kept.via (State.latchPars_kept ..) | exact rfl

end Sys2Proof.Machine
end

