-- ==== Sys2Proof/Laws/State.lean ====
section
/-!
SUPPORT. The updates of the state by name: each leaves every field but its own alone, and what it wrote reads back.
-/
namespace Sys2Proof.Machine

@[simp] theorem State.setReg_fields (s : State) (a : Nat) (w : Word) :
    (s.setReg a w).variant = s.variant ∧ (s.setReg a w).split = s.split ∧ (s.setReg a w).bootSplit = s.bootSplit ∧
    (s.setReg a w).rate = s.rate ∧ (s.setReg a w).frac = s.frac ∧ (s.setReg a w).time = s.time ∧ (s.setReg a w).up = s.up ∧
    (s.setReg a w).mem = s.mem ∧ (s.setReg a w).err = s.err ∧ (s.setReg a w).units = s.units ∧ (s.setReg a w).po = s.po ∧
    (s.setReg a w).img = s.img ∧ (s.setReg a w).imgSlot = s.imgSlot ∧ (s.setReg a w).fallback = s.fallback ∧
    (s.setReg a w).icheck = s.icheck ∧ (s.setReg a w).fcheck = s.fcheck ∧ (s.setReg a w).nvs = s.nvs ∧
    (s.setReg a w).eng = s.eng ∧ (s.setReg a w).mdl = s.mdl ∧ (s.setReg a w).gf = s.gf ∧ (s.setReg a w).rnd = s.rnd ∧
    (s.setReg a w).pos = s.pos ∧ (s.setReg a w).sent = s.sent ∧ (s.setReg a w).tra = s.tra ∧ (s.setReg a w).chg = s.chg ∧
    (s.setReg a w).hlv = s.hlv ∧ (s.setReg a w).rgl = s.rgl ∧ (s.setReg a w).act = s.act ∧ (s.setReg a w).gbx = s.gbx ∧
    (s.setReg a w).ldg = s.ldg ∧ (s.setReg a w).cores = s.cores ∧ (s.setReg a w).lsc = s.lsc ∧ (s.setReg a w).ssm = s.ssm ∧
    (s.setReg a w).rst = s.rst ∧ (s.setReg a w).evc = s.evc ∧ (s.setReg a w).driveEn = s.driveEn ∧
    (s.setReg a w).actEn = s.actEn ∧ (s.setReg a w).aon = s.aon ∧ (s.setReg a w).pads = s.pads ∧ (s.setReg a w).thm = s.thm ∧
    (s.setReg a w).can = s.can ∧ (s.setReg a w).eth = s.eth ∧ (s.setReg a w).sec = s.sec ∧ (s.setReg a w).dbg = s.dbg ∧
    (s.setReg a w).pins = s.pins ∧ (s.setReg a w).recovery = s.recovery ∧ (s.setReg a w).restFail = s.restFail ∧
    (s.setReg a w).memCap = s.memCap ∧ (s.setReg a w).mramClosed = s.mramClosed ∧ (s.setReg a w).linkTries = s.linkTries ∧
    (s.setReg a w).resp = s.resp ∧ (s.setReg a w).tick = s.tick ∧ (s.setReg a w).pending = s.pending :=
  by repeat' first | rfl | refine ⟨rfl, ?_⟩
@[simp] theorem State.ust_setReg (s : State) (a : Nat) (w : Word) (u : Nat) : (s.setReg a w).ust u = s.ust u := rfl

@[simp] theorem State.setFld_fields (s : State) (a : Nat) (f : Fld) (v : Nat) :
    (s.setFld a f v).variant = s.variant ∧ (s.setFld a f v).split = s.split ∧ (s.setFld a f v).bootSplit = s.bootSplit ∧
    (s.setFld a f v).rate = s.rate ∧ (s.setFld a f v).frac = s.frac ∧ (s.setFld a f v).time = s.time ∧
    (s.setFld a f v).up = s.up ∧ (s.setFld a f v).mem = s.mem ∧ (s.setFld a f v).err = s.err ∧ (s.setFld a f v).units = s.units ∧
    (s.setFld a f v).po = s.po ∧ (s.setFld a f v).img = s.img ∧ (s.setFld a f v).imgSlot = s.imgSlot ∧
    (s.setFld a f v).fallback = s.fallback ∧ (s.setFld a f v).icheck = s.icheck ∧ (s.setFld a f v).fcheck = s.fcheck ∧
    (s.setFld a f v).nvs = s.nvs ∧ (s.setFld a f v).eng = s.eng ∧ (s.setFld a f v).mdl = s.mdl ∧ (s.setFld a f v).gf = s.gf ∧
    (s.setFld a f v).rnd = s.rnd ∧ (s.setFld a f v).pos = s.pos ∧ (s.setFld a f v).sent = s.sent ∧ (s.setFld a f v).tra = s.tra ∧
    (s.setFld a f v).chg = s.chg ∧ (s.setFld a f v).hlv = s.hlv ∧ (s.setFld a f v).rgl = s.rgl ∧ (s.setFld a f v).act = s.act ∧
    (s.setFld a f v).gbx = s.gbx ∧ (s.setFld a f v).ldg = s.ldg ∧ (s.setFld a f v).cores = s.cores ∧
    (s.setFld a f v).lsc = s.lsc ∧ (s.setFld a f v).ssm = s.ssm ∧ (s.setFld a f v).rst = s.rst ∧ (s.setFld a f v).evc = s.evc ∧
    (s.setFld a f v).driveEn = s.driveEn ∧ (s.setFld a f v).actEn = s.actEn ∧ (s.setFld a f v).aon = s.aon ∧
    (s.setFld a f v).pads = s.pads ∧ (s.setFld a f v).thm = s.thm ∧ (s.setFld a f v).can = s.can ∧ (s.setFld a f v).eth = s.eth ∧
    (s.setFld a f v).sec = s.sec ∧ (s.setFld a f v).dbg = s.dbg ∧ (s.setFld a f v).pins = s.pins ∧
    (s.setFld a f v).recovery = s.recovery ∧ (s.setFld a f v).restFail = s.restFail ∧ (s.setFld a f v).memCap = s.memCap ∧
    (s.setFld a f v).mramClosed = s.mramClosed ∧ (s.setFld a f v).linkTries = s.linkTries ∧ (s.setFld a f v).resp = s.resp ∧
    (s.setFld a f v).tick = s.tick ∧ (s.setFld a f v).pending = s.pending :=
  by repeat' first | rfl | refine ⟨rfl, ?_⟩
@[simp] theorem State.ust_setFld (s : State) (a : Nat) (f : Fld) (v : Nat) (u : Nat) : (s.setFld a f v).ust u = s.ust u := rfl

@[simp] theorem State.setFlag_fields (s : State) (a : Nat) (f : Fld) :
    (s.setFlag a f).variant = s.variant ∧ (s.setFlag a f).split = s.split ∧ (s.setFlag a f).bootSplit = s.bootSplit ∧
    (s.setFlag a f).rate = s.rate ∧ (s.setFlag a f).frac = s.frac ∧ (s.setFlag a f).time = s.time ∧ (s.setFlag a f).up = s.up ∧
    (s.setFlag a f).mem = s.mem ∧ (s.setFlag a f).err = s.err ∧ (s.setFlag a f).units = s.units ∧ (s.setFlag a f).po = s.po ∧
    (s.setFlag a f).img = s.img ∧ (s.setFlag a f).imgSlot = s.imgSlot ∧ (s.setFlag a f).fallback = s.fallback ∧
    (s.setFlag a f).icheck = s.icheck ∧ (s.setFlag a f).fcheck = s.fcheck ∧ (s.setFlag a f).nvs = s.nvs ∧
    (s.setFlag a f).eng = s.eng ∧ (s.setFlag a f).mdl = s.mdl ∧ (s.setFlag a f).gf = s.gf ∧ (s.setFlag a f).rnd = s.rnd ∧
    (s.setFlag a f).pos = s.pos ∧ (s.setFlag a f).sent = s.sent ∧ (s.setFlag a f).tra = s.tra ∧ (s.setFlag a f).chg = s.chg ∧
    (s.setFlag a f).hlv = s.hlv ∧ (s.setFlag a f).rgl = s.rgl ∧ (s.setFlag a f).act = s.act ∧ (s.setFlag a f).gbx = s.gbx ∧
    (s.setFlag a f).ldg = s.ldg ∧ (s.setFlag a f).cores = s.cores ∧ (s.setFlag a f).lsc = s.lsc ∧ (s.setFlag a f).ssm = s.ssm ∧
    (s.setFlag a f).rst = s.rst ∧ (s.setFlag a f).evc = s.evc ∧ (s.setFlag a f).driveEn = s.driveEn ∧
    (s.setFlag a f).actEn = s.actEn ∧ (s.setFlag a f).aon = s.aon ∧ (s.setFlag a f).pads = s.pads ∧ (s.setFlag a f).thm = s.thm ∧
    (s.setFlag a f).can = s.can ∧ (s.setFlag a f).eth = s.eth ∧ (s.setFlag a f).sec = s.sec ∧ (s.setFlag a f).dbg = s.dbg ∧
    (s.setFlag a f).pins = s.pins ∧ (s.setFlag a f).recovery = s.recovery ∧ (s.setFlag a f).restFail = s.restFail ∧
    (s.setFlag a f).memCap = s.memCap ∧ (s.setFlag a f).mramClosed = s.mramClosed ∧ (s.setFlag a f).linkTries = s.linkTries ∧
    (s.setFlag a f).resp = s.resp ∧ (s.setFlag a f).tick = s.tick ∧ (s.setFlag a f).pending = s.pending :=
  by repeat' first | rfl | refine ⟨rfl, ?_⟩
@[simp] theorem State.ust_setFlag (s : State) (a : Nat) (f : Fld) (u : Nat) : (s.setFlag a f).ust u = s.ust u := rfl

@[simp] theorem State.clrFlag_fields (s : State) (a : Nat) (f : Fld) :
    (s.clrFlag a f).variant = s.variant ∧ (s.clrFlag a f).split = s.split ∧ (s.clrFlag a f).bootSplit = s.bootSplit ∧
    (s.clrFlag a f).rate = s.rate ∧ (s.clrFlag a f).frac = s.frac ∧ (s.clrFlag a f).time = s.time ∧ (s.clrFlag a f).up = s.up ∧
    (s.clrFlag a f).mem = s.mem ∧ (s.clrFlag a f).err = s.err ∧ (s.clrFlag a f).units = s.units ∧ (s.clrFlag a f).po = s.po ∧
    (s.clrFlag a f).img = s.img ∧ (s.clrFlag a f).imgSlot = s.imgSlot ∧ (s.clrFlag a f).fallback = s.fallback ∧
    (s.clrFlag a f).icheck = s.icheck ∧ (s.clrFlag a f).fcheck = s.fcheck ∧ (s.clrFlag a f).nvs = s.nvs ∧
    (s.clrFlag a f).eng = s.eng ∧ (s.clrFlag a f).mdl = s.mdl ∧ (s.clrFlag a f).gf = s.gf ∧ (s.clrFlag a f).rnd = s.rnd ∧
    (s.clrFlag a f).pos = s.pos ∧ (s.clrFlag a f).sent = s.sent ∧ (s.clrFlag a f).tra = s.tra ∧ (s.clrFlag a f).chg = s.chg ∧
    (s.clrFlag a f).hlv = s.hlv ∧ (s.clrFlag a f).rgl = s.rgl ∧ (s.clrFlag a f).act = s.act ∧ (s.clrFlag a f).gbx = s.gbx ∧
    (s.clrFlag a f).ldg = s.ldg ∧ (s.clrFlag a f).cores = s.cores ∧ (s.clrFlag a f).lsc = s.lsc ∧ (s.clrFlag a f).ssm = s.ssm ∧
    (s.clrFlag a f).rst = s.rst ∧ (s.clrFlag a f).evc = s.evc ∧ (s.clrFlag a f).driveEn = s.driveEn ∧
    (s.clrFlag a f).actEn = s.actEn ∧ (s.clrFlag a f).aon = s.aon ∧ (s.clrFlag a f).pads = s.pads ∧ (s.clrFlag a f).thm = s.thm ∧
    (s.clrFlag a f).can = s.can ∧ (s.clrFlag a f).eth = s.eth ∧ (s.clrFlag a f).sec = s.sec ∧ (s.clrFlag a f).dbg = s.dbg ∧
    (s.clrFlag a f).pins = s.pins ∧ (s.clrFlag a f).recovery = s.recovery ∧ (s.clrFlag a f).restFail = s.restFail ∧
    (s.clrFlag a f).memCap = s.memCap ∧ (s.clrFlag a f).mramClosed = s.mramClosed ∧ (s.clrFlag a f).linkTries = s.linkTries ∧
    (s.clrFlag a f).resp = s.resp ∧ (s.clrFlag a f).tick = s.tick ∧ (s.clrFlag a f).pending = s.pending :=
  by repeat' first | rfl | refine ⟨rfl, ?_⟩
@[simp] theorem State.ust_clrFlag (s : State) (a : Nat) (f : Fld) (u : Nat) : (s.clrFlag a f).ust u = s.ust u := rfl

@[simp] theorem State.setByte_fields (s : State) (a : Nat) (b : Byte) :
    (s.setByte a b).variant = s.variant ∧ (s.setByte a b).split = s.split ∧ (s.setByte a b).bootSplit = s.bootSplit ∧
    (s.setByte a b).rate = s.rate ∧ (s.setByte a b).frac = s.frac ∧ (s.setByte a b).time = s.time ∧ (s.setByte a b).up = s.up ∧
    (s.setByte a b).regs = s.regs ∧ (s.setByte a b).err = s.err ∧ (s.setByte a b).units = s.units ∧ (s.setByte a b).po = s.po ∧
    (s.setByte a b).img = s.img ∧ (s.setByte a b).imgSlot = s.imgSlot ∧ (s.setByte a b).fallback = s.fallback ∧
    (s.setByte a b).icheck = s.icheck ∧ (s.setByte a b).fcheck = s.fcheck ∧ (s.setByte a b).nvs = s.nvs ∧
    (s.setByte a b).eng = s.eng ∧ (s.setByte a b).mdl = s.mdl ∧ (s.setByte a b).gf = s.gf ∧ (s.setByte a b).rnd = s.rnd ∧
    (s.setByte a b).pos = s.pos ∧ (s.setByte a b).sent = s.sent ∧ (s.setByte a b).tra = s.tra ∧ (s.setByte a b).chg = s.chg ∧
    (s.setByte a b).hlv = s.hlv ∧ (s.setByte a b).rgl = s.rgl ∧ (s.setByte a b).act = s.act ∧ (s.setByte a b).gbx = s.gbx ∧
    (s.setByte a b).ldg = s.ldg ∧ (s.setByte a b).cores = s.cores ∧ (s.setByte a b).lsc = s.lsc ∧ (s.setByte a b).ssm = s.ssm ∧
    (s.setByte a b).rst = s.rst ∧ (s.setByte a b).evc = s.evc ∧ (s.setByte a b).driveEn = s.driveEn ∧
    (s.setByte a b).actEn = s.actEn ∧ (s.setByte a b).aon = s.aon ∧ (s.setByte a b).pads = s.pads ∧ (s.setByte a b).thm = s.thm ∧
    (s.setByte a b).can = s.can ∧ (s.setByte a b).eth = s.eth ∧ (s.setByte a b).sec = s.sec ∧ (s.setByte a b).dbg = s.dbg ∧
    (s.setByte a b).pins = s.pins ∧ (s.setByte a b).recovery = s.recovery ∧ (s.setByte a b).restFail = s.restFail ∧
    (s.setByte a b).memCap = s.memCap ∧ (s.setByte a b).mramClosed = s.mramClosed ∧ (s.setByte a b).linkTries = s.linkTries ∧
    (s.setByte a b).resp = s.resp ∧ (s.setByte a b).tick = s.tick ∧ (s.setByte a b).pending = s.pending :=
  by repeat' first | rfl | refine ⟨rfl, ?_⟩
@[simp] theorem State.ust_setByte (s : State) (a : Nat) (b : Byte) (u : Nat) : (s.setByte a b).ust u = s.ust u := rfl
@[simp] theorem State.reg_setByte (s : State) (a : Nat) (b : Byte) (r : Nat) : (s.setByte a b).reg r = s.reg r := rfl
@[simp] theorem State.byte_setByte (s : State) (a : Nat) (b : Byte) : (s.setByte a b).byte a = b := FMap.get_set_same
theorem State.byte_setByte_ne (s : State) (a : Nat) (b : Byte) {j : Nat} (h : j ≠ a) : (s.setByte a b).byte j = s.byte j := FMap.get_set_ne h

@[simp] theorem State.setErr_fields (s : State) (a : Nat) (e : List (Nat × Byte)) :
    (s.setErr a e).variant = s.variant ∧ (s.setErr a e).split = s.split ∧ (s.setErr a e).bootSplit = s.bootSplit ∧
    (s.setErr a e).rate = s.rate ∧ (s.setErr a e).frac = s.frac ∧ (s.setErr a e).time = s.time ∧ (s.setErr a e).up = s.up ∧
    (s.setErr a e).regs = s.regs ∧ (s.setErr a e).mem = s.mem ∧ (s.setErr a e).units = s.units ∧ (s.setErr a e).po = s.po ∧
    (s.setErr a e).img = s.img ∧ (s.setErr a e).imgSlot = s.imgSlot ∧ (s.setErr a e).fallback = s.fallback ∧
    (s.setErr a e).icheck = s.icheck ∧ (s.setErr a e).fcheck = s.fcheck ∧ (s.setErr a e).nvs = s.nvs ∧
    (s.setErr a e).eng = s.eng ∧ (s.setErr a e).mdl = s.mdl ∧ (s.setErr a e).gf = s.gf ∧ (s.setErr a e).rnd = s.rnd ∧
    (s.setErr a e).pos = s.pos ∧ (s.setErr a e).sent = s.sent ∧ (s.setErr a e).tra = s.tra ∧ (s.setErr a e).chg = s.chg ∧
    (s.setErr a e).hlv = s.hlv ∧ (s.setErr a e).rgl = s.rgl ∧ (s.setErr a e).act = s.act ∧ (s.setErr a e).gbx = s.gbx ∧
    (s.setErr a e).ldg = s.ldg ∧ (s.setErr a e).cores = s.cores ∧ (s.setErr a e).lsc = s.lsc ∧ (s.setErr a e).ssm = s.ssm ∧
    (s.setErr a e).rst = s.rst ∧ (s.setErr a e).evc = s.evc ∧ (s.setErr a e).driveEn = s.driveEn ∧
    (s.setErr a e).actEn = s.actEn ∧ (s.setErr a e).aon = s.aon ∧ (s.setErr a e).pads = s.pads ∧ (s.setErr a e).thm = s.thm ∧
    (s.setErr a e).can = s.can ∧ (s.setErr a e).eth = s.eth ∧ (s.setErr a e).sec = s.sec ∧ (s.setErr a e).dbg = s.dbg ∧
    (s.setErr a e).pins = s.pins ∧ (s.setErr a e).recovery = s.recovery ∧ (s.setErr a e).restFail = s.restFail ∧
    (s.setErr a e).memCap = s.memCap ∧ (s.setErr a e).mramClosed = s.mramClosed ∧ (s.setErr a e).linkTries = s.linkTries ∧
    (s.setErr a e).resp = s.resp ∧ (s.setErr a e).tick = s.tick ∧ (s.setErr a e).pending = s.pending :=
  by repeat' first | rfl | refine ⟨rfl, ?_⟩
@[simp] theorem State.ust_setErr (s : State) (a : Nat) (e : List (Nat × Byte)) (u : Nat) : (s.setErr a e).ust u = s.ust u := rfl
@[simp] theorem State.reg_setErr (s : State) (a : Nat) (e : List (Nat × Byte)) (r : Nat) : (s.setErr a e).reg r = s.reg r := rfl
@[simp] theorem State.errAt_setErr (s : State) (a : Nat) (e : List (Nat × Byte)) : (s.setErr a e).errAt a = e := FMap.get_set_same
theorem State.errAt_setErr_ne (s : State) (a : Nat) (e : List (Nat × Byte)) {j : Nat} (h : j ≠ a) : (s.setErr a e).errAt j = s.errAt j := FMap.get_set_ne h

@[simp] theorem State.hwAdd_fields (s : State) (e : HwEvent) :
    (s.hwAdd e).variant = s.variant ∧ (s.hwAdd e).split = s.split ∧ (s.hwAdd e).bootSplit = s.bootSplit ∧
    (s.hwAdd e).rate = s.rate ∧ (s.hwAdd e).frac = s.frac ∧ (s.hwAdd e).time = s.time ∧ (s.hwAdd e).up = s.up ∧
    (s.hwAdd e).regs = s.regs ∧ (s.hwAdd e).mem = s.mem ∧ (s.hwAdd e).err = s.err ∧ (s.hwAdd e).units = s.units ∧
    (s.hwAdd e).img = s.img ∧ (s.hwAdd e).imgSlot = s.imgSlot ∧ (s.hwAdd e).fallback = s.fallback ∧
    (s.hwAdd e).icheck = s.icheck ∧ (s.hwAdd e).fcheck = s.fcheck ∧ (s.hwAdd e).nvs = s.nvs ∧ (s.hwAdd e).eng = s.eng ∧
    (s.hwAdd e).mdl = s.mdl ∧ (s.hwAdd e).gf = s.gf ∧ (s.hwAdd e).rnd = s.rnd ∧ (s.hwAdd e).pos = s.pos ∧
    (s.hwAdd e).sent = s.sent ∧ (s.hwAdd e).tra = s.tra ∧ (s.hwAdd e).chg = s.chg ∧ (s.hwAdd e).hlv = s.hlv ∧
    (s.hwAdd e).rgl = s.rgl ∧ (s.hwAdd e).act = s.act ∧ (s.hwAdd e).gbx = s.gbx ∧ (s.hwAdd e).ldg = s.ldg ∧
    (s.hwAdd e).cores = s.cores ∧ (s.hwAdd e).lsc = s.lsc ∧ (s.hwAdd e).ssm = s.ssm ∧ (s.hwAdd e).rst = s.rst ∧
    (s.hwAdd e).evc = s.evc ∧ (s.hwAdd e).driveEn = s.driveEn ∧ (s.hwAdd e).actEn = s.actEn ∧ (s.hwAdd e).aon = s.aon ∧
    (s.hwAdd e).pads = s.pads ∧ (s.hwAdd e).thm = s.thm ∧ (s.hwAdd e).can = s.can ∧ (s.hwAdd e).eth = s.eth ∧
    (s.hwAdd e).sec = s.sec ∧ (s.hwAdd e).dbg = s.dbg ∧ (s.hwAdd e).pins = s.pins ∧ (s.hwAdd e).recovery = s.recovery ∧
    (s.hwAdd e).restFail = s.restFail ∧ (s.hwAdd e).memCap = s.memCap ∧ (s.hwAdd e).mramClosed = s.mramClosed ∧
    (s.hwAdd e).linkTries = s.linkTries ∧ (s.hwAdd e).resp = s.resp ∧ (s.hwAdd e).tick = s.tick ∧ (s.hwAdd e).pending = s.pending :=
  by repeat' first | rfl | refine ⟨rfl, ?_⟩
@[simp] theorem State.ust_hwAdd (s : State) (e : HwEvent) (u : Nat) : (s.hwAdd e).ust u = s.ust u := rfl
@[simp] theorem State.reg_hwAdd (s : State) (e : HwEvent) (r : Nat) : (s.hwAdd e).reg r = s.reg r := rfl

@[simp] theorem State.setPigeon_fields (s : State) (n : Nat) (p : Pigeon) :
    (s.setPigeon n p).variant = s.variant ∧ (s.setPigeon n p).split = s.split ∧ (s.setPigeon n p).bootSplit = s.bootSplit ∧
    (s.setPigeon n p).rate = s.rate ∧ (s.setPigeon n p).frac = s.frac ∧ (s.setPigeon n p).time = s.time ∧
    (s.setPigeon n p).up = s.up ∧ (s.setPigeon n p).regs = s.regs ∧ (s.setPigeon n p).mem = s.mem ∧
    (s.setPigeon n p).err = s.err ∧ (s.setPigeon n p).units = s.units ∧ (s.setPigeon n p).img = s.img ∧
    (s.setPigeon n p).imgSlot = s.imgSlot ∧ (s.setPigeon n p).fallback = s.fallback ∧ (s.setPigeon n p).icheck = s.icheck ∧
    (s.setPigeon n p).fcheck = s.fcheck ∧ (s.setPigeon n p).nvs = s.nvs ∧ (s.setPigeon n p).eng = s.eng ∧
    (s.setPigeon n p).mdl = s.mdl ∧ (s.setPigeon n p).gf = s.gf ∧ (s.setPigeon n p).rnd = s.rnd ∧ (s.setPigeon n p).pos = s.pos ∧
    (s.setPigeon n p).sent = s.sent ∧ (s.setPigeon n p).tra = s.tra ∧ (s.setPigeon n p).chg = s.chg ∧
    (s.setPigeon n p).hlv = s.hlv ∧ (s.setPigeon n p).rgl = s.rgl ∧ (s.setPigeon n p).act = s.act ∧
    (s.setPigeon n p).gbx = s.gbx ∧ (s.setPigeon n p).ldg = s.ldg ∧ (s.setPigeon n p).cores = s.cores ∧
    (s.setPigeon n p).lsc = s.lsc ∧ (s.setPigeon n p).ssm = s.ssm ∧ (s.setPigeon n p).rst = s.rst ∧
    (s.setPigeon n p).evc = s.evc ∧ (s.setPigeon n p).driveEn = s.driveEn ∧ (s.setPigeon n p).actEn = s.actEn ∧
    (s.setPigeon n p).aon = s.aon ∧ (s.setPigeon n p).pads = s.pads ∧ (s.setPigeon n p).thm = s.thm ∧
    (s.setPigeon n p).can = s.can ∧ (s.setPigeon n p).eth = s.eth ∧ (s.setPigeon n p).sec = s.sec ∧
    (s.setPigeon n p).dbg = s.dbg ∧ (s.setPigeon n p).pins = s.pins ∧ (s.setPigeon n p).recovery = s.recovery ∧
    (s.setPigeon n p).restFail = s.restFail ∧ (s.setPigeon n p).memCap = s.memCap ∧ (s.setPigeon n p).mramClosed = s.mramClosed ∧
    (s.setPigeon n p).linkTries = s.linkTries ∧ (s.setPigeon n p).resp = s.resp ∧ (s.setPigeon n p).tick = s.tick ∧
    (s.setPigeon n p).pending = s.pending :=
  by repeat' first | rfl | refine ⟨rfl, ?_⟩
@[simp] theorem State.ust_setPigeon (s : State) (n : Nat) (p : Pigeon) (u : Nat) : (s.setPigeon n p).ust u = s.ust u := rfl
@[simp] theorem State.reg_setPigeon (s : State) (n : Nat) (p : Pigeon) (r : Nat) : (s.setPigeon n p).reg r = s.reg r := rfl
@[simp] theorem State.pigeon_setPigeon (s : State) (n : Nat) (p : Pigeon) : (s.setPigeon n p).pigeon n = p := FMap.get_set_same
theorem State.pigeon_setPigeon_ne (s : State) (n : Nat) (p : Pigeon) {j : Nat} (h : j ≠ n) : (s.setPigeon n p).pigeon j = s.pigeon j := FMap.get_set_ne h

@[simp] theorem State.setSlot_fields (s : State) (n : Nat) (x : Slot) :
    (s.setSlot n x).variant = s.variant ∧ (s.setSlot n x).split = s.split ∧ (s.setSlot n x).bootSplit = s.bootSplit ∧
    (s.setSlot n x).rate = s.rate ∧ (s.setSlot n x).frac = s.frac ∧ (s.setSlot n x).time = s.time ∧ (s.setSlot n x).up = s.up ∧
    (s.setSlot n x).regs = s.regs ∧ (s.setSlot n x).mem = s.mem ∧ (s.setSlot n x).err = s.err ∧ (s.setSlot n x).units = s.units ∧
    (s.setSlot n x).img = s.img ∧ (s.setSlot n x).imgSlot = s.imgSlot ∧ (s.setSlot n x).fallback = s.fallback ∧
    (s.setSlot n x).icheck = s.icheck ∧ (s.setSlot n x).fcheck = s.fcheck ∧ (s.setSlot n x).nvs = s.nvs ∧
    (s.setSlot n x).eng = s.eng ∧ (s.setSlot n x).mdl = s.mdl ∧ (s.setSlot n x).gf = s.gf ∧ (s.setSlot n x).rnd = s.rnd ∧
    (s.setSlot n x).pos = s.pos ∧ (s.setSlot n x).sent = s.sent ∧ (s.setSlot n x).tra = s.tra ∧ (s.setSlot n x).chg = s.chg ∧
    (s.setSlot n x).hlv = s.hlv ∧ (s.setSlot n x).rgl = s.rgl ∧ (s.setSlot n x).act = s.act ∧ (s.setSlot n x).gbx = s.gbx ∧
    (s.setSlot n x).ldg = s.ldg ∧ (s.setSlot n x).cores = s.cores ∧ (s.setSlot n x).lsc = s.lsc ∧ (s.setSlot n x).ssm = s.ssm ∧
    (s.setSlot n x).rst = s.rst ∧ (s.setSlot n x).evc = s.evc ∧ (s.setSlot n x).driveEn = s.driveEn ∧
    (s.setSlot n x).actEn = s.actEn ∧ (s.setSlot n x).aon = s.aon ∧ (s.setSlot n x).pads = s.pads ∧ (s.setSlot n x).thm = s.thm ∧
    (s.setSlot n x).can = s.can ∧ (s.setSlot n x).eth = s.eth ∧ (s.setSlot n x).sec = s.sec ∧ (s.setSlot n x).dbg = s.dbg ∧
    (s.setSlot n x).pins = s.pins ∧ (s.setSlot n x).recovery = s.recovery ∧ (s.setSlot n x).restFail = s.restFail ∧
    (s.setSlot n x).memCap = s.memCap ∧ (s.setSlot n x).mramClosed = s.mramClosed ∧ (s.setSlot n x).linkTries = s.linkTries ∧
    (s.setSlot n x).resp = s.resp ∧ (s.setSlot n x).tick = s.tick ∧ (s.setSlot n x).pending = s.pending :=
  by repeat' first | rfl | refine ⟨rfl, ?_⟩
@[simp] theorem State.ust_setSlot (s : State) (n : Nat) (x : Slot) (u : Nat) : (s.setSlot n x).ust u = s.ust u := rfl
@[simp] theorem State.reg_setSlot (s : State) (n : Nat) (x : Slot) (r : Nat) : (s.setSlot n x).reg r = s.reg r := rfl
@[simp] theorem State.slot_setSlot (s : State) (n : Nat) (x : Slot) : (s.setSlot n x).slot n = x := FMap.get_set_same
theorem State.slot_setSlot_ne (s : State) (n : Nat) (x : Slot) {j : Nat} (h : j ≠ n) : (s.setSlot n x).slot j = s.slot j := FMap.get_set_ne h

@[simp] theorem State.respond_fields (s : State) (v : Nat) :
    (s.respond v).variant = s.variant ∧ (s.respond v).split = s.split ∧ (s.respond v).bootSplit = s.bootSplit ∧
    (s.respond v).rate = s.rate ∧ (s.respond v).frac = s.frac ∧ (s.respond v).time = s.time ∧ (s.respond v).up = s.up ∧
    (s.respond v).regs = s.regs ∧ (s.respond v).mem = s.mem ∧ (s.respond v).err = s.err ∧ (s.respond v).units = s.units ∧
    (s.respond v).po = s.po ∧ (s.respond v).img = s.img ∧ (s.respond v).imgSlot = s.imgSlot ∧
    (s.respond v).fallback = s.fallback ∧ (s.respond v).icheck = s.icheck ∧ (s.respond v).fcheck = s.fcheck ∧
    (s.respond v).nvs = s.nvs ∧ (s.respond v).eng = s.eng ∧ (s.respond v).mdl = s.mdl ∧ (s.respond v).gf = s.gf ∧
    (s.respond v).rnd = s.rnd ∧ (s.respond v).pos = s.pos ∧ (s.respond v).sent = s.sent ∧ (s.respond v).tra = s.tra ∧
    (s.respond v).chg = s.chg ∧ (s.respond v).hlv = s.hlv ∧ (s.respond v).rgl = s.rgl ∧ (s.respond v).act = s.act ∧
    (s.respond v).gbx = s.gbx ∧ (s.respond v).ldg = s.ldg ∧ (s.respond v).cores = s.cores ∧ (s.respond v).lsc = s.lsc ∧
    (s.respond v).ssm = s.ssm ∧ (s.respond v).rst = s.rst ∧ (s.respond v).evc = s.evc ∧ (s.respond v).driveEn = s.driveEn ∧
    (s.respond v).actEn = s.actEn ∧ (s.respond v).aon = s.aon ∧ (s.respond v).pads = s.pads ∧ (s.respond v).thm = s.thm ∧
    (s.respond v).can = s.can ∧ (s.respond v).eth = s.eth ∧ (s.respond v).sec = s.sec ∧ (s.respond v).dbg = s.dbg ∧
    (s.respond v).pins = s.pins ∧ (s.respond v).recovery = s.recovery ∧ (s.respond v).restFail = s.restFail ∧
    (s.respond v).memCap = s.memCap ∧ (s.respond v).mramClosed = s.mramClosed ∧ (s.respond v).linkTries = s.linkTries ∧
    (s.respond v).tick = s.tick ∧ (s.respond v).pending = s.pending :=
  by repeat' first | rfl | refine ⟨rfl, ?_⟩
@[simp] theorem State.ust_respond (s : State) (v : Nat) (u : Nat) : (s.respond v).ust u = s.ust u := rfl
@[simp] theorem State.reg_respond (s : State) (v : Nat) (r : Nat) : (s.respond v).reg r = s.reg r := rfl

@[simp] theorem State.updE_fields (s : State) (n : Nat) (g : Engine → Engine) :
    (s.updE n g).variant = s.variant ∧ (s.updE n g).split = s.split ∧ (s.updE n g).bootSplit = s.bootSplit ∧
    (s.updE n g).rate = s.rate ∧ (s.updE n g).frac = s.frac ∧ (s.updE n g).time = s.time ∧ (s.updE n g).up = s.up ∧
    (s.updE n g).regs = s.regs ∧ (s.updE n g).mem = s.mem ∧ (s.updE n g).err = s.err ∧ (s.updE n g).units = s.units ∧
    (s.updE n g).po = s.po ∧ (s.updE n g).img = s.img ∧ (s.updE n g).imgSlot = s.imgSlot ∧ (s.updE n g).fallback = s.fallback ∧
    (s.updE n g).icheck = s.icheck ∧ (s.updE n g).fcheck = s.fcheck ∧ (s.updE n g).nvs = s.nvs ∧ (s.updE n g).mdl = s.mdl ∧
    (s.updE n g).gf = s.gf ∧ (s.updE n g).rnd = s.rnd ∧ (s.updE n g).pos = s.pos ∧ (s.updE n g).sent = s.sent ∧
    (s.updE n g).tra = s.tra ∧ (s.updE n g).chg = s.chg ∧ (s.updE n g).hlv = s.hlv ∧ (s.updE n g).rgl = s.rgl ∧
    (s.updE n g).act = s.act ∧ (s.updE n g).gbx = s.gbx ∧ (s.updE n g).ldg = s.ldg ∧ (s.updE n g).cores = s.cores ∧
    (s.updE n g).lsc = s.lsc ∧ (s.updE n g).ssm = s.ssm ∧ (s.updE n g).rst = s.rst ∧ (s.updE n g).evc = s.evc ∧
    (s.updE n g).driveEn = s.driveEn ∧ (s.updE n g).actEn = s.actEn ∧ (s.updE n g).aon = s.aon ∧ (s.updE n g).pads = s.pads ∧
    (s.updE n g).thm = s.thm ∧ (s.updE n g).can = s.can ∧ (s.updE n g).eth = s.eth ∧ (s.updE n g).sec = s.sec ∧
    (s.updE n g).dbg = s.dbg ∧ (s.updE n g).pins = s.pins ∧ (s.updE n g).recovery = s.recovery ∧
    (s.updE n g).restFail = s.restFail ∧ (s.updE n g).memCap = s.memCap ∧ (s.updE n g).mramClosed = s.mramClosed ∧
    (s.updE n g).linkTries = s.linkTries ∧ (s.updE n g).resp = s.resp ∧ (s.updE n g).tick = s.tick ∧
    (s.updE n g).pending = s.pending :=
  by repeat' first | rfl | refine ⟨rfl, ?_⟩
@[simp] theorem State.ust_updE (s : State) (n : Nat) (g : Engine → Engine) (u : Nat) : (s.updE n g).ust u = s.ust u := rfl
@[simp] theorem State.reg_updE (s : State) (n : Nat) (g : Engine → Engine) (r : Nat) : (s.updE n g).reg r = s.reg r := rfl
@[simp] theorem State.e_updE (s : State) (n : Nat) (g : Engine → Engine) : (s.updE n g).e n = g (s.e n) := FMap.get_set_same
theorem State.e_updE_ne (s : State) (n : Nat) (g : Engine → Engine) {j : Nat} (h : j ≠ n) : (s.updE n g).e j = s.e j := FMap.get_set_ne h

@[simp] theorem State.updTr_fields (s : State) (n : Nat) (g : TraSt → TraSt) :
    (s.updTr n g).variant = s.variant ∧ (s.updTr n g).split = s.split ∧ (s.updTr n g).bootSplit = s.bootSplit ∧
    (s.updTr n g).rate = s.rate ∧ (s.updTr n g).frac = s.frac ∧ (s.updTr n g).time = s.time ∧ (s.updTr n g).up = s.up ∧
    (s.updTr n g).regs = s.regs ∧ (s.updTr n g).mem = s.mem ∧ (s.updTr n g).err = s.err ∧ (s.updTr n g).units = s.units ∧
    (s.updTr n g).po = s.po ∧ (s.updTr n g).img = s.img ∧ (s.updTr n g).imgSlot = s.imgSlot ∧
    (s.updTr n g).fallback = s.fallback ∧ (s.updTr n g).icheck = s.icheck ∧ (s.updTr n g).fcheck = s.fcheck ∧
    (s.updTr n g).nvs = s.nvs ∧ (s.updTr n g).eng = s.eng ∧ (s.updTr n g).mdl = s.mdl ∧ (s.updTr n g).gf = s.gf ∧
    (s.updTr n g).rnd = s.rnd ∧ (s.updTr n g).pos = s.pos ∧ (s.updTr n g).sent = s.sent ∧ (s.updTr n g).chg = s.chg ∧
    (s.updTr n g).hlv = s.hlv ∧ (s.updTr n g).rgl = s.rgl ∧ (s.updTr n g).act = s.act ∧ (s.updTr n g).gbx = s.gbx ∧
    (s.updTr n g).ldg = s.ldg ∧ (s.updTr n g).cores = s.cores ∧ (s.updTr n g).lsc = s.lsc ∧ (s.updTr n g).ssm = s.ssm ∧
    (s.updTr n g).rst = s.rst ∧ (s.updTr n g).evc = s.evc ∧ (s.updTr n g).driveEn = s.driveEn ∧ (s.updTr n g).actEn = s.actEn ∧
    (s.updTr n g).aon = s.aon ∧ (s.updTr n g).pads = s.pads ∧ (s.updTr n g).thm = s.thm ∧ (s.updTr n g).can = s.can ∧
    (s.updTr n g).eth = s.eth ∧ (s.updTr n g).sec = s.sec ∧ (s.updTr n g).dbg = s.dbg ∧ (s.updTr n g).pins = s.pins ∧
    (s.updTr n g).recovery = s.recovery ∧ (s.updTr n g).restFail = s.restFail ∧ (s.updTr n g).memCap = s.memCap ∧
    (s.updTr n g).mramClosed = s.mramClosed ∧ (s.updTr n g).linkTries = s.linkTries ∧ (s.updTr n g).resp = s.resp ∧
    (s.updTr n g).tick = s.tick ∧ (s.updTr n g).pending = s.pending :=
  by repeat' first | rfl | refine ⟨rfl, ?_⟩
@[simp] theorem State.ust_updTr (s : State) (n : Nat) (g : TraSt → TraSt) (u : Nat) : (s.updTr n g).ust u = s.ust u := rfl
@[simp] theorem State.reg_updTr (s : State) (n : Nat) (g : TraSt → TraSt) (r : Nat) : (s.updTr n g).reg r = s.reg r := rfl
@[simp] theorem State.tr_updTr (s : State) (n : Nat) (g : TraSt → TraSt) : (s.updTr n g).tr n = g (s.tr n) := FMap.get_set_same
theorem State.tr_updTr_ne (s : State) (n : Nat) (g : TraSt → TraSt) {j : Nat} (h : j ≠ n) : (s.updTr n g).tr j = s.tr j := FMap.get_set_ne h

@[simp] theorem State.updHl_fields (s : State) (n : Nat) (g : HlvSt → HlvSt) :
    (s.updHl n g).variant = s.variant ∧ (s.updHl n g).split = s.split ∧ (s.updHl n g).bootSplit = s.bootSplit ∧
    (s.updHl n g).rate = s.rate ∧ (s.updHl n g).frac = s.frac ∧ (s.updHl n g).time = s.time ∧ (s.updHl n g).up = s.up ∧
    (s.updHl n g).regs = s.regs ∧ (s.updHl n g).mem = s.mem ∧ (s.updHl n g).err = s.err ∧ (s.updHl n g).units = s.units ∧
    (s.updHl n g).po = s.po ∧ (s.updHl n g).img = s.img ∧ (s.updHl n g).imgSlot = s.imgSlot ∧
    (s.updHl n g).fallback = s.fallback ∧ (s.updHl n g).icheck = s.icheck ∧ (s.updHl n g).fcheck = s.fcheck ∧
    (s.updHl n g).nvs = s.nvs ∧ (s.updHl n g).eng = s.eng ∧ (s.updHl n g).mdl = s.mdl ∧ (s.updHl n g).gf = s.gf ∧
    (s.updHl n g).rnd = s.rnd ∧ (s.updHl n g).pos = s.pos ∧ (s.updHl n g).sent = s.sent ∧ (s.updHl n g).tra = s.tra ∧
    (s.updHl n g).chg = s.chg ∧ (s.updHl n g).rgl = s.rgl ∧ (s.updHl n g).act = s.act ∧ (s.updHl n g).gbx = s.gbx ∧
    (s.updHl n g).ldg = s.ldg ∧ (s.updHl n g).cores = s.cores ∧ (s.updHl n g).lsc = s.lsc ∧ (s.updHl n g).ssm = s.ssm ∧
    (s.updHl n g).rst = s.rst ∧ (s.updHl n g).evc = s.evc ∧ (s.updHl n g).driveEn = s.driveEn ∧ (s.updHl n g).actEn = s.actEn ∧
    (s.updHl n g).aon = s.aon ∧ (s.updHl n g).pads = s.pads ∧ (s.updHl n g).thm = s.thm ∧ (s.updHl n g).can = s.can ∧
    (s.updHl n g).eth = s.eth ∧ (s.updHl n g).sec = s.sec ∧ (s.updHl n g).dbg = s.dbg ∧ (s.updHl n g).pins = s.pins ∧
    (s.updHl n g).recovery = s.recovery ∧ (s.updHl n g).restFail = s.restFail ∧ (s.updHl n g).memCap = s.memCap ∧
    (s.updHl n g).mramClosed = s.mramClosed ∧ (s.updHl n g).linkTries = s.linkTries ∧ (s.updHl n g).resp = s.resp ∧
    (s.updHl n g).tick = s.tick ∧ (s.updHl n g).pending = s.pending :=
  by repeat' first | rfl | refine ⟨rfl, ?_⟩
@[simp] theorem State.ust_updHl (s : State) (n : Nat) (g : HlvSt → HlvSt) (u : Nat) : (s.updHl n g).ust u = s.ust u := rfl
@[simp] theorem State.reg_updHl (s : State) (n : Nat) (g : HlvSt → HlvSt) (r : Nat) : (s.updHl n g).reg r = s.reg r := rfl
@[simp] theorem State.hl_updHl (s : State) (n : Nat) (g : HlvSt → HlvSt) : (s.updHl n g).hl n = g (s.hl n) := FMap.get_set_same
theorem State.hl_updHl_ne (s : State) (n : Nat) (g : HlvSt → HlvSt) {j : Nat} (h : j ≠ n) : (s.updHl n g).hl j = s.hl j := FMap.get_set_ne h

@[simp] theorem State.updLeg_fields (s : State) (n : Nat) (g : LegSt → LegSt) :
    (s.updLeg n g).variant = s.variant ∧ (s.updLeg n g).split = s.split ∧ (s.updLeg n g).bootSplit = s.bootSplit ∧
    (s.updLeg n g).rate = s.rate ∧ (s.updLeg n g).frac = s.frac ∧ (s.updLeg n g).time = s.time ∧ (s.updLeg n g).up = s.up ∧
    (s.updLeg n g).regs = s.regs ∧ (s.updLeg n g).mem = s.mem ∧ (s.updLeg n g).err = s.err ∧ (s.updLeg n g).units = s.units ∧
    (s.updLeg n g).po = s.po ∧ (s.updLeg n g).img = s.img ∧ (s.updLeg n g).imgSlot = s.imgSlot ∧
    (s.updLeg n g).fallback = s.fallback ∧ (s.updLeg n g).icheck = s.icheck ∧ (s.updLeg n g).fcheck = s.fcheck ∧
    (s.updLeg n g).nvs = s.nvs ∧ (s.updLeg n g).eng = s.eng ∧ (s.updLeg n g).gf = s.gf ∧ (s.updLeg n g).rnd = s.rnd ∧
    (s.updLeg n g).pos = s.pos ∧ (s.updLeg n g).sent = s.sent ∧ (s.updLeg n g).tra = s.tra ∧ (s.updLeg n g).chg = s.chg ∧
    (s.updLeg n g).hlv = s.hlv ∧ (s.updLeg n g).rgl = s.rgl ∧ (s.updLeg n g).act = s.act ∧ (s.updLeg n g).gbx = s.gbx ∧
    (s.updLeg n g).ldg = s.ldg ∧ (s.updLeg n g).cores = s.cores ∧ (s.updLeg n g).lsc = s.lsc ∧ (s.updLeg n g).ssm = s.ssm ∧
    (s.updLeg n g).rst = s.rst ∧ (s.updLeg n g).evc = s.evc ∧ (s.updLeg n g).driveEn = s.driveEn ∧
    (s.updLeg n g).actEn = s.actEn ∧ (s.updLeg n g).aon = s.aon ∧ (s.updLeg n g).pads = s.pads ∧ (s.updLeg n g).thm = s.thm ∧
    (s.updLeg n g).can = s.can ∧ (s.updLeg n g).eth = s.eth ∧ (s.updLeg n g).sec = s.sec ∧ (s.updLeg n g).dbg = s.dbg ∧
    (s.updLeg n g).pins = s.pins ∧ (s.updLeg n g).recovery = s.recovery ∧ (s.updLeg n g).restFail = s.restFail ∧
    (s.updLeg n g).memCap = s.memCap ∧ (s.updLeg n g).mramClosed = s.mramClosed ∧ (s.updLeg n g).linkTries = s.linkTries ∧
    (s.updLeg n g).resp = s.resp ∧ (s.updLeg n g).tick = s.tick ∧ (s.updLeg n g).pending = s.pending :=
  by repeat' first | rfl | refine ⟨rfl, ?_⟩
@[simp] theorem State.ust_updLeg (s : State) (n : Nat) (g : LegSt → LegSt) (u : Nat) : (s.updLeg n g).ust u = s.ust u := rfl
@[simp] theorem State.reg_updLeg (s : State) (n : Nat) (g : LegSt → LegSt) (r : Nat) : (s.updLeg n g).reg r = s.reg r := rfl
@[simp] theorem State.leg_updLeg (s : State) (n : Nat) (g : LegSt → LegSt) : (s.updLeg n g).leg n = g (s.leg n) := FMap.get_set_same
theorem State.leg_updLeg_ne (s : State) (n : Nat) (g : LegSt → LegSt) {j : Nat} (h : j ≠ n) : (s.updLeg n g).leg j = s.leg j := FMap.get_set_ne h

@[simp] theorem State.setShadow_fields (s : State) (n : Nat) (v : Option Int) :
    (s.setShadow n v).variant = s.variant ∧ (s.setShadow n v).split = s.split ∧ (s.setShadow n v).bootSplit = s.bootSplit ∧
    (s.setShadow n v).rate = s.rate ∧ (s.setShadow n v).frac = s.frac ∧ (s.setShadow n v).time = s.time ∧
    (s.setShadow n v).up = s.up ∧ (s.setShadow n v).regs = s.regs ∧ (s.setShadow n v).mem = s.mem ∧
    (s.setShadow n v).err = s.err ∧ (s.setShadow n v).units = s.units ∧ (s.setShadow n v).po = s.po ∧
    (s.setShadow n v).img = s.img ∧ (s.setShadow n v).imgSlot = s.imgSlot ∧ (s.setShadow n v).fallback = s.fallback ∧
    (s.setShadow n v).icheck = s.icheck ∧ (s.setShadow n v).fcheck = s.fcheck ∧ (s.setShadow n v).nvs = s.nvs ∧
    (s.setShadow n v).eng = s.eng ∧ (s.setShadow n v).gf = s.gf ∧ (s.setShadow n v).rnd = s.rnd ∧ (s.setShadow n v).pos = s.pos ∧
    (s.setShadow n v).sent = s.sent ∧ (s.setShadow n v).tra = s.tra ∧ (s.setShadow n v).chg = s.chg ∧
    (s.setShadow n v).hlv = s.hlv ∧ (s.setShadow n v).rgl = s.rgl ∧ (s.setShadow n v).act = s.act ∧
    (s.setShadow n v).gbx = s.gbx ∧ (s.setShadow n v).ldg = s.ldg ∧ (s.setShadow n v).cores = s.cores ∧
    (s.setShadow n v).lsc = s.lsc ∧ (s.setShadow n v).ssm = s.ssm ∧ (s.setShadow n v).rst = s.rst ∧
    (s.setShadow n v).evc = s.evc ∧ (s.setShadow n v).driveEn = s.driveEn ∧ (s.setShadow n v).actEn = s.actEn ∧
    (s.setShadow n v).aon = s.aon ∧ (s.setShadow n v).pads = s.pads ∧ (s.setShadow n v).thm = s.thm ∧
    (s.setShadow n v).can = s.can ∧ (s.setShadow n v).eth = s.eth ∧ (s.setShadow n v).sec = s.sec ∧
    (s.setShadow n v).dbg = s.dbg ∧ (s.setShadow n v).pins = s.pins ∧ (s.setShadow n v).recovery = s.recovery ∧
    (s.setShadow n v).restFail = s.restFail ∧ (s.setShadow n v).memCap = s.memCap ∧ (s.setShadow n v).mramClosed = s.mramClosed ∧
    (s.setShadow n v).linkTries = s.linkTries ∧ (s.setShadow n v).resp = s.resp ∧ (s.setShadow n v).tick = s.tick ∧
    (s.setShadow n v).pending = s.pending :=
  by repeat' first | rfl | refine ⟨rfl, ?_⟩
@[simp] theorem State.ust_setShadow (s : State) (n : Nat) (v : Option Int) (u : Nat) : (s.setShadow n v).ust u = s.ust u := rfl
@[simp] theorem State.reg_setShadow (s : State) (n : Nat) (v : Option Int) (r : Nat) : (s.setShadow n v).reg r = s.reg r := rfl
@[simp] theorem State.shadowOf_setShadow (s : State) (n : Nat) (v : Option Int) : (s.setShadow n v).shadowOf n = v := FMap.get_set_same
theorem State.shadowOf_setShadow_ne (s : State) (n : Nat) (v : Option Int) {j : Nat} (h : j ≠ n) : (s.setShadow n v).shadowOf j = s.shadowOf j := FMap.get_set_ne h

@[simp] theorem State.setDuty_fields (s : State) (n : Nat) (v : Option Int) :
    (s.setDuty n v).variant = s.variant ∧ (s.setDuty n v).split = s.split ∧ (s.setDuty n v).bootSplit = s.bootSplit ∧
    (s.setDuty n v).rate = s.rate ∧ (s.setDuty n v).frac = s.frac ∧ (s.setDuty n v).time = s.time ∧ (s.setDuty n v).up = s.up ∧
    (s.setDuty n v).regs = s.regs ∧ (s.setDuty n v).mem = s.mem ∧ (s.setDuty n v).err = s.err ∧ (s.setDuty n v).units = s.units ∧
    (s.setDuty n v).po = s.po ∧ (s.setDuty n v).img = s.img ∧ (s.setDuty n v).imgSlot = s.imgSlot ∧
    (s.setDuty n v).fallback = s.fallback ∧ (s.setDuty n v).icheck = s.icheck ∧ (s.setDuty n v).fcheck = s.fcheck ∧
    (s.setDuty n v).nvs = s.nvs ∧ (s.setDuty n v).eng = s.eng ∧ (s.setDuty n v).gf = s.gf ∧ (s.setDuty n v).rnd = s.rnd ∧
    (s.setDuty n v).pos = s.pos ∧ (s.setDuty n v).sent = s.sent ∧ (s.setDuty n v).tra = s.tra ∧ (s.setDuty n v).chg = s.chg ∧
    (s.setDuty n v).hlv = s.hlv ∧ (s.setDuty n v).rgl = s.rgl ∧ (s.setDuty n v).act = s.act ∧ (s.setDuty n v).gbx = s.gbx ∧
    (s.setDuty n v).ldg = s.ldg ∧ (s.setDuty n v).cores = s.cores ∧ (s.setDuty n v).lsc = s.lsc ∧ (s.setDuty n v).ssm = s.ssm ∧
    (s.setDuty n v).rst = s.rst ∧ (s.setDuty n v).evc = s.evc ∧ (s.setDuty n v).driveEn = s.driveEn ∧
    (s.setDuty n v).actEn = s.actEn ∧ (s.setDuty n v).aon = s.aon ∧ (s.setDuty n v).pads = s.pads ∧ (s.setDuty n v).thm = s.thm ∧
    (s.setDuty n v).can = s.can ∧ (s.setDuty n v).eth = s.eth ∧ (s.setDuty n v).sec = s.sec ∧ (s.setDuty n v).dbg = s.dbg ∧
    (s.setDuty n v).pins = s.pins ∧ (s.setDuty n v).recovery = s.recovery ∧ (s.setDuty n v).restFail = s.restFail ∧
    (s.setDuty n v).memCap = s.memCap ∧ (s.setDuty n v).mramClosed = s.mramClosed ∧ (s.setDuty n v).linkTries = s.linkTries ∧
    (s.setDuty n v).resp = s.resp ∧ (s.setDuty n v).tick = s.tick ∧ (s.setDuty n v).pending = s.pending :=
  by repeat' first | rfl | refine ⟨rfl, ?_⟩
@[simp] theorem State.ust_setDuty (s : State) (n : Nat) (v : Option Int) (u : Nat) : (s.setDuty n v).ust u = s.ust u := rfl
@[simp] theorem State.reg_setDuty (s : State) (n : Nat) (v : Option Int) (r : Nat) : (s.setDuty n v).reg r = s.reg r := rfl
@[simp] theorem State.dutyOf_setDuty (s : State) (n : Nat) (v : Option Int) : (s.setDuty n v).dutyOf n = v := FMap.get_set_same
theorem State.dutyOf_setDuty_ne (s : State) (n : Nat) (v : Option Int) {j : Nat} (h : j ≠ n) : (s.setDuty n v).dutyOf j = s.dutyOf j := FMap.get_set_ne h

@[simp] theorem State.setEdges_fields (s : State) (n : Nat) (x : Edges) :
    (s.setEdges n x).variant = s.variant ∧ (s.setEdges n x).split = s.split ∧ (s.setEdges n x).bootSplit = s.bootSplit ∧
    (s.setEdges n x).rate = s.rate ∧ (s.setEdges n x).frac = s.frac ∧ (s.setEdges n x).time = s.time ∧
    (s.setEdges n x).up = s.up ∧ (s.setEdges n x).regs = s.regs ∧ (s.setEdges n x).mem = s.mem ∧ (s.setEdges n x).err = s.err ∧
    (s.setEdges n x).units = s.units ∧ (s.setEdges n x).po = s.po ∧ (s.setEdges n x).img = s.img ∧
    (s.setEdges n x).imgSlot = s.imgSlot ∧ (s.setEdges n x).fallback = s.fallback ∧ (s.setEdges n x).icheck = s.icheck ∧
    (s.setEdges n x).fcheck = s.fcheck ∧ (s.setEdges n x).nvs = s.nvs ∧ (s.setEdges n x).eng = s.eng ∧
    (s.setEdges n x).gf = s.gf ∧ (s.setEdges n x).rnd = s.rnd ∧ (s.setEdges n x).pos = s.pos ∧ (s.setEdges n x).sent = s.sent ∧
    (s.setEdges n x).tra = s.tra ∧ (s.setEdges n x).chg = s.chg ∧ (s.setEdges n x).hlv = s.hlv ∧ (s.setEdges n x).rgl = s.rgl ∧
    (s.setEdges n x).act = s.act ∧ (s.setEdges n x).gbx = s.gbx ∧ (s.setEdges n x).ldg = s.ldg ∧
    (s.setEdges n x).cores = s.cores ∧ (s.setEdges n x).lsc = s.lsc ∧ (s.setEdges n x).ssm = s.ssm ∧
    (s.setEdges n x).rst = s.rst ∧ (s.setEdges n x).evc = s.evc ∧ (s.setEdges n x).driveEn = s.driveEn ∧
    (s.setEdges n x).actEn = s.actEn ∧ (s.setEdges n x).aon = s.aon ∧ (s.setEdges n x).pads = s.pads ∧
    (s.setEdges n x).thm = s.thm ∧ (s.setEdges n x).can = s.can ∧ (s.setEdges n x).eth = s.eth ∧ (s.setEdges n x).sec = s.sec ∧
    (s.setEdges n x).dbg = s.dbg ∧ (s.setEdges n x).pins = s.pins ∧ (s.setEdges n x).recovery = s.recovery ∧
    (s.setEdges n x).restFail = s.restFail ∧ (s.setEdges n x).memCap = s.memCap ∧ (s.setEdges n x).mramClosed = s.mramClosed ∧
    (s.setEdges n x).linkTries = s.linkTries ∧ (s.setEdges n x).resp = s.resp ∧ (s.setEdges n x).tick = s.tick ∧
    (s.setEdges n x).pending = s.pending :=
  by repeat' first | rfl | refine ⟨rfl, ?_⟩
@[simp] theorem State.ust_setEdges (s : State) (n : Nat) (x : Edges) (u : Nat) : (s.setEdges n x).ust u = s.ust u := rfl
@[simp] theorem State.reg_setEdges (s : State) (n : Nat) (x : Edges) (r : Nat) : (s.setEdges n x).reg r = s.reg r := rfl
@[simp] theorem State.edgesOf_setEdges (s : State) (n : Nat) (x : Edges) : (s.setEdges n x).edgesOf n = x := FMap.get_set_same
theorem State.edgesOf_setEdges_ne (s : State) (n : Nat) (x : Edges) {j : Nat} (h : j ≠ n) : (s.setEdges n x).edgesOf j = s.edgesOf j := FMap.get_set_ne h

@[simp] theorem State.updGl_fields (s : State) (n : Nat) (g : GlLink → GlLink) :
    (s.updGl n g).variant = s.variant ∧ (s.updGl n g).split = s.split ∧ (s.updGl n g).bootSplit = s.bootSplit ∧
    (s.updGl n g).rate = s.rate ∧ (s.updGl n g).frac = s.frac ∧ (s.updGl n g).time = s.time ∧ (s.updGl n g).up = s.up ∧
    (s.updGl n g).regs = s.regs ∧ (s.updGl n g).mem = s.mem ∧ (s.updGl n g).err = s.err ∧ (s.updGl n g).units = s.units ∧
    (s.updGl n g).po = s.po ∧ (s.updGl n g).img = s.img ∧ (s.updGl n g).imgSlot = s.imgSlot ∧
    (s.updGl n g).fallback = s.fallback ∧ (s.updGl n g).icheck = s.icheck ∧ (s.updGl n g).fcheck = s.fcheck ∧
    (s.updGl n g).nvs = s.nvs ∧ (s.updGl n g).eng = s.eng ∧ (s.updGl n g).gf = s.gf ∧ (s.updGl n g).rnd = s.rnd ∧
    (s.updGl n g).pos = s.pos ∧ (s.updGl n g).sent = s.sent ∧ (s.updGl n g).tra = s.tra ∧ (s.updGl n g).chg = s.chg ∧
    (s.updGl n g).hlv = s.hlv ∧ (s.updGl n g).rgl = s.rgl ∧ (s.updGl n g).act = s.act ∧ (s.updGl n g).gbx = s.gbx ∧
    (s.updGl n g).ldg = s.ldg ∧ (s.updGl n g).cores = s.cores ∧ (s.updGl n g).lsc = s.lsc ∧ (s.updGl n g).ssm = s.ssm ∧
    (s.updGl n g).rst = s.rst ∧ (s.updGl n g).evc = s.evc ∧ (s.updGl n g).driveEn = s.driveEn ∧ (s.updGl n g).actEn = s.actEn ∧
    (s.updGl n g).aon = s.aon ∧ (s.updGl n g).pads = s.pads ∧ (s.updGl n g).thm = s.thm ∧ (s.updGl n g).can = s.can ∧
    (s.updGl n g).eth = s.eth ∧ (s.updGl n g).sec = s.sec ∧ (s.updGl n g).dbg = s.dbg ∧ (s.updGl n g).pins = s.pins ∧
    (s.updGl n g).recovery = s.recovery ∧ (s.updGl n g).restFail = s.restFail ∧ (s.updGl n g).memCap = s.memCap ∧
    (s.updGl n g).mramClosed = s.mramClosed ∧ (s.updGl n g).linkTries = s.linkTries ∧ (s.updGl n g).resp = s.resp ∧
    (s.updGl n g).tick = s.tick ∧ (s.updGl n g).pending = s.pending :=
  by repeat' first | rfl | refine ⟨rfl, ?_⟩
@[simp] theorem State.ust_updGl (s : State) (n : Nat) (g : GlLink → GlLink) (u : Nat) : (s.updGl n g).ust u = s.ust u := rfl
@[simp] theorem State.reg_updGl (s : State) (n : Nat) (g : GlLink → GlLink) (r : Nat) : (s.updGl n g).reg r = s.reg r := rfl
@[simp] theorem State.glLink_updGl (s : State) (n : Nat) (g : GlLink → GlLink) : (s.updGl n g).glLink n = g (s.glLink n) := FMap.get_set_same
theorem State.glLink_updGl_ne (s : State) (n : Nat) (g : GlLink → GlLink) {j : Nat} (h : j ≠ n) : (s.updGl n g).glLink j = s.glLink j := FMap.get_set_ne h

@[simp] theorem State.updLnk_fields (s : State) (n : Nat) (g : LinkSt → LinkSt) :
    (s.updLnk n g).variant = s.variant ∧ (s.updLnk n g).split = s.split ∧ (s.updLnk n g).bootSplit = s.bootSplit ∧
    (s.updLnk n g).rate = s.rate ∧ (s.updLnk n g).frac = s.frac ∧ (s.updLnk n g).time = s.time ∧ (s.updLnk n g).up = s.up ∧
    (s.updLnk n g).regs = s.regs ∧ (s.updLnk n g).mem = s.mem ∧ (s.updLnk n g).err = s.err ∧ (s.updLnk n g).units = s.units ∧
    (s.updLnk n g).po = s.po ∧ (s.updLnk n g).img = s.img ∧ (s.updLnk n g).imgSlot = s.imgSlot ∧
    (s.updLnk n g).fallback = s.fallback ∧ (s.updLnk n g).icheck = s.icheck ∧ (s.updLnk n g).fcheck = s.fcheck ∧
    (s.updLnk n g).nvs = s.nvs ∧ (s.updLnk n g).eng = s.eng ∧ (s.updLnk n g).mdl = s.mdl ∧ (s.updLnk n g).gf = s.gf ∧
    (s.updLnk n g).rnd = s.rnd ∧ (s.updLnk n g).pos = s.pos ∧ (s.updLnk n g).sent = s.sent ∧ (s.updLnk n g).tra = s.tra ∧
    (s.updLnk n g).chg = s.chg ∧ (s.updLnk n g).hlv = s.hlv ∧ (s.updLnk n g).rgl = s.rgl ∧ (s.updLnk n g).act = s.act ∧
    (s.updLnk n g).gbx = s.gbx ∧ (s.updLnk n g).cores = s.cores ∧ (s.updLnk n g).lsc = s.lsc ∧ (s.updLnk n g).ssm = s.ssm ∧
    (s.updLnk n g).rst = s.rst ∧ (s.updLnk n g).evc = s.evc ∧ (s.updLnk n g).driveEn = s.driveEn ∧
    (s.updLnk n g).actEn = s.actEn ∧ (s.updLnk n g).aon = s.aon ∧ (s.updLnk n g).pads = s.pads ∧ (s.updLnk n g).thm = s.thm ∧
    (s.updLnk n g).can = s.can ∧ (s.updLnk n g).eth = s.eth ∧ (s.updLnk n g).sec = s.sec ∧ (s.updLnk n g).dbg = s.dbg ∧
    (s.updLnk n g).pins = s.pins ∧ (s.updLnk n g).recovery = s.recovery ∧ (s.updLnk n g).restFail = s.restFail ∧
    (s.updLnk n g).memCap = s.memCap ∧ (s.updLnk n g).mramClosed = s.mramClosed ∧ (s.updLnk n g).linkTries = s.linkTries ∧
    (s.updLnk n g).resp = s.resp ∧ (s.updLnk n g).tick = s.tick ∧ (s.updLnk n g).pending = s.pending :=
  by repeat' first | rfl | refine ⟨rfl, ?_⟩
@[simp] theorem State.ust_updLnk (s : State) (n : Nat) (g : LinkSt → LinkSt) (u : Nat) : (s.updLnk n g).ust u = s.ust u := rfl
@[simp] theorem State.reg_updLnk (s : State) (n : Nat) (g : LinkSt → LinkSt) (r : Nat) : (s.updLnk n g).reg r = s.reg r := rfl
@[simp] theorem State.lnk_updLnk (s : State) (n : Nat) (g : LinkSt → LinkSt) : (s.updLnk n g).lnk n = g (s.lnk n) := FMap.get_set_same
theorem State.lnk_updLnk_ne (s : State) (n : Nat) (g : LinkSt → LinkSt) {j : Nat} (h : j ≠ n) : (s.updLnk n g).lnk j = s.lnk j := FMap.get_set_ne h

@[simp] theorem State.updPrt_fields (s : State) (n : Nat) (g : PortSt → PortSt) :
    (s.updPrt n g).variant = s.variant ∧ (s.updPrt n g).split = s.split ∧ (s.updPrt n g).bootSplit = s.bootSplit ∧
    (s.updPrt n g).rate = s.rate ∧ (s.updPrt n g).frac = s.frac ∧ (s.updPrt n g).time = s.time ∧ (s.updPrt n g).up = s.up ∧
    (s.updPrt n g).regs = s.regs ∧ (s.updPrt n g).mem = s.mem ∧ (s.updPrt n g).err = s.err ∧ (s.updPrt n g).units = s.units ∧
    (s.updPrt n g).po = s.po ∧ (s.updPrt n g).img = s.img ∧ (s.updPrt n g).imgSlot = s.imgSlot ∧
    (s.updPrt n g).fallback = s.fallback ∧ (s.updPrt n g).icheck = s.icheck ∧ (s.updPrt n g).fcheck = s.fcheck ∧
    (s.updPrt n g).nvs = s.nvs ∧ (s.updPrt n g).eng = s.eng ∧ (s.updPrt n g).mdl = s.mdl ∧ (s.updPrt n g).gf = s.gf ∧
    (s.updPrt n g).rnd = s.rnd ∧ (s.updPrt n g).pos = s.pos ∧ (s.updPrt n g).sent = s.sent ∧ (s.updPrt n g).tra = s.tra ∧
    (s.updPrt n g).chg = s.chg ∧ (s.updPrt n g).hlv = s.hlv ∧ (s.updPrt n g).rgl = s.rgl ∧ (s.updPrt n g).act = s.act ∧
    (s.updPrt n g).gbx = s.gbx ∧ (s.updPrt n g).cores = s.cores ∧ (s.updPrt n g).lsc = s.lsc ∧ (s.updPrt n g).ssm = s.ssm ∧
    (s.updPrt n g).rst = s.rst ∧ (s.updPrt n g).evc = s.evc ∧ (s.updPrt n g).driveEn = s.driveEn ∧
    (s.updPrt n g).actEn = s.actEn ∧ (s.updPrt n g).aon = s.aon ∧ (s.updPrt n g).pads = s.pads ∧ (s.updPrt n g).thm = s.thm ∧
    (s.updPrt n g).can = s.can ∧ (s.updPrt n g).eth = s.eth ∧ (s.updPrt n g).sec = s.sec ∧ (s.updPrt n g).dbg = s.dbg ∧
    (s.updPrt n g).pins = s.pins ∧ (s.updPrt n g).recovery = s.recovery ∧ (s.updPrt n g).restFail = s.restFail ∧
    (s.updPrt n g).memCap = s.memCap ∧ (s.updPrt n g).mramClosed = s.mramClosed ∧ (s.updPrt n g).linkTries = s.linkTries ∧
    (s.updPrt n g).resp = s.resp ∧ (s.updPrt n g).tick = s.tick ∧ (s.updPrt n g).pending = s.pending :=
  by repeat' first | rfl | refine ⟨rfl, ?_⟩
@[simp] theorem State.ust_updPrt (s : State) (n : Nat) (g : PortSt → PortSt) (u : Nat) : (s.updPrt n g).ust u = s.ust u := rfl
@[simp] theorem State.reg_updPrt (s : State) (n : Nat) (g : PortSt → PortSt) (r : Nat) : (s.updPrt n g).reg r = s.reg r := rfl
@[simp] theorem State.prt_updPrt (s : State) (n : Nat) (g : PortSt → PortSt) : (s.updPrt n g).prt n = g (s.prt n) := FMap.get_set_same
theorem State.prt_updPrt_ne (s : State) (n : Nat) (g : PortSt → PortSt) {j : Nat} (h : j ≠ n) : (s.updPrt n g).prt j = s.prt j := FMap.get_set_ne h

@[simp] theorem State.updFp_fields (s : State) (n : Nat) (g : FnPow → FnPow) :
    (s.updFp n g).variant = s.variant ∧ (s.updFp n g).split = s.split ∧ (s.updFp n g).bootSplit = s.bootSplit ∧
    (s.updFp n g).rate = s.rate ∧ (s.updFp n g).frac = s.frac ∧ (s.updFp n g).time = s.time ∧ (s.updFp n g).up = s.up ∧
    (s.updFp n g).regs = s.regs ∧ (s.updFp n g).mem = s.mem ∧ (s.updFp n g).err = s.err ∧ (s.updFp n g).units = s.units ∧
    (s.updFp n g).po = s.po ∧ (s.updFp n g).img = s.img ∧ (s.updFp n g).imgSlot = s.imgSlot ∧
    (s.updFp n g).fallback = s.fallback ∧ (s.updFp n g).icheck = s.icheck ∧ (s.updFp n g).fcheck = s.fcheck ∧
    (s.updFp n g).nvs = s.nvs ∧ (s.updFp n g).eng = s.eng ∧ (s.updFp n g).mdl = s.mdl ∧ (s.updFp n g).gf = s.gf ∧
    (s.updFp n g).rnd = s.rnd ∧ (s.updFp n g).pos = s.pos ∧ (s.updFp n g).sent = s.sent ∧ (s.updFp n g).tra = s.tra ∧
    (s.updFp n g).chg = s.chg ∧ (s.updFp n g).hlv = s.hlv ∧ (s.updFp n g).rgl = s.rgl ∧ (s.updFp n g).act = s.act ∧
    (s.updFp n g).gbx = s.gbx ∧ (s.updFp n g).cores = s.cores ∧ (s.updFp n g).lsc = s.lsc ∧ (s.updFp n g).ssm = s.ssm ∧
    (s.updFp n g).rst = s.rst ∧ (s.updFp n g).evc = s.evc ∧ (s.updFp n g).driveEn = s.driveEn ∧ (s.updFp n g).actEn = s.actEn ∧
    (s.updFp n g).aon = s.aon ∧ (s.updFp n g).pads = s.pads ∧ (s.updFp n g).thm = s.thm ∧ (s.updFp n g).can = s.can ∧
    (s.updFp n g).eth = s.eth ∧ (s.updFp n g).sec = s.sec ∧ (s.updFp n g).dbg = s.dbg ∧ (s.updFp n g).pins = s.pins ∧
    (s.updFp n g).recovery = s.recovery ∧ (s.updFp n g).restFail = s.restFail ∧ (s.updFp n g).memCap = s.memCap ∧
    (s.updFp n g).mramClosed = s.mramClosed ∧ (s.updFp n g).linkTries = s.linkTries ∧ (s.updFp n g).resp = s.resp ∧
    (s.updFp n g).tick = s.tick ∧ (s.updFp n g).pending = s.pending :=
  by repeat' first | rfl | refine ⟨rfl, ?_⟩
@[simp] theorem State.ust_updFp (s : State) (n : Nat) (g : FnPow → FnPow) (u : Nat) : (s.updFp n g).ust u = s.ust u := rfl
@[simp] theorem State.reg_updFp (s : State) (n : Nat) (g : FnPow → FnPow) (r : Nat) : (s.updFp n g).reg r = s.reg r := rfl
@[simp] theorem State.fp_updFp (s : State) (n : Nat) (g : FnPow → FnPow) : (s.updFp n g).fp n = g (s.fp n) := FMap.get_set_same
theorem State.fp_updFp_ne (s : State) (n : Nat) (g : FnPow → FnPow) {j : Nat} (h : j ≠ n) : (s.updFp n g).fp j = s.fp j := FMap.get_set_ne h

@[simp] theorem State.updAc_fields (s : State) (n : Nat) (g : ActSt → ActSt) :
    (s.updAc n g).variant = s.variant ∧ (s.updAc n g).split = s.split ∧ (s.updAc n g).bootSplit = s.bootSplit ∧
    (s.updAc n g).rate = s.rate ∧ (s.updAc n g).frac = s.frac ∧ (s.updAc n g).time = s.time ∧ (s.updAc n g).up = s.up ∧
    (s.updAc n g).regs = s.regs ∧ (s.updAc n g).mem = s.mem ∧ (s.updAc n g).err = s.err ∧ (s.updAc n g).units = s.units ∧
    (s.updAc n g).po = s.po ∧ (s.updAc n g).img = s.img ∧ (s.updAc n g).imgSlot = s.imgSlot ∧
    (s.updAc n g).fallback = s.fallback ∧ (s.updAc n g).icheck = s.icheck ∧ (s.updAc n g).fcheck = s.fcheck ∧
    (s.updAc n g).nvs = s.nvs ∧ (s.updAc n g).eng = s.eng ∧ (s.updAc n g).mdl = s.mdl ∧ (s.updAc n g).gf = s.gf ∧
    (s.updAc n g).rnd = s.rnd ∧ (s.updAc n g).pos = s.pos ∧ (s.updAc n g).sent = s.sent ∧ (s.updAc n g).tra = s.tra ∧
    (s.updAc n g).chg = s.chg ∧ (s.updAc n g).hlv = s.hlv ∧ (s.updAc n g).rgl = s.rgl ∧ (s.updAc n g).gbx = s.gbx ∧
    (s.updAc n g).ldg = s.ldg ∧ (s.updAc n g).cores = s.cores ∧ (s.updAc n g).lsc = s.lsc ∧ (s.updAc n g).ssm = s.ssm ∧
    (s.updAc n g).rst = s.rst ∧ (s.updAc n g).evc = s.evc ∧ (s.updAc n g).driveEn = s.driveEn ∧ (s.updAc n g).actEn = s.actEn ∧
    (s.updAc n g).aon = s.aon ∧ (s.updAc n g).pads = s.pads ∧ (s.updAc n g).thm = s.thm ∧ (s.updAc n g).can = s.can ∧
    (s.updAc n g).eth = s.eth ∧ (s.updAc n g).sec = s.sec ∧ (s.updAc n g).dbg = s.dbg ∧ (s.updAc n g).pins = s.pins ∧
    (s.updAc n g).recovery = s.recovery ∧ (s.updAc n g).restFail = s.restFail ∧ (s.updAc n g).memCap = s.memCap ∧
    (s.updAc n g).mramClosed = s.mramClosed ∧ (s.updAc n g).linkTries = s.linkTries ∧ (s.updAc n g).resp = s.resp ∧
    (s.updAc n g).tick = s.tick ∧ (s.updAc n g).pending = s.pending :=
  by repeat' first | rfl | refine ⟨rfl, ?_⟩
@[simp] theorem State.ust_updAc (s : State) (n : Nat) (g : ActSt → ActSt) (u : Nat) : (s.updAc n g).ust u = s.ust u := rfl
@[simp] theorem State.reg_updAc (s : State) (n : Nat) (g : ActSt → ActSt) (r : Nat) : (s.updAc n g).reg r = s.reg r := rfl
@[simp] theorem State.ac_updAc (s : State) (n : Nat) (g : ActSt → ActSt) : (s.updAc n g).ac n = g (s.ac n) := FMap.get_set_same
theorem State.ac_updAc_ne (s : State) (n : Nat) (g : ActSt → ActSt) {j : Nat} (h : j ≠ n) : (s.updAc n g).ac j = s.ac j := FMap.get_set_ne h

@[simp] theorem State.updGb_fields (s : State) (g : GbxSt → GbxSt) :
    (s.updGb g).variant = s.variant ∧ (s.updGb g).split = s.split ∧ (s.updGb g).bootSplit = s.bootSplit ∧
    (s.updGb g).rate = s.rate ∧ (s.updGb g).frac = s.frac ∧ (s.updGb g).time = s.time ∧ (s.updGb g).up = s.up ∧
    (s.updGb g).regs = s.regs ∧ (s.updGb g).mem = s.mem ∧ (s.updGb g).err = s.err ∧ (s.updGb g).units = s.units ∧
    (s.updGb g).po = s.po ∧ (s.updGb g).img = s.img ∧ (s.updGb g).imgSlot = s.imgSlot ∧ (s.updGb g).fallback = s.fallback ∧
    (s.updGb g).icheck = s.icheck ∧ (s.updGb g).fcheck = s.fcheck ∧ (s.updGb g).nvs = s.nvs ∧ (s.updGb g).eng = s.eng ∧
    (s.updGb g).mdl = s.mdl ∧ (s.updGb g).gf = s.gf ∧ (s.updGb g).rnd = s.rnd ∧ (s.updGb g).pos = s.pos ∧
    (s.updGb g).sent = s.sent ∧ (s.updGb g).tra = s.tra ∧ (s.updGb g).chg = s.chg ∧ (s.updGb g).hlv = s.hlv ∧
    (s.updGb g).rgl = s.rgl ∧ (s.updGb g).act = s.act ∧ (s.updGb g).ldg = s.ldg ∧ (s.updGb g).cores = s.cores ∧
    (s.updGb g).lsc = s.lsc ∧ (s.updGb g).ssm = s.ssm ∧ (s.updGb g).rst = s.rst ∧ (s.updGb g).evc = s.evc ∧
    (s.updGb g).driveEn = s.driveEn ∧ (s.updGb g).actEn = s.actEn ∧ (s.updGb g).aon = s.aon ∧ (s.updGb g).pads = s.pads ∧
    (s.updGb g).thm = s.thm ∧ (s.updGb g).can = s.can ∧ (s.updGb g).eth = s.eth ∧ (s.updGb g).sec = s.sec ∧
    (s.updGb g).dbg = s.dbg ∧ (s.updGb g).pins = s.pins ∧ (s.updGb g).recovery = s.recovery ∧ (s.updGb g).restFail = s.restFail ∧
    (s.updGb g).memCap = s.memCap ∧ (s.updGb g).mramClosed = s.mramClosed ∧ (s.updGb g).linkTries = s.linkTries ∧
    (s.updGb g).resp = s.resp ∧ (s.updGb g).tick = s.tick ∧ (s.updGb g).pending = s.pending :=
  by repeat' first | rfl | refine ⟨rfl, ?_⟩
@[simp] theorem State.ust_updGb (s : State) (g : GbxSt → GbxSt) (u : Nat) : (s.updGb g).ust u = s.ust u := rfl
@[simp] theorem State.reg_updGb (s : State) (g : GbxSt → GbxSt) (r : Nat) : (s.updGb g).reg r = s.reg r := rfl

@[simp] theorem State.updCh_fields (s : State) (g : ChgSt → ChgSt) :
    (s.updCh g).variant = s.variant ∧ (s.updCh g).split = s.split ∧ (s.updCh g).bootSplit = s.bootSplit ∧
    (s.updCh g).rate = s.rate ∧ (s.updCh g).frac = s.frac ∧ (s.updCh g).time = s.time ∧ (s.updCh g).up = s.up ∧
    (s.updCh g).regs = s.regs ∧ (s.updCh g).mem = s.mem ∧ (s.updCh g).err = s.err ∧ (s.updCh g).units = s.units ∧
    (s.updCh g).po = s.po ∧ (s.updCh g).img = s.img ∧ (s.updCh g).imgSlot = s.imgSlot ∧ (s.updCh g).fallback = s.fallback ∧
    (s.updCh g).icheck = s.icheck ∧ (s.updCh g).fcheck = s.fcheck ∧ (s.updCh g).nvs = s.nvs ∧ (s.updCh g).eng = s.eng ∧
    (s.updCh g).mdl = s.mdl ∧ (s.updCh g).gf = s.gf ∧ (s.updCh g).rnd = s.rnd ∧ (s.updCh g).pos = s.pos ∧
    (s.updCh g).sent = s.sent ∧ (s.updCh g).tra = s.tra ∧ (s.updCh g).hlv = s.hlv ∧ (s.updCh g).rgl = s.rgl ∧
    (s.updCh g).act = s.act ∧ (s.updCh g).gbx = s.gbx ∧ (s.updCh g).ldg = s.ldg ∧ (s.updCh g).cores = s.cores ∧
    (s.updCh g).lsc = s.lsc ∧ (s.updCh g).ssm = s.ssm ∧ (s.updCh g).rst = s.rst ∧ (s.updCh g).evc = s.evc ∧
    (s.updCh g).driveEn = s.driveEn ∧ (s.updCh g).actEn = s.actEn ∧ (s.updCh g).aon = s.aon ∧ (s.updCh g).pads = s.pads ∧
    (s.updCh g).thm = s.thm ∧ (s.updCh g).can = s.can ∧ (s.updCh g).eth = s.eth ∧ (s.updCh g).sec = s.sec ∧
    (s.updCh g).dbg = s.dbg ∧ (s.updCh g).pins = s.pins ∧ (s.updCh g).recovery = s.recovery ∧ (s.updCh g).restFail = s.restFail ∧
    (s.updCh g).memCap = s.memCap ∧ (s.updCh g).mramClosed = s.mramClosed ∧ (s.updCh g).linkTries = s.linkTries ∧
    (s.updCh g).resp = s.resp ∧ (s.updCh g).tick = s.tick ∧ (s.updCh g).pending = s.pending :=
  by repeat' first | rfl | refine ⟨rfl, ?_⟩
@[simp] theorem State.ust_updCh (s : State) (g : ChgSt → ChgSt) (u : Nat) : (s.updCh g).ust u = s.ust u := rfl
@[simp] theorem State.reg_updCh (s : State) (g : ChgSt → ChgSt) (r : Nat) : (s.updCh g).reg r = s.reg r := rfl

@[simp] theorem State.updRg_fields (s : State) (g : RegSt → RegSt) :
    (s.updRg g).variant = s.variant ∧ (s.updRg g).split = s.split ∧ (s.updRg g).bootSplit = s.bootSplit ∧
    (s.updRg g).rate = s.rate ∧ (s.updRg g).frac = s.frac ∧ (s.updRg g).time = s.time ∧ (s.updRg g).up = s.up ∧
    (s.updRg g).regs = s.regs ∧ (s.updRg g).mem = s.mem ∧ (s.updRg g).err = s.err ∧ (s.updRg g).units = s.units ∧
    (s.updRg g).po = s.po ∧ (s.updRg g).img = s.img ∧ (s.updRg g).imgSlot = s.imgSlot ∧ (s.updRg g).fallback = s.fallback ∧
    (s.updRg g).icheck = s.icheck ∧ (s.updRg g).fcheck = s.fcheck ∧ (s.updRg g).nvs = s.nvs ∧ (s.updRg g).eng = s.eng ∧
    (s.updRg g).mdl = s.mdl ∧ (s.updRg g).gf = s.gf ∧ (s.updRg g).rnd = s.rnd ∧ (s.updRg g).pos = s.pos ∧
    (s.updRg g).sent = s.sent ∧ (s.updRg g).tra = s.tra ∧ (s.updRg g).chg = s.chg ∧ (s.updRg g).hlv = s.hlv ∧
    (s.updRg g).act = s.act ∧ (s.updRg g).gbx = s.gbx ∧ (s.updRg g).ldg = s.ldg ∧ (s.updRg g).cores = s.cores ∧
    (s.updRg g).lsc = s.lsc ∧ (s.updRg g).ssm = s.ssm ∧ (s.updRg g).rst = s.rst ∧ (s.updRg g).evc = s.evc ∧
    (s.updRg g).driveEn = s.driveEn ∧ (s.updRg g).actEn = s.actEn ∧ (s.updRg g).aon = s.aon ∧ (s.updRg g).pads = s.pads ∧
    (s.updRg g).thm = s.thm ∧ (s.updRg g).can = s.can ∧ (s.updRg g).eth = s.eth ∧ (s.updRg g).sec = s.sec ∧
    (s.updRg g).dbg = s.dbg ∧ (s.updRg g).pins = s.pins ∧ (s.updRg g).recovery = s.recovery ∧ (s.updRg g).restFail = s.restFail ∧
    (s.updRg g).memCap = s.memCap ∧ (s.updRg g).mramClosed = s.mramClosed ∧ (s.updRg g).linkTries = s.linkTries ∧
    (s.updRg g).resp = s.resp ∧ (s.updRg g).tick = s.tick ∧ (s.updRg g).pending = s.pending :=
  by repeat' first | rfl | refine ⟨rfl, ?_⟩
@[simp] theorem State.ust_updRg (s : State) (g : RegSt → RegSt) (u : Nat) : (s.updRg g).ust u = s.ust u := rfl
@[simp] theorem State.reg_updRg (s : State) (g : RegSt → RegSt) (r : Nat) : (s.updRg g).reg r = s.reg r := rfl

@[simp] theorem State.setGf_fields (s : State) (n : Nat) (b : Bool) :
    (s.setGf n b).variant = s.variant ∧ (s.setGf n b).split = s.split ∧ (s.setGf n b).bootSplit = s.bootSplit ∧
    (s.setGf n b).rate = s.rate ∧ (s.setGf n b).frac = s.frac ∧ (s.setGf n b).time = s.time ∧ (s.setGf n b).up = s.up ∧
    (s.setGf n b).regs = s.regs ∧ (s.setGf n b).mem = s.mem ∧ (s.setGf n b).err = s.err ∧ (s.setGf n b).units = s.units ∧
    (s.setGf n b).po = s.po ∧ (s.setGf n b).img = s.img ∧ (s.setGf n b).imgSlot = s.imgSlot ∧
    (s.setGf n b).fallback = s.fallback ∧ (s.setGf n b).icheck = s.icheck ∧ (s.setGf n b).fcheck = s.fcheck ∧
    (s.setGf n b).nvs = s.nvs ∧ (s.setGf n b).eng = s.eng ∧ (s.setGf n b).mdl = s.mdl ∧ (s.setGf n b).rnd = s.rnd ∧
    (s.setGf n b).pos = s.pos ∧ (s.setGf n b).sent = s.sent ∧ (s.setGf n b).tra = s.tra ∧ (s.setGf n b).chg = s.chg ∧
    (s.setGf n b).hlv = s.hlv ∧ (s.setGf n b).rgl = s.rgl ∧ (s.setGf n b).act = s.act ∧ (s.setGf n b).gbx = s.gbx ∧
    (s.setGf n b).ldg = s.ldg ∧ (s.setGf n b).cores = s.cores ∧ (s.setGf n b).lsc = s.lsc ∧ (s.setGf n b).ssm = s.ssm ∧
    (s.setGf n b).rst = s.rst ∧ (s.setGf n b).evc = s.evc ∧ (s.setGf n b).driveEn = s.driveEn ∧ (s.setGf n b).actEn = s.actEn ∧
    (s.setGf n b).aon = s.aon ∧ (s.setGf n b).pads = s.pads ∧ (s.setGf n b).thm = s.thm ∧ (s.setGf n b).can = s.can ∧
    (s.setGf n b).eth = s.eth ∧ (s.setGf n b).sec = s.sec ∧ (s.setGf n b).dbg = s.dbg ∧ (s.setGf n b).pins = s.pins ∧
    (s.setGf n b).recovery = s.recovery ∧ (s.setGf n b).restFail = s.restFail ∧ (s.setGf n b).memCap = s.memCap ∧
    (s.setGf n b).mramClosed = s.mramClosed ∧ (s.setGf n b).linkTries = s.linkTries ∧ (s.setGf n b).resp = s.resp ∧
    (s.setGf n b).tick = s.tick ∧ (s.setGf n b).pending = s.pending :=
  by repeat' first | rfl | refine ⟨rfl, ?_⟩
@[simp] theorem State.ust_setGf (s : State) (n : Nat) (b : Bool) (u : Nat) : (s.setGf n b).ust u = s.ust u := rfl
@[simp] theorem State.reg_setGf (s : State) (n : Nat) (b : Bool) (r : Nat) : (s.setGf n b).reg r = s.reg r := rfl
@[simp] theorem State.gfHigh_setGf (s : State) (n : Nat) (b : Bool) : (s.setGf n b).gfHigh n = b := FMap.get_set_same
theorem State.gfHigh_setGf_ne (s : State) (n : Nat) (b : Bool) {j : Nat} (h : j ≠ n) : (s.setGf n b).gfHigh j = s.gfHigh j := FMap.get_set_ne h

@[simp] theorem State.setLatch_fields (s : State) (n c : Nat) :
    (s.setLatch n c).variant = s.variant ∧ (s.setLatch n c).split = s.split ∧ (s.setLatch n c).bootSplit = s.bootSplit ∧
    (s.setLatch n c).rate = s.rate ∧ (s.setLatch n c).frac = s.frac ∧ (s.setLatch n c).time = s.time ∧
    (s.setLatch n c).up = s.up ∧ (s.setLatch n c).regs = s.regs ∧ (s.setLatch n c).mem = s.mem ∧ (s.setLatch n c).err = s.err ∧
    (s.setLatch n c).units = s.units ∧ (s.setLatch n c).po = s.po ∧ (s.setLatch n c).img = s.img ∧
    (s.setLatch n c).imgSlot = s.imgSlot ∧ (s.setLatch n c).fallback = s.fallback ∧ (s.setLatch n c).icheck = s.icheck ∧
    (s.setLatch n c).fcheck = s.fcheck ∧ (s.setLatch n c).nvs = s.nvs ∧ (s.setLatch n c).eng = s.eng ∧
    (s.setLatch n c).mdl = s.mdl ∧ (s.setLatch n c).gf = s.gf ∧ (s.setLatch n c).rnd = s.rnd ∧ (s.setLatch n c).pos = s.pos ∧
    (s.setLatch n c).sent = s.sent ∧ (s.setLatch n c).tra = s.tra ∧ (s.setLatch n c).chg = s.chg ∧ (s.setLatch n c).hlv = s.hlv ∧
    (s.setLatch n c).rgl = s.rgl ∧ (s.setLatch n c).act = s.act ∧ (s.setLatch n c).gbx = s.gbx ∧ (s.setLatch n c).ldg = s.ldg ∧
    (s.setLatch n c).cores = s.cores ∧ (s.setLatch n c).lsc = s.lsc ∧ (s.setLatch n c).ssm = s.ssm ∧
    (s.setLatch n c).rst = s.rst ∧ (s.setLatch n c).evc = s.evc ∧ (s.setLatch n c).driveEn = s.driveEn ∧
    (s.setLatch n c).actEn = s.actEn ∧ (s.setLatch n c).aon = s.aon ∧ (s.setLatch n c).thm = s.thm ∧
    (s.setLatch n c).can = s.can ∧ (s.setLatch n c).eth = s.eth ∧ (s.setLatch n c).sec = s.sec ∧ (s.setLatch n c).dbg = s.dbg ∧
    (s.setLatch n c).pins = s.pins ∧ (s.setLatch n c).recovery = s.recovery ∧ (s.setLatch n c).restFail = s.restFail ∧
    (s.setLatch n c).memCap = s.memCap ∧ (s.setLatch n c).mramClosed = s.mramClosed ∧ (s.setLatch n c).linkTries = s.linkTries ∧
    (s.setLatch n c).resp = s.resp ∧ (s.setLatch n c).tick = s.tick ∧ (s.setLatch n c).pending = s.pending :=
  by repeat' first | rfl | refine ⟨rfl, ?_⟩
@[simp] theorem State.ust_setLatch (s : State) (n c : Nat) (u : Nat) : (s.setLatch n c).ust u = s.ust u := rfl
@[simp] theorem State.reg_setLatch (s : State) (n c : Nat) (r : Nat) : (s.setLatch n c).reg r = s.reg r := rfl
@[simp] theorem State.latchOf_setLatch (s : State) (n c : Nat) : (s.setLatch n c).latchOf n = c := FMap.get_set_same
theorem State.latchOf_setLatch_ne (s : State) (n c : Nat) {j : Nat} (h : j ≠ n) : (s.setLatch n c).latchOf j = s.latchOf j := FMap.get_set_ne h

@[simp] theorem State.setLock_fields (s : State) (n : Nat) (l : Lock) :
    (s.setLock n l).variant = s.variant ∧ (s.setLock n l).split = s.split ∧ (s.setLock n l).bootSplit = s.bootSplit ∧
    (s.setLock n l).rate = s.rate ∧ (s.setLock n l).frac = s.frac ∧ (s.setLock n l).time = s.time ∧ (s.setLock n l).up = s.up ∧
    (s.setLock n l).regs = s.regs ∧ (s.setLock n l).mem = s.mem ∧ (s.setLock n l).err = s.err ∧ (s.setLock n l).units = s.units ∧
    (s.setLock n l).po = s.po ∧ (s.setLock n l).img = s.img ∧ (s.setLock n l).imgSlot = s.imgSlot ∧
    (s.setLock n l).fallback = s.fallback ∧ (s.setLock n l).icheck = s.icheck ∧ (s.setLock n l).fcheck = s.fcheck ∧
    (s.setLock n l).nvs = s.nvs ∧ (s.setLock n l).eng = s.eng ∧ (s.setLock n l).mdl = s.mdl ∧ (s.setLock n l).gf = s.gf ∧
    (s.setLock n l).rnd = s.rnd ∧ (s.setLock n l).pos = s.pos ∧ (s.setLock n l).sent = s.sent ∧ (s.setLock n l).tra = s.tra ∧
    (s.setLock n l).chg = s.chg ∧ (s.setLock n l).hlv = s.hlv ∧ (s.setLock n l).rgl = s.rgl ∧ (s.setLock n l).act = s.act ∧
    (s.setLock n l).gbx = s.gbx ∧ (s.setLock n l).ldg = s.ldg ∧ (s.setLock n l).cores = s.cores ∧ (s.setLock n l).lsc = s.lsc ∧
    (s.setLock n l).ssm = s.ssm ∧ (s.setLock n l).rst = s.rst ∧ (s.setLock n l).evc = s.evc ∧
    (s.setLock n l).driveEn = s.driveEn ∧ (s.setLock n l).actEn = s.actEn ∧ (s.setLock n l).aon = s.aon ∧
    (s.setLock n l).thm = s.thm ∧ (s.setLock n l).can = s.can ∧ (s.setLock n l).eth = s.eth ∧ (s.setLock n l).sec = s.sec ∧
    (s.setLock n l).dbg = s.dbg ∧ (s.setLock n l).pins = s.pins ∧ (s.setLock n l).recovery = s.recovery ∧
    (s.setLock n l).restFail = s.restFail ∧ (s.setLock n l).memCap = s.memCap ∧ (s.setLock n l).mramClosed = s.mramClosed ∧
    (s.setLock n l).linkTries = s.linkTries ∧ (s.setLock n l).resp = s.resp ∧ (s.setLock n l).tick = s.tick ∧
    (s.setLock n l).pending = s.pending :=
  by repeat' first | rfl | refine ⟨rfl, ?_⟩
@[simp] theorem State.ust_setLock (s : State) (n : Nat) (l : Lock) (u : Nat) : (s.setLock n l).ust u = s.ust u := rfl
@[simp] theorem State.reg_setLock (s : State) (n : Nat) (l : Lock) (r : Nat) : (s.setLock n l).reg r = s.reg r := rfl
@[simp] theorem State.lockOf_setLock (s : State) (n : Nat) (l : Lock) : (s.setLock n l).lockOf n = l := FMap.get_set_same
theorem State.lockOf_setLock_ne (s : State) (n : Nat) (l : Lock) {j : Nat} (h : j ≠ n) : (s.setLock n l).lockOf j = s.lockOf j := FMap.get_set_ne h

@[simp] theorem State.setSoft_fields (s : State) (n : Nat) (b : Bool) :
    (s.setSoft n b).variant = s.variant ∧ (s.setSoft n b).split = s.split ∧ (s.setSoft n b).bootSplit = s.bootSplit ∧
    (s.setSoft n b).rate = s.rate ∧ (s.setSoft n b).frac = s.frac ∧ (s.setSoft n b).time = s.time ∧ (s.setSoft n b).up = s.up ∧
    (s.setSoft n b).regs = s.regs ∧ (s.setSoft n b).mem = s.mem ∧ (s.setSoft n b).err = s.err ∧ (s.setSoft n b).units = s.units ∧
    (s.setSoft n b).po = s.po ∧ (s.setSoft n b).img = s.img ∧ (s.setSoft n b).imgSlot = s.imgSlot ∧
    (s.setSoft n b).fallback = s.fallback ∧ (s.setSoft n b).icheck = s.icheck ∧ (s.setSoft n b).fcheck = s.fcheck ∧
    (s.setSoft n b).nvs = s.nvs ∧ (s.setSoft n b).eng = s.eng ∧ (s.setSoft n b).mdl = s.mdl ∧ (s.setSoft n b).gf = s.gf ∧
    (s.setSoft n b).rnd = s.rnd ∧ (s.setSoft n b).pos = s.pos ∧ (s.setSoft n b).sent = s.sent ∧ (s.setSoft n b).tra = s.tra ∧
    (s.setSoft n b).chg = s.chg ∧ (s.setSoft n b).hlv = s.hlv ∧ (s.setSoft n b).rgl = s.rgl ∧ (s.setSoft n b).act = s.act ∧
    (s.setSoft n b).gbx = s.gbx ∧ (s.setSoft n b).ldg = s.ldg ∧ (s.setSoft n b).cores = s.cores ∧ (s.setSoft n b).lsc = s.lsc ∧
    (s.setSoft n b).ssm = s.ssm ∧ (s.setSoft n b).rst = s.rst ∧ (s.setSoft n b).evc = s.evc ∧
    (s.setSoft n b).driveEn = s.driveEn ∧ (s.setSoft n b).actEn = s.actEn ∧ (s.setSoft n b).aon = s.aon ∧
    (s.setSoft n b).thm = s.thm ∧ (s.setSoft n b).can = s.can ∧ (s.setSoft n b).eth = s.eth ∧ (s.setSoft n b).sec = s.sec ∧
    (s.setSoft n b).dbg = s.dbg ∧ (s.setSoft n b).pins = s.pins ∧ (s.setSoft n b).recovery = s.recovery ∧
    (s.setSoft n b).restFail = s.restFail ∧ (s.setSoft n b).memCap = s.memCap ∧ (s.setSoft n b).mramClosed = s.mramClosed ∧
    (s.setSoft n b).linkTries = s.linkTries ∧ (s.setSoft n b).resp = s.resp ∧ (s.setSoft n b).tick = s.tick ∧
    (s.setSoft n b).pending = s.pending :=
  by repeat' first | rfl | refine ⟨rfl, ?_⟩
@[simp] theorem State.ust_setSoft (s : State) (n : Nat) (b : Bool) (u : Nat) : (s.setSoft n b).ust u = s.ust u := rfl
@[simp] theorem State.reg_setSoft (s : State) (n : Nat) (b : Bool) (r : Nat) : (s.setSoft n b).reg r = s.reg r := rfl

@[simp] theorem State.updRd_fields (s : State) (n : Nat) (g : RndSt → RndSt) :
    (s.updRd n g).variant = s.variant ∧ (s.updRd n g).split = s.split ∧ (s.updRd n g).bootSplit = s.bootSplit ∧
    (s.updRd n g).rate = s.rate ∧ (s.updRd n g).frac = s.frac ∧ (s.updRd n g).time = s.time ∧ (s.updRd n g).up = s.up ∧
    (s.updRd n g).regs = s.regs ∧ (s.updRd n g).mem = s.mem ∧ (s.updRd n g).err = s.err ∧ (s.updRd n g).units = s.units ∧
    (s.updRd n g).po = s.po ∧ (s.updRd n g).img = s.img ∧ (s.updRd n g).imgSlot = s.imgSlot ∧
    (s.updRd n g).fallback = s.fallback ∧ (s.updRd n g).icheck = s.icheck ∧ (s.updRd n g).fcheck = s.fcheck ∧
    (s.updRd n g).nvs = s.nvs ∧ (s.updRd n g).eng = s.eng ∧ (s.updRd n g).mdl = s.mdl ∧ (s.updRd n g).gf = s.gf ∧
    (s.updRd n g).pos = s.pos ∧ (s.updRd n g).sent = s.sent ∧ (s.updRd n g).tra = s.tra ∧ (s.updRd n g).chg = s.chg ∧
    (s.updRd n g).hlv = s.hlv ∧ (s.updRd n g).rgl = s.rgl ∧ (s.updRd n g).act = s.act ∧ (s.updRd n g).gbx = s.gbx ∧
    (s.updRd n g).ldg = s.ldg ∧ (s.updRd n g).cores = s.cores ∧ (s.updRd n g).lsc = s.lsc ∧ (s.updRd n g).ssm = s.ssm ∧
    (s.updRd n g).rst = s.rst ∧ (s.updRd n g).evc = s.evc ∧ (s.updRd n g).driveEn = s.driveEn ∧ (s.updRd n g).actEn = s.actEn ∧
    (s.updRd n g).aon = s.aon ∧ (s.updRd n g).pads = s.pads ∧ (s.updRd n g).thm = s.thm ∧ (s.updRd n g).can = s.can ∧
    (s.updRd n g).eth = s.eth ∧ (s.updRd n g).sec = s.sec ∧ (s.updRd n g).dbg = s.dbg ∧ (s.updRd n g).pins = s.pins ∧
    (s.updRd n g).recovery = s.recovery ∧ (s.updRd n g).restFail = s.restFail ∧ (s.updRd n g).memCap = s.memCap ∧
    (s.updRd n g).mramClosed = s.mramClosed ∧ (s.updRd n g).linkTries = s.linkTries ∧ (s.updRd n g).resp = s.resp ∧
    (s.updRd n g).tick = s.tick ∧ (s.updRd n g).pending = s.pending :=
  by repeat' first | rfl | refine ⟨rfl, ?_⟩
@[simp] theorem State.ust_updRd (s : State) (n : Nat) (g : RndSt → RndSt) (u : Nat) : (s.updRd n g).ust u = s.ust u := rfl
@[simp] theorem State.reg_updRd (s : State) (n : Nat) (g : RndSt → RndSt) (r : Nat) : (s.updRd n g).reg r = s.reg r := rfl
@[simp] theorem State.rd_updRd (s : State) (n : Nat) (g : RndSt → RndSt) : (s.updRd n g).rd n = g (s.rd n) := FMap.get_set_same
theorem State.rd_updRd_ne (s : State) (n : Nat) (g : RndSt → RndSt) {j : Nat} (h : j ≠ n) : (s.updRd n g).rd j = s.rd j := FMap.get_set_ne h

@[simp] theorem State.updPs_fields (s : State) (n : Nat) (g : PosSt → PosSt) :
    (s.updPs n g).variant = s.variant ∧ (s.updPs n g).split = s.split ∧ (s.updPs n g).bootSplit = s.bootSplit ∧
    (s.updPs n g).rate = s.rate ∧ (s.updPs n g).frac = s.frac ∧ (s.updPs n g).time = s.time ∧ (s.updPs n g).up = s.up ∧
    (s.updPs n g).regs = s.regs ∧ (s.updPs n g).mem = s.mem ∧ (s.updPs n g).err = s.err ∧ (s.updPs n g).units = s.units ∧
    (s.updPs n g).po = s.po ∧ (s.updPs n g).img = s.img ∧ (s.updPs n g).imgSlot = s.imgSlot ∧
    (s.updPs n g).fallback = s.fallback ∧ (s.updPs n g).icheck = s.icheck ∧ (s.updPs n g).fcheck = s.fcheck ∧
    (s.updPs n g).nvs = s.nvs ∧ (s.updPs n g).eng = s.eng ∧ (s.updPs n g).mdl = s.mdl ∧ (s.updPs n g).gf = s.gf ∧
    (s.updPs n g).rnd = s.rnd ∧ (s.updPs n g).sent = s.sent ∧ (s.updPs n g).tra = s.tra ∧ (s.updPs n g).chg = s.chg ∧
    (s.updPs n g).hlv = s.hlv ∧ (s.updPs n g).rgl = s.rgl ∧ (s.updPs n g).act = s.act ∧ (s.updPs n g).gbx = s.gbx ∧
    (s.updPs n g).ldg = s.ldg ∧ (s.updPs n g).cores = s.cores ∧ (s.updPs n g).lsc = s.lsc ∧ (s.updPs n g).ssm = s.ssm ∧
    (s.updPs n g).rst = s.rst ∧ (s.updPs n g).evc = s.evc ∧ (s.updPs n g).driveEn = s.driveEn ∧ (s.updPs n g).actEn = s.actEn ∧
    (s.updPs n g).aon = s.aon ∧ (s.updPs n g).pads = s.pads ∧ (s.updPs n g).thm = s.thm ∧ (s.updPs n g).can = s.can ∧
    (s.updPs n g).eth = s.eth ∧ (s.updPs n g).sec = s.sec ∧ (s.updPs n g).dbg = s.dbg ∧ (s.updPs n g).pins = s.pins ∧
    (s.updPs n g).recovery = s.recovery ∧ (s.updPs n g).restFail = s.restFail ∧ (s.updPs n g).memCap = s.memCap ∧
    (s.updPs n g).mramClosed = s.mramClosed ∧ (s.updPs n g).linkTries = s.linkTries ∧ (s.updPs n g).resp = s.resp ∧
    (s.updPs n g).tick = s.tick ∧ (s.updPs n g).pending = s.pending :=
  by repeat' first | rfl | refine ⟨rfl, ?_⟩
@[simp] theorem State.ust_updPs (s : State) (n : Nat) (g : PosSt → PosSt) (u : Nat) : (s.updPs n g).ust u = s.ust u := rfl
@[simp] theorem State.reg_updPs (s : State) (n : Nat) (g : PosSt → PosSt) (r : Nat) : (s.updPs n g).reg r = s.reg r := rfl
@[simp] theorem State.ps_updPs (s : State) (n : Nat) (g : PosSt → PosSt) : (s.updPs n g).ps n = g (s.ps n) := FMap.get_set_same
theorem State.ps_updPs_ne (s : State) (n : Nat) (g : PosSt → PosSt) {j : Nat} (h : j ≠ n) : (s.updPs n g).ps j = s.ps j := FMap.get_set_ne h

@[simp] theorem State.updSn_fields (s : State) (n : Nat) (g : SentSt → SentSt) :
    (s.updSn n g).variant = s.variant ∧ (s.updSn n g).split = s.split ∧ (s.updSn n g).bootSplit = s.bootSplit ∧
    (s.updSn n g).rate = s.rate ∧ (s.updSn n g).frac = s.frac ∧ (s.updSn n g).time = s.time ∧ (s.updSn n g).up = s.up ∧
    (s.updSn n g).regs = s.regs ∧ (s.updSn n g).mem = s.mem ∧ (s.updSn n g).err = s.err ∧ (s.updSn n g).units = s.units ∧
    (s.updSn n g).po = s.po ∧ (s.updSn n g).img = s.img ∧ (s.updSn n g).imgSlot = s.imgSlot ∧
    (s.updSn n g).fallback = s.fallback ∧ (s.updSn n g).icheck = s.icheck ∧ (s.updSn n g).fcheck = s.fcheck ∧
    (s.updSn n g).nvs = s.nvs ∧ (s.updSn n g).eng = s.eng ∧ (s.updSn n g).mdl = s.mdl ∧ (s.updSn n g).gf = s.gf ∧
    (s.updSn n g).rnd = s.rnd ∧ (s.updSn n g).pos = s.pos ∧ (s.updSn n g).tra = s.tra ∧ (s.updSn n g).chg = s.chg ∧
    (s.updSn n g).hlv = s.hlv ∧ (s.updSn n g).rgl = s.rgl ∧ (s.updSn n g).act = s.act ∧ (s.updSn n g).gbx = s.gbx ∧
    (s.updSn n g).ldg = s.ldg ∧ (s.updSn n g).cores = s.cores ∧ (s.updSn n g).lsc = s.lsc ∧ (s.updSn n g).ssm = s.ssm ∧
    (s.updSn n g).rst = s.rst ∧ (s.updSn n g).evc = s.evc ∧ (s.updSn n g).driveEn = s.driveEn ∧ (s.updSn n g).actEn = s.actEn ∧
    (s.updSn n g).aon = s.aon ∧ (s.updSn n g).pads = s.pads ∧ (s.updSn n g).thm = s.thm ∧ (s.updSn n g).can = s.can ∧
    (s.updSn n g).eth = s.eth ∧ (s.updSn n g).sec = s.sec ∧ (s.updSn n g).dbg = s.dbg ∧ (s.updSn n g).pins = s.pins ∧
    (s.updSn n g).recovery = s.recovery ∧ (s.updSn n g).restFail = s.restFail ∧ (s.updSn n g).memCap = s.memCap ∧
    (s.updSn n g).mramClosed = s.mramClosed ∧ (s.updSn n g).linkTries = s.linkTries ∧ (s.updSn n g).resp = s.resp ∧
    (s.updSn n g).tick = s.tick ∧ (s.updSn n g).pending = s.pending :=
  by repeat' first | rfl | refine ⟨rfl, ?_⟩
@[simp] theorem State.ust_updSn (s : State) (n : Nat) (g : SentSt → SentSt) (u : Nat) : (s.updSn n g).ust u = s.ust u := rfl
@[simp] theorem State.reg_updSn (s : State) (n : Nat) (g : SentSt → SentSt) (r : Nat) : (s.updSn n g).reg r = s.reg r := rfl
@[simp] theorem State.sn_updSn (s : State) (n : Nat) (g : SentSt → SentSt) : (s.updSn n g).sn n = g (s.sn n) := FMap.get_set_same
theorem State.sn_updSn_ne (s : State) (n : Nat) (g : SentSt → SentSt) {j : Nat} (h : j ≠ n) : (s.updSn n g).sn j = s.sn j := FMap.get_set_ne h

@[simp] theorem State.updCn_fields (s : State) (n : Nat) (g : CanSt → CanSt) :
    (s.updCn n g).variant = s.variant ∧ (s.updCn n g).split = s.split ∧ (s.updCn n g).bootSplit = s.bootSplit ∧
    (s.updCn n g).rate = s.rate ∧ (s.updCn n g).frac = s.frac ∧ (s.updCn n g).time = s.time ∧ (s.updCn n g).up = s.up ∧
    (s.updCn n g).regs = s.regs ∧ (s.updCn n g).mem = s.mem ∧ (s.updCn n g).err = s.err ∧ (s.updCn n g).units = s.units ∧
    (s.updCn n g).po = s.po ∧ (s.updCn n g).img = s.img ∧ (s.updCn n g).imgSlot = s.imgSlot ∧
    (s.updCn n g).fallback = s.fallback ∧ (s.updCn n g).icheck = s.icheck ∧ (s.updCn n g).fcheck = s.fcheck ∧
    (s.updCn n g).nvs = s.nvs ∧ (s.updCn n g).eng = s.eng ∧ (s.updCn n g).mdl = s.mdl ∧ (s.updCn n g).gf = s.gf ∧
    (s.updCn n g).rnd = s.rnd ∧ (s.updCn n g).pos = s.pos ∧ (s.updCn n g).sent = s.sent ∧ (s.updCn n g).tra = s.tra ∧
    (s.updCn n g).chg = s.chg ∧ (s.updCn n g).hlv = s.hlv ∧ (s.updCn n g).rgl = s.rgl ∧ (s.updCn n g).act = s.act ∧
    (s.updCn n g).gbx = s.gbx ∧ (s.updCn n g).ldg = s.ldg ∧ (s.updCn n g).cores = s.cores ∧ (s.updCn n g).lsc = s.lsc ∧
    (s.updCn n g).ssm = s.ssm ∧ (s.updCn n g).rst = s.rst ∧ (s.updCn n g).evc = s.evc ∧ (s.updCn n g).driveEn = s.driveEn ∧
    (s.updCn n g).actEn = s.actEn ∧ (s.updCn n g).aon = s.aon ∧ (s.updCn n g).pads = s.pads ∧ (s.updCn n g).thm = s.thm ∧
    (s.updCn n g).eth = s.eth ∧ (s.updCn n g).sec = s.sec ∧ (s.updCn n g).dbg = s.dbg ∧ (s.updCn n g).pins = s.pins ∧
    (s.updCn n g).recovery = s.recovery ∧ (s.updCn n g).restFail = s.restFail ∧ (s.updCn n g).memCap = s.memCap ∧
    (s.updCn n g).mramClosed = s.mramClosed ∧ (s.updCn n g).linkTries = s.linkTries ∧ (s.updCn n g).resp = s.resp ∧
    (s.updCn n g).tick = s.tick ∧ (s.updCn n g).pending = s.pending :=
  by repeat' first | rfl | refine ⟨rfl, ?_⟩
@[simp] theorem State.ust_updCn (s : State) (n : Nat) (g : CanSt → CanSt) (u : Nat) : (s.updCn n g).ust u = s.ust u := rfl
@[simp] theorem State.reg_updCn (s : State) (n : Nat) (g : CanSt → CanSt) (r : Nat) : (s.updCn n g).reg r = s.reg r := rfl
@[simp] theorem State.cn_updCn (s : State) (n : Nat) (g : CanSt → CanSt) : (s.updCn n g).cn n = g (s.cn n) := FMap.get_set_same
theorem State.cn_updCn_ne (s : State) (n : Nat) (g : CanSt → CanSt) {j : Nat} (h : j ≠ n) : (s.updCn n g).cn j = s.cn j := FMap.get_set_ne h

@[simp] theorem State.updEt_fields (s : State) (n : Nat) (g : EthSt → EthSt) :
    (s.updEt n g).variant = s.variant ∧ (s.updEt n g).split = s.split ∧ (s.updEt n g).bootSplit = s.bootSplit ∧
    (s.updEt n g).rate = s.rate ∧ (s.updEt n g).frac = s.frac ∧ (s.updEt n g).time = s.time ∧ (s.updEt n g).up = s.up ∧
    (s.updEt n g).regs = s.regs ∧ (s.updEt n g).mem = s.mem ∧ (s.updEt n g).err = s.err ∧ (s.updEt n g).units = s.units ∧
    (s.updEt n g).po = s.po ∧ (s.updEt n g).img = s.img ∧ (s.updEt n g).imgSlot = s.imgSlot ∧
    (s.updEt n g).fallback = s.fallback ∧ (s.updEt n g).icheck = s.icheck ∧ (s.updEt n g).fcheck = s.fcheck ∧
    (s.updEt n g).nvs = s.nvs ∧ (s.updEt n g).eng = s.eng ∧ (s.updEt n g).mdl = s.mdl ∧ (s.updEt n g).gf = s.gf ∧
    (s.updEt n g).rnd = s.rnd ∧ (s.updEt n g).pos = s.pos ∧ (s.updEt n g).sent = s.sent ∧ (s.updEt n g).tra = s.tra ∧
    (s.updEt n g).chg = s.chg ∧ (s.updEt n g).hlv = s.hlv ∧ (s.updEt n g).rgl = s.rgl ∧ (s.updEt n g).act = s.act ∧
    (s.updEt n g).gbx = s.gbx ∧ (s.updEt n g).ldg = s.ldg ∧ (s.updEt n g).cores = s.cores ∧ (s.updEt n g).lsc = s.lsc ∧
    (s.updEt n g).ssm = s.ssm ∧ (s.updEt n g).rst = s.rst ∧ (s.updEt n g).evc = s.evc ∧ (s.updEt n g).driveEn = s.driveEn ∧
    (s.updEt n g).actEn = s.actEn ∧ (s.updEt n g).aon = s.aon ∧ (s.updEt n g).pads = s.pads ∧ (s.updEt n g).thm = s.thm ∧
    (s.updEt n g).can = s.can ∧ (s.updEt n g).sec = s.sec ∧ (s.updEt n g).dbg = s.dbg ∧ (s.updEt n g).pins = s.pins ∧
    (s.updEt n g).recovery = s.recovery ∧ (s.updEt n g).restFail = s.restFail ∧ (s.updEt n g).memCap = s.memCap ∧
    (s.updEt n g).mramClosed = s.mramClosed ∧ (s.updEt n g).linkTries = s.linkTries ∧ (s.updEt n g).resp = s.resp ∧
    (s.updEt n g).tick = s.tick ∧ (s.updEt n g).pending = s.pending :=
  by repeat' first | rfl | refine ⟨rfl, ?_⟩
@[simp] theorem State.ust_updEt (s : State) (n : Nat) (g : EthSt → EthSt) (u : Nat) : (s.updEt n g).ust u = s.ust u := rfl
@[simp] theorem State.reg_updEt (s : State) (n : Nat) (g : EthSt → EthSt) (r : Nat) : (s.updEt n g).reg r = s.reg r := rfl
@[simp] theorem State.et_updEt (s : State) (n : Nat) (g : EthSt → EthSt) : (s.updEt n g).et n = g (s.et n) := FMap.get_set_same
theorem State.et_updEt_ne (s : State) (n : Nat) (g : EthSt → EthSt) {j : Nat} (h : j ≠ n) : (s.updEt n g).et j = s.et j := FMap.get_set_ne h

@[simp] theorem State.setCore_fields (s : State) (n : Nat) (c : CoreSt) :
    (s.setCore n c).variant = s.variant ∧ (s.setCore n c).split = s.split ∧ (s.setCore n c).bootSplit = s.bootSplit ∧
    (s.setCore n c).rate = s.rate ∧ (s.setCore n c).frac = s.frac ∧ (s.setCore n c).time = s.time ∧ (s.setCore n c).up = s.up ∧
    (s.setCore n c).regs = s.regs ∧ (s.setCore n c).mem = s.mem ∧ (s.setCore n c).err = s.err ∧ (s.setCore n c).units = s.units ∧
    (s.setCore n c).po = s.po ∧ (s.setCore n c).img = s.img ∧ (s.setCore n c).imgSlot = s.imgSlot ∧
    (s.setCore n c).fallback = s.fallback ∧ (s.setCore n c).icheck = s.icheck ∧ (s.setCore n c).fcheck = s.fcheck ∧
    (s.setCore n c).nvs = s.nvs ∧ (s.setCore n c).eng = s.eng ∧ (s.setCore n c).mdl = s.mdl ∧ (s.setCore n c).gf = s.gf ∧
    (s.setCore n c).rnd = s.rnd ∧ (s.setCore n c).pos = s.pos ∧ (s.setCore n c).sent = s.sent ∧ (s.setCore n c).tra = s.tra ∧
    (s.setCore n c).chg = s.chg ∧ (s.setCore n c).hlv = s.hlv ∧ (s.setCore n c).rgl = s.rgl ∧ (s.setCore n c).act = s.act ∧
    (s.setCore n c).gbx = s.gbx ∧ (s.setCore n c).ldg = s.ldg ∧ (s.setCore n c).lsc = s.lsc ∧ (s.setCore n c).ssm = s.ssm ∧
    (s.setCore n c).rst = s.rst ∧ (s.setCore n c).evc = s.evc ∧ (s.setCore n c).driveEn = s.driveEn ∧
    (s.setCore n c).actEn = s.actEn ∧ (s.setCore n c).aon = s.aon ∧ (s.setCore n c).pads = s.pads ∧ (s.setCore n c).thm = s.thm ∧
    (s.setCore n c).can = s.can ∧ (s.setCore n c).eth = s.eth ∧ (s.setCore n c).sec = s.sec ∧ (s.setCore n c).dbg = s.dbg ∧
    (s.setCore n c).pins = s.pins ∧ (s.setCore n c).recovery = s.recovery ∧ (s.setCore n c).restFail = s.restFail ∧
    (s.setCore n c).memCap = s.memCap ∧ (s.setCore n c).mramClosed = s.mramClosed ∧ (s.setCore n c).linkTries = s.linkTries ∧
    (s.setCore n c).resp = s.resp ∧ (s.setCore n c).tick = s.tick ∧ (s.setCore n c).pending = s.pending :=
  by repeat' first | rfl | refine ⟨rfl, ?_⟩
@[simp] theorem State.ust_setCore (s : State) (n : Nat) (c : CoreSt) (u : Nat) : (s.setCore n c).ust u = s.ust u := rfl
@[simp] theorem State.reg_setCore (s : State) (n : Nat) (c : CoreSt) (r : Nat) : (s.setCore n c).reg r = s.reg r := rfl
@[simp] theorem State.core_setCore (s : State) (n : Nat) (c : CoreSt) : (s.setCore n c).core n = c := FMap.get_set_same
theorem State.core_setCore_ne (s : State) (n : Nat) (c : CoreSt) {j : Nat} (h : j ≠ n) : (s.setCore n c).core j = s.core j := FMap.get_set_ne h

/-- A change of a unit's state of record writes the unit records only. -/
@[simp] theorem State.setUst_fields (s : State) (u : Nat) (st : UState) :
    (s.setUst u st).variant = s.variant ∧ (s.setUst u st).split = s.split ∧ (s.setUst u st).bootSplit = s.bootSplit ∧
    (s.setUst u st).rate = s.rate ∧ (s.setUst u st).frac = s.frac ∧ (s.setUst u st).time = s.time ∧ (s.setUst u st).up = s.up ∧
    (s.setUst u st).regs = s.regs ∧ (s.setUst u st).mem = s.mem ∧ (s.setUst u st).err = s.err ∧ (s.setUst u st).po = s.po ∧
    (s.setUst u st).img = s.img ∧ (s.setUst u st).imgSlot = s.imgSlot ∧ (s.setUst u st).fallback = s.fallback ∧
    (s.setUst u st).icheck = s.icheck ∧ (s.setUst u st).fcheck = s.fcheck ∧ (s.setUst u st).nvs = s.nvs ∧
    (s.setUst u st).eng = s.eng ∧ (s.setUst u st).mdl = s.mdl ∧ (s.setUst u st).gf = s.gf ∧ (s.setUst u st).rnd = s.rnd ∧
    (s.setUst u st).pos = s.pos ∧ (s.setUst u st).sent = s.sent ∧ (s.setUst u st).tra = s.tra ∧ (s.setUst u st).chg = s.chg ∧
    (s.setUst u st).hlv = s.hlv ∧ (s.setUst u st).rgl = s.rgl ∧ (s.setUst u st).act = s.act ∧ (s.setUst u st).gbx = s.gbx ∧
    (s.setUst u st).ldg = s.ldg ∧ (s.setUst u st).cores = s.cores ∧ (s.setUst u st).lsc = s.lsc ∧ (s.setUst u st).ssm = s.ssm ∧
    (s.setUst u st).rst = s.rst ∧ (s.setUst u st).evc = s.evc ∧ (s.setUst u st).driveEn = s.driveEn ∧
    (s.setUst u st).actEn = s.actEn ∧ (s.setUst u st).aon = s.aon ∧ (s.setUst u st).pads = s.pads ∧ (s.setUst u st).thm = s.thm ∧
    (s.setUst u st).can = s.can ∧ (s.setUst u st).eth = s.eth ∧ (s.setUst u st).sec = s.sec ∧ (s.setUst u st).dbg = s.dbg ∧
    (s.setUst u st).pins = s.pins ∧ (s.setUst u st).recovery = s.recovery ∧ (s.setUst u st).restFail = s.restFail ∧
    (s.setUst u st).memCap = s.memCap ∧ (s.setUst u st).mramClosed = s.mramClosed ∧ (s.setUst u st).linkTries = s.linkTries ∧
    (s.setUst u st).resp = s.resp ∧ (s.setUst u st).tick = s.tick ∧ (s.setUst u st).pending = s.pending := by
  unfold State.setUst
  split <;> (repeat' first | rfl | refine ⟨rfl, ?_⟩)

@[simp] theorem State.reg_setUst (s : State) (u : Nat) (st : UState) (r : Nat) : (s.setUst u st).reg r = s.reg r := by
  unfold State.setUst
  split <;> rfl

/-- A present unit takes the state of record it is given (R15). -/
@[simp] theorem State.ust_setUst (s : State) (u : Nat) (st : UState) (h : unitPresent s.variant u = true) : (s.setUst u st).ust u = st := by
  unfold State.setUst
  split
  · rename_i e
    simpa [h] using e
  · simp [State.ust, h, FMap.get_set_same]

theorem State.ust_setUst_ne (s : State) {u v : Nat} (st : UState) (h : v ≠ u) : (s.setUst u st).ust v = s.ust v := by
  unfold State.setUst
  split
  · rfl
  · simp [State.ust, FMap.get_set_ne h]

/-- A unit in another state than ABSENT is present. -/
theorem State.present_of_ust {s : State} {u : Nat} (h : s.ust u ≠ .absent) : unitPresent s.variant u = true := by
  by_contra k
  exact h (if_neg k)

end Sys2Proof.Machine
end

