-- ==== Sys2Proof/Laws/Letters.lean ====
section
/-!
SUPPORT. What a delivery can do: when the checks of R85 pass, what a letter that passes them answers, and that a receipt leaves every unit
alone.
-/
namespace Sys2Proof.Machine

theorem firstFail_none {l : List Status} : firstFail l = none ↔ l = [] := by
  cases l with
  | nil => simp [firstFail]
  | cons x t =>
    refine iff_of_false ?_ (by simp)
    simp only [firstFail]
    split
    · simp
    · split <;> simp

theorem firstFail_then {l k : List Status} :
    (match firstFail l with | some st => some st | none => k.head?) = none ↔ l = [] ∧ k = [] := by
  cases h : firstFail l with
  | none => simp [firstFail_none.mp h]
  | some x =>
    refine iff_of_false (by simp) fun e => ?_
    simp [e.1, firstFail] at h

/-- A letter passes its delivery checks exactly where none of R85's conditions holds. -/
theorem verdict_none {sp : LetterSpec} {s : State} {m : Msg} : verdict sp s m = none ↔
    m.marked = false ∧ ¬(m.letter.deadline ≠ 0 ∧ pmBefore m.letter.deadline s.pm = true) ∧ sp.units s m.letter.unit = true ∧
    bodyZeroOutside sp.used m = true ∧ sp.fails s m = [] ∧ s.prFails m.letter.opcode = [] ∧ stateFail sp.legal (s.ust m.letter.unit) = [] ∧
    ¬(sp.opens s m = true ∧ s.opsFull = true) ∧ sp.late s m = [] := by
  have e : (if (sp.opens s m && s.opsFull) = true then [Status.eFull] else []) = [] ↔ ¬(sp.opens s m = true ∧ s.opsFull = true) := by
    split <;> simp_all
  unfold verdict
  dsimp only
  cases hm : m.marked with
  | true => simp
  | false =>
    rw [if_neg Bool.false_ne_true]
    by_cases hd : m.letter.deadline ≠ 0 ∧ pmBefore m.letter.deadline s.pm = true
    · simp [hd]
    · rw [if_neg hd]
      by_cases hu : (!sp.units s m.letter.unit || !bodyZeroOutside sp.used m) = true
      · rw [if_pos hu]
        refine iff_of_false (by simp) fun h => ?_
        simp [h.2.2.1, h.2.2.2.1] at hu
      · rw [if_neg hu]
        refine firstFail_then.trans ?_
        simp only [Bool.or_eq_true, not_or, Bool.not_eq_true', Bool.not_eq_false] at hu
        simp only [List.append_eq_nil_iff, e, hu, hd, not_false_eq_true, true_and]
        tauto

theorem stateFail_nil {legal : UState → Bool} {st : UState} : stateFail legal st = [] ↔ legal st = true := by
  unfold stateFail
  by_cases h : legal st = true
  · simp [h]
  · simp only [h]
    by_cases f : st = .fault <;> by_cases g : st = .absent <;> simp [f, g]

/-- A letter that is not of the outstanding table answers at its delivery. -/
theorem deliver_now {sp : LetterSpec} {s : State} {m : Msg} (h : verdict sp s m = none) (o : sp.opens s m = false) :
    deliver sp s m = acceptLetter (sp.run s m 0).1 m (sp.run s m 0).2 := by
  simp [deliver, h, o]

/-- A letter that completes later takes an entry of the outstanding table, and is answered ACCEPTED. -/
theorem deliver_later {sp : LetterSpec} {s t : State} {m : Msg} (h : verdict sp s m = none) (o : sp.opens s m = true)
    (r : sp.run (s.openOp m).1 m (s.openOp m).2 = (t, .accepted)) : deliver sp s m = acceptLetter t m .accepted := by
  simp [deliver, h, o, r]

/-- A refused letter: its receipt, and nothing else. -/
theorem deliver_refused {sp : LetterSpec} {s : State} {m : Msg} {st : Status} (h : verdict sp s m = some st) :
    deliver sp s m = refuseLetter s m st (sp.detail s m st) := by
  simp [deliver, h]

/-- A receipt changes no unit. -/
@[simp] theorem acceptLetter_fields (s : State) (m : Msg) (a : Ans) :
    (acceptLetter s m a).variant = s.variant ∧ (acceptLetter s m a).split = s.split ∧ (acceptLetter s m a).time = s.time ∧
    (acceptLetter s m a).mem = s.mem ∧ (acceptLetter s m a).units = s.units ∧ (acceptLetter s m a).img = s.img ∧
    (acceptLetter s m a).icheck = s.icheck ∧ (acceptLetter s m a).fcheck = s.fcheck ∧ (acceptLetter s m a).eng = s.eng ∧
    (acceptLetter s m a).mdl = s.mdl ∧ (acceptLetter s m a).rnd = s.rnd ∧ (acceptLetter s m a).pos = s.pos ∧
    (acceptLetter s m a).sent = s.sent ∧ (acceptLetter s m a).tra = s.tra ∧ (acceptLetter s m a).chg = s.chg ∧
    (acceptLetter s m a).hlv = s.hlv ∧ (acceptLetter s m a).rgl = s.rgl ∧ (acceptLetter s m a).act = s.act ∧
    (acceptLetter s m a).gbx = s.gbx ∧ (acceptLetter s m a).ldg = s.ldg ∧ (acceptLetter s m a).cores = s.cores ∧
    (acceptLetter s m a).ssm = s.ssm ∧ (acceptLetter s m a).rst = s.rst ∧ (acceptLetter s m a).evc = s.evc ∧
    (acceptLetter s m a).aon = s.aon ∧ (acceptLetter s m a).pads = s.pads ∧ (acceptLetter s m a).can = s.can ∧
    (acceptLetter s m a).eth = s.eth ∧ (acceptLetter s m a).sec = s.sec ∧ (acceptLetter s m a).resp = s.resp := by
  have h := (acceptLetter_kept s m a).frame
  exact ⟨h.same .variant rfl, h.same .split rfl, h.same .time rfl, h.same .mem rfl, h.same .units rfl, h.same .img rfl,
    h.same .icheck rfl, h.same .fcheck rfl, h.same .eng rfl, h.same .mdl rfl, h.same .rnd rfl, h.same .pos rfl, h.same .sent rfl,
    h.same .tra rfl, h.same .chg rfl, h.same .hlv rfl, h.same .rgl rfl, h.same .act rfl, h.same .gbx rfl, h.same .ldg rfl,
    h.same .cores rfl, h.same .ssm rfl, h.same .rst rfl, h.same .evc rfl, h.same .aon rfl, h.same .pads rfl, h.same .can rfl,
    h.same .eth rfl, h.same .sec rfl, h.same .resp rfl⟩

@[simp] theorem acceptLetter_ust (s : State) (m : Msg) (a : Ans) (u : Nat) : (acceptLetter s m a).ust u = s.ust u := by
  simp [State.ust]

/-- What a receipt leaves of each unit, as the units' own reads show it. -/
@[simp] theorem acceptLetter_reads (s : State) (m : Msg) (a : Ans) (n : Nat) :
    (acceptLetter s m a).e n = s.e n ∧ (acceptLetter s m a).tr n = s.tr n ∧ (acceptLetter s m a).hl n = s.hl n ∧
    (acceptLetter s m a).ac n = s.ac n ∧ (acceptLetter s m a).rd n = s.rd n ∧ (acceptLetter s m a).ps n = s.ps n ∧
    (acceptLetter s m a).sn n = s.sn n ∧ (acceptLetter s m a).cn n = s.cn n ∧ (acceptLetter s m a).et n = s.et n ∧
    (acceptLetter s m a).lnk n = s.lnk n ∧ (acceptLetter s m a).fp n = s.fp n ∧ (acceptLetter s m a).dutyOf n = s.dutyOf n ∧
    (acceptLetter s m a).glLink n = s.glLink n ∧ (acceptLetter s m a).core n = s.core n := by
  simp [State.e, State.tr, State.hl, State.ac, State.rd, State.ps, State.sn, State.cn, State.et, State.lnk, State.fp, State.dutyOf,
    State.glLink, State.core]

end Sys2Proof.Machine
end

