-- ==== Sys2Proof/Laws/Registers.lean ====
section
/-!
SUPPORT. Registers and their fields: what a field reads as after a field was written, and what a register reads as after a register was
written.
-/
namespace Sys2Proof.Machine

/-- The field lies within a word. -/
def Fld.ok (f : Fld) : Bool := decide (f.lo ≤ f.hi) && decide (f.hi < 32)

/-- Two fields share no bit. -/
def Fld.apart (f g : Fld) : Bool := decide (f.hi < g.lo) || decide (g.hi < f.lo)

/-- The number that `setF` writes: quotient, field and remainder put together. -/
theorem field_parts (w A K v : Nat) :
    w - w / A % K * A + v % K * A = w / A / K * (K * A) + (v % K * A + w % A) := by
  have h1 := Nat.div_add_mod w A
  have h2 := Nat.div_add_mod (w / A) K
  have e : w = w / A / K * (K * A) + w / A % K * A + w % A := by
    calc w = A * (w / A) + w % A := h1.symm
      _ = A * (K * (w / A / K) + w / A % K) + w % A := by rw [h2]
      _ = _ := by ring
  omega

theorem setF_toNat (w : Word) (f : Fld) (v : Nat) (h : f.ok = true) :
    (setF w f v).toNat = w.toNat / 2 ^ f.lo / 2 ^ (f.hi + 1 - f.lo) * (2 ^ (f.hi + 1 - f.lo) * 2 ^ f.lo)
      + (v % 2 ^ (f.hi + 1 - f.lo) * 2 ^ f.lo + w.toNat % 2 ^ f.lo) := by
  simp only [Fld.ok, Bool.and_eq_true, decide_eq_true_eq] at h
  have hA : 0 < 2 ^ f.lo := Nat.two_pow_pos _
  have hK : 0 < 2 ^ (f.hi + 1 - f.lo) := Nat.two_pow_pos _
  simp only [setF, getF, bitsOf, BitVec.toNat_ofNat]
  rw [field_parts]
  refine Nat.mod_eq_of_lt ?_
  have p : 2 ^ (f.hi + 1 - f.lo) * 2 ^ f.lo = 2 ^ (f.hi + 1) := by rw [← Nat.pow_add]; congr 1; omega
  have q : 2 ^ 32 = 2 ^ (31 - f.hi) * 2 ^ (f.hi + 1) := by rw [← Nat.pow_add]; congr 1; omega
  have hw : w.toNat / 2 ^ f.lo / 2 ^ (f.hi + 1 - f.lo) < 2 ^ (31 - f.hi) := by
    rw [Nat.div_div_eq_div_mul, Nat.mul_comm, p]
    exact Nat.div_lt_of_lt_mul (by rw [Nat.mul_comm, ← q]; exact w.isLt)
  have hv : v % 2 ^ (f.hi + 1 - f.lo) * 2 ^ f.lo + w.toNat % 2 ^ f.lo < 2 ^ (f.hi + 1) := by
    have a := Nat.mod_lt v hK
    have b := Nat.mod_lt w.toNat hA
    calc _ < v % 2 ^ (f.hi + 1 - f.lo) * 2 ^ f.lo + 2 ^ f.lo := by omega
      _ = (v % 2 ^ (f.hi + 1 - f.lo) + 1) * 2 ^ f.lo := by ring
      _ ≤ 2 ^ (f.hi + 1 - f.lo) * 2 ^ f.lo := Nat.mul_le_mul_right _ a
      _ = 2 ^ (f.hi + 1) := p
  rw [p, q]
  calc _ < w.toNat / 2 ^ f.lo / 2 ^ (f.hi + 1 - f.lo) * 2 ^ (f.hi + 1) + 2 ^ (f.hi + 1) := by omega
    _ = (w.toNat / 2 ^ f.lo / 2 ^ (f.hi + 1 - f.lo) + 1) * 2 ^ (f.hi + 1) := by ring
    _ ≤ 2 ^ (31 - f.hi) * 2 ^ (f.hi + 1) := Nat.mul_le_mul_right _ hw

/-- A field just written reads as the value, cut to the field. -/
theorem getF_setF (w : Word) (f : Fld) (v : Nat) (h : f.ok = true) : getF (setF w f v) f = v % 2 ^ (f.hi + 1 - f.lo) := by
  have hA : 0 < 2 ^ f.lo := Nat.two_pow_pos _
  have hK : 0 < 2 ^ (f.hi + 1 - f.lo) := Nat.two_pow_pos _
  simp only [getF, bitsOf]
  rw [setF_toNat w f v h]
  have e : ∀ q r x : Nat, x < 2 ^ f.lo → (q * (2 ^ (f.hi + 1 - f.lo) * 2 ^ f.lo) + (r * 2 ^ f.lo + x)) / 2 ^ f.lo
      = q * 2 ^ (f.hi + 1 - f.lo) + r := by
    intro q r x hx
    rw [show q * (2 ^ (f.hi + 1 - f.lo) * 2 ^ f.lo) + (r * 2 ^ f.lo + x) = x + 2 ^ f.lo * (q * 2 ^ (f.hi + 1 - f.lo) + r) by ring,
      Nat.add_mul_div_left _ _ hA, Nat.div_eq_of_lt hx, Nat.zero_add]
  rw [e _ _ _ (Nat.mod_lt _ hA), Nat.mul_comm, Nat.mul_add_mod, Nat.mod_mod]

/-- A field that shares no bit with the one written reads as before. -/
theorem getF_setF_apart (w : Word) (f g : Fld) (v : Nat) (h : f.ok = true) (k : g.ok = true) (d : f.apart g = true) :
    getF (setF w f v) g = getF w g := by
  have hA : 0 < 2 ^ f.lo := Nat.two_pow_pos _
  have hK : 0 < 2 ^ (f.hi + 1 - f.lo) := Nat.two_pow_pos _
  simp only [getF, bitsOf]
  rw [setF_toNat w f v h]
  simp only [Fld.ok, Fld.apart, Bool.and_eq_true, Bool.or_eq_true, decide_eq_true_eq] at h k d
  have p : 2 ^ (f.hi + 1 - f.lo) * 2 ^ f.lo = 2 ^ (f.hi + 1) := by rw [← Nat.pow_add]; congr 1; omega
  rcases d with d | d
  · have q : 2 ^ g.lo = 2 ^ (f.hi + 1) * 2 ^ (g.lo - (f.hi + 1)) := by rw [← Nat.pow_add]; congr 1; omega
    have lt : v % 2 ^ (f.hi + 1 - f.lo) * 2 ^ f.lo + w.toNat % 2 ^ f.lo < 2 ^ (f.hi + 1) := by
      have a := Nat.mod_lt v hK
      have b := Nat.mod_lt w.toNat hA
      calc _ < v % 2 ^ (f.hi + 1 - f.lo) * 2 ^ f.lo + 2 ^ f.lo := by omega
        _ = (v % 2 ^ (f.hi + 1 - f.lo) + 1) * 2 ^ f.lo := by ring
        _ ≤ 2 ^ (f.hi + 1 - f.lo) * 2 ^ f.lo := Nat.mul_le_mul_right _ a
        _ = 2 ^ (f.hi + 1) := p
    have e : (w.toNat / 2 ^ f.lo / 2 ^ (f.hi + 1 - f.lo) * (2 ^ (f.hi + 1 - f.lo) * 2 ^ f.lo)
        + (v % 2 ^ (f.hi + 1 - f.lo) * 2 ^ f.lo + w.toNat % 2 ^ f.lo)) / 2 ^ (f.hi + 1) = w.toNat / 2 ^ (f.hi + 1) := by
      rw [p, Nat.add_comm, Nat.add_mul_div_right _ _ (Nat.two_pow_pos _), Nat.div_eq_of_lt lt, Nat.zero_add,
        Nat.div_div_eq_div_mul, Nat.mul_comm (2 ^ f.lo), p]
    rw [q, ← Nat.div_div_eq_div_mul, e, Nat.div_div_eq_div_mul]
  · have q : ∀ x : Nat, x / 2 ^ g.lo % 2 ^ (g.hi + 1 - g.lo) = x % 2 ^ f.lo / 2 ^ g.lo % 2 ^ (g.hi + 1 - g.lo) := by
      intro x
      have : 2 ^ f.lo = 2 ^ g.lo * 2 ^ (f.lo - g.lo) := by rw [← Nat.pow_add]; congr 1; omega
      rw [this, Nat.mod_mul_right_div_self, Nat.mod_mod_of_dvd]
      exact Nat.pow_dvd_pow _ (by omega)
    rw [q, q w.toNat]
    congr 2
    rw [show ∀ a b c : Nat, a * (2 ^ (f.hi + 1 - f.lo) * 2 ^ f.lo) + (b * 2 ^ f.lo + c) = c + 2 ^ f.lo * (a * 2 ^ (f.hi + 1 - f.lo) + b) by
      intros; ring, Nat.add_mul_mod_self_left, Nat.mod_mod]

variable {s : State} {a b : Nat}

@[simp] theorem State.reg_setReg (w : Word) : (s.setReg a w).reg a = w := FMap.get_set_same

theorem State.reg_setReg_ne (h : b ≠ a) (w : Word) : (s.setReg a w).reg b = s.reg b := FMap.get_set_ne h

theorem State.fld_setFld (f : Fld) (k : f.ok = true) (v : Nat) : (s.setFld a f v).fld a f = v % 2 ^ (f.hi + 1 - f.lo) := by
  rw [State.fld, State.setFld, State.reg_setReg, getF_setF _ _ _ k]

theorem State.fld_setFld_ne (h : b ≠ a) (f g : Fld) (v : Nat) : (s.setFld a f v).fld b g = s.fld b g := by
  rw [State.fld, State.setFld, State.reg_setReg_ne h, State.fld]

theorem State.fld_setFld_apart (f g : Fld) (h : f.ok = true) (k : g.ok = true) (d : f.apart g = true) (v : Nat) :
    (s.setFld a f v).fld a g = s.fld a g := by
  rw [State.fld, State.setFld, State.reg_setReg, getF_setF_apart _ _ _ _ h k d, State.fld]

theorem State.flag_setFlag (f : Fld) (k : f.ok = true) : (s.setFlag a f).flag a f = true := by
  rw [State.flag, State.setFlag, State.fld_setFld f k]
  simp only [Fld.ok, Bool.and_eq_true, decide_eq_true_eq] at k
  rw [Nat.mod_eq_of_lt (Nat.one_lt_two_pow (by omega))]
  rfl

theorem State.flag_clrFlag (f : Fld) (k : f.ok = true) : (s.clrFlag a f).flag a f = false := by
  rw [State.flag, State.clrFlag, State.fld_setFld f k, Nat.zero_mod]
  rfl

end Sys2Proof.Machine
end

