-- ==== Sys2Proof/Laws/Receipts.lean ====
section
/-!
SUPPORT. What a receipt leaves: the outstanding table and the transitions that wait for the boundary, and every register but those of the
pigeonholes and the journal.
-/
namespace Sys2Proof.Machine

/-- A register that the frame does not name reads as before. -/
theorem Frame.reg {c : List Part} {s t : State} (h : Frame c s t) {a : Nat} (k : c.contains .regs = false) (q : ∀ r, Part.reg r ∈ c → ¬r.At a) :
    t.reg a = s.reg a := by
  rcases h.regs a with m | ⟨r, m, e⟩ | e
  · simp [m] at k
  · exact absurd e (q r m)
  · exact e

/-- From s to t, what the post office holds beside its pigeonholes, its queue memory and the actions that wait for a receipt is the same. -/
structure SamePo (s t : State) : Prop where
  hw : t.po.hw = s.po.hw
  ops : t.po.ops = s.po.ops
  next : t.po.nextOp = s.po.nextOp
  mgmt : t.po.mgmt = s.po.mgmt
  mgmtSeq : t.po.mgmtSeq = s.po.mgmtSeq
  werr : t.po.werr = s.po.werr
  merr : t.po.merr = s.po.merr
  coll : t.po.coll = s.po.coll

theorem SamePo.of {s t : State} (h : t.po = s.po) : SamePo s t := ⟨by rw [h], by rw [h], by rw [h], by rw [h], by rw [h], by rw [h], by rw [h], by rw [h]⟩
theorem SamePo.trans {s t u : State} (h : SamePo s t) (k : SamePo t u) : SamePo s u :=
  ⟨k.1.trans h.1, k.2.trans h.2, k.3.trans h.3, k.4.trans h.4, k.5.trans h.5, k.6.trans h.6, k.7.trans h.7, k.8.trans h.8⟩

theorem State.journal_po (s : State) (n : Nat) (b : List Byte) : (s.journal n b).po = s.po := (State.journal_kept s n b).frame.same .po rfl
theorem State.deadLetter_po (s : State) (b : List Byte) (st : Status) (n k : Nat) : (s.deadLetter b st n k).po = s.po :=
  (State.deadLetter_kept ..).frame.same .po rfl
theorem State.wroteCw_po (s : State) (n k : Nat) : (s.wroteCw n k).po = s.po := (State.wroteCw_kept s n k).frame.same .po rfl

theorem State.placeReceipt_po (s : State) (n : Nat) (r : Receipt) : SamePo s (s.placeReceipt n r) ∧ (s.placeReceipt n r).po.ready = s.po.ready := by
  unfold State.placeReceipt
  dsimp only
  split
  all_goals
    simp only [State.signalAll, State.syncHeld, State.setFld_fields]
    refine ⟨⟨?_, ?_, ?_, ?_, ?_, ?_, ?_, ?_⟩, ?_⟩ <;> simp only [State.setPigeon, State.setFld_fields, State.wroteSlot, State.wroteCw_po, State.setSlot]

theorem SamePo.both {s t : State} (h : t.po = s.po) : SamePo s t ∧ t.po.ready = s.po.ready := ⟨.of h, by rw [h]⟩

theorem State.sendReceipt_po (s : State) (n k : Nat) (r : Receipt) :
    SamePo s (s.sendReceipt n k r).1 ∧ (s.sendReceipt n k r).1.po.ready = s.po.ready := by
  unfold State.sendReceipt
  split
  · exact SamePo.both (State.deadLetter_po s _ _ _ _)
  · split
    · exact SamePo.both ((State.deadLetter_po ..).trans ((State.setFlag_kept (.PHn_STAT _) ..).frame.same .po rfl))
    · exact State.placeReceipt_po ..

theorem State.issueReceipt_po (s : State) (c : Src) (n : Nat) (r : Receipt) :
    SamePo s (s.issueReceipt c n r).1 ∧ (s.issueReceipt c n r).1.po.ready = s.po.ready := by
  unfold State.issueReceipt
  split
  · exact ⟨.of rfl, rfl⟩
  · split
    · exact State.sendReceipt_po ..
    · exact ⟨.of rfl, rfl⟩

theorem State.defer_po (s : State) (a : Option Deferred) (p : Placed) : SamePo s (s.defer a p) := by
  unfold State.defer
  split
  · exact .of rfl
  · split <;> exact ⟨rfl, rfl, rfl, rfl, rfl, rfl, rfl, rfl⟩

theorem acceptLetter_po (s : State) (m : Msg) (a : Ans) : SamePo s (acceptLetter s m a) := by
  unfold acceptLetter
  dsimp only
  split
  · exact .of rfl
  · exact (State.issueReceipt_po ..).1
  · exact (State.issueReceipt_po ..).1.trans (State.defer_po ..)

theorem acceptLetter_ready (s : State) (m : Msg) (res : List Byte) : (acceptLetter s m (.done res none)).po.ready = s.po.ready :=
  (State.issueReceipt_po ..).2

theorem acceptLetter_later_ready (s : State) (m : Msg) : (acceptLetter s m .accepted).po.ready = s.po.ready :=
  (State.issueReceipt_po ..).2

/-- A receipt's place is one of the 64 pigeonholes. -/
theorem State.receiptPh_lt {s : State} {p c n : Nat} (h : s.receiptPh p c = some n) : n < 64 := by
  unfold State.receiptPh State.receiptOf at h
  dsimp only at h
  split at h
  · rename_i k e
    have q := List.mem_of_find?_eq_some e
    obtain rfl : k = n := by simpa using h
    exact List.mem_range.mp (List.mem_filter.mp q).1
  · exact List.mem_range.mp (List.mem_filter.mp (List.mem_of_mem_head? h)).1

/-- The registers a receipt can write: those of its pigeonhole, the dead-letter and journal counts, and the injection of an error. -/
def receiptReg (x : Nat) : Prop :=
  0x40061000 ≤ x ∧ x < 0x40063000 ∨ x ∈ [R.NVS_EVT, R.NVS_JLOST, R.NVS_JSEQ, R.PST_DLJ_CNT, R.PST_DLJ_LOST, R.MEM_INJ]

theorem State.journal_reg (s : State) (n : Nat) (b : List Byte) {x : Nat} (h : ¬receiptReg x) : (s.journal n b).reg x = s.reg x := by
  refine (State.journal_kept s n b).frame.reg rfl fun r m k => h (.inr ?_)
  simp only [Part.journal, List.mem_cons, reduceCtorEq, or_false, Part.reg.injEq, List.not_mem_nil] at m
  rcases m with rfl | rfl | rfl | rfl | rfl <;> cases k <;> simp

theorem State.deadLetter_reg (s : State) (b : List Byte) (st : Status) (n k : Nat) {x : Nat} (h : ¬receiptReg x) :
    (s.deadLetter b st n k).reg x = s.reg x := State.journal_reg s _ _ h

theorem State.placeReceipt_reg (s : State) {n : Nat} (k : n < 64) (r : Receipt) {x : Nat} (h : ¬receiptReg x) :
    (s.placeReceipt n r).reg x = s.reg x := by
  have a : x ≠ R.PHn_TAIL n := by rintro rfl; exact h (.inl (by simp only [R.PHn_TAIL]; omega))
  have b : x ≠ R.PHn_STAT n := by rintro rfl; exact h (.inl (by simp only [R.PHn_STAT]; omega))
  have c : x ≠ R.MEM_INJ := by rintro rfl; exact h (.inr (by simp))
  have w : ∀ t : State, ∀ i k, (t.wroteCw i k).reg x = t.reg x := fun t i k => by
    refine (State.wroteCw_kept t i k).frame.reg rfl fun r m k => c ?_
    simp at m
    subst m
    cases k; rfl
  unfold State.placeReceipt
  dsimp only
  split <;> simp only [State.signalAll, State.syncHeld, State.setFld, State.wroteSlot, State.reg_setReg_ne a, State.reg_setReg_ne b, w, State.reg_setPigeon, State.reg_setSlot]

theorem State.sendReceipt_reg (s : State) (n c : Nat) (r : Receipt) {x : Nat} (h : ¬receiptReg x) :
    (s.sendReceipt n c r).1.reg x = s.reg x := by
  unfold State.sendReceipt
  split
  · exact State.deadLetter_reg _ _ _ _ _ h
  · rename_i k e
    have l := State.receiptPh_lt e
    have b : x ≠ R.PHn_STAT k := by rintro rfl; exact h (.inl (by simp only [R.PHn_STAT]; omega))
    split
    · exact (State.deadLetter_reg _ _ _ _ _ h).trans (State.reg_setReg_ne b _)
    · exact State.placeReceipt_reg _ l _ h

/-- A register outside those of a receipt reads as before. -/
theorem acceptLetter_reg (s : State) (m : Msg) (a : Ans) {x : Nat} (h : ¬receiptReg x) : (acceptLetter s m a).reg x = s.reg x := by
  have e : ∀ c n r, (s.issueReceipt c n r).1.reg x = s.reg x := fun c n r => by
    unfold State.issueReceipt
    split
    · rfl
    · split
      · exact State.sendReceipt_reg _ _ _ _ h
      · rfl
  have d : ∀ (t : State) a p, (t.defer a p).reg x = t.reg x := fun t a p => by
    unfold State.defer
    repeat' split
    all_goals rfl
  unfold acceptLetter
  dsimp only
  split
  · rfl
  · exact e ..
  · exact (d ..).trans (e ..)

end Sys2Proof.Machine
end

