-- ==== Sys2Proof/Laws/Units.lean ====
section
/-!
SUPPORT. States of record: what a function or an engine that changes state leaves the others, and what an entry of the outstanding table
leaves.
-/
namespace Sys2Proof.Machine

theorem State.ust_of_units {s t : State} (u : Nat) (h : t.units = s.units) (k : t.variant = s.variant) : t.ust u = s.ust u := by
  simp [State.ust, h, k]

@[simp] theorem State.openOp_fields (s : State) (m : Msg) :
    (s.openOp m).1.variant = s.variant ∧ (s.openOp m).1.units = s.units ∧ (s.openOp m).1.img = s.img ∧ (s.openOp m).1.time = s.time ∧
    (s.openOp m).1.eng = s.eng ∧ (s.openOp m).1.mdl = s.mdl ∧ (s.openOp m).1.rnd = s.rnd ∧ (s.openOp m).1.tra = s.tra ∧
    (s.openOp m).1.chg = s.chg ∧ (s.openOp m).1.hlv = s.hlv ∧ (s.openOp m).1.rgl = s.rgl ∧ (s.openOp m).1.act = s.act ∧
    (s.openOp m).1.gbx = s.gbx ∧ (s.openOp m).1.ldg = s.ldg ∧ (s.openOp m).1.pads = s.pads ∧ (s.openOp m).1.ssm = s.ssm ∧
    (s.openOp m).1.pos = s.pos ∧ (s.openOp m).1.rst = s.rst :=
  ⟨rfl, rfl, rfl, rfl, rfl, rfl, rfl, rfl, rfl, rfl, rfl, rfl, rfl, rfl, rfl, rfl, rfl, rfl⟩

@[simp] theorem State.ust_openOp (s : State) (m : Msg) (u : Nat) : (s.openOp m).1.ust u = s.ust u := rfl

theorem unitPresent_fn (v : Variant) {f : Nat} (h : f < 16) : unitPresent v (U.fn f) = true := by
  cases v <;> (interval_cases f <;> rfl)

theorem fn_not_fe {f n : Nat} (h : f < 16) : U.fn f ≠ U.fe n := by simp only [U.fn, U.fe]; omega

/-- An engine that enters a state changes the state of record of no other unit. -/
theorem State.engineEnter_ust (s : State) {n u : Nat} (st : UState) (h : u ≠ U.fe n) : (s.engineEnter n st).ust u = s.ust u := by
  have e := State.ust_setUst_ne s st h
  unfold State.engineEnter
  dsimp only
  split
  · exact e
  · split <;> (try split) <;> exact e

theorem State.each_ust {α : Type} {f : State → α → State} {u : Nat} (h : ∀ t x, (f t x).ust u = t.ust u) (l : List α) (s : State) :
    (s.each l f).ust u = s.ust u := by
  unfold State.each
  induction l generalizing s with
  | nil => rfl
  | cons x l ih => exact (ih (f s x)).trans (h s x)

theorem State.fnOff_ust (s : State) (f u : Nat) : (s.fnOff f).ust u = s.ust u :=
  ust_of_units u ((State.fnOff_kept s f).frame.same .units rfl) ((State.fnOff_kept s f).frame.same .variant rfl)

theorem State.enginesEnter_ust (s : State) (f : Nat) {u : Nat} (st : UState) (h : ∀ n, u ≠ U.fe n) :
    (s.enginesEnter f st).ust u = s.ust u := by
  unfold State.enginesEnter
  dsimp only
  split
  · exact each_ust (fun t n => engineEnter_ust t st (h n)) _ s
  · rw [fnOff_ust]
    exact each_ust (fun t n => engineEnter_ust t st (h n)) _ s

/-- A function that changes state has it. -/
@[simp] theorem State.fnEnter_ust (s : State) {f : Nat} (st : UState) (h : f < 16) : (s.fnEnter f st).ust (U.fn f) = st := by
  have k : ∀ g, ((s.setUst (U.fn f) st).updTr f g).ust (U.fn f) = st := fun g =>
    (ust_of_units _ ((State.updTr_kept ..).frame.same .units rfl) ((State.updTr_kept ..).frame.same .variant rfl)).trans
      (ust_setUst _ _ _ (unitPresent_fn _ h))
  have e : ∀ s1 : State, s1.ust (U.fn f) = st → (if s1.windLive && f == s1.chgWind then s1 else s1.enginesEnter f st).ust (U.fn f) = st := by
    intro s1 k
    split
    · exact k
    · rw [enginesEnter_ust _ _ _ fun n => fn_not_fe h]
      exact k
  exact e _ (k _)

/-- A function's unit code, with its number. -/
theorem isFn_fnOf {m : Msg} (h : isFn m.letter.unit = true) : fnOf m < 16 ∧ m.letter.unit = U.fn (fnOf m) := by
  simp only [isFn, Bool.and_eq_true, decide_eq_true_eq] at h
  simp only [fnOf, Msg.unit, U.fn]
  omega

/-- A function of a role, by its number. -/
theorem isRole_fnOf {s : State} {m : Msg} {l : List Nat} (h : s.isRole m.letter.unit l = true) :
    fnOf m < 16 ∧ m.letter.unit = U.fn (fnOf m) := by
  simp only [State.isRole, Bool.and_eq_true] at h
  exact isFn_fnOf h.1

/-- A letter that passes and is not of the outstanding table answers at its delivery. -/
theorem Answers.now {sp : LetterSpec} {c : Instr} {s : State} {m : Msg} {P : State → Prop} (e : exec c s = .next (deliver sp s m))
    (h : Passes sp s m) (o : sp.opens s m = false) (k : P (acceptLetter (sp.run s m 0).1 m (sp.run s m 0).2)) : Answers c s P :=
  ⟨_, e.trans (congrArg _ (deliver_now h o)), k⟩

/-- A letter that passes and completes later is answered ACCEPTED. -/
theorem Answers.later {sp : LetterSpec} {c : Instr} {s t : State} {m : Msg} {P : State → Prop} (e : exec c s = .next (deliver sp s m))
    (h : Passes sp s m) (o : sp.opens s m = true) (r : sp.run (s.openOp m).1 m (s.openOp m).2 = (t, .accepted))
    (k : P (acceptLetter t m .accepted)) : Answers c s P :=
  ⟨_, e.trans (congrArg _ (deliver_later h o r)), k⟩

/-- What a passed letter's unit code and state are. -/
theorem Passes.unit {sp : LetterSpec} {s : State} {m : Msg} (h : Passes sp s m) :
    sp.units s m.letter.unit = true ∧ sp.legal (s.ust m.letter.unit) = true :=
  ⟨(verdict_none.mp h).2.2.1, stateFail_nil.mp (verdict_none.mp h).2.2.2.2.2.2.1⟩

theorem Frame.ust {c : List Part} {s t : State} (h : Frame c s t) (k : (c.contains .units || c.contains .variant) = false) (u : Nat) :
    t.ust u = s.ust u := by
  simp only [Bool.or_eq_false_iff] at k
  exact State.ust_of_units u (h.same .units k.1) (h.same .variant k.2)

theorem Frame.tr {c : List Part} {s t : State} (h : Frame c s t) (k : c.contains .tra = false) (f : Nat) : t.tr f = s.tr f := by
  rw [State.tr, show t.tra = s.tra from h.same .tra k, State.tr]

/-! A transition or an end recorded for the boundary changes no unit now. -/

@[simp] theorem State.hwFinish_ust (s : State) (k : Nat) (st : Status) (r : List Byte) (v : Nat) : (s.hwFinish k st r).ust v = s.ust v :=
  (State.hwFinish_kept ..).frame.ust rfl v
@[simp] theorem State.hwFinish_tr (s : State) (k : Nat) (st : Status) (r : List Byte) (v : Nat) : (s.hwFinish k st r).tr v = s.tr v :=
  (State.hwFinish_kept ..).frame.tr rfl v
@[simp] theorem State.hwMove_ust (s : State) (u : Nat) (l : List UState) (d : UState) (v : Nat) : (s.hwMove u l d).ust v = s.ust v :=
  (State.hwMove_kept ..).frame.ust rfl v
@[simp] theorem State.hwMove_tr (s : State) (u : Nat) (l : List UState) (d : UState) (v : Nat) : (s.hwMove u l d).tr v = s.tr v :=
  (State.hwMove_kept ..).frame.tr rfl v
@[simp] theorem State.hwFault_ust (s : State) (u : Nat) (v : Nat) : (s.hwFault u).ust v = s.ust v :=
  (State.hwFault_kept ..).frame.ust rfl v
@[simp] theorem State.hwFault_tr (s : State) (u : Nat) (v : Nat) : (s.hwFault u).tr v = s.tr v :=
  (State.hwFault_kept ..).frame.tr rfl v
@[simp] theorem State.finishOp_ust (s : State) (u k : Nat) (st : Status) (r : List Byte) (v : Nat) : (s.finishOp u k st r).ust v = s.ust v :=
  (State.finishOp_kept ..).frame.ust rfl v
@[simp] theorem State.finishOp_tr (s : State) (u k : Nat) (st : Status) (r : List Byte) (v : Nat) : (s.finishOp u k st r).tr v = s.tr v :=
  (State.finishOp_kept ..).frame.tr rfl v

@[simp] theorem State.ssmFreeFn_ust (s : State) (f u : Nat) : (s.ssmFreeFn f).ust u = s.ust u := (State.ssmFreeFn_kept s f).frame.ust rfl u
@[simp] theorem State.ssmFreeFn_tr (s : State) (f g : Nat) : (s.ssmFreeFn f).tr g = s.tr g := (State.ssmFreeFn_kept s f).frame.tr rfl g
@[simp] theorem State.fnOff_ust' (s : State) (f u : Nat) : (s.fnOff f).ust u = s.ust u := State.fnOff_ust s f u

/-- The legs of a function that is off have no duty. -/
theorem State.fnOff_duty {s : State} {f n : Nat} (h : n ∈ s.fnLegs f) : (s.fnOff f).dutyOf n = none := by
  have e : ∀ (l : List Nat) (t : State), (n ∈ l ∨ t.dutyOf n = none) → (t.each l fun s n => (s.setDuty n none).setShadow n none).dutyOf n = none := by
    intro l
    induction l with
    | nil => exact fun t k => k.resolve_left (by simp)
    | cons x l ih =>
      intro t k
      refine ih _ ?_
      show n ∈ l ∨ (t.setDuty x none).dutyOf n = none
      by_cases q : n = x
      · exact .inr (q ▸ State.dutyOf_setDuty t n none)
      · rw [State.dutyOf_setDuty_ne _ _ _ q]
        exact k.imp (fun m => (List.mem_cons.mp m).resolve_left q) id
  exact e _ s (.inl h)

theorem State.openOp_reg (s : State) (m : Msg) {a : Nat} (h : a ≠ R.PST_OUTST) : (s.openOp m).1.reg a = s.reg a := State.reg_setReg_ne h _

theorem State.ust_setUst_self (s : State) (u : Nat) (st : UState) (h : s.ust u ≠ .absent) : (s.setUst u st).ust u = st :=
  State.ust_setUst _ _ _ (State.present_of_ust h)

/-- From s to t, the unit's state of record has not changed. -/
structure KUst (u : Nat) (s t : State) : Prop where
  eq : t.ust u = s.ust u
theorem KUst.rfl {u s} : KUst u s s := ⟨Eq.refl _⟩
theorem KUst.ite {u s a b} {c : Prop} [Decidable c] (h : KUst u s a) (k : KUst u s b) : KUst u s (if c then a else b) := by
  split <;> assumption
theorem KUst.via {u s a b} (h : KUst u a b) (k : KUst u s a) : KUst u s b := ⟨h.eq.trans k.eq⟩
theorem KUst.each {α} {f : State → α → State} {u : Nat} {l : List α} {s t : State} (h : ∀ t x, KUst u t (f t x)) (k : KUst u s t) : KUst u s (t.each l f) :=
  ⟨(State.each_ust (fun t x => (h t x).eq) l t).trans k.eq⟩

end Sys2Proof.Machine
end

