-- ==== Sys2Proof/Laws/Charger.lean ====
section
/-!
SUPPORT. The charger: what moving its functions and engines leaves of other units, and what a change of its limits leaves of the
session.
-/
namespace Sys2Proof.Machine

theorem State.windSwitch_ust (s : State) (b : Bool) (u : Nat) : (s.windSwitch b).ust u = s.ust u :=
  (State.windSwitch_kept s b).frame.ust rfl u

theorem State.chgBoundary_ust (s : State) {u : Nat} (h : ∀ n, u ≠ U.fe n) (k : ∀ n, u ≠ U.fn n) : KUst u s s.chgBoundary := by
  have e : ∀ (t : State) n st, KUst u t (t.engineEnter n st) := fun t n st => ⟨State.engineEnter_ust t st (h n)⟩
  have f : ∀ (t : State) n st, KUst u t (t.setUst (U.fn n) st) := fun t n st => ⟨State.ust_setUst_ne t _ (k n)⟩
  have g : ∀ (t : State) n st, KUst u t (t.enginesEnter n st) := fun t n st => ⟨State.enginesEnter_ust t n st h⟩
  have o : ∀ (t : State) n, KUst u t (t.fnOff n) := fun t n => ⟨State.fnOff_ust t n u⟩
  have w : ∀ (t : State) n, KUst u t (t.windSwitch n) := fun t n => ⟨State.windSwitch_ust t n u⟩
  have c : ∀ t : State, KUst u t t.chgFunctions := fun t => .each (fun t n => f t n _) .rfl
  unfold State.chgBoundary
  dsimp only
  repeat' first
    | with_reducible exact .rfl
    | with_reducible refine .ite ?_ ?_
    | with_reducible apply KUst.via (e ..) | with_reducible apply KUst.via (f ..)
    | with_reducible apply KUst.via (o ..)
    | with_reducible apply KUst.via (g ..)
    | with_reducible apply KUst.via (w ..) | with_reducible apply KUst.via (c ..)
    | with_reducible refine .each (fun _ _ => ?_) ?_


theorem showLimit_chg (s : State) : s.showLimit.chg = s.chg := (State.showLimit_kept s).frame.same .chg rfl
theorem chgSetPhase_chg (s : State) (p : Nat) : (s.chgSetPhase p).chg = s.chg := (State.chgSetPhase_kept s p).frame.same .chg rfl

/-- What a change of the limits leaves of the session: all but the search and the flags of the epoch. -/
structure SameSession (a b : ChgSt) : Prop where
  eq : b = { a with search := b.search, flags := b.flags }

theorem SameSession.of {a b : ChgSt} (h : b = a) : SameSession a b := by subst h; exact ⟨rfl⟩
theorem SameSession.trans {a b c : ChgSt} (h : SameSession a b) (k : SameSession b c) : SameSession a c := ⟨by rw [k.eq, h.eq]⟩
theorem chgSetPhase_session (s : State) (p : Nat) : SameSession s.chg (s.chgSetPhase p).chg := .of (chgSetPhase_chg s p)
theorem SameSession.ite {a : ChgSt} {p : Prop} [Decidable p] {x y : State} (h : SameSession a x.chg) (k : SameSession a y.chg) :
    SameSession a (if p then x else y).chg := by
  by_cases hp : p
  · rw [if_pos hp]; exact h
  · rw [if_neg hp]; exact k
theorem updCh_session (s : State) (g : ChgSt → ChgSt) (h : SameSession s.chg (g s.chg)) : SameSession s.chg (s.updCh g).chg := h
theorem setFld_session (s : State) (r : Nat) (f : Fld) (v : Nat) : SameSession s.chg (s.setFld r f v).chg := .of rfl
theorem showLimit_session (s : State) : SameSession s.chg s.showLimit.chg := .of (showLimit_chg s)
theorem searchEnd_session (s : State) (v : Int) : SameSession s.chg (s.searchEnd v).chg := by
  have e := ((updCh_session s (fun c => { c with search := v }) ⟨rfl⟩).trans
    (setFld_session _ R.CHG_ILIM F.CHG_ILIM_SEARCH 2)).trans (showLimit_session _)
  exact .ite (e.trans (chgSetPhase_session _ 5)) e
theorem chgFlag_session (s : State) (n : Nat) : SameSession s.chg (s.chgFlag n).chg := updCh_session s _ ⟨rfl⟩
theorem searchStart_session (s : State) (v : Int) : SameSession s.chg (s.searchStart v).chg := by
  have e := ((updCh_session s (fun c => { c with search := v }) ⟨rfl⟩).trans
    (setFld_session _ R.CHG_ILIM F.CHG_ILIM_SEARCH 1)).trans (showLimit_session _)
  unfold State.searchStart
  exact e.trans (chgFlag_session _ 0)
theorem limitsChanged_session (s : State) (b : Int) : SameSession s.chg (s.limitsChanged b).chg :=
  .ite (.ite (searchEnd_session s _) (showLimit_session s)) (.ite (searchStart_session s _) (showLimit_session s))

@[simp] theorem updCh_ust (s : State) (g) (u : Nat) : (s.updCh g).ust u = s.ust u := Eq.refl _

theorem chgB (s : State) : s.chgBoundary.ust U.chg = s.ust U.chg :=
  (State.chgBoundary_ust s (fun n => by simp only [U.chg, U.fe]; omega) (fun n => by simp only [U.chg, U.fn]; omega)).eq


end Sys2Proof.Machine
end

