-- ==== Sys2Proof/WellFormed.lean ====
section
/-!
DEFINITION. Which commands are well formed: a letter carries its row's opcode and fields of the widths of Table PST-1, an access names
a requester that exists, frames and memory operations have the sizes of their formats. `exec` is total and needs none of this.
Choices of the model: log 5.
-/
namespace Sys2Proof

/-- A letter's fields have the widths of Table PST-1, and its opcode is the row's. -/
def Letter.wf (op : Nat) (l : Letter) : Bool :=
  l.opcode == op && l.unit < 0x100 && l.flags < 0x100 && l.seq < 2 ^ 32 && l.deliverAt < 2 ^ 32 && l.deadline < 2 ^ 32
    && l.body.length == 40 && l.frank.length == 8

/-- A source is a letter pigeonhole, 0 to 63, or the management queue. -/
def Src.wf : Src → Bool
  | .ph n => n < 64
  | .mgmt => true

/-- A letter row's message. -/
def Msg.wf (op : Nat) (m : Msg) : Bool := m.src.wf && m.letter.wf op

/-- A requester: a core's unit code, or a hart number. -/
def Requester.wf : Requester → Bool
  | .core c => (0x40 ≤ c && c < 0x44) || (0x48 ≤ c && c < 0x50)
  | .debug h => h < 0x100000
  | .letter _ => false

/-- A memory operation: 1, 2, 4 or 32 bytes, its data as long as it stores, an instruction fetch stores nothing, upset bytes inside
a codeword. -/
def MemOp.wf (a : MemOp) : Bool :=
  a.addr < 2 ^ 32 && [1, 2, 4, 32].contains a.size && (!a.store || a.data.length == a.size) && !(a.fetch && a.store)
    && a.upset.all (fun p => p.1 < 40) && a.fabric.all (fun e => e.all fun p => p.1 < 40)
    && match a.kind with
      | .plain => true
      | .fenceI => true
      | .lr => a.size == 4 && !a.store && !a.fetch
      | .sc => a.size == 4 && a.store
      | .amo _ => a.size == 4 && a.store

/-- A CAN frame: identifier of 11 or 29 bits, at most 8 data bytes in classical frames and 64 in FD. -/
def CanIn.wf (f : CanIn) : Bool :=
  f.id < (if f.extended then 2 ^ 29 else 2 ^ 11) && f.data.length ≤ (if f.fd then 64 else 8)

/-- An Ethernet frame: addresses of 6 and of 4 or 16 octets, ports of 16 bits. -/
def EthIn.wf (f : EthIn) : Bool :=
  f.mac.length == 6 && (f.ip.length == 4 || f.ip.length == 16) && (f.dstIp.length == 4 || f.dstIp.length == 16)
    && f.port < 65536 && f.dstPort < 65536 && f.payload.length ≤ 1522

/-- The commands that carry a letter: the opcode of their row and the message. -/
def Instr.letter? : Instr → Option (Nat × Msg)
  | .write m => some (0x0001, m)
  | .read m => some (0x0002, m)
  | .state m => some (0x0003, m)
  | .abort m => some (0x0004, m)
  | .imageWrite m => some (0x0A01, m)
  | .imageCheck m => some (0x0A02, m)
  | .imageCommit m => some (0x0A03, m)
  | .fwWrite m => some (0x0A11, m)
  | .fwCheck m => some (0x0A12, m)
  | .fwCommit m => some (0x0A13, m)
  | .feHarm m => some (0x0101, m)
  | .feAdapt m => some (0x0102, m)
  | .feGains m => some (0x0103, m)
  | .feClear m => some (0x0104, m)
  | .drvRead m => some (0x01F0, m)
  | .drvWrite m => some (0x01F1, m)
  | .rndRun m => some (0x0301, m)
  | .rndHalt m => some (0x0302, m)
  | .rndUrgent m => some (0x0303, m)
  | .rndClear m => some (0x0304, m)
  | .posRun m => some (0x0311, m)
  | .posStop m => some (0x0312, m)
  | .sentRun m => some (0x0321, m)
  | .sentStop m => some (0x0322, m)
  | .traArm m => some (0x0401, m)
  | .traRun m => some (0x0402, m)
  | .traTorque m => some (0x0403, m)
  | .traStop m => some (0x0404, m)
  | .traDisarm m => some (0x0405, m)
  | .traClear m => some (0x0406, m)
  | .chopRun m => some (0x0407, m)
  | .chopHalt m => some (0x0408, m)
  | .chgArm m => some (0x0501, m)
  | .chgStart m => some (0x0502, m)
  | .chgStop m => some (0x0503, m)
  | .chgDisarm m => some (0x0504, m)
  | .chgLimit m => some (0x0505, m)
  | .chgBms m => some (0x0506, m)
  | .chgClear m => some (0x0507, m)
  | .transport m => some (0x05F0, m)
  | .hlvArm m => some (0x0611, m)
  | .hlvRun m => some (0x0612, m)
  | .hlvSet m => some (0x0613, m)
  | .hlvStop m => some (0x0614, m)
  | .hlvDisarm m => some (0x0615, m)
  | .hlvClear m => some (0x0616, m)
  | .regArm m => some (0x0601, m)
  | .regRun m => some (0x0602, m)
  | .regStop m => some (0x0603, m)
  | .regDisarm m => some (0x0604, m)
  | .regSet m => some (0x0605, m)
  | .regClear m => some (0x0606, m)
  | .actArm m => some (0x0801, m)
  | .actRun m => some (0x0802, m)
  | .actSpeed m => some (0x0803, m)
  | .actStop m => some (0x0804, m)
  | .actDisarm m => some (0x0805, m)
  | .actClear m => some (0x0806, m)
  | .actLeaktest m => some (0x0807, m)
  | .gbxRun m => some (0x0901, m)
  | .gbxHalt m => some (0x0902, m)
  | .gbxShift m => some (0x0903, m)
  | .gbxPark m => some (0x0904, m)
  | .gbxClutch m => some (0x0905, m)
  | .gbxClear m => some (0x0906, m)
  | .ldgBattery m => some (0x0B01, m)
  | .ldgKeepalive m => some (0x0B02, m)
  | .ssmRelease m => some (0x0C01, m)
  | .ssmForce m => some (0x0C02, m)
  | .rstUnit m => some (0x0D01, m)
  | .rstPair m => some (0x0D02, m)
  | .rstSystem m => some (0x0D03, m)
  | .standby m => some (0x0D04, m)
  | .evcRing m => some (0x0E01, m)
  | .netRun m => some (0x0F01, m)
  | .netHalt m => some (0x0F02, m)
  | .secRevoke m => some (0x0A31, m)
  | .secFkey m => some (0x0A32, m)
  | .secSak m => some (0x0A33, m)
  | _ => none

/-- The requester of an access. -/
def Instr.requester? : Instr → Option Requester
  | .letterPost who _ _ => some who
  | .receiptConsume who _ _ => some who
  | .sleepAnnounce who _ => some who
  | .registerWrite who _ _ => some who
  | .sysWerrCodeRead who => some who
  | .pstMerrCodeRead who => some who
  | .memLastinfoRead who => some who
  | .faultCauseRead who _ => some who
  | .rndUrgWrite who _ _ => some who
  | .roundQueueRead who _ => some who
  | .fcvCorrWrite who _ _ => some who
  | .rndCorrWrite who _ _ _ => some who
  | .posOfsWrite who _ _ => some who
  | .ldgNetRead who _ => some who
  | .withdrawalQueueRead who => some who
  | .keepaliveBalanceRead who => some who
  | .imbalanceClear who _ => some who
  | .faultNAcknowledge who _ => some who
  | .watchdogService who _ _ _ => some who
  | .rstPvecWrite who _ _ => some who
  | .canModeWrite who _ _ => some who
  | .mdioTransaction who _ _ => some who
  | .fuseImageKey who _ => some who
  | .setFrankingKey who _ => some who
  | .fuseDebugKey who _ => some who
  | .revokeImageKey who _ => some who
  | .debugChallengeRead who => some who
  | .debugResponseWrite who _ => some who
  | .randomWordRead who _ => some who
  | .eventClaim who _ => some who
  | .eventComplete who _ _ => some who
  | .doorbellSet who _ => some who
  | .eventSourceWrite who _ _ => some who
  | .errorInjection who _ => some who
  | .errorCountClear who _ _ => some who
  | .nvsWindowWrite who => some who
  | .nvsStructureSlotWrite who => some who
  | .nvsFirmwareSlotWrite who => some who
  | .journalPost who _ => some who
  | .pinOutWrite who _ => some who
  | .memoryAccess who _ => some who
  | .lostCountRead who _ => some who
  | .urgentResultRead who _ => some who
  | _ => none

/-- A command is well formed. -/
def Instr.wf (c : Instr) : Bool :=
  (match c.letter? with | some (op, m) => m.wf op | none => true)
  && (match c.requester? with | some who => who.wf | none => true)
  && (match c with
    | .memoryAccess _ a => a.wf
    | .debugSystemBusAccess _ a => a.wf
    | .canFrameReceived _ f => f.wf
    | .ethDatagramReceived _ f => f.wf
    | .addressResolution _ f => f.wf
    | _ => true)

end Sys2Proof
end

