-- ==== Sys2Proof/Tests/Slice0.lean ====
section
/-!
SUPPORT. Tests: the well-formedness checks refuse ill-formed commands; worked examples of the manual; and, for every statement with
hypotheses, a state and operands that meet them, clause by clause.
-/
section
set_option Elab.async false
open Sys2Proof Sys2Proof.Machine

/-- A record of n zero bytes with some bytes set. -/
def recd (n : Nat) (l : List (Nat × Nat)) : List Byte :=
  (List.range n).map fun k => BitVec.ofNat 8 (((l.find? (·.1 == k)).map (·.2)).getD 0)
/-- A letter to a unit, by the bytes of its body that are not zero. -/
def mail (unit opcode : Nat) (b : List (Nat × Nat)) : Msg :=
  ⟨.mgmt, false, ⟨opcode, unit, 0, 1, 0, 0, recd 40 (b.map fun p => (p.1 - 16, p.2)), recd 8 []⟩⟩
/-- A state with some registers set. -/
def put (s : State) (l : List (Nat × Nat)) : State := l.foldl (fun s p => s.setNat p.1 p.2) s
/-- A state with some units in states of record. -/
def units (s : State) (l : List (Nat × UState)) : State := { s with units := l.map fun p => (p.1, ⟨p.2, 1⟩) }
/-- An image: a machine (function 0, engine 0), a front end (1), a charging DAB (2), an HLV function (3), a chopper (4). -/
def img0 : Image where
  header := []
  units := [recd 16 [(0, 0x0A), (1, 3), (2, 1), (4, 1)], recd 16 [(0, 8), (2, 1), (5, 1)], recd 16 [(0, 9), (2, 1)]]
  legs := [recd 8 [(0, 0), (1, 1)], recd 8 [(0, 1), (1, 1), (3, 1)], recd 8 [(0, 2), (1, 1), (3, 2)],
    recd 8 [(0, 3), (1, 2), (2, 1)], recd 8 [(0, 4), (1, 2), (2, 1), (3, 1)], recd 8 [(0, 5), (1, 2), (2, 1), (3, 2)],
    recd 8 [(0, 6), (1, 3), (2, 2)], recd 8 [(0, 7), (1, 3), (2, 2), (3, 1)], recd 8 [(0, 8), (1, 4), (2, 2)], recd 8 [(0, 9), (1, 4), (2, 2), (3, 1)],
    recd 8 [(0, 10), (1, 5), (2, 3)], recd 8 [(0, 11), (1, 5), (2, 3), (3, 1)], recd 8 [(0, 12), (1, 5), (2, 3), (3, 2)],
    recd 8 [(0, 13), (1, 5), (2, 3), (3, 3)], recd 8 [(0, 14), (1, 6), (2, 4)]]
  loops := [recd 32 [(1, 1), (3, 0xFF), (12, 1), (20, 0xE8), (21, 3)], recd 32 [(0, 1), (1, 3), (2, 1), (3, 0xFF), (12, 2), (20, 0xE8), (21, 3)],
    recd 32 [(0, 2), (1, 5), (2, 2), (3, 0xFF), (12, 4), (20, 0xE8), (21, 3)], recd 32 [(0, 3), (1, 5), (2, 3), (3, 0xFF), (12, 8), (20, 0xE8), (21, 3)]]
  sched := []
  ledger := []
  threshs := [recd 8 [(0, 0x27), (1, 1), (4, 1)]]
  pins := []
  tables := []
/-- A state in operation with that image: no cause of the SSM, every leg's fault line high, the driver's ID read. -/
def w0 : State :=
  put { State.reset with
    driveEn := true
    img := some img0
    gf := (List.range 48).map fun n => (n, true)
    mdl := { State.reset.mdl with links := [(0, { glLinkDefault 0 with slots := [(0, ⟨0, 0, true, true⟩)] })] } }
    ([(R.SSM_CAUSE, 0), (R.FEn_STATE 0, 0x100), (R.FEn_STATE 1, 0x10300), (R.FEn_STATE 2, 0x20500), (R.FEn_STATE 3, 0x30500),
      (R.FEn_LOOPCFG 0, 0x1000000), (R.FEn_LOOPCFG 1, 0x2000000), (R.FEn_LOOPCFG 2, 0x4000000), (R.FEn_LOOPCFG 3, 0x8000000)]
      ++ (List.range 15).map fun n => (R.MOD_LCFGn n,
        if n < 3 then 0x10000 else if n < 6 then 0x20001 else if n < 8 then 0x30002 else if n < 10 then 0x40002 else if n < 14 then 0x50003 else 0x60004))
/-- The image with more THRESH records: identifier, byte 2, value. -/
def thr (s : State) (l : List (Nat × Nat × Nat)) : State :=
  { s with img := s.img.map fun im => { im with threshs := im.threshs ++ l.map fun p => leBytes 2 p.1 ++ leBytes 2 p.2.1 ++ leBytes 4 p.2.2 } }

def geS : State := { put w0 [(R.PHn_CFG 0, 0x400100), (R.PHn_CFG 63, 0x40001300), (R.PHn_HEAD 63, 1), (R.PHn_TAIL 63, 2), (R.SYS_WERR_CODE, 0x310), (R.PST_PM, 0xFFFFFFFF)] with
  cores := [(0, { coreDefault 0 with cond := .running })], rst := { w0.rst with sysHold := 0, domains := 5 } }
def geM : Msg := ⟨.ph 0, false, ⟨0x0001, U.ssm, 0, 7, 0, 0, recd 40 [], recd 8 []⟩⟩
def geP : State := put { geS with po := { geS.po with slots := [(0, .letter ⟨1, 2, 4, 1, 0, 0, [], []⟩ false)] } } [(R.PHn_TAIL 0, 1)]
def w00_1 : State := units geS [(U.sec, .running), (U.fn 0, .armed)]
def w00_2 : State := put geS [(R.SYS_WERR_CODE, 0x311)]
def w00_3 : State := { put geS [(R.EVC_SRCm 250, 0x81FF4000)] with evc := { geS.evc with raised := [250] } }
def w00_4_3 : MemOp := ⟨0x203FFFE0, 32, false, true, [1, 2, 3], [(0, 1)], .plain, []⟩
def w00_5_3 : MemOp := ⟨0x10000000, 8, false, true, [1, 2, 3], [(0, 1), (1, 1), (2, 1)], .plain, []⟩
def w00_6_3 : MemOp := ⟨0x1003FFFF, 1, false, true, [1, 2, 3], [(0, 1), (1, 1), (2, 1), (3, 1)], .plain, []⟩
def w00_8 : State := put geS [(R.PHn_HEAD 63, 2)]
def geQ : State := { State.reset with img := none }

/-- States and operands that meet the hypotheses of `CommitWhileBusy`, clause by clause. -/
theorem witness_CommitWhileBusy :
  ((mail U.sec 515 [(16, 1)]).marked = false) ∧
    (¬((mail U.sec 515 [(16, 1)]).letter.deadline ≠ 0 ∧ pmBefore (mail U.sec 515 [(16, 1)]).letter.deadline w00_1.pm = true)) ∧
    ((mail U.sec 515 [(16, 1)]).letter.unit = U.sec) ∧ (bodyZeroOutside [(16, 17)] (mail U.sec 515 [(16, 1)]) = true) ∧
    ((mail U.sec 515 [(16, 1)]).u8 17 ≤ 1) ∧ ((mail U.sec 515 [(16, 1)]).u8 16 = 1) ∧ (w00_1.ust U.sec = UState.running) ∧
    (w00_1.po.ready = []) ∧ ((∃ f, f ∈ w00_1.functions ∧ w00_1.ust (U.fn f) ∈ [UState.armed, UState.running, UState.stopping]) ∨ w00_1.ust U.chg ∈ [UState.armed, UState.running, UState.stopping] ∨ ∃ k, k < 4 ∧ w00_1.ust (U.ac k) ∈ [UState.armed, UState.running, UState.stopping]) := by
  repeat' apply And.intro
  all_goals decide +kernel

/-- States and operands that meet the hypotheses of `RejectionRead`, clause by clause. -/
theorem witness_RejectionRead :
  (w00_2.flag R.SYS_WERR_CODE F.SYS_WERR_CODE_VALID = true) ∧ (w00_2.Lets 64 R.SYS_WERR_CODE 0) := by
  repeat' apply And.intro
  all_goals first | decide +kernel | (unfold State.Lets; decide +kernel)

/-- States and operands that meet the hypotheses of `ClaimValue`, clause by clause. -/
theorem witness_ClaimValue :
  (w00_3.coreFails 0 = []) ∧ (w00_3.coreOfCode 64 = some 0) ∧ (∀ (m : Nat), m ∈ w00_3.evc.raised → 1 ≤ m ∧ m ≤ 256) ∧
    ((w00_3.core 0).halted = false) ∧ (w00_3.Lets 64 (R.EVC_CLAIMt 0) 0) := by
  repeat' apply And.intro
  all_goals first | decide +kernel | (unfold State.Lets; decide +kernel)

/-- States and operands that meet the hypotheses of `StoreReadModifyWrite`, clause by clause. -/
theorem witness_StoreReadModifyWrite :
  (w00_4_3.store = true) ∧ (w00_4_3.fetch = false) ∧ (regionOf w00_4_3.addr = Region.sram ∨ regionOf w00_4_3.addr = Region.tcm) ∧
    (geS.keyOf (Requester.core 64) w00_4_3.addr = some 541065184) ∧ (0 < w00_4_3.size) ∧ (w00_4_3.addr % w00_4_3.size = 0) ∧
    (w00_4_3.kind = MemKind.plain) ∧ (w00_4_3.fabric = []) ∧ (geS.Lets 64 w00_4_3.addr 1) ∧ (w00_4_3.size = 32) ∧
  (w00_5_3.store = true) ∧ (w00_5_3.fetch = false) ∧ (regionOf w00_5_3.addr = Region.sram ∨ regionOf w00_5_3.addr = Region.tcm) ∧
    (geS.keyOf (Requester.core 64) w00_5_3.addr = some 4294967296) ∧ (0 < w00_5_3.size) ∧ (w00_5_3.addr % w00_5_3.size = 0) ∧
    (w00_5_3.kind = MemKind.plain) ∧ (w00_5_3.fabric = []) ∧ (geS.Lets 64 w00_5_3.addr 1) ∧ (w00_5_3.size < 32) ∧
    ((mergeErr (geS.errAt (4294967296 / 32 * 32)) w00_5_3.upset).length ≤ 3) ∧
  (w00_6_3.store = true) ∧ (w00_6_3.fetch = false) ∧ (regionOf w00_6_3.addr = Region.sram ∨ regionOf w00_6_3.addr = Region.tcm) ∧
    (geS.keyOf (Requester.core 64) w00_6_3.addr = some 4295229439) ∧ (0 < w00_6_3.size) ∧ (w00_6_3.addr % w00_6_3.size = 0) ∧
    (w00_6_3.kind = MemKind.plain) ∧ (w00_6_3.fabric = []) ∧ (geS.Lets 64 w00_6_3.addr 1) ∧ (w00_6_3.size < 32) ∧
    ((mergeErr (geS.errAt (4295229439 / 32 * 32)) w00_6_3.upset).length = 4) := by
  repeat' apply And.intro
  all_goals first | decide +kernel | (unfold State.Lets; decide +kernel)

/-- States and operands that meet the hypotheses of `RegisterRejected`, clause by clause. -/
theorem witness_RegisterRejected :
  (findReg R.MEM_CETHR = some ((findReg R.MEM_CETHR).getD { block := { name := "", base := 0, stride := 0, count := 0, regs := [] }, inst := 0, desc := { name := "", off := 0, dims := [], reset := 0, fields := [] }, idx := [] })) ∧ (convertedFe R.MEM_CETHR = Option.none) ∧ ((rowWrite (Requester.core 64) ((findReg R.MEM_CETHR).getD { block := { name := "", base := 0, stride := 0, count := 0, regs := [] }, inst := 0, desc := { name := "", off := 0, dims := [], reset := 0, fields := [] }, idx := [] }) R.MEM_CETHR 0 geS).isNone = true) ∧ (regFirst ((geS.liveView R.MEM_CETHR).mapFails R.MEM_CETHR 0 ++ geS.plainFails ((findReg R.MEM_CETHR).getD { block := { name := "", base := 0, stride := 0, count := 0, regs := [] }, inst := 0, desc := { name := "", off := 0, dims := [], reset := 0, fields := [] }, idx := [] }) R.MEM_CETHR 0) = some Status.eRange) ∧ (Status.eRange.ok = false) ∧ (Status.eRange.code < 256) ∧ (geS.coreOfCode 64 = some 0) ∧ (geS.Lets 64 R.MEM_CETHR 1) := by
  repeat' apply And.intro
  all_goals first | decide +kernel | (unfold State.Lets; decide +kernel)

/-- States and operands that meet the hypotheses of `Postmark`, clause by clause. -/
theorem witness_Postmark :
  (w00_8.boundaryRuns = true) ∧ (∀ (k : Nat), k < 64 → w00_8.phCount k = 0) ∧ (w00_8.po.mgmt = []) ∧ (w00_8.po.ops = []) ∧
    (w00_8.rst.unitReset = []) ∧ (w00_8.rst.autoDue = []) ∧
  (geP.phCount 0 ≠ 0) ∧ (geP.slot (geP.phSlot 0 (geP.phHead 0)) = Slot.letter { opcode := 1, unit := 2, flags := 4, seq := 1, deliverAt := 0, deadline := 0, body := [], frank := [] } false) := by
  repeat' apply And.intro
  all_goals decide +kernel

/-- States and operands that meet the hypotheses of `IdleStep`, clause by clause. -/
theorem witness_IdleStep :
  (geQ.pending = []) := by
  decide +kernel

def trS (st : UState) : State := units w0 [(U.fn 0, st), (U.fn 4, st)]
def w01_1 : State := trS .idle
def w01_2 : State := trS .armed
def w01_3 : State := trS .armed
def w01_4 : State := trS .running
def w01_5 : State := trS .armed
def w01_6 : State := trS .fault
def w01_7 : State := trS .idle
def w01_8 : State := units w0 [(U.fn 4, .running)]

/-- States and operands that meet the hypotheses of `TractionLetters`, clause by clause. -/
theorem witness_TractionLetters :
  (Passes specTraArm w01_1 (mail 16 1025 [])) ∧
  (Passes specTraRun w01_2 (mail 16 1026 [])) ∧
  (Passes specTraTorque w01_3 (mail 16 1027 [])) ∧
  (Passes specTraStop w01_4 (mail 16 1028 [])) ∧
  (Passes specTraDisarm w01_5 (mail 16 1029 [])) ∧
  (Passes specTraClear w01_6 (mail 16 1030 [])) ∧
  (Passes specChopRun w01_7 (mail 20 1031 [])) ∧
  (Passes specChopHalt w01_8 (mail 20 1032 [])) := by
  repeat' apply And.intro
  all_goals first | decide +kernel | (unfold Passes; decide +kernel)

def chS (st : UState) : State :=
  put (units w0 [(U.chg, st), (U.fn 1, .idle), (U.fn 2, .idle)]) [(R.CHG_CFG, 0xFF0102), (R.CHG_PILOT, 0x20002002), (R.FCV_CHn_LAST 10, 4000), (R.FCV_CHn_FS 10, 16384)]
def w02_1 : State := chS .idle
def w02_2 : State := { chS .armed with chg := { chgReset with tempKnown := true, tMax := 300, tMin := 200 }, ldg := { State.reset.ldg with charger := 1000 } }
def w02_3 : State := put (chS .running) [(R.CHG_STATE, 0x500)]
def w02_4 : State := chS .armed
def w02_5 : State := chS .running
def w02_6 : State := chS .idle
def w02_7 : State := chS .fault
def w02_8 : State := units w0 [(U.rst, .running)]

/-- States and operands that meet the hypotheses of `ChargerLetters`, clause by clause. -/
theorem witness_ChargerLetters :
  (Passes specChgArm w02_1 (mail 8 1281 [])) ∧
  (Passes specChgStart w02_2 (mail 8 1282 [])) ∧
  (Passes specChgStop w02_3 (mail 8 1283 [])) ∧ (w02_3.chgPhase ≠ 0) ∧ (w02_3.chgPhase ≠ 9) ∧
  (Passes specChgDisarm w02_4 (mail 8 1284 [])) ∧
  (Passes specChgLimit w02_5 (mail 8 1285 [(16, 5)])) ∧
  (Passes specChgBms w02_6 (mail 8 1286 [(16, 250), (18, 200), (32, 1)])) ∧
  (Passes specChgClear w02_7 (mail 8 1287 [])) ∧
  (Passes specTransport w02_8 (mail 6 1520 [])) := by
  repeat' apply And.intro
  all_goals first | decide +kernel | (unfold Passes; decide +kernel)

def hlS (st : UState) : State :=
  put (units w0 [(U.fn 3, st), (U.reg, st)]) [(R.FCV_CHn_LAST 13, 32000), (R.FCV_CHn_FS 13, 65535), (R.LDG_EDf 3, 1000), (R.REG_VIN, 48000), (R.REG_STATE, 0xFFFF00), (R.REG_PROT, 0x40000000 + 36000)]
def w03_1 : State := hlS .idle
def w03_2 : State := hlS .armed
def w03_3 : State := hlS .armed
def w03_4 : State := hlS .running
def w03_5 : State := hlS .armed
def w03_6 : State := hlS .fault
def w03_7 : State := hlS .idle
def w03_8 : State := { hlS .armed with ldg := { State.reset.ldg with regulator := 1000 } }
def w03_9 : State := hlS .running
def w03_10 : State := hlS .armed
def w03_11 : State := hlS .armed
def w03_12 : State := hlS .fault

/-- States and operands that meet the hypotheses of `SupplyLetters`, clause by clause. -/
theorem witness_SupplyLetters :
  (Passes specHlvArm w03_1 (mail 19 1553 [])) ∧
  (Passes specHlvRun w03_2 (mail 19 1554 [])) ∧
  (Passes specHlvSet w03_3 (mail 19 1555 [(16, 224), (17, 1), (18, 10)])) ∧
  (Passes specHlvStop w03_4 (mail 19 1556 [])) ∧
  (Passes specHlvDisarm w03_5 (mail 19 1557 [])) ∧
  (Passes specHlvClear w03_6 (mail 19 1558 [])) ∧
  (Passes specRegArm w03_7 (mail 9 1537 [])) ∧
  (Passes specRegRun w03_8 (mail 9 1538 [])) ∧
  (Passes specRegStop w03_9 (mail 9 1539 [])) ∧
  (Passes specRegDisarm w03_10 (mail 9 1540 [])) ∧
  (Passes specRegSet w03_11 (mail 9 1541 [(16, 224), (17, 46), (21, 1)])) ∧
  (Passes specRegClear w03_12 (mail 9 1542 [])) := by
  repeat' apply And.intro
  all_goals first | decide +kernel | (unfold Passes; decide +kernel)

def acS (st : UState) : State :=
  { put (units w0 [(U.ac 0, st), (U.gbx, st)]) [(R.ACT_VACT, 48000), (R.ACk_CFG 0, 3000 * 65536), (R.GBX_CFG, 0x70000000), (R.GBX_STATE, 0x02220000)] with actEn := true }
def w04_1 : State := acS .idle
def w04_2 : State := acS .armed
def w04_3 : State := acS .running
def w04_4 : State := acS .running
def w04_5 : State := acS .armed
def w04_6 : State := acS .fault
def w04_7 : State := acS .idle
def w04_8 : State := acS .idle
def w04_9 : State := acS .running
def w04_10 : State := acS .running
def w04_11 : State := acS .running
def w04_12 : State := acS .running
def w04_13 : State := acS .fault

/-- States and operands that meet the hypotheses of `ActuatorLetters`, clause by clause. -/
theorem witness_ActuatorLetters :
  (Passes specActArm w04_1 (mail 40 2049 [])) ∧
  (Passes specActRun w04_2 (mail 40 2050 [(16, 100), (20, 100)])) ∧
  (Passes specActSpeed w04_3 (mail 40 2051 [(16, 100), (20, 100)])) ∧
  (Passes specActStop w04_4 (mail 40 2052 [])) ∧
  (Passes specActDisarm w04_5 (mail 40 2053 [])) ∧
  (Passes specActClear w04_6 (mail 40 2054 [])) ∧
  (Passes specActLeaktest w04_7 (mail 40 2055 [])) ∧
  (Passes specGbxRun w04_8 (mail 7 2305 [])) ∧
  (Passes specGbxHalt w04_9 (mail 7 2306 [])) ∧
  (Passes specGbxShift w04_10 (mail 7 2307 [(16, 0)])) ∧
  (Passes specGbxPark w04_11 (mail 7 2308 [(16, 0)])) ∧
  (Passes specGbxClutch w04_12 (mail 7 2309 [(16, 0)])) ∧
  (Passes specGbxClear w04_13 (mail 7 2310 [])) := by
  repeat' apply And.intro
  all_goals first | decide +kernel | (unfold Passes; decide +kernel)

def feS (st : UState) : State := put (units w0 [(U.fe 0, st), (U.fn 0, .idle)]) [(R.FEn_HCAP 0, 0x7FFF)]
def w05_1 : State := feS .idle
def w05_2 : State := feS .running
def w05_3 : State := feS .armed
def w05_4 : State := feS .fault
def w05_5 : State := feS .idle
def w05_6 : State := feS .idle

/-- States and operands that meet the hypotheses of `EngineLetters`, clause by clause. -/
theorem witness_EngineLetters :
  (Passes specFeHarm w05_1 (mail 32 257 [(17, 1), (18, 5), (20, 10)])) ∧
  (Passes specFeAdapt w05_2 (mail 32 258 [(16, 2)])) ∧
  (Passes specFeGains w05_3 (mail 32 259 [(17, 64), (19, 80)])) ∧
  (Passes specFeClear w05_4 (mail 32 260 [])) ∧
  (Passes specDrvRead w05_5 (mail 16 496 [(17, 16)])) ∧
    (w05_5.legAtPos (fnOf (mail 16 496 [(17, 16)])) ((mail 16 496 [(17, 16)]).u8 16) = some 0) ∧
  (Passes specDrvWrite w05_6 (mail 16 497 [(17, 16), (18, 7)])) ∧
    (w05_6.legAtPos (fnOf (mail 16 497 [(17, 16), (18, 7)])) ((mail 16 497 [(17, 16), (18, 7)]).u8 16) = some 0) := by
  repeat' apply And.intro
  all_goals first | decide +kernel | (unfold Passes; decide +kernel)

def seS (st : UState) : State := put (units w0 [(U.rnd 0, st), (U.pos, st), (U.sent, st)]) [(R.RNDr_SEQe 0 0, 0x80000000)]
def w06_1 : State := seS .idle
def w06_2 : State := seS .running
def w06_3 : State := seS .running
def w06_4 : State := seS .fault
def w06_5 : State := seS .idle
def w06_6 : State := seS .running
def w06_7 : State := seS .idle
def w06_8 : State := seS .running

/-- States and operands that meet the hypotheses of `SensingLetters`, clause by clause. -/
theorem witness_SensingLetters :
  (Passes specRndRun w06_1 (mail 44 769 [])) ∧
  (Passes specRndHalt w06_2 (mail 44 770 [])) ∧
  (Passes specRndUrgent w06_3 (mail 44 771 [(16, 47), (18, 15)])) ∧
  (Passes specRndClear w06_4 (mail 44 772 [])) ∧
  (Passes specPosRun w06_5 (mail 46 785 [])) ∧
  (Passes specPosStop w06_6 (mail 46 786 [])) ∧
  (Passes specSentRun w06_7 (mail 47 801 [])) ∧
  (Passes specSentStop w06_8 (mail 47 802 [])) := by
  repeat' apply And.intro
  all_goals first | decide +kernel | (unfold Passes; decide +kernel)

def syS : State := put (units w0 [(U.ldg, .running), (U.ssm, .running), (U.rst, .running), (U.pair 0, .running)]) [(R.LDG_Pp_CFG 0, 0x10), (R.PHn_CFG 0, 0x400100)]
def core0 (m : Msg) : Msg := { m with src := .ph 0 }
def ringS : State := put syS [(R.PHn_CFG 63, 0x40001300)]
def rcpt (m : Msg) : Msg := { m with src := .ph 0, letter := { m.letter with flags := 4 } }
def w07_12 : State := { ringS with evc := { ringS.evc with inserv := [(256, 0)] } }

/-- States and operands that meet the hypotheses of `SystemLetters`, clause by clause. -/
theorem witness_SystemLetters :
  (Passes specLdgBattery syS (mail 3 2817 [(20, 5), (28, 5)])) ∧
  (Passes specLdgKeepalive syS (mail 3 2818 [(24, 1), (32, 100), (34, 1)])) ∧
  (Passes specSsmRelease syS (core0 (mail 2 3073 []))) ∧
  (Passes specSsmForce syS (core0 (mail 2 3074 []))) ∧
  (Passes specRstUnit syS (mail 6 3329 [(16, 48)])) ∧
  (Passes specRstPair syS (mail 6 3330 [(16, 1)])) ∧
  (Passes specRstSystem syS (mail 6 3331 [])) ∧
  (Passes specRstSystem syS (core0 (mail 6 3331 []))) ∧
  (Passes specStandby syS (mail 6 3332 [])) ∧
  (Passes specEvcRing syS (mail 64 3585 [])) ∧
  (Passes specRstSystem ringS (rcpt (mail 6 3331 []))) ∧
  (Passes specEvcRing w07_12 (rcpt (mail 64 3585 [(16, 15)]))) := by
  repeat' apply And.intro
  all_goals first | decide +kernel | (unfold Passes; decide +kernel)

def neS (st : UState) : State :=
  { put (units w0 [(U.can 0, st), (U.sec, .running)]) [(R.PHn_CFG 0, 0x400100)] with
    sec := { State.reset.sec with sessionWritten := true, records := [(1, [5])], digests := [(1, leBytes 48 (Config.sha384 [5]).toNat)] } }
def core1 (m : Msg) : Msg := { m with src := .ph 0 }
def w08_1 : State := neS .idle
def w08_2 : State := neS .running
def w08_3 : State := neS .idle
def w08_4 : State := neS .idle
def w08_5 : State := neS .idle
def neR : State := put (neS .running) [(R.PHn_CFG 63, 0x40001300)]
def rcpt1 (m : Msg) : Msg := { m with src := .ph 0, letter := { m.letter with flags := 4 } }

theorem lastKey_w08 : w08_3.lastKey 0 = false := by
  have k : w08_3.keyProv 1 = true := by
    show (leBytes 48 (Config.sha384 [5]).toNat == leBytes 48 (Config.sha384 [5]).toNat) = true
    exact beq_self_eq_true _
  have a : ((List.range 4).any fun i => i != 0 && w08_3.keyProv i && !bitAt w08_3.sec.revoked i) = true :=
    List.any_eq_true.mpr ⟨1, by decide, by rw [k]; decide +kernel⟩
  unfold State.lastKey
  rw [a]; rfl

theorem passes_w08 : Passes specSecRevoke w08_3 (core1 (mail 1 2609 [])) := by
  have k : (core1 (mail 1 2609 [])).u8 16 = 0 := by decide +kernel
  have f : specSecRevoke.fails w08_3 (core1 (mail 1 2609 [])) = [] := by
    simp only [specSecRevoke, k, lastKey_w08]; decide +kernel
  refine verdict_none.mpr ⟨?_, ?_, ?_, ?_, f, ?_, ?_, ?_, ?_⟩ <;> decide +kernel

def fk08 (l : List Status) : LetterSpec := { specSecFkey with late := fun _ _ => l }

/-- A franking key's letter passes every check before that of the key itself. -/
theorem fkey_w08 : verdict specSecFkey w08_4 (core1 (mail 1 2610 [])) ∈ [none, some .eFrank] := by
  have h : verdict specSecFkey w08_4 (core1 (mail 1 2610 [])) =
      verdict (fk08 (specSecFkey.late w08_4 (core1 (mail 1 2610 [])))) w08_4 (core1 (mail 1 2610 [])) := by unfold verdict fk08; rfl
  have e : specSecFkey.late w08_4 (core1 (mail 1 2610 [])) = [] ∨ specSecFkey.late w08_4 (core1 (mail 1 2610 [])) = [.eFrank] := by
    simp only [specSecFkey]; split <;> simp
  have a : verdict (fk08 []) w08_4 (core1 (mail 1 2610 [])) = none := by decide +kernel
  have b : verdict (fk08 [.eFrank]) w08_4 (core1 (mail 1 2610 [])) = some .eFrank := by decide +kernel
  rw [h]
  rcases e with e | e <;> rw [e]
  · rw [a]; simp
  · rw [b]; simp

/-- States and operands that meet the hypotheses of `NetworkLetters`, clause by clause. -/
theorem witness_NetworkLetters :
  (Passes specNetRun w08_1 (mail 48 3841 [])) ∧
  (Passes specNetHalt w08_2 (mail 48 3842 [])) ∧
  (Passes specSecRevoke w08_3 (core1 (mail 1 2609 []))) ∧
  (verdict specSecFkey w08_4 (core1 (mail 1 2610 [])) ∈ [Option.none, some Status.eFrank]) ∧
  (Passes specSecSak w08_5 (core1 (mail 1 2611 [(16, 8)]))) ∧
  (Passes specNetHalt neR (rcpt1 (mail 48 3842 []))) := by
  repeat' apply And.intro
  all_goals first | with_reducible exact passes_w08 | with_reducible exact fkey_w08 | decide +kernel | (unfold Passes; decide +kernel)

def coS : State := put (units w0 [(U.fe 0, .idle), (U.sec, .running), (U.po, .running)]) [(R.PHn_CFG 0, 0x400100), (R.PHn_CFG 1, 0x400100), (R.PHn_TAIL 1, 1), (R.PHn_SEQ 1, 1)]
def core2 (m : Msg) : Msg := { m with src := .ph 0 }
def w09_4 : State := { coS with po := { coS.po with slots := [(0, .letter ⟨3, 0, 0, 1, 0, 0, [], []⟩ false)] } }
def w09_9 : State := { coS with icheck := ⟨none, true, [], 0⟩ }
def w09_10 : State := { coS with fcheck := ⟨none, true, [], 0⟩ }
def w09_11 : State := { coS with icheck := ⟨none, true, [], 0⟩ }

/-- States and operands that meet the hypotheses of `CommonLetters`, clause by clause. -/
theorem witness_CommonLetters :
  (Passes specWrite coS (mail 32 1 [(16, 24), (18, 16), (19, 64)])) ∧
    ((convertedFe (mail 32 1 [(16, 24), (18, 16), (19, 64)]).addr).isSome = true) ∧
  (Passes specRead coS (mail 32 2 [(18, 16), (19, 64)])) ∧
  (Passes specState coS (mail 32 3 [])) ∧
  (Passes specAbort w09_4 (core2 (mail 0 4 [(16, 1), (20, 1)]))) ∧
  (Passes (specSlotWrite 1) coS (core2 (mail 1 2561 [(24, 9)]))) ∧
  (Passes (specSlotWrite 2) coS (core2 (mail 1 2577 [(24, 9)]))) ∧
  (Passes (specSlotCheck false) coS (core2 (mail 1 2562 []))) ∧
  (Passes (specSlotCheck true) coS (core2 (mail 1 2578 []))) ∧
  (Passes (specCommit false) w09_9 (core2 (mail 1 2563 []))) ∧ (w09_9.po.ready = []) ∧
  (Passes (specCommit true) w09_10 (core2 (mail 1 2579 []))) ∧ (w09_10.po.ready = []) ∧
  (Passes (specCommit false) w09_11 (core2 (mail 1 2563 [(16, 1)]))) ∧ (w09_11.po.ready = []) := by
  repeat' apply And.intro
  all_goals first | decide +kernel | (unfold Passes; decide +kernel)

def w10_1 : State := trS .idle
def w10_2 : State := trS .idle
def w10_3 : State := trS .running
def w10_4 : State := trS .idle
def w10_5 : State := put (trS .idle) [(R.POSk_STAT 0, 1)]
def w10_6 : State := trS .stopping
def w10_7 : State := { thr (units w0 [(U.rnd 0, .idle)]) [(0x130, 0, 0x40), (0x131, 0, 0x41), (0x132, 0, 0x42)] with tra := [(0, {traDefault 0 with phase := 1})] }
def w10_8 : State := {trS .running with tra := [(0, {traDefault 0 with phase := 1})]}
def w10_9 : State := {trS .running with tra := [(0, {traDefault 0 with phase := 2, freq := 100000000000})]}
def w10_10 : State := {trS .running with tra := [(0, {traDefault 0 with phase := 2})]}
def w10_11 : State := put (trS .running) [(R.SSM_PAT0, 2)]
def w10_12 : State := {trS .running with ssm := {State.reset.ssm with heartbeat := true}, tra := [(0, {traDefault 0 with known := false})]}

/-- States and operands that meet the hypotheses of `TractionEvents`, clause by clause. -/
theorem witness_TractionEvents :
  (4 < 16) ∧ (w10_1.po.boundaryAt = w10_1.time) ∧ (w10_1.fnRole 4 = 6) ∧ (w10_1.ust (U.fn 4) = UState.idle) ∧
    ((w10_1.tr 4).auto = false) ∧ (w10_1.armBlocked 4 = false) ∧ (w10_1.safeHeld = false) ∧
  (4 < 16) ∧ (w10_2.fnRole 4 = 6) ∧ (w10_2.ust (U.fn 4) ≠ UState.running ∨ (w10_2.tr 4).hot = true) ∧
  (4 < 16) ∧ (w10_3.fnRole 4 = 6) ∧ (w10_3.ust (U.fn 4) = UState.running) ∧ ((w10_3.tr 4).hot = false) ∧
    ((w10_3.lnk (w10_3.linkOf 4)).dump = 0) ∧
  (0 < 16) ∧ (w10_4.fnRole 0 = 1) ∧ ((w10_4.each [] State.resolverIn).srcValid 0 = false) ∧ (w10_4.ust (U.fn 0) = UState.idle) ∧
  (0 < 16) ∧ (w10_5.fnRole 0 = 1) ∧ ((w10_5.each [] State.resolverIn).srcValid 0 = true) ∧
  (0 < 16) ∧ (w10_6.fnRole 0 = 1) ∧ (w10_6.ust (U.fn 0) = UState.stopping) ∧ ((w10_6.tr 0).tEff = 0) ∧ (w10_6.ascPref 0 = false) ∧
    (∀ (k : Nat), k ∈ w10_6.pairEngines (w10_6.fnEngine 0) → ∀ (x : Int), x ∈ (w10_6.e k).iph → absI x * 50 < quant 27 (w10_6.iRated (w10_6.fnEngine 0) 0 / w10_6.iBase k)) ∧
  (0 < 16) ∧ (w10_7.fnRole 0 = 1) ∧ ((w10_7.tr 0).phase = 1) ∧ (∀ (k : Nat), k < 3 → w10_7.thrN (304 + k) 0 64 < 128) ∧
    (w10_7.urgentFails 0 = []) ∧ ((w10_7.rd 0).urgent = []) ∧
  (0 < 16) ∧ (w10_8.fnRole 0 = 1) ∧ ((w10_8.tr 0).phase = 1) ∧ (w10_8.ust (U.fn 0) = UState.running) ∧
  (0 < 16) ∧ (w10_9.fnRole 0 = 1) ∧ (w10_9.ust (U.fn 0) = UState.running) ∧ ((w10_9.tr 0).phase = 2) ∧
    (w10_9.rpmToSpd (w10_9.fnEngine 0) (w10_9.thr 296 0 1000) ≤ ↑(w10_9.tr 0).freq) ∧
  (0 < 16) ∧ (w10_10.fnRole 0 = 1) ∧ ((w10_10.tr 0).phase = 2) ∧ (w10_10.ust (U.fn 0) = UState.running) ∧
  (0 < 16) ∧ (w10_11.ascPref 0 = false) ∧ (w10_11.ssmPat 0 = 2 ∨ w10_11.ssmPat 0 = 3) ∧
  (0 < 16) ∧ (w10_12.fnRole 0 = 1) ∧ ((w10_12.tr 0).known = false) ∧ (w10_12.ssm.heartbeat = true) := by
  repeat' apply And.intro
  all_goals decide +kernel

def suS (st : UState) : State :=
  put (units w0 [(U.fn 3, st), (U.reg, st)]) [(R.FCV_CHn_LAST 13, 32000), (R.FCV_CHn_FS 13, 65535), (R.LDG_EDf 3, 1000), (R.REG_VIN, 48000), (R.REG_STATE, 0xFFFF00), (R.REG_PROT, 0x40000000 + 36000)]
def rin : RegIn := ⟨12000, []⟩
def reS (phase : Nat) (active : Nat) : State :=
  { put (suS .running) [(R.REG_STATE, active * 16777216 + 0xFF0000 + phase * 256), (R.REG_SHED, 0x80000001)] with rgl := { State.reset.rgl with from_ := 14000000, goal := 14000000 } }
def w11_1 : State := suS .idle
def w11_2 : State := suS .stopping
def w11_3 : State := put (suS .running) [(R.FCV_CHn_LAST 14, 32000), (R.FCV_CHn_FS 14, 65535)]
def w11_4 : State := suS .idle
def w11_5 : State := reS 2 0xFF
def w11_6 : State := reS 2 0xFF
def w11_6_4 : RegIn := ⟨17000, []⟩
def w11_7 : State := { suS .running with rgl := { State.reset.rgl with onMask := 2 } }
def w11_8 : State := reS 2 0xFF
def w11_9 : State := reS 2 0xFF
def w11_10 : State := { reS 2 0xFF with rgl := { (reS 2 0xFF).rgl with op := some ⟨0, 3, 0xFF, false⟩ } }
def w11_11 : State := put (reS 2 0x7F) [(R.REG_ILIM, 0xFFFFFFFF), (R.REG_SENSE, 1650 * 65536 + 1000)]
def w11_11_4 : RegIn := ⟨12000, List.replicate 8 600⟩
def w11_12 : State := reS 2 0x7F
def w11_13 : State := suS .running
def w11_14 : State := reS 1 0xFF
def w11_15 : State := reS 2 0xFF
def w11_15_4 : RegIn := ⟨5000, []⟩
def w11_16 : State := reS 3 0xFF
def w11_17 : State := reS 2 0xFF
def w11_18 : State := put (suS .stopping) [(R.REG_STATE, 0xFFFF0400)]
def w11_19 : State := suS .running
def w11_19_4 : RegIn := ⟨17000, []⟩
def w11_20 : State := suS .running
def w11_21 : State := reS 2 0x7F

/-- States and operands that meet the hypotheses of `SupplyEvents`, clause by clause. -/
theorem witness_SupplyEvents :
  (3 < 16) ∧ (w11_1.po.boundaryAt = w11_1.time) ∧ (w11_1.fnRole 3 = 5) ∧ (w11_1.ust (U.fn 3) = UState.idle) ∧
    ((w11_1.withImg false fun im =>
    match im.unitRec 10 3 with
    | some r => bitAt (rf r 4 1) 0
    | Option.none => false) =
    true) ∧ ((w11_1.hl 3).auto = false) ∧ (w11_1.armBlocked 3 = false) ∧ (w11_1.hlvLow 3 = false) ∧
  (3 < 16) ∧ (w11_2.fnRole 3 = 5) ∧ (w11_2.ust (U.fn 3) = UState.stopping) ∧
    (∀ (l : Nat), l ∈ w11_2.fnLegs 3 → w11_2.dutyOf l = Option.none) ∧ (w11_2.hlvI2 3 < 1) ∧ (-1 < w11_2.hlvI2 3) ∧
  (3 < 16) ∧ (w11_3.fnRole 3 = 5) ∧ (w11_3.hlvOver 3 = true) ∧ ((w11_3.ust (U.fn 3)).live = true) ∧
  (3 < 16) ∧ (w11_4.po.boundaryAt = w11_4.time) ∧ (w11_4.ust U.reg = UState.idle) ∧ ((w11_4.withImg false fun im =>
    match im.unitRec 8 0 with
    | some r => bitAt (rf r 5 1) 0
    | Option.none => false) =
    true) ∧ (w11_4.rgl.auto = false) ∧ (w11_4.regVinMin ≤ w11_4.regVinNow) ∧ (w11_4.faultPending U.reg = false) ∧
  (0 < 16) ∧ ((w11_5.regSense rin).regPulses = true) ∧
    (↑(w11_5.regSense rin).regVos * 1000 + (w11_5.regSense rin).regRipple ≤ (w11_5.regSense rin).regVtl) ∧
    ((w11_5.regSense rin).rgl.tripAt = Option.none) ∧ (List.find? (w11_5.regSense rin).regFree (w11_5.regSense rin).regOrder = some 0) ∧
  (0 < 16) ∧ ((w11_6.regSense w11_6_4).regVtl < ↑(w11_6.regSense w11_6_4).regVos * 1000 + (w11_6.regSense w11_6_4).regRipple) ∧
  (0 < 16) ∧ (bitAt (w11_7.regSense rin).rgl.onMask 1 = true) ∧ ((w11_7.regSense rin).rgl.waiting = false) ∧
  (0 < 16) ∧ ((w11_8.regSense rin).regPhase = regRegulate) ∧
  (0 < 16) ∧ ((w11_9.regSense rin).regSheds = true) ∧ ((w11_9.regSense rin).rgl.op = Option.none) ∧
    ((w11_9.regSense rin).fld R.REG_SHED F.REG_SHED_MINPH < (phasesOf (w11_9.regSense rin).regActive).length) ∧
    ((w11_9.regSense rin).regShare < 10 * ↑((w11_9.regSense rin).fld R.REG_SHEDCFG F.REG_SHEDCFG_SHEDI)) ∧
  (0 < 16) ∧ ((w11_10.regSense rin).rgl.op = some { at_ := 0, rank := 3, mask := 255, was := false }) ∧ (0 = w11_10.time) ∧ (1 ≤ 3) ∧
  (0 < 16) ∧ ((w11_11.regSense w11_11_4).regSheds = true) ∧ ((w11_11.regSense w11_11_4).rgl.op = Option.none) ∧
    (List.find? (fun k => !bitAt (w11_11.regSense w11_11_4).regActive k) (phasesOf (w11_11.regSense w11_11_4).regUsed) = some 7) ∧
    (10 * ↑((w11_11.regSense w11_11_4).fld R.REG_SHEDCFG F.REG_SHEDCFG_ADDI) < (w11_11.regSense w11_11_4).regShare) ∧
  (0 < 16) ∧ ((w11_12.regSense rin).regSheds = true) ∧ ((w11_12.regSense rin).rgl.op = Option.none) ∧
    (↑(w11_12.regSense rin).regVos * 1000 < 98 / 100 * (w11_12.regSense rin).regVtl) ∧
  (0 < 16) ∧
  (0 < 16) ∧ ((w11_14.regSense rin).regPhase = regSoftStart) ∧ ((w11_14.regSense rin).vSet ≤ 2 * (w11_14.regSense rin).regVos) ∧
  (0 < 16) ∧ ((w11_15.regSense w11_15_4).regPhase = regRegulate) ∧
    (↑(w11_15.regSense w11_15_4).regVos * 2000 < (w11_15.regSense w11_15_4).regVtl) ∧
    ((w11_15.regSense w11_15_4).fld R.REG_LIM F.REG_LIM_FAILS < 2) ∧
  (0 < 16) ∧ ((w11_16.regSense rin).regPhase = regHiccup) ∧
  (0 < 16) ∧ (w11_17.regPhase = regRegulate) ∧
  (0 < 16) ∧ (w11_18.regPhase = regSoftStop) ∧ (w11_18.regVt = 0) ∧ (w11_18.ust U.reg = UState.stopping) ∧
  (0 < 16) ∧ ((w11_19.regSense w11_19_4).ust U.reg ≠ UState.off) ∧
    ((w11_19.regSense w11_19_4).fld R.REG_PROT F.REG_PROT_OV < (w11_19.regSense w11_19_4).regVos) ∧
  (0 < 16) ∧ (1 &&& w11_20.regUsed ≠ 0) ∧ ((w11_20.ust U.reg).live = true) ∧
  (0 < 16) ∧ (bitAt w11_21.regUsed 7 = true) ∧ (bitAt w11_21.regActive 7 = false) ∧ (bitAt w11_21.rgl.onMask 7 = false) ∧
    (bitAt w11_21.rgl.hiz 7 = false) := by
  repeat' apply And.intro
  all_goals decide +kernel

def snS : State := put (units w0 [(U.fe 0, .running), (U.rnd 0, .running), (U.pos, .running), (U.sent, .running)])
  [(R.RNDr_SEQe 0 0, 0x80000000), (R.POSk_CFG 0, 0x80000001), (R.POSk_CFG 3, 0x80000001), (R.SENTi_CFG 3, 0xFFFFFFFF)]
def sf : SentIn := ⟨168000, List.replicate 7 36000 ++ [(12 + sentCrc4 false (List.replicate 6 0)) * 3000], none⟩
def w12_2 : State := { snS with rnd := [(0, { rndDefault 0 with running := true })] }
def w12_3 : State := { snS with rnd := [(0, { rndDefault 0 with running := true, urgent := [⟨1, 2, 3, none, none, false⟩] })] }
def w12_4 : State := { snS with rnd := [(0, { rndDefault 0 with running := true, active := some ⟨1, 2, 3, none, none, true⟩ })] }
def w12_5 : State := { snS with rnd := [(0, { rndDefault 0 with watch := [(63, true)] })] }
def w12_10 : State := { snS with pos := [(3, { posDefault 0 with ab := some 2 })] }
def w12_12 : State := put snS [(R.SENTi_CFG 3, 0x00FF0686)]
def w12_16 : State := { snS with rnd := [(0, { rndDefault 0 with queue := [[1, 2, 3, 4, 5, 6, 7, 8]] })] }

/-- States and operands that meet the hypotheses of `SensingEvents`, clause by clause. -/
theorem witness_SensingEvents :
  (((snS.each [] State.resolverIn).ust (U.fe (((snS.each [] State.resolverIn).pairEngines 0).headD 0))).active = true) ∧
  (0 < 2) ∧ (0 < 64) ∧ ((w12_2.rd 0).running = true) ∧ ((w12_2.rd 0).active = Option.none) ∧ (w12_2.ust (U.rnd 0) = UState.running) ∧
    (w12_2.flag (R.RNDr_SEQe 0 0) F.RNDr_SEQe_VALID = true) ∧ (w12_2.fld (R.RNDr_STATE 0) F.RNDr_STATE_ENTRY = 0) ∧
  (0 < 2) ∧ (w12_3.faultPending (U.rnd 0) = false) ∧ (w12_3.ust (U.rnd 0) = UState.running) ∧ ((w12_3.rd 0).active = Option.none) ∧
    ((w12_3.rd 0).urgent = [{ channel := 1, settle := 2, slot := 3, op := Option.none, use := Option.none, arrived := false }]) ∧
    (false = false) ∧
  (0 < 2) ∧ ((w12_4.rd 0).active = some { channel := 1, settle := 2, slot := 3, op := Option.none, use := Option.none, arrived := true }) ∧ ((w12_4.rd 0).urgent = []) ∧
  (0 < 2) ∧ (63 < 64) ∧ (w12_5.ust (U.rnd 0) = UState.running) ∧ (FMap.get (fun _ => false) (w12_5.rd 0).watch 63 = true) ∧
  (0 < 2) ∧ (snS.ust (U.rnd 0) ≠ UState.off) ∧
  (0 < 2) ∧ (5 < 6) ∧ (snS.posLive 0 = true) ∧ (invalidating 5 = true) ∧
  (0 < 2) ∧ (snS.posLive 0 = true) ∧ ((snS.ps 0).excOff = false) ∧ (snS.fld (R.POSk_STAT 0) F.POSk_STAT_TERR < 10) ∧
  (0 < 2) ∧ (snS.posLive 0 = true) ∧
  (2 ≤ 3) ∧ (w12_10.posLive 3 = true) ∧ ((w12_10.ps 3).ab.getD (2 * b2n true + b2n true) = 2) ∧
  (2 ≤ 3) ∧ (snS.posLive 3 = true) ∧
  (3 < 4) ∧ (w12_12.sentLive 3 = true) ∧
    (w12_12.sentErrs 3 { sync := sf.sync, pulses := 36000 :: sf.pulses.tail, pause := Option.none } = 0) ∧
  (3 < 4) ∧ (snS.sentLive 3 = true) ∧ (snS.sentErrs 3 { sync := sf.sync, pulses := 36000 :: sf.pulses.tail, pause := Option.none } ≠ 0) ∧
  (snS.sentLive 3 = true) := by
  repeat' apply And.intro
  all_goals decide +kernel

/-- States and operands that meet the hypotheses of `SensingAccesses`, clause by clause. -/
theorem witness_SensingAccesses :
  (snS.Writes 64 (R.RNDr_URG 0) 47 ((if 47 < getF 47 { hi := 5, lo := 0 } then [Status.eRange] else []) ++ snS.urgentFails 0)) ∧
  ((w12_16.rd 0).queue = [[1, 2, 3, 4, 5, 6, 7, 8]]) ∧ (w12_16.Lets 64 (R.RNDr_RQHI 0) 0) ∧
  (snS.Writes 64 (R.FCV_CHn_CORR 31) 1073743871 (corrFails 1073743871 ++ if snS.groupUsed (31 / 4) = true then [Status.eState] else [])) ∧
  (snS.Writes 64 (R.RNDr_CORRk 1 3) 1073743871 (corrFails 1073743871)) ∧
  (snS.Writes 64 (R.POSk_OFS 3) 1073743871 (if snS.sourceUsed 3 = true then [Status.eState] else [])) ∧
  (snS.Lets 64 (R.RNDr_URGRES 1) 0) := by
  repeat' apply And.intro
  all_goals first | decide +kernel | (unfold State.Lets; decide +kernel)

def ldS : State := put { units w0 [(U.ldg, .running)] with cores := [(0, { coreDefault 0 with cond := .running })] } [(R.LDG_Pp_CFG 11, 0x10), (R.RST_WAKE, 4)]
def plan0 : PlanOut := ⟨0, [(0, 5, 6)], [(0, 5)], [], 10, 11, 12, [], []⟩
def w13_4 : State := { ldS with ldg := { ldS.ldg with plan := some plan0 } }
def w13_6 : State := { ldS with ldg := { ldS.ldg with holes := [⟨0, 0, 0, none⟩, ⟨1, 0, 0, none⟩] } }
def w13_7 : State := { ldS with rst := { ldS.rst with standby := true }, aon := { ldS.aon with period := 60 } }
def w13_9 : State := { ldS with aon := { ldS.aon with refill := 5, cap := 100 } }
def w13_10 : State := { ldS with aon := { ldS.aon with refill := 5, cap := 100, wakePower := 3 } }
def w13_11 : State := { ldS with ldg := { ldS.ldg with ports := [(11, { portDefault 0 with net := -5 })] } }
def w13_12 : State := { ldS with ldg := { ldS.ldg with wq := [[1, 2, 3, 4, 5, 6, 7, 8]] } }
def w13_13 : State := { ldS with aon := { ldS.aon with balance := -40960 } }

/-- States and operands that meet the hypotheses of `LedgerEvents`, clause by clause. -/
theorem witness_LedgerEvents :
  (11 < 12) ∧ (ldS.ust U.ldg = UState.running) ∧ (ldS.portKind 11 ≠ 0) ∧
  (11 < 12) ∧ (ldS.ust U.ldg = UState.running) ∧
  (11 < 12) ∧ (ldS.ust U.ldg = UState.running) ∧ (ldS.plannerRuns = true) ∧
  (11 < 12) ∧ (w13_4.ldg.plan = some plan0) ∧ (w13_4.plannerRuns = true) ∧
  (11 < 12) ∧ (ldS.ust U.ldg = UState.running) ∧ (ldS.flag R.LDG_STATE F.LDG_STATE_STALE = false) ∧
  (11 < 12) ∧ ((w13_6.ldg.holes.any fun h => h.fn == 0) = true) ∧
  (11 < 12) ∧ (w13_7.rst.standby = true) ∧ (w13_7.rst.transportDue = false) ∧ (w13_7.aon.period ≠ 0) ∧ (w13_7.aon.waiting = false) ∧
  (11 < 12) ∧ (ldS.awake = true) ∧ (ldS.fld R.RST_WAKE F.RST_WAKE_SRC = 4) ∧
  (11 < 12) ∧ (w13_9.rst.standby = false) ∧
  (11 < 12) ∧ (w13_10.awake = true) ∧ (-↑(w13_10.aon.cap * 4096) ≤ w13_10.aon.balance - ↑(w13_10.aon.wakePower * 125)) ∧
  (11 < 12) ∧ (w13_11.portKind 11 ≠ 0) ∧ (w13_11.Lets 64 (R.LDG_Pp_ELO 11) 0) ∧
  (11 < 12) ∧ (w13_12.ldg.wq = [[1, 2, 3, 4, 5, 6, 7, 8]]) ∧ (w13_12.Lets 64 R.LDG_WQHI 0) ∧
  (11 < 12) ∧ (w13_13.Lets 64 R.LDG_KABLO 0) ∧
  (11 < 12) ∧ (ldS.Writes 64 R.LDG_IMB 1#32) := by
  repeat' apply And.intro
  all_goals first | decide +kernel | (unfold State.Lets; decide +kernel)

def ssS : State := { put w0 [(R.SSM_WDSTATn 3, 2)] with cores := [(0, { coreDefault 0 with cond := .running }), (3, { coreDefault 0 with cond := .running })] }
def w14_2 : State := { put ssS [(R.SSM_WDCFGn 3, 0x640064)] with time := 10000000 }
def w14_5 : State := { ssS with ssm := { ssS.ssm with frames := [(1, 0, 3)] } }
def w14_7 : State := { ssS with ssm := { ssS.ssm with heartbeat := true } }

/-- States and operands that meet the hypotheses of `SafeStateEvents`, clause by clause. -/
theorem witness_SafeStateEvents :
  (getF 1 F.SSM_FACK_ACK = 1) ∧ (ssS.Writes 64 R.SSM_FACK 1 (if ssS.fld R.SSM_CAUSE F.SSM_CAUSE_ACTIVE ≠ 0 ∧ ssS.fld R.SSM_CAUSE F.SSM_CAUSE_ACTIVE ≠ 32 then [Status.eInterlock] else [])) ∧
  (w14_2.Writes 67 (R.SSM_WDKn 3) 42330 (if 67 = w14_2.wdServer 3 then [] else [Status.eLocked])) ∧
    (w14_2.fld (R.SSM_WDSTATn 3) F.SSM_WDSTATn_MODE = 1 ∧ w14_2.time - (w14_2.wd 3).at_ ≤ 200000000 ∨ w14_2.fld (R.SSM_WDSTATn 3) F.SSM_WDSTATn_MODE = 2 ∧ 100000 * w14_2.fld (R.SSM_WDCFGn 3) F.SSM_WDCFGn_MIN ≤ w14_2.time - (w14_2.wd 3).at_ ∧ w14_2.time - (w14_2.wd 3).at_ ≤ 100000 * w14_2.fld (R.SSM_WDCFGn 3) F.SSM_WDCFGn_MAX) ∧ ((42330 : Word).toNat = if (w14_2.wd 3).second = true then 23205 else 42330) ∧
  (ssS.pairRuns 0 = true) ∧ (cycleClasses { a := 1, b := 1 } false ≠ 0) ∧ (ssS.reachOf 6 (2 ^ 0) ≠ 0) ∧
  (3 < 4) ∧ (ssS.split = false) ∧ (ssS.pairRuns 3 = true) ∧ ((ssS.core 3).halted = false) ∧
    (1 % 16 = 2 ^ injectedGroup (ssS.pairSt 3).testPos) ∧ (0 % 16 = 0) ∧ (1 % 16 = 2 ^ injectedGroup (ssS.pairSt 3).testPos) ∧
    (0 % 16 = 0) ∧
  (w14_5.ssm.frames = [(1, 0, 3)]) ∧ (1 ≠ 4) ∧
  (w14_7.ssm.heartbeat = true) ∧
  (3 < 4) ∧ (ssS.fld (R.SSM_WDSTATn 3) F.SSM_WDSTATn_MODE = 2) ∧ ((ssS.wd 3).warned = false) ∧
  (3 < 4) ∧ (ssS.fld (R.SSM_WDSTATn 3) F.SSM_WDSTATn_MODE = 1 ∨ ssS.fld (R.SSM_WDSTATn 3) F.SSM_WDSTATn_MODE = 2) ∧
  (915 ≤ 1526) ∧ (1526 ≤ 1526) ∧ (ssS.ssmCause 7 = false) ∧
  (914 < 915 ∨ 1526 < 914) ∧ (ssS.ssm.monBad = 0) := by
  repeat' apply And.intro
  all_goals first | decide +kernel | (unfold State.Lets; decide +kernel)

def cS : State := { put w0 [(R.EVC_SRCm 250, 0x81FF4000), (R.EVC_SRCm 251, 0xC1FF4000)] with cores := [(0, { coreDefault 0 with cond := .running })], evc := { State.reset.evc with raised := [250] } }
def w15_2 : State := { cS with evc := { cS.evc with inserv := [(256, 0)] } }
def w15_5 : State := { cS with evc := State.reset.evc }
def w15_6 : State := { cS with cores := [(0, { coreDefault 0 with cond := .running, wfi := true, mtimecmp := 0 })] }
def w15_8 : State := { cS with cores := [(0, { coreDefault 0 with cond := .running, mfcfg := true })], evc := { cS.evc with raised := [251] } }
def w15_9 : State := { cS with cores := [(0, { coreDefault 0 with cond := .running, active := true, fid := 251, mfepc := 64 })], evc := { cS.evc with inserv := [(251, 0)] } }
def w15_10 : State := { cS with time := 5, cores := [(0, { coreDefault 0 with cond := .running, mtimecmp := 5, csr := [(0x300, 8), (0x304, 0x80)] })] }
def w15_11 : State := { cS with cores := [(0, { coreDefault 0 with cond := .running, mtimecmp := 5 })] }
def w15_12 : State := { cS with cores := [] }
def w15_13 : State := { cS with cores := [(0, { coreDefault 0 with cond := .parked, active := true, fid := 251, mfepc := 64 })], evc := { cS.evc with inserv := [(251, 0)] } }
def w15_16 : State := { cS with cores := [(0, { coreDefault 0 with cond := .running }), (3, { coreDefault 0 with cond := .parked })] }

/-- States and operands that meet the hypotheses of `CoreEvents`, clause by clause. -/
theorem witness_CoreEvents :
  (cS.coreFails 0 = []) ∧ (cS.coreOfCode 64 = some 0) ∧ ((cS.core 0).halted = false) ∧
    (cS.bestSource (List.filter (cS.deliverable 0) cS.evc.raised) = some 250) ∧ (250 ≠ 0) ∧ (250 ≠ 1023) ∧
    (cS.Lets 64 (R.EVC_CLAIMt 0) 0) ∧
  (w15_2.coreFails 0 = []) ∧ (w15_2.coreOfCode 64 = some 0) ∧ ((256 : Word).toNat < 1024) ∧ (0 < getF 256 F.EVC_CLAIMt_ID) ∧
    (getF 256 F.EVC_CLAIMt_ID ≤ 256) ∧ ((List.any w15_2.evc.inserv fun p => p.fst == getF 256 F.EVC_CLAIMt_ID && p.snd == 0) = true) ∧
    (w15_2.Lets 64 (R.EVC_CLAIMt 0) 1) ∧
  (15 < 16) ∧ (bitAt ((32768 : Word).toNat) 15 = true) ∧ (getF 32768 { hi := 31, lo := 16 } = 0) ∧ (cS.Lets 64 R.EVC_DBSET 1) ∧
  (cS.Writes 64 (R.EVC_SRCm 256) 2180988928 (((cS.codeFails (getF 2180988928 F.EVC_SRCm_TARGET) ++ if getF 2180988928 F.EVC_SRCm_FALLBACK = 255 then [] else cS.codeFails (getF 2180988928 F.EVC_SRCm_FALLBACK)) ++ if getF 2180988928 F.EVC_SRCm_FALLBACK = getF 2180988928 F.EVC_SRCm_TARGET then [Status.eRange] else []) ++ if getF 2180988928 F.EVC_SRCm_PRIO = 0 then [Status.eRange] else [])) ∧
  (w15_5.available 0 = true) ∧ (w15_5.anyWake 0 = false) ∧
  ((w15_6.core 0).wfi = true) ∧ (w15_6.available 0 = true) ∧ (w15_6.wakeHolds 0 3 0 = true) ∧
  (1 ≤ 256) ∧ (256 ≤ 256) ∧
  (w15_8.bestSource (List.filter (w15_8.fastPending 0) w15_8.evc.raised) = some 251) ∧ (w15_8.available 0 = true) ∧
    ((w15_8.core 0).mfcfg = true) ∧ ((w15_8.core 0).active = false) ∧ ((w15_8.core 0).halted = false) ∧
  ((w15_9.core 0).active = true) ∧
  ((w15_10.core 0).mtimecmp ≤ w15_10.time) ∧ (w15_10.irqOf 0 = some 7) ∧
  (w15_11.time < (w15_11.core 0).mtimecmp ∨ w15_11.irqOf 0 = Option.none) ∧
  (250 ≠ 1) ∧ (250 < 512) ∧ (w15_12.srcPending 250 = true) ∧ (w15_12.deliveredTo 250 = Option.none) ∧
  (w15_13.available 0 = false) ∧
  (cS.csrRead 0 2017 = some 0) ∧ ((cS.core 0).csrReach 2017 = true) ∧ (isCounter 2017 = false) ∧
  ((cS.core 0).priv = 3) ∧
  (w15_16.coreOfCode 64 = some 0) ∧ (0 < 3) ∧ (3 < if w15_16.split = true then w15_16.variant.cores else w15_16.variant.pairs) ∧
    ((268697596 : Word).toNat % 4 = 0) ∧ (startAddrOk ((268697596 : Word).toNat) = true) ∧ (268697596 ≠ 0) ∧
    ((w15_16.core 3).cond = CoreCond.parked) ∧ (w15_16.Lets 64 (R.RST_PVECn 3) 1) := by
  repeat' apply And.intro
  all_goals first | decide +kernel | (unfold State.Lets; decide +kernel)

def nwS (st : UState) : State := put (units w0 [(U.can 0, st), (U.can 5, st), (U.eth 1, st)]) [(R.CANn_TIMING 0, 0x50500202), (R.ETHp_MDIO 1, 0x18000000), (R.ETHp_CFG 1, 0xFFFFFFFF)]
def w16_1 : State := nwS .idle
def w16_2 : State := put (nwS .idle) [(R.ETHp_MDIO 1, 0)]
def w16_3 : State := put (nwS .running) [(R.ETHp_MDIO 1, 0xA0000000)]
def w16_4 : State := nwS .running
def w16_5 : State := { nwS .running with can := [(5, { canDefault 0 with tx := some (0, 0), tec := 5 })] }
def w16_6 : State := { put (nwS .running) [(R.CANn_MODE 5, 0x1F00)] with can := [(5, { canDefault 0 with tx := some (0, 0), tec := 5 })] }
def w16_7 : State := put (nwS .running) [(R.CANn_STATE 5, 0x200)]
def w16_8 : State := put (nwS .running) [(R.PHn_CFG 1, 0x35000700), (R.PHn_TAIL 1, 1)]
def w16_9 : State := nwS .running
def nwA (st : Nat) : State := put (nwS .running) [(R.ETHp_CFG 1, 0), (R.ETHp_STATE 1, st)]
def w16_10 : State := nwA 0xFFFFFF00
def w16_11 : State := nwS .running
def w16_12 : State := nwS .running
def w16_13 : State := put (nwS .running) [(R.ETHp_GCLj 1 7, 0xF0000100)]
def w16_14 : State := nwS .running
def w16_15 : State := put (nwS .running) [(R.ETHp_CFG 0, 0xFFFFFFFF)]

/-- States and operands that meet the hypotheses of `NetworkEvents`, clause by clause. -/
theorem witness_NetworkEvents :
  (w16_1.Writes 64 (R.CANn_MODE 0) 3840 ((if getF 3840 F.CANn_MODE_TRIPLE = 1 ∧ 1 < w16_1.fld (R.CANn_TIMING 0) F.CANn_TIMING_NRATE ∨ getF 3840 F.CANn_MODE_MODE = 3 ∨ 15 < getF 3840 F.CANn_MODE_RETRY ∧ getF 3840 F.CANn_MODE_RETRY ≠ 31 then [Status.eRange] else []) ++ if w16_1.ust (U.can 0) = UState.idle then [] else [Status.eState])) ∧
  (w16_2.Writes 64 (R.ETHp_MDIO 1) 0 ((if getF 0 F.ETHp_MDIO_OP = 3 ∨ getF 0 F.ETHp_MDIO_OP = 0 ∧ getF 0 F.ETHp_MDIO_CL45 = 0 ∧ getF 0 F.ETHp_MDIO_GO = 1 then [Status.eRange] else []) ++ if w16_2.flag (R.ETHp_MDIO 1) F.ETHp_MDIO_GO = true then [Status.eState] else [])) ∧
  (1 < 2) ∧ (65535 < 65536) ∧ (w16_3.flag (R.ETHp_MDIO 1) F.ETHp_MDIO_GO = true) ∧ (w16_3.fld (R.ETHp_MDIO 1) F.ETHp_MDIO_OP = 2) ∧
  (5 < 6) ∧ (w16_4.ust (U.can 5) = UState.running) ∧ (w16_4.fld (R.CANn_STATE 5) F.CANn_STATE_CONF ≠ 2) ∧ (w16_4.canNormal 5 = true) ∧
  (w16_5.ust (U.can 5) = UState.running) ∧ (w16_5.fld (R.CANn_STATE 5) F.CANn_STATE_CONF ≠ 2) ∧ ((w16_5.cn 5).tx = some (0, 0)) ∧
    (w16_5.po.ready = []) ∧ (w16_5.po.deferred = []) ∧
  (w16_6.ust (U.can 5) = UState.running) ∧ (w16_6.fld (R.CANn_STATE 5) F.CANn_STATE_CONF ≠ 2) ∧ ((w16_6.cn 5).tx = some (0, 0)) ∧
    (w16_6.fld (R.CANn_MODE 5) F.CANn_MODE_RETRY = 31 ∨ 0 < w16_6.fld (R.CANn_MODE 5) F.CANn_MODE_RETRY) ∧
  (5 < 6) ∧ (w16_7.ust (U.can 5) = UState.running) ∧ (w16_7.fld (R.CANn_STATE 5) F.CANn_STATE_CONF = 2) ∧
  (5 < 6) ∧ (w16_8.ust (U.can 5) = UState.running) ∧ (w16_8.canNormal 5 = true) ∧ (w16_8.fld (R.CANn_STATE 5) F.CANn_STATE_CONF ≠ 2) ∧
    ((w16_8.cn 5).tx = Option.none) ∧ (w16_8.nextReceiptPh (U.can 5) = some 1) ∧
    ((w16_8.readSlot (w16_8.phSlot 1 (w16_8.phHead 1))).snd = some (((put (nwS UState.running) [(R.PHn_CFG 1, 889194240), (R.PHn_TAIL 1, 1)]).readSlot 0).snd.getD [])) ∧
  (1 < 2) ∧ (w16_9.ust (U.eth 1) = UState.running) ∧
  (1 < 2) ∧ (w16_10.ust (U.eth 1) = UState.running) ∧ (w16_10.merged = false) ∧
    ((w16_10.ethAccept 1 { vlan := Option.none, mac := [], ip := [10, 0, 0, 9], port := 0, dstIp := (nwA 0).ownIp 1, dstPort := 0, fragment := false, options := false, sumOk := true, sec := Option.none, rtag := Option.none, payload := [] }).snd = true) ∧ ((nwA 0).ownIp 1 = w16_10.ownIp 1) ∧ ((w16_10.et 1).answers = []) ∧
  (1 < 2) ∧ (w16_11.ust (U.eth 1) = UState.running) ∧ (w16_11.ethFlag 1 6 = true) ∧ (-2147483648 ≤ -2147483648) ∧
    (-2147483648 < 2147483648) ∧
  (1 < 2) ∧ (w16_12.ust (U.eth 1) = UState.running) ∧ (w16_12.ethFlag 1 6 = true) ∧
  (1 < 2) ∧ (w16_13.ethFlag 1 7 = true) ∧ (w16_13.gates 1 ≠ []) ∧
  (1 < 2) ∧ (w16_14.flag (R.ETHp_STATE 1) F.ETHp_STATE_LINK ≠ true) ∧
  (w16_15.merged = true) := by
  repeat' apply And.intro
  all_goals first | decide +kernel | (unfold State.Lets; decide +kernel)

def seC : State := { put w0 [(R.PIN_CFGn 31, 0x100), (R.PIN_CFGn 5, 0x500)] with cores := [(0, { coreDefault 0 with cond := .running }), (3, { coreDefault 0 with cond := .running, halted := true })], sec := { State.reset.sec with records := [(1, [5])], digests := [(1, leBytes 48 (Config.sha384 [5]).toNat)] } }
def w17_5 : State := { seC with sec := { seC.sec with cmd := some ⟨2, 7, [1]⟩ } }
def w17_16 : State := { seC with dbg := { seC.dbg with cmderr := 3 } }
def w17_18 : State := { seC with dbg := { seC.dbg with cmderr := 3 } }
def w17_18_6 : DbgCmd := ⟨false, true, 0x1001, true, 5, [], false, [], false⟩
def w17_20 : State := { seC with driveEn := false, sec := { seC.sec with debugKey := some [], unlocked := true } }
def w17_21 : State := { seC with rst := { seC.rst with sysHold := 0, domains := 5 } }

/-- States and operands that meet the hypotheses of `SecurityCommands`, clause by clause. -/
theorem witness_SecurityCommands :
  (w17_5.sec.cmd = some { action := 2, slot := 7, data := [1] }) ∧
  (seC.sec.fails < 3) ∧
  (seC.sec.trngBad = false) ∧ (seC.Lets 64 R.SEC_TRNG 0) ∧
  (seC.Lets 64 R.SEC_TRNG 0) ∧
  (seC.Writes 64 R.PIN_OUT 2147483648 (if ((List.range 32).any fun n => bitAt ((2147483648 : Word).toNat) n != bitAt (BitVec.toNat (seC.reg R.PIN_OUT)) n && seC.pinFunc n != 1) = true then [Status.eLocked] else [])) ∧
  (seC.hartThere 0 = true) ∧ ((seC.core 0).halted = false) ∧
    ((seC.core 0).cond = CoreCond.running ∨ (seC.core 0).cond = CoreCond.parked) ∧
  (seC.hartThere 3 = true) ∧ ((seC.core 3).halted = true) ∧
  (seC.hartThere 3 = true) ∧ ((seC.core 3).halted = true) ∧
  (w17_18.hartThere 3 = true) ∧ (w17_18.dbg.cmderr ≠ 0) ∧ (w17_18_6.clear = false) ∧
  (seC.runCores.contains 3 = true) ∧ (seC.debugLocked = false) ∧ (seC.rst.transport = false) ∧
  (w17_21.tdoDriven = true) ∧
  (((List.range 32).any fun n => seC.pinFunc n == 5) = true) := by
  repeat' apply And.intro
  all_goals first | decide +kernel | (unfold State.Lets; decide +kernel)

def mdS : State := put (units w0 [(U.fe 0, .running), (U.fn 0, .running)]) []
def w18_2 : State := { mdS with linkTries := [(linkKey 3 0, (3, 0))] }
def w18_3 : State := { mdS with eng := [(0, { engDefault 0 with waiting := true })] }
def w18_4 : State := { mdS with mdl := { mdS.mdl with shadow := [(0, some 5)] } }
def w18_5 : State := thr (units w0 []) [(0x104, 0, 7)]
def w18_6 : State := put mdS [(R.MOD_LCFGn 47, 0x10000)]
def w18_7 : State := { put mdS [(R.CLK_STAT, 511)] with rst := { mdS.rst with sysHold := 0, domains := 5 }, pads := { mdS.pads with soft := [47] } }
def w18_8 : State := put mdS [(R.MOD_LCFGn 47, 0x10000)]
def w18_9 : State := put mdS [(R.MOD_LCFGn 47, 0x10000)]
def w18_11 : State := { mdS with driveEn := false }
def w18_13 : State := { mdS with mdl := { mdS.mdl with links := [(7, { glLinkDefault 0 with wait := .poll 5 false, frame := [1, 2, 3, 4, 5, 6] })] } }
def w18_14 : State := { mdS with mdl := { mdS.mdl with links := [(7, { glLinkDefault 0 with wait := .poll 5 false, frame := [1, 2, 3, 4, 5, 6] })] } }
def w18_15 : State := { mdS with eng := [(0, { engDefault 0 with waiting := true })] }

/-- States and operands that meet the hypotheses of `ModulatorEvents`, clause by clause. -/
theorem witness_ModulatorEvents :
  (mdS.tries 3 0 < 3) ∧
  (3 ≤ w18_2.tries 3 0) ∧
  (0 < 8) ∧ (∀ (j : Nat), j ∈ w18_3.pairEngines 0 → (w18_3.e j).waiting = true ∧ (w18_3.groupsOf j).contains 0 = true) ∧
    (w18_3.pairEngines 0 ≠ []) ∧
  (w18_4.ust (U.fe ((w18_4.pairEngines 0).headD 0)) = UState.running) ∧
    (∀ (j : Nat), j ∈ w18_4.pairEngines 0 → w18_4.faultPending (U.fe j) = false ∧ (w18_4.e j).waiting = false) ∧
    (∃ l, l ∈ w18_4.fnLegs (w18_4.fld (R.FEn_STATE ((w18_4.pairEngines 0).headD 0)) F.FEn_STATE_FUNCTION) ∧
    ((w18_4.each (w18_4.fnLegs (w18_4.fld (R.FEn_STATE ((w18_4.pairEngines 0).headD 0)) F.FEn_STATE_FUNCTION)) State.applyTiming).shadowOf l).isSome = true) ∧
  (((List.range 8).all fun j => !((w18_5.ust (U.fe j)).active && (w18_5.groupsOf j).contains 1)) = true) ∧
    (((List.range 4).any fun j => w18_5.thr 260 j (-1) / 4 == ↑1) = true) ∧ (w18_5.mdl.watch.contains 1 = false) ∧
  (47 < 48) ∧ (w18_6.fld (R.MOD_LCFGn 47) F.MOD_LCFGn_ROLE ≠ 0) ∧ (w18_6.latchOf 47 = 0) ∧
  (w18_7.ctrlStopped = false) ∧ (w18_7.rst.sysHold = 0) ∧ (3 ≤ w18_7.rst.domains) ∧
  (47 < 48) ∧
  (47 < 48) ∧ (w18_9.fld (R.MOD_LCFGn 47) F.MOD_LCFGn_ROLE ≠ 0) ∧ (w18_9.legOvr 47 = 0) ∧
    ((w18_9.lockOf 47).counts (w18_9.fld R.MOD_IDT F.MOD_IDT_IDT) w18_9.time = true) ∧
  (mdS.driveEn = true) ∧
  (w18_11.driveEn = false) ∧
  (7 < mdS.variant.glks) ∧
  (7 < 8) ∧ (5 < 6) ∧ ((w18_13.glLink 7).wait = GlWait.poll 5 false) ∧
    (glGood (w18_13.glLink 7).frame [165, 0, 3, 0, 0, crc8 [0, 3, 0, 0]] = true) ∧
  (7 < 8) ∧ ((w18_14.glLink 7).wait ≠ GlWait.none) ∧
  ((w18_15.ust (U.fe ((w18_15.pairEngines 0).headD 0))).active = true) ∧
    (∀ (j : Nat), j ∈ w18_15.pairEngines 0 → (w18_15.e j).waiting = true ∧
    (w18_15.e j).cause = 0 ∧ w18_15.faultPending (U.fe j) = false) := by
  repeat' apply And.intro
  all_goals decide +kernel

def chE (st : UState) (phase pilot : Nat) (c : ChgSt) : State :=
  { put (units w0 [(U.chg, st), (U.fn 1, .idle), (U.fn 2, .idle)]) [(R.CHG_CFG, 0xFF0102), (R.CHG_PILOT, 0x20002000 + pilot), (R.CHG_STATE, phase * 256), (R.FCV_CHn_LAST 10, 4000), (R.FCV_CHn_FS 10, 16384)] with chg := c }
def gi : GridIn := ⟨[230 * 65536, 0, 0], 65536⟩
def pilot9 : PilotIn := ⟨List.replicate 8 ⟨10000, 5000, 9000, -12000⟩, 9000, 0⟩
def w19_1 : State := chE .armed 0 2 chgReset
def w19_2 : State := chE .armed 0 2 chgReset
def w19_2_2 : PilotIn := ⟨[], 0, 0⟩
def w19_3 : State := chE .armed 0 2 chgReset
def w19_4 : State := chE .running 5 6 chgReset
def w19_5 : State := chE .running 5 7 chgReset
def w19_6 : State := chE .running 2 2 { chgReset with acCmd := true }
def w19_7 : State := chE .running 1 2 chgReset
def w19_8 : State := chE .running 2 2 { chgReset with acCmd := true }
def w19_9 : State := { chE .running 3 2 { chgReset with phSel := 2 } with eng := [(1, { engDefault 1 with pllHz := 3276800 })] }
def w19_10 : State := chE .running 3 2 chgReset
def w19_11 : State := put (chE .running 5 2 { chgReset with search := 655360, u0 := 230 * 65536, lIn := some 6553600, inLim := 6553600, duty := (500, 1000) }) [(R.CHG_ILIM, 0x40000), (R.CHG_PILOT, 0x61F40012)]
def w19_11_1 : GridIn := ⟨[230 * 65536], 655360⟩
def w19_12 : State := chE .running 5 2 { chgReset with lIn := some 1000000, inLim := 2000000 }
def w19_13 : State := chE .running 5 2 chgReset
def w19_14 : State := chE .running 6 2 { chgReset with term := 100 }
def w19_15 : State := chE .running 5 2 chgReset
def w19_16 : State := { chE .running 6 2 { chgReset with term := 100, termAt := some 0 } with time := 60000000000 }
def w19_17 : State := chE .running 5 2 chgReset
def w19_18 : State := chE .running 5 2 chgReset
def w19_19 : State := put (chE .running 5 2 chgReset) [(R.FCV_CHn_FS 10, 65535 * 1000)]
def w19_20 : State := chE .running 7 2 chgReset
def w19_21 : State := chE .running 8 2 chgReset
def w19_22 : State := chE .running 9 2 chgReset
def w19_23 : State := chE .running 9 2 { chgReset with hard := true }
def w19_24 : State := chE .stopping 9 2 { chgReset with hard := true }
def w19_25 : State := { chE .idle 0 2 chgReset with rst := { State.reset.rst with transportDue := true } }

/-- States and operands that meet the hypotheses of `ChargerEvents`, clause by clause. -/
theorem witness_ChargerEvents :
  (w19_1.ust U.chg ≠ UState.absent) ∧ (pilotAccepted pilot9 = true) ∧
  (pilotAccepted w19_2_2 = false) ∧
  (w19_3.ust U.chg ≠ UState.absent) ∧
  (w19_4.pilotClass = 6) ∧ (w19_4.ust U.chg = UState.running) ∧ (w19_4.chgPhase ≠ 0) ∧ (w19_4.chg.hard = false) ∧
  (w19_5.pilotClass = 7) ∧ (w19_5.ust U.chg = UState.running) ∧
  (w19_6.ust U.chg ≠ UState.absent) ∧
  (w19_7.chgPhase = 1) ∧ (w19_7.chg.hard = false) ∧ ((w19_7.ust U.chg).live = true) ∧
  (w19_8.chg.acCmd ≠ w19_8.chg.acFb) ∧ ((w19_8.ust U.chg).live = true) ∧
  ((w19_9.gridSense gi).chgPhase = 3) ∧ ((w19_9.gridSense gi).ust U.chg = UState.running) ∧ ((w19_9.gridSense gi).chg.hard = false) ∧
    (w19_9.chg.phSel = 2) ∧ (List.take 1 gi.u ≠ []) ∧
    (((List.take 1 gi.u).all fun x => decide (w19_9.cth 1307 230 * 32768 < ↑x)) = true) ∧ ((w19_9.gridSense gi).gridLost = false) ∧
  (w19_10.chgPhase = 3) ∧
  ((w19_11.gridSense w19_11_1).searching = true) ∧
    (¬100 * (w19_11.gridSense w19_11_1).gridVolts * 65536 < 94 * ↑(w19_11.gridSense w19_11_1).chg.u0) ∧
    (¬w19_11_1.i < (w19_11.gridSense w19_11_1).chg.search - 65536) ∧
    ((w19_11.gridSense w19_11_1).chg.search < (w19_11.gridSense w19_11_1).otherLimit) ∧
  (w19_12.chgPhase = 5) ∧ (w19_12.searching = false) ∧
  (w19_13.ust U.chg ≠ UState.absent) ∧
  (w19_14.chgPhase = 6) ∧ (w19_14.chgI2 * 65536 < ↑w19_14.chg.term) ∧
  (w19_15.chgPhase = 4 ∨ w19_15.chgPhase = 5) ∧ (w19_15.chg.reason = 0) ∧ ((w19_15.ust U.chg).live = true) ∧
  (w19_16.chgPhase ≠ 0) ∧ (w19_16.chg.reason = 0) ∧ (w19_16.terminated = true) ∧
  (w19_17.chgPhase ≠ 0) ∧ (w19_17.chg.reason = 0) ∧ (w19_17.terminated = false) ∧ ((w19_17.ust U.chg).live = true) ∧
  (102 / 100 * w19_19.cth 1287 1000 < w19_19.chgV2) ∧ ((w19_19.ust U.chg).live = true) ∧
  ((w19_20.gridSense gi).chgPhase = 7) ∧ ((w19_20.gridSense gi).chg.hard = false) ∧
    ((w19_20.gridSense gi).gridOut = true ∨ (w19_20.gridSense gi).gridLost = true) ∧
  (w19_21.chgPhase = 8) ∧ (w19_21.chg.hard = false) ∧ ((w19_21.ust U.chg).live = true) ∧
  (w19_22.chgPhase = 9) ∧ (w19_22.chg.hard = false) ∧
  (w19_23.chg.hard = true) ∧
  (w19_24.ust U.chg = UState.stopping) ∧ (w19_24.chg.hard = true) ∧ (w19_24.chg.acFb = false) ∧ (w19_24.chg.cpS2 = false) ∧
    (∀ (n : Nat), n ∈ w19_24.chgLegs → w19_24.dutyOf n = Option.none) ∧
  (w19_25.rst.transportDue = true) := by
  repeat' apply And.intro
  all_goals decide +kernel

def akS (st : UState) (phase attempt : Nat) (a : ActSt) : State :=
  { put (units w0 [(U.ac 3, st), (U.gbx, st)]) [(R.ACT_VACT, 48000), (R.ACk_CFG 3, 3000 * 65536), (R.ACk_STATE 3, attempt * 1048576 + phase * 65536)] with actEn := true, act := [(3, a)] }
def w20_1 : State := akS .running 6 1 (actDefault 0)
def w20_1_2 : ActIn := ⟨-32768, 0, [0, 0, 0], 48000⟩
def w20_2 : State := akS .running 1 1 (actDefault 0)
def w20_3 : State := akS .running 2 1 (actDefault 0)
def w20_4 : State := akS .running 2 1 { actDefault 0 with pulse := true }
def w20_5 : State := akS .running 5 1 (actDefault 0)
def w20_6 : State := akS .running 5 3 (actDefault 0)
def w20_7 : State := akS .running 5 4 (actDefault 0)
def w20_8 : State := akS .running 0 3 { actDefault 0 with waiting := true }
def w20_9 : State := akS .running 6 3 (actDefault 0)
def w20_10 : State := akS .running 6 3 (actDefault 0)
def w20_11 : State := akS .running 6 3 (actDefault 0)
def w20_12 : State := akS .idle 0 0 { actDefault 0 with leak := [1] }
def w20_13 : State := akS .idle 0 0 { actDefault 0 with leak := [2] }
def w20_14 : State := akS .running 6 3 (actDefault 0)
def w20_15 : State := akS .stopping 6 1 (actDefault 0)
def w20_16 : State := akS .running 6 1 (actDefault 0)
def w20_17 : State := { akS .running 6 1 (actDefault 0) with actEn := false }
def gbS (state : Nat) (g : GbxSt) : State := { put (units w0 [(U.gbx, .running), (U.fn 0, .running), (U.ac 3, .running)]) [(R.GBX_STATE, state), (R.GBX_CFG, 0x70FF0000), (R.ACk_STATE 3, 0x60000)] with gbx := g }
def w20_18 : State := gbS 0 State.reset.gbx
def w20_19 : State := gbS 0x00100200 { State.reset.gbx with mech := 1, moveTo := 1 }
def w20_20 : State := gbS 0x00000200 { State.reset.gbx with mech := 1, moveTo := 1 }
def w20_21 : State := gbS 0x3100 { State.reset.gbx with mech := 0, target := 2 }
def w20_22 : State := gbS 0x4100 { State.reset.gbx with mech := 0, target := 2, blocked := true }
def w20_23 : State := gbS 0x00200200 { State.reset.gbx with mech := 1, moveTo := 1, parkWait := true }
def w20_24 : State := gbS 0x3100 State.reset.gbx

/-- States and operands that meet the hypotheses of `ActuatorEvents`, clause by clause. -/
theorem witness_ActuatorEvents :
  (3 < 4) ∧ (unitPresent w20_1.variant (U.ac 3) = true) ∧ (w20_1.ust (U.ac 3) ≠ UState.off) ∧ (-32768 ≤ w20_1_2.speed) ∧
    (w20_1_2.speed < 32768) ∧
  (3 < 4) ∧ (w20_2.acLive 3 = true) ∧
  (3 < 4) ∧ (w20_3.acLive 3 = true) ∧ (w20_3.acPhase 3 = 2) ∧ ((w20_3.ac 3).paused = false) ∧
  (3 < 4) ∧ (w20_4.acLive 3 = true) ∧ (w20_4.acPhase 3 = 2) ∧
  (3 < 4) ∧ (w20_5.acLive 3 = true) ∧ (w20_5.acPhase 3 = 5) ∧ (w20_5.ath 3 2056 500 ≤ ↑(absI 500)) ∧
  (3 < 4) ∧ (w20_6.acLive 3 = true) ∧ (w20_6.acPhase 3 ∈ [2, 3, 4, 5, 7]) ∧ ((w20_6.ac 3).reached = false) ∧
    (w20_6.fld (R.ACk_STATE 3) F.ACk_STATE_ATTEMPT < 4) ∧
  (3 < 4) ∧ (w20_7.acLive 3 = true) ∧ (w20_7.acPhase 3 ∈ [2, 3, 4, 5, 7]) ∧ ((w20_7.ac 3).reached = false) ∧
    (4 ≤ w20_7.fld (R.ACk_STATE 3) F.ACk_STATE_ATTEMPT) ∧
  (3 < 4) ∧ (w20_8.acLive 3 = true) ∧ ((w20_8.ac 3).waiting = true) ∧ (w20_8.fld (R.ACk_STATE 3) F.ACk_STATE_ATTEMPT < 4) ∧
  (3 < 4) ∧ (2 < 3) ∧ ((w20_9.ust (U.ac 3)).active = true) ∧
  (3 < 4) ∧ (2 < 3) ∧ (2 = 1 ∨ 2 = 2) ∧ (unitPresent w20_11.variant (U.ac 3) = true) ∧ (w20_11.actLatch (3 * 3 + 2) = 0) ∧
  (3 < 4) ∧ (unitPresent w20_12.variant (U.ac 3) = true) ∧ ((w20_12.ac 3).leak ≠ []) ∧
    (∀ (p : Nat), p < 3 → w20_12.ath 3 2076 20 ≤ ↑([100, 100, 100].getD p 0) ∧ ↑([100, 100, 100].getD p 0) ≤ w20_12.ath 3 2077 1500 ∧ w20_12.ath 3 2076 20 ≤ ↑([100, 100, 100].getD p 0) ∧ ↑([100, 100, 100].getD p 0) ≤ w20_12.ath 3 2077 1500) ∧
  (3 < 4) ∧ (unitPresent w20_13.variant (U.ac 3) = true) ∧ ((w20_13.ac 3).leak ≠ []) ∧ (1 < 3) ∧ (w20_13.actLatch (3 * 3 + 1) = 0) ∧
    (↑([100, 19, 100].getD 1 0) < w20_13.ath 3 2076 20 ∨ w20_13.ath 3 2077 1500 < ↑([100, 100, 100].getD 1 0)) ∧
  (3 < 4) ∧
  (3 < 4) ∧ (unitPresent w20_15.variant (U.ac 3) = true) ∧ (w20_15.ust (U.ac 3) = UState.stopping) ∧
    (¬w20_15.ath 3 2075 100 ≤ ↑(absI (w20_15.sfld (R.ACk_SPD 3) F.ACk_SPD_SPEED))) ∧
  (3 < 4) ∧ (w20_16.actEn = true) ∧
  (3 < 4) ∧ (w20_17.actEn = false) := by
  repeat' apply And.intro
  all_goals decide +kernel

/-- States and operands that meet the hypotheses of `GearboxEvents`, clause by clause. -/
theorem witness_GearboxEvents :
  (3 < 4) ∧ (unitPresent w20_18.variant (U.ac 3) = true) ∧ (w20_18.acPhase 3 = 6) ∧
    (¬w20_18.ath 3 2071 50 ≤ ↑(absI (w20_18.sfld (R.ACk_SPD 3) F.ACk_SPD_SPEED))) ∧ (w20_18.acOwned 3 = false) ∧
    ((w20_18.ust (U.ac 3)).live = true) ∧
  (3 < 4) ∧ (w20_19.gbxOp = 2) ∧ (w20_19.gbx.mech = 1) ∧ (w20_19.gbx.moveTo ≠ 0) ∧ (w20_19.gbxReport 1 = w20_19.gbx.moveTo) ∧
  (3 < 4) ∧ (w20_20.gbxOp ≠ 0) ∧ (w20_20.gbx.mech = 1) ∧ (w20_20.gbx.moveTo ≠ 0) ∧ (w20_20.gbx.parkWait = false) ∧
    (w20_20.gbxReport 1 = 0) ∧ ((w20_20.ust U.gbx).live = true) ∧
  (3 < 4) ∧ (w20_21.gbx.mech < 3) ∧ (w20_21.gbxPhase = 3) ∧ (w20_21.machRuns w20_21.gbx.mech = true) ∧
    (-w20_21.gt 2356 30 ≤ w20_21.nSync - w20_21.machRpm ((w20_21.gbxMachine w20_21.gbx.mech).getD 255)) ∧
    (w20_21.nSync - w20_21.machRpm ((w20_21.gbxMachine w20_21.gbx.mech).getD 255) ≤ w20_21.gt 2356 30) ∧
  (3 < 4) ∧ (w20_22.gbxOp ≠ 0) ∧ (w20_22.gbxPhase = 4) ∧ (w20_22.gbx.blocked = true) ∧
  (3 < 4) ∧ (w20_23.gbxOp = 2) ∧ (w20_23.gbx.parkWait = true) ∧ (w20_23.gbx.moveTo = 1) ∧ (w20_23.gbxReport 1 ≠ 1) ∧
  (3 < 4) ∧ (w20_24.gbxOp ≠ 0) ∧ (w20_24.gbxPhase = 3) := by
  repeat' apply And.intro
  all_goals decide +kernel

def meS : State := put w0 [(R.NVS_WADDR, 0x03800000), (R.RST_STATE, 0x500)]
def meI : State := { meS with img := some { img0 with header := recd 256 [(180, 0), (181, 3)], tables := [⟨recd 32 [(28, 64)], List.replicate 64 7⟩] } }
def w21_1 : State := put meS [(R.MEM_LASTINFO, 0x10005)]
def w21_5 : State := put meS [(R.NVS_WADDR, 0x3FFFE0)]
def w21_6 : State := put meS [(R.NVS_WADDR, 0xBFFFE0)]
def w21_12 : State := { meI with nvs := { meI.nvs with queue := [⟨0, List.replicate 32 9, 0⟩], pulse := true }, mramClosed := false }
def w21_12_8 : NvsWrite := ⟨0, List.replicate 32 9, 0⟩
def w21_13 : State := { meI with nvs := { meI.nvs with jbuf := [⟨1, 8, 1, 0, [5]⟩], jptr := 0xFFFFE0 } }

/-- States and operands that meet the hypotheses of `MemoryCommands`, clause by clause. -/
theorem witness_MemoryCommands :
  (w21_1.Lets 64 R.MEM_LASTINFO 0) ∧
  (meS.Writes 64 R.MEM_INJ 3 ((if 4 ≤ getF 3 F.MEM_INJ_STORE then [Status.eRange] else []) ++ if (decide (getF 3 F.MEM_INJ_STORE = 2 ∨ getF 3 F.MEM_INJ_STORE = 3) && !meS.enginesIdle) = true then [Status.eState] else [])) ∧
  (meS.Writes 64 (R.MEM_CNTs 3) 0) ∧
  (meS.nvsFails 0 (BitVec.toNat (meS.reg R.NVS_WADDR)) (meS.nvsLocked (Requester.core 64) (BitVec.toNat (meS.reg R.NVS_WADDR))) = []) ∧
    (meS.Lets 64 R.NVS_WCMD 1) ∧
  (w21_5.nvsFails 1 (BitVec.toNat (w21_5.reg R.NVS_WADDR)) false = []) ∧ (w21_5.Lets 64 R.NVS_WCMD 1) ∧
  (w21_6.nvsFails 2 (BitVec.toNat (w21_6.reg R.NVS_WADDR)) false = []) ∧ (w21_6.Lets 64 R.NVS_WCMD 1) ∧
  (meS.nvs.jbuf.length < 64) ∧ (meS.Lets 64 R.NVS_JPOST 1) ∧
  (meI.tableSource (40 / 32 * 32) = some ((meI.tableSource 32).getD 0)) ∧
    ((mergeErr (meI.errAt ((meI.tableSource 32).getD 0 / 32 * 32)) [(0, 1), (1, 1), (2, 1)]).length ≤ 3) ∧
  (meI.tableSource (40 / 32 * 32) = some ((meI.tableSource 32).getD 0)) ∧
    ((mergeErr (meI.errAt ((meI.tableSource 32).getD 0 / 32 * 32)) [(0, 1), (1, 1), (2, 1), (3, 1)]).length = 4) ∧
  (3 < 4) ∧ (0 < (mergeErr (meI.errAt (738197504 / 32 * 32)) [(0, 1), (1, 1), (2, 1)]).length) ∧
    ((mergeErr (meI.errAt (738197504 / 32 * 32)) [(0, 1), (1, 1), (2, 1)]).length ≤ 3) ∧
  (meI.fld R.RST_STATE F.RST_STATE_PHASE = 5) ∧ (meI.mramClosed = false) ∧ (meI.nvs.queue.length < 16) ∧
    (0 < (mergeErr (meI.errAt (1610612736 + 40 / 32 * 32)) [(0, 1), (1, 1), (2, 1)]).length) ∧
    ((mergeErr (meI.errAt (1610612736 + 40 / 32 * 32)) [(0, 1), (1, 1), (2, 1)]).length ≤ 3) ∧
    ((meI.nvs.queue.any fun w => w.offset == 40 / 32 * 32) = false) ∧ (meI.nvs.owed.contains (40 / 32 * 32) = false) ∧
  (w21_12.nvs.queue = [w21_12_8]) ∧ (w21_12.nvs.pulse = true) ∧ (w21_12.mramClosed = false) ∧ (w21_12.rst.waitPulse = false) ∧
    (w21_12.nvs.owed = []) ∧ (w21_12.nvs.jbuf = []) ∧ (w21_12.po.ready = []) ∧ (w21_12_8.target ≠ 4) ∧ (w21_12_8.data.length = 32) ∧
  (w21_13.mramClosed = false) ∧ (w21_13.nvs.jbuf = [{ seq := 1, typ := 8, pm := 1, time := 0, body := [5] }]) ∧
    (w21_13.nvs.queue.length + (ringWrites w21_13.nvs.jptr (jBytes { seq := 1, typ := 8, pm := 1, time := 0, body := [5] } w21_13.aon.session)).length + 1 ≤ 16) ∧
  (255 < 256) := by
  repeat' apply And.intro
  all_goals first | decide +kernel | (unfold State.Lets; decide +kernel)

def buS : State := { units w0 [(U.fn 0, .running)] with cores := [(0, { coreDefault 0 with cond := .running })], icheck := ⟨some 5, false, [], 0⟩, fcheck := ⟨some 5, false, [], 0⟩ }
def ld : MemOp := ⟨0x203FFFFC, 4, false, false, [], [], .plain, []⟩
def st : MemOp := ⟨0x203FFFFC, 4, false, true, [1, 2, 3, 4], [(0, 1), (1, 1), (2, 1)], .plain, []⟩
def w22_3 : State := put buS [(R.CHG_FLT, 5)]
def w22_4_6 : MemOp := ⟨0x203FFFE0, 32, false, true, [1, 2, 3, 4], [], .plain, []⟩
def w22_6_6 : MemOp := ⟨0x20200000, 32, true, false, [], [(0, 1), (1, 1), (2, 1)], .plain, []⟩
def w22_7_6 : MemOp := ⟨0x20000000, 32, true, false, [], [(0, 1), (1, 1), (2, 1)], .plain, []⟩
def w22_8_6 : MemOp := ⟨0x203FFFFC, 4, false, false, [], [(0, 1), (1, 1), (2, 1)], .lr, []⟩
def w22_9_6 : MemOp := ⟨0x203FFFFC, 4, false, true, [1, 2, 3, 4], [(0, 1)], .sc, []⟩
def w22_10_6 : MemOp := ⟨0x203FFFFC, 4, false, true, [1, 2, 3, 4], [(0, 1)], .amo .max, []⟩
def w22_11 : State := { buS with cores := [(0, { coreDefault 0 with cond := .running, reservation := some (0x203FFFFC, 5) })] }
def w22_11_6 : MemOp := ⟨0x203FFFFC, 4, false, true, [1, 2, 3, 4], [], .sc, []⟩
def w22_16 : State := { put buS [(R.PST_PM, 100)] with po := { buS.po with boundaryAt := 0, ops := [(5, ⟨.mgmt, 0x0402, 0x10, 0, 1, 99, 50, .none⟩)] } }
def w22_16_7 : OpEntry := ⟨.mgmt, 0x0402, 0x10, 0, 1, 99, 50, .none⟩

/-- States and operands that meet the hypotheses of `BusCommands`, clause by clause. -/
theorem witness_BusCommands :
  (findReg R.MEM_CETHR = some ((findReg R.MEM_CETHR).getD { block := { name := "", base := 0, stride := 0, count := 0, regs := [] }, inst := 0, desc := { name := "", off := 0, dims := [], reset := 0, fields := [] }, idx := [] })) ∧ (convertedFe R.MEM_CETHR = Option.none) ∧ ((rowWrite (Requester.core 64) ((findReg R.MEM_CETHR).getD { block := { name := "", base := 0, stride := 0, count := 0, regs := [] }, inst := 0, desc := { name := "", off := 0, dims := [], reset := 0, fields := [] }, idx := [] }) R.MEM_CETHR 5 buS).isNone = true) ∧ (regFirst ((buS.liveView R.MEM_CETHR).mapFails R.MEM_CETHR 5 ++ buS.plainFails ((findReg R.MEM_CETHR).getD { block := { name := "", base := 0, stride := 0, count := 0, regs := [] }, inst := 0, desc := { name := "", off := 0, dims := [], reset := 0, fields := [] }, idx := [] }) R.MEM_CETHR 5) = Option.none) ∧ (buS.Lets 64 R.MEM_CETHR 1) ∧
  ((findReg 1074790420).isSome = true) ∧ (convertedFe 1074790420 = some 0) ∧
    (regFirst (buS.mapFails 1074790420 1073758208 ++ buS.feValueFails 0 1074790420 ((1073758208 : Word).toNat)) = Option.none) ∧
    (buS.po.mgmt.length < 32) ∧ (buS.Lets 64 1074790420 1) ∧
  (findReg R.CHG_FLT = some ((findReg R.CHG_FLT).getD { block := { name := "", base := 0, stride := 0, count := 0, regs := [] }, inst := 0, desc := { name := "", off := 0, dims := [], reset := 0, fields := [] }, idx := [] })) ∧ (faultCauseReg ((findReg R.CHG_FLT).getD { block := { name := "", base := 0, stride := 0, count := 0, regs := [] }, inst := 0, desc := { name := "", off := 0, dims := [], reset := 0, fields := [] }, idx := [] }) R.CHG_FLT = true) ∧ (w22_3.regAbsent ((findReg R.CHG_FLT).getD { block := { name := "", base := 0, stride := 0, count := 0, regs := [] }, inst := 0, desc := { name := "", off := 0, dims := [], reset := 0, fields := [] }, idx := [] }) = false) ∧ (w22_3.Lets 64 R.CHG_FLT 0) ∧
  (w22_4_6.store = true) ∧ (w22_4_6.fetch = false) ∧ (w22_4_6.kind = MemKind.plain) ∧ (w22_4_6.fabric = []) ∧ (w22_4_6.size = 32) ∧
    (w22_4_6.addr % 32 = 0) ∧ (regionOf w22_4_6.addr = Region.sram) ∧ (buS.Lets 64 w22_4_6.addr 1) ∧
  (st.store = true) ∧ (st.fetch = false) ∧ (st.kind = MemKind.plain) ∧ (st.fabric = []) ∧ (0 < st.size) ∧ (st.size < 32) ∧
    (st.addr % st.size = 0) ∧ (regionOf st.addr = Region.sram) ∧ ((mergeErr (buS.errAt (st.addr / 32 * 32)) st.upset).length ≤ 3) ∧
    (buS.Lets 64 st.addr 1) ∧
  (w22_6_6.store = false) ∧ (w22_6_6.kind = MemKind.plain) ∧ (w22_6_6.fabric = []) ∧ (0 < w22_6_6.size) ∧ (w22_6_6.size ≤ 32) ∧
    (w22_6_6.addr % w22_6_6.size = 0) ∧ (regionOf w22_6_6.addr = Region.sram) ∧ (cachedKey w22_6_6.addr = false) ∧
    ((mergeErr (buS.errAt (w22_6_6.addr / 32 * 32)) w22_6_6.upset).length ≤ 3) ∧
    (buS.Lets 64 w22_6_6.addr (if w22_6_6.fetch = true then 2 else 0)) ∧
  (w22_7_6.store = false) ∧ (w22_7_6.kind = MemKind.plain) ∧ (w22_7_6.fabric = []) ∧ (0 < w22_7_6.size) ∧ (w22_7_6.size ≤ 32) ∧
    (w22_7_6.addr % w22_7_6.size = 0) ∧ (regionOf w22_7_6.addr = Region.sram) ∧ (cachedKey w22_7_6.addr = true) ∧
    (buS.coreOfCode 64 = some 0) ∧ (cacheHas ((buS.core 0).cache w22_7_6.fetch) w22_7_6.addr w22_7_6.size = false) ∧
    ((mergeErr (buS.errAt (w22_7_6.addr / 32 * 32)) w22_7_6.upset).length ≤ 3) ∧
    (buS.Lets 64 w22_7_6.addr (if w22_7_6.fetch = true then 2 else 0)) ∧
  (w22_8_6.store = false) ∧ (w22_8_6.fetch = false) ∧ (w22_8_6.kind = MemKind.lr) ∧ (w22_8_6.fabric = []) ∧ (w22_8_6.size = 4) ∧
    (w22_8_6.addr % 4 = 0) ∧ (regionOf w22_8_6.addr = Region.sram) ∧ (buS.coreOfCode 64 = some 0) ∧
    ((mergeErr (buS.errAt (w22_8_6.addr / 32 * 32)) w22_8_6.upset).length ≤ 3) ∧ (buS.Lets 64 w22_8_6.addr 0) ∧
    (buS.bytes 541065212 4 = buS.bytes w22_8_6.addr 4) ∧
  (w22_9_6.store = true) ∧ (w22_9_6.fetch = false) ∧ (w22_9_6.kind = MemKind.sc) ∧ (w22_9_6.fabric = []) ∧ (w22_9_6.size = 4) ∧
    (w22_9_6.addr % 4 = 0) ∧ (regionOf w22_9_6.addr = Region.sram) ∧ (buS.coreOfCode 64 = some 0) ∧
    ((mergeErr (buS.errAt (w22_9_6.addr / 32 * 32)) w22_9_6.upset).length ≤ 3) ∧ (buS.Lets 64 w22_9_6.addr 1) ∧
  (w22_10_6.store = true) ∧ (w22_10_6.fetch = false) ∧ (w22_10_6.kind = MemKind.amo AmoOp.max) ∧ (w22_10_6.fabric = []) ∧
    (w22_10_6.size = 4) ∧ (w22_10_6.addr % 4 = 0) ∧ (regionOf w22_10_6.addr = Region.sram) ∧
    ((mergeErr (buS.errAt (w22_10_6.addr / 32 * 32)) w22_10_6.upset).length ≤ 3) ∧ (buS.Lets 64 w22_10_6.addr 1) ∧
    (BitVec.ofNat 32 (leNat (buS.bytes 541065212 4)) = BitVec.ofNat 32 (leNat (buS.bytes w22_10_6.addr 4))) ∧
  (w22_11_6.store = true) ∧ (w22_11_6.fetch = false) ∧ (w22_11_6.kind = MemKind.sc) ∧ (w22_11_6.fabric = []) ∧ (w22_11_6.size = 4) ∧
    (w22_11_6.addr % 4 = 0) ∧ (regionOf w22_11_6.addr = Region.sram) ∧ (w22_11.coreOfCode 64 = some 0) ∧
    ((mergeErr (w22_11.errAt (w22_11_6.addr / 32 * 32)) w22_11_6.upset).length ≤ 3) ∧ (w22_11.Lets 64 w22_11_6.addr 1) ∧
  (ld.store = false) ∧ (ld.kind = MemKind.plain) ∧ (ld.fabric = []) ∧ (ld.addr % 4 = 0) ∧ (regionOf ld.addr = Region.sram) ∧
    ((mergeErr (buS.errAt (ld.addr / 32 * 32)) ld.upset).length ≤ 3) ∧ (buS.debugLocked = false) ∧
  (st.store = true) ∧ (st.kind = MemKind.plain) ∧ (st.fabric = []) ∧ (st.addr % 4 = 0) ∧ (regionOf st.addr = Region.sram) ∧
    ((mergeErr (buS.errAt (st.addr / 32 * 32)) st.upset).length ≤ 3) ∧ (buS.debugLocked = false) ∧
  (buS.icheck.running = some 5) ∧
  (buS.fcheck.running = some 5) ∧
  (List.find? (fun p => p.fst == 5) w22_16.po.ops = some (5, w22_16_7)) ∧ (w22_16_7.deadline ≠ 0) ∧
    (pmBefore w22_16_7.deadline w22_16.pm = true) ∧ (w22_16_7.stop = StopKind.none) ∧ (w22_16.po.hw.any (HwEvent.ends 5) = false) ∧
    (w22_16_7.opcode = 1026) ∧ (w22_16.ust w22_16_7.unit = UState.running) ∧ (16 ≤ w22_16_7.unit) ∧ (w22_16_7.unit < 32) ∧
    (w22_16.po.boundaryAt = w22_16.time) := by
  repeat' apply And.intro
  all_goals first | decide +kernel | (unfold State.Lets; decide +kernel)

def poS : State := put w0 [(R.PHn_CFG 0, 0x400100), (R.PHn_CFG 63, 0x40001300), (R.PHn_TAIL 63, 2)]
def w23_2 : State := { poS with po := { poS.po with ph := [(0, ⟨[0x00100002, 1, 0, 0], 0, 0⟩)] } }
def w23_4 : State := { poS with po := { poS.po with deferred := [⟨.netHalt 0x30, 0, 0⟩] } }
def w23_7 : State := put poS [(R.SYS_WERR_CODE, 0x310)]
def w23_8 : State := put poS [(R.PST_MERR_CODE, 0x310)]
def w23_9 : State := put poS [(R.PST_DLJ_LOST, 7)]
def w23_10 : State := put poS [(R.NVS_JLOST, 7)]

/-- States and operands that meet the hypotheses of `PostOfficeCommands`, clause by clause. -/
theorem witness_PostOfficeCommands :
  (poS.phEn 0 = true) ∧ (poS.phIsReceipt 0 = false) ∧ (poS.phProducer 0 = 64) ∧ (poS.Lets 64 (R.PHn_POSTj 0 15) 1) ∧
  (w23_2.phEn 0 = true) ∧ (w23_2.phIsReceipt 0 = false) ∧ (w23_2.phProducer 0 = 64) ∧ (0 < 64) ∧ (w23_2.phSize 0 ≤ 4096) ∧
    (intakeFail w23_2 0 (letterOfBytes (List.flatMap (fun w => leBytes 4 (BitVec.toNat w)) ((w23_2.window 0).set 15 0))) true = Option.none) ∧ (w23_2.Lets 64 (R.PHn_POSTj 0 15) 1) ∧
  (63 < 64) ∧ (poS.phEn 63 = true) ∧ (poS.phIsReceipt 63 = true) ∧ (poS.phConsumer 63 = 64) ∧ ((2 : Word).toNat < 8192) ∧
    ((2 : Word).toNat < 2 * poS.phSize 63) ∧
    (ringDist (poS.phSize 63) (poS.phHead 63) ((2 : Word).toNat) ≤ ringDist (poS.phSize 63) (poS.phHead 63) (poS.phTail 63)) ∧
    (poS.po.deferred = []) ∧ (poS.po.ready = []) ∧ (poS.Lets 64 (R.PHn_HEAD 63) 1) ∧
  (w23_4.po.deferred[0]? = some { action := Deferred.netHalt 48, ph := 0, index := 0 }) ∧ (w23_4.po.ready = []) ∧
  (poS.phEn 63 = true) ∧ (poS.phIsReceipt 63 = true) ∧ (poS.phHeld 63 ≠ 0) ∧
  (regFirst (List.flatMap poS.sleepFails (List.filter (bitAt ((15 : Word).toNat)) (List.range 32))) = Option.none) ∧
    (poS.Lets 64 R.PST_SLEEP 1) ∧
  (w23_7.Lets 64 R.SYS_WERR_CODE 0) ∧
  (w23_8.Lets 64 R.PST_MERR_CODE 0) ∧
  (w23_9.Lets 64 R.PST_DLJ_LOST 0) ∧
  (w23_10.Lets 64 R.NVS_JLOST 0) := by
  repeat' apply And.intro
  all_goals first | decide +kernel | (unfold State.Lets; decide +kernel)

def reS2 : State := units w0 [(U.rst, .running)]
def rstOf (f : RstSt → RstSt) : State := { reS2 with rst := f reS2.rst }
def w24_2 : State := rstOf fun r => { r with sysHold := 0 }
def w24_3 : State := rstOf fun r => { r with sources := [(12, 0), (11, 2)] }
def w24_4 : State := rstOf fun r => { r with sources := [(13, 0)] }
def w24_5 : State := rstOf fun r => { r with sysHold := 0, pairs := 8, pairMin := 8, domains := 5 }
def w24_6 : State := rstOf fun r => { r with sysHold := 1, sysMin := true }
def w24_13 : State := { put reS2 [(R.CLK_STAT, 0x1F01FF)] with rst := { reS2.rst with domains := 4, sysHold := 0, pg := 15 } }
def w24_14 : State := rstOf fun r => { r with sysHold := 0, startTimer := true }
def w24_15 : State := rstOf fun r => { r with sysHold := 0, standbyDue := true }
def w24_16 : State := rstOf fun r => { r with sysHold := 0, standby := true }
def w24_17 : State := rstOf fun r => { r with sysHold := 0, transport := true }
def w24_18 : State := rstOf fun r => { r with sysHold := 0, standby := true }

/-- States and operands that meet the hypotheses of `ResetEvents`, clause by clause. -/
theorem witness_ResetEvents :
  (1 ≤ 13) ∧ (13 ≤ 13) ∧ (sourceNames 13 0 = true) ∧ (reS2.rst.transport = false) ∧
  (3 ≤ 3) ∧ (3 ≤ 10) ∧ (3 ≠ 4) ∧ (3 ≠ 6) ∧ (3 ≠ 9) ∧ (w24_2.rst.transport = false) ∧ (w24_2.inReset = false) ∧
  (levelSource 12 = true) ∧
  (levelSource 13 = false) ∧
  (3 < 4) ∧ (bitAt w24_5.rst.pairMin 3 = true) ∧ (bitAt w24_5.rst.pairs 3 = true) ∧ (w24_5.rst.sysHold = 0) ∧
    (bitAt w24_5.pairsAsserted 3 = false) ∧
  (w24_6.rst.sysHold = 1) ∧ (w24_6.rst.waitPulse = false) ∧
    ((w24_6.rst.sources.any fun p => decide (1 ≤ w24_6.reachOf p.fst p.snd)) = false) ∧
  (reS2.rst.transport = false) ∧
  (reS2.rst.transport = false) ∧
  (reS2.rst.transport = false) ∧
  (3 < 4) ∧ (reS2.rst.transport = false) ∧ (reS2.rst.standby = false) ∧
  (3 < 4) ∧ (reS2.rst.transport = false) ∧ (reS2.rst.standby = false) ∧
  (w24_13.rst.domains < 5) ∧ (w24_13.rst.sysHold = 0) ∧ (w24_13.rst.standby = false) ∧ (w24_13.rst.transport = false) ∧
    (w24_13.rst.pg = 15) ∧ (w24_13.fld R.CLK_STAT F.CLK_STAT_GOOD = 511) ∧
  (w24_14.rst.startTimer = true) ∧
  (w24_15.rst.standbyDue = true) ∧
  (1 ≤ 3) ∧ (3 ≤ 3) ∧ (w24_16.rst.transportDue = false) ∧ (w24_16.rst.standby = true) ∧
  (1 ≤ 1) ∧ (1 ≤ 3) ∧ (w24_17.rst.transportDue = false) ∧ (w24_17.rst.standby = false) ∧ (w24_17.rst.transport = true) ∧
  (w24_18.rst.transportDue = false) ∧ (w24_18.rst.standby = true) := by
  repeat' apply And.intro
  all_goals decide +kernel

def w25_5 : State := put w0 [(R.THM_SUPFLT, 0x8000)]
def w25_6 : State := { w0 with rst := { w0.rst with sysHold := 0 } }

/-- States and operands that meet the hypotheses of `ClockSupplyThermalEvents`, clause by clause. -/
theorem witness_ClockSupplyThermalEvents :
  (w0.rst.standby = false) ∧ (w0.rst.transport = false) ∧ (8 < 9) ∧ (8 ≠ 7) ∧ ((clockLimits 8).fst.fst ≤ 720) ∧
    (720 ≤ (clockLimits 8).fst.snd) ∧
  (w0.rst.standby = false) ∧ (w0.rst.transport = false) ∧ (8 < 9) ∧ (8 ≠ 7) ∧ (559 < (clockLimits 8).fst.fst) ∧
  (w0.rst.standby = false) ∧ (w0.rst.transport = false) ∧ (4 < 5) ∧
  (w0.rst.standby = false) ∧ (w0.rst.transport = false) ∧ (7 < 8) ∧
  (w25_5.rst.standby = false) ∧ (w25_5.rst.transport = false) ∧ (7 < 8) ∧ (bitAt (w25_5.fld R.THM_SUPFLT F.THM_SUPFLT_ACTIVE) 7 = true) ∧
  (w25_6.rst.standby = false) ∧ (w25_6.rst.transport = false) ∧ (w25_6.rst.sysHold ≠ 2) := by
  repeat' apply And.intro
  all_goals decide +kernel

def boS : State := { units w0 [(U.can 5, .running)] with rst := { w0.rst with sysHold := 0, domains := 5 } }
def w26_2 : State := { boS with po := { boS.po with hw := [.move (U.can 5) [.running] .idle] } }
def w26_3 : State := { put boS [(R.RST_STATE, 0x100), (R.RST_START, 4)] with rst := { boS.rst with startTimer := false } }
def w26_4 : State := { put boS [(R.RST_STATE, 0x100), (R.RST_START, 3)] with rst := { boS.rst with startTimer := false } }

/-- States and operands that meet the hypotheses of `BoundaryAdvances`, clause by clause. -/
theorem witness_BoundaryAdvances :
  (boS.boundaryRuns = true) ∧ (∀ (k : Nat), k < 64 → boS.phCount k = 0) ∧ (boS.po.mgmt = []) ∧ (boS.po.ops = []) ∧
    (boS.rst.unitReset = []) ∧ (boS.rst.autoDue = []) ∧
  (w26_2.boundaryRuns = true) ∧ (∀ (k : Nat), k < 64 → w26_2.phCount k = 0) ∧ (w26_2.po.mgmt = []) ∧ (w26_2.po.ops = []) ∧
    (w26_2.rst.unitReset = []) ∧ (w26_2.rst.autoDue = []) ∧ (5 < 6) ∧ (unitPresent w26_2.variant (U.can 5) = true) ∧
    (w26_2.po.hw = [HwEvent.move (U.can 5) [w26_2.ust (U.can 5)] UState.idle]) := by
  repeat' apply And.intro
  all_goals decide +kernel

/-- States and operands that meet the hypotheses of `StartSequence`, clause by clause. -/
theorem witness_StartSequence :
  (w26_3.startReady = true) ∧ (w26_3.fld R.RST_START F.RST_START_COUNT = 4) ∧
  (w26_4.startReady = true) ∧ (w26_4.fld R.RST_START F.RST_START_COUNT < 4) := by
  repeat' apply And.intro
  all_goals decide +kernel

/-! ### Statements without a clause of their own -/

def geB : State := { geS with po := { geS.po with ready := [] }, pending := [.epochBoundary, .checkComplete true] }
/-- A letter that R85 refuses: WRITE of an address outside every register block. -/
theorem witness_refused : letterOf (.write geM) = some (specWrite, geM) ∧ verdict specWrite geS geM = some .eRange ∧
    Status.eRange.ok = false ∧ geS.po.ready = [] ∧ geM.src = .ph 0 ∧ geS.receiptPh 0 (geM.letter.flags % 4) = some 63 ∧ geS.phCount 63 < geS.phSize 63 ∧
    geS.phSize 63 ≤ 4096 := by
  refine ⟨rfl, ?_⟩
  decide +kernel

/-- A step with a command in front, one on an empty queue, and a command that moves no pin. -/
theorem witness_step : geB.pending = .epochBoundary :: [.checkComplete true] ∧ geS.pending = [] ∧ Memory.wf geB.mem = true ∧ Registers.wf State.reset.regs = true ∧
    (∃ t, step geB = .next t) ∧ ∃ t, exec .actEnFall geB = .next t :=
  ⟨rfl, rfl, by decide +kernel, by decide +kernel, ⟨_, rfl⟩, ⟨_, rfl⟩⟩

/-- A machine with no leg in use or under an override, and nothing waiting: the quiet clause of `IdleStep`. -/
theorem witness_IdleStep_quiet : ∃ s : State, s.pending = [] ∧ ({ s with time := s.time + 5 } : State).gateLegs = [] ∧ s.rgl.waiting = false ∧
    ({ s with time := s.time + 5 } : State).regWire = s.pads.wire ∧ s.pads.wireEdge = none ∧ s.rst.swPairs = 0 :=
  ⟨put State.reset [(R.SSM_CAUSE, 0)], by decide +kernel⟩

/-- A machine whose function 0 holds the SSM pattern p over the legs of its map entry, leg 1 latched. -/
def chainS (p : Nat) : State :=
  { put (geS.setLatch 1 2) [(R.SSM_PAT0, p)] with ssm := { geS.ssm with map := [(0, ⟨1, [0, 1, 2], false, 0⟩)], heartbeat := true } }
/-- For each clause of `OutputChain` a state whose step on an empty queue meets it: DRIVE_EN low, a latched leg, and each override code. -/
theorem witness_OutputChain : (chainS 0).pending = [] ∧ (∃ t, step (chainS 0) = .next t) ∧ (∃ t, step { chainS 0 with driveEn := false } = .next t ∧ t.driveEn = false) ∧ (chainS 0).latchOf 1 ≠ 0 ∧
    (List.range 4).map (fun p => (chainS p).legOvr 0) = [0, 3, 1, 2] := by
  refine ⟨rfl, ⟨_, rfl⟩, ⟨_, rfl, ?_⟩, ?_⟩ <;>
  decide +kernel

/-- Every frame statement speaks of commands that answer a next state: one of each table of commands. -/
theorem witness_frames (s : State) (m : Msg) : (∃ t, exec .epochBoundary s = .next t) ∧ (∃ t, exec .journalWrite s = .next t) ∧
    (∃ t, exec (.feClear m) s = .next t) ∧ (∃ t, exec (.softOffHoldEnd 47) s = .next t) ∧ (∃ t, exec (.posRun m) s = .next t) ∧
    (∃ t, exec (.traArm m) s = .next t) ∧ (∃ t, exec (.chgClear m) s = .next t) ∧ (∃ t, exec (.hlvArm m) s = .next t) ∧
    (∃ t, exec (.gbxRun m) s = .next t) ∧ (∃ t, exec .plannerStale s = .next t) ∧ (∃ t, exec (.wfi 7) s = .next t) ∧
    (∃ t, exec .standbyEntry s = .next t) ∧ ∃ t, exec (.netRun m) s = .next t :=
  ⟨⟨_, rfl⟩, ⟨_, rfl⟩, ⟨_, rfl⟩, ⟨_, rfl⟩, ⟨_, rfl⟩, ⟨_, rfl⟩, ⟨_, rfl⟩, ⟨_, rfl⟩, ⟨_, rfl⟩, ⟨_, rfl⟩, ⟨_, rfl⟩, ⟨_, rfl⟩, ⟨_, rfl⟩⟩

/-- A declared pigeonhole of pair 0, whose post window and sleep bit a reset of the pair clears (R97). -/
theorem witness_ResetPostOffice : geS.phEn 0 = true ∧ (geS.phProducer 0 == U.pair 0) = true ∧ (geS.phProducer 63 == U.pair 0) = false ∧
    sleepBit (U.pair 3) = some 3 ∧ sleepBit (U.core 7) = some 15 := by decide +kernel

/-! ### Well-formedness: each check refuses -/

def okMail : Letter := ⟨0x0404, 0x10, 4, 1, 0, 0, List.replicate 40 0, List.replicate 8 0⟩

theorem test_wf_letter : (Instr.traStop ⟨.ph 63, false, okMail⟩).wf = true ∧
    (Instr.traStop ⟨.ph 63, false, { okMail with opcode := 0x0405 }⟩).wf = false ∧
    (Instr.traStop ⟨.ph 63, false, { okMail with unit := 256 }⟩).wf = false ∧
    (Instr.traStop ⟨.ph 63, false, { okMail with flags := 256 }⟩).wf = false ∧
    (Instr.traStop ⟨.ph 63, false, { okMail with seq := 2 ^ 32 }⟩).wf = false ∧
    (Instr.traStop ⟨.ph 63, false, { okMail with deliverAt := 2 ^ 32 }⟩).wf = false ∧
    (Instr.traStop ⟨.ph 63, false, { okMail with deadline := 2 ^ 32 }⟩).wf = false ∧
    (Instr.traStop ⟨.ph 63, false, { okMail with body := List.replicate 41 0 }⟩).wf = false ∧
    (Instr.traStop ⟨.ph 63, false, { okMail with frank := [] }⟩).wf = false ∧
    (Instr.traStop ⟨.ph 64, false, okMail⟩).wf = false := by decide

theorem test_wf_requester : (Instr.eventClaim (.core 0x43) 0).wf = true ∧ (Instr.eventClaim (.core 0x44) 0).wf = false ∧
    (Instr.eventClaim (.core 0x47) 0).wf = false ∧ (Instr.eventClaim (.core 0x50) 0).wf = false ∧
    (Instr.eventClaim (.debug 0x100000) 0).wf = false := by decide

theorem test_wf_memory : (Instr.memoryAccess (.core 0x40) ⟨0, 4, false, true, [1, 2, 3, 4], [(39, 1)], .plain, []⟩).wf = true ∧
    (Instr.memoryAccess (.core 0x40) ⟨2 ^ 32, 4, false, false, [], [], .plain, []⟩).wf = false ∧
    (Instr.memoryAccess (.core 0x40) ⟨0, 8, false, false, [], [], .plain, []⟩).wf = false ∧
    (Instr.memoryAccess (.core 0x40) ⟨0, 4, false, true, [1], [], .plain, []⟩).wf = false ∧
    (Instr.memoryAccess (.core 0x40) ⟨0, 1, true, true, [1], [], .plain, []⟩).wf = false ∧
    (Instr.debugSystemBusAccess 0 ⟨0, 4, false, false, [], [(40, 1)], .plain, []⟩).wf = false ∧
    (Instr.memoryAccess (.core 0x40) ⟨0, 4, false, false, [], [], .plain, [[(40, 1)]]⟩).wf = false ∧
    (Instr.memoryAccess (.core 0x40) ⟨0, 4, false, true, [1, 2, 3, 4], [], .lr, []⟩).wf = false ∧
    (Instr.memoryAccess (.core 0x40) ⟨0, 1, false, true, [1], [], .sc, []⟩).wf = false ∧
    (Instr.memoryAccess (.core 0x40) ⟨0, 4, false, false, [], [], .amo .add, []⟩).wf = false := by decide

theorem test_wf_can : (Instr.canFrameReceived 0 ⟨0x7FF, false, false, [], true, 0⟩).wf = true ∧ (Instr.canFrameReceived 0 ⟨0x800, false, false, [], true, 0⟩).wf = false ∧
    (Instr.canFrameReceived 0 ⟨2 ^ 29, true, false, [], true, 0⟩).wf = false ∧
    (Instr.canFrameReceived 0 ⟨0, false, false, List.replicate 9 0, true, 0⟩).wf = false ∧
    (Instr.canFrameReceived 0 ⟨0, false, true, List.replicate 65 0, true, 0⟩).wf = false := by decide

def okFrame : EthIn := ⟨none, List.replicate 6 0, List.replicate 4 0, 0xC2A0, List.replicate 16 0, 0xC2A0, false, false, true, none, none, []⟩

theorem test_wf_eth : (Instr.ethDatagramReceived 0 okFrame).wf = true ∧ (Instr.ethDatagramReceived 0 { okFrame with mac := [] }).wf = false ∧
    (Instr.ethDatagramReceived 0 { okFrame with ip := [1] }).wf = false ∧
    (Instr.ethDatagramReceived 0 { okFrame with dstIp := [1] }).wf = false ∧
    (Instr.ethDatagramReceived 0 { okFrame with port := 65536 }).wf = false ∧
    (Instr.ethDatagramReceived 0 { okFrame with dstPort := 65536 }).wf = false ∧
    (Instr.ethDatagramReceived 0 { okFrame with payload := List.replicate 1523 0 }).wf = false := by decide +kernel

/-! ### Worked examples of the manual -/

def outOf : Host.Outcome State Fault Refusal → State
  | .next t => t
  | _ => State.reset

/-- The rejected store of chapter 00, on a T880-S at postmark 0x0000_2A10: FE5 is absent. -/
def absentStore : State := outOf (execRegisterWrite (.core 0x40) 0x40150004 1 (put { State.reset with variant := .s } [(R.PST_PM, 0x2A10)]))

/-- SYS_WERR_CODE reads 0x0000_0111 after the store, and its address and postmark follow with the read; a second read returns 0x0000_0011
(example after R12). -/
theorem test_absent_store : absentStore.resp.status = .eAbsent ∧ absentStore.reg R.SYS_WERR_CODE = 0x111 ∧
    (outOf (execSysWerrCodeRead (.core 0x40) absentStore)).reg R.SYS_WERR_ADDR = 0x40150004 ∧
    (outOf (execSysWerrCodeRead (.core 0x40) absentStore)).reg R.SYS_WERR_PM = 0x2A10 ∧
    (outOf (execSysWerrCodeRead (.core 0x40) (outOf (execSysWerrCodeRead (.core 0x40) absentStore)))).resp = ⟨.done, 0x11⟩ := by decide +kernel

/-- SYS_CAP0 of a T880-S (example after R12). -/
theorem test_cap0 : (outOf (execRead ⟨.mgmt, false, ⟨2, 0, 0, 1, 0, 0, [], []⟩⟩ State.reset)).variant = .f ∧
    ({ State.reset with variant := .s }.busRead (.core 0x40) R.SYS_CAP0).resp = ⟨.done, 0x180F330F⟩ := by decide +kernel

/-- Table CTS-5: levels from 140.0 °C, 142.3 °C, 138.9 °C and 136.8 °C, in 1/16 °C. -/
theorem test_throttle : throttleStep 2240 0 2074 = 0 ∧ throttleStep 2240 0 2240 = 1 ∧ throttleStep 2240 1 2277 = 2 ∧ throttleStep 2240 2 2222 = 1 ∧
    throttleStep 2240 1 2189 = 0 := by decide

/-- R81: the postmark's successor and order. -/
theorem test_postmark : pmNext 1 = 2 ∧ pmNext 0xFFFFFFFF = 1 ∧ pmBefore 0xFFFFFFFF 1 = true ∧ pmBefore 5 5 = false ∧ pmBefore 1 0x80000000 = true ∧
    pmBefore 1 0x80000001 = false := by decide

/-- No row of the table gives bits, so no word spells a command. -/
theorem test_decode (n w : Nat) : decodeTableWord n w = none := rfl

/-- Doorbell 15, set by core 0, raises source 256 (R397). -/
theorem test_doorbell : (outOf (execDoorbellSet (.core 0x40) 0x8000 State.reset)).evc.raised = [256] := by decide +kernel

/-- A refused write of MEM_CETHR, 0 being out of range, changes nothing but the capture (R4, R8). -/
theorem test_refused_write : (outOf (execRegisterWrite (.core 0x40) R.MEM_CETHR 0 State.reset)).reg R.MEM_CETHR = 0x40 ∧
    (outOf (execRegisterWrite (.core 0x40) R.MEM_CETHR 0 State.reset)).reg R.SYS_WERR_CODE = 0x110 := by decide +kernel

end
end

section
/-!
The read of the rejection capture in SYS_WERR (R10, R11): a core's access that is let through leaves what its action leaves, what a
capture writes, and what the read of a valid capture leaves.
-/
namespace Sys2Proof.Machine

variable {s t : State} {a : Nat}

/-- An access of a core that nothing bars, that is answered without an error and that does not cross the link to the monitor die, is its
action alone. -/
theorem State.accessBy_core_done {c : Nat} {store : Bool} (lets : s.Lets c a (b2n store)) (done : t.resp.status.ok = true)
    (here : monitorReg a = false) : s.accessBy (.core c) a store t = t := by
  have free : s.barred (.core c) a (b2n store) = none := Option.isNone_iff_eq_none.mp lets
  simp [State.accessBy, free, done, here]

theorem State.flag_clrFlag_apart (f g : Fld) (h : f.ok = true) (k : g.ok = true) (d : f.apart g = true) :
    (s.clrFlag a f).flag a g = s.flag a g := by
  rw [State.flag, State.clrFlag, State.fld_setFld_apart f g h k d, State.flag]

@[simp] theorem State.fld_respond (v : Nat) (f : Fld) : (s.respond v).fld a f = s.fld a f := rfl

@[simp] theorem State.flag_respond (v : Nat) (f : Fld) : (s.respond v).flag a f = s.flag a f := rfl

/-! ### A capture (R10) -/

/-- The word a capture writes: OVERRUN where the capture before it was still held, VALID, and the status code. -/
theorem State.captureWerr_reg (st : Status) : (s.captureWerr st a).reg R.SYS_WERR_CODE =
    BitVec.ofNat 32 (b2n (s.flag R.SYS_WERR_CODE F.SYS_WERR_CODE_VALID || s.flag R.SYS_WERR_CODE F.SYS_WERR_CODE_OVERRUN) * 512 + 256
      + st.code) :=
  State.reg_setReg _

theorem State.captureWerr_valid {st : Status} (h : st.code < 256) :
    (s.captureWerr st a).flag R.SYS_WERR_CODE F.SYS_WERR_CODE_VALID = true := by
  rw [State.flag, State.fld, State.captureWerr_reg]
  cases s.flag R.SYS_WERR_CODE F.SYS_WERR_CODE_VALID || s.flag R.SYS_WERR_CODE F.SYS_WERR_CODE_OVERRUN <;>
    simp [getF, bitsOf, F.SYS_WERR_CODE_VALID, b2n] <;> omega

theorem State.captureWerr_overrun {st : Status} (h : st.code < 256) : (s.captureWerr st a).flag R.SYS_WERR_CODE F.SYS_WERR_CODE_OVERRUN =
    (s.flag R.SYS_WERR_CODE F.SYS_WERR_CODE_VALID || s.flag R.SYS_WERR_CODE F.SYS_WERR_CODE_OVERRUN) := by
  rw [State.flag, State.fld, State.captureWerr_reg]
  cases s.flag R.SYS_WERR_CODE F.SYS_WERR_CODE_VALID || s.flag R.SYS_WERR_CODE F.SYS_WERR_CODE_OVERRUN <;>
    simp [getF, bitsOf, F.SYS_WERR_CODE_OVERRUN, b2n] <;> omega

/-! ### The read of a valid capture (R11) -/

/-- What the read of a valid capture leaves: the address and the postmark copied, VALID and OVERRUN clear, the capture returned. -/
def State.werrTaken (s : State) : State :=
  ((((s.setReg R.SYS_WERR_ADDR (BitVec.ofNat 32 s.po.werr.addr)).setReg R.SYS_WERR_PM (BitVec.ofNat 32 s.po.werr.pm)).clrFlag
    R.SYS_WERR_CODE F.SYS_WERR_CODE_VALID).clrFlag R.SYS_WERR_CODE F.SYS_WERR_CODE_OVERRUN).respond (s.reg R.SYS_WERR_CODE).toNat

theorem execSysWerrCodeRead_valid {c : Nat} (valid : s.flag R.SYS_WERR_CODE F.SYS_WERR_CODE_VALID = true) (lets : s.Lets c R.SYS_WERR_CODE 0) :
    execSysWerrCodeRead (.core c) s = .next s.werrTaken := by
  simp only [execSysWerrCodeRead, valid, if_true]
  exact congrArg _ (State.accessBy_core_done (store := false) lets rfl rfl)

/-- The read writes SYS_WERR_CODE besides the two copies, and no other register. -/
theorem State.werrTaken_reg (h : a ≠ R.SYS_WERR_CODE) : s.werrTaken.reg a =
    ((s.setReg R.SYS_WERR_ADDR (BitVec.ofNat 32 s.po.werr.addr)).setReg R.SYS_WERR_PM (BitVec.ofNat 32 s.po.werr.pm)).reg a :=
  (State.reg_setReg_ne h _).trans (State.reg_setReg_ne h _)

theorem State.werrTaken_addr : s.werrTaken.reg R.SYS_WERR_ADDR = BitVec.ofNat 32 s.po.werr.addr := by
  rw [State.werrTaken_reg (by decide), State.reg_setReg_ne (by decide), State.reg_setReg]

theorem State.werrTaken_pm : s.werrTaken.reg R.SYS_WERR_PM = BitVec.ofNat 32 s.po.werr.pm := by
  rw [State.werrTaken_reg (by decide), State.reg_setReg]

theorem State.werrTaken_valid : s.werrTaken.flag R.SYS_WERR_CODE F.SYS_WERR_CODE_VALID = false := by
  rw [State.werrTaken, State.flag_respond, State.flag_clrFlag_apart _ _ rfl rfl rfl, State.flag_clrFlag _ rfl]

theorem State.werrTaken_overrun : s.werrTaken.flag R.SYS_WERR_CODE F.SYS_WERR_CODE_OVERRUN = false := by
  rw [State.werrTaken, State.flag_respond, State.flag_clrFlag _ rfl]

theorem State.werrTaken_code : s.werrTaken.fld R.SYS_WERR_CODE F.SYS_WERR_CODE_CODE = s.fld R.SYS_WERR_CODE F.SYS_WERR_CODE_CODE := by
  rw [State.werrTaken, State.fld_respond, State.clrFlag, State.fld_setFld_apart _ _ rfl rfl rfl, State.clrFlag,
    State.fld_setFld_apart _ _ rfl rfl rfl, State.fld, State.reg_setReg_ne (by decide), State.reg_setReg_ne (by decide), State.fld]

/-- Settles O15: the read of a valid capture is `werrTaken`, and a capture made after it finds VALID and OVERRUN clear. -/
theorem rejectionRead : Obligations.RejectionRead := by
  intro s c valid lets
  refine ⟨s.werrTaken, execSysWerrCodeRead_valid valid lets, rfl, State.werrTaken_addr, State.werrTaken_pm, State.werrTaken_valid,
    State.werrTaken_overrun, State.werrTaken_code, fun st a h => ⟨State.captureWerr_valid h, ?_⟩⟩
  rw [State.captureWerr_overrun h, State.werrTaken_valid, State.werrTaken_overrun, Bool.or_false]

end Sys2Proof.Machine
end

section
/-!
IMAGE_COMMIT against an active power unit (R66): which of several failing checks answers a letter, what a refusal leaves of the actions
ready to be performed, and that of the checks a commit for immediate use can fail, none comes before E_STATE.
-/
namespace Sys2Proof.Machine

variable {s : State} {m : Msg} {x y : Status} {l : List Status}

/-! ### The check that comes first (R85) -/

/-- The answer is one of the failing checks, and no other comes before it. -/
theorem firstFail_spec (h : firstFail l = some y) : y ∈ l ∧ ∀ z ∈ l, checkRank y ≤ checkRank z := by
  induction l generalizing y with
  | nil => cases h
  | cons x t ih =>
    simp only [firstFail] at h
    split at h
    case h_1 e =>
      cases h
      simp [firstFail_none.mp e]
    case h_2 w e =>
      obtain ⟨mem, least⟩ := ih e
      split at h
      case isTrue lt =>
        cases h
        exact ⟨.tail _ mem, List.forall_mem_cons.mpr ⟨Nat.le_of_lt lt, least⟩⟩
      case isFalse le =>
        cases h
        exact ⟨.head _, List.forall_mem_cons.mpr ⟨Nat.le_refl _, fun z k => Nat.le_trans (Nat.le_of_not_lt le) (least z k)⟩⟩

/-- A failing check that comes before every other one is the answer. -/
theorem firstFail_eq_some (mem : x ∈ l) (first : ∀ z ∈ l, z = x ∨ checkRank x < checkRank z) : firstFail l = some x := by
  cases e : firstFail l with
  | none =>
    rw [firstFail_none.mp e] at mem
    cases mem
  | some y =>
    obtain ⟨memY, leastY⟩ := firstFail_spec e
    rcases first y memY with rfl | lt
    · rfl
    · exact absurd (leastY x mem) (Nat.not_le.mpr lt)

/-- A letter that is well-formed and in time, and whose unit's state is legal, is answered by its first failing check; one that opens no
entry of the outstanding table cannot find it full. -/
theorem verdict_of_firstFail {sp : LetterSpec} (unmarked : m.marked = false)
    (inTime : ¬(m.letter.deadline ≠ 0 ∧ pmBefore m.letter.deadline s.pm = true)) (unit : sp.units s m.letter.unit = true)
    (body : bodyZeroOutside sp.used m = true) (legal : sp.legal (s.ust m.letter.unit) = true) (closed : sp.opens s m = false)
    (fails : firstFail (sp.fails s m ++ s.prFails m.letter.opcode) = some x) : verdict sp s m = some x := by
  simp [verdict, unmarked, inTime, unit, body, stateFail_nil.mpr legal, closed, fails]

/-! ### A refusal and the actions ready to be performed -/

theorem State.runReady_of_ready_nil (h : s.po.ready = []) : s.runReady = s := by
  have unchanged : { s with po := { s.po with ready := [] } } = s := by rw [← h]
  rw [State.runReady, h, unchanged]
  rfl

theorem refuseLetter_ready (st : Status) (detail : List Byte) : (refuseLetter s m st detail).po.ready = s.po.ready := by
  unfold refuseLetter
  split
  · rw [State.deadLetter_po]
    rfl
  · rw [State.deadLetter_po]
    exact (State.issueReceipt_po ..).2

/-! ### The checks of a commit (R66) -/

theorem UState.active_iff {st : UState} : st.active = true ↔ st ∈ [.armed, .running, .stopping] := by
  cases st <;> decide

/-- The power units of R66 that are armed, running or stopping. -/
theorem State.powerBusy_iff : s.powerBusy = true ↔ (∃ f ∈ s.functions, s.ust (U.fn f) ∈ [.armed, .running, .stopping]) ∨
    s.ust U.chg ∈ [.armed, .running, .stopping] ∨ ∃ k, k < 4 ∧ s.ust (U.ac k) ∈ [.armed, .running, .stopping] := by
  simp only [State.powerBusy, Bool.or_eq_true, List.any_eq_true, List.mem_range, UState.active_iff, or_assoc]

theorem State.loadSender_mem (h : y ∈ s.loadSender m) : y = .eLocked := by
  simp only [State.loadSender, List.mem_ite_nil_left] at h
  exact List.mem_singleton.mp h.2

theorem State.prFails_mem {opcode : Nat} (h : y ∈ s.prFails opcode) : y = .eState := by
  simp only [State.prFails, List.mem_ite_nil_right] at h
  exact List.mem_singleton.mp h.2

/-- A commit whose mode and flags are in range fails with E_LOCKED, E_STATE or E_TEMP only. -/
theorem specCommit_fails_mem {firmware : Bool} (mode : m.u8 16 ≤ 1) (raise : m.u8 17 ≤ 1) (h : y ∈ (specCommit firmware).fails s m) :
    y = .eLocked ∨ y = .eState ∨ y = .eTemp := by
  simp only [specCommit, mode, raise, if_true, List.append_nil, List.mem_append, List.mem_ite_nil_left, List.mem_ite_nil_right,
    List.mem_singleton] at h
  rcases h with ((sender | unchecked) | busy) | temp
  · exact .inl (State.loadSender_mem sender)
  · exact .inr (.inl unchecked.2)
  · exact .inr (.inl busy.2)
  · exact .inr (.inr temp.2)

theorem specCommit_fails_busy {firmware : Bool} (mode : m.u8 16 = 1) (busy : s.powerBusy = true) :
    .eState ∈ (specCommit firmware).fails s m := by
  simp [specCommit, mode, busy]

/-- Of the checks that a commit with mode 1 fails while a power unit is active, E_STATE comes first. -/
theorem specCommit_firstFail_busy {firmware : Bool} {opcode : Nat} (mode : m.u8 16 = 1) (raise : m.u8 17 ≤ 1) (busy : s.powerBusy = true) :
    firstFail ((specCommit firmware).fails s m ++ s.prFails opcode) = some .eState := by
  refine firstFail_eq_some (List.mem_append_left _ (specCommit_fails_busy mode busy)) fun z h => ?_
  rcases List.mem_append.mp h with own | pr
  · rcases specCommit_fails_mem (Nat.le_of_eq mode) raise own with rfl | rfl | rfl <;> decide
  · exact .inl (State.prFails_mem pr)

/-- Settles O14: the active unit fails a check that no other failing check of the commit comes before, and a refusal makes no action
ready. -/
theorem commitWhileBusy : Obligations.CommitWhileBusy := by
  intro s m unmarked inTime unit body raise mode running ready busy
  have refused : verdict (specCommit false) s m = some .eState :=
    verdict_of_firstFail unmarked inTime (by simp [specCommit, unit]) body (by simp [specCommit, unit, running]) rfl
      (specCommit_firstFail_busy mode raise (State.powerBusy_iff.mpr busy))
  show execImageCommit m s = _
  rw [execImageCommit, deliver_refused refused, State.runReady_of_ready_nil ((refuseLetter_ready ..).trans ready)]

end Sys2Proof.Machine
end

section
/-!
The post office's registers and the operations outside it: what frames leave of the postmark, the sleep bits and the pigeonholes' registers,
and what a system or power-on reset leaves in them (R81, R97).
-/
namespace Sys2Proof.Machine

variable {s t u : State} {a : Nat}

/-! ### Registers that operations outside the post office leave alone -/

/-- The registers of the 64 pigeonholes. -/
def ringReg (a : Nat) : Prop := 0x40061000 ≤ a ∧ a < 0x40063000

/-- PST_PM, PST_SLEEP and the registers of the 64 pigeonholes. -/
def postReg (a : Nat) : Prop := a = R.PST_PM ∨ a = R.PST_SLEEP ∨ ringReg a

/-- Registers of other units, and the post office's counts, none of which has an address among those of `postReg`, whatever its number. -/
def Reg.offPost : Reg → Bool
  | .PST_EPOCH | .PST_DLJ_CNT | .PST_DLJ_LOST | .FEn_STATE | .FEn_ADFAC | .FEn_EVT | .FEn_WDCNT | .FEn_MON_I | .FEn_MON_IREF | .FEn_MON_V
  | .FEn_MON_ANG | .FEn_MON_SPD | .FEn_MON_PRE | .MOD_STAT | .MOD_LCNTn | .RNDr_STATE | .CHG_STATE | .CHG_ILIM | .CHG_FLT | .CHG_EVT
  | .REG_STATE | .REG_EVT | .REG_FLT | .REG_TARGET | .REG_SHED | .REG_PHn | .ACk_STATE | .ACk_EVT | .ACk_FLT | .GBX_STATE | .GBX_EVT
  | .GBX_FLT | .LDG_EVT | .LDG_WQSTAT | .LDG_PNf | .LSC_CFG | .LSC_STAT | .SSM_STATE | .SSM_CAUSE | .SSM_EVT | .SSM_PAT0 | .SSM_PAT1
  | .SSM_PATX | .RST_STATE | .RST_START | .RST_EVT | .RST_OPTIME | .NVS_EVT | .NVS_JLOST | .NVS_JSEQ => true
  | _ => false

theorem Reg.At.not_postReg {r : Reg} (k : r.At a) (off : r.offPost = true) : ¬postReg a := by
  cases k <;> simp only [Reg.offPost, Bool.false_eq_true] at off <;>
    simp only [postReg, ringReg, R.PST_PM, R.PST_SLEEP, R.PST_EPOCH, R.PST_DLJ_CNT, R.PST_DLJ_LOST, R.FEn_STATE, R.FEn_ADFAC, R.FEn_EVT, R.FEn_WDCNT,
      R.FEn_MON_I, R.FEn_MON_IREF, R.FEn_MON_V, R.FEn_MON_ANG, R.FEn_MON_SPD, R.FEn_MON_PRE, R.MOD_STAT, R.MOD_LCNTn, R.RNDr_STATE,
      R.CHG_STATE, R.CHG_ILIM, R.CHG_FLT, R.CHG_EVT, R.REG_STATE, R.REG_EVT, R.REG_FLT, R.REG_TARGET, R.REG_SHED, R.REG_PHn, R.ACk_STATE,
      R.ACk_EVT, R.ACk_FLT, R.GBX_STATE, R.GBX_EVT, R.GBX_FLT, R.LDG_EVT, R.LDG_WQSTAT, R.LDG_PNf, R.LSC_CFG, R.LSC_STAT, R.SSM_STATE,
      R.SSM_CAUSE, R.SSM_EVT, R.SSM_PAT0, R.SSM_PAT1, R.SSM_PATX, R.RST_STATE, R.RST_START, R.RST_EVT, R.RST_OPTIME, R.NVS_EVT,
      R.NVS_JLOST, R.NVS_JSEQ] <;> omega

/-- A part of the state that holds no register of the post office. -/
def Part.offPost : Part → Bool
  | .regs => false
  | .reg r => r.offPost
  | _ => true

theorem Frame.postReg_eq {c : List Part} (h : Frame c s t) (off : c.all Part.offPost = true) (post : postReg a) : t.reg a = s.reg a := by
  have out := List.all_eq_true.mp off
  rcases h.regs a with m | ⟨r, m, k⟩ | e
  · exact Bool.noConfusion (out _ m)
  · exact absurd post (k.not_postReg (out _ m))
  · exact e

/-- A loop leaves a register that none of its rounds writes. -/
theorem State.reg_each {α : Type} {f : State → α → State} {l : List α} (h : ∀ u, ∀ x ∈ l, (f u x).reg a = u.reg a) :
    (s.each l f).reg a = s.reg a := by
  induction l generalizing s with
  | nil => rfl
  | cons x l ih =>
    rw [List.forall_mem_cons.mp (h s) |>.1 |>.symm]
    exact ih fun u y m => h u y (.tail _ m)

/-! ### The registers of a pigeonhole -/

theorem ringReg_cfg {n : Nat} (h : n < 64) : ringReg (R.PHn_CFG n) := by simp only [ringReg, R.PHn_CFG]; omega
theorem ringReg_head {n : Nat} (h : n < 64) : ringReg (R.PHn_HEAD n) := by simp only [ringReg, R.PHn_HEAD]; omega
theorem ringReg_tail {n : Nat} (h : n < 64) : ringReg (R.PHn_TAIL n) := by simp only [ringReg, R.PHn_TAIL]; omega
theorem ringReg_seq {n : Nat} (h : n < 64) : ringReg (R.PHn_SEQ n) := by simp only [ringReg, R.PHn_SEQ]; omega

/-- The count of a ring is read from its pigeonhole's registers. -/
theorem State.phCount_congr {n : Nat} (h : n < 64) (same : ∀ a, ringReg a → t.reg a = s.reg a) : t.phCount n = s.phCount n := by
  simp only [State.phCount, State.phSize, State.phHead, State.phTail, State.fld, same _ (ringReg_cfg h), same _ (ringReg_head h),
    same _ (ringReg_tail h)]

/-! ### What the reset of the registers leaves -/

theorem FMap.get_filter {α : Type} {d : Nat → α} {m : FMap α} {q : Nat → Bool} (k : Nat) :
    FMap.get d (m.filter fun p => q p.1) k = if q k then FMap.get d m k else d k := by
  induction m with
  | nil => simp [FMap.get]
  | cons p m ih =>
    by_cases e : k = p.1
    · subst e
      cases h : q p.1 <;> simp [h, FMap.get, ih]
    · cases h : q p.1 <;> simp [h, FMap.get, ih, e]

theorem FMap.get_append_right {α : Type} {d : Nat → α} {m n : FMap α} {k : Nat} (h : ∀ p ∈ m, k ≠ p.1) :
    FMap.get d (m ++ n) k = FMap.get d n k := by
  induction m with
  | nil => rfl
  | cons p m ih =>
    obtain ⟨ne, rest⟩ := List.forall_mem_cons.mp h
    rw [List.cons_append, FMap.get, if_neg ne, ih rest]

/-- The registers of the post office lie above the sources whose targets a split boot names. -/
theorem postReg_above_sources (post : postReg a) : R.EVC_SRCm 256 < a := by
  simp only [postReg, ringReg, R.PST_PM, R.PST_SLEEP] at post
  simp only [R.EVC_SRCm]
  omega

theorem State.evcSplitTargets_postReg (post : postReg a) : s.evcSplitTargets.reg a = s.reg a := by
  have above := postReg_above_sources post
  unfold State.evcSplitTargets
  split
  · refine (FMap.get_append_right fun p hp => ?_).trans
      ((FMap.get_filter (q := fun k => decide (R.EVC_SRCm 256 < k)) a).trans (if_pos (decide_eq_true above)))
    simp only [List.mem_append, List.mem_filter, List.mem_map, List.mem_range, decide_eq_true_eq] at hp
    rcases hp with ⟨-, below⟩ | ⟨i, lt, rfl⟩ <;> simp only [R.EVC_SRCm] at * <;> omega
  · rfl

theorem keptReg_postReg (post : postReg a) : keptReg a = false := by
  simp only [postReg, ringReg, R.PST_PM, R.PST_SLEEP] at post
  simp only [keptReg, R.RST_CAUSE, R.RST_START, R.RST_WAKE, R.CLK_LAST, R.THM_LIMIT, R.THM_TCFG, R.MEM_CRIT, R.CLK_STAT, R.MOD_STAT,
    R.LDG_KASKIP, R.LDG_KAWAKE, Bool.or_eq_false_iff, Bool.and_eq_false_iff, decide_eq_false_iff_not, beq_eq_false_iff_ne, ne_eq]
  omega

/-- After a reset, the post office and the NVS buffer are as they are at reset, and so are the post office's registers. -/
structure PostReset (t : State) : Prop where
  po : t.po = State.reset.po
  nvs : t.nvs = State.reset.nvs
  reg : ∀ a, postReg a → t.reg a = regDefault a

theorem PostReset.frame {c : List Part} (h : PostReset s) (k : Kept c s t) (po : c.contains .po = false) (nvs : c.contains .nvs = false)
    (reg : ∀ a, postReg a → t.reg a = s.reg a) : PostReset t :=
  ⟨(k.frame.same .po po).trans h.po, (k.frame.same .nvs nvs).trans h.nvs, fun a post => (reg a post).trans (h.reg a post)⟩

/-- An operation whose frame has nothing of the post office leaves it reset. -/
theorem PostReset.off {c : List Part} (h : PostReset s) (k : Kept c s t)
    (off : (c.all Part.offPost && !c.contains .po && !c.contains .nvs) = true) : PostReset t := by
  simp only [Bool.and_eq_true, Bool.not_eq_true'] at off
  exact h.frame k off.1.2 off.2 fun a => k.frame.postReg_eq off.1.1

theorem PostReset.setFld (h : PostReset s) {r : Reg} (k : r.At a) (off : r.offPost = true) (f : Fld) (v : Nat) : PostReset (s.setFld a f v) :=
  h.off (State.setFld_kept k s f v) (by simp [Part.offPost, off])

theorem PostReset.each {α : Type} {f : State → α → State} {l : List α} (h : PostReset s)
    (k : ∀ u, ∀ x ∈ l, PostReset u → PostReset (f u x)) : PostReset (s.each l f) := by
  induction l generalizing s with
  | nil => exact h
  | cons x l ih => exact ih (k s x (.head _) h) fun u y m => k u y (.tail _ m)

theorem PostReset.evcSplitTargets (h : PostReset s) : PostReset s.evcSplitTargets :=
  h.frame (State.evcSplitTargets_kept s) rfl rfl fun _ => State.evcSplitTargets_postReg

theorem PostReset.setLscStat (h : PostReset s) (n v : Nat) : PostReset (s.setLscStat n v) := h.off (State.setLscStat_kept s n v) rfl

theorem PostReset.ssmRefresh (h : PostReset s) : PostReset s.ssmRefresh := h.off (State.ssmRefresh_kept s) rfl

theorem PostReset.keepTrips (h : PostReset s) (old : State) : PostReset (s.keepTrips old) := h.off (State.keepTrips_kept s old) rfl

/-- The watchdog status of a pair: its address is clear of the post office's for the pairs that exist. -/
theorem State.setFld_wdStat_postReg {n v : Nat} {f : Fld} (h : n < 4) (post : postReg a) : (s.setFld (R.SSM_WDSTATn n) f v).reg a = s.reg a := by
  refine State.reg_setReg_ne ?_ _
  simp only [postReg, ringReg, R.PST_PM, R.PST_SLEEP] at post
  simp only [R.SSM_WDSTATn]
  omega

theorem PostReset.setWdStat (h : PostReset s) {n : Nat} (lt : n < 4) (f : Fld) (v : Nat) : PostReset (s.setFld (R.SSM_WDSTATn n) f v) :=
  h.frame (State.setFld_kept (.SSM_WDSTATn n) s f v) rfl rfl fun _ => State.setFld_wdStat_postReg lt

theorem Variant.pairs_le (v : Variant) : v.pairs ≤ 4 := by cases v <;> decide

theorem State.systemClear_postReset (s : State) : PostReset s.systemClear := by
  refine .ssmRefresh (.each ?_ fun u n m h => (h.setLscStat n 4).setWdStat ?_ _ _)
  · refine .setFld (.evcSplitTargets (.setFld (.keepTrips ?_ s) .LSC_CFG rfl _ _)) .RST_STATE rfl _ _
    exact ⟨rfl, rfl, fun a post => (FMap.get_filter a).trans (if_neg (Bool.eq_false_iff.mp (keptReg_postReg post)))⟩
  · exact Nat.lt_of_lt_of_le (List.mem_range.mp m) (Variant.pairs_le _)

theorem State.powerClear_postReset (s : State) : PostReset s.powerClear := by
  refine .ssmRefresh (.each (.evcSplitTargets (.setFld ?_ .LSC_CFG rfl _ _)) fun u n _ h => h.setLscStat n 4)
  exact ⟨rfl, rfl, fun _ _ => rfl⟩

theorem PostReset.pm (h : PostReset t) : t.pm = 1 := by
  rw [State.pm, h.reg _ (.inl rfl)]
  decide +kernel

theorem PostReset.sleep (h : PostReset t) : t.reg R.PST_SLEEP = 0 := by
  rw [h.reg _ (.inr (.inl rfl))]
  decide +kernel

/-- The maps give every pigeonhole's head, tail and sequence number the reset value 0. -/
theorem regDefault_ring : ∀ n < 64, regDefault (R.PHn_HEAD n) = 0 ∧ regDefault (R.PHn_TAIL n) = 0 ∧ regDefault (R.PHn_SEQ n) = 0 := by
  decide +kernel

theorem State.fld_of_reg_zero {f : Fld} (h : s.reg a = 0) : s.fld a f = 0 := by
  simp [State.fld, h, getF, bitsOf]

theorem ringDist_zero (n : Nat) : ringDist n 0 0 = 0 := by
  simp [ringDist]

theorem PostReset.ring (h : PostReset t) {n : Nat} (lt : n < 64) : t.phCount n = 0 ∧ t.fld (R.PHn_SEQ n) F.PHn_SEQ_SEQ = 0 := by
  obtain ⟨head, tail, seq⟩ := regDefault_ring n lt
  have atHead : t.phHead n = 0 := State.fld_of_reg_zero ((h.reg _ (.inr (.inr (ringReg_head lt)))).trans head)
  have atTail : t.phTail n = 0 := State.fld_of_reg_zero ((h.reg _ (.inr (.inr (ringReg_tail lt)))).trans tail)
  rw [State.phCount, atHead, atTail]
  exact ⟨ringDist_zero _, State.fld_of_reg_zero ((h.reg _ (.inr (.inr (ringReg_seq lt)))).trans seq)⟩

end Sys2Proof.Machine
end

section
/-!
What the resets leave in the post office (R97): a system or power-on reset, all of it as at reset; a pair reset, the post windows and the
sleep bits of its pair cleared and the rest as before.
-/
namespace Sys2Proof.Machine

variable {s t : State} {a n : Nat}

/-! ### Bits of a word -/

theorem bitAt_eq_testBit (v i : Nat) : bitAt v i = v.testBit i := by
  rw [bitAt, Nat.testBit_eq_decide_div_mod_eq, beq_eq_decide]

/-- Taking a set bit's value away clears that bit and no other. -/
theorem testBit_sub_two_pow {v i : Nat} (set : v.testBit i = true) (j : Nat) : (v - 2 ^ i).testBit j = (v.testBit j && j != i) := by
  have ge : 2 ^ i ≤ v := Nat.ge_two_pow_of_testBit set
  rcases Nat.lt_or_ge j i with lt | le
  · have below := Nat.testBit_two_pow_add_gt lt (v - 2 ^ i)
    rw [Nat.add_sub_of_le ge] at below
    simp [below, Nat.ne_of_lt lt]
  · obtain ⟨k, rfl⟩ := Nat.exists_eq_add_of_le le
    have odd : v / 2 ^ i % 2 = 1 := by simpa [Nat.testBit_eq_decide_div_mod_eq] using set
    have quot : (v - 2 ^ i) / 2 ^ i = v / 2 ^ i - 1 := by simpa using Nat.sub_mul_div v (2 ^ i) 1
    rw [Nat.add_comm i k, ← Nat.testBit_div_two_pow, ← Nat.testBit_div_two_pow, quot]
    generalize v / 2 ^ i = q at odd
    cases k with
    | zero => simp; omega
    | succ k =>
      rw [Nat.testBit_succ, Nat.testBit_succ, show (q - 1) / 2 = q / 2 by omega]
      simp

/-! ### The sleep bits -/

/-- The reset of a pair clears the sleep bit of a code of the pair. -/
def State.clrSleep (s : State) (c : Nat) : State :=
  match sleepBit c with
  | some b => s.clrBit R.PST_SLEEP ⟨31, 0⟩ b
  | none => s

/-- Bit b of PST_SLEEP is set. -/
def State.sleeps (s : State) (b : Nat) : Bool := bitAt (s.reg R.PST_SLEEP).toNat b

theorem State.sleeps_congr (h : t.reg R.PST_SLEEP = s.reg R.PST_SLEEP) (b : Nat) : t.sleeps b = s.sleeps b := by
  rw [State.sleeps, h, State.sleeps]

theorem State.fld_word : s.fld a ⟨31, 0⟩ = (s.reg a).toNat := by
  simp [State.fld, getF, bitsOf, Nat.mod_eq_of_lt (s.reg a).isLt]

theorem State.sleeps_clrBit (i b : Nat) : (s.clrBit R.PST_SLEEP ⟨31, 0⟩ i).sleeps b = (s.sleeps b && b != i) := by
  simp only [State.sleeps, State.clrBit, State.fld_word, bitAt_eq_testBit]
  split
  case isTrue set =>
    have word : ((s.setFld R.PST_SLEEP ⟨31, 0⟩ ((s.reg R.PST_SLEEP).toNat - 2 ^ i)).reg R.PST_SLEEP).toNat
        = (s.reg R.PST_SLEEP).toNat - 2 ^ i := by
      rw [← State.fld_word, State.fld_setFld _ rfl]
      exact Nat.mod_eq_of_lt (Nat.lt_of_le_of_lt (Nat.sub_le ..) (s.reg R.PST_SLEEP).isLt)
    rw [word, testBit_sub_two_pow set]
  case isFalse unset =>
    rcases eq_or_ne b i with rfl | ne
    · simp [unset]
    · simp [ne]

theorem State.sleeps_clrSleep (c b : Nat) : (s.clrSleep c).sleeps b = (s.sleeps b && decide (sleepBit c ≠ some b)) := by
  unfold State.clrSleep
  split
  case h_1 i e =>
    rw [State.sleeps_clrBit, e]
    simp [bne, beq_eq_decide, eq_comm]
  case h_2 e => simp [e]

/-- After the loop over a pair's codes, a bit is set that was set and is of none of them. -/
theorem State.sleeps_each_clrSleep (codes : List Nat) (b : Nat) :
    (s.each codes State.clrSleep).sleeps b = (s.sleeps b && codes.all fun c => decide (sleepBit c ≠ some b)) := by
  induction codes generalizing s with
  | nil => simp [State.each]
  | cons c codes ih => exact ih.trans (by rw [State.sleeps_clrSleep, List.all_cons, Bool.and_assoc])

theorem State.clrSleep_kept (s : State) (c : Nat) : Kept [.reg .PST_SLEEP] s (s.clrSleep c) := by
  unfold State.clrSleep
  split
  · exact State.clrBit_kept .PST_SLEEP ..
  · exact .refl _ _

/-! ### The post windows -/

/-- A declared pigeonhole whose producer is of the pair. -/
def State.drops (codes : List Nat) (s : State) (k : Nat) : Bool := codes.contains (s.phProducer k) && s.phEn k

/-- The reset of a pair clears the post window of a declared pigeonhole whose producer is of the pair. -/
def State.dropWindow (codes : List Nat) (s : State) (k : Nat) : State :=
  if s.drops codes k then s.setPigeon k { s.pigeon k with window := [] } else s

variable {codes : List Nat}

theorem State.drops_congr {ph : Nat} (same : ∀ a, t.reg a = s.reg a) : t.drops codes ph = s.drops codes ph := by
  simp only [State.drops, State.phProducer, State.phEn, State.flag, State.fld, same]

theorem State.dropWindow_reg (k : Nat) : (s.dropWindow codes k).reg a = s.reg a := by
  unfold State.dropWindow
  split <;> rfl

theorem State.dropWindow_po (k : Nat) : ∃ ph, (s.dropWindow codes k).po = { s.po with ph := ph } := by
  unfold State.dropWindow
  split <;> exact ⟨_, rfl⟩

/-- One turn of the loop clears the window of its own pigeonhole, where that is to be cleared, and of no other. -/
theorem State.pigeon_dropWindow (k ph : Nat) : (s.dropWindow codes k).pigeon ph =
    if ph = k ∧ s.drops codes ph = true then { s.pigeon ph with window := [] } else s.pigeon ph := by
  unfold State.dropWindow
  rcases eq_or_ne ph k with rfl | ne
  · cases h : s.drops codes ph <;> simp
  · split <;> simp [ne, State.pigeon_setPigeon_ne]

theorem State.pigeon_each_dropWindow (l : List Nat) (ph : Nat) : (s.each l (State.dropWindow codes)).pigeon ph =
    if ph ∈ l ∧ s.drops codes ph = true then { s.pigeon ph with window := [] } else s.pigeon ph := by
  induction l generalizing s with
  | nil => simp [State.each]
  | cons k l ih =>
    refine ih.trans ?_
    rw [State.drops_congr (fun _ => State.dropWindow_reg k), State.pigeon_dropWindow]
    cases s.drops codes ph with
    | false => simp
    | true => by_cases own : ph = k <;> simp [own]

theorem State.po_each_dropWindow (l : List Nat) : ∃ ph, (s.each l (State.dropWindow codes)).po = { s.po with ph := ph } := by
  induction l generalizing s with
  | nil => exact ⟨_, rfl⟩
  | cons k l ih =>
    obtain ⟨first, e⟩ := State.dropWindow_po (s := s) (codes := codes) k
    obtain ⟨rest, h⟩ := ih (s := s.dropWindow codes k)
    exact ⟨rest, h.trans (by rw [e])⟩

theorem State.reg_each_dropWindow (l : List Nat) : (s.each l (State.dropWindow codes)).reg a = s.reg a :=
  State.reg_each fun _ k _ => State.dropWindow_reg k

/-! ### The reset of a pair -/

/-- The unit codes of a pair's cores: of the pair in paired mode, of its two cores in split mode. -/
def State.pairCodes (s : State) (n : Nat) : List Nat := if s.split then [U.core (2 * n), U.core (2 * n + 1)] else [U.pair n]

/-- A pair reset, first step: the pair's cores are off. -/
def State.pairCores (s : State) (n : Nat) : State := s.each (s.coresOf n) fun s t => s.setCore t { coreDefault t with cond := .off }

/-- A pair reset, second step: the post windows of the pair are cleared. -/
def State.pairWindows (s : State) (n : Nat) : State := (s.pairCores n).each (List.range 64) (State.dropWindow (s.pairCodes n))

/-- A pair reset, third step: the pair's sleep bits are cleared. -/
def State.pairSleep (s : State) (n : Nat) : State := (s.pairWindows n).each (s.pairCodes n) State.clrSleep

/-- A pair reset, last step: LSC_STAT, the watchdog's mode and the lockstep record. -/
def State.pairRest (s : State) (n : Nat) : State :=
  let t := (s.setLscStat n 4).setFld (R.SSM_WDSTATn n) F.SSM_WDSTATn_MODE 0
  t.setPair n { t.pairSt n with replay := 0, testWaits := false }

/-- The four steps make up the model's pair reset. -/
theorem State.pairClear_eq (s : State) (n : Nat) : s.pairClear n = (s.pairSleep n).pairRest n := rfl

theorem State.pairCores_kept (s : State) (n : Nat) : Kept [.cores] s (s.pairCores n) :=
  State.each_kept (fun u t => State.setCore_kept u t _) _ s

theorem State.pairCores_po (s : State) (n : Nat) : (s.pairCores n).po = s.po := (State.pairCores_kept s n).frame.same .po rfl

theorem State.pairCores_reg (s : State) (n : Nat) : (s.pairCores n).reg a = s.reg a := State.reg_each fun _ _ _ => rfl

theorem State.pairSleep_kept (s : State) (n : Nat) : Kept [.reg .PST_SLEEP] (s.pairWindows n) (s.pairSleep n) :=
  State.each_kept State.clrSleep_kept _ _

theorem State.pairRest_kept (s : State) (n : Nat) : Kept [.lsc, .reg .LSC_STAT, .reg .SSM_WDSTATn] s (s.pairRest n) :=
  .via (State.setPair_kept ..) rfl (.via (State.setFld_kept (.SSM_WDSTATn n) ..) rfl ((State.setLscStat_kept s n 4).mono rfl))

/-- After the windows, nothing of the post office's own record changes. -/
theorem State.pairClear_po_windows (s : State) (n : Nat) : (s.pairClear n).po = (s.pairWindows n).po :=
  ((State.pairRest_kept _ n).frame.same .po rfl).trans ((State.pairSleep_kept s n).frame.same .po rfl)

theorem State.pairClear_po (s : State) (n : Nat) : (s.pairClear n).po = { s.po with ph := (s.pairClear n).po.ph } := by
  obtain ⟨ph, e⟩ := State.po_each_dropWindow (codes := s.pairCodes n) (s := s.pairCores n) (List.range 64)
  rw [State.pairClear_po_windows, State.pairWindows, e, State.pairCores_po]

theorem State.pigeon_congr (h : t.po = s.po) (ph : Nat) : t.pigeon ph = s.pigeon ph := by
  rw [State.pigeon, h, State.pigeon]

/-- A pair reset clears the windows of the declared pigeonholes of its pair, and leaves every pigeonhole's record otherwise. -/
theorem State.pigeon_pairClear (s : State) (n ph : Nat) : (s.pairClear n).pigeon ph =
    if ph < 64 ∧ s.drops (s.pairCodes n) ph = true then { s.pigeon ph with window := [] } else s.pigeon ph := by
  rw [State.pigeon_congr (State.pairClear_po_windows s n), State.pairWindows, State.pigeon_each_dropWindow,
    State.drops_congr fun _ => s.pairCores_reg n, State.pigeon_congr (s.pairCores_po n)]
  simp only [List.mem_range]

theorem State.pairRest_sleep (s : State) {n : Nat} (lt : n < 4) : (s.pairRest n).reg R.PST_SLEEP = s.reg R.PST_SLEEP :=
  (State.setFld_wdStat_postReg lt (.inr (.inl rfl))).trans ((State.setLscStat_kept s n 4).frame.postReg_eq rfl (.inr (.inl rfl)))

/-- A pair reset clears the sleep bits of its pair's codes and no other. -/
theorem State.sleeps_pairClear (s : State) {n : Nat} (lt : n < 4) (b : Nat) :
    (s.pairClear n).sleeps b = (s.sleeps b && (s.pairCodes n).all fun c => decide (sleepBit c ≠ some b)) := by
  have windows : (s.pairWindows n).reg R.PST_SLEEP = s.reg R.PST_SLEEP := (State.reg_each_dropWindow _).trans (s.pairCores_reg n)
  rw [State.pairClear_eq, State.sleeps_congr (State.pairRest_sleep _ lt), State.pairSleep, State.sleeps_each_clrSleep,
    State.sleeps_congr windows]

/-- Settles O13: the clears of a system and a power-on reset leave the post office reset (`PostReset`); a pair reset is a loop over the
pigeonholes, whose effect on one of them `pigeon_pairClear` says, and one over the pair's sleep bits (`sleeps_pairClear`). -/
theorem resetPostOffice : Obligations.ResetPostOffice := by
  refine ⟨fun s t h => ?_, fun s n lt => ?_⟩
  · have reset : PostReset t := by
      rcases h with rfl | rfl
      · exact s.systemClear_postReset
      · exact s.powerClear_postReset
    have po := reset.po
    exact ⟨fun ph => reset.ring, by rw [po]; rfl, by rw [po]; rfl, by rw [po]; rfl, reset.sleep, by rw [reset.nvs]; rfl⟩
  · refine ⟨fun ph l enabled mine => ?_, fun ph other => ?_, fun ph => ?_, s.pairClear_po n, fun c b mem bit => ?_, fun b _ other => ?_,
      (s.pairClear_kept n).frame⟩
    · have dropped : s.drops (s.pairCodes n) ph = true := Bool.and_eq_true_iff.mpr ⟨mine, enabled⟩
      rw [State.pigeon_pairClear, if_pos ⟨l, dropped⟩]
    · have kept : s.drops (s.pairCodes n) ph = false := Bool.and_eq_false_imp.mpr fun mine => Bool.noConfusion (other.symm.trans mine)
      rw [State.pigeon_pairClear, kept, if_neg nofun]
    · rw [State.pigeon_pairClear]
      split <;> exact ⟨rfl, rfl⟩
    · refine (State.sleeps_pairClear s lt b).trans (Bool.and_eq_false_iff.mpr (.inr ?_))
      exact List.all_eq_false.mpr ⟨c, mem, by simp [bit]⟩
    · have none : ((s.pairCodes n).all fun c => decide (sleepBit c ≠ some b)) = true :=
        List.all_eq_true.mpr fun c mem => decide_eq_true (other c mem)
      exact (State.sleeps_pairClear s lt b).trans (by rw [none, Bool.and_true, State.sleeps])

end Sys2Proof.Machine
end

section
/-!
The postmark at a boundary with nothing waiting (R81, R82): what the boundary's steps leave of the post office while no operation is
outstanding, so that the postmark moves once and step 3 finds nothing to deliver.
-/
namespace Sys2Proof.Machine

variable {s t u : State} {a : Nat}

/-! ### Steps that leave the post office quiet -/

/-- From s to t, where no operation is outstanding in s: none is in t, and the management queue, the postmark, the sleep bits and the
pigeonholes' registers are as before. -/
structure Quiet (s t : State) : Prop where
  idle : s.po.ops = [] → t.po.ops = [] ∧ t.po.mgmt = s.po.mgmt ∧ ∀ a, postReg a → t.reg a = s.reg a

theorem Quiet.refl (s : State) : Quiet s s := ⟨fun h => ⟨h, rfl, fun _ _ => rfl⟩⟩

theorem Quiet.trans (h : Quiet s t) (k : Quiet t u) : Quiet s u := by
  refine ⟨fun none => ?_⟩
  obtain ⟨noneT, mgmtT, regT⟩ := h.idle none
  obtain ⟨noneU, mgmtU, regU⟩ := k.idle noneT
  exact ⟨noneU, mgmtU.trans mgmtT, fun a post => (regU a post).trans (regT a post)⟩

/-- An operation whose frame has nothing of the post office. -/
theorem Quiet.off {c : List Part} (k : Kept c s t) (off : (c.all Part.offPost && !c.contains .po) = true) : Quiet s t := by
  refine ⟨fun none => ?_⟩
  simp only [Bool.and_eq_true, Bool.not_eq_true'] at off
  have po : t.po = s.po := k.frame.same .po off.2
  exact ⟨po ▸ none, by rw [po], fun a => k.frame.postReg_eq off.1⟩

theorem Quiet.andThen {c : List Part} (h : Quiet s t) (k : Kept c t u) (off : (c.all Part.offPost && !c.contains .po) = true) : Quiet s u :=
  h.trans (.off k off)

/-- An update of the parts of the state beside the post office and the registers. -/
theorem Quiet.of_eq (po : t.po = s.po) (regs : t.regs = s.regs) : Quiet s t :=
  ⟨fun none => ⟨po ▸ none, by rw [po], fun a _ => by rw [State.reg, regs, State.reg]⟩⟩

theorem Quiet.ite {q : Prop} [Decidable q] (h : Quiet s t) (k : Quiet s u) : Quiet s (if q then t else u) := by split <;> assumption

theorem Quiet.each {α : Type} {f : State → α → State} {l : List α} (h : Quiet s t) (k : ∀ u x, Quiet u (f u x)) : Quiet s (t.each l f) := by
  induction l generalizing t with
  | nil => exact h
  | cons x l ih => exact ih (h.trans (k t x))

/-! ### Hardware transitions and final receipts -/

theorem State.hwAdd_quiet (s : State) (e : HwEvent) : Quiet s (s.hwAdd e) := ⟨fun h => ⟨h, rfl, fun _ _ => rfl⟩⟩

theorem State.hwFault_quiet (s : State) (x : Nat) : Quiet s (s.hwFault x) := .ite (.refl s) (s.hwAdd_quiet _)

theorem State.hwMove_quiet (s : State) (x : Nat) (l : List UState) (d : UState) : Quiet s (s.hwMove x l d) := s.hwAdd_quiet _

theorem State.hwFinish_quiet (s : State) (k : Nat) (st : Status) (r : List Byte) : Quiet s (s.hwFinish k st r) :=
  .ite (.refl s) (s.hwAdd_quiet _)

theorem State.finishOp_quiet (s : State) (x op : Nat) (st : Status) (r : List Byte) : Quiet s (s.finishOp x op st r) := by
  unfold State.finishOp
  split
  · exact .refl s
  · exact s.hwFinish_quiet ..

theorem State.setPigeon_quiet (s : State) (n : Nat) (p : Pigeon) : Quiet s (s.setPigeon n p) := ⟨fun h => ⟨h, rfl, fun _ _ => rfl⟩⟩

/-- With no operation outstanding there is no final receipt. -/
theorem finalReceipt_none (h : s.po.ops = []) (k : Nat) (st : Status) (r : List Byte) : finalReceipt s k st r = s := by
  simp [finalReceipt, h]

theorem finalReceipt_quiet (s : State) (k : Nat) (st : Status) (r : List Byte) : Quiet s (finalReceipt s k st r) :=
  ⟨fun h => by rw [finalReceipt_none h]; exact (Quiet.refl s).idle h⟩

theorem endOpsOf_quiet (s : State) (x : Nat) (st : Status) : Quiet s (endOpsOf s x st) := .each (.refl s) fun u _ => finalReceipt_quiet u ..

/-! ### Faults (step 1) -/

theorem State.fnRecord_quiet (s : State) (f c pos : Nat) : Quiet s (s.fnRecord f c pos) :=
  .ite (.refl s) ((Quiet.off (State.updTr_kept ..) rfl).trans (State.hwFault_quiet ..))

theorem State.chgFail_quiet (s : State) (c : Nat) : Quiet s (s.chgFail c) := by
  unfold State.chgFail
  extract_lets +onlyGivenNames st
  refine .ite (.refl s) ?_
  extract_lets +onlyGivenNames s1 chg s2
  have h2 : Quiet s s2 := ((Quiet.off (State.setBit_kept .CHG_FLT ..) rfl).andThen (State.setFlag_kept .CHG_EVT ..) rfl).trans (.of_eq rfl rfl)
  refine .ite h2 ?_
  extract_lets +onlyGivenNames s3 s4 s5 s6
  have h3 : Quiet s s3 := .ite (h2.andThen (State.sendFrame_kept ..) rfl) h2
  have h4 : Quiet s s4 := .ite (h3.andThen (State.sendFrame_kept ..) rfl) h3
  have h5 : Quiet s s5 := .ite (h4.andThen (State.sendFrame_kept ..) rfl) h4
  have h6 : Quiet s s6 := .ite ((h5.andThen (State.chgReason_kept ..) rfl).andThen (State.chgHardStop_kept _) rfl) h5
  exact h6.trans (State.hwFault_quiet ..)

theorem State.regFail_quiet (s : State) (c : Nat) : Quiet s (s.regFail c) := by
  have recorded : Quiet s (s.regCause c) := .off (State.regCause_kept ..) rfl
  exact .ite (.refl s) (.ite recorded (recorded.trans (State.hwFault_quiet ..)))

theorem State.gbxFail_quiet (s : State) (c : Nat) : Quiet s (s.gbxFail c) := by
  unfold State.gbxFail
  extract_lets +onlyGivenNames st
  refine .ite (.refl s) ?_
  extract_lets +onlyGivenNames s1
  have h1 : Quiet s s1 :=
    ((Quiet.off (State.setBit_kept .GBX_FLT ..) rfl).andThen (State.setFlag_kept .GBX_EVT ..) rfl).andThen (State.updGb_kept ..) rfl
  refine .ite h1 ?_
  extract_lets +onlyGivenNames s2
  have h2 : Quiet s s2 := h1.each fun u k =>
    .ite ((Quiet.off (State.acStop_kept ..) rfl).trans (State.hwMove_quiet ..)) (.off (State.updAc_kept ..) rfl)
  refine ((h2.trans ?_).andThen (State.updGb_kept ..) rfl).trans (State.hwFault_quiet ..)
  exact .of_eq rfl rfl

theorem State.actFail_quiet (s : State) (k c pos : Nat) (framed : Bool) : Quiet s (s.actFail k c pos framed) := by
  unfold State.actFail
  extract_lets +onlyGivenNames st
  refine .ite (.refl s) ?_
  extract_lets +onlyGivenNames s1 low s2
  have h2 : Quiet s s2 := (((Quiet.off (State.setBit_kept (.ACk_FLT k) ..) rfl).andThen (State.acEvt_kept ..) rfl).andThen
    (State.updAc_kept ..) rfl).andThen (State.setFld_kept (.ACk_STATE k) ..) rfl
  refine .ite h2 ?_
  extract_lets +onlyGivenNames s3 s4 s5
  have h3 : Quiet s s3 := ((h2.andThen (State.acOff_kept ..) rfl).andThen (State.setFld_kept (.ACk_STATE k) ..) rfl).andThen
    (State.updAc_kept ..) rfl
  have h4 : Quiet s s4 := .ite h3 ((h3.andThen (State.draw_kept _) rfl).andThen (State.sendFrame_kept ..) rfl)
  have h5 : Quiet s s5 := h4.trans (State.hwFault_quiet ..)
  exact .ite (h5.trans (State.gbxFail_quiet ..)) h5

theorem State.ssmFaults_quiet (s : State) : Quiet s s.ssmFaults := by
  unfold State.ssmFaults
  refine .ite (.refl s) ?_
  extract_lets +onlyGivenNames s1 s2 s3 s4
  have h1 : Quiet s s1 := (Quiet.refl s).each fun u f => (u.fnRecord_quiet ..).andThen (State.sendFrame_kept ..) rfl
  have h2 : Quiet s s2 := .ite (h1.trans (State.chgFail_quiet ..)) h1
  have h3 : Quiet s s3 := .ite (h2.trans (State.regFail_quiet ..)) h2
  have h4 : Quiet s s4 := h3.each fun u k => State.actFail_quiet ..
  exact .ite (h4.trans (State.gbxFail_quiet ..)) h4

theorem State.crowbarFault_quiet (s : State) : Quiet s s.crowbarFault :=
  .ite ((Quiet.off (State.regCause_kept ..) rfl).trans (State.hwFault_quiet ..)) (.refl s)

/-! ### The transitions of the ended epoch (step 1) -/

theorem State.faultUnit_quiet (s : State) (x : Nat) : Quiet s (s.faultUnit x) := by
  unfold State.faultUnit
  refine .ite ?_ (.ite ?_ (.ite ?_ ?_))
  · extract_lets +onlyGivenNames s1
    have h1 : Quiet s s1 := by
      dsimp only [s1]
      split
      · exact finalReceipt_quiet ..
      · exact .refl s
    exact ((h1.andThen (State.setUst_kept ..) rfl).andThen (State.chgSetPhase_kept ..) rfl).trans (endOpsOf_quiet ..)
  · exact (Quiet.off (State.regEnterFault_kept s) rfl).trans (endOpsOf_quiet ..)
  · extract_lets +onlyGivenNames s1
    have h1 : Quiet s s1 := by
      dsimp only [s1]
      split
      · exact finalReceipt_quiet ..
      · exact .refl s
    exact (((h1.andThen (State.setUst_kept ..) rfl).andThen (State.setFld_kept .GBX_STATE ..) rfl).andThen
      (State.setFld_kept .GBX_STATE ..) rfl).trans (endOpsOf_quiet ..)
  · exact (Quiet.off (State.enter_kept ..) rfl).trans (endOpsOf_quiet ..)

/-- What is done as of another postmark leaves the postmark as it was. -/
theorem State.asOf_quiet {f : State → State} (w : Word) (k : ∀ u, Quiet u (f u)) (s : State) : Quiet s (s.asOf w f) := by
  refine ⟨fun none => ?_⟩
  obtain ⟨none', mgmt, reg⟩ := (k (s.setReg R.PST_PM w)).idle none
  refine ⟨none', mgmt, fun a post => ?_⟩
  rcases eq_or_ne a R.PST_PM with rfl | ne
  · exact State.reg_setReg _
  · exact (State.reg_setReg_ne ne _).trans ((reg a post).trans (State.reg_setReg_ne ne _))

theorem State.applyHw_quiet (s : State) (old : Word) : Quiet s (s.applyHw old) := by
  unfold State.applyHw
  extract_lets +onlyGivenNames l faults po s1 s2
  have taken : Quiet s { s with po := { s.po with hw := [] } } := ⟨fun h => ⟨h, rfl, fun _ _ => rfl⟩⟩
  have h1 : Quiet s s1 := taken.each State.faultUnit_quiet
  have h2 : Quiet s s2 := h1.trans (State.asOf_quiet old (fun u =>
    ((Quiet.refl u).each fun u x => .off (State.journalFn_kept u x) rfl).andThen (State.journalCauses_kept _) rfl) s1)
  refine h2.each fun u e => ?_
  cases e with
  | fault x => exact .refl u
  | finish k st r => exact finalReceipt_quiet ..
  | move x froms dst => exact .ite (.refl u) (.off (State.enter_kept ..) rfl)

/-! ### The sequencer and the charger at a boundary -/

theorem State.moveStop_quiet (s : State) (m : Nat) : Quiet s (s.moveStop m) := by
  unfold State.moveStop
  extract_lets +onlyGivenNames s1
  have h1 : Quiet s s1 := (Quiet.off (State.updGb_kept ..) rfl).andThen (State.updAc_kept ..) rfl
  exact .ite ((h1.andThen (State.acStop_kept ..) rfl).trans (State.hwMove_quiet ..)) h1

theorem State.gbxSettle_quiet (s : State) : Quiet s s.gbxSettle :=
  .ite ((State.hwMove_quiet ..).trans (State.finishOp_quiet ..)) (.refl s)

theorem State.gbxEnd_quiet (s : State) : Quiet s s.gbxEnd := by
  unfold State.gbxEnd
  extract_lets +onlyGivenNames op s0 s1 ldg s2
  have h0 : Quiet s s0 := .ite (.off (State.gbxInterlock_kept s) rfl) (.refl s)
  have h1 : Quiet s s1 := (h0.trans (State.moveStop_quiet ..)).trans (State.finishOp_quiet ..)
  have h2 : Quiet s s2 := h1.trans (.of_eq rfl rfl)
  exact (((h2.andThen (State.setFld_kept .GBX_STATE ..) rfl).andThen (State.setFld_kept .GBX_STATE ..) rfl).andThen
    (State.setFlag_kept .GBX_EVT ..) rfl).trans (State.gbxSettle_quiet _)

theorem State.gbxBoundary_quiet (s : State) : Quiet s s.gbxBoundary := by
  unfold State.gbxBoundary
  extract_lets +onlyGivenNames asked s0 s1 s2 p
  have h0 : Quiet s s0 := .ite (.refl s) (.off (State.updGb_kept ..) rfl)
  have h1 : Quiet s s1 := .ite ((h0.andThen (State.setUst_kept ..) rfl).andThen (State.gbxArm_kept _) rfl) h0
  have h2 : Quiet s s2 := .ite (h1.each fun u k => .ite (.off (State.setUst_kept ..) rfl) (.refl u)) h1
  exact .ite h2 (.ite (h2.trans (State.gbxEnd_quiet _)) (h2.andThen (State.updGb_kept ..) rfl))

theorem State.followers_quiet (s : State) : Quiet s s.followers := by
  unfold State.followers
  extract_lets +onlyGivenNames s1 s2 s3
  have h1 : Quiet s s1 := .off (State.chgBoundary_kept s) rfl
  have h2 : Quiet s s2 := .ite h1 ((h1.andThen (State.setFld_kept .CHG_STATE ..) rfl).andThen (State.setFld_kept .CHG_STATE ..) rfl)
  exact (h2.andThen (State.actBoundary_kept _) rfl).trans (State.gbxBoundary_quiet _)

/-! ### The boundary -/

theorem State.latchPars_quiet (s : State) : Quiet s s.latchPars := by
  unfold State.latchPars
  extract_lets +onlyGivenNames s1
  have h1 : Quiet s s1 := (Quiet.refl s).each fun u n =>
    .ite (.refl u) ((Quiet.off (State.settleReset_kept ..) rfl).andThen (State.updE_kept ..) rfl)
  exact h1.trans ⟨fun h => ⟨h, rfl, fun _ _ => rfl⟩⟩

/-- The transitions are quiet but for one step: the postmark takes its successor. -/
theorem State.boundaryTransitions_step (s : State) : ∃ u, Quiet s u ∧
    Quiet (u.setNat R.PST_PM (pmNext (s.reg R.PST_PM).toNat)) s.boundaryTransitions := by
  unfold State.boundaryTransitions
  extract_lets +onlyGivenNames old s1 s2 due resets rst s3
  refine ⟨s1, ?_, ?_⟩
  · exact ((Quiet.off (State.journalLatches_kept s) rfl).trans (State.ssmFaults_quiet _)).trans (State.crowbarFault_quiet _)
  · have h2 : Quiet (s1.setNat R.PST_PM (pmNext old.toNat)) s2 := State.applyHw_quiet ..
    have h3 : Quiet (s1.setNat R.PST_PM (pmNext old.toNat)) s3 := by
      refine (h2.trans ?_).each fun u x => .off (State.unitBack_kept u x) rfl
      exact .of_eq rfl rfl
    have h4 : Quiet (s1.setNat R.PST_PM (pmNext old.toNat)) s3.coreUnits.operational.secBoundary :=
      ((h3.andThen (State.coreUnits_kept _) rfl).andThen (State.operational_kept _) rfl).andThen (State.secBoundary_kept _) rfl
    exact (h4.trans (State.followers_quiet _)).andThen (State.autoRuns_kept ..) rfl

theorem State.newEpoch_quiet (s : State) : Quiet s s.newEpoch := by
  unfold State.newEpoch
  extract_lets +onlyGivenNames s1 s2 s3 s4 s5 s6 s7 s8 s9
  have h2 : Quiet s s2 := ((Quiet.refl s).each fun u n => .off (State.updE_kept ..) rfl).each fun u f => .off (State.updTr_kept ..) rfl
  have h3 : Quiet s s3 := (h2.andThen (State.updCh_kept ..) rfl).andThen (State.updRg_kept ..) rfl
  have h4 : Quiet s s4 := h3.each fun u k => .off (State.updAc_kept ..) rfl
  have h5 : Quiet s s5 := (h4.andThen (State.updGb_kept ..) rfl).each fun u k => .off (State.updPs_kept ..) rfl
  have h6 : Quiet s s6 := h5.each fun u i => .off (State.updSn_kept ..) rfl
  have h7 : Quiet s s7 := h6.each fun u n => .off (State.updCn_kept ..) rfl
  have h8 : Quiet s s8 := h7.each fun u p => .off (State.updEt_kept ..) rfl
  have h9 : Quiet s s9 := h8.each fun u n => State.setPigeon_quiet ..
  clear_value s9
  exact h9.trans (.of_eq rfl rfl)

theorem State.latchCollection_quiet (s : State) : Quiet s s.latchCollection := ⟨fun h => ⟨h, rfl, fun _ _ => rfl⟩⟩

theorem State.boundaryCollection_quiet (s : State) : Quiet s s.boundaryCollection := by
  have measured : Quiet s s.regEmulate.regIntegrate := (Quiet.off (State.regEmulate_kept s) rfl).andThen (State.regIntegrate_kept _) rfl
  exact ((measured.each fun u n => .off (State.latchMonitor_kept u n) rfl).trans (State.latchCollection_quiet _)).trans
    (State.newEpoch_quiet _)

/-! ### Step 3 with nothing to deliver -/

theorem State.each_id {α : Type} {f : State → α → State} {l : List α} (h : ∀ x ∈ l, f s x = s) : s.each l f = s := by
  induction l with
  | nil => rfl
  | cons x l ih =>
    obtain ⟨first, rest⟩ := List.forall_mem_cons.mp h
    exact (congrArg (List.foldl f · l) first).trans (ih rest)

theorem State.deliverFrom_empty {n : Nat} (h : s.phCount n = 0) (k : Nat) : s.deliverFrom n k = s := by
  cases k with
  | zero => rfl
  | succ k => simp [State.deliverFrom, State.headDue, h]

theorem State.deliverClass_empty (h : ∀ k, k < 64 → s.phCount k = 0) (c : Nat) : s.deliverClass c = s :=
  State.each_id fun n m => ite_eq_right_iff.mpr fun _ => State.deliverFrom_empty (h n (List.mem_range.mp m)) _

theorem State.boundaryDeliveries_empty (rings : ∀ k, k < 64 → s.phCount k = 0) (mgmt : s.po.mgmt = []) : s.boundaryDeliveries = s := by
  have queue : s.deliverMgmt 16 = s := by simp [State.deliverMgmt, mgmt]
  simp only [State.boundaryDeliveries, State.deliverClass_empty rings, queue]

/-! ### The postmark -/

theorem State.pm_lt (s : State) : s.pm < 2 ^ 32 := (s.reg R.PST_PM).isLt

/-- A boundary that runs with empty rings, an empty management queue and no operation outstanding leaves the successor as the postmark. -/
theorem boundary_pm (runs : s.boundaryRuns = true) (rings : ∀ k, k < 64 → s.phCount k = 0) (mgmt : s.po.mgmt = []) (ops : s.po.ops = []) :
    Answers .epochBoundary s fun t => t.reg R.PST_PM = BitVec.ofNat 32 (pmNext s.pm) := by
  obtain ⟨ops1, mgmt1, reg1⟩ := s.latchPars_quiet.idle ops
  obtain ⟨u, before, after⟩ := s.latchPars.boundaryTransitions_step
  obtain ⟨ops2, mgmt2, reg2⟩ := before.idle ops1
  obtain ⟨-, mgmt3, reg3⟩ := (after.trans (State.boundaryCollection_quiet _)).idle ops2
  rw [reg1 _ (.inl rfl)] at reg3
  have ring (a : Nat) (h : ringReg a) : s.latchPars.boundaryTransitions.boundaryCollection.reg a = s.reg a := by
    have apart : a ≠ R.PST_PM := by
      rintro rfl
      exact absurd h (by simp [ringReg, R.PST_PM])
    have post : postReg a := .inr (.inr h)
    rw [reg3 a post, State.setNat, State.reg_setReg_ne apart, reg2 a post, reg1 a post]
  have idle : s.latchPars.boundaryTransitions.boundaryCollection.boundaryDeliveries = s.latchPars.boundaryTransitions.boundaryCollection :=
    State.boundaryDeliveries_empty (fun k l => (State.phCount_congr l ring).trans (rings k l)) (mgmt3.trans (mgmt2.trans (mgmt1.trans mgmt)))
  refine ⟨_, congrArg Host.Outcome.next ((if_pos runs).trans idle), ?_⟩
  exact (reg3 _ (.inl rfl)).trans (State.reg_setReg _)

/-- The successor of a postmark is a postmark, and never 0. -/
theorem pmNext_bounds {n : Nat} (h : n < 2 ^ 32) : 0 < pmNext n ∧ pmNext n < 2 ^ 32 := by
  unfold pmNext
  split <;> omega

theorem pmNext_eq {n : Nat} (h : n < 2 ^ 32) : pmNext n = if n = 0xFFFFFFFF then 1 else n + 1 := by
  unfold pmNext
  split <;> split <;> omega

/-- The order of two postmarks: the distance to the later one, modulo 2^32, is in the lower half. -/
theorem pmBefore_iff {a b : Nat} (ha : a < 2 ^ 32) (hb : b < 2 ^ 32) :
    pmBefore a b = true ↔ 1 ≤ ((b : Int) - a) % 2 ^ 32 ∧ ((b : Int) - a) % 2 ^ 32 ≤ 0x7FFFFFFF := by
  simp only [pmBefore, Bool.and_eq_true, decide_eq_true_eq]
  omega

theorem State.headDue_letter {n : Nat} {l : Letter} {x : Bool} (some : s.phCount n ≠ 0) (head : s.slot (s.phSlot n (s.phHead n)) = .letter l x) :
    s.headDue n = true ↔ l.deliverAt = 0 ∨ pmBefore s.pm l.deliverAt = false := by
  simp [State.headDue, some, head]

/-- Settles O12: a reset leaves the postmark at the value of the register maps; a boundary writes it once (`boundary_pm`). -/
theorem postmark : Obligations.Postmark := by
  refine ⟨PostReset.pm ⟨rfl, rfl, fun _ _ => rfl⟩, fun s => ⟨s.systemClear_postReset.pm, s.powerClear_postReset.pm⟩,
    fun s runs rings mgmt ops _ _ => ?_, fun a b => pmBefore_iff, fun s ph l x => State.headDue_letter⟩
  obtain ⟨t, next, pm⟩ := boundary_pm runs rings mgmt ops
  obtain ⟨pos, lt⟩ := pmNext_bounds s.pm_lt
  have value : t.pm = pmNext s.pm := by rw [State.pm, pm, BitVec.toNat_ofNat, Nat.mod_eq_of_lt lt]
  exact ⟨t, next, value.trans (pmNext_eq s.pm_lt), value ▸ Nat.ne_of_gt pos⟩

end Sys2Proof.Machine
end

section
/-!
What a claim returns (R399): the value of a claim in terms of the sources deliverable at the core, and the record of MEIP, which the claim
clears and the EVC begins anew.
-/
namespace Sys2Proof.Machine

variable {s : State} {c m t : Nat}

/-! ### The source a claim takes -/

theorem State.bestSource_mem {l : List Nat} (h : s.bestSource l = some m) : m ∈ l := by
  induction l with
  | nil => cases h
  | cons x l ih =>
    simp only [State.bestSource] at h
    split at h
    case h_1 =>
      cases h
      exact .head _
    case h_2 k best =>
      split at h <;> cases h
      · exact .head _
      · exact .tail _ (ih best)

theorem State.bestSource_none {l : List Nat} : s.bestSource l = none ↔ l = [] := by
  cases l with
  | nil => simp [State.bestSource]
  | cons x l =>
    simp only [State.bestSource, reduceCtorEq, iff_false]
    split
    · nofun
    · split <;> nofun

/-- With a source deliverable at the core, a claim returns one. -/
theorem State.claimValue_deliverable (h : ∃ m ∈ s.evc.raised, s.deliverable t m = true) :
    ∃ m ∈ s.evc.raised, s.deliverable t m = true ∧ s.claimValue t = m := by
  cases best : s.bestSource (s.evc.raised.filter (s.deliverable t)) with
  | none =>
    obtain ⟨m, raised, here⟩ := h
    exact absurd here (List.filter_eq_nil_iff.mp (State.bestSource_none.mp best) m raised)
  | some m =>
    obtain ⟨raised, here⟩ := List.mem_filter.mp (State.bestSource_mem best)
    exact ⟨m, raised, here, by rw [State.claimValue, best]⟩

/-- With none deliverable, a claim returns 0x3FF or 0 by the record of MEIP. -/
theorem State.claimValue_undeliverable (h : ∀ m ∈ s.evc.raised, s.deliverable t m = false) :
    s.claimValue t = if (s.core t).meipSeen then 0x3FF else 0 := by
  have empty : s.evc.raised.filter (s.deliverable t) = [] := List.filter_eq_nil_iff.mpr fun m raised => by simp [h m raised]
  rw [State.claimValue, State.bestSource_none.mpr empty]

/-! ### The record of MEIP -/

@[simp] theorem State.core_respond (v : Nat) : (s.respond v).core t = s.core t := rfl

@[simp] theorem State.meip_respond (v : Nat) : (s.respond v).meip t = s.meip t := rfl

@[simp] theorem State.core_updCore (f : CoreSt → CoreSt) : (s.updCore t f).core t = f (s.core t) := State.core_setCore ..

theorem State.core_updCore_ne (f : CoreSt → CoreSt) (h : t ≠ c) : (s.updCore c f).core t = s.core t := State.core_setCore_ne s c _ h

/-- Of the cores, delivery sees whether they execute (R402). -/
theorem State.available_updCore {f : CoreSt → CoreSt} (h : ∀ x, (f x).cond = x.cond) : (s.updCore c f).available = s.available := by
  funext k
  by_cases e : k = c
  · subst e
    simp [State.available, h]
  · rw [State.available, State.core_updCore_ne f e, State.available]

theorem State.meip_updCore {f : CoreSt → CoreSt} (h : ∀ x, (f x).cond = x.cond) : (s.updCore c f).meip t = s.meip t := by
  have delivered : (s.updCore c f).deliveredTo = s.deliveredTo := by
    funext m
    simp only [State.deliveredTo, State.available_updCore h]
    rfl
  have deliverable : (s.updCore c f).deliverable t = s.deliverable t := by
    funext m
    simp only [State.deliverable, delivered]
    rfl
  rw [State.meip, deliverable]
  rfl

/-- The record of MEIP at one core, a round of `evcRefresh`. -/
def State.seeMeip (s : State) (t : Nat) : State := if s.meip t then s.updCore t fun c => { c with meipSeen := true } else s

theorem State.meip_seeMeip : (s.seeMeip c).meip t = s.meip t := by
  unfold State.seeMeip
  split
  · exact State.meip_updCore fun _ => rfl
  · rfl

theorem State.meipSeen_seeMeip : ((s.seeMeip c).core t).meipSeen = ((s.core t).meipSeen || (t == c && s.meip t)) := by
  unfold State.seeMeip
  by_cases e : t = c
  · subst e
    cases h : s.meip t <;> simp
  · split
    · rw [State.core_updCore_ne _ e]
      simp [e]
    · simp [e]

theorem State.meip_each_seeMeip (l : List Nat) : (s.each l State.seeMeip).meip t = s.meip t := by
  induction l generalizing s with
  | nil => rfl
  | cons x l ih => exact (ih (s := s.seeMeip x)).trans State.meip_seeMeip

theorem State.meipSeen_each_seeMeip (l : List Nat) :
    ((s.each l State.seeMeip).core t).meipSeen = ((s.core t).meipSeen || (l.contains t && s.meip t)) := by
  induction l generalizing s with
  | nil => simp [State.each]
  | cons x l ih =>
    refine (ih (s := s.seeMeip x)).trans ?_
    rw [State.meipSeen_seeMeip, State.meip_seeMeip, List.contains_cons, Bool.or_assoc, Bool.and_or_distrib_right]

theorem State.meip_evcRefresh : s.evcRefresh.meip t = s.meip t := State.meip_each_seeMeip _

/-- A refresh records MEIP at each core that the boot mode runs. -/
theorem State.meipSeen_evcRefresh (runs : t ∈ s.runCores) : (s.evcRefresh.core t).meipSeen = ((s.core t).meipSeen || s.meip t) := by
  have rounds : (s.evcRefresh.core t).meipSeen = ((s.core t).meipSeen || (s.runCores.contains t && s.meip t)) := State.meipSeen_each_seeMeip _
  rw [rounds, List.contains_iff_mem.mpr runs, Bool.true_and]

/-! ### The claim of a core that the boot mode runs -/

theorem State.coreFails_nil : s.coreFails t = [] ↔ t ∈ s.runCores := by
  have fails (p : Prop) [Decidable p] : (if p then [Status.eState] else [.eAbsent]) ≠ [] := by split <;> nofun
  simp only [State.coreFails, ite_eq_left_iff, fails, List.contains_iff_mem, imp_false, not_not]

theorem State.lt_of_mem_runCores (runs : t ∈ s.runCores) : t < 8 := by
  refine Nat.lt_of_lt_of_le (List.mem_range.mp runs) ?_
  cases s.variant <;> cases s.split <;> decide

/-- The register blocks between SSM and THM are on the control die. -/
theorem monitorReg_between {a : Nat} (low : 0x40040000 ≤ a) (high : a < 0x40080000) : monitorReg a = false := by
  simp [monitorReg, Nat.not_lt.mpr low, Nat.not_le.mpr high]

theorem monitorReg_claim (h : t < 8) : monitorReg (R.EVC_CLAIMt t) = false := by
  refine monitorReg_between ?_ ?_ <;> rw [R.EVC_CLAIMt] <;> omega

theorem State.runCores_takeSource : (s.takeSource m t).runCores = s.runCores := by
  have kept := (State.takeSource_kept s m t).frame
  rw [State.runCores, kept.same .split rfl, kept.same .variant rfl, State.runCores]

theorem State.resp_claim : (s.claim t).resp = ⟨.done, s.claimValue t⟩ := rfl

theorem State.runCores_updCore (f : CoreSt → CoreSt) : (s.updCore c f).runCores = s.runCores := rfl

/-- A refresh begins a record anew that has been cleared. -/
theorem State.meipSeen_refresh_cleared (runs : t ∈ s.runCores) :
    ((s.updCore t fun c => { c with meipSeen := false }).evcRefresh.core t).meipSeen =
      (s.updCore t fun c => { c with meipSeen := false }).evcRefresh.meip t := by
  rw [State.meipSeen_evcRefresh (by rwa [State.runCores_updCore]), State.meip_evcRefresh, State.core_updCore, Bool.false_or]

/-- A claim clears the record of MEIP, which then holds the level of MEIP that the claim leaves. -/
theorem State.meipSeen_claim (runs : t ∈ s.runCores) : ((s.claim t).core t).meipSeen = (s.claim t).meip t := by
  refine State.meipSeen_refresh_cleared ?_
  split
  · exact runs
  · rwa [State.runCores_takeSource]

/-- A core that executes claims through its own claim register (R399). -/
theorem execEventClaim_core (runs : t ∈ s.runCores) (code : s.coreOfCode c = some t) (going : (s.core t).halted = false)
    (lets : s.Lets c (R.EVC_CLAIMt t) 0) : execEventClaim (.core c) t s = .next (s.claim t) := by
  have own : s.isCore (.core c) t = true := by simp [State.isCore, code]
  simp only [execEventClaim, State.coreFails_nil.mpr runs, own, going, if_true, List.append_nil, regFirst]
  exact congrArg _ (State.accessBy_core_done (store := false) lets rfl (monitorReg_claim (State.lt_of_mem_runCores runs)))

/-- Settles O16: the claim leaves the state `claim`, with the answer `claimValue`. -/
theorem claimValue : Obligations.ClaimValue := by
  intro s c t present code _ going lets
  have runs : t ∈ s.runCores := State.coreFails_nil.mp present
  refine ⟨s.claim t, execEventClaim_core runs code going lets, fun waiting => ?_, fun idle => ?_, State.meipSeen_claim runs⟩
  · obtain ⟨m, raised, here, value⟩ := State.claimValue_deliverable waiting
    exact ⟨m, raised, here, by rw [State.resp_claim, value]⟩
  · rw [State.resp_claim, State.claimValue_undeliverable idle]

end Sys2Proof.Machine
end

section
/-!
The proofs below are elaborated one after another: side by side, the threads that wait for the kernel hold more memory than a compile of this
text has.
-/
set_option Elab.async false

section
/-!
The frames of the commands, family by family: each is the frame of the operation that the command is.
-/
namespace Sys2Proof.Machine

/-- A command's frame, from that of the operation that it is. -/
theorem Framed.of_kept {c d : List Part} {s : State} {i : Instr} (h : KeptOut d s (exec i s)) (k : Part.sub d c = true) : Framed s i c := by
  intro t answer
  obtain ⟨u, next, kept⟩ := h
  cases next.symm.trans answer
  exact kept.frame.mono k

/-- Settles O48: the frame of each command is that of its operation. -/
theorem postOfficeFrames : Obligations.PostOfficeFrames := by
  intro s
  exact ⟨⟨.of_kept (execEpochBoundary_kept ..) rfl, fun _ _ _ => .of_kept (execRegisterWrite_kept ..) rfl,
    fun _ => .of_kept (execWrite_kept ..) rfl, fun _ _ => .of_kept (execMemoryAccess_kept ..) rfl,
    fun _ _ => .of_kept (execDebugSystemBusAccess_kept ..) rfl⟩, fun _ => .of_kept (execOperationDeadlinePassed_kept ..) rfl,
    fun _ _ _ => .of_kept (execLetterPost_kept ..) rfl, fun _ _ _ => .of_kept (execReceiptConsume_kept ..) rfl,
    fun _ => .of_kept (execReceiptHandoverTimeout_kept ..) rfl, fun _ => .of_kept (execReceiptModerationExpiry_kept ..) rfl,
    fun _ _ => .of_kept (execSleepAnnounce_kept ..) rfl, fun _ => .of_kept (execSysWerrCodeRead_kept ..) rfl,
    fun _ => .of_kept (execPstMerrCodeRead_kept ..) rfl, fun _ _ => .of_kept (execFaultCauseRead_kept ..) rfl,
    fun _ => .of_kept (execRead_kept ..) rfl, fun _ => .of_kept (execState_kept ..) rfl,
    fun _ => .of_kept (execAbort_kept ..) rfl, fun _ _ => .of_kept (execLostCountRead_kept ..) rfl⟩

/-- Settles O49: the frame of each command is that of its operation. -/
theorem memoryFrames : Obligations.MemoryFrames := by
  intro s
  exact ⟨fun _ => .of_kept (execMemLastinfoRead_kept ..) rfl, ⟨fun _ => .of_kept (execImageWrite_kept ..) rfl,
    fun _ => .of_kept (execFwWrite_kept ..) rfl⟩, ⟨fun _ => .of_kept (execImageCheck_kept ..) rfl,
    fun _ => .of_kept (execFwCheck_kept ..) rfl⟩, ⟨fun _ => .of_kept (execImageCommit_kept ..) rfl,
    fun _ => .of_kept (execFwCommit_kept ..) rfl, fun _ => .of_kept (execCriticalStateError_kept ..) rfl⟩,
    fun _ => .of_kept (execCheckComplete_kept ..) rfl, fun _ _ => .of_kept (execErrorInjection_kept ..) rfl,
    fun _ _ _ => .of_kept (execErrorCountClear_kept ..) rfl, ⟨fun _ => .of_kept (execNvsWindowWrite_kept ..) rfl,
    fun _ => .of_kept (execNvsStructureSlotWrite_kept ..) rfl, fun _ => .of_kept (execNvsFirmwareSlotWrite_kept ..) rfl⟩,
    fun _ _ => .of_kept (execJournalPost_kept ..) rfl, fun _ _ => .of_kept (execTableRestore_kept ..) rfl,
    ⟨fun _ _ _ _ => .of_kept (execScrubVisit_kept ..) rfl, fun _ _ => .of_kept (execMramScrub_kept ..) rfl⟩,
    .of_kept (execMramWritePulseEnd_kept ..) rfl, .of_kept (execJournalWrite_kept ..) rfl,
    .of_kept (execStartSequence_kept ..) rfl⟩

/-- Settles O50: the frame of each command is that of its operation. -/
theorem engineFrames : Obligations.EngineFrames := by
  intro s
  exact ⟨fun _ => .of_kept (execFeHarm_kept ..) rfl, fun _ => .of_kept (execFeAdapt_kept ..) rfl,
    fun _ => .of_kept (execFeGains_kept ..) rfl, fun _ => .of_kept (execFeClear_kept ..) rfl,
    fun _ point => .of_kept (execEngineUpdate_kept (_point := point) ..) rfl⟩

/-- Settles O51: the frame of each command is that of its operation. -/
theorem modulatorFrames : Obligations.ModulatorFrames := by
  intro s
  exact ⟨⟨fun _ => .of_kept (execDrvRead_kept ..) rfl, fun _ => .of_kept (execDrvWrite_kept ..) rfl⟩,
    fun _ _ _ _ => .of_kept (execConversionResult_kept ..) rfl,
    fun _ peak late => .of_kept (execUpdatePointCommit_kept (_peak := peak) (_late := late) ..) rfl,
    fun _ _ => .of_kept (execLinkWatchTrigger_kept ..) rfl,
    ⟨fun _ blanking => .of_kept (execDidtTrip_kept (_blanking := blanking) ..) rfl,
    fun _ _ => .of_kept (execIlockLatch_kept ..) rfl⟩, fun _ => .of_kept (execSoftOffHoldEnd_kept ..) rfl,
    fun _ _ => .of_kept (execGfFault_kept ..) rfl, .of_kept (execDriveEnFall_kept ..) rfl,
    fun _ _ => .of_kept (execDriveEnRise_kept ..) rfl, fun _ => .of_kept (execGateLinkWindow_kept ..) rfl,
    fun _ _ => .of_kept (execGateLinkResponse_kept ..) rfl, fun _ => .of_kept (execGateLinkTimeout_kept ..) rfl⟩

/-- Settles O52: the frame of each command is that of its operation. -/
theorem sensingFrames : Obligations.SensingFrames := by
  intro s
  exact ⟨fun _ => .of_kept (execRndRun_kept ..) rfl, fun _ => .of_kept (execRndHalt_kept ..) rfl,
    fun _ => .of_kept (execRndUrgent_kept ..) rfl, ⟨fun _ => .of_kept (execRndClear_kept ..) rfl,
    fun _ => .of_kept (execSentRun_kept ..) rfl⟩, fun _ => .of_kept (execPosRun_kept ..) rfl,
    fun _ => .of_kept (execPosStop_kept ..) rfl, fun _ => .of_kept (execSentStop_kept ..) rfl,
    ⟨fun _ _ _ => .of_kept (execRndUrgWrite_kept ..) rfl, fun _ _ => .of_kept (execRoundQueueRead_kept ..) rfl⟩,
    fun _ _ _ => .of_kept (execFcvCorrWrite_kept ..) rfl, fun _ _ _ _ => .of_kept (execRndCorrWrite_kept ..) rfl,
    fun _ _ _ => .of_kept (execPosOfsWrite_kept ..) rfl, fun _ _ _ => .of_kept (execLinkFrameError_kept ..) rfl,
    fun _ early apert _ => .of_kept (execSampleTrigger_kept (_early := early) (_apert := apert) ..) rfl,
    fun _ _ _ => .of_kept (execRoundEntryResult_kept ..) rfl, fun _ _ => .of_kept (execUrgentArrival_kept ..) rfl,
    fun _ _ => .of_kept (execUrgentResult_kept ..) rfl, fun _ _ => .of_kept (execRefreshLapse_kept ..) rfl,
    fun _ _ => .of_kept (execReferenceFault_kept ..) rfl, fun _ _ => .of_kept (execResolverFault_kept ..) rfl,
    fun _ => .of_kept (execResolverValidReturn_kept ..) rfl, fun _ => .of_kept (execExcitationRestart_kept ..) rfl,
    fun _ _ _ _ _ => .of_kept (execEncoderCount_kept ..) rfl, fun _ => .of_kept (execEncoderIndex_kept ..) rfl,
    fun _ _ _ _ _ => .of_kept (execSentFrame_kept ..) rfl, fun _ => .of_kept (execSentTimeout_kept ..) rfl,
    fun _ _ => .of_kept (execUrgentResultRead_kept ..) rfl⟩

/-- Settles O53: the frame of each command is that of its operation. -/
theorem tractionFrames : Obligations.TractionFrames := by
  intro s
  exact ⟨⟨fun _ => .of_kept (execTraArm_kept ..) rfl, fun _ => .of_kept (execTraRun_kept ..) rfl,
    fun _ => .of_kept (execTraStop_kept ..) rfl, fun _ => .of_kept (execTraDisarm_kept ..) rfl⟩,
    fun _ => .of_kept (execTraTorque_kept ..) rfl, fun _ => .of_kept (execTraClear_kept ..) rfl,
    fun _ => .of_kept (execChopRun_kept ..) rfl, fun _ => .of_kept (execChopHalt_kept ..) rfl,
    fun _ => .of_kept (execChopAutoStart_kept ..) rfl, fun _ _ => .of_kept (execTractionWatch_kept ..) rfl,
    fun _ => .of_kept (execChopperPeriod_kept ..) rfl, fun _ => .of_kept (execTractionStopComplete_kept ..) rfl,
    fun _ => .of_kept (execSensorlessObserveSample_kept ..) rfl, ⟨fun _ _ _ _ => .of_kept (execSensorlessObserveEnd_kept ..) rfl,
    fun _ => .of_kept (execIfLock_kept ..) rfl⟩, fun _ => .of_kept (execCatchFail_kept ..) rfl,
    fun _ => .of_kept (execAscFreewheelChange_kept ..) rfl, fun _ => .of_kept (execUnknownSpeedTimeout_kept ..) rfl⟩

/-- Settles O54: the frame of each command is that of its operation. -/
theorem chargerFrames : Obligations.ChargerFrames := by
  intro s
  exact ⟨⟨fun _ => .of_kept (execChgArm_kept ..) rfl, fun _ => .of_kept (execChgDisarm_kept ..) rfl⟩,
    fun _ => .of_kept (execChgStart_kept ..) rfl, ⟨fun _ => .of_kept (execChgStop_kept ..) rfl,
    fun _ => .of_kept (execChgLimit_kept ..) rfl, fun _ => .of_kept (execChgBms_kept ..) rfl⟩,
    fun _ => .of_kept (execChgClear_kept ..) rfl, fun _ => .of_kept (execTransport_kept ..) rfl,
    ⟨fun _ _ _ => .of_kept (execPilotClassAccepted_kept ..) rfl, fun _ => .of_kept (execProximityCodeAccepted_kept ..) rfl⟩,
    fun _ => .of_kept (execContactorFeedbackChange_kept ..) rfl, ⟨.of_kept (execPrechargeTimeout_kept ..) rfl,
    .of_kept (execContactorTimeout_kept ..) rfl, .of_kept (execCcTimerExpiry_kept ..) rfl,
    fun _ => .of_kept (execOutputFault_kept ..) rfl, .of_kept (execIslandOverload_kept ..) rfl,
    .of_kept (execPilotDiodeFault_kept ..) rfl⟩, ⟨fun _ => .of_kept (execGridReady_kept ..) rfl,
    fun _ => .of_kept (execSearchStep_kept ..) rfl⟩, ⟨.of_kept (execGridWaitTimeout_kept ..) rfl,
    .of_kept (execTermination_kept ..) rfl, .of_kept (execBmsTemperatureExpiry_kept ..) rfl,
    .of_kept (execChargerStopComplete_kept ..) rfl⟩, .of_kept (execSearchRepeat_kept ..) rfl,
    ⟨fun _ => .of_kept (execBusRegulationTick_kept ..) rfl, .of_kept (execAcContactorOpen_kept ..) rfl⟩,
    .of_kept (execSessionCapExpiry_kept ..) rfl, ⟨fun _ => .of_kept (execGridTrip_kept ..) rfl,
    .of_kept (execInvalidPilotTimeout_kept ..) rfl⟩, .of_kept (execRampdownEnd_kept ..) rfl,
    .of_kept (execTransportEntry_kept ..) rfl⟩

/-- Settles O55: the frame of each command is that of its operation. -/
theorem supplyFrames : Obligations.SupplyFrames := by
  intro s
  exact ⟨⟨fun _ => .of_kept (execHlvArm_kept ..) rfl, fun _ => .of_kept (execHlvDisarm_kept ..) rfl⟩,
    ⟨fun _ => .of_kept (execHlvRun_kept ..) rfl, fun _ => .of_kept (execHlvStop_kept ..) rfl⟩,
    fun _ => .of_kept (execHlvSet_kept ..) rfl, fun _ => .of_kept (execHlvClear_kept ..) rfl,
    fun _ => .of_kept (execHlvAutoRun_kept ..) rfl, ⟨fun _ => .of_kept (execRegArm_kept ..) rfl,
    fun _ => .of_kept (execRegDisarm_kept ..) rfl⟩, fun _ => .of_kept (execRegRun_kept ..) rfl,
    fun _ => .of_kept (execRegStop_kept ..) rfl, fun _ => .of_kept (execRegSet_kept ..) rfl,
    fun _ => .of_kept (execRegClear_kept ..) rfl, .of_kept (execRegAutoRun_kept ..) rfl,
    fun _ => .of_kept (execHlvStopComplete_kept ..) rfl, fun _ _ => .of_kept (execHlvFaultDetect_kept ..) rfl,
    ⟨fun _ => .of_kept (execRegComparatorTrip_kept ..) rfl, fun _ _ => .of_kept (execRegOnTimeEnd_kept ..) rfl,
    fun _ => .of_kept (execRegBalance_kept ..) rfl, fun _ => .of_kept (execRegShed_kept ..) rfl,
    fun _ => .of_kept (execRegAdd_kept ..) rfl, fun _ => .of_kept (execRegRestore_kept ..) rfl⟩,
    ⟨.of_kept (execRegShedHoldEnd_kept ..) rfl, fun _ => .of_kept (execShedPhaseHighImpedance_kept ..) rfl⟩,
    ⟨fun _ => .of_kept (execRegStartTest_kept ..) rfl, fun _ => .of_kept (execRegUndervoltageFailure_kept ..) rfl⟩,
    fun _ => .of_kept (execRegHiccupEnd_kept ..) rfl, .of_kept (execRegFailCountReset_kept ..) rfl,
    .of_kept (execRegSoftstopEnd_kept ..) rfl, fun _ => .of_kept (execRegCrowbar_kept ..) rfl,
    fun _ _ => .of_kept (execRegFaultDetect_kept ..) rfl⟩

/-- Settles O56: the frame of each command is that of its operation. -/
theorem actuatorFrames : Obligations.ActuatorFrames := by
  intro s
  exact ⟨⟨fun _ => .of_kept (execActArm_kept ..) rfl, fun _ => .of_kept (execActSpeed_kept ..) rfl,
    fun _ => .of_kept (execActLeaktest_kept ..) rfl⟩, ⟨fun _ => .of_kept (execActRun_kept ..) rfl,
    fun _ => .of_kept (execActStop_kept ..) rfl⟩, ⟨fun _ => .of_kept (execActDisarm_kept ..) rfl,
    fun _ => .of_kept (execGbxHalt_kept ..) rfl⟩, fun _ => .of_kept (execActClear_kept ..) rfl,
    fun _ => .of_kept (execGbxRun_kept ..) rfl, ⟨fun _ => .of_kept (execGbxShift_kept ..) rfl,
    fun _ => .of_kept (execGbxPark_kept ..) rfl, fun _ => .of_kept (execGbxClutch_kept ..) rfl⟩,
    fun _ => .of_kept (execGbxClear_kept ..) rfl, fun _ _ => .of_kept (execActUpdate_kept ..) rfl,
    ⟨fun _ _ => .of_kept (execActStartPhaseEnd_kept ..) rfl, fun _ _ => .of_kept (execActRampLock_kept ..) rfl⟩,
    fun _ _ _ => .of_kept (execActBrakePulse_kept ..) rfl, fun _ => .of_kept (execStartAttemptFail_kept ..) rfl,
    fun _ => .of_kept (execRetryWaitEnd_kept ..) rfl, fun _ => .of_kept (execBootstrapRefresh_kept ..) rfl,
    ⟨fun _ => .of_kept (execBootstrapUndervoltage_kept ..) rfl, fun _ _ => .of_kept (execActLegLatch_kept ..) rfl⟩,
    fun _ _ _ => .of_kept (execLeakTestComplete_kept ..) rfl, fun _ => .of_kept (execVactFault_kept ..) rfl,
    fun _ => .of_kept (execActStall_kept ..) rfl, fun _ => .of_kept (execActStopComplete_kept ..) rfl,
    .of_kept (execActEnFall_kept ..) rfl, fun _ _ => .of_kept (execActEnRise_kept ..) rfl,
    ⟨fun _ => .of_kept (execMoveTargetReached_kept ..) rfl, .of_kept (execShiftPhaseEnd_kept ..) rfl⟩,
    fun _ => .of_kept (execMoveTimeout_kept ..) rfl, ⟨.of_kept (execButtRetry_kept ..) rfl,
    .of_kept (execParkWaitExpiry_kept ..) rfl⟩, .of_kept (execSyncTimeExpiry_kept ..) rfl⟩

/-- Settles O57: the frame of each command is that of its operation. -/
theorem ledgerFrames : Obligations.LedgerFrames := by
  intro s
  exact ⟨fun _ => .of_kept (execLdgBattery_kept ..) rfl, fun _ => .of_kept (execLdgKeepalive_kept ..) rfl,
    fun _ _ => .of_kept (execLdgNetRead_kept ..) rfl, fun _ => .of_kept (execWithdrawalQueueRead_kept ..) rfl,
    fun _ => .of_kept (execKeepaliveBalanceRead_kept ..) rfl, fun _ _ => .of_kept (execImbalanceClear_kept ..) rfl,
    .of_kept (execLedgerTick_kept ..) rfl, .of_kept (execImbalanceBlock_kept ..) rfl, .of_kept (execPlannerRound_kept ..) rfl,
    fun us => .of_kept (execPlannerLatch_kept (_us := us) ..) rfl, .of_kept (execPlannerStale_kept ..) rfl,
    fun _ => .of_kept (execPowerHoleTimeout_kept ..) rfl, ⟨.of_kept (execTimerWake_kept ..) rfl,
    .of_kept (execKeepaliveRefill_kept ..) rfl⟩, .of_kept (execTimerWakeLimit_kept ..) rfl,
    .of_kept (execKeepaliveDebit_kept ..) rfl⟩

/-- Settles O58: the frame of each command is that of its operation. -/
theorem coreFrames : Obligations.CoreFrames := by
  intro s
  exact ⟨⟨fun _ => .of_kept (execSsmRelease_kept ..) rfl, fun _ => .of_kept (execSsmForce_kept ..) rfl⟩,
    fun _ => .of_kept (execEvcRing_kept ..) rfl, fun _ _ => .of_kept (execFaultNAcknowledge_kept ..) rfl,
    fun _ _ _ elapsed => .of_kept (execWatchdogService_kept (_elapsed := elapsed) ..) rfl,
    fun _ _ _ => .of_kept (execRstPvecWrite_kept ..) rfl, ⟨fun _ _ => .of_kept (execEventClaim_kept ..) rfl,
    fun _ _ _ => .of_kept (execEventComplete_kept ..) rfl, fun _ _ => .of_kept (execDoorbellSet_kept ..) rfl⟩,
    fun _ _ _ => .of_kept (execEventSourceWrite_kept ..) rfl, ⟨fun _ _ _ => .of_kept (execLockstepMismatch_kept ..) rfl,
    fun _ _ _ => .of_kept (execComparatorSelfTest_kept ..) rfl, .of_kept (execFaultFrameReceived_kept ..) rfl,
    fun _ => .of_kept (execWatchdogExpiry_kept ..) rfl⟩, .of_kept (execHeartbeatReceived_kept ..) rfl,
    .of_kept (execHeartbeatTimeout_kept ..) rfl, fun _ => .of_kept (execWatchdogWarning_kept ..) rfl,
    fun _ => .of_kept (execMonClockCheck_kept ..) rfl, fun _ => .of_kept (execWfi_kept ..) rfl,
    fun _ _ _ => .of_kept (execCoreWake_kept ..) rfl, fun _ => .of_kept (execEventLineChange_kept ..) rfl,
    fun _ _ => .of_kept (execFastEventEntry_kept ..) rfl, ⟨fun _ => .of_kept (execFret_kept ..) rfl,
    fun _ => .of_kept (execCoreUnavailable_kept ..) rfl⟩, fun _ => .of_kept (execMachineTimerExpiry_kept ..) rfl,
    fun _ => .of_kept (execStrandedEvent_kept ..) rfl, fun _ _ _ _ => .of_kept (execDeviceCsrAccess_kept ..) rfl⟩

/-- Settles O59: the frame of each command is that of its operation. -/
theorem resetFrames : Obligations.ResetFrames := by
  intro s
  exact ⟨fun _ => .of_kept (execRstUnit_kept ..) rfl, fun _ => .of_kept (execRstPair_kept ..) rfl,
    ⟨fun _ => .of_kept (execRstSystem_kept ..) rfl, fun _ _ => .of_kept (execResetSourceAssert_kept ..) rfl,
    .of_kept (execStartTimerExpiry_kept ..) rfl, fun _ => .of_kept (execPllLockLoss_kept ..) rfl⟩,
    fun _ => .of_kept (execStandby_kept ..) rfl, ⟨fun _ _ => .of_kept (execResetSourceRelease_kept ..) rfl,
    fun _ _ => .of_kept (execResetPulseEnd_kept ..) rfl, fun _ => .of_kept (execResetHoldEnd_kept ..) rfl,
    fun _ => .of_kept (execSupplyRestored_kept ..) rfl⟩, ⟨fun _ => .of_kept (execResetPin_kept ..) rfl,
    fun _ => .of_kept (execPowerOn_kept ..) rfl, fun _ _ => .of_kept (execPowerGoodChange_kept ..) rfl,
    fun _ _ => .of_kept (execClockMonitorWindow_kept ..) rfl, fun _ _ _ => .of_kept (execTemperatureMeasurement_kept ..) rfl⟩,
    .of_kept (execDomainRelease_kept ..) rfl, .of_kept (execStandbyEntry_kept ..) rfl, ⟨fun _ => .of_kept (execWake_kept ..) rfl,
    .of_kept (execSupplyAlarm_kept ..) rfl⟩, fun _ => .of_kept (execSupplyOutOfRange_kept ..) rfl⟩

/-- Settles O60: the frame of each command is that of its operation. -/
theorem networkFrames : Obligations.NetworkFrames := by
  intro s
  exact ⟨fun _ => .of_kept (execNetRun_kept ..) rfl, ⟨fun _ => .of_kept (execNetHalt_kept ..) rfl,
    fun _ _ => .of_kept (execCanTransmitEnd_kept ..) rfl, fun _ => .of_kept (execNetReceiptSend_kept ..) rfl⟩,
    ⟨fun _ => .of_kept (execSecRevoke_kept ..) rfl, fun _ => .of_kept (execSecFkey_kept ..) rfl⟩,
    fun _ => .of_kept (execSecSak_kept ..) rfl, fun _ _ _ => .of_kept (execCanModeWrite_kept ..) rfl,
    fun _ _ _ => .of_kept (execMdioTransaction_kept ..) rfl, fun _ _ => .of_kept (execMdioComplete_kept ..) rfl,
    ⟨fun _ _ => .of_kept (execFuseImageKey_kept ..) rfl, fun _ _ => .of_kept (execSetFrankingKey_kept ..) rfl,
    fun _ _ => .of_kept (execFuseDebugKey_kept ..) rfl, fun _ _ => .of_kept (execRevokeImageKey_kept ..) rfl⟩,
    .of_kept (execKeyCommandComplete_kept ..) rfl, fun _ => .of_kept (execDebugChallengeRead_kept ..) rfl,
    fun _ _ => .of_kept (execDebugResponseWrite_kept ..) rfl, .of_kept (execChallengeExpiry_kept ..) rfl,
    fun _ _ => .of_kept (execRandomWordRead_kept ..) rfl, fun _ _ => .of_kept (execPinOutWrite_kept ..) rfl,
    fun _ _ => .of_kept (execCanFrameReceived_kept ..) rfl, fun _ => .of_kept (execCanBusOffRecovered_kept ..) rfl,
    fun _ _ => .of_kept (execEthDatagramReceived_kept ..) rfl, fun _ _ => .of_kept (execAddressResolution_kept ..) rfl,
    fun _ _ _ => .of_kept (execSyncReceived_kept ..) rfl, fun _ => .of_kept (execSyncTimeout_kept ..) rfl,
    ⟨fun _ => .of_kept (execGateCycleRestart_kept ..) rfl, .of_kept (execSequenceRecoveryReset_kept ..) rfl⟩,
    fun _ => .of_kept (execDebugHalt_kept ..) rfl, fun _ => .of_kept (execDebugResume_kept ..) rfl,
    fun _ _ => .of_kept (execDebugStep_kept ..) rfl, fun _ _ => .of_kept (execDebugAbstractCommand_kept ..) rfl,
    fun _ _ => .of_kept (execDebugHartReset_kept ..) rfl, fun _ => .of_kept (execJtagExtest_kept ..) rfl,
    fun _ _ => .of_kept (execEthLinkChange_kept ..) rfl, fun _ => .of_kept (execPpsPulse_kept ..) rfl⟩

end Sys2Proof.Machine
end

section
/-!
The split mode (R316): a step leaves it, or gives it the level of BOOT_SPLIT, which no step moves.
-/
namespace Sys2Proof.Machine

variable {s t u : State}

/-- From s to t the BOOT_SPLIT pin has not moved, and the split mode stays or becomes what that pin says. -/
structure SplitFollows (s t : State) : Prop where
  pin : t.bootSplit = s.bootSplit
  mode : t.split = s.split ∨ t.split = s.bootSplit

theorem SplitFollows.of_eq (pin : t.bootSplit = s.bootSplit) (mode : t.split = s.split) : SplitFollows s t := ⟨pin, .inl mode⟩

theorem SplitFollows.refl (s : State) : SplitFollows s s := .of_eq rfl rfl

theorem SplitFollows.trans (h : SplitFollows s t) (k : SplitFollows t u) : SplitFollows s u := by
  refine ⟨k.pin.trans h.pin, ?_⟩
  rcases k.mode with kept | pin
  · exact h.mode.imp kept.trans kept.trans
  · exact .inr (pin.trans h.pin)

/-- An operation whose frame has neither the split mode nor the pin. -/
theorem SplitFollows.off {c : List Part} (k : Kept c s t) (out : (c.contains .split || c.contains .bootSplit) = false) : SplitFollows s t := by
  obtain ⟨mode, pin⟩ := Bool.or_eq_false_iff.mp out
  exact .of_eq (k.frame.same .bootSplit pin) (k.frame.same .split mode)

theorem SplitFollows.andThen {c : List Part} (h : SplitFollows s t) (k : Kept c t u)
    (out : (c.contains .split || c.contains .bootSplit) = false) : SplitFollows s u := h.trans (.off k out)

theorem SplitFollows.after (k : SplitFollows t u) (h : SplitFollows s t) : SplitFollows s u := h.trans k

theorem SplitFollows.ite {q : Prop} [Decidable q] (h : SplitFollows s t) (k : SplitFollows s u) : SplitFollows s (if q then t else u) := by
  split <;> assumption

theorem SplitFollows.each {α : Type} {f : State → α → State} {l : List α} (h : SplitFollows s t) (k : ∀ u x, SplitFollows u (f u x)) :
    SplitFollows s (t.each l f) := by
  induction l generalizing t with
  | nil => exact h
  | cons x l ih => exact ih (h.trans (k t x))

/-! ### Where the mode is sampled: the release of the system reset -/

theorem State.sampleSplit_follows (s : State) : SplitFollows s s.sampleSplit := by
  unfold State.sampleSplit
  split
  · exact .refl s
  · have sampled : SplitFollows s
        { s with split := s.bootSplit, regs := s.regs.filter fun p => p.1 < R.EVC_SRCm 1 || R.EVC_SRCm 256 < p.1 } := ⟨rfl, .inr rfl⟩
    exact (sampled.andThen (State.setFld_kept .LSC_CFG ..) rfl).andThen (State.evcSplitTargets_kept _) rfl

theorem State.tryRelease_follows (s : State) : SplitFollows s s.tryRelease := by
  unfold State.tryRelease
  extract_lets +onlyGivenNames _ s0 _ s1
  have sampled : SplitFollows s s1 := s.sampleSplit_follows.trans (.of_eq rfl rfl)
  clear_value s1
  exact .ite (.off (State.tryPairs_kept s) rfl) (.ite (.refl s) (.ite (.of_eq rfl rfl)
    (.ite (sampled.andThen (State.ssmEnd_kept ..) rfl) sampled)))

theorem State.releaseSource_follows (s : State) (id pairs : Nat) : SplitFollows s (s.releaseSource id pairs) :=
  (State.tryRelease_follows _).after ((SplitFollows.off (State.syncPend_kept _) rfl).after (.of_eq rfl rfl))

/-- A system reset carried out, and its release tried. -/
theorem State.resetNow_follows (s : State) : SplitFollows s (State.tryRelease (State.syncPend s.systemClear)) :=
  ((SplitFollows.off (State.systemClear_kept s) rfl).andThen (State.syncPend_kept _) rfl).trans (State.tryRelease_follows _)

theorem State.afterPulse_follows (s : State) : SplitFollows s s.afterPulse := by
  unfold State.afterPulse
  refine .ite ((State.resetNow_follows _).after (.of_eq rfl rfl)) ?_
  exact ((SplitFollows.off (State.payBack_kept s) rfl).andThen (State.journalFeed_kept _) rfl).andThen (State.runReady_kept _) rfl

theorem State.supplyBack_follows (s : State) : SplitFollows s s.supplyBack :=
  .ite ((SplitFollows.off (State.ssmEnd_kept ..) rfl).trans (State.releaseSource_follows ..)) (.refl s)

theorem State.monCount_follows (s : State) (count : Nat) : SplitFollows s (s.monCount count) := by
  unfold State.monCount
  extract_lets +onlyGivenNames s0 bad _ b1 good g1
  have counted : SplitFollows s s0 := .off (State.setFld_kept (.CLK_FREQi 7) ..) rfl
  have hb : SplitFollows s b1 := counted.trans (.of_eq rfl rfl)
  have hg : SplitFollows s g1 := counted.trans (.of_eq rfl rfl)
  refine .ite (.ite ?_ hb) (.ite ?_ hg)
  · exact (hb.andThen (State.ssmRaise_kept ..) rfl).andThen (State.clockBad_kept ..) rfl
  · exact ((hg.andThen (State.setBit_kept .CLK_STAT ..) rfl).andThen (State.ssmEnd_kept ..) rfl).trans (State.releaseSource_follows ..)

theorem State.clockGood_follows (s : State) (i : Nat) : SplitFollows s (s.clockGood i) := by
  unfold State.clockGood
  extract_lets +onlyGivenNames s1 s2
  have good : SplitFollows s s2 := (SplitFollows.off (State.setBit_kept .CLK_STAT ..) rfl).each fun u p =>
    .ite (.off (State.setBit_kept .CLK_STAT ..) rfl) (.refl u)
  exact .ite (good.trans (State.releaseSource_follows ..)) good

theorem State.tsReset_follows (s : State) : SplitFollows s s.tsReset :=
  .ite (.off (State.raiseSource_kept ..) rfl) (.ite (State.releaseSource_follows ..) (.refl s))

/-! ### The commands that can release the system reset -/

/-- A command answers a next state in which the split mode has followed the pin. -/
structure SplitOut (s : State) (o : Out) : Prop where
  follows : ∀ t, o = .next t → SplitFollows s t

theorem SplitOut.next (h : SplitFollows s t) : SplitOut s (.next t) := by
  refine ⟨?_⟩
  rintro u ⟨⟩
  exact h

theorem execMramWritePulseEnd_split (s : State) : SplitOut s (execMramWritePulseEnd s) := by
  refine .next ?_
  split
  · exact (State.afterPulse_follows _).after (.of_eq rfl rfl)
  · rename_i w q _
    extract_lets +onlyGivenNames _ s1 s2 s3
    have h1 : SplitFollows s s1 := (SplitFollows.off (State.syncNvs_kept _) rfl).after (.of_eq rfl rfl)
    have h2 : SplitFollows s s2 := (h1.andThen (State.setBytes_kept ..) rfl).andThen (State.setErr_kept ..) rfl
    have h3 : SplitFollows s s3 := .ite h2 ((h2.andThen (State.setFld_kept .NVS_WSTAT ..) rfl).andThen (State.setFlag_kept .NVS_EVT ..) rfl)
    have h4 := SplitFollows.ite (q := w.target = 4) (h3.andThen (State.commitPulse_kept _ w) rfl) h3
    exact .ite (State.afterPulse_follows s) (h4.trans (State.afterPulse_follows _))

theorem execResetSourceRelease_split (id pairs : Nat) (s : State) : SplitOut s (execResetSourceRelease id pairs s) := by
  have ended : SplitFollows s (if id = 2 then s.ssmEnd 16 else s) := .ite (.off (State.ssmEnd_kept ..) rfl) (.refl s)
  exact .next (.ite (ended.trans (State.releaseSource_follows ..)) (.refl s))

theorem execResetPulseEnd_split (id pairs : Nat) (s : State) : SplitOut s (execResetPulseEnd id pairs s) :=
  .next (.ite (.refl s) (State.releaseSource_follows ..))

theorem execResetHoldEnd_split (n : Nat) (s : State) : SplitOut s (execResetHoldEnd n s) := by
  refine .next (.ite (.ite ((SplitFollows.off (State.tryPairs_kept _) rfl).after (.of_eq rfl rfl)) (.refl s)) (.ite (.refl s) ?_))
  exact (State.tryRelease_follows _).after (.of_eq rfl rfl)

theorem execResetPin_split (low : Bool) (s : State) : SplitOut s (execResetPin low s) :=
  .next (.ite (.off (State.raiseSource_kept ..) rfl) (State.releaseSource_follows ..))

theorem execPowerOn_split (up : Bool) (s : State) : SplitOut s (execPowerOn up s) :=
  .next (.ite (State.releaseSource_follows ..) (.off (State.assertSource_kept ..) rfl))

theorem execPowerGoodChange_split (i : Nat) (high : Bool) (s : State) : SplitOut s (execPowerGoodChange i high s) := by
  refine .next (.ite (.refl s) ?_)
  extract_lets +onlyGivenNames pg _ s1
  have h1 : SplitFollows s s1 := .of_eq rfl rfl
  refine .ite h1 (.ite (.ite (h1.andThen (State.raiseSource_kept ..) rfl) (h1.andThen (State.assertSource_kept ..) rfl)) (.ite ?_ h1))
  exact (h1.trans (State.releaseSource_follows ..)).trans (State.supplyBack_follows _)

theorem execClockMonitorWindow_split (i count : Nat) (s : State) : SplitOut s (execClockMonitorWindow i count s) := by
  refine .next (.ite (.refl s) (.ite (State.monCount_follows ..) ?_))
  extract_lets +onlyGivenNames s1
  have h1 : SplitFollows s s1 := .off (State.setFld_kept (.CLK_FREQi i) ..) rfl
  refine .ite (h1.andThen (State.clockBad_kept ..) rfl) (SplitFollows.trans (.ite ?_ h1) (State.clockGood_follows ..))
  exact h1.andThen (State.setBit_kept .CLK_EVT ..) rfl

theorem execMonClockCheck_split (count : Nat) (s : State) : SplitOut s (execMonClockCheck count s) := .next (State.monCount_follows ..)

theorem execSupplyOutOfRange_split (r : Nat) (s : State) : SplitOut s (execSupplyOutOfRange r s) := by
  refine .next (.ite (.refl s) ?_)
  extract_lets +onlyGivenNames s1 _ s2 x _ s3
  have h1 : SplitFollows s s1 := (SplitFollows.off (State.setBit_kept .THM_SUPFLT ..) rfl).andThen (State.setBit_kept .THM_SUPFLT ..) rfl
  have hx : SplitFollows s x := (SplitFollows.off (State.losePulse_kept _) rfl).after (h1.trans (.of_eq rfl rfl))
  have reset : SplitFollows s (State.tryRelease (State.systemClear { x with rst := { x.rst with waitPulse := false } })) :=
    (State.tryRelease_follows _).after ((SplitFollows.off (State.systemClear_kept _) rfl).after (hx.trans (.of_eq rfl rfl)))
  have h3 : SplitFollows s s3 := .ite (.ite reset hx) (h1.trans (.of_eq rfl rfl))
  exact .ite h3 (h3.andThen (State.causeSource_kept ..) rfl)

theorem execSupplyRestored_split (r : Nat) (s : State) : SplitOut s (execSupplyRestored r s) := by
  have cleared : SplitFollows s (s.clrBit R.THM_SUPFLT F.THM_SUPFLT_ACTIVE r) := .off (State.clrBit_kept .THM_SUPFLT ..) rfl
  exact .next (.ite (.refl s) (.ite cleared (cleared.trans (State.supplyBack_follows _))))

theorem execTemperatureMeasurement_split (temps : List (Option Int)) (diodes : Nat) (rails : List Nat) (s : State) :
    SplitOut s (execTemperatureMeasurement temps diodes rails s) := by
  refine .next (.ite (.refl s) ?_)
  extract_lets +onlyGivenNames s0 s1 hot level next _ s2 s3
  have h0 : SplitFollows s s0 := (SplitFollows.refl s).each fun u r => by
    split
    · exact .off (State.setFld_kept (.THM_SUPr r) ..) rfl
    · exact .refl u
  have h2 : SplitFollows s s2 := (h0.each fun u i => .off (State.tsTake_kept ..) rfl).trans (.of_eq rfl rfl)
  have h3 : SplitFollows s s3 := .ite h2 ((h2.andThen (State.setFld_kept .THM_STATE ..) rfl).andThen (State.setFlag_kept .THM_EVT ..) rfl)
  exact (((h3.andThen (State.tsRate_kept _) rfl).andThen (State.tsCold_kept _) rfl).andThen (State.tsWindow_kept _) rfl).trans
    (State.tsReset_follows _)

theorem execDebugHartReset_split (t : Nat) (held : Bool) (s : State) : SplitOut s (execDebugHartReset t held s) := by
  have chosen : SplitFollows s (s.selectHart t) := .off (State.selectHart_kept ..) rfl
  exact .next (.ite chosen (.ite (chosen.trans (State.releaseSource_follows ..)) (.ite chosen (chosen.andThen (State.raiseSource_kept ..) rfl))))

end Sys2Proof.Machine
end

section
/-!
What every command keeps: one rule for the whole table of commands, and from it the statements about every step.
-/
namespace Sys2Proof.Machine

/-- Of the split mode and the levels of pins, what a command leaves: a pin's own events move its level, and the split mode changes where a
command can release the system reset. -/
def heldLevels : Instr → List Part
  | .gfFault .. => [.split, .driveEn, .actEn]
  | .driveEnRise .. | .driveEnFall => [.split, .gf, .actEn]
  | .actEnRise .. | .actEnFall => [.split, .gf, .driveEn]
  | .mramWritePulseEnd | .monClockCheck .. | .resetSourceRelease .. | .resetPulseEnd .. | .resetHoldEnd .. | .resetPin .. | .powerOn ..
  | .powerGoodChange .. | .clockMonitorWindow .. | .supplyOutOfRange .. | .supplyRestored .. | .temperatureMeasurement ..
  | .debugHartReset .. => [.gf, .driveEn, .actEn]
  | _ => [.split, .gf, .driveEn, .actEn]

/-- What a command leaves in any case. -/
def heldParts (c : Instr) : List Part := [.variant, .bootSplit, .pending] ++ heldLevels c

/-- A command answers a next state with the parts of l as before and the canonical form kept. -/
structure Holds (l : List Part) (s : State) (o : Out) : Prop where
  answers : ∃ t, o = .next t ∧ (∀ p ∈ l, p.same s t) ∧ (Memory.wf s.mem = true → Memory.wf t.mem = true) ∧
    (Registers.wf s.regs = true → Registers.wf t.regs = true)

theorem KeptOut.holds {d l : List Part} {s : State} {o : Out} (h : KeptOut d s o) (out : l.all (fun p => !d.contains p) = true) :
    Holds l s o := by
  obtain ⟨t, next, kept⟩ := h
  refine ⟨t, next, fun p m => kept.frame.same p ?_, kept.memWf, kept.regWf⟩
  exact (Bool.not_eq_true' _).mp (List.all_eq_true.mp out p m)

/-- The rule for a frame that names what is left. -/
theorem KeptOut.holds_allBut {d l : List Part} {s : State} {o : Out} (h : KeptOut (Part.allBut d) s o)
    (out : l.all (fun p => d.contains p) = true) : Holds l s o := by
  refine h.holds (List.all_eq_true.mpr fun p m => ?_)
  simp [Part.allBut, List.contains_iff_mem.mp (List.all_eq_true.mp out p m)]

/-- Every command answers a next state, keeps the canonical form and leaves `heldParts`. -/
theorem exec_holds (c : Instr) (s : State) : Holds (heldParts c) s (exec c s) := by
  cases c with
  | epochBoundary => exact (execEpochBoundary_kept ..).holds_allBut rfl
  | operationDeadlinePassed => exact (execOperationDeadlinePassed_kept ..).holds rfl
  | letterPost => exact (execLetterPost_kept ..).holds rfl
  | receiptConsume => exact (execReceiptConsume_kept ..).holds_allBut rfl
  | receiptHandoverTimeout => exact (execReceiptHandoverTimeout_kept ..).holds_allBut rfl
  | receiptModerationExpiry => exact (execReceiptModerationExpiry_kept ..).holds rfl
  | sleepAnnounce => exact (execSleepAnnounce_kept ..).holds rfl
  | registerWrite => exact (execRegisterWrite_kept ..).holds_allBut rfl
  | sysWerrCodeRead => exact (execSysWerrCodeRead_kept ..).holds rfl
  | pstMerrCodeRead => exact (execPstMerrCodeRead_kept ..).holds rfl
  | memLastinfoRead => exact (execMemLastinfoRead_kept ..).holds rfl
  | faultCauseRead => exact (execFaultCauseRead_kept ..).holds rfl
  | write => exact (execWrite_kept ..).holds_allBut rfl
  | read => exact (execRead_kept ..).holds rfl
  | state => exact (execState_kept ..).holds rfl
  | abort => exact (execAbort_kept ..).holds rfl
  | imageWrite => exact (execImageWrite_kept ..).holds rfl
  | imageCheck => exact (execImageCheck_kept ..).holds rfl
  | imageCommit => exact (execImageCommit_kept ..).holds_allBut rfl
  | fwWrite => exact (execFwWrite_kept ..).holds rfl
  | fwCheck => exact (execFwCheck_kept ..).holds rfl
  | fwCommit => exact (execFwCommit_kept ..).holds_allBut rfl
  | checkComplete => exact (execCheckComplete_kept ..).holds rfl
  | feHarm => exact (execFeHarm_kept ..).holds rfl
  | feAdapt => exact (execFeAdapt_kept ..).holds rfl
  | feGains => exact (execFeGains_kept ..).holds rfl
  | feClear => exact (execFeClear_kept ..).holds rfl
  | drvRead => exact (execDrvRead_kept ..).holds rfl
  | drvWrite => exact (execDrvWrite_kept ..).holds rfl
  | rndRun => exact (execRndRun_kept ..).holds rfl
  | rndHalt => exact (execRndHalt_kept ..).holds rfl
  | rndUrgent => exact (execRndUrgent_kept ..).holds rfl
  | rndClear => exact (execRndClear_kept ..).holds rfl
  | posRun => exact (execPosRun_kept ..).holds rfl
  | posStop => exact (execPosStop_kept ..).holds rfl
  | sentRun => exact (execSentRun_kept ..).holds rfl
  | sentStop => exact (execSentStop_kept ..).holds rfl
  | traArm => exact (execTraArm_kept ..).holds rfl
  | traRun => exact (execTraRun_kept ..).holds rfl
  | traTorque => exact (execTraTorque_kept ..).holds rfl
  | traStop => exact (execTraStop_kept ..).holds rfl
  | traDisarm => exact (execTraDisarm_kept ..).holds rfl
  | traClear => exact (execTraClear_kept ..).holds rfl
  | chopRun => exact (execChopRun_kept ..).holds rfl
  | chopHalt => exact (execChopHalt_kept ..).holds rfl
  | chopAutoStart => exact (execChopAutoStart_kept ..).holds rfl
  | chgArm => exact (execChgArm_kept ..).holds rfl
  | chgStart => exact (execChgStart_kept ..).holds rfl
  | chgStop => exact (execChgStop_kept ..).holds rfl
  | chgDisarm => exact (execChgDisarm_kept ..).holds rfl
  | chgLimit => exact (execChgLimit_kept ..).holds rfl
  | chgBms => exact (execChgBms_kept ..).holds rfl
  | chgClear => exact (execChgClear_kept ..).holds rfl
  | transport => exact (execTransport_kept ..).holds rfl
  | hlvArm => exact (execHlvArm_kept ..).holds rfl
  | hlvRun => exact (execHlvRun_kept ..).holds rfl
  | hlvSet => exact (execHlvSet_kept ..).holds rfl
  | hlvStop => exact (execHlvStop_kept ..).holds rfl
  | hlvDisarm => exact (execHlvDisarm_kept ..).holds rfl
  | hlvClear => exact (execHlvClear_kept ..).holds rfl
  | hlvAutoRun => exact (execHlvAutoRun_kept ..).holds rfl
  | regArm => exact (execRegArm_kept ..).holds rfl
  | regRun => exact (execRegRun_kept ..).holds rfl
  | regStop => exact (execRegStop_kept ..).holds rfl
  | regDisarm => exact (execRegDisarm_kept ..).holds rfl
  | regSet => exact (execRegSet_kept ..).holds rfl
  | regClear => exact (execRegClear_kept ..).holds rfl
  | regAutoRun => exact (execRegAutoRun_kept ..).holds rfl
  | actArm => exact (execActArm_kept ..).holds rfl
  | actRun => exact (execActRun_kept ..).holds rfl
  | actSpeed => exact (execActSpeed_kept ..).holds rfl
  | actStop => exact (execActStop_kept ..).holds rfl
  | actDisarm => exact (execActDisarm_kept ..).holds rfl
  | actClear => exact (execActClear_kept ..).holds rfl
  | actLeaktest => exact (execActLeaktest_kept ..).holds rfl
  | gbxRun => exact (execGbxRun_kept ..).holds rfl
  | gbxHalt => exact (execGbxHalt_kept ..).holds rfl
  | gbxShift => exact (execGbxShift_kept ..).holds rfl
  | gbxPark => exact (execGbxPark_kept ..).holds rfl
  | gbxClutch => exact (execGbxClutch_kept ..).holds rfl
  | gbxClear => exact (execGbxClear_kept ..).holds rfl
  | ldgBattery => exact (execLdgBattery_kept ..).holds rfl
  | ldgKeepalive => exact (execLdgKeepalive_kept ..).holds rfl
  | ssmRelease => exact (execSsmRelease_kept ..).holds rfl
  | ssmForce => exact (execSsmForce_kept ..).holds rfl
  | rstUnit => exact (execRstUnit_kept ..).holds rfl
  | rstPair => exact (execRstPair_kept ..).holds rfl
  | rstSystem => exact (execRstSystem_kept ..).holds_allBut rfl
  | standby => exact (execStandby_kept ..).holds rfl
  | evcRing => exact (execEvcRing_kept ..).holds rfl
  | netRun => exact (execNetRun_kept ..).holds rfl
  | netHalt => exact (execNetHalt_kept ..).holds_allBut rfl
  | secRevoke => exact (execSecRevoke_kept ..).holds rfl
  | secFkey => exact (execSecFkey_kept ..).holds rfl
  | secSak => exact (execSecSak_kept ..).holds rfl
  | rndUrgWrite => exact (execRndUrgWrite_kept ..).holds rfl
  | roundQueueRead => exact (execRoundQueueRead_kept ..).holds rfl
  | fcvCorrWrite => exact (execFcvCorrWrite_kept ..).holds rfl
  | rndCorrWrite => exact (execRndCorrWrite_kept ..).holds rfl
  | posOfsWrite => exact (execPosOfsWrite_kept ..).holds rfl
  | ldgNetRead => exact (execLdgNetRead_kept ..).holds rfl
  | withdrawalQueueRead => exact (execWithdrawalQueueRead_kept ..).holds rfl
  | keepaliveBalanceRead => exact (execKeepaliveBalanceRead_kept ..).holds rfl
  | imbalanceClear => exact (execImbalanceClear_kept ..).holds rfl
  | faultNAcknowledge => exact (execFaultNAcknowledge_kept ..).holds rfl
  | watchdogService _ _ _ elapsed => exact (execWatchdogService_kept (_elapsed := elapsed) ..).holds_allBut rfl
  | rstPvecWrite => exact (execRstPvecWrite_kept ..).holds rfl
  | canModeWrite => exact (execCanModeWrite_kept ..).holds rfl
  | mdioTransaction => exact (execMdioTransaction_kept ..).holds rfl
  | mdioComplete => exact (execMdioComplete_kept ..).holds rfl
  | fuseImageKey => exact (execFuseImageKey_kept ..).holds rfl
  | setFrankingKey => exact (execSetFrankingKey_kept ..).holds rfl
  | fuseDebugKey => exact (execFuseDebugKey_kept ..).holds rfl
  | revokeImageKey => exact (execRevokeImageKey_kept ..).holds rfl
  | keyCommandComplete => exact (execKeyCommandComplete_kept ..).holds rfl
  | debugChallengeRead => exact (execDebugChallengeRead_kept ..).holds rfl
  | debugResponseWrite => exact (execDebugResponseWrite_kept ..).holds rfl
  | challengeExpiry => exact (execChallengeExpiry_kept ..).holds rfl
  | randomWordRead => exact (execRandomWordRead_kept ..).holds rfl
  | eventClaim => exact (execEventClaim_kept ..).holds rfl
  | eventComplete => exact (execEventComplete_kept ..).holds rfl
  | doorbellSet => exact (execDoorbellSet_kept ..).holds rfl
  | eventSourceWrite => exact (execEventSourceWrite_kept ..).holds rfl
  | errorInjection => exact (execErrorInjection_kept ..).holds rfl
  | errorCountClear => exact (execErrorCountClear_kept ..).holds rfl
  | nvsWindowWrite => exact (execNvsWindowWrite_kept ..).holds rfl
  | nvsStructureSlotWrite => exact (execNvsStructureSlotWrite_kept ..).holds rfl
  | nvsFirmwareSlotWrite => exact (execNvsFirmwareSlotWrite_kept ..).holds rfl
  | journalPost => exact (execJournalPost_kept ..).holds rfl
  | pinOutWrite => exact (execPinOutWrite_kept ..).holds rfl
  | memoryAccess => exact (execMemoryAccess_kept ..).holds_allBut rfl
  | tableRestore => exact (execTableRestore_kept ..).holds rfl
  | scrubVisit => exact (execScrubVisit_kept ..).holds rfl
  | mramScrub => exact (execMramScrub_kept ..).holds rfl
  | mramWritePulseEnd => exact (execMramWritePulseEnd_kept ..).holds_allBut rfl
  | journalWrite => exact (execJournalWrite_kept ..).holds rfl
  | criticalStateError => exact (execCriticalStateError_kept ..).holds_allBut rfl
  | linkFrameError => exact (execLinkFrameError_kept ..).holds_allBut rfl
  | sampleTrigger _ early apert => exact (execSampleTrigger_kept (_early := early) (_apert := apert) ..).holds rfl
  | conversionResult => exact (execConversionResult_kept ..).holds rfl
  | engineUpdate _ point => exact (execEngineUpdate_kept (_point := point) ..).holds rfl
  | updatePointCommit _ peak late => exact (execUpdatePointCommit_kept (_peak := peak) (_late := late) ..).holds rfl
  | linkWatchTrigger => exact (execLinkWatchTrigger_kept ..).holds rfl
  | didtTrip _ blanking => exact (execDidtTrip_kept (_blanking := blanking) ..).holds rfl
  | softOffHoldEnd => exact (execSoftOffHoldEnd_kept ..).holds rfl
  | gfFault => exact (execGfFault_kept ..).holds rfl
  | ilockLatch => exact (execIlockLatch_kept ..).holds rfl
  | driveEnFall => exact (execDriveEnFall_kept ..).holds rfl
  | driveEnRise => exact (execDriveEnRise_kept ..).holds rfl
  | gateLinkWindow => exact (execGateLinkWindow_kept ..).holds rfl
  | gateLinkResponse => exact (execGateLinkResponse_kept ..).holds rfl
  | gateLinkTimeout => exact (execGateLinkTimeout_kept ..).holds rfl
  | tractionWatch => exact (execTractionWatch_kept ..).holds rfl
  | ledgerTick => exact (execLedgerTick_kept ..).holds rfl
  | imbalanceBlock => exact (execImbalanceBlock_kept ..).holds rfl
  | plannerRound => exact (execPlannerRound_kept ..).holds rfl
  | plannerLatch us => exact (execPlannerLatch_kept (_us := us) ..).holds rfl
  | plannerStale => exact (execPlannerStale_kept ..).holds rfl
  | powerHoleTimeout => exact (execPowerHoleTimeout_kept ..).holds rfl
  | chopperPeriod => exact (execChopperPeriod_kept ..).holds rfl
  | tractionStopComplete => exact (execTractionStopComplete_kept ..).holds rfl
  | sensorlessObserveSample => exact (execSensorlessObserveSample_kept ..).holds rfl
  | sensorlessObserveEnd => exact (execSensorlessObserveEnd_kept ..).holds rfl
  | ifLock => exact (execIfLock_kept ..).holds rfl
  | catchFail => exact (execCatchFail_kept ..).holds rfl
  | ascFreewheelChange => exact (execAscFreewheelChange_kept ..).holds rfl
  | unknownSpeedTimeout => exact (execUnknownSpeedTimeout_kept ..).holds rfl
  | roundEntryResult => exact (execRoundEntryResult_kept ..).holds rfl
  | urgentArrival => exact (execUrgentArrival_kept ..).holds rfl
  | urgentResult => exact (execUrgentResult_kept ..).holds rfl
  | refreshLapse => exact (execRefreshLapse_kept ..).holds rfl
  | referenceFault => exact (execReferenceFault_kept ..).holds rfl
  | resolverFault => exact (execResolverFault_kept ..).holds rfl
  | resolverValidReturn => exact (execResolverValidReturn_kept ..).holds rfl
  | excitationRestart => exact (execExcitationRestart_kept ..).holds rfl
  | encoderCount => exact (execEncoderCount_kept ..).holds rfl
  | encoderIndex => exact (execEncoderIndex_kept ..).holds rfl
  | sentFrame => exact (execSentFrame_kept ..).holds rfl
  | sentTimeout => exact (execSentTimeout_kept ..).holds rfl
  | pilotClassAccepted => exact (execPilotClassAccepted_kept ..).holds rfl
  | proximityCodeAccepted => exact (execProximityCodeAccepted_kept ..).holds rfl
  | contactorFeedbackChange => exact (execContactorFeedbackChange_kept ..).holds rfl
  | prechargeTimeout => exact (execPrechargeTimeout_kept ..).holds rfl
  | contactorTimeout => exact (execContactorTimeout_kept ..).holds rfl
  | gridReady => exact (execGridReady_kept ..).holds rfl
  | gridWaitTimeout => exact (execGridWaitTimeout_kept ..).holds rfl
  | searchStep => exact (execSearchStep_kept ..).holds rfl
  | searchRepeat => exact (execSearchRepeat_kept ..).holds rfl
  | busRegulationTick => exact (execBusRegulationTick_kept ..).holds rfl
  | termination => exact (execTermination_kept ..).holds rfl
  | ccTimerExpiry => exact (execCcTimerExpiry_kept ..).holds rfl
  | sessionCapExpiry => exact (execSessionCapExpiry_kept ..).holds rfl
  | bmsTemperatureExpiry => exact (execBmsTemperatureExpiry_kept ..).holds rfl
  | outputFault => exact (execOutputFault_kept ..).holds rfl
  | gridTrip => exact (execGridTrip_kept ..).holds rfl
  | islandOverload => exact (execIslandOverload_kept ..).holds rfl
  | pilotDiodeFault => exact (execPilotDiodeFault_kept ..).holds rfl
  | rampdownEnd => exact (execRampdownEnd_kept ..).holds rfl
  | acContactorOpen => exact (execAcContactorOpen_kept ..).holds rfl
  | chargerStopComplete => exact (execChargerStopComplete_kept ..).holds rfl
  | hlvStopComplete => exact (execHlvStopComplete_kept ..).holds rfl
  | hlvFaultDetect => exact (execHlvFaultDetect_kept ..).holds rfl
  | regComparatorTrip => exact (execRegComparatorTrip_kept ..).holds rfl
  | regOnTimeEnd => exact (execRegOnTimeEnd_kept ..).holds rfl
  | regBalance => exact (execRegBalance_kept ..).holds rfl
  | regShed => exact (execRegShed_kept ..).holds rfl
  | regAdd => exact (execRegAdd_kept ..).holds rfl
  | regRestore => exact (execRegRestore_kept ..).holds rfl
  | regShedHoldEnd => exact (execRegShedHoldEnd_kept ..).holds rfl
  | regStartTest => exact (execRegStartTest_kept ..).holds rfl
  | regUndervoltageFailure => exact (execRegUndervoltageFailure_kept ..).holds rfl
  | regHiccupEnd => exact (execRegHiccupEnd_kept ..).holds rfl
  | regFailCountReset => exact (execRegFailCountReset_kept ..).holds rfl
  | regSoftstopEnd => exact (execRegSoftstopEnd_kept ..).holds rfl
  | regCrowbar => exact (execRegCrowbar_kept ..).holds rfl
  | regFaultDetect => exact (execRegFaultDetect_kept ..).holds rfl
  | actUpdate => exact (execActUpdate_kept ..).holds rfl
  | actStartPhaseEnd => exact (execActStartPhaseEnd_kept ..).holds rfl
  | actBrakePulse => exact (execActBrakePulse_kept ..).holds rfl
  | actRampLock => exact (execActRampLock_kept ..).holds rfl
  | startAttemptFail => exact (execStartAttemptFail_kept ..).holds rfl
  | retryWaitEnd => exact (execRetryWaitEnd_kept ..).holds rfl
  | bootstrapRefresh => exact (execBootstrapRefresh_kept ..).holds rfl
  | bootstrapUndervoltage => exact (execBootstrapUndervoltage_kept ..).holds rfl
  | leakTestComplete => exact (execLeakTestComplete_kept ..).holds rfl
  | actLegLatch => exact (execActLegLatch_kept ..).holds rfl
  | vactFault => exact (execVactFault_kept ..).holds rfl
  | actStall => exact (execActStall_kept ..).holds rfl
  | actStopComplete => exact (execActStopComplete_kept ..).holds rfl
  | actEnFall => exact (execActEnFall_kept ..).holds rfl
  | actEnRise => exact (execActEnRise_kept ..).holds rfl
  | moveTargetReached => exact (execMoveTargetReached_kept ..).holds rfl
  | moveTimeout => exact (execMoveTimeout_kept ..).holds rfl
  | shiftPhaseEnd => exact (execShiftPhaseEnd_kept ..).holds rfl
  | buttRetry => exact (execButtRetry_kept ..).holds rfl
  | parkWaitExpiry => exact (execParkWaitExpiry_kept ..).holds rfl
  | syncTimeExpiry => exact (execSyncTimeExpiry_kept ..).holds rfl
  | lockstepMismatch => exact (execLockstepMismatch_kept ..).holds_allBut rfl
  | comparatorSelfTest => exact (execComparatorSelfTest_kept ..).holds_allBut rfl
  | faultFrameReceived => exact (execFaultFrameReceived_kept ..).holds_allBut rfl
  | heartbeatReceived => exact (execHeartbeatReceived_kept ..).holds rfl
  | heartbeatTimeout => exact (execHeartbeatTimeout_kept ..).holds rfl
  | watchdogWarning => exact (execWatchdogWarning_kept ..).holds rfl
  | watchdogExpiry => exact (execWatchdogExpiry_kept ..).holds_allBut rfl
  | monClockCheck => exact (execMonClockCheck_kept ..).holds_allBut rfl
  | resetSourceAssert => exact (execResetSourceAssert_kept ..).holds_allBut rfl
  | resetSourceRelease => exact (execResetSourceRelease_kept ..).holds rfl
  | resetPulseEnd => exact (execResetPulseEnd_kept ..).holds rfl
  | resetHoldEnd => exact (execResetHoldEnd_kept ..).holds rfl
  | resetPin => exact (execResetPin_kept ..).holds_allBut rfl
  | powerOn => exact (execPowerOn_kept ..).holds_allBut rfl
  | powerGoodChange => exact (execPowerGoodChange_kept ..).holds_allBut rfl
  | domainRelease => exact (execDomainRelease_kept ..).holds rfl
  | startSequence => exact (execStartSequence_kept ..).holds rfl
  | startTimerExpiry => exact (execStartTimerExpiry_kept ..).holds_allBut rfl
  | standbyEntry => exact (execStandbyEntry_kept ..).holds_allBut rfl
  | transportEntry => exact (execTransportEntry_kept ..).holds rfl
  | wake => exact (execWake_kept ..).holds_allBut rfl
  | supplyAlarm => exact (execSupplyAlarm_kept ..).holds_allBut rfl
  | timerWake => exact (execTimerWake_kept ..).holds_allBut rfl
  | timerWakeLimit => exact (execTimerWakeLimit_kept ..).holds rfl
  | keepaliveRefill => exact (execKeepaliveRefill_kept ..).holds_allBut rfl
  | keepaliveDebit => exact (execKeepaliveDebit_kept ..).holds rfl
  | clockMonitorWindow => exact (execClockMonitorWindow_kept ..).holds_allBut rfl
  | pllLockLoss => exact (execPllLockLoss_kept ..).holds_allBut rfl
  | supplyOutOfRange => exact (execSupplyOutOfRange_kept ..).holds_allBut rfl
  | supplyRestored => exact (execSupplyRestored_kept ..).holds rfl
  | temperatureMeasurement => exact (execTemperatureMeasurement_kept ..).holds_allBut rfl
  | wfi => exact (execWfi_kept ..).holds rfl
  | coreWake => exact (execCoreWake_kept ..).holds rfl
  | eventLineChange => exact (execEventLineChange_kept ..).holds rfl
  | fastEventEntry => exact (execFastEventEntry_kept ..).holds rfl
  | fret => exact (execFret_kept ..).holds rfl
  | machineTimerExpiry => exact (execMachineTimerExpiry_kept ..).holds rfl
  | strandedEvent => exact (execStrandedEvent_kept ..).holds rfl
  | coreUnavailable => exact (execCoreUnavailable_kept ..).holds rfl
  | canFrameReceived => exact (execCanFrameReceived_kept ..).holds rfl
  | canTransmitEnd => exact (execCanTransmitEnd_kept ..).holds_allBut rfl
  | canBusOffRecovered => exact (execCanBusOffRecovered_kept ..).holds rfl
  | ethDatagramReceived => exact (execEthDatagramReceived_kept ..).holds rfl
  | addressResolution => exact (execAddressResolution_kept ..).holds rfl
  | netReceiptSend => exact (execNetReceiptSend_kept ..).holds_allBut rfl
  | syncReceived => exact (execSyncReceived_kept ..).holds rfl
  | syncTimeout => exact (execSyncTimeout_kept ..).holds rfl
  | gateCycleRestart => exact (execGateCycleRestart_kept ..).holds rfl
  | debugHalt => exact (execDebugHalt_kept ..).holds rfl
  | debugResume => exact (execDebugResume_kept ..).holds rfl
  | debugStep => exact (execDebugStep_kept ..).holds rfl
  | debugAbstractCommand => exact (execDebugAbstractCommand_kept ..).holds rfl
  | debugSystemBusAccess => exact (execDebugSystemBusAccess_kept ..).holds_allBut rfl
  | debugHartReset => exact (execDebugHartReset_kept ..).holds_allBut rfl
  | jtagExtest => exact (execJtagExtest_kept ..).holds rfl
  | ethLinkChange => exact (execEthLinkChange_kept ..).holds rfl
  | sequenceRecoveryReset => exact (execSequenceRecoveryReset_kept ..).holds rfl
  | ppsPulse => exact (execPpsPulse_kept ..).holds rfl
  | invalidPilotTimeout => exact (execInvalidPilotTimeout_kept ..).holds rfl
  | shedPhaseHighImpedance => exact (execShedPhaseHighImpedance_kept ..).holds rfl
  | lostCountRead => exact (execLostCountRead_kept ..).holds rfl
  | urgentResultRead => exact (execUrgentResultRead_kept ..).holds rfl
  | deviceCsrAccess => exact (execDeviceCsrAccess_kept ..).holds rfl

/-- A part that a command leaves reads as before. -/
theorem exec_same {c : Instr} {s t : State} (next : exec c s = .next t) (p : Part) (held : p ∈ heldParts c) : p.same s t := by
  obtain ⟨u, answer, same, -⟩ := (exec_holds c s).answers
  cases answer.symm.trans next
  exact same p held

theorem mem_heldParts {p : Part} {c : Instr} (h : p ∈ heldLevels c) : p ∈ heldParts c := List.mem_append_right _ h

/-- Settles O4: every command is total (`exec_holds`), and so is a run, by induction on its length. -/
theorem noCommandStops : Obligations.NoCommandStops := by
  have answers (c : Instr) (s : State) : ∃ t, exec c s = .next t := (exec_holds c s).answers.imp fun _ h => h.1
  refine ⟨answers, fun s n => ?_⟩
  induction n generalizing s with
  | zero => trivial
  | succ n ih =>
    have steps : ∃ t, step s = .next t := by
      unfold step
      split
      · exact ⟨_, rfl⟩
      · exact answers ..
    obtain ⟨t, next⟩ := steps
    exact ⟨t, next, ih t⟩

/-! ### A step, idle or with a command -/

/-- A step lets time pass, or runs the command at the front of the queue. -/
theorem step_cases {s t : State} (next : step s = .next t) :
    s.pending = [] ∧ t = s.idle ∨ ∃ c q, s.pending = c :: q ∧ exec c { s with pending := q } = .next t := by
  unfold step at next
  split at next
  · cases next
    exact .inl ⟨‹_›, rfl⟩
  · exact .inr ⟨_, _, ‹_›, next⟩

/-- Settles O7: time and every command keep the canonical form. -/
theorem canonicalKept : Obligations.CanonicalKept := by
  intro s t mem regs next
  rcases step_cases next with ⟨-, rfl⟩ | ⟨c, q, -, run⟩
  · exact ⟨s.idle_kept.memWf mem, s.idle_kept.regWf regs⟩
  · obtain ⟨u, answer, -, memWf, regWf⟩ := (exec_holds c { s with pending := q }).answers
    cases answer.symm.trans run
    exact ⟨memWf mem, regWf regs⟩

theorem SplitOut.held {l : List Part} {s : State} {o : Out} (h : Holds l s o) (pin : .bootSplit ∈ l) (mode : .split ∈ l) : SplitOut s o := by
  obtain ⟨t, rfl, same, -⟩ := h.answers
  exact .next (.of_eq (same _ pin) (same _ mode))

/-- In every command the split mode follows the BOOT_SPLIT pin. -/
theorem exec_split (c : Instr) (s : State) : SplitOut s (exec c s) := by
  cases c with
  | mramWritePulseEnd => exact execMramWritePulseEnd_split s
  | monClockCheck => exact execMonClockCheck_split ..
  | resetSourceRelease => exact execResetSourceRelease_split ..
  | resetPulseEnd => exact execResetPulseEnd_split ..
  | resetHoldEnd => exact execResetHoldEnd_split ..
  | resetPin => exact execResetPin_split ..
  | powerOn => exact execPowerOn_split ..
  | powerGoodChange => exact execPowerGoodChange_split ..
  | clockMonitorWindow => exact execClockMonitorWindow_split ..
  | supplyOutOfRange => exact execSupplyOutOfRange_split ..
  | supplyRestored => exact execSupplyRestored_split ..
  | temperatureMeasurement => exact execTemperatureMeasurement_split ..
  | debugHartReset => exact execDebugHartReset_split ..
  | _ => exact .held (exec_holds _ s) (.tail _ (.head _)) (.tail _ (.tail _ (.tail _ (.head _))))

/-- Settles O8: every command holds the variant and the queue, and the split mode follows the pin. -/
theorem variantFixed : Obligations.VariantFixed := by
  intro s t next
  rcases step_cases next with ⟨empty, rfl⟩ | ⟨c, q, front, run⟩
  · have kept := s.idle_kept.frame
    refine ⟨kept.same .variant rfl, kept.same .bootSplit rfl, .inl (kept.same .split rfl), ?_⟩
    rw [show s.idle.pending = s.pending from kept.same .pending rfl, empty]
    rfl
  · have follows := (exec_split c _).follows t run
    refine ⟨exec_same run .variant (.head _), follows.pin, follows.mode, ?_⟩
    rw [show t.pending = q from exec_same run .pending (.tail _ (.tail _ (.head _))), front]
    rfl

/-- Settles O9: every command but its own events holds a level. -/
theorem onlyPinEventsMovePins : Obligations.OnlyPinEventsMovePins := by
  intro c s t next
  refine ⟨fun other => exec_same next .gf (mem_heldParts ?_), fun rise fall => exec_same next .driveEn (mem_heldParts ?_),
    fun rise fall => exec_same next .actEn (mem_heldParts ?_)⟩
  · cases c with
    | gfFault n h => exact absurd rfl (other n h)
    | _ => exact List.mem_of_elem_eq_true rfl
  · cases c with
    | driveEnRise k l => exact absurd rfl (rise k l)
    | driveEnFall => exact absurd rfl fall
    | _ => exact List.mem_of_elem_eq_true rfl
  · cases c with
    | actEnRise k l => exact absurd rfl (rise k l)
    | actEnFall => exact absurd rfl fall
    | _ => exact List.mem_of_elem_eq_true rfl

end Sys2Proof.Machine
end

section
/-!
A step in itself: the front of the queue, the passing of 5 ns, and the state after reset.
-/
namespace Sys2Proof.Machine

variable {s : State}

/-- Settles O1. -/
theorem stepRunsFront : Obligations.StepRunsFront := by
  intro s c q front
  rw [step, front]

/-! ### The time of record (R25, R421) -/

/-- The correction of one step is a nanosecond at most. -/
theorem State.timeOn_time_bounds (s : State) : s.time + 4 ≤ s.timeOn.time ∧ s.timeOn.time ≤ s.time + 6 := by
  simp only [State.timeOn]
  split
  · omega
  · split <;> omega

/-- With no rate correction, and less than a nanosecond added up, the time of record follows the time that passes. -/
theorem State.timeOn_time_exact (rate : s.rate = 0) (frac : s.frac.natAbs < 1000000000) : s.timeOn.time = s.time + 5 := by
  simp only [State.timeOn, rate]
  rw [if_neg (by omega), if_neg (by omega)]
  omega

/-- What happens by itself as time passes, after the time has gone on. -/
theorem State.afterTime_kept (s : State) : Kept [.po, .eng, .mdl, .tra, .chg, .ldg, .ssm, .pads, .rgl, .cores, .lsc, .rst, .reg .FEn_EVT,
    .reg .FEn_WDCNT, .reg .MOD_STAT, .reg .MOD_EVT, .reg .MOD_LCNTn, .reg .MOD_LTRIPn, .reg .CHG_ILIM, .reg .CHG_FLT, .reg .CHG_EVT,
    .reg .LDG_EVT, .reg .LDG_WQSTAT, .reg .LDG_PNf, .reg .DBG_REPLAYn, .reg .PST_SLEEP, .reg .LSC_STAT, .reg .SSM_WDSTATn, .reg .RST_CAUSE,
    .reg .RST_PEND] s.timeOn s.idle :=
  .via (State.pairDue_kept _) rfl (.via (State.replayDrain_kept _) rfl (.via (State.wireTick_kept _) rfl
    (.via (State.regTick_kept _) rfl ((State.gateTick_kept _).mono rfl))))

/-- Where no leg is in use and nothing else waits, only the time goes on. -/
theorem State.idle_quiet (legs : s.timeOn.gateLegs = []) (pulse : s.rgl.waiting = false) (wire : s.timeOn.regWire = s.pads.wire)
    (edge : s.pads.wireEdge = none) (replay : ∀ n, n < 4 → (s.pairSt n).replay = 0) (pairs : s.rst.swPairs = 0) : s.idle = s.timeOn := by
  have gate : s.timeOn.gateTick = s.timeOn := by rw [State.gateTick, legs]; rfl
  have reg : s.timeOn.regTick = s.timeOn := if_neg (by simp [State.timeOn, pulse])
  have wires : s.timeOn.wireTick = s.timeOn := by
    have level : s.timeOn.pads = s.pads := rfl
    simp [State.wireTick, level, wire, edge]
  have drained : s.timeOn.replayDrain = s.timeOn := by
    have none : (List.range 4).filter (fun n => (s.timeOn.pairSt n).replay != 0) = [] :=
      List.filter_eq_nil_iff.mpr fun n m => by simpa [State.pairSt, State.timeOn] using replay n (List.mem_range.mp m)
    rw [State.replayDrain, none]
    rfl
  have due : s.timeOn.pairDue = s.timeOn := if_neg fun h => h.1 pairs
  rw [State.idle, gate, reg, wires, drained, due]

/-- Settles O2. -/
theorem idleStep : Obligations.IdleStep := by
  intro s empty u
  have after := s.afterTime_kept.frame
  have time : s.idle.time = s.timeOn.time := after.same .time rfl
  obtain ⟨low, high⟩ := s.timeOn_time_bounds
  refine ⟨s.idle, by rw [step, empty], after.same .up rfl, time, time ▸ low, time ▸ high, fun rate frac => ?_, s.idle_kept.frame,
    fun legs pulse wire edge replay pairs => ?_⟩
  · rw [time, State.timeOn_time_exact rate frac]
  · rw [State.idle_quiet legs pulse wire edge replay pairs]
    exact s.timeOn_kept.frame.mono rfl

/-! ### After reset -/

/-- Settles O5: nothing is listed after reset. -/
theorem resetCanonical : Obligations.ResetCanonical := ⟨rfl, rfl⟩

theorem State.reset_reg (a : Nat) : State.reset.reg a = BitVec.ofNat 32 (resetWord a) := rfl

/-- After reset a unit of the variant is OFF (Table PST-22). -/
theorem State.reset_ust {u : Nat} (present : unitPresent State.reset.variant u = true) : State.reset.ust u = .off := by
  rw [State.ust, if_pos present]
  rfl

/-- The maps disable every pigeonhole at reset. -/
theorem regDefault_phCfg : ∀ n < 64, getF (regDefault (R.PHn_CFG n)) F.PHn_CFG_EN = 0 := by decide +kernel

/-- Settles O6: the register maps are evaluated where a register is named; the rings are those of `PostReset`. -/
theorem resetLeaves : Obligations.ResetLeaves := by
  have rings : PostReset State.reset := ⟨rfl, rfl, fun _ _ => rfl⟩
  refine ⟨State.reset_reg, by decide +kernel, rings.pm, by decide +kernel, rfl, fun u => State.reset_ust, fun ph lt => ?_, rfl, rfl, rfl, rfl⟩
  obtain ⟨empty, seq⟩ := rings.ring lt
  refine ⟨?_, empty, seq⟩
  have disabled : State.reset.fld (R.PHn_CFG ph) F.PHn_CFG_EN = 0 := regDefault_phCfg ph lt
  simp [State.phEn, State.flag, disabled]

end Sys2Proof.Machine
end

section
/-!
Where registers lie: the addresses of a family of registers are its first one and multiples of its spacing above it, so that the frame of an
operation shows, by arithmetic on two numbers, that it leaves a register of another family.
-/
namespace Sys2Proof.Machine

variable {s t : State} {a : Nat}

/-- The first address of a family of registers and the spacing of its instances, 0 for a single register. -/
def Reg.span : Reg → Nat × Nat
  | .SYS_WERR_CODE => (R.SYS_WERR_CODE, 0)
  | .SYS_WERR_ADDR => (R.SYS_WERR_ADDR, 0)
  | .SYS_WERR_PM => (R.SYS_WERR_PM, 0)
  | .PST_PM => (R.PST_PM, 0)
  | .PST_EPOCH => (R.PST_EPOCH, 0)
  | .PST_SLEEP => (R.PST_SLEEP, 0)
  | .PST_OUTST => (R.PST_OUTST, 0)
  | .PST_MERR_CODE => (R.PST_MERR_CODE, 0)
  | .PST_MERR_ADDR => (R.PST_MERR_ADDR, 0)
  | .PST_MERR_PM => (R.PST_MERR_PM, 0)
  | .PST_DLJ_CNT => (R.PST_DLJ_CNT, 0)
  | .PST_DLJ_LOST => (R.PST_DLJ_LOST, 0)
  | .PHn_CFG => (R.PHn_CFG 0, R.PHn_CFG 1 - R.PHn_CFG 0)
  | .PHn_LIM => (R.PHn_LIM 0, R.PHn_LIM 1 - R.PHn_LIM 0)
  | .PHn_BASE => (R.PHn_BASE 0, R.PHn_BASE 1 - R.PHn_BASE 0)
  | .PHn_HEAD => (R.PHn_HEAD 0, R.PHn_HEAD 1 - R.PHn_HEAD 0)
  | .PHn_TAIL => (R.PHn_TAIL 0, R.PHn_TAIL 1 - R.PHn_TAIL 0)
  | .PHn_SEQ => (R.PHn_SEQ 0, R.PHn_SEQ 1 - R.PHn_SEQ 0)
  | .PHn_STAT => (R.PHn_STAT 0, R.PHn_STAT 1 - R.PHn_STAT 0)
  | .FEn_STATE => (R.FEn_STATE 0, R.FEn_STATE 1 - R.FEn_STATE 0)
  | .FEn_LOOPCFG => (R.FEn_LOOPCFG 0, R.FEn_LOOPCFG 1 - R.FEn_LOOPCFG 0)
  | .FEn_PERIOD => (R.FEn_PERIOD 0, R.FEn_PERIOD 1 - R.FEn_PERIOD 0)
  | .FEn_LEAD => (R.FEn_LEAD 0, R.FEn_LEAD 1 - R.FEn_LEAD 0)
  | .FEn_BASE => (R.FEn_BASE 0, R.FEn_BASE 1 - R.FEn_BASE 0)
  | .FEn_GAINS => (R.FEn_GAINS 0, R.FEn_GAINS 1 - R.FEn_GAINS 0)
  | .FEn_OUTKP => (R.FEn_OUTKP 0, R.FEn_OUTKP 1 - R.FEn_OUTKP 0)
  | .FEn_OUTKI => (R.FEn_OUTKI 0, R.FEn_OUTKI 1 - R.FEn_OUTKI 0)
  | .FEn_ADAPT => (R.FEn_ADAPT 0, R.FEn_ADAPT 1 - R.FEn_ADAPT 0)
  | .FEn_ADFAC => (R.FEn_ADFAC 0, R.FEn_ADFAC 1 - R.FEn_ADFAC 0)
  | .FEn_PHASE => (R.FEn_PHASE 0, R.FEn_PHASE 1 - R.FEn_PHASE 0)
  | .FEn_HCFGk => (R.FEn_HCFGk 0 0, Nat.gcd (R.FEn_HCFGk 1 0 - R.FEn_HCFGk 0 0) (R.FEn_HCFGk 0 1 - R.FEn_HCFGk 0 0))
  | .FEn_HAMPk => (R.FEn_HAMPk 0 0, Nat.gcd (R.FEn_HAMPk 1 0 - R.FEn_HAMPk 0 0) (R.FEn_HAMPk 0 1 - R.FEn_HAMPk 0 0))
  | .FEn_EVT => (R.FEn_EVT 0, R.FEn_EVT 1 - R.FEn_EVT 0)
  | .FEn_ERRCNT => (R.FEn_ERRCNT 0, R.FEn_ERRCNT 1 - R.FEn_ERRCNT 0)
  | .FEn_WDCNT => (R.FEn_WDCNT 0, R.FEn_WDCNT 1 - R.FEn_WDCNT 0)
  | .FEn_MON_I => (R.FEn_MON_I 0, R.FEn_MON_I 1 - R.FEn_MON_I 0)
  | .FEn_MON_IREF => (R.FEn_MON_IREF 0, R.FEn_MON_IREF 1 - R.FEn_MON_IREF 0)
  | .FEn_MON_V => (R.FEn_MON_V 0, R.FEn_MON_V 1 - R.FEn_MON_V 0)
  | .FEn_MON_ANG => (R.FEn_MON_ANG 0, R.FEn_MON_ANG 1 - R.FEn_MON_ANG 0)
  | .FEn_MON_SPD => (R.FEn_MON_SPD 0, R.FEn_MON_SPD 1 - R.FEn_MON_SPD 0)
  | .FEn_MON_PRE => (R.FEn_MON_PRE 0, R.FEn_MON_PRE 1 - R.FEn_MON_PRE 0)
  | .FEn_TMPLj => (R.FEn_TMPLj 0 0, Nat.gcd (R.FEn_TMPLj 1 0 - R.FEn_TMPLj 0 0) (R.FEn_TMPLj 0 1 - R.FEn_TMPLj 0 0))
  | .MOD_STAT => (R.MOD_STAT, 0)
  | .MOD_EVT => (R.MOD_EVT, 0)
  | .MOD_LCFGn => (R.MOD_LCFGn 0, R.MOD_LCFGn 1 - R.MOD_LCFGn 0)
  | .MOD_DIDTn => (R.MOD_DIDTn 0, R.MOD_DIDTn 1 - R.MOD_DIDTn 0)
  | .MOD_LCNTn => (R.MOD_LCNTn 0, R.MOD_LCNTn 1 - R.MOD_LCNTn 0)
  | .MOD_LTRIPn => (R.MOD_LTRIPn 0, R.MOD_LTRIPn 1 - R.MOD_LTRIPn 0)
  | .GLK_EVT => (R.GLK_EVT, 0)
  | .GLKk_STAT => (R.GLKk_STAT 0, R.GLKk_STAT 1 - R.GLKk_STAT 0)
  | .GLKk_ERR => (R.GLKk_ERR 0, R.GLKk_ERR 1 - R.GLKk_ERR 0)
  | .GLKk_DRVj => (R.GLKk_DRVj 0 0, Nat.gcd (R.GLKk_DRVj 1 0 - R.GLKk_DRVj 0 0) (R.GLKk_DRVj 0 1 - R.GLKk_DRVj 0 0))
  | .FCV_OVR => (R.FCV_OVR, 0)
  | .FCV_CHn_CORR => (R.FCV_CHn_CORR 0, R.FCV_CHn_CORR 1 - R.FCV_CHn_CORR 0)
  | .FCV_CHn_LAST => (R.FCV_CHn_LAST 0, R.FCV_CHn_LAST 1 - R.FCV_CHn_LAST 0)
  | .RNDr_STATE => (R.RNDr_STATE 0, R.RNDr_STATE 1 - R.RNDr_STATE 0)
  | .RNDr_EVT => (R.RNDr_EVT 0, R.RNDr_EVT 1 - R.RNDr_EVT 0)
  | .RNDr_URGRES => (R.RNDr_URGRES 0, R.RNDr_URGRES 1 - R.RNDr_URGRES 0)
  | .RNDr_RQSTAT => (R.RNDr_RQSTAT 0, R.RNDr_RQSTAT 1 - R.RNDr_RQSTAT 0)
  | .RNDr_RQLO => (R.RNDr_RQLO 0, R.RNDr_RQLO 1 - R.RNDr_RQLO 0)
  | .RNDr_RQHI => (R.RNDr_RQHI 0, R.RNDr_RQHI 1 - R.RNDr_RQHI 0)
  | .RNDr_STALE => (R.RNDr_STALE 0, R.RNDr_STALE 1 - R.RNDr_STALE 0)
  | .RNDr_CORRk => (R.RNDr_CORRk 0 0, Nat.gcd (R.RNDr_CORRk 1 0 - R.RNDr_CORRk 0 0) (R.RNDr_CORRk 0 1 - R.RNDr_CORRk 0 0))
  | .RNDr_SEQe => (R.RNDr_SEQe 0 0, Nat.gcd (R.RNDr_SEQe 1 0 - R.RNDr_SEQe 0 0) (R.RNDr_SEQe 0 1 - R.RNDr_SEQe 0 0))
  | .RNDr_LIMe => (R.RNDr_LIMe 0 0, Nat.gcd (R.RNDr_LIMe 1 0 - R.RNDr_LIMe 0 0) (R.RNDr_LIMe 0 1 - R.RNDr_LIMe 0 0))
  | .RNDr_LASTc => (R.RNDr_LASTc 0 0, Nat.gcd (R.RNDr_LASTc 1 0 - R.RNDr_LASTc 0 0) (R.RNDr_LASTc 0 1 - R.RNDr_LASTc 0 0))
  | .POS_STATE => (R.POS_STATE, 0)
  | .POS_EVT => (R.POS_EVT, 0)
  | .POSk_CFG => (R.POSk_CFG 0, R.POSk_CFG 1 - R.POSk_CFG 0)
  | .POSk_OFS => (R.POSk_OFS 0, R.POSk_OFS 1 - R.POSk_OFS 0)
  | .POSk_ANG => (R.POSk_ANG 0, R.POSk_ANG 1 - R.POSk_ANG 0)
  | .POSk_SPD => (R.POSk_SPD 0, R.POSk_SPD 1 - R.POSk_SPD 0)
  | .POSk_STAT => (R.POSk_STAT 0, R.POSk_STAT 1 - R.POSk_STAT 0)
  | .POSk_FLT => (R.POSk_FLT 0, R.POSk_FLT 1 - R.POSk_FLT 0)
  | .SENT_STATE => (R.SENT_STATE, 0)
  | .SENT_EVT => (R.SENT_EVT, 0)
  | .SENTi_CFG => (R.SENTi_CFG 0, R.SENTi_CFG 1 - R.SENTi_CFG 0)
  | .SENTi_FAST => (R.SENTi_FAST 0, R.SENTi_FAST 1 - R.SENTi_FAST 0)
  | .SENTi_SLOW => (R.SENTi_SLOW 0, R.SENTi_SLOW 1 - R.SENTi_SLOW 0)
  | .SENTi_ERR => (R.SENTi_ERR 0, R.SENTi_ERR 1 - R.SENTi_ERR 0)
  | .SENTi_TIME => (R.SENTi_TIME 0, R.SENTi_TIME 1 - R.SENTi_TIME 0)
  | .CHG_STATE => (R.CHG_STATE, 0)
  | .CHG_PILOT => (R.CHG_PILOT, 0)
  | .CHG_ILIM => (R.CHG_ILIM, 0)
  | .CHG_FLT => (R.CHG_FLT, 0)
  | .CHG_EVT => (R.CHG_EVT, 0)
  | .CHG_TIME => (R.CHG_TIME, 0)
  | .CHG_CFG => (R.CHG_CFG, 0)
  | .REG_STATE => (R.REG_STATE, 0)
  | .REG_EVT => (R.REG_EVT, 0)
  | .REG_FLT => (R.REG_FLT, 0)
  | .REG_TARGET => (R.REG_TARGET, 0)
  | .REG_SHED => (R.REG_SHED, 0)
  | .REG_OUT => (R.REG_OUT, 0)
  | .REG_LIM => (R.REG_LIM, 0)
  | .REG_VIN => (R.REG_VIN, 0)
  | .REG_PHn => (R.REG_PHn 0, R.REG_PHn 1 - R.REG_PHn 0)
  | .REG_CFG => (R.REG_CFG, 0)
  | .ACT_STAT => (R.ACT_STAT, 0)
  | .ACT_EVT => (R.ACT_EVT, 0)
  | .ACT_VACT => (R.ACT_VACT, 0)
  | .ACk_STATE => (R.ACk_STATE 0, R.ACk_STATE 1 - R.ACk_STATE 0)
  | .ACk_CFG => (R.ACk_CFG 0, R.ACk_CFG 1 - R.ACk_CFG 0)
  | .ACk_RATED => (R.ACk_RATED 0, R.ACk_RATED 1 - R.ACk_RATED 0)
  | .ACk_SPD => (R.ACk_SPD 0, R.ACk_SPD 1 - R.ACk_SPD 0)
  | .ACk_I => (R.ACk_I 0, R.ACk_I 1 - R.ACk_I 0)
  | .ACk_EVT => (R.ACk_EVT 0, R.ACk_EVT 1 - R.ACk_EVT 0)
  | .ACk_FLT => (R.ACk_FLT 0, R.ACk_FLT 1 - R.ACk_FLT 0)
  | .ACk_LATCH => (R.ACk_LATCH 0, R.ACk_LATCH 1 - R.ACk_LATCH 0)
  | .ACk_LEAKL => (R.ACk_LEAKL 0, R.ACk_LEAKL 1 - R.ACk_LEAKL 0)
  | .ACk_LEAKH => (R.ACk_LEAKH 0, R.ACk_LEAKH 1 - R.ACk_LEAKH 0)
  | .ACk_BOOT => (R.ACk_BOOT 0, R.ACk_BOOT 1 - R.ACk_BOOT 0)
  | .GBX_STATE => (R.GBX_STATE, 0)
  | .GBX_EVT => (R.GBX_EVT, 0)
  | .GBX_FLT => (R.GBX_FLT, 0)
  | .GBX_POS0 => (R.GBX_POS0, 0)
  | .GBX_POS1 => (R.GBX_POS1, 0)
  | .GBX_CFG => (R.GBX_CFG, 0)
  | .GBX_SENT => (R.GBX_SENT, 0)
  | .LDG_STATE => (R.LDG_STATE, 0)
  | .LDG_EVT => (R.LDG_EVT, 0)
  | .LDG_IMB => (R.LDG_IMB, 0)
  | .LDG_ROUND => (R.LDG_ROUND, 0)
  | .LDG_WQSTAT => (R.LDG_WQSTAT, 0)
  | .LDG_KABHI => (R.LDG_KABHI, 0)
  | .LDG_KASKIP => (R.LDG_KASKIP, 0)
  | .LDG_KAWAKE => (R.LDG_KAWAKE, 0)
  | .LDG_NRESk => (R.LDG_NRESk 0, R.LDG_NRESk 1 - R.LDG_NRESk 0)
  | .LDG_PNf => (R.LDG_PNf 0, R.LDG_PNf 1 - R.LDG_PNf 0)
  | .LDG_EDf => (R.LDG_EDf 0, R.LDG_EDf 1 - R.LDG_EDf 0)
  | .LDG_ERf => (R.LDG_ERf 0, R.LDG_ERf 1 - R.LDG_ERf 0)
  | .LDG_Pp_CFG => (R.LDG_Pp_CFG 0, R.LDG_Pp_CFG 1 - R.LDG_Pp_CFG 0)
  | .LDG_Pp_PWR => (R.LDG_Pp_PWR 0, R.LDG_Pp_PWR 1 - R.LDG_Pp_PWR 0)
  | .LDG_Pp_EHI => (R.LDG_Pp_EHI 0, R.LDG_Pp_EHI 1 - R.LDG_Pp_EHI 0)
  | .LDG_Pp_MAXD => (R.LDG_Pp_MAXD 0, R.LDG_Pp_MAXD 1 - R.LDG_Pp_MAXD 0)
  | .LDG_Pp_MAXR => (R.LDG_Pp_MAXR 0, R.LDG_Pp_MAXR 1 - R.LDG_Pp_MAXR 0)
  | .LDG_Pp_IMBW => (R.LDG_Pp_IMBW 0, R.LDG_Pp_IMBW 1 - R.LDG_Pp_IMBW 0)
  | .LDG_Pp_IMBT => (R.LDG_Pp_IMBT 0, R.LDG_Pp_IMBT 1 - R.LDG_Pp_IMBT 0)
  | .LSC_CFG => (R.LSC_CFG, 0)
  | .LSC_STAT => (R.LSC_STAT, 0)
  | .LSC_EVT => (R.LSC_EVT, 0)
  | .LSC_STEST => (R.LSC_STEST, 0)
  | .LSC_MCAUSEn => (R.LSC_MCAUSEn 0, R.LSC_MCAUSEn 1 - R.LSC_MCAUSEn 0)
  | .LSC_MPCn => (R.LSC_MPCn 0, R.LSC_MPCn 1 - R.LSC_MPCn 0)
  | .LSC_MTIMEn => (R.LSC_MTIMEn 0, R.LSC_MTIMEn 1 - R.LSC_MTIMEn 0)
  | .LSC_MCNTn => (R.LSC_MCNTn 0, R.LSC_MCNTn 1 - R.LSC_MCNTn 0)
  | .SSM_STATE => (R.SSM_STATE, 0)
  | .SSM_CAUSE => (R.SSM_CAUSE, 0)
  | .SSM_EVT => (R.SSM_EVT, 0)
  | .SSM_LASTF => (R.SSM_LASTF, 0)
  | .SSM_ASC => (R.SSM_ASC, 0)
  | .SSM_HB => (R.SSM_HB, 0)
  | .SSM_PAT0 => (R.SSM_PAT0, 0)
  | .SSM_PAT1 => (R.SSM_PAT1, 0)
  | .SSM_PATX => (R.SSM_PATX, 0)
  | .SSM_OTEST => (R.SSM_OTEST, 0)
  | .SSM_WDSTATn => (R.SSM_WDSTATn 0, R.SSM_WDSTATn 1 - R.SSM_WDSTATn 0)
  | .RST_STATE => (R.RST_STATE, 0)
  | .RST_CAUSE => (R.RST_CAUSE, 0)
  | .RST_PEND => (R.RST_PEND, 0)
  | .RST_START => (R.RST_START, 0)
  | .RST_WAKE => (R.RST_WAKE, 0)
  | .RST_EVT => (R.RST_EVT, 0)
  | .RST_OPTIME => (R.RST_OPTIME, 0)
  | .RST_PVECn => (R.RST_PVECn 0, R.RST_PVECn 1 - R.RST_PVECn 0)
  | .CLK_STAT => (R.CLK_STAT, 0)
  | .CLK_EVT => (R.CLK_EVT, 0)
  | .CLK_LAST => (R.CLK_LAST, 0)
  | .CLK_FREQi => (R.CLK_FREQi 0, R.CLK_FREQi 1 - R.CLK_FREQi 0)
  | .THM_STATE => (R.THM_STATE, 0)
  | .THM_EVT => (R.THM_EVT, 0)
  | .THM_TCFG => (R.THM_TCFG, 0)
  | .THM_SUPFLT => (R.THM_SUPFLT, 0)
  | .THM_TEMPs => (R.THM_TEMPs 0, R.THM_TEMPs 1 - R.THM_TEMPs 0)
  | .THM_SUPr => (R.THM_SUPr 0, R.THM_SUPr 1 - R.THM_SUPr 0)
  | .EVC_EVT => (R.EVC_EVT, 0)
  | .EVC_DBSET => (R.EVC_DBSET, 0)
  | .EVC_STRAND => (R.EVC_STRAND, 0)
  | .EVC_FASTt => (R.EVC_FASTt 0, R.EVC_FASTt 1 - R.EVC_FASTt 0)
  | .EVC_WAKEt => (R.EVC_WAKEt 0, R.EVC_WAKEt 1 - R.EVC_WAKEt 0)
  | .EVC_SRCm => (R.EVC_SRCm 1, R.EVC_SRCm 2 - R.EVC_SRCm 1)
  | .CANn_STATE => (R.CANn_STATE 0, R.CANn_STATE 1 - R.CANn_STATE 0)
  | .CANn_EVT => (R.CANn_EVT 0, R.CANn_EVT 1 - R.CANn_EVT 0)
  | .CANn_MODE => (R.CANn_MODE 0, R.CANn_MODE 1 - R.CANn_MODE 0)
  | .CANn_TIMING => (R.CANn_TIMING 0, R.CANn_TIMING 1 - R.CANn_TIMING 0)
  | .CANn_IDS => (R.CANn_IDS 0, R.CANn_IDS 1 - R.CANn_IDS 0)
  | .CANn_CNT => (R.CANn_CNT 0, R.CANn_CNT 1 - R.CANn_CNT 0)
  | .ETHp_STATE => (R.ETHp_STATE 0, R.ETHp_STATE 1 - R.ETHp_STATE 0)
  | .ETHp_EVT => (R.ETHp_EVT 0, R.ETHp_EVT 1 - R.ETHp_EVT 0)
  | .ETHp_CFG => (R.ETHp_CFG 0, R.ETHp_CFG 1 - R.ETHp_CFG 0)
  | .ETHp_MACL => (R.ETHp_MACL 0, R.ETHp_MACL 1 - R.ETHp_MACL 0)
  | .ETHp_MACH => (R.ETHp_MACH 0, R.ETHp_MACH 1 - R.ETHp_MACH 0)
  | .ETHp_OFFS => (R.ETHp_OFFS 0, R.ETHp_OFFS 1 - R.ETHp_OFFS 0)
  | .ETHp_RATE => (R.ETHp_RATE 0, R.ETHp_RATE 1 - R.ETHp_RATE 0)
  | .ETHp_MDIO => (R.ETHp_MDIO 0, R.ETHp_MDIO 1 - R.ETHp_MDIO 0)
  | .ETHp_CNT => (R.ETHp_CNT 0, R.ETHp_CNT 1 - R.ETHp_CNT 0)
  | .ETHp_GCLj => (R.ETHp_GCLj 0 0, Nat.gcd (R.ETHp_GCLj 1 0 - R.ETHp_GCLj 0 0) (R.ETHp_GCLj 0 1 - R.ETHp_GCLj 0 0))
  | .SEC_EVT => (R.SEC_EVT, 0)
  | .SEC_DBGCHALj => (R.SEC_DBGCHALj 0, R.SEC_DBGCHALj 1 - R.SEC_DBGCHALj 0)
  | .SEC_DBGRESPj => (R.SEC_DBGRESPj 0, R.SEC_DBGRESPj 1 - R.SEC_DBGRESPj 0)
  | .DBG_REPLAYn => (R.DBG_REPLAYn 0, R.DBG_REPLAYn 1 - R.DBG_REPLAYn 0)
  | .DBG_HALTSt => (R.DBG_HALTSt 0, R.DBG_HALTSt 1 - R.DBG_HALTSt 0)
  | .MEM_EVT => (R.MEM_EVT, 0)
  | .MEM_LASTADDR => (R.MEM_LASTADDR, 0)
  | .MEM_LASTINFO => (R.MEM_LASTINFO, 0)
  | .MEM_INJ => (R.MEM_INJ, 0)
  | .MEM_CRIT => (R.MEM_CRIT, 0)
  | .MEM_CNTs => (R.MEM_CNTs 0, R.MEM_CNTs 1 - R.MEM_CNTs 0)
  | .NVS_STATE => (R.NVS_STATE, 0)
  | .NVS_EVT => (R.NVS_EVT, 0)
  | .NVS_WSTAT => (R.NVS_WSTAT, 0)
  | .NVS_JSEQ => (R.NVS_JSEQ, 0)
  | .NVS_JLOST => (R.NVS_JLOST, 0)
  | .NVS_WDATAj => (R.NVS_WDATAj 0, R.NVS_WDATAj 1 - R.NVS_WDATAj 0)
  | .NVS_JDATAj => (R.NVS_JDATAj 0, R.NVS_JDATAj 1 - R.NVS_JDATAj 0)
  | .PIN_OUT => (R.PIN_OUT, 0)
  | .PIN_CFGn => (R.PIN_CFGn 0, R.PIN_CFGn 1 - R.PIN_CFGn 0)

/-- No register of the family has the address. -/
def Reg.misses (r : Reg) (a : Nat) : Bool := decide (a < r.span.1) || (a - r.span.1) % r.span.2 != 0

/-- Every address of a family is its first one and a multiple of its spacing. -/
theorem Reg.At.span_eq {r : Reg} (h : r.At a) : ∃ k, a = r.span.1 + r.span.2 * k := by
  cases h with
  | FEn_HCFGk n k => exact ⟨0x2000 * n + k, by simp only [Reg.span, R.FEn_HCFGk, Nat.reduceMul, Nat.reduceAdd, Nat.reduceSub, Nat.reduceGcd]; omega⟩
  | FEn_HAMPk n k => exact ⟨0x2000 * n + k, by simp only [Reg.span, R.FEn_HAMPk, Nat.reduceMul, Nat.reduceAdd, Nat.reduceSub, Nat.reduceGcd]; omega⟩
  | FEn_TMPLj n j => exact ⟨0x4000 * n + j, by simp only [Reg.span, R.FEn_TMPLj, Nat.reduceMul, Nat.reduceAdd, Nat.reduceSub, Nat.reduceGcd]; omega⟩
  | GLKk_DRVj k j => exact ⟨0x10 * k + j, by simp only [Reg.span, R.GLKk_DRVj, Nat.reduceMul, Nat.reduceAdd, Nat.reduceSub, Nat.reduceGcd]; omega⟩
  | RNDr_CORRk r k => exact ⟨0x4000 * r + k, by simp only [Reg.span, R.RNDr_CORRk, Nat.reduceMul, Nat.reduceAdd, Nat.reduceSub, Nat.reduceGcd]; omega⟩
  | RNDr_SEQe r e => exact ⟨0x4000 * r + e, by simp only [Reg.span, R.RNDr_SEQe, Nat.reduceMul, Nat.reduceAdd, Nat.reduceSub, Nat.reduceGcd]; omega⟩
  | RNDr_LIMe r e => exact ⟨0x4000 * r + e, by simp only [Reg.span, R.RNDr_LIMe, Nat.reduceMul, Nat.reduceAdd, Nat.reduceSub, Nat.reduceGcd]; omega⟩
  | RNDr_LASTc r c => exact ⟨0x4000 * r + c, by simp only [Reg.span, R.RNDr_LASTc, Nat.reduceMul, Nat.reduceAdd, Nat.reduceSub, Nat.reduceGcd]; omega⟩
  | ETHp_GCLj p j => exact ⟨0x4000 * p + j, by simp only [Reg.span, R.ETHp_GCLj, Nat.reduceMul, Nat.reduceAdd, Nat.reduceSub, Nat.reduceGcd]; omega⟩
  | _ => first | exact ⟨0, rfl⟩ | exact ⟨_, rfl⟩

theorem Reg.At.not_misses {r : Reg} (h : r.At a) : r.misses a = false := by
  obtain ⟨k, rfl⟩ := h.span_eq
  simp [Reg.misses]

/-- Nothing that the part names is the register at the address. -/
def Part.misses (a : Nat) : Part → Bool
  | .regs => false
  | .reg r => r.misses a
  | _ => true

/-- A register that no part of a frame can be reads as before. -/
theorem Frame.reg_apart {c : List Part} (h : Frame c s t) (out : c.all (Part.misses a) = true) : t.reg a = s.reg a := by
  have miss := List.all_eq_true.mp out
  rcases h.regs a with m | ⟨r, m, k⟩ | e
  · exact Bool.noConfusion (miss _ m)
  · exact Bool.noConfusion (k.not_misses.symm.trans (miss _ m))
  · exact e

theorem Frame.fld_apart {c : List Part} (h : Frame c s t) (out : c.all (Part.misses a) = true) (f : Fld) : t.fld a f = s.fld a f := by
  rw [State.fld, h.reg_apart out, State.fld]

theorem Frame.flag_apart {c : List Part} (h : Frame c s t) (out : c.all (Part.misses a) = true) (f : Fld) : t.flag a f = s.flag a f := by
  rw [State.flag, h.fld_apart out, State.flag]

end Sys2Proof.Machine
end

section
/-!
The output chain of the pool legs (R22, R123, R132, R139, R141, R144): what stage 3 makes of the override and of the two switches, and that
the rest of a time step leaves it.
-/
namespace Sys2Proof.Machine

variable {s t u : State} {n : Nat}

/-! ### One leg through stages 2 and 3 -/

/-- No more is on than the override code lets through, and never both switches. -/
structure Lock.Safe (l : Lock) (code : Nat) : Prop where
  one : (l.onH && l.onL) = false
  low : code = 1 → l.onH = false
  high : code = 2 → l.onL = false
  none : code = 3 → l.onH = false ∧ l.onL = false

/-- A switch that stage 3 leaves on is one that stage 2 commands. -/
theorem Lock.stage3_commanded (l : Lock) (idt now : Nat) :
    ((l.stage3 n idt now).onH = true → l.high2 = true) ∧ ((l.stage3 n idt now).onL = true → l.low2 = true) := by
  constructor <;> intro on <;> simp only [Lock.stage3, Bool.and_eq_true, Bool.or_eq_true] at on <;> tauto

/-- The high side goes on only while the low side is off. -/
theorem Lock.stage3_one (l : Lock) (idt now : Nat) : ((l.stage3 n idt now).onH && (l.stage3 n idt now).onL) = false := by
  simp only [Lock.stage3]
  cases l.onL && l.low2 || l.low2 && !(l.onH && l.high2) && restedFor n idt now _ <;> simp

/-- The chain of a leg is safe under the override that stage 2 applies. -/
theorem Lock.stages_safe (l : Lock) (now code blank idt : Nat) : ((l.stage2 now code blank).stage3 n idt now).Safe code := by
  obtain ⟨high, low⟩ := (l.stage2 now code blank).stage3_commanded (n := n) idt now
  have off {x y : Bool} (h : x = true → y = true) (z : y = false) : x = false := by
    cases x
    · rfl
    · exact (h rfl).symm.trans z
  refine ⟨Lock.stage3_one .., ?_, ?_, ?_⟩
  · rintro rfl; exact off high rfl
  · rintro rfl; exact off low rfl
  · rintro rfl; exact ⟨off high rfl, off low rfl⟩

theorem lockDefault_safe (code : Nat) : (lockDefault n).Safe code := ⟨rfl, fun _ => rfl, fun _ => rfl, fun _ => ⟨rfl, rfl⟩⟩

/-! ### What a leg's turn leaves of the override and of the other legs -/

/-- From s to t the chains of the legs and all that the override of a leg depends on are as before. -/
structure SameChain (s t : State) : Prop where
  locks : t.pads.locks = s.pads.locks
  map : t.ssm.map = s.ssm.map
  reg : ∀ a, a < 0x40040000 → t.reg a = s.reg a

theorem SameChain.refl (s : State) : SameChain s s := ⟨rfl, rfl, fun _ _ => rfl⟩

theorem SameChain.trans (h : SameChain s t) (k : SameChain t u) : SameChain s u :=
  ⟨k.locks.trans h.locks, k.map.trans h.map, fun a low => (k.reg a low).trans (h.reg a low)⟩

theorem SameChain.ite {q : Prop} [Decidable q] (h : SameChain s t) (k : SameChain s u) : SameChain s (if q then t else u) := by
  split <;> assumption

/-- A part without the pads, the SSM's record and any register below the event controller's. -/
def Part.offChain : Part → Bool
  | .regs | .pads | .ssm => false
  | .reg r => decide (0x40040000 ≤ r.span.1)
  | _ => true

theorem SameChain.off {c : List Part} (k : Kept c s t) (out : (c.all Part.offChain && !c.contains .pads && !c.contains .ssm) = true) :
    SameChain s t := by
  simp only [Bool.and_eq_true, Bool.not_eq_true'] at out
  obtain ⟨⟨regs, pads⟩, ssm⟩ := out
  refine ⟨congrArg PadSt.locks (k.frame.same .pads pads), congrArg SsmSt.map (k.frame.same .ssm ssm), fun a low => k.frame.reg_apart ?_⟩
  refine List.all_eq_true.mpr fun p m => ?_
  have off := List.all_eq_true.mp regs p m
  cases p with
  | reg r => simpa [Part.misses, Reg.misses] using .inl (Nat.lt_of_lt_of_le low (of_decide_eq_true off))
  | regs => cases off
  | _ => rfl

theorem SameChain.andThen {c : List Part} (h : SameChain s t) (k : Kept c t u)
    (out : (c.all Part.offChain && !c.contains .pads && !c.contains .ssm) = true) : SameChain s u := h.trans (.off k out)

theorem SameChain.legOvr (h : SameChain s t) (n : Nat) : t.legOvr n = s.legOvr n := by
  have cause (c : Nat) : t.ssmCause c = s.ssmCause c := by rw [State.ssmCause, State.fld, h.reg _ (by decide), State.ssmCause, State.fld]
  have pat (f : Nat) : t.ssmPat f = s.ssmPat f := by
    simp only [State.ssmPat, State.fld, h.reg R.SSM_PAT0 (by decide), h.reg R.SSM_PAT1 (by decide)]
  simp only [State.legOvr, State.ssmFnOfLeg, State.safeHeld, State.fld, h.map, cause, pat, h.reg R.SSM_CAUSE (by decide)] <;> rfl

theorem SameChain.lockOf (h : SameChain s t) (n : Nat) : t.lockOf n = s.lockOf n := by
  rw [State.lockOf, h.locks, State.lockOf]

theorem State.sendFrame_chain (s : State) (src inst cause : Nat) : SameChain s (s.sendFrame src inst cause) := ⟨rfl, rfl, fun _ _ => rfl⟩

theorem State.chgFail_chain (s : State) (c : Nat) : SameChain s (s.chgFail c) := by
  unfold State.chgFail
  extract_lets +onlyGivenNames st
  refine .ite (.refl s) ?_
  extract_lets +onlyGivenNames s1 _ s2
  have h2 : SameChain s s2 := ((SameChain.off (State.setBit_kept .CHG_FLT ..) rfl).andThen (State.setFlag_kept .CHG_EVT ..) rfl).trans
    ⟨rfl, rfl, fun _ _ => rfl⟩
  refine .ite h2 ?_
  extract_lets +onlyGivenNames s3 s4 s5 s6
  have h3 : SameChain s s3 := .ite (h2.trans (State.sendFrame_chain ..)) h2
  have h4 : SameChain s s4 := .ite (h3.trans (State.sendFrame_chain ..)) h3
  have h5 : SameChain s s5 := .ite (h4.trans (State.sendFrame_chain ..)) h4
  have h6 : SameChain s s6 := .ite ((h5.andThen (State.chgReason_kept ..) rfl).andThen (State.chgHardStop_kept _) rfl) h5
  exact h6.andThen (State.hwFault_kept ..) rfl

theorem State.fnReact_chain (s : State) (f c pos : Nat) : SameChain s (s.fnReact f c pos) := by
  have recorded : SameChain s (s.fnRecord f c pos) := .off (State.fnRecord_kept ..) rfl
  exact .ite (State.chgFail_chain ..) (.ite (recorded.trans (State.chgFail_chain ..)) recorded)

theorem State.latchLeg_chain (s : State) (n c : Nat) : SameChain s (s.latchLeg n c) := by
  unfold State.latchLeg
  refine .ite (.refl s) ?_
  extract_lets +onlyGivenNames f pos used s1 l s2 _ s3 s4
  have latched : SameChain s (s.setLatch n c) := ⟨rfl, rfl, fun _ _ => rfl⟩
  have h1 : SameChain s s1 := ((latched.andThen (State.syncLatched_kept _) rfl).andThen (State.setDuty_kept _ n none) rfl).trans
    ⟨rfl, rfl, fun _ _ => rfl⟩
  have h2 : SameChain s s2 := ((h1.andThen (State.setReg_kept (.MOD_LTRIPn n) ..) rfl).andThen (State.incSat_kept (.MOD_LCNTn n) ..) rfl).andThen
    (State.setFlag_kept .MOD_EVT ..) rfl
  have record (t : State) (x : ModSt) : SameChain t { t with mdl := x } := ⟨rfl, rfl, fun _ _ => rfl⟩
  have h4 : SameChain s s4 := (h2.trans (record s2 _) : SameChain s s3).trans (State.sendFrame_chain ..)
  exact .ite (((h4.andThen (State.withdraw_kept ..) rfl).andThen (State.zeroK_kept ..) rfl).trans (State.fnReact_chain ..)) h4

/-- A leg's turn is its new lock, and nothing else that a chain depends on. -/
theorem State.gateLeg_lock (s : State) (n : Nat) : ∃ l, l.Safe (s.legOvr n) ∧ SameChain (s.setLock n l) (s.gateLeg n) := by
  unfold State.gateLeg
  extract_lets +onlyGivenNames before idt l s1 s2
  refine ⟨l, Lock.stages_safe .., ?_⟩
  have h2 : SameChain s1 s2 := .ite ((SameChain.off (State.incSat_kept (.MOD_LCNTn n) ..) rfl).andThen (State.setFlag_kept .MOD_EVT ..) rfl)
    (.refl s1)
  split
  · exact h2
  · exact .ite (h2.trans (State.latchLeg_chain ..)) h2

/-- A leg's turn leaves every override, and makes its own chain safe. -/
theorem State.gateLeg_chain (s : State) (n : Nat) : (∀ k, (s.gateLeg n).legOvr k = s.legOvr k) ∧ ((s.gateLeg n).lockOf n).Safe (s.legOvr n) ∧
    ∀ k, k ≠ n → (s.gateLeg n).lockOf k = s.lockOf k := by
  obtain ⟨l, safe, same⟩ := s.gateLeg_lock n
  refine ⟨fun k => same.legOvr k, ?_, fun k ne => ?_⟩
  · rw [same.lockOf, State.lockOf_setLock]
    exact safe
  · rw [same.lockOf, State.lockOf_setLock_ne s n l ne]

/-- After the turns of the legs of a list every leg is safe that is in the list or was safe before. -/
theorem State.each_gateLeg_safe (l : List Nat) (h : n ∈ l ∨ (s.lockOf n).Safe (s.legOvr n)) :
    ((s.each l State.gateLeg).lockOf n).Safe (s.legOvr n) := by
  induction l generalizing s with
  | nil => exact h.resolve_left (by simp)
  | cons x l ih =>
    obtain ⟨ovr, own, other⟩ := s.gateLeg_chain x
    rw [← ovr n]
    refine ih (s := s.gateLeg x) ?_
    rw [ovr n]
    rcases eq_or_ne n x with rfl | ne
    · exact .inr own
    · rw [other n ne]
      exact h.imp_left fun m => (List.mem_cons.mp m).resolve_left ne

/-- A leg whose chain has nothing to do is off, under no override. -/
theorem State.gateTick_safe (s : State) (lt : n < 48) : (s.gateTick.lockOf n).Safe (s.legOvr n) := by
  refine State.each_gateLeg_safe _ ?_
  by_cases m : n ∈ s.gateLegs
  · exact .inl m
  · have idle : s.lockOf n = lockDefault n := by
      simp only [State.gateLegs, List.mem_filter, List.mem_range, lt, true_and, Bool.or_eq_true, bne_iff_ne, not_or, not_not] at m
      exact m.2
    exact .inr (idle ▸ lockDefault_safe _)

/-! ### The rest of a time step -/

theorem State.wireTick_locks (s : State) : s.wireTick.pads.locks = s.pads.locks := by
  unfold State.wireTick
  extract_lets w p recent
  split
  · rfl
  · split <;> rfl

theorem State.idle_lockOf (s : State) (n : Nat) : s.idle.lockOf n = s.timeOn.gateTick.lockOf n := by
  have rest : Kept [.po, .cores, .lsc, .rst, .reg .DBG_REPLAYn, .reg .PST_SLEEP, .reg .LSC_STAT, .reg .SSM_WDSTATn, .reg .RST_CAUSE, .reg .RST_PEND]
      s.timeOn.gateTick.regTick.wireTick s.idle := .via (State.pairDue_kept _) rfl ((State.replayDrain_kept _).mono rfl)
  have pads : s.timeOn.gateTick.regTick.pads = s.timeOn.gateTick.pads := (State.regTick_kept _).frame.same .pads rfl
  rw [State.lockOf, show s.idle.pads = _ from rest.frame.same .pads rfl, State.wireTick_locks, pads, State.lockOf]

/-- Settles O3: the pins pass no switch that stage 3 holds off, none under a latch and none while DRIVE_EN is low. -/
theorem outputChain : Obligations.OutputChain := by
  intro s t n lt empty next
  have idle : t = s.idle := by
    rw [step, empty] at next
    exact (Host.Outcome.next.inj next).symm
  have ovr : s.timeOn.legOvr n = s.legOvr n := rfl
  have safe : (t.lockOf n).Safe (s.legOvr n) := by
    rw [idle, State.idle_lockOf, ← ovr]
    exact State.gateTick_safe _ lt
  have high (off : (t.lockOf n).onH = false) : t.pinGH n = false := by simp [State.pinGH, off]
  have low (off : (t.lockOf n).onL = false) : t.pinGL n = false := by simp [State.pinGL, off]
  refine ⟨fun ⟨gh, gl⟩ => ?_, fun gated => ?_, fun code => high (safe.low code), fun code => low (safe.high code),
    fun code => ⟨high (safe.none code).1, low (safe.none code).2⟩⟩
  · simp only [State.pinGH, State.pinGL, Bool.and_eq_true] at gh gl
    have one := safe.one
    simp [gh.1.1.2, gl.1.1.2] at one
  · rcases gated with latch | drive
    · simp [State.pinGH, State.pinGL, latch]
    · simp [State.pinGH, State.pinGL, drive]

end Sys2Proof.Machine
end

section
/-!
A refused letter (R72, R85, R91, R96): every letter command is a delivery, and a refusal is a receipt at the tail of a ring and an entry of
the dead-letter journal.
-/
namespace Sys2Proof.Machine

variable {c : Instr} {sp : LetterSpec} {m : Msg} {s t : State} {st : Status}

/-- A command that is a letter delivers it; some then perform what the delivery has made ready. -/
theorem exec_letter (h : letterOf c = some (sp, m)) :
    exec c s = .next (deliver sp s m) ∨ exec c s = .next (deliver sp s m).runReady := by
  cases c with
  | imageCommit | fwCommit | rstSystem | netHalt => cases h; exact .inr rfl
  | _ => cases h <;> exact .inl rfl

/-- A refused letter's command is the refusal, where nothing was ready before it. -/
theorem exec_refused (h : letterOf c = some (sp, m)) (refused : verdict sp s m = some st) (ready : s.po.ready = []) :
    exec c s = .next (refuseLetter s m st (sp.detail s m st)) := by
  have nothing : (refuseLetter s m st (sp.detail s m st)).runReady = refuseLetter s m st (sp.detail s m st) :=
    State.runReady_of_ready_nil ((refuseLetter_ready ..).trans ready)
  rw [← deliver_refused refused] at nothing ⊢
  rcases exec_letter (s := s) h with e | e
  · exact e
  · rw [e, nothing]

/-! ### What a refusal leaves of the post office -/

theorem State.placeReceipt_deferred (s : State) (n : Nat) (r : Receipt) : (s.placeReceipt n r).po.deferred = s.po.deferred := by
  unfold State.placeReceipt
  extract_lets t s1 now
  have placed : s1.po.deferred = s.po.deferred := by
    simp only [s1, State.setFld_fields, State.wroteSlot, State.wroteCw_po, State.setSlot]
  split
  · exact placed
  · exact placed

theorem State.issueReceipt_deferred (s : State) (c : Src) (n : Nat) (r : Receipt) : (s.issueReceipt c n r).1.po.deferred = s.po.deferred := by
  unfold State.issueReceipt
  split
  · rfl
  · unfold State.sendReceipt
    split
    · split
      · rw [State.deadLetter_po]
      · split
        · rw [State.deadLetter_po]
          simp only [State.setFlag_fields]
        · exact State.placeReceipt_deferred ..
    · rfl

theorem refuseLetter_po (s : State) (m : Msg) (st : Status) (detail : List Byte) :
    (refuseLetter s m st detail).po.ops = s.po.ops ∧ (refuseLetter s m st detail).po.mgmt = s.po.mgmt ∧
      (refuseLetter s m st detail).po.hw = s.po.hw ∧ (refuseLetter s m st detail).po.deferred = s.po.deferred := by
  unfold refuseLetter
  split <;> rw [State.deadLetter_po]
  · exact ⟨rfl, rfl, rfl, rfl⟩
  · have same := (State.issueReceipt_po s m.src m.letter.flags ⟨m.letter.opcode, m.letter.unit, st, m.letter.seq, s.pm, s.pm, detail⟩).1
    exact ⟨same.ops, same.mgmt, same.hw, State.issueReceipt_deferred ..⟩

/-- Settles O10: the command is the refusal, whose frame is that of a receipt. -/
theorem refusedLetterChangesNothing : Obligations.RefusedLetterChangesNothing := by
  intro c sp m s st letter refused ready
  exact ⟨_, exec_refused letter refused ready, (refuseLetter_kept ..).frame, refuseLetter_po ..⟩

/-! ### The receipt -/

/-- A ring index fits its field where the ring is of at most 4096 slots. -/
theorem State.phTail_setTail {n v : Nat} (fits : v < 8192) : (s.setFld (R.PHn_TAIL n) F.PHn_TAIL_INDEX v).phTail n = v := by
  rw [State.phTail, State.fld_setFld _ rfl]
  exact Nat.mod_eq_of_lt fits

/-- The status register of a pigeonhole is not its tail. -/
theorem phTail_ne_phStat (n : Nat) : R.PHn_TAIL n ≠ R.PHn_STAT n := by
  simp only [R.PHn_TAIL, R.PHn_STAT]
  omega

/-- A receipt placed in a ring is at its tail, which moves on by one. -/
theorem State.placeReceipt_tail {n : Nat} (r : Receipt) (size : s.phSize n ≤ 4096) :
    (s.placeReceipt n r).phTail n = (s.phTail n + 1) % (2 * s.phSize n) ∧ (s.placeReceipt n r).slot (s.phSlot n (s.phTail n)) = .receipt r := by
  unfold State.placeReceipt
  extract_lets tail s1 now
  have fits : (tail + 1) % (2 * s.phSize n) < 8192 := by
    have pos : 0 < s.phSize n := Nat.two_pow_pos _
    have lt := Nat.mod_lt (tail + 1) (show 0 < 2 * s.phSize n by omega)
    omega
  have moved : s1.phTail n = (s.phTail n + 1) % (2 * s.phSize n) := State.phTail_setTail fits
  have placed : s1.slot (s.phSlot n tail) = .receipt r := by
    have po : s1.po = (s.setSlot (s.phSlot n tail) (.receipt r)).po := by
      simp only [s1, State.setFld_fields, State.wroteSlot, State.wroteCw_po]
    rw [State.slot, po]
    exact State.slot_setSlot ..
  clear_value s1
  split
  · exact ⟨(State.fld_setFld_ne (phTail_ne_phStat n) ..).trans moved, placed⟩
  · exact ⟨(State.fld_setFld_ne (phTail_ne_phStat n) ..).trans moved, placed⟩

/-- An entry of the dead-letter journal leaves the rings. -/
theorem State.deadLetter_ring {n : Nat} (lt : n < 64) (s : State) (item : List Byte) (st : Status) (ph stage k : Nat) :
    (s.deadLetter item st ph stage).phTail n = s.phTail n ∧ (s.deadLetter item st ph stage).slot k = s.slot k := by
  have kept := (State.deadLetter_kept s item st ph stage).frame
  refine ⟨?_, ?_⟩
  · simp only [State.phTail, State.fld, kept.postReg_eq rfl (.inr (.inr (ringReg_tail lt)))]
  · rw [State.slot, State.deadLetter_po, State.slot]

/-- Settles O11: a failing receipt goes to the ring of the producer, which has room. -/
theorem refusedLetterReceipt : Obligations.RefusedLetterReceipt := by
  intro c sp m s st n p letter refused failed ready src ring room size
  refine ⟨_, exec_refused letter refused ready, ?_⟩
  have issued (r : Receipt) (bad : r.status.ok = false) : (s.issueReceipt (.ph n) m.letter.flags r).1 = s.placeReceipt p r := by
    simp [State.issueReceipt, bad, State.sendReceipt, ring, Nat.not_le.mpr room]
  simp only [refuseLetter, src]
  rw [issued _ failed]
  obtain ⟨tail, slot⟩ := State.deadLetter_ring (State.receiptPh_lt ring) (s.placeReceipt p
    ⟨m.letter.opcode, m.letter.unit, st, m.letter.seq, s.pm, s.pm, sp.detail s m st⟩) (letterBytes m.letter) st n 1 (s.phSlot p (s.phTail p))
  rw [tail, slot]
  exact State.placeReceipt_tail _ size

end Sys2Proof.Machine
end

section
/-!
A core's plain store to the shared SRAM and to its TCM (R447): the bytes that storage holds after it, and the read of the codeword that a
store of fewer than 32 bytes makes first.
-/
namespace Sys2Proof.Machine

variable {s t : State} {k n : Nat}

/-! ### Bytes of storage -/

theorem State.byte_of_mem (h : t.mem = s.mem) (x : Nat) : t.byte x = s.byte x := congrArg (fun m => FMap.get memDefault m x) h

theorem State.bytes_congr (h : ∀ i, i < n → t.byte (k + i) = s.byte (k + i)) : t.bytes k n = s.bytes k n :=
  List.map_congr_left fun i m => h i (List.mem_range.mp m)

theorem State.bytes_of_mem (h : t.mem = s.mem) (k n : Nat) : t.bytes k n = s.bytes k n := State.bytes_congr fun _ _ => State.byte_of_mem h _

theorem State.byte_setBytes_outside (data : List Byte) {a x : Nat} (out : x < a ∨ a + data.length ≤ x) :
    (s.setBytes a data).byte x = s.byte x := by
  induction data generalizing s a with
  | nil => rfl
  | cons b data ih =>
    simp only [List.length_cons] at out
    rw [State.setBytes, ih (by omega), State.byte_setByte_ne _ _ _ (by omega)]

theorem State.byte_setBytes_inside (data : List Byte) {a i : Nat} (h : i < data.length) : (s.setBytes a data).byte (a + i) = data[i] := by
  induction data generalizing s a i with
  | nil => cases h
  | cons b data ih =>
    cases i with
    | zero => rw [State.setBytes, State.byte_setBytes_outside _ (by omega)]; exact State.byte_setByte ..
    | succ i =>
      have := ih (s := s.setByte a b) (a := a + 1) (Nat.lt_of_succ_lt_succ h)
      rwa [Nat.add_assoc, Nat.add_comm 1] at this

theorem State.bytes_setBytes (data : List Byte) (a : Nat) : (s.setBytes a data).bytes a data.length = data :=
  List.ext_getElem (by simp [State.bytes]) fun i _ h => by simpa [State.bytes] using State.byte_setBytes_inside data h

theorem State.setBytes_kept_outside (data : List Byte) (a : Nat) : BytesKept a data.length s (s.setBytes a data) :=
  fun _ out => State.byte_setBytes_outside data out

/-- Bytes written back as they stand change no byte. -/
theorem State.byte_setBytes_same (a n x : Nat) : (s.setBytes a (s.bytes a n)).byte x = s.byte x := by
  have len : (s.bytes a n).length = n := by simp [State.bytes]
  by_cases out : x < a ∨ a + n ≤ x
  · exact State.byte_setBytes_outside _ (by rwa [len])
  · obtain ⟨i, rfl⟩ : ∃ i, x = a + i := ⟨x - a, by omega⟩
    rw [State.byte_setBytes_inside _ (by omega)]
    simp [State.bytes]

theorem length_padTo (n : Nat) (l : List Byte) : (padTo n l).length = n := by
  simp only [padTo, List.length_append, List.length_take, List.length_replicate]; omega

/-- A codeword that has been written stands without error where none is being injected (R451). -/
theorem State.errAt_wroteCw (quiet : s.fld R.MEM_INJ F.MEM_INJ_MASK = 0) (store cw : Nat) : (s.wroteCw store cw).errAt cw = [] := by
  simp [State.wroteCw, quiet]

/-! ### The read of a codeword outside the MRAM -/

/-- What the read of a codeword of a volatile store may change (R446, R450). -/
def Part.cwRead : List Part := Part.journal [.err, .memCap, .reg .MEM_EVT, .reg .MEM_LASTINFO, .reg .MEM_CNTs]

variable {store cw req : Nat} {upset : List (Nat × Byte)}

theorem State.readCw_kept_volatile (volatile : store ≠ 7) : Kept Part.cwRead s (s.readCw store cw upset req).1 := by
  have err (e) : Kept Part.cwRead s (s.setErr cw e) := (State.setErr_kept ..).mono rfl
  have read (n ue e) : Kept Part.cwRead s ((s.setErr cw e).memError store cw n ue req) := .via (State.memError_kept ..) rfl (err e)
  unfold State.readCw
  dsimp only
  split
  · exact err _
  · rw [if_neg volatile]; exact .via (State.setErr_kept ..) rfl (read ..)
  · exact read 0 true _
  · exact err _

/-- Of at most 3 bytes in error the decoder makes the data (R445). -/
theorem kDecode_few {e : List (Nat × Byte)} (few : e.length ≤ 3) : kDecode cw e = .clean ∨ kDecode cw e = .corrected e.length := by
  unfold kDecode; split <;> simp_all

theorem State.readCw_few (few : (mergeErr (s.errAt cw) upset).length ≤ 3) :
    (s.readCw store cw upset req).2 = .clean ∨ ∃ n, (s.readCw store cw upset req).2 = .corrected n := by
  rcases kDecode_few (cw := cw) few with h | h <;> simp [State.readCw, h]

theorem State.readCw_four (four : (mergeErr (s.errAt cw) upset).length = 4) : (s.readCw store cw upset req).2 = .bad := by
  simp [State.readCw, kDecode, four]

/-! ### The write -/

variable {data : List Byte}

theorem State.memWrite_whole (whole : data.length = 32) :
    s.memWrite store k data upset req = ((s.setBytes k data).wroteCw store (k / 32 * 32), true) := by
  simp [State.memWrite, whole]

/-- A part of a codeword with at most 3 bytes in error: the codeword is read, and its other bytes are written back as they are. -/
theorem State.memWrite_part (volatile : store ≠ 7) (part : data.length < 32) (few : (mergeErr (s.errAt (k / 32 * 32)) upset).length ≤ 3) :
    ∃ t, s.memWrite store k data upset req = (t, true) ∧ (∀ x, t.byte x = (s.setBytes k data).byte x) ∧
      Kept (Part.journal [.mem, .err, .memCap, .reg .MEM_EVT, .reg .MEM_LASTINFO, .reg .MEM_CNTs, .reg .MEM_INJ]) s t := by
  have kept := State.readCw_kept_volatile (s := s) (cw := k / 32 * 32) (upset := upset) (req := req) volatile
  have mem := State.byte_of_mem (kept.frame.same .mem rfl)
  unfold State.memWrite
  dsimp only
  rw [if_neg (by omega)]
  split
  · next u e => rcases State.readCw_few (store := store) (req := req) few with h | ⟨n, h⟩ <;> simp [e] at h
  · next u r _ e =>
    have data_eq : u.cwData (k / 32 * 32) r = u.bytes (k / 32 * 32) 32 := by
      rcases State.readCw_few (store := store) (req := req) few with h | ⟨n, h⟩ <;> rw [e] at h <;> cases h <;> rfl
    rw [e] at kept mem
    refine ⟨_, rfl, fun x => ?_, ?_⟩
    · rw [State.byte_of_mem ((State.wroteCw_kept ..).frame.same .mem rfl), data_eq]
      by_cases out : x < k ∨ k + data.length ≤ x
      · rw [State.byte_setBytes_outside _ out, State.byte_setBytes_outside _ out, State.byte_setBytes_same, mem]
      · obtain ⟨i, rfl⟩ : ∃ i, x = k + i := ⟨x - k, by omega⟩
        rw [State.byte_setBytes_inside _ (by omega), State.byte_setBytes_inside _ (by omega)]
    · exact .via (State.wroteCw_kept ..) rfl (.via (State.setBytes_kept ..) rfl (.via (State.setBytes_kept ..) rfl (kept.mono rfl)))

/-- A part of an uncorrectable codeword: nothing is written. -/
theorem State.memWrite_uncorrectable (volatile : store ≠ 7) (part : data.length < 32)
    (four : (mergeErr (s.errAt (k / 32 * 32)) upset).length = 4) :
    ∃ t, s.memWrite store k data upset req = (t, false) ∧ Kept Part.cwRead s t := by
  have kept := State.readCw_kept_volatile (s := s) (cw := k / 32 * 32) (upset := upset) (req := req) volatile
  unfold State.memWrite
  dsimp only
  rw [if_neg (by omega)]
  split
  · next u e => rw [e] at kept; exact ⟨u, rfl, kept⟩
  · next u r good e => exact (good ((congrArg Prod.snd e).symm.trans (State.readCw_four four))).elim

/-! ### A core's access -/

/-- A failed access answers a core with the status, and takes an exception. -/
theorem State.accessFail_core (c : Nat) (op : MemOp) (st : Status) : (s.accessFail (.core c) op st false).resp = ⟨st, 0⟩ ∧
    Kept [.cores, .resp] s (s.accessFail (.core c) op st false) := by
  have here : Kept [.cores, .resp] s { s with resp := ⟨st, 0⟩ } := .update rfl rfl rfl
    (fun p => by cases p <;> first | exact .inl (List.mem_of_elem_eq_true rfl) | exact .inr rfl | exact .inr True.intro) (.refl _ _)
  simp only [State.accessFail, Bool.false_eq_true, if_false]
  split
  · next k _ => exact ⟨(State.raiseExc_kept ..).frame.same .resp rfl, .via (State.raiseExc_kept ..) rfl here⟩
  · exact ⟨rfl, here⟩

variable {c : Nat} {op : MemOp}

/-- A core's store that its triggers and PMP let through, to the SRAM or its TCM over a fabric without error, is a write of that store. -/
theorem State.busAccess_store (st : op.store = true) (data : op.fetch = false) (key : s.keyOf (.core c) op.addr = some k)
    (pos : 0 < op.size) (aligned : op.addr % op.size = 0) (plain : op.kind = .plain) (fab : op.fabric = []) (lets : s.Lets c op.addr 1)
    (reg : regionOf op.addr = .sram ∨ regionOf op.addr = .tcm) : ∃ store, store ≠ 7 ∧
    s.busAccess (.core c) op = match s.memWrite store k (padTo op.size op.data) op.upset c with
      | (u, false) => u.accessFail (.core c) op .eFault false
      | (u, true) => (u.stored (s.coreOfCode c) k (padTo op.size op.data)).respond 0 := by
  have free := Option.isNone_iff_eq_none.mp lets
  rcases reg with reg | reg
  · refine ⟨0, by decide, ?_⟩
    simp [State.busAccess, plain, data, st, b2n, free, Nat.pos_iff_ne_zero.mp pos, aligned, reg, State.memAccess, key, fab, State.fabric,
      Region.store, State.memStore, State.reqCode] <;> rfl
  · refine ⟨1, by decide, ?_⟩
    simp [State.busAccess, plain, data, st, b2n, free, Nat.pos_iff_ne_zero.mp pos, aligned, reg, State.memAccess, key, fab, State.fabric,
      Region.store, State.memStore, State.reqCode] <;> rfl

/-- After the write the store's other effects are the cores' own. -/
theorem State.stored_respond_kept (s : State) (o : Option Nat) (k : Nat) (data : List Byte) :
    Kept [.cores, .resp] s ((s.stored o k data).respond 0) := .via (State.respond_kept ..) rfl ((State.stored_kept ..).mono rfl)

/-- Settles O17: a whole codeword is written unread; a part of one reads it first, and a read that fails ends the access. -/
theorem storeReadModifyWrite : Obligations.StoreReadModifyWrite := by
  intro s c k op st data reg key pos aligned plain fab lets E
  obtain ⟨store, volatile, bus⟩ := State.busAccess_store st data key pos aligned plain fab lets reg
  have len : (padTo op.size op.data).length = op.size := length_padTo ..
  refine ⟨fun whole => ?_, fun part few => ?_, fun part four => ?_⟩
  · rw [State.memWrite_whole (len.trans whole)] at bus
    refine ⟨_, congrArg Host.Outcome.next bus, ?_⟩
    have after := State.stored_respond_kept ((s.setBytes k (padTo op.size op.data)).wroteCw store (k / 32 * 32)) (s.coreOfCode c) k
      (padTo op.size op.data)
    have mem := (after.frame.same .mem rfl).trans ((State.wroteCw_kept ..).frame.same .mem rfl)
    have err := after.frame.same .err rfl
    refine ⟨rfl, ?_, fun x out => ?_, fun quiet => ?_, ?_⟩
    · rw [State.bytes_of_mem mem, ← whole]
      exact (congrArg (State.bytes _ k) len.symm).trans (State.bytes_setBytes ..)
    · exact (State.byte_of_mem mem x).trans (State.byte_setBytes_outside _ (by omega))
    · have none := State.errAt_wroteCw (s := s.setBytes k (padTo op.size op.data))
        (((State.setBytes_kept _ s k).frame.fld_apart rfl _).trans quiet) store (k / 32 * 32)
      exact (congrArg (fun m => FMap.get errDefault m (k / 32 * 32)) err).trans none
    · exact (Kept.via after rfl (.via (State.wroteCw_kept ..) rfl ((State.setBytes_kept ..).mono rfl))).frame
  · obtain ⟨u, write, bytes, kept⟩ := State.memWrite_part (req := c) volatile (len.trans_lt part) few
    rw [write] at bus
    refine ⟨_, congrArg Host.Outcome.next bus, ?_⟩
    have after := State.stored_respond_kept u (s.coreOfCode c) k (padTo op.size op.data)
    have mem := State.byte_of_mem (after.frame.same .mem rfl)
    refine ⟨rfl, ?_, fun x out => ?_, (Kept.via after rfl (kept.mono rfl)).frame⟩
    · rw [State.bytes_congr fun i _ => (mem _).trans (bytes _)]
      exact (congrArg (State.bytes _ k) len.symm).trans (State.bytes_setBytes ..)
    · rw [mem, bytes]; exact State.byte_setBytes_outside _ (by omega)
  · obtain ⟨u, write, kept⟩ := State.memWrite_uncorrectable (req := c) volatile (len.trans_lt part) four
    rw [write] at bus
    obtain ⟨resp, failed⟩ := State.accessFail_core (s := u) c op .eFault
    exact ⟨_, congrArg Host.Outcome.next bus, congrArg Resp.status resp, (Kept.via failed rfl (kept.mono rfl)).frame⟩

end Sys2Proof.Machine
end

section
/-!
Traps of a core (R397, R398) and the rejection of a register write (R4, R8, R10).
-/
namespace Sys2Proof.Machine

variable {s t : State} {k c a : Nat} {x : CoreSt} {v w : Word}

/-! ### The standard CSRs -/

@[simp] theorem CoreSt.std_setStd (x : CoreSt) (n : Nat) (v : Word) : (x.setStd n v).std n = v := FMap.get_set_same

theorem CoreSt.std_setStd_ne {n m : Nat} (h : m ≠ n) : (x.setStd n v).std m = x.std m := FMap.get_set_ne h

/-- The CSRs that a trap writes besides mstatus: where it came from, the cause and the value. -/
structure CoreSt.Trapped (x y : CoreSt) (cause tval : Nat) : Prop where
  mepc : y.std 0x341 = BitVec.ofNat 32 x.pc
  mcause : y.std 0x342 = BitVec.ofNat 32 cause
  mtval : y.std 0x343 = BitVec.ofNat 32 tval
  priv : y.priv = 3

theorem State.trap_trapped (s : State) (k cause tval : Nat) : (s.core k).Trapped ((s.trap k cause tval).core k) cause tval := by
  unfold State.trap
  rw [State.core_updCore]
  constructor
  · exact (CoreSt.std_setStd_ne (by decide)).trans ((CoreSt.std_setStd_ne (by decide)).trans
      ((CoreSt.std_setStd_ne (by decide)).trans (CoreSt.std_setStd ..)))
  · exact (CoreSt.std_setStd_ne (by decide)).trans ((CoreSt.std_setStd_ne (by decide)).trans (CoreSt.std_setStd ..))
  · exact (CoreSt.std_setStd_ne (by decide)).trans (CoreSt.std_setStd ..)
  · rfl

/-- An exception is entered at the base of mtvec, whatever its mode. -/
theorem State.trap_pc {cause : Nat} (sync : cause < 2 ^ 31) (tval : Nat) :
    ((s.trap k cause tval).core k).pc = ((s.core k).std 0x305).toNat / 4 * 4 := by
  unfold State.trap
  rw [State.core_updCore]
  have below : ¬ 2 ^ 31 ≤ cause := Nat.not_le.mpr sync
  simp [-Nat.reducePow, below]

/-- An exception is a trap, and the core records its code. -/
theorem State.raiseExc_core (s : State) (k code tval : Nat) :
    (s.raiseExc k code tval).core k = { (s.trap k code tval).core k with exc := some code } := State.core_updCore _

/-! ### A refused access (R10) -/

@[simp] theorem State.refuse_resp (st : Status) : (s.refuse st a).resp = ⟨st, 0⟩ := rfl

@[simp] theorem State.refuse_fld (st : Status) (b : Nat) (f : Fld) : (s.refuse st a).fld b f = (s.captureWerr st a).fld b f := rfl

@[simp] theorem State.refuse_flag (st : Status) (b : Nat) (f : Fld) : (s.refuse st a).flag b f = (s.captureWerr st a).flag b f := rfl

theorem State.captureWerr_code {st : Status} (h : st.code < 256) : (s.captureWerr st a).fld R.SYS_WERR_CODE F.SYS_WERR_CODE_CODE = st.code := by
  rw [State.fld, State.captureWerr_reg]
  cases s.flag R.SYS_WERR_CODE F.SYS_WERR_CODE_VALID || s.flag R.SYS_WERR_CODE F.SYS_WERR_CODE_OVERRUN <;>
    simp [getF, bitsOf, F.SYS_WERR_CODE_CODE, b2n] <;> omega

/-- A core's access that its triggers and PMP let through but the register refuses ends in an access fault of that core (R4). -/
theorem State.accessBy_core_fault (store : Bool) (lets : s.Lets c a (b2n store)) (failed : t.resp.status.ok = false)
    (core : t.coreOfCode c = some k) : s.accessBy (.core c) a store t = t.raiseExc k (if store then 7 else 5) a := by
  have free : s.barred (.core c) a (b2n store) = none := Option.isNone_iff_eq_none.mp lets
  simp [State.accessBy, free, failed, core]

/-- A write that a check of R8 refuses is that refusal. -/
theorem State.directWrite_refused {r : RegAt} {st : Status} (reg : findReg a = some r)
    (fails : regFirst ((s.liveView a).mapFails a v ++ s.plainFails r a v) = some st) : s.directWrite a v = s.refuse st a := by
  simp only [State.directWrite, reg]; rw [fails]

/-- A write to a register with no row of the table's own and not converted is made as the requester. -/
theorem State.busWrite_direct {r : RegAt} {who : Requester} (reg : findReg a = some r) (plain : convertedFe a = none)
    (own : rowWrite who r a v s = none) : s.busWrite who a v = s.accessBy who a true (s.directWrite a v) := by
  simp only [State.busWrite, reg, plain, own]

/-- Settles O18: the refusal captures, the core takes the store access fault, and neither touches anything else. -/
theorem registerRejected : Obligations.RegisterRejected := by
  intro s c k a v r st reg plain own fails bad small core lets
  have write : s.busWrite (.core c) a v = (s.refuse st a).raiseExc k 7 a := by
    rw [State.busWrite_direct reg plain (Option.isNone_iff_eq_none.mp own), State.directWrite_refused reg fails]
    exact State.accessBy_core_fault true lets bad core
  have refused : Kept [.po, .resp, .reg .SYS_WERR_CODE] s (s.refuse st a) := (State.refuse_kept ..).mono rfl
  have taken := State.raiseExc_kept (s.refuse st a) k 7 a
  have cores : (s.refuse st a).core k = s.core k := congrArg (fun m => FMap.get coreDefault m k) (refused.frame.same .cores rfl)
  have flag := taken.frame.flag_apart (a := R.SYS_WERR_CODE) rfl
  have code := taken.frame.fld_apart (a := R.SYS_WERR_CODE) rfl
  obtain ⟨mepc, mcause, mtval, -⟩ := State.trap_trapped (s.refuse st a) k 7 a
  refine ⟨_, congrArg Host.Outcome.next write, taken.frame.same .resp rfl, ?_, ?_, fun held => ?_, congrArg (·.werr) (taken.frame.same .po rfl),
    ?_, ?_, ?_, ?_, ?_, (taken.via rfl (refused.mono rfl)).frame⟩
  · rw [flag, State.refuse_flag]; exact State.captureWerr_valid small
  · rw [code, State.refuse_fld]; exact State.captureWerr_code small
  · rw [flag, State.refuse_flag]; exact ((State.captureWerr_overrun small).trans (by rw [held, Bool.true_or]))
  · rw [State.raiseExc_core]
  · rw [State.raiseExc_core]; exact mcause
  · rw [State.raiseExc_core]; exact mepc.trans (by rw [cores])
  · rw [State.raiseExc_core]; exact mtval
  · rw [State.raiseExc_core]; exact (State.trap_pc (by decide) _).trans (by rw [cores])

end Sys2Proof.Machine
end

section
/-!
The traction and chopper letters, accepted (chapter 07).
-/
namespace Sys2Proof.Machine

variable {s : State} {m : Msg} {l : List Nat}

/-- The state of record of the function that a letter is about, after it changes state. -/
theorem State.fnEnter_ust_fnOf (t : State) (st : UState) (role : s.isRole m.letter.unit l = true) : (t.fnEnter (fnOf m) st).ust m.unit = st := by
  obtain ⟨lt, unit⟩ := isRole_fnOf role
  exact (congrArg (State.ust _) unit).trans (State.fnEnter_ust t st lt)

theorem State.present_of_isRole (role : s.isRole m.letter.unit l = true) : unitPresent s.variant m.unit = true := by
  obtain ⟨lt, unit⟩ := isRole_fnOf role
  exact (congrArg (unitPresent s.variant) unit).trans (unitPresent_fn _ lt)

/-- What the image says is the same while the image is. -/
theorem State.withImg_congr {α : Type} {t : State} (img : t.img = s.img) (d : α) (g : Image → α) : t.withImg d g = s.withImg d g := by
  rw [State.withImg, img]; rfl

/-- A state of record decides no function's legs. -/
theorem State.fnLegs_setUst (s : State) (u : Nat) (st : UState) (f : Nat) : (s.setUst u st).fnLegs f = s.fnLegs f :=
  State.withImg_congr ((State.setUst_kept s u st).frame.same .img rfl) ..

/-- An entry of the outstanding table leaves the position sources. -/
theorem State.srcValid_openOp (s : State) (m : Msg) (f : Nat) : (s.openOp m).1.srcValid f = s.srcValid f := by
  have state (n) : (s.openOp m).1.reg (R.FEn_STATE n) = s.reg (R.FEn_STATE n) :=
    State.openOp_reg s m (by simp only [R.FEn_STATE, R.PST_OUTST]; omega)
  have loop (n) : (s.openOp m).1.reg (R.FEn_LOOPCFG n) = s.reg (R.FEn_LOOPCFG n) :=
    State.openOp_reg s m (by simp only [R.FEn_LOOPCFG, R.PST_OUTST]; omega)
  have pos (n) : (s.openOp m).1.reg (R.POSk_STAT n) = s.reg (R.POSk_STAT n) :=
    State.openOp_reg s m (by simp only [R.POSk_STAT, R.PST_OUTST]; omega)
  have img {α} (d : α) (g : Image → α) : (s.openOp m).1.withImg d g = s.withImg d g := State.withImg_congr rfl d g
  simp only [State.srcValid, State.posSource, State.loopRec, State.tmpl, State.fnEngine, State.enginesOf, State.pairEngines, State.flag,
    State.fld, state, loop, pos, img] <;> rfl

/-- Settles O19: each letter that passes is its own change of the functions, and the receipt changes no unit. -/
theorem tractionLetters : Obligations.TractionLetters := by
  intro s m
  refine ⟨fun p => ?_, fun p => ?_, fun p => ?_, fun p => ?_, fun p => ?_, fun p => ?_, fun p => ?_, fun p => ?_⟩
  all_goals obtain ⟨role, legal⟩ := p.unit
  · exact .now rfl p rfl (by simp [specTraArm, doneWith, State.fnEnter_ust_fnOf _ _ role])
  · cases valid : s.srcValid (fnOf m)
    · refine .later rfl p rfl (if_neg (by rw [State.srcValid_openOp, valid]; decide)) ?_
      simp [State.fnEnter_ust_fnOf _ _ role]
    · refine .later rfl p rfl (if_pos ((State.srcValid_openOp ..).trans valid)) ?_
      simp [State.fnEnter_ust_fnOf _ _ role]
  · exact .now rfl p rfl (by simp [specTraTorque])
  · exact .later rfl p rfl rfl (by simp [State.fnEnter_ust_fnOf _ _ role])
  · exact .now rfl p rfl (by simp [specTraDisarm, doneWith, State.fnEnter_ust_fnOf _ _ role])
  · exact .now rfl p rfl (by simp [specTraClear, doneWith, State.fnEnter_ust_fnOf _ _ role])
  · exact .now rfl p rfl (by simp [specChopRun, doneWith, State.present_of_isRole role])
  · refine .now rfl p rfl ?_
    simp only [specChopHalt, doneWith, acceptLetter_ust, acceptLetter_reads]
    refine ⟨by simp [State.present_of_isRole role], by simp, fun n mem => State.fnOff_duty ?_⟩
    exact (State.fnLegs_setUst ..).symm ▸ mem

end Sys2Proof.Machine
end

section
/-!
The charger (chapter 08): its phases, what the end of a session and a fault leave of what the letters ordered, and its letters, accepted.
-/
namespace Sys2Proof.Machine

variable {s t u : State} {m : Msg}

/-! ### What waits for the boundary -/

theorem State.hwFault_pending (s : State) (u : Nat) : HwEvent.fault u ∈ (s.hwFault u).po.hw := by
  unfold State.hwFault
  split
  · next h => simpa using h
  · exact List.mem_append_right _ (List.mem_singleton.mpr rfl)

theorem State.hwMove_pending (s : State) (u : Nat) (l : List UState) (d : UState) : HwEvent.move u l d ∈ (s.hwMove u l d).po.hw :=
  List.mem_append_right _ (List.mem_singleton.mpr rfl)

/-! ### Phases -/

theorem State.chgPhase_setReg_ne {a : Nat} (h : R.CHG_STATE ≠ a) (w : Word) : (s.setReg a w).chgPhase = s.chgPhase :=
  congrArg (getF · _) (State.reg_setReg_ne h w)

theorem Frame.chgPhase {c : List Part} (h : Frame c s t) (out : c.all (Part.misses R.CHG_STATE) = true) : t.chgPhase = s.chgPhase :=
  h.fld_apart out _

theorem State.chgPhase_setPhase {p : Nat} (small : p < 2 ^ 8) : (s.chgSetPhase p).chgPhase = p := by
  unfold State.chgSetPhase
  split
  · assumption
  · refine (State.fld_setFld_ne (by decide) _ _ _).trans ((State.fld_setFld _ rfl _).trans ?_)
    exact Nat.mod_eq_of_lt small

/-! ### What is left of the orders -/

/-- From a to b no more of the charger's record has changed than the end of a session and a fault of the charger may change. -/
structure SameOrder (a b : ChgSt) : Prop where
  eq : b = { a with reason := b.reason, ended := b.ended, rampAt := b.rampAt, ramp0 := b.ramp0, hard := b.hard, recorded := b.recorded,
                    epoch := b.epoch, cpS2 := b.cpS2, acCmd := b.acCmd }

theorem SameOrder.of {a b : ChgSt} (h : b = a) : SameOrder a b := by subst h; exact ⟨rfl⟩

theorem SameOrder.trans {a b c : ChgSt} (h : SameOrder a b) (k : SameOrder b c) : SameOrder a c := ⟨by rw [k.eq, h.eq]⟩

theorem SameOrder.frame {c : List Part} {a : ChgSt} (h : Frame c s t) (out : c.contains .chg = false) (k : SameOrder a s.chg) :
    SameOrder a t.chg := k.trans (.of (h.same .chg out))

theorem State.chgReason_order (s : State) (r : Nat) : SameOrder s.chg (s.chgReason r).chg := by
  unfold State.chgReason; split
  · exact .of rfl
  · exact ⟨rfl⟩

/-- The legs of a hard stop go off without the charger's record. -/
theorem State.chgHardStop_chg (s : State) : s.chgHardStop.chg = { s.chg with hard := true, cpS2 := false } := by
  have legs (l : List Nat) : (s.each l fun s f => (s.withdrawOnce f).each (s.fnLegs f) fun s n => s.setDuty n none).chg = s.chg := by
    refine (Kept.each (c := [.eng, .mdl, .ldg, .reg .FEn_EVT, .reg .FEn_WDCNT, .reg .LDG_EVT, .reg .LDG_WQSTAT, .reg .LDG_PNf])
      (fun t f => ?_) (.refl _ s)).frame.same .chg rfl
    exact .each (fun t n => (State.setDuty_kept ..).mono rfl) (State.withdrawOnce_kept ..)
  unfold State.chgHardStop
  rw [← legs]
  rfl

theorem State.chgRampdown_chg (s : State) : s.chgRampdown.chg = { s.chg with rampAt := s.time, ramp0 := (s.chgI2 * 65536).floor } :=
  ((State.hwMove_kept ..).frame.same .chg rfl).trans ((State.chgSetPhase_kept ..).frame.same .chg rfl)

theorem State.chgEnd_order (s : State) (r : Nat) : SameOrder s.chg (s.chgEnd r).chg := by
  unfold State.chgEnd; split
  · exact .of rfl
  · exact (State.chgReason_order s r).trans ⟨by rw [State.chgRampdown_chg]⟩

/-- The charger with a fault cause recorded. -/
def State.chgMark (s : State) (c : Nat) : State :=
  let s1 := (s.setBit R.CHG_FLT F.CHG_FLT_CAUSE (c - 1)).setFlag R.CHG_EVT F.CHG_EVT_FAULT
  { s1 with chg := { s1.chg with recorded := addCause s1.chg.recorded c, epoch := addCause s1.chg.epoch c,
                                 acCmd := s1.chg.acCmd && !(3 ≤ c && c ≤ 6) } }

/-- The fault frames of a charger's cause, and the hard stop of a session that t runs. -/
def State.chgSignal (s t : State) (c : Nat) : State :=
  let s3 := if t.chgDab < 16 then t.sendFrame 3 t.chgDab c else t
  let s4 := if s3.chgAfe < 16 then s3.sendFrame 3 s3.chgAfe c else s3
  let s5 := if s.windLive then s4.sendFrame 3 s4.chgWind c else s4
  if s.chgPhase ≠ 0 then (s5.chgReason 9).chgHardStop else s5

/-- A charger that lives signals a cause and goes to FAULT at the next boundary; one in FAULT records it. -/
theorem State.chgFail_eq (s : State) (c : Nat) : s.chgFail c = if !(s.ust U.chg).live && s.ust U.chg ≠ .fault then s
    else if s.ust U.chg = .fault then s.chgMark c else (s.chgSignal (s.chgMark c) c).hwFault U.chg := rfl

theorem State.chgSignal_order (s t : State) (c : Nat) : SameOrder t.chg (s.chgSignal t c).chg := by
  have may {q : Prop} [Decidable q] {x : State} {f : Nat} (k : SameOrder t.chg x.chg) :
      SameOrder t.chg (if q then x.sendFrame 3 f c else x).chg := by
    split
    · exact k.frame (State.sendFrame_kept ..).frame rfl
    · exact k
  unfold State.chgSignal
  extract_lets s3 s4 s5
  have k : SameOrder t.chg s5.chg := may (may (may (.of rfl)))
  split
  · exact (k.trans (State.chgReason_order s5 9)).trans ⟨by rw [State.chgHardStop_chg]⟩
  · exact k

/-- A fault is recorded, and a session it ends stops hard. -/
theorem State.chgFail_order (s : State) (c : Nat) : SameOrder s.chg (s.chgFail c).chg := by
  have mark : SameOrder s.chg (s.chgMark c).chg := 
    (SameOrder.of ((State.setBit_kept .CHG_FLT s F.CHG_FLT_CAUSE (c - 1)).frame.same .chg rfl)).trans ⟨rfl⟩
  rw [State.chgFail_eq]
  split
  · exact .of rfl
  · split
    · exact mark
    · exact (mark.trans (State.chgSignal_order ..)).frame (State.hwFault_kept ..).frame rfl

/-- A charger that lives has its fault pending. -/
theorem State.chgFail_pending (live : (s.ust U.chg).live = true) (c : Nat) : HwEvent.fault U.chg ∈ (s.chgFail c).po.hw := by
  have here : s.ust U.chg ≠ .fault := fun e => by rw [e] at live; cases live
  rw [State.chgFail_eq, live, if_neg (by simp), if_neg here]
  exact State.hwFault_pending ..

/-! ### The letters -/

/-- A unit that is present has the state of record that it is given, whatever other units and parts have changed before. -/
theorem State.ust_setUst_kept {c : List Part} (h : Kept c s t) (out : c.contains .variant = false) {u : Nat} (here : s.ust u ≠ .absent)
    (st : UState) : (t.setUst u st).ust u = st :=
  State.ust_setUst _ _ _ (by rw [show t.variant = s.variant from h.frame.same .variant out]; exact State.present_of_ust here)

theorem State.chgFunctions_ust (s : State) : s.chgFunctions.ust U.chg = s.ust U.chg :=
  State.each_ust (fun t f => State.ust_setUst_ne t _ (by simp only [U.chg, U.fn]; omega)) ..

/-- The session that CHG_START orders, begun at a time with a V2. -/
def ChgSt.begun (c : ChgSt) (m : Msg) (time : Nat) (v2 : Int) : ChgSt := { c with
  three := m.u8 18 = 1, phSel := m.u8 18, target := (m.u32 20 : Nat), outLim := (m.u32 24 : Nat), inLim := (m.u32 28 : Nat),
  term := (m.u32 32 : Nat), power := (m.u32 36 : Nat), islV := (m.u16 40 : Nat), islF := (m.u8 42 : Nat), search := 0,
  started := time, ended := 0, ccNs := 0, termAt := none, energy := 0, reason := 0, hard := false, rises := 0, lower := 0,
  v2prev := v2, last := time }

/-- The charger in RUNNING with the mode and the front end that CHG_START names. -/
def State.chgStarting (o : State) (m : Msg) : State :=
  ((o.setUst U.chg .running).chgFunctions.setFld R.CHG_STATE F.CHG_STATE_MODE (m.u8 16)).setFld R.CHG_STATE F.CHG_STATE_FRONT (m.u8 17 + 1)

/-- A session begun by CHG_START, from the state o (R208). -/
def State.chgBegin (o : State) (m : Msg) : State :=
  ((((o.chgStarting m).updCh fun c => c.begun m o.time (o.chgV2 * 65536).floor).setReg R.CHG_TIME 0).showLimit).chgSetPhase
    (if m.u8 16 = 2 then 8 else 1)

theorem specChgStart_run (o : State) (m : Msg) (k : Nat) : specChgStart.run o m k =
    acceptedWith (if (o.chgBegin m).driveEn then o.chgBegin m else (o.chgBegin m).chgFail 15) := by
  unfold specChgStart State.chgBegin State.chgStarting ChgSt.begun
  rfl

/-- What CHG_START gives the session. -/
structure ChgSt.Ordered (c : ChgSt) (m : Msg) (time : Nat) : Prop where
  target : c.target = m.u32 20
  outLim : c.outLim = m.u32 24
  inLim : c.inLim = m.u32 28
  term : c.term = m.u32 32
  power : c.power = m.u32 36
  started : c.started = time
  energy : c.energy = 0

theorem ChgSt.begun_ordered (c : ChgSt) (m : Msg) (time : Nat) (v2 : Int) : (c.begun m time v2).Ordered m time :=
  ⟨rfl, rfl, rfl, rfl, rfl, rfl, rfl⟩

theorem ChgSt.Ordered.kept {a b : ChgSt} {n : Nat} (h : a.Ordered m n) (k : SameOrder a b) : b.Ordered m n := by
  obtain ⟨h1, h2, h3, h4, h5, h6, h7⟩ := h
  rw [k.eq]
  exact ⟨h1, h2, h3, h4, h5, h6, h7⟩

/-- The begin of a session after the states of record. -/
theorem State.chgBegin_after (o : State) (m : Msg) :
    Kept [.chg, .reg .CHG_STATE, .reg .CHG_TIME, .reg .CHG_ILIM, .reg .CHG_EVT] (o.setUst U.chg .running).chgFunctions (o.chgBegin m) :=
  .via (State.chgSetPhase_kept ..) rfl (.via (State.showLimit_kept ..) rfl (.via (State.setReg_kept .CHG_TIME ..) rfl
    (.via (State.updCh_kept ..) rfl (.via (State.setFld_kept .CHG_STATE ..) rfl ((State.setFld_kept .CHG_STATE ..).mono rfl)))))

theorem State.chgBegin_driveEn (o : State) (m : Msg) : (o.chgBegin m).driveEn = o.driveEn :=
  ((State.chgBegin_after o m).frame.same .driveEn rfl).trans
    (((State.chgFunctions_kept _).frame.same .driveEn rfl).trans ((State.setUst_kept o ..).frame.same .driveEn rfl))

theorem State.chgBegin_ust {o : State} (here : o.ust U.chg ≠ .absent) (m : Msg) : (o.chgBegin m).ust U.chg = .running :=
  ((State.chgBegin_after o m).frame.ust rfl _).trans ((State.chgFunctions_ust _).trans (State.ust_setUst_self o _ _ here))

theorem State.chgBegin_chg (o : State) (m : Msg) : (o.chgBegin m).chg.Ordered m o.time ∧ (o.chgBegin m).chg.reason = 0 := by
  have record (t : State) (f : ChgSt → ChgSt) : ((t.updCh f).setReg R.CHG_TIME 0).chg = f t.chg := rfl
  rw [State.chgBegin, chgSetPhase_chg, showLimit_chg, record]
  exact ⟨ChgSt.begun_ordered .., rfl⟩

/-- CHG_START: the charger runs the session as it is ordered; only where DRIVE_EN is low does it end at once, with a fault. -/
theorem specChgStart_begins {o : State} (here : o.ust U.chg ≠ .absent) (m : Msg) (k : Nat) : ∃ t, specChgStart.run o m k = (t, .accepted) ∧
    t.ust U.chg = .running ∧ t.chg.Ordered m o.time ∧ (o.driveEn = true → t.chg.reason = 0) := by
  obtain ⟨order, reason⟩ := o.chgBegin_chg m
  have ust := State.chgBegin_ust here m
  have drive := o.chgBegin_driveEn m
  refine ⟨_, specChgStart_run .., ?_⟩
  generalize o.chgBegin m = t at *
  split
  · exact ⟨ust, order, fun _ => reason⟩
  · next low =>
    exact ⟨((State.chgFail_kept ..).frame.ust rfl _).trans ust, order.kept (State.chgFail_order ..), fun high => absurd (drive.trans high) low⟩

theorem acceptLetter_chg (s : State) (m : Msg) (a : Ans) : (acceptLetter s m a).chg = s.chg := (acceptLetter_kept s m a).frame.same .chg rfl

/-- An entry of the outstanding table leaves the charger's phase. -/
theorem State.chgPhase_openOp (s : State) (m : Msg) : (s.openOp m).1.chgPhase = s.chgPhase :=
  congrArg (getF · _) (State.openOp_reg s m (by decide))

/-- A session that ends does so in RAMPDOWN, with STOPPING at the next boundary. -/
theorem State.chgEnd_ends (runs : s.chgPhase ≠ 0) (more : s.chgPhase ≠ 9) (r : Nat) : (s.chgEnd r).chgPhase = 9 ∧
    (s.chgEnd r).chg.rampAt = s.time ∧ (s.chg.reason = 0 → (s.chgEnd r).chg.reason = r) ∧
    HwEvent.move U.chg [.running] .stopping ∈ (s.chgEnd r).po.hw := by
  have reason : s.chgReason r = if s.chgPhase = 0 ∨ (s.chg.reason ≠ 0 ∧ r ≠ 9) then s else
      { s with chg := { s.chg with reason := r, ended := if s.chg.reason = 0 then s.time else s.chg.ended } } := rfl
  rw [State.chgEnd, if_neg (by tauto), State.chgRampdown_chg]
  refine ⟨((State.hwMove_kept ..).frame.chgPhase rfl).trans (State.chgPhase_setPhase (by decide)), (State.chgReason_kept s r).frame.same .time rfl,
    fun first => ?_, State.hwMove_pending ..⟩
  rw [reason, if_neg (by tauto)]

/-- A receipt leaves the charger's phase. -/
theorem State.chgPhase_acceptLetter (s : State) (m : Msg) (a : Ans) : (acceptLetter s m a).chgPhase = s.chgPhase :=
  (acceptLetter_kept s m a).frame.chgPhase rfl

theorem isChg_unit {u : Nat} (h : isChg s u = true) : u = U.chg := by simpa [isChg] using h

/-- A letter to the charger that passes finds a charger. -/
theorem Passes.chg_present {sp : LetterSpec} (p : Passes sp s m) (units : sp.units = isChg) (absent : sp.legal .absent = false) :
    s.ust U.chg ≠ .absent := by
  obtain ⟨unit, legal⟩ := p.unit
  rw [units] at unit
  rw [isChg_unit unit] at legal
  intro e
  rw [e, absent] at legal
  cases legal

/-- A CHG_BMS that ends the session leaves what it carries. -/
theorem State.chgBms_order (s : State) (m : Msg) (k : Nat) : SameOrder { s.chg with
    tMax := m.i16 16, tMin := m.i16 18, bChg := (m.u32 20 : Nat), bDis := (m.u32 24 : Nat), bVmax := (m.u32 28 : Nat),
    bOpen := m.u8 32 = 1, tempKnown := true } (specChgBms.run s m k).1.chg := by
  simp only [specChgBms, doneWith]
  split
  · refine .trans (.of ?_) (State.chgEnd_order _ 5)
    rfl
  · exact .of rfl

/-- CHG_CLEAR: whatever the engines and functions of the charger were in, it is IDLE with no fault recorded. -/
theorem specChgClear_clears (here : s.ust U.chg ≠ .absent) (m : Msg) (k : Nat) : (specChgClear.run s m k).1.ust U.chg = .idle ∧
    (specChgClear.run s m k).1.chg.recorded = 0 ∧ (specChgClear.run s m k).1.chg.hard = false := by
  have engines (l : List Nat) : Kept [.units, .eng, .reg .FEn_ADFAC] s (s.each l fun s n => (s.feClear n).setUst (U.fe n) .idle) :=
    .each (fun t n => .via (State.setUst_kept ..) rfl ((State.feClear_kept ..).mono rfl)) (.refl ..)
  have free (t : State) (l : List Nat) : (t.each l State.ssmFreeFn).chg = t.chg :=
    (Kept.each (fun u f => State.ssmFreeFn_kept u f) (.refl _ t)).frame.same .chg rfl
  have units (t : State) (f : ChgSt → ChgSt) : ((t.updCh f).setFld R.CHG_STATE F.CHG_STATE_FRONT 0).ust U.chg = t.ust U.chg :=
    ((State.setFld_kept .CHG_STATE ..).frame.ust rfl _).trans ((State.updCh_kept ..).frame.ust rfl _)
  simp only [specChgClear, doneWith]
  generalize List.filter _ _ = es
  generalize (_ ++ _ : List Nat) = fs
  rw [free, (State.chgBoundary_kept _).frame.same .chg rfl, State.each_ust fun t f => State.ssmFreeFn_ust t f U.chg, chgB]
  refine ⟨(units ..).trans (State.ust_setUst_kept (engines es) rfl here _), ?_⟩
  generalize State.setUst _ _ _ = t
  exact ⟨rfl, rfl⟩

/-- Settles O20: each letter that passes is its own change of the charger, and the receipt changes no unit. -/
theorem chargerLetters : Obligations.ChargerLetters := by
  intro s m
  refine ⟨fun p => ?_, fun p => ?_, fun p runs more => ?_, fun p => ?_, fun p => ?_, fun p => ?_, fun p => ?_, fun p => ?_⟩
  · have here := p.chg_present rfl rfl
    exact .now rfl p rfl (by simp [specChgArm, doneWith, chgB, State.ust_setUst_self s _ _ here])
  · have here := p.chg_present rfl rfl
    obtain ⟨t, run, ust, ⟨h1, h2, h3, h4, h5, h6, h7⟩, reason⟩ := specChgStart_begins (o := (s.openOp m).1) here m (s.openOp m).2
    refine .later rfl p rfl run ?_
    rw [acceptLetter_ust, acceptLetter_chg]
    exact ⟨ust, h1, h2, h3, h4, h5, h6, h7, reason⟩
  · obtain ⟨phase, ramp, reason, move⟩ := State.chgEnd_ends (s := (s.openOp m).1)
      (by rwa [State.chgPhase_openOp]) (by rwa [State.chgPhase_openOp]) 1
    refine .later rfl p rfl rfl ?_
    rw [State.chgPhase_acceptLetter, (acceptLetter_po ..).hw]
    simp only [acceptLetter_fields]
    exact ⟨phase, ramp, reason, move⟩
  · have here := p.chg_present rfl rfl
    exact .now rfl p rfl (by simp [specChgDisarm, doneWith, chgB, State.ust_setUst_self s _ _ here])
  · refine .now rfl p rfl ?_
    simp only [acceptLetter_fields, specChgLimit, doneWith]
    rw [(limitsChanged_session ..).eq]
    exact ⟨rfl, rfl, rfl, rfl⟩
  · refine .now rfl p rfl ?_
    rw [acceptLetter_chg, ((State.chgBms_order ..).eq : (specChgBms.run s m 0).1.chg = _)]
    exact ⟨rfl, rfl, rfl, rfl, rfl, rfl, rfl⟩
  · have here := p.chg_present rfl rfl
    obtain ⟨idle, cleared, soft⟩ := specChgClear_clears here m 0
    refine .now rfl p rfl ?_
    rw [acceptLetter_ust, acceptLetter_chg]
    exact ⟨idle, cleared, soft⟩
  · exact .now rfl p rfl (by simp [specTransport, doneWith])

end Sys2Proof.Machine
end

section
/-!
The letters of the 48 V and 12 V supplies, accepted (chapter 09).
-/
namespace Sys2Proof.Machine

variable {s t : State} {m : Msg} {n : Nat}

/-! ### Numbers of a letter's body -/

theorem leNat_lt (l : List Byte) : leNat l < 256 ^ l.length := by
  induction l with
  | nil => exact Nat.one_pos
  | cons b l ih =>
    have := b.isLt
    rw [leNat, List.length_cons, Nat.pow_succ]
    omega

theorem leAt_lt (l : List Byte) (off n : Nat) : leAt l off n < 256 ^ n :=
  (leNat_lt _).trans_le (Nat.pow_le_pow_right (by decide) (List.length_take_le ..))

theorem u16_lt (m : Msg) (off : Nat) : m.u16 off < 2 ^ 16 := leAt_lt _ _ 2

/-- A field of a register outside those of a receipt reads as before. -/
theorem acceptLetter_fld (s : State) (m : Msg) (a : Ans) {x : Nat} (h : ¬receiptReg x) (f : Fld) : (acceptLetter s m a).fld x f = s.fld x f :=
  congrArg (getF · f) (acceptLetter_reg s m a h)

/-! ### The regulator's phase and its active phases -/

theorem Frame.regPhase {c : List Part} (h : Frame c s t) (out : c.all (Part.misses R.REG_STATE) = true) : t.regPhase = s.regPhase :=
  h.fld_apart out _

theorem State.regPhase_setRegPhase {p : Nat} (small : p < 16) : (s.setRegPhase p).regPhase = p :=
  (State.fld_setFld _ rfl _).trans (Nat.mod_eq_of_lt small)

/-- The phases of REG_PHn follow after the mask. -/
theorem State.setActive_after (s : State) (m : Nat) : Kept [.reg .REG_PHn]
    ({ s with rgl := { s.rgl with hiz := s.rgl.hiz - (s.rgl.hiz &&& m) } }.setFld R.REG_STATE F.REG_STATE_ACTIVE m) (s.setActive m) :=
  .each (fun _ k => State.setFld_kept (.REG_PHn k) ..) (.refl ..)

@[simp] theorem State.regPhase_setActive (s : State) (m : Nat) : (s.setActive m).regPhase = s.regPhase :=
  ((State.setActive_after s m).frame.regPhase rfl).trans (State.fld_setFld_apart _ _ rfl rfl rfl _)

/-- A start is in SOFTSTART. -/
theorem State.regPhase_regStart (s : State) : s.regStart.regPhase = regSoftStart := by
  unfold State.regStart
  extract_lets s1
  rw [(State.updRg_kept ..).frame.regPhase rfl, (State.regRamp_kept ..).frame.regPhase rfl, State.regPhase_setActive,
    State.regPhase_setRegPhase (by decide)]

theorem State.regPhase_regStop (s : State) : s.regStop.regPhase = regSoftStop := by
  unfold State.regStop
  extract_lets v
  rw [(State.regRamp_kept ..).frame.regPhase rfl, State.regPhase_setActive, State.regPhase_setRegPhase (by decide)]

theorem State.setUst_reg (here : s.ust U.reg ≠ .absent) (st : UState) : (s.setUst U.reg st).ust U.reg = st := State.ust_setUst_self s _ _ here

theorem State.ust_regRun (here : s.ust U.reg ≠ .absent) : s.regRun.ust U.reg = .running := by
  have trims : Kept [.reg .REG_PHn] (s.setUst U.reg .running) ((s.setUst U.reg .running).each (List.range 8) fun s n =>
      s.setFld (R.REG_PHn n) F.REG_PHn_TRIM 0) := .each (fun _ n => State.setFld_kept (.REG_PHn n) ..) (.refl ..)
  rw [State.regRun, (State.regStart_kept _).frame.ust rfl, trims.frame.ust rfl, State.setUst_reg here]

theorem State.ust_regStop (here : s.ust U.reg ≠ .absent) : s.regStop.ust U.reg = .stopping := by
  unfold State.regStop
  extract_lets v
  rw [(State.regRamp_kept ..).frame.ust rfl, (State.setActive_kept ..).frame.ust rfl, (State.setRegPhase_kept ..).frame.ust rfl,
    State.setUst_reg here]

/-! ### The letters -/

theorem isReg_unit {u : Nat} (h : isReg s u = true) : u = U.reg := by simpa [isReg] using h

/-- A letter to the regulator that passes finds a regulator. -/
theorem Passes.reg_present {sp : LetterSpec} (p : Passes sp s m) (units : sp.units = isReg) (absent : sp.legal .absent = false) :
    s.ust U.reg ≠ .absent := by
  obtain ⟨unit, legal⟩ := p.unit
  rw [units] at unit
  rw [isReg_unit unit] at legal
  intro e
  rw [e, absent] at legal
  cases legal

theorem acceptLetter_rgl (s : State) (m : Msg) (a : Ans) : (acceptLetter s m a).rgl = s.rgl := (acceptLetter_kept s m a).frame.same .rgl rfl

/-- REG_CLEAR: the SSM's hold leaves the regulator IDLE, with nothing recorded and the crowbar released. -/
theorem specRegClear_clears (here : s.ust U.reg ≠ .absent) (m : Msg) (k : Nat) : (specRegClear.run s m k).1.ust U.reg = .idle ∧
    (specRegClear.run s m k).1.rgl.recorded = 0 ∧ (specRegClear.run s m k).1.pads.crowbar = false := by
  simp only [specRegClear, doneWith]
  rw [(State.ssmHoldReg_kept ..).frame.ust rfl, (State.ssmHoldReg_kept ..).frame.same .rgl rfl, (State.ssmHoldReg_kept ..).frame.same .pads rfl]
  have pads (t : State) (p : PadSt) : ({ t with pads := p } : State).ust U.reg = t.ust U.reg := rfl
  rw [State.ust_setFld, pads, State.ust_updRg]
  exact ⟨State.setUst_reg here _, rfl, rfl⟩

/-! ### The settings of REG_SET -/

/-- The settings in force are those of a REG_SET. -/
structure State.RegSet (s : State) (v rll en minPh : Nat) : Prop where
  v : s.vSet = v
  rll : s.fld R.REG_TARGET F.REG_TARGET_RLL = rll
  en : s.fld R.REG_SHED F.REG_SHED_EN = en
  minPh : s.fld R.REG_SHED F.REG_SHED_MINPH = minPh

theorem Frame.regSet {c : List Part} (h : Frame c s t) (target : c.all (Part.misses R.REG_TARGET) = true)
    (shed : c.all (Part.misses R.REG_SHED) = true) {v rll en minPh : Nat} (k : s.RegSet v rll en minPh) : t.RegSet v rll en minPh := by
  obtain ⟨h1, h2, h3, h4⟩ := k
  exact ⟨(h.fld_apart target _).trans h1, (h.fld_apart target _).trans h2, (h.fld_apart shed _).trans h3, (h.fld_apart shed _).trans h4⟩

/-- Each field of a register is as wide as its value. -/
theorem State.regApply_regSet {v rll en minPh : Nat} (hv : v < 2 ^ 16) (hr : rll < 2 ^ 16) (he : en < 2) (hm : minPh < 2 ^ 4) :
    (s.regApply v rll en minPh).RegSet v rll en minPh := by
  unfold State.regApply
  refine ⟨?_, ?_, ?_, ?_⟩
  · rw [State.vSet, State.fld_setFld_ne (by decide), State.fld_setFld_ne (by decide), State.fld_setFld_apart _ _ rfl rfl rfl, State.fld_setFld _ rfl]
    exact Nat.mod_eq_of_lt hv
  · rw [State.fld_setFld_ne (by decide), State.fld_setFld_ne (by decide), State.fld_setFld _ rfl]
    exact Nat.mod_eq_of_lt hr
  · rw [State.fld_setFld_apart _ _ rfl rfl rfl, State.fld_setFld _ rfl]
    exact Nat.mod_eq_of_lt he
  · rw [State.fld_setFld _ rfl]
    exact Nat.mod_eq_of_lt hm

theorem State.setActive_rgl (s : State) (m : Nat) : (s.setActive m).rgl = { s.rgl with hiz := s.rgl.hiz - (s.rgl.hiz &&& m) } :=
  (State.setActive_after s m).frame.same .rgl rfl

theorem State.regRestoreAll_next (s : State) : s.regRestoreAll.rgl.next = s.rgl.next := by
  simp only [State.regRestoreAll, State.updRg, State.regFlag, State.setFlag, State.setFld_fields, State.setActive_rgl]

theorem State.updRg_shedHold_next (s : State) (b : Bool) : (s.updRg fun r => { r with shedHold := b }).rgl.next = s.rgl.next := rfl

/-- In HICCUP the settings wait for the next start. -/
theorem State.regSet_hiccup (h : s.regPhase = regHiccup) (v rll en minPh : Nat) :
    s.regSet v rll en minPh = s.updRg fun r => { r with next := some (v, rll, en, minPh) } := if_pos h

/-- Otherwise they apply at once. -/
theorem State.regSet_now (h : s.regPhase ≠ regHiccup) {v rll en minPh : Nat} (hv : v < 2 ^ 16) (hr : rll < 2 ^ 16) (he : en < 2)
    (hm : minPh < 2 ^ 4) : (s.regSet v rll en minPh).RegSet v rll en minPh ∧ (s.regSet v rll en minPh).rgl.next = none := by
  have applied : ((s.regApply v rll en minPh).updRg fun r => { r with next := none }).RegSet v rll en minPh :=
    (State.updRg_kept ..).frame.regSet rfl rfl (State.regApply_regSet hv hr he hm)
  rw [State.regSet, if_neg h]
  generalize eq : (s.regApply v rll en minPh).updRg (fun r => { r with next := none }) = s1
  have next : s1.rgl.next = none := by rw [← eq]; rfl
  rw [eq] at applied
  have ramp (a b : Int) : (s1.regRamp a b).RegSet v rll en minPh ∧ (s1.regRamp a b).rgl.next = none :=
    ⟨(State.regRamp_kept ..).frame.regSet rfl rfl applied, next⟩
  extract_lets was vt _ s2
  have ramped : s2.RegSet v rll en minPh ∧ s2.rgl.next = none := by
    unfold s2; split
    · exact ramp ..
    · exact ⟨applied, next⟩
  clear_value s2
  obtain ⟨set, next⟩ := ramped
  split
  · exact ⟨(State.updRg_kept ..).frame.regSet rfl rfl ((State.regRestoreAll_kept _).frame.regSet rfl rfl set),
      (State.updRg_shedHold_next ..).trans ((State.regRestoreAll_next s2).trans next)⟩
  · exact ⟨set, next⟩

/-- Settles O21: each letter that passes is its own change of the supplies, and the receipt changes no unit. -/
theorem supplyLetters : Obligations.SupplyLetters := by
  intro s m
  refine ⟨fun p => ?_, fun p => ?_, fun p => ?_, fun p => ?_, fun p => ?_, fun p => ?_, fun p => ?_, fun p => ?_, fun p => ?_, fun p => ?_,
    fun p => ?_, fun p => ?_⟩
  · have role := p.unit.1
    exact .now rfl p rfl (by simp [specHlvArm, doneWith, State.fnEnter_ust_fnOf _ _ role])
  · have role := p.unit.1
    refine .later rfl p rfl rfl ?_
    rw [acceptLetter_ust]
    exact State.fnEnter_ust_fnOf (s := s) _ _ role
  · exact .now rfl p rfl (by simp [specHlvSet, doneWith])
  · have role := p.unit.1
    refine .later rfl p rfl rfl ?_
    rw [acceptLetter_ust, (acceptLetter_reads ..).2.2.1]
    exact ⟨State.fnEnter_ust_fnOf (s := s) _ _ role, congrArg HlvSt.stopAt (State.hl_updHl ..)⟩
  · have role := p.unit.1
    exact .now rfl p rfl (by simp [specHlvDisarm, doneWith, State.fnEnter_ust_fnOf _ _ role])
  · have role := p.unit.1
    exact .now rfl p rfl (by simp [specHlvClear, doneWith, State.fnEnter_ust_fnOf _ _ role])
  · have here := p.reg_present rfl rfl
    exact .now rfl p rfl (by simp [specRegArm, doneWith, State.setUst_reg here])
  · have here := p.reg_present rfl rfl
    refine .later rfl p rfl rfl ?_
    rw [acceptLetter_ust, (acceptLetter_kept ..).frame.regPhase rfl]
    exact ⟨State.ust_regRun (s := (s.openOp m).1) here, State.regPhase_regStart _⟩
  · have here := p.reg_present rfl rfl
    refine .later rfl p rfl rfl ?_
    rw [acceptLetter_ust, (acceptLetter_kept ..).frame.regPhase rfl, acceptLetter_rgl]
    exact ⟨State.ust_regStop (s := (s.openOp m).1) here, State.regPhase_regStop _, rfl⟩
  · have here := p.reg_present rfl rfl
    exact .now rfl p rfl (by simp [specRegDisarm, doneWith, State.setUst_reg here])
  · refine .now rfl p rfl ?_
    have fails : specRegSet.fails s m = [] := (verdict_none.mp p).2.2.2.2.1
    simp only [specRegSet, List.append_eq_nil_iff, ite_eq_left_iff, imp_false, not_not, List.cons_ne_nil] at fails
    obtain ⟨en, ok⟩ := fails
    have few : m.u8 21 < 2 ^ 4 := by
      simp only [State.regSetOk, Bool.and_eq_true, decide_eq_true_eq] at ok
      have := List.length_filter_le (bitAt s.regUsed) (List.range 8)
      simp only [phasesOf, List.length_range] at ok this
      omega
    rw [(acceptLetter_kept ..).frame.same .units rfl, acceptLetter_rgl]
    refine ⟨(State.regSet_kept ..).frame.same .units rfl, fun hiccup => ?_, fun now => ?_⟩
    · exact congrArg (fun t : State => t.rgl.next) (State.regSet_hiccup hiccup _ _ _ _)
    · obtain ⟨⟨v, rll, shed, least⟩, next⟩ := State.regSet_now now (u16_lt m 16) (u16_lt m 18) (Nat.lt_succ_of_le en) few
      have target : ¬receiptReg R.REG_TARGET := by unfold receiptReg; decide
      have shedding : ¬receiptReg R.REG_SHED := by unfold receiptReg; decide
      rw [State.flag, acceptLetter_fld _ _ _ shedding, acceptLetter_fld _ _ _ shedding, acceptLetter_fld _ _ _ target, State.vSet,
        acceptLetter_fld _ _ _ target]
      refine ⟨v, rll, ?_, least, next⟩
      rw [show (specRegSet.run s m 0).1.fld R.REG_SHED F.REG_SHED_EN = m.u8 20 from shed]
      interval_cases m.u8 20 <;> rfl
  · have here := p.reg_present rfl rfl
    refine .now rfl p rfl ?_
    obtain ⟨idle, cleared, off⟩ := specRegClear_clears here m 0
    rw [acceptLetter_ust, acceptLetter_rgl, (acceptLetter_kept ..).frame.same .pads rfl]
    exact ⟨idle, cleared, off⟩

end Sys2Proof.Machine
end

section
/-!
The letters of the actuator channels and of the gearbox sequencer, accepted (chapter 10).
-/
namespace Sys2Proof.Machine

variable {s t : State} {m : Msg} {k n : Nat}

/-! ### A channel's phase and what its operations write -/

theorem State.fld_updAc (s : State) (n : Nat) (g : ActSt → ActSt) (a : Nat) (f : Fld) : (s.updAc n g).fld a f = s.fld a f :=
  congrArg (getF · f) (State.reg_updAc ..)

theorem State.acPhase_acOff (s : State) (k : Nat) : (s.acOff k).acPhase k = 0 := by
  rw [State.acOff, State.acPhase, State.fld_updAc, State.setAcPhase, State.fld_setFld _ rfl]
  rfl

theorem State.acPhase_acEnter {p : Nat} (small : p < 16) (s : State) (k : Nat) : (s.acEnter k p).acPhase k = p := by
  rw [State.acEnter, State.acPhase, State.fld_updAc, State.setAcPhase, State.fld_setFld _ rfl]
  exact Nat.mod_eq_of_lt small

/-- Of the registers a channel's operation writes the channel's state only. -/
theorem State.reg_acEnter {a : Nat} (h : a ≠ R.ACk_STATE k) (s : State) (p : Nat) : (s.acEnter k p).reg a = s.reg a := by
  rw [State.acEnter, State.reg_updAc, State.setAcPhase, State.setFld, State.reg_setReg_ne h]

theorem State.reg_acBegin {a : Nat} (h : a ≠ R.ACk_STATE k) (s : State) (goal : Int) (lim : Nat) (hold : Bool) :
    (s.acBegin k goal lim hold).reg a = s.reg a := by
  rw [State.acBegin, State.reg_updAc, State.setFld, State.reg_setReg_ne h, State.reg_acEnter h]

theorem State.reg_acAim {a : Nat} (h : a ≠ R.ACk_STATE k) (s : State) (goal : Int) (lim : Nat) (hold now : Bool) :
    (s.acAim k goal lim hold now).reg a = s.reg a := by
  unfold State.acAim
  split
  · extract_lets s1
    split
    · exact (State.reg_acEnter h s1 5).trans (State.reg_updAc ..)
    · exact State.reg_updAc ..
  · split
    · exact (State.reg_acBegin h ..).trans (State.reg_setUst ..)
    · rfl

theorem State.acBegin_phase (s : State) (k : Nat) (goal : Int) (lim : Nat) (hold : Bool) : (s.acBegin k goal lim hold).acPhase k = 1 := by
  rw [State.acBegin, State.acPhase, State.fld_updAc, State.fld_setFld_apart _ _ rfl rfl rfl]
  exact State.acPhase_acEnter (by decide) s k

theorem State.acBegin_attempt (s : State) (k : Nat) (goal : Int) (lim : Nat) (hold : Bool) :
    (s.acBegin k goal lim hold).fld (R.ACk_STATE k) F.ACk_STATE_ATTEMPT = 1 := by
  rw [State.acBegin, State.fld_updAc, State.fld_setFld _ rfl]
  rfl

theorem State.acBegin_ac (s : State) (k : Nat) (goal : Int) (lim : Nat) (hold : Bool) :
    ((s.acBegin k goal lim hold).ac k).goal = goal ∧ ((s.acBegin k goal lim hold).ac k).lim = lim := by
  simp [State.acBegin]

/-- A channel that stops has no goal; outside RUN and HOLD it has no phase either. -/
theorem State.acStop_ac (s : State) (k : Nat) : ((s.acStop k).ac k).goal = 0 := by
  unfold State.acStop
  extract_lets s1
  have goal : (s1.ac k).goal = 0 := by simp [s1]
  clear_value s1
  split
  · exact goal
  · have phase : (s1.setAcPhase k 0).ac k = s1.ac k :=
      congrArg (fun q => FMap.get actDefault q k) (rfl : (s1.setAcPhase k 0).act = s1.act)
    rw [State.acOff, State.ac_updAc, phase]
    exact goal

theorem State.acStop_phase (h6 : s.acPhase k ≠ 6) (h7 : s.acPhase k ≠ 7) : (s.acStop k).acPhase k = 0 := by
  rw [State.acStop, if_neg (by tauto)]
  exact State.acPhase_acOff ..

/-- The check of a channel joins the line of its checks. -/
theorem State.leakStart_leak (s : State) (k why : Nat) : ((s.leakStart k why).ac k).leak = (s.ac k).leak ++ [why] := by
  simp [State.leakStart]

theorem isAc_unit {m : Msg} (h : isAc s m.letter.unit = true) : acOf m < 4 ∧ m.unit = U.ac (acOf m) := by
  simp only [isAc, Bool.and_eq_true, decide_eq_true_eq] at h
  simp only [acOf, U.ac, Msg.unit]
  omega

theorem not_receiptReg_acState (h : k < 4) : ¬receiptReg (R.ACk_STATE k) := by
  interval_cases k <;> (unfold receiptReg; decide)

theorem acceptLetter_acPhase (s : State) (m : Msg) (a : Ans) (h : k < 4) : (acceptLetter s m a).acPhase k = s.acPhase k :=
  acceptLetter_fld s m a (not_receiptReg_acState h) _

/-! ### The sequencer's operation -/

/-- From s to t the sequencer's state of record and what it is about are the same. -/
structure SameMove (s t : State) : Prop where
  ust : t.ust U.gbx = s.ust U.gbx
  op : t.gbxOp = s.gbxOp
  target : t.gbx.target = s.gbx.target
  started : t.gbx.started = s.gbx.started

theorem SameMove.trans {u : State} (h : SameMove s t) (k : SameMove t u) : SameMove s u :=
  ⟨k.ust.trans h.ust, k.op.trans h.op, k.target.trans h.target, k.started.trans h.started⟩

theorem State.acAim_sameMove (s : State) (k : Nat) (h : k < 3) (goal : Int) (lim : Nat) (hold now : Bool) :
    SameMove s (s.acAim k goal lim hold now) := by
  have gbx := (State.acAim_kept s k goal lim hold now).frame.same .gbx rfl
  refine ⟨?_, congrArg (getF · _) (State.reg_acAim (by simp only [R.GBX_STATE, R.ACk_STATE]; omega) ..), congrArg GbxSt.target gbx,
    congrArg GbxSt.started gbx⟩
  unfold State.acAim
  split
  · extract_lets s1
    split
    · exact ((State.acEnter_kept s1 k 5).frame.ust rfl _).trans (State.ust_updAc ..)
    · exact State.ust_updAc ..
  · split
    · exact ((State.acBegin_kept ..).frame.ust rfl _).trans (State.ust_setUst_ne s _ (by simp only [U.gbx, U.ac]; omega))
    · rfl

theorem State.updGb_sameMove (s : State) {g : GbxSt → GbxSt} (h : ∀ x, (g x).target = x.target ∧ (g x).started = x.started) :
    SameMove s (s.updGb g) := ⟨rfl, rfl, (h s.gbx).1, (h s.gbx).2⟩

theorem State.moveBegin_sameMove (s : State) (k : Nat) (h : k < 3) (to_ : Nat) (now : Bool) : SameMove s (s.moveBegin k to_ now) := by
  unfold State.moveBegin
  refine .trans ?_ (State.acAim_sameMove _ k h ..)
  exact State.updGb_sameMove s fun _ => ⟨rfl, rfl⟩

theorem State.gbxGo_sameMove (s : State) (p : Nat) : SameMove s (s.gbxGo p) :=
  SameMove.trans (t := s.setFld R.GBX_STATE F.GBX_STATE_PHASE p) ⟨rfl, State.fld_setFld_apart _ _ rfl rfl rfl _, rfl, rfl⟩
    (State.updGb_sameMove _ fun _ => ⟨rfl, rfl⟩)

theorem State.fld_updGb (s : State) (g : GbxSt → GbxSt) (a : Nat) (f : Fld) : (s.updGb g).fld a f = s.fld a f :=
  congrArg (getF · f) (rfl : (s.updGb g).reg a = s.reg a)

/-- The sequencer with an operation set up, before its first phase. -/
def State.gbxSetUp (s : State) (op mech target : Nat) : State :=
  (s.setFld R.GBX_STATE F.GBX_STATE_OP op).updGb fun g =>
    { g with target := target, old := s.gbxReport mech, mech := mech, started := s.time, retries := 0, synced := s.machRuns mech, lost := false,
             back := false, final := .done, moveTo := 0, blocked := false, parkWait := false }

/-- The first phase of an operation leaves what it is about. -/
theorem State.gbxBegin_sameMove (s : State) (op mech target : Nat) : SameMove (s.gbxSetUp op mech target) (s.gbxBegin op mech target) := by
  have go {u v : State} (h : SameMove u v) (p : Nat) : SameMove u (v.gbxGo p) := h.trans (State.gbxGo_sameMove v p)
  have move {u v : State} (h : SameMove u v) (k : Nat) (few : k < 3) (to_ : Nat) : SameMove u (v.moveBegin k to_ true) :=
    h.trans (State.moveBegin_sameMove v k few to_ true)
  have same (u : State) : SameMove u u := ⟨rfl, rfl, rfl, rfl⟩
  unfold State.gbxBegin
  extract_lets old runs s1 f _ s2
  have h1 : SameMove (s.gbxSetUp op mech target) s1 := same _
  have h2 : SameMove (s.gbxSetUp op mech target) s2 := ⟨rfl, rfl, rfl, rfl⟩
  clear_value s1 s2
  split
  · split
    · split
      · exact move (go h2 4) 0 (by decide) target
      · exact move (go h2 2) 0 (by decide) 3
    · split
      · exact go h2 3
      · exact go (h2.trans (State.acAim_sameMove _ 0 (by decide) ..)) 1
  · split
    · exact move (go h1 _) 2 (by decide) target
    · split
      · exact go h1 3
      · exact go h1 1
  · exact move h1 1 (by decide) target

theorem State.gbxOp_gbxSetUp {op : Nat} (small : op < 16) (s : State) (mech target : Nat) : (s.gbxSetUp op mech target).gbxOp = op := by
  rw [State.gbxSetUp, State.gbxOp, State.fld_updGb, State.fld_setFld _ rfl]
  exact Nat.mod_eq_of_lt small

theorem isGbx_unit {u : Nat} (h : isGbx s u = true) : u = U.gbx := by simpa [isGbx] using h

/-- A letter to the sequencer that passes finds it in a state that the letter allows. -/
theorem Passes.gbx_legal {sp : LetterSpec} (p : Passes sp s m) (units : sp.units = isGbx) : sp.legal (s.ust U.gbx) = true := by
  obtain ⟨unit, legal⟩ := p.unit
  rw [units] at unit
  rwa [isGbx_unit unit] at legal

/-- What waits for the boundary waits still after an operation's end is recorded. -/
theorem State.mem_hw_finishOp {e : HwEvent} (h : e ∈ s.po.hw) (u o : Nat) (st : Status) (r : List Byte) : e ∈ (s.finishOp u o st r).po.hw := by
  unfold State.finishOp
  split
  · exact h
  · unfold State.hwFinish
    split
    · exact h
    · exact List.mem_append_left _ h

theorem State.ac_setUst (s : State) (u : Nat) (st : UState) (k : Nat) : (s.setUst u st).ac k = s.ac k := by
  rw [State.ac, (State.setUst_kept s u st).frame.same .act rfl, State.ac]

/-- Each channel of the list that is IDLE joins one check to its line; the others stay as they are. -/
theorem State.each_leakStart {l : List Nat} (once : l.Nodup) (s : State) (k : Nat) (idle : s.ust (U.ac k) = .idle) :
    ((s.each l fun s k => if s.ust (U.ac k) = .idle then s.leakStart k 1 else s).ac k).leak = (s.ac k).leak ++ (if k ∈ l then [1] else []) := by
  induction l generalizing s with
  | nil => simp [State.each]
  | cons x l ih =>
    obtain ⟨fresh, rest⟩ := List.nodup_cons.mp once
    simp only [State.each, List.foldl_cons] at ih ⊢
    by_cases here : k = x
    · subst x
      have idle' : (s.leakStart k 1).ust (U.ac k) = .idle := idle
      rw [if_pos idle, ih rest _ idle', State.leakStart_leak, if_neg fresh, List.append_nil, if_pos List.mem_cons_self]
    · have mem : (k ∈ x :: l) ↔ k ∈ l := by simp [here]
      split
      · have other : (s.leakStart x 1).ac k = s.ac k := State.ac_updAc_ne s x _ here
        have idle' : (s.leakStart x 1).ust (U.ac k) = .idle := idle
        rw [ih rest _ idle', other]
        simp only [mem]
      · rw [ih rest _ idle]
        simp only [mem]

theorem State.gbxOp_openOp (s : State) (m : Msg) : (s.openOp m).1.gbxOp = s.gbxOp := congrArg (getF · _) (State.openOp_reg s m (by decide))

theorem State.gbxReport_openOp (s : State) (m : Msg) (n : Nat) : (s.openOp m).1.gbxReport n = s.gbxReport n :=
  congrArg (getF · _) (State.openOp_reg s m (by decide))

theorem acceptLetter_gbxOp (s : State) (m : Msg) (a : Ans) : (acceptLetter s m a).gbxOp = s.gbxOp :=
  acceptLetter_fld s m a (by unfold receiptReg; decide) _

/-- A sequencer operation, accepted: answered at once where its target is reported, else begun. -/
theorem specGbxMove_answers {op : Nat} (small : op < 16) {c : Instr} (e : exec c s = .next (deliver (specGbxMove op) s m))
    (p : Passes (specGbxMove op) s m) : Answers c s fun t => t.ust U.gbx = .running ∧
    (s.gbxReport (op - 1) = targetReport op (m.u8 16) → t = acceptLetter s m (.done [BitVec.ofNat 8 (targetReport op (m.u8 16))] none)) ∧
    (s.gbxReport (op - 1) ≠ targetReport op (m.u8 16) → t.gbxOp = op ∧ t.gbx.target = targetReport op (m.u8 16) ∧ t.gbx.started = s.time) := by
  have runs : s.ust U.gbx = .running := by simpa [specGbxMove] using p.gbx_legal rfl
  by_cases there : s.gbxReport (op - 1) = targetReport op (m.u8 16)
  · have run : (specGbxMove op).run s m 0 = (s, .done (leBytes 1 (targetReport op (m.u8 16))) none) := if_pos there
    refine .now e p (by simp [specGbxMove, there]) ?_
    rw [run]
    exact ⟨(acceptLetter_ust ..).trans runs, fun _ => rfl, fun away => absurd there away⟩
  · refine .later e p (by simp [specGbxMove, there]) (if_neg (by rwa [State.gbxReport_openOp])) ?_
    obtain ⟨ust, gop, target, started⟩ := State.gbxBegin_sameMove (s.openOp m).1 op (op - 1) (targetReport op (m.u8 16))
    rw [State.gbxSetUp, State.ust_updGb, State.ust_setFld, State.ust_openOp, runs] at ust
    rw [acceptLetter_ust, acceptLetter_gbxOp, (acceptLetter_kept ..).frame.same .gbx rfl]
    exact ⟨ust, fun here => absurd here there, fun _ => ⟨gop.trans (State.gbxOp_gbxSetUp small ..), target, started⟩⟩

/-- Settles O22: each letter that passes is its own change of a channel or of the sequencer, and the receipt changes no unit. -/
theorem actuatorLetters : Obligations.ActuatorLetters := by
  intro s m
  have present {sp : LetterSpec} (p : Passes sp s m) (units : sp.units = isAc) (absent : sp.legal .absent = false) :
      acOf m < 4 ∧ s.ust m.unit ≠ .absent := by
    obtain ⟨unit, legal⟩ := p.unit
    rw [units] at unit
    exact ⟨(isAc_unit unit).1, fun e => by rw [show s.ust m.letter.unit = .absent from e, absent] at legal; cases legal⟩
  have seqPresent {sp : LetterSpec} (p : Passes sp s m) (units : sp.units = isGbx) (absent : sp.legal .absent = false) :
      s.ust U.gbx ≠ .absent := fun e => by
    have legal := p.gbx_legal units
    rw [e, absent] at legal
    cases legal
  refine ⟨fun p => ?_, fun p => ?_, fun p => ?_, fun p => ?_, fun p => ?_, fun p => ?_, fun p => ?_, fun p => ?_, fun p => ?_,
    fun p => specGbxMove_answers (op := 1) (by decide) rfl p, fun p => specGbxMove_answers (op := 2) (by decide) rfl p,
    fun p => specGbxMove_answers (op := 3) (by decide) rfl p, fun p => ?_⟩
  · refine .later rfl p rfl rfl ?_
    rw [(acceptLetter_reads ..).2.2.2.1]
    exact State.leakStart_leak ..
  · obtain ⟨few, here⟩ := present p rfl rfl
    refine .later rfl p rfl rfl ?_
    rw [acceptLetter_ust, (acceptLetter_reads ..).2.2.2.1, acceptLetter_acPhase _ _ _ few,
      acceptLetter_fld _ _ _ (not_receiptReg_acState few), (State.acBegin_kept ..).frame.ust rfl]
    obtain ⟨goal, lim⟩ := State.acBegin_ac ((s.openOp m).1.setUst m.unit .running) (acOf m) (m.i32 16) (m.u16 20) false
    exact ⟨State.ust_setUst_self _ _ _ here, State.acBegin_phase .., goal, lim, State.acBegin_attempt ..⟩
  · exact .now rfl p rfl (by simp [specActSpeed, doneWith, State.acSpeed])
  · obtain ⟨few, here⟩ := present p rfl rfl
    refine .later rfl p rfl rfl ?_
    rw [acceptLetter_ust, (acceptLetter_reads ..).2.2.2.1, acceptLetter_acPhase _ _ _ few, (State.acStop_kept ..).frame.ust rfl]
    refine ⟨State.ust_setUst_self _ _ _ here, State.acStop_ac .., fun h6 h7 => ?_⟩
    have phase : ((s.openOp m).1.setUst m.unit .stopping).acPhase (acOf m) = s.acPhase (acOf m) := by
      rw [State.acPhase, State.fld, State.reg_setUst, State.openOp_reg _ _ (by simp only [R.ACk_STATE, R.PST_OUTST]; omega)]
      rfl
    exact State.acStop_phase (by rwa [phase]) (by rwa [phase])
  · have here := (present p rfl rfl).2
    exact .now rfl p rfl (by simp [specActDisarm, doneWith, State.ust_setUst_self s _ _ here])
  · have here := (present p rfl rfl).2
    refine .now rfl p rfl ?_
    simp only [specActClear, doneWith]
    rw [acceptLetter_ust, (acceptLetter_reads ..).2.2.2.1, (State.ssmFreeAct_kept ..).frame.ust rfl, State.ac,
      (State.ssmFreeAct_kept ..).frame.same .act rfl]
    rw [State.ust_updAc, State.ust_setFld]
    exact ⟨State.ust_setUst_self s _ _ here, congrArg ActSt.recorded (State.ac_updAc ..)⟩
  · refine .later rfl p rfl rfl ?_
    rw [(acceptLetter_reads ..).2.2.2.1]
    exact ⟨(acceptLetter_kept ..).frame.same .units rfl, State.leakStart_leak ..⟩
  · have here := seqPresent p rfl rfl
    refine .now rfl p rfl ?_
    simp only [specGbxRun, doneWith]
    rw [acceptLetter_ust, (State.gbxArm_kept _).frame.ust rfl]
    refine ⟨State.ust_setUst_self s _ _ here, fun k few owned idle => ?_⟩
    rw [(acceptLetter_reads ..).2.2.2.1, State.gbxArm, State.each_leakStart (List.nodup_range.filter _) _ k ?_, State.ac_setUst]
    · have mem : k ∈ (List.range 3).filter ((s.setUst U.gbx .running).acOwned) := by
        refine List.mem_filter.mpr ⟨List.mem_range.mpr few, ?_⟩
        rw [State.acOwned, State.flag, State.fld, State.reg_setUst]
        exact owned
      rw [if_pos mem]
    · rw [State.ust_setUst_ne s _ (by simp only [U.ac, U.gbx]; omega), idle]
  · have here := seqPresent p rfl rfl
    refine .later rfl p rfl rfl ?_
    rw [acceptLetter_ust, (acceptLetter_po ..).hw, (State.gbxSettle_kept _).frame.ust rfl]
    have stops : ((s.openOp m).1.setUst U.gbx .stopping).ust U.gbx = .stopping := State.ust_setUst_self _ _ _ here
    have op : ((s.openOp m).1.setUst U.gbx .stopping).gbxOp = s.gbxOp :=
      (congrArg (getF · _) (State.reg_setUst ..)).trans (State.gbxOp_openOp s m)
    refine ⟨stops, fun none => ?_⟩
    rw [State.gbxSettle, if_pos ⟨stops, op.trans none⟩]
    exact State.mem_hw_finishOp (State.hwMove_pending ..) ..
  · have here := seqPresent p rfl rfl
    refine .now rfl p rfl ?_
    simp only [specGbxClear, doneWith]
    rw [acceptLetter_ust, (acceptLetter_kept ..).frame.same .gbx rfl, State.ust_updGb]
    exact ⟨State.ust_setUst_self s _ _ here, rfl⟩

end Sys2Proof.Machine
end

section
/-!
The letters of the field engines and the gate drivers, accepted (chapters 04 and 05).
-/
namespace Sys2Proof.Machine

variable {s t : State} {m : Msg} {k n : Nat}

/-- The registers of the engines and above are outside those of a receipt. -/
theorem not_receiptReg_engine {a : Nat} (h : 0x40100000 ≤ a) : ¬receiptReg a := by
  simp only [receiptReg, List.mem_cons, List.not_mem_nil, or_false, R.NVS_EVT, R.NVS_JLOST, R.NVS_JSEQ, R.PST_DLJ_CNT, R.PST_DLJ_LOST,
    R.MEM_INJ]
  omega

theorem acceptLetter_units (s : State) (m : Msg) (a : Ans) : (acceptLetter s m a).units = s.units := (acceptLetter_kept s m a).frame.same .units rfl

/-! ### Adaptation factors and FE_CLEAR -/

/-- An engine whose factors are to be reset at a time has factors of 1.0 from that time (R105). -/
theorem State.factors_of_reset {x : Nat} (h : (s.e n).resetAt = some x) (due : x ≤ s.time) : s.factors n = 0x10001000 := by
  simp [State.factors, State.resetDue, h, due]

/-- What FE_CLEAR makes of an engine in FAULT. -/
structure State.FeCleared (s : State) (n : Nat) : Prop where
  ust : s.ust (U.fe n) = .idle
  cause : (s.e n).cause = 0
  factors : s.reg (R.FEn_ADFAC n) = 0x10001000

/-- One engine of the pair, as FE_CLEAR takes it. -/
def State.feClearOne (s : State) (n : Nat) : State := if s.ust (U.fe n) = .fault then (s.feClear n).setUst (U.fe n) .idle else s

theorem State.e_setUst (s : State) (u : Nat) (st : UState) (n : Nat) : (s.setUst u st).e n = s.e n := by
  rw [State.e, (State.setUst_kept s u st).frame.same .eng rfl, State.e]

theorem State.feClear_cause (s : State) (n : Nat) : ((s.feClear n).e n).cause = 0 := by
  rw [State.feClear, State.resetFactors, State.e_updE, show ∀ t : State, (t.setReg (R.FEn_ADFAC n) 0x10001000).e n = t.e n from fun _ => rfl,
    State.e_updE]

theorem State.feClear_e_ne (h : n ≠ k) (s : State) : (s.feClear k).e n = s.e n := by
  rw [State.feClear, State.resetFactors, State.e_updE_ne _ _ _ h, show ∀ t : State, (t.setReg (R.FEn_ADFAC k) 0x10001000).e n = t.e n from
    fun _ => rfl, State.e_updE_ne _ _ _ h]

theorem State.feClear_cleared (fault : s.ust (U.fe n) = .fault) : ((s.feClear n).setUst (U.fe n) .idle).FeCleared n := by
  have present : s.ust (U.fe n) ≠ .absent := fun e => by rw [e] at fault; cases fault
  refine ⟨State.ust_setUst_kept (State.feClear_kept s n) rfl present _, ?_, ?_⟩
  · rw [State.e_setUst, State.feClear_cause]
  · rw [State.reg_setUst]
    exact State.reg_setReg ..

/-- Clearing one engine leaves another as it is. -/
theorem State.feClearOne_other (h : n ≠ k) (s : State) : (s.feClearOne k).ust (U.fe n) = s.ust (U.fe n) ∧ (s.feClearOne k).e n = s.e n ∧
    (s.feClearOne k).reg (R.FEn_ADFAC n) = s.reg (R.FEn_ADFAC n) := by
  unfold State.feClearOne
  split
  · refine ⟨?_, ?_, ?_⟩
    · rw [State.ust_setUst_ne _ _ (by simp only [U.fe]; omega), (State.feClear_kept s k).frame.ust rfl]
    · rw [State.e_setUst, State.feClear_e_ne h]
    · rw [State.reg_setUst]
      exact State.reg_setReg_ne (by simp only [R.FEn_ADFAC]; omega) _
  · exact ⟨rfl, rfl, rfl⟩

theorem State.FeCleared.feClearOne (h : s.FeCleared n) (k : Nat) : (s.feClearOne k).FeCleared n := by
  by_cases e : n = k
  · subst e
    rwa [State.feClearOne, if_neg (by rw [h.ust]; decide)]
  · obtain ⟨ust, eng, reg⟩ := State.feClearOne_other e s
    exact ⟨ust.trans h.ust, (congrArg Engine.cause eng).trans h.cause, reg.trans h.factors⟩

/-- A pair's clear takes every engine of it that is in FAULT. -/
theorem State.each_feClearOne {l : List Nat} (mem : n ∈ l) (s : State) (fault : s.ust (U.fe n) = .fault ∨ s.FeCleared n) :
    (s.each l State.feClearOne).FeCleared n := by
  have cleared (l : List Nat) : ∀ s : State, s.FeCleared n → (s.each l State.feClearOne).FeCleared n := by
    induction l with
    | nil => exact fun _ h => h
    | cons x l ih => exact fun s h => ih _ (h.feClearOne x)
  induction l generalizing s with
  | nil => cases mem
  | cons x l ih =>
    rcases fault with fault | done
    · by_cases e : n = x
      · subst e
        refine cleared l _ ?_
        rw [State.feClearOne, if_pos fault]
        exact State.feClear_cleared fault
      · exact ih ((List.mem_cons.mp mem).resolve_left e) _ (.inl ((State.feClearOne_other e s).1.trans fault))
    · exact cleared _ _ done

/-! ### A driver's register command -/

/-- A command waits in its link's queue, or behind it. -/
theorem State.glQueue_waits (s : State) (k : Nat) (c : GlCmd) : c ∈ ((s.glQueue k c).glLink k).queue ++ ((s.glQueue k c).glLink k).owed := by
  have sync (t : State) : (t.glSync k).glLink k = t.glLink k := rfl
  rw [State.glQueue, sync, State.glLink_updGl]
  split <;> simp

theorem State.drvRun_waits (pos : s.legAtPos (fnOf m) (m.u8 16) = some n) (key : Nat) (w : Bool) (data : Nat) :
    (⟨(s.glOf n).2, .letter key w m.unit, m.u8 17, data, 0⟩ : GlCmd) ∈
      ((s.drvRun m key w data).glLink (s.glOf n).1).queue ++ ((s.drvRun m key w data).glLink (s.glOf n).1).owed := by
  rw [State.drvRun, pos]
  exact State.glQueue_waits ..

theorem acceptLetter_glLink (s : State) (m : Msg) (a : Ans) (k : Nat) : (acceptLetter s m a).glLink k = s.glLink k := by
  simp only [acceptLetter_reads]

theorem State.legAtPos_openOp (s : State) (m : Msg) (f p : Nat) : (s.openOp m).1.legAtPos f p = s.legAtPos f p := State.withImg_congr rfl ..

theorem State.glOf_openOp (s : State) (m : Msg) (n : Nat) : (s.openOp m).1.glOf n = s.glOf n := by
  rw [State.glOf, State.fld, State.fld, State.openOp_reg _ _ (by simp only [R.MOD_LCFGn, R.PST_OUTST]; omega)]
  rfl

/-! ### The letters -/

theorem feOf_lt {m : Msg} (h : isFe m.letter.unit = true) : feOf m < 8 := by
  simp only [isFe, Bool.and_eq_true, decide_eq_true_eq] at h
  simp only [feOf, Msg.unit]
  omega

/-- FE_HARM, accepted: the two words of the channel. -/
theorem specFeHarm_words (m : Msg) (s : State) (key : Nat) :
    (specFeHarm.run s m key).1.reg (R.FEn_HCFGk (feOf m) (m.u8 16)) = BitVec.ofNat 32 (m.u16 24 * 65536 + m.u16 18 % 256 * 256 + m.u8 17 % 16) ∧
    (specFeHarm.run s m key).1.reg (R.FEn_HAMPk (feOf m) (m.u8 16)) = BitVec.ofNat 32 (m.u16 22 * 65536 + m.u16 20) :=
  ⟨(State.reg_setReg_ne (by simp only [R.FEn_HCFGk, R.FEn_HAMPk]; omega) _).trans (State.reg_setReg _), State.reg_setReg _⟩

/-- FE_GAINS, accepted: its three words. -/
theorem specFeGains_words (m : Msg) (s : State) (key : Nat) :
    (specFeGains.run s m key).1.reg (R.FEn_GAINS (feOf m)) = BitVec.ofNat 32 (m.u16 18 * 65536 + m.u16 16) ∧
    (specFeGains.run s m key).1.reg (R.FEn_OUTKP (feOf m)) = BitVec.ofNat 32 (m.u32 20) ∧
    (specFeGains.run s m key).1.reg (R.FEn_OUTKI (feOf m)) = BitVec.ofNat 32 (m.u32 24) :=
  ⟨(State.reg_setReg_ne (by simp only [R.FEn_GAINS, R.FEn_OUTKI]; omega) _).trans
      ((State.reg_setReg_ne (by simp only [R.FEn_GAINS, R.FEn_OUTKP]; omega) _).trans (State.reg_setReg _)),
    (State.reg_setReg_ne (by simp only [R.FEn_OUTKP, R.FEn_OUTKI]; omega) _).trans (State.reg_setReg _), State.reg_setReg _⟩

/-- FE_ADAPT with an action that sets RUN. -/
theorem specFeAdapt_run {v : Nat} (h : m.u8 16 = v) (few : v ≤ 1) (key : Nat) : specFeAdapt.run s m key =
    (s.setFld (R.FEn_ADAPT (feOf m)) F.FEn_ADAPT_RUN v, .done (leBytes 4 (s.factors (feOf m))) none) := by
  simp only [specFeAdapt, h]
  interval_cases v <;> rfl

/-- FE_ADAPT with the reset of the factors. -/
theorem specFeAdapt_reset (h : m.u8 16 = 2) (key : Nat) : specFeAdapt.run s m key =
    ((s.settleReset (feOf m)).updE (feOf m) fun e => { e with resetAt := some (s.time + 1000) }, .done (leBytes 4 (s.factors (feOf m))) none) := by
  simp only [specFeAdapt, h]

/-- Settles O23: each letter that passes is its own change of an engine or of a gate link, and the receipt changes no unit. -/
theorem engineLetters : Obligations.EngineLetters := by
  intro s m
  refine ⟨fun p => ?_, fun p => ?_, fun p => ?_, fun p => ?_, fun p n pos => ?_, fun p n pos => ?_⟩
  · obtain ⟨cfg, amp⟩ := specFeHarm_words m s 0
    refine .now rfl p rfl ⟨(acceptLetter_units ..).trans ((specFeHarm_kept ..).frame.same .units rfl), ?_, ?_⟩
    · exact (acceptLetter_reg _ _ _ (not_receiptReg_engine (by simp only [R.FEn_HCFGk]; omega))).trans cfg
    · exact (acceptLetter_reg _ _ _ (not_receiptReg_engine (by simp only [R.FEn_HAMPk]; omega))).trans amp
  · have adapt := not_receiptReg_engine (a := R.FEn_ADAPT (feOf m)) (by simp only [R.FEn_ADAPT]; omega)
    have runs {v : Nat} (h : m.u8 16 = v) (few : v ≤ 1) :
        (acceptLetter (specFeAdapt.run s m 0).1 m (specFeAdapt.run s m 0).2).fld (R.FEn_ADAPT (feOf m)) F.FEn_ADAPT_RUN = v := by
      rw [acceptLetter_fld _ _ _ adapt, specFeAdapt_run h few]
      exact (State.fld_setFld _ rfl _).trans (Nat.mod_eq_of_lt (Nat.lt_succ_of_le few))
    refine .now rfl p rfl ⟨(acceptLetter_units ..).trans ?_, fun h => runs h (by decide), fun h => runs h (by decide), fun few => ?_, fun h => ?_⟩
    · simp only [specFeAdapt]
      split
      · rfl
      · rfl
      · exact (State.settleReset_kept ..).frame.same .units rfl
    · rw [specFeAdapt_run rfl few]
    · rw [specFeAdapt_reset h]
      have at_ : ((acceptLetter ((s.settleReset (feOf m)).updE (feOf m) fun e => { e with resetAt := some (s.time + 1000) }) m
          (.done (leBytes 4 (s.factors (feOf m))) none)).e (feOf m)).resetAt = some (s.time + 1000) := by
        rw [(acceptLetter_reads ..).1, State.e_updE]
      exact ⟨at_, State.factors_of_reset at_ le_rfl⟩
  · obtain ⟨gains, kp, ki⟩ := specFeGains_words m s 0
    refine .now rfl p rfl ⟨(acceptLetter_units ..).trans ((specFeGains_kept ..).frame.same .units rfl), ?_, ?_, ?_⟩
    · exact (acceptLetter_reg _ _ _ (not_receiptReg_engine (by simp only [R.FEn_GAINS]; omega))).trans gains
    · exact (acceptLetter_reg _ _ _ (not_receiptReg_engine (by simp only [R.FEn_OUTKP]; omega))).trans kp
    · exact (acceptLetter_reg _ _ _ (not_receiptReg_engine (by simp only [R.FEn_OUTKI]; omega))).trans ki
  · refine .now rfl p rfl fun n pair fault => ?_
    obtain ⟨ust, cause, factors⟩ := State.each_feClearOne pair s (.inl fault)
    rw [acceptLetter_ust, (acceptLetter_reads ..).1, acceptLetter_reg _ _ _ (not_receiptReg_engine (by simp only [R.FEn_ADFAC]; omega))]
    exact ⟨ust, cause, factors⟩
  · refine .later rfl p rfl rfl ⟨(acceptLetter_units ..).trans ((State.drvRun_kept ..).frame.same .units rfl), ?_⟩
    rw [acceptLetter_glLink, ← State.glOf_openOp s m n]
    exact State.drvRun_waits ((State.legAtPos_openOp ..).trans pos) ..
  · refine .later rfl p rfl rfl ⟨(acceptLetter_units ..).trans ((State.drvRun_kept ..).frame.same .units rfl), ?_⟩
    rw [acceptLetter_glLink, ← State.glOf_openOp s m n]
    exact State.drvRun_waits ((State.legAtPos_openOp ..).trans pos) ..

end Sys2Proof.Machine
end

section
/-!
The letters of the round converters, the position sources and the SENT inputs, accepted (chapter 06).
-/
namespace Sys2Proof.Machine

variable {s t : State} {m : Msg} {k n : Nat}

/-- What one round of a loop makes, and every other round keeps, holds after the loop. -/
theorem State.each_makes {α : Type} {P : State → Prop} {f : State → α → State} {x : α} {l : List α} (mem : x ∈ l) (make : ∀ t, P (f t x))
    (keep : ∀ t y, P t → P (f t y)) (s : State) : P (s.each l f) := by
  have kept (l : List α) : ∀ t : State, P t → P (t.each l f) := by
    induction l with
    | nil => exact fun _ h => h
    | cons y l ih => exact fun t h => ih _ (keep t y h)
  induction l generalizing s with
  | nil => cases mem
  | cons y l ih =>
    rcases List.mem_cons.mp mem with rfl | mem
    · exact kept l _ (make s)
    · exact ih mem _

/-! ### A unit that starts and stops -/

theorem isRnd_unit {m : Msg} (h : isRnd s m.letter.unit = true) : rndOf m < 2 ∧ m.unit = U.rnd (rndOf m) := by
  simp only [isRnd, Bool.or_eq_true, beq_iff_eq, U.rnd] at h
  simp only [rndOf, U.rnd, Msg.unit]
  omega

/-- A letter that passes finds its unit present where its own check on the state leaves none absent. -/
theorem Passes.present {sp : LetterSpec} (p : Passes sp s m) (absent : sp.legal .absent = false) : s.ust m.unit ≠ .absent := fun e => by
  have legal := p.unit.2
  rw [show s.ust m.letter.unit = .absent from e, absent] at legal
  cases legal

theorem acceptLetter_rd (s : State) (m : Msg) (a : Ans) (k : Nat) : (acceptLetter s m a).rd k = s.rd k := by simp only [acceptLetter_reads]

theorem acceptLetter_ps (s : State) (m : Msg) (a : Ans) (k : Nat) : (acceptLetter s m a).ps k = s.ps k := by simp only [acceptLetter_reads]

theorem acceptLetter_sn (s : State) (m : Msg) (a : Ans) (k : Nat) : (acceptLetter s m a).sn k = s.sn k := by simp only [acceptLetter_reads]

/-- The converter of a sequence with entries runs when it starts. -/
theorem State.rndStart_running (s : State) (r : Nat) (h : s.hasEntries r = true) : ((s.rndStart r).rd r).running = true := by
  have entries : (s.setFld (R.RNDr_STATE r) F.RNDr_STATE_ENTRY 0).hasEntries r = s.hasEntries r := by
    refine congrArg (fun g : Nat → Bool => (List.range 64).any g) (funext fun e => congrArg (· != 0) (State.fld_setFld_ne ?_ _ _ _))
    simp only [R.RNDr_SEQe, R.RNDr_STATE]; omega
  rw [State.rndStart, State.startWatch, State.rd_updRd, State.rd_updRd]
  exact h

theorem State.hasEntries_setUst (s : State) (u : Nat) (st : UState) (r : Nat) : (s.setUst u st).hasEntries r = s.hasEntries r := by
  simp only [State.hasEntries, State.flag, State.fld, State.reg_setUst]

theorem State.rndSettle_rd (s : State) (r k : Nat) : (s.rndSettle r).rd k = s.rd k :=
  congrArg (fun q => FMap.get rndDefault q k) ((State.rndSettle_kept s r).frame.same .rnd rfl)

/-- A register write leaves the converters' records. -/
theorem State.rd_setReg (s : State) (a : Nat) (w : Word) (r : Nat) : (s.setReg a w).rd r = s.rd r :=
  congrArg (fun q => FMap.get rndDefault q r) (rfl : (s.setReg a w).rnd = s.rnd)

theorem State.rd_setFld (s : State) (a : Nat) (f : Fld) (v r : Nat) : (s.setFld a f v).rd r = s.rd r := State.rd_setReg ..

theorem State.rd_syncRnd (s : State) (n r : Nat) : (s.syncRnd n).rd r = s.rd r := by
  simp only [State.syncRnd, State.rd_setReg, State.rd_setFld]

theorem State.urgentPush_rd (s : State) (r : Nat) (u : Urgent) : ((s.urgentPush r u).rd r).urgent = (s.rd r).urgent ++ [u] := by
  rw [State.urgentPush, State.rd_syncRnd, State.rd_updRd]

/-! ### VALID of a position source -/

theorem State.reg_setBit_ne {a b : Nat} (h : a ≠ b) (s : State) (f : Fld) (i : Nat) : (s.setBit b f i).reg a = s.reg a := by
  unfold State.setBit; split
  · rfl
  · exact State.reg_setReg_ne h _

theorem State.reg_clrBit_ne {a b : Nat} (h : a ≠ b) (s : State) (f : Fld) (i : Nat) : (s.clrBit b f i).reg a = s.reg a := by
  unfold State.clrBit; split
  · exact State.reg_setReg_ne h _
  · rfl

/-- Beside the two registers that the sources share, VALID of one source moves that source's field only. -/
theorem State.setPosValid_reg {a : Nat} (shared : a ≠ R.POS_STATE) (evt : a ≠ R.POS_EVT) (s : State) (k : Nat) (v : Bool) :
    (s.setPosValid k v).reg a = (s.setFld (R.POSk_STAT k) F.POSk_STAT_VALID (b2n v)).reg a := by
  unfold State.setPosValid
  extract_lets was s1 s2 s3
  have h2 : s2.reg a = s1.reg a := by
    unfold s2; split
    · exact State.reg_setBit_ne shared ..
    · exact State.reg_clrBit_ne shared ..
  have h3 : s3.reg a = s1.reg a := by
    unfold s3; split <;> exact h2
  split
  · exact (State.reg_setBit_ne evt ..).trans h3
  · exact h3

theorem posStat_apart (k : Nat) : R.POSk_STAT k ≠ R.POS_STATE ∧ R.POSk_STAT k ≠ R.POS_EVT := by
  simp only [R.POSk_STAT, R.POS_STATE, R.POS_EVT]; omega

theorem State.setPosValid_fld (s : State) (k : Nat) (v : Bool) (f : Fld) :
    (s.setPosValid k v).fld (R.POSk_STAT k) f = (s.setFld (R.POSk_STAT k) F.POSk_STAT_VALID (b2n v)).fld (R.POSk_STAT k) f :=
  congrArg (getF · f) (State.setPosValid_reg (posStat_apart k).1 (posStat_apart k).2 ..)

theorem State.setPosValid_flag (s : State) (k : Nat) (v : Bool) : (s.setPosValid k v).flag (R.POSk_STAT k) F.POSk_STAT_VALID = v := by
  rw [State.flag, State.setPosValid_fld, State.fld_setFld _ rfl]
  cases v <;> rfl

theorem State.setPosValid_fld_other (h : n ≠ k) (s : State) (v : Bool) (f : Fld) :
    (s.setPosValid k v).fld (R.POSk_STAT n) f = s.fld (R.POSk_STAT n) f := by
  rw [State.fld, State.setPosValid_reg (posStat_apart n).1 (posStat_apart n).2]
  exact State.fld_setFld_ne (by simp only [R.POSk_STAT]; omega) ..

theorem State.fld_updPs (s : State) (k : Nat) (g : PosSt → PosSt) (a : Nat) (f : Fld) : (s.updPs k g).fld a f = s.fld a f := rfl

theorem State.posStart_ps (h : k < 4) (s : State) : (s.posStart.ps k).index = false ∧ (s.posStart.ps k).present = 0 := by
  refine State.each_makes (P := fun t => (t.ps k).index = false ∧ (t.ps k).present = 0) (List.mem_range.mpr h) (fun t => ?_) (fun t x held => ?_) _
  · simp
  · by_cases e : k = x
    · subst e; simp
    · rwa [State.ps_updPs_ne _ _ _ e]

theorem State.posStart_ust (here : s.ust U.pos ≠ .absent) : s.posStart.ust U.pos = .running := by
  have kept := Kept.each (l := List.range 4) (fun t k => State.updPs_kept t k fun p =>
    { p with index := false, present := 0, excOff := false, ab := none, counts := [] }) (.refl _ (s.setUst U.pos .running))
  exact (kept.frame.ust rfl _).trans (State.ust_setUst_self s _ _ here)

theorem State.posHalt_ust (here : s.ust U.pos ≠ .absent) : s.posHalt.ust U.pos = .idle := by
  unfold State.posHalt
  rw [State.each_ust fun t x => ?_, State.ust_setUst_self s _ _ here]
  rw [(State.updPs_kept ..).frame.ust rfl, State.ust_clrFlag, (State.setPosValid_kept ..).frame.ust rfl]

theorem State.posHalt_valid (h : k < 4) (s : State) : s.posHalt.flag (R.POSk_STAT k) F.POSk_STAT_VALID = false := by
  have own (t : State) (x : Nat) : ((t.setPosValid x false).clrFlag (R.POSk_STAT x) F.POSk_STAT_LOCK).fld (R.POSk_STAT x) F.POSk_STAT_VALID = 0 := by
    rw [State.clrFlag, State.fld_setFld_apart _ _ rfl rfl rfl, State.setPosValid_fld, State.fld_setFld _ rfl]
    rfl
  refine congrArg (· != 0) (?_ : State.fld _ _ _ = 0)
  refine State.each_makes (P := fun t => t.fld (R.POSk_STAT k) F.POSk_STAT_VALID = 0) (List.mem_range.mpr h) (fun t => ?_) (fun t x held => ?_) _
  · rw [State.fld_updPs]; exact own t k
  · rw [State.fld_updPs]
    by_cases e : k = x
    · subst e; exact own t k
    · rw [State.clrFlag, State.fld_setFld_ne (by simp only [R.POSk_STAT]; omega), State.setPosValid_fld_other e]
      exact held

/-! ### SENT inputs -/

theorem State.setSentValid_sn (h : n ≠ k) (s : State) (v : Bool) : (s.setSentValid k v).sn n = s.sn n := by
  have gbx (t : State) : (t.gbxFrame k false 0 0).sn n = t.sn n :=
    congrArg (fun q => FMap.get sentDefault q n) ((State.gbxFrame_kept ..).frame.same .sent rfl)
  have bit (t : State) (b : Nat) (f : Fld) (i : Nat) : (t.setBit b f i).sn n = t.sn n := by unfold State.setBit; split <;> rfl
  have clr (t : State) (b : Nat) (f : Fld) (i : Nat) : (t.clrBit b f i).sn n = t.sn n := by unfold State.clrBit; split <;> rfl
  unfold State.setSentValid
  extract_lets was s1 s2
  have h1 : s1.sn n = s.sn n := State.sn_updSn_ne _ _ _ h
  have h2 : s2.sn n = s.sn n := by
    unfold s2; split
    · exact (bit ..).trans h1
    · exact (clr ..).trans h1
  split
  · exact (gbx _).trans ((bit ..).trans h2)
  · exact h2

theorem State.sentHalt_ust (here : s.ust U.sent ≠ .absent) : s.sentHalt.ust U.sent = .idle := by
  unfold State.sentHalt
  rw [State.each_ust fun t x => ?_, State.ust_setUst_self s _ _ here]
  rw [(State.updSn_kept ..).frame.ust rfl, (State.setSentValid_kept ..).frame.ust rfl]

theorem State.sentHalt_goods (h : k < 4) (s : State) : (s.sentHalt.sn k).goods = 0 := by
  refine State.each_makes (P := fun t => (t.sn k).goods = 0) (List.mem_range.mpr h) (fun t => ?_) (fun t x held => ?_) _
  · rw [State.sn_updSn]
  · by_cases e : k = x
    · subst e; rw [State.sn_updSn]
    · rw [State.sn_updSn_ne _ _ _ e, State.setSentValid_sn e]
      exact held

/-! ### The letters -/

theorem U.pos_present {sp : LetterSpec} (p : Passes sp s m) (units : sp.units = isPos) (absent : sp.legal .absent = false) : s.ust U.pos ≠ .absent := by
  have unit := p.unit.1
  rw [units] at unit
  have e : m.letter.unit = U.pos := by simpa [isPos] using unit
  exact e ▸ p.present absent

theorem U.sent_present {sp : LetterSpec} (p : Passes sp s m) (units : sp.units = isSent) (absent : sp.legal .absent = false) :
    s.ust U.sent ≠ .absent := by
  have unit := p.unit.1
  rw [units] at unit
  have e : m.letter.unit = U.sent := by simpa [isSent] using unit
  exact e ▸ p.present absent

/-- Settles O24: each letter that passes is its own change of a sensing unit, and the receipt changes no unit. -/
theorem sensingLetters : Obligations.SensingLetters := by
  intro s m
  refine ⟨fun p => ?_, fun p => ?_, fun p => ?_, fun p => ?_, fun p => ?_, fun p => ?_, fun p => ?_, fun p => ?_⟩
  · have here := p.present rfl
    have entries : s.hasEntries (rndOf m) = true := by
      have late : specRndRun.late s m = [] := (verdict_none.mp p).2.2.2.2.2.2.2.2
      simpa [specRndRun] using late
    refine .now rfl p rfl ?_
    rw [acceptLetter_ust, acceptLetter_rd]
    exact ⟨((State.rndStart_kept ..).frame.ust rfl _).trans (State.ust_setUst_self s _ _ here),
      State.rndStart_running _ _ ((State.hasEntries_setUst ..).trans entries)⟩
  · have here := p.present rfl
    refine .later rfl p rfl rfl ?_
    rw [acceptLetter_ust, acceptLetter_rd, State.rndSettle_rd, (State.rndSettle_kept ..).frame.ust rfl, State.ust_updRd, State.rd_updRd]
    exact ⟨State.ust_setUst_self (s.openOp m).1 _ _ here, rfl⟩
  · refine .later rfl p rfl rfl ⟨(acceptLetter_units ..).trans ((State.urgentPush_kept ..).frame.same .units rfl), ?_⟩
    rw [acceptLetter_rd]
    exact State.urgentPush_rd ..
  · have here := p.present rfl
    refine .now rfl p rfl ((acceptLetter_ust ..).trans (State.ust_setUst_self s _ _ here))
  · have here := U.pos_present p rfl rfl
    refine .now rfl p rfl ⟨(acceptLetter_ust ..).trans ?_, fun k few => ?_⟩
    · exact State.posStart_ust here
    · rw [acceptLetter_ps]
      exact State.posStart_ps few s
  · have here := U.pos_present p rfl rfl
    refine .now rfl p rfl ⟨(acceptLetter_ust ..).trans ?_, fun k few => ?_⟩
    · exact State.posHalt_ust here
    · rw [State.flag, acceptLetter_fld _ _ _ (not_receiptReg_engine (by simp only [R.POSk_STAT]; omega))]
      exact State.posHalt_valid few s
  · have here := U.sent_present p rfl rfl
    exact .now rfl p rfl ((acceptLetter_ust ..).trans (State.ust_setUst_self s _ _ here))
  · have here := U.sent_present p rfl rfl
    refine .now rfl p rfl ⟨(acceptLetter_ust ..).trans ?_, fun k few => ?_⟩
    · exact State.sentHalt_ust here
    · rw [acceptLetter_sn]
      exact State.sentHalt_goods few s

end Sys2Proof.Machine
end

section
/-!
Bits of a field, the causes and the entry of the safe state (chapter 12), and the sources that a reset records (chapter 13).
-/
namespace Sys2Proof.Machine

variable {s t : State} {m : Msg} {a i k n : Nat}

/-! ### Bits of a field -/

theorem testBit_add_two_pow {v i : Nat} (clear : v.testBit i = false) (j : Nat) : (v + 2 ^ i).testBit j = (v.testBit j || j == i) := by
  have set : (v + 2 ^ i).testBit i = true := by rw [Nat.add_comm, Nat.testBit_two_pow_add_eq, clear]; rfl
  have back := testBit_sub_two_pow set j
  rw [Nat.add_sub_cancel] at back
  by_cases e : j = i
  · rw [e, set, beq_self_eq_true, Bool.or_true]
  · rw [back, bne, beq_false_of_ne e, Bool.not_false, Bool.and_true, Bool.or_false]

/-- A set bit of a field reads as set, and the others as before. -/
theorem State.bitAt_setBit (f : Fld) (ok : f.ok = true) (s : State) (i : Nat) {j : Nat} (here : j < f.hi + 1 - f.lo) :
    bitAt ((s.setBit a f i).fld a f) j = (bitAt (s.fld a f) j || j == i) := by
  simp only [bitAt_eq_testBit, State.setBit]
  by_cases set : (s.fld a f).testBit i = true
  · rw [if_pos set]
    by_cases e : j = i
    · subst e; simp [set]
    · simp [e]
  · rw [if_neg set, State.fld_setFld f ok, Nat.testBit_mod_two_pow, testBit_add_two_pow (by simpa using set)]
    simp [here]

/-- A cleared bit of a field reads as clear, and the others as before. -/
theorem State.bitAt_clrBit (f : Fld) (ok : f.ok = true) (s : State) (i : Nat) {j : Nat} (here : j < f.hi + 1 - f.lo) :
    bitAt ((s.clrBit a f i).fld a f) j = (bitAt (s.fld a f) j && j != i) := by
  simp only [bitAt_eq_testBit, State.clrBit]
  by_cases set : (s.fld a f).testBit i = true
  · rw [if_pos set, State.fld_setFld f ok, Nat.testBit_mod_two_pow, testBit_sub_two_pow set]
    simp [here]
  · rw [if_neg set]
    by_cases e : j = i
    · subst e; simpa using set
    · simp [e]

theorem State.fld_setBit_apart (f g : Fld) (h : f.ok = true) (k : g.ok = true) (d : f.apart g = true) (s : State) (i : Nat) :
    (s.setBit a f i).fld a g = s.fld a g := by
  unfold State.setBit; split
  · rfl
  · exact State.fld_setFld_apart f g h k d _

theorem State.fld_setBit_ne {b : Nat} (h : a ≠ b) (s : State) (f g : Fld) (i : Nat) : (s.setBit b f i).fld a g = s.fld a g :=
  congrArg (getF · g) (State.reg_setBit_ne h ..)

/-- The bits of a mask taken out of a number. -/
theorem testBit_sub_and (v w j : Nat) : (v - (v &&& w)).testBit j = (v.testBit j && !w.testBit j) := by
  have below : v &&& w ≤ v := Nat.and_le_left
  have low : (v &&& w) % 2 = 1 ↔ v % 2 = 1 ∧ w % 2 = 1 := by
    have h := Nat.testBit_and v w 0
    simp only [Nat.testBit_zero, ← Bool.decide_and] at h
    exact decide_eq_decide.mp h
  induction j generalizing v w with
  | zero =>
    simp only [Nat.testBit_zero, ← decide_not, ← Bool.decide_and]
    exact decide_eq_decide.mpr (by omega)
  | succ j ih =>
    have half : (v - (v &&& w)) / 2 = v / 2 - (v / 2 &&& w / 2) := by
      rw [← Nat.and_div_two]; omega
    have h := Nat.testBit_and (v / 2) (w / 2) 0
    simp only [Nat.testBit_zero, ← Bool.decide_and] at h
    rw [Nat.testBit_succ, Nat.testBit_succ, Nat.testBit_succ, half]
    exact ih _ _ Nat.and_le_left (decide_eq_decide.mp h)

/-! ### Causes of the safe state -/

/-- The refresh of the patterns leaves the causes. -/
theorem State.ssmRefresh_cause (s : State) (f : Fld) : s.ssmRefresh.fld R.SSM_CAUSE f = s.fld R.SSM_CAUSE f :=
  (State.ssmRefresh_kept s).frame.fld_apart rfl f

/-- The patterns of the functions leave the SSM's state. -/
theorem State.ssmPatterns_kept (s : State) : Kept [.eng, .mdl, .ldg, .reg .FEn_EVT, .reg .FEn_WDCNT, .reg .LDG_EVT, .reg .LDG_WQSTAT,
    .reg .LDG_PNf, .reg .SSM_PAT0, .reg .SSM_PAT1] s (s.each (List.range 16) fun s f =>
      let p := s.wantPat f
      let s' := s.setSsmPat f p
      if s.ssmPat f = 0 ∧ p ≠ 0 then s'.withdraw f
      else if s.ssmPat f ≠ 0 ∧ p = 0 then s'.each (s.fnLegs f) fun s n => (s.setDuty n none).setShadow n none
      else s') := by
  refine .each (fun t f => ?_) (.refl ..)
  have pat : Kept [.reg .SSM_PAT0, .reg .SSM_PAT1] t (t.setSsmPat f (t.wantPat f)) := State.setSsmPat_kept ..
  exact .ite (.via (State.withdraw_kept ..) rfl (pat.mono rfl)) (.ite (.each (fun u n => .via (State.setShadow_kept ..) rfl
    ((State.setDuty_kept ..).mono rfl)) (pat.mono rfl)) (pat.mono rfl))

/-- Of the SSM's state the refresh writes the safe state only. -/
theorem State.ssmRefresh_faultN (s : State) : s.ssmRefresh.fld R.SSM_STATE F.SSM_STATE_FAULTN = s.fld R.SSM_STATE F.SSM_STATE_FAULTN := by
  have patterns := (State.ssmPatterns_kept s).frame.fld_apart (a := R.SSM_STATE) rfl F.SSM_STATE_FAULTN
  unfold State.ssmRefresh
  extract_lets s1 reg act _ s2
  have h2 : s2.fld R.SSM_STATE F.SSM_STATE_FAULTN = s1.fld R.SSM_STATE F.SSM_STATE_FAULTN := by unfold s2; split <;> rfl
  rw [State.fld_setFld_apart _ _ rfl rfl rfl, State.fld_setFld_ne (by decide), State.fld_setFld_ne (by decide), h2]
  exact patterns

theorem State.ssmRefresh_entered (s : State) : s.ssmRefresh.ssm.entered = s.ssm.entered := by
  have patterns := congrArg (·.entered) ((State.ssmPatterns_kept s).frame.same .ssm rfl)
  unfold State.ssmRefresh
  extract_lets s1 reg act _ s2
  have h2 : s2.ssm.entered = s1.ssm.entered := by unfold s2; split <;> rfl
  simp only [State.setFld_fields, h2]
  exact patterns

/-- Raising a cause makes it active, and moves no other. -/
theorem State.ssmRaise_active (s : State) (n : Nat) {c : Nat} (here : c < 10) : bitAt ((s.ssmRaise n).fld R.SSM_CAUSE F.SSM_CAUSE_ACTIVE) c =
    (bitAt (s.fld R.SSM_CAUSE F.SSM_CAUSE_ACTIVE) c || c == n) := by
  unfold State.ssmRaise
  extract_lets was s1 s2 s3
  have h1 : s1.fld R.SSM_CAUSE F.SSM_CAUSE_ACTIVE = (s.setBit R.SSM_CAUSE F.SSM_CAUSE_ACTIVE n).fld R.SSM_CAUSE F.SSM_CAUSE_ACTIVE :=
    State.fld_setBit_apart _ _ rfl rfl rfl _ _
  have h2 : s2.fld R.SSM_CAUSE F.SSM_CAUSE_ACTIVE = s1.fld R.SSM_CAUSE F.SSM_CAUSE_ACTIVE := by
    unfold s2; split
    · rfl
    · exact State.fld_setFld_ne (by decide) ..
  have h3 : s3.fld R.SSM_CAUSE F.SSM_CAUSE_ACTIVE = s2.fld R.SSM_CAUSE F.SSM_CAUSE_ACTIVE := by
    unfold s3; split
    · rfl
    · exact State.fld_setFld_ne (by decide) ..
  rw [State.ssmRefresh_cause]
  refine (congrArg (bitAt · c) (h3.trans (h2.trans h1))).trans ?_
  exact State.bitAt_setBit _ rfl s n here

theorem State.ssmRaise_entered (s : State) (n : Nat) : (s.ssmRaise n).ssm.entered = true := State.ssmRefresh_entered _

/-- Every cause but a reset holds FAULT_N low. -/
theorem State.ssmRaise_faultN (s : State) (n : Nat) (other : n ≠ 5) : (s.ssmRaise n).fld R.SSM_STATE F.SSM_STATE_FAULTN = 1 := by
  unfold State.ssmRaise
  extract_lets was s1 s2 s3
  have h2 : s2.fld R.SSM_STATE F.SSM_STATE_FAULTN = 1 := by
    unfold s2; rw [if_neg other]; exact State.fld_setFld _ rfl _
  have h3 : s3.fld R.SSM_STATE F.SSM_STATE_FAULTN = 1 := by
    unfold s3; split
    · exact h2
    · exact (State.fld_setFld_ne (by decide) ..).trans h2
  rw [State.ssmRefresh_faultN]
  exact h3

theorem State.fld_lt (s : State) (a : Nat) (f : Fld) : s.fld a f < 2 ^ (f.hi + 1 - f.lo) := Nat.mod_lt _ (Nat.two_pow_pos _)

/-- The end of causes takes those of the mask out, and no other. -/
theorem State.ssmEnd_active (s : State) (mask : Nat) (c : Nat) : bitAt ((s.ssmEnd mask).fld R.SSM_CAUSE F.SSM_CAUSE_ACTIVE) c =
    (bitAt (s.fld R.SSM_CAUSE F.SSM_CAUSE_ACTIVE) c && !bitAt mask c) := by
  unfold State.ssmEnd
  extract_lets was a s1 s2
  have h1 : s1.fld R.SSM_CAUSE F.SSM_CAUSE_ACTIVE = a - (a &&& mask) :=
    (State.fld_setFld _ rfl _).trans (Nat.mod_eq_of_lt ((Nat.sub_le ..).trans_lt (State.fld_lt s _ _)))
  have h2 : s2.fld R.SSM_CAUSE F.SSM_CAUSE_ACTIVE = s1.fld R.SSM_CAUSE F.SSM_CAUSE_ACTIVE := by
    unfold s2; split
    · exact (State.fld_setFld_ne (by decide) ..).trans ((State.keepHeld_kept _).frame.fld_apart rfl _)
    · rfl
  rw [State.ssmRefresh_cause, h2, h1, bitAt_eq_testBit, bitAt_eq_testBit, bitAt_eq_testBit]
  exact testBit_sub_and ..

end Sys2Proof.Machine
end

section
/-!
The sources that a reset records (chapter 13), and the letters of the ledger, the safe-state manager, the reset controller and the event
controller, accepted.
-/
namespace Sys2Proof.Machine

variable {s t : State} {m : Msg} {a i k n : Nat}

/-! ### The reset controller's record through a reset -/

theorem State.rst_setFld (s : State) (a : Nat) (f : Fld) (v : Nat) : (s.setFld a f v).rst = s.rst := rfl

theorem State.pairsLost_rst (s : State) (l : List Nat) : (s.each l fun s n => s.setLscStat n 4).rst = s.rst :=
  (Kept.each (fun t n => State.setLscStat_kept t n 4) (.refl _ s)).frame.same .rst rfl

theorem State.systemClear_rst (s : State) : s.systemClear.rst =
    { s.rst with domains := 0, unitsOut := false, swPairs := 0, pairs := 0, pairMin := 0, unitReset := [], autoDue := [] } := by
  have pairs (t : State) (l : List Nat) : (t.each l fun s n => (s.setLscStat n 4).setFld (R.SSM_WDSTATn n) F.SSM_WDSTATn_MODE 0).rst = t.rst :=
    (Kept.each (c := [.reg .LSC_STAT, .reg .SSM_WDSTATn]) (fun u n => .via (State.setFld_kept (.SSM_WDSTATn n) ..) rfl
      ((State.setLscStat_kept u n 4).mono rfl)) (.refl _ t)).frame.same .rst rfl
  have targets (t : State) : t.evcSplitTargets.rst = t.rst := (State.evcSplitTargets_kept t).frame.same .rst rfl
  have trips (t : State) : (t.keepTrips s).rst = t.rst := (State.keepTrips_kept t s).frame.same .rst rfl
  unfold State.systemClear
  extract_lets
  rw [(State.ssmRefresh_kept _).frame.same .rst rfl, pairs, State.rst_setFld, targets, State.rst_setFld, trips]

theorem State.powerClear_rst (s : State) : s.powerClear.rst = { State.reset.rst with
    sources := s.rst.sources, sysHold := s.rst.sysHold, sysMin := s.rst.sysMin, domains := 0, pg := s.rst.pg, released := false, startedAt := s.up } := by
  have targets (t : State) : t.evcSplitTargets.rst = t.rst := (State.evcSplitTargets_kept t).frame.same .rst rfl
  unfold State.powerClear
  extract_lets
  rw [(State.ssmRefresh_kept _).frame.same .rst rfl, State.pairsLost_rst, targets, State.rst_setFld]

theorem State.applySystem_sources (s : State) : s.applySystem.rst.sources = s.rst.sources := by
  unfold State.applySystem; split
  · rfl
  · rw [(State.syncPend_kept _).frame.same .rst rfl, State.systemClear_rst]

/-- The pairs that a source resets go with the record of them. -/
theorem State.pairsReset_sources (l : List Nat) (s : State) : (s.each l fun s n =>
      let s3 := s.pairClear n
      { s3 with rst := { s3.rst with pairs := s3.rst.pairs ||| 2 ^ n, pairMin := s3.rst.pairMin ||| 2 ^ n,
                                     pairEpoch := s3.rst.pairEpoch ||| 2 ^ n } }).rst.sources = s.rst.sources := by
  induction l generalizing s with
  | nil => rfl
  | cons n l ih =>
    have pair : (s.pairClear n).rst.sources = s.rst.sources := congrArg RstSt.sources ((State.pairClear_kept s n).frame.same .rst rfl)
    exact (ih _).trans pair

/-- A source that is asserted twice stands once; a reset that it makes keeps every source. -/
theorem State.assertSource_sources (s : State) (id pairs : Nat) : (s.assertSource id pairs).rst.sources =
    if s.rst.sources.any (fun p => p.1 == id && p.2 == pairs) then s.rst.sources else s.rst.sources ++ [(id, pairs)] := by
  have cause (t : State) (a b c : Nat) : (t.recordCause a b c).rst = t.rst := (State.recordCause_kept ..).frame.same .rst rfl
  have raise (t : State) (c : Nat) : (t.ssmRaise c).rst = t.rst := (State.ssmRaise_kept ..).frame.same .rst rfl
  have pend (t : State) : t.syncPend.rst = t.rst := (State.syncPend_kept _).frame.same .rst rfl
  have back (t : State) : t.causesBack.rst = t.rst := (State.causesBack_kept _).frame.same .rst rfl
  unfold State.assertSource
  split
  · rfl
  · extract_lets reach was cur recId _ s1 old s2 s2' _ s3
    have h1 : s1.rst.sources = s.rst.sources ++ [(id, pairs)] := congrArg RstSt.sources (pend _)
    have h2 : s2.rst.sources = s.rst.sources ++ [(id, pairs)] := by
      unfold s2; split <;> (rw [cause]; exact h1)
    have h3 : s3.rst.sources = s.rst.sources ++ [(id, pairs)] := by
      refine (?_ : s2'.rst.sources = _)
      unfold s2'; split <;> (rw [cause]; exact h1)
    split
    · split
      · exact h1
      · exact (State.pairsReset_sources ..).trans h2
    · split
      · exact h1
      · split
        · rw [back, pend, cause, State.powerClear_rst]; exact h3
        · split
          · rw [raise]; exact h3
          · rw [pend, State.applySystem_sources, raise]; exact h3

/-- A source that asserts is among those asserted. -/
theorem State.mem_assertSource (s : State) (id pairs : Nat) : (id, pairs) ∈ (s.assertSource id pairs).rst.sources := by
  rw [State.assertSource_sources]
  split
  · next h =>
    obtain ⟨p, mem, e⟩ := List.any_eq_true.mp h
    simp only [Bool.and_eq_true, beq_iff_eq] at e
    rw [← e.1, ← e.2]
    exact mem
  · exact List.mem_append_right _ (List.mem_singleton.mpr rfl)

/-! ### What waits for a receipt -/

/-- An action that waits for no receipt is the last to be done of those ready. -/
theorem State.runReady_concat (s : State) (l : List Deferred) (d : Deferred) (h : s.po.ready = l ++ [d]) :
    ∃ t : State, s.runReady = t.perform d := by
  refine ⟨({ s with po := { s.po with ready := [] } } : State).each l State.perform, ?_⟩
  rw [State.runReady, h, State.each, List.foldl_append]
  rfl

/-- DONE with an action that waits for the receipt in a ring, or else is done. -/
theorem acceptLetter_deferred (s : State) (m : Msg) (d : Deferred) :
    match (s.issueReceipt m.src m.letter.flags ⟨m.letter.opcode, m.letter.unit, .done, m.letter.seq, s.pm, s.pm, []⟩).2 with
    | .ring p i => s.po.ready = [] → (acceptLetter s m (.done [] (some d))).runReady.po.deferred = s.po.deferred ++ [⟨d, p, i⟩] ∧
        (acceptLetter s m (.done [] (some d))).runReady = acceptLetter s m (.done [] (some d))
    | _ => ∃ t : State, (acceptLetter s m (.done [] (some d))).runReady = t.perform d := by
  have issued := State.issueReceipt_po s m.src m.letter.flags ⟨m.letter.opcode, m.letter.unit, .done, m.letter.seq, s.pm, s.pm, []⟩
  have deferred := s.issueReceipt_deferred m.src m.letter.flags ⟨m.letter.opcode, m.letter.unit, .done, m.letter.seq, s.pm, s.pm, []⟩
  have accept : acceptLetter s m (.done [] (some d)) =
    (s.issueReceipt m.src m.letter.flags ⟨m.letter.opcode, m.letter.unit, .done, m.letter.seq, s.pm, s.pm, []⟩).1.defer (some d)
    (s.issueReceipt m.src m.letter.flags ⟨m.letter.opcode, m.letter.unit, .done, m.letter.seq, s.pm, s.pm, []⟩).2 := rfl
  rw [accept]
  generalize s.issueReceipt m.src m.letter.flags ⟨m.letter.opcode, m.letter.unit, .done, m.letter.seq, s.pm, s.pm, []⟩ = r at issued deferred
  obtain ⟨t, p⟩ := r
  cases p with
  | ring p i =>
    intro none
    have quiet : (t.defer (some d) (.ring p i)).runReady = t.defer (some d) (.ring p i) :=
      State.runReady_of_ready_nil (issued.2.trans none)
    exact ⟨by rw [quiet]; exact congrArg (· ++ _) deferred, quiet⟩
  | _ => exact State.runReady_concat _ t.po.ready d rfl

/-! ### The letters -/

theorem acceptLetter_rst (s : State) (m : Msg) (a : Ans) : (acceptLetter s m a).rst = s.rst := (acceptLetter_kept s m a).frame.same .rst rfl

theorem acceptLetter_evc (s : State) (m : Msg) (a : Ans) : (acceptLetter s m a).evc = s.evc := (acceptLetter_kept s m a).frame.same .evc rfl

theorem acceptLetter_lnk (s : State) (m : Msg) (a : Ans) (k : Nat) : (acceptLetter s m a).lnk k = s.lnk k := by simp only [acceptLetter_reads]

/-- An operation's end is recorded, once. -/
theorem State.hwFinish_ends (s : State) (key : Nat) (st : Status) (r : List Byte) : (s.hwFinish key st r).po.hw.any (HwEvent.ends key) = true := by
  unfold State.hwFinish
  split
  · assumption
  · exact List.any_eq_true.mpr ⟨_, List.mem_append_right _ (List.mem_singleton.mpr rfl), by simp [HwEvent.ends]⟩

/-- The causes that SSM_RELEASE ends (R332). -/
theorem bitAt_releasable {c : Nat} (here : c < 10) : bitAt 0x10B c = decide (c ∈ [0, 1, 3, 8]) := by
  interval_cases c <;> rfl

theorem specSsmRelease_active (s : State) (m : Msg) (key c : Nat) :
    bitAt ((specSsmRelease.run s m key).1.fld R.SSM_CAUSE F.SSM_CAUSE_ACTIVE) c =
      (bitAt (s.fld R.SSM_CAUSE F.SSM_CAUSE_ACTIVE) c && !bitAt 0x10B c) := by
  simp only [specSsmRelease, doneWith]
  split
  · next none =>
    have clear := Nat.testBit_and (s.fld R.SSM_CAUSE F.SSM_CAUSE_ACTIVE) 0x10B c
    rw [none, Nat.zero_testBit, ← bitAt_eq_testBit, ← bitAt_eq_testBit] at clear
    cases set : bitAt (s.fld R.SSM_CAUSE F.SSM_CAUSE_ACTIVE) c
    · rfl
    · rw [set, Bool.true_and] at clear
      rw [← clear]; rfl
  · exact State.ssmEnd_active ..

/-- A doorbell rung while it is in service rings again; any other is raised. -/
theorem State.ringBell_rings (s : State) {k : Nat} (here : k < 16) :
    if s.evc.inserv.any (fun p => p.1 == 241 + k) then 241 + k ∈ (s.ringBell k).evc.again
    else 241 + k ∈ (s.ringBell k).evc.raised ∧ bitAt ((s.ringBell k).fld R.EVC_DBSET F.EVC_DBSET_DB) k = true := by
  unfold State.ringBell
  dsimp only
  split
  · exact List.mem_cons_self
  · refine ⟨List.mem_cons_self, ?_⟩
    refine (State.bitAt_setBit _ rfl s k here).trans ?_
    simp

/-- Settles O25: each letter that passes is its own change of a system unit, and its receipt changes no unit. -/
theorem systemLetters : Obligations.SystemLetters := by
  intro s m place
  have cause : ¬receiptReg R.SSM_CAUSE := by unfold receiptReg; decide
  have state : ¬receiptReg R.SSM_STATE := by unfold receiptReg; decide
  have bells : ¬receiptReg R.EVC_DBSET := by unfold receiptReg; decide
  refine ⟨fun p => ?_, fun p => ?_, fun p => ?_, fun p => ?_, fun p => ?_, fun p => ?_, fun p => ?_, fun p => ?_, fun p => ?_⟩
  · refine .now rfl p rfl ?_
    rw [acceptLetter_lnk]
    simp [specLdgBattery, doneWith]
  · refine .now rfl p rfl ?_
    rw [(acceptLetter_kept ..).frame.same .aon rfl]
    exact ⟨rfl, rfl, rfl, rfl, rfl, rfl⟩
  · refine .now rfl p rfl fun c here => ?_
    rw [acceptLetter_fld _ _ _ cause, specSsmRelease_active, bitAt_releasable here, decide_not]
  · refine .now rfl p rfl ?_
    rw [(acceptLetter_kept ..).frame.same .ssm rfl, acceptLetter_fld _ _ _ state]
    refine ⟨State.ssmRaise_entered .., State.ssmRaise_faultN _ _ (by decide), fun c here => ?_⟩
    rw [acceptLetter_fld _ _ _ cause]
    exact State.ssmRaise_active s 8 here
  · refine .later rfl p rfl rfl ?_
    have clear : ((s.openOp m).1.unitClear (m.u8 16)).rst = s.rst := (State.unitClear_kept ..).frame.same .rst rfl
    rw [acceptLetter_rst, (State.hwFinish_kept ..).frame.same .rst rfl, (acceptLetter_po ..).hw]
    exact ⟨congrArg (fun r : RstSt => r.unitReset ++ _) clear, State.hwFinish_ends ..⟩
  · refine .now rfl p rfl ?_
    rw [acceptLetter_rst]
    exact ⟨rfl, rfl⟩
  · refine ⟨(acceptLetter s m (.done [] (some .systemReset))).runReady, congrArg (Host.Outcome.next ∘ State.runReady) (deliver_now p rfl), ?_⟩
    have after := acceptLetter_deferred s m .systemReset
    unfold place
    generalize (s.issueReceipt m.src m.letter.flags ⟨m.letter.opcode, m.letter.unit, .done, m.letter.seq, s.pm, s.pm, []⟩).2 = there at after
    cases there with
    | ring q i =>
      intro none
      obtain ⟨deferred, quiet⟩ := after none
      exact ⟨deferred, by rw [quiet, acceptLetter_rst]⟩
    | journal =>
      obtain ⟨t, e⟩ := after
      rw [e]
      exact State.mem_assertSource t 10 0
    | nowhere =>
      obtain ⟨t, e⟩ := after
      rw [e]
      exact State.mem_assertSource t 10 0
  · refine .now rfl p rfl ?_
    rw [acceptLetter_rst]
    rfl
  · have few : m.u8 16 < 16 := by
      have fails : specEvcRing.fails s m = [] := (verdict_none.mp p).2.2.2.2.1
      simp only [specEvcRing, List.append_eq_nil_iff, ite_eq_left_iff, List.cons_ne_nil, imp_false, not_not] at fails
      exact Nat.lt_succ_of_le fails.1
    refine .now rfl p rfl ?_
    rw [acceptLetter_evc, acceptLetter_fld _ _ _ bells]
    have rings := State.ringBell_rings s few
    simp only [specEvcRing, doneWith]
    rw [(State.evcSettle_kept _).frame.same .evc rfl, (State.evcSettle_kept _).frame.fld_apart rfl]
    exact rings

end Sys2Proof.Machine
end

section
/-!
The letters of the network ports and of the security unit, accepted (chapter 16).
-/
namespace Sys2Proof.Machine

variable {s : State} {m : Msg}

theorem acceptLetter_sec (s : State) (m : Msg) (a : Ans) : (acceptLetter s m a).sec = s.sec := (acceptLetter_kept s m a).frame.same .sec rfl

theorem acceptLetter_et (s : State) (m : Msg) (a : Ans) (k : Nat) : (acceptLetter s m a).et k = s.et k := by simp only [acceptLetter_reads]

/-- A port that has left IDLE for RUNNING runs, its frame and answers of the time before gone. -/
theorem specNetRun_running (here : s.ust m.unit ≠ .absent) (k : Nat) : (specNetRun.run s m k).1.ust m.unit = .running := by
  simp only [specNetRun, doneWith]
  split
  · exact State.ust_setUst_kept (State.updCn_kept ..) rfl here _
  · exact State.ust_setUst_kept (State.updEt_kept ..) rfl here _

/-! ### A franking key -/

/-- No check but the unwrapping itself answers E_FRANK to a franking key. -/
theorem specSecFkey_checks (s : State) (m : Msg) : Status.eFrank ∉ specSecFkey.fails s m ++ s.prFails m.letter.opcode ++
    stateFail specSecFkey.legal (s.ust m.letter.unit) ++ (if specSecFkey.opens s m && s.opsFull then [.eFull] else []) := by
  simp only [List.mem_append, not_or]
  refine ⟨⟨⟨?_, ?_⟩, ?_⟩, ?_⟩
  · simp only [specSecFkey, State.keySender, List.mem_append, not_or]
    refine ⟨⟨?_, ?_⟩, ?_⟩ <;> split <;> simp
  · unfold State.prFails; split <;> simp
  · unfold stateFail; split
    · simp
    · split
      · simp
      · split <;> simp
  · split <;> simp

/-- The security unit takes a franking key that unwraps; E_FRANK refuses one that does not. -/
theorem specSecFkey_unwraps (h : verdict specSecFkey s m ∈ [none, some .eFrank]) :
    if (s.unwrapped m).isSome then verdict specSecFkey s m = none else verdict specSecFkey s m = some .eFrank := by
  have late : specSecFkey.late s m = if (s.unwrapped m).isSome then [] else [.eFrank] := rfl
  rcases List.mem_cons.mp h with passes | h
  · have none : specSecFkey.late s m = [] := (verdict_none.mp passes).2.2.2.2.2.2.2.2
    rw [late] at none
    split
    · exact passes
    · next wrapped => rw [if_neg wrapped] at none; cases none
  · have refused := List.mem_singleton.mp h
    split
    · next unwraps =>
      rw [if_pos unwraps] at late
      exfalso
      unfold verdict at refused
      dsimp only at refused
      split at refused
      · cases refused
      · split at refused
        · cases refused
        · split at refused
          · cases refused
          · split at refused
            · next first => exact specSecFkey_checks s m (firstFail_spec (first.trans refused)).1
            · rw [late] at refused; cases refused
    · exact refused

/-- Settles O26: each letter that passes is its own change of a port or of the security unit. -/
theorem networkLetters : Obligations.NetworkLetters := by
  intro s m place
  refine ⟨fun p => ?_, fun p => ?_, fun p => ?_, fun p => ?_, fun p => ?_⟩
  · refine .now rfl p rfl ?_
    rw [acceptLetter_ust]
    exact specNetRun_running (p.present rfl) 0
  · refine ⟨(acceptLetter s m (.done [] (some (.netHalt m.unit)))).runReady,
      congrArg (Host.Outcome.next ∘ State.runReady) (deliver_now p rfl), ?_⟩
    have after := acceptLetter_deferred s m (.netHalt m.unit)
    unfold place
    generalize (s.issueReceipt m.src m.letter.flags ⟨m.letter.opcode, m.letter.unit, .done, m.letter.seq, s.pm, s.pm, []⟩).2 = there at after
    cases there with
    | ring q i =>
      intro none
      obtain ⟨deferred, quiet⟩ := after none
      exact ⟨deferred, by rw [quiet, (acceptLetter_po ..).hw]⟩
    | journal =>
      obtain ⟨t, e⟩ := after
      rw [e]
      exact State.hwMove_pending ..
    | nowhere =>
      obtain ⟨t, e⟩ := after
      rw [e]
      exact State.hwMove_pending ..
  · refine .now rfl p rfl ?_
    rw [acceptLetter_sec]
    rfl
  · have verdict := specSecFkey_unwraps p
    cases key : s.unwrapped m with
    | some k =>
      rw [key] at verdict
      refine .now rfl verdict rfl ?_
      rw [acceptLetter_sec]
      simp only [specSecFkey, doneWith, key]
    | none =>
      rw [key] at verdict
      exact ⟨_, congrArg Host.Outcome.next (deliver_refused verdict), (refuseLetter_kept ..).frame.same .sec rfl⟩
  · refine .now rfl p rfl ?_
    rw [acceptLetter_et]
    simp [specSecSak, doneWith, State.et, State.updEt, FMap.get_set_same]

end Sys2Proof.Machine
end

section
/-!
The opcodes common to all units and those of the image and firmware slots, accepted (chapters 02 and 03).
-/
namespace Sys2Proof.Machine

variable {s : State} {m : Msg}

theorem State.reg_plainWrite (s : State) (a : Nat) (v : Word) : (s.plainWrite a v).reg a = s.written a v := by
  unfold State.plainWrite State.written
  cases findReg a with
  | none => rfl
  | some r => exact State.reg_setReg _

theorem State.units_plainWrite (s : State) (a : Nat) (v : Word) : (s.plainWrite a v).units = s.units := by
  unfold State.plainWrite
  split <;> rfl

/-- A register of an engine that a WRITE converts lies in the engines' block. -/
theorem convertedFe_engine {a : Nat} (h : (convertedFe a).isSome = true) : 0x40100000 ≤ a := by
  unfold convertedFe at h
  dsimp only at h
  split at h
  · next here => exact here.1
  · cases h

theorem State.writeEffect_converted (h : (convertedFe m.addr).isSome = true) :
    s.writeEffect m = s.plainWrite m.addr (BitVec.ofNat 32 (m.u32 20)) := by
  unfold State.writeEffect
  dsimp only
  split
  · rfl
  · next e => rw [e] at h; cases h

/-! ### The commit of a slot -/

/-- The write of a copy of the pointer record waits in the queue of the non-volatile store, with the check's result as it was. -/
structure State.CommitQueued (s t : State) (m : Msg) (base : Nat) : Prop where
  image : t.icheck = s.icheck
  firmware : t.fcheck = s.fcheck
  ready : t.po.ready = s.po.ready
  waits : ∃ c ∈ t.nvs.commits, c.msg = m ∧ c.delivered = s.pm ∧ c.base = base ∧ c.second = false ∧ c.write ∈ t.nvs.queue

theorem State.commit_queued (cool : s.mramClosed = false) (m : Msg) (base slot : Nat) : s.CommitQueued (s.commit m base slot) m base := by
  unfold State.commit
  extract_lets serial first
  clear_value serial first
  rw [State.commitWrite, if_neg (by simp [cool])]
  have pushed (t : State) (w : NvsWrite) : (t.nvsPush w).nvs = { t.nvs with queue := t.nvs.queue ++ [w], pulse := true } := rfl
  refine ⟨(State.nvsPush_kept ..).frame.same .icheck rfl, (State.nvsPush_kept ..).frame.same .fcheck rfl,
    congrArg PostOffice.ready ((State.nvsPush_kept ..).frame.same .po rfl), ?_⟩
  rw [pushed]
  exact ⟨_, List.mem_append_right _ (List.mem_singleton.mpr rfl), rfl, rfl, rfl, rfl, List.mem_append_right _ (List.mem_singleton.mpr rfl)⟩

/-- A commit that passes is made with the non-volatile store open. -/
theorem specCommit_cool {firmware : Bool} (p : Passes (specCommit firmware) s m) : s.mramClosed = false := by
  have fails : (specCommit firmware).fails s m = [] := (verdict_none.mp p).2.2.2.2.1
  have cool := (List.append_eq_nil_iff.mp fails).2
  cases h : s.mramClosed with
  | false => rfl
  | true => rw [h] at cool; cases cool

/-- A commit answers nothing before its writes have ended. -/
theorem specCommit_delivered {firmware : Bool} (p : Passes (specCommit firmware) s m) (ready : s.po.ready = []) :
    (deliver (specCommit firmware) s m).runReady = ((specCommit firmware).run s m 0).1 ∧
    s.CommitQueued ((specCommit firmware).run s m 0).1 m (if firmware then fwPtrKey else ptrKey) := by
  have queued : s.CommitQueued ((specCommit firmware).run s m 0).1 m (if firmware then fwPtrKey else ptrKey) := by
    cases firmware
    · exact State.commit_queued (specCommit_cool p) ..
    · exact State.commit_queued (specCommit_cool p) ..
  refine ⟨?_, queued⟩
  rw [deliver_now p rfl, show ((specCommit firmware).run s m 0).2 = .later from rfl, acceptLetter]
  exact State.runReady_of_ready_nil (queued.ready.trans ready)

/-- An ABORT that passes has found what it names. -/
theorem specAbort_found (p : Passes specAbort s m) (st : Status) : s.abortCase m ≠ .refused st := fun e => by
  have fails : specAbort.fails s m = [] := (verdict_none.mp p).2.2.2.2.1
  simp [specAbort, e] at fails

/-- Settles O27: each opcode that passes is its own change, and what it answers changes no unit. -/
theorem commonLetters : Obligations.CommonLetters := by
  intro s m
  refine ⟨fun p converted => ?_, fun p => ?_, fun p => ?_, fun p => ?_, fun p => ?_, fun p => ?_, fun p => ?_, fun p => ?_,
    fun p ready => ?_, fun p ready => ?_⟩
  · refine .now rfl p rfl ?_
    rw [acceptLetter_units, acceptLetter_reg _ _ _ (not_receiptReg_engine (convertedFe_engine converted))]
    simp only [specWrite, doneWith, State.writeEffect_converted converted]
    exact ⟨State.units_plainWrite .., State.reg_plainWrite ..⟩
  · refine .now rfl p rfl ⟨?_, rfl⟩
    rw [acceptLetter_units]
    exact (State.busRead_kept ..).frame.same .units rfl
  · exact .now rfl p rfl ⟨acceptLetter_units .., rfl⟩
  · refine .now rfl p rfl ?_
    simp only [specAbort]
    cases found : s.abortCase m with
    | pending k l => exact .inl ⟨k, l, rfl, rfl⟩
    | running k e => exact .inr ⟨k, e, rfl, rfl⟩
    | refused st => exact absurd found (specAbort_found p st)
  · exact .now rfl p rfl rfl
  · exact .now rfl p rfl rfl
  · refine .later rfl p rfl rfl ?_
    rw [(acceptLetter_kept ..).frame.same .icheck rfl]
    exact ⟨rfl, rfl⟩
  · refine .later rfl p rfl rfl ?_
    rw [(acceptLetter_kept ..).frame.same .fcheck rfl]
    exact ⟨rfl, rfl⟩
  · obtain ⟨delivered, queued⟩ := specCommit_delivered p ready
    exact ⟨_, congrArg Host.Outcome.next delivered, queued.image, queued.waits⟩
  · obtain ⟨delivered, queued⟩ := specCommit_delivered p ready
    exact ⟨_, congrArg Host.Outcome.next delivered, queued.firmware, queued.waits⟩

end Sys2Proof.Machine
end

section
/-!
The traction and chopper events (chapter 07).
-/
namespace Sys2Proof.Machine

/-- An image whose one leg is that of function 0, a chopper. -/
def chopperImage : Image where
  header := []
  units := []
  legs := [[0, 6, 0, 0, 0, 0, 0, 0]]
  loops := []
  sched := []
  ledger := []
  threshs := []
  pins := []
  tables := []

/-- The chopper runs at 6399 V, with no power to dump and its resistor cold, while a fault of it waits for the boundary. -/
def chopperFaulted : State :=
  let s : State := { State.reset with
    img := some chopperImage
    units := [(U.fn 0, ⟨.running, 1⟩)]
    po := { State.reset.po with hw := [.fault (U.fn 0)] } }
  (s.setFld (R.FCV_CHn_LAST 0) F.FCV_CHn_LAST_VALUE 32000).setFld (R.FCV_CHn_FS 0) F.FCV_CHn_FS_FS 65535

/-- A fault that waits for the boundary has already taken the chopper's pulses. -/
theorem chopperFaulted_duty : ∀ t, exec (.chopperPeriod 0) chopperFaulted = .next t → (t.tr 0).duty = 0 := by
  intro t run
  obtain rfl := Host.Outcome.next.inj run
  decide +kernel

/-- Refutes O28: a chopper that is RUNNING of record gives no pulse while a fault of it waits for the boundary, whatever the link voltage. -/
theorem not_tractionEvents : ¬ Obligations.TractionEvents := by
  intro h
  obtain ⟨-, -, duty, -⟩ := h chopperFaulted 0 (by decide)
  obtain ⟨t, run, full⟩ := duty (by decide +kernel) (by decide +kernel) (by decide +kernel) (by decide +kernel)
  rw [chopperFaulted_duty t run] at full
  exact absurd full (by decide +kernel)

end Sys2Proof.Machine
end

section
/-!
The events of the 48 V and 12 V supplies (chapter 09).
-/
namespace Sys2Proof.Machine

/-- The regulator in REGULATE, its zero offset 0, with phases 0 and 1 active, whose currents were 0 for the last 10 µs. -/
def balanceWindow : State :=
  let phases := (State.reset.setFld R.REG_STATE F.REG_STATE_ACTIVE 3).setFld R.REG_STATE F.REG_STATE_USED 3
  { (phases.setFld R.REG_STATE F.REG_STATE_PHASE 2).setFld R.REG_SENSE F.REG_SENSE_ZERO 0 with
    time := 1000, rgl := { State.reset.rgl with bwin := [(0, [])] } }

/-- Phases 0 and 1 are now measured at 0 and 165 A. -/
def balanceSense : RegIn := ⟨0, [0, 512]⟩

/-- The balance works on the means of the window (R245), which the currents of the moment have not moved yet. -/
theorem balanceWindow_trim :
    (afterOut balanceWindow (exec (.regBalance balanceSense) balanceWindow)).sfld (R.REG_PHn 0) F.REG_PHn_TRIM = 0 := by
  decide +kernel

/-- Refutes O29: the statement trims phase 0 by the currents of the moment, the model not at all while their means are below 5 A. -/
theorem not_supplyEvents : ¬ Obligations.SupplyEvents := by
  intro h
  obtain ⟨-, -, -, -, -, -, -, balance, -⟩ := h balanceWindow 0 0 0 balanceSense (by decide)
  obtain ⟨t, run, -, trims⟩ := balance (by decide +kernel)
  have trim := balanceWindow_trim
  rw [run, afterOut, trims 0 (by decide)] at trim
  exact absurd trim (by decide +kernel)

end Sys2Proof.Machine
end

section
/-!
How far the registers of a withdrawal, a fault and a stop reach: those of the ledger and the engines for a withdrawal, with the unit's own for
what makes it.
-/
namespace Sys2Proof.Machine

variable {s : State} {a f n k : Nat}

theorem State.reg_setFld_ne {b : Nat} (h : a ≠ b) (s : State) (g : Fld) (v : Nat) : (s.setFld b g v).reg a = s.reg a := State.reg_setReg_ne h _

theorem State.reg_setFlag_ne {b : Nat} (h : a ≠ b) (s : State) (g : Fld) : (s.setFlag b g).reg a = s.reg a := State.reg_setReg_ne h _

/-! ### A withdrawal (R307) -/

theorem Image.mem_functions {im : Image} (h : f ∈ im.functions) : f < 16 := List.mem_range.mp (List.mem_filter.mp h).1

theorem State.mem_functions (h : f ∈ s.functions) : f < 16 := by
  unfold State.functions State.withImg at h
  split at h
  · cases h
  · exact Image.mem_functions h

theorem State.mem_enginesOf (h : n ∈ s.enginesOf f) : n < 8 := by
  unfold State.enginesOf State.withImg at h
  split at h
  · cases h
  · exact List.mem_range.mp (List.mem_filter.mp h).1

/-- Above the blocks of the ledger and the engines. -/
def aboveEngines (a : Nat) : Prop := 0x40180000 ≤ a

theorem State.reg_queueWithdrawn (h : aboveEngines a) (s : State) (n f : Nat) (x : Notice) : (s.queueWithdrawn n f x).reg a = s.reg a := by
  have stat : a ≠ R.LDG_WQSTAT := by simp only [aboveEngines, R.LDG_WQSTAT] at *; omega
  have evt : a ≠ R.LDG_EVT := by simp only [aboveEngines, R.LDG_EVT] at *; omega
  unfold State.queueWithdrawn
  extract_lets entry full q _ s1 s2
  have h2 : s2.reg a = s.reg a := by
    unfold s2; split
    · rw [State.reg_setFlag_ne evt, State.incSat, State.reg_setFld_ne stat]; rfl
    · rfl
  rw [State.reg_setFlag_ne evt, State.reg_setFld_ne stat, h2]

theorem State.reg_withdrawEngine (h : aboveEngines a) (few : n < 8) (s : State) (f : Nat) : (s.withdrawEngine f n).reg a = s.reg a := by
  have evt : a ≠ R.FEn_EVT n := by simp only [aboveEngines, R.FEn_EVT] at *; omega
  have count : a ≠ R.FEn_WDCNT n := by simp only [aboveEngines, R.FEn_WDCNT] at *; omega
  have queued : ∀ t : State, ∀ l, (t.each l fun s x => s.queueWithdrawn n f x).reg a = t.reg a := fun t l =>
    State.reg_each fun u x _ => State.reg_queueWithdrawn h u n f x
  rw [State.withdrawEngine, State.reg_updE, State.incFld, State.reg_setFld_ne count, State.feFlag, State.reg_updE, State.reg_setFlag_ne evt]
  exact queued s _

theorem State.reg_withdraw (h : aboveEngines a) (few : f < 256) (s : State) : (s.withdraw f).reg a = s.reg a := by
  have power : a ≠ R.LDG_PNf f := by simp only [aboveEngines, R.LDG_PNf] at *; omega
  unfold State.withdraw
  extract_lets es s1 s2
  have h1 : s1.reg a = s.reg a := State.reg_each fun _ _ _ => rfl
  have h2 : s2.reg a = s1.reg a := State.reg_each fun u n mem =>
    State.reg_withdrawEngine h (State.mem_enginesOf (List.mem_filter.mp mem).1) u f
  split
  · exact h2.trans h1
  · exact (State.reg_setReg_ne power _).trans (h2.trans h1)

theorem State.reg_withdrawOnce (h : aboveEngines a) (few : f < 256) (s : State) : (s.withdrawOnce f).reg a = s.reg a := by
  unfold State.withdrawOnce
  split
  · exact State.reg_withdraw h few s
  · rfl

theorem State.reg_fnFail (h : aboveEngines a) (few : f < 256) (s : State) (c pos : Nat) : (s.fnFail f c pos).reg a = s.reg a := by
  unfold State.fnFail
  split
  · rfl
  · rw [State.reg_withdraw h few, (State.sendFrame_kept ..).frame.reg_apart rfl, (State.fnRecord_kept ..).frame.reg_apart rfl]

/-! ### Rounds -/

theorem State.reg_chopDetect (h : aboveEngines a) (few : f < 256) (s : State) (c : Nat) : (s.chopDetect f c).reg a = s.reg a := by
  rw [State.chopDetect, (State.zeroK_kept ..).frame.reg_apart rfl]
  exact State.reg_fnFail h few s c 0xFF

theorem State.reg_chopCheck (h : aboveEngines a) (s : State) (ch : Nat) : (s.chopCheck ch).reg a = s.reg a := by
  refine State.reg_each fun u f mem => ?_
  have few : f < 256 := Nat.lt_trans (State.mem_functions (List.mem_filter.mp mem).1) (by decide)
  dsimp only
  split
  · exact State.reg_chopDetect h few ..
  · split
    · exact State.reg_chopDetect h few ..
    · rfl

/-- What is made of a round's result reaches REG_VIN and what a withdrawal does. -/
theorem State.reg_rndSeen (h : aboveEngines a) (vin : a ≠ R.REG_VIN) (s : State) (r ch : Nat) (entry : List Byte) :
    (s.rndSeen r ch entry).reg a = s.reg a := by
  have round (t : State) (c : Nat) (v : Int) : (t.regRound c v).reg a = t.reg a := by
    unfold State.regRound
    extract_lets s1
    have h1 : s1.reg a = t.reg a := by
      unfold s1; split
      · exact State.reg_setFld_ne vin ..
      · rfl
    split
    · exact h1
    · exact h1
  rw [State.rndSeen, round, State.reg_chopCheck h]

/-! ### The charger's hard stop, and the sequencer -/

/-- Above the blocks of the charger and of the sequencer. -/
def aboveGearbox (a : Nat) : Prop := 0x40220000 ≤ a

theorem aboveGearbox.engines (h : aboveGearbox a) : aboveEngines a := Nat.le_trans (by decide) h

theorem State.reg_windStop (h : aboveEngines a) (few : f < 256) (s : State) (es : List Nat) : (s.windStop f es).reg a = s.reg a := by
  have stops (t : State) (l : List Nat) : (t.each l fun s k => s.hwMove (U.fe k) [.running, .stopping] .armed).reg a = t.reg a :=
    State.reg_each fun _ _ _ => rfl
  have legs (t : State) (l : List Nat) : (t.each l fun s k => (s.setShadow k none).setDuty k none).reg a = t.reg a :=
    State.reg_each fun _ _ _ => rfl
  rw [State.windStop, stops, State.reg_withdrawOnce h few, legs]

theorem State.reg_chgHardStop_ne (h : aboveEngines a) (limit : a ≠ R.CHG_ILIM) (s : State) : s.chgHardStop.reg a = s.reg a := by
  unfold State.chgHardStop
  extract_lets fs s1
  have h1 : s1.reg a = s.reg a := by
    refine State.reg_each fun u f mem => ?_
    have few : f < 256 := by
      simp only [fs, List.mem_append, List.mem_ite_nil_right, List.mem_singleton] at mem
      omega
    exact (State.reg_each (f := fun s n => s.setDuty n none) fun _ _ _ => rfl).trans (State.reg_withdrawOnce h few u)
  exact (State.reg_setFld_ne limit ..).trans h1

theorem State.reg_chgHardStop (h : aboveGearbox a) (s : State) : s.chgHardStop.reg a = s.reg a :=
  State.reg_chgHardStop_ne h.engines (by simp only [aboveGearbox, R.CHG_ILIM] at *; omega) s

theorem State.reg_chgFail (h : aboveGearbox a) (s : State) (c : Nat) : (s.chgFail c).reg a = s.reg a := by
  have fault : a ≠ R.CHG_FLT := by simp only [aboveGearbox, R.CHG_FLT] at *; omega
  have evt : a ≠ R.CHG_EVT := by simp only [aboveGearbox, R.CHG_EVT] at *; omega
  have mark : (s.chgMark c).reg a = s.reg a := by
    have record (t : State) (x : ChgSt) : ({ t with chg := x } : State).reg a = t.reg a := rfl
    unfold State.chgMark
    extract_lets s1
    exact (record s1 _).trans ((State.reg_setFlag_ne evt ..).trans (State.reg_setBit_ne fault ..))
  have signal (t : State) : (s.chgSignal t c).reg a = t.reg a := by
    have may {q : Prop} [Decidable q] (u : State) (n : Nat) : (if q then u.sendFrame 3 n c else u).reg a = u.reg a := by
      split
      · exact (State.sendFrame_kept ..).frame.reg_apart rfl
      · rfl
    unfold State.chgSignal
    extract_lets s3 s4 s5
    have h5 : s5.reg a = t.reg a := (may s4 _).trans ((may s3 _).trans (may t _))
    split
    · rw [State.reg_chgHardStop h, (State.chgReason_kept ..).frame.reg_apart rfl, h5]
    · exact h5
  rw [State.chgFail_eq]
  split
  · rfl
  · split
    · exact mark
    · rw [(State.hwFault_kept ..).frame.reg_apart rfl, signal, mark]

theorem State.chgWind_lt (s : State) : s.chgWind < 256 := fld_lt ..

theorem State.reg_chgGearCheck (h : aboveGearbox a) (s : State) : s.chgGearCheck.reg a = s.reg a := by
  unfold State.chgGearCheck
  split
  · rw [State.reg_chgFail h, State.reg_windStop h.engines s.chgWind_lt]
  · rfl

theorem State.reg_acStop (h : a ≠ R.ACk_STATE k) (s : State) : (s.acStop k).reg a = s.reg a := by
  unfold State.acStop
  extract_lets s1
  split
  · exact State.reg_updAc ..
  · rw [State.acOff, State.reg_updAc, State.setAcPhase, State.reg_setFld_ne h]
    exact State.reg_updAc ..

theorem State.reg_gbxFail (h : aboveGearbox a) (s : State) (c : Nat) : (s.gbxFail c).reg a = s.reg a := by
  have fault : a ≠ R.GBX_FLT := by simp only [aboveGearbox, R.GBX_FLT] at *; omega
  have evt : a ≠ R.GBX_EVT := by simp only [aboveGearbox, R.GBX_EVT] at *; omega
  unfold State.gbxFail
  extract_lets st s1 s2
  have h1 : s1.reg a = s.reg a := (State.reg_updGb ..).trans ((State.reg_setFlag_ne evt ..).trans (State.reg_setBit_ne fault ..))
  have h2 : s2.reg a = s1.reg a := by
    refine State.reg_each fun u k mem => ?_
    have few : k < 3 := List.mem_range.mp (List.mem_filter.mp mem).1
    have state : a ≠ R.ACk_STATE k := by simp only [aboveGearbox, R.ACk_STATE] at *; omega
    split
    · exact State.reg_acStop state u
    · rfl
  split
  · rfl
  · split
    · exact h1
    · exact ((State.hwFault_kept ..).frame.reg_apart rfl).trans (h2.trans h1)

/-- What a frame of a position sensor makes of the sequencer reaches no register above the sequencer's block. -/
theorem State.reg_gbxFrame (h : aboveGearbox a) (s : State) (i : Nat) (valid : Bool) (nibbles data : Nat) :
    (s.gbxFrame i valid nibbles data).reg a = s.reg a := by
  have pos0 : a ≠ R.GBX_POS0 := by simp only [aboveGearbox, R.GBX_POS0] at *; omega
  have pos1 : a ≠ R.GBX_POS1 := by simp only [aboveGearbox, R.GBX_POS1] at *; omega
  have state : a ≠ R.GBX_STATE := by simp only [aboveGearbox, R.GBX_STATE] at *; omega
  have evt : a ≠ R.GBX_EVT := by simp only [aboveGearbox, R.GBX_EVT] at *; omega
  unfold State.gbxFrame
  extract_lets ms
  split
  · rfl
  · refine State.reg_each fun u m _ => ?_
    extract_lets pos s1 old r s2 s3 s5 s4
    have h1 : s1.reg a = u.reg a := by
      unfold s1; split
      · exact State.reg_setFld_ne pos0 ..
      · split
        · exact State.reg_setFld_ne pos0 ..
        · exact State.reg_setFld_ne pos1 ..
    have h2 : s2.reg a = u.reg a := (State.reg_updGb ..).trans ((State.reg_setFld_ne state ..).trans h1)
    have h3 : s3.reg a = u.reg a := by
      unfold s3; split
      · exact h2
      · exact (State.reg_setFlag_ne evt ..).trans h2
    have h4 : s4.reg a = u.reg a := by
      unfold s4; split
      · split
        · exact (State.reg_gbxFail h ..).trans h3
        · have h5 : s5.reg a = u.reg a := (State.reg_updGb ..).trans h3
          split
          · exact h5
          · exact (State.reg_updAc ..).trans h5
      · exact h3
    exact (State.reg_chgGearCheck h s4).trans h4

end Sys2Proof.Machine
end

section
/-!
The events of the round converters, the position sources and the SENT inputs (chapter 06).
-/
namespace Sys2Proof.Machine

variable {s : State} {a r k n entry : Nat}

/-! ### A sample -/

/-- Engine j samples now, with nothing of the sample there yet. -/
structure State.Sampling (s : State) (j : Nat) : Prop where
  at_ : (s.e j).sampleAt = s.time
  waiting : (s.e j).waiting = true
  samp : (s.e j).samp = []

theorem State.settleReset_e_ne {j : Nat} (h : j ≠ k) (s : State) : (s.settleReset k).e j = s.e j := by
  have factors : (s.resetFactors k).e j = s.e j := State.e_updE_ne _ _ _ h
  unfold State.settleReset
  split
  · exact factors
  · rfl

/-- A trigger's sample of one engine: what it is taken with, and that its results are awaited. -/
def State.sampleEngine (s : State) (k : Nat) : State :=
  let s := s.settleReset k
  let p := s.parAt k
  s.updE k fun e => { e with par := p, sampleAt := s.time, waiting := true, bad := false, skip := false, samp := [] }

theorem State.sampleEngine_kept (s : State) (k : Nat) : Kept [.eng, .reg .FEn_ADFAC] s (s.sampleEngine k) := by
  unfold State.sampleEngine
  exact .via (State.updE_kept ..) rfl (State.settleReset_kept ..)

theorem State.sampleEngine_samples (s : State) (k : Nat) : (s.sampleEngine k).Sampling k := by
  unfold State.sampleEngine
  refine ⟨?_, ?_, ?_⟩ <;> rw [State.e_updE]
  rfl

theorem State.Sampling.sampleEngine {j : Nat} (h : s.Sampling j) (k : Nat) : (s.sampleEngine k).Sampling j := by
  by_cases same : j = k
  · subst same
    exact State.sampleEngine_samples s j
  · have time : (s.sampleEngine k).time = s.time := (State.sampleEngine_kept s k).frame.same .time rfl
    have rest : (s.sampleEngine k).e j = s.e j := (State.e_updE_ne _ _ _ same).trans (State.settleReset_e_ne same s)
    obtain ⟨at_, waiting, samp⟩ := h
    exact ⟨by rw [rest, time, at_], by rw [rest, waiting], by rw [rest, samp]⟩

/-- A trigger that applies: each engine of the pair samples now. -/
theorem sampleTrigger_samples {early : Bool} {apert : List Nat} {angles : List PosIn}
    (runs : ((s.each angles State.resolverIn).ust (U.fe (((s.each angles State.resolverIn).pairEngines n).headD n))).active = true) :
    Answers (.sampleTrigger n early apert angles) s fun t =>
      ∀ j ∈ (s.each angles State.resolverIn).pairEngines n, (t.e j).sampleAt = s.time ∧ (t.e j).waiting = true ∧ (t.e j).samp = [] := by
  refine ⟨_, congrArg Host.Outcome.next (if_neg (by rw [runs]; decide)), fun j mem => ?_⟩
  have sense : (s.each angles State.resolverIn).time = s.time :=
    (Kept.each (fun u p => State.resolverIn_kept u p) (.refl _ s)).frame.same .time rfl
  generalize s.each angles State.resolverIn = u at *
  have hits (t : State) (l : List Nat) :
      (t.each l fun s l => (s.incSat (R.MOD_LCNTn l) F.MOD_LCNTn_APERT).setFlag R.MOD_EVT F.MOD_EVT_APERTURE).eng = t.eng :=
    (Kept.each (c := [.reg .MOD_EVT, .reg .MOD_LCNTn]) (fun u l => .via (State.setFlag_kept .MOD_EVT ..) rfl
      ((State.incSat_kept (.MOD_LCNTn l) ..).mono rfl)) (.refl _ t)).frame.same .eng rfl
  have time : (u.each (u.pairEngines n) State.sampleEngine).time = u.time :=
    (Kept.each State.sampleEngine_kept (.refl _ u)).frame.same .time rfl
  obtain ⟨at_, waiting, samp⟩ : (u.each (u.pairEngines n) State.sampleEngine).Sampling j :=
    State.each_makes (P := fun t => t.Sampling j) mem (fun t => t.sampleEngine_samples j) (fun t k held => held.sampleEngine k) u
  simp only [State.e, hits]
  exact ⟨at_.trans (time.trans sense), waiting, samp⟩

/-! ### The round converters -/

/-- A converter's queue shows in four of its registers. -/
theorem State.reg_syncRnd (state : a ≠ R.RNDr_STATE r) (stat : a ≠ R.RNDr_RQSTAT r) (lo : a ≠ R.RNDr_RQLO r) (hi : a ≠ R.RNDr_RQHI r)
    (s : State) : (s.syncRnd r).reg a = s.reg a := by
  unfold State.syncRnd
  extract_lets q h
  rw [State.reg_setReg_ne hi, State.reg_setReg_ne lo, State.reg_setFld_ne stat, State.reg_setFld_ne state]

theorem State.fld_syncRnd_entry (s : State) (r : Nat) :
    (s.syncRnd r).fld (R.RNDr_STATE r) F.RNDr_STATE_ENTRY = s.fld (R.RNDr_STATE r) F.RNDr_STATE_ENTRY := by
  have lo : R.RNDr_STATE r ≠ R.RNDr_RQLO r := by simp only [R.RNDr_STATE, R.RNDr_RQLO]; omega
  have hi : R.RNDr_STATE r ≠ R.RNDr_RQHI r := by simp only [R.RNDr_STATE, R.RNDr_RQHI]; omega
  have stat : R.RNDr_STATE r ≠ R.RNDr_RQSTAT r := by simp only [R.RNDr_STATE, R.RNDr_RQSTAT]; omega
  unfold State.syncRnd
  extract_lets q h
  rw [State.fld, State.reg_setReg_ne hi, State.reg_setReg_ne lo, State.reg_setFld_ne stat]
  exact State.fld_setFld_apart _ _ rfl rfl rfl _

theorem State.fld_urgentStart_entry (s : State) (r : Nat) :
    (s.urgentStart r).fld (R.RNDr_STATE r) F.RNDr_STATE_ENTRY = s.fld (R.RNDr_STATE r) F.RNDr_STATE_ENTRY := by
  unfold State.urgentStart
  split
  · split
    · exact State.fld_syncRnd_entry ..
    · rfl
  · rfl

/-- The state register of the converter after a round's entry: the entry that follows in the sequence. -/
theorem State.entryDone_entry (few : entry < 64) (s : State) (watch : Bool) :
    (s.entryDone r entry watch).fld (R.RNDr_STATE r) F.RNDr_STATE_ENTRY =
      if entry < 63 ∧ s.flag (R.RNDr_SEQe r (entry + 1)) F.RNDr_SEQe_VALID = true then entry + 1 else 0 := by
  unfold State.entryDone
  extract_lets next go
  have small : next < 64 := by unfold next; split <;> omega
  have is : (if entry < 63 ∧ s.flag (R.RNDr_SEQe r (entry + 1)) F.RNDr_SEQe_VALID = true then entry + 1 else 0) = next := rfl
  rw [is]
  clear_value next
  rw [State.fld_urgentStart_entry, State.fld, State.reg_updRd]
  exact (State.fld_setFld _ rfl _).trans (Nat.mod_eq_of_lt small)

/-- A result reaches the converter's queue, its own register and its event. -/
theorem State.reg_rndDeliver {ch : Nat} (state : a ≠ R.RNDr_STATE r) (stat : a ≠ R.RNDr_RQSTAT r) (lo : a ≠ R.RNDr_RQLO r)
    (hi : a ≠ R.RNDr_RQHI r) (evt : a ≠ R.RNDr_EVT r) (last : a ≠ R.RNDr_LASTc r ch) (s : State) (slot m k : Nat) (urgent : Bool) :
    (s.rndDeliver r ch slot m k urgent).1.reg a = s.reg a := by
  unfold State.rndDeliver
  extract_lets c full
  split
  extract_lets v b3 bytes s1 s2 s3
  have h2 : s2.reg a = s.reg a := by
    unfold s2; split
    · rw [State.reg_setFlag_ne evt, State.incSat, State.reg_setFld_ne stat]; rfl
    · rfl
  have h3 : s3.reg a = s.reg a := (State.reg_syncRnd state stat lo hi _).trans ((State.reg_setReg_ne last _).trans h2)
  show (if _ then s3.setFlag _ _ else s3).reg a = s.reg a
  split
  · exact (State.reg_setFlag_ne evt ..).trans h3
  · exact h3

/-- A round's entry that is taken: the sequence goes on behind it. -/
theorem roundEntry_goes {rs : List Nat} (few : r < 2) (small : entry < 64) (live : s.entryLive r entry = true) :
    Answers (.roundEntryResult r entry rs) s fun t => t.fld (R.RNDr_STATE r) F.RNDr_STATE_ENTRY =
      if entry < 63 ∧ s.flag (R.RNDr_SEQe r (entry + 1)) F.RNDr_SEQe_VALID = true then entry + 1 else 0 := by
  refine ⟨_, congrArg Host.Outcome.next (if_neg (by rw [live]; decide)), ?_⟩
  have ch : getF (s.reg (R.RNDr_SEQe r entry)) F.RNDr_SEQe_CHANNEL < 64 := s.fld_lt (R.RNDr_SEQe r entry) F.RNDr_SEQe_CHANNEL
  dsimp only
  generalize getF (s.reg (R.RNDr_SEQe r entry)) F.RNDr_SEQe_CHANNEL = ch at *
  rw [(State.linkDone_kept ..).frame.fld_apart rfl, (State.rndSettle_kept ..).frame.fld_apart rfl, State.fld,
    State.reg_rndSeen (by simp only [aboveEngines, R.RNDr_STATE]; omega) (by simp only [R.RNDr_STATE, R.REG_VIN]; omega)]
  refine (State.entryDone_entry small ..).trans ?_
  by_cases last : entry < 63
  · have seq : R.RNDr_SEQe r (entry + 1) = 0x401B0100 + 0x10000 * r + 4 * (entry + 1) := rfl
    rw [State.flag, State.fld, State.reg_rndDeliver (by simp only [seq, R.RNDr_STATE]; omega) (by simp only [seq, R.RNDr_RQSTAT]; omega)
      (by simp only [seq, R.RNDr_RQLO]; omega) (by simp only [seq, R.RNDr_RQHI]; omega) (by simp only [seq, R.RNDr_EVT]; omega)
      (by simp only [seq, R.RNDr_LASTc]; omega)]
    rfl
  · rw [if_neg fun h => last h.1, if_neg fun h => last h.1]

theorem State.urgentStart_rd {x : Urgent} {l : List Urgent} (idle : (s.rd r).active = none) (head : (s.rd r).urgent = x :: l)
    (arrived : x.arrived = true) : ((s.urgentStart r).rd r).active = some x ∧ ((s.urgentStart r).rd r).urgent = l := by
  have start : s.urgentStart r = (s.updRd r fun y => { y with active := some x, urgent := l }).syncRnd r := by
    rw [State.urgentStart, idle, head]
    exact if_pos arrived
  rw [start, State.rd_syncRnd, State.rd_updRd]
  exact ⟨rfl, rfl⟩

theorem State.urgentStart_idle (none : (s.rd r).urgent = []) : s.urgentStart r = s := by
  unfold State.urgentStart
  split
  · next e => rw [none] at e; cases e
  · rfl

theorem arriveFirst_head {x : Urgent} (l : List Urgent) (waits : x.arrived = false) : arriveFirst (x :: l) = { x with arrived := true } :: l := by
  simp [arriveFirst, waits]

theorem urgentArrival_starts {x : Urgent} {l : List Urgent} {raw : Nat} (few : r < 2) (sound : s.faultPending (U.rnd r) = false)
    (runs : s.ust (U.rnd r) = .running) (idle : (s.rd r).active = none) (head : (s.rd r).urgent = x :: l) (waits : x.arrived = false) :
    Answers (.urgentArrival r raw) s fun t =>
      (raw ≠ 2 ∨ s.protectedNow r = false → (t.rd r).active = some { x with arrived := true } ∧ (t.rd r).urgent = l) ∧
      (raw = 2 → s.protectedNow r = true → (t.rd r).active = none ∧ (t.rd r).urgent = { x with arrived := true } :: l) := by
  refine ⟨_, congrArg Host.Outcome.next (if_neg (by simp [sound, runs]; omega)), ?_⟩
  dsimp only
  have first : ((s.updRd r fun x => { x with urgent := arriveFirst x.urgent }).rd r).active = none ∧
      ((s.updRd r fun x => { x with urgent := arriveFirst x.urgent }).rd r).urgent = { x with arrived := true } :: l := by
    rw [State.rd_updRd, head, arriveFirst_head l waits]
    exact ⟨idle, rfl⟩
  generalize s.updRd r (fun x => { x with urgent := arriveFirst x.urgent }) = s1 at *
  by_cases hold : raw = 2 ∧ s.protectedNow r = true
  · rw [if_pos hold]
    refine ⟨fun h => ?_, fun _ _ => first⟩
    rcases h with h | h
    · exact absurd hold.1 h
    · rw [hold.2] at h; cases h
  · rw [if_neg hold]
    exact ⟨fun _ => State.urgentStart_rd first.1 first.2 rfl, fun two now => absurd ⟨two, now⟩ hold⟩

theorem State.flag_of_top {w : Nat} (top : 2147483648 ≤ w) (small : w < 4294967296) (s : State) (r : Nat) :
    (s.setReg (R.RNDr_URGRES r) (BitVec.ofNat 32 w)).flag (R.RNDr_URGRES r) F.RNDr_URGRES_NEW = true := by
  rw [State.flag, State.fld, State.reg_setReg, getF, bitsOf, BitVec.toNat_ofNat, Nat.mod_eq_of_lt small]
  simp only [F.RNDr_URGRES_NEW]
  rw [bne_iff_ne]
  omega

theorem State.rndDeliver_urgent (s : State) (r ch slot m k : Nat) (urgent : Bool) :
    ((s.rndDeliver r ch slot m k urgent).1.rd r).urgent = (s.rd r).urgent := by
  unfold State.rndDeliver
  extract_lets c full
  split
  extract_lets v b3 bytes s1 s2 s3
  have h1 : (s1.rd r).urgent = (s.rd r).urgent := by simp only [s1, State.rd_updRd]
  have h2 : s2.rd r = s1.rd r := by
    unfold s2
    split
    · rw [State.setFlag, State.incSat, State.rd_setFld, State.rd_setFld]
    · rfl
  have h3 : s3.rd r = s1.rd r := (State.rd_syncRnd ..).trans ((State.rd_setReg ..).trans h2)
  show ((if _ then s3.setFlag _ _ else s3).rd r).urgent = _
  split
  · rw [State.setFlag, State.rd_setFld, h3, h1]
  · rw [h3, h1]

/-- An urgent conversion with its result delivered and shown. -/
def State.urgentDone (s : State) (r raw : Nat) (u : Urgent) : State :=
  let d := s.rndDeliver r u.channel u.slot (8 * (raw % 4096)) 0 true
  ((d.1.setReg (R.RNDr_URGRES r) (BitVec.ofNat 32 (2147483648 + leAt d.2 0 3))).setFlag (R.RNDr_EVT r) F.RNDr_EVT_URGDONE).updRd r
    fun x => { x with active := none }

theorem State.urgentDone_rd (s : State) (r raw : Nat) (u : Urgent) : ((s.urgentDone r raw u).rd r).active = none ∧
    ((s.urgentDone r raw u).rd r).urgent = (s.rd r).urgent := by
  unfold State.urgentDone
  extract_lets d
  rw [State.rd_updRd, State.setFlag, State.rd_setFld, State.rd_setReg]
  exact ⟨rfl, State.rndDeliver_urgent ..⟩

theorem State.urgentDone_shows (s : State) (r raw : Nat) (u : Urgent) :
    (s.urgentDone r raw u).flag (R.RNDr_URGRES r) F.RNDr_URGRES_NEW = true ∧
    (s.urgentDone r raw u).flag (R.RNDr_EVT r) F.RNDr_EVT_URGDONE = true := by
  have apart : R.RNDr_URGRES r ≠ R.RNDr_EVT r := by simp only [R.RNDr_EVT, R.RNDr_URGRES]; omega
  unfold State.urgentDone
  extract_lets d
  simp only [State.flag, State.fld, State.reg_updRd]
  refine ⟨?_, ?_⟩
  · rw [State.reg_setFlag_ne apart]
    have small := leAt_lt d.2 0 3
    exact State.flag_of_top (by omega) (by omega) d.1 r
  · exact State.flag_setFlag _ rfl

/-- What becomes of a result once it is shown: its operation ends, and the rest of the converter's work goes on. -/
def State.urgentOn (s : State) (r : Nat) (u : Urgent) (bytes : List Byte) : State :=
  let s4 := match u.op with
    | some k => s.hwFinish k .done bytes
    | none => s
  (((s4.rndSeen r u.channel bytes).urgentStart r).rndSettle r).linkDone 4 (r + 2)

theorem execUrgentResult_active {x : Urgent} {raw : Nat} (few : r < 2) (active : (s.rd r).active = some x) : execUrgentResult r raw s =
    .next ((s.urgentDone r raw x).urgentOn r x (s.rndDeliver r x.channel x.slot (8 * (raw % 4096)) 0 true).2) := by
  unfold execUrgentResult
  rw [active]
  exact congrArg Host.Outcome.next (if_neg (Nat.not_le.mpr few))

/-- An urgent conversion's end, with none behind it in the queue. -/
theorem urgentResult_ends {x : Urgent} {raw : Nat} (few : r < 2) (active : (s.rd r).active = some x) (queue : (s.rd r).urgent = []) :
    Answers (.urgentResult r raw) s fun t => (t.rd r).active = none ∧ t.flag (R.RNDr_URGRES r) F.RNDr_URGRES_NEW = true ∧
      t.flag (R.RNDr_EVT r) F.RNDr_EVT_URGDONE = true := by
  refine ⟨_, execUrgentResult_active few active, ?_⟩
  have idle := s.urgentDone_rd r raw x
  obtain ⟨new, done⟩ := s.urgentDone_shows r raw x
  rw [queue] at idle
  generalize s.urgentDone r raw x = t at *
  unfold State.urgentOn
  extract_lets s4
  have op : Kept [.po] t s4 := by
    unfold s4; split
    · exact State.hwFinish_kept ..
    · exact .refl ..
  have rd : (s4.rndSeen r x.channel (s.rndDeliver r x.channel x.slot (8 * (raw % 4096)) 0 true).2).rd r = t.rd r := by
    rw [State.rd, (State.rndSeen_kept ..).frame.same .rnd rfl, op.frame.same .rnd rfl, State.rd]
  have reg (a : Nat) (above : aboveEngines a) (vin : a ≠ R.REG_VIN) :
      (s4.rndSeen r x.channel (s.rndDeliver r x.channel x.slot (8 * (raw % 4096)) 0 true).2).reg a = t.reg a :=
    (State.reg_rndSeen above vin ..).trans (op.frame.reg_apart rfl)
  rw [State.urgentStart_idle (by rw [rd]; exact idle.2)]
  refine ⟨?_, ?_, ?_⟩
  · rw [State.rd, (State.linkDone_kept ..).frame.same .rnd rfl, ← State.rd, State.rndSettle_rd, rd]
    exact idle.1
  · rw [(State.linkDone_kept ..).frame.flag_apart rfl, (State.rndSettle_kept ..).frame.flag_apart rfl, State.flag, State.fld,
      reg _ (by simp only [aboveEngines, R.RNDr_URGRES]; omega) (by simp only [R.RNDr_URGRES, R.REG_VIN]; omega)]
    exact new
  · rw [(State.linkDone_kept ..).frame.flag_apart rfl, (State.rndSettle_kept ..).frame.flag_apart rfl, State.flag, State.fld,
      reg _ (by simp only [aboveEngines, R.RNDr_EVT]; omega) (by simp only [R.RNDr_EVT, R.REG_VIN]; omega)]
    exact done

/-- A lapsed entry is watched no more. -/
theorem refreshLapse_lapses (few : r < 2) (small : entry < 64) (runs : s.ust (U.rnd r) = .running)
    (watched : FMap.get (fun _ => false) (s.rd r).watch entry = true) : Answers (.refreshLapse r entry) s fun t =>
    FMap.get (fun _ => false) (t.rd r).watch entry = false ∧ t.flag (R.RNDr_EVT r) F.RNDr_EVT_STALE = true ∧
      t.fld (R.RNDr_STALE r) F.RNDr_STALE_ENTRY = entry := by
  have apart : R.RNDr_EVT r ≠ R.RNDr_STALE r := by simp only [R.RNDr_EVT, R.RNDr_STALE]; omega
  refine ⟨_, congrArg Host.Outcome.next (if_neg (by simp [runs, watched]; omega)), ?_, ?_, ?_⟩
  · simp only [State.incSat, State.setFlag, State.rd_setFld, State.rd_updRd, FMap.get_set_same]
  · rw [State.incSat, State.flag, State.fld_setFld_ne apart, State.fld_setFld_ne apart]
    exact State.flag_setFlag _ rfl
  · rw [State.incSat, State.fld_setFld_apart _ _ rfl rfl rfl, State.fld_setFld _ rfl]
    exact Nat.mod_eq_of_lt small

/-- A bad reference: the converter's fault waits for the boundary, and nothing is queued any more. -/
theorem referenceFault_faults (few : r < 2) (on : s.ust (U.rnd r) ≠ .off) : Answers (.referenceFault r true) s fun t =>
    HwEvent.fault (U.rnd r) ∈ t.po.hw ∧ (t.rd r).refBad = true ∧ (t.rd r).urgent = [] := by
  refine ⟨_, congrArg Host.Outcome.next (if_neg (by omega)), ?_⟩
  dsimp only
  rw [if_neg (by simp [on])]
  refine ⟨State.hwFault_pending .., ?_⟩
  rw [State.rd, (State.hwFault_kept ..).frame.same .rnd rfl, ← State.rd]
  rw [State.setFlag, State.rd_setFld, State.rd_syncRnd, State.rd_updRd, State.rd_updRd]
  exact ⟨rfl, rfl⟩

/-! ### The position sources -/

theorem resolverFault_invalid {flag : Nat} (few : k < 2) (known : flag < 6) (live : s.posLive k = true) (bad : invalidating flag = true) :
    Answers (.resolverFault k flag) s fun t => t.flag (R.POSk_STAT k) F.POSk_STAT_VALID = false := by
  refine ⟨_, congrArg Host.Outcome.next ((if_neg (by simp [live]; omega)).trans (if_neg (by simp [bad]))), ?_⟩
  exact State.setPosValid_flag ..

theorem resolverValid_returns (few : k < 2) (live : s.posLive k = true) (excited : (s.ps k).excOff = false)
    (tracks : s.fld (R.POSk_STAT k) F.POSk_STAT_TERR < 10) : Answers (.resolverValidReturn k) s fun t =>
    t.flag (R.POSk_STAT k) F.POSk_STAT_VALID = true ∧ (t.ps k).present = 0 := by
  refine ⟨_, congrArg Host.Outcome.next (if_neg (by simp [live, excited]; omega)), State.setPosValid_flag .., ?_⟩
  rw [State.ps_updPs]

theorem State.ps_posFlag_count (s : State) (k b : Nat) : ((s.posFlag k b).ps k).count = (s.ps k).count ∧ ((s.posFlag k b).ps k).ab = (s.ps k).ab ∧
    ((s.posFlag k b).ps k).index = (s.ps k).index := by
  have bit (t : State) (a : Nat) (f : Fld) (i : Nat) : (t.setBit a f i).ps k = t.ps k := by unfold State.setBit; split <;> rfl
  rw [State.posFlag, State.ps_updPs, bit, bit]
  exact ⟨rfl, rfl, rfl⟩

theorem State.ps_setPosValid_count (s : State) (k : Nat) (v : Bool) : ((s.setPosValid k v).ps k).count = (s.ps k).count ∧
    ((s.setPosValid k v).ps k).ab = (s.ps k).ab ∧ ((s.setPosValid k v).ps k).index = (s.ps k).index := by
  have bit (t : State) (a : Nat) (f : Fld) (i : Nat) : (t.setBit a f i).ps k = t.ps k := by unfold State.setBit; split <;> rfl
  have clr (t : State) (a : Nat) (f : Fld) (i : Nat) : (t.clrBit a f i).ps k = t.ps k := by unfold State.clrBit; split <;> rfl
  unfold State.setPosValid
  extract_lets was s1 s2 s3
  have h2 : s2.ps k = s.ps k := by
    unfold s2; split
    · exact (bit ..).trans rfl
    · exact (clr ..).trans rfl
  have h3 : (s3.ps k).count = (s.ps k).count ∧ (s3.ps k).ab = (s.ps k).ab ∧ (s3.ps k).index = (s.ps k).index := by
    unfold s3; split
    · rw [h2]; exact ⟨rfl, rfl, rfl⟩
    · rw [State.ps_updPs, h2]; exact ⟨rfl, rfl, rfl⟩
  split
  · rw [bit]; exact h3
  · exact h3

/-- What a step of an encoder leaves: its count, and the last levels seen. -/
theorem State.ps_encPublish (s : State) (k : Nat) : ((s.encPublish k).ps k).count = (s.ps k).count ∧ ((s.encPublish k).ps k).ab = (s.ps k).ab ∧
    ((s.encPublish k).ps k).index = (s.ps k).index := by
  have reg (t : State) (a : Nat) (w : Word) : (t.setReg a w).ps k = t.ps k := rfl
  rw [State.encPublish, State.ps_updPs, reg]
  exact ⟨rfl, rfl, rfl⟩

theorem State.ps_encStep (s : State) (k : Nat) (d : Int) : ((s.encStep k d).ps k).count = (s.ps k).count + d ∧
    ((s.encStep k d).ps k).ab = (s.ps k).ab := by
  have reg (t : State) (a : Nat) (w : Word) : (t.setReg a w).ps k = t.ps k := rfl
  unfold State.encStep
  extract_lets l
  split
  extract_lets v s1
  have h1 : (s1.ps k).count = (s.ps k).count + d ∧ (s1.ps k).ab = (s.ps k).ab := by
    unfold s1
    rw [reg, (State.ps_encPublish ..).1, (State.ps_encPublish ..).2.1, State.ps_updPs]
    exact ⟨rfl, rfl⟩
  clear_value s1
  split
  · obtain ⟨count, ab, -⟩ := (s1.posFlag k 5).ps_setPosValid_count k false
    obtain ⟨count', ab', -⟩ := s1.ps_posFlag_count k 5
    rw [count, ab, count', ab']
    exact h1
  · exact h1

/-- An encoder's edges (R169): one place forward or back counts, two places at once make the count invalid. -/
theorem encoderCount_counts {a0 b0 x y : Bool} {old : Nat} (encoder : 2 ≤ k) (live : s.posLive k = true)
    (was : (s.ps k).ab.getD (2 * b2n a0 + b2n b0) = old) : Answers (.encoderCount k a0 b0 x y) s fun t =>
    (t.ps k).ab = some (2 * b2n x + b2n y) ∧
    (t.ps k).count = (s.ps k).count + (match (quadPlace (2 * b2n x + b2n y) + 4 - quadPlace old) % 4 with | 1 => 1 | 3 => -1 | _ => 0) ∧
    ((quadPlace (2 * b2n x + b2n y) + 4 - quadPlace old) % 4 = 2 → t.flag (R.POSk_STAT k) F.POSk_STAT_VALID = false) := by
  subst was
  refine ⟨_, congrArg Host.Outcome.next (if_neg (by simp [live]; omega)), ?_⟩
  dsimp only
  have seen : ((s.updPs k fun p => { p with ab := some (2 * b2n x + b2n y) }).ps k).ab = some (2 * b2n x + b2n y) ∧
      ((s.updPs k fun p => { p with ab := some (2 * b2n x + b2n y) }).ps k).count = (s.ps k).count := by
    rw [State.ps_updPs]; exact ⟨rfl, rfl⟩
  generalize s.updPs k (fun p => { p with ab := some (2 * b2n x + b2n y) }) = s1 at *
  have few : (quadPlace (2 * b2n x + b2n y) + 4 - quadPlace ((s.ps k).ab.getD (2 * b2n a0 + b2n b0))) % 4 < 4 := Nat.mod_lt _ (by decide)
  generalize (quadPlace (2 * b2n x + b2n y) + 4 - quadPlace ((s.ps k).ab.getD (2 * b2n a0 + b2n b0))) % 4 = place at *
  match place, few with
  | 0, _ => exact ⟨seen.1, by simp [seen.2], nofun⟩
  | 1, _ =>
    obtain ⟨count, ab⟩ := s1.ps_encStep k 1
    exact ⟨ab.trans seen.1, count.trans (by rw [seen.2]; rfl), nofun⟩
  | 2, _ =>
    obtain ⟨count, ab, -⟩ := (s1.posFlag k 6).ps_setPosValid_count k false
    obtain ⟨count', ab', -⟩ := s1.ps_posFlag_count k 6
    exact ⟨ab.trans (ab'.trans seen.1), by simp [count, count', seen.2], fun _ => State.setPosValid_flag ..⟩
  | 3, _ =>
    obtain ⟨count, ab⟩ := s1.ps_encStep k (-1)
    exact ⟨ab.trans seen.1, count.trans (by rw [seen.2]; rfl), nofun⟩

theorem State.setPosValid_lock (s : State) (k : Nat) (v : Bool) :
    (s.setPosValid k v).flag (R.POSk_STAT k) F.POSk_STAT_LOCK = s.flag (R.POSk_STAT k) F.POSk_STAT_LOCK := by
  rw [State.flag, State.setPosValid_fld, State.fld_setFld_apart _ _ rfl rfl rfl, State.flag]

theorem State.posFlag_stat (s : State) (k b : Nat) (f : Fld) : (s.posFlag k b).fld (R.POSk_STAT k) f = s.fld (R.POSk_STAT k) f := by
  have evt : R.POSk_STAT k ≠ R.POS_EVT := (posStat_apart k).2
  have flt : R.POSk_STAT k ≠ R.POSk_FLT k := by simp only [R.POSk_STAT, R.POSk_FLT]; omega
  rw [State.posFlag, State.fld_updPs, State.fld_setBit_ne evt, State.fld_setBit_ne flt]

/-- An encoder's index: the count begins again, and the source is locked. -/
theorem encoderIndex_indexes (encoder : 2 ≤ k) (live : s.posLive k = true) : Answers (.encoderIndex k) s fun t =>
    (t.ps k).count = 0 ∧ (t.ps k).index = true ∧ t.flag (R.POSk_STAT k) F.POSk_STAT_LOCK = true := by
  have set (t : State) (a : Nat) (f : Fld) (v : Nat) : (t.setFld a f v).ps k = t.ps k := rfl
  refine ⟨_, congrArg Host.Outcome.next (if_neg (by simp [live]; omega)), ?_⟩
  dsimp only
  have locked : ((((s.updPs k fun p => { p with count := 0, index := true }).encPublish k).setFlag (R.POSk_STAT k) F.POSk_STAT_LOCK).ps k).count = 0 ∧
      ((((s.updPs k fun p => { p with count := 0, index := true }).encPublish k).setFlag (R.POSk_STAT k) F.POSk_STAT_LOCK).ps k).index = true ∧
      (((s.updPs k fun p => { p with count := 0, index := true }).encPublish k).setFlag (R.POSk_STAT k) F.POSk_STAT_LOCK).flag
        (R.POSk_STAT k) F.POSk_STAT_LOCK = true := by
    rw [State.setFlag, set, (State.ps_encPublish ..).1, (State.ps_encPublish ..).2.2, State.ps_updPs]
    exact ⟨rfl, rfl, State.flag_setFlag _ rfl⟩
  generalize ((s.updPs k fun p => { p with count := 0, index := true }).encPublish k).setFlag (R.POSk_STAT k) F.POSk_STAT_LOCK = s1 at *
  obtain ⟨count, index, lock⟩ := locked
  split
  · obtain ⟨c, -, i⟩ := (s1.posFlag k 7).ps_setPosValid_count k false
    obtain ⟨c', -, i'⟩ := s1.ps_posFlag_count k 7
    refine ⟨c.trans (c'.trans count), i.trans (i'.trans index), ?_⟩
    rw [State.setPosValid_lock, State.flag, State.posFlag_stat]
    exact lock
  · obtain ⟨c, -, i⟩ := s1.ps_setPosValid_count k true
    refine ⟨?_, ?_, ?_⟩
    · rw [State.ps_updPs]; exact c.trans count
    · rw [State.ps_updPs]; exact i.trans index
    · rw [State.flag, State.fld_updPs]
      exact (State.setPosValid_lock ..).trans lock

/-! ### SENT inputs -/

theorem State.setSentValid_own (s : State) (v : Bool) : (s.setSentValid k v).sn k = { s.sn k with valid := v } := by
  have gbx (t : State) : (t.gbxFrame k false 0 0).sn k = t.sn k :=
    congrArg (fun q => FMap.get sentDefault q k) ((State.gbxFrame_kept ..).frame.same .sent rfl)
  have bit (t : State) (b : Nat) (f : Fld) (i : Nat) : (t.setBit b f i).sn k = t.sn k := by unfold State.setBit; split <;> rfl
  have clr (t : State) (b : Nat) (f : Fld) (i : Nat) : (t.clrBit b f i).sn k = t.sn k := by unfold State.clrBit; split <;> rfl
  unfold State.setSentValid
  extract_lets was s1 s2
  have h1 : s1.sn k = { s.sn k with valid := v } := State.sn_updSn ..
  have h2 : s2.sn k = { s.sn k with valid := v } := by
    unfold s2; split
    · exact (bit ..).trans h1
    · exact (clr ..).trans h1
  split
  · exact (gbx _).trans ((bit ..).trans h2)
  · exact h2

theorem sentTimeout_stops (live : s.sentLive k = true) : Answers (.sentTimeout k) s fun t => (t.sn k).goods = 0 ∧ (t.sn k).valid = false := by
  refine ⟨_, congrArg Host.Outcome.next (if_neg (by simp [live])), ?_⟩
  dsimp only
  rw [State.sn_updSn, State.setSentValid_own]
  exact ⟨rfl, rfl⟩

/-- Above the block of SENT_STATE, what makes an input valid or invalid writes SENT_EVT only. -/
theorem State.reg_setSentValid (h : aboveGearbox a) (state : a ≠ R.SENT_STATE) (evt : a ≠ R.SENT_EVT) (s : State) (v : Bool) :
    (s.setSentValid k v).reg a = s.reg a := by
  unfold State.setSentValid
  extract_lets was s1 s2
  have h2 : s2.reg a = s.reg a := by
    unfold s2; split
    · exact State.reg_setBit_ne state ..
    · exact State.reg_clrBit_ne state ..
  split
  · exact (State.reg_gbxFrame h ..).trans ((State.reg_setBit_ne evt ..).trans h2)
  · exact h2

/-- An input that becomes invalid sets its own field of SENT_EVT only. -/
theorem State.fld_setSentValid_err (s : State) (v : Bool) :
    (s.setSentValid k v).fld R.SENT_EVT F.SENT_EVT_ERR = s.fld R.SENT_EVT F.SENT_EVT_ERR := by
  have state : R.SENT_EVT ≠ R.SENT_STATE := by decide
  unfold State.setSentValid
  extract_lets was s1 s2
  have h2 : s2.fld R.SENT_EVT F.SENT_EVT_ERR = s.fld R.SENT_EVT F.SENT_EVT_ERR := by
    unfold s2; split
    · exact congrArg (getF · _) (State.reg_setBit_ne state ..)
    · exact congrArg (getF · _) (State.reg_clrBit_ne state ..)
  split
  · rw [State.fld, State.reg_gbxFrame (by unfold aboveGearbox; decide)]
    exact (State.fld_setBit_apart _ _ rfl rfl rfl ..).trans h2
  · exact h2

theorem sentErr_above (k : Nat) : aboveGearbox (R.SENTi_ERR k) ∧ R.SENTi_ERR k ≠ R.SENT_STATE ∧ R.SENTi_ERR k ≠ R.SENT_EVT := by
  simp only [aboveGearbox, R.SENTi_ERR, R.SENT_STATE, R.SENT_EVT]; omega

theorem State.sn_setBit (s : State) (b : Nat) (f : Fld) (i : Nat) : (s.setBit b f i).sn k = s.sn k := by unfold State.setBit; split <;> rfl

theorem State.fld_updSn (s : State) (n : Nat) (g : SentSt → SentSt) (a : Nat) (f : Fld) : (s.updSn n g).fld a f = s.fld a f := rfl

/-- A good frame counts, with its time, and ends the run of errors. -/
theorem State.sentGood_counts (s : State) (k : Nat) (f : SentIn) : ((s.sentGood k f).sn k).goods = (s.sn k).goods + 1 ∧
    ((s.sentGood k f).sn k).at_ = (s.time - sentSpan f) / 25 * 25 ∧ (s.sentGood k f).fld (R.SENTi_ERR k) F.SENTi_ERR_RUN = 0 := by
  obtain ⟨above, state, evt⟩ := sentErr_above k
  have time : R.SENTi_ERR k ≠ R.SENTi_TIME k := by simp only [R.SENTi_ERR, R.SENTi_TIME]; omega
  have fast : R.SENTi_ERR k ≠ R.SENTi_FAST k := by simp only [R.SENTi_ERR, R.SENTi_FAST]; omega
  have reg (t : State) (a : Nat) (w : Word) : (t.setReg a w).sn k = t.sn k := rfl
  have set (t : State) (a : Nat) (f : Fld) (v : Nat) : (t.setFld a f v).sn k = t.sn k := rfl
  unfold State.sentGood
  extract_lets n at_ d s1 s2 s3
  have h1 : s1.sn k = s.sn k ∧ s1.fld (R.SENTi_ERR k) F.SENTi_ERR_RUN = 0 := by
    unfold s1
    refine ⟨by rw [State.sn_setBit, reg, reg, set], ?_⟩
    rw [State.fld_setBit_ne evt, State.fld, State.reg_setReg_ne time, State.reg_setReg_ne fast]
    exact State.fld_setFld _ rfl 0
  have h2 : (s2.sn k).goods = (s.sn k).goods + 1 ∧ (s2.sn k).at_ = at_ ∧ s2.fld (R.SENTi_ERR k) F.SENTi_ERR_RUN = 0 := by
    unfold s2
    rw [State.sn_updSn, h1.1, State.fld_updSn]
    exact ⟨rfl, rfl, h1.2⟩
  have h3 : (s3.sn k).goods = (s.sn k).goods + 1 ∧ (s3.sn k).at_ = at_ ∧ s3.fld (R.SENTi_ERR k) F.SENTi_ERR_RUN = 0 := by
    unfold s3; split
    · rw [State.setSentValid_own, State.fld, State.reg_setSentValid above state evt]
      exact h2
    · exact h2
  split
  · have gbx : (s3.gbxFrame k true n d).sn k = s3.sn k :=
      congrArg (fun q => FMap.get sentDefault q k) ((State.gbxFrame_kept ..).frame.same .sent rfl)
    rw [gbx, State.fld, State.reg_gbxFrame above]
    exact h3
  · exact h3

theorem State.sentError_sn (s : State) (k e : Nat) : ((s.sentError k e).sn k).goods = (s.sn k).goods ∧ ((s.sentError k e).sn k).at_ = (s.sn k).at_ := by
  have set (t : State) (a : Nat) (f : Fld) (v : Nat) : (t.setFld a f v).sn k = t.sn k := rfl
  unfold State.sentError
  split
  · exact ⟨rfl, rfl⟩
  · rw [State.sn_updSn, set, State.incSat, set, State.sn_setBit]
    exact ⟨rfl, rfl⟩

theorem State.sentError_run (s : State) (k e : Nat) :
    (s.sentError k e).fld (R.SENTi_ERR k) F.SENTi_ERR_RUN = s.fld (R.SENTi_ERR k) F.SENTi_ERR_RUN := by
  unfold State.sentError
  split
  · rfl
  · rw [State.fld_updSn, State.fld_setFld_apart _ _ rfl rfl rfl, State.incSat, State.fld_setFld_apart _ _ rfl rfl rfl,
      State.fld_setBit_ne (sentErr_above k).2.2]

/-- An error is recorded as the last one, with its event. -/
theorem State.sentError_last {e : Nat} (few : k < 4) (some : e ≠ 0) (small : e < 64) (s : State) :
    (s.sentError k e).fld (R.SENTi_ERR k) F.SENTi_ERR_LAST = e ∧
    bitAt ((s.sentError k e).fld R.SENT_EVT F.SENT_EVT_ERR) k = true := by
  unfold State.sentError
  rw [if_neg some, State.fld_updSn, State.fld_updSn]
  refine ⟨(State.fld_setFld _ rfl _).trans (Nat.mod_eq_of_lt small), ?_⟩
  rw [State.fld_setFld_ne (sentErr_above k).2.2.symm, State.incSat, State.fld_setFld_ne (sentErr_above k).2.2.symm]
  refine (State.bitAt_setBit _ rfl s k few).trans ?_
  simp

theorem State.sentErrs_lt (s : State) (k : Nat) (f : SentIn) : s.sentErrs k f < 64 := by
  have bit (b : Bool) : b2n b ≤ 1 := by cases b <;> decide
  unfold State.sentErrs
  extract_lets fmt nom x n tick vary nib crc pause
  have h1 := bit (decide tick)
  have h2 := bit (decide vary)
  have h3 := bit (decide nib)
  have h4 := bit (!decide nib && decide crc)
  have h5 := bit pause
  omega

/-- The part of a good frame that its slow message, if it ends one, leaves. -/
structure State.GoodFrame (s t : State) (k : Nat) (f : SentIn) : Prop where
  goods : (t.sn k).goods = (s.sn k).goods + 1
  at_ : (t.sn k).at_ = (s.time - sentSpan f) / 25 * 25
  run : t.fld (R.SENTi_ERR k) F.SENTi_ERR_RUN = 0

theorem State.GoodFrame.slow {f : SentIn} {t : State} (h : s.GoodFrame t k f) (l : List Nat) :
    s.GoodFrame (t.updSn k fun x => { x with slow := l }) k f := by
  obtain ⟨goods, at_, run⟩ := h
  exact ⟨by rw [State.sn_updSn, goods], by rw [State.sn_updSn, at_], run⟩

theorem State.GoodFrame.error {f : SentIn} {t : State} (h : s.GoodFrame t k f) (e : Nat) : s.GoodFrame (t.sentError k e) k f := by
  obtain ⟨goods, at_, run⟩ := h
  exact ⟨(State.sentError_sn ..).1.trans goods, (State.sentError_sn ..).2.trans at_, (State.sentError_run ..).trans run⟩

theorem State.GoodFrame.message {f : SentIn} {t : State} (h : s.GoodFrame t k f) (w : Word) :
    s.GoodFrame ((t.setReg (R.SENTi_SLOW k) w).setBit R.SENT_EVT F.SENT_EVT_SLOW k) k f := by
  obtain ⟨goods, at_, run⟩ := h
  have slow : R.SENTi_ERR k ≠ R.SENTi_SLOW k := by simp only [R.SENTi_ERR, R.SENTi_SLOW]; omega
  have reg : (t.setReg (R.SENTi_SLOW k) w).sn k = t.sn k := rfl
  refine ⟨by rw [State.sn_setBit, reg, goods], by rw [State.sn_setBit, reg, at_], ?_⟩
  rw [State.fld_setBit_ne (sentErr_above k).2.2, State.fld, State.reg_setReg_ne slow]
  exact run

theorem State.goodFrame (s : State) (k : Nat) (f : SentIn) (g : SentSt → SentSt) (same : (g (s.sn k)).goods = (s.sn k).goods) :
    s.GoodFrame ((s.updSn k g).sentGood k f) k f := by
  obtain ⟨goods, at_, run⟩ := (s.updSn k g).sentGood_counts k f
  exact ⟨by rw [goods, State.sn_updSn, same], at_, run⟩

/-- A good frame of an input that lives. -/
theorem sentFrame_good {sync st : Nat} {data : List Nat} {pause : Option Nat} (live : s.sentLive k = true)
    (good : s.sentErrs k ⟨sync, st :: data, pause⟩ = 0) : Answers (.sentFrame k sync st data pause) s fun t =>
    (t.sn k).goods = (s.sn k).goods + 1 ∧ (t.sn k).at_ = (s.time - sentSpan ⟨sync, st :: data, pause⟩) / 25 * 25 ∧
      t.fld (R.SENTi_ERR k) F.SENTi_ERR_RUN = 0 := by
  refine ⟨_, congrArg Host.Outcome.next (if_neg (by simp [live])), ?_⟩
  dsimp only
  rw [good, if_neg (not_not_intro rfl)]
  have frame := s.goodFrame k ⟨sync, st :: data, pause⟩
    (fun x => { x with sync := sync, len := sentFrameTicks ⟨sync, st :: data, pause⟩ }) rfl
  generalize (s.updSn k _).sentGood k ⟨sync, st :: data, pause⟩ = t at *
  generalize (if bitAt (s.fld (R.SENTi_CFG k) F.SENTi_CFG_FORMAT) 6 = true then
    slowPush (s.sn k).slow ((sentNibbles ⟨sync, st :: data, pause⟩).headD 0) else []) = l
  suffices h : s.GoodFrame _ k ⟨sync, st :: data, pause⟩ from ⟨h.goods, h.at_, h.run⟩
  split
  · exact frame.slow l
  · split
    · exact ((frame.slow l).slow []).message _
    · exact ((frame.slow l).slow []).error 32

/-- A bad frame ends the good ones, and is recorded with its event. -/
theorem sentFrame_bad {sync st : Nat} {data : List Nat} {pause : Option Nat} (few : k < 4) (live : s.sentLive k = true)
    (bad : s.sentErrs k ⟨sync, st :: data, pause⟩ ≠ 0) : Answers (.sentFrame k sync st data pause) s fun t =>
    (t.sn k).goods = 0 ∧ t.fld (R.SENTi_ERR k) F.SENTi_ERR_LAST = s.sentErrs k ⟨sync, st :: data, pause⟩ ∧
      bitAt (t.fld R.SENT_EVT F.SENT_EVT_ERR) k = true := by
  obtain ⟨above, state, evt⟩ := sentErr_above k
  refine ⟨_, congrArg Host.Outcome.next (if_neg (by simp [live])), ?_⟩
  dsimp only
  rw [if_pos bad]
  obtain ⟨last, set⟩ := State.sentError_last few bad (State.sentErrs_lt ..)
    (s.updSn k fun x => { x with sync := sync, len := sentFrameTicks ⟨sync, st :: data, pause⟩ })
  generalize (s.updSn k _).sentError k (s.sentErrs k ⟨sync, st :: data, pause⟩) = t at *
  have run : (((t.incSat (R.SENTi_ERR k) F.SENTi_ERR_RUN).updSn k fun x => { x with goods := 0, slow := [] }).sn k).goods = 0 ∧
      ((t.incSat (R.SENTi_ERR k) F.SENTi_ERR_RUN).updSn k fun x => { x with goods := 0, slow := [] }).fld (R.SENTi_ERR k) F.SENTi_ERR_LAST =
        s.sentErrs k ⟨sync, st :: data, pause⟩ ∧
      bitAt (((t.incSat (R.SENTi_ERR k) F.SENTi_ERR_RUN).updSn k fun x => { x with goods := 0, slow := [] }).fld R.SENT_EVT F.SENT_EVT_ERR) k = true := by
    rw [State.sn_updSn, State.fld_updSn, State.fld_updSn, State.incSat, State.fld_setFld_apart _ _ rfl rfl rfl, State.fld_setFld_ne evt.symm]
    exact ⟨rfl, last, set⟩
  generalize (t.incSat (R.SENTi_ERR k) F.SENTi_ERR_RUN).updSn k _ = u at *
  split
  · rw [State.setSentValid_own, State.fld, State.reg_setSentValid above state evt, State.fld_setSentValid_err]
    exact run
  · exact run

/-- Settles O30: each event where it applies. -/
theorem sensingEvents : Obligations.SensingEvents := by
  intro s n r k entry raw rs angles u
  refine ⟨fun early apert runs => sampleTrigger_samples runs, fun few small running idle runs valid here => ?_, fun x l few sound runs idle head waits => ?_,
    fun x few active queue => ?_, fun few small runs watched => ?_, fun few on => ?_, fun flag few known live bad => ?_,
    fun few live excited tracks => ?_, fun few live => ?_, fun a0 b0 x y old encoder live was => ?_, fun encoder live => ?_,
    fun sync st data pause few live good => ?_, fun sync st data pause few live bad => ?_, fun live => ?_⟩
  · exact roundEntry_goes few small (by simp [State.entryLive, few, small, running, idle, runs, valid, here])
  · exact urgentArrival_starts few sound runs idle head waits
  · exact urgentResult_ends few active queue
  · exact refreshLapse_lapses few small runs watched
  · exact referenceFault_faults few on
  · exact resolverFault_invalid few known live bad
  · exact resolverValid_returns few live excited tracks
  · exact ⟨_, congrArg Host.Outcome.next (if_neg (by simp [live]; omega)), by dsimp only; rw [State.ps_updPs]⟩
  · exact encoderCount_counts encoder live was
  · exact encoderIndex_indexes encoder live
  · exact sentFrame_good live good
  · exact sentFrame_bad few live bad
  · exact sentTimeout_stops live

end Sys2Proof.Machine
end

section
/-!
A core's access to a register that acts, under the checks of R8, and those of the converters and sources (chapter 06).
-/
namespace Sys2Proof.Machine

variable {s : State} {a c n r k : Nat} {v : Word} {own : List Status}

/-! ### Accesses that pass -/

/-- A register outside the blocks of the monitor die. -/
theorem monitorReg_above (h : 0x40090000 ≤ a) : monitorReg a = false := by
  simp only [monitorReg, Bool.or_eq_false_iff, Bool.and_eq_false_iff, decide_eq_false_iff_not]
  omega

/-- A write of a core that passes the checks is its effect, answered DONE. -/
theorem State.Writes.effect (h : s.Writes c a v own) (here : monitorReg a = false) (f : State → State) :
    s.accessBy (.core c) a true (s.tryWrite a v own f) = (f s).respond 0 := by
  obtain ⟨checks, lets⟩ := h
  have write : s.tryWrite a v own f = (f s).respond 0 := by rw [State.tryWrite, checks]
  rw [write]
  exact State.accessBy_core_done (store := true) lets rfl here

theorem State.Lets.read (lets : s.Lets c a 0) (here : monitorReg a = false) (t : State) (x : Nat) :
    s.accessBy (.core c) a false (t.respond x) = t.respond x := State.accessBy_core_done (store := false) lets rfl here

/-- A write that only stores its value stores it. -/
theorem State.Writes.plain (h : s.Writes c a v own) (here : monitorReg a = false) :
    (s.accessBy (.core c) a true (s.tryWrite a v own fun s => s.plainWrite a v)).reg a = s.written a v ∧
    (s.accessBy (.core c) a true (s.tryWrite a v own fun s => s.plainWrite a v)).resp = ⟨.done, 0⟩ := by
  rw [h.effect here]
  exact ⟨State.reg_plainWrite .., rfl⟩

/-! ### Converters and sources -/

/-- The oldest result of a round's queue is taken out of it. -/
theorem execRoundQueueRead_pops {x : List Byte} {l : List (List Byte)} (queue : (s.rd r).queue = x :: l) (lets : s.Lets c (R.RNDr_RQHI r) 0) :
    execRoundQueueRead (.core c) r s = .next (((s.updRd r fun d => { d with queue := l }).syncRnd r).respond (leAt x 4 4)) := by
  unfold execRoundQueueRead
  rw [queue]
  exact congrArg Host.Outcome.next (lets.read (monitorReg_above (by simp only [R.RNDr_RQHI]; omega)) ..)

/-- Settles O31: each access passes, and is its effect. -/
theorem sensingAccesses : Obligations.SensingAccesses := by
  intro s c n r k v
  refine ⟨fun writes => ?_, fun x l queue lets => ?_, fun writes => ?_, fun writes => ?_, fun writes => ?_, fun lets => ?_⟩
  · have rd (t : State) : (t.respond 0).rd r = t.rd r := rfl
    refine ⟨_, congrArg Host.Outcome.next (writes.effect (monitorReg_above (by simp only [R.RNDr_URG]; omega)) _), ?_, rfl⟩
    rw [rd]
    exact State.urgentPush_rd ..
  · have answer (t : State) (y : Nat) : (t.respond y).rd r = t.rd r := rfl
    refine ⟨_, execRoundQueueRead_pops queue lets, ?_, rfl⟩
    rw [answer, State.rd_syncRnd, State.rd_updRd]
  · exact ⟨_, rfl, writes.plain (monitorReg_above (by simp only [R.FCV_CHn_CORR]; omega))⟩
  · exact ⟨_, rfl, writes.plain (monitorReg_above (by simp only [R.RNDr_CORRk]; omega))⟩
  · exact ⟨_, rfl, writes.plain (monitorReg_above (by simp only [R.POSk_OFS]; omega))⟩
  · refine ⟨_, congrArg Host.Outcome.next (lets.read (monitorReg_above (by simp only [R.RNDr_URGRES]; omega)) _ _), ?_, rfl⟩
    rw [State.flag_respond, State.flag_clrFlag _ rfl]

end Sys2Proof.Machine
end

section
/-!
The events and registers of the ledger and the planner (chapter 11).
-/
namespace Sys2Proof.Machine

variable {s t : State} {a c f k p : Nat}

/-! ### Ticks and blocks -/

/-- What a loop over different things makes of one of them is what its own round makes of it as it was before. -/
theorem State.each_once {α β : Type} {read : State → β} {g : State → α → State} {x : α} {l : List α} (nodup : l.Nodup) (mem : x ∈ l)
    (other : ∀ t y, y ≠ x → read (g t y) = read t) (s : State) : ∃ t, read t = read s ∧ read (s.each l g) = read (g t x) := by
  have rest {l : List α} (out : x ∉ l) : ∀ t : State, read (t.each l g) = read t := by
    induction l with
    | nil => exact fun _ => rfl
    | cons y l ih =>
      obtain ⟨ne, out⟩ := not_or.mp (List.mem_cons.not.mp out)
      exact fun t => (ih out _).trans (other t y (Ne.symm ne))
  induction l generalizing s with
  | nil => cases mem
  | cons y l ih =>
    obtain ⟨out, nodup⟩ := List.nodup_cons.mp nodup
    rcases List.mem_cons.mp mem with rfl | mem
    · exact ⟨s, rfl, rest out _⟩
    · obtain ⟨t, before, after⟩ := ih nodup mem (g s y)
      exact ⟨t, before.trans (other s y fun e => out (e ▸ mem)), after⟩

theorem State.prt_setReg (s : State) (a : Nat) (w : Word) (p : Nat) : (s.setReg a w).prt p = s.prt p := rfl

theorem State.prt_congr (h : t.ldg.ports = s.ldg.ports) (p : Nat) : t.prt p = s.prt p := congrArg (fun m => FMap.get portDefault m p) h

theorem State.portTick_prt_ne (h : p ≠ k) (s : State) : (s.portTick k).prt p = s.prt p := by
  unfold State.portTick
  extract_lets w x net draw ret sat s1
  have h1 : s1.prt p = s.prt p := (State.prt_setReg ..).trans (State.prt_updPrt_ne _ _ _ h)
  split
  · exact (State.prt_setReg ..).trans h1
  · exact h1

/-- A tick adds the port's power to its counters. -/
theorem State.portTick_prt (s : State) (p : Nat) : ((s.portTick p).prt p).net = satNj ((s.prt p).net + ((s.portTick p).prt p).power) ∧
    ((s.portTick p).prt p).block = (s.prt p).block + ((s.portTick p).prt p).power ∧
    ((s.portTick p).prt p).round = (s.prt p).round + ((s.portTick p).prt p).power := by
  have tick : ∃ w, (s.portTick p).prt p = { s.prt p with
      net := satNj ((s.prt p).net + w), draw := satNj ((s.prt p).draw + (if 0 < w then w else 0)),
      ret := satNj ((s.prt p).ret + (if w < 0 then w else 0)), power := w, block := (s.prt p).block + w, round := (s.prt p).round + w } := by
    unfold State.portTick
    extract_lets w x net draw ret sat s1
    refine ⟨w, ?_⟩
    have h1 := State.prt_updPrt s p fun x =>
      { x with net := satNj net, draw := satNj draw, ret := satNj ret, power := w, block := x.block + w, round := x.round + w }
    split
    · exact (State.prt_setReg ..).trans ((State.prt_setReg ..).trans h1)
    · exact (State.prt_setReg ..).trans h1
  obtain ⟨w, e⟩ := tick
  rw [e]
  exact ⟨rfl, rfl, rfl⟩

theorem State.clipFlags_ldg (s : State) (k : Nat) : (s.clipFlags k).ldg = s.ldg := by
  unfold State.clipFlags
  split
  · rfl
  · exact (Kept.each (fun t f => State.trFlag_kept t f 1) (.refl _ s)).frame.same .ldg rfl

theorem State.linkTick_ports (s : State) (k : Nat) : (s.linkTick k).ldg.ports = s.ldg.ports := by
  unfold State.linkTick
  extract_lets zero v s1
  have h1 : s1.ldg = s.ldg := by
    unfold s1; split
    · rfl
    · rfl
  rw [State.clipFlags_ldg, ← h1]
  rfl

theorem State.staleTick_ports (s : State) : s.staleTick.ldg.ports = s.ldg.ports := by
  unfold State.staleTick
  split
  · rfl
  · extract_lets s1
    have h1 : s1.ldg = s.ldg := (Kept.each (c := [.reg .LDG_EDf, .reg .LDG_ERf]) (fun u x => .via (State.setReg_kept (.LDG_ERf _) ..) rfl
      ((State.setReg_kept (.LDG_EDf _) ..).mono rfl)) (.refl _ s)).frame.same .ldg rfl
    split
    have ports := congrArg LdgSt.ports h1
    exact ports

theorem State.each_prt {α : Type} {g : State → α → State} (h : ∀ t x, (g t x).ldg.ports = t.ldg.ports) (l : List α) (s : State) :
    (s.each l g).ldg.ports = s.ldg.ports := by
  induction l generalizing s with
  | nil => rfl
  | cons x l ih => exact (ih _).trans (h s x)

/-- A tick of the running ledger: each port that is used counts its power. -/
theorem ledgerTick_counts (few : p < 12) (runs : s.ust U.ldg = .running) (used : s.portKind p ≠ 0) : Answers .ledgerTick s fun t =>
    (t.prt p).net = satNj ((s.prt p).net + (t.prt p).power) ∧ (t.prt p).block = (s.prt p).block + (t.prt p).power ∧
      (t.prt p).round = (s.prt p).round + (t.prt p).power := by
  refine ⟨_, congrArg Host.Outcome.next (if_neg (not_not_intro runs)), ?_⟩
  have mem : p ∈ s.portsUsed := List.mem_filter.mpr ⟨List.mem_range.mpr few, by simpa using used⟩
  obtain ⟨t, before, after⟩ := State.each_once (read := fun t => t.prt p) (List.nodup_range.filter _) mem
    (fun t y ne => State.portTick_prt_ne (Ne.symm ne) t) s
  have rest : (((s.each s.portsUsed State.portTick).each (List.range 4) State.linkTick).staleTick).prt p = (t.portTick p).prt p :=
    (State.prt_congr ((State.staleTick_ports _).trans (State.each_prt State.linkTick_ports ..)) p).trans after
  dsimp only
  rw [rest, ← before]
  exact t.portTick_prt p

theorem imbalanceBlock_clears (few : p < 12) (runs : s.ust U.ldg = .running) : Answers .imbalanceBlock s fun t =>
    (t.prt p).block = 0 ∧ (t.prt p).gotV = false ∧ (t.prt p).gotI = false := by
  refine ⟨_, congrArg Host.Outcome.next (if_neg (not_not_intro runs)), ?_⟩
  refine State.each_makes (P := fun t => (t.prt p).block = 0 ∧ (t.prt p).gotV = false ∧ (t.prt p).gotI = false) (List.mem_range.mpr few)
    (fun t => by rw [State.prt_updPrt]; exact ⟨rfl, rfl, rfl⟩) (fun t q held => ?_) _
  by_cases e : p = q
  · subst e; rw [State.prt_updPrt]; exact ⟨rfl, rfl, rfl⟩
  · rwa [State.prt_updPrt_ne _ _ _ e]

/-! ### Rounds -/

/-- The ports of a state whose round has been planned count it anew. -/
def State.roundsAnew (s : State) : State := s.each (List.range 12) fun s p => s.updPrt p fun x => { x with round := 0 }

theorem State.roundsAnew_round (few : p < 12) (s : State) : (s.roundsAnew.prt p).round = 0 := by
  refine State.each_makes (P := fun t => (t.prt p).round = 0) (List.mem_range.mpr few) (fun t => by rw [State.prt_updPrt]) (fun t q held => ?_) s
  by_cases e : p = q
  · subst e; rw [State.prt_updPrt]
  · rwa [State.prt_updPrt_ne _ _ _ e]

/-- A plan that waits for its latch, with the floors of the holes it has covered. -/
def State.withPlan (s : State) (o : PlanOut) : State :=
  { s with ldg := { s.ldg with
      plan := some o
      holes := s.ldg.holes.map fun h =>
        match h.floor with
        | some _ => h
        | none => { h with floor := (o.env.find? fun e => e.1 == h.fn).map fun e => (e.2.1, e.2.2) } } }

theorem execPlannerRound_runs (runs : s.ust U.ldg = .running) (core : s.plannerRuns = true) : execPlannerRound s =
    .next ((s.each (List.range 4) State.spendAllowance).roundsAnew.withPlan (s.each (List.range 4) State.spendAllowance).plan) :=
  congrArg Host.Outcome.next (if_neg (by simp [runs, core]))

/-- A round of the planner: the plan waits for its latch, and the ports count anew. -/
theorem plannerRound_plans (few : p < 12) (runs : s.ust U.ldg = .running) (core : s.plannerRuns = true) : Answers .plannerRound s fun t =>
    t.ldg.plan = some (s.each (List.range 4) State.spendAllowance).plan ∧ (t.prt p).round = 0 := by
  have ports (t : State) (o : PlanOut) : (t.withPlan o).prt p = t.prt p := rfl
  refine ⟨_, execPlannerRound_runs runs core, rfl, ?_⟩
  rw [ports]
  exact State.roundsAnew_round few _

/-- The draw and the return that a plan gives a function. -/
def PlanOut.entitled (o : PlanOut) (f : Nat) : Int × Int :=
  match o.env.find? fun e => e.1 == f with | some e => (e.2.1, e.2.2) | none => (0, 0)

theorem PlanOut.entitled_draw (o : PlanOut) (f : Nat) : (o.entitled f).1.toNat = (o.env.find? fun e => e.1 == f).elim 0 fun e => e.2.1.toNat := by
  unfold PlanOut.entitled
  split
  · next e => rw [e]; rfl
  · next e => rw [e]; rfl

/-- What a plan makes of a function's entitlements. -/
def State.latchFn (o : PlanOut) (s : State) (f : Nat) : State :=
  ((s.setReg (R.LDG_EDf f) (BitVec.ofNat 32 (o.entitled f).1.toNat)).setReg (R.LDG_ERf f) (BitVec.ofNat 32 (o.entitled f).2.toNat)).updFp f
    fun p => { p with demand := ((o.demand.find? fun e => e.1 == f).map (·.2)).getD 0, limited := o.limited.contains f }

/-- What a plan makes of a link. -/
def State.latchLink (o : PlanOut) (s : State) (x : Nat × Int × Int × Int) : State :=
  (if o.fallback.contains x.1 && !(s.lnk x.1).fallen then s.setFlag R.LDG_EVT F.LDG_EVT_LIMITS else s).updLnk x.1
    fun l => { l with dump := x.2.1, dis := x.2.2.1, chg := x.2.2.2, fallen := o.fallback.contains x.1 }

/-- A latched plan: its functions, its links, and how late it came. -/
def State.latched (o : PlanOut) (s : State) (time : Nat) : State :=
  let s3 := (((s.setFld R.LDG_STATE F.LDG_STATE_FALLBACK (b2n !o.fallback.isEmpty)).clrFlag R.LDG_STATE F.LDG_STATE_STALE).incFld
    R.LDG_ROUND F.LDG_ROUND_COUNT).setFld R.LDG_ROUND F.LDG_ROUND_TIME (satU 8 ((time - o.at_) / 1000))
  { s3 with ldg := { s3.ldg with plan := none, charger := o.charger, chargerDis := o.chargerDis, regulator := o.regulator, latchedAt := time,
                                 rounds := (s3.ldg.rounds + 1) % 4294967296 } }

theorem State.latchPlan_eq (s : State) (o : PlanOut) : s.latchPlan o =
    State.latched o ((s.each (List.range 16) (State.latchFn o)).each o.links (State.latchLink o)) s.time := rfl

theorem State.reg_latchFn (s : State) (o : PlanOut) (f : Nat) : (s.latchFn o f).reg (R.LDG_EDf f) =
    BitVec.ofNat 32 ((o.env.find? fun e => e.1 == f).elim 0 fun e => e.2.1.toNat) := by
  have apart : R.LDG_EDf f ≠ R.LDG_ERf f := by simp only [R.LDG_EDf, R.LDG_ERf]; omega
  rw [State.latchFn, State.reg_updFp, State.reg_setReg_ne apart, State.reg_setReg, PlanOut.entitled_draw]

theorem State.reg_latchFn_ne {g : Nat} (ne : f ≠ g) (s : State) (o : PlanOut) : (s.latchFn o g).reg (R.LDG_EDf f) = s.reg (R.LDG_EDf f) := by
  have draw : R.LDG_EDf f ≠ R.LDG_EDf g := by simp only [R.LDG_EDf]; omega
  have ret : R.LDG_EDf f ≠ R.LDG_ERf g := by simp only [R.LDG_EDf, R.LDG_ERf]; omega
  rw [State.latchFn, State.reg_updFp, State.reg_setReg_ne ret, State.reg_setReg_ne draw]

theorem State.reg_latchLink (ne : a ≠ R.LDG_EVT) (s : State) (o : PlanOut) (x : Nat × Int × Int × Int) : (s.latchLink o x).reg a = s.reg a := by
  rw [State.latchLink, State.reg_updLnk]
  split
  · exact State.reg_setFlag_ne ne ..
  · rfl

theorem State.latched_reg (state : a ≠ R.LDG_STATE) (round : a ≠ R.LDG_ROUND) (s : State) (o : PlanOut) (n : Nat) :
    (s.latched o n).reg a = s.reg a := by
  have fresh : (s.latched o n).reg a = ((((s.setFld R.LDG_STATE F.LDG_STATE_FALLBACK (b2n !o.fallback.isEmpty)).clrFlag R.LDG_STATE
    F.LDG_STATE_STALE).incFld R.LDG_ROUND F.LDG_ROUND_COUNT).setFld R.LDG_ROUND F.LDG_ROUND_TIME (satU 8 ((n - o.at_) / 1000))).reg a := rfl
  rw [fresh, State.reg_setFld_ne round, State.incFld, State.reg_setFld_ne round, State.clrFlag, State.reg_setFld_ne state,
    State.reg_setFld_ne state]

theorem State.latched_fresh (s : State) (o : PlanOut) (n : Nat) : (s.latched o n).flag R.LDG_STATE F.LDG_STATE_STALE = false := by
  have fresh : (s.latched o n).flag R.LDG_STATE F.LDG_STATE_STALE = ((((s.setFld R.LDG_STATE F.LDG_STATE_FALLBACK (b2n !o.fallback.isEmpty)).clrFlag
    R.LDG_STATE F.LDG_STATE_STALE).incFld R.LDG_ROUND F.LDG_ROUND_COUNT).setFld R.LDG_ROUND F.LDG_ROUND_TIME (satU 8 ((n - o.at_) / 1000))).flag
      R.LDG_STATE F.LDG_STATE_STALE := rfl
  rw [fresh, State.flag, State.fld_setFld_ne (by decide), State.incFld, State.fld_setFld_ne (by decide), ← State.flag]
  exact State.flag_clrFlag _ rfl

/-- The latch puts the plan into force: its powers, its functions' entitlements, and the plan is fresh. -/
theorem plannerLatch_latches {us : Nat} {o : PlanOut} (plan : s.ldg.plan = some o) (core : s.plannerRuns = true) :
    Answers (.plannerLatch us) s fun t => t.ldg.plan = none ∧ t.ldg.charger = o.charger ∧ t.ldg.chargerDis = o.chargerDis ∧
      t.ldg.regulator = o.regulator ∧ t.ldg.latchedAt = s.time ∧ t.flag R.LDG_STATE F.LDG_STATE_STALE = false ∧
      (f < 16 → t.reg (R.LDG_EDf f) = BitVec.ofNat 32 ((o.env.find? fun e => e.1 == f).elim 0 fun e => e.2.1.toNat)) := by
  have latch : execPlannerLatch us s = .next (s.latchPlan o) := by
    rw [execPlannerLatch, plan]
    exact congrArg Host.Outcome.next (if_pos core)
  refine ⟨_, latch, ?_⟩
  dsimp only
  rw [State.latchPlan_eq]
  refine ⟨rfl, rfl, rfl, rfl, rfl, State.latched_fresh .., fun few => ?_⟩
  rw [State.latched_reg (by simp only [R.LDG_EDf, R.LDG_STATE]; omega) (by simp only [R.LDG_EDf, R.LDG_ROUND]; omega),
    State.reg_each fun u x _ => State.reg_latchLink (by simp only [R.LDG_EDf, R.LDG_EVT]; omega) u o x]
  refine State.each_makes (P := fun t => t.reg (R.LDG_EDf f) = _) (List.mem_range.mpr few) (fun t => State.reg_latchFn t o f) (fun t g held => ?_) s
  by_cases e : f = g
  · subst e; exact State.reg_latchFn t o f
  · rw [State.reg_latchFn_ne e]; exact held

theorem plannerStale_stale (runs : s.ust U.ldg = .running) (fresh : s.flag R.LDG_STATE F.LDG_STATE_STALE = false) :
    Answers .plannerStale s fun t => t.flag R.LDG_STATE F.LDG_STATE_STALE = true ∧ t.flag R.LDG_EVT F.LDG_EVT_STALE = true ∧ t.ldg.staleAt = s.time := by
  have record (t : State) (x : LdgSt) (a : Nat) (f : Fld) : ({ t with ldg := x } : State).flag a f = t.flag a f := rfl
  refine ⟨_, congrArg Host.Outcome.next (if_neg (by simp [runs, fresh])), ?_, ?_, rfl⟩
  · rw [record, State.flag, State.setFlag, State.fld_setFld_ne (by decide), ← State.flag]
    exact State.flag_setFlag _ rfl
  · exact (record ..).trans (State.flag_setFlag _ rfl)

/-! ### The keep-alive budget -/

/-- The timer wakes a device in STANDBY for which the budget holds what the wake needs. -/
theorem State.wake_timer (standby : s.rst.standby = true) (here : s.rst.transportDue = false) :
    (s.wake 4).rst.standby = false ∧ (s.wake 4).aon.waiting = false := by
  rw [State.wake, here, standby]
  exact ⟨rfl, rfl⟩

theorem timerWake_decides (standby : s.rst.standby = true) (here : s.rst.transportDue = false) (period : s.aon.period ≠ 0)
    (idle : s.aon.waiting = false) : Answers .timerWake s fun t =>
    (t.rst.standby = decide (s.kaBalance < s.kaNeed)) ∧ (t.aon.waiting = decide (s.kaBalance < s.kaNeed)) := by
  refine ⟨_, congrArg Host.Outcome.next (if_neg (by simp [standby, period, idle])), ?_⟩
  dsimp only
  by_cases enough : s.kaNeed ≤ s.kaBalance
  · rw [if_pos enough, decide_eq_false (Int.not_lt.mpr enough)]
    exact State.wake_timer standby here
  · rw [if_neg enough, decide_eq_true (Int.not_le.mp enough)]
    exact ⟨standby, rfl⟩

/-- The budget pays for 125 µs of a wake, down to its floor. -/
theorem keepaliveDebit_debits (awake : s.awake = true)
    (above : -((s.aon.cap * 4096 : Nat) : Int) ≤ s.aon.balance - ((s.aon.wakePower * 125 : Nat) : Int)) : Answers .keepaliveDebit s fun t =>
    t.aon = { s.aon with balance := s.aon.balance - ((s.aon.wakePower * 125 : Nat) : Int) } := by
  refine ⟨_, congrArg Host.Outcome.next (if_neg (by simp [awake])), ?_⟩
  dsimp only
  rw [if_neg (Int.not_lt.mpr above)]

theorem keepaliveRefill_refills (on : s.rst.standby = false) : Answers .keepaliveRefill s fun t =>
    t.aon = { s.aon with balance := minI (s.aon.balance + (s.aon.refill * 4096 : Nat)) (s.aon.cap * 4096 : Nat) } := by
  refine ⟨_, congrArg Host.Outcome.next (if_neg fun h => ?_), rfl⟩
  exact Bool.noConfusion (on.symm.trans h.1)

theorem timerWakeLimit_ends (awake : s.awake = true) (src : s.fld R.RST_WAKE F.RST_WAKE_SRC = 4) : Answers .timerWakeLimit s fun t =>
    t.rst.standbyDue = true :=
  ⟨_, congrArg Host.Outcome.next (if_neg (by simp [awake, src])), rfl⟩

/-! ### Its registers -/

theorem ldgNetRead_reads (few : p < 12) (used : s.portKind p ≠ 0) (lets : s.Lets c (R.LDG_Pp_ELO p) 0) : Answers (.ldgNetRead (.core c) p) s fun t =>
    t.resp = ⟨.done, ofSigned 64 (s.portNet p) % 4294967296⟩ ∧ t.reg (R.LDG_Pp_EHI p) = BitVec.ofNat 32 (ofSigned 64 (s.portNet p) / 4294967296) := by
  have here : monitorReg (R.LDG_Pp_ELO p) = false := monitorReg_between (by simp only [R.LDG_Pp_ELO]; omega) (by simp only [R.LDG_Pp_ELO]; omega)
  have read : execLdgNetRead (.core c) p s = .next ((s.setReg (R.LDG_Pp_EHI p) (BitVec.ofNat 32 (ofSigned 64 (s.portNet p) / 4294967296))).respond
      (ofSigned 64 (s.portNet p) % 4294967296)) := by
    rw [execLdgNetRead, if_neg (Nat.not_le.mpr few), if_neg used]
    exact congrArg Host.Outcome.next (lets.read here ..)
  refine ⟨_, read, rfl, ?_⟩
  rw [State.reg_respond, State.reg_setReg]

theorem withdrawalQueueRead_reads {x : List Byte} {l : List (List Byte)} (queue : s.ldg.wq = x :: l) (lets : s.Lets c R.LDG_WQHI 0) :
    Answers (.withdrawalQueueRead (.core c)) s fun t => t.ldg.wq = l ∧ t.resp = ⟨.done, leAt x 4 4⟩ := by
  have read : execWithdrawalQueueRead (.core c) s = .next ((({ s with ldg := { s.ldg with wq := l } }).setFld R.LDG_WQSTAT
      F.LDG_WQSTAT_COUNT l.length).respond (leAt x 4 4)) := by
    rw [execWithdrawalQueueRead, queue]
    exact congrArg Host.Outcome.next (lets.read rfl ..)
  exact ⟨_, read, rfl, rfl⟩

theorem keepaliveBalanceRead_reads (lets : s.Lets c R.LDG_KABLO 0) : Answers (.keepaliveBalanceRead (.core c)) s fun t =>
    t.resp = ⟨.done, ofSigned 64 s.kaBalance % 4294967296⟩ ∧ t.reg R.LDG_KABHI = BitVec.ofNat 32 (ofSigned 64 s.kaBalance / 4294967296) := by
  refine ⟨_, congrArg Host.Outcome.next (lets.read rfl ..), rfl, ?_⟩
  rw [State.reg_respond, State.reg_setReg]

/-- Settles O32: each event where it applies, and each access that passes. -/
theorem ledgerEvents : Obligations.LedgerEvents := by
  intro s c f p us few
  refine ⟨fun runs used => ?_, fun runs => ?_, fun runs core => ?_, fun us o plan core => ?_, fun runs fresh => ?_, fun held => ?_,
    fun standby here period idle => ?_, fun awake src => ?_, fun on => ?_, fun awake above => ?_, fun used lets => ?_, fun x l queue lets => ?_,
    fun lets => ?_, fun writes => ?_⟩
  · exact ledgerTick_counts few runs used
  · exact imbalanceBlock_clears few runs
  · exact plannerRound_plans few runs core
  · exact plannerLatch_latches plan core
  · exact plannerStale_stale runs fresh
  · exact ⟨_, congrArg Host.Outcome.next (if_pos held), congrArg LdgSt.holes ((State.journalFree_kept ..).frame.same .ldg rfl)⟩
  · exact timerWake_decides standby here period idle
  · exact timerWakeLimit_ends awake src
  · exact keepaliveRefill_refills on
  · exact keepaliveDebit_debits awake above
  · exact ldgNetRead_reads few used lets
  · exact withdrawalQueueRead_reads queue lets
  · exact keepaliveBalanceRead_reads lets
  · exact ⟨_, rfl, writes.plain rfl⟩

end Sys2Proof.Machine
end

section
/-!
The events and registers of the safe-state manager and the pairs (chapter 12).
-/
namespace Sys2Proof.Machine

variable {s t u : State} {c n count : Nat} {v : Word}

/-! ### What the safe state's own work leaves of the line and the heartbeat -/

/-- From a to b the line of fault frames and the heartbeat are the same. -/
structure SameLine (a b : SsmSt) : Prop where
  frames : b.frames = a.frames
  heartbeat : b.heartbeat = a.heartbeat
  hbRun : b.hbRun = a.hbRun
  hbAt : b.hbAt = a.hbAt

theorem SameLine.refl (a : SsmSt) : SameLine a a := ⟨rfl, rfl, rfl, rfl⟩

theorem SameLine.of {a b : SsmSt} (h : b = a) : SameLine a b := by subst h; exact .refl _

theorem SameLine.trans {a b c : SsmSt} (h : SameLine a b) (k : SameLine b c) : SameLine a c :=
  ⟨k.frames.trans h.frames, k.heartbeat.trans h.heartbeat, k.hbRun.trans h.hbRun, k.hbAt.trans h.hbAt⟩

theorem State.ssmRefresh_line (s : State) : SameLine s.ssm s.ssmRefresh.ssm := by
  have patterns := (State.ssmPatterns_kept s).frame.same .ssm rfl
  unfold State.ssmRefresh
  extract_lets s1 reg act _ s2
  have h1 : s1.ssm = s.ssm := patterns
  have h2 : SameLine s1.ssm s2.ssm := by
    unfold s2; split
    · exact .refl _
    · exact ⟨rfl, rfl, rfl, rfl⟩
  simp only [State.setFld_fields]
  exact (SameLine.of h1).trans h2

/-- The refresh shows the safe state as the causes have it. -/
theorem State.ssmRefresh_safe (s : State) : s.ssmRefresh.flag R.SSM_STATE F.SSM_STATE_SAFE = s.safeHeld := by
  have patterns := (State.ssmPatterns_kept s).frame.fld_apart (a := R.SSM_CAUSE) rfl F.SSM_CAUSE_ACTIVE
  unfold State.ssmRefresh
  extract_lets s1 reg act _ s2
  have h1 : s1.safeHeld = s.safeHeld := congrArg (· != 0) patterns
  have h2 : s2.safeHeld = s1.safeHeld := by unfold s2; split <;> rfl
  rw [State.flag, State.fld_setFld _ rfl, h2, h1]
  cases s.safeHeld <;> rfl

theorem State.ssmHoldFn_line (s : State) (f : Nat) : SameLine s.ssm (s.ssmHoldFn f).ssm := by
  unfold State.ssmHoldFn; split
  · exact .refl _
  · refine SameLine.trans ?_ (State.ssmRefresh_line _)
    exact ⟨rfl, rfl, rfl, rfl⟩

theorem State.ssmHoldAct_line (s : State) (k : Nat) : SameLine s.ssm (s.ssmHoldAct k).ssm := by
  unfold State.ssmHoldAct; split
  · exact .refl _
  · refine SameLine.trans ?_ (State.ssmRefresh_line _)
    exact ⟨rfl, rfl, rfl, rfl⟩

theorem State.ssmHoldReg_line (s : State) (x : Nat) : SameLine s.ssm (s.ssmHoldReg x).ssm := by
  unfold State.ssmHoldReg
  extract_lets s1
  refine SameLine.trans ?_ (State.ssmRefresh_line _)
  split <;> exact ⟨rfl, rfl, rfl, rfl⟩

theorem State.each_line {α : Type} {g : State → α → State} (h : ∀ t x, SameLine t.ssm (g t x).ssm) (l : List α) (s : State) :
    SameLine s.ssm (s.each l g).ssm := by
  induction l generalizing s with
  | nil => exact .refl _
  | cons x l ih => exact (h s x).trans (ih _)

theorem State.ssmOv_line (s : State) (link : Nat) (on : Bool) : SameLine s.ssm (s.ssmOv link on).ssm := by
  unfold State.ssmOv
  extract_lets m m' _ s1 s2
  have h1 : SameLine s.ssm s1.ssm := ⟨rfl, rfl, rfl, rfl⟩
  have h2 : SameLine s1.ssm s2.ssm := by
    unfold s2; split
    · exact State.each_line State.ssmHoldFn_line ..
    · exact .refl _
  exact (h1.trans h2).trans (State.ssmRefresh_line _)

theorem State.ssmRaise_line (s : State) (c : Nat) : SameLine s.ssm (s.ssmRaise c).ssm := by
  unfold State.ssmRaise
  extract_lets was s1 s2 s3
  have h1 : s1.ssm = s.ssm := ((State.setBit_kept .SSM_CAUSE ..).frame.same .ssm rfl).trans ((State.setBit_kept .SSM_CAUSE ..).frame.same .ssm rfl)
  have set (t : State) (b : Nat) (f : Fld) (x : Nat) : (t.setFld b f x).ssm = t.ssm := rfl
  have h2 : s2.ssm = s1.ssm := by
    unfold s2; split
    · rfl
    · exact set ..
  have h3 : s3.ssm = s2.ssm := by
    unfold s3; split
    · rfl
    · exact set ..
  refine SameLine.trans ?_ (State.ssmRefresh_line _)
  exact (SameLine.of (h3.trans (h2.trans h1))).trans ⟨rfl, rfl, rfl, rfl⟩

theorem State.ssmEnd_line (s : State) (mask : Nat) : SameLine s.ssm (s.ssmEnd mask).ssm := by
  unfold State.ssmEnd
  extract_lets was a s1 s2
  have keep (t : State) : SameLine t.ssm t.keepHeld.ssm := by
    unfold State.keepHeld
    exact ⟨rfl, rfl, rfl, rfl⟩
  have set (t : State) (b : Nat) (f : Fld) (x : Nat) : (t.setFld b f x).ssm = t.ssm := rfl
  have h2 : SameLine s.ssm s2.ssm := by
    unfold s2; split
    · rw [State.setFlag, set, ← set s R.SSM_CAUSE F.SSM_CAUSE_ACTIVE (a - (a &&& mask))]
      exact keep s1
    · exact .of (set ..)
  exact h2.trans (State.ssmRefresh_line _)

/-! ### Reports on the line -/

/-- A report other than a monitor's mismatch holds what it is about, and leaves the line and SSM_LASTF. -/
theorem State.report_line {src : Nat} (other : src ≠ 4) (s : State) (inst cause : Nat) : SameLine s.ssm (s.report src inst cause).ssm ∧
    (s.report src inst cause).reg R.SSM_LASTF = s.reg R.SSM_LASTF := by
  have fn (f : Nat) : SameLine s.ssm (s.ssmHoldFn f).ssm ∧ (s.ssmHoldFn f).reg R.SSM_LASTF = s.reg R.SSM_LASTF :=
    ⟨State.ssmHoldFn_line .., (State.ssmHoldFn_kept ..).frame.reg_apart rfl⟩
  have none : SameLine s.ssm s.ssm ∧ s.reg R.SSM_LASTF = s.reg R.SSM_LASTF := ⟨.refl _, rfl⟩
  unfold State.report
  split
  · split
    · exact fn _
    · exact none
  · dsimp only
    split
    · exact none
    · exact fn _
  · split
    · exact none
    · exact fn _
  · exact absurd rfl other
  · exact ⟨State.ssmHoldAct_line .., (State.ssmHoldAct_kept ..).frame.reg_apart rfl⟩
  · exact ⟨State.ssmHoldReg_line .., (State.ssmHoldReg_kept ..).frame.reg_apart rfl⟩
  · exact ⟨State.ssmOv_line .., (State.ssmOv_kept ..).frame.reg_apart rfl⟩
  · exact none

theorem faultFrame_taken {src inst cause : Nat} {l : List (Nat × Nat × Nat)} (line : s.ssm.frames = (src, inst, cause) :: l) (other : src ≠ 4) :
    Answers .faultFrameReceived s fun t => t.ssm.frames = l ∧
      t.reg R.SSM_LASTF = BitVec.ofNat 32 (src % 256 * 16777216 + inst % 256 * 65536 + cause % 256 * 256) := by
  have take : execFaultFrameReceived s = .next (State.report
      (({ s with ssm := { s.ssm with frames := l }, linkTries := FMap.erase s.linkTries 65536 } : State).setReg R.SSM_LASTF
        (BitVec.ofNat 32 (src % 256 * 16777216 + inst % 256 * 65536 + cause % 256 * 256))) src inst cause) := by
    rw [execFaultFrameReceived, line]
  refine ⟨_, take, ?_⟩
  obtain ⟨same, last⟩ := State.report_line other (({ s with ssm := { s.ssm with frames := l }, linkTries := FMap.erase s.linkTries 65536 } : State).setReg
    R.SSM_LASTF (BitVec.ofNat 32 (src % 256 * 16777216 + inst % 256 * 65536 + cause % 256 * 256))) inst cause
  exact ⟨same.frames, last.trans (State.reg_setReg _)⟩

/-! ### The heartbeat -/

theorem State.ssmRaise_safe (s : State) (c : Nat) : (s.ssmRaise c).flag R.SSM_STATE F.SSM_STATE_SAFE = (s.ssmRaise c).safeHeld := by
  unfold State.ssmRaise
  extract_lets was s1 s2 s3
  rw [State.ssmRefresh_safe, State.safeHeld, State.safeHeld, State.ssmRefresh_cause]

theorem State.safeHeld_of_cause (h : s.ssmCause c = true) : s.safeHeld = true := by
  unfold State.ssmCause at h
  unfold State.safeHeld
  rw [bne_iff_ne]
  intro none
  rw [none, bitAt_eq_testBit, Nat.zero_testBit] at h
  cases h

theorem heartbeatTimeout_raises (beats : s.ssm.heartbeat = true) : Answers .heartbeatTimeout s fun t =>
    t.ssm.heartbeat = false ∧ t.ssm.hbRun = 0 ∧ t.ssmCause 2 = true ∧ t.flag R.SSM_STATE F.SSM_STATE_SAFE = true := by
  refine ⟨_, congrArg Host.Outcome.next (if_neg (by simp [beats])), ?_⟩
  have off : ({ s with ssm := { s.ssm with heartbeat := false, hbRun := 0 } } : State).ssm.heartbeat = false ∧
    ({ s with ssm := { s.ssm with heartbeat := false, hbRun := 0 } } : State).ssm.hbRun = 0 := ⟨rfl, rfl⟩
  dsimp only
  generalize ({ s with ssm := { s.ssm with heartbeat := false, hbRun := 0 } } : State) = u at *
  have line := u.ssmRaise_line 2
  have active : (u.ssmRaise 2).ssmCause 2 = true := (u.ssmRaise_active 2 (c := 2) (by decide)).trans (by simp)
  exact ⟨line.heartbeat.trans off.1, line.hbRun.trans off.2, active, (u.ssmRaise_safe 2).trans (State.safeHeld_of_cause active)⟩

/-- The age of the heartbeat that SSM_HB shows. -/
theorem State.readReg_hb (s : State) : s.readReg R.SSM_HB = setF (s.reg R.SSM_HB) F.SSM_HB_AGE s.hbAge := by
  unfold State.readReg
  rw [if_neg (by decide), if_neg (by decide), if_neg (by decide), if_neg (by decide), if_neg (by intro h; exact absurd h.1 (by decide)),
    if_pos rfl]

theorem State.hbAge_now (now : s.ssm.hbAt = some s.up) : s.hbAge = 0 := by
  simp [State.hbAge, now]

/-- The ASC patterns that the functions prefer, as a heartbeat brings them. -/
def State.ascPrefs (s : State) : State :=
  s.each (s.functions.filter fun f => s.fnRole f == 1) fun s f =>
    if (s.tr f).pref then s.setBit R.SSM_ASC F.SSM_ASC_PREF f else s.clrBit R.SSM_ASC F.SSM_ASC_PREF f

theorem State.ascPrefs_kept (s : State) : Kept [.reg .SSM_ASC] s s.ascPrefs :=
  .each (fun _ _ => .ite (State.setBit_kept .SSM_ASC ..) (State.clrBit_kept .SSM_ASC ..)) (.refl _ s)

/-- A state with the heartbeat received. -/
def State.beaten (s : State) : State :=
  { s with ssm := { s.ssm with heartbeat := true, hbRun := min (s.ssm.hbRun + 1) 100, hbAt := some s.up } }

theorem execHeartbeatReceived_eq (s : State) : execHeartbeatReceived s = .next (State.ssmRefresh
    (if s.beaten.ascPrefs.ssmCause 2 ∧ 100 ≤ s.ssm.hbRun + 1 then s.beaten.ascPrefs.ssmEnd 4 else s.beaten.ascPrefs)) := rfl

theorem heartbeatReceived_counts (s : State) : Answers .heartbeatReceived s fun t => t.ssm.heartbeat = true ∧
    t.ssm.hbRun = min (s.ssm.hbRun + 1) 100 ∧ t.ssm.hbAt = some s.up ∧ getF (t.readReg R.SSM_HB) F.SSM_HB_AGE = 0 := by
  refine ⟨_, execHeartbeatReceived_eq s, ?_⟩
  have prefs := s.beaten.ascPrefs_kept.frame
  have ssm : s.beaten.ascPrefs.ssm = s.beaten.ssm := prefs.same .ssm rfl
  have up : s.beaten.ascPrefs.up = s.up := prefs.same .up rfl
  have was : s.beaten.ssm.heartbeat = true ∧ s.beaten.ssm.hbRun = min (s.ssm.hbRun + 1) 100 ∧ s.beaten.ssm.hbAt = some s.up := ⟨rfl, rfl, rfl⟩
  generalize s.beaten.ascPrefs = t at *
  have ends : SameLine t.ssm (if t.ssmCause 2 ∧ 100 ≤ s.ssm.hbRun + 1 then t.ssmEnd 4 else t).ssm ∧
      (if t.ssmCause 2 ∧ 100 ≤ s.ssm.hbRun + 1 then t.ssmEnd 4 else t).up = t.up := by
    split
    · exact ⟨t.ssmEnd_line 4, (State.ssmEnd_kept ..).frame.same .up rfl⟩
    · exact ⟨.refl _, rfl⟩
  generalize (if t.ssmCause 2 ∧ 100 ≤ s.ssm.hbRun + 1 then t.ssmEnd 4 else t) = u at *
  have line : SameLine s.beaten.ssm u.ssmRefresh.ssm := ((SameLine.of ssm).trans ends.1).trans u.ssmRefresh_line
  have now : u.ssmRefresh.up = s.up := ((State.ssmRefresh_kept u).frame.same .up rfl).trans (ends.2.trans up)
  have at_ : u.ssmRefresh.ssm.hbAt = some s.up := line.hbAt.trans was.2.2
  refine ⟨line.heartbeat.trans was.1, line.hbRun.trans was.2.1, at_, ?_⟩
  rw [State.readReg_hb, State.hbAge_now (by rw [now, at_]), getF_setF _ _ _ rfl]
  rfl

/-! ### Watchdogs -/

theorem watchdogWarning_warns (few : n < 4) (mode : s.fld (R.SSM_WDSTATn n) F.SSM_WDSTATn_MODE = 2) (quiet : (s.wd n).warned = false) :
    Answers (.watchdogWarning n) s fun t => (t.wd n).warned = true ∧ t.flag R.SSM_EVT F.SSM_EVT_WDWARN = true := by
  have warned (t : State) (x : Nat) : ({ t with ssm := { t.ssm with wdWarned := x } } : State).wd n = t.wd n := rfl
  have flag (t : State) (x : Nat) : ({ t with ssm := { t.ssm with wdWarned := x } } : State).flag R.SSM_EVT F.SSM_EVT_WDWARN =
    t.flag R.SSM_EVT F.SSM_EVT_WDWARN := rfl
  have set (t : State) (w : WdSt) (f : Fld) : ((t.setWd n w).setFlag R.SSM_EVT f).wd n = (t.setWd n w).wd n := rfl
  have own (t : State) (w : WdSt) : (t.setWd n w).wd n = w := FMap.get_set_same
  refine ⟨_, congrArg Host.Outcome.next (if_neg (by simp [mode, quiet]; omega)), ?_, ?_⟩
  · rw [warned, set, own]
  · rw [flag]; exact State.flag_setFlag _ rfl

theorem watchdogExpiry_asserts (few : n < 4) (mode : s.fld (R.SSM_WDSTATn n) F.SSM_WDSTATn_MODE = 1 ∨ s.fld (R.SSM_WDSTATn n) F.SSM_WDSTATn_MODE = 2) :
    Answers (.watchdogExpiry n) s fun t => (if n = 0 then (5, 0) else (4, 2 ^ n)) ∈ t.rst.sources := by
  refine ⟨_, congrArg Host.Outcome.next (if_neg (by omega)), ?_⟩
  unfold State.wdExpire
  extract_lets s1
  split
  · exact State.mem_assertSource ..
  · exact State.mem_assertSource ..

/-! ### The MON clock -/

theorem monClock_good (low : 915 ≤ count) (high : count ≤ 1526) (sound : s.ssmCause 7 = false) : Answers (.monClockCheck count) s fun t =>
    t.ssm.monBad = 0 ∧ t.ssm.monGood = min (s.ssm.monGood + 1) 33 ∧ t.fld (R.CLK_FREQi 7) F.CLK_FREQi_COUNT = count := by
  have record (t : State) (x : SsmSt) : ({ t with ssm := x } : State).ssmCause 7 = t.ssmCause 7 := rfl
  have cause (n : Nat) : ({ s.setFld (R.CLK_FREQi 7) F.CLK_FREQi_COUNT count with ssm := { s.ssm with monBad := 0, monGood := n } } : State).ssmCause 7 = false := by
    rw [record, State.ssmCause, State.fld_setFld_ne (by decide)]
    exact sound
  have good : s.monCount count = { s.setFld (R.CLK_FREQi 7) F.CLK_FREQi_COUNT count with
      ssm := { s.ssm with monBad := 0, monGood := min (s.ssm.monGood + 1) 33 } } := by
    unfold State.monCount
    rw [if_neg (by omega)]
    exact if_neg fun h => Bool.noConfusion ((cause _).symm.trans h.2)
  refine ⟨_, congrArg Host.Outcome.next good, rfl, rfl, ?_⟩
  refine (State.fld_setFld (s := s) _ rfl count).trans (Nat.mod_eq_of_lt ?_)
  show count < 65536
  omega

theorem monClock_bad (out : count < 915 ∨ 1526 < count) (first : s.ssm.monBad = 0) : Answers (.monClockCheck count) s fun t =>
    t.ssm.monBad = 1 ∧ t.ssm.monGood = 0 := by
  have bad : s.monCount count = { s.setFld (R.CLK_FREQi 7) F.CLK_FREQi_COUNT count with ssm := { s.ssm with monBad := 1, monGood := 0 } } := by
    unfold State.monCount
    rw [if_pos out, first]
    exact if_neg (by omega)
  exact ⟨_, congrArg Host.Outcome.next bad, rfl, rfl⟩

/-! ### Registers of the monitor die -/

/-- A write of a core that passes the checks is its effect, whichever die the register is on. -/
theorem State.Writes.made {a : Nat} {own : List Status} (h : s.Writes c a v own) (f : State → State) :
    Kept [.linkTries] ((f s).respond 0) (s.accessBy (.core c) a true (s.tryWrite a v own f)) := by
  cases there : monitorReg a with
  | false => rw [h.effect there]; exact .refl ..
  | true =>
    obtain ⟨checks, lets⟩ := h
    have free : s.barred (.core c) a (b2n true) = none := Option.isNone_iff_eq_none.mp lets
    have write : s.accessBy (.core c) a true (s.tryWrite a v own f) = ((f s).respond 0).linkDone 2 (c + 256 * b2n true) := by
      have done : s.tryWrite a v own f = (f s).respond 0 := by rw [State.tryWrite, checks]
      have ok : ((f s).respond 0).resp.status.ok = true := rfl
      simp only [State.accessBy, free, done, ok, there, if_true]
    rw [write]
    exact State.linkDone_kept ..

theorem faultN_acknowledged (ack : getF v F.SSM_FACK_ACK = 1)
    (writes : s.Writes c R.SSM_FACK v (if s.fld R.SSM_CAUSE F.SSM_CAUSE_ACTIVE ≠ 0 ∧ s.fld R.SSM_CAUSE F.SSM_CAUSE_ACTIVE ≠ 32 then [.eInterlock] else [])) :
    Answers (.faultNAcknowledge (.core c) v) s fun t => t.fld R.SSM_STATE F.SSM_STATE_FAULTN = 0 ∧ t.resp = ⟨.done, 0⟩ := by
  have checks : (if getF v F.SSM_FACK_ACK = 1 ∧ s.fld R.SSM_CAUSE F.SSM_CAUSE_ACTIVE ≠ 0 ∧ s.fld R.SSM_CAUSE F.SSM_CAUSE_ACTIVE ≠ 32 then
      [Status.eInterlock] else []) = if s.fld R.SSM_CAUSE F.SSM_CAUSE_ACTIVE ≠ 0 ∧ s.fld R.SSM_CAUSE F.SSM_CAUSE_ACTIVE ≠ 32 then [.eInterlock] else [] := by
    simp only [ack, true_and]
  rw [← checks] at writes
  have made := writes.made fun s => if getF v F.SSM_FACK_ACK = 1 then s.setFld R.SSM_STATE F.SSM_STATE_FAULTN 0 else s
  refine ⟨_, rfl, ?_, made.frame.same .resp rfl⟩
  refine (made.frame.fld_apart rfl _).trans ?_
  rw [if_pos ack, State.fld_respond]
  exact State.fld_setFld _ rfl 0

theorem watchdog_serviced {elapsed : Nat} (writes : s.Writes c (R.SSM_WDKn n) v (if c = s.wdServer n then [] else [.eLocked]))
    (window : s.fld (R.SSM_WDSTATn n) F.SSM_WDSTATn_MODE = 1 ∧ s.time - (s.wd n).at_ ≤ 200000000 ∨ s.fld (R.SSM_WDSTATn n) F.SSM_WDSTATn_MODE = 2 ∧
      100000 * s.fld (R.SSM_WDCFGn n) F.SSM_WDCFGn_MIN ≤ s.time - (s.wd n).at_ ∧
      s.time - (s.wd n).at_ ≤ 100000 * s.fld (R.SSM_WDCFGn n) F.SSM_WDCFGn_MAX)
    (key : v.toNat = if (s.wd n).second then 0x5AA5 else 0xA55A) : Answers (.watchdogService (.core c) n v elapsed) s fun t =>
    t.fld (R.SSM_WDSTATn n) F.SSM_WDSTATn_MODE = 2 ∧ t.wd n = ⟨!(s.wd n).second, false, 0, s.time⟩ ∧ t.resp = ⟨.done, 0⟩ := by
  have server : (if Requester.codeIs (.core c) (s.wdServer n) then [] else [Status.eLocked]) = if c = s.wdServer n then [] else [.eLocked] := by
    simp only [Requester.codeIs, beq_iff_eq]
  rw [← server] at writes
  have inside : s.wdOutside n (s.fld (R.SSM_WDSTATn n) F.SSM_WDSTATn_MODE) = false := by
    unfold State.wdOutside
    rcases window with ⟨mode, since⟩ | ⟨mode, low, high⟩
    · simp [mode, since]
    · simp [mode, low, high]
  have made := writes.made fun s =>
    let mode := s.fld (R.SSM_WDSTATn n) F.SSM_WDSTATn_MODE
    let want : Nat := if (s.wd n).second then 0x5AA5 else 0xA55A
    if mode ≠ 1 ∧ mode ≠ 2 then s
    else if v.toNat ≠ want ∨ s.wdOutside n mode then s.wdExpire n
    else (s.setWd n ⟨!(s.wd n).second, false, 0, s.time⟩).setFld (R.SSM_WDSTATn n) F.SSM_WDSTATn_MODE 2
  dsimp only at made
  rw [if_neg (by omega), if_neg (by simp [key, inside])] at made
  refine ⟨_, rfl, ?_, ?_, made.frame.same .resp rfl⟩
  · refine (made.frame.fld_apart rfl _).trans ?_
    rw [State.fld_respond]
    exact State.fld_setFld _ rfl 2
  · have ssm := made.frame.same .ssm rfl
    refine (congrArg (fun x : SsmSt => FMap.get wdDefault x.wd n) ssm).trans ?_
    exact FMap.get_set_same

/-! ### Pairs -/

theorem State.pairRuns_lt (runs : s.pairRuns n = true) : n < 4 := by
  simp only [State.pairRuns, Bool.and_eq_true, decide_eq_true_eq] at runs
  exact Nat.lt_of_lt_of_le runs.1.1 s.variant.pairs_le

/-- A test whose two halves raise only what they inject shows no class. -/
theorem testClasses_pass {g own other : Nat} (few : g < 4) (inject : own % 16 = 2 ^ g) (clean : other % 16 = 0) : testClasses g own other = 0 := by
  have bits (i : Nat) (small : i < 4) : bitAt own i = bitAt (2 ^ g) i := by
    rw [← inject, bitAt_eq_testBit, bitAt_eq_testBit, show 16 = 2 ^ 4 from rfl, Nat.testBit_mod_two_pow]
    simp [small]
  have rest : ((List.range 4).any fun i => i != g && bitAt own i && !bitAt other i) = false := by
    rw [List.any_eq_false]
    intro i mem
    have small := List.mem_range.mp mem
    rw [bits i small, bitAt_eq_testBit, Nat.testBit_two_pow]
    by_cases e : i = g
    · simp [e]
    · simp [Ne.symm e]
  have set : bitAt own g = true := by rw [bits g few, bitAt_eq_testBit, Nat.testBit_two_pow_self]
  unfold testClasses
  rw [rest, set, clean]
  rfl

theorem injectedGroup_lt (n : Nat) : injectedGroup n < 4 := by
  unfold injectedGroup
  split
  · decide
  · split
    · decide
    · split <;> decide

theorem comparatorSelfTest_passes {atA atB : CmpIn} (few : n < 4) (lockstep : s.split = false) (runs : s.pairRuns n = true)
    (going : (s.core n).halted = false) (a : atA.a % 16 = 2 ^ injectedGroup (s.pairSt n).testPos) (a' : atA.b % 16 = 0)
    (b : atB.b % 16 = 2 ^ injectedGroup (s.pairSt n).testPos) (b' : atB.a % 16 = 0) :
    Answers (.comparatorSelfTest n (atA, atB) v) s fun t =>
      bitAt (t.fld R.LSC_STEST F.LSC_STEST_RAN) n = true ∧ (t.pairSt n).testPos = ((s.pairSt n).testPos + 1) % 264 := by
  have first := testClasses_pass (injectedGroup_lt _) a a'
  have second := testClasses_pass (injectedGroup_lt _) b b'
  have test : execComparatorSelfTest n (atA, atB) v s = .next
      ((s.setPair n { s.pairSt n with testPos := ((s.pairSt n).testPos + 1) % 264, testWaits := false }).setBit R.LSC_STEST F.LSC_STEST_RAN n) := by
    unfold execComparatorSelfTest
    dsimp only
    rw [if_neg (by simp [lockstep]; omega), if_neg (by simp [runs, going]), first, if_pos rfl, second, if_pos rfl]
  refine ⟨_, test, ?_, ?_⟩
  · refine (State.bitAt_setBit _ rfl _ n few).trans ?_
    simp
  · have lsc := (State.setBit_kept .LSC_STEST (s.setPair n { s.pairSt n with testPos := ((s.pairSt n).testPos + 1) % 264, testWaits := false })
      F.LSC_STEST_RAN n).frame.same .lsc rfl
    refine (congrArg (fun m => (FMap.get pairDefault m n).testPos) lsc).trans ?_
    exact congrArg PairSt.testPos FMap.get_set_same

/-- The classes of a cycle fit the seven that the unit knows. -/
theorem lowestClass_lt (m : Nat) : lowestClass m < 8 := by
  unfold lowestClass
  cases e : (List.range 7).find? (bitAt m) with
  | none => decide
  | some i =>
    have := List.mem_range.mp (List.mem_of_find?_eq_some e)
    simp only [Option.getD_some]
    omega

/-- What a mismatch captures, where none is held (R321). -/
def State.mismCapture (s : State) (n classes : Nat) (pc : Word) : State :=
  if s.flag (R.LSC_MCAUSEn n) F.LSC_MCAUSEn_VALID then s
  else ((s.setReg (R.LSC_MCAUSEn n) (BitVec.ofNat 32 (2147483648 + classes * 65536 + lowestClass classes))).setReg (R.LSC_MPCn n) pc).setReg
    (R.LSC_MTIMEn n) (BitVec.ofNat 32 s.time)

/-- The event, the count and the status of a mismatch, and the stop of the pair's core with its report to the monitor. -/
def State.mismStop (s : State) (n classes : Nat) : State :=
  let s2 := ((s.setBit R.LSC_EVT F.LSC_EVT_MISM n).incSat (R.LSC_MCNTn n) F.LSC_MCNTn_COUNT).setLscStat n 3
  ((s2.updCore n fun x => { x with cond := .stopped, wfi := false, reservation := none }).setPair n
    { s2.pairSt n with faultN := true, testWaits := false }).sendFrame 4 n (lowestClass classes)

/-- A mismatch that resets something leaves its entry for the journal of the start. -/
theorem State.mismatch_reset (reach : s.reachOf 6 (2 ^ n) ≠ 0) (classes : Nat) (pc : Word) : ∃ l : List (List Byte), s.mismatch n classes pc =
    { (s.mismCapture n classes pc).mismStop n classes with ssm := { ((s.mismCapture n classes pc).mismStop n classes).ssm with mism := l } } := by
  refine ⟨((s.mismCapture n classes pc).mismStop n classes).ssm.mism ++ [padTo 32 (leBytes 4 (2147483648 + classes * 65536 + lowestClass classes) ++
    leBytes 4 pc.toNat ++ leBytes 4 s.time ++ leBytes 1 n)], ?_⟩
  unfold State.mismatch
  exact if_neg reach

theorem State.mismCapture_shows (clear : s.flag (R.LSC_MCAUSEn n) F.LSC_MCAUSEn_VALID = false) (classes : Nat) (pc : Word) :
    (s.mismCapture n classes pc).reg (R.LSC_MPCn n) = pc ∧
    (s.mismCapture n classes pc).fld (R.LSC_MCAUSEn n) F.LSC_MCAUSEn_CLASS = lowestClass classes := by
  have pcTime : R.LSC_MPCn n ≠ R.LSC_MTIMEn n := by simp only [R.LSC_MPCn, R.LSC_MTIMEn]; omega
  have causeTime : R.LSC_MCAUSEn n ≠ R.LSC_MTIMEn n := by simp only [R.LSC_MCAUSEn, R.LSC_MTIMEn]; omega
  have causePc : R.LSC_MCAUSEn n ≠ R.LSC_MPCn n := by simp only [R.LSC_MCAUSEn, R.LSC_MPCn]; omega
  have small := lowestClass_lt classes
  rw [State.mismCapture, if_neg (by rw [clear]; decide), State.fld, State.reg_setReg_ne pcTime, State.reg_setReg,
    State.reg_setReg_ne causeTime, State.reg_setReg_ne causePc, State.reg_setReg]
  refine ⟨rfl, ?_⟩
  simp only [getF, bitsOf, F.LSC_MCAUSEn_CLASS, BitVec.toNat_ofNat]
  omega

/-- What a mismatch stops and announces are no registers. -/
theorem State.mismSend_kept (t : State) (n : Nat) (f : CoreSt → CoreSt) (p : PairSt) (x : Nat) :
    Kept [.cores, .lsc, .ssm] t (((t.updCore n f).setPair n p).sendFrame 4 n x) :=
  .via (State.sendFrame_kept ..) rfl (.via (State.setPair_kept ..) rfl ((State.updCore_kept ..).mono rfl))

theorem State.mismStop_stops (few : n < 4) (s : State) (classes : Nat) : ((s.mismStop n classes).core n).cond = .stopped ∧
    bitAt ((s.mismStop n classes).fld R.LSC_EVT F.LSC_EVT_MISM) n = true ∧ ((s.mismStop n classes).pairSt n).faultN = true := by
  have count : R.LSC_EVT ≠ R.LSC_MCNTn n := by simp only [R.LSC_EVT, R.LSC_MCNTn]; omega
  have core (t : State) (p : PairSt) (x : Nat) : ((t.setPair n p).sendFrame 4 n x).core n = t.core n :=
    congrArg (fun q => FMap.get coreDefault q n) (rfl : ((t.setPair n p).sendFrame 4 n x).cores = t.cores)
  have reg (t : State) (p : PairSt) (x : Nat) (f : CoreSt → CoreSt) (a : Nat) (g : Fld) :
    (((t.updCore n f).setPair n p).sendFrame 4 n x).fld a g = t.fld a g := (State.mismSend_kept ..).frame.fld_apart rfl _
  have pair (t : State) (p : PairSt) (x : Nat) : ((t.setPair n p).sendFrame 4 n x).pairSt n = (t.setPair n p).pairSt n :=
    congrArg (fun q => FMap.get pairDefault q n) (rfl : ((t.setPair n p).sendFrame 4 n x).lsc = (t.setPair n p).lsc)
  unfold State.mismStop
  extract_lets s2
  refine ⟨?_, ?_, ?_⟩
  · rw [core, State.core_updCore]
  · rw [reg]
    unfold s2
    rw [State.setLscStat, State.fld_setFld_ne (by decide), State.incSat, State.fld_setFld_ne count]
    refine (State.bitAt_setBit _ rfl s n few).trans ?_
    simp
  · rw [pair]
    exact congrArg PairSt.faultN FMap.get_set_same

theorem State.mismStop_reg (s : State) (classes : Nat) : (s.mismStop n classes).reg (R.LSC_MPCn n) = s.reg (R.LSC_MPCn n) ∧
    (s.mismStop n classes).fld (R.LSC_MCAUSEn n) F.LSC_MCAUSEn_CLASS = s.fld (R.LSC_MCAUSEn n) F.LSC_MCAUSEn_CLASS := by
  have reg (t : State) (p : PairSt) (x : Nat) (f : CoreSt → CoreSt) (a : Nat) :
    (((t.updCore n f).setPair n p).sendFrame 4 n x).reg a = t.reg a := (State.mismSend_kept ..).frame.reg_apart rfl
  have same (a : Nat) (evt : a ≠ R.LSC_EVT) (count : a ≠ R.LSC_MCNTn n) (stat : a ≠ R.LSC_STAT) :
      (s.mismStop n classes).reg a = s.reg a := by
    rw [State.mismStop, reg, State.setLscStat, State.reg_setFld_ne stat, State.incSat, State.reg_setFld_ne count, State.reg_setBit_ne evt]
  refine ⟨same _ ?_ ?_ ?_, congrArg (getF · _) (same _ ?_ ?_ ?_)⟩ <;>
    simp only [R.LSC_MPCn, R.LSC_MCAUSEn, R.LSC_EVT, R.LSC_MCNTn, R.LSC_STAT] <;> omega

theorem lockstepMismatch_stops {flags : CmpIn} {parity : Bool} (runs : s.pairRuns n = true) (differs : cycleClasses flags parity ≠ 0)
    (reach : s.reachOf 6 (2 ^ n) ≠ 0) : Answers (.lockstepMismatch n (flags, parity) v) s fun t =>
    (t.core n).cond = .stopped ∧ bitAt (t.fld R.LSC_EVT F.LSC_EVT_MISM) n = true ∧ (t.pairSt n).faultN = true ∧
    (s.flag (R.LSC_MCAUSEn n) F.LSC_MCAUSEn_VALID = false → t.reg (R.LSC_MPCn n) = v ∧
      t.fld (R.LSC_MCAUSEn n) F.LSC_MCAUSEn_CLASS = lowestClass (cycleClasses flags parity)) := by
  obtain ⟨l, e⟩ := State.mismatch_reset reach (cycleClasses flags parity) v
  refine ⟨_, congrArg Host.Outcome.next ((if_neg (by simp [runs, differs])).trans e), ?_⟩
  have mism (t : State) : ({ t with ssm := { t.ssm with mism := l } } : State).core n = t.core n ∧
    (∀ a f, ({ t with ssm := { t.ssm with mism := l } } : State).fld a f = t.fld a f) ∧
    ({ t with ssm := { t.ssm with mism := l } } : State).pairSt n = t.pairSt n ∧
    ∀ a, ({ t with ssm := { t.ssm with mism := l } } : State).reg a = t.reg a := ⟨rfl, fun _ _ => rfl, rfl, fun _ => rfl⟩
  obtain ⟨core, fld, pair, reg⟩ := mism ((s.mismCapture n (cycleClasses flags parity) v).mismStop n (cycleClasses flags parity))
  obtain ⟨stopped, event, fault⟩ := (s.mismCapture n (cycleClasses flags parity) v).mismStop_stops (State.pairRuns_lt runs) (cycleClasses flags parity)
  obtain ⟨pc, cause⟩ := State.mismStop_reg (n := n) (s.mismCapture n (cycleClasses flags parity) v) (cycleClasses flags parity)
  dsimp only
  rw [core, fld, pair, fld, reg, pc, cause]
  exact ⟨stopped, event, fault, fun clear => State.mismCapture_shows clear ..⟩

/-- Settles O33: each event where it applies, and each access that passes. -/
theorem safeStateEvents : Obligations.SafeStateEvents := by
  intro s c n count flags atA atB parity v
  refine ⟨fun ack writes => faultN_acknowledged ack writes, fun elapsed writes window key => watchdog_serviced writes window key,
    fun runs differs reach => lockstepMismatch_stops runs differs reach,
    fun few lockstep runs going a a' b b' => comparatorSelfTest_passes few lockstep runs going a a' b b',
    fun src inst cause l line other => faultFrame_taken line other, heartbeatReceived_counts s, fun beats => heartbeatTimeout_raises beats,
    fun few mode quiet => watchdogWarning_warns few mode quiet, fun few mode => watchdogExpiry_asserts few mode,
    fun low high sound => monClock_good low high sound, fun out first => monClock_bad out first⟩

end Sys2Proof.Machine
end

section
/-!
The cores and the event controller (chapter 15): what a command that applies leaves at the core that it is about.
-/
namespace Sys2Proof.Machine

variable {s : State} {c t m k : Nat} {v : Word}

/-! ### Sources in service -/

@[simp] theorem State.evc_setBit (a : Nat) (f : Fld) (i : Nat) : (s.setBit a f i).evc = s.evc := by
  unfold State.setBit
  split <;> rfl

@[simp] theorem State.evc_clrBit (a : Nat) (f : Fld) (i : Nat) : (s.clrBit a f i).evc = s.evc := by
  unfold State.clrBit
  split <;> rfl

theorem FMap.erase_eq_filter {α : Type} (l : FMap α) (k : Nat) : FMap.erase l k = l.filter fun p => k != p.1 := by
  induction l with
  | nil => rfl
  | cons p l ih =>
    simp only [FMap.erase, List.filter_cons, bne_iff_ne, ne_eq]
    by_cases h : k = p.1
    · rw [if_pos h, if_neg (not_not.mpr h), ih]
    · rw [if_neg h, if_pos h, ih]

theorem FMap.any_erase {α : Type} (l : FMap α) (k : Nat) : (FMap.erase l k).any (fun p => p.1 == k) = false := by
  rw [FMap.erase_eq_filter, List.any_eq_false]
  intro p mem
  obtain ⟨-, ne⟩ := List.mem_filter.mp mem
  exact fun same => bne_iff_ne.mp ne (beq_iff_eq.mp same).symm

@[simp] theorem State.inserv_setLine (m : Nat) (on : Bool) : (s.setLine m on).evc.inserv = s.evc.inserv := rfl

@[simp] theorem State.inserv_ringBell : (s.ringBell k).evc.inserv = s.evc.inserv := by
  unfold State.ringBell
  dsimp only
  split
  · rfl
  · rw [State.inserv_setLine, State.evc_setBit]

theorem State.inserv_takeSource : (s.takeSource m t).evc.inserv = FMap.put s.evc.inserv m t := by
  unfold State.takeSource
  dsimp only
  split
  · rw [State.inserv_setLine, State.evc_clrBit]
  · rfl

theorem State.inserv_completeSource : (s.completeSource m).evc.inserv = FMap.erase s.evc.inserv m := by
  unfold State.completeSource
  dsimp only
  split
  · exact State.inserv_ringBell
  · rfl

/-- Completing sources takes them out of service, and no other. -/
theorem State.inserv_each_completeSource (l : List Nat) :
    (s.each l State.completeSource).evc.inserv = s.evc.inserv.filter fun p => !l.contains p.1 := by
  induction l generalizing s with
  | nil => simp [State.each]
  | cons x l ih =>
    refine (ih (s := s.completeSource x)).trans ?_
    rw [State.inserv_completeSource, FMap.erase_eq_filter, List.filter_filter]
    congr 1
    funext p
    simp only [List.contains_cons, Bool.not_or, bne, Bool.and_comm]
    rw [Bool.beq_comm]

/-- A doorbell rung stays raised, or to be raised again, while others are rung. -/
def State.Rung (k : Nat) (s : State) : Prop := 241 + k ∈ s.evc.raised ∨ 241 + k ∈ s.evc.again

theorem State.ringBell_rung (here : k < 16) (s : State) : (s.ringBell k).Rung k := by
  have rings := s.ringBell_rings here
  split at rings
  · exact .inr rings
  · exact .inl rings.1

theorem State.Rung.setLine {j : Nat} (rung : s.Rung k) : (s.setLine j true).Rung k := by
  refine rung.imp_left fun mem => ?_
  by_cases e : 241 + k = j
  · exact e ▸ List.mem_cons_self
  · exact List.mem_cons_of_mem _ (List.mem_filter.mpr ⟨mem, bne_iff_ne.mpr e⟩)

theorem State.Rung.ringBell (rung : s.Rung k) (j : Nat) : (s.ringBell j).Rung k := by
  unfold State.ringBell
  dsimp only
  split
  · refine rung.imp_right fun mem => ?_
    by_cases e : 241 + k = 241 + j
    · exact e ▸ List.mem_cons_self
    · exact List.mem_cons_of_mem _ (List.mem_filter.mpr ⟨mem, bne_iff_ne.mpr e⟩)
  · refine State.Rung.setLine ?_
    rwa [State.Rung, State.evc_setBit]

theorem State.raised_setLine (m : Nat) (on : Bool) : (s.setLine m on).evc.raised.contains m = on := by
  cases on <;> simp [State.setLine]

/-! ### What a refresh and an interrupt leave of a core -/

theorem Frame.core {c : List Part} {s u : State} (h : Frame c s u) (out : c.contains .cores = false) (t : Nat) : u.core t = s.core t := by
  have same : u.cores = s.cores := h.same .cores out
  rw [State.core, same, State.core]

/-- Of a core, what neither a refresh nor an interrupt touches. -/
structure CoreSt.SameEntry (x y : CoreSt) : Prop where
  wfi : y.wfi = x.wfi
  active : y.active = x.active
  mfepc : y.mfepc = x.mfepc
  halted : y.halted = x.halted

theorem CoreSt.SameEntry.trans {x y z : CoreSt} (h : x.SameEntry y) (k : y.SameEntry z) : x.SameEntry z :=
  ⟨k.wfi.trans h.wfi, k.active.trans h.active, k.mfepc.trans h.mfepc, k.halted.trans h.halted⟩

theorem State.core_trap_ne {cause tval : Nat} (h : t ≠ k) : (s.trap k cause tval).core t = s.core t := State.core_updCore_ne _ h

/-- An interrupt that core k takes is a trap of core k. -/
theorem State.takeIrq_core (s : State) (k t : Nat) : (s.takeIrq k).core t = s.core t ∨
    t = k ∧ ∃ j, s.irqOf k = some j ∧ (s.takeIrq k).core t = (s.trap k (2 ^ 31 + j) 0).core k := by
  unfold State.takeIrq
  split
  · exact .inl rfl
  · next j irq =>
    by_cases e : t = k
    · exact .inr ⟨e, j, irq, e ▸ rfl⟩
    · exact .inl (State.core_trap_ne e)

theorem CoreSt.SameEntry.setStd {x y : CoreSt} (h : x.SameEntry y) (n : Nat) (v : Word) : x.SameEntry (y.setStd n v) :=
  ⟨h.wfi, h.active, h.mfepc, h.halted⟩

/-- A trap writes CSRs, the privilege and the place. -/
theorem CoreSt.SameEntry.trapped {x y : CoreSt} (h : x.SameEntry y) (priv pc : Nat) :
    x.SameEntry { y with priv := priv, reservation := none, pc := pc } :=
  ⟨h.wfi, h.active, h.mfepc, h.halted⟩

theorem State.trap_mtimecmp (s : State) (k cause tval : Nat) : ((s.trap k cause tval).core k).mtimecmp = (s.core k).mtimecmp := by
  have std (c : CoreSt) (n : Nat) (v : Word) : (c.setStd n v).mtimecmp = c.mtimecmp := rfl
  have place (c : CoreSt) (p q : Nat) : ({ c with priv := p, reservation := none, pc := q } : CoreSt).mtimecmp = c.mtimecmp := rfl
  unfold State.trap
  rw [State.core_updCore]
  exact (place ..).trans ((std ..).trans ((std ..).trans ((std ..).trans (std ..))))

theorem State.trap_sameEntry (s : State) (k cause tval : Nat) : (s.core k).SameEntry ((s.trap k cause tval).core k) := by
  unfold State.trap
  rw [State.core_updCore]
  have same : (s.core k).SameEntry (s.core k) := ⟨rfl, rfl, rfl, rfl⟩
  exact ((((same.setStd ..).setStd ..).setStd ..).setStd ..).trapped ..

theorem State.takeIrq_sameEntry (s : State) (k t : Nat) : (s.core t).SameEntry ((s.takeIrq k).core t) := by
  rcases s.takeIrq_core k t with same | ⟨rfl, j, -, trapped⟩
  · rw [same]; exact ⟨rfl, rfl, rfl, rfl⟩
  · rw [trapped]; exact s.trap_sameEntry ..

theorem State.each_takeIrq_sameEntry (l : List Nat) (s : State) (t : Nat) : (s.core t).SameEntry ((s.each l State.takeIrq).core t) := by
  induction l generalizing s with
  | nil => exact ⟨rfl, rfl, rfl, rfl⟩
  | cons x l ih => exact (s.takeIrq_sameEntry x t).trans (ih _)

/-- A refresh changes the record of MEIP of a core, and nothing else of it. -/
theorem State.seeMeip_core (s : State) (k t : Nat) : ∃ b, (s.seeMeip k).core t = { s.core t with meipSeen := b } := by
  unfold State.seeMeip
  split
  · by_cases e : t = k
    · subst e; exact ⟨true, State.core_updCore ..⟩
    · exact ⟨_, State.core_updCore_ne _ e⟩
  · exact ⟨_, rfl⟩

theorem State.evcRefresh_core (s : State) (t : Nat) : ∃ b, s.evcRefresh.core t = { s.core t with meipSeen := b } := by
  have rounds (l : List Nat) : ∀ s : State, ∃ b, (s.each l State.seeMeip).core t = { s.core t with meipSeen := b } := by
    induction l with
    | nil => exact fun s => ⟨_, rfl⟩
    | cons x l ih =>
      intro s
      obtain ⟨b, first⟩ := s.seeMeip_core x t
      obtain ⟨d, rest⟩ := ih (s.seeMeip x)
      exact ⟨d, rest.trans (by rw [first])⟩
  exact rounds _ s

/-- Once the controller has settled, a core stands as it was, or in the trap of an interrupt that its mie lets in. -/
theorem State.evcSettle_core (s : State) (t : Nat) :
    (s.evcSettle.core t).pc = (s.core t).pc ∧ (s.evcSettle.core t).priv = (s.core t).priv ∨
    (s.evcSettle.core t).std 0x341 = BitVec.ofNat 32 (s.core t).pc ∧ (s.evcSettle.core t).priv = 3 ∧ (s.core t).std 0x304 ≠ 0 := by
  obtain ⟨b, refreshed⟩ := s.evcRefresh_core t
  by_cases runs : t ∈ s.runCores
  · obtain ⟨u, before, after⟩ := State.each_once (read := fun u => u.core t) (g := State.takeIrq) List.nodup_range runs
      (fun w y ne => (w.takeIrq_core y t).resolve_right fun h => ne h.1.symm) s.evcRefresh
    have before : u.core t = { s.core t with meipSeen := b } := before.trans refreshed
    have after : s.evcSettle.core t = (u.takeIrq t).core t := after
    rw [after]
    rcases u.takeIrq_core t t with same | ⟨-, j, irq, trapped⟩
    · rw [same, before]; exact .inl ⟨rfl, rfl⟩
    · have trap := u.trap_trapped t (2 ^ 31 + j) 0
      refine .inr ⟨?_, ?_, fun none => ?_⟩
      · rw [trapped, trap.mepc, before]
      · rw [trapped, trap.priv]
      · have closed : (u.core t).std 0x304 = 0 := by rw [before]; exact none
        simp [State.irqOf, closed, bitAt] at irq
  · have still (l : List Nat) (out : t ∉ l) : ∀ u : State, (u.each l State.takeIrq).core t = u.core t := by
      induction l with
      | nil => exact fun _ => rfl
      | cons y l ih =>
        obtain ⟨ne, out⟩ := not_or.mp (List.mem_cons.not.mp out)
        exact fun u => (ih out _).trans ((u.takeIrq_core y t).resolve_right fun h => ne h.1)
    have same : s.evcSettle.core t = { s.core t with meipSeen := b } := (still _ runs _).trans refreshed
    rw [same]
    exact .inl ⟨rfl, rfl⟩

theorem State.evcSettle_sameEntry (s : State) (t : Nat) : (s.core t).SameEntry (s.evcSettle.core t) := by
  obtain ⟨b, refreshed⟩ := s.evcRefresh_core t
  have start : (s.core t).SameEntry (s.evcRefresh.core t) := by rw [refreshed]; exact ⟨rfl, rfl, rfl, rfl⟩
  exact start.trans (State.each_takeIrq_sameEntry ..)

/-! ### The commands -/

theorem State.core_leaveSleep (k : Nat) : (s.leaveSleep k).core t = s.core t := (State.leaveSleep_kept s k).frame.core rfl t

@[simp] theorem State.core_setReg (a : Nat) : (s.setReg a v).core t = s.core t := rfl

/-- What the entry to a fast handler makes of a core. -/
def CoreSt.entered (x : CoreSt) (m pc : Nat) : CoreSt :=
  { x with active := true, fid := m, fpriv := x.priv, mfepc := pc, priv := 3, wfi := false, pc := x.mfvec + 4 * (m - 1) }

theorem State.fastEntry_core {pc : Nat} (best : s.bestSource (s.evc.raised.filter (s.fastPending t)) = some m) (runs : s.available t = true)
    (on : (s.core t).mfcfg = true) (free : (s.core t).active = false) (going : (s.core t).halted = false) :
    ∃ b, (s.fastEntry t pc).core t = { (s.core t).entered m pc with meipSeen := b } := by
  unfold State.fastEntry
  rw [best]
  dsimp only
  rw [if_pos (by simp [runs, on, free, going])]
  refine (State.evcRefresh_core _ t).imp fun b entered => entered.trans ?_
  rw [State.core_setReg]
  split
  · rw [State.core_leaveSleep, State.core_setReg, State.core_setCore]; rfl
  · rw [State.core_setCore]; rfl

theorem State.fret_entry (active : (s.core t).active = true) : Answers (.fret t) s fun u => (u.core t).active = false ∧
    ((u.core t).pc = (s.core t).mfepc ∧ (u.core t).priv = (s.core t).fpriv ∨
      (u.core t).std 0x341 = BitVec.ofNat 32 (s.core t).mfepc ∧ (u.core t).priv = 3 ∧ (s.core t).std 0x304 ≠ 0) ∧
    (u.evc.inserv.any fun p => p.1 == (s.core t).fid) = false := by
  refine ⟨_, congrArg Host.Outcome.next (if_pos active), ?_⟩
  dsimp only
  generalize back : ((s.completeSource (s.core t).fid).updCore t fun c => { c with active := false, fid := 0, pc := c.mfepc, priv := c.fpriv }).setReg
    (R.EVC_FASTt t) 0 = u
  have cores : (s.completeSource (s.core t).fid).core t = s.core t := (State.completeSource_kept ..).frame.core rfl t
  have core : u.core t = { s.core t with active := false, fid := 0, pc := (s.core t).mfepc, priv := (s.core t).fpriv } := by
    rw [← back, State.core_setReg, State.core_updCore, cores]
  have evc : u.evc = (s.completeSource (s.core t).fid).evc := by rw [← back]; rfl
  have settled := u.evcSettle_core t
  rw [core] at settled
  refine ⟨?_, settled, ?_⟩
  · rw [(u.evcSettle_sameEntry t).active, core]
  · have same : u.evcSettle.evc = u.evc := (State.evcSettle_kept u).frame.same .evc rfl
    rw [same, evc, State.inserv_completeSource]
    exact FMap.any_erase ..

theorem State.dropCore_drops (s : State) (t : Nat) :
    ((s.dropCore t).core t).active = false ∧ ((s.dropCore t).evc.inserv.any fun p => p.2 == t) = false := by
  unfold State.dropCore
  dsimp only
  constructor
  · obtain ⟨b, refreshed⟩ := State.evcRefresh_core _ t
    rw [refreshed, State.core_setReg, State.core_updCore]
  · have same (u : State) : u.evcRefresh.evc = u.evc := (State.evcRefresh_kept u).frame.same .evc rfl
    have kept (u : State) (f : CoreSt → CoreSt) (a : Nat) (w : Word) : ((u.updCore t f).setReg a w).evc = u.evc := rfl
    rw [same, kept, State.inserv_each_completeSource, List.any_eq_false]
    intro p mem held
    obtain ⟨mem, out⟩ := List.mem_filter.mp mem
    have listed : p.1 ∈ (s.evc.inserv.filter fun p => p.2 == t).map (·.1) := List.mem_map_of_mem (List.mem_filter.mpr ⟨mem, held⟩)
    rw [List.contains_iff_mem.mpr listed] at out
    exact Bool.false_ne_true out

theorem State.reg_leaveSleep {a : Nat} (h : a ≠ R.PST_SLEEP) (k : Nat) : (s.leaveSleep k).reg a = s.reg a := by
  unfold State.leaveSleep
  split
  · exact State.reg_clrBit_ne h ..
  · rfl

theorem State.wake_reg (woken : (s.core t).wfi = true) (runs : s.available t = true) {kind id : Nat} (holds : s.wakeHolds t kind id = true) :
    Answers (.coreWake t kind id) s fun u => (u.core t).wfi = false ∧
      u.reg (R.EVC_WAKEt t) = BitVec.ofNat 32 (kind * 2 ^ 30 + (if kind = 3 then 0 else id)) := by
  refine ⟨_, congrArg Host.Outcome.next (if_pos (by simp [woken, runs, holds])), ?_, ?_⟩
  · rw [(State.takeIrq_sameEntry ..).wfi, State.core_leaveSleep, State.core_setReg, State.core_updCore]
  · have taken (u : State) : (u.takeIrq t).reg (R.EVC_WAKEt t) = u.reg (R.EVC_WAKEt t) := (State.takeIrq_kept u t).frame.reg_apart rfl
    rw [taken, State.reg_leaveSleep (by simp only [R.EVC_WAKEt, R.PST_SLEEP]; omega), State.reg_setReg]

theorem State.sourceWrite_reg {own : List Status} (writes : s.Writes c (R.EVC_SRCm m) v own) (w : Word) :
    let u := s.accessBy (.core c) (R.EVC_SRCm m) true (s.tryWrite (R.EVC_SRCm m) v own fun s => (s.setReg (R.EVC_SRCm m) w).evcSettle)
    u.resp = ⟨.done, 0⟩ ∧ u.reg (R.EVC_SRCm m) = w := by
  have made := (writes.made fun s => (s.setReg (R.EVC_SRCm m) w).evcSettle).frame
  have settled : (s.setReg (R.EVC_SRCm m) w).evcSettle.reg (R.EVC_SRCm m) = (s.setReg (R.EVC_SRCm m) w).reg (R.EVC_SRCm m) :=
    (State.evcSettle_kept _).frame.reg_apart rfl
  exact ⟨made.same .resp rfl, (made.reg_apart rfl).trans ((State.reg_respond ..).trans (settled.trans (State.reg_setReg _)))⟩

/-- The start address of a parked core starts it. -/
theorem State.pvec_starts (boss : s.coreOfCode c = some 0) (other : 0 < m) (here : m < if s.split then s.variant.cores else s.variant.pairs)
    (whole : v.toNat % 4 = 0) (range : startAddrOk v.toNat = true) (real : v ≠ 0) (parked : (s.core m).cond = .parked)
    (lets : s.Lets c (R.RST_PVECn m) 1) :
    Answers (.rstPvecWrite (.core c) m v) s fun u => u.reg (R.RST_PVECn m) = v ∧ (u.core m).cond = .running ∧ (u.core m).pc = v.toNat := by
  have low : m < 8 := State.lt_of_mem_runCores (List.mem_range.mpr here)
  have own : s.isCore0 (.core c) = true := by simp [State.isCore0, State.isCore, boss]
  have four : s.variant.pairs ≤ 4 := by cases s.variant <;> decide
  have present : ¬ if s.split = true then s.variant.cores ≤ m
      else (decide (4 ≤ m) && decide (s.variant.cores ≤ m) || decide (m < 4) && decide (s.variant.pairs ≤ m)) = true := by
    split at here
    · next mode => rwa [if_pos mode, Nat.not_le]
    · next mode =>
      have below : ¬ 4 ≤ m := by omega
      rw [if_neg mode]
      simpa [below] using fun _ => here
  have started : ¬ (m = 0 ∨ (!s.split && decide (4 ≤ m)) = true) := by
    split at here
    · next mode => simpa [mode] using other.ne'
    · next mode =>
      have below : ¬ 4 ≤ m := by omega
      simpa [below] using other.ne'
  have act : execRstPvecWrite (.core c) m v s = .next (((((s.setReg (R.RST_PVECn m) v).updCore m fun c =>
      { c with cond := .running, wfi := false, pc := v.toNat }).leaveSleep m).evcRefresh).respond 0) := by
    unfold execRstPvecWrite
    dsimp only
    rw [if_neg present, if_pos own, if_pos whole, if_pos range, if_neg started]
    rw [if_pos (by rw [parked, decide_eq_true real]; rfl)]
    exact congrArg Host.Outcome.next (State.accessBy_core_done (store := true) lets rfl
      (by have : ∀ n < 8, monitorReg (R.RST_PVECn n) = false := by decide
          exact this m low))
  refine ⟨_, act, ?_, ?_⟩
  · have refreshed (u : State) : u.evcRefresh.reg (R.RST_PVECn m) = u.reg (R.RST_PVECn m) := (State.evcRefresh_kept u).frame.reg_apart rfl
    have upd (u : State) (f : CoreSt → CoreSt) : (u.updCore m f).reg (R.RST_PVECn m) = u.reg (R.RST_PVECn m) := rfl
    rw [State.reg_respond, refreshed, State.reg_leaveSleep (by simp only [R.RST_PVECn, R.PST_SLEEP]; omega), upd, State.reg_setReg]
  · obtain ⟨b, refreshed⟩ := State.evcRefresh_core (((s.setReg (R.RST_PVECn m) v).updCore m fun c =>
      { c with cond := .running, wfi := false, pc := v.toNat }).leaveSleep m) m
    rw [State.core_respond, refreshed, State.core_leaveSleep, State.core_updCore]
    exact ⟨rfl, rfl⟩

/-- Settles O34: each command leaves at its core, and in the controller, what chapter 15 says. -/
theorem coreEvents : Obligations.CoreEvents := by
  intro s c t m kind id pc csr v
  refine ⟨fun present code going x best some real lets => ?claim, fun present code small low high held lets => ?complete,
    fun k here rung none lets => ?doorbell, fun writes => ⟨_, rfl, State.sourceWrite_reg writes _⟩, fun runs quiet => ?wfi,
    fun waits runs holds => State.wake_reg waits runs holds, fun low high => ?line, fun x best runs on free going => ?fast,
    State.fret_entry, fun k late irq => ?timer, fun quiet => ?quiet, fun ne small pending nowhere => ?stranded, fun lost => ?lost,
    fun old read reach plain => ?csrRead, fun machine => ?csrWrite, State.pvec_starts⟩
  case claim =>
    have runs : t ∈ s.runCores := State.coreFails_nil.mp present
    have value : s.claimValue t = x := by rw [State.claimValue, best]
    refine ⟨s.claim t, execEventClaim_core runs code going lets, by rw [State.resp_claim, value], ?_⟩
    unfold State.claim
    rw [value]
    dsimp only
    rw [if_neg (by omega)]
    have evc (u : State) (f : CoreSt → CoreSt) : (((u.updCore t f).evcRefresh).respond x).evc = u.evc := (State.evcRefresh_kept _).frame.same .evc rfl
    rw [evc, State.inserv_takeSource]
    exact FMap.get_put_same
  case complete =>
    have runs : t ∈ s.runCores := State.coreFails_nil.mp present
    have own : s.isCore (.core c) t = true := by simp [State.isCore, code]
    have act : execEventComplete (.core c) t v s = .next ((s.completeSource (getF v F.EVC_CLAIMt_ID)).evcSettle.respond 0) := by
      unfold execEventComplete
      dsimp only
      rw [present, if_pos own, if_pos small, if_neg (by omega), if_pos held]
      exact congrArg Host.Outcome.next (State.accessBy_core_done (store := true) lets rfl (monitorReg_claim (State.lt_of_mem_runCores runs)))
    refine ⟨_, act, rfl, ?_⟩
    have evc (u : State) : (u.evcSettle.respond 0).evc = u.evc := (State.evcSettle_kept u).frame.same .evc rfl
    rw [evc, State.inserv_completeSource]
    exact FMap.any_erase ..
  case doorbell =>
    have act : execDoorbellSet (.core c) v s = .next (((s.each ((List.range 16).filter (bitAt v.toNat)) State.ringBell).evcSettle).respond 0) := by
      unfold execDoorbellSet
      rw [if_neg (by simp [none])]
      exact congrArg Host.Outcome.next (State.accessBy_core_done (store := true) lets rfl rfl)
    refine ⟨_, act, rfl, ?_⟩
    have evc (u : State) : (u.evcSettle.respond 0).evc = u.evc := (State.evcSettle_kept u).frame.same .evc rfl
    rw [evc]
    exact State.each_makes (P := State.Rung k) (List.mem_filter.mpr ⟨List.mem_range.mpr here, rung⟩) (State.ringBell_rung here)
      (fun u j rung => rung.ringBell j) s
  case wfi =>
    refine ⟨s.updCore t fun c => { c with wfi := true }, ?_, congrArg CoreSt.wfi (State.core_updCore _)⟩
    exact congrArg Host.Outcome.next ((if_neg (by simp [runs])).trans (if_neg (by simp [quiet])))
  case line =>
    refine ⟨_, congrArg Host.Outcome.next (if_pos ⟨low, high⟩), ?_⟩
    have evc (u : State) : u.evcSettle.evc = u.evc := (State.evcSettle_kept u).frame.same .evc rfl
    dsimp only
    rw [evc, State.raised_setLine]
  case fast =>
    obtain ⟨b, entered⟩ := State.fastEntry_core (pc := pc) best runs on free going
    refine ⟨s.fastEntry t pc, rfl, ?_⟩
    dsimp only
    rw [entered]
    exact ⟨rfl, rfl, rfl, rfl, rfl, rfl⟩
  case timer =>
    have due : s.mtip t = true := decide_eq_true late
    have taken : s.takeIrq t = s.trap t (2 ^ 31 + k) 0 := by rw [State.takeIrq, irq]
    have trap := s.trap_trapped t (2 ^ 31 + k) 0
    refine ⟨s.trap t (2 ^ 31 + k) 0, congrArg Host.Outcome.next ((if_pos due).trans taken), ?_, trap.priv, trap.mcause, trap.mepc⟩
    rw [State.mtip, State.trap_mtimecmp, (State.trap_kept ..).frame.same .time rfl]
    exact due
  case quiet =>
    refine ⟨s, congrArg Host.Outcome.next ?_, rfl⟩
    rcases quiet with early | idle
    · exact if_neg (by simpa [State.mtip] using early)
    · rw [State.takeIrq, idle]; exact ite_self s
  case stranded =>
    refine ⟨_, congrArg Host.Outcome.next (if_pos (by simp [ne, pending, nowhere])), ?_, ?_⟩
    · have apart : R.EVC_EVT ≠ R.EVC_STRAND := by decide
      rw [State.incSat, State.flag, State.fld_setFld_ne apart, State.fld_setFld_ne apart]
      exact State.flag_setFlag _ rfl
    · rw [State.incSat, State.fld_setFld_apart _ _ rfl rfl rfl, State.fld_setFld _ rfl]
      exact Nat.mod_eq_of_lt (by simp only [F.EVC_STRAND_ID]; omega)
  case lost =>
    exact ⟨s.dropCore t, congrArg Host.Outcome.next (if_neg (by simp [lost])), s.dropCore_drops t⟩
  case csrRead =>
    refine ⟨s.respond old.toNat, congrArg Host.Outcome.next ?_, rfl⟩
    rw [read]
    dsimp only
    rw [if_neg (by simp [reach]), if_pos rfl, plain]
    rfl
  case csrWrite =>
    have reach : (s.core t).csrReach 0x7C2 = true := by simp [CoreSt.csrReach, machine]
    refine ⟨((s.setCore t { s.core t with mfepc := v.toNat }).takeIrq t).respond (BitVec.ofNat 32 (s.core t).mfepc).toNat,
      congrArg Host.Outcome.next ?_, ?_⟩
    · have read : s.csrRead t 0x7C2 = Option.some (BitVec.ofNat 32 (s.core t).mfepc) := rfl
      rw [read]
      dsimp only
      rw [if_neg (by simp [reach, csrReadOnly])]
      rfl
    · dsimp only
      rw [State.core_respond, (State.takeIrq_sameEntry ..).mfepc, State.core_setCore]
      exact ⟨rfl, rfl⟩

end Sys2Proof.Machine
end

section
/-!
Events and registers of the network ports (chapter 16).
-/
namespace Sys2Proof.Machine

variable {s : State} {c n p : Nat} {v : Word} {f : EthIn}

/-- What each round keeps, the loop keeps. -/
theorem State.each_keeps {α β : Type} {read : State → β} {g : State → α → State} (keep : ∀ t x, read (g t x) = read t) (l : List α) :
    ∀ s : State, read (s.each l g) = read s := by
  induction l with
  | nil => exact fun _ => rfl
  | cons x l ih => exact fun s => (ih _).trans (keep s x)

theorem Frame.cn {c : List Part} {s u : State} (h : Frame c s u) (out : c.contains .can = false) (n : Nat) : u.cn n = s.cn n := by
  have same : u.can = s.can := h.same .can out
  rw [State.cn, same, State.cn]

theorem Frame.et {c : List Part} {s u : State} (h : Frame c s u) (out : c.contains .eth = false) (p : Nat) : u.et p = s.et p := by
  have same : u.eth = s.eth := h.same .eth out
  rw [State.et, same, State.et]

/-! ### Fields -/

theorem State.flag_setFld (s : State) (a : Nat) (f : Fld) (ok : f.ok = true) (one : f.hi = f.lo) (on : Bool) :
    (s.setFld a f (b2n on)).flag a f = on := by
  rw [State.flag, State.fld_setFld f ok, one, Nat.add_sub_cancel_left]
  cases on <;> rfl

theorem toSigned_ofSigned {x : Int} (low : -2147483648 ≤ x) (high : x < 2147483648) : toSigned 32 (ofSigned 32 (satS 32 x)) = x := by
  have sat : satS 32 x = x := by simp only [satS, clampI]; omega
  rw [sat, toSigned, ofSigned]
  by_cases neg : x < 0
  · rw [if_neg (by omega)]; omega
  · rw [if_pos (by omega)]; omega

theorem State.sfld_setSfld {x : Int} (a : Nat) (low : -2147483648 ≤ x) (high : x < 2147483648) : (s.setSfld a ⟨31, 0⟩ x).sfld a ⟨31, 0⟩ = x := by
  rw [State.sfld, State.setSfld, State.fld_setFld ⟨31, 0⟩ rfl]
  have whole : ofSigned 32 (satS 32 x) % 2 ^ 32 = ofSigned 32 (satS 32 x) := by
    refine Nat.mod_eq_of_lt ?_
    rw [ofSigned]; omega
  exact (congrArg (toSigned 32) whole).trans (toSigned_ofSigned low high)

/-! ### CAN ports -/

theorem State.canConf_cn (s : State) (n k : Nat) : (s.canConf n).cn k = s.cn k := (State.canConf_kept s n).frame.cn rfl k

/-- A register write leaves the ports' records. -/
theorem State.cn_setFld (s : State) (a : Nat) (f : Fld) (v n : Nat) : (s.setFld a f v).cn n = s.cn n :=
  congrArg (fun q => FMap.get canDefault q n) (rfl : (s.setFld a f v).can = s.can)

theorem State.et_setFld (s : State) (a : Nat) (f : Fld) (v p : Nat) : (s.setFld a f v).et p = s.et p :=
  congrArg (fun q => FMap.get ethDefault q p) (rfl : (s.setFld a f v).eth = s.eth)

theorem State.canDiscard_received (s : State) (n : Nat) : ((s.canDiscard n).cn n).received = (s.cn n).received := by
  have counted : ((s.incSat (R.CANn_CNT n) F.CANn_CNT_DISCARD).setFlag (R.CANn_EVT n) F.CANn_EVT_DISC).cn n = s.cn n :=
    (State.cn_setFld ..).trans (State.cn_setFld ..)
  rw [State.canDiscard, State.cn_updCn, counted]

theorem State.canReceived {f : CanIn} (low : n < 6) (runs : s.ust (U.can n) = .running)
    (on : s.fld (R.CANn_STATE n) F.CANn_STATE_CONF ≠ 2) (normal : s.canNormal n = true) : Answers (.canFrameReceived n f) s fun t =>
    (f.ok = false → (t.cn n).rxc = (s.cn n).rxc + 1 + 8 * f.worse) ∧ (f.ok = true → (t.cn n).received = (s.cn n).received + 1) := by
  refine ⟨_, congrArg Host.Outcome.next (if_neg (by rw [runs]; simp [on, Nat.not_le.mpr low])), ?_⟩
  dsimp only
  cases ok : f.ok
  · refine ⟨fun _ => ?_, nofun⟩
    rw [if_pos (by rfl), if_pos normal, State.canConf_cn, State.cn_updCn]
  · refine ⟨nofun, fun _ => ?_⟩
    rw [if_neg (by decide), normal, Bool.not_true, if_neg Bool.false_ne_true]
    generalize counted : (if 127 < (s.cn n).rxc then (s.draw.2.updCn n fun c => { c with rxc := 119 + s.draw.1 % 9 + 8 * f.worse }).canConf n
      else (s.updCn n fun c => { c with rxc := c.rxc - 1 + 8 * f.worse }).canConf n) = u
    have before : (u.cn n).received = (s.cn n).received := by
      rw [← counted]
      split
      · rw [State.canConf_cn, State.cn_updCn]; rfl
      · rw [State.canConf_cn, State.cn_updCn]
    have taken : ((u.updCn n fun c => { c with received := c.received + 1 }).cn n).received = (s.cn n).received + 1 := by
      rw [State.cn_updCn, before]
    split
    · rw [(State.netIntake_kept ..).frame.cn rfl]; exact taken
    · rw [State.canDiscard_received]; exact taken

theorem State.consumeTo_quiet_cn (ready : s.po.ready = []) (deferred : s.po.deferred = []) (ph k n : Nat) : (s.consumeTo ph k).cn n = s.cn n := by
  unfold State.consumeTo
  dsimp only
  generalize moved : (if ringDist _ _ _ < ringDist _ _ _ then _ else _ : State) = u
  have can : u.can = s.can := by rw [← moved]; split <;> rfl
  have quiet : (u.syncHeld ph).po.ready = [] ∧ (u.syncHeld ph).po.deferred = [] := by
    rw [← moved]; split <;> exact ⟨ready, deferred⟩
  generalize (passedBy _ _ _) = passed
  have nothing : ((u.syncHeld ph).handOver ph passed).po.ready = [] := by
    unfold State.handOver
    rw [quiet.2]
    simpa using quiet.1
  rw [State.runReady_of_ready_nil nothing, (State.handOver_kept ..).frame.cn rfl, State.cn, State.cn]
  exact congrArg (FMap.get canDefault · n) can

theorem State.canSent {ph fails w : Nat} (runs : s.ust (U.can n) = .running) (on : s.fld (R.CANn_STATE n) F.CANn_STATE_CONF ≠ 2)
    (frame : (s.cn n).tx = some (ph, fails)) (ready : s.po.ready = []) (deferred : s.po.deferred = []) :
    Answers (.canTransmitEnd n ⟨0, w⟩) s fun t => (t.cn n).tx = none ∧ (t.cn n).sent = (s.cn n).sent + 1 ∧ (t.cn n).tec = (s.cn n).tec - 1 + 8 * w := by
  have act : execCanTransmitEnd n ⟨0, w⟩ s = .next (((s.updCn n fun c => { c with tec := c.tec - 1 + 8 * w, sent := c.sent + 1, tx := none }).canConf n).consumeTo
      ph (s.phNext ph 1)) := by
    unfold execCanTransmitEnd
    rw [frame]
    dsimp only
    rw [if_neg (by rw [runs]; simp [on]), if_pos rfl]
  refine ⟨_, act, ?_⟩
  have po : ((s.updCn n fun c => { c with tec := c.tec - 1 + 8 * w, sent := c.sent + 1, tx := none }).canConf n).po = s.po :=
    (State.canConf_kept ..).frame.same .po rfl
  dsimp only
  rw [State.consumeTo_quiet_cn (by rw [po]; exact ready) (by rw [po]; exact deferred), State.canConf_cn, State.cn_updCn]
  exact ⟨rfl, rfl, rfl⟩

theorem State.canFailed {ph fails w : Nat} (runs : s.ust (U.can n) = .running) (on : s.fld (R.CANn_STATE n) F.CANn_STATE_CONF ≠ 2)
    (frame : (s.cn n).tx = some (ph, fails))
    (again : s.fld (R.CANn_MODE n) F.CANn_MODE_RETRY = 31 ∨ fails < s.fld (R.CANn_MODE n) F.CANn_MODE_RETRY) :
    Answers (.canTransmitEnd n ⟨1, w⟩) s fun t => (t.cn n).tx = some (ph, fails + 1) ∧ (t.cn n).tec = (s.cn n).tec + 8 + 8 * w := by
  have act : execCanTransmitEnd n ⟨1, w⟩ s = .next ((s.updCn n fun c => { c with tec := c.tec + 8 + 8 * w, tx := some (ph, fails + 1) }).canConf n) := by
    unfold execCanTransmitEnd
    rw [frame]
    dsimp only
    rw [if_neg (by rw [runs]; simp [on]), if_neg (by decide), if_neg (by omega)]
    rfl
  refine ⟨_, act, ?_⟩
  dsimp only
  rw [State.canConf_cn, State.cn_updCn]
  exact ⟨rfl, rfl⟩

theorem State.canRecovered (low : n < 6) (runs : s.ust (U.can n) = .running) (off : s.fld (R.CANn_STATE n) F.CANn_STATE_CONF = 2) :
    Answers (.canBusOffRecovered n) s fun t => (t.cn n).tec = 0 ∧ (t.cn n).rxc = 0 ∧ t.fld (R.CANn_STATE n) F.CANn_STATE_CONF = 0 := by
  refine ⟨_, congrArg Host.Outcome.next (if_neg (by rw [runs]; simp [off, Nat.not_le.mpr low])), ?_⟩
  dsimp only
  refine ⟨?_, ?_, ?_⟩
  · rw [State.canConf_cn, State.cn_updCn]
  · rw [State.canConf_cn, State.cn_updCn]
  · unfold State.canConf
    dsimp only
    rw [State.cn_updCn]
    have still (g : CanSt → CanSt) : (s.updCn n g).fld (R.CANn_STATE n) F.CANn_STATE_CONF = 2 := off
    have apart : R.CANn_STATE n ≠ R.CANn_EVT n := by simp only [R.CANn_STATE, R.CANn_EVT]; omega
    rw [still]
    dsimp only
    rw [if_neg (by simp), State.setFlag, State.fld_setFld_ne apart, State.fld_setFld _ rfl]
    rfl

theorem State.canSends {ph : Nat} {b : List Byte} (low : n < 6) (runs : s.ust (U.can n) = .running) (normal : s.canNormal n = true)
    (on : s.fld (R.CANn_STATE n) F.CANn_STATE_CONF ≠ 2) (free : (s.cn n).tx = none) (next : s.nextReceiptPh (U.can n) = some ph)
    (slot : (s.readSlot (s.phSlot ph (s.phHead ph))).2 = some b) :
    Answers (.netReceiptSend (U.can n)) s fun t => (t.cn n).tx = some (ph, 0) ∧ (t.cn n).id = s.fld (R.CANn_IDS n) F.CANn_IDS_TXID + s.phClass ph := by
  have port : isNet (U.can n) = true := by
    have : ∀ n < 6, isNet (U.can n) = true := by decide
    exact this n low
  have can : U.can n < 0x38 := by simp only [U.can]; omega
  have same : U.can n - 0x30 = n := Nat.add_sub_cancel_left ..
  have act : execNetReceiptSend (U.can n) s = .next (s.canSend n) := by
    unfold execNetReceiptSend
    rw [port, Bool.not_true, if_neg Bool.false_ne_true, if_pos can, same]
  refine ⟨_, act, ?_⟩
  dsimp only
  unfold State.canSend
  rw [if_neg (by rw [runs]; simp [on, normal, free]), next]
  dsimp only
  rw [slot]
  dsimp only
  rw [State.cn_updCn]
  exact ⟨rfl, rfl⟩

/-! ### Frames that an Ethernet port takes -/

/-- Whether the port holds an association to send with. -/
def EthSt.secures (e : EthSt) : Bool := match e.txAn with
  | none => false
  | some an => e.assocs.any fun a => a.channel == 0 && a.an == an && a.pn < 0xFFFFFFFF

theorem State.ethCan_eq (s : State) (p : Nat) : s.ethCan p =
    (s.ust (U.eth p) == .running && s.flag (R.ETHp_STATE p) F.ETHp_STATE_LINK && (!s.ethFlag p 4 || (s.et p).secures)) := rfl

/-- What a received frame leaves of a port: all but the frame's own record and the packet numbers of the channels that it receives from. -/
structure EthSt.Takes (x y : EthSt) : Prop where
  received : y.received = x.received
  sent : y.sent = x.sent
  discarded : y.discarded = x.discarded
  answers : y.answers = x.answers
  gateAt : y.gateAt = x.gateAt
  secures : y.secures = x.secures

theorem EthSt.Takes.refl (x : EthSt) : x.Takes x := ⟨rfl, rfl, rfl, rfl, rfl, rfl⟩

theorem EthSt.Takes.trans {x y z : EthSt} (h : x.Takes y) (k : y.Takes z) : x.Takes z :=
  ⟨k.received.trans h.received, k.sent.trans h.sent, k.discarded.trans h.discarded, k.answers.trans h.answers, k.gateAt.trans h.gateAt,
    k.secures.trans h.secures⟩

/-- A packet number put into the associations of one channel. -/
def Assoc.raise (ch an low : Nat) (x : Assoc) : Assoc := if x.channel = ch ∧ x.an = an then { x with pn := low } else x

/-- Packet numbers of a receive channel say nothing of the send channel, 0. -/
theorem EthSt.secures_raise (e : EthSt) {ch : Nat} (ne : ch ≠ 0) (an low : Nat) :
    { e with assocs := e.assocs.map (Assoc.raise ch an low) }.secures = e.secures := by
  cases tx : e.txAn with
  | none => simp [EthSt.secures, tx]
  | some k =>
    simp only [EthSt.secures, tx, List.any_map]
    congr 1
    funext a
    dsimp only [Function.comp_apply, Assoc.raise]
    split
    · next here => simp [here.1, beq_false_of_ne ne]
    · rfl

theorem State.msAccept_takes {u : State} (h : s.msAccept p f = some u) (k : Nat) : (s.et k).Takes (u.et k) := by
  unfold State.msAccept at h
  split at h
  · split at h <;> cases h
    exact .refl _
  · dsimp only at h
    split at h
    · cases h
    · next a found =>
      have holds := List.find?_some found
      simp only [Bool.and_eq_true, bne_iff_ne] at holds
      split at h <;> cases h
      by_cases e : k = p
      · subst e
        rw [State.et_updEt]
        exact ⟨rfl, rfl, rfl, rfl, rfl, EthSt.secures_raise _ holds.2 ..⟩
      · rw [State.et_updEt_ne _ _ _ e]; exact .refl _

/-- What the recovery of sequence numbers sets is the frame's own record. -/
theorem EthSt.Takes.recovered (x : EthSt) (any : Bool) (seq hist : Nat) : x.Takes { x with takeAny := any, recov := seq, hist := hist } :=
  ⟨rfl, rfl, rfl, rfl, rfl, rfl⟩

theorem recover_takes (e : EthSt) (seq : Nat) : e.Takes (recover e seq).1 := by
  unfold recover
  dsimp only
  split
  · exact .recovered ..
  · split
    · exact .refl e
    · split
      · split
        · exact .refl e
        · exact .recovered e e.takeAny e.recov _
      · exact .recovered e e.takeAny seq _

/-- The port with one more frame received. -/
def State.ethCounted (s : State) (p : Nat) : State := s.updEt p fun e => { e with received := e.received + 1 }

theorem State.ethDiscard_et (s : State) (p : Nat) : (s.ethDiscard p).et p = { s.et p with discarded := (s.et p).discarded + 1 } := by
  rw [State.ethDiscard, State.et_updEt, State.setFlag, State.incSat, State.et_setFld, State.et_setFld]

theorem State.msDiscard_et (s : State) (p : Nat) : (s.msDiscard p).et p = { s.et p with msDrop := (s.et p).msDrop + 1 } := by
  rw [State.msDiscard, State.et_updEt, State.setFlag, State.incSat, State.et_setFld, State.et_setFld]

/-- What the recovery of a sequence number makes of the port that holds it, and whether the frame passes. -/
def State.ethRecover (s : State) (home : Nat) (f : EthIn) : EthSt × Bool := match f.rtag with
  | some seq => recover (s.et 0) seq
  | none => (s.et home, true)

/-- The frame counted and recovered, past its security. -/
def State.ethRecovered (s : State) (home p : Nat) (f : EthIn) : State × Bool :=
  let s3 := s.updEt home fun _ => (s.ethRecover home f).1
  (if (s.ethRecover home f).2 then s3 else s3.updEt p fun e => { e with dups := e.dups + 1 }, (s.ethRecover home f).2)

/-- A frame of another VLAN, or with a sequence number where none is looked for or none where one is. -/
def State.ethForeign (s : State) (p : Nat) (f : EthIn) : Prop :=
  f.vlan ≠ (if s.fld (R.ETHp_CFG p) F.ETHp_CFG_VLAN = 0 then none else some (s.fld (R.ETHp_CFG p) F.ETHp_CFG_VLAN)) ∨ f.rtag.isSome ≠ s.merged

theorem State.ethAccept_foreign (foreign : s.ethForeign p f) : s.ethAccept p f = ((s.ethCounted p).ethDiscard p, false) := if_pos foreign

theorem State.ethAccept_own (own : ¬ s.ethForeign p f) : s.ethAccept p f = match (s.ethCounted p).msAccept p f with
    | none => ((s.ethCounted p).msDiscard p, false)
    | some u => u.ethRecovered (s.ethHome p) p f := if_neg own

theorem State.rtag_of_own (own : ¬ s.ethForeign p f) : f.rtag.isSome = s.merged := by
  by_contra foreign
  exact own (.inr foreign)

theorem State.ethRecover_takes (own : f.rtag.isSome = s.merged) (u : State) (p : Nat) :
    (u.et (s.ethHome p)).Takes (u.ethRecover (s.ethHome p) f).1 := by
  unfold State.ethRecover
  cases tag : f.rtag with
  | none => exact .refl _
  | some seq =>
    have merged : s.merged = true := by rw [← own, tag]; rfl
    rw [State.ethHome, merged, if_pos rfl]
    exact recover_takes ..

theorem State.ethRecovered_takes (own : f.rtag.isSome = s.merged) (u : State) (p k : Nat) :
    (u.et k).Takes ((u.ethRecovered (s.ethHome p) p f).1.et k) := by
  have first : (u.et k).Takes ((u.updEt (s.ethHome p) fun _ => (u.ethRecover (s.ethHome p) f).1).et k) := by
    by_cases e : k = s.ethHome p
    · subst e; rw [State.et_updEt]; exact State.ethRecover_takes own ..
    · rw [State.et_updEt_ne _ _ _ e]; exact .refl _
  unfold State.ethRecovered
  dsimp only
  split
  · exact first
  · refine first.trans ?_
    by_cases e : k = p
    · subst e; rw [State.et_updEt]; exact ⟨rfl, rfl, rfl, rfl, rfl, rfl⟩
    · rw [State.et_updEt_ne _ _ _ e]; exact .refl _

/-- A frame that passes is counted, and nothing else that a port sends by changes. -/
theorem State.ethAccept_takes (pass : (s.ethAccept p f).2 = true) (k : Nat) : ((s.ethCounted p).et k).Takes ((s.ethAccept p f).1.et k) := by
  by_cases foreign : s.ethForeign p f
  · rw [State.ethAccept_foreign foreign] at pass; cases pass
  · rw [State.ethAccept_own foreign] at pass ⊢
    cases secured : (s.ethCounted p).msAccept p f with
    | none => rw [secured] at pass; cases pass
    | some u => exact (State.msAccept_takes secured k).trans (State.ethRecovered_takes (State.rtag_of_own foreign) u p k)

/-- Every frame is counted. -/
theorem State.ethAccept_received (s : State) (p : Nat) (f : EthIn) : ((s.ethAccept p f).1.et p).received = (s.et p).received + 1 := by
  have counted : ((s.ethCounted p).et p).received = (s.et p).received + 1 := by rw [State.ethCounted, State.et_updEt]
  by_cases foreign : s.ethForeign p f
  · rw [State.ethAccept_foreign foreign, State.ethDiscard_et]; exact counted
  · rw [State.ethAccept_own foreign]
    cases secured : (s.ethCounted p).msAccept p f with
    | none => exact (congrArg EthSt.received (State.msDiscard_et ..)).trans counted
    | some u =>
      exact ((State.msAccept_takes secured p).trans (State.ethRecovered_takes (State.rtag_of_own foreign) u p p)).received.trans counted

theorem State.takeLetters_received (s : State) (u h p : Nat) (f : EthIn) : ((s.takeLetters u h f).et p).received = (s.et p).received := by
  unfold State.takeLetters
  refine State.each_keeps (read := fun t => (t.et p).received) (fun t i => ?_) _ s
  have taken (b : List Byte) (cls : Nat) : (t.netIntake u cls b).1.et p = t.et p := (State.netIntake_kept ..).frame.et rfl p
  dsimp only
  split
  · by_cases e : p = h
    · subst e; rw [State.et_updEt, taken]
    · rw [State.et_updEt_ne _ _ _ e, taken]
  · rw [taken]

theorem State.datagram_counted (low : p < 2) (runs : s.ust (U.eth p) = .running) : Answers (.ethDatagramReceived p f) s fun t =>
    (t.et p).received = (s.et p).received + 1 ∧ (f.rtag.isSome ≠ s.merged → (t.et p).discarded = (s.et p).discarded + 1) := by
  refine ⟨_, congrArg Host.Outcome.next (if_neg (by rw [runs]; simpa using low)), ?_⟩
  dsimp only
  constructor
  · have received := s.ethAccept_received p f
    split
    · exact received
    · split
      · rw [State.ethDiscard_et]; exact received
      · exact (State.takeLetters_received ..).trans received
  · intro foreign
    rw [State.ethAccept_foreign (.inr foreign)]
    exact (congrArg EthSt.discarded (State.ethDiscard_et ..)).trans (congrArg (·.discarded + 1) (State.et_updEt ..))

/-! ### Answers, time and gates -/

theorem Frame.reg_eth {u : State} {a : Nat} (h : Frame [.eth, .reg .ETHp_EVT, .reg .ETHp_CNT] s u) (event : a % 0x10000 ≠ 4) (count : a % 0x10000 ≠ 0x24) :
    u.reg a = s.reg a := by
  rcases h.regs a with here | ⟨r, mem, here⟩ | same
  · simp at here
  · have family : r = .ETHp_EVT ∨ r = .ETHp_CNT := by simpa using mem
    rcases family with rfl | rfl
    · cases here with
      | ETHp_EVT q => exact absurd (by simp only [R.ETHp_EVT]; omega) event
    · cases here with
      | ETHp_CNT q => exact absurd (by simp only [R.ETHp_CNT]; omega) count
  · exact same

/-- The configuration of a port, its gates, its state and the time at which it sends are as they were. -/
structure State.SendsAs (s u : State) (p : Nat) : Prop where
  units : u.units = s.units
  variant : u.variant = s.variant
  img : u.img = s.img
  recovery : u.recovery = s.recovery
  time : u.time = s.time
  regs : ∀ a, a % 0x10000 ≠ 4 → a % 0x10000 ≠ 0x24 → u.reg a = s.reg a
  gateAt : (u.et p).gateAt = (s.et p).gateAt
  secures : (u.et p).secures = (s.et p).secures

section
variable {u : State} (h : s.SendsAs u p)
include h

theorem State.SendsAs.ethFlag (q b : Nat) : u.ethFlag q b = s.ethFlag q b := by
  rw [State.ethFlag, State.ethFlag, State.fld, h.regs _ (by simp only [R.ETHp_CFG]; omega) (by simp only [R.ETHp_CFG]; omega), State.fld]

theorem State.SendsAs.merged : u.merged = s.merged := by rw [State.merged, h.ethFlag, h.ethFlag, State.merged]

theorem State.SendsAs.ownIp (q : Nat) : u.ownIp q = s.ownIp q := by
  have thr (id : Nat) : u.netThr id q = s.netThr id q := by rw [State.netThr, h.img, h.recovery, State.netThr]
  simp only [State.ownIp, h.ethFlag, thr]

theorem State.SendsAs.ethCan : u.ethCan p = s.ethCan p := by
  have flag (f : Fld) : u.flag (R.ETHp_STATE p) f = s.flag (R.ETHp_STATE p) f := by
    rw [State.flag, State.flag, State.fld, h.regs _ (by simp only [R.ETHp_STATE]; omega) (by simp only [R.ETHp_STATE]; omega), State.fld]
  have unit : u.ust (U.eth p) = s.ust (U.eth p) := by rw [State.ust, h.units, h.variant, State.ust]
  rw [State.ethCan_eq, State.ethCan_eq, flag, h.ethFlag, unit, h.secures]

theorem State.SendsAs.gateOpen (c need : Nat) : u.gateOpen p c need = s.gateOpen p c need := by
  have gates : u.gates p = s.gates p := by
    have entry (j : Nat) (here : j < 8) (f : Fld) : u.fld (R.ETHp_GCLj p j) f = s.fld (R.ETHp_GCLj p j) f := by
      rw [State.fld, h.regs _ (by simp only [R.ETHp_GCLj]; omega) (by simp only [R.ETHp_GCLj]; omega), State.fld]
    unfold State.gates
    congr 1
    exact List.map_congr_left fun j mem => by rw [entry j (List.mem_range.mp mem), entry j (List.mem_range.mp mem)]
  simp only [State.gateOpen, gates, h.ethFlag, h.time, h.gateAt]

theorem State.SendsAs.frameTime (body : Nat) : u.frameTime p body = s.frameTime p body := by
  have config (f : Fld) : u.fld (R.ETHp_CFG p) f = s.fld (R.ETHp_CFG p) f := by
    rw [State.fld, h.regs _ (by simp only [R.ETHp_CFG]; omega) (by simp only [R.ETHp_CFG]; omega), State.fld]
  simp only [State.frameTime, config, h.ethFlag, h.merged]

end

theorem State.ethAccept_sendsAs (pass : (s.ethAccept p f).2 = true) : s.SendsAs (s.ethAccept p f).1 p := by
  have frame := (s.ethAccept_kept p f).frame
  have takes := State.ethAccept_takes pass p
  rw [State.ethCounted, State.et_updEt] at takes
  exact ⟨frame.same .units rfl, frame.same .variant rfl, frame.same .img rfl, frame.same .recovery rfl, frame.same .time rfl,
    fun a => frame.reg_eth, takes.gateAt, takes.secures⟩

theorem State.et_setFlag (a : Nat) (f : Fld) : (s.setFlag a f).et p = s.et p := rfl

theorem State.ethFrame_et (alone : s.merged = false) (can : s.ethCan p = true) (d : EthDest) (k : Nat) (b : List Byte) :
    ((s.ethFrame p d k b).et p).sent = (s.et p).sent + 1 ∧ ((s.ethFrame p d k b).et p).received = (s.et p).received := by
  have port : [p].filter s.ethCan = [p] := by simp [can]
  have sent : ((s.ethSent p d k b).et p).sent = (s.et p).sent + 1 ∧ ((s.ethSent p d k b).et p).received = (s.et p).received := by
    unfold State.ethSent
    dsimp only
    split
    · rw [State.et_setFlag, State.et_updEt]; exact ⟨rfl, rfl⟩
    · rw [State.et_updEt]; exact ⟨rfl, rfl⟩
  unfold State.ethFrame
  rw [alone, if_neg Bool.false_ne_true]
  dsimp only
  rw [port, State.et_updEt]
  exact sent

/-- A question about the own address is counted, and answered at once or as soon as the port can send. -/
theorem State.address_answered (low : p < 2) (runs : s.ust (U.eth p) = .running) (alone : s.merged = false)
    (pass : (s.ethAccept p f).2 = true) (own : f.dstIp = s.ownIp p) (none : (s.et p).answers = []) : Answers (.addressResolution p f) s fun t =>
    (t.et p).received = (s.et p).received + 1 ∧
    if s.ethCan p = true ∧ s.gateOpen p 2 (s.frameTime p (if s.ethFlag p 3 then 72 else 46)) = true then (t.et p).answers = [] ∧ (t.et p).sent = (s.et p).sent + 1
    else (t.et p).answers = [⟨f.ip, f.port, f.mac⟩] := by
  have takes := State.ethAccept_takes pass p
  rw [State.ethCounted, State.et_updEt] at takes
  have as := State.ethAccept_sendsAs pass
  refine ⟨_, congrArg Host.Outcome.next (if_neg (by rw [runs]; simpa using low)), ?_⟩
  dsimp only
  generalize s.ethAccept p f = r at *
  obtain ⟨u, passed⟩ := r
  dsimp only at pass takes as ⊢
  have home : u.ethHome p = p := by rw [State.ethHome, as.merged, alone]; rfl
  rw [pass, if_neg (by decide), home, if_neg (by rw [as.ownIp]; exact not_not.mpr own)]
  generalize asked : (u.updEt p fun e => { e with answers := e.answers ++ [⟨f.ip, f.port, f.mac⟩] }) = w
  have et : w.et p = { u.et p with answers := [⟨f.ip, f.port, f.mac⟩] } := by
    rw [← asked, State.et_updEt, takes.answers, none]; rfl
  have asw : s.SendsAs w p := by
    refine ⟨?_, ?_, ?_, ?_, ?_, ?_, by rw [et]; exact as.gateAt, by rw [et]; exact as.secures⟩ <;> rw [← asked]
    · exact as.units
    · exact as.variant
    · exact as.img
    · exact as.recovery
    · exact as.time
    · exact as.regs
  have received : (w.et p).received = (s.et p).received + 1 := by rw [et]; exact takes.received
  rw [asw.merged, alone, if_neg Bool.false_ne_true, List.any_cons, List.any_nil, Bool.or_false, asw.ethCan]
  cases can : s.ethCan p with
  | false =>
    rw [if_neg Bool.false_ne_true, if_neg (by simp)]
    exact ⟨received, congrArg EthSt.answers et⟩
  | true =>
    have answers : (w.et p).answers = [⟨f.ip, f.port, f.mac⟩] := by rw [et]
    rw [if_pos rfl]
    unfold State.ethAnswer
    rw [answers]
    dsimp only
    rw [asw.gateOpen, asw.frameTime, asw.ethFlag]
    cases gate : s.gateOpen p 2 (s.frameTime p (if s.ethFlag p 3 = true then 72 else 46)) with
    | false =>
      rw [Bool.not_false, if_pos rfl, if_neg (by simp)]
      exact ⟨received, answers⟩
    | true =>
      obtain ⟨sent, still⟩ := State.ethFrame_et (asw.merged.trans alone) (asw.ethCan.trans can) ⟨f.ip, f.port, f.mac⟩ 2 (w.ownIp p)
      have before : (w.et p).sent = (s.et p).sent := by rw [et]; exact takes.sent
      rw [Bool.not_true, if_neg Bool.false_ne_true, if_pos ⟨rfl, rfl⟩, State.et_updEt]
      exact ⟨still.trans received, rfl, sent.trans (congrArg (· + 1) before)⟩

theorem ethState_apart (p : Nat) : R.ETHp_STATE p ≠ R.ETHp_EVT p := by simp only [R.ETHp_STATE, R.ETHp_EVT]; omega

theorem State.setSynced_synced (s : State) (p : Nat) (on : Bool) : (s.setSynced p on).flag (R.ETHp_STATE p) F.ETHp_STATE_SYNCED = on := by
  unfold State.setSynced
  split
  · assumption
  · rw [State.flag, State.setFlag, State.fld_setFld_ne (ethState_apart p)]
    exact State.flag_setFld s _ _ rfl rfl on

theorem State.setSynced_et (s : State) (p : Nat) (on : Bool) (k : Nat) : (s.setSynced p on).et k = s.et k := (State.setSynced_kept ..).frame.et rfl k

theorem State.setSynced_sfld (s : State) (p : Nat) (on : Bool) {a : Nat} (state : a ≠ R.ETHp_STATE p) (event : a ≠ R.ETHp_EVT p) (f : Fld) :
    (s.setSynced p on).sfld a f = s.sfld a f := by
  unfold State.setSynced
  split
  · rfl
  · rw [State.sfld, State.setFlag, State.fld_setFld_ne event, State.fld_setFld_ne state, State.sfld]

/-- What a synchronisation message leaves, before the port's state is judged by it. -/
def State.synced (s : State) (p : Nat) (sync : SyncIn) (rate : Int) (since : Option Nat) : State :=
  ((({ s.draw.2 with rate := rate } : State).setSfld (R.ETHp_OFFS p) F.ETHp_OFFS_VALUE sync.offset).setSfld (R.ETHp_RATE p) F.ETHp_RATE_VALUE rate).updEt p
    fun e => { e with goodSince := since, received := e.received + 1, delay := sync.delay }

structure State.Follows (s : State) (p : Nat) (sync : SyncIn) : Prop where
  offset : s.sfld (R.ETHp_OFFS p) F.ETHp_OFFS_VALUE = sync.offset
  delay : (s.et p).delay = sync.delay
  rate : s.rate = s.sfld (R.ETHp_RATE p) F.ETHp_RATE_VALUE

theorem State.synced_follows {sync : SyncIn} {rate : Int} (low : -2147483648 ≤ sync.offset) (high : sync.offset < 2147483648)
    (slow : -2147483648 ≤ rate) (fast : rate < 2147483648) (since : Option Nat) : (s.synced p sync rate since).Follows p sync := by
  have apart : R.ETHp_OFFS p ≠ R.ETHp_RATE p := by simp only [R.ETHp_OFFS, R.ETHp_RATE]; omega
  have sfld (u : State) (g : EthSt → EthSt) (a : Nat) (f : Fld) : (u.updEt p g).sfld a f = u.sfld a f := rfl
  unfold State.synced
  constructor
  · have other (u : State) (x : Int) : (u.setSfld (R.ETHp_RATE p) F.ETHp_RATE_VALUE x).sfld (R.ETHp_OFFS p) F.ETHp_OFFS_VALUE =
        u.sfld (R.ETHp_OFFS p) F.ETHp_OFFS_VALUE := by rw [State.sfld, State.setSfld, State.fld_setFld_ne apart, State.sfld]
    rw [sfld, other]
    exact State.sfld_setSfld _ low high
  · rw [State.et_updEt]
  · rw [sfld]
    exact (State.sfld_setSfld _ slow fast).symm

theorem State.Follows.setSynced {sync : SyncIn} (h : s.Follows p sync) (on : Bool) : (s.setSynced p on).Follows p sync := by
  constructor
  · rw [State.setSynced_sfld _ _ _ (by simp only [R.ETHp_OFFS, R.ETHp_STATE]; omega) (by simp only [R.ETHp_OFFS, R.ETHp_EVT]; omega)]
    exact h.offset
  · rw [State.setSynced_et]; exact h.delay
  · rw [State.setSynced_sfld _ _ _ (by simp only [R.ETHp_RATE, R.ETHp_STATE]; omega) (by simp only [R.ETHp_RATE, R.ETHp_EVT]; omega)]
    exact ((State.setSynced_kept s p on).frame.same .rate rfl).trans h.rate

theorem State.sync_followed {offset : Int} {delay : Nat} (low : p < 2) (runs : s.ust (U.eth p) = .running) (timed : s.ethFlag p 6 = true)
    (down : -2147483648 ≤ offset) (up : offset < 2147483648) : Answers (.syncReceived p ⟨offset, delay⟩ true) s fun t =>
    t.sfld (R.ETHp_OFFS p) F.ETHp_OFFS_VALUE = offset ∧ (t.et p).delay = delay ∧ t.rate = t.sfld (R.ETHp_RATE p) F.ETHp_RATE_VALUE ∧
    (10000 < offset.natAbs → t.flag (R.ETHp_STATE p) F.ETHp_STATE_SYNCED = false) := by
  have act : ∃ (rate : Int) (since : Option Nat), -2147483648 ≤ rate ∧ rate < 2147483648 ∧
      execSyncReceived p ⟨offset, delay⟩ true s = .next (if 10000 < offset.natAbs then (s.synced p ⟨offset, delay⟩ rate since).setSynced p false
        else match since with
          | some t => if 1000000000 ≤ s.time - t then (s.synced p ⟨offset, delay⟩ rate since).setSynced p true else s.synced p ⟨offset, delay⟩ rate since
          | none => s.synced p ⟨offset, delay⟩ rate since) := by
    refine ⟨(s.draw.1 % 400001 : Nat) - 200000, if offset.natAbs < 1000 then some (((s.et p).goodSince).getD s.time) else none, by omega, by omega, ?_⟩
    exact congrArg Host.Outcome.next ((if_neg (by rw [runs, timed]; simpa using low)).trans (if_neg (by decide)))
  obtain ⟨rate, since, slow, fast, act⟩ := act
  have follows := State.synced_follows (s := s) (p := p) (sync := ⟨offset, delay⟩) down up slow fast since
  refine ⟨_, act, ?_⟩
  dsimp only
  split
  · obtain ⟨at_, delayed, rated⟩ := follows.setSynced false
    exact ⟨at_, delayed, rated, fun _ => State.setSynced_synced ..⟩
  · next near =>
    refine and_assoc.mp (and_assoc.mp ⟨?_, fun far => absurd far near⟩)
    have all {u : State} (h : u.Follows p ⟨offset, delay⟩) : (u.sfld (R.ETHp_OFFS p) F.ETHp_OFFS_VALUE = offset ∧ (u.et p).delay = delay) ∧
        u.rate = u.sfld (R.ETHp_RATE p) F.ETHp_RATE_VALUE := ⟨⟨h.offset, h.delay⟩, h.rate⟩
    split
    · split
      · exact all (follows.setSynced true)
      · exact all follows
    · exact all follows

theorem State.mdio_read {data : Nat} (low : p < 2) (small : data < 65536) (going : s.flag (R.ETHp_MDIO p) F.ETHp_MDIO_GO = true)
    (read : s.fld (R.ETHp_MDIO p) F.ETHp_MDIO_OP = 2) : Answers (.mdioComplete p data) s fun t =>
    t.flag (R.ETHp_MDIO p) F.ETHp_MDIO_GO = false ∧ t.fld (R.ETHp_MDIO p) F.ETHp_MDIO_DATA = data := by
  refine ⟨_, congrArg Host.Outcome.next ((if_neg (by rw [going]; simpa using low)).trans (if_pos read)), ?_, ?_⟩
  · rw [State.flag, State.fld_setFld_apart _ _ rfl rfl rfl]
    exact State.flag_clrFlag _ rfl
  · rw [State.fld_setFld _ rfl]
    exact Nat.mod_eq_of_lt small

theorem State.link_changed {up : Bool} (low : p < 2) (other : s.flag (R.ETHp_STATE p) F.ETHp_STATE_LINK ≠ up) : Answers (.ethLinkChange p up) s fun t =>
    t.flag (R.ETHp_STATE p) F.ETHp_STATE_LINK = up ∧ t.flag (R.ETHp_EVT p) F.ETHp_EVT_LINK = true := by
  refine ⟨_, congrArg Host.Outcome.next (if_neg (not_or.mpr ⟨Nat.not_le.mpr low, other⟩)), ?_, State.flag_setFlag _ rfl⟩
  rw [State.flag, State.setFlag, State.fld_setFld_ne (ethState_apart p), State.fld_setFld_apart _ _ rfl rfl rfl]
  exact State.flag_setFld s _ _ rfl rfl up

/-- Settles O35: each event at its port, by what the port counts, sends and answers. -/
theorem networkEvents : Obligations.NetworkEvents := by
  intro s c n p data v
  refine ⟨fun writes => ⟨_, rfl, writes.plain (monitorReg_above (by simp only [R.CANn_MODE]; omega))⟩,
    fun writes => ⟨_, rfl, writes.plain (monitorReg_above (by simp only [R.ETHp_MDIO]; omega))⟩,
    State.mdio_read, fun _ => State.canReceived, fun _ _ _ => State.canSent, fun _ _ _ => State.canFailed, State.canRecovered,
    fun _ _ => State.canSends, fun _ => State.datagram_counted, fun _ => State.address_answered, fun _ _ => State.sync_followed,
    fun low runs timed => ?timeout, fun low gated some => ?gates, fun _ => State.link_changed, fun merged => ?recovery⟩
  case timeout =>
    refine ⟨_, congrArg Host.Outcome.next (if_neg (by rw [runs, timed]; simpa using low)), ?_, State.setSynced_synced ..⟩
    rw [State.setSynced_et, State.et_updEt]
  case gates =>
    exact ⟨_, congrArg Host.Outcome.next (if_neg (by simp [gated, some, low])), congrArg EthSt.gateAt (State.et_updEt ..)⟩
  case recovery =>
    refine ⟨_, congrArg Host.Outcome.next (if_pos merged), ?_⟩
    dsimp only
    rw [State.et_updEt]
    exact ⟨rfl, rfl⟩

end Sys2Proof.Machine
end

section
/-!
Keys, the debug lock, the TRNG, the debug module and the pins (chapters 16 and 18).
-/
namespace Sys2Proof.Machine

variable {s : State} {c h slot t k : Nat} {v : Word}

/-! ### Accesses of the debug module -/

/-- The debug module's access goes through where it may, and leaves its trace in the module alone. -/
theorem State.accessBy_debug {a : Nat} (may : s.debugLocked = false ∨ debugOpen a = true) (store : Bool) (u : State) :
    ∃ d, s.accessBy (.debug h) a store u = { u with dbg := d } := by
  have passes : ¬ (s.debugLocked && !debugOpen a) = true := by rcases may with off | open_ <;> simp [*]
  unfold State.accessBy
  dsimp only
  rw [if_neg passes]
  split <;> exact ⟨_, rfl⟩

/-- A key command whose checks pass stands as the one under way. -/
theorem State.keyCommand_stands {action slots : Nat} {extra : List Status} {data : List Byte} (unlocked : s.debugLocked = false)
    (free : s.sec.cmd = none) (writes : s.mramClosed = false) (here : slot < slots) (may : extra = []) :
    ∃ u, Host.Outcome.next (s.accessBy (.debug h) R.SEC_KCMD true (s.keyCommand (.debug h) action slot slots extra data)) =
      (Host.Outcome.next u : Out) ∧ u.sec.cmd = some ⟨action, slot, data⟩ ∧ u.resp = ⟨.done, 0⟩ := by
  have stands : s.keyCommand (.debug h) action slot slots extra data = State.respond { s with sec := { s.sec with cmd := some ⟨action, slot, data⟩ } } 0 := by
    unfold State.keyCommand
    dsimp only
    rw [unlocked, if_neg Bool.false_ne_true, if_neg (Nat.not_le.mpr here), free, may, writes]
    rfl
  obtain ⟨d, e⟩ := State.accessBy_debug (h := h) (.inl unlocked) true (s.keyCommand (.debug h) action slot slots extra data)
  rw [stands] at e ⊢
  exact ⟨_, congrArg _ e, rfl, rfl⟩

theorem State.keyDone_slot {cmd : KeyCmd} (writes : s.mramClosed = false) :
    (cmd.action = 1 → FMap.get (fun _ => []) (s.keyDone cmd).sec.records cmd.slot = cmd.data) ∧
    (cmd.action = 2 → FMap.get fkDefault (s.keyDone cmd).sec.fks cmd.slot = cmd.data) ∧
    (cmd.action = 3 → (s.keyDone cmd).sec.debugKey = some cmd.data) ∧
    (cmd.action = 4 → (s.keyDone cmd).sec.revoked = s.sec.revoked ||| 2 ^ cmd.slot) := by
  unfold State.keyDone
  rw [writes, if_neg Bool.false_ne_true]
  refine ⟨fun one => ?_, fun two => ?_, fun three => ?_, fun four => ?_⟩
  · rw [one]; exact FMap.get_put_same
  · rw [two]; exact FMap.get_put_same
  · rw [three]; rfl
  · rw [four]; rfl

/-! ### Random words -/

theorem length_drawN (n : Nat) : ∀ s : State, (s.drawN n).1.length = n := by
  induction n with
  | zero => exact fun _ => rfl
  | succ n ih => exact fun s => congrArg (· + 1) (ih s.draw.2)

theorem length_leBytes (n v : Nat) : (leBytes n v).length = n := by
  induction n generalizing v with
  | zero => rfl
  | succ n ih => exact congrArg (· + 1) (ih _)

theorem length_words (l : List Nat) : (l.flatMap (leBytes 4)).length = 4 * l.length := by
  induction l with
  | nil => rfl
  | cons x l ih => rw [List.flatMap_cons, List.length_append, length_leBytes, ih, List.length_cons]; omega

/-! ### The debug module's hold of a core -/

theorem State.core_replayed (s : State) (k n : Nat) : (s.replayed k n).core t = s.core t := (State.replayed_kept s k n).frame.core rfl t

theorem State.core_haltWatch (s : State) (n : Nat) : (s.haltWatch n).core t = s.core t := (State.haltWatch_kept s n).frame.core rfl t

theorem State.core_setLscStat (s : State) (n w : Nat) : (s.setLscStat n w).core t = s.core t := (State.setLscStat_kept s n w).frame.core rfl t

theorem State.core_incSat (a : Nat) (f : Fld) : (s.incSat a f).core t = s.core t := rfl

/-- A core that enters debug mode halts where it is, its reservation gone. -/
theorem State.enterHalt_core (s : State) (t cause : Nat) : ((s.enterHalt t cause).core t).halted = true ∧
    ((s.enterHalt t cause).core t).reservation = none ∧ ((s.enterHalt t cause).core t).pc = (s.core t).pc := by
  unfold State.enterHalt
  dsimp only
  rw [State.core_haltWatch]
  split
  · rw [State.core_incSat, State.core_updCore]; exact ⟨rfl, rfl, rfl⟩
  · rw [State.core_setLscStat, State.core_incSat, State.core_updCore]; exact ⟨rfl, rfl, rfl⟩

theorem State.fastEntry_halted (s : State) (t pc : Nat) : ((s.fastEntry t pc).core t).halted = (s.core t).halted := by
  unfold State.fastEntry
  dsimp only
  split
  · rfl
  · split
    · obtain ⟨b, refreshed⟩ := State.evcRefresh_core (State.setReg _ (R.EVC_FASTt t) _) t
      rw [refreshed, State.core_setReg]
      split
      · rw [State.core_leaveSleep, State.core_setReg, State.core_setCore]
      · rw [State.core_setCore]
    · rfl

theorem State.debugHalt_halts (there : s.hartThere t = true) (going : (s.core t).halted = false)
    (live : (s.core t).cond = .running ∨ (s.core t).cond = .parked) : Answers (.debugHalt t) s fun u =>
    (u.core t).halted = true ∧ (u.core t).reservation = none ∧ u.dbg.hartsel = t := by
  have act : execDebugHalt t s = .next (((s.selectHart t).endWfi t).enterHalt t 3) :=
    congrArg Host.Outcome.next (if_neg (by rw [there, going]; rcases live with e | e <;> simp [e]))
  refine ⟨_, act, (State.enterHalt_core ..).1, (State.enterHalt_core ..).2.1, ?_⟩
  have dbg : (((s.selectHart t).endWfi t).enterHalt t 3).dbg = (s.selectHart t).dbg :=
    ((State.enterHalt_kept ..).frame.same .dbg rfl).trans ((State.endWfi_kept ..).frame.same .dbg rfl)
  rw [dbg]
  rfl

theorem State.debugResume_resumes (there : s.hartThere t = true) (halted : (s.core t).halted = true) : Answers (.debugResume t) s fun u =>
    (u.core t).halted = false ∧ u.dbg.hartsel = t := by
  refine ⟨_, congrArg Host.Outcome.next (if_neg (by rw [there, halted]; decide)), ?_⟩
  dsimp only
  generalize released : (State.updCore (s.selectHart t) t fun c => { c with halted := false }) = u
  have core : (u.core t).halted = false := by rw [← released, State.core_updCore]
  have sel : u.dbg.hartsel = t := by rw [← released]; rfl
  have same (x : State) (n : Nat) : (x.haltWatch n).dbg = x.dbg := (State.haltWatch_kept x n).frame.same .dbg rfl
  have played : (u.replayed t 1).dbg = u.dbg := (State.replayed_kept u t 1).frame.same .dbg rfl
  have set (x : State) (n w : Nat) : (x.setLscStat n w).dbg = x.dbg := (State.setLscStat_kept x n w).frame.same .dbg rfl
  have settled (x : State) : x.evcSettle.dbg = x.dbg := (State.evcSettle_kept x).frame.same .dbg rfl
  have entered (x : State) (pc : Nat) : (x.fastEntry t pc).dbg = x.dbg := (State.fastEntry_kept x t pc).frame.same .dbg rfl
  rw [(State.evcSettle_sameEntry ..).halted, State.fastEntry_halted, settled, entered, State.core_haltWatch, same]
  split
  · rw [State.core_replayed, played]; exact ⟨core, sel⟩
  · rw [State.core_setLscStat, set, State.core_replayed, played]; exact ⟨core, sel⟩

theorem State.debugStep_steps (there : s.hartThere t = true) (halted : (s.core t).halted = true) : Answers (.debugStep t v) s fun u =>
    (u.core t).pc = v.toNat ∧ (u.core t).halted = true := by
  have act : execDebugStep t v s = .next ((((s.selectHart t).updCore t fun c => { c with pc := v.toNat }).replayed t 1).enterHalt t 4) :=
    congrArg Host.Outcome.next (if_neg (by rw [there, halted]; decide))
  refine ⟨_, act, ?_, (State.enterHalt_core ..).1⟩
  rw [(State.enterHalt_core ..).2.2, State.core_replayed, State.core_updCore]

/-! ### Abstract commands -/

/-- The debug module with a command's program buffer, and its error cleared where the command clears it. -/
def State.commanded (s : State) (t : Nat) (d : DbgCmd) : State :=
  { s.selectHart t with dbg := { (s.selectHart t).dbg with
      buf := (d.buf.filter fun p => p.1 < 8).foldl (fun m p => FMap.set (fun _ => 0) m p.1 p.2) s.dbg.buf
      cmderr := if d.clear then 0 else s.dbg.cmderr } }

/-- The value that an abstract command moved, in the data register. -/
def State.dataTaken (s : State) (v : Word) : State := { s with dbg := { s.dbg with data := v } }

theorem execDebugAbstractCommand_eq (t : Nat) (d : DbgCmd) (s : State) : execDebugAbstractCommand t d s = .next
    (if !s.hartThere t then s.selectHart t
    else if (s.commanded t d).dbg.cmderr ≠ 0 then s.commanded t d
    else if !(s.core t).halted then { s.commanded t d with dbg := { (s.commanded t d).dbg with cmderr := 4 } }
    else if !d.transfer then (s.commanded t d).bufferExec t d
    else match (s.commanded t d).abstractReg t d with
      | none => { s.commanded t d with dbg := { (s.commanded t d).dbg with cmderr := 3 } }
      | some (u, v) => (if d.write then (u.dataTaken v).replayed t 1 else u.dataTaken v).bufferExec t d) := rfl

theorem execDebugAbstractCommand_refused {d : DbgCmd} (there : s.hartThere t = true) (stands : (s.commanded t d).dbg.cmderr ≠ 0) :
    execDebugAbstractCommand t d s = .next (s.commanded t d) := by
  rw [execDebugAbstractCommand_eq, there, if_neg (by decide), if_pos stands]

section
variable {d : DbgCmd} (there : s.hartThere t = true) (clear : (s.commanded t d).dbg.cmderr = 0) (halted : (s.core t).halted = true)
include there clear halted

theorem execDebugAbstractCommand_moves {u : State} (transfer : d.transfer = true) (alone : d.exec = false)
    (moves : (s.commanded t d).abstractReg t d = some (u, v)) :
    execDebugAbstractCommand t d s = .next (if d.write then (u.dataTaken v).replayed t 1 else u.dataTaken v) := by
  rw [execDebugAbstractCommand_eq, there, if_neg (by decide), if_neg (not_not.mpr clear), halted, if_neg (by decide), transfer,
    if_neg (by decide), moves]
  exact congrArg Host.Outcome.next (if_pos (by rw [alone]; rfl))

theorem execDebugAbstractCommand_buffer (still : d.transfer = false) :
    execDebugAbstractCommand t d s = .next ((s.commanded t d).bufferExec t d) := by
  rw [execDebugAbstractCommand_eq, there, if_neg (by decide), if_neg (not_not.mpr clear), halted, if_neg (by decide), still, if_pos (by rfl)]

end

/-- A general register of a core written. -/
def State.bankWritten (s : State) (t k : Nat) (v : Word) : State :=
  s.setCore t { s.core t with bank := FMap.set (fun _ => 0) (s.core t).bank k v }

theorem State.bankReg_bankWritten : bankReg ((s.bankWritten t k v).core t).bank k = v := by
  rw [State.bankWritten, State.core_setCore]; exact FMap.get_set_same

/-- A general register outside a fast handler is in the core's own bank. -/
theorem State.abstractReg_write {d : DbgCmd} {u : State} (some_ : 0 < k) (low : k < 32) (reg : d.regno = 0x1000 + k) (write : d.write = true)
    (own : (u.core t).active = false) :
    u.abstractReg t d = some (u.bankWritten t k d.data, d.data) := by
  unfold State.abstractReg
  dsimp only
  rw [reg, if_pos (by omega), Nat.add_sub_cancel_left, if_neg (by rw [write]; simp; omega)]
  exact if_neg (by rw [own]; exact Bool.false_ne_true)

theorem State.abstractReg_read {d : DbgCmd} {u : State} (some_ : 0 < k) (low : k < 32) (reg : d.regno = 0x1000 + k) (read : d.write = false)
    (own : (u.core t).active = false) : u.abstractReg t d = some (u, bankReg (u.core t).bank k) := by
  unfold State.abstractReg
  dsimp only
  rw [reg, if_pos (by omega), Nat.add_sub_cancel_left, if_pos (by rw [read]; simp), if_neg (by omega), own, if_neg Bool.false_ne_true]

theorem State.dbg_replayed (s : State) (t n : Nat) : (s.replayed t n).dbg = s.dbg := (State.replayed_kept s t n).frame.same .dbg rfl

theorem State.abstract_runs {cl : Bool} (some_ : 0 < k) (low : k < 32) (there : s.hartThere t = true) (halted : (s.core t).halted = true)
    (own : (s.core t).active = false) (clear : s.dbg.cmderr = 0 ∨ cl = true) :
    (Answers (.debugAbstractCommand t ⟨cl, true, 0x1000 + k, true, v, [], false, [], false⟩) s fun u => bankReg (u.core t).bank k = v ∧ u.dbg.cmderr = 0) ∧
    (Answers (.debugAbstractCommand t ⟨cl, true, 0x1000 + k, false, v, [], false, [], false⟩) s fun u => u.dbg.data = bankReg (s.core t).bank k ∧ u.dbg.cmderr = 0) ∧
    (Answers (.debugAbstractCommand t ⟨cl, false, 0, false, v, [(7, v)], true, [(0x1000 + k, v)], false⟩) s fun u => bankReg (u.core t).bank k = v ∧
      u.dbg.cmderr = 0 ∧ FMap.get (fun _ => 0) u.dbg.buf 7 = v) := by
  have none (d : DbgCmd) (e : d.clear = cl) : (s.commanded t d).dbg.cmderr = 0 := by
    show (if d.clear = true then 0 else s.dbg.cmderr) = 0
    rw [e]
    rcases clear with zero | yes
    · rw [zero]; exact ite_self 0
    · rw [if_pos yes]
  have core (u : State) (w : Word) : ((u.dataTaken w).replayed t 1).core t = u.core t := State.core_replayed ..
  have err (u : State) (w : Word) : ((u.dataTaken w).replayed t 1).dbg.cmderr = u.dbg.cmderr := (congrArg DbgSt.cmderr (State.dbg_replayed ..)).trans rfl
  refine ⟨?_, ?_, ?_⟩
  · refine ⟨_, execDebugAbstractCommand_moves there (none _ rfl) halted rfl rfl (State.abstractReg_write some_ low rfl rfl own), ?_⟩
    dsimp only
    rw [if_pos rfl, core, err]
    exact ⟨State.bankReg_bankWritten, none _ rfl⟩
  · refine ⟨_, execDebugAbstractCommand_moves there (none _ rfl) halted rfl rfl (State.abstractReg_read some_ low rfl rfl own), ?_⟩
    exact ⟨rfl, none _ rfl⟩
  · refine ⟨_, execDebugAbstractCommand_buffer there (none _ rfl) halted rfl, ?_⟩
    generalize asked : (⟨cl, false, 0, false, v, [(7, v)], true, [(0x1000 + k, v)], false⟩ : DbgCmd) = d
    have runs : (s.commanded t d).bufferRuns t [(0x1000 + k, v)] = some ((s.commanded t d).bankWritten t k v) := by
      rw [State.bufferRuns, State.abstractReg_write (u := s.commanded t d) (d := ⟨false, true, 0x1000 + k, true, v, [], false, [], false⟩) some_ low rfl rfl own]
      rfl
    have act : (s.commanded t d).bufferExec t d = ((s.commanded t d).bankWritten t k v).replayed t 1 := by
      unfold State.bufferExec
      rw [← asked, Bool.not_true, if_neg Bool.false_ne_true]
      rw [← asked] at runs
      rw [runs]
      rfl
    rw [act, State.core_replayed, State.dbg_replayed]
    refine ⟨State.bankReg_bankWritten, none d (by rw [← asked]), ?_⟩
    rw [← asked]
    exact FMap.get_set_same

theorem State.hartReset_asserts (runs : s.runCores.contains t = true) (unlocked : s.debugLocked = false) (plain : s.rst.transport = false) :
    Answers (.debugHartReset t true) s fun u => (11, 2 ^ s.pairOf t) ∈ u.rst.sources := by
  refine ⟨_, congrArg Host.Outcome.next ((if_neg (by rw [runs]; decide)).trans ((if_neg (by decide)).trans (if_neg (by rw [unlocked]; decide)))), ?_⟩
  dsimp only
  have cause : (s.selectHart t).raiseSource 11 (2 ^ s.pairOf t) = (s.selectHart t).assertSource 11 (2 ^ s.pairOf t) :=
    if_neg (by show ¬ s.rst.transport = true; rw [plain]; exact Bool.false_ne_true)
  rw [cause]
  exact State.mem_assertSource ..

/-! ### The lock -/

section
variable {a : Nat} (may : s.debugLocked = false ∨ debugOpen a = true) (store : Bool) (u : State)
include may

theorem State.sec_accessBy_debug : (s.accessBy (.debug h) a store u).sec = u.sec := by
  obtain ⟨d, e⟩ := State.accessBy_debug (h := h) may store u
  rw [e]

theorem State.resp_accessBy_debug : (s.accessBy (.debug h) a store u).resp = u.resp := by
  obtain ⟨d, e⟩ := State.accessBy_debug (h := h) may store u
  rw [e]

theorem State.flag_accessBy_debug (b : Nat) (f : Fld) : (s.accessBy (.debug h) a store u).flag b f = u.flag b f := by
  obtain ⟨d, e⟩ := State.accessBy_debug (h := h) may store u
  rw [e]
  rfl

end

/-- A read of the challenge makes a new one, of 16 bytes. -/
theorem State.challenged (s : State) (h : Nat) : Answers (.debugChallengeRead (.debug h)) s fun u => ∃ l, u.sec.challenge = some l ∧ l.length = 16 := by
  refine ⟨_, rfl, (s.drawN 4).1.flatMap (leBytes 4), ?_, ?_⟩
  · rw [State.sec_accessBy_debug (.inr (by decide))]
    rfl
  · rw [length_words, length_drawN]

/-- The response that the four words hold, the last of them as written. -/
def State.responded (s : State) (v : Word) : List Byte :=
  (List.range 4).flatMap fun j => leBytes 4 ((s.setReg (R.SEC_DBGRESPj 3) v).reg (R.SEC_DBGRESPj j)).toNat

/-- The right response unlocks the debug module; a wrong one counts. -/
theorem State.response_judged (tries : s.sec.fails < 3) : Answers (.debugResponseWrite (.debug h) v) s fun u =>
    (s.debugAnswer = some (s.responded v) → u.sec.unlocked = true ∧ (s.sec.unlocked = false → u.flag R.SEC_EVT F.SEC_EVT_DBG = true)) ∧
    (s.debugAnswer ≠ some (s.responded v) → u.sec.fails = s.sec.fails + 1 ∧ u.resp = ⟨.eFrank, 0⟩ ∧ u.sec.unlocked = s.sec.unlocked) := by
  have may : s.debugLocked = false ∨ debugOpen (R.SEC_DBGRESPj 3) = true := .inr (by decide)
  refine ⟨_, rfl, fun right => ?_, fun wrong => ?_⟩
  · unfold State.responded at right
    rw [State.sec_accessBy_debug may, State.flag_accessBy_debug may, if_neg (Nat.not_le.mpr tries), if_pos right]
    dsimp only
    cases before : s.sec.unlocked
    · rw [if_neg Bool.false_ne_true, State.flag_respond]
      exact ⟨rfl, fun _ => State.flag_setFlag _ rfl⟩
    · exact ⟨rfl, nofun⟩
  · unfold State.responded at wrong
    rw [State.sec_accessBy_debug may, State.resp_accessBy_debug may, if_neg (Nat.not_le.mpr tries), if_neg wrong]
    exact ⟨rfl, rfl, rfl⟩

/-- Settles O36: each command where it applies, by what it leaves of the lock, the keys, the module and the pins. -/
theorem securityCommands : Obligations.SecurityCommands := by
  intro s c h slot t v
  refine ⟨fun unlocked free writes => ⟨fun low fresh => State.keyCommand_stands unlocked free writes low (by rw [fresh]; rfl),
      fun low => State.keyCommand_stands unlocked free writes low rfl,
      fun fresh => State.keyCommand_stands unlocked free writes Nat.one_pos (by rw [fresh]; rfl),
      fun low other => State.keyCommand_stands unlocked free writes low (by rw [other]; rfl)⟩,
    fun k cmd => ?complete, s.challenged h, State.response_judged, ⟨_, rfl, rfl⟩, fun healthy lets => ?random, fun lets => ?bad,
    fun writes => ⟨_, rfl, writes.plain rfl⟩, State.debugHalt_halts, State.debugResume_resumes, State.debugStep_steps,
    fun k cl => State.abstract_runs, fun d there stands keep => ?refused, State.hartReset_asserts, fun l => ?drive, fun driven => ?idcode,
    fun b pin => ⟨_, congrArg Host.Outcome.next (if_pos pin), rfl⟩⟩
  case complete =>
    have act : execKeyCommandComplete s = .next (State.setFlag (State.keyDone { s with sec := { s.sec with cmd := none } } k) R.SEC_EVT F.SEC_EVT_KCMD) := by
      rw [execKeyCommandComplete, cmd]
    have idle (u : State) (free : u.sec.cmd = none) : (u.keyDone k).sec.cmd = none := by
      unfold State.keyDone
      split
      · exact free
      · split <;> exact free
    exact ⟨_, act, idle _ rfl, State.flag_setFlag _ rfl, fun writes =>
      State.keyDone_slot (s := { s with sec := { s.sec with cmd := none } }) (cmd := k) writes⟩
  case random =>
    have act : execRandomWordRead (.core c) true s = .next (s.draw.2.respond s.draw.1) := by
      unfold execRandomWordRead
      rw [if_neg (by simp [healthy])]
      exact congrArg Host.Outcome.next (lets.read rfl ..)
    exact ⟨_, act, rfl, rfl⟩
  case bad =>
    have act : execRandomWordRead (.core c) false s =
        .next ((State.setFlag { s with sec := { s.sec with trngBad := true } } R.SEC_EVT F.SEC_EVT_TRNG).respond 0) :=
      congrArg Host.Outcome.next (lets.read rfl ..)
    exact ⟨_, act, rfl, rfl, (State.flag_respond ..).trans (State.flag_setFlag _ rfl)⟩
  case refused =>
    have err : (s.commanded t d).dbg.cmderr = s.dbg.cmderr := if_neg (by rw [keep]; exact Bool.false_ne_true)
    exact ⟨_, execDebugAbstractCommand_refused there (by rw [err]; exact stands), err, rfl⟩
  case drive =>
    by_cases may : s.debugLock = 2 ∧ s.driveEn = false ∧ s.actEn = false
    · exact ⟨_, congrArg Host.Outcome.next (if_pos (by simpa using may)), by rw [if_pos may]⟩
    · exact ⟨_, congrArg Host.Outcome.next (if_neg (by simpa using may)), by rw [if_neg may]⟩
  case idcode =>
    exact ⟨_, congrArg Host.Outcome.next (if_pos driven), rfl, rfl⟩

end Sys2Proof.Machine
end

section
/-!
The charger's events (chapter 08).
-/
namespace Sys2Proof.Machine

variable {s : State} {g : GridIn}

/-! ### The pilot -/

theorem levelClass_lt (on : Bool) (v : Int) : levelClass on v < 8 := by
  unfold levelClass
  split; · decide
  split; · decide
  split; · decide
  split; · decide
  split; · decide
  split <;> decide

theorem pilotLevel_lt (p : PilotIn) : pilotLevel p < 8 := by
  have period (x : PilotPer) : pilotPerClass x < 8 := by
    unfold pilotPerClass
    split
    · decide
    · exact levelClass_lt ..
  unfold pilotLevel
  split
  · split
    · exact period _
    · exact levelClass_lt ..
  · exact levelClass_lt ..

/-- Table CHG's pilot currents end at 80 A. -/
theorem pilotAmps_le {on : Bool} {duty : Nat × Nat} {i : Int} (h : pilotAmps on duty = some i) : i ≤ 80 * 65536 := by
  unfold pilotAmps at h
  dsimp only at h
  split at h
  · cases h; decide
  · next low =>
    simp only [not_or] at low
    obtain ⟨-, real, -⟩ := low
    split at h
    · cases h
    · split at h
      · cases h; decide
      · split at h
        · cases h
          exact Int.le_of_lt_add_one (Int.ediv_lt_of_lt_mul (by omega) (by omega))
        · split at h <;> cases h
          · exact Int.le_of_lt_add_one (Int.ediv_lt_of_lt_mul (by omega) (by omega))
          · decide

theorem pilotCurrent_lt (on : Bool) (duty : Nat × Nat) : pilotCurrent on duty < 256 := by
  unfold pilotCurrent
  split
  · decide
  · next i amps =>
    have := pilotAmps_le amps
    omega

/-! ### What the events of a session keep -/

theorem State.limitsChanged_reg {a : Nat} (s : State) (before : Int) (state : a ≠ R.CHG_STATE) (limit : a ≠ R.CHG_ILIM) (event : a ≠ R.CHG_EVT) :
    (s.limitsChanged before).reg a = s.reg a := by
  rcases (State.limitsChanged_kept s before).frame.regs a with here | ⟨r, mem, here⟩ | same
  · simp at here
  · have family : r = .CHG_STATE ∨ r = .CHG_ILIM ∨ r = .CHG_EVT := by simpa using mem
    rcases family with rfl | rfl | rfl <;> cases here
    · exact absurd rfl state
    · exact absurd rfl limit
    · exact absurd rfl event
  · exact same

theorem chgPilot_above : aboveEngines R.CHG_PILOT := by unfold aboveEngines; decide

theorem State.chgEndHard_eq (live : s.chgPhase ≠ 0) (soft : s.chg.hard = false) (r : Nat) :
    s.chgEndHard r = (((s.chgReason r).chgHardStop).chgSetPhase 9).hwMove U.chg [.running] .stopping :=
  if_neg (by simp [live, soft])

/-- A session that ends hard stands in RAMPDOWN with its legs off. -/
theorem State.chgEndHard_ends (live : s.chgPhase ≠ 0) (soft : s.chg.hard = false) (r : Nat) : (s.chgEndHard r).chgPhase = 9 ∧
    (s.chgEndHard r).chg.hard = true ∧ HwEvent.move U.chg [.running] .stopping ∈ (s.chgEndHard r).po.hw := by
  rw [State.chgEndHard_eq live soft]
  refine ⟨((State.hwMove_kept ..).frame.chgPhase rfl).trans (State.chgPhase_setPhase (by decide)), ?_, State.hwMove_pending ..⟩
  rw [(State.hwMove_kept ..).frame.same .chg rfl, chgSetPhase_chg, State.chgHardStop_chg]

theorem State.chgEndHard_pilot (s : State) (r : Nat) : (s.chgEndHard r).reg R.CHG_PILOT = s.reg R.CHG_PILOT := by
  unfold State.chgEndHard
  split
  · rfl
  · rw [(State.hwMove_kept ..).frame.reg_apart rfl, (State.chgSetPhase_kept ..).frame.reg_apart rfl,
      State.reg_chgHardStop_ne chgPilot_above (by decide), (State.chgReason_kept ..).frame.reg_apart rfl]

theorem State.chgEnd_pilot (s : State) (r : Nat) : (s.chgEnd r).reg R.CHG_PILOT = s.reg R.CHG_PILOT := (State.chgEnd_kept s r).frame.reg_apart rfl

theorem State.pilotCheck_pilot (s : State) : s.pilotCheck.reg R.CHG_PILOT = s.reg R.CHG_PILOT := by
  unfold State.pilotCheck
  dsimp only
  split
  · rfl
  · split
    · exact s.chgEndHard_pilot 4
    · split
      · exact s.chgEnd_pilot 3
      · rfl

/-! ### The pilot and the proximity contact -/

/-- The pilot's measured values in its register. -/
def State.pilotPut (s : State) (cls osc duty cur : Nat) : State :=
  (((s.setFld R.CHG_PILOT F.CHG_PILOT_CLASS cls).setFld R.CHG_PILOT F.CHG_PILOT_OSC osc).setFld R.CHG_PILOT F.CHG_PILOT_DUTY duty).setFld
    R.CHG_PILOT F.CHG_PILOT_ICUR cur

theorem State.pilotPut_fields {cls osc duty cur : Nat} (c : cls < 16) (o : osc < 2) (d : duty < 1024) (i : cur < 256) :
    (s.pilotPut cls osc duty cur).fld R.CHG_PILOT F.CHG_PILOT_CLASS = cls ∧ (s.pilotPut cls osc duty cur).fld R.CHG_PILOT F.CHG_PILOT_OSC = osc ∧
    (s.pilotPut cls osc duty cur).fld R.CHG_PILOT F.CHG_PILOT_DUTY = duty ∧ (s.pilotPut cls osc duty cur).fld R.CHG_PILOT F.CHG_PILOT_ICUR = cur := by
  unfold State.pilotPut
  refine ⟨?_, ?_, ?_, ?_⟩
  · rw [State.fld_setFld_apart _ _ rfl rfl rfl, State.fld_setFld_apart _ _ rfl rfl rfl, State.fld_setFld_apart _ _ rfl rfl rfl, State.fld_setFld _ rfl]
    exact Nat.mod_eq_of_lt c
  · rw [State.fld_setFld_apart _ _ rfl rfl rfl, State.fld_setFld_apart _ _ rfl rfl rfl, State.fld_setFld _ rfl]
    exact Nat.mod_eq_of_lt o
  · rw [State.fld_setFld_apart _ _ rfl rfl rfl, State.fld_setFld _ rfl]
    exact Nat.mod_eq_of_lt d
  · rw [State.fld_setFld _ rfl]
    exact Nat.mod_eq_of_lt i

theorem State.pilot_taken {p : PilotIn} (here : s.ust U.chg ≠ .absent) (good : pilotAccepted p = true) :
    Answers (.pilotClassAccepted p.periods p.level p.held) s fun t => t.pilotClass = pilotLevel p ∧
    t.fld R.CHG_PILOT F.CHG_PILOT_OSC = b2n (pilotRuns p) ∧ t.fld R.CHG_PILOT F.CHG_PILOT_DUTY = min (pilotDuty p) 1000 ∧
    t.fld R.CHG_PILOT F.CHG_PILOT_ICUR = pilotCurrent (pilotRuns p) (pilotMean p) := by
  refine ⟨_, congrArg Host.Outcome.next (if_neg (by simp [here, good])), ?_⟩
  have fields := State.pilotPut_fields (s := s) (Nat.lt_trans (pilotLevel_lt p) (by decide) : pilotLevel p < 16)
    (by cases pilotRuns p <;> decide : b2n (pilotRuns p) < 2) (by omega : min (pilotDuty p) 1000 < 1024) (pilotCurrent_lt (pilotRuns p) (pilotMean p))
  have kept (t : State) (e : t.reg R.CHG_PILOT = (s.pilotPut (pilotLevel p) (b2n (pilotRuns p)) (min (pilotDuty p) 1000)
      (pilotCurrent (pilotRuns p) (pilotMean p))).reg R.CHG_PILOT) (f : Fld) : t.fld R.CHG_PILOT f = (s.pilotPut (pilotLevel p) (b2n (pilotRuns p))
      (min (pilotDuty p) 1000) (pilotCurrent (pilotRuns p) (pilotMean p))).fld R.CHG_PILOT f := by rw [State.fld, e, State.fld]
  dsimp only
  rw [State.pilotClass]
  rw [kept _ ?reg, kept _ ?reg, kept _ ?reg, kept _ ?reg]
  · exact fields
  · rw [State.pilotCheck_pilot, State.limitsChanged_reg _ _ (by decide) (by decide) (by decide)]
    split
    · exact (State.reg_setFlag_ne (by decide) ..).trans (State.reg_updCh ..)
    · exact State.reg_updCh ..

theorem ppDecode_lt (r : Nat) : ppDecode r < 8 := by
  unfold ppDecode
  split; · decide
  split; · decide
  split; · decide
  split; · decide
  split <;> decide

/-- The state in which a proximity code is judged. -/
def State.plugged (s : State) (code : Nat) : State :=
  (if s.ppCode ≠ code then (s.setFld R.CHG_PILOT F.CHG_PILOT_PP code).setFlag R.CHG_EVT F.CHG_EVT_PLUG
    else s.setFld R.CHG_PILOT F.CHG_PILOT_PP code).limitsChanged s.otherLimit

theorem execProximityCodeAccepted_eq (ohms : Nat) (here : s.ust U.chg ≠ .absent) : execProximityCodeAccepted ohms s =
    .next (if (s.plugged (ppDecode ohms)).cablePresent then s.plugged (ppDecode ohms)
      else match (s.plugged (ppDecode ohms)).ust U.chg with
        | .armed => (s.plugged (ppDecode ohms)).hwMove U.chg [.armed] .idle
        | .running => (s.plugged (ppDecode ohms)).chgEndHard 4
        | .stopping => (s.plugged (ppDecode ohms)).chgEndHard 4
        | _ => s.plugged (ppDecode ohms)) := by
  unfold execProximityCodeAccepted
  rw [if_neg here]
  exact congrArg Host.Outcome.next rfl

theorem State.plugged_ppCode {code : Nat} (small : code < 8) : (s.plugged code).ppCode = code := by
  have put : (s.setFld R.CHG_PILOT F.CHG_PILOT_PP code).fld R.CHG_PILOT F.CHG_PILOT_PP = code :=
    (State.fld_setFld _ rfl _).trans (Nat.mod_eq_of_lt small)
  unfold State.plugged
  rw [State.ppCode, State.fld, State.limitsChanged_reg _ _ (by decide) (by decide) (by decide)]
  split
  · rw [State.reg_setFlag_ne (by decide)]; exact put
  · exact put

theorem State.plugged_ust (s : State) (code : Nat) : (s.plugged code).ust U.chg = s.ust U.chg := by
  unfold State.plugged
  rw [(State.limitsChanged_kept ..).frame.ust rfl]
  split
  · rw [(State.setFlag_kept .CHG_EVT ..).frame.ust rfl, (State.setFld_kept .CHG_PILOT ..).frame.ust rfl]
  · exact (State.setFld_kept .CHG_PILOT ..).frame.ust rfl _

theorem State.proximity_taken (ohms : Nat) (here : s.ust U.chg ≠ .absent) : Answers (.proximityCodeAccepted ohms) s fun t => t.ppCode = ppDecode ohms ∧
    (s.ust U.chg = .armed → ppDecode ohms = 0 → HwEvent.move U.chg [.armed] .idle ∈ t.po.hw) := by
  have code : (s.plugged (ppDecode ohms)).ppCode = ppDecode ohms := State.plugged_ppCode (ppDecode_lt ohms)
  have ust := s.plugged_ust (ppDecode ohms)
  refine ⟨_, execProximityCodeAccepted_eq ohms here, ?_, fun armed none => ?_⟩
  · split
    · exact code
    · have hard : ((s.plugged (ppDecode ohms)).chgEndHard 4).ppCode = ppDecode ohms := (congrArg (getF · _) (State.chgEndHard_pilot ..)).trans code
      split
      · exact code
      · exact hard
      · exact hard
      · exact code
  · have gone : (s.plugged (ppDecode ohms)).cablePresent = false := by rw [State.cablePresent, code, none]; rfl
    rw [gone, if_neg Bool.false_ne_true, ust, armed]
    exact State.hwMove_pending ..

/-! ### The search of the input limit -/

theorem State.searchStart_search (s : State) (v : Int) : (s.searchStart v).searching = true ∧ (s.searchStart v).chg.search = v := by
  unfold State.searchStart
  have flagged (t : State) : (t.chgFlag 0).searching = t.searching ∧ (t.chgFlag 0).chg.search = t.chg.search := ⟨rfl, rfl⟩
  have shown (t : State) : t.showLimit.fld R.CHG_ILIM F.CHG_ILIM_SEARCH = t.fld R.CHG_ILIM F.CHG_ILIM_SEARCH := by
    unfold State.showLimit
    dsimp only
    split
    · rfl
    · rw [State.setFlag, State.fld_setFld_ne (by decide), State.fld_setFld_apart _ _ rfl rfl rfl, State.fld_setFld_apart _ _ rfl rfl rfl]
  rw [(flagged _).1, (flagged _).2, State.searching, shown, showLimit_chg, State.fld_setFld _ rfl]
  exact ⟨rfl, rfl⟩

theorem State.searchStart_mode (s : State) (v : Int) : (s.searchStart v).chgPhase = s.chgPhase := (State.searchStart_kept s v).frame.chgPhase rfl

/-! ### Sessions -/

/-- Where the grid is there, the session goes on to run with it. -/
theorem State.grid_starts (phase : (s.gridSense g).chgPhase = 3) (runs : (s.gridSense g).ust U.chg = .running) (soft : (s.gridSense g).chg.hard = false)
    (one : s.chg.phSel = 2) (some : g.u.take 1 ≠ []) (above : (g.u.take 1).all (fun x => decide (s.cth 0x051B 230 * 32768 < (x : Rat))) = true)
    (held : (s.gridSense g).gridLost = false) : Answers (.gridReady g) s fun t => t.chgPhase = (if s.chgMode = 1 then 7 else 4) := by
  have three : (if s.chg.phSel = 0 then decide (3 ≤ g.u.length) && (g.u.take 3).all (fun x => decide (s.cth 0x051B 230 * 32768 < (x : Rat)))
      else s.chg.phSel == 1) = false := by rw [one]; rfl
  refine ⟨_, rfl, ?_⟩
  dsimp only
  rw [three, if_neg Bool.false_ne_true, if_neg (by simp only [phase, runs, soft, above, held]; simpa using some)]
  have mode (f : ChgSt → ChgSt) : ((s.gridSense g).updCh f).chgMode = s.chgMode := rfl
  rw [mode]
  split
  · exact State.chgPhase_setPhase (by decide)
  · exact State.chgPhase_setPhase (by decide)

theorem State.contactor_taken (closed : Bool) (here : s.ust U.chg ≠ .absent) : Answers (.contactorFeedbackChange closed) s fun t =>
    t.chg.acFb = closed ∧ (s.chgPhase = 2 → closed = true → s.chg.acCmd = true → s.ust U.chg = .running → t.chgPhase = 3 ∧ t.chg.cpS2 = true) := by
  generalize fed : (s.updCh fun c => { c with acFb := closed }) = w
  have act : execContactorFeedbackChange closed s = .next (if w.chgPhase = 2 ∧ closed = true ∧ w.chg.acCmd = true ∧ w.ust U.chg = .running
      then (w.updCh fun c => { c with cpS2 := true }).chgSetPhase 3 else w) := by
    rw [← fed]; exact congrArg Host.Outcome.next (if_neg here)
  have fb : w.chg.acFb = closed := by rw [← fed]; rfl
  have cmd : w.chg.acCmd = s.chg.acCmd := by rw [← fed]; rfl
  have ust : w.ust U.chg = s.ust U.chg := by rw [← fed]; rfl
  have was : w.chgPhase = s.chgPhase := by rw [← fed]; rfl
  refine ⟨_, act, ?_, fun phase shut asked runs => ?_⟩
  · split
    · rw [chgSetPhase_chg]; exact fb
    · exact fb
  · rw [if_pos ⟨was.trans phase, shut, cmd.trans asked, ust.trans runs⟩]
    exact ⟨State.chgPhase_setPhase (by decide), by rw [chgSetPhase_chg]; rfl⟩

/-- The regulation's flags leave what it measured and what it has clamped. -/
theorem State.regulated (here : s.ust U.chg ≠ .absent) : Answers (.busRegulationTick g) s fun t => t.chg.grid = g.u ∧ t.chg.gridI = g.i ∧
    ((s.gridSense g).chg.clampNow ≤ (s.gridSense g).inLimit.1 → t.chg.clampNow = (s.gridSense g).inLimit.1) := by
  have flag {q : Prop} [Decidable q] (t : State) (b : Nat) : (if q then t.chgFlag b else t).chg.grid = t.chg.grid ∧
      (if q then t.chgFlag b else t).chg.gridI = t.chg.gridI ∧ (if q then t.chgFlag b else t).chg.clampNow = t.chg.clampNow := by
    split <;> exact ⟨rfl, rfl, rfl⟩
  have flag' {q : Prop} [Decidable q] (t : State) (b : Nat) : (if q then t else t.chgFlag b).chg.grid = t.chg.grid ∧
      (if q then t else t.chgFlag b).chg.gridI = t.chg.gridI ∧ (if q then t else t.chgFlag b).chg.clampNow = t.chg.clampNow := by
    split <;> exact ⟨rfl, rfl, rfl⟩
  refine ⟨_, congrArg Host.Outcome.next (if_neg here), ?_, ?_, fun below => ?_⟩
  · rw [(flag ..).1, (flag' ..).1, (flag ..).1]; rfl
  · rw [(flag ..).2.1, (flag' ..).2.1, (flag ..).2.1]; rfl
  · rw [(flag ..).2.2, (flag' ..).2.2, (flag ..).2.2]
    exact if_pos below

theorem State.searchStep_steps (searches : (s.gridSense g).searching = true)
    (held : ¬100 * (s.gridSense g).gridVolts * 65536 < 94 * ((s.gridSense g).chg.u0 : Rat)) (drawn : ¬g.i < (s.gridSense g).chg.search - 65536)
    (below : (s.gridSense g).chg.search < (s.gridSense g).otherLimit) :
    Answers (.searchStep g) s fun t => t.chg.search = (s.gridSense g).chg.search + 32768 := by
  refine ⟨_, congrArg Host.Outcome.next ((if_neg (by rw [searches]; decide)).trans ((if_neg held).trans ((if_neg drawn).trans
    (if_neg (Int.not_le.mpr below))))), ?_⟩
  dsimp only
  rw [showLimit_chg]
  rfl

/-- A charger that has stopped is OFF its session, ready again where its cable is still there. -/
theorem State.charger_stopped (stops : s.ust U.chg = .stopping) (hard : s.chg.hard = true) (ac : s.chg.acFb = false) (cp : s.chg.cpS2 = false)
    (legs : ∀ n ∈ s.chgLegs, s.dutyOf n = none) : Answers .chargerStopComplete s fun t => t.chgPhase = 0 ∧
    HwEvent.move U.chg [.stopping] (if s.cablePresent then .armed else .idle) ∈ t.po.hw := by
  have off : (s.chgLegs.any fun n => (s.dutyOf n).isSome) = false := by
    rw [List.any_eq_false]
    intro n mem
    rw [legs n mem]
    exact Bool.false_ne_true
  refine ⟨_, congrArg Host.Outcome.next (if_neg (by rw [stops, hard, ac, cp, off]; decide)), ?_, ?_⟩
  · have phase (t : State) (f : ChgSt → ChgSt) : (t.updCh f).showLimit.chgPhase = t.chgPhase := (State.showLimit_kept _).frame.chgPhase rfl
    rw [phase, State.chgPhase_setPhase (by decide)]
  · have po (t : State) (f : ChgSt → ChgSt) : ((t.chgSetPhase 0).updCh f).showLimit.po = t.po :=
      ((State.showLimit_kept _).frame.same .po rfl).trans ((State.chgSetPhase_kept t 0).frame.same .po rfl)
    rw [po]
    exact State.mem_hw_finishOp (State.mem_hw_finishOp (State.hwMove_pending ..) ..) ..

/-- Settles O38: each event where it applies, by the phase, the record and the fault that it leaves. -/
theorem chargerEvents : Obligations.ChargerEvents := by
  intro s g u
  have tempGone : Answers .bmsTemperatureExpiry s fun t => t.chg.tempKnown = false ∧ (s.ust U.chg = .running → s.chgPhase ≠ 0 → t.chgPhase = 9) := by
    generalize gone : (s.updCh fun c => { c with tempKnown := false }) = w
    have act : execBmsTemperatureExpiry s = .next (if w.ust U.chg = .running then w.chgEnd 5 else w) := by rw [← gone]; rfl
    have unknown : w.chg.tempKnown = false := by rw [← gone]; rfl
    have ust : w.ust U.chg = s.ust U.chg := by rw [← gone]; rfl
    have phase : w.chgPhase = s.chgPhase := by rw [← gone]; rfl
    refine ⟨_, act, ?_, fun runs live => ?_⟩
    · split
      · rw [(State.chgEnd_order w 5).eq]; exact unknown
      · exact unknown
    · rw [if_pos (ust.trans runs)]
      by_cases nine : w.chgPhase = 9
      · rw [State.chgEnd, if_pos (.inr nine)]; exact nine
      · exact (State.chgEnd_ends (by rwa [phase]) nine 5).1
  refine ⟨fun p => State.pilot_taken, fun p bad => ⟨s, congrArg Host.Outcome.next (if_pos (.inr (by rw [bad]; rfl))), rfl⟩,
    fun ohms here => State.proximity_taken ohms here, fun invalid runs live soft => ?invalid, fun diode runs => ?diode,
    fun closed here => State.contactor_taken closed here, fun phase soft live => ?precharge, fun apart live => ?contactor, State.grid_starts,
    fun phase => ?wait, State.searchStep_steps, fun phase idle => ?again, State.regulated, fun phase low => ?term,
    fun phase first live => ?cc, fun live first ended => ?capEnd, fun on first more live => ?capFail, tempGone, fun above live => ?above,
    fun phase soft out => ?trip, fun phase soft live => ?island, fun phase soft => ?ramp, fun hard => ?open_, State.charger_stopped,
    fun due => ⟨_, congrArg Host.Outcome.next (if_pos due), rfl⟩⟩
  case invalid =>
    exact ⟨_, congrArg Host.Outcome.next (if_pos ⟨invalid, .inl runs⟩), State.chgEndHard_ends live soft 4⟩
  case diode =>
    exact ⟨_, congrArg Host.Outcome.next (if_pos ⟨diode, runs⟩), State.chgFail_pending (by rw [runs]; rfl) 11⟩
  case precharge =>
    exact ⟨_, congrArg Host.Outcome.next (if_pos ⟨phase, by rw [soft]; rfl⟩), State.chgFail_pending live 7⟩
  case contactor =>
    exact ⟨_, congrArg Host.Outcome.next (if_pos apart), State.chgFail_pending live 10⟩
  case wait =>
    exact ⟨_, congrArg Host.Outcome.next (if_pos phase), (State.chgEnd_ends (by omega) (by omega) 3).1⟩
  case again =>
    exact ⟨_, congrArg Host.Outcome.next (if_pos ⟨phase, by rw [idle]; rfl⟩), State.searchStart_search ..⟩
  case term =>
    exact ⟨_, congrArg Host.Outcome.next (if_pos ⟨phase, low⟩), (State.chgEnd_ends (by omega) (by omega) 2).1⟩
  case cc =>
    exact ⟨_, congrArg Host.Outcome.next (if_pos ⟨phase, first⟩), State.chgFail_pending live 12⟩
  case capEnd =>
    have phase : s.chgPhase = 6 := by
      rw [State.terminated, Bool.and_eq_true, beq_iff_eq] at ended
      exact ended.1
    obtain ⟨nine, -, reason, -⟩ := State.chgEnd_ends live (by omega) 2
    exact ⟨_, congrArg Host.Outcome.next ((if_neg (by simp [live, first])).trans (if_pos ended)), nine, reason first⟩
  case capFail =>
    exact ⟨_, congrArg Host.Outcome.next ((if_neg (by simp [on, first])).trans (if_neg (by rw [more]; exact Bool.false_ne_true))),
      State.chgFail_pending live 13⟩
  case above =>
    refine ⟨_, congrArg Host.Outcome.next (if_pos ⟨?_, live⟩), State.chgFail_pending live 5⟩
    exact decide_eq_true above
  case trip =>
    have live : (s.gridSense g).chgPhase ≠ 0 := by rw [show (s.gridSense g).chgPhase = 7 from phase]; decide
    obtain ⟨nine, stopped, -⟩ := State.chgEndHard_ends live soft 7
    exact ⟨_, congrArg Host.Outcome.next (if_pos ⟨phase, Bool.or_eq_true_iff.mpr out⟩), nine, stopped⟩
  case island =>
    exact ⟨_, congrArg Host.Outcome.next (if_pos ⟨phase, by rw [soft]; rfl⟩), State.chgFail_pending live 14⟩
  case ramp =>
    exact ⟨_, congrArg Host.Outcome.next (if_neg (by simp [phase, soft])), rfl, rfl, rfl⟩
  case open_ =>
    exact ⟨_, congrArg Host.Outcome.next (if_pos hard), rfl⟩

end Sys2Proof.Machine
end

section
/-!
The events of the actuator channels (chapter 10).
-/
namespace Sys2Proof.Machine

variable {s : State} {k c n : Nat}

/-- What each round keeps, once it holds, holds after the loop. -/
theorem State.each_holds {α : Type} {P : State → Prop} {g : State → α → State} (keep : ∀ t x, P t → P (g t x)) (l : List α) :
    ∀ s : State, P s → P (s.each l g) := by
  induction l with
  | nil => exact fun _ h => h
  | cons x l ih => exact fun s h => ih _ (keep s x h)

/-! ### A channel's fault -/

/-- The fault of the sequencer after its record: the channels that it owns stop. -/
def State.gbxDown (s : State) : State :=
  let s2 := s.each ((List.range 3).filter s.acOwned) fun s k =>
    if s.ust (U.ac k) = .running then (s.acStop k).hwMove (U.ac k) [.running] .stopping else s.updAc k fun a => { a with ask := false }
  ({ s2 with ldg := { s2.ldg with holes := [] } }.updGb fun g => { g with moveTo := 0 }).hwFault U.gbx

/-- The record of a cause of the sequencer. -/
def State.gbxMark (s : State) (c : Nat) : State :=
  ((s.setBit R.GBX_FLT F.GBX_FLT_CAUSE (c - 1)).setFlag R.GBX_EVT F.GBX_EVT_FAULT).updGb fun g =>
    { g with recorded := addCause g.recorded c, epoch := addCause g.epoch c }

theorem State.gbxFail_eq (s : State) (c : Nat) : s.gbxFail c = if !(s.ust U.gbx).live && s.ust U.gbx ≠ .fault then s
    else if s.ust U.gbx = .fault then s.gbxMark c else (s.gbxMark c).gbxDown := rfl

/-- The record of a channel's cause, and the first of its causes shown. -/
def State.actMark (s : State) (k c pos : Nat) : State :=
  let s1 := ((s.setBit (R.ACk_FLT k) F.ACk_FLT_CAUSE (c - 1)).acEvt k F.ACk_EVT_FAULT).updAc k fun a =>
    { a with recorded := addCause a.recorded c, epoch := addCause a.epoch c, badPos := if pos < 3 then pos else a.badPos }
  s1.setFld (R.ACk_STATE k) F.ACk_STATE_CAUSE (((List.range 8).find? fun i => bitAt (s1.ac k).recorded i).getD 0 + 1)

theorem State.actMark_kept (s : State) (k c pos : Nat) : Kept [.act, .reg .ACk_STATE, .reg .ACk_EVT, .reg .ACk_FLT] s (s.actMark k c pos) :=
  .via (State.setFld_kept (.ACk_STATE k) ..) rfl (.via (State.updAc_kept ..) rfl (.via (State.setFlag_kept (.ACk_EVT k) ..) rfl
    ((State.setBit_kept (.ACk_FLT k) ..).mono rfl)))

/-- A channel off by a fault. -/
def State.actIdle (s : State) (k : Nat) : State :=
  ((s.acOff k).setFld (R.ACk_STATE k) F.ACk_STATE_ATTEMPT 0).updAc k fun a => { a with ask := false, leak := [] }

theorem State.actIdle_kept (s : State) (k : Nat) : Kept [.act, .reg .ACk_STATE] s (s.actIdle k) :=
  .via (State.updAc_kept ..) rfl (.via (State.setFld_kept (.ACk_STATE k) ..) rfl (State.acOff_kept ..))

theorem State.acPhase_actIdle (s : State) (k : Nat) : (s.actIdle k).acPhase k = 0 := by
  rw [State.actIdle, State.acPhase, State.fld_updAc, State.fld_setFld_apart _ _ rfl rfl rfl]
  exact State.acPhase_acOff ..

theorem State.reg_actIdle {a : Nat} (h : a ≠ R.ACk_STATE k) (s : State) : (s.actIdle k).reg a = s.reg a := by
  rw [State.actIdle, State.reg_updAc, State.reg_setFld_ne h, State.acOff, State.reg_updAc]
  exact State.reg_setFld_ne h ..

/-- The same, its frame sent where the latch has not sent it. -/
def State.actDown (s : State) (k : Nat) (framed : Bool) : State :=
  if framed then s.actIdle k else (s.actIdle k).draw.2.sendFrame 5 (3 * k) ((s.actIdle k).draw.1 % 256)

theorem State.actDown_kept (s : State) (k : Nat) (framed : Bool) : Kept [.ssm, .tick] (s.actIdle k) (s.actDown k framed) := by
  unfold State.actDown
  split
  · exact .refl ..
  · exact .via (State.sendFrame_kept ..) rfl ((State.draw_kept _).mono rfl)

/-- A channel's fault is one of the sequencer where the sequencer owns the channel. -/
def State.gbxShares (s : State) (k : Nat) : State := if s.acOwned k then s.gbxFail 1 else s

theorem State.actFail_eq (s : State) (k c pos : Nat) (framed : Bool) : s.actFail k c pos framed =
    if !(s.ust (U.ac k)).live && s.ust (U.ac k) ≠ .fault then s
    else if s.ust (U.ac k) = .fault then s.actMark k c pos
    else (((s.actMark k c pos).actDown k framed).hwFault (U.ac k)).gbxShares k := rfl

theorem State.actFail_live (live : (s.ust (U.ac k)).live = true) (c pos : Nat) (framed : Bool) :
    s.actFail k c pos framed = (((s.actMark k c pos).actDown k framed).hwFault (U.ac k)).gbxShares k := by
  have here : s.ust (U.ac k) ≠ .fault := fun e => by rw [e] at live; cases live
  rw [State.actFail_eq, live, if_neg (by simp), if_neg here]

/-! ### What waits for the boundary -/

theorem State.mem_hw_hwFault {e : HwEvent} (h : e ∈ s.po.hw) (u : Nat) : e ∈ (s.hwFault u).po.hw := by
  unfold State.hwFault
  split
  · exact h
  · exact List.mem_append_left _ h

theorem State.mem_hw_hwMove {e : HwEvent} (h : e ∈ s.po.hw) (u : Nat) (l : List UState) (d : UState) : e ∈ (s.hwMove u l d).po.hw :=
  List.mem_append_left _ h

theorem State.po_acStop (s : State) (k : Nat) : (s.acStop k).po = s.po := (State.acStop_kept s k).frame.same .po rfl

theorem State.mem_hw_gbxDown {e : HwEvent} (h : e ∈ s.po.hw) : e ∈ s.gbxDown.po.hw := by
  refine State.mem_hw_hwFault ?_ _
  refine State.each_holds (P := fun t => e ∈ t.po.hw) (fun t k here => ?_) _ s h
  split
  · exact State.mem_hw_hwMove (by rw [State.po_acStop]; exact here) ..
  · exact here

theorem State.mem_hw_gbxFail {e : HwEvent} (h : e ∈ s.po.hw) (c : Nat) : e ∈ (s.gbxFail c).po.hw := by
  have mark : (s.gbxMark c).po = s.po := (State.setBit_kept .GBX_FLT s F.GBX_FLT_CAUSE (c - 1)).frame.same .po rfl
  have marked : e ∈ (s.gbxMark c).po.hw := by rw [mark]; exact h
  rw [State.gbxFail_eq]
  split
  · exact h
  · split
    · exact marked
    · exact State.mem_hw_gbxDown marked

theorem State.mem_hw_gbxShares {e : HwEvent} (h : e ∈ s.po.hw) (k : Nat) : e ∈ (s.gbxShares k).po.hw := by
  unfold State.gbxShares
  split
  · exact State.mem_hw_gbxFail h 1
  · exact h

theorem State.po_actMark (s : State) (k c pos : Nat) : (s.actMark k c pos).po = s.po :=
  (State.actMark_kept s k c pos).frame.same .po rfl

theorem State.po_actDown (s : State) (k : Nat) (framed : Bool) : (s.actDown k framed).po = s.po := by
  rw [(s.actDown_kept k framed).frame.same .po rfl, (s.actIdle_kept k).frame.same .po rfl]

theorem State.mem_hw_actFail {e : HwEvent} (h : e ∈ s.po.hw) (k c pos : Nat) (framed : Bool) : e ∈ (s.actFail k c pos framed).po.hw := by
  have marked : e ∈ (s.actMark k c pos).po.hw := by rw [State.po_actMark]; exact h
  rw [State.actFail_eq]
  split
  · exact h
  · split
    · exact marked
    · exact State.mem_hw_gbxShares (State.mem_hw_hwFault (by rw [State.po_actDown]; exact marked) _) k

/-- A channel that lives has its fault pending. -/
theorem State.actFail_pending (live : (s.ust (U.ac k)).live = true) (c pos : Nat) (framed : Bool) :
    HwEvent.fault (U.ac k) ∈ (s.actFail k c pos framed).po.hw := by
  rw [State.actFail_live live]
  exact State.mem_hw_gbxShares (State.hwFault_pending ..) k

/-! ### What a fault leaves of a channel -/

theorem State.acPhase_acOff_of {j : Nat} (h : s.acPhase k = 0) : (s.acOff j).acPhase k = 0 := by
  by_cases e : k = j
  · subst e; exact State.acPhase_acOff ..
  · rw [State.acOff, State.acPhase, State.fld_updAc, State.setAcPhase, State.fld_setFld_ne (by simp only [R.ACk_STATE]; omega)]
    exact h

theorem State.acPhase_acStop_of {j : Nat} (h : s.acPhase k = 0) : (s.acStop j).acPhase k = 0 := by
  unfold State.acStop
  extract_lets s1
  split
  · exact h
  · exact State.acPhase_acOff_of h

theorem acState_gbx (low : k < 4) : R.ACk_STATE k ≠ R.GBX_FLT ∧ R.ACk_STATE k ≠ R.GBX_EVT := by
  simp only [R.ACk_STATE, R.GBX_FLT, R.GBX_EVT]; omega

theorem State.acPhase_gbxShares (low : k < 4) (h : s.acPhase k = 0) (j : Nat) : (s.gbxShares j).acPhase k = 0 := by
  obtain ⟨flt, evt⟩ := acState_gbx low
  have mark : (s.gbxMark 1).acPhase k = 0 := by
    refine Eq.trans (congrArg (getF · _) ?_) h
    rw [State.gbxMark, State.reg_updGb, State.reg_setFlag_ne evt, State.reg_setBit_ne flt]
  unfold State.gbxShares
  split
  · rw [State.gbxFail_eq]
    split
    · exact h
    · split
      · exact mark
      · have pending (t : State) : (t.hwFault U.gbx).acPhase k = t.acPhase k := congrArg (getF · _) ((State.hwFault_kept ..).frame.reg_apart rfl)
        unfold State.gbxDown
        rw [pending]
        refine State.each_holds (P := fun t => t.acPhase k = 0) (fun t j here => ?_) _ _ mark
        split
        · exact State.acPhase_acStop_of here
        · exact here
  · exact h

theorem State.acPhase_actDown (s : State) (k : Nat) (framed : Bool) : (s.actDown k framed).acPhase k = 0 := by
  have down : (s.actDown k framed).acPhase k = (s.actIdle k).acPhase k := (s.actDown_kept k framed).frame.fld_apart rfl _
  rw [down, State.acPhase_actIdle]

theorem State.acPhase_actFail (low : k < 4) (live : (s.ust (U.ac k)).live = true) (c pos : Nat) (framed : Bool) :
    (s.actFail k c pos framed).acPhase k = 0 := by
  rw [State.actFail_live live]
  refine State.acPhase_gbxShares low ?_ k
  exact (congrArg (getF · _) ((State.hwFault_kept ..).frame.reg_apart rfl)).trans (State.acPhase_actDown ..)

theorem misses_acFlt (low : k < 4) : [Part.po, .act, .gbx, .ldg, .reg .ACk_STATE, .reg .GBX_EVT, .reg .GBX_FLT].all (Part.misses (R.ACk_FLT k)) = true := by
  interval_cases k <;> rfl

/-- The cause stands in the channel's record. -/
theorem State.actFail_cause (low : k < 4) (live : (s.ust (U.ac k)).live = true) (few : c - 1 < 8) (pos : Nat) (framed : Bool) :
    bitAt ((s.actFail k c pos framed).fld (R.ACk_FLT k) F.ACk_FLT_CAUSE) (c - 1) = true := by
  have state : R.ACk_FLT k ≠ R.ACk_STATE k := by simp only [R.ACk_FLT, R.ACk_STATE]; omega
  have evt : R.ACk_FLT k ≠ R.ACk_EVT k := by simp only [R.ACk_FLT, R.ACk_EVT]; omega
  have mark : (s.actMark k c pos).reg (R.ACk_FLT k) = (s.setBit (R.ACk_FLT k) F.ACk_FLT_CAUSE (c - 1)).reg (R.ACk_FLT k) := by
    rw [State.actMark, State.reg_setFld_ne state, State.reg_updAc, State.acEvt, State.reg_setFlag_ne evt]
  have down (t : State) : (t.actDown k framed).reg (R.ACk_FLT k) = t.reg (R.ACk_FLT k) := by
    rw [(t.actDown_kept k framed).frame.reg_apart rfl, State.reg_actIdle state]
  have shares (t : State) : (t.gbxShares k).reg (R.ACk_FLT k) = t.reg (R.ACk_FLT k) := by
    unfold State.gbxShares
    split
    · exact (State.gbxFail_kept ..).frame.reg_apart (misses_acFlt low)
    · rfl
  rw [State.actFail_live live, State.fld, shares, (State.hwFault_kept ..).frame.reg_apart rfl, down, mark]
  exact (State.bitAt_setBit _ rfl s _ few).trans (by simp)

/-! ### A control sample -/

theorem State.lastAt_updAc {j : Nat} {g : ActSt → ActSt} (keep : ∀ a, (g a).lastAt = a.lastAt) : ((s.updAc j g).ac k).lastAt = (s.ac k).lastAt := by
  by_cases e : k = j
  · subst e; rw [State.ac_updAc]; exact keep _
  · rw [State.ac_updAc_ne _ _ _ e]

theorem Frame.ac {c : List Part} {s t : State} (h : Frame c s t) (out : c.contains .act = false) (k : Nat) : t.ac k = s.ac k := by
  have same : t.act = s.act := h.same .act out
  rw [State.ac, same, State.ac]

theorem State.lastAt_acOff (s : State) (j : Nat) : ((s.acOff j).ac k).lastAt = (s.ac k).lastAt := by
  unfold State.acOff
  refine (State.lastAt_updAc ?_).trans (congrArg ActSt.lastAt ((State.setFld_kept (.ACk_STATE j) ..).frame.ac rfl k))
  exact fun _ => rfl

theorem State.lastAt_acStop (s : State) (j : Nat) : ((s.acStop j).ac k).lastAt = (s.ac k).lastAt := by
  unfold State.acStop
  extract_lets s1
  have first : (s1.ac k).lastAt = (s.ac k).lastAt := State.lastAt_updAc (fun _ => rfl)
  split
  · exact first
  · exact (State.lastAt_acOff s1 j).trans first

theorem State.lastAt_gbxShares (s : State) (j : Nat) : ((s.gbxShares j).ac k).lastAt = (s.ac k).lastAt := by
  have mark : (s.gbxMark 1).ac k = s.ac k := (State.setBit_kept .GBX_FLT s F.GBX_FLT_CAUSE (1 - 1)).frame.ac rfl k
  unfold State.gbxShares
  split
  · rw [State.gbxFail_eq]
    split
    · rfl
    · split
      · rw [mark]
      · unfold State.gbxDown
        rw [(State.hwFault_kept ..).frame.ac rfl, ← mark]
        refine State.each_keeps (read := fun t => (t.ac k).lastAt) (fun t j => ?_) _ (s.gbxMark 1)
        split
        · exact State.lastAt_acStop t j
        · exact State.lastAt_updAc (fun _ => rfl)
  · rfl

theorem State.lastAt_actMark (s : State) (j c pos : Nat) : ((s.actMark j c pos).ac k).lastAt = (s.ac k).lastAt := by
  unfold State.actMark
  extract_lets s1
  have first : (s1.ac k).lastAt = ((s.setBit (R.ACk_FLT j) F.ACk_FLT_CAUSE (c - 1)).ac k).lastAt :=
    State.lastAt_updAc (fun _ => rfl)
  rw [(State.setFld_kept (.ACk_STATE j) ..).frame.ac rfl, first, (State.setBit_kept (.ACk_FLT j) ..).frame.ac rfl]

theorem State.lastAt_actDown (s : State) (j : Nat) (framed : Bool) : ((s.actDown j framed).ac k).lastAt = (s.ac k).lastAt := by
  have idle : ((s.actIdle j).ac k).lastAt = (s.ac k).lastAt := by
    refine (State.lastAt_updAc (by intro; rfl)).trans ?_
    rw [(State.setFld_kept (.ACk_STATE j) ..).frame.ac rfl, State.lastAt_acOff]
  rw [(s.actDown_kept j framed).frame.ac rfl, idle]

theorem State.lastAt_actFail (s : State) (j c pos : Nat) (framed : Bool) : ((s.actFail j c pos framed).ac k).lastAt = (s.ac k).lastAt := by
  rw [State.actFail_eq]
  split
  · rfl
  · split
    · exact State.lastAt_actMark ..
    · rw [State.lastAt_gbxShares, (State.hwFault_kept ..).frame.ac rfl, State.lastAt_actDown, State.lastAt_actMark]

theorem State.lastAt_acMiss (s : State) (speed : Int) (iph : List Rat) : ((s.acMiss k speed iph).ac k).lastAt = (s.ac k).lastAt := by
  refine State.each_keeps (read := fun t => (t.ac k).lastAt) (fun t p => ?_) _ s
  dsimp only
  generalize missNext _ _ _ _ _ _ = r
  have first : ((t.updAc k fun a => { a with miss := FMap.set (fun _ => ⟨0, 0, none, 0⟩) a.miss p r.1 }).ac k).lastAt = (t.ac k).lastAt :=
    State.lastAt_updAc (fun _ => rfl)
  split
  · rw [State.lastAt_actFail, first]
  · exact first

theorem State.lastAt_acLowEnd (s : State) (speed : Int) : ((s.acLowEnd k speed).ac k).lastAt = (s.ac k).lastAt := by
  unfold State.acLowEnd
  split
  · exact (State.lastAt_updAc (by intro; rfl)).trans (State.lastAt_acOff ..)
  · rfl

theorem State.lastAt_acFlag (s : State) (bit : Nat) : ((s.acFlag k bit).ac k).lastAt = (s.ac k).lastAt := State.lastAt_updAc (fun _ => rfl)

theorem State.ac_acEvt (s : State) (j : Nat) (f : Fld) : (s.acEvt j f).ac k = s.ac k := rfl

theorem State.lastAt_acApply (s : State) (m : ActIn) (th : Nat) (v : Vec) : ((s.acApply k m th v).1.ac k).lastAt = (s.ac k).lastAt := by
  have first (t : State) (d : List Nat) : ((t.updAc k fun a => { a with duty := d, edges := d.map (t.acEdges k) }).ac k).lastAt = (t.ac k).lastAt :=
    State.lastAt_updAc (fun _ => rfl)
  unfold State.acApply
  dsimp only
  split
  · rw [State.lastAt_acFlag, State.ac_acEvt]
    exact first ..
  · exact first ..

/-- From s to t a channel's last sample is the same: when it was taken, and the speed that it showed. -/
structure SameSample (k : Nat) (s t : State) : Prop where
  lastAt : (t.ac k).lastAt = (s.ac k).lastAt
  speed : t.fld (R.ACk_SPD k) F.ACk_SPD_SPEED = s.fld (R.ACk_SPD k) F.ACk_SPD_SPEED

theorem SameSample.trans {s t u : State} (h : SameSample k s t) (j : SameSample k t u) : SameSample k s u :=
  ⟨j.lastAt.trans h.lastAt, j.speed.trans h.speed⟩

theorem SameSample.updAc {t : State} (h : SameSample k s t) {g : ActSt → ActSt} (keep : ∀ a, (g a).lastAt = a.lastAt) : SameSample k s (t.updAc k g) :=
  ⟨(State.lastAt_updAc keep).trans h.lastAt, h.speed⟩

theorem SameSample.of_kept {c : List Part} {t : State} (h : Kept c s t) (out : c.contains .act = false)
    (regs : c.all (fun p => match p with | .regs => false | .reg _ => false | _ => true) = true) : SameSample k s t := by
  refine ⟨by rw [h.frame.ac out], ?_⟩
  rw [State.fld, State.fld]
  rcases h.frame.regs (R.ACk_SPD k) with here | ⟨r, mem, -⟩ | same
  · exact absurd (List.all_eq_true.mp regs _ here) Bool.false_ne_true
  · exact absurd (List.all_eq_true.mp regs _ mem) Bool.false_ne_true
  · rw [same]

theorem State.acEvt_sample (s : State) (f : Fld) : SameSample k s (s.acEvt k f) :=
  ⟨rfl, State.fld_setFld_ne (by simp only [R.ACk_SPD, R.ACk_EVT]; omega) ..⟩

theorem State.acFlag_sample (s : State) (bit : Nat) : SameSample k s (s.acFlag k bit) := by
  unfold State.acFlag
  exact SameSample.updAc ⟨rfl, rfl⟩ (by intro; rfl)

theorem State.acApply_sample (s : State) (m : ActIn) (th : Nat) (v : Vec) : SameSample k s (s.acApply k m th v).1 := by
  unfold State.acApply
  dsimp only
  have first (d : List Nat) : SameSample k s (s.updAc k fun a => { a with duty := d, edges := d.map (s.acEdges k) }) :=
    SameSample.updAc ⟨rfl, rfl⟩ (by intro; rfl)
  split
  · exact ((first _).trans (State.acEvt_sample ..)).trans (State.acFlag_sample ..)
  · exact first _

theorem State.acVector_sample (s : State) (m : ActIn) (amp : Rat) : SameSample k s (s.acVector k m amp) := by
  have volts : SameSample k s s.acVolts.2 := .of_kept (State.acVolts_kept s) rfl rfl
  unfold State.acVector
  generalize s.acVolts = r at *
  exact SameSample.updAc (volts.trans (State.acApply_sample ..)) (by intro; rfl)

theorem State.acTurn_sample (s : State) : SameSample k s (s.acTurn k) := by
  unfold State.acTurn
  exact SameSample.updAc ⟨rfl, rfl⟩ (by intro; rfl)

/-- The speed that is set stands beside the speed that is shown. -/
theorem State.setSpeed_sample (s : State) (v : Int) : SameSample k s (s.setSfld (R.ACk_SPD k) F.ACk_SPD_SET v) := by
  unfold State.setSfld
  exact ⟨congrArg ActSt.lastAt ((State.setFld_kept (.ACk_SPD k) ..).frame.ac rfl k), State.fld_setFld_apart _ _ rfl rfl rfl _⟩

theorem State.acLoop_sample (s : State) (m : ActIn) (iq : Int) : SameSample k s (s.acLoop k m iq) := by
  unfold State.acLoop
  extract_lets +onlyGivenNames a step goal set_ lim
  clear_value set_ lim
  split
  rename_i w s1 h1
  split
  rename_i u s2 h2
  have k2 : SameSample k s s2 := (SameSample.of_kept (State.draw_kept_eq h1) rfl rfl).trans (.of_kept (State.draw_kept_eq h2) rfl rfl)
  extract_lets +onlyGivenNames raw reg factor
  clear_value raw factor
  split
  rename_i v s3 h3
  have k3 : SameSample k s s3 := by
    revert h3
    split
    · intro h; cases h; exact k2
    · intro h; exact k2.trans (.of_kept (State.acVolts_kept_eq h) rfl rfl)
  split
  rename_i s4 hit h4
  have k4 : SameSample k s s4 := k3.trans (by have := s3.acApply_sample (k := k) m (65536 * m.ang) v; rwa [h4] at this)
  extract_lets s5
  have k5 : SameSample k s s5 := by
    unfold s5
    split
    · exact (k4.trans (State.acEvt_sample ..)).trans (State.acFlag_sample ..)
    · exact k4
  clear_value s5
  exact (SameSample.updAc k5 (by intro; rfl)).trans (State.setSpeed_sample ..)

theorem State.acDrive_sample (s : State) (m : ActIn) (iq : Int) : SameSample k s (s.acDrive k m iq) := by
  unfold State.acDrive
  split
  · exact State.acVector_sample ..
  · exact (State.acTurn_sample s).trans (State.acVector_sample ..)
  · exact State.acLoop_sample ..
  · exact State.acVector_sample ..
  · exact ⟨rfl, rfl⟩

theorem misses_acSpd (low : k < 4) : [Part.po, .act, .gbx, .ldg, .ssm, .tick, .reg .ACk_STATE, .reg .ACk_EVT, .reg .ACk_FLT, .reg .GBX_EVT,
    .reg .GBX_FLT].all (Part.misses (R.ACk_SPD k)) = true := by
  interval_cases k <;> rfl

theorem State.acMiss_sample (low : k < 4) (s : State) (speed : Int) (iph : List Rat) : SameSample k s (s.acMiss k speed iph) :=
  ⟨State.lastAt_acMiss .., (State.acMiss_kept ..).frame.fld_apart (misses_acSpd low) _⟩

theorem State.acLowEnd_sample (low : k < 4) (s : State) (speed : Int) : SameSample k s (s.acLowEnd k speed) := by
  refine ⟨State.lastAt_acLowEnd .., ?_⟩
  have apart : [Part.act, .reg .ACk_STATE].all (Part.misses (R.ACk_SPD k)) = true := by interval_cases k <;> rfl
  exact (State.acLowEnd_kept ..).frame.fld_apart apart _

theorem State.sfld_setSpeed {x : Int} (low : -32768 ≤ x) (high : x < 32768) (a : Nat) : (s.setSfld a ⟨15, 0⟩ x).sfld a ⟨15, 0⟩ = x := by
  have sat : satS 16 x = x := by simp only [satS, clampI]; omega
  have whole : ofSigned 16 x % 2 ^ 16 = ofSigned 16 x := Nat.mod_eq_of_lt (by rw [ofSigned]; omega)
  have back : toSigned 16 (ofSigned 16 x) = x := by
    rw [toSigned, ofSigned]
    by_cases neg : x < 0
    · rw [if_neg (by omega)]; omega
    · rw [if_pos (by omega)]; omega
  rw [State.sfld, State.setSfld, State.fld_setFld ⟨15, 0⟩ rfl]
  exact (congrArg (toSigned 16) ((congrArg (ofSigned 16 · % 2 ^ 16) sat).trans whole)).trans back

/-- A control sample in a channel's registers. -/
def State.actMeasured (s : State) (k : Nat) (m : ActIn) (iq id : Int) : State :=
  (((s.setSfld (R.ACk_SPD k) F.ACk_SPD_SPEED m.speed).setSfld (R.ACk_I k) F.ACk_I_IQ iq).setSfld (R.ACk_I k) F.ACk_I_ID id).setFld
    R.ACT_VACT F.ACT_VACT_MV (satU 16 m.vact)

theorem satU_lt (n v : Nat) : satU n v < 2 ^ n := by
  have := Nat.two_pow_pos n
  rw [satU]
  split <;> omega

theorem acSpd_apart (low : k < 4) : R.ACk_SPD k ≠ R.ACT_VACT ∧ R.ACk_SPD k ≠ R.ACk_I k := by
  simp only [R.ACk_SPD, R.ACT_VACT, R.ACk_I]; omega

theorem State.actMeasured_fields (low : k < 4) {m : ActIn} (down : -32768 ≤ m.speed) (up : m.speed < 32768) (iq id : Int) :
    (s.actMeasured k m iq id).sfld (R.ACk_SPD k) F.ACk_SPD_SPEED = m.speed ∧
    (s.actMeasured k m iq id).fld R.ACT_VACT F.ACT_VACT_MV = satU 16 m.vact := by
  obtain ⟨vact, cur⟩ := acSpd_apart low
  unfold State.actMeasured
  refine ⟨?_, ?_⟩
  · rw [State.sfld, State.fld_setFld_ne vact, State.setSfld, State.fld_setFld_ne cur, State.setSfld, State.fld_setFld_ne cur]
    exact State.sfld_setSpeed down up _
  · rw [State.fld_setFld _ rfl]
    exact Nat.mod_eq_of_lt (satU_lt 16 m.vact)

/-- The sample with its time. -/
def State.actSampled (s : State) (k : Nat) (m : ActIn) (iq id : Int) : State :=
  (s.actMeasured k m iq id).updAc k fun a => { a with lastAt := s.time, was := a.levels s.time }

theorem isAc_channel (s : State) (low : k < 4) : isAc s (U.ac k) = true := by
  interval_cases k <;> rfl

theorem execActUpdate_eq {m : ActIn} (low : k < 4) (present : unitPresent s.variant (U.ac k) = true) (on : s.ust (U.ac k) ≠ .off) :
    ∃ iq id iph, execActUpdate k m s = .next (if !(s.ust (U.ac k)).active then (s.actSampled k m iq id).acLowEnd k m.speed
      else if ((s.actSampled k m iq id).acLowEnd k m.speed).acPhase k = 5 ∨ ((s.actSampled k m iq id).acLowEnd k m.speed).acPhase k = 6 ∨
          ((s.actSampled k m iq id).acLowEnd k m.speed).ust (U.ac k) = .stopping then
        (((s.actSampled k m iq id).acLowEnd k m.speed).acDrive k m iq).acMiss k m.speed iph
      else ((s.actSampled k m iq id).acLowEnd k m.speed).acDrive k m iq) := by
  have own := isAc_channel s low
  refine ⟨_, _, _, congrArg Host.Outcome.next (if_neg (by simp [present, own, on]))⟩

theorem State.act_sampled {m : ActIn} (low : k < 4) (present : unitPresent s.variant (U.ac k) = true) (on : s.ust (U.ac k) ≠ .off)
    (down : -32768 ≤ m.speed) (up : m.speed < 32768) : Answers (.actUpdate k m) s fun t =>
    t.sfld (R.ACk_SPD k) F.ACk_SPD_SPEED = m.speed ∧ (t.ac k).lastAt = s.time ∧ t.fld R.ACT_VACT F.ACT_VACT_MV = satU 16 m.vact := by
  obtain ⟨iq, id, iph, act⟩ := execActUpdate_eq (m := m) low present on
  obtain ⟨speed, vact⟩ := State.actMeasured_fields (s := s) low down up iq id
  have stored : (s.actSampled k m iq id).sfld (R.ACk_SPD k) F.ACk_SPD_SPEED = m.speed := by
    rw [State.actSampled, State.sfld, State.fld_updAc]; exact speed
  have time : ((s.actSampled k m iq id).ac k).lastAt = s.time := by rw [State.actSampled, State.ac_updAc]
  have volts : (s.actSampled k m iq id).fld R.ACT_VACT F.ACT_VACT_MV = satU 16 m.vact := by
    rw [State.actSampled, State.fld_updAc]; exact vact
  have good {t : State} (same : SameSample k (s.actSampled k m iq id) t) (still : t.reg R.ACT_VACT = (s.actSampled k m iq id).reg R.ACT_VACT) :
      t.sfld (R.ACk_SPD k) F.ACk_SPD_SPEED = m.speed ∧ (t.ac k).lastAt = s.time ∧ t.fld R.ACT_VACT F.ACT_VACT_MV = satU 16 m.vact := by
    refine ⟨?_, same.lastAt.trans time, ?_⟩
    · rw [State.sfld, same.speed]; exact stored
    · rw [State.fld, still]; exact volts
  generalize s.actSampled k m iq id = u at *
  have lowered := State.acLowEnd_sample low u m.speed
  have still : (u.acLowEnd k m.speed).reg R.ACT_VACT = u.reg R.ACT_VACT := (State.acLowEnd_kept ..).frame.reg_apart rfl
  have drove : ((u.acLowEnd k m.speed).acDrive k m iq).reg R.ACT_VACT = u.reg R.ACT_VACT :=
    ((State.acDrive_kept ..).frame.reg_apart rfl).trans still
  refine ⟨_, act, ?_⟩
  split
  · exact good lowered still
  · split
    · exact good ((lowered.trans (State.acDrive_sample ..)).trans (State.acMiss_sample low ..)) (((State.acMiss_kept ..).frame.reg_apart rfl).trans drove)
    · exact good (lowered.trans (State.acDrive_sample ..)) drove

/-! ### The start -/

theorem State.acPhase_updAc (j : Nat) (g : ActSt → ActSt) : (s.updAc j g).acPhase k = s.acPhase k := State.fld_updAc ..

theorem State.acPhase_acFlag (j bit : Nat) : (s.acFlag j bit).acPhase k = s.acPhase k := rfl

theorem State.acPhase_acRun (s : State) (rpm : Int) : (s.acRun k rpm).acPhase k = 6 := by
  have evt (t : State) (f : Fld) : (t.acEvt k f).acPhase k = t.acPhase k := State.fld_setFld_ne (by simp only [R.ACk_STATE, R.ACk_EVT]; omega) ..
  have done (t : State) (o : Nat) (st : Status) (l : List Byte) : (t.finishOp (U.ac k) o st l).acPhase k = t.acPhase k :=
    (State.finishOp_kept ..).frame.fld_apart rfl _
  unfold State.acRun
  dsimp only
  rw [done, State.acPhase_updAc, evt, State.acPhase_acEnter (by decide)]

section
variable {o : ObsIn} (live : s.acLive k = true)
include live

theorem execActStartPhaseEnd_one (phase : s.acPhase k = 1) : ∃ f g h, execActStartPhaseEnd k o s = .next
    (if (o.amp : Rat) < s.ath k 0x0806 500 then (s.acEnter k 3).updAc k f
      else if 0 < o.rpm * (s.ac k).goal ∧ s.ath k 0x0807 1000 ≤ (absI o.rpm : Rat) then (s.updAc k g).acRun k o.rpm
      else (s.acEnter k 2).updAc k h) := by
  unfold execActStartPhaseEnd
  rw [live, Bool.not_true, if_neg Bool.false_ne_true, phase]
  exact ⟨_, _, _, rfl⟩

theorem execActStartPhaseEnd_two (phase : s.acPhase k = 2) : ∃ f, execActStartPhaseEnd k o s = .next
    (if (o.amp : Rat) < s.ath k 0x0806 500 then (s.acEnter k 3).updAc k f else s) := by
  unfold execActStartPhaseEnd
  rw [live, Bool.not_true, if_neg Bool.false_ne_true, phase]
  exact ⟨_, rfl⟩

theorem execActStartPhaseEnd_three (phase : s.acPhase k = 3) : ∃ u f, execActStartPhaseEnd k o s = .next ((State.acEnter u k 4).updAc k f) := by
  unfold execActStartPhaseEnd
  rw [live, Bool.not_true, if_neg Bool.false_ne_true, phase]
  by_cases flat : (o.peaks.foldl max 0 - o.peaks.foldl min (o.peaks.foldl max 0)) * 100 < 5 * o.peaks.foldl max 0
  · exact ⟨_, _, congrArg Host.Outcome.next (if_pos flat)⟩
  · exact ⟨_, _, congrArg Host.Outcome.next (if_neg flat)⟩

theorem execActStartPhaseEnd_four (phase : s.acPhase k = 4) : execActStartPhaseEnd k o s = .next
    (if (s.ac k).holdAsk then (s.acEnter k 7).acFlag k 4 else s.acEnter k 5) := by
  unfold execActStartPhaseEnd
  rw [live, Bool.not_true, if_neg Bool.false_ne_true, phase]
  rfl

theorem State.start_phases : Answers (.actStartPhaseEnd k o) s fun t =>
    (s.acPhase k = 1 → t.acPhase k = (if (o.amp : Rat) < s.ath k 0x0806 500 then 3
      else if 0 < o.rpm * (s.ac k).goal ∧ s.ath k 0x0807 1000 ≤ (absI o.rpm : Rat) then 6 else 2)) ∧
    (s.acPhase k = 2 → t.acPhase k = (if (o.amp : Rat) < s.ath k 0x0806 500 then 3 else 2)) ∧
    (s.acPhase k = 3 → t.acPhase k = 4) ∧ (s.acPhase k = 4 → t.acPhase k = (if (s.ac k).holdAsk then 7 else 5)) := by
  have entered {p : Nat} (small : p < 16) (u : State) : (u.acEnter k p).acPhase k = p := State.acPhase_acEnter small u k
  have out : ∃ t, execActStartPhaseEnd k o s = .next t := ⟨_, rfl⟩
  obtain ⟨t, act⟩ := out
  refine ⟨t, act, fun one => ?_, fun two => ?_, fun three => ?_, fun four => ?_⟩
  · obtain ⟨f, g, h, e⟩ := execActStartPhaseEnd_one (o := o) live one
    cases act.symm.trans e
    split
    · rw [State.acPhase_updAc, entered (p := 3) (by decide)]
    · split
      · exact State.acPhase_acRun ..
      · rw [State.acPhase_updAc, entered (p := 2) (by decide)]
  · obtain ⟨f, e⟩ := execActStartPhaseEnd_two (o := o) live two
    cases act.symm.trans e
    split
    · rw [State.acPhase_updAc, entered (p := 3) (by decide)]
    · exact two
  · obtain ⟨u, f, e⟩ := execActStartPhaseEnd_three (o := o) live three
    cases act.symm.trans e
    rw [State.acPhase_updAc, entered (p := 4) (by decide)]
  · cases act.symm.trans (execActStartPhaseEnd_four (o := o) live four)
    split
    · rw [State.acPhase_acFlag, entered (p := 7) (by decide)]
    · rw [entered (p := 5) (by decide)]

end

theorem State.brake_pulse (v : Nat) (live : s.acLive k = true) (brakes : s.acPhase k = 2) (free : (s.ac k).paused = false) :
    Answers (.actBrakePulse k v true) s fun t => (t.ac k).paused = decide (100 * s.ath k 0x080D 540 ≤ (v : Rat)) ∧
      (t.ac k).pulse = !decide (100 * s.ath k 0x080D 540 ≤ (v : Rat)) := by
  refine ⟨_, congrArg Host.Outcome.next (if_neg (by simp [live, brakes])), ?_⟩
  dsimp only
  rw [free, if_neg Bool.false_ne_true, Bool.not_true, if_neg Bool.false_ne_true]
  cases stop : decide (100 * s.ath k 0x080D 540 ≤ (v : Rat))
  · rw [if_neg Bool.false_ne_true, State.ac_updAc]; exact ⟨rfl, rfl⟩
  · rw [if_pos rfl, State.ac_updAc]; exact ⟨rfl, rfl⟩

theorem State.live_running (live : s.acLive k = true) : s.ust (U.ac k) = .running := by
  simp only [State.acLive, Bool.and_eq_true, beq_iff_eq] at live
  exact live.1.2

theorem State.startAttempt_eq (live : s.acLive k = true) (starts : s.acPhase k ∈ [2, 3, 4, 5, 7]) (not_yet : (s.ac k).reached = false) :
    execStartAttemptFail k s = .next (s.acAttemptFail k) := by
  refine congrArg Host.Outcome.next (if_pos ⟨live, ?_⟩)
  simp only [List.mem_cons, List.not_mem_nil, or_false] at starts
  rw [not_yet]
  refine ⟨?_, ?_, ?_, rfl⟩ <;> omega

theorem State.start_retried (live : s.acLive k = true) (starts : s.acPhase k ∈ [2, 3, 4, 5, 7]) (not_yet : (s.ac k).reached = false)
    (few : s.fld (R.ACk_STATE k) F.ACk_STATE_ATTEMPT < 4) :
    Answers (.startAttemptFail k) s fun t => t.acPhase k = 0 ∧ (t.ac k).waiting = true := by
  refine ⟨_, State.startAttempt_eq live starts not_yet, ?_⟩
  have evt (t : State) (f : Fld) : (t.acEvt k f).acPhase k = t.acPhase k := State.fld_setFld_ne (by simp only [R.ACk_STATE, R.ACk_EVT]; omega) ..
  unfold State.acAttemptFail
  dsimp only
  rw [if_neg (Nat.not_le.mpr few), State.acPhase_updAc, evt, State.ac_updAc]
  exact ⟨State.acPhase_acOff .., rfl⟩

theorem State.start_fails (low : k < 4) (live : s.acLive k = true) (starts : s.acPhase k ∈ [2, 3, 4, 5, 7]) (not_yet : (s.ac k).reached = false)
    (many : 4 ≤ s.fld (R.ACk_STATE k) F.ACk_STATE_ATTEMPT) :
    Answers (.startAttemptFail k) s fun t => t.acPhase k = 0 ∧ HwEvent.fault (U.ac k) ∈ t.po.hw ∧ bitAt (t.fld (R.ACk_FLT k) F.ACk_FLT_CAUSE) 3 = true := by
  have running : (s.acOff k).ust (U.ac k) = .running := ((State.acOff_kept s k).frame.ust rfl _).trans (State.live_running live)
  have lives : ((s.acOff k).ust (U.ac k)).live = true := by rw [running]; rfl
  refine ⟨_, State.startAttempt_eq live starts not_yet, ?_⟩
  unfold State.acAttemptFail
  rw [if_pos many]
  exact ⟨State.acPhase_actFail low lives .., State.actFail_pending lives .., State.actFail_cause low lives (by decide) ..⟩

theorem State.start_again (live : s.acLive k = true) (waits : (s.ac k).waiting = true) (few : s.fld (R.ACk_STATE k) F.ACk_STATE_ATTEMPT < 4) :
    Answers (.retryWaitEnd k) s fun t => t.acPhase k = 1 ∧ (t.ac k).waiting = false ∧
      t.fld (R.ACk_STATE k) F.ACk_STATE_ATTEMPT = s.fld (R.ACk_STATE k) F.ACk_STATE_ATTEMPT + 1 := by
  have attempt : (s.acEnter k 1).fld (R.ACk_STATE k) F.ACk_STATE_ATTEMPT = s.fld (R.ACk_STATE k) F.ACk_STATE_ATTEMPT := by
    rw [State.acEnter, State.fld_updAc]
    exact State.fld_setFld_apart _ _ rfl rfl rfl _
  refine ⟨_, congrArg Host.Outcome.next (if_pos ⟨live, waits⟩), ?_, ?_, ?_⟩
  · have more (t : State) : (t.incFld (R.ACk_STATE k) F.ACk_STATE_ATTEMPT).acPhase k = t.acPhase k := State.fld_setFld_apart _ _ rfl rfl rfl _
    rw [State.acPhase_updAc, more, State.acPhase_acEnter (p := 1) (by decide)]
  · have stops (t : State) : ((t.updAc k fun a => { a with waiting := false, reached := false }).ac k).waiting = false := by rw [State.ac_updAc]
    exact stops _
  · rw [State.fld_updAc, State.incFld, State.fld_setFld _ rfl, attempt]
    exact Nat.mod_eq_of_lt (Nat.lt_of_lt_of_le (Nat.succ_lt_succ few) (by decide))

/-! ### Latches -/

/-- The causes that latch the legs. -/
def State.legLatched (s : State) (n c : Nat) : State := { s with pads := { s.pads with actCause := FMap.set (fun _ => 0) s.pads.actCause n c } }

theorem State.latchAct_eq (s : State) (n c : Nat) : s.latchAct n c = if s.actLatch n ≠ 0 then s
    else (((s.legLatched n c).syncActLatch.acOff (n / 3)).sendFrame 5 n c).actFail (n / 3) 1 (n % 3) true := rfl

theorem State.actLatch_latchAct_self (free : s.actLatch n = 0) (c : Nat) : (s.latchAct n c).actLatch n = c := by
  have pads : ((((s.legLatched n c).syncActLatch.acOff (n / 3)).sendFrame 5 n c).actFail (n / 3) 1 (n % 3) true).pads = (s.legLatched n c).pads := by
    rw [(State.actFail_kept ..).frame.same .pads rfl, (State.sendFrame_kept ..).frame.same .pads rfl, (State.acOff_kept ..).frame.same .pads rfl,
      (State.syncActLatch_kept _).frame.same .pads rfl]
  rw [State.latchAct_eq, if_neg (not_not.mpr free), State.actLatch, pads]
  exact FMap.get_set_same

theorem State.actLatch_latchAct_ne {j : Nat} (ne : n ≠ j) (c : Nat) : (s.latchAct j c).actLatch n = s.actLatch n := by
  have pads : ((((s.legLatched j c).syncActLatch.acOff (j / 3)).sendFrame 5 j c).actFail (j / 3) 1 (j % 3) true).pads = (s.legLatched j c).pads := by
    rw [(State.actFail_kept ..).frame.same .pads rfl, (State.sendFrame_kept ..).frame.same .pads rfl, (State.acOff_kept ..).frame.same .pads rfl,
      (State.syncActLatch_kept _).frame.same .pads rfl]
  rw [State.latchAct_eq]
  split
  · rfl
  · rw [State.actLatch, pads]
    exact FMap.get_set_ne ne

section
variable {p : Nat} (low : k < 4) (leg : p < 3)
include leg

theorem actLeg_div : (3 * k + p) / 3 = k := by omega

theorem State.boot_refreshed (low : k < 4) (on : (s.ust (U.ac k)).active = true) :
    Answers (.bootstrapRefresh (3 * k + p)) s fun t => (t.ac k).refreshes = (s.ac k).refreshes + 1 := by
  have boot : execBootstrapRefresh (3 * k + p) s = .next (((s.incFld (R.ACk_BOOT k) F.ACk_BOOT_COUNT).acFlag k 5).updAc k fun a =>
      { a with refreshes := a.refreshes + 1, refreshAt := FMap.put a.refreshAt ((3 * k + p) % 3) s.time }) := by
    unfold execBootstrapRefresh
    rw [actLeg_div leg, on, if_neg (by simp; omega)]
  have flag (t : State) : ((t.acFlag k 5).ac k).refreshes = (t.ac k).refreshes := by rw [State.acFlag, State.ac_updAc]
  refine ⟨_, boot, ?_⟩
  refine (congrArg ActSt.refreshes (State.ac_updAc ..)).trans ?_
  exact congrArg (· + 1) (flag _)

theorem State.boot_latched (low : k < 4) (on : (s.ust (U.ac k)).active = true) (free : s.actLatch (3 * k + p) = 0) :
    Answers (.bootstrapUndervoltage (3 * k + p)) s fun t => t.actLatch (3 * k + p) = 3 := by
  refine ⟨_, congrArg Host.Outcome.next (if_pos ⟨by omega, ?_⟩), State.actLatch_latchAct_self free 3⟩
  rw [actLeg_div leg]
  exact on

theorem State.leg_latched (low : k < 4) (kind : c = 1 ∨ c = 2) (present : unitPresent s.variant (U.ac k) = true) (free : s.actLatch (3 * k + p) = 0) :
    Answers (.actLegLatch (3 * k + p) c) s fun t => t.actLatch (3 * k + p) = c := by
  refine ⟨_, congrArg Host.Outcome.next (if_pos ⟨by omega, kind, ?_⟩), State.actLatch_latchAct_self free c⟩
  rw [actLeg_div leg]
  exact present

end

/-- A leg among those that latch is latched by the cause. -/
theorem State.each_latchAct {l : List Nat} {p : Nat} (mem : p ∈ l) (once : l.Nodup) (c : Nat) (s : State) (free : s.actLatch (3 * k + p) = 0) :
    (s.each l fun s p => s.latchAct (3 * k + p) c).actLatch (3 * k + p) = c := by
  obtain ⟨u, before, after⟩ := State.each_once (read := fun t => t.actLatch (3 * k + p)) (g := fun s p => s.latchAct (3 * k + p) c) once mem
    (fun t y ne => State.actLatch_latchAct_ne (by omega) c) s
  exact after.trans (State.actLatch_latchAct_self (before.trans free) c)

/-! ### The leakage check -/

/-- Where a gate's voltage is out of its window. -/
def State.leaks (s : State) (k mv : Nat) : Bool := decide ((mv : Rat) < s.ath k 0x081C 20) || decide (s.ath k 0x081D 1500 < (mv : Rat))

theorem State.leaks_iff {mv : Nat} : s.leaks k mv = true ↔ (mv : Rat) < s.ath k 0x081C 20 ∨ s.ath k 0x081D 1500 < (mv : Rat) := by
  rw [State.leaks, Bool.or_eq_true, decide_eq_true_iff, decide_eq_true_iff]

/-- The check's values, and the check done. -/
def State.leakDone (s : State) (k : Nat) (low high : Word) : State :=
  ((s.setReg (R.ACk_LEAKL k) low).setReg (R.ACk_LEAKH k) high).updAc k fun a =>
    { a with leak := a.leak.drop 1, preAt := if 1 < a.leak.length then some s.time else a.preAt }

theorem execLeakTestComplete_eq {low high : List Nat} (few : k < 4) (some : (s.ac k).leak ≠ []) : ∃ (wl wh : Word) (result : List Byte),
    execLeakTestComplete k low high s = .next
      (if !((List.range 3).filter fun p => s.leaks k (low.getD p 0) || s.leaks k (high.getD p 0)).isEmpty then
        (s.leakDone k wl wh).each ((List.range 3).filter fun p => s.leaks k (low.getD p 0) || s.leaks k (high.getD p 0)) fun s p => s.latchAct (3 * k + p) 4
      else if (s.ac k).leak.headD 0 = 1 then
        ((((s.leakDone k wl wh).each ((List.range 3).filter fun p => s.leaks k (low.getD p 0) || s.leaks k (high.getD p 0)) fun s p =>
          s.latchAct (3 * k + p) 4).hwMove (U.ac k) [.idle] .armed).finishOp (U.ac k) 0x0801 .done [])
      else ((s.leakDone k wl wh).each ((List.range 3).filter fun p => s.leaks k (low.getD p 0) || s.leaks k (high.getD p 0)) fun s p =>
          s.latchAct (3 * k + p) 4).finishOp (U.ac k) 0x0807 .done result) :=
  ⟨_, _, _, congrArg Host.Outcome.next (if_neg (by rw [isAc_channel s few]; simpa using some))⟩

theorem State.ac_finishOp (s : State) (u o : Nat) (st : Status) (l : List Byte) : (s.finishOp u o st l).ac k = s.ac k :=
  (State.finishOp_kept ..).frame.ac rfl k

theorem State.leak_done (s : State) (wl wh : Word) : ((s.leakDone k wl wh).ac k).leak = (s.ac k).leak.drop 1 := by
  rw [State.leakDone, State.ac_updAc]
  rfl

/-- A check whose gates hold is done, and arms the channel that it was asked for. -/
theorem State.leak_passed {low high : List Nat} (few : k < 4) (some : (s.ac k).leak ≠ [])
    (good : ∀ p, p < 3 → s.ath k 0x081C 20 ≤ (low.getD p 0 : Rat) ∧ (low.getD p 0 : Rat) ≤ s.ath k 0x081D 1500 ∧
      s.ath k 0x081C 20 ≤ (high.getD p 0 : Rat) ∧ (high.getD p 0 : Rat) ≤ s.ath k 0x081D 1500) : Answers (.leakTestComplete k low high) s fun t =>
    (t.ac k).leak = (s.ac k).leak.drop 1 ∧ ((s.ac k).leak.headD 0 = 1 → HwEvent.move (U.ac k) [.idle] .armed ∈ t.po.hw) := by
  have none : ((List.range 3).filter fun p => s.leaks k (low.getD p 0) || s.leaks k (high.getD p 0)) = [] := by
    rw [List.filter_eq_nil_iff]
    intro p mem
    obtain ⟨h1, h2, h3, h4⟩ := good p (List.mem_range.mp mem)
    rw [Bool.or_eq_true, State.leaks_iff, State.leaks_iff, not_or, not_or, not_or]
    exact ⟨⟨not_lt.mpr h1, not_lt.mpr h2⟩, not_lt.mpr h3, not_lt.mpr h4⟩
  obtain ⟨wl, wh, result, act⟩ := execLeakTestComplete_eq (low := low) (high := high) few some
  rw [none] at act
  refine ⟨_, act, ?_⟩
  rw [if_neg (by decide)]
  split
  · refine ⟨?_, fun _ => State.mem_hw_finishOp (State.hwMove_pending ..) ..⟩
    rw [State.ac_finishOp, (State.hwMove_kept ..).frame.ac rfl]
    exact State.leak_done s wl wh
  · next other =>
    refine ⟨?_, fun arm => absurd arm other⟩
    rw [State.ac_finishOp]
    exact State.leak_done s wl wh

/-- A gate out of its window latches its leg. -/
theorem State.leak_found {low high : List Nat} {p : Nat} (few : k < 4) (some : (s.ac k).leak ≠ []) (leg : p < 3) (free : s.actLatch (3 * k + p) = 0)
    (out : (low.getD p 0 : Rat) < s.ath k 0x081C 20 ∨ s.ath k 0x081D 1500 < (high.getD p 0 : Rat)) :
    Answers (.leakTestComplete k low high) s fun t => t.actLatch (3 * k + p) = 4 := by
  have mem : p ∈ (List.range 3).filter fun p => s.leaks k (low.getD p 0) || s.leaks k (high.getD p 0) := by
    refine List.mem_filter.mpr ⟨List.mem_range.mpr leg, ?_⟩
    rw [Bool.or_eq_true, State.leaks_iff, State.leaks_iff]
    exact out.imp .inl .inr
  obtain ⟨wl, wh, result, act⟩ := execLeakTestComplete_eq (low := low) (high := high) few some
  have bad : ((List.range 3).filter fun p => s.leaks k (low.getD p 0) || s.leaks k (high.getD p 0)).isEmpty = false :=
    List.isEmpty_eq_false_iff.mpr (List.ne_nil_of_mem mem)
  refine ⟨_, act, ?_⟩
  rw [bad, if_pos (by rfl)]
  exact State.each_latchAct mem (List.nodup_range.filter _) 4 _ free

/-! ### VACT and ACT_EN -/

/-- A loop in which channel k, in its state of record, fails leaves k's fault pending. -/
theorem State.each_fails {g : State → Nat → State} {l : List Nat} (mem : k ∈ l) (ust : ∀ t y, (g t y).ust (U.ac k) = t.ust (U.ac k))
    (make : ∀ t, t.ust (U.ac k) = s.ust (U.ac k) → HwEvent.fault (U.ac k) ∈ (g t k).po.hw)
    (keep : ∀ t y, HwEvent.fault (U.ac k) ∈ t.po.hw → HwEvent.fault (U.ac k) ∈ (g t y).po.hw) : HwEvent.fault (U.ac k) ∈ (s.each l g).po.hw := by
  have fails : (s.each l g).ust (U.ac k) = s.ust (U.ac k) → HwEvent.fault (U.ac k) ∈ (s.each l g).po.hw :=
    State.each_makes (P := fun t => t.ust (U.ac k) = s.ust (U.ac k) → HwEvent.fault (U.ac k) ∈ t.po.hw) mem
      (fun t same => make t ((ust t k).symm.trans same)) (fun t y h same => keep t y (h ((ust t y).symm.trans same))) s
  exact fails (State.each_ust ust l s)

theorem State.ust_actFail (s : State) (j c pos : Nat) (framed : Bool) (u : Nat) : (s.actFail j c pos framed).ust u = s.ust u :=
  (State.actFail_kept ..).frame.ust rfl u

theorem State.ust_acOff (s : State) (j u : Nat) : (s.acOff j).ust u = s.ust u := (State.acOff_kept s j).frame.ust rfl u

theorem UState.live_of_active {st : UState} (on : st.active = true) : st.live = true :=
  match st, on with
  | .armed, _ | .running, _ | .stopping, _ => rfl

theorem State.po_acOff (s : State) (j : Nat) : (s.acOff j).po = s.po := (State.acOff_kept s j).frame.same .po rfl

/-- An active channel above the limit of VACT goes off with its fault. -/
def State.vactOver (s : State) (k : Nat) : State := if (s.ust (U.ac k)).active then (s.acOff k).actFail k 6 0xFF else s

/-- A channel that runs below the limit of VACT fails. -/
def State.vactUnder (s : State) (k : Nat) : State :=
  if s.ust (U.ac k) = .running ∨ s.ust (U.ac k) = .stopping then s.actFail k 7 0xFF else s

theorem State.vactOver_ust (s : State) (j u : Nat) : (s.vactOver j).ust u = s.ust u := by
  unfold State.vactOver
  split
  · rw [State.ust_actFail, State.ust_acOff]
  · rfl

theorem State.vactUnder_ust (s : State) (j u : Nat) : (s.vactUnder j).ust u = s.ust u := by
  unfold State.vactUnder
  split
  · rw [State.ust_actFail]
  · rfl

theorem State.vactOver_reg (s : State) (j : Nat) : (s.vactOver j).reg R.ACT_VACT = s.reg R.ACT_VACT := by
  unfold State.vactOver
  split
  · rw [(State.actFail_kept ..).frame.reg_apart rfl, (State.acOff_kept ..).frame.reg_apart rfl]
  · rfl

theorem State.vactUnder_reg (s : State) (j : Nat) : (s.vactUnder j).reg R.ACT_VACT = s.reg R.ACT_VACT := by
  unfold State.vactUnder
  split
  · rw [(State.actFail_kept ..).frame.reg_apart rfl]
  · rfl

theorem State.mem_hw_vactOver {e : HwEvent} (h : e ∈ s.po.hw) (j : Nat) : e ∈ (s.vactOver j).po.hw := by
  unfold State.vactOver
  split
  · exact State.mem_hw_actFail (by rw [State.po_acOff]; exact h) ..
  · exact h

theorem State.mem_hw_vactUnder {e : HwEvent} (h : e ∈ s.po.hw) (j : Nat) : e ∈ (s.vactUnder j).po.hw := by
  unfold State.vactUnder
  split
  · exact State.mem_hw_actFail h ..
  · exact h

/-- The channels whose VACT is watched. -/
def State.vactOf (s : State) : List Nat := (List.range 4).filter fun k => s.ust (U.ac k) ≠ .off && s.ust (U.ac k) ≠ .absent

/-- VACT shown, and the channels above its limit off. -/
def State.vactHigh (s : State) (mv : Nat) : State :=
  if s.vactOf.any fun k => decide (100 * s.ath k 0x080E 580 < (mv : Rat)) then
    ((s.setFld R.ACT_VACT F.ACT_VACT_MV (satU 16 mv)).setFlag R.ACT_EVT F.ACT_EVT_VOV).each s.vactOf State.vactOver
  else s.setFld R.ACT_VACT F.ACT_VACT_MV (satU 16 mv)

/-- The channels below the limit of VACT. -/
def State.vactLow (s : State) (mv : Nat) : List Nat := s.vactOf.filter fun k => decide ((mv : Rat) < 100 * s.ath k 0x080F 100)

theorem execVactFault_eq (mv : Nat) : execVactFault mv s = .next
    ((if (s.vactLow mv).isEmpty then s.vactHigh mv else (s.vactHigh mv).setFlag R.ACT_EVT F.ACT_EVT_VUV).each (s.vactLow mv) State.vactUnder) := rfl

theorem State.vactHigh_ust (s : State) (mv u : Nat) : (s.vactHigh mv).ust u = s.ust u := by
  unfold State.vactHigh
  split
  · exact (State.each_ust (fun t j => t.vactOver_ust j u) ..).trans rfl
  · rfl

theorem State.vactHigh_vact (s : State) (mv : Nat) : (s.vactHigh mv).fld R.ACT_VACT F.ACT_VACT_MV = satU 16 mv := by
  have put : (s.setFld R.ACT_VACT F.ACT_VACT_MV (satU 16 mv)).fld R.ACT_VACT F.ACT_VACT_MV = satU 16 mv :=
    (State.fld_setFld _ rfl _).trans (Nat.mod_eq_of_lt (satU_lt 16 mv))
  unfold State.vactHigh
  split
  · rw [State.fld, State.reg_each fun t j _ => t.vactOver_reg j, State.reg_setFlag_ne (by decide)]
    exact put
  · exact put

theorem State.vactOf_mem (low : k < 4) (off : s.ust (U.ac k) ≠ .off) (absent : s.ust (U.ac k) ≠ .absent) : k ∈ s.vactOf :=
  List.mem_filter.mpr ⟨List.mem_range.mpr low, by simp [off, absent]⟩

theorem State.vact_judged (low : k < 4) (mv : Nat) : Answers (.vactFault mv) s fun t => t.fld R.ACT_VACT F.ACT_VACT_MV = satU 16 mv ∧
    ((s.ust (U.ac k)).active = true → 100 * s.ath k 0x080E 580 < (mv : Rat) → HwEvent.fault (U.ac k) ∈ t.po.hw) ∧
    (s.ust (U.ac k) = .running ∨ s.ust (U.ac k) = .stopping → (mv : Rat) < 100 * s.ath k 0x080F 100 → HwEvent.fault (U.ac k) ∈ t.po.hw) := by
  refine ⟨_, execVactFault_eq mv, ?_⟩
  have high := s.vactHigh_ust mv (U.ac k)
  have shown := s.vactHigh_vact mv
  have top : (s.ust (U.ac k)).active = true → 100 * s.ath k 0x080E 580 < (mv : Rat) → HwEvent.fault (U.ac k) ∈ (s.vactHigh mv).po.hw := by
    intro on above
    have mem : k ∈ s.vactOf := State.vactOf_mem low (fun e => by rw [e] at on; cases on) (fun e => by rw [e] at on; cases on)
    unfold State.vactHigh
    rw [if_pos (List.any_eq_true.mpr ⟨k, mem, decide_eq_true above⟩)]
    refine State.each_fails mem (fun t y => t.vactOver_ust y _) (fun t same => ?_) (fun t y h => State.mem_hw_vactOver h y)
    have on : (t.ust (U.ac k)).active = true := by rw [same]; exact on
    unfold State.vactOver
    rw [if_pos on]
    exact State.actFail_pending (by rw [State.ust_acOff]; exact UState.live_of_active on) ..
  generalize s.vactHigh mv = u at *
  have flagged : ∃ w : State, (if (s.vactLow mv).isEmpty then u else u.setFlag R.ACT_EVT F.ACT_EVT_VUV) = w ∧ w.po = u.po ∧
      w.ust (U.ac k) = u.ust (U.ac k) ∧ w.reg R.ACT_VACT = u.reg R.ACT_VACT := by
    refine ⟨_, rfl, ?_⟩
    split
    · exact ⟨rfl, rfl, rfl⟩
    · exact ⟨rfl, rfl, State.reg_setFlag_ne (by decide) ..⟩
  obtain ⟨w, e, po, ust, vact⟩ := flagged
  rw [e]
  refine ⟨?_, fun on above => ?_, fun runs below => ?_⟩
  · rw [State.fld, State.reg_each fun t j _ => t.vactUnder_reg j, vact]
    exact shown
  · have pending : HwEvent.fault (U.ac k) ∈ w.po.hw := by rw [po]; exact top on above
    exact State.each_holds (P := fun t => HwEvent.fault (U.ac k) ∈ t.po.hw) (fun t y h => State.mem_hw_vactUnder h y) _ w pending
  · have mem : k ∈ s.vactLow mv := by
      refine List.mem_filter.mpr ⟨State.vactOf_mem low ?_ ?_, decide_eq_true below⟩ <;> rintro e <;> rw [e] at runs <;> simp at runs
    refine State.each_fails mem (fun t y => t.vactUnder_ust y _) (fun t same => ?_) (fun t y h => State.mem_hw_vactUnder h y)
    have here : t.ust (U.ac k) = .running ∨ t.ust (U.ac k) = .stopping := by rw [same, ust, high]; exact runs
    unfold State.vactUnder
    rw [if_pos here]
    exact State.actFail_pending (by rcases here with e | e <;> rw [e] <;> rfl) ..

/-- A channel at rest, its bootstraps to be charged again. -/
def State.actRest (s : State) (k : Nat) : State :=
  ((s.acOff k).setFld (R.ACk_STATE k) F.ACk_STATE_ATTEMPT 0).updAc k fun a => { a with charge := true }

theorem State.actRest_phase (s : State) (k : Nat) : (s.actRest k).acPhase k = 0 := by
  have zero (t : State) : (t.setFld (R.ACk_STATE k) F.ACk_STATE_ATTEMPT 0).acPhase k = t.acPhase k := State.fld_setFld_apart _ _ rfl rfl rfl _
  rw [State.actRest, State.acPhase_updAc, zero, State.acPhase_acOff]

theorem State.actRest_charge (s : State) (k : Nat) : ((s.actRest k).ac k).charge = true := by rw [State.actRest, State.ac_updAc]

theorem execActStopComplete_eq (low : k < 4) (stops : s.ust (U.ac k) = .stopping)
    (slow : ¬s.ath k 0x081B 100 ≤ (absI (s.sfld (R.ACk_SPD k) F.ACk_SPD_SPEED) : Rat)) : execActStopComplete k s =
    .next ((((s.actRest k).hwMove (U.ac k) [.stopping] .armed).finishOp (U.ac k) 0x0804 .done []).finishOp (U.ac k) 0x0802 .eAborted []) := by
  unfold execActStopComplete State.actRest
  rw [if_neg]
  simp [isAc_channel s low, stops, slow]

theorem State.act_stopped (low : k < 4) (stops : s.ust (U.ac k) = .stopping)
    (slow : ¬s.ath k 0x081B 100 ≤ (absI (s.sfld (R.ACk_SPD k) F.ACk_SPD_SPEED) : Rat)) : Answers (.actStopComplete k) s fun t =>
    t.acPhase k = 0 ∧ (t.ac k).charge = true ∧ HwEvent.move (U.ac k) [.stopping] .armed ∈ t.po.hw := by
  have act := execActStopComplete_eq low stops slow
  have phase := s.actRest_phase k
  have charge := s.actRest_charge k
  refine ⟨_, act, ?_⟩
  generalize s.actRest k = w at *
  have done (t : State) (o : Nat) (st : Status) (l : List Byte) : (t.finishOp (U.ac k) o st l).acPhase k = t.acPhase k :=
    (State.finishOp_kept ..).frame.fld_apart rfl _
  have moved (t : State) (l : List UState) (d : UState) : (t.hwMove (U.ac k) l d).acPhase k = t.acPhase k :=
    (State.hwMove_kept ..).frame.fld_apart rfl _
  refine ⟨?_, ?_, State.mem_hw_finishOp (State.mem_hw_finishOp (State.hwMove_pending ..) ..) ..⟩
  · rw [done, done, moved]; exact phase
  · rw [State.ac_finishOp, State.ac_finishOp, (State.hwMove_kept ..).frame.ac rfl]; exact charge

/-- What the fall of ACT_EN makes of one channel. -/
def State.enOff (s : State) (k : Nat) : State := if (s.ust (U.ac k)).active then s.actFail k 2 0xFF else s

theorem State.enOff_kept (s : State) (k : Nat) : Kept [.po, .act, .gbx, .ldg, .ssm, .tick, .reg .ACk_STATE, .reg .ACk_EVT, .reg .ACk_FLT, .reg .GBX_EVT,
    .reg .GBX_FLT] s (s.enOff k) := .ite (State.actFail_kept ..) (.refl ..)

/-- The enable input low, before its channels fail. -/
def State.enLow (s : State) : State := (({ s with actEn := false } : State).clrFlag R.ACT_STAT F.ACT_STAT_EN).setFlag R.ACT_EVT F.ACT_EVT_EN_LOW

theorem execActEnFall_eq (on : s.actEn = true) : execActEnFall s = .next (s.enLow.each (List.range 4) State.enOff) := by
  unfold execActEnFall State.enLow
  rw [on, Bool.not_true, if_neg Bool.false_ne_true]
  rfl

theorem State.enLow_fields (s : State) : s.enLow.actEn = false ∧ s.enLow.flag R.ACT_STAT F.ACT_STAT_EN = false ∧
    s.enLow.flag R.ACT_EVT F.ACT_EVT_EN_LOW = true := by
  refine ⟨rfl, ?_, State.flag_setFlag _ rfl⟩
  rw [State.enLow, State.flag, State.setFlag, State.fld_setFld_ne (by decide)]
  exact State.flag_clrFlag _ rfl

theorem State.enLow_ust (s : State) (u : Nat) : s.enLow.ust u = s.ust u := by
  unfold State.enLow
  rw [(State.setFlag_kept .ACT_EVT ..).frame.ust rfl, (State.clrFlag_kept .ACT_STAT ..).frame.ust rfl]
  rfl

theorem State.en_fell (low : k < 4) (on : s.actEn = true) : Answers .actEnFall s fun t => t.actEn = false ∧ t.flag R.ACT_STAT F.ACT_STAT_EN = false ∧
    t.flag R.ACT_EVT F.ACT_EVT_EN_LOW = true ∧ ((s.ust (U.ac k)).active = true → HwEvent.fault (U.ac k) ∈ t.po.hw) := by
  obtain ⟨en, stat, evt⟩ := s.enLow_fields
  have ust := s.enLow_ust (U.ac k)
  refine ⟨_, execActEnFall_eq on, ?_⟩
  generalize s.enLow = u at *
  have kept := Kept.each (l := List.range 4) (fun t j => State.enOff_kept t j) (.refl _ u)
  refine ⟨(kept.frame.same .actEn rfl).trans en, (kept.frame.flag_apart rfl _).trans stat, (kept.frame.flag_apart rfl _).trans evt, fun live => ?_⟩
  refine State.each_fails (List.mem_range.mpr low) (fun t y => (t.enOff_kept y).frame.ust rfl _) (fun t same => ?_) (fun t y h => ?_)
  · have on : (t.ust (U.ac k)).active = true := by rw [same, ust]; exact live
    unfold State.enOff
    rw [if_pos on]
    exact State.actFail_pending (UState.live_of_active on) ..
  · unfold State.enOff
    split
    · exact State.mem_hw_actFail h ..
    · exact h

/-- ACT_EN high, before the latches that it clears. -/
def State.enHigh (s : State) : State := ({ s with actEn := true } : State).setFlag R.ACT_STAT F.ACT_STAT_EN

/-- The legs whose latch goes with ACT_EN. -/
def State.enGone (s : State) (loud : List Nat) : List Nat := (s.pads.actCause.filter fun p => !(p.2 == 1 && loud.contains p.1)).map (·.1)

/-- The cause of one leg's latch gone. -/
def State.unlatch (s : State) (n : Nat) : State := { s with pads := { s.pads with actCause := FMap.erase s.pads.actCause n } }

theorem execActEnRise_eq (low : Nat) (loud : List Nat) (off : s.actEn = false) : ∃ u : State, Kept [.tick] s.enHigh u ∧ (20000 ≤ low → u = s.enHigh) ∧
    execActEnRise low loud s = .next (if (!(20000 ≤ low || (18000 ≤ low && s.enHigh.draw.1 % 2 == 1))) = true ∨ (s.enGone loud).isEmpty = true then u
      else (u.each (s.enGone loud) State.unlatch).syncActLatch.setFlag R.ACT_EVT F.ACT_EVT_CLEARED) := by
  refine ⟨if 18000 ≤ low ∧ low < 20000 then s.enHigh.draw.2 else s.enHigh, ?_, fun high => if_neg (by omega), ?_⟩
  · split
    · exact State.draw_kept _
    · exact .refl ..
  · unfold execActEnRise
    rw [off, if_neg Bool.false_ne_true]
    rfl

theorem State.each_unlatch_actEn (l : List Nat) (s : State) : (s.each l State.unlatch).actEn = s.actEn :=
  State.each_keeps (read := fun t => t.actEn) (g := State.unlatch) (fun _ _ => rfl) l s

theorem State.actLatch_unlatch (s : State) (j : Nat) : (s.unlatch j).actLatch n = if n = j then 0 else s.actLatch n := by
  unfold State.actLatch State.unlatch
  split
  · next e => subst e; exact FMap.get_erase_same
  · next ne => exact FMap.get_erase_ne ne

/-- A latch gone stays gone. -/
theorem State.each_unlatch (l : List Nat) : ∀ s : State, n ∈ l ∨ s.actLatch n = 0 → (s.each l State.unlatch).actLatch n = 0 := by
  induction l with
  | nil => exact fun s h => h.resolve_left List.not_mem_nil
  | cons x l ih =>
    refine fun s h => ih _ ?_
    rw [State.actLatch_unlatch]
    by_cases e : n = x
    · exact .inr (if_pos e)
    · rw [if_neg e]
      exact h.imp_left fun mem => (List.mem_cons.mp mem).resolve_left e

theorem FMap.get_of_not_mem {α : Type} {d : Nat → α} {l : FMap α} (out : n ∉ l.map (·.1)) : FMap.get d l n = d n := by
  induction l with
  | nil => rfl
  | cons p l ih =>
    rw [List.map_cons, List.mem_cons, not_or] at out
    rw [FMap.get, if_neg out.1]
    exact ih out.2

/-- A leg that is not loud is among those that go, or has no latch. -/
theorem State.enGone_mem {loud : List Nat} (quiet : loud.contains n = false) : n ∈ s.enGone loud ∨ s.actLatch n = 0 := by
  by_cases held : n ∈ s.pads.actCause.map (·.1)
  · obtain ⟨p, mem, rfl⟩ := List.mem_map.mp held
    exact .inl (List.mem_map_of_mem (List.mem_filter.mpr ⟨mem, by rw [quiet]; simp⟩))
  · exact .inr (FMap.get_of_not_mem held)

theorem State.enHigh_same (s : State) : s.enHigh.actEn = true ∧ s.enHigh.pads = s.pads := by
  unfold State.enHigh
  rw [(State.setFlag_kept .ACT_STAT ..).frame.same .actEn rfl, (State.setFlag_kept .ACT_STAT ..).frame.same .pads rfl]
  exact ⟨rfl, rfl⟩

theorem State.enHigh_stat (s : State) : s.enHigh.flag R.ACT_STAT F.ACT_STAT_EN = true := State.flag_setFlag _ rfl

theorem State.each_unlatch_stat (l : List Nat) (s : State) : (s.each l State.unlatch).flag R.ACT_STAT F.ACT_STAT_EN = s.flag R.ACT_STAT F.ACT_STAT_EN :=
  State.each_keeps (read := fun t => t.flag R.ACT_STAT F.ACT_STAT_EN) (g := State.unlatch) (fun _ _ => rfl) l s

theorem State.syncActLatch_stat (s : State) : s.syncActLatch.flag R.ACT_STAT F.ACT_STAT_EN = s.flag R.ACT_STAT F.ACT_STAT_EN := by
  unfold State.syncActLatch
  dsimp only
  rw [State.flag, State.fld_setFld_apart _ _ rfl rfl rfl, State.fld,
    State.reg_each fun t j mem => State.reg_setFld_ne (by simp only [R.ACT_STAT, R.ACk_LATCH]; omega) ..]
  rfl

theorem State.en_rose (low : Nat) (loud : List Nat) (n : Nat) (off : s.actEn = false) : Answers (.actEnRise low loud) s fun t => t.actEn = true ∧
    t.flag R.ACT_STAT F.ACT_STAT_EN = true ∧ (20000 ≤ low → loud.contains n = false → t.actLatch n = 0) := by
  obtain ⟨u, kept, same, act⟩ := execActEnRise_eq low loud off
  have en : u.actEn = true := (kept.frame.same .actEn rfl).trans s.enHigh_same.1
  have stat : u.flag R.ACT_STAT F.ACT_STAT_EN = true := (kept.frame.flag_apart rfl _).trans s.enHigh_stat
  have latch : u.actLatch n = s.actLatch n := by
    have pads : u.pads = s.pads := (kept.frame.same .pads rfl).trans s.enHigh_same.2
    rw [State.actLatch, pads, State.actLatch]
  refine ⟨_, act, ?_⟩
  split
  · next stays =>
    refine ⟨en, stat, fun high quiet => ?_⟩
    rw [latch]
    have none : (s.enGone loud).isEmpty = true := stays.resolve_left (by simp [high])
    have mem := State.enGone_mem (s := s) quiet
    rw [List.isEmpty_iff.mp none] at mem
    exact mem.resolve_left List.not_mem_nil
  · refine ⟨?_, ?_, fun _ quiet => ?_⟩
    · rw [(State.setFlag_kept .ACT_EVT ..).frame.same .actEn rfl, (State.syncActLatch_kept _).frame.same .actEn rfl, State.each_unlatch_actEn]
      exact en
    · rw [State.flag, State.setFlag, State.fld_setFld_ne (by decide)]
      exact (State.syncActLatch_stat _).trans ((State.each_unlatch_stat ..).trans stat)
    · have pads (t : State) : (t.syncActLatch.setFlag R.ACT_EVT F.ACT_EVT_CLEARED).pads = t.pads :=
        ((State.setFlag_kept .ACT_EVT ..).frame.same .pads rfl).trans ((State.syncActLatch_kept t).frame.same .pads rfl)
      rw [State.actLatch, pads]
      exact State.each_unlatch _ u (by rw [latch]; exact State.enGone_mem quiet)

/-- Settles O39: each event at its channel, by the phase, the latches and the faults that it leaves. -/
theorem actuatorEvents : Obligations.ActuatorEvents := by
  intro s k low
  refine ⟨fun m => State.act_sampled low, fun o => State.start_phases, fun v => State.brake_pulse v, fun v live brakes => ?pulse,
    fun rpm live ramps fast => ?lock, State.start_retried, State.start_fails low, State.start_again,
    fun p leg on => ⟨State.boot_refreshed leg low on, State.boot_latched leg low on⟩, fun p c leg => State.leg_latched leg low,
    fun lo hi _ => State.leak_passed low, fun lo hi p _ => State.leak_found low, State.vact_judged low, fun _ => State.act_stopped low,
    State.en_fell low, fun lo loud n => State.en_rose lo loud n⟩
  case pulse =>
    refine ⟨_, congrArg Host.Outcome.next ((if_neg (by simp [live, brakes])).trans (if_pos (by decide))), ?_⟩
    dsimp only
    rw [State.ac_updAc]
  case lock =>
    exact ⟨_, congrArg Host.Outcome.next (if_pos ⟨live, ramps, fast⟩), State.acPhase_acRun ..⟩

end Sys2Proof.Machine
end

section
/-!
A stall, and the events of the gearbox sequencer (chapter 10).
-/
namespace Sys2Proof.Machine

variable {s : State} {k mech : Nat}

/-! ### What ends an operation -/

theorem State.gbx_moveTo_acAim (s : State) (m : Nat) (goal : Int) (lim : Nat) (hold now : Bool) : (s.acAim m goal lim hold now).gbx = s.gbx :=
  (State.acAim_kept ..).frame.same .gbx rfl

/-- The record that a move begins with. -/
theorem State.moveBegin_gbx (s : State) (m to_ : Nat) : (s.moveBegin m to_).gbx =
    { s.gbx with moveTo := to_, moveAt := s.time, left := false, blocked := false, parkWait := false } := by
  unfold State.moveBegin
  rw [State.gbx_moveTo_acAim]
  rfl

theorem State.gbxSettle_fields (s : State) : s.gbxSettle.gbxOp = s.gbxOp ∧ s.gbxSettle.gbxPhase = s.gbxPhase ∧
    s.gbxSettle.flag R.GBX_EVT F.GBX_EVT_DONE = s.flag R.GBX_EVT F.GBX_EVT_DONE := by
  unfold State.gbxSettle
  split
  · have kept : Kept [.po] s ((s.hwMove U.gbx [.stopping] .idle).finishOp U.gbx 0x0902 .done []) := .via (State.finishOp_kept ..) rfl (State.hwMove_kept ..)
    exact ⟨kept.frame.fld_apart rfl _, kept.frame.fld_apart rfl _, kept.frame.flag_apart rfl _⟩
  · exact ⟨rfl, rfl, rfl⟩

/-- An operation that ends leaves none, and says so. -/
theorem State.gbxEnd_done (s : State) : s.gbxEnd.gbxOp = 0 ∧ s.gbxEnd.gbxPhase = 0 ∧ s.gbxEnd.flag R.GBX_EVT F.GBX_EVT_DONE = true := by
  have closed (t : State) : (((t.setFld R.GBX_STATE F.GBX_STATE_OP 0).setFld R.GBX_STATE F.GBX_STATE_PHASE 0).setFlag R.GBX_EVT F.GBX_EVT_DONE).gbxSettle.gbxOp = 0 ∧
      (((t.setFld R.GBX_STATE F.GBX_STATE_OP 0).setFld R.GBX_STATE F.GBX_STATE_PHASE 0).setFlag R.GBX_EVT F.GBX_EVT_DONE).gbxSettle.gbxPhase = 0 ∧
      (((t.setFld R.GBX_STATE F.GBX_STATE_OP 0).setFld R.GBX_STATE F.GBX_STATE_PHASE 0).setFlag R.GBX_EVT F.GBX_EVT_DONE).gbxSettle.flag R.GBX_EVT
        F.GBX_EVT_DONE = true := by
    obtain ⟨op, phase, done⟩ := State.gbxSettle_fields
      (((t.setFld R.GBX_STATE F.GBX_STATE_OP 0).setFld R.GBX_STATE F.GBX_STATE_PHASE 0).setFlag R.GBX_EVT F.GBX_EVT_DONE)
    rw [op, phase, done]
    refine ⟨?_, ?_, State.flag_setFlag _ rfl⟩
    · rw [State.gbxOp, State.setFlag, State.fld_setFld_ne (by decide), State.fld_setFld_apart _ _ rfl rfl rfl, State.fld_setFld _ rfl]
      rfl
    · rw [State.gbxPhase, State.setFlag, State.fld_setFld_ne (by decide), State.fld_setFld _ rfl]
      rfl
  exact closed _

/-! ### A fault of the sequencer -/

theorem State.gbxFail_live (live : (s.ust U.gbx).live = true) (c : Nat) : HwEvent.fault U.gbx ∈ (s.gbxFail c).po.hw ∧ (s.gbxFail c).gbx.moveTo = 0 := by
  have here : s.ust U.gbx ≠ .fault := fun e => by rw [e] at live; cases live
  rw [State.gbxFail_eq, live, if_neg (by simp), if_neg here]
  refine ⟨State.hwFault_pending .., ?_⟩
  unfold State.gbxDown
  rw [(State.hwFault_kept ..).frame.same .gbx rfl]
  rfl

/-! ### A stall -/

/-- The registers of a channel's settings, apart from its state, its events and its causes. -/
theorem State.acOwned_congr {t : State} (h : t.reg (R.ACk_CFG k) = s.reg (R.ACk_CFG k)) : t.acOwned k = s.acOwned k := by
  rw [State.acOwned, State.flag, State.fld, h]
  rfl

theorem State.reg_actFailed {a : Nat} (ne : a ≠ R.ACk_STATE k) (s : State) (framed : Bool) : ((s.actDown k framed).hwFault (U.ac k)).reg a = s.reg a := by
  rw [(State.hwFault_kept ..).frame.reg_apart rfl, (State.actDown_kept ..).frame.reg_apart rfl, State.reg_actIdle ne]

/-- A channel of its own that fails: its other events as they stood. -/
theorem State.actFail_stall (own : s.acOwned k = false) (live : (s.ust (U.ac k)).live = true) (c pos : Nat) :
    (s.actFail k c pos).flag (R.ACk_EVT k) F.ACk_EVT_STALL = s.flag (R.ACk_EVT k) F.ACk_EVT_STALL := by
  have cfgState : R.ACk_CFG k ≠ R.ACk_STATE k := by simp only [R.ACk_CFG, R.ACk_STATE]; omega
  have cfgEvt : R.ACk_CFG k ≠ R.ACk_EVT k := by simp only [R.ACk_CFG, R.ACk_EVT]; omega
  have cfgFlt : R.ACk_CFG k ≠ R.ACk_FLT k := by simp only [R.ACk_CFG, R.ACk_FLT]; omega
  have evtState : R.ACk_EVT k ≠ R.ACk_STATE k := by simp only [R.ACk_EVT, R.ACk_STATE]; omega
  have evtFlt : R.ACk_EVT k ≠ R.ACk_FLT k := by simp only [R.ACk_EVT, R.ACk_FLT]; omega
  have marked : (s.actMark k c pos).reg (R.ACk_CFG k) = s.reg (R.ACk_CFG k) := by
    rw [State.actMark, State.reg_setFld_ne cfgState, State.reg_updAc, State.acEvt, State.reg_setFlag_ne cfgEvt, State.reg_setBit_ne cfgFlt]
  have alone : (((s.actMark k c pos).actDown k false).hwFault (U.ac k)).acOwned k = false :=
    (State.acOwned_congr ((State.reg_actFailed cfgState ..).trans marked)).trans own
  rw [State.actFail_live live, State.gbxShares, alone, if_neg (by simp), State.flag, State.fld, State.reg_actFailed evtState]
  have state : (s.actMark k c pos).reg (R.ACk_EVT k) =
      ((s.setBit (R.ACk_FLT k) F.ACk_FLT_CAUSE (c - 1)).setFlag (R.ACk_EVT k) F.ACk_EVT_FAULT).reg (R.ACk_EVT k) := by
    rw [State.actMark, State.reg_setFld_ne evtState, State.reg_updAc, State.acEvt]
  have fault : ((s.setBit (R.ACk_FLT k) F.ACk_FLT_CAUSE (c - 1)).setFlag (R.ACk_EVT k) F.ACk_EVT_FAULT).fld (R.ACk_EVT k) F.ACk_EVT_STALL =
      s.fld (R.ACk_EVT k) F.ACk_EVT_STALL := by
    rw [State.setFlag, State.fld_setFld_apart _ _ rfl rfl rfl, State.fld, State.reg_setBit_ne evtFlt]
    rfl
  rw [state]
  exact congrArg (· != 0) fault

/-- The event of a stall and its flag of the epoch. -/
def State.actStalled (s : State) (k : Nat) : State := (s.acEvt k F.ACk_EVT_STALL).acFlag k 3

theorem execActStall_eq (low : k < 4) (phase : s.acPhase k = 6)
    (slow : ¬s.ath k 0x0817 50 ≤ (absI (s.sfld (R.ACk_SPD k) F.ACk_SPD_SPEED) : Rat)) : execActStall k s =
    .next (if (s.actStalled k).acOwned k then (s.actStalled k).gbxBlock k else (s.actStalled k).actFail k 5 0xFF) := by
  unfold execActStall
  exact congrArg Host.Outcome.next (if_neg (by simp [isAc_channel s low, phase, slow]))

theorem State.channel_stalls (low : k < 4) (phase : s.acPhase k = 6)
    (slow : ¬s.ath k 0x0817 50 ≤ (absI (s.sfld (R.ACk_SPD k) F.ACk_SPD_SPEED) : Rat)) (own : s.acOwned k = false)
    (live : (s.ust (U.ac k)).live = true) :
    Answers (.actStall k) s fun t => t.flag (R.ACk_EVT k) F.ACk_EVT_STALL = true ∧ HwEvent.fault (U.ac k) ∈ t.po.hw := by
  have cfgEvt : R.ACk_CFG k ≠ R.ACk_EVT k := by simp only [R.ACk_CFG, R.ACk_EVT]; omega
  have alone : (s.actStalled k).acOwned k = false := by
    refine (State.acOwned_congr ?_).trans own
    rw [State.actStalled, State.acFlag, State.reg_updAc]
    exact State.reg_setFlag_ne cfgEvt ..
  have flagged : (s.actStalled k).flag (R.ACk_EVT k) F.ACk_EVT_STALL = true := by
    rw [State.actStalled, State.acFlag, State.flag, State.fld_updAc]
    exact State.flag_setFlag _ rfl
  have lives : ((s.actStalled k).ust (U.ac k)).live = true := live
  refine ⟨_, execActStall_eq low phase slow, ?_⟩
  rw [alone, if_neg (by simp)]
  exact ⟨(State.actFail_stall alone lives ..).trans flagged, State.actFail_pending lives ..⟩

/-! ### Moves -/

theorem State.target_reached (op : s.gbxOp = 2) (same : s.gbx.mech = mech) (moves : s.gbx.moveTo ≠ 0) (there : s.gbxReport mech = s.gbx.moveTo) :
    Answers (.moveTargetReached mech) s fun t => t.gbxOp = 0 ∧ t.flag R.GBX_EVT F.GBX_EVT_DONE = true := by
  have ends : s.gbxReached = s.gbxEnd := by
    unfold State.gbxReached
    rw [op]
    rfl
  obtain ⟨none, _, done⟩ := s.gbxEnd_done
  exact ⟨_, congrArg Host.Outcome.next ((if_neg (by simp [op, same, moves, there])).trans ends), none, done⟩

theorem State.move_timed_out (op : s.gbxOp ≠ 0) (same : s.gbx.mech = mech) (moves : s.gbx.moveTo ≠ 0) (waits : s.gbx.parkWait = false)
    (lost : s.gbxReport mech = 0) (live : (s.ust U.gbx).live = true) :
    Answers (.moveTimeout mech) s fun t => HwEvent.fault U.gbx ∈ t.po.hw ∧ t.gbx.moveTo = 0 := by
  have act : execMoveTimeout mech s = .next (s.gbxFail 3) :=
    congrArg Host.Outcome.next ((if_neg (by simp [op, same, moves, waits, lost, moves.symm])).trans (if_pos (.inr lost)))
  exact ⟨_, act, State.gbxFail_live live 3⟩

theorem State.gbxPhase_moveBegin (few : mech < 3) (s : State) (to_ : Nat) : (s.moveBegin mech to_).gbxPhase = s.gbxPhase := by
  have apart : R.GBX_STATE ≠ R.ACk_STATE mech := by simp only [R.GBX_STATE, R.ACk_STATE]; omega
  unfold State.moveBegin
  exact congrArg (getF · _) (State.reg_acAim apart ..)

theorem State.gbxPhase_gbxGo {p : Nat} (few : p < 16) (s : State) : (s.gbxGo p).gbxPhase = p := by
  have entered (t : State) (g : GbxSt → GbxSt) : (t.updGb g).gbxPhase = t.gbxPhase := rfl
  rw [State.gbxGo, entered, State.gbxPhase, State.fld_setFld _ rfl]
  exact Nat.mod_eq_of_lt few

theorem State.synchronised (few : s.gbx.mech < 3) (phase : s.gbxPhase = 3) (runs : s.machRuns s.gbx.mech = true)
    (down : -(s.gt 0x0934 30) ≤ s.nSync - s.machRpm ((s.gbxMachine s.gbx.mech).getD 0xFF))
    (up : s.nSync - s.machRpm ((s.gbxMachine s.gbx.mech).getD 0xFF) ≤ s.gt 0x0934 30) :
    Answers .shiftPhaseEnd s fun t => t.gbxPhase = 4 ∧ t.gbx.moveTo = s.gbx.target := by
  have act : execShiftPhaseEnd s = .next ((s.gbxGo 4).moveBegin s.gbx.mech s.gbx.target) := by
    unfold execShiftPhaseEnd
    rw [phase]
    exact congrArg Host.Outcome.next ((if_neg (by simp [runs])).trans (if_pos ⟨down, up⟩))
  refine ⟨_, act, ?_, ?_⟩
  · rw [State.gbxPhase_moveBegin few, State.gbxPhase_gbxGo (by decide)]
  · rw [State.moveBegin_gbx]

/-- A blocked engagement is tried again. -/
theorem State.butt_retried (op : s.gbxOp ≠ 0) (phase : s.gbxPhase = 4) (blocked : s.gbx.blocked = true) :
    Answers .buttRetry s fun t => t.gbx.blocked = false ∧ t.gbx.moveTo = s.gbx.target := by
  refine ⟨_, congrArg Host.Outcome.next (if_pos ⟨op, phase, blocked⟩), ?_⟩
  dsimp only
  rw [State.moveBegin_gbx]
  exact ⟨rfl, rfl⟩

theorem State.park_not_reached (op : s.gbxOp = 2) (waits : s.gbx.parkWait = true) (parks : s.gbx.moveTo = 1) (out : s.gbxReport 1 ≠ 1) :
    Answers .parkWaitExpiry s fun t => t.gbx.parkWait = false ∧ t.gbx.moveTo = 2 ∧ t.gbx.final = .eInterlock := by
  refine ⟨_, congrArg Host.Outcome.next (if_pos ⟨op, waits, parks, out⟩), ?_⟩
  dsimp only
  rw [State.moveBegin_gbx]
  exact ⟨rfl, rfl, rfl⟩

theorem State.sync_timed_out (op : s.gbxOp ≠ 0) (phase : s.gbxPhase = 3) : Answers .syncTimeExpiry s fun t => t.gbxOp = 0 ∧ t.gbxPhase = 0 := by
  obtain ⟨none, rest, _⟩ := s.gbxInterlock.gbxEnd_done
  exact ⟨_, congrArg Host.Outcome.next (if_pos ⟨op, phase⟩), none, rest⟩

/-- Settles O40: event by event, each under the condition that its definition tests. -/
theorem gearboxEvents : Obligations.GearboxEvents := fun _ _ _ low =>
  ⟨fun _ => State.channel_stalls low, State.target_reached, State.move_timed_out, State.synchronised, State.butt_retried,
    State.park_not_reached, State.sync_timed_out⟩

end Sys2Proof.Machine
end

section
/-!
The memories, the non-volatile store and the journal (chapter 17).
-/
namespace Sys2Proof.Machine

/-- A structure whose TABLES section begins at byte 1 of its slot, so that no table's data begins at a codeword. -/
def crookedImage : Image where
  header := List.replicate 180 0 ++ [1, 0, 0, 0]
  units := []
  legs := []
  loops := []
  sched := []
  ledger := []
  threshs := []
  pins := []
  tables := [⟨List.replicate 32 0, List.replicate 32 0⟩]

/-- That structure in force, and one byte of the MRAM codeword before the table's data that is not zero. -/
def tableCrooked : State := { State.reset with img := some crookedImage, mem := [(0x60000020, 1)] }

/-- The table's data begins at the second byte of that codeword. -/
theorem tableCrooked_source : tableCrooked.tableSource 0 = some 0x60000021 := by decide +kernel

/-- The codeword as a whole is what the restore writes. -/
theorem tableCrooked_restored : ∀ t, exec (.tableRestore 0 []) tableCrooked = .next t → t.byte 0x28000000 = 1 := by
  intro t run
  obtain rfl := Host.Outcome.next.inj run
  decide +kernel

/-- Refutes O41: with table data that does not begin at a codeword of the MRAM, TABLE_RESTORE writes the bytes of the codeword that the
data begins in, and not those from the data's own beginning. -/
theorem not_memoryCommands : ¬ Obligations.MemoryCommands := by
  intro h
  obtain ⟨-, -, -, -, -, -, -, restored, -⟩ := h tableCrooked 0 0 0 0 0 [] 0
  obtain ⟨t, run, data, -⟩ := restored 0x60000021 tableCrooked_source (by decide +kernel)
  have first : t.byte 0x28000000 = tableCrooked.memByte 0x60000021 := data 0 (by decide)
  rw [tableCrooked_restored t run] at first
  exact absurd first (by decide +kernel)

end Sys2Proof.Machine
end

section
/-!
Reads and writes over the bus (chapters 00, 03 and 17).
-/
namespace Sys2Proof.Machine

/-- The stores of requester 0 to the monitor registers have failed three times on their link. -/
def linkTried : State := { State.reset with linkTries := [(linkKey 2 256, (3, 0))] }

theorem ssmEvten_row : findReg R.SSM_EVTEN ≠ none ∧ convertedFe R.SSM_EVTEN = none ∧ ∀ r, findReg R.SSM_EVTEN = some r →
    (rowWrite (.core 0) r R.SSM_EVTEN 1 linkTried).isNone = true ∧
      regFirst ((linkTried.liveView R.SSM_EVTEN).mapFails R.SSM_EVTEN 1 ++ linkTried.plainFails r R.SSM_EVTEN 1) = none := by
  have row : (findReg R.SSM_EVTEN).all fun r => (rowWrite (.core 0) r R.SSM_EVTEN 1 linkTried).isNone &&
      (regFirst ((linkTried.liveView R.SSM_EVTEN).mapFails R.SSM_EVTEN 1 ++ linkTried.plainFails r R.SSM_EVTEN 1)).isNone := by decide +kernel
  refine ⟨by decide +kernel, by decide +kernel, fun r here => ?_⟩
  rw [here] at row
  obtain ⟨unlisted, passes⟩ := Bool.and_eq_true_iff.mp row
  exact ⟨unlisted, Option.isNone_iff_eq_none.mp passes⟩

/-- A store that succeeds ends the count of the link's failures. -/
theorem linkTried_cleared : ∀ t, exec (.registerWrite (.core 0) R.SSM_EVTEN 1) linkTried = .next t → t.linkTries = [] := by
  intro t run
  obtain rfl := Host.Outcome.next.inj run
  decide +kernel

/-- Refutes O42: a store to a register of the safe-state manager that succeeds also ends its link's count of failures, which is no part of
the registers, the post office, the cores or the answer. -/
theorem not_busCommands : ¬ Obligations.BusCommands := by
  intro h
  obtain ⟨written, -⟩ := h linkTried 0 R.SSM_EVTEN 0 0 1 ⟨0, 4, false, true, [], [], .plain, []⟩
  obtain ⟨some, direct, row⟩ := ssmEvten_row
  obtain ⟨r, here⟩ := Option.ne_none_iff_exists'.mp some
  obtain ⟨unlisted, passes⟩ := row r here
  obtain ⟨t, run, -, -, frame, -⟩ := written r here direct unlisted passes (by unfold State.Lets; decide +kernel)
  have kept : t.linkTries = linkTried.linkTries := frame.same .linkTries rfl
  rw [linkTried_cleared t run] at kept
  exact absurd kept (by decide +kernel)

end Sys2Proof.Machine
end

section
/-!
Clocks, supplies and temperature (chapter 14).
-/
namespace Sys2Proof.Machine

/-- The power-on source still asserted, with no reset held for it. -/
def powerOnAsserted : State := { State.reset with time := 1, rst := { State.reset.rst with sources := [(1, 0)] } }

/-- No temperature is measured while the power-on source is asserted. -/
theorem powerOnAsserted_unmeasured : exec (.temperatureMeasurement [] 0 []) powerOnAsserted = .next powerOnAsserted :=
  congrArg Host.Outcome.next (if_pos (.inr (.inr (by decide))))

/-- Refutes O45: while the power-on source is asserted no measurement is made, whatever reset is held. -/
theorem not_clockSupplyThermalEvents : ¬ Obligations.ClockSupplyThermalEvents := by
  intro h
  obtain ⟨-, -, -, -, -, measured⟩ := h powerOnAsserted 0 0 0 0 [] 0 [] rfl rfl
  obtain ⟨t, run, at', -⟩ := measured (by decide)
  obtain rfl := Host.Outcome.next.inj (powerOnAsserted_unmeasured.symm.trans run)
  exact absurd at' (by decide)

end Sys2Proof.Machine
end

section
/-!
An epoch boundary without letters (chapter 03).
-/
namespace Sys2Proof.Machine

/-- A structure whose charger function 0 gives its winding to two engines, of which the second is none of the eight. -/
def windingImage : Image where
  header := []
  units := []
  legs := []
  loops := [[0, 4] ++ List.replicate 30 0, [16, 4] ++ List.replicate 30 0]
  sched := []
  ledger := []
  threshs := []
  pins := []
  tables := []

/-- The charger in FAULT, stopped by the cause of code 8, its winding still switched to it, and CAN port 0 on its way to IDLE. -/
def windingStopped : State :=
  let s : State := { State.reset with
    img := some windingImage
    units := [(U.chg, ⟨.fault, 0⟩)]
    chg := { State.reset.chg with recorded := 2 ^ 7 }
    rst := { State.reset.rst with domains := 5 }
    po := { State.reset.po with hw := [.move (U.can 0) [.off] .idle] } }
  (s.setFld R.CHG_CFG F.CHG_CFG_DAB 0).setFlag (R.FEn_STATE 0) F.FEn_STATE_SECOND

/-- Engine 16 has the unit code of CAN port 0, and follows the charger after the port's own transition. -/
theorem windingStopped_port : ∀ t, exec .epochBoundary windingStopped = .next t → t.ust (U.can 0) = .armed := by
  intro t run
  obtain rfl := Host.Outcome.next.inj run
  decide +kernel

/-- Refutes O46: an image may name an engine 16 for the charger's winding, whose unit code is that of CAN port 0; the boundary then puts the
port's unit into the engine's state, after its transition to IDLE. -/
theorem not_boundaryAdvances : ¬ Obligations.BoundaryAdvances := by
  intro h
  obtain ⟨-, moved⟩ := h windingStopped 0 (by decide +kernel) (by decide +kernel) rfl rfl rfl rfl
  obtain ⟨t, run, idle⟩ := moved (by decide) (by decide +kernel) (by decide +kernel)
  rw [windingStopped_port t run] at idle
  exact absurd idle (by decide)

end Sys2Proof.Machine
end

section
/-!
The post office's own commands (chapters 00 and 03).
-/
namespace Sys2Proof.Machine

variable {s : State} {c ph k a : Nat} {v : Word}

/-! ### A letter posted (R78) -/

/-- The letter that word 15 completes in a pigeonhole's window. -/
def State.posted (s : State) (ph : Nat) (v : Word) : Letter :=
  letterOfBytes (((s.window ph).set 15 v).flatMap fun w => leBytes 4 w.toNat)

/-- The pigeonhole with its window taken. -/
def State.unwindowed (s : State) (ph : Nat) (v : Word) : State :=
  (s.setWindow ph 15 v).setPigeon ph { (s.setWindow ph 15 v).pigeon ph with window := [] }

theorem State.length_window (s : State) (ph : Nat) : (s.window ph).length = 16 := by
  simp only [State.window, List.length_append, List.length_take, List.length_replicate]
  omega

theorem State.window_setWindow (s : State) (ph j : Nat) (v : Word) : (s.setWindow ph j v).window ph = (s.window ph).set j v := by
  have full : ((s.window ph).set j v).length = 16 := by rw [List.length_set, State.length_window]
  have given : ((s.setWindow ph j v).pigeon ph).window = (s.window ph).set j v := by rw [State.setWindow, State.pigeon_setPigeon]
  rw [State.window, given, full, List.take_of_length_le (Nat.le_of_eq full)]
  simp

theorem execLetterPost_eq (on : s.phEn ph = true) (letters : s.phIsReceipt ph = false) (own : s.phProducer ph = c)
    (lets : s.Lets c (R.PHn_POSTj ph 15) 1) :
    execLetterPost (.core c) ph v s = .next ((intake (s.unwindowed ph v) ph (s.posted ph v) true).respond 0) := by
  have low : ph < 64 := of_decide_eq_true (Bool.and_eq_true_iff.mp on).1
  have here : monitorReg (R.PHn_POSTj ph 15) = false :=
    monitorReg_between (by simp only [R.PHn_POSTj]; omega) (by simp only [R.PHn_POSTj]; omega)
  have mine : Requester.codeIs (.core c) (s.phProducer ph) = true := by rw [own]; exact beq_self_eq_true c
  unfold execLetterPost
  rw [if_neg (by simp [on, letters, mine])]
  dsimp only
  rw [State.window_setWindow]
  exact congrArg Host.Outcome.next (State.accessBy_core_done (store := true) lets rfl here)

/-- The intake of a letter that passes its checks. -/
theorem intake_accepts {l : Letter} (passes : intakeFail s ph l true = none) (fits : s.phSize ph ≤ 4096) :
    (intake s ph l true).slot (s.phSlot ph (s.phTail ph)) = .letter l false ∧
      (intake s ph l true).phTail ph = (s.phTail ph + 1) % (2 * s.phSize ph) ∧
      (intake s ph l true).fld (R.PHn_SEQ ph) F.PHn_SEQ_SEQ = l.seq % 2 ^ 32 ∧ (intake s ph l true).pigeon ph = s.pigeon ph := by
  have seqTail : R.PHn_SEQ ph ≠ R.PHn_STAT ph ∧ R.PHn_TAIL ph ≠ R.PHn_STAT ph ∧ R.PHn_TAIL ph ≠ R.PHn_SEQ ph := by
    simp only [R.PHn_SEQ, R.PHn_STAT, R.PHn_TAIL]; omega
  obtain ⟨seqStat, tailStat, tailSeq⟩ := seqTail
  have some : 0 < s.phSize ph := Nat.two_pow_pos _
  have next : (s.phTail ph + 1) % (2 * s.phSize ph) < 8192 := Nat.lt_of_lt_of_le (Nat.mod_lt _ (by omega)) (by omega)
  have taken : intake s ph l true = ((((s.setSlot (s.phSlot ph (s.phTail ph)) (.letter l false)).wroteSlot (s.phSlot ph (s.phTail ph))).setFld
      (R.PHn_TAIL ph) F.PHn_TAIL_INDEX ((s.phTail ph + 1) % (2 * s.phSize ph))).setFld (R.PHn_SEQ ph) F.PHn_SEQ_SEQ l.seq).setFld
        (R.PHn_STAT ph) F.PHn_STAT_INTAKE Status.done.code := by
    unfold intake
    rw [passes]
  rw [taken]
  generalize (s.phTail ph + 1) % (2 * s.phSize ph) = tail at next
  have put (u : State) (i : Nat) (x : Nat) : ((((u.wroteSlot i).setFld (R.PHn_TAIL ph) F.PHn_TAIL_INDEX tail).setFld (R.PHn_SEQ ph) F.PHn_SEQ_SEQ
      l.seq).setFld (R.PHn_STAT ph) F.PHn_STAT_INTAKE x).po = u.po := by
    have fld (t : State) (a : Nat) (f : Fld) (v : Nat) : (t.setFld a f v).po = t.po := rfl
    rw [fld, fld, fld]
    exact (State.wroteSlot_kept u i).frame.same .po rfl
  refine ⟨?_, ?_, ?_, ?_⟩
  · rw [State.slot, put]
    exact State.slot_setSlot ..
  · rw [State.phTail, State.fld_setFld_ne tailStat, State.fld_setFld_ne tailSeq, State.fld_setFld _ rfl]
    exact Nat.mod_eq_of_lt next
  · rw [State.fld_setFld_ne seqStat, State.fld_setFld _ rfl]
    rfl
  · rw [State.pigeon, put]
    rfl

/-- What a pigeonhole's window is has no part in the checks of its intake. -/
theorem intakeFail_setPigeon (s : State) (n : Nat) (p : Pigeon) (l : Letter) (b : Bool) : intakeFail (s.setPigeon n p) ph l b = intakeFail s ph l b := rfl

theorem State.ring_setPigeon (s : State) (n : Nat) (p : Pigeon) : (s.setPigeon n p).phSlot ph ((s.setPigeon n p).phTail ph) = s.phSlot ph (s.phTail ph) ∧
    (s.setPigeon n p).phTail ph = s.phTail ph ∧ (s.setPigeon n p).phSize ph = s.phSize ph := ⟨rfl, rfl, rfl⟩

theorem State.letter_taken (on : s.phEn ph = true) (letters : s.phIsReceipt ph = false) (own : s.phProducer ph = c) (fits : s.phSize ph ≤ 4096)
    (passes : intakeFail s ph (s.posted ph v) true = none) (lets : s.Lets c (R.PHn_POSTj ph 15) 1) :
    Answers (.letterPost (.core c) ph v) s fun t => t.slot (s.phSlot ph (s.phTail ph)) = .letter (s.posted ph v) false ∧
      t.phTail ph = (s.phTail ph + 1) % (2 * s.phSize ph) ∧ t.fld (R.PHn_SEQ ph) F.PHn_SEQ_SEQ = (s.posted ph v).seq % 2 ^ 32 ∧
      (t.pigeon ph).window = [] := by
  have passed : intakeFail (s.unwindowed ph v) ph (s.posted ph v) true = none := by
    rw [State.unwindowed, intakeFail_setPigeon, State.setWindow, intakeFail_setPigeon]
    exact passes
  have ring : (s.unwindowed ph v).phSlot ph ((s.unwindowed ph v).phTail ph) = s.phSlot ph (s.phTail ph) ∧
      (s.unwindowed ph v).phTail ph = s.phTail ph ∧ (s.unwindowed ph v).phSize ph = s.phSize ph := by
    have first := State.ring_setPigeon (ph := ph) s ph { s.pigeon ph with window := (s.window ph).set 15 v }
    have second := State.ring_setPigeon (ph := ph) (s.setWindow ph 15 v) ph { (s.setWindow ph 15 v).pigeon ph with window := [] }
    obtain ⟨slot, tail, size⟩ := first
    obtain ⟨slot', tail', size'⟩ := second
    exact ⟨slot'.trans slot, tail'.trans tail, size'.trans size⟩
  obtain ⟨sameSlot, sameTail, sameSize⟩ := ring
  obtain ⟨slot, tail, seq, pigeon⟩ := intake_accepts passed (by rw [sameSize]; exact fits)
  rw [sameSlot] at slot
  rw [sameTail, sameSize] at tail
  have emptied : (s.unwindowed ph v).pigeon ph = { (s.setWindow ph 15 v).pigeon ph with window := [] } := State.pigeon_setPigeon ..
  have act := execLetterPost_eq (v := v) on letters own lets
  rw [emptied] at pigeon
  generalize intake (s.unwindowed ph v) ph (s.posted ph v) true = t at *
  exact ⟨_, act, slot, tail, seq, congrArg Pigeon.window pigeon⟩

/-! ### Receipts consumed, signalled and handed over -/

theorem State.phHead_moved (ready : s.po.ready = []) (deferred : s.po.deferred = []) (few : k < 8192) :
    (s.consumeTo ph k).phHead ph = k := by
  have apart : R.PHn_HEAD ph ≠ R.PHn_STAT ph := by simp only [R.PHn_HEAD, R.PHn_STAT]; omega
  unfold State.consumeTo
  dsimp only
  generalize moved : (if ringDist _ _ _ < ringDist _ _ _ then _ else _ : State) = u
  have head : u.phHead ph = k := by
    rw [← moved]
    refine Eq.trans ?_ ((State.fld_setFld (s := s) (a := R.PHn_HEAD ph) F.PHn_HEAD_INDEX rfl k).trans (Nat.mod_eq_of_lt few))
    split <;> rfl
  have quiet : (u.syncHeld ph).po.ready = [] ∧ (u.syncHeld ph).po.deferred = [] := by
    rw [← moved]; split <;> exact ⟨ready, deferred⟩
  generalize (passedBy _ _ _) = passed
  have nothing : ((u.syncHeld ph).handOver ph passed).po.ready = [] := by
    unfold State.handOver
    rw [quiet.2]
    simpa using quiet.1
  have regs : ((u.syncHeld ph).handOver ph passed).reg (R.PHn_HEAD ph) = (u.syncHeld ph).reg (R.PHn_HEAD ph) :=
    (State.handOver_kept ..).frame.reg_apart rfl
  rw [State.runReady_of_ready_nil nothing, State.phHead, State.fld, regs, State.syncHeld, State.reg_setFld_ne apart]
  exact head

theorem execReceiptConsume_eq (low : ph < 64) (on : s.phEn ph = true) (receipts : s.phIsReceipt ph = true) (own : s.phConsumer ph = c)
    (few : v.toNat < 8192) (lies : v.toNat < 2 * s.phSize ph)
    (filled : ringDist (s.phSize ph) (s.phHead ph) v.toNat ≤ ringDist (s.phSize ph) (s.phHead ph) (s.phTail ph))
    (lets : s.Lets c (R.PHn_HEAD ph) 1) : execReceiptConsume (.core c) ph v s = .next ((s.consumeTo ph v.toNat).respond 0) := by
  have here : monitorReg (R.PHn_HEAD ph) = false := monitorReg_between (by simp only [R.PHn_HEAD]; omega) (by simp only [R.PHn_HEAD]; omega)
  have index : getF v F.PHn_HEAD_INDEX = v.toNat := by
    simp only [getF, bitsOf, F.PHn_HEAD_INDEX]
    omega
  have rest : getF v ⟨31, 13⟩ = 0 := by
    simp only [getF, bitsOf]
    omega
  have mine : Requester.codeIs (.core c) (s.phConsumer ph) = true := by rw [own]; exact beq_self_eq_true c
  unfold execReceiptConsume
  dsimp only
  rw [index, rest, if_neg (by simp [low, on, receipts, mine]), if_pos rfl, if_pos (by simp [filled, lies])]
  exact congrArg Host.Outcome.next (State.accessBy_core_done (store := true) lets rfl here)

theorem State.receipts_consumed (low : ph < 64) (on : s.phEn ph = true) (receipts : s.phIsReceipt ph = true) (own : s.phConsumer ph = c)
    (few : v.toNat < 8192) (lies : v.toNat < 2 * s.phSize ph)
    (filled : ringDist (s.phSize ph) (s.phHead ph) v.toNat ≤ ringDist (s.phSize ph) (s.phHead ph) (s.phTail ph))
    (deferred : s.po.deferred = []) (ready : s.po.ready = []) (lets : s.Lets c (R.PHn_HEAD ph) 1) :
    Answers (.receiptConsume (.core c) ph v) s fun t => t.phHead ph = v.toNat ∧ t.resp = ⟨.done, 0⟩ :=
  ⟨_, execReceiptConsume_eq low on receipts own few lies filled lets, State.phHead_moved ready deferred few, rfl⟩

/-- A receipt handed over lets its action be done, and only that one where no other is ready. -/
theorem State.handed_over {d : DeferredRec} (waits : s.po.deferred[k]? = some d) (ready : s.po.ready = []) :
    Answers (.receiptHandoverTimeout k) s fun t => match d.action with
      | .structureReplace => t.rst.sources.any (·.1 == 13) = true
      | .systemReset => t.rst.sources.any (·.1 == 10) = true
      | .netHalt u => HwEvent.move u [.running] .idle ∈ t.po.hw ∧ t.po.deferred = s.po.deferred.eraseIdx k := by
  have act : execReceiptHandoverTimeout k s = .next (({ s with po := { s.po with deferred := s.po.deferred.eraseIdx k, ready := [] } } : State).perform
      d.action) := by
    unfold execReceiptHandoverTimeout
    rw [waits, ready]
    rfl
  refine ⟨_, act, ?_⟩
  cases d.action with
  | structureReplace => exact List.any_eq_true.mpr ⟨_, State.mem_assertSource _ 13 0, rfl⟩
  | systemReset => exact List.any_eq_true.mpr ⟨_, State.mem_assertSource _ 10 0, rfl⟩
  | netHalt u => exact ⟨State.hwMove_pending .., rfl⟩

/-! ### Moderation (R93) and sleep -/

theorem ringDist_self {n : Nat} (b : Nat) : ringDist n b b = 0 := by
  have parts : b + 2 * n - b % (2 * n) = 2 * n * (b / (2 * n) + 1) := by
    have split := Nat.div_add_mod b (2 * n)
    rw [Nat.mul_add, Nat.mul_one]
    omega
  rw [ringDist, parts, Nat.mul_mod_right]

theorem State.phHeld_syncHeld (s : State) (ph : Nat) : (s.syncHeld ph).phHeld ph = s.phHeld ph := by
  have cfg : R.PHn_CFG ph ≠ R.PHn_STAT ph := by simp only [R.PHn_CFG, R.PHn_STAT]; omega
  have tail : R.PHn_TAIL ph ≠ R.PHn_STAT ph := by simp only [R.PHn_TAIL, R.PHn_STAT]; omega
  have size : (s.syncHeld ph).phSize ph = s.phSize ph := congrArg (2 ^ ·) (State.fld_setFld_ne cfg ..)
  have end_ : (s.syncHeld ph).phTail ph = s.phTail ph := State.fld_setFld_ne tail ..
  rw [State.phHeld, size, end_]
  rfl

theorem State.phHeld_signalAll (s : State) (ph : Nat) : (s.signalAll ph).phHeld ph = 0 := by
  rw [State.signalAll, State.phHeld_syncHeld, State.phHeld, State.pigeon_setPigeon]
  exact ringDist_self _

theorem State.signalled (on : s.phEn ph = true) (receipts : s.phIsReceipt ph = true) (held : s.phHeld ph ≠ 0) :
    Answers (.receiptModerationExpiry ph) s fun t => t.phHeld ph = 0 ∧ t.fld (R.PHn_STAT ph) F.PHn_STAT_HELD = 0 := by
  have none := s.phHeld_signalAll ph
  refine ⟨_, congrArg Host.Outcome.next (if_pos (by simp [on, receipts, held])), none, ?_⟩
  rw [State.signalAll, State.phHeld_syncHeld] at none
  rw [State.signalAll, State.syncHeld, State.fld_setFld _ rfl, none]
  rfl

theorem State.reg_announce (s : State) (b : Nat) : (s.announce b).reg R.PST_SLEEP = (s.setBit R.PST_SLEEP ⟨31, 0⟩ b).reg R.PST_SLEEP :=
  State.reg_each (fun t n _ => (State.signalAll_kept t n).frame.reg_apart rfl) ..

theorem State.bitAt_announce (s : State) {i b : Nat} (few : b < 32) : bitAt ((s.announce i).reg R.PST_SLEEP).toNat b =
    (bitAt (s.reg R.PST_SLEEP).toNat b || b == i) := by
  have whole (t : State) : (t.reg R.PST_SLEEP).toNat = t.fld R.PST_SLEEP ⟨31, 0⟩ := by
    simp only [State.fld, getF, bitsOf]
    omega
  rw [State.reg_announce, whole, whole]
  exact State.bitAt_setBit ⟨31, 0⟩ rfl s i few

theorem State.bitAt_announced (l : List Nat) (s : State) {b : Nat} (few : b < 32) : bitAt ((s.each l State.announce).reg R.PST_SLEEP).toNat b =
    (bitAt (s.reg R.PST_SLEEP).toNat b || l.contains b) := by
  induction l generalizing s with
  | nil => simp [State.each]
  | cons i l ih =>
    refine (ih (s.announce i)).trans ?_
    rw [State.bitAt_announce s few, List.contains_cons, Bool.or_assoc]

theorem State.sleep_announced (checks : regFirst (((List.range 32).filter (bitAt v.toNat)).flatMap s.sleepFails) = none) (lets : s.Lets c R.PST_SLEEP 1) :
    Answers (.sleepAnnounce (.core c) v) s fun t => t.resp = ⟨.done, 0⟩ ∧
      ∀ b, b < 32 → bitAt (t.reg R.PST_SLEEP).toNat b = (bitAt (s.reg R.PST_SLEEP).toNat b || bitAt v.toNat b) := by
  have act : execSleepAnnounce (.core c) v s = .next ((s.each ((List.range 32).filter (bitAt v.toNat)) State.announce).respond 0) := by
    unfold execSleepAnnounce
    dsimp only
    rw [checks]
    exact congrArg Host.Outcome.next (State.accessBy_core_done (store := true) lets rfl rfl)
  refine ⟨_, act, rfl, fun b few => ?_⟩
  have listed : ((List.range 32).filter (bitAt v.toNat)).contains b = bitAt v.toNat b := by
    rw [Bool.eq_iff_iff, List.contains_iff_mem, List.mem_filter, List.mem_range]
    exact and_iff_right few
  exact (State.bitAt_announced _ s few).trans (by rw [listed])

/-! ### The captures and counts that a read clears (R11) -/

/-- What the read of a capture leaves, of its word at `code`: where it is valid the address and the postmark copied, in any case VALID and
OVERRUN clear and the capture returned. -/
def State.captureRead (s : State) (code addr pm : Nat) (valid overrun : Fld) (x y : Nat) : State :=
  (((if s.flag code valid then (s.setReg addr (BitVec.ofNat 32 x)).setReg pm (BitVec.ofNat 32 y) else s).clrFlag code valid).clrFlag
    code overrun).respond (s.reg code).toNat

theorem State.captureRead_spec {code addr pm : Nat} {valid overrun : Fld} (first : addr ≠ code) (second : pm ≠ code) (apart : addr ≠ pm)
    (okV : valid.ok = true) (okO : overrun.ok = true) (both : overrun.apart valid = true) (s : State) (x y : Nat) :
    (s.captureRead code addr pm valid overrun x y).resp = ⟨.done, (s.reg code).toNat⟩ ∧
    (s.captureRead code addr pm valid overrun x y).flag code valid = false ∧
    (s.captureRead code addr pm valid overrun x y).flag code overrun = false ∧
    (s.captureRead code addr pm valid overrun x y).reg addr = (if s.flag code valid = true then BitVec.ofNat 32 x else s.reg addr) ∧
    (s.captureRead code addr pm valid overrun x y).reg pm = (if s.flag code valid = true then BitVec.ofNat 32 y else s.reg pm) := by
  have copied {a : Nat} (ne : a ≠ code) : (s.captureRead code addr pm valid overrun x y).reg a =
      (if s.flag code valid then (s.setReg addr (BitVec.ofNat 32 x)).setReg pm (BitVec.ofNat 32 y) else s).reg a :=
    (State.reg_setReg_ne ne _).trans (State.reg_setReg_ne ne _)
  refine ⟨rfl, ?_, ?_, ?_, ?_⟩
  · rw [State.captureRead, State.flag_respond, State.flag_clrFlag_apart _ _ okO okV both, State.flag_clrFlag _ okV]
  · rw [State.captureRead, State.flag_respond, State.flag_clrFlag _ okO]
  · rw [copied first]
    split
    · rw [State.reg_setReg_ne apart, State.reg_setReg]
    · rfl
  · rw [copied second]
    split
    · rw [State.reg_setReg]
    · rfl

theorem execSysWerrCodeRead_eq (lets : s.Lets c R.SYS_WERR_CODE 0) : execSysWerrCodeRead (.core c) s = .next (s.captureRead R.SYS_WERR_CODE
    R.SYS_WERR_ADDR R.SYS_WERR_PM F.SYS_WERR_CODE_VALID F.SYS_WERR_CODE_OVERRUN s.po.werr.addr s.po.werr.pm) :=
  congrArg Host.Outcome.next (lets.read rfl ..)

theorem execPstMerrCodeRead_eq (lets : s.Lets c R.PST_MERR_CODE 0) : execPstMerrCodeRead (.core c) s = .next (s.captureRead R.PST_MERR_CODE
    R.PST_MERR_ADDR R.PST_MERR_PM F.PST_MERR_CODE_VALID F.PST_MERR_CODE_OVERRUN s.po.merr.addr s.po.merr.pm) :=
  congrArg Host.Outcome.next (lets.read rfl ..)

/-- A lost count is answered and cleared. -/
theorem State.count_read {which : Nat} (at' : (if which = 0 then R.PST_DLJ_LOST else R.NVS_JLOST) = a) (lets : s.Lets c a 0)
    (here : monitorReg a = false) : Answers (.lostCountRead (.core c) which) s fun t => t.resp = ⟨.done, (s.reg a).toNat⟩ ∧ t.reg a = 0 := by
  subst at'
  exact ⟨_, congrArg Host.Outcome.next (lets.read here ..), rfl, State.reg_setReg ..⟩

/-- Settles O43: command by command; a pigeonhole that is enabled is one of the 64, so that its registers lie on the device's own die. -/
theorem postOfficeCommands : Obligations.PostOfficeCommands := fun s c ph k v =>
  ⟨fun on letters own lets => ⟨_, execLetterPost_eq on letters own lets, rfl⟩,
    fun on letters own _ fits passes lets => State.letter_taken on letters own fits passes lets,
    State.receipts_consumed, fun _ => State.handed_over, State.signalled, State.sleep_announced,
    fun lets => ⟨_, execSysWerrCodeRead_eq lets, State.captureRead_spec (by decide) (by decide) (by decide) rfl rfl rfl ..⟩,
    fun lets => ⟨_, execPstMerrCodeRead_eq lets, State.captureRead_spec (by decide) (by decide) (by decide) rfl rfl rfl ..⟩,
    fun lets => State.count_read (which := 0) rfl lets rfl, fun lets => State.count_read (which := 1) rfl lets rfl⟩

end Sys2Proof.Machine
end

section
/-!
The reset controller's own events (chapter 13).
-/
namespace Sys2Proof.Machine

variable {s t : State} {a id pairs n src : Nat}

/-! ### A system reset -/

theorem FMap.get_append_left {α : Type} {d : Nat → α} {m l : FMap α} {k : Nat} (h : ∀ p ∈ l, p.1 ≠ k) :
    FMap.get d (m ++ l) k = FMap.get d m k := by
  induction m with
  | nil =>
    induction l with
    | nil => rfl
    | cons p l ih =>
      obtain ⟨ne, rest⟩ := List.forall_mem_cons.mp h
      exact (if_neg ne.symm).trans (ih rest)
  | cons p m ih => rw [List.cons_append, FMap.get, FMap.get, ih]

/-- The targets of a split boot lie above the reset controller's registers. -/
theorem State.reg_evcSplitTargets (below : a < R.EVC_SRCm 1) (s : State) : s.evcSplitTargets.reg a = s.reg a := by
  unfold State.evcSplitTargets
  split
  · rw [State.reg, FMap.get_append_left, FMap.get_append_left]
    · exact (FMap.get_filter (q := fun k => decide (k < R.EVC_SRCm 1)) a).trans (if_pos (decide_eq_true below))
    · intro p mem
      obtain ⟨i, -, rfl⟩ := List.mem_map.mp mem
      simp only [R.EVC_SRCm] at below ⊢
      omega
    · intro p mem
      have above : R.EVC_SRCm 256 < p.1 := of_decide_eq_true (List.mem_filter.mp mem).2
      simp only [R.EVC_SRCm] at below above
      omega
  · rfl

/-- The registers that a system reset writes after it has cleared the others. -/
def clearedParts : List Part :=
  [.eng, .mdl, .ldg, .ssm, .reg .MOD_LCNTn, .reg .LSC_CFG, .reg .LSC_STAT, .reg .SSM_WDSTATn, .reg .FEn_EVT, .reg .FEn_WDCNT, .reg .LDG_EVT,
    .reg .LDG_WQSTAT, .reg .LDG_PNf, .reg .SSM_STATE, .reg .SSM_PAT0, .reg .SSM_PAT1, .reg .SSM_PATX]

theorem State.pairsLost_kept (l : List Nat) (s : State) : Kept clearedParts s
    (s.each l fun s n => (s.setLscStat n 4).setFld (R.SSM_WDSTATn n) F.SSM_WDSTATn_MODE 0) :=
  Kept.each (fun u n => .via (State.setFld_kept (.SSM_WDSTATn n) ..) rfl ((State.setLscStat_kept u n 4).mono rfl)) (.refl _ s)

/-- A register of the reset controller after a system reset is what it was where it is kept; its phase is that of the start. -/
theorem State.reg_systemClear (kept : keptReg a = true) (state : a ≠ R.RST_STATE) (below : a < R.EVC_SRCm 1)
    (out : clearedParts.all (Part.misses a) = true) (s : State) : s.systemClear.reg a = s.reg a := by
  have trips (u : State) : (u.keepTrips s).reg a = u.reg a := ((State.keepTrips_kept u s).mono (d := clearedParts) rfl).frame.reg_apart out
  have split (u : State) (v : Nat) : (u.setFld R.LSC_CFG F.LSC_CFG_SPLIT v).reg a = u.reg a :=
    ((State.setFld_kept .LSC_CFG u F.LSC_CFG_SPLIT v).mono (d := clearedParts) rfl).frame.reg_apart out
  have refreshed (u : State) : u.ssmRefresh.reg a = u.reg a := ((State.ssmRefresh_kept u).mono (d := clearedParts) rfl).frame.reg_apart out
  unfold State.systemClear
  extract_lets s1
  rw [refreshed, (State.pairsLost_kept ..).frame.reg_apart out, State.reg_setFld_ne state, State.reg_evcSplitTargets below, split, trips]
  exact (FMap.get_filter a).trans (if_pos kept)

theorem State.phase_systemClear (s : State) : s.systemClear.fld R.RST_STATE F.RST_STATE_PHASE = 1 := by
  unfold State.systemClear
  extract_lets s1
  rw [(State.ssmRefresh_kept _).frame.fld_apart rfl, (State.pairsLost_kept ..).frame.fld_apart rfl, State.fld_setFld _ rfl]
  rfl

theorem State.img_systemClear (s : State) : s.systemClear.img = none := by
  have targets (u : State) : u.evcSplitTargets.img = u.img := (State.evcSplitTargets_kept u).frame.same .img rfl
  have set (u : State) (b : Nat) (f : Fld) (v : Nat) : (u.setFld b f v).img = u.img := rfl
  have trips (u : State) : (u.keepTrips s).img = u.img := (State.keepTrips_kept u s).frame.same .img rfl
  unfold State.systemClear
  extract_lets s1
  rw [(State.ssmRefresh_kept _).frame.same .img rfl, (State.pairsLost_kept ..).frame.same .img rfl, set, targets, set, trips]
  rfl

theorem State.applySystem_kept_rst (s : State) : s.applySystem.rst.sysHold = s.rst.sysHold ∧ s.applySystem.rst.sysMin = s.rst.sysMin ∧
    s.applySystem.rst.standby = s.rst.standby ∧ s.applySystem.rst.standbyDue = s.rst.standbyDue ∧ s.applySystem.rst.pg = s.rst.pg := by
  unfold State.applySystem
  split
  · exact ⟨rfl, rfl, rfl, rfl, rfl⟩
  · rw [(State.syncPend_kept _).frame.same .rst rfl, State.systemClear_rst]
    exact ⟨rfl, rfl, rfl, rfl, rfl⟩

theorem State.reg_applySystem (kept : keptReg a = true) (state : a ≠ R.RST_STATE) (pend : a ≠ R.RST_PEND) (below : a < R.EVC_SRCm 1)
    (out : clearedParts.all (Part.misses a) = true) (s : State) : s.applySystem.reg a = s.reg a := by
  unfold State.applySystem
  split
  · rfl
  · exact (State.reg_setReg_ne pend _).trans (State.reg_systemClear kept state below out s)

/-! ### A source of system reach -/

/-- A source of system reach recorded, before the safe state and the reset that follow it. -/
def State.systemAsserted (s : State) (id pairs : Nat) : State :=
  let s1 := (State.syncPend { s with rst := { s.rst with sources := s.rst.sources ++ [(id, pairs)] } }).recordCause id 1 0
  { s1 with rst := { s1.rst with sysHold := 1, sysMin := true, startTimer := s1.rst.startTimer || id == 8, standbyDue := false,
                                 transportDue := false, standby := false } }

theorem State.assertSource_first (out : s.inReset = false) (reach : s.reachOf id pairs = 1) :
    s.assertSource id pairs = (((s.systemAsserted id pairs).ssmRaise 5).applySystem).syncPend := by
  have none : s.rst.sources = [] := by
    simp only [State.inReset, Bool.or_eq_false_iff, Bool.not_eq_false', List.isEmpty_iff] at out
    exact out.2
  have fresh : ¬(s.rst.sources.any fun p => p.1 == id && p.2 == pairs) = true := by rw [none]; exact Bool.false_ne_true
  unfold State.assertSource
  rw [if_neg fresh]
  dsimp only
  rw [reach, out, if_neg (by decide), if_neg (by simp), if_neg (by decide), if_neg (by simp), if_neg (by simp)]
  rfl

/-- The registers that a source of system reach leaves as it recorded them. -/
theorem State.reg_assertSource (kept : keptReg a = true) (state : a ≠ R.RST_STATE) (pend : a ≠ R.RST_PEND) (cause : a ≠ R.RST_CAUSE)
    (below : a < R.EVC_SRCm 1) (out : (.reg .SSM_CAUSE :: .reg .SSM_EVT :: clearedParts).all (Part.misses a) = true)
    (reach : s.reachOf id pairs = 1) : (s.assertSource id pairs).reg a = s.reg a := by
  have raise (u : State) : (u.ssmRaise 5).reg a = u.reg a :=
    ((State.ssmRaise_kept u 5).mono (d := .reg .SSM_CAUSE :: .reg .SSM_EVT :: clearedParts) rfl).frame.reg_apart out
  have less : clearedParts.all (Part.misses a) = true := by
    simp only [List.all_cons, Bool.and_eq_true] at out
    exact out.2.2
  have pended (u : State) : u.syncPend.reg a = u.reg a := State.reg_setReg_ne pend _
  have recorded (u : State) (x y z : Nat) : (u.recordCause x y z).reg a = u.reg a := State.reg_setReg_ne cause _
  unfold State.assertSource
  split
  · rfl
  · extract_lets reach' was cur recId _ s1 old s2 s2' _ s3
    have one : reach' = 1 := reach
    have h1 : s1.reg a = s.reg a := pended _
    have h3 : s3.reg a = s.reg a := by
      refine (?_ : s2'.reg a = _)
      unfold s2'; split <;> (rw [recorded]; exact h1)
    rw [one, if_neg (by decide)]
    split
    · exact h1
    · rw [if_neg (by decide)]
      split
      · rw [raise]; exact h3
      · rw [pended, State.reg_applySystem kept state pend below less, raise]; exact h3

theorem State.reachOf_system (lo : 3 ≤ id) (hi : id ≤ 10) (a4 : id ≠ 4) (a6 : id ≠ 6) (a9 : id ≠ 9) (s : State) (pairs : Nat) : s.reachOf id pairs = 1 := by
  rw [State.reachOf, if_neg (by omega), if_neg (by omega), if_neg a6, if_neg (by omega)]

theorem State.cause_systemAsserted (s : State) (id pairs : Nat) : (s.systemAsserted id pairs).reg R.RST_CAUSE = BitVec.ofNat 32 (id + 256) := by
  have word : id + 256 * 1 + 65536 * (if 1 = 0 then 0 % 16 else 0) = id + 256 := by simp
  have record (t : State) (x : RstSt) : ({ t with rst := x } : State).reg R.RST_CAUSE = t.reg R.RST_CAUSE := rfl
  rw [← word]
  unfold State.systemAsserted
  extract_lets r s1
  exact (record s1 _).trans (State.reg_setReg _)

theorem State.nvs_systemAsserted (s : State) (id pairs : Nat) : (s.systemAsserted id pairs).nvs = s.nvs := by
  have record (t : State) (x : RstSt) : ({ t with rst := x } : State).nvs = t.nvs := rfl
  unfold State.systemAsserted
  extract_lets r s1
  exact (record s1 _).trans (((State.recordCause_kept ..).frame.same .nvs rfl).trans ((State.syncPend_kept _).frame.same .nvs rfl))

/-- What a source of system reach records and holds where no reset is under way. -/
theorem State.source_resets (lo : 3 ≤ id) (hi : id ≤ 10) (a4 : id ≠ 4) (a6 : id ≠ 6) (a9 : id ≠ 9) (out : s.inReset = false) (pairs : Nat) :
    (s.assertSource id pairs).rst.sysHold = 1 ∧ (s.assertSource id pairs).rst.sysMin = true ∧
    (s.assertSource id pairs).fld R.RST_CAUSE F.RST_CAUSE_SOURCE = id ∧ (s.assertSource id pairs).fld R.RST_CAUSE F.RST_CAUSE_REACH = 1 ∧
    (s.nvs.pulse = false → (s.assertSource id pairs).img = none ∧ (s.assertSource id pairs).fld R.RST_STATE F.RST_STATE_PHASE = 1) := by
  rw [State.assertSource_first out (State.reachOf_system lo hi a4 a6 a9 ..)]
  have rst : ((s.systemAsserted id pairs).ssmRaise 5).rst = (s.systemAsserted id pairs).rst := (State.ssmRaise_kept ..).frame.same .rst rfl
  have nvs : ((s.systemAsserted id pairs).ssmRaise 5).nvs = s.nvs :=
    ((State.ssmRaise_kept ..).frame.same .nvs rfl).trans (s.nvs_systemAsserted ..)
  have cause : ((s.systemAsserted id pairs).ssmRaise 5).reg R.RST_CAUSE = BitVec.ofNat 32 (id + 256) :=
    ((State.ssmRaise_kept ..).frame.reg_apart rfl).trans (s.cause_systemAsserted ..)
  have hold : (s.systemAsserted id pairs).rst.sysHold = 1 ∧ (s.systemAsserted id pairs).rst.sysMin = true := ⟨rfl, rfl⟩
  generalize (s.systemAsserted id pairs).ssmRaise 5 = u at *
  obtain ⟨sysHold, sysMin, -⟩ := u.applySystem_kept_rst
  have recorded : u.applySystem.syncPend.reg R.RST_CAUSE = BitVec.ofNat 32 (id + 256) :=
    (State.reg_setReg_ne (by decide) _).trans ((State.reg_applySystem rfl (by decide) (by decide) (by decide) rfl u).trans cause)
  refine ⟨sysHold.trans ((congrArg RstSt.sysHold rst).trans hold.1), sysMin.trans ((congrArg RstSt.sysMin rst).trans hold.2), ?_, ?_, fun idle => ?_⟩
  · rw [State.fld, recorded]
    simp only [getF, bitsOf, F.RST_CAUSE_SOURCE, BitVec.toNat_ofNat]
    omega
  · rw [State.fld, recorded]
    simp only [getF, bitsOf, F.RST_CAUSE_REACH, BitVec.toNat_ofNat]
    omega
  · have clears : u.applySystem = u.systemClear.syncPend := if_neg (by rw [nvs, idle]; exact Bool.false_ne_true)
    rw [clears]
    have pends : Kept [.reg .RST_PEND] u.systemClear u.systemClear.syncPend.syncPend := (State.syncPend_kept _).trans (State.syncPend_kept _)
    exact ⟨(pends.frame.same .img rfl).trans u.img_systemClear, (pends.frame.fld_apart rfl _).trans u.phase_systemClear⟩

theorem State.raiseSource_mem (out : s.rst.transport = false) (id pairs : Nat) : (id, pairs) ∈ (s.raiseSource id pairs).rst.sources := by
  rw [State.raiseSource, out, if_neg (by simp)]
  exact State.mem_assertSource ..

theorem State.source_asserted (lo : 1 ≤ id) (hi : id ≤ 13) (named : sourceNames id pairs = true) (out : s.rst.transport = false) :
    Answers (.resetSourceAssert id pairs) s fun t => (id, sourcePairs id pairs) ∈ t.rst.sources :=
  ⟨_, congrArg Host.Outcome.next (if_pos ⟨lo, hi, named⟩), State.raiseSource_mem out ..⟩

theorem State.system_source (lo : 3 ≤ id) (hi : id ≤ 10) (a4 : id ≠ 4) (a6 : id ≠ 6) (a9 : id ≠ 9) (awake : s.rst.transport = false)
    (out : s.inReset = false) : Answers (.resetSourceAssert id pairs) s fun t => t.rst.sysHold = 1 ∧ t.rst.sysMin = true ∧
      t.fld R.RST_CAUSE F.RST_CAUSE_SOURCE = id ∧ t.fld R.RST_CAUSE F.RST_CAUSE_REACH = 1 ∧
      (s.nvs.pulse = false → t.img = none ∧ t.fld R.RST_STATE F.RST_STATE_PHASE = 1) := by
  have named : sourceNames id pairs = true := by
    have others : (id == 4 || id == 6 || id == 9 || id == 11) = false := by
      simp only [Bool.or_eq_false_iff, beq_eq_false_iff_ne]
      omega
    rw [sourceNames, others]
    rfl
  have plain : s.raiseSource id (sourcePairs id pairs) = s.assertSource id (sourcePairs id pairs) := by
    rw [State.raiseSource, awake, if_neg (by simp), State.causeSource, if_neg (by omega), if_neg (by omega)]
  have act : execResetSourceAssert id pairs s = .next (s.assertSource id (sourcePairs id pairs)) :=
    congrArg Host.Outcome.next ((if_pos ⟨by omega, by omega, named⟩).trans plain)
  exact ⟨_, act, State.source_resets lo hi a4 a6 a9 out _⟩

/-! ### The end of a reset -/

/-- A pair leaves its reset where its hold has ended and no source of it is asserted. -/
def State.tryPair (s : State) (n : Nat) : State :=
  if bitAt s.rst.pairs n && !bitAt s.rst.pairMin n && !bitAt s.pairsAsserted n then
    let s1 := { s with rst := { s.rst with pairs := s.rst.pairs - 2 ^ n } }
    if s1.pairsUp then (s1.pairLeave n).setFlag R.RST_EVT F.RST_EVT_PAIRRST else s1
  else s

theorem State.tryPairs_eq (s : State) : s.tryPairs = if s.rst.sysHold ≠ 0 then s else s.each (List.range 4) State.tryPair := rfl

theorem State.tryPair_rst (s : State) (n : Nat) : ∃ p, (s.tryPair n).rst = { s.rst with pairs := p } := by
  have leaves (u : State) : ((u.pairLeave n).setFlag R.RST_EVT F.RST_EVT_PAIRRST).rst = u.rst := (State.pairLeave_kept ..).frame.same .rst rfl
  unfold State.tryPair
  split
  · extract_lets _ s1
    split
    · exact ⟨_, leaves s1⟩
    · exact ⟨_, rfl⟩
  · exact ⟨_, rfl⟩

theorem State.tryPairs_rst (s : State) : ∃ p, s.tryPairs.rst = { s.rst with pairs := p } := by
  have all (l : List Nat) : ∀ u : State, ∃ p, (u.each l State.tryPair).rst = { u.rst with pairs := p } := by
    induction l with
    | nil => exact fun u => ⟨_, rfl⟩
    | cons n l ih =>
      intro u
      obtain ⟨p, first⟩ := u.tryPair_rst n
      obtain ⟨q, rest⟩ := ih (u.tryPair n)
      exact ⟨q, rest.trans (by rw [first])⟩
  rw [State.tryPairs_eq]
  split
  · exact ⟨_, rfl⟩
  · exact all ..

theorem State.sampleSplit_rst (s : State) : s.sampleSplit.rst = s.rst := (State.sampleSplit_kept s).frame.same .rst rfl

theorem State.sampleSplit_split (s : State) : s.sampleSplit.split = s.bootSplit := by
  unfold State.sampleSplit
  split
  · next same => exact same.symm
  · exact (State.evcSplitTargets_kept _).frame.same .split rfl

theorem State.tryRelease_rst (s : State) : s.tryRelease.rst.sources = s.rst.sources ∧ s.tryRelease.rst.pg = s.rst.pg := by
  unfold State.tryRelease
  split
  · obtain ⟨p, same⟩ := s.tryPairs_rst
    rw [same]
    exact ⟨rfl, rfl⟩
  · split
    · exact ⟨rfl, rfl⟩
    · split
      · exact ⟨rfl, rfl⟩
      · have sources := congrArg RstSt.sources s.sampleSplit_rst
        have pg := congrArg RstSt.pg s.sampleSplit_rst
        extract_lets s0 _ s1
        have ended : s1.rst.sources = s.rst.sources ∧ s1.rst.pg = s.rst.pg := ⟨sources, pg⟩
        split
        · rw [(State.ssmEnd_kept ..).frame.same .rst rfl]; exact ended
        · exact ended

theorem State.releaseSource_rst (s : State) (id pairs : Nat) :
    (s.releaseSource id pairs).rst.sources = s.rst.sources.filter (fun p => !(p.1 == id && p.2 == pairs)) ∧
      (s.releaseSource id pairs).rst.pg = s.rst.pg := by
  obtain ⟨sources, pg⟩ := State.tryRelease_rst
    (State.syncPend { s with rst := { s.rst with sources := s.rst.sources.filter fun p => !(p.1 == id && p.2 == pairs) } })
  exact ⟨sources, pg⟩

theorem State.releaseSource_not_mem (s : State) (id pairs : Nat) : (id, pairs) ∉ (s.releaseSource id pairs).rst.sources := by
  rw [(s.releaseSource_rst id pairs).1, List.mem_filter]
  simp

/-! ### The end of a hold -/

theorem State.reg_pairLeave (wd : a ≠ R.SSM_WDSTATn n) (stat : a ≠ R.LSC_STAT) (s : State) :
    (s.pairLeave n).reg a = s.reg a := by
  have boots (u : State) (l : List Nat) : (u.each l State.bootCore).reg a = u.reg a :=
    State.reg_each fun v t _ => (State.bootCore_kept v t).frame.reg_apart rfl
  have seen (u : State) : u.evcRefresh.reg a = u.reg a := (State.evcRefresh_kept u).frame.reg_apart rfl
  have pair (u : State) (p : PairSt) : (u.setPair n p).reg a = u.reg a := rfl
  have watch (u : State) (w : WdSt) : (u.setWd n w).reg a = u.reg a := rfl
  unfold State.pairLeave
  dsimp only
  rw [seen, State.setLscStat, State.reg_setFld_ne stat, pair, State.reg_setFld_ne wd, watch, boots]

theorem State.cond_bootCore (s : State) (t : Nat) : ((s.bootCore t).core 0).cond = if 0 = t then .running else (s.core 0).cond := by
  unfold State.bootCore
  dsimp only
  split
  · next e => subst e; rw [State.core_updCore]; rfl
  · next ne =>
    rw [if_neg (Ne.symm ne)]
    split <;> rw [State.core_updCore_ne _ (Ne.symm ne)]

theorem State.cond_bootCores (l : List Nat) (s : State) : ((s.each l State.bootCore).core 0).cond = if 0 ∈ l then .running else (s.core 0).cond := by
  induction l generalizing s with
  | nil => rfl
  | cons t l ih =>
    refine (ih (s.bootCore t)).trans ?_
    rw [State.cond_bootCore]
    by_cases here : 0 = t
    · simp [here]
    · simp [here]

/-- Core 0 runs where its pair leaves a reset, and is as it was where another does. -/
theorem State.cond_pairLeave (s : State) (n : Nat) : ((s.pairLeave n).core 0).cond = if 0 ∈ s.coresOf n then .running else (s.core 0).cond := by
  have pair (u : State) (p : PairSt) : (u.setPair n p).core 0 = u.core 0 := rfl
  have watch (u : State) (w : WdSt) (v : Nat) (f : Fld) : ((u.setWd n w).setFld (R.SSM_WDSTATn n) f v).core 0 = u.core 0 := rfl
  have stat (u : State) (v : Nat) : (u.setLscStat n v).core 0 = u.core 0 := rfl
  unfold State.pairLeave
  dsimp only
  have refreshed (u : State) : (u.evcRefresh.core 0).cond = (u.core 0).cond := by
    obtain ⟨b, seen⟩ := u.evcRefresh_core 0
    rw [seen]
  rw [refreshed, stat, pair, watch]
  exact State.cond_bootCores ..

theorem State.pairsUp_pairLeave (up : s.pairsUp = true) (n : Nat) : ((s.pairLeave n).setFlag R.RST_EVT F.RST_EVT_PAIRRST).pairsUp = true := by
  obtain ⟨on, normal⟩ := Bool.and_eq_true_iff.mp up
  have start : ((s.pairLeave n).setFlag R.RST_EVT F.RST_EVT_PAIRRST).reg R.RST_START = s.reg R.RST_START :=
    (State.reg_setFlag_ne (by decide) ..).trans ((State.pairLeave_kept ..).frame.reg_apart rfl)
  have same : ((s.pairLeave n).setFlag R.RST_EVT F.RST_EVT_PAIRRST).core 0 = (s.pairLeave n).core 0 := rfl
  refine Bool.and_eq_true_iff.mpr ⟨?_, ?_⟩
  · rw [same, State.cond_pairLeave]
    split
    · rfl
    · exact on
  · rw [State.flag, State.fld, start]
    exact normal

theorem State.pairsAsserted_congr (sources : t.rst.sources = s.rst.sources) (cfg : t.reg R.LSC_CFG = s.reg R.LSC_CFG) :
    t.pairsAsserted = s.pairsAsserted := by
  have reach (id pairs : Nat) : t.reachOf id pairs = s.reachOf id pairs := by
    simp only [State.reachOf, State.fld, cfg]
    rfl
  simp only [State.pairsAsserted, sources, reach]

/-- The registers that a pair's leaving reset does not write. -/
theorem State.reg_tryPair (wd : a ≠ R.SSM_WDSTATn n) (stat : a ≠ R.LSC_STAT) (evt : a ≠ R.RST_EVT) (s : State) : (s.tryPair n).reg a = s.reg a := by
  unfold State.tryPair
  split
  · extract_lets _ s1
    split
    · exact (State.reg_setFlag_ne evt ..).trans (State.reg_pairLeave wd stat s1)
    · rfl
  · rfl

theorem State.pairsAsserted_tryPair (few : n < 4) (s : State) : (s.tryPair n).pairsAsserted = s.pairsAsserted := by
  obtain ⟨p, same⟩ := s.tryPair_rst n
  have wd : R.LSC_CFG ≠ R.SSM_WDSTATn n := by simp only [R.LSC_CFG, R.SSM_WDSTATn]; omega
  exact State.pairsAsserted_congr (by rw [same]) (State.reg_tryPair wd (by decide) (by decide) s)

/-- A pair in reset whose hold has ended and that no source keeps there. -/
structure State.PairFree (s : State) (n : Nat) : Prop where
  held : bitAt s.rst.pairs n = true
  ended : bitAt s.rst.pairMin n = false
  free : bitAt s.pairsAsserted n = false

/-- A pair that has left its reset, with its event where the device's cores are up. -/
structure State.PairLeft (s : State) (n : Nat) (up : Bool) : Prop where
  left : bitAt s.rst.pairs n = false
  event : up = true → s.flag R.RST_EVT F.RST_EVT_PAIRRST = true

theorem bitAt_sub_two_pow {v i : Nat} (set : bitAt v i = true) (j : Nat) : bitAt (v - 2 ^ i) j = (bitAt v j && j != i) := by
  rw [bitAt_eq_testBit] at set
  simp only [bitAt_eq_testBit, testBit_sub_two_pow set]

theorem State.tryPair_leaves (h : s.PairFree n) : (s.tryPair n).PairLeft n s.pairsUp := by
  obtain ⟨held, ended, free⟩ := h
  have rst (u : State) : ((u.pairLeave n).setFlag R.RST_EVT F.RST_EVT_PAIRRST).rst = u.rst := (State.pairLeave_kept ..).frame.same .rst rfl
  have out : bitAt (s.rst.pairs - 2 ^ n) n = false := by rw [bitAt_sub_two_pow held]; simp
  unfold State.tryPair
  rw [if_pos (by simp [held, ended, free])]
  extract_lets _ s1
  split
  · exact ⟨by rw [rst]; exact out, fun _ => State.flag_setFlag _ rfl⟩
  · next down => exact ⟨out, fun up => absurd up down⟩

theorem State.pairsUp_tryPair (up : s.pairsUp = true) (m : Nat) : (s.tryPair m).pairsUp = true := by
  unfold State.tryPair
  split
  · extract_lets _ s1
    split
    · exact State.pairsUp_pairLeave (s := s1) up m
    · exact up
  · exact up

theorem State.pairs_tryPair (s : State) (m n : Nat) : bitAt (s.tryPair m).rst.pairs n = true → bitAt s.rst.pairs n = true := by
  have rst (u : State) : ((u.pairLeave m).setFlag R.RST_EVT F.RST_EVT_PAIRRST).rst = u.rst := (State.pairLeave_kept ..).frame.same .rst rfl
  unfold State.tryPair
  split
  · next waits =>
    have set : bitAt s.rst.pairs m = true := by
      simp only [Bool.and_eq_true] at waits
      exact waits.1.1
    extract_lets _ s1
    have less : bitAt s1.rst.pairs n = true → bitAt s.rst.pairs n = true := fun h =>
      (Bool.and_eq_true_iff.mp ((bitAt_sub_two_pow set n).symm.trans h)).1
    split
    · rw [rst]; exact less
    · exact less
  · exact id

theorem State.pairs_tryPair_ne {m : Nat} (ne : n ≠ m) (h : bitAt s.rst.pairs n = true) : bitAt (s.tryPair m).rst.pairs n = true := by
  have rst (u : State) : ((u.pairLeave m).setFlag R.RST_EVT F.RST_EVT_PAIRRST).rst = u.rst := (State.pairLeave_kept ..).frame.same .rst rfl
  unfold State.tryPair
  split
  · next waits =>
    have set : bitAt s.rst.pairs m = true := by
      simp only [Bool.and_eq_true] at waits
      exact waits.1.1
    extract_lets _ s1
    have stays : bitAt s1.rst.pairs n = true := (bitAt_sub_two_pow set n).trans (by simp [h, ne])
    split
    · rw [rst]; exact stays
    · exact stays
  · exact h

theorem State.PairLeft.tryPair {up : Bool} (h : s.PairLeft n up) (m : Nat) : (s.tryPair m).PairLeft n up := by
  refine ⟨?_, fun on => ?_⟩
  · exact Bool.eq_false_iff.mpr fun set => Bool.eq_false_iff.mp h.left (s.pairs_tryPair m n set)
  · have event := h.event on
    unfold State.tryPair
    split
    · extract_lets _ s1
      split
      · exact State.flag_setFlag _ rfl
      · exact event
    · exact event

theorem State.PairFree.tryPair {m : Nat} (h : s.PairFree n) (ne : n ≠ m) (few : m < 4) : (s.tryPair m).PairFree n := by
  obtain ⟨p, same⟩ := s.tryPair_rst m
  exact ⟨State.pairs_tryPair_ne ne h.held, by rw [same]; exact h.ended, by rw [State.pairsAsserted_tryPair few]; exact h.free⟩

/-- Among the pairs tried, the one that is free leaves its reset. -/
theorem State.each_tryPair_leaves (l : List Nat) (few : ∀ m ∈ l, m < 4) (mem : n ∈ l) (h : s.PairFree n) :
    (s.each l State.tryPair).PairLeft n s.pairsUp := by
  induction l generalizing s with
  | nil => cases mem
  | cons m l ih =>
    obtain ⟨first, rest⟩ := List.forall_mem_cons.mp few
    by_cases e : n = m
    · subst e
      exact State.each_holds (P := fun t => t.PairLeft n s.pairsUp) (fun t m h => h.tryPair m) l (s.tryPair n) (State.tryPair_leaves h)
    · have mem : n ∈ l := (List.mem_cons.mp mem).resolve_left e
      have left := ih rest mem (h.tryPair e first)
      exact ⟨left.left, fun up => left.event (State.pairsUp_tryPair up m)⟩

theorem State.hold_ends (few : n < 4) (minimum : bitAt s.rst.pairMin n = true) (held : bitAt s.rst.pairs n = true) (none : s.rst.sysHold = 0)
    (free : bitAt s.pairsAsserted n = false) : Answers (.resetHoldEnd n) s fun t => bitAt t.rst.pairs n = false ∧ bitAt t.rst.pairMin n = false ∧
      (s.pairsUp = true → t.flag R.RST_EVT F.RST_EVT_PAIRRST = true) := by
  have act : execResetHoldEnd n s = .next (State.tryPairs { s with rst := { s.rst with pairMin := s.rst.pairMin - 2 ^ n } }) := by
    unfold execResetHoldEnd
    rw [if_pos few, if_pos minimum]
  have ended : bitAt (s.rst.pairMin - 2 ^ n) n = false := by rw [bitAt_sub_two_pow minimum]; simp
  have waits : ({ s with rst := { s.rst with pairMin := s.rst.pairMin - 2 ^ n } } : State).PairFree n := ⟨held, ended, free⟩
  obtain ⟨p, rst⟩ := State.tryPairs_rst { s with rst := { s.rst with pairMin := s.rst.pairMin - 2 ^ n } }
  have tried : State.tryPairs { s with rst := { s.rst with pairMin := s.rst.pairMin - 2 ^ n } } =
      State.each { s with rst := { s.rst with pairMin := s.rst.pairMin - 2 ^ n } } (List.range 4) State.tryPair := by
    rw [State.tryPairs_eq]
    exact if_neg (not_not_intro none)
  obtain ⟨left, event⟩ := State.each_tryPair_leaves (List.range 4) (fun _ => List.mem_range.mp) (List.mem_range.mpr few) waits
  rw [← tried] at left event
  exact ⟨_, act, left, by rw [rst]; exact ended, event⟩

/-- A reset of system reach that nothing holds any longer ends. -/
theorem State.tryRelease_ends (min : s.rst.sysMin = false) (held : s.rst.sysHold = 1) (idle : s.rst.waitPulse = false)
    (none : (s.rst.sources.any fun p => decide (1 ≤ s.reachOf p.1 p.2)) = false) : s.tryRelease.rst.sysHold = 0 ∧
      s.tryRelease.rst.released = true ∧ s.tryRelease.rst.startedAt = s.up ∧ s.tryRelease.split = s.bootSplit := by
  have up : s.sampleSplit.up = s.up := (State.sampleSplit_kept s).frame.same .up rfl
  unfold State.tryRelease
  rw [if_neg (by rw [held]; exact Nat.one_ne_zero), if_neg (by rw [min, idle, held, none]; exact Bool.false_ne_true),
    if_neg (by rw [none]; exact Bool.false_ne_true)]
  extract_lets s0 _ s1
  have hold : s0.rst.sysHold = 1 := (congrArg RstSt.sysHold s.sampleSplit_rst).trans held
  have started : s1.rst.startedAt = s.up := (if_pos hold).trans up
  have split : s1.split = s.bootSplit := s.sampleSplit_split
  split
  · rw [(State.ssmEnd_kept ..).frame.same .rst rfl, (State.ssmEnd_kept ..).frame.same .split rfl]
    exact ⟨rfl, rfl, started, split⟩
  · exact ⟨rfl, rfl, started, split⟩

theorem State.system_ends (held : s.rst.sysHold = 1) (idle : s.rst.waitPulse = false)
    (none : (s.rst.sources.any fun p => decide (1 ≤ s.reachOf p.1 p.2)) = false) : Answers (.resetHoldEnd 4) s fun t =>
      t.rst.sysHold = 0 ∧ t.rst.released = true ∧ t.rst.startedAt = s.up ∧ t.split = s.bootSplit := by
  have act : execResetHoldEnd 4 s = .next (State.tryRelease { s with rst := { s.rst with sysMin := false } }) := by
    unfold execResetHoldEnd
    rw [if_neg (by decide), if_neg (by rw [held]; simp)]
  exact ⟨_, act, State.tryRelease_ends (s := { s with rst := { s.rst with sysMin := false } }) rfl held idle none⟩

/-! ### Power inputs -/

/-- No source moves the record of the power inputs. -/
theorem State.assertSource_pg (s : State) (id pairs : Nat) : (s.assertSource id pairs).rst.pg = s.rst.pg := by
  have cause (t : State) (a b c : Nat) : (t.recordCause a b c).rst = t.rst := (State.recordCause_kept ..).frame.same .rst rfl
  have raise (t : State) (c : Nat) : (t.ssmRaise c).rst = t.rst := (State.ssmRaise_kept ..).frame.same .rst rfl
  have pend (t : State) : t.syncPend.rst = t.rst := (State.syncPend_kept _).frame.same .rst rfl
  have back (t : State) : t.causesBack.rst = t.rst := (State.causesBack_kept _).frame.same .rst rfl
  have pair (t : State) (n : Nat) : (t.pairClear n).rst = t.rst := (State.pairClear_kept ..).frame.same .rst rfl
  unfold State.assertSource
  split
  · rfl
  · extract_lets reach was cur recId _ s1 old s2 s2' _ s3
    have h1 : s1.rst.pg = s.rst.pg := by unfold s1; rw [pend]
    have h2 : s2.rst.pg = s.rst.pg := by
      unfold s2; split <;> (rw [cause]; exact h1)
    have h3 : s3.rst.pg = s.rst.pg := by
      refine (?_ : s2'.rst.pg = _)
      unfold s2'; split <;> (rw [cause]; exact h1)
    split
    · split
      · exact h1
      · refine Eq.trans (State.each_keeps (read := fun t => t.rst.pg) (fun t n => ?_) _ s2) h2
        have same : (t.pairClear n).rst.pg = t.rst.pg := congrArg RstSt.pg (pair t n)
        exact same
    · split
      · exact h1
      · split
        · rw [back, pend, cause, State.powerClear_rst]; exact h3
        · split
          · rw [raise]; exact h3
          · rw [pend, (State.applySystem_kept_rst _).2.2.2.2, raise]; exact h3

theorem State.causeSource_rst (s : State) (id pairs : Nat) : (id, pairs) ∈ (s.causeSource id pairs).rst.sources ∧
    (s.causeSource id pairs).rst.pg = s.rst.pg := by
  have raise (t : State) (c : Nat) : (t.ssmRaise c).rst = t.rst := (State.ssmRaise_kept ..).frame.same .rst rfl
  unfold State.causeSource
  extract_lets s1
  have same : s1.rst = s.rst := by
    unfold s1
    split
    · exact raise ..
    · split
      · exact raise ..
      · rfl
  exact ⟨State.mem_assertSource .., (State.assertSource_pg ..).trans (by rw [same])⟩

theorem State.power_lost (few : n < 4) (awake : s.rst.transport = false) (up : s.rst.standby = false) :
    Answers (.powerGoodChange n false) s fun t => t.rst.pg = s.rst.pg &&& (15 - 2 ^ n) ∧
      (if s.rst.released then (2, 0) ∈ t.rst.sources else (1, 1) ∈ t.rst.sources) := by
  have act (u : State) (same : u = { s with rst := { s.rst with pg := s.rst.pg &&& (15 - 2 ^ n) } }) : execPowerGoodChange n false s = .next
      (if u.rst.released then u.raiseSource 2 0 else u.assertSource 1 1) := by
    subst same
    unfold execPowerGoodChange
    rw [if_neg (Nat.not_le.mpr few)]
    dsimp only
    rw [if_neg (by simp [awake, up]), if_pos (by simp), Bool.and_false, Bool.false_and]
    rfl
  generalize gone : ({ s with rst := { s.rst with pg := s.rst.pg &&& (15 - 2 ^ n) } } : State) = u at act
  have pg : u.rst.pg = s.rst.pg &&& (15 - 2 ^ n) := by rw [← gone]
  have released : u.rst.released = s.rst.released := by rw [← gone]
  have transport : u.rst.transport = false := by rw [← gone]; exact awake
  refine ⟨_, act u rfl, ?_⟩
  rw [← released]
  cases u.rst.released with
  | true =>
    have raised : u.raiseSource 2 0 = u.causeSource 2 0 := by rw [State.raiseSource, transport, if_neg (by simp)]
    obtain ⟨mem, same⟩ := u.causeSource_rst 2 0
    simp only [if_true, raised]
    exact ⟨same.trans pg, mem⟩
  | false =>
    simp only [Bool.false_eq_true, if_false]
    exact ⟨(u.assertSource_pg 1 1).trans pg, State.mem_assertSource ..⟩

theorem State.power_back (few : n < 4) (awake : s.rst.transport = false) (up : s.rst.standby = false) :
    Answers (.powerGoodChange n true) s fun t => t.rst.pg = s.rst.pg ||| 2 ^ n := by
  have supply (u : State) : u.supplyBack.rst.pg = u.rst.pg := by
    unfold State.supplyBack
    split
    · exact (State.releaseSource_rst ..).2.trans (congrArg RstSt.pg ((State.ssmEnd_kept ..).frame.same .rst rfl))
    · rfl
  have restored (u : State) (m : Nat) : (if m = 15 then (u.releaseSource 1 1).supplyBack else u).rst.pg = u.rst.pg := by
    split
    · rw [supply, (State.releaseSource_rst ..).2]
    · rfl
  refine ⟨_, rfl, ?_⟩
  dsimp only
  rw [if_neg (Nat.not_le.mpr few), if_neg (by simp [awake, up]), if_neg (by simp)]
  exact restored ..

/-! ### The release of a domain, the start timer, standby and wakes -/

/-- With every power input and clock there, the domain that is next may leave reset. -/
theorem order_met : ∀ k ≤ 5, ((orderPg k).any fun i => !bitAt 15 i) = false ∧ ((orderClocks k).any fun i => !bitAt 511 i) = false := by decide

theorem State.domain_released (few : s.rst.domains < 5) (hold : s.rst.sysHold = 0) (up : s.rst.standby = false) (awake : s.rst.transport = false)
    (power : s.rst.pg = 15) (clocks : s.fld R.CLK_STAT F.CLK_STAT_GOOD = 511) :
    Answers .domainRelease s fun t => t.rst.domains = s.rst.domains + 1 := by
  obtain ⟨pg, good⟩ := order_met (s.rst.domains + 1) few
  refine ⟨_, rfl, ?_⟩
  dsimp only
  rw [power, clocks, pg, good, if_neg (by simp [hold, up, awake]; omega)]
  split <;> rfl

theorem State.start_timed_out (runs : s.rst.startTimer = true) : Answers .startTimerExpiry s fun t => (5, 0) ∈ t.rst.sources ∧
    t.flag R.RST_START F.RST_START_TIMEOUT = true := by
  refine ⟨_, congrArg Host.Outcome.next (if_pos runs), State.mem_assertSource .., ?_⟩
  have start : ((s.setFlag R.RST_START F.RST_START_TIMEOUT).assertSource 5 0).reg R.RST_START = (s.setFlag R.RST_START F.RST_START_TIMEOUT).reg R.RST_START :=
    State.reg_assertSource rfl (by decide) (by decide) (by decide) (by decide) rfl rfl
  rw [State.flag, State.fld, start]
  exact State.flag_setFlag _ rfl

theorem State.enters_standby (due : s.rst.standbyDue = true) : Answers .standbyEntry s fun t => t.rst.standby = true ∧ t.rst.standbyDue = false := by
  refine ⟨_, congrArg Host.Outcome.next (if_pos due), ?_⟩
  dsimp only
  generalize entered : ({ s with rst := { s.rst with standbyDue := false, standby := true, startTimer := false } } : State) = u
  have rst : (u.ssmRaise 5).rst = u.rst := (State.ssmRaise_kept ..).frame.same .rst rfl
  obtain ⟨-, -, standby, due, -⟩ := (u.ssmRaise 5).applySystem_kept_rst
  rw [standby, due, rst, ← entered]
  exact ⟨rfl, rfl⟩

theorem State.wakes_standby (pin : src ≠ 4) (cancelled : s.rst.transportDue = false) (sleeps : s.rst.standby = true) :
    (s.wake src).rst.standby = false ∧ (s.wake src).reg R.RST_WAKE = BitVec.ofNat 32 src := by
  unfold State.wake
  rw [if_neg (by rw [cancelled]; exact Bool.false_ne_true), if_pos sleeps]
  dsimp only
  rw [if_neg pin]
  exact ⟨rfl, (State.reg_setReg_ne (by decide) _).trans (State.reg_setReg _)⟩

/-- A device that leaves transport is held at power-on reach. -/
def State.powered (s : State) : State :=
  (State.causesBack { s.powerClear with rst := { s.powerClear.rst with sysHold := 2, sysMin := true, released := false } }).recordCause 1 2 0

theorem State.powered_rst (s : State) : s.powered.rst.transport = false ∧ s.powered.rst.sysHold = 2 := by
  have back (u : State) : ((u.causesBack).recordCause 1 2 0).rst = u.rst := (State.causesBack_kept _).frame.same .rst rfl
  have cleared : s.powerClear.rst.transport = false := congrArg RstSt.transport s.powerClear_rst
  rw [State.powered, back]
  exact ⟨cleared, rfl⟩

theorem State.wake_transport (cancelled : s.rst.transportDue = false) (up : s.rst.standby = false) (transport : s.rst.transport = true) :
    s.wake src = (s.powered.setReg R.RST_WAKE (BitVec.ofNat 32 (256 + src))).incSat R.LDG_KAWAKE F.LDG_KAWAKE_PIN := by
  unfold State.wake
  rw [if_neg (by rw [cancelled]; exact Bool.false_ne_true), if_neg (by rw [up]; exact Bool.false_ne_true), if_pos transport]
  rfl

theorem State.wakes_transport (cancelled : s.rst.transportDue = false) (up : s.rst.standby = false) (transport : s.rst.transport = true) :
    (s.wake src).rst.transport = false ∧ (s.wake src).rst.sysHold = 2 ∧ (s.wake src).reg R.RST_WAKE = BitVec.ofNat 32 (256 + src) := by
  have woken (u : State) (w : Word) : ((u.setReg R.RST_WAKE w).incSat R.LDG_KAWAKE F.LDG_KAWAKE_PIN).reg R.RST_WAKE = w :=
    (State.reg_setReg_ne (by decide) _).trans (State.reg_setReg _)
  rw [State.wake_transport cancelled up transport]
  exact ⟨s.powered_rst.1, s.powered_rst.2, woken ..⟩

/-- Settles O44: event by event, each under the condition that its definition tests. -/
theorem resetEvents : Obligations.ResetEvents := by
  intro s id pairs n src
  refine ⟨State.source_asserted, State.system_source, fun level => ?_, fun pulse => ?_, State.hold_ends, State.system_ends, fun awake => ?_, ?_,
    fun _ => ⟨?_, ?_⟩, State.power_back, State.power_lost, State.domain_released, State.start_timed_out, State.enters_standby, fun lo hi cancelled sleeps => ?_,
    fun lo hi cancelled up transport => ?_, fun cancelled sleeps => ?_⟩
  · exact ⟨_, congrArg Host.Outcome.next (if_pos level), State.releaseSource_not_mem _ id (sourcePairs id pairs)⟩
  · exact ⟨_, congrArg Host.Outcome.next (if_neg (by rw [pulse]; exact Bool.false_ne_true)), State.releaseSource_not_mem _ id (sourcePairs id pairs)⟩
  · exact ⟨_, rfl, State.raiseSource_mem awake 3 0⟩
  · exact ⟨_, rfl, State.releaseSource_not_mem s 3 0⟩
  · exact ⟨_, rfl, State.releaseSource_not_mem s 1 0⟩
  · exact ⟨_, rfl, State.mem_assertSource s 1 0⟩
  · exact ⟨_, congrArg Host.Outcome.next (if_pos ⟨lo, hi⟩), State.wakes_standby (by omega) cancelled sleeps⟩
  · exact ⟨_, congrArg Host.Outcome.next (if_pos ⟨lo, hi⟩), State.wakes_transport cancelled up transport⟩
  · exact ⟨_, congrArg Host.Outcome.next (if_pos sleeps), State.wakes_standby (by decide) cancelled sleeps⟩

end Sys2Proof.Machine
end

section
/-!
The start after a reset (chapter 13).
-/
namespace Sys2Proof.Machine

variable {s t u : State} {a b : Nat} {im : Image}

/-! ### What the image's values leave of the reset controller's registers -/

theorem State.reg_fromThr {f : Fld} {i j : Nat} (ne : a ≠ b) (s : State) : (s.fromThr im i j b f).reg a = s.reg a := by
  unfold State.fromThr
  split
  · rfl
  · exact State.reg_setFld_ne ne ..

theorem State.reg_loadMod (low : a < 0x40030000) (s : State) : (s.loadMod im).reg a = s.reg a := by
  have tables (u : State) : (u.each (List.range 4) fun s b =>
      (s.fromThr im (0x0210 + b) 0xFF (R.MOD_TBAND0 + 4 * b) ⟨31, 0⟩).fromThr im (0x0214 + b) 0xFF (R.MOD_TDRV0 + 4 * b) ⟨31, 0⟩).reg a = u.reg a :=
    State.reg_each fun u b _ => (State.reg_fromThr (by unfold R.MOD_TDRV0; omega) _).trans (State.reg_fromThr (by unfold R.MOD_TBAND0; omega) u)
  have dcl (u : State) : (u.each (List.range 16) fun s f => s.fromThr im 0x0220 f R.MOD_DCL ⟨2 * f + 1, 2 * f⟩).reg a = u.reg a :=
    State.reg_each fun u f _ => State.reg_fromThr (by unfold R.MOD_DCL; omega) u
  unfold State.loadMod
  dsimp only
  rw [dcl, State.reg_fromThr (by unfold R.MOD_PDRV; omega), State.reg_fromThr (by unfold R.MOD_PPROF; omega), tables,
    State.reg_fromThr (by unfold R.MOD_IDT; omega), State.reg_fromThr (by unfold R.MOD_SOFT; omega)]

theorem State.reg_setNat (ne : a ≠ b) (s : State) (v : Nat) : (s.setNat b v).reg a = s.reg a := State.reg_setReg_ne ne _

theorem State.reg_loadSense (low : a < 0x40030000) (s : State) : (s.loadSense im).reg a = s.reg a := by
  unfold State.loadSense
  extract_lets s1 s2 s3
  have h1 : s1.reg a = s.reg a := State.reg_each fun u n _ => State.reg_fromThr (by simp only [R.FCV_CHn_FS]; omega) u
  have h2 : s2.reg a = s.reg a := (State.reg_each fun u r _ =>
    (State.reg_setNat (by simp only [R.RNDr_LIMe]; omega) ..).trans (State.reg_setNat (by simp only [R.RNDr_SEQe]; omega) ..)).trans h1
  have h3 : s3.reg a = s.reg a := by
    unfold s3
    split
    · exact h2
    · refine Eq.trans (State.reg_each fun u k _ => ?_) h2
      extract_lets en
      split
      · exact (State.reg_fromThr (by simp only [R.POSk_NOM]; omega) _).trans (State.reg_setNat (by simp only [R.POSk_CFG]; omega) ..)
      · exact State.reg_setNat (by simp only [R.POSk_CFG]; omega) ..
  split
  · exact h3
  · exact (State.reg_each fun u i _ => State.reg_setNat (by simp only [R.SENTi_CFG]; omega) ..).trans h3

theorem State.reg_loadReg (low : a < 0x40030000) (s : State) : (s.loadReg im).reg a = s.reg a := by
  unfold State.loadReg
  split
  · rfl
  · extract_lets s1 s2
    have h2 : s2.reg a = s.reg a := by
      unfold s2 s1
      rw [State.reg_setFld_ne (by unfold R.REG_STATE; omega), State.reg_setNat (by unfold R.REG_CFG; omega), State.reg_setNat (by unfold R.REG_SHED; omega),
        State.reg_setNat (by unfold R.REG_TARGET; omega)]
    refine (State.reg_each fun u p mem => State.reg_fromThr ?_ u).trans h2
    have above : ∀ q ∈ [(0x0601, R.REG_PROT, F.REG_PROT_OV), (0x0602, R.REG_PROT, F.REG_PROT_VINMIN), (0x0603, R.REG_ILIM, F.REG_ILIM_IMAX),
        (0x0604, R.REG_ILIM, F.REG_ILIM_IMIN), (0x0605, R.REG_SS, F.REG_SS_SSTIME), (0x0606, R.REG_SS, F.REG_SS_MARGIN),
        (0x0607, R.REG_SS, F.REG_SS_HICCUP), (0x0608, R.REG_SHEDCFG, F.REG_SHEDCFG_SHEDI), (0x0609, R.REG_SHEDCFG, F.REG_SHEDCFG_ADDI),
        (0x060A, R.REG_SHEDCFG, F.REG_SHEDCFG_SHEDT), (0x060B, R.REG_SHEDCFG, F.REG_SHEDCFG_HOLD), (0x060C, R.REG_SENSE, F.REG_SENSE_GAIN),
        (0x060D, R.REG_SENSE, F.REG_SENSE_ZERO), (0x060E, R.REG_RIPPLE, F.REG_RIPPLE_L), (0x060F, R.REG_RIPPLE, F.REG_RIPPLE_KRIP)],
        0x40030000 ≤ q.2.1 := by decide
    have := above p mem
    omega

theorem State.reg_loadMisc (low : a < 0x40030000) (s : State) : (s.loadMisc im).reg a = s.reg a := by
  unfold State.loadMisc
  extract_lets s1 s2 s3 s4
  have h1 : s1.reg a = s.reg a := State.reg_setFld_ne (by unfold R.LSC_CFG; omega) ..
  have h2 : s2.reg a = s.reg a := (State.reg_each fun u n _ =>
    (State.reg_fromThr (by simp only [R.SSM_WDCFGn]; omega) _).trans (State.reg_fromThr (by simp only [R.SSM_WDCFGn]; omega) u)).trans h1
  have h3 : s3.reg a = s.reg a := (State.reg_fromThr (by unfold R.THM_LIMIT; omega) _).trans ((State.reg_fromThr (by unfold R.THM_LIMIT; omega) _).trans h2)
  have h4 : s4.reg a = s.reg a := by
    unfold s4
    split
    · exact h3
    · exact (State.reg_setFld_ne (by unfold R.THM_TCFG; omega) ..).trans h3
  exact (State.reg_fromThr (by unfold R.NVS_MSCRUB; omega) _).trans
    ((State.reg_each fun u i _ => State.reg_fromThr (by simp only [R.MEM_SCRUBs]; omega) u).trans h4)

/-- The image's values leave the start's register as it is. -/
theorem State.start_loadRegs (s : State) (im : Image) : (s.loadRegs im).reg R.RST_START = s.reg R.RST_START := by
  have low : R.RST_START < 0x40030000 := by decide
  unfold State.loadRegs
  extract_lets s1 s2 s3
  have h1 : s1.reg R.RST_START = s.reg R.RST_START :=
    (State.reg_loadMod low _).trans ((State.reg_each fun u n _ => (State.loadEngine_kept u im n).frame.reg_apart rfl).trans
      ((State.loadPost_kept s im).frame.reg_apart rfl))
  have h2 : s2.reg R.RST_START = s.reg R.RST_START :=
    (State.reg_loadSense low _).trans (((State.loadDrivers_kept ..).frame.reg_apart rfl).trans
      ((State.reg_each fun u r _ => (State.loadLeg_kept u r).frame.reg_apart rfl).trans h1))
  have h3 : s3.reg R.RST_START = s.reg R.RST_START :=
    (State.reg_each fun u r _ => (State.loadPort_kept u r).frame.reg_apart rfl).trans (((State.loadActs_kept ..).frame.reg_apart rfl).trans
      ((State.reg_loadReg low _).trans (((State.loadChg_kept ..).frame.reg_apart rfl).trans h2)))
  exact ((State.loadNets_kept ..).frame.reg_apart rfl).trans (((State.loadPins_kept ..).frame.reg_apart rfl).trans
    ((State.reg_loadMisc low _).trans h3))

/-! ### The release of an admitted image -/

/-- What the release of an image does after the registers have taken its values, up to the start states. -/
def releaseParts : List Part :=
  Part.journal [.tra, .hlv, .eng, .mdl, .ldg, .ssm, .tick, .reg .FEn_EVT, .reg .FEn_WDCNT, .reg .LDG_EVT, .reg .LDG_WQSTAT, .reg .LDG_PNf,
    .reg .SSM_STATE, .reg .SSM_CAUSE, .reg .SSM_EVT, .reg .SSM_PAT0, .reg .SSM_PAT1, .reg .SSM_PATX, .reg .SSM_OTEST]

/-- The image in force, before anything takes its values. -/
def State.inForce (s : State) (im : Image) (slot : Nat) (fallback : Bool) : State :=
  { s with img := some im, imgSlot := slot, fallback := fallback, recovery := if s.mramClosed then s.recovery else some (recoveryOf im),
           ssm := { s.ssm with map := im.ssmMap, mism := [] } }

/-- Tables, registers and units take the image's values; the mismatches are journalled and the override test is made. -/
def State.loaded (s : State) (im : Image) (mism : List (List Byte)) : State :=
  (((((s.loadTables im).loadRegs im).each im.functions fun s f => s.loadFn im f).each mism fun s e => s.journal 5 e).overrideTest).ssmRefresh

/-- The start states, which the units take at the boundary. -/
def State.unitsReleased (s : State) (im : Image) : State :=
  let s6 := State.each { s with mdl := { s.mdl with carrierAt := s.time } } im.startUnits fun s u => s.hwMove u [.off] .idle
  ({ s6 with rst := { s6.rst with unitsOut := true } }).setFld R.RST_STATE F.RST_STATE_PHASE 4

theorem State.release_eq (s : State) (im : Image) (slot : Nat) (fallback : Bool) :
    s.release im slot fallback = ((s.inForce im slot fallback).loaded im s.ssm.mism).unitsReleased im := rfl

theorem State.unitsReleased_spec (s : State) (im : Image) : (s.unitsReleased im).img = s.img ∧ (s.unitsReleased im).rst.unitsOut = true ∧
    (s.unitsReleased im).rst.startTimer = s.rst.startTimer ∧ (s.unitsReleased im).reg R.RST_START = s.reg R.RST_START ∧
    (s.unitsReleased im).fld R.RST_STATE F.RST_STATE_PHASE = 4 := by
  have moves (l : List Nat) (u : State) : Kept [.po] u (u.each l fun s u => s.hwMove u [.off] .idle) := Kept.each (fun _ _ => State.hwMove_kept ..) (.refl _ u)
  have idle := moves im.startUnits { s with mdl := { s.mdl with carrierAt := s.time } }
  have img : (State.each { s with mdl := { s.mdl with carrierAt := s.time } } im.startUnits fun s u => s.hwMove u [.off] .idle).img = s.img :=
    idle.frame.same .img rfl
  have rst : (State.each { s with mdl := { s.mdl with carrierAt := s.time } } im.startUnits fun s u => s.hwMove u [.off] .idle).rst = s.rst :=
    idle.frame.same .rst rfl
  have reg : (State.each { s with mdl := { s.mdl with carrierAt := s.time } } im.startUnits fun s u => s.hwMove u [.off] .idle).reg R.RST_START =
    s.reg R.RST_START := idle.frame.reg_apart rfl
  unfold State.unitsReleased
  dsimp only
  generalize State.each { s with mdl := { s.mdl with carrierAt := s.time } } im.startUnits (fun s u => s.hwMove u [.off] .idle) = u at *
  have shown : (({ u with rst := { u.rst with unitsOut := true } } : State).setFld R.RST_STATE F.RST_STATE_PHASE 4).img = u.img :=
    (State.setFld_kept .RST_STATE { u with rst := { u.rst with unitsOut := true } } F.RST_STATE_PHASE 4).frame.same .img rfl
  have put : (({ u with rst := { u.rst with unitsOut := true } } : State).setFld R.RST_STATE F.RST_STATE_PHASE 4).rst = { u.rst with unitsOut := true } := rfl
  have start : (({ u with rst := { u.rst with unitsOut := true } } : State).setFld R.RST_STATE F.RST_STATE_PHASE 4).reg R.RST_START = u.reg R.RST_START :=
    State.reg_setFld_ne (by decide) ..
  exact ⟨shown.trans img, by rw [put], by rw [put, rst], start.trans reg, (State.fld_setFld _ rfl _).trans rfl⟩

theorem State.loaded_kept (s : State) (im : Image) (mism : List (List Byte)) :
    Kept (.mem :: .regs :: releaseParts) s (s.loaded im mism) ∧ (s.loaded im mism).reg R.RST_START = s.reg R.RST_START := by
  have load : Kept [.mem, .regs, .eng, .mdl] s ((s.loadTables im).loadRegs im) := .via (State.loadRegs_kept ..) rfl ((State.loadTables_kept s im).mono rfl)
  have reg : ((s.loadTables im).loadRegs im).reg R.RST_START = s.reg R.RST_START :=
    (State.start_loadRegs ..).trans ((State.loadTables_kept s im).frame.reg_apart rfl)
  have tail (u : State) : Kept releaseParts u (((u.each im.functions fun s f => s.loadFn im f).each mism fun s e => s.journal 5 e).overrideTest).ssmRefresh :=
    ((((Kept.each (fun u f => State.loadFn_kept u im f) (.refl _ u)).mono rfl).trans
      ((Kept.each (fun u e => State.journal_kept u 5 e) (.refl _ _)).mono rfl)).trans ((State.overrideTest_kept _).mono rfl)).trans
      ((State.ssmRefresh_kept _).mono rfl)
  exact ⟨(load.mono rfl).trans ((tail _).mono rfl), ((tail _).frame.reg_apart rfl).trans reg⟩

/-- What stands after the release of an image. -/
theorem State.release_spec (s : State) (im : Image) (slot : Nat) (fallback : Bool) :
    (s.release im slot fallback).img = some im ∧ (s.release im slot fallback).rst.unitsOut = true ∧
    (s.release im slot fallback).rst.startTimer = s.rst.startTimer ∧
    (s.release im slot fallback).reg R.RST_START = s.reg R.RST_START ∧ (s.release im slot fallback).fld R.RST_STATE F.RST_STATE_PHASE = 4 := by
  rw [State.release_eq]
  obtain ⟨img, out, timer, start, phase⟩ := ((s.inForce im slot fallback).loaded im s.ssm.mism).unitsReleased_spec im
  obtain ⟨kept, same⟩ := (s.inForce im slot fallback).loaded_kept im s.ssm.mism
  have image : ((s.inForce im slot fallback).loaded im s.ssm.mism).img = (s.inForce im slot fallback).img := kept.frame.same .img rfl
  have record : ((s.inForce im slot fallback).loaded im s.ssm.mism).rst = (s.inForce im slot fallback).rst := kept.frame.same .rst rfl
  rw [img, out, timer, start, phase, image, record, same]
  exact ⟨rfl, rfl, rfl, rfl, rfl⟩

/-! ### What the steps of a start keep -/

/-- What the journal, the reads of the MRAM and its error counts write. -/
def readParts : List Part := Part.journal [.err, .memCap, .reg .MEM_EVT, .reg .MEM_LASTINFO, .reg .MEM_CNTs, .reg .NVS_STATE]

theorem State.startStep_spec (s : State) : s.startStep.aon.session = (s.aon.session + 1) % 2 ^ 32 ∧ s.startStep.rst.startTimer = true ∧
    s.startStep.fld R.RST_START F.RST_START_COUNT = min 4 (s.fld R.RST_START F.RST_START_COUNT + 1) := by
  have cleared (u : State) : ((u.clrFlag R.RST_START F.RST_START_PR).clrFlag R.RST_START F.RST_START_FWFAIL).fld R.RST_START F.RST_START_COUNT =
      u.fld R.RST_START F.RST_START_COUNT :=
    (State.fld_setFld_apart _ _ rfl rfl rfl _).trans (State.fld_setFld_apart _ _ rfl rfl rfl _)
  have same (u : State) : ((u.clrFlag R.RST_START F.RST_START_PR).clrFlag R.RST_START F.RST_START_FWFAIL).aon = u.aon ∧
      ((u.clrFlag R.RST_START F.RST_START_PR).clrFlag R.RST_START F.RST_START_FWFAIL).rst = u.rst := ⟨rfl, rfl⟩
  have counted (u : State) (v n : Nat) : ((u.setNat R.RST_PEND v).setFld R.RST_START F.RST_START_COUNT n).journalStart.fld R.RST_START
      F.RST_START_COUNT = n % 2 ^ 3 := ((State.journalStart_kept _).frame.fld_apart rfl _).trans (State.fld_setFld _ rfl _)
  have journal (u : State) (v n : Nat) : ((u.setNat R.RST_PEND v).setFld R.RST_START F.RST_START_COUNT n).journalStart.aon = u.aon ∧
      ((u.setNat R.RST_PEND v).setFld R.RST_START F.RST_START_COUNT n).journalStart.rst = u.rst :=
    ⟨(State.journalStart_kept _).frame.same .aon rfl, (State.journalStart_kept _).frame.same .rst rfl⟩
  unfold State.startStep
  extract_lets _ _ _ s1 s2
  refine ⟨?_, ?_, ?_⟩
  · rw [(same s2).1]
    exact congrArg AonSt.session (journal s1 ..).1
  · rw [(same s2).2]
    exact congrArg RstSt.startTimer (journal s1 ..).2
  · rw [cleared]
    refine (counted s1 ..).trans (Nat.mod_eq_of_lt ?_)
    exact Nat.lt_of_le_of_lt (Nat.min_le_left ..) (by decide)

/-- The registers of the pigeonholes and ports that poste restante mode sets up. -/
def portParts : List Part :=
  [.po, .reg .PHn_CFG, .reg .PHn_LIM, .reg .PHn_BASE, .reg .CANn_MODE, .reg .CANn_TIMING, .reg .CANn_IDS, .reg .ETHp_CFG, .reg .ETHp_MACL,
    .reg .ETHp_MACH, .reg .ETHp_GCLj]

theorem State.posteRestante_spec (s : State) : s.posteRestante.fld R.RST_STATE F.RST_STATE_PHASE = 6 ∧
    s.posteRestante.flag R.RST_START F.RST_START_PR = true ∧ s.posteRestante.rst.startTimer = false ∧
    s.posteRestante.fld R.RST_START F.RST_START_COUNT = s.fld R.RST_START F.RST_START_COUNT ∧ (s.posteRestante.core 0).cond = (s.core 0).cond := by
  have first (u : State) (timer : Bool) (due : List Nat) : ∀ v : State, v = (({ u with rst := { u.rst with startTimer := timer, autoDue := due } } :
      State).setFlag R.RST_START F.RST_START_PR).setFld R.RST_STATE F.RST_STATE_PHASE 6 → v.fld R.RST_STATE F.RST_STATE_PHASE = 6 ∧
        v.flag R.RST_START F.RST_START_PR = true ∧ v.rst.startTimer = timer ∧ v.fld R.RST_START F.RST_START_COUNT = u.fld R.RST_START F.RST_START_COUNT ∧
        v.core 0 = u.core 0 := by
    rintro v rfl
    have keep (w : State) : ((w.setFlag R.RST_START F.RST_START_PR).setFld R.RST_STATE F.RST_STATE_PHASE 6).rst = w.rst ∧
        ((w.setFlag R.RST_START F.RST_START_PR).setFld R.RST_STATE F.RST_STATE_PHASE 6).core 0 = w.core 0 := by
      have kept : Kept [.reg .RST_STATE, .reg .RST_START] w ((w.setFlag R.RST_START F.RST_START_PR).setFld R.RST_STATE F.RST_STATE_PHASE 6) :=
        .via (State.setFld_kept .RST_STATE ..) rfl ((State.setFlag_kept .RST_START ..).mono rfl)
      exact ⟨kept.frame.same .rst rfl, kept.frame.core rfl 0⟩
    refine ⟨(State.fld_setFld _ rfl _).trans rfl, ?_, congrArg RstSt.startTimer (keep _).1, ?_, (keep _).2⟩
    · rw [State.flag, State.fld_setFld_ne (by decide)]
      exact State.flag_setFlag _ rfl
    · rw [State.fld_setFld_ne (by decide), State.setFlag, State.fld_setFld_apart _ _ rfl rfl rfl]
      rfl
  unfold State.posteRestante
  extract_lets eth s' _ s0 s1 s2 can s3
  have other : s'.reg R.RST_START = s.reg R.RST_START ∧ (s'.core 0).cond = (s.core 0).cond := by
    unfold s'
    split
    · exact ⟨rfl, congrArg CoreSt.cond (State.core_updCore_ne _ (by decide))⟩
    · exact ⟨rfl, rfl⟩
  obtain ⟨phase, restante, timer, count, core⟩ := first s' _ _ s1 rfl
  have declared : Kept portParts s1 s2 :=
    ((((State.declare_kept ..).mono rfl).trans ((State.declare_kept ..).mono rfl)).trans ((State.declare_kept ..).mono rfl)).trans
      ((State.declare_kept ..).mono rfl)
  have can : Kept portParts s1 s3 := .via (State.hwMove_kept ..) rfl (.via (State.loadCan_kept ..) rfl declared)
  have ports : Kept portParts s1 (match s'.recovery with
      | none => s3
      | some r => if r.eth.isEmpty then s3
        else (s3.loadEth 0 r.eth fun id => (r.thresh.find? fun x => rf x 0 2 == id).map fun x => rfi x 4 4).hwMove (U.eth 0) [.off] .idle) := by
    split
    · exact can
    · exact .ite can (.via (State.hwMove_kept ..) rfl (.via (State.loadEth_kept ..) rfl can))
  refine ⟨(ports.frame.fld_apart rfl _).trans phase, (ports.frame.flag_apart rfl _).trans restante, ?_, ?_, ?_⟩
  · exact (congrArg RstSt.startTimer (ports.frame.same .rst rfl)).trans timer
  · refine (ports.frame.fld_apart rfl _).trans (count.trans ?_)
    rw [State.fld, other.1]
    rfl
  · exact (congrArg CoreSt.cond ((ports.frame.core rfl 0).trans core)).trans other.2

/-! ### The start -/

/-- What every way of a start keeps: the session and the counter of this start, the time-out running, pair 0 out of its reset, the image as it
was. -/
structure State.Begun (s t : State) : Prop where
  session : t.aon.session = (s.aon.session + 1) % 2 ^ 32
  timer : t.rst.startTimer = true
  count : t.fld R.RST_START F.RST_START_COUNT = min 4 (s.fld R.RST_START F.RST_START_COUNT + 1)
  runs : (t.core 0).cond = .running
  image : t.img = s.img

theorem State.Begun.kept {c : List Part} (h : s.Begun t) (k : Kept c t u) (aon : c.contains .aon = false) (rst : c.contains .rst = false)
    (cores : c.contains .cores = false) (img : c.contains .img = false) (start : c.all (Part.misses R.RST_START) = true) : s.Begun u where
  session := (congrArg AonSt.session (k.frame.same .aon aon)).trans h.session
  timer := (congrArg RstSt.startTimer (k.frame.same .rst rst)).trans h.timer
  count := (k.frame.fld_apart start _).trans h.count
  runs := (congrArg CoreSt.cond (k.frame.core cores 0)).trans h.runs
  image := (k.frame.same .img img).trans h.image

/-- Pair 0 leaves its reset. -/
theorem State.begun (s : State) : s.Begun (s.startStep.pairLeave 0) := by
  obtain ⟨session, timer, count⟩ := s.startStep_spec
  have kept := s.startStep.pairLeave_kept 0
  have first : 0 ∈ s.startStep.coresOf 0 := by
    unfold State.coresOf
    split <;> simp
  refine ⟨(congrArg AonSt.session (kept.frame.same .aon rfl)).trans session, (congrArg RstSt.startTimer (kept.frame.same .rst rfl)).trans timer,
    (kept.frame.fld_apart rfl _).trans count, (State.cond_pairLeave ..).trans (if_pos first), (kept.frame.same .img rfl).trans ?_⟩
  exact (State.startStep_kept s).frame.same .img rfl

theorem State.Begun.posteRestante (h : s.Begun t) : t.posteRestante.aon.session = (s.aon.session + 1) % 2 ^ 32 ∧
    t.posteRestante.fld R.RST_START F.RST_START_COUNT = min 4 (s.fld R.RST_START F.RST_START_COUNT + 1) ∧ (t.posteRestante.core 0).cond = .running ∧
    t.posteRestante.fld R.RST_STATE F.RST_STATE_PHASE = 6 ∧ t.posteRestante.flag R.RST_START F.RST_START_PR = true ∧
    t.posteRestante.rst.startTimer = false := by
  obtain ⟨phase, restante, timer, count, cond⟩ := t.posteRestante_spec
  exact ⟨(congrArg AonSt.session ((State.posteRestante_kept t).frame.same .aon rfl)).trans h.session, count.trans h.count, cond.trans h.runs, phase, restante, timer⟩

/-- What stands where the firmware runs: the image's check has failed or it is in force. -/
def State.FirmwareRuns (s t : State) : Prop :=
  (t.fld R.RST_STATE F.RST_STATE_PHASE = 3 ∧ t.img = s.img ∧ t.rst.startTimer = true) ∨
  (t.fld R.RST_STATE F.RST_STATE_PHASE = 4 ∧ t.img.isSome = true ∧ t.rst.unitsOut = true ∧ t.rst.startTimer = true)

theorem State.Begun.startImage (h : s.Begun t) : t.startImage.aon.session = (s.aon.session + 1) % 2 ^ 32 ∧
    t.startImage.fld R.RST_START F.RST_START_COUNT = min 4 (s.fld R.RST_START F.RST_START_COUNT + 1) ∧ (t.startImage.core 0).cond = .running ∧
    s.FirmwareRuns t.startImage := by
  have kept := t.startImage_kept
  have session := (congrArg AonSt.session (kept.frame.same .aon rfl)).trans h.session
  have runs := (congrArg CoreSt.cond (kept.frame.core rfl 0)).trans h.runs
  have set : s.Begun (t.setFld R.RST_STATE F.RST_STATE_PHASE 3) := h.kept (State.setFld_kept .RST_STATE ..) rfl rfl rfl rfl rfl
  have phase : (t.setFld R.RST_STATE F.RST_STATE_PHASE 3).fld R.RST_STATE F.RST_STATE_PHASE = 3 := (State.fld_setFld _ rfl _).trans rfl
  have read : Kept readParts (t.setFld R.RST_STATE F.RST_STATE_PHASE 3) ((t.setFld R.RST_STATE F.RST_STATE_PHASE 3).readPointers ptrKey) :=
    State.readPointers_kept ..
  have all (u : State) (l : List Nat) : Kept readParts u (firstGood State.admitSlot u l).1 := firstGood_kept rfl State.admitSlot_kept l u
  suffices rest : t.startImage.fld R.RST_START F.RST_START_COUNT = min 4 (s.fld R.RST_START F.RST_START_COUNT + 1) ∧ s.FirmwareRuns t.startImage from
    ⟨session, rest.1, runs, rest.2⟩
  unfold State.startImage
  generalize (t.setFld R.RST_STATE F.RST_STATE_PHASE 3).readPointers ptrKey = s1 at *
  have checked := read.trans (all s1 (s1.slotOrder ptrKey))
  dsimp only
  generalize firstGood State.admitSlot s1 (s1.slotOrder ptrKey) = r at *
  have begun : s.Begun r.1 := set.kept checked rfl rfl rfl rfl rfl
  have third : r.1.fld R.RST_STATE F.RST_STATE_PHASE = 3 := (checked.frame.fld_apart rfl _).trans phase
  obtain ⟨s2, _ | ⟨i, b⟩⟩ := r
  · exact ⟨begun.count, .inl ⟨third, begun.image, begun.timer⟩⟩
  · dsimp only
    generalize (s1.activeSlot ptrKey != some i) = fell
    have free : Kept (Part.journal [.tick]) s2 (if fell = true then s2.journalFree U.sec else s2) := .ite (State.journalFree_kept ..) (.refl ..)
    have begun : s.Begun (if fell = true then s2.journalFree U.sec else s2) := begun.kept free rfl rfl rfl rfl rfl
    generalize (if fell = true then s2.journalFree U.sec else s2) = s3 at *
    obtain ⟨img, out, timer, start, phase⟩ := s3.release_spec (parseImage b) i fell
    refine ⟨?_, .inr ⟨phase, by rw [img]; rfl, out, timer.trans begun.timer⟩⟩
    rw [State.fld, start]
    exact begun.count

theorem State.Begun.fwfail (h : s.Begun t) : s.Begun (t.setFlag R.RST_START F.RST_START_FWFAIL) := by
  have kept := State.setFlag_kept .RST_START t F.RST_START_FWFAIL
  exact ⟨(congrArg AonSt.session (kept.frame.same .aon rfl)).trans h.session, (congrArg RstSt.startTimer (kept.frame.same .rst rfl)).trans h.timer,
    (State.fld_setFld_apart _ _ rfl rfl rfl _).trans h.count, (congrArg CoreSt.cond (kept.frame.core rfl 0)).trans h.runs,
    (kept.frame.same .img rfl).trans h.image⟩

theorem State.Begun.pairLeave (h : s.Begun t) (n : Nat) : s.Begun (t.pairLeave n) := by
  have kept := t.pairLeave_kept n
  refine ⟨(congrArg AonSt.session (kept.frame.same .aon rfl)).trans h.session, (congrArg RstSt.startTimer (kept.frame.same .rst rfl)).trans h.timer,
    (kept.frame.fld_apart rfl _).trans h.count, ?_, (kept.frame.same .img rfl).trans h.image⟩
  rw [State.cond_pairLeave]
  split
  · rfl
  · exact h.runs

theorem State.Begun.loadFirmware (h : s.Begun t) (slot : Nat) (b : List Byte) : s.Begun (t.loadFirmware slot b) := by
  have kept := t.loadFirmware_kept slot b
  refine ⟨(congrArg AonSt.session (kept.frame.same .aon rfl)).trans h.session, (congrArg RstSt.startTimer (kept.frame.same .rst rfl)).trans h.timer,
    (kept.frame.fld_apart rfl _).trans h.count, ?_, (kept.frame.same .img rfl).trans h.image⟩
  rw [State.loadFirmware]
  exact congrArg CoreSt.cond (State.core_updCore ..)

/-- The fifth attempt goes to poste restante mode. -/
theorem State.starts_again (ready : s.startReady = true) (fifth : s.fld R.RST_START F.RST_START_COUNT = 4) :
    execStartSequence s = .next (s.startStep.pairLeave 0).posteRestante := by
  unfold execStartSequence
  rw [if_neg (by rw [ready]; exact Bool.false_ne_true)]
  exact congrArg Host.Outcome.next (if_pos fifth)

/-- Any other start goes to poste restante mode too, or runs the firmware. -/
theorem State.starts (ready : s.startReady = true) (few : s.fld R.RST_START F.RST_START_COUNT < 4) :
    ∃ u, s.Begun u ∧ (execStartSequence s = .next u.posteRestante ∨ execStartSequence s = .next u.startImage) := by
  have all (u : State) (l : List Nat) : Kept readParts u (firstGood State.checkFw u l).1 := firstGood_kept rfl State.checkFw_kept l u
  have set : s.Begun ((s.startStep.pairLeave 0).setFld R.RST_STATE F.RST_STATE_PHASE 2) := s.begun.kept (State.setFld_kept .RST_STATE ..) rfl rfl rfl rfl rfl
  have begun : s.Begun (((s.startStep.pairLeave 0).setFld R.RST_STATE F.RST_STATE_PHASE 2).readPointers fwPtrKey) :=
    set.kept (State.readPointers_kept ..) rfl rfl rfl rfl rfl
  unfold execStartSequence
  rw [if_neg (by rw [ready]; exact Bool.false_ne_true)]
  dsimp only
  rw [if_neg (Nat.ne_of_lt few)]
  generalize ((s.startStep.pairLeave 0).setFld R.RST_STATE F.RST_STATE_PHASE 2).readPointers fwPtrKey = s2 at *
  have checked : s.Begun (firstGood State.checkFw s2 (s2.slotOrder fwPtrKey)).1 := begun.kept (all ..) rfl rfl rfl rfl rfl
  generalize firstGood State.checkFw s2 (s2.slotOrder fwPtrKey) = r at *
  obtain ⟨s3, _ | ⟨i, b⟩⟩ := r
  · exact ⟨_, checked.fwfail, .inl rfl⟩
  · refine ⟨_, State.Begun.loadFirmware (State.each_holds (P := fun t => s.Begun t) (fun t n h => h.pairLeave n) _ s3 checked) i b, .inr rfl⟩

/-- Settles O47: what each way of the start leaves, from what every one of them keeps (`State.Begun`). -/
theorem startSequence : Obligations.StartSequence := by
  intro s ready
  refine ⟨fun fifth => ?_, fun few => ?_⟩
  · obtain ⟨session, -, -, phase, restante, timer⟩ := s.begun.posteRestante
    exact ⟨_, State.starts_again ready fifth, phase, restante, timer, session⟩
  · have next : min 4 (s.fld R.RST_START F.RST_START_COUNT + 1) = s.fld R.RST_START F.RST_START_COUNT + 1 := Nat.min_eq_right few
    obtain ⟨u, begun, act | act⟩ := State.starts ready few
    · obtain ⟨session, count, runs, restante⟩ := begun.posteRestante
      exact ⟨_, act, session, count.trans next, runs, .inl restante⟩
    · obtain ⟨session, count, runs, firmware⟩ := begun.startImage
      exact ⟨_, act, session, count.trans next, runs, .inr firmware⟩

end Sys2Proof.Machine
end

end
